-- ==== Sys2Proof/Word.lean ====
section
/-!
DEFINITION. The word types of the part: registers are 32 bits wide (00_scope, "Registers"), pairs and system
addresses are 64 bits (R23, R432), memories are counted in bytes, and a die is one of D0 to D7 (R2).
-/

namespace Sys2Proof

/-- A 32-bit register word. -/
abbrev Word := BitVec 32

/-- A 64-bit register pair, bank word or system address. -/
abbrev DWord := BitVec 64

/-- One byte. -/
abbrev Byte := BitVec 8

/-- A die, D0 to D7 (R2). -/
abbrev Die := Fin 8

end Sys2Proof
end

