-- ==== Sys2Proof/Syntax.lean ====
section
/-!
DEFINITION. The commands of the block: one constructor per row of spec/opcode_table.json, in the table's order, with the
row's operands, and before it the types of those operands. A command that is a write or a read of a register carries the
master that issues it and the die whose window it goes to; a command that is an event carries what the event reports.
-/

namespace Sys2Proof

/-! ## Operand types -/

/-- The response codes of R310. -/
inductive Resp where
  | ok | targetError | decodeError | accessError | timeout | domainDown | keyDenied | retryExhausted
  deriving DecidableEq, Repr

/-- The code of a response (R310). -/
def Resp.code : Resp → Nat
  | .ok => 0 | .targetError => 1 | .decodeError => 2 | .accessError => 3 | .timeout => 4 | .domainDown => 5
  | .keyDenied => 6 | .retryExhausted => 7

/-- The master classes of R116; the management controllers reach the registers through the mailbox (R117). -/
inductive MClass where
  | coreM | coreSU | seDma | dfd | fab | pen | parser | debug | mgmt
  deriving DecidableEq, Repr

/-- The bit of a master class in a rights register (R116, R130). -/
def MClass.bit : MClass → Nat
  | .coreM => 0 | .coreSU => 1 | .seDma => 2 | .dfd => 3 | .fab => 4 | .pen => 5 | .parser => 6 | .debug => 7
  | .mgmt => 8

/-- A master: its class and its 12-bit requester ID (R3, R116). -/
structure Master where
  cls : MClass
  rid : Nat
  deriving DecidableEq, Repr

/-- The rails of R56, in the order of SYS_RST_CAUSE.DETAIL and THM_VOLTn. -/
inductive Rail where
  | core | hard | ram | lane | laneh | aux
  deriving DecidableEq, Repr

/-- The number of a rail (SYS_RST_CAUSE.DETAIL, R448). -/
def Rail.num : Rail → Nat
  | .core => 0 | .hard => 1 | .ram => 2 | .lane => 3 | .laneh => 4 | .aux => 5

/-- The strap pins read at power-on reset release (R29, R30, R469), and the bank rails that are absent, which are not monitored for
reset (R56, R158): bits 3d and 3d + 1 are the HSIO banks of die d, bit 3d + 2 its HS3 bank. -/
structure Straps where
  bypassEn   : Bool
  bypassRate : Fin 4
  noRail     : BitVec 24
  deriving DecidableEq, Repr

/-- The two alternate-source muxes of R50. -/
inductive AltMux where
  | apc | evt
  deriving DecidableEq, Repr

/-- The wake sources of R444 that come as WAKE_EVENT: a packet, a core interrupt, a start of frame, a sentence commit. -/
inductive WakeSrc where
  | packet | interrupt | frame | sentence
  deriving DecidableEq, Repr

/-! ### The network -/

/-- A 64-bit word with its poison mark (R295, R308). -/
structure MWord where
  v : DWord
  p : Bool
  deriving DecidableEq, Repr

/-- The operations of a REQ flit (R309); `reserved` stands for OP values 12 to 15. -/
inductive NocOp where
  | read | write | atomicAdd | atomicSwap | atomicCas | readShared | readUnique | upgrade | writeback | evict | clean
  | cleanInval | reserved
  deriving DecidableEq, Repr

/-- The code of an operation (R309). -/
def NocOp.code : NocOp → Nat
  | .read => 0 | .write => 1 | .atomicAdd => 2 | .atomicSwap => 3 | .atomicCas => 4 | .readShared => 5
  | .readUnique => 6 | .upgrade => 7 | .writeback => 8 | .evict => 9 | .clean => 10 | .cleanInval => 11 | .reserved => 12

/-- A request of a master (R194, R305): `size` bytes from `addr`. A write carries one word for each 64-bit word it touches,
from the one that holds `addr`, and their byte enables; with no byte enables given, the `size` bytes from `addr` are
enabled. An atomic carries its operand, then for CAS its compare value. -/
structure Req where
  m    : Master
  tag  : Fin 512
  op   : NocOp
  addr : DWord
  size : Nat
  data : List MWord
  be   : List Byte
  deriving DecidableEq, Repr

/-- A cached line's name: bits [53:6] of its system address, the KeyID included (R22). -/
abbrev LineId := Nat

/-! ### What the image declares to the hard blocks (R93: which frame bits hold it is not documented) -/

/-- The safe value of a signal that leaves a region (R200). -/
inductive Safe where
  | zero | one | hold
  deriving DecidableEq, Repr

/-- A reconfigurable region (R199). -/
structure RegionDecl where
  fcLo  : Nat
  fcHi  : Nat
  rowLo : Nat
  rowHi : Nat
  slots : BitVec 64
  ports : BitVec 32
  pairs : BitVec 8
  /-- The block memories and arithmetic slices that Grigo assigns to the region's strips (R198). -/
  bmems  : List Nat
  slices : List Nat
  /-- The safe values of the signals that leave the region, the output pins in it, and the crossing groups sent from it, by edge × 1,024
  + number (R200). -/
  outs   : List Safe
  pins   : List Nat
  xings  : List Nat
  deriving DecidableEq, Repr

/-- What a clock network or a CKMUX2 input may carry (R149, R53): a fabric tap, output `m` of user PLL `n`, the output of a CKMUX2, a
clock-capable HSIO pair (4 in each bank), or, at a CKMUX2 only, a signal of fabric logic. -/
inductive ClkSrc where
  | tap (n : Fin 16) | pll (n : Fin 8) (m : Fin 4) | mux (k : Nat) | pair (p : Fin 8) | logic
  deriving DecidableEq, Repr

/-- A CKMUX2 (R53): the clock region it is placed in, and its inputs I0 and I1. -/
structure MuxDecl where
  region : Nat
  i0     : ClkSrc
  i1     : ClkSrc
  deriving DecidableEq, Repr

/-- A global track (R149): the one source that drives it, and the clock regions that it is enabled into. -/
structure GTrack where
  src     : ClkSrc
  regions : BitVec 120
  deriving DecidableEq, Repr

/-- A clock track (R149): a global one, or track `t` of a clock region. -/
inductive Track where
  | global (g : Fin 24) | regional (q : Fin 120) (t : Fin 8)
  deriving DecidableEq, Repr

/-- The control set of a half-tile (R140): CLK and its inversion, CE or the constant 1, SR or the constant 0, and SR_MODE. -/
structure HalfCfg where
  clk    : Track
  inv    : Bool
  ceOne  : Bool
  srZero : Bool
  srSync : Bool
  deriving DecidableEq, Repr

/-- What D of a flip-flop takes (R141): for FFA FOUT, the carry sum or XA; for FFB HOUT, the carry out or XB. -/
inductive FfIn where
  | func | carry | bypass
  deriving DecidableEq, Repr

/-- A flip-flop's own values (R140) and its D input (R141). -/
structure FfCfg where
  init  : Bool
  srval : Bool
  d     : FfIn
  deriving DecidableEq, Repr

/-- The CI of cell 0 of a tile (R142). -/
inductive CarryIn where
  | below | zero | one | xa
  deriving DecidableEq, Repr

/-- The organisations of distributed RAM (R144). -/
inductive MemMode where
  | mem64 | mem64d | mem64q | mem128 | mem256 | mem512
  deriving DecidableEq, Repr

/-- The modes of a function generator (R139, R144). -/
inductive CellMode where
  | f6 | f5pair | shift | mem
  deriving DecidableEq, Repr

/-- A cell (R139, R142 to R144): its mode and truth table, whether GEN of its carry stage is XB or HOUT, whether a shift register takes
SHOUT of the cell below or XA, and the organisation of the distributed RAM it belongs to. -/
structure CellCfg where
  mode  : CellMode
  truth : DWord
  genXb : Bool
  chain : Bool
  mem   : MemMode
  deriving DecidableEq, Repr

/-- What a block-memory port's latch takes on a write (R169). -/
inductive LatchMode where
  | old | new | keep
  deriving DecidableEq, Repr

/-- A block-memory port's attributes (R167, R169): log2 of its data width, and its latch and output register. -/
structure BmPort where
  logW     : Fin 7
  latch    : LatchMode
  pipe     : Bool
  dorstval : BitVec 72
  deriving DecidableEq, Repr

/-- A block memory's attributes (R169 to R171, R174): its ports and the tracks that clock them, ECC, its initial contents as (byte
address, extra bit and data byte), and the length of its cascade chain with its place there; length 0 where it is in none. -/
structure BmCfg where
  a     : BmPort
  b     : BmPort
  clkA  : Track
  clkB  : Track
  ecc   : Bool
  init  : List (Nat × BitVec 9)
  chain : Fin 17
  place : Fin 16
  deriving DecidableEq, Repr

/-- One track clocks both ports (R170). -/
def BmCfg.sameClk (c : BmCfg) : Bool := c.clkA == c.clkB

/-- An arithmetic slice's attributes (R176, R178, R180). -/
structure ArithCfg where
  aDepth   : Fin 3
  bDepth   : Fin 3
  cDepth   : Fin 2
  dDepth   : Fin 2
  ctlDepth : Fin 2
  preReg   : Bool
  mulReg   : Bool
  accReg   : Bool
  narReg   : Bool
  oWidth   : Nat
  sat      : Bool
  aLink    : Bool
  bLink    : Bool
  clk      : Track
  deriving DecidableEq, Repr

/-- The I/O standards (R154, R156), with the voltage in tenths of a volt; `diff` is a differential HSTL or SSTL input, and `lvds` says
whether it has the internal termination. -/
inductive IoStd where
  | lvcmos (v : Nat) | lvttl | hstl (v : Nat) | sstl (v : Nat) | lvds (term : Bool) | diff
  deriving DecidableEq, Repr

/-- The SLEEP attribute and the fence value of an output pin (R158, R200). -/
inductive Rest where
  | highZ | low | high | keep
  deriving DecidableEq, Repr

/-- A pull of an HS3 pin (R156). -/
inductive Pull where
  | none | up | down | keeper
  deriving DecidableEq, Repr

/-- Whether an I/O cell's register is used, and as a DDR register (R154). -/
inductive IoReg where
  | none | single | ddr
  deriving DecidableEq, Repr

/-- An I/O cell (R154, R156, R158, R200): its standard, whether the design drives the pin, drive strength in mA and slew, open drain and
pull (HS3), its input, output and enable registers, the ratio of its serialiser and deserialiser (1: none), the taps of its delays
and whether the fabric sets them at run time, its clock, and its SLEEP and fence values. -/
structure IoCfg where
  std    : IoStd
  output : Bool
  drive  : Nat
  fast   : Bool
  odrain : Bool
  pull   : Pull
  inReg  : IoReg
  outReg : IoReg
  oeReg  : IoReg
  ratio  : Nat
  inTap  : Fin 512
  outTap : Fin 512
  dyn    : Bool
  clk    : Track
  sleep  : Rest
  fence  : Rest
  deriving DecidableEq, Repr

/-- A crossing-line group toward a neighbour (R151, R200): SYNC or ASYNC mode, the clock of its send side, and the safe value of its
lines, if it is sent from a region. -/
structure XingDecl where
  sync : Bool
  clk  : ClkSrc
  safe : Safe
  deriving DecidableEq, Repr

/-- A kernel slot that the image declares (FAB_KSLOT_CFGk). -/
structure KslotDecl where
  ktype    : BitVec 16
  portmask : BitVec 32
  deriving DecidableEq, Repr

/-- A target window of a fabric NoC port (FAB_NOCP_WINp). -/
structure WinDecl where
  base : Nat
  log2 : Nat
  deriving DecidableEq, Repr

/-- What the image makes of one die's fabric: regions, kernel slots, target windows and port FIFOs by number, and primitives by site
(R139 to R199). Control sets are by half-tile, cells by tile × 8 + cell, the CI of cell 0 by tile; pins 0 to 95 are the HSIO pins and 96
to 119 the HS3 pins. -/
structure DieDesign where
  regions : List (Nat × RegionDecl)
  kslots  : List (Nat × KslotDecl)
  windows : List (Nat × WinDecl)
  pfifos  : BitVec 16
  ffs     : List (Nat × FfCfg)
  halves  : List (Nat × HalfCfg)
  cells   : List (Nat × CellCfg)
  carry   : List (Nat × CarryIn)
  bmems   : List (Nat × BmCfg)
  slices  : List (Nat × ArithCfg)
  /-- The global tracks by number, the regional tracks by region × 8 + number, and the CKMUX2 primitives (R149). -/
  gtracks : List (Nat × GTrack)
  rtracks : List (Nat × ClkSrc)
  muxes   : List (Nat × MuxDecl)
  pins    : List (Nat × IoCfg)
  /-- Crossing groups by edge × 1,024 + number (R151). -/
  xings   : List (Nat × XingDecl)
  /-- The clocks of the port-FIFO pairs (R181), of the kernel slots (R188) and of the NoC ports (R192), by number. -/
  pclk    : List (Nat × ClkSrc)
  kclk    : List (Nat × ClkSrc)
  nclk    : List (Nat × ClkSrc)
  /-- The event lines that EVTIRQ primitives drive, each with the region its primitive lies in (R429). -/
  irqs    : List (Nat × Option Nat)
  deriving DecidableEq, Repr

/-- A tile of a die (R138). -/
structure Tile where
  x : Fin 400
  y : Fin 768
  deriving DecidableEq, Repr

/-! ### Flash and security -/

/-- What a flash device's SFDP read gave (R80, R81): whether it answered with a valid table, which part it is, and its
page, largest uniform erase size and capacity in bytes. -/
structure Sfdp where
  ok     : Bool
  part   : Nat
  page   : Nat
  sector : Nat
  size   : Nat
  deriving DecidableEq, Repr

/-- The tamper pins (R132). -/
inductive TamperPin where
  | tamper0 | tamper1
  deriving DecidableEq, Repr

/-- The JTAG instructions the security rules name (R128, R129, R135). -/
inductive JtagInstr where
  | idcode | bypass | secChal | secResp | other
  deriving DecidableEq, Repr

/-! ### Fabric ports -/

/-- The inputs of a tile's cells (R139): I5..I0 of each, and their XA and XB. -/
structure TileIn where
  i  : Vector (BitVec 6) 8
  xa : Byte
  xb : Byte
  deriving DecidableEq, Repr

/-- What an I/O cell's registers see on an edge of its clock (R154, R156): a falling edge, for DDR; the level of the pin; what the fabric
gives the output and the enable; the bits that a serialiser takes and that a deserialiser has received; and the delays, where the fabric
sets them. -/
structure IoDrive where
  fall   : Bool
  pad    : Bool
  o      : Bool
  oe     : Bool
  ser    : Byte
  des    : Byte
  inTap  : Fin 512
  outTap : Fin 512
  deriving DecidableEq, Repr

/-- A clocked site of the fabric's edge: flip-flop FFA or FFB of a cell of a tile (2 × cell, and 1 more for FFB), with the levels of CE and
SR (R141); the registers of an I/O cell; or the registered end of a crossing-line group, sending a word or receiving one (R151). -/
inductive FfSite where
  | cell (tile : Tile) (ff : Fin 16) (ce sr : Bool)
  | io (pin : Fin 120) (drive : IoDrive)
  | send (edge : Fin 4) (group : Fin 540) (word : Word) (valid : Bool)
  | recv (edge : Fin 4) (group : Fin 540) (ready : Bool)
  deriving DecidableEq, Repr

/-- What drives a block-memory port on an edge (R169 to R174). -/
structure BmDrive where
  en     : Bool
  we     : Byte
  addr   : BitVec 15
  di     : BitVec 72
  poison : Bool
  chkwr  : Bool
  doce   : Bool
  dorst  : Bool
  /-- CASC_ADDR (R174). -/
  casc   : Fin 16
  deriving DecidableEq, Repr

/-- What drives an arithmetic slice on an edge (R176): its inputs, the enable of each stage, and RST. -/
structure ArithDrive where
  a     : BitVec 26
  b     : BitVec 22
  c     : BitVec 64
  d     : BitVec 26
  accFn : Fin 8
  preFn : Fin 4
  shift : BitVec 6
  ce    : BitVec 5
  rst   : Bool
  deriving DecidableEq, Repr

/-- A word of a port FIFO: its data and its sideband (R182). -/
structure FWord where
  data : BitVec 512
  sb   : BitVec 64
  deriving DecidableEq, Repr

/-- A kernel completion (R188). -/
structure KCpl where
  ticket : BitVec 16
  status : Fin 4
  ntok   : Fin 8
  data   : List DWord
  deriving DecidableEq, Repr

/-! ### Lanes and frames -/

/-- What the coding layers of a port report with a frame (R374, R376): codewords corrected and not correctable, symbols
corrected, invalid sync headers, a frame marked in error, and the fill of the receive elastic buffer at the frame's end. -/
structure Coding where
  corr   : Nat
  uncorr : Nat
  sym    : Nat
  sync   : Nat
  err    : Bool
  fill   : Fin 65
  deriving DecidableEq, Repr

/-! ## The commands -/

/-- The first reading back of a frame comes back wrong on a die, and so does the second or not (R94). -/
structure FrameWrong where
  die   : Die
  fa    : Fin 368640
  twice : Bool
  deriving DecidableEq, Repr

/-- A flash operation fails at an address: an erased sector is found not blank, or the flash reports a failure or runs out of time
(R111). -/
structure FlashFail where
  addr     : Nat
  notBlank : Bool
  deriving DecidableEq, Repr

/-- A command: an operation from outside or an event, as the table lists them. An operand with a default value tells of something that the
ordinary course of the event does not bring; the default stands for its absence. -/
inductive Instr where
  /-- REGISTER_WRITE (R4). A write to a register that has no row of its own sets its fields under the access types, after the decode and form checks. -/
  | registerWrite (m : Master) (die : Die) (off size : Nat) (data : DWord) (poison : Bool)
  /-- READ_CLEAR (R5). A read of a register with RC fields returns their values and clears them in the whole register. -/
  | readClear (m : Master) (die : Die) (off size : Nat)
  /-- HIGH_HALF_READ (R433). A 32-bit read of the high half of a 64-bit counter or pop register returns the held value for the holding requester, or the live value or zero otherwise. -/
  | highHalfRead (m : Master) (die : Die) (off : Nat)
  /-- POWER_ON_RESET (R56). A rail under its rising threshold, or VCC_AUX under its falling threshold, asserts power-on reset on every die. -/
  | powerOnReset (rail : Rail)
  /-- POR_RELEASE (R56). Every rail at or above its rising threshold for 4 ms releases power-on reset and starts HOUSEKEEP. -/
  | porRelease (straps : Straps)
  /-- BROWN_OUT (R57). A rail other than VCC_AUX under its falling threshold for 2 µs raises a DEVICE-scope reset. -/
  | brownOut (rail : Rail) (die : Die := 0)
  /-- LOCK_UP (R58). An application core trapping on the first instruction of its machine-mode trap handler raises the lock-up reset cause. -/
  | lockUp (die : Die) (core : Fin 4)
  /-- WATCHDOG_EXPIRY (R58). Expiry of a die's SYS watchdog raises the watchdog reset cause with the scope of SYS_RST_REACH1. -/
  | watchdogExpiry (die : Die)
  /-- WDT_KICK (R58). A write to SYS_WDT_KICK restarts the count with the key value and expires the watchdog at once with any other value. -/
  | wdtKick (m : Master) (die : Die) (key : Word)
  /-- WDT_ENABLE (R63). Setting SYS_WDT_CTRL.EN starts the watchdog counting. -/
  | wdtEnable (m : Master) (die : Die) (v : Word)
  /-- PROG_N_LOW (R72). PROG_N held low for 1 µs or longer is recognised as a RECONFIG-scope pin reset, except in Lockdown. -/
  | progNLow
  /-- PROG_N_RISE (R72). PROG_N rising after a pin reset resumes start-up at HOUSEKEEP. -/
  | progNRise
  /-- DEBUG_RESET (R58). An ndmreset request from a debug module raises the debug reset cause with the scope of SYS_RST_REACH2. -/
  | debugReset (die : Die)
  /-- SOFTWARE_RESET (R58). A write to SYS_RST_SW with the valid key and GO raises the software reset cause with the scope of SYS_RST_REACH3. -/
  | softwareReset (m : Master) (die : Die) (key : BitVec 16) (go : Bool)
  /-- BLOCKS_RESET_RELEASE (R65). After 1 µs a BLOCKS-scope cause clears its MASK bits and the blocks leave reset together. -/
  | blocksResetRelease (die : Die)
  /-- RST_BLOCK_WRITE (R64). A write to SYS_RST_BLOCK holds or releases blocks, whose accepted requests complete with TARGET_ERROR on entry. -/
  | rstBlockWrite (m : Master) (die : Die) (hold : BitVec 14)
  /-- CONFIG_CLEAR_DONE (R66). Clearing of configuration memory completes after 1.5 ms on all dies. -/
  | configClearDone
  /-- HOUSEKEEP_END (R69). With roots locked and configuration memory clear, the head die reads its temperature and enters HEATER_HOLD or releases INIT_N. -/
  | housekeepEnd (temp : Int)
  /-- HEATER_HOLD_END (R69). The head die at or above T_HOLD for 1 s ends heater hold and hands HEATER_EN to the thermal plant. -/
  | heaterHoldEnd (temp : Int)
  /-- INIT_N_HIGH (R70). The first high reading of INIT_N ends INIT_WAIT and starts LOAD. -/
  | initNHigh (mode : Fin 8)
  /-- FLASH_SETUP (R80). After the 1 ms wait the Parser reads each device's SFDP table and switches it to 8D-8D-8D mode, failing with FLASH on a bad device. -/
  | flashSetup (dev0 dev1 : Sfdp) (attempt : Bool := true)
  /-- JTAG_PROGRAM (R71). An image arrives over IEEE 1532 programming while MODE selects JTAG. -/
  | jtagProgram (image : List Byte)
  /-- IMAGE_HEADER (R88). The image header is read whole and checked for hash, format, part, stepping, key hash, signature, SVN, policy and key. -/
  | imageHeader (names : BitVec 8 := 0)
  /-- SEGMENT_READ (R88). A segment is read whole, its hash chain checked with up to two re-reads, decrypted and its tag checked before its records are used. -/
  | segmentRead (disturbed : Fin 4)
  /-- FRAMES (R90). A FRAMES record writes COUNT frames from its payload on each named die. -/
  | frames (wrong : Option FrameWrong := none)
  /-- SPARSE (R90). A SPARSE record writes one frame from a mask and the listed 64-bit words. -/
  | sparse (wrong : Option FrameWrong := none)
  /-- FILL (R90). A FILL record writes COUNT frames with a repeated pattern. -/
  | fill (wrong : Option FrameWrong := none)
  /-- COPY (R90). A COPY record copies frames already written by this load to another range. -/
  | copy (wrong : Option FrameWrong := none)
  /-- SIGS (R90). A SIGS record stores the golden signatures of a range of frames. -/
  | sigs
  /-- SIGMAP (R90). A SIGMAP record marks frames as dynamic. -/
  | sigmap
  /-- REG (R92). A REG record writes CLK, THM, NOC and EVT registers at once and holds writes for other blocks until the GSR step. -/
  | reg
  /-- WAKE (R90). A WAKE record sets CFG_WAKE_SEQ and CFG_WAKE_CFG on every die. -/
  | wake
  /-- END (R90). An END record ends the stream, checks frame completeness and the wake-up sequence, and completes the load. -/
  | endRecord (design : List (Nat × DieDesign))
  /-- OPTIONAL_RECORD (R90). A record of an optional type is skipped. -/
  | optionalRecord
  /-- WAKE_LOCK (R74). The LOCK step completes once every root is LOCKED and every enabled user PLL is locked. -/
  | wakeLock
  /-- LOCK_TIMEOUT (R76). LOCK unsatisfied within LOCK_TMO stops the wake-up and fails the load. -/
  | lockTimeout
  /-- WAKE_GOE (R74). The GOE step enables HSIO and HS3 outputs as the image declares. -/
  | wakeGoe
  /-- WAKE_GSR (R74). The GSR step releases global set-reset, applies held REG writes, releases hard blocks and starts DDR training. -/
  | wakeGsr
  /-- WAKE_GWE (R74). The GWE step enables writes to flip-flops and fabric memories. -/
  | wakeGwe
  /-- WAKE_DDRW (R74). The DDRW step completes when every enabled DDR channel has finished training. -/
  | wakeDdrw
  /-- DDRW_TIMEOUT (R76). DDRW unsatisfied within DDRW_TMO continues the sequence, raises DDR_TRAIN_FAIL and unmaps the untrained channels. -/
  | ddrwTimeout
  /-- WAKE_CORE (R74). The CORE step releases the application cores whose release bit is set. -/
  | wakeCore
  /-- WAKE_LANE (R77). The LANE step moves lane pairs not kept by LANE_KEEP from bypass to the port engine through 1 µs of electrical idle. -/
  | wakeLane
  /-- WAKE_DONE (R74). The DONE step releases DONE, sets PHASE to RUNNING and raises CFG_DONE. -/
  | wakeDone
  /-- WAKE_END (R74). An END slot ends the wake-up sequence. -/
  | wakeEnd
  /-- TAMPER_PIN (R132). A TAMPER pin at its active level for 3 cycles of the 32.768 kHz oscillator is a tamper event. -/
  | tamperPin (pin : TamperPin) (level : Bool) (also : BitVec 8 := 0)
  /-- VGLITCH (R132). A core, hard or aux rail outside ±12 % for 2 ns is a voltage-glitch tamper event. -/
  | vglitch (die : Die) (rail : Rail) (also : BitVec 8 := 0)
  /-- CKGLITCH (R132). A short phase of a root reference or the /8 tap is a clock-glitch tamper event. -/
  | ckglitch (die : Die) (also : BitVec 8 := 0)
  /-- TAMPER_TEMP (R132). A die temperature outside TEMP_LO to TEMP_HI for 10 ms is a tamper event. -/
  | tamperTemp (die : Die) (temp : Int) (also : BitVec 8 := 0)
  /-- MESH_CHECK (R132). The periodic lid-mesh check finds an open or short and raises a tamper event. -/
  | meshCheck (fault : Bool) (also : BitVec 8 := 0)
  /-- LOCKDOWN_ERASE_DONE (R135). The bulk erase of configuration memory in Lockdown completes after 1.5 ms. -/
  | lockdownEraseDone
  /-- TAMPER_LOG_CLEAR (R136). Clearing SOURCES bits of SEC_TAMPER_LOG clears COUNT, WHEN and FIRST when SOURCES reaches zero. -/
  | tamperLogClear (m : Master) (v : Word)
  /-- TAMPER_CFG_LOCK (R133). Setting SEC_TAMPER_CFG.LOCK freezes the tamper settings until power-on. -/
  | tamperCfgLock (m : Master) (v : Word)
  /-- REF_SEL_WRITE (R35). A write changing CLK_REF_CTRL.SEL starts a glitch-free switch of the reference mux. -/
  | refSelWrite (m : Master) (die : Die) (sel : Fin 8) (auto : Bool)
  /-- REF_MUX_OLD_LOW (R35). The mux sees a low phase of the old input and stops passing it. -/
  | refMuxOldLow (die : Die)
  /-- REF_MUX_NEW_LOW (R35). The mux sees a low phase of the new input, starts passing it and ends the switch. -/
  | refMuxNewLow (die : Die)
  /-- REFMUX_STUCK (R36). A switch not complete after 1,024 periods of the new input raises STUCK and CLK_REFMUX_STUCK. -/
  | refmuxStuck (die : Die)
  /-- REF_FORCE (R38). A CLK_REF_CTRL write with FORCE in HOLDOVER switches the mux at once to the named active input. -/
  | refForce (m : Master) (die : Die) (sel : Fin 8) (auto : Bool)
  /-- REF_EDGE_LOSS (R34). No edge within 4 nominal periods clears an input's ACTIVE and QUAL. -/
  | refEdgeLoss (die : Die) (inp : Fin 5)
  /-- REF_EDGE_RETURN (R34). An input's next edge sets ACTIVE again. -/
  | refEdgeReturn (die : Die) (inp : Fin 5)
  /-- REF_QUALIFIED (R34). An input active for QUAL_TIME, with a passed measurement once locked, becomes qualified. -/
  | refQualified (die : Die) (inp : Fin 5)
  /-- FREQ_MEASUREMENT (R34). A 10 ms frequency measurement of every enabled input ends and passes or clears QUAL. -/
  | freqMeasurement (die : Die) (ppb : Vector Int 5) (fofs : Word)
  /-- ROOT_LOCK (R40). Phase error within the window for 1,024 reference periods moves ACQUIRE to LOCKED and starts the hard clocks on first lock. -/
  | rootLock (die : Die)
  /-- ROOT_REF_LOSS (R37). Loss of reference edges, or a frequency failure with HOLD_ON_FREQ, moves the PLL to HOLDOVER, to OFF, or to a clock-failure reset. -/
  | rootRefLoss (die : Die)
  /-- ROOT_PHASE_LOSS (R40). Phase error outside the window for 16 periods moves LOCKED to HOLDOVER or a clock-failure reset. -/
  | rootPhaseLoss (die : Die)
  /-- ROOT_RELOCKED (R40). The root within 0.01 ppm of the reference for 1 s moves RELOCK to LOCKED. -/
  | rootRelocked (die : Die)
  /-- ANALOGUE_UNLOCK (R40). The analogue loop unlocking raises a clock-failure reset. -/
  | analogueUnlock (die : Die)
  /-- HIST_VALID_SET (R40). The PLL in LOCKED continuously for HOLD_AVG sets HIST_VALID. -/
  | histValidSet (die : Die)
  /-- GATE_WRITE (R48). A CLK_GATE_ENk write applies closures deepest first and openings shallowest first, refusing all if any would be refused. -/
  | gateWrite (m : Master) (die : Die) (k : Fin 5) (v : Word)
  /-- ALT_SWITCH (R50). A CLK_ALT_CTRL source write starts a glitch-free switch of the cluster or event-controller clock. -/
  | altSwitch (m : Master) (die : Die) (mux : AltMux) (src : Fin 4)
  /-- ALT_SWITCH_COMPLETE (R50). The alternate-source mux sees the awaited low phases and completes its switch. -/
  | altSwitchComplete (die : Die) (mux : AltMux)
  /-- ALT_STUCK (R50). An alternate switch not complete after 1,024 cycles of the new source raises STUCK and CLK_MUX_STUCK. -/
  | altStuck (die : Die) (mux : AltMux)
  /-- ALT_FORCE (R50). A FORCE write while STUCK switches the alternate mux at once. -/
  | altForce (m : Master) (die : Die) (mux : AltMux) (src : Fin 4)
  /-- UPLL_ENABLE (R51). A CLK_UPLL_CTRLn write setting EN starts the user PLL after the range checks. -/
  | upllEnable (m : Master) (die : Die) (n : Fin 8) (v : Word)
  /-- UPLL_MEASURE (R51). The 10 µs measurement of a user PLL's input sets or clears LIMIT and holds outputs low while a limit is broken. -/
  | upllMeasure (die : Die) (n : Fin 8) (edges : Bool) (hz : Nat)
  /-- UPLL_LOCK (R51). A user PLL reaches lock within 100 µs of the later of its EN write and a good measurement. -/
  | upllLock (die : Die) (n : Fin 8)
  /-- UPLL_UNLOCK (R52). 16 phase-detector periods outside the lock window declare unlock and raise CLK_UPLL_UNLOCK. -/
  | upllUnlock (die : Die) (n : Fin 8)
  /-- CKMUX2_SEL (R53). A change of CKMUX2 SEL starts a glitch-free switch of the fabric clock mux. -/
  | ckmux2Sel (die : Die) (mux : Nat) (sel : Bool)
  /-- CKMUX2_FORCE (R53). CKMUX2 FORCE makes O follow the selected input at once. -/
  | ckmux2Force (die : Die) (mux : Nat) (force : Bool)
  /-- CKMUX2_STUCK (R53). A CKMUX2 switch not complete after 1,024 new-input cycles raises STUCK. -/
  | ckmux2Stuck (die : Die) (mux : Nat) (atNew : Bool := false)
  /-- CLK_MON_START (R54). A CLK_MON_CTRL write with START begins a frequency measurement window. -/
  | clkMonStart (m : Master) (die : Die) (v : Word)
  /-- CLK_MON_DONE (R54). The measurement window ends with COUNT, DONE and NO_CLOCK set. -/
  | clkMonDone (die : Die) (count : Word)
  /-- CONFIRM (R101). A write of the key to CFG_CONFIRM programs a CONFIRM entry for a pending running image or reports NOT_NEEDED. -/
  | confirm (m : Master) (key : Word)
  /-- CONFIRM_PROGRAMMED (R101). Programming of the CONFIRM entry ends with CONF CONFIRMED or FAILED. -/
  | confirmProgrammed (ok : Bool)
  /-- VERIFY_SLOT (R88). CFG_CMD VERIFY_SLOT checks a flash slot's whole stream without writing anything. -/
  | verifySlot (m : Master) (slot : Fin 4)
  /-- VERIFY_MEM (R88). CFG_CMD VERIFY_MEM checks an image in memory without writing anything. -/
  | verifyMem (m : Master)
  /-- LOAD_MEM (R203). CFG_CMD LOAD_MEM loads a partial image from memory into fenced regions. -/
  | loadMem (m : Master) (names : BitVec 8 := 0)
  /-- WARM_BUILD (R106). CFG_CMD WARM_BUILD re-reads the running slot and writes each die's warm region. -/
  | warmBuild (m : Master)
  /-- WARM_BUILD_DONE (R106). A warm build ends with digests stored, VALID set and CFG_WARM_DONE raised, or fails with VALID at 0. -/
  | warmBuildDone
  /-- CFG_CMD_COMPLETE (R104). A CFG_CMD operation ends with its error in CFG_CMD_STATUS, DONE set and CFG_CMD_DONE raised. -/
  | cfgCmdComplete
  /-- WARM_DIGEST_RECOMPUTED (R206). After a partial load into a die with a valid warm image, the recomputed digest sets VALID and raises CFG_WARM_DONE. -/
  | warmDigestRecomputed (die : Die)
  /-- WARM_PARSER_START (R109). Once every die has resumed DRAM, the Parsers read and hash their warm regions. -/
  | warmParserStart (attempt : Bool := true)
  /-- NVC_ERASE (R110). NVC_CMD ERASE erases and blank-checks sectors of the logical flash. -/
  | nvcErase (m : Master)
  /-- NVC_PROGRAM (R111). NVC_CMD PROGRAM blank-checks target pages and programs them from memory. -/
  | nvcProgram (m : Master)
  /-- NVC_BLANK_CHECK (R110). NVC_CMD BLANK_CHECK reports whether a range is all 0xFF. -/
  | nvcBlankCheck (m : Master)
  /-- NVC_READ (R110). NVC_CMD READ copies flash to a system address. -/
  | nvcRead (m : Master)
  /-- NVC_RESET_FLASH (R110). NVC_CMD RESET_FLASH pulses the flash reset and repeats the SFDP set-up. -/
  | nvcResetFlash (m : Master)
  /-- NVC_COMPLETE (R111). A flash operation ends with its result code, DONE set, unlock bits cleared and NVC_DONE raised. -/
  | nvcComplete (fail : Option FlashFail)
  /-- XIP_READ (R114). A read of the flash aperture is served through the read buffer, suspending a busy erase or program if needed. -/
  | xipRead (m : Master) (off : Fin 0x40000) (size : Nat)
  /-- NVC_RESUME (R115). After a suspending read is served, the suspended flash operation resumes. -/
  | nvcResume
  /-- BB_WRITE (R125). SEC_CMD BB_WRITE stores a key and version in the inactive BBRAM slot. -/
  | bbWrite (m : Master)
  /-- BB_ERASE_OLD (R125). SEC_CMD BB_ERASE_OLD zeroises the BBRAM slot that is not the newest valid one. -/
  | bbEraseOld (m : Master)
  /-- FUSE_KEY_PROGRAM (R123). SEC_CMD FUSE_KEY_PROGRAM blows the AES fuse key and its check word. -/
  | fuseKeyProgram (m : Master)
  /-- PKH_PROGRAM (R120). SEC_CMD PKH_PROGRAM blows a public-key hash and its check word. -/
  | pkhProgram (m : Master) (arg : Byte)
  /-- PKH_REVOKE (R121). SEC_CMD PKH_REVOKE blows the revoke fuse of a public-key hash. -/
  | pkhRevoke (m : Master) (arg : Byte)
  /-- SVN_COMMIT (R122). SEC_CMD SVN_COMMIT raises the security-version floor to the running image's SVN. -/
  | svnCommit (m : Master)
  /-- POLICY_PROGRAM (R137). SEC_CMD POLICY_PROGRAM blows the policy fuses from SEC_KEY_DATA0. -/
  | policyProgram (m : Master)
  /-- LC_ADVANCE (R119). SEC_CMD LC_ADVANCE blows the next life-cycle pair, wipes secure banks, clears the warm image and resets. -/
  | lcAdvance (m : Master) (arg : Byte)
  /-- LOCKDOWN (R137). SEC_CMD LOCKDOWN raises a SOFT tamper event. -/
  | lockdownCmd (m : Master)
  /-- SEC_CMD_COMPLETE (R137). A security command ends with its result, zeroised key registers, DONE set and SEC_CMD_DONE raised. -/
  | secCmdComplete (ok : Bool)
  /-- SEC_CHAL (R128). Capturing SEC_CHAL shifts out a fresh nonce and the device ID, voiding the previous nonce. -/
  | secChal
  /-- SEC_RESP (R128). A response shifted in through SEC_RESP starts verification of the signed debug level. -/
  | secResp (v : BitVec 784)
  /-- UNLOCK_VERIFIED (R128). Verification of a debug unlock ends, setting DBG_LEVEL or counting a failure toward lockout. -/
  | unlockVerified
  /-- JTAG_INSTRUCTION (R129). An instruction loaded while DEPLOYED is locked raises a JTAG tamper event or acts as BYPASS. -/
  | jtagInstruction (instr : JtagInstr)
  /-- RIGHTS_LOCK (R131). Setting SEC_RIGHTS_LOCK.LOCK freezes the KeyID and NVC rights registers. -/
  | rightsLock (m : Master)
  /-- CAPTURE_ARM (R161). A CFG_CAP_CTRL write with ARM arms a snapshot capture with its trigger, clock and delay. -/
  | captureArm (m : Master) (die : Die) (v : Word)
  /-- CAPTURE_ABORT (R162). ABORT returns an armed or delaying capture to IDLE. -/
  | captureAbort (m : Master) (die : Die)
  /-- CAPTURE_TRIGGER (R161). The trigger edge arrives, by software timing or CAPTRIG, and STATE becomes DELAYING. -/
  | captureTrigger (die : Die)
  /-- CAPTURE_EDGE (R161). The DELAYth edge after the trigger captures every shadow. -/
  | captureEdge (die : Die)
  /-- CAPTURE_DONE (R161). 16 ns after the capture edge STATE becomes CAPTURED with SNAP_VALID and CFG_CAPTURED. -/
  | captureDone (die : Die)
  /-- CAPTURE_CLK_STOPPED (R162). 1 ms without a selected-clock edge while armed sets CLK_STOPPED. -/
  | captureClkStopped (die : Die)
  /-- READBACK_START (R165). A CFG_RB_CTRL write with START begins copying frames or capture frames to memory. -/
  | readbackStart (m : Master) (die : Die) (v : Word)
  /-- READBACK_DONE (R165). A readback ends with its result, DONE set and CFG_RB_DONE raised. -/
  | readbackDone (die : Die)
  /-- XING_GROUP_UP (R152). A crossing-line group comes up when both dies have passed GSR. -/
  | xingGroupUp (die : Die) (edge : Fin 4)
  /-- XING_UNDERRUN (R153). A SYNC group whose send clock stops holds its last word and sets UNDERRUN. -/
  | xingUnderrun (die : Die) (edge : Fin 4) (group : Fin 540)
  /-- XING_RECENTRE (R153). A SYNC group re-centres within 8 receive cycles after its send clock returns. -/
  | xingRecentre (die : Die) (edge : Fin 4) (group : Fin 540)
  /-- BMEM_PORT_OP (R169). A block-memory port with EN writes the enabled bytes and reads the addressed word into its latch. -/
  | bmemPortOp (die : Die) (site : Fin 4096) (a b : Option BmDrive)
  /-- PFIFO_INGRESS_TRANSFER (R183). An ingress FIFO word transfers on an edge with I_VALID and I_READY. -/
  | pfifoIngressTransfer (die : Die) (fifo : Fin 8)
  /-- PFIFO_INGRESS_DROP (R184). I_DROP with I_VALID discards the rest of the presented frame. -/
  | pfifoIngressDrop (die : Die) (fifo : Fin 8)
  /-- PFIFO_EGRESS_TRANSFER (R185). An egress FIFO word transfers on an edge with E_VALID and E_READY. -/
  | pfifoEgressTransfer (die : Die) (fifo : Fin 8) (word : FWord)
  /-- PFIFO_EGRESS_DROP (R186). E_DROP with E_VALID aborts the frame being written. -/
  | pfifoEgressDrop (die : Die) (fifo : Fin 8)
  /-- KSLOT_DESC_TRANSFER (R188). A kernel-slot descriptor transfers when K_DESC_VALID and K_DESC_READY are both 1. -/
  | kslotDescTransfer (die : Die) (slot : Fin 64) (idle : Bool := false)
  /-- KSLOT_COMPLETION (R189). A kernel completion is accepted by the endpoint or discarded as a bad completion. -/
  | kslotCompletion (die : Die) (slot : Fin 64) (cpl : KCpl) (idle : Bool := false)
  /-- KSLOT_COMPLETION_RELEASE (R190). The endpoint passes a held completion to the dispatcher once all earlier writes of its masked ports are acknowledged. -/
  | kslotCompletionRelease (die : Die) (slot : Fin 64)
  /-- NOC_PORT_REQUEST (R194). A fabric NoC port request transfers and is carried on the NoC under an internal tag. -/
  | nocPortRequest (die : Die) (port : Fin 32) (op : Fin 8) (addr : DWord) (len : Fin 64) (size : Bool) (tag : Fin 256)
  /-- NOC_PORT_WRITE_BEAT (R193). A write-data beat transfers on a fabric NoC port. -/
  | nocPortWriteBeat (die : Die) (port : Fin 32) (data : BitVec 512) (be : DWord) (poison : Byte) (last : Bool)
  /-- NOC_TARGET_REQUEST (R196). A request to a port's fabric user-space window is presented to the fabric or refused with TARGET_ERROR. -/
  | nocTargetRequest (die : Die) (port : Fin 32) (tag : Fin 64) (req : Req)
  /-- NOC_TARGET_RESPONSE (R196). The fabric's response on the target side is returned to the requester. -/
  | nocTargetResponse (die : Die) (port : Fin 32) (tag : Fin 64) (resp : Resp) (data : List MWord)
  /-- CMPSTRM_TX (R340). A flit transfers from the fabric into a RAW companion edge. -/
  | cmpstrmTx (die : Die) (flit : List Byte)
  /-- CMPSTRM_RX (R340). A received raw flit transfers to the fabric. -/
  | cmpstrmRx (die : Die)
  /-- EVTIRQ_LEVEL (R429). The IRQ input of an EVTIRQ primitive changes the level of its USR device event. -/
  | evtirqLevel (line : Fin 32) (level : Bool)
  /-- FENCE_CLOSE (R201). A write of FENCE = 1 to an ACTIVE region starts its closing and takes its kernel slots offline. -/
  | fenceClose (m : Master) (die : Die) (region : Fin 32) (mode : Fin 4) (tmo : Fin 4096)
  /-- PR_SLOTS_OFFLINE (R201). Each slot of a draining region becomes OFFLINE once it has no outstanding execution and K_IDLE is 1. -/
  | prSlotsOffline (die : Die) (region : Fin 32) (idle : DWord)
  /-- PR_PORTS_DRAINED (R201). A region's NoC ports reach zero outstanding, write back their caches, and its FIFOs are flushed. -/
  | prPortsDrained (die : Die) (region : Fin 32)
  /-- PR_FENCED (R201). 16 ns after the drain the wrappers close and the region becomes FENCED. -/
  | prFenced (die : Die) (region : Fin 32) (outs : List Bool := []) (pins : BitVec 120 := 0)
  /-- PR_CLOSE_TIMEOUT (R202). Slots not offline after TMO abandon the closing or, in FORCE mode, are aborted. -/
  | prCloseTimeout (die : Die) (region : Fin 32)
  /-- FENCE_RELEASE (R207). A write of FENCE = 0 to a FENCED region starts its release. -/
  | fenceRelease (m : Master) (die : Die) (region : Fin 32)
  /-- PR_ACTIVE (R207). 64 ns after the release write the region becomes ACTIVE and FAB_PR_RELEASED is raised. -/
  | prActive (die : Die) (region : Fin 32)
  /-- SWEEP_SLOT (R210). The readback engine checks the frame of the current sweep slot against its golden signature. -/
  | sweepSlot (die : Die) (flips : List Nat) (glitch : Bool) (sigErr : Fin 3)
  /-- SWEEP_ENABLE (R211). Writing CFG_SWEEP_CTRL.EN stops the sweep or restarts it from frame 0. -/
  | sweepEnable (m : Master) (die : Die) (v : Word)
  /-- REPAIR_FROM_WARM (R212). A queued frame read from the warm image is written and checked, recording FIXED_WARM or waiting for flash. -/
  | repairFromWarm (die : Die) (wrong : Bool := false)
  /-- FLASH_PASS_START (R213). A flash pass starts re-reading the running slot when frames wait for one. -/
  | flashPassStart
  /-- FLASH_PASS_FRAME (R213). As the stream passes a waiting frame it is written and checked, recording FIXED_FLASH. `wrong` tells that
  the written frame reads back wrong twice (R94). -/
  | flashPassFrame (die : Die) (fa : Fin 368640) (wrong : Bool)
  /-- NOP (R225). NOP issues with no effect. -/
  | nop (die : Die) (eng : Fin 48)
  /-- BR (R232). BR branches after two delay slots. -/
  | br (die : Die) (eng : Fin 48)
  /-- BRC (R232). BRC branches after two delay slots when SA meets COND. -/
  | brc (die : Die) (eng : Fin 48)
  /-- CALL (R232). CALL branches and writes the link into S31. -/
  | call (die : Die) (eng : Fin 48)
  /-- JR (R232). JR jumps to SA[13:0] after two delay slots. -/
  | jr (die : Die) (eng : Fin 48)
  /-- RETI (R235). RETI returns to IPC and sets IE after two delay slots. -/
  | reti (die : Die) (eng : Fin 48)
  /-- REP (R233). REP repeats the next LEN instructions CNT times. -/
  | rep (die : Die) (eng : Fin 48)
  /-- DONE (R243). DONE stops issue and ends the execution with NTOK output tokens once everything has drained. -/
  | doneOp (die : Die) (eng : Fin 48)
  /-- INT (R237). INT sets or clears IE as IEN or IDIS. -/
  | intOp (die : Die) (eng : Fin 48)
  /-- MOVC (R219). MOVC moves a value between an S register and a control register. -/
  | movc (die : Die) (eng : Fin 48)
  /-- WAIT (R225). WAIT holds issue until the named DMA channels are idle or the doorbell is pending. -/
  | wait (die : Die) (eng : Fin 48)
  /-- DMA (R239). DMA starts a channel from a 32-byte descriptor in data memory. -/
  | dma (die : Die) (eng : Fin 48)
  /-- BXSET (R225). BXSET sets the block exponent. -/
  | bxset (die : Die) (eng : Fin 48)
  /-- SALU (R226). SALU performs the scalar function selected by FUNC. -/
  | salu (die : Die) (eng : Fin 48)
  /-- ADDI (R225). ADDI adds a sign-extended immediate. -/
  | addi (die : Die) (eng : Fin 48)
  /-- ANDI (R225). ANDI ANDs a zero-extended immediate. -/
  | andi (die : Die) (eng : Fin 48)
  /-- ORI (R225). ORI ORs a zero-extended immediate. -/
  | ori (die : Die) (eng : Fin 48)
  /-- XORI (R225). XORI XORs a zero-extended immediate. -/
  | xori (die : Die) (eng : Fin 48)
  /-- LUI (R225). LUI loads an immediate into the upper half. -/
  | lui (die : Die) (eng : Fin 48)
  /-- SHI (R225). SHI shifts SA by an immediate count. -/
  | shi (die : Die) (eng : Fin 48)
  /-- SLTI (R225). SLTI sets SD when SA is below a signed immediate. -/
  | slti (die : Die) (eng : Fin 48)
  /-- PMOV (R225). PMOV moves between an S register and a pointer, modifier or length register. -/
  | pmov (die : Die) (eng : Fin 48)
  /-- PADD (R223). PADD adds an immediate to a pointer with circular wrap. -/
  | padd (die : Die) (eng : Fin 48)
  /-- LDS (R223). LDS loads a 32-bit word from data memory. -/
  | lds (die : Die) (eng : Fin 48) (guard : Bool := false)
  /-- STS (R223). STS stores a 32-bit word to data memory. -/
  | sts (die : Die) (eng : Fin 48) (guard : Bool := false)
  /-- LDV (R223). LDV loads 64 bytes into a vector register. -/
  | ldv (die : Die) (eng : Fin 48) (guard : Bool := false)
  /-- STV (R223). STV stores a vector register to data memory. -/
  | stv (die : Die) (eng : Fin 48) (guard : Bool := false)
  /-- LDVB (R223). LDVB broadcasts one 16-bit element to every lane. -/
  | ldvb (die : Die) (eng : Fin 48) (guard : Bool := false)
  /-- VALU (R227). VALU performs the lane-wise function selected by FUNC. -/
  | valu (die : Die) (eng : Fin 48)
  /-- VSH (R228). VSH shifts each lane by SB[5:0]. -/
  | vsh (die : Die) (eng : Fin 48)
  /-- VBRD (R225). VBRD broadcasts an S register into every lane. -/
  | vbrd (die : Die) (eng : Fin 48)
  /-- VEXT (R225). VEXT extracts one lane into an S register. -/
  | vext (die : Die) (eng : Fin 48)
  /-- VMAC (R229). VMAC multiplies 16-bit lanes and sets, adds or subtracts into an accumulator. -/
  | vmac (die : Die) (eng : Fin 48)
  /-- VACC (R229). VACC adds a shifted lane value into an accumulator. -/
  | vacc (die : Die) (eng : Fin 48)
  /-- VNAR (R230). VNAR narrows accumulator lanes to 16-bit lanes with truncation or saturation. -/
  | vnar (die : Die) (eng : Fin 48)
  /-- BEXP (R231). BEXP folds the minimum redundant-sign count into BX. -/
  | bexp (die : Die) (eng : Fin 48)
  /-- WAIT_RELEASE (R225). A holding WAIT releases when its condition holds. -/
  | waitRelease (die : Die) (eng : Fin 48) (held : Nat)
  /-- DONE_COMPLETION (R243). Once issued instructions, DMA and stores have drained, DONE sends its completion and the engine goes IDLE. -/
  | doneCompletion (die : Die) (eng : Fin 48)
  /-- INTERRUPT_TAKEN (R235). A pending enabled interrupt at an interruptible slot saves IPC, clears IE and starts the handler. -/
  | interruptTaken (die : Die) (eng : Fin 48)
  /-- DOORBELL (R235). A write to SEA_DOORBELLi sets the doorbell pending bit. -/
  | doorbell (m : Master) (die : Die) (eng : Fin 48)
  /-- DMA_CHANNEL_DONE (R240). A DMA channel ends when every request has completed and sets its done pending bit. -/
  | dmaChannelDone (die : Die) (eng : Fin 48) (ch : Fin 2)
  /-- DMA_RESPONSE_ERROR (R241). A non-OK response stops the channel issuing and records the first code. -/
  | dmaResponseError (die : Die) (eng : Fin 48) (ch : Fin 2) (after : Nat) (resp : Resp)
  /-- SE_NOC_ACCESS (R217). A NoC access to an engine's data or program memory is served in a bank cycle under the core's priority and the guard. -/
  | seNocAccess (req : Req)
  /-- SE_ABORT (R244). ABORT from the dispatcher stops issue and DMA and puts the engine into ABORTING. -/
  | seAbort (die : Die) (eng : Fin 48) (ticket : BitVec 16)
  /-- ABORTING_END (R244). The last outstanding request completes and the aborting engine becomes IDLE. -/
  | abortingEnd (die : Die) (eng : Fin 48)
  /-- SEA_START (R245). START in STANDALONE mode begins execution at SEA_ENTRYi. -/
  | seaStart (m : Master) (die : Die) (eng : Fin 48)
  /-- SEA_HALT (R245). HALT stops issue at the next interruptible slot and enters HALTING. -/
  | seaHalt (m : Master) (die : Die) (eng : Fin 48)
  /-- HALT_COMPLETE (R245). A halting engine reaches HALTED once drained, then starts if a START was latched. -/
  | haltComplete (die : Die) (eng : Fin 48)
  /-- SEA_MODE (R245). A write of SEA_CTRLi.MODE moves the engine between the dispatcher pool and stand-alone mode. -/
  | seaMode (m : Master) (die : Die) (eng : Fin 48) (mode : Bool)
  /-- TOKEN_WRITE (R254). A token write to DFD_TOKEN is counted, discarded or refused. -/
  | tokenWrite (m : Master) (die : Die) (token : DWord)
  /-- DEFERRED_PLACE (R255). Deferred firings are placed in ascending OPID order as room returns. -/
  | deferredPlace (die : Die)
  /-- SPILL_LINE_WRITE (R257). A full line, or a partial line idle for 64 cycles, of spill entries is written to its sub-ring. -/
  | spillLineWrite (die : Die) (prio : Fin 8)
  /-- SPILL_WRITE_ERROR (R259). A non-OK spill write response defers its entries, sets ERR and stops spilling. -/
  | spillWriteError (die : Die) (prio : Fin 8)
  /-- REFILL (R257). With 64 free shared entries a line of the highest-priority sub-ring is moved back on chip. -/
  | refill (die : Die)
  /-- REFILL_ERROR (R259). A refill error or bad entry loses the affected entries. -/
  | refillError (die : Die)
  /-- ISSUE (R261). The dispatcher picks a class, entry and eligible unit and issues it under a fresh ticket. -/
  | issue (die : Die)
  /-- COMPLETION (R264). A unit's completion is handled by its ticket state, delivering, retrying or discarding its tokens. -/
  | completion (die : Die)
  /-- REMOTE_TOKEN_RESPONSE (R271). The response to a token sent to another die arrives, and a non-OK response counts the token as lost. -/
  | remoteTokenResponse (die : Die) (net : Resp)
  /-- TICKET_RELEASE (R263). A REVOKED ticket is released when its unit can no longer complete it. -/
  | ticketRelease (die : Die) (ticket : BitVec 16)
  /-- DESCRIPTOR_WRITE (R252). A write to an operation descriptor word is checked against VALID and the class rules. -/
  | descriptorWrite (m : Master) (die : Die) (op : Fin 8192) (w : Fin 8) (value : Word)
  /-- CQ_POP (R267). A read of DFD_CQ_POPc takes the oldest unpopped entry and copies its descriptor. -/
  | cqPop (m : Master) (die : Die) (queue : Fin 4)
  /-- CQ_COMPLETE (R267). A write of DFD_CQ_CPLc completes a popped ticket with its status and tokens once the core's stores are acknowledged. -/
  | cqComplete (m : Master) (die : Die) (queue : Fin 4) (status : Fin 4) (ntok : Fin 8) (ticket : BitVec 16)
  /-- CQ_FLUSH (R267). FLUSH releases every ticket of a core queue and empties it. -/
  | cqFlush (m : Master) (die : Die) (queue : Fin 4)
  /-- MIGRATE_OP (R269). DFD_CMD MIGRATE_OP revokes and re-issues every live ticket of a migratable operation. -/
  | migrateOp (m : Master) (die : Die) (op : BitVec 16)
  /-- EVACUATE_UNIT (R268). DFD_CMD EVACUATE_UNIT clears a unit's enable bit and migrates its live tickets. -/
  | evacuateUnit (m : Master) (die : Die) (unit : BitVec 16)
  /-- ABORT_OP (R268). DFD_CMD ABORT_OP revokes an operation's tickets and drops its entries, deferrals and count. -/
  | abortOp (m : Master) (die : Die) (op : BitVec 16)
  /-- ABORT_UNIT (R268). DFD_CMD ABORT_UNIT revokes every live ticket on a unit. -/
  | abortUnit (m : Master) (die : Die) (unit : BitVec 16)
  /-- EPOCH_CLOSE (R273). DFD_CMD EPOCH_CLOSE sets the closing scope to CLOSING until it is quiescent. -/
  | epochClose (m : Master) (die : Die)
  /-- EPOCH_ABORT (R275). DFD_CMD EPOCH_ABORT revokes tickets, empties lists and counts, and advances the epoch at once. -/
  | epochAbort (m : Master) (die : Die)
  /-- EPOCH_ROUND (R274). Every 128 cycles the head die collects quiescence and forward counts from every die. -/
  | epochRound
  /-- EPOCH_BOUNDARY (R273). On the boundary tick counts are zeroed, RESIDUAL stored, the epoch advanced and DFD_EPOCH_DONE raised. -/
  | epochBoundary (die : Die)
  /-- EPOCH_SLOW (R273). A closing not done after TMO ms sets SLOW and raises DFD_EPOCH_SLOW. -/
  | epochSlow (die : Die)
  /-- DFD_ENABLE (R276). A write of DFD_CTRL.ENABLE starts issue or moves the dispatcher to STOPPING. -/
  | dfdEnable (m : Master) (die : Die) (enable : Bool)
  /-- DFD_STOPPED (R276). A stopping dispatcher with no live ticket becomes STOPPED and raises DFD_STOPPED. -/
  | dfdStopped (die : Die)
  /-- BANK_ACCESS (R283). A read or write to bank memory is checked for owner, handover, wipe, power and form, then served. -/
  | bankAccess (req : Req)
  /-- BANK_ATOMIC (R292). An atomic to bank memory recalls the line and is performed at the bank. -/
  | bankAtomic (req : Req)
  /-- OWNER_CHANGE (R284). A permitted write of BNK_CTRLb.OWNER starts a claim or handover. -/
  | ownerChange (m : Master) (die : Die) (bank : Fin 8) (owner : BitVec 13)
  /-- HANDOVER_COMPLETE (R285). After drain, recall and any secure wipe, OWNER takes NEXT_OWNER and BNK_HANDOVER is raised. -/
  | handoverComplete (die : Die) (bank : Fin 8)
  /-- BANK_POWER_REQUEST (R287). A write of BNK_CTRLb.POWER starts or latches a bank power transition. -/
  | bankPowerRequest (m : Master) (die : Die) (bank : Fin 8) (power : Fin 4)
  /-- BANK_POWER_REACHED (R287). A bank power transition completes, raising BNK_POWER and starting any latched request. -/
  | bankPowerReached (die : Die) (bank : Fin 8)
  /-- BANK_WIPE (R291). A WIPE write zeroes a bank under the wipe procedure. -/
  | bankWipe (m : Master) (die : Die) (bank : Fin 8)
  /-- WIPE_DONE (R290). A wipe finishes zeroing after 66 µs and raises BNK_WIPE_DONE. -/
  | wipeDone (die : Die) (bank : Fin 8)
  /-- SECURE_SET (R289). A supervisor setting BNK_CTRL7.SECURE declares bank 7 secure. -/
  | secureSet (m : Master) (die : Die)
  /-- ECC_CHK_READ (R298). A read of BNK_ECC_CHK returns the stored check byte and syndrome of the selected word. -/
  | eccChkRead (m : Master) (die : Die)
  /-- ECC_CHK_WRITE (R298). A write of BNK_ECC_CHK stores CHECK as the check byte of the selected word. -/
  | eccChkWrite (m : Master) (die : Die) (check : Byte)
  /-- PACKET_INJECT (R312). A packet is injected on the virtual channel that its destination domain's state selects, or refused with DOMAIN_DOWN or DECODE_ERROR. -/
  | packetInject (req : Req)
  /-- PACKET_PARK (R312). A packet reaching a domain below RUN is parked and wakes the domain. -/
  | packetPark (rid : Nat) (tag : Fin 512)
  /-- PARKED_DELIVERY (R312). Parked packets are delivered once the domain reaches RUN. -/
  | parkedDelivery (die : Die)
  /-- COMPLETION_TIMEOUT (R315). A request not completed within TMO returns TIMEOUT and its tag is quarantined. -/
  | completionTimeout (rid : Nat) (tag : Fin 512)
  /-- QUARANTINE_EXPIRY (R315). A quarantined tag is released 4 × TMO after injection. -/
  | quarantineExpiry (rid : Nat) (tag : Fin 512)
  /-- LATE_COMPLETION (R315). A completion for a quarantined tag is discarded and releases the tag. -/
  | lateCompletion (rid : Nat) (tag : Fin 512)
  /-- NOC_READ (R309). A READ request is performed at its target, snooping cached copies for non-coherent masters. -/
  | nocRead (req : Req)
  /-- NOC_WRITE (R309). A WRITE request is performed at its target, invalidating cached copies for non-coherent masters. -/
  | nocWrite (req : Req)
  /-- READ_SHARED (R319). A READ_SHARED fill is granted by the home after any needed snoop. -/
  | readShared (m : Master) (line : LineId)
  /-- READ_UNIQUE (R319). A READ_UNIQUE fill invalidates every holder and grants ownership. -/
  | readUnique (m : Master) (line : LineId)
  /-- UPGRADE (R319). An UPGRADE invalidates other holders and moves S to E. -/
  | upgrade (m : Master) (line : LineId)
  /-- WRITEBACK (R319). A WRITEBACK writes a dirty evicted line home and removes the die. -/
  | writeback (die : Die) (line : LineId)
  /-- EVICT (R319). An EVICT removes a clean line's die from the directory. -/
  | evict (die : Die) (line : LineId)
  /-- CLEAN (R309). A CLEAN writes back a dirty line and keeps it. -/
  | cleanOp (m : Master) (line : LineId)
  /-- CLEAN_INVAL (R309). A CLEAN_INVAL writes back if dirty and invalidates everywhere. -/
  | cleanInval (m : Master) (line : LineId)
  /-- SNP_SHARED (R319). A SNP_SHARED snoop moves the die's copy to S, returning dirty data. -/
  | snpShared (die : Die) (line : LineId)
  /-- SNP_INVAL (R319). A SNP_INVAL snoop invalidates the line in the die's caches. -/
  | snpInval (die : Die) (line : LineId)
  /-- SNP_RECALL (R319). A SNP_RECALL snoop invalidates the line and returns dirty data. -/
  | snpRecall (die : Die) (line : LineId)
  /-- RLC_FLUSH (R325). RLC_CTRL.FLUSH writes back and invalidates the remote line cache. -/
  | rlcFlush (m : Master) (die : Die)
  /-- RLC_FLUSH_DONE (R325). A remote line cache flush ends and raises RLC_FLUSH_DONE. -/
  | rlcFlushDone (die : Die)
  /-- RLC_ECC_ARM (R324). Arming RLC_ECC_FLIP corrupts the check bits of the next data-array write. -/
  | rlcEccArm (m : Master) (die : Die) (flip : Byte)
  /-- FLIT_RECEIVE (R329). A Biril flit is checked and accepted, or discarded with a NAK. -/
  | flitReceive (die : Die) (edge : Fin 4) (module : Fin 6) (flit : List Byte)
  /-- REPLAY_TIMEOUT (R329). 256 ns without acknowledgement progress replays from the oldest unacknowledged flit. -/
  | replayTimeout (die : Die) (edge : Fin 4) (module : Fin 6)
  /-- FATAL_KNOWN (R331). Every router learns the Fatal edge, completing affected requests and applying lost-line handling. -/
  | fatalKnown (die : Die) (edge : Fin 4)
  /-- MODULE_TRAINED (R333). A module completes UCIe training with lane repair. -/
  | moduleTrained (die : Die) (edge : Fin 4) (module : Fin 6)
  /-- TRAIN_FAIL (R333). A module not trained within 500 µs fails with TRAIN_FAIL. -/
  | trainFail (die : Die) (edge : Fin 4) (module : Fin 6)
  /-- CAPS_SEND (R333). Each end sends a CAPS flit every 1 µs until the exchange is done. -/
  | capsSend (die : Die) (edge : Fin 4)
  /-- CAPS_RECEIVE (R334). A received CAPS block is checked and the edge becomes UP, RAW or DOWN. -/
  | capsReceive (die : Die) (edge : Fin 4) (block : List Byte)
  /-- NO_CAPS (R334). No valid CAPS within 100 µs of training takes the edge DOWN. -/
  | noCaps (die : Die) (edge : Fin 4)
  /-- BDL_TEST (R343). Arming BDL_TEST corrupts the CRC of the next COUNT transmissions of one module. -/
  | bdlTest (m : Master) (die : Die) (arm : Bool) (edge : Fin 4) (module : Fin 8) (count : Fin 16)
  /-- DDR_REQUEST (R357). A DRAM-window request is judged by the MEE and queued at its channel. -/
  | ddrRequest (req : Req)
  /-- DDR_SERVE (R352). The scheduler serves a queued read or write to its bank. -/
  | ddrServe (die : Die) (ctl : Fin 2) (sub : Fin 2)
  /-- WRITE_DRAIN_START (R352). A write queue at 48 entries, or no read waiting, starts a write drain. -/
  | writeDrainStart (die : Die) (ctl : Fin 2) (sub : Fin 2)
  /-- AGE_PROMOTE (R351). A request waiting longer than its class AGE is promoted to class 0. -/
  | agePromote (die : Die) (ctl : Fin 2) (sub : Fin 2) (seq : Nat)
  /-- TRAINING_DONE (R354). A channel finishes training and becomes READY. -/
  | trainingDone (die : Die) (ctl : Fin 2) (temp : Byte)
  /-- TRAINING_FAIL (R354). A channel that fails to train enters FAILED and raises DDR_TRAIN_FAIL. -/
  | trainingFail (die : Die) (ctl : Fin 2)
  /-- REFRESH (R355). The refresh interval expires and all-bank refresh is issued. -/
  | refresh (die : Die) (ctl : Fin 2)
  /-- TEMP_RETRAIN (R356). A 20 °C temperature move triggers incremental retraining in the next refresh window. -/
  | tempRetrain (die : Die) (ctl : Fin 2) (temp : Byte)
  /-- DDR_ECC_FLIP (R348). Arming DDR_ECC_FLIP corrupts device symbols of the next burst written. -/
  | ddrEccFlip (m : Master) (die : Die) (ctl : Fin 2) (v : Word)
  /-- MAP_SET_ENABLE (R350). Writing EN of an interleave set checks and enables it. -/
  | mapSetEnable (m : Master) (die : Die) (set : Fin 8) (v : Word)
  /-- LOAD_CURRENT (R362). MEE LOAD_CURRENT loads a KeyID's current key, EMPTY to ACTIVE. -/
  | loadCurrent (m : Master) (die : Die) (inst : Fin 2) (keyid : Fin 64) (device : Bool)
  /-- LOAD_NEXT (R362). MEE LOAD_NEXT stages a next key, ACTIVE to STAGED. -/
  | loadNext (m : Master) (die : Die) (inst : Fin 2) (keyid : Fin 64) (device : Bool)
  /-- ABANDON (R362). MEE ABANDON zeroises the next key, STAGED to ACTIVE. -/
  | abandon (m : Master) (die : Die) (inst : Fin 2) (keyid : Fin 64) (device : Bool)
  /-- REKEY (R364). MEE REKEY starts the re-key engine over a line range, STAGED to REKEYING. -/
  | rekey (m : Master) (die : Die) (inst : Fin 2) (keyid : Fin 64) (device : Bool)
  /-- PROMOTE (R362). MEE PROMOTE makes the next key current, REKEYED to ACTIVE. -/
  | promote (m : Master) (die : Die) (inst : Fin 2) (keyid : Fin 64) (device : Bool)
  /-- CLEAR (R362). MEE CLEAR zeroises both keys and stops any re-key. -/
  | meeClear (m : Master) (die : Die) (inst : Fin 2) (keyid : Fin 64) (device : Bool)
  /-- INIT (R362). MEE INIT writes every line of a protected window as zeros under the current key. -/
  | meeInit (m : Master) (die : Die) (inst : Fin 2) (keyid : Fin 64) (window : Fin 4) (device : Bool)
  /-- MEE_INIT_DONE (R362). Window initialisation completes and the command ends. -/
  | meeInitDone (die : Die) (inst : Fin 2)
  /-- REKEY_LINE (R364). The re-key engine locks, re-encrypts and unlocks one line and advances BOUNDARY. -/
  | rekeyLine (die : Die) (inst : Fin 2)
  /-- QPLL_WRITE (R369). A write to a quad PLL register is checked and enables or sets the PLL. -/
  | qpllWrite (m : Master) (die : Die) (quad : Fin 8) (pll : Fin 2) (v : DWord)
  /-- QPLL_LOCK (R369). A quad PLL locks within 200 µs of EN. -/
  | qpllLock (die : Die) (quad : Fin 8) (pll : Fin 2) (hz : Nat)
  /-- QPLL_UNLOCK (R369). A quad PLL losing lock idles its lanes and raises LAN_QPLL_UNLOCK. -/
  | qpllUnlock (die : Die) (quad : Fin 8) (pll : Fin 2) (edges : Bool)
  /-- LANE_ENABLE (R377). Writing LAN_CTRLn.ENABLE starts bring-up or returns the lane to OFF. -/
  | laneEnable (m : Master) (die : Die) (lane : Fin 32) (v : Word)
  /-- LANE_RESTART (R377). RESTART begins bring-up again after 1 µs of idle. -/
  | laneRestart (m : Master) (die : Die) (lane : Fin 32)
  /-- LANE_IDLE_END (R377). The lane's idle interval ends and it enters AN, TRAINING or ALIGN. -/
  | laneIdleEnd (die : Die) (lane : Fin 32)
  /-- AN_RESOLVED (R378). Auto-negotiation resolves a common mode and the lane takes it. -/
  | anResolved (die : Die) (lane : Fin 32) (partner : Word)
  /-- AN_FAIL (R377). Auto-negotiation finds no common mode and sets AN_FAIL. -/
  | anFail (die : Die) (lane : Fin 32) (partner : Word)
  /-- AN_RESTART (R377). A failed auto-negotiation restarts after 65 ms. -/
  | anRestart (die : Die) (lane : Fin 32)
  /-- TRAINING_READY (R379). Both ends report receiver ready and the lane moves to ALIGN. -/
  | trainingReady (die : Die) (lane : Fin 32) (taps : Word)
  /-- TRAINING_TIMEOUT (R377). Link training exceeds its limit and the lane idles 65 ms with TRAIN_FAIL. -/
  | trainingTimeout (die : Die) (lane : Fin 32)
  /-- BLOCK_LOCK (R373). 64 valid sync headers gain block lock, and 16 invalid within 64 lose it. -/
  | blockLock (die : Die) (lane : Fin 32) (gained : Bool)
  /-- ALIGN_COMPLETE (R377). Lock, FEC alignment and deskew on every lane bring the port UP and raise LAN_LINK_UP. -/
  | alignComplete (die : Die) (lane : Fin 32)
  /-- LINK_LOSS (R375). Loss of signal for 1 µs or CDR lock takes an UP lane back to bring-up with LAN_LINK_DOWN. -/
  | linkLoss (die : Die) (lane : Fin 32) (cdr : Bool)
  /-- HI_BER_SET (R375). The error threshold is met within the window and HI_BER stops frames. -/
  | hiBerSet (die : Die) (lane : Fin 32)
  /-- EB_OVERFLOW (R376). An elastic buffer fills or empties, marking the frame in error and raising LAN_EB_ERR. -/
  | ebOverflow (die : Die) (lane : Fin 32) (tx : Bool)
  /-- BACKGROUND_SCAN (R380). The 100 ms background margin scan stores the worst eye and triggers re-adaptation after 3 low scans. -/
  | backgroundScan (die : Die) (lane : Fin 32) (eyes : List Word)
  /-- READAPT (R380). READAPT starts a receiver re-adaptation at once. -/
  | readapt (m : Master) (die : Die) (lane : Fin 32)
  /-- EYE_SCAN_START (R382). LAN_EYE_CTRLn START begins a point or margin scan. -/
  | eyeScanStart (m : Master) (die : Die) (lane : Fin 32) (v : Word)
  /-- EYE_SCAN_DONE (R382). An eye scan ends and raises LAN_EYE_DONE. -/
  | eyeScanDone (die : Die) (lane : Fin 32) (errors : Nat) (eyes : List Word)
  /-- PAIR_BYPASS_WRITE (R384). A write of LAN_PAIRn.BYPASS releases a pair from bypass or takes it into bypass through 1 µs of idle. -/
  | pairBypassWrite (m : Master) (die : Die) (pair : Fin 16) (v : Word)
  /-- PAIR_IDLE_END (R384). The pair's idle ends and it enters bypass or starts bring-up. -/
  | pairIdleEnd (die : Die) (pair : Fin 16)
  /-- PRBS_WRITE (R386). Setting GEN or CHK starts pattern generation or checking. -/
  | prbsWrite (m : Master) (die : Die) (lane : Fin 32) (v : Word)
  /-- FRAME_RECEIVE (R392). A received frame is checked, stamped, classified and looked up. -/
  | frameReceive (die : Die) (lane : Fin 32) (frame : List Byte) (codings : List Coding)
  /-- PAUSE_RECEIVE (R392). A PAUSE or PFC frame stops egress queues of the port. -/
  | pauseReceive (die : Die) (lane : Fin 32) (frame : List Byte) (codings : List Coding)
  /-- PAUSE_EXPIRY (R392). The pause time ends and the queues resume. -/
  | pauseExpiry (die : Die) (lane : Fin 32) (queue : Fin 8)
  /-- ARBITER_APPLY (R400). The learn arbiter applies an event or command to its table and sends the change to every replica. -/
  | arbiterApply (src : Die) (command : Bool)
  /-- REPLICA_UPDATE (R400). A replica applies an arbiter change in sequence order. -/
  | replicaUpdate (die : Die)
  /-- LOCK_EXPIRY (R401). LOCK_TIME ends, LOCKED clears and MOVES restarts. -/
  | lockExpiry (table : Fin 9) (index : Fin 524288)
  /-- MOVE_WINDOW_END (R401). An entry's MOVE_WIN window ends. -/
  | moveWindowEnd (table : Fin 9) (index : Fin 524288)
  /-- AGE_TICK (R402). Every AGE_TIME / 4 the arbiter clears HIT, ages dynamic entries and deletes expired ones. -/
  | ageTick
  /-- L2_READ (R403). PEN_L2_CMD READ finds an entry by MAC and VID in the local replica. -/
  | l2Read (m : Master) (die : Die)
  /-- L2_READ_INDEX (R403). PEN_L2_CMD READ_INDEX reads an entry by index. -/
  | l2ReadIndex (m : Master) (die : Die) (index : BitVec 20)
  /-- L2_WRITE (R403). PEN_L2_CMD WRITE passes an entry write through the arbiter. -/
  | l2Write (m : Master) (die : Die)
  /-- L2_DELETE (R403). PEN_L2_CMD DELETE removes an entry through the arbiter. -/
  | l2Delete (m : Master) (die : Die)
  /-- FLUSH_PORT (R403). PEN_L2_CMD FLUSH_PORT removes the entries of a port. -/
  | flushPort (m : Master) (die : Die)
  /-- FLUSH_VLAN (R403). PEN_L2_CMD FLUSH_VLAN removes the entries of a VLAN. -/
  | flushVlan (m : Master) (die : Die)
  /-- FLUSH_DYNAMIC (R403). PEN_L2_CMD FLUSH_DYNAMIC removes every dynamic entry. -/
  | flushDynamic (m : Master) (die : Die)
  /-- VLAN_READ (R397). PEN_VLAN_CMD with WRITE 0 reads a VLAN entry into the data words. -/
  | vlanRead (m : Master) (die : Die) (index : BitVec 20)
  /-- VLAN_WRITE (R397). PEN_VLAN_CMD with WRITE 1 writes a VLAN entry. -/
  | vlanWrite (m : Master) (die : Die) (index : BitVec 20)
  /-- NH_READ (R407). PEN_NH_CMD with WRITE 0 reads a next-hop entry. -/
  | nhRead (m : Master) (die : Die) (index : BitVec 20)
  /-- NH_WRITE (R407). PEN_NH_CMD with WRITE 1 writes a next-hop entry for the next lookup. -/
  | nhWrite (m : Master) (die : Die) (index : BitVec 20)
  /-- TNB_DATA_RECEIVE (R406). A TNB DATA frame is checked and forwarded by its next-hop entry or dropped. -/
  | tnbDataReceive (die : Die) (lane : Fin 32) (frame : List Byte) (codings : List Coding)
  /-- HELLO_SEND (R408). A TNB port sends a HELLO every 100 µs until agreement, then every HELLO_INT. -/
  | helloSend (die : Die) (lane : Fin 32)
  /-- HELLO_RECEIVE (R408). A received HELLO is agreed and brings the port up when SEEN is set. -/
  | helloReceive (die : Die) (lane : Fin 32) (frame : List Byte) (codings : List Coding)
  /-- HELLO_TIMEOUT (R408). No agreement within 10 ms sets HELLO_FAIL and retries. -/
  | helloTimeout (die : Die) (lane : Fin 32)
  /-- KEEPALIVE_MISS (R408). Three missed keepalives take an up TNB port back to hello. -/
  | keepaliveMiss (die : Die) (lane : Fin 32)
  /-- EGRESS_SEND (R411). An egress port's scheduler sends a frame by strict priority or deficit round-robin. -/
  | egressSend (die : Die) (dest : Fin 64)
  /-- TRUNK_CELL (R412). A trunk cell of a frame arrives over an X edge or a Y write. -/
  | trunkCell (die : Die) (edge : Fin 4)
  /-- Y_WRITE_RESPONSE (R413). A non-OK response to a Y trunk write loses its frame. -/
  | yWriteResponse (die : Die) (resp : Resp)
  /-- RING_HEAD_ADVANCE (R415). Once an RX slot's writes are acknowledged HEAD advances and PEN_RING is raised. -/
  | ringHeadAdvance (die : Die) (ring : Fin 16)
  /-- TX_RING_SEND (R415). The port engine reads and sends the TX slot at HEAD and advances HEAD. -/
  | txRingSend (die : Die) (ring : Fin 16)
  /-- RING_TAIL_WRITE (R415). Software advances a ring's TAIL. -/
  | ringTailWrite (m : Master) (die : Die) (ring : Fin 16) (index : Word)
  /-- RING_ERROR (R415). A non-OK ring access stops the ring with ERR and PEN_RING_ERR. -/
  | ringError (die : Die) (ring : Fin 16)
  /-- TS_POP (R417). A read of PEN_TS_POP pops one egress timestamp record. -/
  | tsPop (m : Master) (die : Die) (size : Nat)
  /-- PPS_IN_EDGE (R417). A PPS_IN rising edge is stamped and raises PEN_PPS_IN. -/
  | ppsInEdge
  /-- PPS_OUT (R417). PPS_OUT rises as NS passes 0 and falls after WIDTH ms. -/
  | ppsOut (rise : Bool)
  /-- TIME_WRITE (R416). A head-die write of PEN_TIME sets the device time on the next SYNC tick. -/
  | timeWrite (m : Master) (die : Die) (v : DWord)
  /-- TIME_ADJ_WRITE (R416). A head-die write of PEN_TIME_ADJ sets the rate adjustment on the next SYNC tick. -/
  | timeAdjWrite (m : Master) (die : Die) (v : Word)
  /-- TIME_STEP (R416). A head-die write of PEN_TIME_STEP adds an offset once on the next SYNC tick. -/
  | timeStep (m : Master) (die : Die) (v : Word)
  /-- BANK_DRAINED (R410). The last frame leaves a draining buffer bank and PEN_BANK_DRAINED is raised. -/
  | bankDrained (die : Die) (bank : Fin 8)
  /-- BANK_DRAIN_TIMEOUT (R410). 10 ms after a BANKS bit clears, remaining frames in the bank are dropped. -/
  | bankDrainTimeout (die : Die) (bank : Fin 8)
  /-- LPI_ENTRY (R389). Empty egress queues for LPI_IDLE µs put the MAC into transmit LPI. -/
  | lpiEntry (die : Die) (lane : Fin 32)
  /-- PORT_CFG_WRITE (R389). A write of PEN_PORT_CFGp forms or changes a port after the width and overlap checks. -/
  | portCfgWrite (m : Master) (die : Die) (lane : Fin 32) (v : Word)
  /-- RESYNC_DONE (R418). A dependent die's L2 replica copy from the head die completes after exit. -/
  | resyncDone (die : Die)
  /-- RELEASE_WRITE (R422). Writing a core's APC_RELEASE bit to 1 after CORE starts it. -/
  | releaseWrite (m : Master) (die : Die) (cores : BitVec 4)
  /-- MTIME_WRITE (R425). A head-die write of MTIME is applied to every die at the next SYNC tick. -/
  | mtimeWrite (m : Master) (die : Die) (v : DWord)
  /-- MTIME_COMPARE (R425). MTIME reaching MTIMECMPc sets the core's MTIP. -/
  | mtimeCompare (die : Die) (core : Fin 4)
  /-- EVENT_LEVEL (R427). An event level rising makes its source pending when neither pending nor claimed. -/
  | eventLevel (die : Die) (n : Fin 640)
  /-- EVENT_PULSE (R427). A pulse event marks its source pending or merges into a held mark. -/
  | eventPulse (die : Die) (n : Fin 640)
  /-- CLAIM (R426). A read of EVT_CLAIMx returns and claims the highest-priority eligible source. -/
  | claim (m : Master) (die : Die) (ctx : Fin 8)
  /-- CLAIM_COMPLETE (R426). Writing an ID to EVT_CLAIMx completes it, re-pending it if its level is high. -/
  | claimComplete (m : Master) (die : Die) (ctx : Fin 8) (id : BitVec 10)
  /-- VERSION (R431). Mailbox VERSION returns the ROM firmware version and build. -/
  | version (m : Master) (die : Die)
  /-- SENSORS (R431). Mailbox SENSORS returns the die temperature and rail voltages. -/
  | sensors (m : Master) (die : Die)
  /-- LADDER (R442). Mailbox LADDER requests a ladder state. -/
  | ladder (m : Master) (die : Die)
  /-- THERMAL (R451). Mailbox THERMAL returns the plant's temperature, fan and heater state. -/
  | thermal (m : Master) (die : Die)
  /-- SMB_PUBLISH (R431). Mailbox SMB_PUBLISH makes eight words readable by the SMBus host. -/
  | smbPublish (m : Master) (die : Die)
  /-- SMB_FETCH (R431). Mailbox SMB_FETCH returns the words last written by the SMBus host. -/
  | smbFetch (m : Master) (die : Die)
  /-- TAMPER_INFO (R431). Mailbox TAMPER_INFO returns the tamper log and its age on the head die. -/
  | tamperInfo (m : Master) (die : Die)
  /-- MAILBOX_DONE (R431). A mailbox service ends, writing RESULT and data, clearing BUSY and pulsing SYS_MBOX. -/
  | mailboxDone (die : Die)
  /-- SNT_BEGIN (R436). SNT_BEGIN opens a die or device sentence owned by its writer. -/
  | sntBegin (m : Master) (die : Die) (scope : Bool)
  /-- STAGED_WRITE (R437). An RWS write during an open sentence is checked for value and staged. -/
  | stagedWrite (m : Master) (die : Die) (off : Nat) (v : Word)
  /-- SNT_COMMIT (R437). SNT_COMMIT wakes domains and checks every staged write in staging order. -/
  | sntCommit (m : Master) (die : Die) (go : Bool)
  /-- APPLY_TICK (R438). On the apply tick every staged write is applied together and SNT_DONE or SNT_DEV_DONE pulses. -/
  | applyTick (die : Die)
  /-- SNT_ROLLBACK (R440). SNT_ROLLBACK by the owner ends the sentence with nothing applied. -/
  | sntRollback (m : Master) (die : Die) (go : Bool)
  /-- SENTENCE_TIMEOUT (R440). A sentence open longer than SNT_CFG.TMO is rolled back with TIMEOUT. -/
  | sentenceTimeout (die : Die)
  /-- LADDER_REQUEST (R442). A write of PWR_CTRL.TARGET requests a ladder state for the die or device. -/
  | ladderRequest (m : Master) (die : Die) (target : Fin 8) (scope : Bool)
  /-- LADDER_ENTRY_PROCEED (R443). With no blocker left, entry drains and recalls and then gates or lowers supplies. -/
  | ladderEntryProceed (die : Die)
  /-- ENTRY_TIMEOUT (R443). A blocker left after ENTRY_TMO abandons entry and raises PWR_ENTRY_FAIL. -/
  | entryTimeout (die : Die)
  /-- STATE_ENTERED (R443). The supplies reach the target state, STATE shows it and PWR_ENTERED is raised. -/
  | stateEntered (die : Die)
  /-- WAKE_EVENT (R444). An enabled wake source starts a die's exit to RUN. -/
  | wakeEvent (die : Die) (src : WakeSrc)
  /-- WAKE_TIMER_EXPIRY (R444). The ladder wake timer fires once and wakes every die. -/
  | wakeTimerExpiry
  /-- SMBUS_WAKE (R444). An SMBus write of 0x01 to command 0x10 wakes every die. -/
  | smbusWake (data : Byte)
  /-- EXIT_COMPLETE (R445). Supplies and clocks return and the die reaches RUN, or a FULL_STOP exit reloads the image. -/
  | exitComplete (die : Die)
  /-- COLON_GWE_STEP (R445). One GAP after a COLON exit's GSR step the GWE step runs and the die is in RUN. -/
  | colonGweStep (die : Die)
  /-- COLON_CORE_STEP (R445). One GAP after GWE the released cores restart at a CORE step. -/
  | colonCoreStep (die : Die)
  /-- THERMAL_STEP (R449). Every 100 ms the plant computes the fan demand and moves the duties and heater. -/
  | thermalStep (rpm : List (BitVec 16) := [0, 0])
  /-- FAN_SPINUP_END (R449). SPIN_TIME ends and the fan moves to RUN, OFF or FAILED by its tach. -/
  | fanSpinupEnd (fan : Fin 2) (rpm : BitVec 16)
  /-- FAN_STALL (R449). A running fan below SPIN_RPM / 2 for 3 s returns to SPINUP. -/
  | fanStall (fan : Fin 2) (rpm : BitVec 16)
  /-- FAN_RETRY (R449). A FAN_RETRY write returns FAILED fans to OFF. -/
  | fanRetry (m : Master) (die : Die)
  /-- THERMAL_TRIP (R451). A die at or above 120 °C for 1 ms requests a device FULL_STOP and raises THM_TRIP. -/
  | thermalTrip (die : Die)
  /-- SENSOR_UPDATE (R448). Every 1 ms the temperature and rail readings update. -/
  | sensorUpdate (die : Die) (temp : BitVec 16) (mv : List (BitVec 16))
  /-- RAIL_OUT_OF_RANGE (R448). A rail outside ±5 % for 1 ms sets its VOLT bit and raises THM_VOLT. -/
  | railOutOfRange (die : Die) (rail : Fin 6)
  /-- MON_ENABLE (R453). A write of MON_CTRLm.EN clears the results and starts a window. -/
  | monEnable (m : Master) (die : Die) (mon : Fin 16) (v : Word)
  /-- MON_SAMPLE (R452). A monitor sample updates MIN, MAX, COUNT, SUM and its histogram bin. -/
  | monSample (die : Die) (mon : Fin 16) (sample : Word)
  /-- MON_WINDOW_END (R453). A monitor window ends, freezing results, setting DONE and raising its event. -/
  | monWindowEnd (die : Die) (mon : Fin 16)
  /-- CKMUX2_SWITCH_COMPLETE (R53). CKMUX2 sees the low phases of its old and new inputs, completes its switch and lowers STUCK. -/
  | ckmux2SwitchComplete (die : Die) (mux : Nat)
  /-- HI_BER_CLEAR (R375). A full error window with fewer errors than the threshold clears HI_BER and lets the lane pass frames again. -/
  | hiBerClear (die : Die) (lane : Fin 32)
  /-- READAPT_COMPLETE (R380). A receiver re-adaptation ends within 5 ms, is counted, and lets a paused user eye scan resume. -/
  | readaptComplete (die : Die) (lane : Fin 32)
  /-- VBAT_LOSS (R447). VBAT absent or falling while main power is absent breaks the BBRAM sentinels and loses the tamper log. `mv` is
  the supply of the battery domain in millivolts (R124). -/
  | vbatLoss (mv : Nat := 0)
  /-- SMBUS_HOST_WRITE (R431). The SMBus host writes the eight words that SMB_FETCH later returns. -/
  | smbusHostWrite (words : List Word)
  /-- HART_HALT (R423). A debug-module halt request halts a hart, and APC_STATUS shows HALTED. -/
  | hartHalt (die : Die) (core : Fin 4)
  /-- HART_RESUME (R423). A debug-module resume request returns a halted hart to RUN. -/
  | hartResume (die : Die) (core : Fin 4)
  /-- FLIP_FLOP_EDGE (R141). On the active edge of its half's CLK a fabric flip-flop takes SRVAL, D or Q by SR and CE. For a flip-flop,
  `ins` are the inputs of the tile's cells, then of the cells of the tile below it and so on down its carry chain (R142), and `late` tells
  that an asynchronous SR fell within the setup time. -/
  | flipFlopEdge (die : Die) (site : FfSite) (ins : List TileIn) (late : Bool)
  /-- ASYNC_SET_RESET (R141). An asynchronous SR rising sets a flip-flop to SRVAL without waiting for an edge. -/
  | asyncSetReset (die : Die) (tile : Tile) (ff : Fin 16)
  /-- SHIFT_REGISTER_EDGE (R143). On an active edge with CE = 1 a SHIFT-mode cell shifts every stage up and takes its data input. `lower`
  and `upper` tell which halves of the tile have the edge. -/
  | shiftRegisterEdge (die : Die) (tile : Tile) (lower upper : Bool) (ce : BitVec 2) (xa : Byte)
  /-- DISTRIBUTED_RAM_WRITE (R144). On the group's active edge with CE = 1 distributed RAM writes XA at the write address. `i`, `xa` and
  `xb` are the inputs of the tile's cells. -/
  | distributedRamWrite (die : Die) (tile : Tile) (cell : Fin 8) (i : Vector (BitVec 6) 8) (xa xb : Byte) (ce : Bool)
  /-- ARITH_SLICE_EDGE (R176). On a clock edge an arithmetic slice advances its enabled pipeline registers through pre-add, multiply, accumulate and narrow. -/
  | arithSliceEdge (die : Die) (site : Fin 4608) (drives : List ArithDrive)
  deriving DecidableEq, Repr

end Sys2Proof
end

