-- ==== Sys2Proof/Decode.lean ====
section
/-!
DEFINITION. The command that a word spells by the bits of spec/opcode_table.json. No row of the table gives bits: a command of this
block is an access or an event, with operands, and no word stands for one. So no word spells a command.
-/

namespace Sys2Proof

/-- The command that the `nbits` bits of `w` spell: none, as no row gives bits. -/
def decodeTableWord (_nbits _w : Nat) : Option Instr := none

end Sys2Proof
end

