-- ==== Sys2Proof/Config.lean ====
section
/-!
DEFINITION. What the section files of spec/ leave open: the free values, as constants with no body. No proof can see what
one of them is, so a claim that holds in this model holds whatever the hardware answers there. The cryptographic functions
that the spec names and does not write out stand here too, as functions nothing is assumed of.
-/

namespace Sys2Proof

/-- The k-th free value of a run, at a width (notes/assumptions/3.md): a value that the spec leaves undefined or does not
state. Each use applies it to the counter State.fresh and steps the counter, so no two uses are related. -/
opaque Config.freeValue (w : Nat) : Nat → BitVec w

/-- What a memory word holds after its contents became undefined: a function of the memory, of the count of the event that
undid the contents, and of the address (notes/assumptions/4.md). -/
opaque Config.undefWord (memory epoch : Nat) : Nat → BitVec 64

/-! ## Cryptographic functions (notes/assumptions/5.md) -/

/-- SHA-384 (R86, R87, R106, R120). -/
opaque Config.sha384 : List Byte → BitVec 384

/-- Whether an ECDSA P-384 signature over a hash verifies under a public key (R86, R88, R128). -/
opaque Config.ecdsaOk (pubKey : List Byte) (hash : BitVec 384) (sig : List Byte) : Bool

/-- AES-256-GCM decryption (R87): the key, the initial vector, the additional data, the ciphertext and the tag give the
plaintext, or nothing when the tag does not match. -/
opaque Config.gcmOpen (key : BitVec 256) (iv aad ct tag : List Byte) : Option (List Byte)

/-- AES-256 of one block (R359). -/
opaque Config.aes256 : BitVec 256 → BitVec 128 → BitVec 128

/-- GHASH of blocks under a hash key (R359). -/
opaque Config.ghash : BitVec 128 → List (BitVec 128) → BitVec 128

/-- Whether an ECDSA P-384 signature over a hash verifies under a public key of which only the hash is held (R128). -/
opaque Config.ecdsaOkByHash (keyHash hash : BitVec 384) (sig : List Byte) : Bool

/-! ## What an implementation fixes (notes/assumptions/21.md) -/

/-- The ROM firmware version and build number that the mailbox service VERSION returns (R431). -/
opaque Config.romVersion : Word
opaque Config.romBuild : Word

/-! ## Structures the spec does not describe (notes/assumptions/6.md) -/

/-- What a codeword with flipped symbols decodes to where more than one symbol is in error (R346, R348): whether it looks like
a single-symbol error, the word delivered, and the syndrome. -/
opaque Config.rsLooksSingle (dev0 dev1 flip : Nat) (poison : Bool) : Bool
opaque Config.rsWord (d : BitVec 64) (dev0 dev1 flip : Nat) (poison : Bool) : BitVec 64
opaque Config.rsSyndrome (dev0 dev1 flip : Nat) (poison : Bool) : BitVec 16

/-- How a DRAM word whose contents are undefined decodes (R346): clean, corrected, uncorrectable or poison. -/
opaque Config.undefKind (memory epoch : Nat) : Nat → Fin 4

/-- The directory set of a line in its home slice (R317), and the set of a line in a cache (R192, R318, R420): the rules are not given. -/
opaque Config.dirSet (slice : Nat) : Nat → Nat
opaque Config.cacheSet (cache : Nat) : Nat → Nat

end Sys2Proof
end

