-- ==== Sys2Proof/Machine/Regs.lean ====
section
/-!
DEFINITION. The register map, written out from the register tables of the section files of spec/: one name per register
array (RegId), its place, its access masks and its reset value (RegInfo), and one field constant per field of a table.
A register's cell is the 8-byte slot of its die's window that holds it, so that a 64-bit pair (R432) is one cell.
Reset values a table gives as "fuse" or "pin" are 0 here; the operations that reset a block write them from the fuses
and pins (Machine/Reset.lean).
-/

namespace Sys2Proof.Machine

/-- A field: the offset of its register in the die window, its lowest bit and its width.
In a 64-bit pair the lowest bit counts from bit 0 of the low word. -/
structure Fld where
  off : Nat
  lo  : Nat
  w   : Nat
  deriving DecidableEq, Repr

/-- The registers of the control space (R27), one name per array. -/
inductive RegId where
  | SYS_BLOCK_VERSION
  | SYS_BOOT_STATUS
  | SYS_RST_CAUSE
  | SYS_RST_BLOCK
  | SYS_RST_SW
  | SYS_RST_REACH
  | SYS_WDT_CTRL
  | SYS_WDT_KICK
  | SYS_MBOX_CMD
  | SYS_MBOX_STATUS
  | SYS_MBOX_DATA
  | CLK_BLOCK_VERSION
  | CLK_REF_CTRL
  | CLK_REF_STATUS
  | CLK_REF_PRIO
  | CLK_REF_RATIO
  | CLK_RCV_CTRL
  | CLK_RCLK_CTRL
  | CLK_ROOT_CFG
  | CLK_ROOT_STATUS
  | CLK_ROOT_FOFS
  | CLK_FTAP
  | CLK_GATE_EN0
  | CLK_GATE_EN1
  | CLK_GATE_EN2
  | CLK_GATE_EN3
  | CLK_GATE_EN4
  | CLK_GATE_STATUS
  | CLK_ALT_CTRL
  | CLK_ALT_STATUS
  | CLK_UPLL_CTRL
  | CLK_UPLL_OUT
  | CLK_UPLL_STATUS
  | CLK_MON_CTRL
  | CLK_MON_COUNT
  | CLK_MON_STATUS
  | CLK_EVT
  | PWR_BLOCK_VERSION
  | PWR_CTRL
  | PWR_STATUS
  | PWR_CFG
  | PWR_WAKE_TIMER
  | PWR_EVT
  | THM_BLOCK_VERSION
  | THM_TEMP
  | THM_VOLT
  | THM_LOOP_CFG
  | THM_FAN_CFG
  | THM_SPIN_CFG
  | THM_HEAT_CFG
  | THM_FAN_STATUS
  | THM_STATUS
  | THM_EVT
  | MON_BLOCK_VERSION
  | MON_CTRL
  | MON_SRC
  | MON_BIN
  | MON_WIN
  | MON_MIN
  | MON_MAX
  | MON_COUNT
  | MON_SUM
  | MON_HIST
  | EVT_BLOCK_VERSION
  | EVT_PRIO
  | EVT_PEND
  | EVT_EN
  | EVT_THR
  | EVT_CLAIM
  | EVT_LOST
  | CFG_BLOCK_VERSION
  | CFG_LOAD_STATUS
  | CFG_LOAD_ERR_INFO
  | CFG_BOOT_STATUS
  | CFG_BOOT_SEQ
  | CFG_BOOT_LOG
  | CFG_CONFIRM
  | CFG_CMD
  | CFG_CMD_ADDR
  | CFG_CMD_STATUS
  | CFG_IMAGE_VERSION
  | CFG_WAKE_SEQ
  | CFG_WAKE_CFG
  | CFG_WAKE_STATUS
  | CFG_WARM_BASE
  | CFG_WARM_CTRL
  | CFG_WARM_STATUS
  | CFG_CAP_CTRL
  | CFG_CAP_STATUS
  | CFG_CAP_TIME
  | CFG_RB_CTRL
  | CFG_RB_COUNT
  | CFG_RB_DEST
  | CFG_RB_STATUS
  | CFG_SWEEP_CTRL
  | CFG_SWEEP_STATUS
  | CFG_SWEEP_PASSES
  | CFG_SEU_DET
  | CFG_SEU_FIXED
  | CFG_SEU_UNFIXED
  | CFG_SEU_LAST
  | SEC_BLOCK_VERSION
  | SEC_LC
  | SEC_CMD
  | SEC_CMD_STATUS
  | SEC_KEY_DATA
  | SEC_KEY_VERSION
  | SEC_KEY_STATUS
  | SEC_BB_VER
  | SEC_PKH_STATUS
  | SEC_SVN_FLOOR
  | SEC_POLICY
  | SEC_TAMPER_CFG
  | SEC_TAMPER_RESP
  | SEC_TAMPER_LOG
  | SEC_TEMP_LIMITS
  | SEC_DEVICE_ID
  | SEC_NVC_RIGHTS
  | SEC_RIGHTS_LOCK
  | SEC_KEYID_RIGHTS
  | NVC_BLOCK_VERSION
  | NVC_CFG
  | NVC_INFO
  | NVC_CMD
  | NVC_STATUS
  | NVC_ADDR
  | NVC_MEM
  | NVC_LEN
  | NVC_PROTECT
  | NVC_FAIL_ADDR
  | NVC_XIP_BASE
  | BNK_BLOCK_VERSION
  | BNK_EVT
  | BNK_ACC_LOG
  | BNK_ERR_LOG
  | BNK_ECC_TEST
  | BNK_ECC_ADDR
  | BNK_ECC_CHK
  | BNK_CTRL
  | BNK_STATUS
  | BNK_ECC_CNT
  | BNK_REPAIR
  | BNK_CNT_ACC
  | BNK_CNT_WAIT
  | NOC_BLOCK_VERSION
  | NOC_TMO_CFG
  | NOC_EVT
  | NOC_TMO_LOG
  | NOC_QUAR
  | NOC_CNT_TMO
  | NOC_LATE_CPL
  | NOC_CNT_DOWN
  | NOC_CNT_WAKE
  | NOC_LOST_LINES
  | RLC_BLOCK_VERSION
  | RLC_CTRL
  | RLC_STATUS
  | RLC_ECC_FLIP
  | RLC_ECC_CNT
  | RLC_WB_LOG
  | RLC_EVT
  | RLC_CNT
  | BDL_BLOCK_VERSION
  | BDL_IDENT
  | BDL_EVT
  | BDL_TEST
  | BDL_STATUS
  | BDL_PEER
  | BDL_CAPS
  | BDL_WIN
  | BDL_CNT_FLITS
  | BDL_CNT_CRC
  | BDL_CNT_REPLAY
  | DDR_BLOCK_VERSION
  | DDR_CFG
  | DDR_STATUS
  | DDR_QOS
  | DDR_AGE
  | DDR_ECC_FLIP
  | DDR_ECC_CNT
  | DDR_ERR_LOG
  | DDR_EVT
  | DDR_MAP_CTL
  | DDR_MAP_RNG
  | DDR_MAP_SUM
  | DDR_CNT
  | MEE_BLOCK_VERSION
  | MEE_PROT
  | MEE_KEY_DATA
  | MEE_KEY_CMD
  | MEE_KEY_STATUS
  | MEE_KSTATE
  | MEE_RK_CFG
  | MEE_RK_START
  | MEE_RK_END
  | MEE_RK_BOUND
  | MEE_EXH
  | MEE_FAIL_LOG
  | MEE_EVT
  | MEE_CNT
  | LAN_BLOCK_VERSION
  | LAN_CTRL
  | LAN_MODE
  | LAN_STATUS
  | LAN_PAIR
  | LAN_AN_ADV
  | LAN_AN_STATUS
  | LAN_AN_PARTNER
  | LAN_LT_CFG
  | LAN_LT_STATUS
  | LAN_ADAPT_CFG
  | LAN_EYE_CTRL
  | LAN_EYE_RESULT
  | LAN_EYE_MARGIN
  | LAN_EYE_BG
  | LAN_PRBS
  | LAN_EVT
  | LAN_CNT
  | LAN_QPLLA
  | LAN_QPLLB
  | LAN_QSTATUS
  | PEN_BLOCK_VERSION
  | PEN_LEARN_CFG
  | PEN_AGE_CFG
  | PEN_TNB_CFG
  | PEN_BUF_CFG
  | PEN_TRUNK_CFG
  | PEN_STATUS
  | PEN_BUF_STATUS
  | PEN_BUF_FREE
  | PEN_EVT
  | PEN_L2_CMD
  | PEN_L2_STATUS
  | PEN_L2_DATA
  | PEN_VLAN_CMD
  | PEN_VLAN_DATA
  | PEN_NH_CMD
  | PEN_NH_DATA
  | PEN_TIME
  | PEN_TIME_ADJ
  | PEN_TIME_STEP
  | PEN_PPS_CFG
  | PEN_PPS_IN_TS
  | PEN_TS_POP
  | PEN_TS_SEC
  | PEN_PORT_CFG
  | PEN_PORT_L2
  | PEN_PORT_DLY
  | PEN_PORT_STATUS
  | PEN_SCHED
  | PEN_FP_CFG
  | PEN_RING_BASE
  | PEN_RING_CFG
  | PEN_RING_HEAD
  | PEN_RING_TAIL
  | PEN_RING_STATUS
  | PEN_CNT
  | PEN_PORT_CNT
  | SEA_BLOCK_VERSION
  | SEA_CTRL
  | SEA_ENTRY
  | SEA_STATUS
  | SEA_ERR
  | SEA_DOORBELL
  | SEA_ECC
  | SEA_ECC_TEST
  | SEA_CNT_CYCLE
  | SEA_CNT_ISSUE
  | SEA_CNT_STALL
  | SEA_CNT_WAIT
  | SEA_CNT_DMABYTES
  | SEA_EVT_DONE
  | SEA_EVT_ERR
  | DFD_BLOCK_VERSION
  | DFD_CTRL
  | DFD_STATUS
  | DFD_POLICY
  | DFD_TOKEN
  | DFD_CMD
  | DFD_CMD_STATUS
  | DFD_EPOCH
  | DFD_EPOCH_CTRL
  | DFD_EPOCH_STATUS
  | DFD_SPILL_BASE
  | DFD_SPILL_CFG
  | DFD_SPILL_FILL
  | DFD_UNIT_EN_SE
  | DFD_UNIT_EN_KS
  | DFD_UNIT_EN_CORE
  | DFD_UNIT_BUSY_SE
  | DFD_UNIT_BUSY_KS
  | DFD_ERR_LOG
  | DFD_EVT
  | DFD_CNT
  | DFD_CQ_CFG
  | DFD_CQ_STATUS
  | DFD_CQ_POP
  | DFD_CQ_CPL
  | DFD_CQ_DESC
  | DFD_CQ_TOK
  | DFD_OPSTATE
  | DFD_OPDESC
  | APC_BLOCK_VERSION
  | APC_BOOT
  | APC_RELEASE
  | APC_STATUS
  | APC_ECC
  | APC_EVT
  | APC_MSIP
  | APC_MTIMECMP
  | APC_MTIME
  | FAB_BLOCK_VERSION
  | FAB_PFIFO_STATUS
  | FAB_PFIFO_AFULL
  | FAB_PFIFO_DROP
  | FAB_KSLOT_CFG
  | FAB_KSLOT_STATUS
  | FAB_NOCP_WIN
  | FAB_NOCP_STATUS
  | FAB_XING_STATUS
  | FAB_PR_GEOM
  | FAB_PR_KSLOT
  | FAB_PR_NOCP
  | FAB_PR_PFIFO
  | FAB_PR_CTRL
  | FAB_PR_STATUS
  | SNT_BLOCK_VERSION
  | SNT_BEGIN
  | SNT_COMMIT
  | SNT_ROLLBACK
  | SNT_STATUS
  | SNT_CFG
  | SNT_FAIL
  deriving DecidableEq, Repr

/-- A register's place and access masks: register (i, j) of the array stands at
base + i * s1 + j * s2, for i below n1 and j below n2; a pair spans 8 bytes.
The masks gather the bits of each access type of R4. -/
structure RegInfo where
  base : Nat
  s1   : Nat
  n1   : Nat
  s2   : Nat
  n2   : Nat
  pair : Bool
  /-- Marked "head die" in its description (R27). -/
  head : Bool
  rw   : Nat
  ro   : Nat
  wo   : Nat
  w1c  : Nat
  w1s  : Nat
  rc   : Nat
  rws  : Nat
  rst  : Nat
  deriving DecidableEq, Repr

/-- The place, access masks and reset value of each register. -/
def RegId.info : RegId → RegInfo
  | .SYS_BLOCK_VERSION => ⟨0, 0, 1, 0, 1, false, false, 0, 0xFFFFFFFF, 0, 0, 0, 0, 0, 0x10000⟩
  | .SYS_BOOT_STATUS => ⟨0x40, 0, 1, 0, 1, false, false, 0, 0xFFF, 0, 0, 0, 0, 0, 0⟩
  | .SYS_RST_CAUSE => ⟨0x50, 0, 1, 0, 1, false, false, 0, 0xFF070F, 0, 0, 0, 0, 0, 0x1⟩
  | .SYS_RST_BLOCK => ⟨0x54, 0, 1, 0, 1, false, false, 0x3FFF, 0, 0, 0, 0, 0, 0, 0⟩
  | .SYS_RST_SW => ⟨0x58, 0, 1, 0, 1, false, false, 0, 0, 0xFFFF0001, 0, 0, 0, 0, 0⟩
  | .SYS_RST_REACH => ⟨0x60, 4, 4, 0, 1, false, false, 0, 0, 0, 0, 0, 0, 0x80003FFF, 0⟩
  | .SYS_WDT_CTRL => ⟨0x70, 0, 1, 0, 1, false, false, 0x40FFFFFF, 0, 0, 0, 0x80000000, 0, 0, 0x8000⟩
  | .SYS_WDT_KICK => ⟨0x74, 0, 1, 0, 1, false, false, 0, 0, 0xFFFFFFFF, 0, 0, 0, 0, 0⟩
  | .SYS_MBOX_CMD => ⟨0x100, 0, 1, 0, 1, false, false, 0, 0xFFF00000, 0xFF, 0, 0, 0, 0, 0⟩
  | .SYS_MBOX_STATUS => ⟨0x104, 0, 1, 0, 1, false, false, 0, 0xFF000001, 0, 0, 0, 0, 0, 0⟩
  | .SYS_MBOX_DATA => ⟨0x110, 4, 8, 0, 1, false, false, 0xFFFFFFFF, 0, 0, 0, 0, 0, 0, 0⟩
  | .CLK_BLOCK_VERSION => ⟨0x10000, 0, 1, 0, 1, false, false, 0, 0xFFFFFFFF, 0, 0, 0, 0, 0, 0x10000⟩
  | .CLK_REF_CTRL => ⟨0x10010, 0, 1, 0, 1, false, false, 0x47, 0, 0x80, 0, 0, 0, 0, 0x3⟩
  | .CLK_REF_STATUS => ⟨0x10014, 0, 1, 0, 1, false, false, 0, 0xFFC7, 0, 0, 0, 0, 0, 0x3⟩
  | .CLK_REF_PRIO => ⟨0x10018, 0, 1, 0, 1, false, true, 0x7777, 0, 0, 0, 0, 0, 0, 0x7773⟩
  | .CLK_REF_RATIO => ⟨0x10020, 8, 4, 0, 1, true, true, 0xFFFFFFFFFFF, 0, 0, 0, 0, 0, 0, 0⟩
  | .CLK_RCV_CTRL => ⟨0x10040, 4, 2, 0, 1, false, true, 0x871F0FFF, 0, 0, 0, 0, 0, 0, 0⟩
  | .CLK_RCLK_CTRL => ⟨0x10048, 0, 1, 0, 1, false, true, 0x707, 0, 0, 0, 0, 0, 0, 0x404⟩
  | .CLK_ROOT_CFG => ⟨0x10050, 0, 1, 0, 1, false, true, 0xFF1FF7F, 0, 0, 0, 0, 0, 0, 0x6411417⟩
  | .CLK_ROOT_STATUS => ⟨0x10054, 0, 1, 0, 1, false, false, 0, 0xF, 0, 0, 0, 0, 0, 0⟩
  | .CLK_ROOT_FOFS => ⟨0x10058, 0, 1, 0, 1, false, false, 0, 0xFFFFFFFF, 0, 0, 0, 0, 0, 0⟩
  | .CLK_FTAP => ⟨0x10080, 4, 16, 0, 1, false, false, 0, 0, 0, 0, 0, 0, 0x1FFF, 0⟩
  | .CLK_GATE_EN0 => ⟨0x10100, 0, 1, 0, 1, false, false, 0, 0, 0, 0, 0, 0, 0xFFFF1F, 0x1F⟩
  | .CLK_GATE_EN1 => ⟨0x10104, 0, 1, 0, 1, false, false, 0, 0, 0, 0, 0, 0, 0x3FFF, 0x3FFF⟩
  | .CLK_GATE_EN2 => ⟨0x10108, 0, 1, 0, 1, false, false, 0, 0, 0, 0, 0, 0, 0xFFF0F3F, 0xFFF0F3F⟩
  | .CLK_GATE_EN3 => ⟨0x1010C, 0, 1, 0, 1, false, false, 0, 0, 0, 0, 0, 0, 0xFFFFFFFF, 0xFFFFFFFF⟩
  | .CLK_GATE_EN4 => ⟨0x10110, 0, 1, 0, 1, false, false, 0, 0, 0, 0, 0, 0, 0xFFFF, 0xFFFF⟩
  | .CLK_GATE_STATUS => ⟨0x10114, 0, 1, 0, 1, false, false, 0, 0x1FF, 0, 0x80000000, 0, 0, 0, 0x1FF⟩
  | .CLK_ALT_CTRL => ⟨0x10120, 0, 1, 0, 1, false, false, 0x303, 0, 0x404, 0, 0, 0, 0, 0⟩
  | .CLK_ALT_STATUS => ⟨0x10124, 0, 1, 0, 1, false, false, 0, 0xF0F, 0, 0, 0, 0, 0, 0⟩
  | .CLK_UPLL_CTRL => ⟨0x10200, 16, 8, 0, 1, false, false, 0xC73F01FF, 0, 0, 0, 0, 0, 0, 0x40010010⟩
  | .CLK_UPLL_OUT => ⟨0x10204, 16, 8, 0, 1, false, false, 0xFFFFFFFF, 0, 0, 0, 0, 0, 0, 0⟩
  | .CLK_UPLL_STATUS => ⟨0x10208, 16, 8, 0, 1, false, false, 0, 0xD, 0, 0x2, 0, 0, 0, 0⟩
  | .CLK_MON_CTRL => ⟨0x10300, 0, 1, 0, 1, false, false, 0x31F, 0, 0x80000000, 0, 0, 0, 0, 0⟩
  | .CLK_MON_COUNT => ⟨0x10304, 0, 1, 0, 1, false, false, 0, 0xFFFFFFFF, 0, 0, 0, 0, 0, 0⟩
  | .CLK_MON_STATUS => ⟨0x10308, 0, 1, 0, 1, false, false, 0, 0x6, 0, 0x1, 0, 0, 0, 0⟩
  | .CLK_EVT => ⟨0x10310, 0, 1, 0, 1, false, false, 0, 0, 0, 0xFF1F1F, 0, 0, 0, 0⟩
  | .PWR_BLOCK_VERSION => ⟨0x20000, 0, 1, 0, 1, false, false, 0, 0xFFFFFFFF, 0, 0, 0, 0, 0, 0x10000⟩
  | .PWR_CTRL => ⟨0x20010, 0, 1, 0, 1, false, false, 0x7, 0, 0x80000000, 0, 0, 0, 0, 0⟩
  | .PWR_STATUS => ⟨0x20014, 0, 1, 0, 1, false, false, 0, 0xFF137, 0, 0x200, 0, 0, 0, 0⟩
  | .PWR_CFG => ⟨0x20018, 0, 1, 0, 1, false, false, 0xC000FFFF, 0, 0, 0, 0, 0, 0, 0x400003E8⟩
  | .PWR_WAKE_TIMER => ⟨0x2001C, 0, 1, 0, 1, false, false, 0xFFFFFFFF, 0, 0, 0, 0, 0, 0, 0x8000⟩
  | .PWR_EVT => ⟨0x20020, 0, 1, 0, 1, false, false, 0, 0, 0, 0x7, 0, 0, 0, 0⟩
  | .THM_BLOCK_VERSION => ⟨0x30000, 0, 1, 0, 1, false, false, 0, 0xFFFFFFFF, 0, 0, 0, 0, 0, 0x10000⟩
  | .THM_TEMP => ⟨0x30010, 0, 1, 0, 1, false, false, 0, 0xFFFF, 0, 0, 0, 0xFFFF0000, 0, 0x80000000⟩
  | .THM_VOLT => ⟨0x30020, 4, 6, 0, 1, false, false, 0, 0xFFFF, 0, 0, 0, 0, 0, 0⟩
  | .THM_LOOP_CFG => ⟨0x30040, 0, 1, 0, 1, false, true, 0xFFFFFFFF, 0, 0, 0, 0, 0, 0, 0x500A05⟩
  | .THM_FAN_CFG => ⟨0x30044, 0, 1, 0, 1, false, true, 0xFFFFFFFF, 0, 0, 0, 0, 0, 0, 0x1E1E0A14⟩
  | .THM_SPIN_CFG => ⟨0x30048, 0, 1, 0, 1, false, true, 0x3FFFFFF, 0, 0x80000000, 0, 0, 0, 0, 0x203E814⟩
  | .THM_HEAT_CFG => ⟨0x3004C, 0, 1, 0, 1, false, true, 0xFFFFFFFF, 0, 0, 0, 0, 0, 0, 0x3C3C0000⟩
  | .THM_FAN_STATUS => ⟨0x30060, 4, 2, 0, 1, false, true, 0, 0xC0FFFFFF, 0, 0, 0, 0, 0, 0⟩
  | .THM_STATUS => ⟨0x30068, 0, 1, 0, 1, false, true, 0, 0x3FFFF, 0, 0, 0, 0, 0, 0⟩
  | .THM_EVT => ⟨0x30070, 0, 1, 0, 1, false, false, 0, 0, 0, 0x3F1E, 0, 0, 0, 0⟩
  | .MON_BLOCK_VERSION => ⟨0x40000, 0, 1, 0, 1, false, false, 0, 0xFFFFFFFF, 0, 0, 0, 0, 0, 0x10000⟩
  | .MON_CTRL => ⟨0x40100, 256, 16, 0, 1, false, false, 0xC0000000, 0, 0, 0x2, 0, 0, 0, 0⟩
  | .MON_SRC => ⟨0x40104, 256, 16, 0, 1, false, false, 0xFFFFFFF, 0, 0, 0, 0, 0, 0, 0x1000⟩
  | .MON_BIN => ⟨0x40108, 256, 16, 0, 1, false, false, 0x1FFFFF, 0, 0, 0, 0, 0, 0, 0⟩
  | .MON_WIN => ⟨0x4010C, 256, 16, 0, 1, false, false, 0xFFFFFFFF, 0, 0, 0, 0, 0, 0, 0x3E8⟩
  | .MON_MIN => ⟨0x40110, 256, 16, 0, 1, false, false, 0, 0xFFFFFFFF, 0, 0, 0, 0, 0, 0xFFFFFFFF⟩
  | .MON_MAX => ⟨0x40114, 256, 16, 0, 1, false, false, 0, 0xFFFFFFFF, 0, 0, 0, 0, 0, 0⟩
  | .MON_COUNT => ⟨0x40118, 256, 16, 0, 1, true, false, 0, 0xFFFFFFFFFFFFFFFF, 0, 0, 0, 0, 0, 0⟩
  | .MON_SUM => ⟨0x40120, 256, 16, 0, 1, true, false, 0, 0xFFFFFFFFFFFFFFFF, 0, 0, 0, 0, 0, 0⟩
  | .MON_HIST => ⟨0x40180, 256, 16, 4, 32, false, false, 0, 0xFFFFFFFF, 0, 0, 0, 0, 0, 0⟩
  | .EVT_BLOCK_VERSION => ⟨0x50000, 0, 1, 0, 1, false, false, 0, 0xFFFFFFFF, 0, 0, 0, 0, 0, 0x10000⟩
  | .EVT_PRIO => ⟨0x51004, 4, 640, 0, 1, false, false, 0x7, 0, 0, 0, 0, 0, 0, 0⟩
  | .EVT_PEND => ⟨0x52000, 4, 21, 0, 1, false, false, 0, 0xFFFFFFFF, 0, 0, 0, 0, 0, 0⟩
  | .EVT_EN => ⟨0x53000, 128, 8, 4, 21, false, false, 0xFFFFFFFF, 0, 0, 0, 0, 0, 0, 0⟩
  | .EVT_THR => ⟨0x54000, 16, 8, 0, 1, false, false, 0x7, 0, 0, 0, 0, 0, 0, 0⟩
  | .EVT_CLAIM => ⟨0x54004, 16, 8, 0, 1, false, false, 0x3FF, 0, 0, 0, 0, 0, 0, 0⟩
  | .EVT_LOST => ⟨0x55000, 0, 1, 0, 1, false, false, 0, 0xFF, 0, 0, 0, 0, 0, 0⟩
  | .CFG_BLOCK_VERSION => ⟨0x60000, 0, 1, 0, 1, false, false, 0, 0xFFFFFFFF, 0, 0, 0, 0, 0, 0x10000⟩
  | .CFG_LOAD_STATUS => ⟨0x60010, 0, 1, 0, 1, false, false, 0, 0xFF070003, 0, 0, 0, 0, 0, 0⟩
  | .CFG_LOAD_ERR_INFO => ⟨0x60014, 0, 1, 0, 1, false, false, 0, 0xFFF7FFFF, 0, 0, 0, 0, 0, 0⟩
  | .CFG_BOOT_STATUS => ⟨0x60018, 0, 1, 0, 1, false, true, 0, 0xF3F0300, 0, 0, 0, 0, 0, 0x30300⟩
  | .CFG_BOOT_SEQ => ⟨0x6001C, 0, 1, 0, 1, false, true, 0, 0xFFFFFFFF, 0, 0, 0, 0, 0, 0⟩
  | .CFG_BOOT_LOG => ⟨0x60020, 0, 1, 0, 1, false, true, 0, 0xFFFFFF, 0, 0, 0, 0, 0, 0xFFFFFF⟩
  | .CFG_CONFIRM => ⟨0x60024, 0, 1, 0, 1, false, true, 0, 0, 0xFFFFFFFF, 0, 0, 0, 0, 0⟩
  | .CFG_CMD => ⟨0x60028, 0, 1, 0, 1, false, true, 0x300, 0xFFF00000, 0xF, 0, 0, 0, 0, 0⟩
  | .CFG_CMD_ADDR => ⟨0x60030, 0, 1, 0, 1, true, true, 0xFFFFFFFFFFFFFFFF, 0, 0, 0, 0, 0, 0, 0⟩
  | .CFG_CMD_STATUS => ⟨0x60038, 0, 1, 0, 1, false, true, 0, 0xFF000001, 0, 0x2, 0, 0, 0, 0⟩
  | .CFG_IMAGE_VERSION => ⟨0x6003C, 0, 1, 0, 1, false, false, 0, 0xFFFFFFFF, 0, 0, 0, 0, 0, 0⟩
  | .CFG_WAKE_SEQ => ⟨0x60040, 0, 1, 0, 1, false, false, 0, 0xFFFFFFFF, 0, 0, 0, 0, 0, 0x87654321⟩
  | .CFG_WAKE_CFG => ⟨0x60044, 0, 1, 0, 1, false, false, 0, 0xFFFF33FF, 0, 0, 0, 0, 0, 0x1110⟩
  | .CFG_WAKE_STATUS => ⟨0x60048, 0, 1, 0, 1, false, false, 0, 0xF10701FF, 0, 0, 0, 0, 0, 0⟩
  | .CFG_WARM_BASE => ⟨0x60050, 0, 1, 0, 1, true, false, 0xFFFFFFFFFFFFFFFF, 0, 0, 0, 0, 0, 0, 0⟩
  | .CFG_WARM_CTRL => ⟨0x60058, 0, 1, 0, 1, false, true, 0x1, 0, 0, 0, 0, 0, 0, 0⟩
  | .CFG_WARM_STATUS => ⟨0x6005C, 0, 1, 0, 1, false, false, 0, 0x3, 0, 0, 0, 0, 0, 0⟩
  | .CFG_CAP_CTRL => ⟨0x60100, 0, 1, 0, 1, false, false, 0, 0, 0x40000000, 0, 0, 0, 0x833FFFFF, 0⟩
  | .CFG_CAP_STATUS => ⟨0x60104, 0, 1, 0, 1, false, false, 0, 0xFFFF0103, 0, 0xE00, 0, 0, 0, 0⟩
  | .CFG_CAP_TIME => ⟨0x60108, 0, 1, 0, 1, true, false, 0, 0xFFFFFFFFFFFFFFFF, 0, 0, 0, 0, 0, 0⟩
  | .CFG_RB_CTRL => ⟨0x60110, 0, 1, 0, 1, false, false, 0x4007FFFF, 0, 0x80000000, 0, 0, 0, 0, 0⟩
  | .CFG_RB_COUNT => ⟨0x60114, 0, 1, 0, 1, false, false, 0x7FFFF, 0, 0, 0, 0, 0, 0, 0x1⟩
  | .CFG_RB_DEST => ⟨0x60118, 0, 1, 0, 1, true, false, 0xFFFFFFFFFFFFFFFF, 0, 0, 0, 0, 0, 0, 0⟩
  | .CFG_RB_STATUS => ⟨0x60120, 0, 1, 0, 1, false, false, 0, 0xFF000001, 0, 0x2, 0, 0, 0, 0⟩
  | .CFG_SWEEP_CTRL => ⟨0x60200, 0, 1, 0, 1, false, false, 0xC00001FF, 0, 0, 0, 0, 0, 0, 0x80000101⟩
  | .CFG_SWEEP_STATUS => ⟨0x60204, 0, 1, 0, 1, false, false, 0, 0x3FF7FFFF, 0, 0, 0, 0, 0, 0⟩
  | .CFG_SWEEP_PASSES => ⟨0x60208, 0, 1, 0, 1, false, false, 0, 0xFFFFFFFF, 0, 0, 0, 0, 0, 0⟩
  | .CFG_SEU_DET => ⟨0x60210, 0, 1, 0, 1, true, false, 0, 0xFFFFFFFFFFFFFFFF, 0, 0, 0, 0, 0, 0⟩
  | .CFG_SEU_FIXED => ⟨0x60218, 0, 1, 0, 1, true, false, 0, 0xFFFFFFFFFFFFFFFF, 0, 0, 0, 0, 0, 0⟩
  | .CFG_SEU_UNFIXED => ⟨0x60220, 0, 1, 0, 1, true, false, 0, 0xFFFFFFFFFFFFFFFF, 0, 0, 0, 0, 0, 0⟩
  | .CFG_SEU_LAST => ⟨0x60228, 0, 1, 0, 1, false, false, 0, 0xE007FFFF, 0, 0, 0, 0, 0, 0⟩
  | .SEC_BLOCK_VERSION => ⟨0x70000, 0, 1, 0, 1, false, true, 0, 0xFFFFFFFF, 0, 0, 0, 0, 0, 0x10000⟩
  | .SEC_LC => ⟨0x70010, 0, 1, 0, 1, false, true, 0, 0xC0000377, 0, 0, 0, 0, 0, 0⟩
  | .SEC_CMD => ⟨0x70014, 0, 1, 0, 1, false, true, 0xFF00, 0xFFF00000, 0xF, 0, 0, 0, 0, 0⟩
  | .SEC_CMD_STATUS => ⟨0x70018, 0, 1, 0, 1, false, true, 0, 0xFF000001, 0, 0x2, 0, 0, 0, 0⟩
  | .SEC_KEY_DATA => ⟨0x70020, 4, 12, 0, 1, false, true, 0, 0, 0xFFFFFFFF, 0, 0, 0, 0, 0⟩
  | .SEC_KEY_VERSION => ⟨0x70050, 0, 1, 0, 1, false, true, 0, 0, 0xFFFFFFFF, 0, 0, 0, 0, 0⟩
  | .SEC_KEY_STATUS => ⟨0x70054, 0, 1, 0, 1, false, true, 0, 0xF301, 0, 0, 0, 0, 0, 0⟩
  | .SEC_BB_VER => ⟨0x70058, 4, 2, 0, 1, false, true, 0, 0xFFFFFFFF, 0, 0, 0, 0, 0, 0⟩
  | .SEC_PKH_STATUS => ⟨0x70060, 0, 1, 0, 1, false, true, 0, 0x70FFF, 0, 0, 0, 0, 0, 0⟩
  | .SEC_SVN_FLOOR => ⟨0x70064, 0, 1, 0, 1, false, true, 0, 0x7F, 0, 0, 0, 0, 0, 0⟩
  | .SEC_POLICY => ⟨0x70068, 0, 1, 0, 1, false, true, 0, 0xFFE0F, 0, 0, 0, 0, 0, 0⟩
  | .SEC_TAMPER_CFG => ⟨0x70070, 0, 1, 0, 1, false, true, 0x3FF, 0, 0, 0, 0x80000000, 0, 0, 0x300⟩
  | .SEC_TAMPER_RESP => ⟨0x70074, 0, 1, 0, 1, false, true, 0xF, 0, 0, 0, 0, 0, 0, 0⟩
  | .SEC_TAMPER_LOG => ⟨0x70078, 0, 1, 0, 1, false, true, 0, 0x8000FF77, 0, 0xFF0000, 0, 0, 0, 0⟩
  | .SEC_TEMP_LIMITS => ⟨0x7007C, 0, 1, 0, 1, false, true, 0xFFFF, 0, 0, 0, 0, 0, 0, 0x7DC4⟩
  | .SEC_DEVICE_ID => ⟨0x70080, 0, 1, 0, 1, true, true, 0, 0xFFFFFFFFFFFFFFFF, 0, 0, 0, 0, 0, 0⟩
  | .SEC_NVC_RIGHTS => ⟨0x70088, 0, 1, 0, 1, false, true, 0xFF, 0, 0, 0, 0, 0, 0, 0x1⟩
  | .SEC_RIGHTS_LOCK => ⟨0x7008C, 0, 1, 0, 1, false, true, 0, 0, 0, 0, 0x1, 0, 0, 0⟩
  | .SEC_KEYID_RIGHTS => ⟨0x70400, 4, 64, 0, 1, false, true, 0xFF, 0, 0, 0, 0, 0, 0, 0x7F⟩
  | .NVC_BLOCK_VERSION => ⟨0x80000, 0, 1, 0, 1, false, true, 0, 0xFFFFFFFF, 0, 0, 0, 0, 0, 0x10000⟩
  | .NVC_CFG => ⟨0x80010, 0, 1, 0, 1, false, true, 0xFF0000, 0x1FF, 0, 0, 0, 0, 0, 0x140000⟩
  | .NVC_INFO => ⟨0x80014, 0, 1, 0, 1, false, true, 0, 0xFFFF00FF, 0, 0, 0, 0, 0, 0⟩
  | .NVC_CMD => ⟨0x80018, 0, 1, 0, 1, false, true, 0, 0xFFF00000, 0xF, 0, 0, 0, 0, 0⟩
  | .NVC_STATUS => ⟨0x8001C, 0, 1, 0, 1, false, true, 0, 0xFF000300, 0, 0x1, 0, 0, 0, 0⟩
  | .NVC_ADDR => ⟨0x80020, 0, 1, 0, 1, true, true, 0xFFFFFFFFFFFFFFFF, 0, 0, 0, 0, 0, 0, 0⟩
  | .NVC_MEM => ⟨0x80028, 0, 1, 0, 1, true, true, 0xFFFFFFFFFFFFFFFF, 0, 0, 0, 0, 0, 0, 0⟩
  | .NVC_LEN => ⟨0x80030, 0, 1, 0, 1, false, true, 0xFFFFFFFF, 0, 0, 0, 0, 0, 0, 0⟩
  | .NVC_PROTECT => ⟨0x80034, 0, 1, 0, 1, false, true, 0x7, 0, 0, 0, 0, 0, 0, 0⟩
  | .NVC_FAIL_ADDR => ⟨0x80038, 0, 1, 0, 1, true, true, 0, 0xFFFFFFFFFFFFFFFF, 0, 0, 0, 0, 0, 0⟩
  | .NVC_XIP_BASE => ⟨0x80040, 0, 1, 0, 1, false, true, 0x3FFFFFF, 0, 0, 0, 0, 0, 0, 0⟩
  | .BNK_BLOCK_VERSION => ⟨0x100000, 0, 1, 0, 1, false, false, 0, 0xFFFFFFFF, 0, 0, 0, 0, 0, 0x10000⟩
  | .BNK_EVT => ⟨0x100010, 0, 1, 0, 1, false, false, 0, 0, 0, 0x3F, 0, 0, 0, 0⟩
  | .BNK_ACC_LOG => ⟨0x100018, 0, 1, 0, 1, true, false, 0, 0xF707FFF03FFFF8, 0, 0x8000000000000000, 0, 0, 0, 0⟩
  | .BNK_ERR_LOG => ⟨0x100020, 0, 1, 0, 1, true, false, 0, 0x7FF0000003FFFF8, 0, 0x8000000000000000, 0, 0, 0, 0⟩
  | .BNK_ECC_TEST => ⟨0x100030, 0, 1, 0, 1, false, false, 0x80000007, 0, 0, 0, 0, 0, 0, 0⟩
  | .BNK_ECC_ADDR => ⟨0x100038, 0, 1, 0, 1, true, false, 0x3FFFF8, 0, 0, 0, 0, 0, 0, 0⟩
  | .BNK_ECC_CHK => ⟨0x100040, 0, 1, 0, 1, false, false, 0xFF, 0xFF00, 0, 0, 0, 0, 0, 0⟩
  | .BNK_CTRL => ⟨0x100100, 64, 8, 0, 1, false, false, 0xC0001FFF, 0, 0x10000000, 0, 0x20000000, 0, 0xC000000, 0x40001FFF⟩
  | .BNK_STATUS => ⟨0x100104, 64, 8, 0, 1, false, false, 0, 0xF0071FFF, 0, 0, 0, 0, 0, 0x1FFF⟩
  | .BNK_ECC_CNT => ⟨0x100108, 64, 8, 0, 1, false, false, 0, 0, 0, 0, 0, 0xFFFFFFFF, 0, 0⟩
  | .BNK_REPAIR => ⟨0x10010C, 64, 8, 0, 1, false, false, 0, 0xFFFFFF, 0, 0, 0, 0, 0, 0⟩
  | .BNK_CNT_ACC => ⟨0x100110, 64, 8, 0, 1, true, false, 0, 0xFFFFFFFFFFFFFFFF, 0, 0, 0, 0, 0, 0⟩
  | .BNK_CNT_WAIT => ⟨0x100118, 64, 8, 0, 1, true, false, 0, 0xFFFFFFFFFFFFFFFF, 0, 0, 0, 0, 0, 0⟩
  | .NOC_BLOCK_VERSION => ⟨0x200000, 0, 1, 0, 1, false, false, 0, 0xFFFFFFFF, 0, 0, 0, 0, 0, 0x10000⟩
  | .NOC_TMO_CFG => ⟨0x200010, 0, 1, 0, 1, false, false, 0xFFFFF, 0, 0, 0, 0, 0, 0, 0x64⟩
  | .NOC_EVT => ⟨0x200014, 0, 1, 0, 1, false, false, 0, 0, 0, 0x7, 0, 0, 0, 0⟩
  | .NOC_TMO_LOG => ⟨0x200018, 0, 1, 0, 1, true, false, 0, 0xFFFFFFFFC000000, 0, 0x8000000000000000, 0, 0, 0, 0⟩
  | .NOC_QUAR => ⟨0x200020, 0, 1, 0, 1, false, false, 0, 0xFFFF, 0, 0, 0, 0, 0, 0⟩
  | .NOC_CNT_TMO => ⟨0x200028, 0, 1, 0, 1, true, false, 0, 0xFFFFFFFFFFFFFFFF, 0, 0, 0, 0, 0, 0⟩
  | .NOC_LATE_CPL => ⟨0x200030, 0, 1, 0, 1, true, false, 0, 0xFFFFFFFFFFFFFFFF, 0, 0, 0, 0, 0, 0⟩
  | .NOC_CNT_DOWN => ⟨0x200038, 0, 1, 0, 1, true, false, 0, 0xFFFFFFFFFFFFFFFF, 0, 0, 0, 0, 0, 0⟩
  | .NOC_CNT_WAKE => ⟨0x200040, 0, 1, 0, 1, true, false, 0, 0xFFFFFFFFFFFFFFFF, 0, 0, 0, 0, 0, 0⟩
  | .NOC_LOST_LINES => ⟨0x200048, 0, 1, 0, 1, true, false, 0, 0xFFFFFFFFFFFFFFFF, 0, 0, 0, 0, 0, 0⟩
  | .RLC_BLOCK_VERSION => ⟨0x280000, 0, 1, 0, 1, false, false, 0, 0xFFFFFFFF, 0, 0, 0, 0, 0, 0x10000⟩
  | .RLC_CTRL => ⟨0x280010, 0, 1, 0, 1, false, false, 0, 0, 0x80000000, 0, 0, 0, 0, 0⟩
  | .RLC_STATUS => ⟨0x280014, 0, 1, 0, 1, false, false, 0, 0x1, 0, 0, 0, 0, 0, 0⟩
  | .RLC_ECC_FLIP => ⟨0x280018, 0, 1, 0, 1, false, false, 0x1FF, 0, 0, 0, 0, 0, 0, 0⟩
  | .RLC_ECC_CNT => ⟨0x28001C, 0, 1, 0, 1, false, false, 0, 0, 0, 0, 0, 0xFFFFFFFF, 0, 0⟩
  | .RLC_WB_LOG => ⟨0x280020, 0, 1, 0, 1, true, false, 0, 0x1FFFFFFFFFFFFC0, 0, 0x8000000000000000, 0, 0, 0, 0⟩
  | .RLC_EVT => ⟨0x280028, 0, 1, 0, 1, false, false, 0, 0, 0, 0x1F, 0, 0, 0, 0⟩
  | .RLC_CNT => ⟨0x280100, 8, 7, 0, 1, true, false, 0, 0xFFFFFFFFFFFFFFFF, 0, 0, 0, 0, 0, 0⟩
  | .BDL_BLOCK_VERSION => ⟨0x300000, 0, 1, 0, 1, false, false, 0, 0xFFFFFFFF, 0, 0, 0, 0, 0, 0x10000⟩
  | .BDL_IDENT => ⟨0x300010, 0, 1, 0, 1, false, false, 0, 0x8F0F0F0F, 0, 0, 0, 0, 0, 0⟩
  | .BDL_EVT => ⟨0x300014, 0, 1, 0, 1, false, false, 0, 0, 0, 0x7, 0, 0, 0, 0⟩
  | .BDL_TEST => ⟨0x300018, 0, 1, 0, 1, false, false, 0x80000F37, 0, 0, 0, 0, 0, 0, 0x100⟩
  | .BDL_STATUS => ⟨0x300100, 64, 4, 0, 1, false, false, 0, 0xF000717, 0, 0, 0, 0, 0, 0⟩
  | .BDL_PEER => ⟨0x300104, 64, 4, 0, 1, false, false, 0, 0xFFFFFF8F, 0, 0, 0, 0, 0, 0⟩
  | .BDL_CAPS => ⟨0x300108, 64, 4, 0, 1, false, false, 0, 0x3F001F, 0, 0, 0, 0, 0, 0⟩
  | .BDL_WIN => ⟨0x30010C, 64, 4, 0, 1, false, false, 0, 0xFFFFFF, 0, 0, 0, 0, 0, 0⟩
  | .BDL_CNT_FLITS => ⟨0x300110, 64, 4, 0, 1, true, false, 0, 0xFFFFFFFFFFFFFFFF, 0, 0, 0, 0, 0, 0⟩
  | .BDL_CNT_CRC => ⟨0x300118, 64, 4, 0, 1, true, false, 0, 0xFFFFFFFFFFFFFFFF, 0, 0, 0, 0, 0, 0⟩
  | .BDL_CNT_REPLAY => ⟨0x300120, 64, 4, 0, 1, true, false, 0, 0xFFFFFFFFFFFFFFFF, 0, 0, 0, 0, 0, 0⟩
  | .DDR_BLOCK_VERSION => ⟨0x400000, 262144, 2, 0, 1, false, false, 0, 0xFFFFFFFF, 0, 0, 0, 0, 0, 0x10000⟩
  | .DDR_CFG => ⟨0x400010, 262144, 2, 0, 1, false, false, 0x80000005, 0, 0, 0, 0, 0, 0, 0⟩
  | .DDR_STATUS => ⟨0x400014, 262144, 2, 0, 1, false, false, 0, 0xFF000007, 0, 0, 0, 0, 0, 0⟩
  | .DDR_QOS => ⟨0x400018, 262144, 2, 0, 1, false, false, 0, 0, 0, 0, 0, 0, 0xFFFF, 0xF225⟩
  | .DDR_AGE => ⟨0x40001C, 262144, 2, 0, 1, false, false, 0, 0, 0, 0, 0, 0, 0xFFFFFFFF, 0xFF401000⟩
  | .DDR_ECC_FLIP => ⟨0x400020, 262144, 2, 0, 1, false, false, 0x800FF0FF, 0, 0, 0, 0, 0, 0, 0⟩
  | .DDR_ECC_CNT => ⟨0x400024, 262144, 2, 0, 1, false, false, 0, 0, 0, 0, 0, 0xFFFFFFFF, 0, 0⟩
  | .DDR_ERR_LOG => ⟨0x400028, 262144, 2, 0, 1, true, false, 0, 0xFFFFFFFFFFFFFF, 0, 0x8000000000000000, 0, 0, 0, 0⟩
  | .DDR_EVT => ⟨0x400030, 262144, 2, 0, 1, false, false, 0, 0, 0, 0xF, 0, 0, 0, 0⟩
  | .DDR_MAP_CTL => ⟨0x400100, 8, 8, 0, 1, false, false, 0, 0, 0, 0, 0, 0, 0x801FFFFF, 0xC0000⟩
  | .DDR_MAP_RNG => ⟨0x400104, 8, 8, 0, 1, false, false, 0, 0, 0, 0, 0, 0, 0xFFF7FF7F, 0⟩
  | .DDR_MAP_SUM => ⟨0x400140, 0, 1, 0, 1, false, false, 0, 0xFFFFFFFF, 0, 0, 0, 0, 0, 0x6A3B2B01⟩
  | .DDR_CNT => ⟨0x400200, 262144, 2, 8, 6, true, false, 0, 0xFFFFFFFFFFFFFFFF, 0, 0, 0, 0, 0, 0⟩
  | .MEE_BLOCK_VERSION => ⟨0x480000, 131072, 2, 0, 1, false, false, 0, 0xFFFFFFFF, 0, 0, 0, 0, 0, 0x10000⟩
  | .MEE_PROT => ⟨0x480010, 131072, 2, 8, 4, true, false, 0x80001FFF1FFF1FFF, 0, 0, 0, 0, 0, 0, 0⟩
  | .MEE_KEY_DATA => ⟨0x480040, 131072, 2, 4, 8, false, false, 0, 0, 0xFFFFFFFF, 0, 0, 0, 0, 0⟩
  | .MEE_KEY_CMD => ⟨0x480060, 131072, 2, 0, 1, false, false, 0, 0xFFF00000, 0xB3F07, 0, 0, 0, 0, 0⟩
  | .MEE_KEY_STATUS => ⟨0x480064, 131072, 2, 0, 1, false, false, 0, 0xFFF00001, 0, 0x2, 0, 0, 0, 0⟩
  | .MEE_KSTATE => ⟨0x480070, 131072, 2, 4, 8, false, false, 0, 0xFFFFFFFF, 0, 0, 0, 0, 0, 0⟩
  | .MEE_RK_CFG => ⟨0x480080, 131072, 2, 0, 1, false, false, 0xFF, 0x3F00, 0, 0, 0, 0, 0, 0⟩
  | .MEE_RK_START => ⟨0x480088, 131072, 2, 0, 1, false, false, 0x7FFFFFFF, 0, 0, 0, 0, 0, 0, 0⟩
  | .MEE_RK_END => ⟨0x48008C, 131072, 2, 0, 1, false, false, 0x7FFFFFFF, 0, 0, 0, 0, 0, 0, 0⟩
  | .MEE_RK_BOUND => ⟨0x480090, 131072, 2, 0, 1, false, false, 0, 0x7FFFFFFF, 0, 0, 0, 0, 0, 0⟩
  | .MEE_EXH => ⟨0x480098, 131072, 2, 0, 1, true, false, 0, 0, 0, 0xFFFFFFFFFFFFFFFE, 0, 0, 0, 0⟩
  | .MEE_FAIL_LOG => ⟨0x4800A0, 131072, 2, 0, 1, true, false, 0, 0x7FFF001FFFFFFFFF, 0, 0x8000000000000000, 0, 0, 0, 0⟩
  | .MEE_EVT => ⟨0x4800A8, 131072, 2, 0, 1, false, false, 0, 0, 0, 0xF, 0, 0, 0, 0⟩
  | .MEE_CNT => ⟨0x480100, 131072, 2, 8, 5, true, false, 0, 0xFFFFFFFFFFFFFFFF, 0, 0, 0, 0, 0, 0⟩
  | .LAN_BLOCK_VERSION => ⟨0x500000, 0, 1, 0, 1, false, false, 0, 0xFFFFFFFF, 0, 0, 0, 0, 0, 0x10000⟩
  | .LAN_CTRL => ⟨0x500010, 4096, 32, 0, 1, false, false, 0xB800000C, 0, 0x40000000, 0, 0, 0, 0, 0x20000000⟩
  | .LAN_MODE => ⟨0x500014, 4096, 32, 0, 1, false, false, 0x3E7, 0, 0, 0, 0, 0, 0, 0⟩
  | .LAN_STATUS => ⟨0x500018, 4096, 32, 0, 1, false, false, 0, 0xFF000FC7, 0, 0, 0, 0, 0, 0⟩
  | .LAN_PAIR => ⟨0x50001C, 8192, 16, 0, 1, false, false, 0x5, 0x2, 0, 0, 0, 0, 0, 0⟩
  | .LAN_AN_ADV => ⟨0x500020, 4096, 32, 0, 1, false, false, 0xE01FFFFF, 0, 0, 0, 0, 0, 0, 0xC01FFFFF⟩
  | .LAN_AN_STATUS => ⟨0x500024, 4096, 32, 0, 1, false, false, 0, 0xFFC00007, 0, 0, 0, 0, 0, 0⟩
  | .LAN_AN_PARTNER => ⟨0x500028, 4096, 32, 0, 1, false, false, 0, 0xE01FFFFF, 0, 0, 0, 0, 0, 0⟩
  | .LAN_LT_CFG => ⟨0x50002C, 4096, 32, 0, 1, false, false, 0x80000FFF, 0, 0, 0, 0, 0, 0, 0x80000100⟩
  | .LAN_LT_STATUS => ⟨0x500030, 4096, 32, 0, 1, false, false, 0, 0xFFFFFFFF, 0, 0, 0, 0, 0, 0⟩
  | .LAN_ADAPT_CFG => ⟨0x500034, 4096, 32, 0, 1, false, false, 0x80FF00FF, 0, 0x40000000, 0, 0, 0, 0, 0x8014000C⟩
  | .LAN_EYE_CTRL => ⟨0x500040, 4096, 32, 0, 1, false, false, 0x7FFFFFFF, 0, 0x80000000, 0, 0, 0, 0, 0x6000000⟩
  | .LAN_EYE_RESULT => ⟨0x500048, 4096, 32, 0, 1, true, false, 0, 0x70000000FFFFFFFF, 0, 0x8000000000000000, 0, 0, 0, 0⟩
  | .LAN_EYE_MARGIN => ⟨0x500050, 4096, 32, 0, 1, false, false, 0, 0xFFFFFFFF, 0, 0, 0, 0, 0, 0⟩
  | .LAN_EYE_BG => ⟨0x500054, 4096, 32, 0, 1, false, false, 0, 0xFFFFFFFF, 0, 0, 0, 0, 0, 0⟩
  | .LAN_PRBS => ⟨0x500058, 4096, 32, 0, 1, false, false, 0xC0070000, 0x800000, 0, 0, 0, 0, 0, 0⟩
  | .LAN_EVT => ⟨0x500060, 4096, 32, 0, 1, false, false, 0, 0, 0, 0x7F, 0, 0, 0, 0⟩
  | .LAN_CNT => ⟨0x500100, 4096, 32, 8, 10, true, false, 0, 0xFFFFFFFFFFFFFFFF, 0, 0, 0, 0, 0, 0⟩
  | .LAN_QPLLA => ⟨0x500800, 16384, 8, 0, 1, true, false, 0x800000FF00FFFFFF, 0, 0, 0, 0, 0, 0, 0⟩
  | .LAN_QPLLB => ⟨0x500808, 16384, 8, 0, 1, true, false, 0x800000FF00FFFFFF, 0, 0, 0, 0, 0, 0, 0⟩
  | .LAN_QSTATUS => ⟨0x500810, 16384, 8, 0, 1, false, false, 0, 0x7, 0, 0x8, 0, 0, 0, 0⟩
  | .PEN_BLOCK_VERSION => ⟨0x600000, 0, 1, 0, 1, false, false, 0, 0xFFFFFFFF, 0, 0, 0, 0, 0, 0x10000⟩
  | .PEN_LEARN_CFG => ⟨0x600010, 0, 1, 0, 1, false, false, 0xCFFFFFFF, 0, 0, 0, 0, 0, 0, 0x401000A⟩
  | .PEN_AGE_CFG => ⟨0x600014, 0, 1, 0, 1, false, true, 0x8000FFFF, 0, 0, 0, 0, 0, 0, 0x8000012C⟩
  | .PEN_TNB_CFG => ⟨0x600018, 0, 1, 0, 1, false, false, 0, 0, 0, 0, 0, 0, 0xFF0FFFFF, 0x64000000⟩
  | .PEN_BUF_CFG => ⟨0x60001C, 0, 1, 0, 1, false, false, 0, 0, 0, 0, 0, 0, 0xFFF0FFFF, 0x20⟩
  | .PEN_TRUNK_CFG => ⟨0x600020, 0, 1, 0, 1, false, false, 0, 0, 0, 0, 0, 0, 0xFFFF00FF, 0x1000014⟩
  | .PEN_STATUS => ⟨0x600024, 0, 1, 0, 1, false, false, 0, 0xE0F01FFF, 0, 0, 0, 0, 0, 0⟩
  | .PEN_BUF_STATUS => ⟨0x600028, 0, 1, 0, 1, false, false, 0, 0xFFFF0000, 0, 0, 0, 0, 0, 0⟩
  | .PEN_BUF_FREE => ⟨0x60002C, 0, 1, 0, 1, false, false, 0, 0x3FFFF, 0, 0, 0, 0, 0, 0x10000⟩
  | .PEN_EVT => ⟨0x600030, 0, 1, 0, 1, false, false, 0, 0, 0, 0x1FE, 0, 0, 0, 0⟩
  | .PEN_L2_CMD => ⟨0x600040, 0, 1, 0, 1, false, false, 0xFFFFF000, 0, 0xF, 0, 0, 0, 0, 0⟩
  | .PEN_L2_STATUS => ⟨0x600044, 0, 1, 0, 1, false, false, 0, 0xFF000001, 0, 0, 0, 0, 0, 0⟩
  | .PEN_L2_DATA => ⟨0x600050, 4, 4, 0, 1, false, false, 0xFFFFFFFF, 0, 0, 0, 0, 0, 0, 0⟩
  | .PEN_VLAN_CMD => ⟨0x600060, 0, 1, 0, 1, false, false, 0, 0, 0x800FFFFF, 0, 0, 0, 0, 0⟩
  | .PEN_VLAN_DATA => ⟨0x600070, 4, 4, 0, 1, false, false, 0xFFFFFFFF, 0, 0, 0, 0, 0, 0, 0⟩
  | .PEN_NH_CMD => ⟨0x600080, 0, 1, 0, 1, false, false, 0, 0, 0x800FFFFF, 0, 0, 0, 0, 0⟩
  | .PEN_NH_DATA => ⟨0x600084, 0, 1, 0, 1, false, false, 0xFFFFFFFF, 0, 0, 0, 0, 0, 0, 0⟩
  | .PEN_TIME => ⟨0x600090, 0, 1, 0, 1, true, false, 0xFFFFFFFFFFFFFFFF, 0, 0, 0, 0, 0, 0, 0⟩
  | .PEN_TIME_ADJ => ⟨0x600098, 0, 1, 0, 1, false, false, 0xFFFFFFFF, 0, 0, 0, 0, 0, 0, 0⟩
  | .PEN_TIME_STEP => ⟨0x60009C, 0, 1, 0, 1, false, false, 0xFFFFFFFF, 0, 0, 0, 0, 0, 0, 0⟩
  | .PEN_PPS_CFG => ⟨0x6000A0, 0, 1, 0, 1, false, true, 0x800003FF, 0, 0, 0, 0, 0, 0, 0x64⟩
  | .PEN_PPS_IN_TS => ⟨0x6000A8, 0, 1, 0, 1, true, true, 0, 0xFFFFFFFFFFFFFFFF, 0, 0, 0, 0, 0, 0⟩
  | .PEN_TS_POP => ⟨0x6000B0, 0, 1, 0, 1, true, false, 0, 0, 0, 0, 0, 0xC3FF0FFFFFFFFFFF, 0, 0⟩
  | .PEN_TS_SEC => ⟨0x6000B8, 0, 1, 0, 1, false, false, 0, 0xFFFFFFFF, 0, 0, 0, 0, 0, 0⟩
  | .PEN_PORT_CFG => ⟨0x600100, 16, 32, 0, 1, false, false, 0xFFF800FF, 0, 0, 0, 0, 0, 0, 0x40300014⟩
  | .PEN_PORT_L2 => ⟨0x600104, 16, 32, 0, 1, false, false, 0x8FFF3FFF, 0, 0, 0, 0, 0, 0, 0x105EE⟩
  | .PEN_PORT_DLY => ⟨0x600108, 16, 32, 0, 1, false, false, 0xFFFFFFFF, 0, 0, 0, 0, 0, 0, 0⟩
  | .PEN_PORT_STATUS => ⟨0x60010C, 16, 32, 0, 1, false, false, 0, 0xFF00003B, 0, 0x40, 0, 0, 0, 0⟩
  | .PEN_SCHED => ⟨0x600300, 8, 32, 0, 1, true, false, 0xFFFFFFFFFFFFFFFF, 0, 0, 0, 0, 0, 0, 0x101010101010101⟩
  | .PEN_FP_CFG => ⟨0x600400, 4, 8, 0, 1, false, false, 0xCFFF0000, 0, 0, 0, 0, 0, 0, 0x10000⟩
  | .PEN_RING_BASE => ⟨0x600500, 32, 16, 0, 1, true, false, 0xFFFFFFFFFFFFFFFF, 0, 0, 0, 0, 0, 0, 0⟩
  | .PEN_RING_CFG => ⟨0x600508, 32, 16, 0, 1, false, false, 0x80001F1F, 0, 0, 0, 0, 0, 0, 0xB06⟩
  | .PEN_RING_HEAD => ⟨0x60050C, 32, 16, 0, 1, false, false, 0, 0xFFFF, 0, 0, 0, 0, 0, 0⟩
  | .PEN_RING_TAIL => ⟨0x600510, 32, 16, 0, 1, false, false, 0xFFFF, 0, 0, 0, 0, 0, 0, 0⟩
  | .PEN_RING_STATUS => ⟨0x600514, 32, 16, 0, 1, false, false, 0, 0x38, 0, 0x6, 0, 0, 0, 0⟩
  | .PEN_CNT => ⟨0x600800, 8, 15, 0, 1, true, false, 0, 0xFFFFFFFFFFFFFFFF, 0, 0, 0, 0, 0, 0⟩
  | .PEN_PORT_CNT => ⟨0x601000, 64, 56, 8, 8, true, false, 0, 0xFFFFFFFFFFFFFFFF, 0, 0, 0, 0, 0, 0⟩
  | .SEA_BLOCK_VERSION => ⟨0x700000, 0, 1, 0, 1, false, false, 0, 0xFFFFFFFF, 0, 0, 0, 0, 0, 0x10000⟩
  | .SEA_CTRL => ⟨0x700010, 8192, 48, 0, 1, false, false, 0x1, 0, 0xC0000000, 0, 0, 0, 0, 0⟩
  | .SEA_ENTRY => ⟨0x700014, 8192, 48, 0, 1, false, false, 0x3FFF, 0, 0, 0, 0, 0, 0, 0⟩
  | .SEA_STATUS => ⟨0x700018, 8192, 48, 0, 1, false, false, 0, 0x3FFF0077, 0, 0, 0, 0, 0, 0⟩
  | .SEA_ERR => ⟨0x70001C, 8192, 48, 0, 1, false, false, 0, 0xFF07BFFF, 0, 0, 0, 0, 0, 0⟩
  | .SEA_DOORBELL => ⟨0x700020, 8192, 48, 0, 1, false, false, 0, 0, 0, 0, 0x1, 0, 0, 0⟩
  | .SEA_ECC => ⟨0x700024, 8192, 48, 0, 1, false, false, 0, 0, 0, 0, 0, 0xFFFFFFFF, 0, 0⟩
  | .SEA_ECC_TEST => ⟨0x700028, 8192, 48, 0, 1, false, false, 0x3FF, 0, 0, 0, 0, 0, 0, 0⟩
  | .SEA_CNT_CYCLE => ⟨0x700030, 8192, 48, 0, 1, true, false, 0, 0xFFFFFFFFFFFFFFFF, 0, 0, 0, 0, 0, 0⟩
  | .SEA_CNT_ISSUE => ⟨0x700038, 8192, 48, 0, 1, true, false, 0, 0xFFFFFFFFFFFFFFFF, 0, 0, 0, 0, 0, 0⟩
  | .SEA_CNT_STALL => ⟨0x700040, 8192, 48, 0, 1, true, false, 0, 0xFFFFFFFFFFFFFFFF, 0, 0, 0, 0, 0, 0⟩
  | .SEA_CNT_WAIT => ⟨0x700048, 8192, 48, 0, 1, true, false, 0, 0xFFFFFFFFFFFFFFFF, 0, 0, 0, 0, 0, 0⟩
  | .SEA_CNT_DMABYTES => ⟨0x700050, 8192, 48, 0, 1, true, false, 0, 0xFFFFFFFFFFFFFFFF, 0, 0, 0, 0, 0, 0⟩
  | .SEA_EVT_DONE => ⟨0x701000, 0, 1, 0, 1, true, false, 0, 0, 0, 0xFFFFFFFFFFFF, 0, 0, 0, 0⟩
  | .SEA_EVT_ERR => ⟨0x701008, 0, 1, 0, 1, true, false, 0, 0, 0, 0xFFFFFFFFFFFF, 0, 0, 0, 0⟩
  | .DFD_BLOCK_VERSION => ⟨0x800000, 0, 1, 0, 1, false, false, 0, 0xFFFFFFFF, 0, 0, 0, 0, 0, 0x10000⟩
  | .DFD_CTRL => ⟨0x800010, 0, 1, 0, 1, false, false, 0, 0, 0, 0, 0, 0, 0x1, 0⟩
  | .DFD_STATUS => ⟨0x800014, 0, 1, 0, 1, false, false, 0, 0x1FFFB3FF, 0, 0x4000, 0, 0, 0, 0⟩
  | .DFD_POLICY => ⟨0x800018, 0, 1, 0, 1, false, false, 0, 0, 0, 0, 0, 0, 0x707, 0⟩
  | .DFD_TOKEN => ⟨0x800020, 0, 1, 0, 1, true, false, 0, 0, 0xFFFFFFFFFFFFFFFF, 0, 0, 0, 0, 0⟩
  | .DFD_CMD => ⟨0x800028, 0, 1, 0, 1, false, false, 0, 0xFFF00000, 0xFFFFF, 0, 0, 0, 0, 0⟩
  | .DFD_CMD_STATUS => ⟨0x80002C, 0, 1, 0, 1, false, false, 0, 0xFF000000, 0, 0, 0, 0, 0, 0⟩
  | .DFD_EPOCH => ⟨0x800030, 0, 1, 0, 1, false, false, 0, 0xFFFFFFFF, 0, 0, 0, 0, 0, 0⟩
  | .DFD_EPOCH_CTRL => ⟨0x800034, 0, 1, 0, 1, false, false, 0x8000FFFF, 0, 0, 0, 0, 0, 0, 0x3E8⟩
  | .DFD_EPOCH_STATUS => ⟨0x800038, 0, 1, 0, 1, false, false, 0, 0xC0003FFF, 0, 0x20000000, 0, 0, 0, 0⟩
  | .DFD_SPILL_BASE => ⟨0x800040, 0, 1, 0, 1, true, false, 0xFFFFFFFFFFFFFFFF, 0, 0, 0, 0, 0, 0, 0⟩
  | .DFD_SPILL_CFG => ⟨0x800048, 0, 1, 0, 1, false, false, 0x8000001F, 0, 0, 0x40000000, 0, 0, 0, 0x10⟩
  | .DFD_SPILL_FILL => ⟨0x800050, 4, 8, 0, 1, false, false, 0, 0x1FFFFFF, 0, 0, 0, 0, 0, 0⟩
  | .DFD_UNIT_EN_SE => ⟨0x800080, 0, 1, 0, 1, true, false, 0xFFFFFFFFFFFF, 0, 0, 0, 0, 0, 0, 0xFFFFFFFFFFFF⟩
  | .DFD_UNIT_EN_KS => ⟨0x800088, 0, 1, 0, 1, true, false, 0xFFFFFFFFFFFFFFFF, 0, 0, 0, 0, 0, 0, 0xFFFFFFFFFFFFFFFF⟩
  | .DFD_UNIT_EN_CORE => ⟨0x800090, 0, 1, 0, 1, false, false, 0xF, 0, 0, 0, 0, 0, 0, 0xF⟩
  | .DFD_UNIT_BUSY_SE => ⟨0x800098, 0, 1, 0, 1, true, false, 0, 0xFFFFFFFFFFFFFFFF, 0, 0, 0, 0, 0, 0⟩
  | .DFD_UNIT_BUSY_KS => ⟨0x8000A0, 0, 1, 0, 1, true, false, 0, 0xFFFFFFFFFFFFFFFF, 0, 0, 0, 0, 0, 0⟩
  | .DFD_ERR_LOG => ⟨0x8000A8, 0, 1, 0, 1, true, false, 0, 0x7FFFFFF00001FFF, 0, 0x8000000000000000, 0, 0, 0, 0⟩
  | .DFD_EVT => ⟨0x8000B0, 0, 1, 0, 1, false, false, 0, 0, 0, 0x3FF, 0, 0, 0, 0⟩
  | .DFD_CNT => ⟨0x800100, 8, 20, 0, 1, true, false, 0, 0xFFFFFFFFFFFFFFFF, 0, 0, 0, 0, 0, 0⟩
  | .DFD_CQ_CFG => ⟨0x801000, 256, 4, 0, 1, false, false, 0x8000001F, 0, 0x40000000, 0, 0, 0, 0, 0x80000010⟩
  | .DFD_CQ_STATUS => ⟨0x801004, 256, 4, 0, 1, false, false, 0, 0xFFFF03FF, 0, 0x8000, 0, 0, 0, 0⟩
  | .DFD_CQ_POP => ⟨0x801008, 256, 4, 0, 1, true, false, 0, 0, 0, 0, 0, 0x8000FFFF00001FFF, 0, 0⟩
  | .DFD_CQ_CPL => ⟨0x801010, 256, 4, 0, 1, false, false, 0, 0, 0xF800FFFF, 0, 0, 0, 0, 0⟩
  | .DFD_CQ_DESC => ⟨0x801020, 256, 4, 4, 8, false, false, 0, 0xFFFFFFFF, 0, 0, 0, 0, 0, 0⟩
  | .DFD_CQ_TOK => ⟨0x801040, 256, 4, 8, 4, true, false, 0xFFFFFFFFFFFFFFFF, 0, 0, 0, 0, 0, 0, 0⟩
  | .DFD_OPSTATE => ⟨0x810000, 4, 8192, 0, 1, false, false, 0, 0xFFFFFFFF, 0, 0, 0, 0, 0, 0⟩
  | .DFD_OPDESC => ⟨0x840000, 32, 8192, 4, 8, false, false, 0xFFFFFFFF, 0, 0, 0, 0, 0, 0, 0⟩
  | .APC_BLOCK_VERSION => ⟨0x900000, 0, 1, 0, 1, false, false, 0, 0xFFFFFFFF, 0, 0, 0, 0, 0, 0x10000⟩
  | .APC_BOOT => ⟨0x900010, 8, 4, 0, 1, true, false, 0x3FFFFFFFFFFFFF, 0, 0, 0, 0, 0, 0, 0⟩
  | .APC_RELEASE => ⟨0x900030, 0, 1, 0, 1, false, false, 0xF, 0, 0, 0, 0, 0, 0, 0xF⟩
  | .APC_STATUS => ⟨0x900034, 0, 1, 0, 1, false, false, 0, 0xFFF, 0, 0, 0, 0, 0, 0⟩
  | .APC_ECC => ⟨0x900038, 0, 1, 0, 1, false, false, 0, 0, 0, 0, 0, 0xFFFFFFFF, 0, 0⟩
  | .APC_EVT => ⟨0x90003C, 0, 1, 0, 1, false, false, 0, 0, 0, 0x3, 0, 0, 0, 0⟩
  | .APC_MSIP => ⟨0x910000, 4, 4, 0, 1, false, false, 0x1, 0, 0, 0, 0, 0, 0, 0⟩
  | .APC_MTIMECMP => ⟨0x918000, 8, 4, 0, 1, true, false, 0xFFFFFFFFFFFFFFFF, 0, 0, 0, 0, 0, 0, 0⟩
  | .APC_MTIME => ⟨0x91FFF8, 0, 1, 0, 1, true, false, 0xFFFFFFFFFFFFFFFF, 0, 0, 0, 0, 0, 0, 0⟩
  | .FAB_BLOCK_VERSION => ⟨0xA00000, 0, 1, 0, 1, false, false, 0, 0xFFFFFFFF, 0, 0, 0, 0, 0, 0x10000⟩
  | .FAB_PFIFO_STATUS => ⟨0xA00100, 4, 16, 0, 1, false, false, 0, 0x3FF0003, 0, 0xC, 0, 0, 0, 0⟩
  | .FAB_PFIFO_AFULL => ⟨0xA00140, 4, 8, 0, 1, false, false, 0x1FF, 0, 0, 0, 0, 0, 0, 0x10⟩
  | .FAB_PFIFO_DROP => ⟨0xA00180, 8, 16, 0, 1, true, false, 0, 0xFFFFFFFFFFFFFFFF, 0, 0, 0, 0, 0, 0⟩
  | .FAB_KSLOT_CFG => ⟨0xA00400, 16, 64, 0, 1, true, false, 0, 0xFFFFFFFFFFFF0001, 0, 0, 0, 0, 0, 0⟩
  | .FAB_KSLOT_STATUS => ⟨0xA00408, 16, 64, 0, 1, false, false, 0, 0x3F, 0, 0, 0, 0xFF00, 0, 0⟩
  | .FAB_NOCP_WIN => ⟨0xA00800, 16, 32, 0, 1, false, false, 0, 0x801F07FF, 0, 0, 0, 0, 0, 0⟩
  | .FAB_NOCP_STATUS => ⟨0xA00804, 16, 32, 0, 1, false, false, 0, 0xFFF101FF, 0, 0, 0, 0, 0, 0⟩
  | .FAB_XING_STATUS => ⟨0xA00F00, 0, 1, 0, 1, false, false, 0, 0xF0, 0, 0xF, 0, 0, 0, 0⟩
  | .FAB_PR_GEOM => ⟨0xA01000, 32, 32, 0, 1, false, false, 0, 0x8F0F7F7F, 0, 0, 0, 0, 0, 0⟩
  | .FAB_PR_KSLOT => ⟨0xA01008, 32, 32, 0, 1, true, false, 0, 0xFFFFFFFFFFFFFFFF, 0, 0, 0, 0, 0, 0⟩
  | .FAB_PR_NOCP => ⟨0xA01010, 32, 32, 0, 1, false, false, 0, 0xFFFFFFFF, 0, 0, 0, 0, 0, 0⟩
  | .FAB_PR_PFIFO => ⟨0xA01014, 32, 32, 0, 1, false, false, 0, 0xFF, 0, 0, 0, 0, 0, 0⟩
  | .FAB_PR_CTRL => ⟨0xA01018, 32, 32, 0, 1, false, false, 0, 0, 0, 0, 0, 0, 0xE0000FFF, 0x3E8⟩
  | .FAB_PR_STATUS => ⟨0xA0101C, 32, 32, 0, 1, false, false, 0, 0x30007, 0, 0x40000, 0, 0, 0, 0x7⟩
  | .SNT_BLOCK_VERSION => ⟨0xF00000, 0, 1, 0, 1, false, false, 0, 0xFFFFFFFF, 0, 0, 0, 0, 0, 0x10000⟩
  | .SNT_BEGIN => ⟨0xF00010, 0, 1, 0, 1, false, false, 0, 0, 0x1, 0, 0, 0, 0, 0⟩
  | .SNT_COMMIT => ⟨0xF00014, 0, 1, 0, 1, false, false, 0, 0, 0x1, 0, 0, 0, 0, 0⟩
  | .SNT_ROLLBACK => ⟨0xF00018, 0, 1, 0, 1, false, false, 0, 0, 0x1, 0, 0, 0, 0, 0⟩
  | .SNT_STATUS => ⟨0xF0001C, 0, 1, 0, 1, false, false, 0, 0xFFFF0FFF, 0, 0, 0, 0, 0, 0⟩
  | .SNT_CFG => ⟨0xF00020, 0, 1, 0, 1, false, false, 0xFFFF, 0, 0, 0, 0, 0, 0, 0xA⟩
  | .SNT_FAIL => ⟨0xF00024, 0, 1, 0, 1, false, false, 0, 0x7FFFFFF, 0, 0, 0, 0, 0, 0⟩

/-- The blocks of R27. -/
inductive Block where
  | SYS | CLK | PWR | THM | MON | EVT | CFG | SEC | NVC | BNK | NOC | RLC | BDL | DDR | MEE | LAN | PEN | SEA | DFD | APC | FAB | SNT
  deriving DecidableEq, Repr

/-- The registers of a block. -/
def Block.regs : Block → List RegId
  | .SYS => [.SYS_BLOCK_VERSION, .SYS_BOOT_STATUS, .SYS_RST_CAUSE, .SYS_RST_BLOCK, .SYS_RST_SW, .SYS_RST_REACH,
      .SYS_WDT_CTRL, .SYS_WDT_KICK, .SYS_MBOX_CMD, .SYS_MBOX_STATUS, .SYS_MBOX_DATA]
  | .CLK => [.CLK_BLOCK_VERSION, .CLK_REF_CTRL, .CLK_REF_STATUS, .CLK_REF_PRIO, .CLK_REF_RATIO, .CLK_RCV_CTRL,
      .CLK_RCLK_CTRL, .CLK_ROOT_CFG, .CLK_ROOT_STATUS, .CLK_ROOT_FOFS, .CLK_FTAP, .CLK_GATE_EN0, .CLK_GATE_EN1,
      .CLK_GATE_EN2, .CLK_GATE_EN3, .CLK_GATE_EN4, .CLK_GATE_STATUS, .CLK_ALT_CTRL, .CLK_ALT_STATUS, .CLK_UPLL_CTRL,
      .CLK_UPLL_OUT, .CLK_UPLL_STATUS, .CLK_MON_CTRL, .CLK_MON_COUNT, .CLK_MON_STATUS, .CLK_EVT]
  | .PWR => [.PWR_BLOCK_VERSION, .PWR_CTRL, .PWR_STATUS, .PWR_CFG, .PWR_WAKE_TIMER, .PWR_EVT]
  | .THM => [.THM_BLOCK_VERSION, .THM_TEMP, .THM_VOLT, .THM_LOOP_CFG, .THM_FAN_CFG, .THM_SPIN_CFG, .THM_HEAT_CFG,
      .THM_FAN_STATUS, .THM_STATUS, .THM_EVT]
  | .MON => [.MON_BLOCK_VERSION, .MON_CTRL, .MON_SRC, .MON_BIN, .MON_WIN, .MON_MIN, .MON_MAX, .MON_COUNT, .MON_SUM,
      .MON_HIST]
  | .EVT => [.EVT_BLOCK_VERSION, .EVT_PRIO, .EVT_PEND, .EVT_EN, .EVT_THR, .EVT_CLAIM, .EVT_LOST]
  | .CFG => [.CFG_BLOCK_VERSION, .CFG_LOAD_STATUS, .CFG_LOAD_ERR_INFO, .CFG_BOOT_STATUS, .CFG_BOOT_SEQ,
      .CFG_BOOT_LOG, .CFG_CONFIRM, .CFG_CMD, .CFG_CMD_ADDR, .CFG_CMD_STATUS, .CFG_IMAGE_VERSION, .CFG_WAKE_SEQ,
      .CFG_WAKE_CFG, .CFG_WAKE_STATUS, .CFG_WARM_BASE, .CFG_WARM_CTRL, .CFG_WARM_STATUS, .CFG_CAP_CTRL,
      .CFG_CAP_STATUS, .CFG_CAP_TIME, .CFG_RB_CTRL, .CFG_RB_COUNT, .CFG_RB_DEST, .CFG_RB_STATUS, .CFG_SWEEP_CTRL,
      .CFG_SWEEP_STATUS, .CFG_SWEEP_PASSES, .CFG_SEU_DET, .CFG_SEU_FIXED, .CFG_SEU_UNFIXED, .CFG_SEU_LAST]
  | .SEC => [.SEC_BLOCK_VERSION, .SEC_LC, .SEC_CMD, .SEC_CMD_STATUS, .SEC_KEY_DATA, .SEC_KEY_VERSION,
      .SEC_KEY_STATUS, .SEC_BB_VER, .SEC_PKH_STATUS, .SEC_SVN_FLOOR, .SEC_POLICY, .SEC_TAMPER_CFG, .SEC_TAMPER_RESP,
      .SEC_TAMPER_LOG, .SEC_TEMP_LIMITS, .SEC_DEVICE_ID, .SEC_NVC_RIGHTS, .SEC_RIGHTS_LOCK, .SEC_KEYID_RIGHTS]
  | .NVC => [.NVC_BLOCK_VERSION, .NVC_CFG, .NVC_INFO, .NVC_CMD, .NVC_STATUS, .NVC_ADDR, .NVC_MEM, .NVC_LEN,
      .NVC_PROTECT, .NVC_FAIL_ADDR, .NVC_XIP_BASE]
  | .BNK => [.BNK_BLOCK_VERSION, .BNK_EVT, .BNK_ACC_LOG, .BNK_ERR_LOG, .BNK_ECC_TEST, .BNK_ECC_ADDR, .BNK_ECC_CHK,
      .BNK_CTRL, .BNK_STATUS, .BNK_ECC_CNT, .BNK_REPAIR, .BNK_CNT_ACC, .BNK_CNT_WAIT]
  | .NOC => [.NOC_BLOCK_VERSION, .NOC_TMO_CFG, .NOC_EVT, .NOC_TMO_LOG, .NOC_QUAR, .NOC_CNT_TMO, .NOC_LATE_CPL,
      .NOC_CNT_DOWN, .NOC_CNT_WAKE, .NOC_LOST_LINES]
  | .RLC => [.RLC_BLOCK_VERSION, .RLC_CTRL, .RLC_STATUS, .RLC_ECC_FLIP, .RLC_ECC_CNT, .RLC_WB_LOG, .RLC_EVT, .RLC_CNT]
  | .BDL => [.BDL_BLOCK_VERSION, .BDL_IDENT, .BDL_EVT, .BDL_TEST, .BDL_STATUS, .BDL_PEER, .BDL_CAPS, .BDL_WIN,
      .BDL_CNT_FLITS, .BDL_CNT_CRC, .BDL_CNT_REPLAY]
  | .DDR => [.DDR_BLOCK_VERSION, .DDR_CFG, .DDR_STATUS, .DDR_QOS, .DDR_AGE, .DDR_ECC_FLIP, .DDR_ECC_CNT,
      .DDR_ERR_LOG, .DDR_EVT, .DDR_MAP_CTL, .DDR_MAP_RNG, .DDR_MAP_SUM, .DDR_CNT]
  | .MEE => [.MEE_BLOCK_VERSION, .MEE_PROT, .MEE_KEY_DATA, .MEE_KEY_CMD, .MEE_KEY_STATUS, .MEE_KSTATE, .MEE_RK_CFG,
      .MEE_RK_START, .MEE_RK_END, .MEE_RK_BOUND, .MEE_EXH, .MEE_FAIL_LOG, .MEE_EVT, .MEE_CNT]
  | .LAN => [.LAN_BLOCK_VERSION, .LAN_CTRL, .LAN_MODE, .LAN_STATUS, .LAN_PAIR, .LAN_AN_ADV, .LAN_AN_STATUS,
      .LAN_AN_PARTNER, .LAN_LT_CFG, .LAN_LT_STATUS, .LAN_ADAPT_CFG, .LAN_EYE_CTRL, .LAN_EYE_RESULT, .LAN_EYE_MARGIN,
      .LAN_EYE_BG, .LAN_PRBS, .LAN_EVT, .LAN_CNT, .LAN_QPLLA, .LAN_QPLLB, .LAN_QSTATUS]
  | .PEN => [.PEN_BLOCK_VERSION, .PEN_LEARN_CFG, .PEN_AGE_CFG, .PEN_TNB_CFG, .PEN_BUF_CFG, .PEN_TRUNK_CFG,
      .PEN_STATUS, .PEN_BUF_STATUS, .PEN_BUF_FREE, .PEN_EVT, .PEN_L2_CMD, .PEN_L2_STATUS, .PEN_L2_DATA,
      .PEN_VLAN_CMD, .PEN_VLAN_DATA, .PEN_NH_CMD, .PEN_NH_DATA, .PEN_TIME, .PEN_TIME_ADJ, .PEN_TIME_STEP,
      .PEN_PPS_CFG, .PEN_PPS_IN_TS, .PEN_TS_POP, .PEN_TS_SEC, .PEN_PORT_CFG, .PEN_PORT_L2, .PEN_PORT_DLY,
      .PEN_PORT_STATUS, .PEN_SCHED, .PEN_FP_CFG, .PEN_RING_BASE, .PEN_RING_CFG, .PEN_RING_HEAD, .PEN_RING_TAIL,
      .PEN_RING_STATUS, .PEN_CNT, .PEN_PORT_CNT]
  | .SEA => [.SEA_BLOCK_VERSION, .SEA_CTRL, .SEA_ENTRY, .SEA_STATUS, .SEA_ERR, .SEA_DOORBELL, .SEA_ECC,
      .SEA_ECC_TEST, .SEA_CNT_CYCLE, .SEA_CNT_ISSUE, .SEA_CNT_STALL, .SEA_CNT_WAIT, .SEA_CNT_DMABYTES, .SEA_EVT_DONE,
      .SEA_EVT_ERR]
  | .DFD => [.DFD_BLOCK_VERSION, .DFD_CTRL, .DFD_STATUS, .DFD_POLICY, .DFD_TOKEN, .DFD_CMD, .DFD_CMD_STATUS,
      .DFD_EPOCH, .DFD_EPOCH_CTRL, .DFD_EPOCH_STATUS, .DFD_SPILL_BASE, .DFD_SPILL_CFG, .DFD_SPILL_FILL,
      .DFD_UNIT_EN_SE, .DFD_UNIT_EN_KS, .DFD_UNIT_EN_CORE, .DFD_UNIT_BUSY_SE, .DFD_UNIT_BUSY_KS, .DFD_ERR_LOG,
      .DFD_EVT, .DFD_CNT, .DFD_CQ_CFG, .DFD_CQ_STATUS, .DFD_CQ_POP, .DFD_CQ_CPL, .DFD_CQ_DESC, .DFD_CQ_TOK,
      .DFD_OPSTATE, .DFD_OPDESC]
  | .APC => [.APC_BLOCK_VERSION, .APC_BOOT, .APC_RELEASE, .APC_STATUS, .APC_ECC, .APC_EVT, .APC_MSIP, .APC_MTIMECMP,
      .APC_MTIME]
  | .FAB => [.FAB_BLOCK_VERSION, .FAB_PFIFO_STATUS, .FAB_PFIFO_AFULL, .FAB_PFIFO_DROP, .FAB_KSLOT_CFG,
      .FAB_KSLOT_STATUS, .FAB_NOCP_WIN, .FAB_NOCP_STATUS, .FAB_XING_STATUS, .FAB_PR_GEOM, .FAB_PR_KSLOT,
      .FAB_PR_NOCP, .FAB_PR_PFIFO, .FAB_PR_CTRL, .FAB_PR_STATUS]
  | .SNT => [.SNT_BLOCK_VERSION, .SNT_BEGIN, .SNT_COMMIT, .SNT_ROLLBACK, .SNT_STATUS, .SNT_CFG, .SNT_FAIL]

/-- The block whose window holds an offset of a die window (R27): each block spans from its offset to the next one. -/
def blockAt (off : Nat) : Option Block :=
  if off < 0x010000 then some .SYS else if off < 0x020000 then some .CLK else if off < 0x030000 then some .PWR
  else if off < 0x040000 then some .THM else if off < 0x050000 then some .MON else if off < 0x060000 then some .EVT
  else if off < 0x070000 then some .CFG else if off < 0x080000 then some .SEC else if off < 0x100000 then some .NVC
  else if off < 0x200000 then some .BNK else if off < 0x280000 then some .NOC else if off < 0x300000 then some .RLC
  else if off < 0x400000 then some .BDL else if off < 0x480000 then some .DDR else if off < 0x500000 then some .MEE
  else if off < 0x600000 then some .LAN else if off < 0x700000 then some .PEN else if off < 0x800000 then some .SEA
  else if off < 0x900000 then some .DFD else if off < 0xA00000 then some .APC else if off < 0xF00000 then some .FAB
  else if off < 0x1000000 then some .SNT else none

/-- A register of the map: its array and its two indices. -/
structure RegRef where
  id : RegId
  i  : Nat
  j  : Nat
  deriving DecidableEq, Repr

/-- The register that holds the byte at an offset from an array's base, if the array has one there. -/
def RegInfo.hit (r : RegInfo) (off : Nat) : Option (Nat × Nat) :=
  let sz := if r.pair then 8 else 4
  let d := off - r.base
  let i := if r.n1 = 1 then 0 else d / r.s1
  let d2 := d - i * r.s1
  let j := if r.n2 = 1 then 0 else d2 / r.s2
  let d3 := d2 - j * r.s2
  if r.base ≤ off ∧ i < r.n1 ∧ j < r.n2 ∧ d3 < sz then some (i, j) else none

/-- Search a list of registers for the one that holds the byte at an offset. -/
def findReg (off : Nat) : List RegId → Option RegRef
  | [] => none
  | r :: rs =>
    match r.info.hit off with
    | some (i, j) => some ⟨r, i, j⟩
    | none => findReg off rs

/-- The register that holds the byte at an offset of a die window (R28: none where no register is defined). -/
def regAt (off : Nat) : Option RegRef :=
  match blockAt off with
  | some b => findReg off b.regs
  | none => none

/-- The offset of a register. -/
def RegRef.off (r : RegRef) : Nat := r.id.info.base + r.i * r.id.info.s1 + r.j * r.id.info.s2

/-- The block that holds a register. -/
def RegRef.block (r : RegRef) : Option Block := blockAt r.off

/-- The value a register's fields take at reset (R7), with the resets that depend on the register's index. -/
def RegRef.rst (r : RegRef) : Nat :=
  match r.id with
  | .CLK_REF_RATIO => if r.i = 3 then 160 * 2 ^ 32 else 0
  | .SYS_RST_REACH => if r.i % 2 = 1 then 0x80000000 else 1
  | .LAN_QPLLA => 2 ^ 63
  | .SEC_TAMPER_CFG => r.id.info.rst + 0x80
  | .APC_BOOT => 0x0C0000
  | .THM_LOOP_CFG => r.id.info.rst
  | id => id.info.rst

/-- The registers whose 64-bit value is a counter read through the high-half hold of R433. -/
def RegId.isCounter : RegId → Bool
  | .MON_COUNT | .MON_SUM | .CFG_SEU_DET | .CFG_SEU_FIXED | .CFG_SEU_UNFIXED | .BNK_CNT_ACC | .BNK_CNT_WAIT | .NOC_CNT_TMO | .NOC_LATE_CPL | .NOC_CNT_DOWN | .NOC_CNT_WAKE | .NOC_LOST_LINES | .RLC_CNT | .BDL_CNT_FLITS | .BDL_CNT_CRC | .BDL_CNT_REPLAY | .DDR_CNT | .MEE_CNT | .LAN_CNT | .PEN_CNT | .PEN_PORT_CNT | .SEA_CNT_CYCLE | .SEA_CNT_ISSUE | .SEA_CNT_STALL | .SEA_CNT_WAIT | .SEA_CNT_DMABYTES | .DFD_CNT | .FAB_PFIFO_DROP => true
  | _ => false

/-- The pop registers of R433. -/
def RegId.isPop : RegId → Bool
  | .DFD_CQ_POP | .PEN_TS_POP => true
  | _ => false

/-- The registers the image sets: a software write returns ACCESS_ERROR (R5, and the descriptions of these registers). -/
def RegId.imageSet : RegId → Bool
  | .CFG_WAKE_SEQ | .CFG_WAKE_CFG | .FAB_KSLOT_CFG | .FAB_NOCP_WIN | .FAB_PR_GEOM | .FAB_PR_KSLOT | .FAB_PR_NOCP
  | .FAB_PR_PFIFO => true
  | _ => false

/-- The registers of the always-on and battery domains outside the PWR and THM blocks. -/
def RegId.alwaysOn : RegId → Bool
  | .SYS_RST_CAUSE | .SYS_WDT_CTRL | .CFG_WARM_BASE | .CFG_WARM_CTRL | .CFG_WARM_STATUS | .SYS_MBOX_CMD
  | .SYS_MBOX_STATUS | .SYS_MBOX_DATA | .MEE_KSTATE | .MEE_RK_START | .MEE_RK_END | .MEE_RK_BOUND | .SEC_TAMPER_CFG
  | .SEC_TAMPER_RESP | .SEC_TAMPER_LOG => true
  | _ => false

/-- The value an 8-byte cell of a die window holds when nothing has written it: the reset values of its registers. -/
def cellRst (key : Nat) : DWord :=
  let off := 8 * (key % 2 ^ 21)
  match regAt off with
  | some r =>
    if r.id.info.pair then BitVec.ofNat 64 r.rst
    else BitVec.ofNat 64 (r.rst + (match regAt (off + 4) with | some q => q.rst | none => 0) * 2 ^ 32)
  | none => BitVec.ofNat 64 ((match regAt (off + 4) with | some q => q.rst | none => 0) * 2 ^ 32)

/-! The fields, one constant each, named after the register and the field. -/

def R.SYS_BLOCK_VERSION.MAJOR : Fld := ⟨0x0, 16, 16⟩
def R.SYS_BLOCK_VERSION.MINOR : Fld := ⟨0x0, 0, 16⟩
def R.SYS_BOOT_STATUS.PROG_N_PIN : Fld := ⟨0x40, 11, 1⟩
def R.SYS_BOOT_STATUS.DONE_PIN : Fld := ⟨0x40, 10, 1⟩
def R.SYS_BOOT_STATUS.INIT_N_PIN : Fld := ⟨0x40, 9, 1⟩
def R.SYS_BOOT_STATUS.HEATER_ACTIVE : Fld := ⟨0x40, 8, 1⟩
def R.SYS_BOOT_STATUS.MODE_BAD : Fld := ⟨0x40, 7, 1⟩
def R.SYS_BOOT_STATUS.MODE : Fld := ⟨0x40, 4, 3⟩
def R.SYS_BOOT_STATUS.PHASE : Fld := ⟨0x40, 0, 4⟩
def R.SYS_RST_CAUSE.DETAIL : Fld := ⟨0x50, 16, 8⟩
def R.SYS_RST_CAUSE.ORIGIN : Fld := ⟨0x50, 8, 3⟩
def R.SYS_RST_CAUSE.CAUSE : Fld := ⟨0x50, 0, 4⟩
def R.SYS_RST_BLOCK.HOLD : Fld := ⟨0x54, 0, 14⟩
def R.SYS_RST_SW.KEY : Fld := ⟨0x58, 16, 16⟩
def R.SYS_RST_SW.GO : Fld := ⟨0x58, 0, 1⟩
def R.SYS_RST_REACH.SCOPE (i : Nat) : Fld := ⟨0x60 + 4 * i, 31, 1⟩
def R.SYS_RST_REACH.MASK (i : Nat) : Fld := ⟨0x60 + 4 * i, 0, 14⟩
def R.SYS_WDT_CTRL.EN : Fld := ⟨0x70, 31, 1⟩
def R.SYS_WDT_CTRL.PAUSE_SLEEP : Fld := ⟨0x70, 30, 1⟩
def R.SYS_WDT_CTRL.TIMEOUT : Fld := ⟨0x70, 0, 24⟩
def R.SYS_WDT_KICK.KEY : Fld := ⟨0x74, 0, 32⟩
def R.SYS_MBOX_CMD.OWNER : Fld := ⟨0x100, 20, 12⟩
def R.SYS_MBOX_CMD.CMD : Fld := ⟨0x100, 0, 8⟩
def R.SYS_MBOX_STATUS.RESULT : Fld := ⟨0x104, 24, 8⟩
def R.SYS_MBOX_STATUS.BUSY : Fld := ⟨0x104, 0, 1⟩
def R.SYS_MBOX_DATA.DATA (i : Nat) : Fld := ⟨0x110 + 4 * i, 0, 32⟩
def R.CLK_BLOCK_VERSION.MAJOR : Fld := ⟨0x10000, 16, 16⟩
def R.CLK_BLOCK_VERSION.MINOR : Fld := ⟨0x10000, 0, 16⟩
def R.CLK_REF_CTRL.FORCE : Fld := ⟨0x10010, 7, 1⟩
def R.CLK_REF_CTRL.AUTO : Fld := ⟨0x10010, 6, 1⟩
def R.CLK_REF_CTRL.SEL : Fld := ⟨0x10010, 0, 3⟩
def R.CLK_REF_STATUS.QUAL : Fld := ⟨0x10014, 12, 4⟩
def R.CLK_REF_STATUS.ACTIVE : Fld := ⟨0x10014, 8, 4⟩
def R.CLK_REF_STATUS.SWITCHING : Fld := ⟨0x10014, 7, 1⟩
def R.CLK_REF_STATUS.STUCK : Fld := ⟨0x10014, 6, 1⟩
def R.CLK_REF_STATUS.CUR : Fld := ⟨0x10014, 0, 3⟩
def R.CLK_REF_PRIO.FOURTH : Fld := ⟨0x10018, 12, 3⟩
def R.CLK_REF_PRIO.THIRD : Fld := ⟨0x10018, 8, 3⟩
def R.CLK_REF_PRIO.SECOND : Fld := ⟨0x10018, 4, 3⟩
def R.CLK_REF_PRIO.FIRST : Fld := ⟨0x10018, 0, 3⟩
def R.CLK_REF_RATIO.INT (i : Nat) : Fld := ⟨0x10020 + 8 * i, 32, 12⟩
def R.CLK_REF_RATIO.FRAC (i : Nat) : Fld := ⟨0x10020 + 8 * i, 0, 32⟩
def R.CLK_RCV_CTRL.EN (i : Nat) : Fld := ⟨0x10040 + 4 * i, 31, 1⟩
def R.CLK_RCV_CTRL.DIE (i : Nat) : Fld := ⟨0x10040 + 4 * i, 24, 3⟩
def R.CLK_RCV_CTRL.LANE (i : Nat) : Fld := ⟨0x10040 + 4 * i, 16, 5⟩
def R.CLK_RCV_CTRL.RDIV (i : Nat) : Fld := ⟨0x10040 + 4 * i, 0, 12⟩
def R.CLK_RCLK_CTRL.SQUELCH1 : Fld := ⟨0x10048, 10, 1⟩
def R.CLK_RCLK_CTRL.SRC1 : Fld := ⟨0x10048, 9, 1⟩
def R.CLK_RCLK_CTRL.EN1 : Fld := ⟨0x10048, 8, 1⟩
def R.CLK_RCLK_CTRL.SQUELCH0 : Fld := ⟨0x10048, 2, 1⟩
def R.CLK_RCLK_CTRL.SRC0 : Fld := ⟨0x10048, 1, 1⟩
def R.CLK_RCLK_CTRL.EN0 : Fld := ⟨0x10048, 0, 1⟩
def R.CLK_ROOT_CFG.FMON_PPM : Fld := ⟨0x10050, 20, 8⟩
def R.CLK_ROOT_CFG.HOLD_ON_FREQ : Fld := ⟨0x10050, 16, 1⟩
def R.CLK_ROOT_CFG.SLEW : Fld := ⟨0x10050, 8, 8⟩
def R.CLK_ROOT_CFG.QUAL_TIME : Fld := ⟨0x10050, 4, 3⟩
def R.CLK_ROOT_CFG.HOLD_AVG : Fld := ⟨0x10050, 2, 2⟩
def R.CLK_ROOT_CFG.BW : Fld := ⟨0x10050, 0, 2⟩
def R.CLK_ROOT_STATUS.HIST_VALID : Fld := ⟨0x10054, 3, 1⟩
def R.CLK_ROOT_STATUS.STATE : Fld := ⟨0x10054, 0, 3⟩
def R.CLK_ROOT_FOFS.FOFS : Fld := ⟨0x10058, 0, 32⟩
def R.CLK_FTAP.DIV (i : Nat) : Fld := ⟨0x10080 + 4 * i, 0, 13⟩
def R.CLK_GATE_EN0.EN : Fld := ⟨0x10100, 0, 32⟩
def R.CLK_GATE_EN1.EN : Fld := ⟨0x10104, 0, 32⟩
def R.CLK_GATE_EN2.EN : Fld := ⟨0x10108, 0, 32⟩
def R.CLK_GATE_EN3.EN : Fld := ⟨0x1010C, 0, 32⟩
def R.CLK_GATE_EN4.EN : Fld := ⟨0x10110, 0, 32⟩
def R.CLK_GATE_STATUS.REFUSED : Fld := ⟨0x10114, 31, 1⟩
def R.CLK_GATE_STATUS.BLOCKER : Fld := ⟨0x10114, 0, 9⟩
def R.CLK_ALT_CTRL.EVT_FORCE : Fld := ⟨0x10120, 10, 1⟩
def R.CLK_ALT_CTRL.EVT_SRC : Fld := ⟨0x10120, 8, 2⟩
def R.CLK_ALT_CTRL.APC_FORCE : Fld := ⟨0x10120, 2, 1⟩
def R.CLK_ALT_CTRL.APC_SRC : Fld := ⟨0x10120, 0, 2⟩
def R.CLK_ALT_STATUS.EVT_CUR : Fld := ⟨0x10124, 10, 2⟩
def R.CLK_ALT_STATUS.EVT_STUCK : Fld := ⟨0x10124, 9, 1⟩
def R.CLK_ALT_STATUS.EVT_SWITCHING : Fld := ⟨0x10124, 8, 1⟩
def R.CLK_ALT_STATUS.APC_CUR : Fld := ⟨0x10124, 2, 2⟩
def R.CLK_ALT_STATUS.APC_STUCK : Fld := ⟨0x10124, 1, 1⟩
def R.CLK_ALT_STATUS.APC_SWITCHING : Fld := ⟨0x10124, 0, 1⟩
def R.CLK_UPLL_CTRL.EN (i : Nat) : Fld := ⟨0x10200 + 16 * i, 31, 1⟩
def R.CLK_UPLL_CTRL.STOP_ON_UNLOCK (i : Nat) : Fld := ⟨0x10200 + 16 * i, 30, 1⟩
def R.CLK_UPLL_CTRL.SRC (i : Nat) : Fld := ⟨0x10200 + 16 * i, 24, 3⟩
def R.CLK_UPLL_CTRL.REFDIV (i : Nat) : Fld := ⟨0x10200 + 16 * i, 16, 6⟩
def R.CLK_UPLL_CTRL.FBDIV (i : Nat) : Fld := ⟨0x10200 + 16 * i, 0, 9⟩
def R.CLK_UPLL_OUT.DIV3 (i : Nat) : Fld := ⟨0x10204 + 16 * i, 24, 8⟩
def R.CLK_UPLL_OUT.DIV2 (i : Nat) : Fld := ⟨0x10204 + 16 * i, 16, 8⟩
def R.CLK_UPLL_OUT.DIV1 (i : Nat) : Fld := ⟨0x10204 + 16 * i, 8, 8⟩
def R.CLK_UPLL_OUT.DIV0 (i : Nat) : Fld := ⟨0x10204 + 16 * i, 0, 8⟩
def R.CLK_UPLL_STATUS.LIMIT (i : Nat) : Fld := ⟨0x10208 + 16 * i, 3, 1⟩
def R.CLK_UPLL_STATUS.INPUT_ACTIVE (i : Nat) : Fld := ⟨0x10208 + 16 * i, 2, 1⟩
def R.CLK_UPLL_STATUS.UNLOCK_STICKY (i : Nat) : Fld := ⟨0x10208 + 16 * i, 1, 1⟩
def R.CLK_UPLL_STATUS.LOCK (i : Nat) : Fld := ⟨0x10208 + 16 * i, 0, 1⟩
def R.CLK_MON_CTRL.START : Fld := ⟨0x10300, 31, 1⟩
def R.CLK_MON_CTRL.WINDOW : Fld := ⟨0x10300, 8, 2⟩
def R.CLK_MON_CTRL.SRC : Fld := ⟨0x10300, 0, 5⟩
def R.CLK_MON_COUNT.COUNT : Fld := ⟨0x10304, 0, 32⟩
def R.CLK_MON_STATUS.BUSY : Fld := ⟨0x10308, 2, 1⟩
def R.CLK_MON_STATUS.NO_CLOCK : Fld := ⟨0x10308, 1, 1⟩
def R.CLK_MON_STATUS.DONE : Fld := ⟨0x10308, 0, 1⟩
def R.CLK_EVT.UPLL_UNLOCK : Fld := ⟨0x10310, 16, 8⟩
def R.CLK_EVT.PKGREF_LOSS : Fld := ⟨0x10310, 12, 1⟩
def R.CLK_EVT.REF_LOSS : Fld := ⟨0x10310, 8, 4⟩
def R.CLK_EVT.EVT_MUX_STUCK : Fld := ⟨0x10310, 4, 1⟩
def R.CLK_EVT.APC_MUX_STUCK : Fld := ⟨0x10310, 3, 1⟩
def R.CLK_EVT.RELOCKED : Fld := ⟨0x10310, 2, 1⟩
def R.CLK_EVT.HOLDOVER : Fld := ⟨0x10310, 1, 1⟩
def R.CLK_EVT.REFMUX_STUCK : Fld := ⟨0x10310, 0, 1⟩
def R.PWR_BLOCK_VERSION.MAJOR : Fld := ⟨0x20000, 16, 16⟩
def R.PWR_BLOCK_VERSION.MINOR : Fld := ⟨0x20000, 0, 16⟩
def R.PWR_CTRL.SCOPE : Fld := ⟨0x20010, 31, 1⟩
def R.PWR_CTRL.TARGET : Fld := ⟨0x20010, 0, 3⟩
def R.PWR_STATUS.BLOCKER : Fld := ⟨0x20014, 16, 4⟩
def R.PWR_STATUS.LAST_WAKE : Fld := ⟨0x20014, 12, 4⟩
def R.PWR_STATUS.TRIP : Fld := ⟨0x20014, 9, 1⟩
def R.PWR_STATUS.PEND : Fld := ⟨0x20014, 8, 1⟩
def R.PWR_STATUS.PHASE : Fld := ⟨0x20014, 4, 2⟩
def R.PWR_STATUS.STATE : Fld := ⟨0x20014, 0, 3⟩
def R.PWR_CFG.WAKE_TIMER : Fld := ⟨0x20018, 31, 1⟩
def R.PWR_CFG.WAKE_SMBUS : Fld := ⟨0x20018, 30, 1⟩
def R.PWR_CFG.ENTRY_TMO : Fld := ⟨0x20018, 0, 16⟩
def R.PWR_WAKE_TIMER.COUNT : Fld := ⟨0x2001C, 0, 32⟩
def R.PWR_EVT.ENTRY_FAIL : Fld := ⟨0x20020, 2, 1⟩
def R.PWR_EVT.WAKE : Fld := ⟨0x20020, 1, 1⟩
def R.PWR_EVT.ENTERED : Fld := ⟨0x20020, 0, 1⟩
def R.THM_BLOCK_VERSION.MAJOR : Fld := ⟨0x30000, 16, 16⟩
def R.THM_BLOCK_VERSION.MINOR : Fld := ⟨0x30000, 0, 16⟩
def R.THM_TEMP.PEAK : Fld := ⟨0x30010, 16, 16⟩
def R.THM_TEMP.TEMP : Fld := ⟨0x30010, 0, 16⟩
def R.THM_VOLT.MV (i : Nat) : Fld := ⟨0x30020 + 4 * i, 0, 16⟩
def R.THM_LOOP_CFG.T_CRIT : Fld := ⟨0x30040, 24, 8⟩
def R.THM_LOOP_CFG.T_SET : Fld := ⟨0x30040, 16, 8⟩
def R.THM_LOOP_CFG.KI : Fld := ⟨0x30040, 8, 8⟩
def R.THM_LOOP_CFG.KP : Fld := ⟨0x30040, 0, 8⟩
def R.THM_FAN_CFG.MIN_OFF : Fld := ⟨0x30044, 24, 8⟩
def R.THM_FAN_CFG.MIN_ON : Fld := ⟨0x30044, 16, 8⟩
def R.THM_FAN_CFG.SLEW : Fld := ⟨0x30044, 8, 8⟩
def R.THM_FAN_CFG.MIN_DUTY : Fld := ⟨0x30044, 0, 8⟩
def R.THM_SPIN_CFG.FAN_RETRY : Fld := ⟨0x30048, 31, 1⟩
def R.THM_SPIN_CFG.PPR : Fld := ⟨0x30048, 24, 2⟩
def R.THM_SPIN_CFG.SPIN_RPM : Fld := ⟨0x30048, 8, 16⟩
def R.THM_SPIN_CFG.SPIN_TIME : Fld := ⟨0x30048, 0, 8⟩
def R.THM_HEAT_CFG.MIN_OFF : Fld := ⟨0x3004C, 24, 8⟩
def R.THM_HEAT_CFG.MIN_ON : Fld := ⟨0x3004C, 16, 8⟩
def R.THM_HEAT_CFG.HEAT_OFF : Fld := ⟨0x3004C, 8, 8⟩
def R.THM_HEAT_CFG.HEAT_ON : Fld := ⟨0x3004C, 0, 8⟩
def R.THM_FAN_STATUS.STATE (i : Nat) : Fld := ⟨0x30060 + 4 * i, 30, 2⟩
def R.THM_FAN_STATUS.RPM (i : Nat) : Fld := ⟨0x30060 + 4 * i, 8, 16⟩
def R.THM_FAN_STATUS.DUTY (i : Nat) : Fld := ⟨0x30060 + 4 * i, 0, 8⟩
def R.THM_STATUS.CRIT : Fld := ⟨0x30068, 17, 1⟩
def R.THM_STATUS.HEATER : Fld := ⟨0x30068, 16, 1⟩
def R.THM_STATUS.T : Fld := ⟨0x30068, 0, 16⟩
def R.THM_EVT.VOLT : Fld := ⟨0x30070, 8, 6⟩
def R.THM_EVT.HEATER : Fld := ⟨0x30070, 4, 1⟩
def R.THM_EVT.TRIP : Fld := ⟨0x30070, 3, 1⟩
def R.THM_EVT.CRIT : Fld := ⟨0x30070, 2, 1⟩
def R.THM_EVT.FAN_FAIL : Fld := ⟨0x30070, 1, 1⟩
def R.MON_BLOCK_VERSION.MAJOR : Fld := ⟨0x40000, 16, 16⟩
def R.MON_BLOCK_VERSION.MINOR : Fld := ⟨0x40000, 0, 16⟩
def R.MON_CTRL.EN (i : Nat) : Fld := ⟨0x40100 + 256 * i, 31, 1⟩
def R.MON_CTRL.CONT (i : Nat) : Fld := ⟨0x40100 + 256 * i, 30, 1⟩
def R.MON_CTRL.DONE (i : Nat) : Fld := ⟨0x40100 + 256 * i, 1, 1⟩
def R.MON_SRC.SRC (i : Nat) : Fld := ⟨0x40104 + 256 * i, 24, 4⟩
def R.MON_SRC.PERIOD (i : Nat) : Fld := ⟨0x40104 + 256 * i, 12, 12⟩
def R.MON_SRC.ARG (i : Nat) : Fld := ⟨0x40104 + 256 * i, 0, 12⟩
def R.MON_BIN.SHIFT (i : Nat) : Fld := ⟨0x40108 + 256 * i, 16, 5⟩
def R.MON_BIN.BASE (i : Nat) : Fld := ⟨0x40108 + 256 * i, 0, 16⟩
def R.MON_WIN.WIN (i : Nat) : Fld := ⟨0x4010C + 256 * i, 0, 32⟩
def R.MON_MIN.VALUE (i : Nat) : Fld := ⟨0x40110 + 256 * i, 0, 32⟩
def R.MON_MAX.VALUE (i : Nat) : Fld := ⟨0x40114 + 256 * i, 0, 32⟩
def R.MON_COUNT.VALUE (i : Nat) : Fld := ⟨0x40118 + 256 * i, 0, 64⟩
def R.MON_SUM.VALUE (i : Nat) : Fld := ⟨0x40120 + 256 * i, 0, 64⟩
def R.MON_HIST.COUNT (i j : Nat) : Fld := ⟨0x40180 + 256 * i + 4 * j, 0, 32⟩
def R.EVT_BLOCK_VERSION.MAJOR : Fld := ⟨0x50000, 16, 16⟩
def R.EVT_BLOCK_VERSION.MINOR : Fld := ⟨0x50000, 0, 16⟩
def R.EVT_PRIO.PRIO (i : Nat) : Fld := ⟨0x51004 + 4 * i, 0, 3⟩
def R.EVT_PEND.PEND (i : Nat) : Fld := ⟨0x52000 + 4 * i, 0, 32⟩
def R.EVT_EN.EN (i j : Nat) : Fld := ⟨0x53000 + 128 * i + 4 * j, 0, 32⟩
def R.EVT_THR.THRESH (i : Nat) : Fld := ⟨0x54000 + 16 * i, 0, 3⟩
def R.EVT_CLAIM.ID (i : Nat) : Fld := ⟨0x54004 + 16 * i, 0, 10⟩
def R.EVT_LOST.DIES : Fld := ⟨0x55000, 0, 8⟩
def R.CFG_BLOCK_VERSION.MAJOR : Fld := ⟨0x60000, 16, 16⟩
def R.CFG_BLOCK_VERSION.MINOR : Fld := ⟨0x60000, 0, 16⟩
def R.CFG_LOAD_STATUS.ERROR : Fld := ⟨0x60010, 24, 8⟩
def R.CFG_LOAD_STATUS.SOURCE : Fld := ⟨0x60010, 16, 3⟩
def R.CFG_LOAD_STATUS.BUSY : Fld := ⟨0x60010, 1, 1⟩
def R.CFG_LOAD_STATUS.LOADED : Fld := ⟨0x60010, 0, 1⟩
def R.CFG_LOAD_ERR_INFO.SEG : Fld := ⟨0x60014, 20, 12⟩
def R.CFG_LOAD_ERR_INFO.FRAME : Fld := ⟨0x60014, 0, 19⟩
def R.CFG_BOOT_STATUS.ATTEMPTS : Fld := ⟨0x60018, 24, 4⟩
def R.CFG_BOOT_STATUS.CONF : Fld := ⟨0x60018, 20, 2⟩
def R.CFG_BOOT_STATUS.CONF_BUSY : Fld := ⟨0x60018, 19, 1⟩
def R.CFG_BOOT_STATUS.FALLBACK : Fld := ⟨0x60018, 18, 1⟩
def R.CFG_BOOT_STATUS.BR_COPY : Fld := ⟨0x60018, 16, 2⟩
def R.CFG_BOOT_STATUS.RUN_SLOT : Fld := ⟨0x60018, 8, 2⟩
def R.CFG_BOOT_SEQ.SEQ : Fld := ⟨0x6001C, 0, 32⟩
def R.CFG_BOOT_LOG.G_ERR : Fld := ⟨0x60020, 16, 8⟩
def R.CFG_BOOT_LOG.B_ERR : Fld := ⟨0x60020, 8, 8⟩
def R.CFG_BOOT_LOG.A_ERR : Fld := ⟨0x60020, 0, 8⟩
def R.CFG_CONFIRM.KEY : Fld := ⟨0x60024, 0, 32⟩
def R.CFG_CMD.OWNER : Fld := ⟨0x60028, 20, 12⟩
def R.CFG_CMD.SLOT : Fld := ⟨0x60028, 8, 2⟩
def R.CFG_CMD.OP : Fld := ⟨0x60028, 0, 4⟩
def R.CFG_CMD_ADDR.ADDR : Fld := ⟨0x60030, 0, 64⟩
def R.CFG_CMD_STATUS.ERROR : Fld := ⟨0x60038, 24, 8⟩
def R.CFG_CMD_STATUS.DONE : Fld := ⟨0x60038, 1, 1⟩
def R.CFG_CMD_STATUS.BUSY : Fld := ⟨0x60038, 0, 1⟩
def R.CFG_IMAGE_VERSION.VERSION : Fld := ⟨0x6003C, 0, 32⟩
def R.CFG_WAKE_SEQ.SLOT : Fld := ⟨0x60040, 0, 32⟩
def R.CFG_WAKE_CFG.LANE_KEEP : Fld := ⟨0x60044, 16, 16⟩
def R.CFG_WAKE_CFG.LOCK_TMO : Fld := ⟨0x60044, 12, 2⟩
def R.CFG_WAKE_CFG.DDRW_TMO : Fld := ⟨0x60044, 8, 2⟩
def R.CFG_WAKE_CFG.GAP : Fld := ⟨0x60044, 0, 8⟩
def R.CFG_WAKE_STATUS.ERROR : Fld := ⟨0x60048, 28, 4⟩
def R.CFG_WAKE_STATUS.ACTIVE : Fld := ⟨0x60048, 24, 1⟩
def R.CFG_WAKE_STATUS.SLOT : Fld := ⟨0x60048, 16, 3⟩
def R.CFG_WAKE_STATUS.DONE_STEPS : Fld := ⟨0x60048, 0, 9⟩
def R.CFG_WARM_BASE.BASE : Fld := ⟨0x60050, 0, 64⟩
def R.CFG_WARM_CTRL.ON_RESET : Fld := ⟨0x60058, 0, 1⟩
def R.CFG_WARM_STATUS.BUILDING : Fld := ⟨0x6005C, 1, 1⟩
def R.CFG_WARM_STATUS.VALID : Fld := ⟨0x6005C, 0, 1⟩
def R.CFG_CAP_CTRL.ARM : Fld := ⟨0x60100, 31, 1⟩
def R.CFG_CAP_CTRL.ABORT : Fld := ⟨0x60100, 30, 1⟩
def R.CFG_CAP_CTRL.TRIG : Fld := ⟨0x60100, 24, 2⟩
def R.CFG_CAP_CTRL.CLKSEL : Fld := ⟨0x60100, 16, 6⟩
def R.CFG_CAP_CTRL.DELAY : Fld := ⟨0x60100, 0, 16⟩
def R.CFG_CAP_STATUS.REMAIN : Fld := ⟨0x60104, 16, 16⟩
def R.CFG_CAP_STATUS.CLK_STOPPED : Fld := ⟨0x60104, 11, 1⟩
def R.CFG_CAP_STATUS.CANCELLED : Fld := ⟨0x60104, 10, 1⟩
def R.CFG_CAP_STATUS.PR_OVERLAP : Fld := ⟨0x60104, 9, 1⟩
def R.CFG_CAP_STATUS.SNAP_VALID : Fld := ⟨0x60104, 8, 1⟩
def R.CFG_CAP_STATUS.STATE : Fld := ⟨0x60104, 0, 2⟩
def R.CFG_CAP_TIME.TIME : Fld := ⟨0x60108, 0, 64⟩
def R.CFG_RB_CTRL.START : Fld := ⟨0x60110, 31, 1⟩
def R.CFG_RB_CTRL.CAPTURE : Fld := ⟨0x60110, 30, 1⟩
def R.CFG_RB_CTRL.FA : Fld := ⟨0x60110, 0, 19⟩
def R.CFG_RB_COUNT.COUNT : Fld := ⟨0x60114, 0, 19⟩
def R.CFG_RB_DEST.DEST : Fld := ⟨0x60118, 0, 64⟩
def R.CFG_RB_STATUS.RESULT : Fld := ⟨0x60120, 24, 8⟩
def R.CFG_RB_STATUS.DONE : Fld := ⟨0x60120, 1, 1⟩
def R.CFG_RB_STATUS.BUSY : Fld := ⟨0x60120, 0, 1⟩
def R.CFG_SWEEP_CTRL.EN : Fld := ⟨0x60200, 31, 1⟩
def R.CFG_SWEEP_CTRL.ESC_RESET : Fld := ⟨0x60200, 30, 1⟩
def R.CFG_SWEEP_CTRL.FLASH_REPAIR : Fld := ⟨0x60200, 8, 1⟩
def R.CFG_SWEEP_CTRL.DIV : Fld := ⟨0x60200, 0, 8⟩
def R.CFG_SWEEP_STATUS.STATE : Fld := ⟨0x60204, 28, 2⟩
def R.CFG_SWEEP_STATUS.FLASH_PENDING : Fld := ⟨0x60204, 27, 1⟩
def R.CFG_SWEEP_STATUS.QFILL : Fld := ⟨0x60204, 20, 7⟩
def R.CFG_SWEEP_STATUS.POS : Fld := ⟨0x60204, 0, 19⟩
def R.CFG_SWEEP_PASSES.PASSES : Fld := ⟨0x60208, 0, 32⟩
def R.CFG_SEU_DET.COUNT : Fld := ⟨0x60210, 0, 64⟩
def R.CFG_SEU_FIXED.COUNT : Fld := ⟨0x60218, 0, 64⟩
def R.CFG_SEU_UNFIXED.COUNT : Fld := ⟨0x60220, 0, 64⟩
def R.CFG_SEU_LAST.RESULT : Fld := ⟨0x60228, 29, 3⟩
def R.CFG_SEU_LAST.FA : Fld := ⟨0x60228, 0, 19⟩
def R.SEC_BLOCK_VERSION.MAJOR : Fld := ⟨0x70000, 16, 16⟩
def R.SEC_BLOCK_VERSION.MINOR : Fld := ⟨0x70000, 0, 16⟩
def R.SEC_LC.LOCKDOWN : Fld := ⟨0x70010, 31, 1⟩
def R.SEC_LC.DBG_LOCKOUT : Fld := ⟨0x70010, 30, 1⟩
def R.SEC_LC.DBG_FAILS : Fld := ⟨0x70010, 8, 2⟩
def R.SEC_LC.DBG_LEVEL : Fld := ⟨0x70010, 4, 3⟩
def R.SEC_LC.STATE : Fld := ⟨0x70010, 0, 3⟩
def R.SEC_CMD.OWNER : Fld := ⟨0x70014, 20, 12⟩
def R.SEC_CMD.ARG : Fld := ⟨0x70014, 8, 8⟩
def R.SEC_CMD.OP : Fld := ⟨0x70014, 0, 4⟩
def R.SEC_CMD_STATUS.RESULT : Fld := ⟨0x70018, 24, 8⟩
def R.SEC_CMD_STATUS.DONE : Fld := ⟨0x70018, 1, 1⟩
def R.SEC_CMD_STATUS.BUSY : Fld := ⟨0x70018, 0, 1⟩
def R.SEC_KEY_DATA.DATA (i : Nat) : Fld := ⟨0x70020 + 4 * i, 0, 32⟩
def R.SEC_KEY_VERSION.VERSION : Fld := ⟨0x70050, 0, 32⟩
def R.SEC_KEY_STATUS.BB_ENROLLED : Fld := ⟨0x70054, 15, 1⟩
def R.SEC_KEY_STATUS.BBRAM_LOST : Fld := ⟨0x70054, 14, 1⟩
def R.SEC_KEY_STATUS.FUSE_KEY_KILLED : Fld := ⟨0x70054, 13, 1⟩
def R.SEC_KEY_STATUS.FUSE_KEY_PRESENT : Fld := ⟨0x70054, 12, 1⟩
def R.SEC_KEY_STATUS.SLOT1_VALID : Fld := ⟨0x70054, 9, 1⟩
def R.SEC_KEY_STATUS.SLOT0_VALID : Fld := ⟨0x70054, 8, 1⟩
def R.SEC_KEY_STATUS.ACTIVE_SLOT : Fld := ⟨0x70054, 0, 1⟩
def R.SEC_BB_VER.VERSION (i : Nat) : Fld := ⟨0x70058 + 4 * i, 0, 32⟩
def R.SEC_PKH_STATUS.RUN_PK_VALID : Fld := ⟨0x70060, 18, 1⟩
def R.SEC_PKH_STATUS.RUN_PK : Fld := ⟨0x70060, 16, 2⟩
def R.SEC_PKH_STATUS.BROKEN : Fld := ⟨0x70060, 8, 4⟩
def R.SEC_PKH_STATUS.REVOKED : Fld := ⟨0x70060, 4, 4⟩
def R.SEC_PKH_STATUS.PRESENT : Fld := ⟨0x70060, 0, 4⟩
def R.SEC_SVN_FLOOR.FLOOR : Fld := ⟨0x70064, 0, 7⟩
def R.SEC_POLICY.RUN_FLOOR : Fld := ⟨0x70068, 16, 4⟩
def R.SEC_POLICY.START_EN : Fld := ⟨0x70068, 9, 7⟩
def R.SEC_POLICY.VAULT_ZEROISE : Fld := ⟨0x70068, 3, 1⟩
def R.SEC_POLICY.START_ZEROISE : Fld := ⟨0x70068, 2, 1⟩
def R.SEC_POLICY.FUSE_SUBST : Fld := ⟨0x70068, 1, 1⟩
def R.SEC_POLICY.UNENC_OK : Fld := ⟨0x70068, 0, 1⟩
def R.SEC_TAMPER_CFG.LOCK : Fld := ⟨0x70070, 31, 1⟩
def R.SEC_TAMPER_CFG.POL1 : Fld := ⟨0x70070, 9, 1⟩
def R.SEC_TAMPER_CFG.POL0 : Fld := ⟨0x70070, 8, 1⟩
def R.SEC_TAMPER_CFG.EN : Fld := ⟨0x70070, 0, 8⟩
def R.SEC_TAMPER_RESP.LOCKDOWN : Fld := ⟨0x70074, 3, 1⟩
def R.SEC_TAMPER_RESP.RESET : Fld := ⟨0x70074, 2, 1⟩
def R.SEC_TAMPER_RESP.WIPE : Fld := ⟨0x70074, 1, 1⟩
def R.SEC_TAMPER_RESP.ZEROISE : Fld := ⟨0x70074, 0, 1⟩
def R.SEC_TAMPER_LOG.VAULT : Fld := ⟨0x70078, 31, 1⟩
def R.SEC_TAMPER_LOG.SOURCES : Fld := ⟨0x70078, 16, 8⟩
def R.SEC_TAMPER_LOG.COUNT : Fld := ⟨0x70078, 8, 8⟩
def R.SEC_TAMPER_LOG.WHEN : Fld := ⟨0x70078, 4, 3⟩
def R.SEC_TAMPER_LOG.FIRST : Fld := ⟨0x70078, 0, 3⟩
def R.SEC_TEMP_LIMITS.TEMP_HI : Fld := ⟨0x7007C, 8, 8⟩
def R.SEC_TEMP_LIMITS.TEMP_LO : Fld := ⟨0x7007C, 0, 8⟩
def R.SEC_DEVICE_ID.ID : Fld := ⟨0x70080, 0, 64⟩
def R.SEC_NVC_RIGHTS.CLASSES : Fld := ⟨0x70088, 0, 8⟩
def R.SEC_RIGHTS_LOCK.LOCK : Fld := ⟨0x7008C, 0, 1⟩
def R.SEC_KEYID_RIGHTS.CLASSES (i : Nat) : Fld := ⟨0x70400 + 4 * i, 0, 8⟩
def R.NVC_BLOCK_VERSION.MAJOR : Fld := ⟨0x80000, 16, 16⟩
def R.NVC_BLOCK_VERSION.MINOR : Fld := ⟨0x80000, 0, 16⟩
def R.NVC_CFG.MIN_RESUME : Fld := ⟨0x80010, 16, 8⟩
def R.NVC_CFG.DUAL : Fld := ⟨0x80010, 8, 1⟩
def R.NVC_CFG.FREQ : Fld := ⟨0x80010, 0, 8⟩
def R.NVC_INFO.SECTOR_LOG2 : Fld := ⟨0x80014, 24, 8⟩
def R.NVC_INFO.PAGE_LOG2 : Fld := ⟨0x80014, 16, 8⟩
def R.NVC_INFO.SIZE_LOG2 : Fld := ⟨0x80014, 0, 8⟩
def R.NVC_CMD.OWNER : Fld := ⟨0x80018, 20, 12⟩
def R.NVC_CMD.OP : Fld := ⟨0x80018, 0, 4⟩
def R.NVC_STATUS.RESULT : Fld := ⟨0x8001C, 24, 8⟩
def R.NVC_STATUS.STATE : Fld := ⟨0x8001C, 8, 2⟩
def R.NVC_STATUS.DONE : Fld := ⟨0x8001C, 0, 1⟩
def R.NVC_ADDR.ADDR : Fld := ⟨0x80020, 0, 64⟩
def R.NVC_MEM.MEM : Fld := ⟨0x80028, 0, 64⟩
def R.NVC_LEN.LEN : Fld := ⟨0x80030, 0, 32⟩
def R.NVC_PROTECT.RUN_UNLOCK : Fld := ⟨0x80034, 2, 1⟩
def R.NVC_PROTECT.G_UNLOCK : Fld := ⟨0x80034, 1, 1⟩
def R.NVC_PROTECT.BOOT_UNLOCK : Fld := ⟨0x80034, 0, 1⟩
def R.NVC_FAIL_ADDR.ADDR : Fld := ⟨0x80038, 0, 64⟩
def R.NVC_XIP_BASE.BASE : Fld := ⟨0x80040, 0, 26⟩
def R.BNK_BLOCK_VERSION.MAJOR : Fld := ⟨0x100000, 16, 16⟩
def R.BNK_BLOCK_VERSION.MINOR : Fld := ⟨0x100000, 0, 16⟩
def R.BNK_EVT.POWER : Fld := ⟨0x100010, 5, 1⟩
def R.BNK_EVT.WIPE_DONE : Fld := ⟨0x100010, 4, 1⟩
def R.BNK_EVT.HANDOVER : Fld := ⟨0x100010, 3, 1⟩
def R.BNK_EVT.UE : Fld := ⟨0x100010, 2, 1⟩
def R.BNK_EVT.CE : Fld := ⟨0x100010, 1, 1⟩
def R.BNK_EVT.ACCESS_ERR : Fld := ⟨0x100010, 0, 1⟩
def R.BNK_ACC_LOG.VALID : Fld := ⟨0x100018, 63, 1⟩
def R.BNK_ACC_LOG.KIND : Fld := ⟨0x100018, 52, 4⟩
def R.BNK_ACC_LOG.BANK : Fld := ⟨0x100018, 48, 3⟩
def R.BNK_ACC_LOG.CLASS : Fld := ⟨0x100018, 40, 3⟩
def R.BNK_ACC_LOG.RID : Fld := ⟨0x100018, 28, 12⟩
def R.BNK_ACC_LOG.OFFSET : Fld := ⟨0x100018, 3, 19⟩
def R.BNK_ERR_LOG.VALID : Fld := ⟨0x100020, 63, 1⟩
def R.BNK_ERR_LOG.BANK : Fld := ⟨0x100020, 56, 3⟩
def R.BNK_ERR_LOG.SYNDROME : Fld := ⟨0x100020, 48, 8⟩
def R.BNK_ERR_LOG.OFFSET : Fld := ⟨0x100020, 3, 19⟩
def R.BNK_ECC_TEST.DATA_ONLY : Fld := ⟨0x100030, 31, 1⟩
def R.BNK_ECC_TEST.BANK : Fld := ⟨0x100030, 0, 3⟩
def R.BNK_ECC_ADDR.OFFSET : Fld := ⟨0x100038, 3, 19⟩
def R.BNK_ECC_CHK.SYNDROME : Fld := ⟨0x100040, 8, 8⟩
def R.BNK_ECC_CHK.CHECK : Fld := ⟨0x100040, 0, 8⟩
def R.BNK_CTRL.KEEP (i : Nat) : Fld := ⟨0x100100 + 64 * i, 31, 1⟩
def R.BNK_CTRL.WAKE_ON_ACCESS (i : Nat) : Fld := ⟨0x100100 + 64 * i, 30, 1⟩
def R.BNK_CTRL.SECURE (i : Nat) : Fld := ⟨0x100100 + 64 * i, 29, 1⟩
def R.BNK_CTRL.WIPE (i : Nat) : Fld := ⟨0x100100 + 64 * i, 28, 1⟩
def R.BNK_CTRL.POWER (i : Nat) : Fld := ⟨0x100100 + 64 * i, 26, 2⟩
def R.BNK_CTRL.OWNER (i : Nat) : Fld := ⟨0x100100 + 64 * i, 0, 13⟩
def R.BNK_STATUS.HANDOVER_PENDING (i : Nat) : Fld := ⟨0x100104 + 64 * i, 31, 1⟩
def R.BNK_STATUS.WIPING (i : Nat) : Fld := ⟨0x100104 + 64 * i, 30, 1⟩
def R.BNK_STATUS.ZERO_PENDING (i : Nat) : Fld := ⟨0x100104 + 64 * i, 29, 1⟩
def R.BNK_STATUS.PEND_POWER (i : Nat) : Fld := ⟨0x100104 + 64 * i, 28, 1⟩
def R.BNK_STATUS.PSTATE (i : Nat) : Fld := ⟨0x100104 + 64 * i, 16, 3⟩
def R.BNK_STATUS.NEXT_OWNER (i : Nat) : Fld := ⟨0x100104 + 64 * i, 0, 13⟩
def R.BNK_ECC_CNT.CE (i : Nat) : Fld := ⟨0x100108 + 64 * i, 16, 16⟩
def R.BNK_ECC_CNT.UE (i : Nat) : Fld := ⟨0x100108 + 64 * i, 0, 16⟩
def R.BNK_REPAIR.USED (i : Nat) : Fld := ⟨0x10010C + 64 * i, 0, 24⟩
def R.BNK_CNT_ACC.COUNT (i : Nat) : Fld := ⟨0x100110 + 64 * i, 0, 64⟩
def R.BNK_CNT_WAIT.COUNT (i : Nat) : Fld := ⟨0x100118 + 64 * i, 0, 64⟩
def R.NOC_BLOCK_VERSION.MAJOR : Fld := ⟨0x200000, 16, 16⟩
def R.NOC_BLOCK_VERSION.MINOR : Fld := ⟨0x200000, 0, 16⟩
def R.NOC_TMO_CFG.TMO : Fld := ⟨0x200010, 0, 20⟩
def R.NOC_EVT.LOST_LINE : Fld := ⟨0x200014, 2, 1⟩
def R.NOC_EVT.LATE : Fld := ⟨0x200014, 1, 1⟩
def R.NOC_EVT.TIMEOUT : Fld := ⟨0x200014, 0, 1⟩
def R.NOC_TMO_LOG.VALID : Fld := ⟨0x200018, 63, 1⟩
def R.NOC_TMO_LOG.OP : Fld := ⟨0x200018, 56, 4⟩
def R.NOC_TMO_LOG.RID : Fld := ⟨0x200018, 44, 12⟩
def R.NOC_TMO_LOG.TAG : Fld := ⟨0x200018, 35, 9⟩
def R.NOC_TMO_LOG.DEST : Fld := ⟨0x200018, 26, 9⟩
def R.NOC_QUAR.COUNT : Fld := ⟨0x200020, 0, 16⟩
def R.NOC_CNT_TMO.COUNT : Fld := ⟨0x200028, 0, 64⟩
def R.NOC_LATE_CPL.COUNT : Fld := ⟨0x200030, 0, 64⟩
def R.NOC_CNT_DOWN.COUNT : Fld := ⟨0x200038, 0, 64⟩
def R.NOC_CNT_WAKE.COUNT : Fld := ⟨0x200040, 0, 64⟩
def R.NOC_LOST_LINES.COUNT : Fld := ⟨0x200048, 0, 64⟩
def R.RLC_BLOCK_VERSION.MAJOR : Fld := ⟨0x280000, 16, 16⟩
def R.RLC_BLOCK_VERSION.MINOR : Fld := ⟨0x280000, 0, 16⟩
def R.RLC_CTRL.FLUSH : Fld := ⟨0x280010, 31, 1⟩
def R.RLC_STATUS.FLUSHING : Fld := ⟨0x280014, 0, 1⟩
def R.RLC_ECC_FLIP.ARM : Fld := ⟨0x280018, 8, 1⟩
def R.RLC_ECC_FLIP.FLIP : Fld := ⟨0x280018, 0, 8⟩
def R.RLC_ECC_CNT.CE : Fld := ⟨0x28001C, 16, 16⟩
def R.RLC_ECC_CNT.UE : Fld := ⟨0x28001C, 0, 16⟩
def R.RLC_WB_LOG.VALID : Fld := ⟨0x280020, 63, 1⟩
def R.RLC_WB_LOG.RESP : Fld := ⟨0x280020, 54, 3⟩
def R.RLC_WB_LOG.KEYID : Fld := ⟨0x280020, 48, 6⟩
def R.RLC_WB_LOG.LINE : Fld := ⟨0x280020, 6, 42⟩
def R.RLC_EVT.FLUSH_DONE : Fld := ⟨0x280028, 4, 1⟩
def R.RLC_EVT.DIR_UE : Fld := ⟨0x280028, 3, 1⟩
def R.RLC_EVT.UE : Fld := ⟨0x280028, 2, 1⟩
def R.RLC_EVT.CE : Fld := ⟨0x280028, 1, 1⟩
def R.RLC_EVT.WB_ERR : Fld := ⟨0x280028, 0, 1⟩
def R.RLC_CNT.COUNT (i : Nat) : Fld := ⟨0x280100 + 8 * i, 0, 64⟩
def R.BDL_BLOCK_VERSION.MAJOR : Fld := ⟨0x300000, 16, 16⟩
def R.BDL_BLOCK_VERSION.MINOR : Fld := ⟨0x300000, 0, 16⟩
def R.BDL_IDENT.BLANK : Fld := ⟨0x300010, 31, 1⟩
def R.BDL_IDENT.NBR : Fld := ⟨0x300010, 24, 4⟩
def R.BDL_IDENT.PART : Fld := ⟨0x300010, 16, 4⟩
def R.BDL_IDENT.PACKAGE : Fld := ⟨0x300010, 8, 4⟩
def R.BDL_IDENT.HEAD : Fld := ⟨0x300010, 3, 1⟩
def R.BDL_IDENT.POSITION : Fld := ⟨0x300010, 0, 3⟩
def R.BDL_EVT.COMPANION : Fld := ⟨0x300014, 2, 1⟩
def R.BDL_EVT.DOWN : Fld := ⟨0x300014, 1, 1⟩
def R.BDL_EVT.FATAL : Fld := ⟨0x300014, 0, 1⟩
def R.BDL_TEST.ARM : Fld := ⟨0x300018, 31, 1⟩
def R.BDL_TEST.COUNT : Fld := ⟨0x300018, 8, 4⟩
def R.BDL_TEST.EDGE : Fld := ⟨0x300018, 4, 2⟩
def R.BDL_TEST.MODULE : Fld := ⟨0x300018, 0, 3⟩
def R.BDL_STATUS.REASON (i : Nat) : Fld := ⟨0x300100 + 64 * i, 24, 4⟩
def R.BDL_STATUS.MODULE (i : Nat) : Fld := ⟨0x300100 + 64 * i, 8, 3⟩
def R.BDL_STATUS.LOWPWR (i : Nat) : Fld := ⟨0x300100 + 64 * i, 4, 1⟩
def R.BDL_STATUS.STATE (i : Nat) : Fld := ⟨0x300100 + 64 * i, 0, 3⟩
def R.BDL_PEER.VER_MAJOR (i : Nat) : Fld := ⟨0x300104 + 64 * i, 24, 8⟩
def R.BDL_PEER.VER_MINOR (i : Nat) : Fld := ⟨0x300104 + 64 * i, 16, 8⟩
def R.BDL_PEER.PART (i : Nat) : Fld := ⟨0x300104 + 64 * i, 8, 8⟩
def R.BDL_PEER.ROLE (i : Nat) : Fld := ⟨0x300104 + 64 * i, 7, 1⟩
def R.BDL_PEER.HEAD (i : Nat) : Fld := ⟨0x300104 + 64 * i, 3, 1⟩
def R.BDL_PEER.POSITION (i : Nat) : Fld := ⟨0x300104 + 64 * i, 0, 3⟩
def R.BDL_CAPS.MODULES (i : Nat) : Fld := ⟨0x300108 + 64 * i, 16, 6⟩
def R.BDL_CAPS.CAPS (i : Nat) : Fld := ⟨0x300108 + 64 * i, 0, 5⟩
def R.BDL_WIN.FAB_LOG2 (i : Nat) : Fld := ⟨0x30010C + 64 * i, 16, 8⟩
def R.BDL_WIN.BANK_LOG2 (i : Nat) : Fld := ⟨0x30010C + 64 * i, 8, 8⟩
def R.BDL_WIN.CTRL_LOG2 (i : Nat) : Fld := ⟨0x30010C + 64 * i, 0, 8⟩
def R.BDL_CNT_FLITS.COUNT (i : Nat) : Fld := ⟨0x300110 + 64 * i, 0, 64⟩
def R.BDL_CNT_CRC.COUNT (i : Nat) : Fld := ⟨0x300118 + 64 * i, 0, 64⟩
def R.BDL_CNT_REPLAY.COUNT (i : Nat) : Fld := ⟨0x300120 + 64 * i, 0, 64⟩
def R.DDR_BLOCK_VERSION.MAJOR (i : Nat) : Fld := ⟨0x400000 + 262144 * i, 16, 16⟩
def R.DDR_BLOCK_VERSION.MINOR (i : Nat) : Fld := ⟨0x400000 + 262144 * i, 0, 16⟩
def R.DDR_CFG.EN (i : Nat) : Fld := ⟨0x400010 + 262144 * i, 31, 1⟩
def R.DDR_CFG.DENSITY (i : Nat) : Fld := ⟨0x400010 + 262144 * i, 2, 1⟩
def R.DDR_CFG.RANKS2 (i : Nat) : Fld := ⟨0x400010 + 262144 * i, 0, 1⟩
def R.DDR_STATUS.TRAIN_TEMP (i : Nat) : Fld := ⟨0x400014 + 262144 * i, 24, 8⟩
def R.DDR_STATUS.STATE (i : Nat) : Fld := ⟨0x400014 + 262144 * i, 0, 3⟩
def R.DDR_QOS.CLASS (i : Nat) : Fld := ⟨0x400018 + 262144 * i, 0, 16⟩
def R.DDR_AGE.AGE (i : Nat) : Fld := ⟨0x40001C + 262144 * i, 0, 32⟩
def R.DDR_ECC_FLIP.ARM (i : Nat) : Fld := ⟨0x400020 + 262144 * i, 31, 1⟩
def R.DDR_ECC_FLIP.DEV1 (i : Nat) : Fld := ⟨0x400020 + 262144 * i, 16, 4⟩
def R.DDR_ECC_FLIP.DEV0 (i : Nat) : Fld := ⟨0x400020 + 262144 * i, 12, 4⟩
def R.DDR_ECC_FLIP.FLIP (i : Nat) : Fld := ⟨0x400020 + 262144 * i, 0, 8⟩
def R.DDR_ECC_CNT.CE (i : Nat) : Fld := ⟨0x400024 + 262144 * i, 16, 16⟩
def R.DDR_ECC_CNT.UE (i : Nat) : Fld := ⟨0x400024 + 262144 * i, 0, 16⟩
def R.DDR_ERR_LOG.VALID (i : Nat) : Fld := ⟨0x400028 + 262144 * i, 63, 1⟩
def R.DDR_ERR_LOG.SYNDROME (i : Nat) : Fld := ⟨0x400028 + 262144 * i, 40, 16⟩
def R.DDR_ERR_LOG.WORD (i : Nat) : Fld := ⟨0x400028 + 262144 * i, 37, 3⟩
def R.DDR_ERR_LOG.LINE (i : Nat) : Fld := ⟨0x400028 + 262144 * i, 0, 37⟩
def R.DDR_EVT.RETRAIN (i : Nat) : Fld := ⟨0x400030 + 262144 * i, 3, 1⟩
def R.DDR_EVT.TRAIN_FAIL (i : Nat) : Fld := ⟨0x400030 + 262144 * i, 2, 1⟩
def R.DDR_EVT.UE (i : Nat) : Fld := ⟨0x400030 + 262144 * i, 1, 1⟩
def R.DDR_EVT.CE (i : Nat) : Fld := ⟨0x400030 + 262144 * i, 0, 1⟩
def R.DDR_MAP_CTL.EN (i : Nat) : Fld := ⟨0x400100 + 8 * i, 31, 1⟩
def R.DDR_MAP_CTL.GRAIN_LOG2 (i : Nat) : Fld := ⟨0x400100 + 8 * i, 16, 5⟩
def R.DDR_MAP_CTL.CHMASK (i : Nat) : Fld := ⟨0x400100 + 8 * i, 0, 16⟩
def R.DDR_MAP_RNG.SIZE (i : Nat) : Fld := ⟨0x400104 + 8 * i, 20, 12⟩
def R.DDR_MAP_RNG.BASE (i : Nat) : Fld := ⟨0x400104 + 8 * i, 8, 11⟩
def R.DDR_MAP_RNG.CHBASE (i : Nat) : Fld := ⟨0x400104 + 8 * i, 0, 7⟩
def R.DDR_MAP_SUM.CRC : Fld := ⟨0x400140, 0, 32⟩
def R.DDR_CNT.COUNT (i j : Nat) : Fld := ⟨0x400200 + 262144 * i + 8 * j, 0, 64⟩
def R.MEE_BLOCK_VERSION.MAJOR (i : Nat) : Fld := ⟨0x480000 + 131072 * i, 16, 16⟩
def R.MEE_BLOCK_VERSION.MINOR (i : Nat) : Fld := ⟨0x480000 + 131072 * i, 0, 16⟩
def R.MEE_PROT.EN (i j : Nat) : Fld := ⟨0x480010 + 131072 * i + 8 * j, 63, 1⟩
def R.MEE_PROT.META (i j : Nat) : Fld := ⟨0x480010 + 131072 * i + 8 * j, 32, 13⟩
def R.MEE_PROT.SIZE (i j : Nat) : Fld := ⟨0x480010 + 131072 * i + 8 * j, 16, 13⟩
def R.MEE_PROT.BASE (i j : Nat) : Fld := ⟨0x480010 + 131072 * i + 8 * j, 0, 13⟩
def R.MEE_KEY_DATA.DATA (i j : Nat) : Fld := ⟨0x480040 + 131072 * i + 4 * j, 0, 32⟩
def R.MEE_KEY_CMD.OWNER (i : Nat) : Fld := ⟨0x480060 + 131072 * i, 20, 12⟩
def R.MEE_KEY_CMD.SCOPE (i : Nat) : Fld := ⟨0x480060 + 131072 * i, 19, 1⟩
def R.MEE_KEY_CMD.ARG (i : Nat) : Fld := ⟨0x480060 + 131072 * i, 16, 2⟩
def R.MEE_KEY_CMD.KEYID (i : Nat) : Fld := ⟨0x480060 + 131072 * i, 8, 6⟩
def R.MEE_KEY_CMD.OP (i : Nat) : Fld := ⟨0x480060 + 131072 * i, 0, 3⟩
def R.MEE_KEY_STATUS.RESULT (i : Nat) : Fld := ⟨0x480064 + 131072 * i, 24, 8⟩
def R.MEE_KEY_STATUS.FAIL_INST (i : Nat) : Fld := ⟨0x480064 + 131072 * i, 20, 4⟩
def R.MEE_KEY_STATUS.DONE (i : Nat) : Fld := ⟨0x480064 + 131072 * i, 1, 1⟩
def R.MEE_KEY_STATUS.BUSY (i : Nat) : Fld := ⟨0x480064 + 131072 * i, 0, 1⟩
def R.MEE_KSTATE.STATE (i j : Nat) : Fld := ⟨0x480070 + 131072 * i + 4 * j, 0, 32⟩
def R.MEE_RK_CFG.KEYID (i : Nat) : Fld := ⟨0x480080 + 131072 * i, 8, 6⟩
def R.MEE_RK_CFG.RATE (i : Nat) : Fld := ⟨0x480080 + 131072 * i, 0, 8⟩
def R.MEE_RK_START.LINE (i : Nat) : Fld := ⟨0x480088 + 131072 * i, 0, 31⟩
def R.MEE_RK_END.LINE (i : Nat) : Fld := ⟨0x48008C + 131072 * i, 0, 31⟩
def R.MEE_RK_BOUND.LINE (i : Nat) : Fld := ⟨0x480090 + 131072 * i, 0, 31⟩
def R.MEE_EXH.KEYIDS (i : Nat) : Fld := ⟨0x480098 + 131072 * i, 1, 63⟩
def R.MEE_FAIL_LOG.VALID (i : Nat) : Fld := ⟨0x4800A0 + 131072 * i, 63, 1⟩
def R.MEE_FAIL_LOG.KIND (i : Nat) : Fld := ⟨0x4800A0 + 131072 * i, 60, 3⟩
def R.MEE_FAIL_LOG.RESP (i : Nat) : Fld := ⟨0x4800A0 + 131072 * i, 57, 3⟩
def R.MEE_FAIL_LOG.CLASS (i : Nat) : Fld := ⟨0x4800A0 + 131072 * i, 54, 3⟩
def R.MEE_FAIL_LOG.KEYID (i : Nat) : Fld := ⟨0x4800A0 + 131072 * i, 48, 6⟩
def R.MEE_FAIL_LOG.LINE (i : Nat) : Fld := ⟨0x4800A0 + 131072 * i, 0, 37⟩
def R.MEE_EVT.KEY_DONE (i : Nat) : Fld := ⟨0x4800A8 + 131072 * i, 3, 1⟩
def R.MEE_EVT.REKEY_DONE (i : Nat) : Fld := ⟨0x4800A8 + 131072 * i, 2, 1⟩
def R.MEE_EVT.EXHAUSTED (i : Nat) : Fld := ⟨0x4800A8 + 131072 * i, 1, 1⟩
def R.MEE_EVT.TAG_FAIL (i : Nat) : Fld := ⟨0x4800A8 + 131072 * i, 0, 1⟩
def R.MEE_CNT.COUNT (i j : Nat) : Fld := ⟨0x480100 + 131072 * i + 8 * j, 0, 64⟩
def R.LAN_BLOCK_VERSION.MAJOR : Fld := ⟨0x500000, 16, 16⟩
def R.LAN_BLOCK_VERSION.MINOR : Fld := ⟨0x500000, 0, 16⟩
def R.LAN_CTRL.ENABLE (i : Nat) : Fld := ⟨0x500010 + 4096 * i, 31, 1⟩
def R.LAN_CTRL.RESTART (i : Nat) : Fld := ⟨0x500010 + 4096 * i, 30, 1⟩
def R.LAN_CTRL.AN_EN (i : Nat) : Fld := ⟨0x500010 + 4096 * i, 29, 1⟩
def R.LAN_CTRL.SLEEP (i : Nat) : Fld := ⟨0x500010 + 4096 * i, 27, 2⟩
def R.LAN_CTRL.TX_INV (i : Nat) : Fld := ⟨0x500010 + 4096 * i, 3, 1⟩
def R.LAN_CTRL.RX_INV (i : Nat) : Fld := ⟨0x500010 + 4096 * i, 2, 1⟩
def R.LAN_MODE.PLL (i : Nat) : Fld := ⟨0x500014 + 4096 * i, 9, 1⟩
def R.LAN_MODE.D (i : Nat) : Fld := ⟨0x500014 + 4096 * i, 6, 3⟩
def R.LAN_MODE.MOD (i : Nat) : Fld := ⟨0x500014 + 4096 * i, 5, 1⟩
def R.LAN_MODE.FEC (i : Nat) : Fld := ⟨0x500014 + 4096 * i, 1, 2⟩
def R.LAN_MODE.PCS (i : Nat) : Fld := ⟨0x500014 + 4096 * i, 0, 1⟩
def R.LAN_STATUS.PHY (i : Nat) : Fld := ⟨0x500018 + 4096 * i, 24, 8⟩
def R.LAN_STATUS.HI_BER (i : Nat) : Fld := ⟨0x500018 + 4096 * i, 11, 1⟩
def R.LAN_STATUS.DESKEW (i : Nat) : Fld := ⟨0x500018 + 4096 * i, 10, 1⟩
def R.LAN_STATUS.FEC_ALIGN (i : Nat) : Fld := ⟨0x500018 + 4096 * i, 9, 1⟩
def R.LAN_STATUS.BLOCK_LOCK (i : Nat) : Fld := ⟨0x500018 + 4096 * i, 8, 1⟩
def R.LAN_STATUS.CDR_LOCK (i : Nat) : Fld := ⟨0x500018 + 4096 * i, 7, 1⟩
def R.LAN_STATUS.SIGNAL (i : Nat) : Fld := ⟨0x500018 + 4096 * i, 6, 1⟩
def R.LAN_STATUS.STATE (i : Nat) : Fld := ⟨0x500018 + 4096 * i, 0, 3⟩
def R.LAN_PAIR.SLEEP_BYPASS (i : Nat) : Fld := ⟨0x50001C + 8192 * i, 2, 1⟩
def R.LAN_PAIR.ACTIVE (i : Nat) : Fld := ⟨0x50001C + 8192 * i, 1, 1⟩
def R.LAN_PAIR.BYPASS (i : Nat) : Fld := ⟨0x50001C + 8192 * i, 0, 1⟩
def R.LAN_AN_ADV.TNB (i : Nat) : Fld := ⟨0x500020 + 4096 * i, 31, 1⟩
def R.LAN_AN_ADV.TNB_FEC (i : Nat) : Fld := ⟨0x500020 + 4096 * i, 30, 1⟩
def R.LAN_AN_ADV.EEE (i : Nat) : Fld := ⟨0x500020 + 4096 * i, 29, 1⟩
def R.LAN_AN_ADV.TNB_RATES (i : Nat) : Fld := ⟨0x500020 + 4096 * i, 13, 8⟩
def R.LAN_AN_ADV.ETH (i : Nat) : Fld := ⟨0x500020 + 4096 * i, 0, 13⟩
def R.LAN_AN_STATUS.RESULT (i : Nat) : Fld := ⟨0x500024 + 4096 * i, 24, 8⟩
def R.LAN_AN_STATUS.FEC (i : Nat) : Fld := ⟨0x500024 + 4096 * i, 23, 1⟩
def R.LAN_AN_STATUS.EEE (i : Nat) : Fld := ⟨0x500024 + 4096 * i, 22, 1⟩
def R.LAN_AN_STATUS.ASTATE (i : Nat) : Fld := ⟨0x500024 + 4096 * i, 0, 3⟩
def R.LAN_AN_PARTNER.TNB (i : Nat) : Fld := ⟨0x500028 + 4096 * i, 31, 1⟩
def R.LAN_AN_PARTNER.TNB_FEC (i : Nat) : Fld := ⟨0x500028 + 4096 * i, 30, 1⟩
def R.LAN_AN_PARTNER.EEE (i : Nat) : Fld := ⟨0x500028 + 4096 * i, 29, 1⟩
def R.LAN_AN_PARTNER.TNB_RATES (i : Nat) : Fld := ⟨0x500028 + 4096 * i, 13, 8⟩
def R.LAN_AN_PARTNER.ETH (i : Nat) : Fld := ⟨0x500028 + 4096 * i, 0, 13⟩
def R.LAN_LT_CFG.EN (i : Nat) : Fld := ⟨0x50002C + 4096 * i, 31, 1⟩
def R.LAN_LT_CFG.PRESET (i : Nat) : Fld := ⟨0x50002C + 4096 * i, 8, 4⟩
def R.LAN_LT_CFG.TMO (i : Nat) : Fld := ⟨0x50002C + 4096 * i, 0, 8⟩
def R.LAN_LT_STATUS.C1 (i : Nat) : Fld := ⟨0x500030 + 4096 * i, 24, 8⟩
def R.LAN_LT_STATUS.C0 (i : Nat) : Fld := ⟨0x500030 + 4096 * i, 16, 8⟩
def R.LAN_LT_STATUS.CM1 (i : Nat) : Fld := ⟨0x500030 + 4096 * i, 8, 8⟩
def R.LAN_LT_STATUS.CM2 (i : Nat) : Fld := ⟨0x500030 + 4096 * i, 0, 8⟩
def R.LAN_ADAPT_CFG.EN (i : Nat) : Fld := ⟨0x500034 + 4096 * i, 31, 1⟩
def R.LAN_ADAPT_CFG.READAPT (i : Nat) : Fld := ⟨0x500034 + 4096 * i, 30, 1⟩
def R.LAN_ADAPT_CFG.VTH (i : Nat) : Fld := ⟨0x500034 + 4096 * i, 16, 8⟩
def R.LAN_ADAPT_CFG.HTH (i : Nat) : Fld := ⟨0x500034 + 4096 * i, 0, 8⟩
def R.LAN_EYE_CTRL.START (i : Nat) : Fld := ⟨0x500040 + 4096 * i, 31, 1⟩
def R.LAN_EYE_CTRL.MODE (i : Nat) : Fld := ⟨0x500040 + 4096 * i, 30, 1⟩
def R.LAN_EYE_CTRL.EYE (i : Nat) : Fld := ⟨0x500040 + 4096 * i, 28, 2⟩
def R.LAN_EYE_CTRL.DWELL_LOG2 (i : Nat) : Fld := ⟨0x500040 + 4096 * i, 22, 6⟩
def R.LAN_EYE_CTRL.HOFS (i : Nat) : Fld := ⟨0x500040 + 4096 * i, 16, 6⟩
def R.LAN_EYE_CTRL.VOFS (i : Nat) : Fld := ⟨0x500040 + 4096 * i, 8, 8⟩
def R.LAN_EYE_CTRL.THRESH (i : Nat) : Fld := ⟨0x500040 + 4096 * i, 0, 8⟩
def R.LAN_EYE_RESULT.DONE (i : Nat) : Fld := ⟨0x500048 + 4096 * i, 63, 1⟩
def R.LAN_EYE_RESULT.BUSY (i : Nat) : Fld := ⟨0x500048 + 4096 * i, 62, 1⟩
def R.LAN_EYE_RESULT.STATUS (i : Nat) : Fld := ⟨0x500048 + 4096 * i, 60, 2⟩
def R.LAN_EYE_RESULT.ERRORS (i : Nat) : Fld := ⟨0x500048 + 4096 * i, 0, 32⟩
def R.LAN_EYE_MARGIN.TOP (i : Nat) : Fld := ⟨0x500050 + 4096 * i, 24, 8⟩
def R.LAN_EYE_MARGIN.BOTTOM (i : Nat) : Fld := ⟨0x500050 + 4096 * i, 16, 8⟩
def R.LAN_EYE_MARGIN.RIGHT (i : Nat) : Fld := ⟨0x500050 + 4096 * i, 8, 8⟩
def R.LAN_EYE_MARGIN.LEFT (i : Nat) : Fld := ⟨0x500050 + 4096 * i, 0, 8⟩
def R.LAN_EYE_BG.TOP (i : Nat) : Fld := ⟨0x500054 + 4096 * i, 24, 8⟩
def R.LAN_EYE_BG.BOTTOM (i : Nat) : Fld := ⟨0x500054 + 4096 * i, 16, 8⟩
def R.LAN_EYE_BG.RIGHT (i : Nat) : Fld := ⟨0x500054 + 4096 * i, 8, 8⟩
def R.LAN_EYE_BG.LEFT (i : Nat) : Fld := ⟨0x500054 + 4096 * i, 0, 8⟩
def R.LAN_PRBS.GEN (i : Nat) : Fld := ⟨0x500058 + 4096 * i, 31, 1⟩
def R.LAN_PRBS.CHK (i : Nat) : Fld := ⟨0x500058 + 4096 * i, 30, 1⟩
def R.LAN_PRBS.CHK_LOCK (i : Nat) : Fld := ⟨0x500058 + 4096 * i, 23, 1⟩
def R.LAN_PRBS.PATTERN (i : Nat) : Fld := ⟨0x500058 + 4096 * i, 16, 3⟩
def R.LAN_EVT.EYE_DONE (i : Nat) : Fld := ⟨0x500060 + 4096 * i, 6, 1⟩
def R.LAN_EVT.MARGIN_LOW (i : Nat) : Fld := ⟨0x500060 + 4096 * i, 5, 1⟩
def R.LAN_EVT.EB_ERR (i : Nat) : Fld := ⟨0x500060 + 4096 * i, 4, 1⟩
def R.LAN_EVT.TRAIN_FAIL (i : Nat) : Fld := ⟨0x500060 + 4096 * i, 3, 1⟩
def R.LAN_EVT.AN_FAIL (i : Nat) : Fld := ⟨0x500060 + 4096 * i, 2, 1⟩
def R.LAN_EVT.LINK_DOWN (i : Nat) : Fld := ⟨0x500060 + 4096 * i, 1, 1⟩
def R.LAN_EVT.LINK_UP (i : Nat) : Fld := ⟨0x500060 + 4096 * i, 0, 1⟩
def R.LAN_CNT.COUNT (i j : Nat) : Fld := ⟨0x500100 + 4096 * i + 8 * j, 0, 64⟩
def R.LAN_QPLLA.EN (i : Nat) : Fld := ⟨0x500800 + 16384 * i, 63, 1⟩
def R.LAN_QPLLA.INT (i : Nat) : Fld := ⟨0x500800 + 16384 * i, 32, 8⟩
def R.LAN_QPLLA.FRAC (i : Nat) : Fld := ⟨0x500800 + 16384 * i, 0, 24⟩
def R.LAN_QPLLB.EN (i : Nat) : Fld := ⟨0x500808 + 16384 * i, 63, 1⟩
def R.LAN_QPLLB.INT (i : Nat) : Fld := ⟨0x500808 + 16384 * i, 32, 8⟩
def R.LAN_QPLLB.FRAC (i : Nat) : Fld := ⟨0x500808 + 16384 * i, 0, 24⟩
def R.LAN_QSTATUS.UNLOCK (i : Nat) : Fld := ⟨0x500810 + 16384 * i, 3, 1⟩
def R.LAN_QSTATUS.REF_ACTIVE (i : Nat) : Fld := ⟨0x500810 + 16384 * i, 2, 1⟩
def R.LAN_QSTATUS.LOCK_B (i : Nat) : Fld := ⟨0x500810 + 16384 * i, 1, 1⟩
def R.LAN_QSTATUS.LOCK_A (i : Nat) : Fld := ⟨0x500810 + 16384 * i, 0, 1⟩
def R.PEN_BLOCK_VERSION.MAJOR : Fld := ⟨0x600000, 16, 16⟩
def R.PEN_BLOCK_VERSION.MINOR : Fld := ⟨0x600000, 0, 16⟩
def R.PEN_LEARN_CFG.ISLAND : Fld := ⟨0x600010, 31, 1⟩
def R.PEN_LEARN_CFG.LOCK_DROP : Fld := ⟨0x600010, 30, 1⟩
def R.PEN_LEARN_CFG.MOVE_MAX : Fld := ⟨0x600010, 24, 4⟩
def R.PEN_LEARN_CFG.MOVE_WIN : Fld := ⟨0x600010, 16, 8⟩
def R.PEN_LEARN_CFG.LOCK_TIME : Fld := ⟨0x600010, 0, 16⟩
def R.PEN_AGE_CFG.EN : Fld := ⟨0x600014, 31, 1⟩
def R.PEN_AGE_CFG.AGE_TIME : Fld := ⟨0x600014, 0, 16⟩
def R.PEN_TNB_CFG.HELLO_INT : Fld := ⟨0x600018, 24, 8⟩
def R.PEN_TNB_CFG.MYID : Fld := ⟨0x600018, 0, 20⟩
def R.PEN_BUF_CFG.BANKS : Fld := ⟨0x60001C, 24, 8⟩
def R.PEN_BUF_CFG.ALPHA_LOG2 : Fld := ⟨0x60001C, 20, 4⟩
def R.PEN_BUF_CFG.MINQ : Fld := ⟨0x60001C, 0, 16⟩
def R.PEN_TRUNK_CFG.TRANSIT_MIN : Fld := ⟨0x600020, 16, 16⟩
def R.PEN_TRUNK_CFG.Y_RATE : Fld := ⟨0x600020, 0, 8⟩
def R.PEN_STATUS.REPLICA_STALE : Fld := ⟨0x600024, 31, 1⟩
def R.PEN_STATUS.ARB_UNREACH : Fld := ⟨0x600024, 30, 1⟩
def R.PEN_STATUS.RESYNC : Fld := ⟨0x600024, 29, 1⟩
def R.PEN_STATUS.TNB_REASON : Fld := ⟨0x600024, 20, 4⟩
def R.PEN_STATUS.LQ_FILL : Fld := ⟨0x600024, 0, 13⟩
def R.PEN_BUF_STATUS.BANKS_USED : Fld := ⟨0x600028, 24, 8⟩
def R.PEN_BUF_STATUS.DRAINING : Fld := ⟨0x600028, 16, 8⟩
def R.PEN_BUF_FREE.FREE : Fld := ⟨0x60002C, 0, 18⟩
def R.PEN_EVT.PPS_IN : Fld := ⟨0x600030, 8, 1⟩
def R.PEN_EVT.TS_OVF : Fld := ⟨0x600030, 7, 1⟩
def R.PEN_EVT.RING_ERR : Fld := ⟨0x600030, 6, 1⟩
def R.PEN_EVT.BANK_DRAINED : Fld := ⟨0x600030, 5, 1⟩
def R.PEN_EVT.TNB_DOWN : Fld := ⟨0x600030, 4, 1⟩
def R.PEN_EVT.L2_FULL : Fld := ⟨0x600030, 3, 1⟩
def R.PEN_EVT.LEARN_DROP : Fld := ⟨0x600030, 2, 1⟩
def R.PEN_EVT.MOVE_LOCK : Fld := ⟨0x600030, 1, 1⟩
def R.PEN_L2_CMD.INDEX : Fld := ⟨0x600040, 12, 20⟩
def R.PEN_L2_CMD.OP : Fld := ⟨0x600040, 0, 4⟩
def R.PEN_L2_STATUS.RESULT : Fld := ⟨0x600044, 24, 8⟩
def R.PEN_L2_STATUS.BUSY : Fld := ⟨0x600044, 0, 1⟩
def R.PEN_L2_DATA.WORD (i : Nat) : Fld := ⟨0x600050 + 4 * i, 0, 32⟩
def R.PEN_VLAN_CMD.WRITE : Fld := ⟨0x600060, 31, 1⟩
def R.PEN_VLAN_CMD.INDEX : Fld := ⟨0x600060, 0, 20⟩
def R.PEN_VLAN_DATA.WORD (i : Nat) : Fld := ⟨0x600070 + 4 * i, 0, 32⟩
def R.PEN_NH_CMD.WRITE : Fld := ⟨0x600080, 31, 1⟩
def R.PEN_NH_CMD.INDEX : Fld := ⟨0x600080, 0, 20⟩
def R.PEN_NH_DATA.WORD : Fld := ⟨0x600084, 0, 32⟩
def R.PEN_TIME.SEC : Fld := ⟨0x600090, 32, 32⟩
def R.PEN_TIME.NS : Fld := ⟨0x600090, 0, 32⟩
def R.PEN_TIME_ADJ.VALUE : Fld := ⟨0x600098, 0, 32⟩
def R.PEN_TIME_STEP.VALUE : Fld := ⟨0x60009C, 0, 32⟩
def R.PEN_PPS_CFG.EN : Fld := ⟨0x6000A0, 31, 1⟩
def R.PEN_PPS_CFG.WIDTH : Fld := ⟨0x6000A0, 0, 10⟩
def R.PEN_PPS_IN_TS.TIME : Fld := ⟨0x6000A8, 0, 64⟩
def R.PEN_TS_POP.VALID : Fld := ⟨0x6000B0, 63, 1⟩
def R.PEN_TS_POP.LOST : Fld := ⟨0x6000B0, 62, 1⟩
def R.PEN_TS_POP.PORT : Fld := ⟨0x6000B0, 48, 10⟩
def R.PEN_TS_POP.TAG : Fld := ⟨0x6000B0, 32, 12⟩
def R.PEN_TS_POP.NS : Fld := ⟨0x6000B0, 0, 32⟩
def R.PEN_TS_SEC.SEC : Fld := ⟨0x6000B8, 0, 32⟩
def R.PEN_PORT_CFG.ENABLE (i : Nat) : Fld := ⟨0x600100 + 16 * i, 31, 1⟩
def R.PEN_PORT_CFG.STATE (i : Nat) : Fld := ⟨0x600100 + 16 * i, 29, 2⟩
def R.PEN_PORT_CFG.WIDTH (i : Nat) : Fld := ⟨0x600100 + 16 * i, 27, 2⟩
def R.PEN_PORT_CFG.CUT (i : Nat) : Fld := ⟨0x600100 + 16 * i, 26, 1⟩
def R.PEN_PORT_CFG.PFC_EN (i : Nat) : Fld := ⟨0x600100 + 16 * i, 25, 1⟩
def R.PEN_PORT_CFG.DEF_PCP (i : Nat) : Fld := ⟨0x600100 + 16 * i, 22, 3⟩
def R.PEN_PORT_CFG.SP_FROM (i : Nat) : Fld := ⟨0x600100 + 16 * i, 19, 3⟩
def R.PEN_PORT_CFG.LPI_IDLE (i : Nat) : Fld := ⟨0x600100 + 16 * i, 0, 8⟩
def R.PEN_PORT_L2.TRAP (i : Nat) : Fld := ⟨0x600104 + 16 * i, 31, 1⟩
def R.PEN_PORT_L2.PVID (i : Nat) : Fld := ⟨0x600104 + 16 * i, 16, 12⟩
def R.PEN_PORT_L2.MAX_LEN (i : Nat) : Fld := ⟨0x600104 + 16 * i, 0, 14⟩
def R.PEN_PORT_DLY.TX_DELAY (i : Nat) : Fld := ⟨0x600108 + 16 * i, 16, 16⟩
def R.PEN_PORT_DLY.RX_DELAY (i : Nat) : Fld := ⟨0x600108 + 16 * i, 0, 16⟩
def R.PEN_PORT_STATUS.VER (i : Nat) : Fld := ⟨0x60010C + 16 * i, 24, 8⟩
def R.PEN_PORT_STATUS.HELLO_FAIL (i : Nat) : Fld := ⟨0x60010C + 16 * i, 6, 1⟩
def R.PEN_PORT_STATUS.LOOP (i : Nat) : Fld := ⟨0x60010C + 16 * i, 5, 1⟩
def R.PEN_PORT_STATUS.LPI (i : Nat) : Fld := ⟨0x60010C + 16 * i, 4, 1⟩
def R.PEN_PORT_STATUS.MISMATCH (i : Nat) : Fld := ⟨0x60010C + 16 * i, 3, 1⟩
def R.PEN_PORT_STATUS.LINK (i : Nat) : Fld := ⟨0x60010C + 16 * i, 0, 2⟩
def R.PEN_SCHED.WEIGHT (i : Nat) : Fld := ⟨0x600300 + 8 * i, 0, 64⟩
def R.PEN_FP_CFG.LOOKUP (i : Nat) : Fld := ⟨0x600400 + 4 * i, 31, 1⟩
def R.PEN_FP_CFG.TNB (i : Nat) : Fld := ⟨0x600400 + 4 * i, 30, 1⟩
def R.PEN_FP_CFG.PVID (i : Nat) : Fld := ⟨0x600400 + 4 * i, 16, 12⟩
def R.PEN_RING_BASE.ADDR (i : Nat) : Fld := ⟨0x600500 + 32 * i, 0, 64⟩
def R.PEN_RING_CFG.EN (i : Nat) : Fld := ⟨0x600508 + 32 * i, 31, 1⟩
def R.PEN_RING_CFG.SLOT_LOG2 (i : Nat) : Fld := ⟨0x600508 + 32 * i, 8, 5⟩
def R.PEN_RING_CFG.SIZE_LOG2 (i : Nat) : Fld := ⟨0x600508 + 32 * i, 0, 5⟩
def R.PEN_RING_HEAD.INDEX (i : Nat) : Fld := ⟨0x60050C + 32 * i, 0, 16⟩
def R.PEN_RING_TAIL.INDEX (i : Nat) : Fld := ⟨0x600510 + 32 * i, 0, 16⟩
def R.PEN_RING_STATUS.RESP (i : Nat) : Fld := ⟨0x600514 + 32 * i, 3, 3⟩
def R.PEN_RING_STATUS.ERR (i : Nat) : Fld := ⟨0x600514 + 32 * i, 2, 1⟩
def R.PEN_RING_STATUS.EVT (i : Nat) : Fld := ⟨0x600514 + 32 * i, 1, 1⟩
def R.PEN_CNT.COUNT (i : Nat) : Fld := ⟨0x600800 + 8 * i, 0, 64⟩
def R.PEN_PORT_CNT.COUNT (i j : Nat) : Fld := ⟨0x601000 + 64 * i + 8 * j, 0, 64⟩
def R.SEA_BLOCK_VERSION.MAJOR : Fld := ⟨0x700000, 16, 16⟩
def R.SEA_BLOCK_VERSION.MINOR : Fld := ⟨0x700000, 0, 16⟩
def R.SEA_CTRL.START (i : Nat) : Fld := ⟨0x700010 + 8192 * i, 31, 1⟩
def R.SEA_CTRL.HALT (i : Nat) : Fld := ⟨0x700010 + 8192 * i, 30, 1⟩
def R.SEA_CTRL.MODE (i : Nat) : Fld := ⟨0x700010 + 8192 * i, 0, 1⟩
def R.SEA_ENTRY.PC (i : Nat) : Fld := ⟨0x700014 + 8192 * i, 0, 14⟩
def R.SEA_STATUS.PC (i : Nat) : Fld := ⟨0x700018 + 8192 * i, 16, 14⟩
def R.SEA_STATUS.PEND_START (i : Nat) : Fld := ⟨0x700018 + 8192 * i, 6, 1⟩
def R.SEA_STATUS.IN_ISR (i : Nat) : Fld := ⟨0x700018 + 8192 * i, 5, 1⟩
def R.SEA_STATUS.DMA_BUSY (i : Nat) : Fld := ⟨0x700018 + 8192 * i, 4, 1⟩
def R.SEA_STATUS.STATE (i : Nat) : Fld := ⟨0x700018 + 8192 * i, 0, 3⟩
def R.SEA_ERR.CODE (i : Nat) : Fld := ⟨0x70001C + 8192 * i, 24, 8⟩
def R.SEA_ERR.RESP (i : Nat) : Fld := ⟨0x70001C + 8192 * i, 16, 3⟩
def R.SEA_ERR.CH (i : Nat) : Fld := ⟨0x70001C + 8192 * i, 15, 1⟩
def R.SEA_ERR.PC (i : Nat) : Fld := ⟨0x70001C + 8192 * i, 0, 14⟩
def R.SEA_DOORBELL.RING (i : Nat) : Fld := ⟨0x700020 + 8192 * i, 0, 1⟩
def R.SEA_ECC.DM_CE (i : Nat) : Fld := ⟨0x700024 + 8192 * i, 16, 16⟩
def R.SEA_ECC.PM_CE (i : Nat) : Fld := ⟨0x700024 + 8192 * i, 0, 16⟩
def R.SEA_ECC_TEST.PM (i : Nat) : Fld := ⟨0x700028 + 8192 * i, 9, 1⟩
def R.SEA_ECC_TEST.ARM (i : Nat) : Fld := ⟨0x700028 + 8192 * i, 8, 1⟩
def R.SEA_ECC_TEST.FLIP (i : Nat) : Fld := ⟨0x700028 + 8192 * i, 0, 8⟩
def R.SEA_CNT_CYCLE.COUNT (i : Nat) : Fld := ⟨0x700030 + 8192 * i, 0, 64⟩
def R.SEA_CNT_ISSUE.COUNT (i : Nat) : Fld := ⟨0x700038 + 8192 * i, 0, 64⟩
def R.SEA_CNT_STALL.COUNT (i : Nat) : Fld := ⟨0x700040 + 8192 * i, 0, 64⟩
def R.SEA_CNT_WAIT.COUNT (i : Nat) : Fld := ⟨0x700048 + 8192 * i, 0, 64⟩
def R.SEA_CNT_DMABYTES.COUNT (i : Nat) : Fld := ⟨0x700050 + 8192 * i, 0, 64⟩
def R.SEA_EVT_DONE.DONE : Fld := ⟨0x701000, 0, 48⟩
def R.SEA_EVT_ERR.ERR : Fld := ⟨0x701008, 0, 48⟩
def R.DFD_BLOCK_VERSION.MAJOR : Fld := ⟨0x800000, 16, 16⟩
def R.DFD_BLOCK_VERSION.MINOR : Fld := ⟨0x800000, 0, 16⟩
def R.DFD_CTRL.ENABLE : Fld := ⟨0x800010, 0, 1⟩
def R.DFD_STATUS.READY : Fld := ⟨0x800014, 16, 13⟩
def R.DFD_STATUS.TICKET_FULL : Fld := ⟨0x800014, 15, 1⟩
def R.DFD_STATUS.ORDER_LOST : Fld := ⟨0x800014, 14, 1⟩
def R.DFD_STATUS.STATE : Fld := ⟨0x800014, 12, 2⟩
def R.DFD_STATUS.TICKETS : Fld := ⟨0x800014, 0, 10⟩
def R.DFD_POLICY.ERR_OFF : Fld := ⟨0x800018, 8, 3⟩
def R.DFD_POLICY.AFFINITY : Fld := ⟨0x800018, 0, 3⟩
def R.DFD_TOKEN.TOKEN : Fld := ⟨0x800020, 0, 64⟩
def R.DFD_CMD.OWNER : Fld := ⟨0x800028, 20, 12⟩
def R.DFD_CMD.OP : Fld := ⟨0x800028, 16, 4⟩
def R.DFD_CMD.ARG : Fld := ⟨0x800028, 0, 16⟩
def R.DFD_CMD_STATUS.RESULT : Fld := ⟨0x80002C, 24, 8⟩
def R.DFD_EPOCH.EPOCH : Fld := ⟨0x800030, 0, 32⟩
def R.DFD_EPOCH_CTRL.SCOPE : Fld := ⟨0x800034, 31, 1⟩
def R.DFD_EPOCH_CTRL.TMO : Fld := ⟨0x800034, 0, 16⟩
def R.DFD_EPOCH_STATUS.STATE : Fld := ⟨0x800038, 30, 2⟩
def R.DFD_EPOCH_STATUS.SLOW : Fld := ⟨0x800038, 29, 1⟩
def R.DFD_EPOCH_STATUS.RESIDUAL : Fld := ⟨0x800038, 0, 14⟩
def R.DFD_SPILL_BASE.BASE : Fld := ⟨0x800040, 0, 64⟩
def R.DFD_SPILL_CFG.EN : Fld := ⟨0x800048, 31, 1⟩
def R.DFD_SPILL_CFG.ERR : Fld := ⟨0x800048, 30, 1⟩
def R.DFD_SPILL_CFG.SIZE_LOG2 : Fld := ⟨0x800048, 0, 5⟩
def R.DFD_SPILL_FILL.FILL (i : Nat) : Fld := ⟨0x800050 + 4 * i, 0, 25⟩
def R.DFD_UNIT_EN_SE.EN : Fld := ⟨0x800080, 0, 48⟩
def R.DFD_UNIT_EN_KS.EN : Fld := ⟨0x800088, 0, 64⟩
def R.DFD_UNIT_EN_CORE.EN : Fld := ⟨0x800090, 0, 4⟩
def R.DFD_UNIT_BUSY_SE.BUSY : Fld := ⟨0x800098, 0, 64⟩
def R.DFD_UNIT_BUSY_KS.BUSY : Fld := ⟨0x8000A0, 0, 64⟩
def R.DFD_ERR_LOG.VALID : Fld := ⟨0x8000A8, 63, 1⟩
def R.DFD_ERR_LOG.KIND : Fld := ⟨0x8000A8, 56, 3⟩
def R.DFD_ERR_LOG.UNIT : Fld := ⟨0x8000A8, 48, 8⟩
def R.DFD_ERR_LOG.TICKET : Fld := ⟨0x8000A8, 32, 16⟩
def R.DFD_ERR_LOG.OPID : Fld := ⟨0x8000A8, 0, 13⟩
def R.DFD_EVT.STOPPED : Fld := ⟨0x8000B0, 9, 1⟩
def R.DFD_EVT.CQ_REVOKE : Fld := ⟨0x8000B0, 8, 1⟩
def R.DFD_EVT.CQ_READY : Fld := ⟨0x8000B0, 7, 1⟩
def R.DFD_EVT.EPOCH_SLOW : Fld := ⟨0x8000B0, 6, 1⟩
def R.DFD_EVT.EPOCH_DONE : Fld := ⟨0x8000B0, 5, 1⟩
def R.DFD_EVT.FWD_ERR : Fld := ⟨0x8000B0, 4, 1⟩
def R.DFD_EVT.SPILL_ERR : Fld := ⟨0x8000B0, 3, 1⟩
def R.DFD_EVT.SPILL : Fld := ⟨0x8000B0, 2, 1⟩
def R.DFD_EVT.TOK_ERR : Fld := ⟨0x8000B0, 1, 1⟩
def R.DFD_EVT.OP_ERR : Fld := ⟨0x8000B0, 0, 1⟩
def R.DFD_CNT.COUNT (i : Nat) : Fld := ⟨0x800100 + 8 * i, 0, 64⟩
def R.DFD_CQ_CFG.EN (i : Nat) : Fld := ⟨0x801000 + 256 * i, 31, 1⟩
def R.DFD_CQ_CFG.FLUSH (i : Nat) : Fld := ⟨0x801000 + 256 * i, 30, 1⟩
def R.DFD_CQ_CFG.QDEPTH (i : Nat) : Fld := ⟨0x801000 + 256 * i, 0, 5⟩
def R.DFD_CQ_STATUS.REVOKED (i : Nat) : Fld := ⟨0x801004 + 256 * i, 16, 16⟩
def R.DFD_CQ_STATUS.REVOKE (i : Nat) : Fld := ⟨0x801004 + 256 * i, 15, 1⟩
def R.DFD_CQ_STATUS.HELD (i : Nat) : Fld := ⟨0x801004 + 256 * i, 5, 5⟩
def R.DFD_CQ_STATUS.WAITING (i : Nat) : Fld := ⟨0x801004 + 256 * i, 0, 5⟩
def R.DFD_CQ_POP.VALID (i : Nat) : Fld := ⟨0x801008 + 256 * i, 63, 1⟩
def R.DFD_CQ_POP.TICKET (i : Nat) : Fld := ⟨0x801008 + 256 * i, 32, 16⟩
def R.DFD_CQ_POP.OPID (i : Nat) : Fld := ⟨0x801008 + 256 * i, 0, 13⟩
def R.DFD_CQ_CPL.STATUS (i : Nat) : Fld := ⟨0x801010 + 256 * i, 30, 2⟩
def R.DFD_CQ_CPL.NTOK (i : Nat) : Fld := ⟨0x801010 + 256 * i, 27, 3⟩
def R.DFD_CQ_CPL.TICKET (i : Nat) : Fld := ⟨0x801010 + 256 * i, 0, 16⟩
def R.DFD_CQ_DESC.WORD (i j : Nat) : Fld := ⟨0x801020 + 256 * i + 4 * j, 0, 32⟩
def R.DFD_CQ_TOK.TOKEN (i j : Nat) : Fld := ⟨0x801040 + 256 * i + 8 * j, 0, 64⟩
def R.DFD_OPSTATE.DEFER (i : Nat) : Fld := ⟨0x810000 + 4 * i, 24, 8⟩
def R.DFD_OPSTATE.OUTST (i : Nat) : Fld := ⟨0x810000 + 4 * i, 16, 8⟩
def R.DFD_OPSTATE.COUNT (i : Nat) : Fld := ⟨0x810000 + 4 * i, 0, 16⟩
def R.DFD_OPDESC.WORD (i j : Nat) : Fld := ⟨0x840000 + 32 * i + 4 * j, 0, 32⟩
def R.APC_BLOCK_VERSION.MAJOR : Fld := ⟨0x900000, 16, 16⟩
def R.APC_BLOCK_VERSION.MINOR : Fld := ⟨0x900000, 0, 16⟩
def R.APC_BOOT.ADDR (i : Nat) : Fld := ⟨0x900010 + 8 * i, 0, 54⟩
def R.APC_RELEASE.CORES : Fld := ⟨0x900030, 0, 4⟩
def R.APC_STATUS.STATE : Fld := ⟨0x900034, 0, 12⟩
def R.APC_ECC.CE : Fld := ⟨0x900038, 16, 16⟩
def R.APC_ECC.UE : Fld := ⟨0x900038, 0, 16⟩
def R.APC_EVT.UE : Fld := ⟨0x90003C, 1, 1⟩
def R.APC_EVT.CE : Fld := ⟨0x90003C, 0, 1⟩
def R.APC_MSIP.MSIP (i : Nat) : Fld := ⟨0x910000 + 4 * i, 0, 1⟩
def R.APC_MTIMECMP.CMP (i : Nat) : Fld := ⟨0x918000 + 8 * i, 0, 64⟩
def R.APC_MTIME.TIME : Fld := ⟨0x91FFF8, 0, 64⟩
def R.FAB_BLOCK_VERSION.MAJOR : Fld := ⟨0xA00000, 16, 16⟩
def R.FAB_BLOCK_VERSION.MINOR : Fld := ⟨0xA00000, 0, 16⟩
def R.FAB_PFIFO_STATUS.FILL (i : Nat) : Fld := ⟨0xA00100 + 4 * i, 16, 10⟩
def R.FAB_PFIFO_STATUS.FRAMING (i : Nat) : Fld := ⟨0xA00100 + 4 * i, 3, 1⟩
def R.FAB_PFIFO_STATUS.POISON_SEEN (i : Nat) : Fld := ⟨0xA00100 + 4 * i, 2, 1⟩
def R.FAB_PFIFO_STATUS.CLK_RUN (i : Nat) : Fld := ⟨0xA00100 + 4 * i, 1, 1⟩
def R.FAB_PFIFO_STATUS.USED (i : Nat) : Fld := ⟨0xA00100 + 4 * i, 0, 1⟩
def R.FAB_PFIFO_AFULL.TH (i : Nat) : Fld := ⟨0xA00140 + 4 * i, 0, 9⟩
def R.FAB_PFIFO_DROP.FRAMES (i : Nat) : Fld := ⟨0xA00180 + 8 * i, 0, 64⟩
def R.FAB_KSLOT_CFG.PORTMASK (i : Nat) : Fld := ⟨0xA00400 + 16 * i, 32, 32⟩
def R.FAB_KSLOT_CFG.KTYPE (i : Nat) : Fld := ⟨0xA00400 + 16 * i, 16, 16⟩
def R.FAB_KSLOT_CFG.DECLARED (i : Nat) : Fld := ⟨0xA00400 + 16 * i, 0, 1⟩
def R.FAB_KSLOT_STATUS.BAD_CPL (i : Nat) : Fld := ⟨0xA00408 + 16 * i, 8, 8⟩
def R.FAB_KSLOT_STATUS.OUTST (i : Nat) : Fld := ⟨0xA00408 + 16 * i, 4, 2⟩
def R.FAB_KSLOT_STATUS.IDLE (i : Nat) : Fld := ⟨0xA00408 + 16 * i, 3, 1⟩
def R.FAB_KSLOT_STATUS.STATE (i : Nat) : Fld := ⟨0xA00408 + 16 * i, 0, 3⟩
def R.FAB_NOCP_WIN.TARGET (i : Nat) : Fld := ⟨0xA00800 + 16 * i, 31, 1⟩
def R.FAB_NOCP_WIN.SIZE_LOG2 (i : Nat) : Fld := ⟨0xA00800 + 16 * i, 16, 5⟩
def R.FAB_NOCP_WIN.BASE (i : Nat) : Fld := ⟨0xA00800 + 16 * i, 0, 11⟩
def R.FAB_NOCP_STATUS.RID (i : Nat) : Fld := ⟨0xA00804 + 16 * i, 20, 12⟩
def R.FAB_NOCP_STATUS.STALLED (i : Nat) : Fld := ⟨0xA00804 + 16 * i, 16, 1⟩
def R.FAB_NOCP_STATUS.OUTST (i : Nat) : Fld := ⟨0xA00804 + 16 * i, 0, 9⟩
def R.FAB_XING_STATUS.LINK_UP : Fld := ⟨0xA00F00, 4, 4⟩
def R.FAB_XING_STATUS.UNDERRUN : Fld := ⟨0xA00F00, 0, 4⟩
def R.FAB_PR_GEOM.VALID (i : Nat) : Fld := ⟨0xA01000 + 32 * i, 31, 1⟩
def R.FAB_PR_GEOM.ROW_HI (i : Nat) : Fld := ⟨0xA01000 + 32 * i, 24, 4⟩
def R.FAB_PR_GEOM.ROW_LO (i : Nat) : Fld := ⟨0xA01000 + 32 * i, 16, 4⟩
def R.FAB_PR_GEOM.FC_HI (i : Nat) : Fld := ⟨0xA01000 + 32 * i, 8, 7⟩
def R.FAB_PR_GEOM.FC_LO (i : Nat) : Fld := ⟨0xA01000 + 32 * i, 0, 7⟩
def R.FAB_PR_KSLOT.SLOTS (i : Nat) : Fld := ⟨0xA01008 + 32 * i, 0, 64⟩
def R.FAB_PR_NOCP.PORTS (i : Nat) : Fld := ⟨0xA01010 + 32 * i, 0, 32⟩
def R.FAB_PR_PFIFO.PAIRS (i : Nat) : Fld := ⟨0xA01014 + 32 * i, 0, 8⟩
def R.FAB_PR_CTRL.FENCE (i : Nat) : Fld := ⟨0xA01018 + 32 * i, 31, 1⟩
def R.FAB_PR_CTRL.MODE (i : Nat) : Fld := ⟨0xA01018 + 32 * i, 29, 2⟩
def R.FAB_PR_CTRL.TMO (i : Nat) : Fld := ⟨0xA01018 + 32 * i, 0, 12⟩
def R.FAB_PR_STATUS.TIMEOUT (i : Nat) : Fld := ⟨0xA0101C + 32 * i, 18, 1⟩
def R.FAB_PR_STATUS.PENDING (i : Nat) : Fld := ⟨0xA0101C + 32 * i, 17, 1⟩
def R.FAB_PR_STATUS.REPLACED (i : Nat) : Fld := ⟨0xA0101C + 32 * i, 16, 1⟩
def R.FAB_PR_STATUS.STATE (i : Nat) : Fld := ⟨0xA0101C + 32 * i, 0, 3⟩
def R.SNT_BLOCK_VERSION.MAJOR : Fld := ⟨0xF00000, 16, 16⟩
def R.SNT_BLOCK_VERSION.MINOR : Fld := ⟨0xF00000, 0, 16⟩
def R.SNT_BEGIN.SCOPE : Fld := ⟨0xF00010, 0, 1⟩
def R.SNT_COMMIT.GO : Fld := ⟨0xF00014, 0, 1⟩
def R.SNT_ROLLBACK.GO : Fld := ⟨0xF00018, 0, 1⟩
def R.SNT_STATUS.RESULT : Fld := ⟨0xF0001C, 29, 3⟩
def R.SNT_STATUS.INTRUDED : Fld := ⟨0xF0001C, 28, 1⟩
def R.SNT_STATUS.SCOPE : Fld := ⟨0xF0001C, 27, 1⟩
def R.SNT_STATUS.STATE : Fld := ⟨0xF0001C, 25, 2⟩
def R.SNT_STATUS.COUNT : Fld := ⟨0xF0001C, 16, 9⟩
def R.SNT_STATUS.OWNER : Fld := ⟨0xF0001C, 0, 12⟩
def R.SNT_CFG.TMO : Fld := ⟨0xF00020, 0, 16⟩
def R.SNT_FAIL.DIE : Fld := ⟨0xF00024, 24, 3⟩
def R.SNT_FAIL.OFFSET : Fld := ⟨0xF00024, 0, 24⟩

end Sys2Proof.Machine
end

