-- ==== Sys2Proof/Machine/SMap.lean ====
section
/-!
DEFINITION. Sparse maps in one canonical form: a list of (key, value) pairs whose keys strictly rise and in which no
pair holds the value that an unlisted key reads as. Register cells, memories, tables and per-unit state are all held
this way, so that equal contents are equal data.
-/

namespace Sys2Proof.Machine

/-- A sparse map from natural keys. -/
abbrev SMap (α : Type) := List (Nat × α)

/-- The listed value of a key, if any. -/
def SMap.look {α : Type} : SMap α → Nat → Option α
  | [], _ => none
  | (k', v) :: m, k => if k' = k then some v else SMap.look m k

/-- What a key reads as: its listed value, or the value `f k` that an unlisted key has. -/
def SMap.get {α : Type} (f : Nat → α) (m : SMap α) (k : Nat) : α := (SMap.look m k).getD (f k)

/-- Remove a key. -/
def SMap.del {α : Type} : SMap α → Nat → SMap α
  | [], _ => []
  | (k', v) :: m, k => if k' = k then m else (k', v) :: SMap.del m k

/-- List a value under a key, in key order. -/
def SMap.put {α : Type} : SMap α → Nat → α → SMap α
  | [], k, v => [(k, v)]
  | (k', v') :: m, k, v =>
    if k < k' then (k, v) :: (k', v') :: m
    else if k' = k then (k, v) :: m
    else (k', v') :: SMap.put m k v

/-- Write a value under a key: the value an unlisted key reads as is not listed. -/
def SMap.set {α : Type} [DecidableEq α] (f : Nat → α) (m : SMap α) (k : Nat) (v : α) : SMap α :=
  if v = f k then SMap.del m k else SMap.put m k v

/-- Keep the entries whose key satisfies `p`; every other key falls back to what an unlisted key reads as. -/
def SMap.keep {α : Type} (m : SMap α) (p : Nat → Bool) : SMap α := m.filter (fun e => p e.1)

/-- Every listed key is above `k`. -/
def SMap.above {α : Type} (k : Nat) (m : SMap α) : Bool := m.all (fun e => decide (k < e.1))

/-- The canonical form: keys strictly rise and no entry equals what an unlisted key reads as. -/
def SMap.wf {α : Type} [DecidableEq α] (f : Nat → α) : SMap α → Bool
  | [] => true
  | (k, v) :: m => SMap.above k m && decide (v ≠ f k) && SMap.wf f m

end Sys2Proof.Machine
end

