-- ==== Sys2Proof/Machine/State.lean ====
section
/-!
DEFINITION. The state of the part, as plain data: the queue of waiting commands, the register cells of every die, and
every other piece of state the section files of spec/ give the machine; the reasons a step can stop; and the state right
after reset.
-/

namespace Sys2Proof.Machine

/-! ## Clocks (02_clocks) -/

/-- Where a glitch-free switch stands (R35, R50, R53): idle, waiting for a low phase of the old input, or of the new. -/
inductive SwStep where
  | idle | oldLow | newLow
  deriving DecidableEq, Repr

/-- A glitch-free mux: its step and the input it is switching to. -/
structure MuxSt where
  step : SwStep
  dst  : Nat
  deriving DecidableEq, Repr

def MuxSt.reset : MuxSt := ⟨.idle, 0⟩

/-- The clock state of a die that no register shows. -/
structure ClkSt where
  ref        : MuxSt
  /-- The root has been LOCKED since it last left OFF, so the hard clocks run (R40). -/
  everLocked : Bool
  /-- PKGREF is active, and qualified: CLK_REF_STATUS shows inputs 0 to 3 only (R32, R34). -/
  pkgActive  : Bool
  pkgQual    : Bool
  /-- Bit n: input n has been active for QUAL_TIME (R34). -/
  timed      : BitVec 5
  /-- Bit n: the last frequency measurement of input n passed (R34). -/
  measOk     : BitVec 5
  /-- Bit n: input n became active after the frequency measurement that now runs had begun (R34). -/
  late       : BitVec 5
  /-- The PLL entered HOLDOVER while AUTO was 1, and has not left it: the hardware chooses the next input (R39). -/
  autoPend   : Bool
  /-- Bit n: the measurement of user PLL n's input was good (R51). -/
  upllGood   : BitVec 8
  deriving DecidableEq, Repr

def ClkSt.reset : ClkSt := ⟨.reset, false, false, false, 0, 0, 0, false, 0⟩

/-- A fabric clock mux CKMUX2 (R53): its ports, the input it passes and its switch. -/
structure CkMux2 where
  sel   : Bool
  force : Bool
  /-- The input that O follows; with `sw` at `newLow`, or stuck, O is held low and this is the old input. -/
  cur   : Bool
  sw    : SwStep
  stuck : Bool
  deriving DecidableEq, Repr

def CkMux2.reset : CkMux2 := ⟨false, false, false, .idle, false⟩

/-! ## Reset and start-up (03_reset_and_startup) -/

/-- The scopes of R59, from the widest. -/
inductive Scope where
  | power | device | reconfig | blocks
  deriving DecidableEq, Repr

/-- The width of a scope: a smaller number is wider. -/
def Scope.rank : Scope → Nat
  | .power => 0 | .device => 1 | .reconfig => 2 | .blocks => 3

/-- The start-up state of the device that no register shows. -/
structure BootSt where
  /-- A reset of this scope is in progress: POWER until power-on reset releases, RECONFIG while PROG_N is low (R56, R72). -/
  inReset    : Option Scope
  /-- Configuration memory has been cleared in this pass through HOUSEKEEP (R66). -/
  cleared    : Bool
  /-- Heater hold is to be judged on this pass: not after the internal reset of R99 (R69). -/
  judgeHeat  : Bool
  /-- Tamper during start-up or running has put the device into Lockdown (R78, R135). -/
  lockdown   : Bool
  straps     : Straps
  /-- The image that IEEE 1532 programming has delivered (R71, R86). -/
  jtag       : Option (List Byte)
  /-- MODE[2:0] has been sampled in this start and is not sampled again (R99). -/
  modeHeld   : Bool
  /-- A load of this start has failed, and the Parser has not begun to read again (R70). -/
  failed     : Bool
  /-- This start loads from the warm images (R108), and the Parsers may read them (R109). -/
  warm       : Bool
  warmReady  : Bool
  deriving DecidableEq, Repr

/-! ## The control plane (17_processors_and_control) -/

/-- The high half held for a pair (R433): the requester and the held word. -/
structure Hold where
  rid : Nat
  hi  : Word
  deriving DecidableEq, Repr

/-- One source in one die's event controller (R426, R427). -/
structure EvSrc where
  level   : Bool
  pending : Bool
  claimed : Bool
  held    : Bool
  deriving DecidableEq, Repr

def EvSrc.reset : EvSrc := ⟨false, false, false, false⟩

/-- One staged register of a sentence (R436): its offset, the staged value of its RWS fields, and the applied value
when it was first staged, against which a conflict is judged (R437). -/
structure SntEntry where
  off  : Nat
  val  : Nat
  seen : Nat
  deriving DecidableEq, Repr

/-- The sentence engine of a die that no register shows: the staged registers in staging order, the first register that another
requester wrote or that was written while the commit was in progress (R437), and the owner. -/
structure SntSt where
  entries : List SntEntry
  clash   : Option Nat
  owner   : Master
  deriving DecidableEq, Repr

def SntSt.reset : SntSt := ⟨[], none, ⟨.coreM, 0⟩⟩

/-- The mailbox service a die's management controller is running (R431): its command code. -/
abbrev MboxSt := Option Nat

/-! ## The power ladder and the thermal plant (18_power_thermal_monitors) -/

/-- A die's ladder state beyond PWR_STATUS (R442 to R446). -/
structure LadSt where
  /-- The state now being entered. -/
  goal    : Nat
  /-- Step 2 of R443 is done and the supplies are moving. -/
  drained : Bool
  /-- The request latched in PEND (R446). -/
  latched : Option Nat
  /-- The wake source of a latched wake, for LAST_WAKE. -/
  src     : Nat
  /-- The wake timer runs: the die has left RUN and it has not fired (R444). -/
  timer   : Bool
  /-- The request came from a thermal trip and waits for no blocker (R451). -/
  trip    : Bool
  /-- A COLON exit is between its GSR, GWE and CORE steps (R445): 0 none, 1 GSR done, 2 GWE done. -/
  colon   : Nat
  /-- The blocks that a cause of BLOCKS scope holds now (R65), and those it is to hold once the die is in RUN (R63). -/
  blocks  : Nat
  later   : Nat
  /-- The blocks whose bit is clear and whose release waits for their gate to open (R65). -/
  gated   : Nat
  deriving DecidableEq, Repr

def LadSt.reset : LadSt := ⟨0, false, none, 0, false, false, 0, 0, 0, 0⟩

/-- One fan of the plant (R449): the 100 ms steps since its state changed, and its failed tries in a row. -/
structure Fan where
  ticks : Nat
  tries : Nat
  deriving DecidableEq, Repr

/-- The thermal plant beyond its registers (R449 to R451). -/
structure ThmSt where
  /-- The integral term, in thousandths of a percent. -/
  integral : Int
  /-- The common duty before the fans' states are applied, in thousandths of a percent. -/
  duty     : Int
  fan0     : Fan
  fan1     : Fan
  /-- 100 ms steps since HEATER_EN last changed. -/
  heatTicks : Nat
  deriving DecidableEq, Repr

def ThmSt.reset : ThmSt := ⟨0, 0, ⟨0, 0⟩, ⟨0, 0⟩, 0⟩

/-- A profile monitor's running window (R453), whose results reach the read registers when it ends. -/
structure MonWin where
  min   : Nat
  max   : Nat
  count : Nat
  sum   : Nat
  hist  : SMap Nat
  deriving DecidableEq, Repr

def MonWin.reset : MonWin := ⟨0xFFFFFFFF, 0, 0, 0, []⟩

/-! ## The Parser and image management (04_configuration) -/

/-- A die with no image. -/
def DieDesign.empty : DieDesign := ⟨[], [], [], 0, [], [], [], [], [], [], [], [], [], [], [], [], [], [], []⟩

/-- Where an image comes from (R86, R88, R203): a flash slot, JTAG, a memory address, or the warm images. -/
inductive ImgSrc where
  | none | slot (n : Nat) | jtag | mem (addr : Nat) | warm
  deriving DecidableEq, Repr

/-- What a pass through an image is for: a start-up load, a partial load, a flash pass that repairs frames, a check that writes
nothing, or a warm build. `finished` is a command's pass that is over and whose command has not ended. -/
inductive LoadKind where
  | idle | full | partialLoad | flashPass | verify | warmBuild | finished
  deriving DecidableEq, Repr

/-- A pass of the Parsers through an image (R86 to R98). -/
structure ParseSt where
  kind    : LoadKind
  src     : ImgSrc
  /-- The header has passed its checks, and its bytes. -/
  hdrDone : Bool
  hdr     : List Byte
  /-- Offset of the next segment from the image's first byte, its index, and the hash it must have. -/
  pos     : Nat
  seg     : Nat
  next    : BitVec 384
  lastSeg : Bool
  /-- Record bytes that have arrived and are not yet used. -/
  buf     : List Byte
  ended   : Bool
  wake    : Option (Nat × Nat)
  /-- Frames written, signatures and map words received by this pass, by die and frame address (R94, R95). -/
  written : SMap Bool
  sigSeen : SMap Bool
  /-- Index of the public-key hash that verified the image, if one of the fuses did (R120). -/
  pk      : Option Nat
  /-- The error a command's pass has ended with (R104). -/
  finErr  : Option Nat
  /-- By die, the words of the REG and WAKE records that a warm build has still to write (R105). -/
  regs    : SMap (List Word)
  /-- What END said that the image's frames declare (R93), and the dies that a partial load has come to (R206). -/
  design  : List (Nat × DieDesign)
  touched : BitVec 8
  /-- The frames that the stream of a flash pass has carried, by die and frame address (R213). -/
  passed  : SMap (List DWord)
  deriving DecidableEq, Repr

def ParseSt.reset : ParseSt :=
  ⟨.idle, .none, false, [], 0, 0, 0, false, [], false, none, [], [], none, none, [], [], 0, []⟩

/-- The image that runs: its source, its IMAGE_VERSION, SVN and FLAGS, and the hash of its header, which fixes every byte of
it (R106, R122). -/
structure RunImg where
  src     : ImgSrc
  version : Nat
  svn     : Nat
  warm    : Bool
  hdrHash : BitVec 384
  pk      : Option Nat
  deriving DecidableEq, Repr

def RunImg.reset : RunImg := ⟨.none, 0, 0, false, 0, none⟩

/-- The boot record in force (R84). -/
structure BootRec where
  seq      : Nat
  active   : Nat
  previous : Nat
  pending  : Bool
  trials   : Nat
  freq     : Nat
  aBase : Nat
  aSize : Nat
  bBase : Nat
  bSize : Nat
  gBase : Nat
  gSize : Nat
  deriving DecidableEq, Repr

/-- A die's warm image in its always-on domain (R106, R109, R206): the digest, the warm access state as register offsets and
values, the regions that hold a replaced design, whether a partial load is to set VALID again, which image the region holds, and
what its frames declare (R93). -/
structure WarmSt where
  digest  : BitVec 384
  access  : List (Nat × Nat)
  marks   : BitVec 32
  refresh : Bool
  run     : RunImg
  design  : DieDesign
  deriving DecidableEq, Repr

def WarmSt.reset : WarmSt := ⟨0, [], 0, false, .reset, DieDesign.empty⟩

/-- The flash controller (R80, R81, R110): the devices as last read, whether they are set up, the operation that runs, and the boot
record and slot plan of this start. -/
structure FlashSt where
  dev0  : Sfdp
  dev1  : Sfdp
  ready : Bool
  op    : Nat
  addr  : Nat
  len   : Nat
  mem   : Nat
  /-- The sectors or pages of the operation that are done; the next one is busy. -/
  done  : Nat
  br    : Option BootRec
  /-- The slots still to try at this start (R99, R100); none before the plan is made. -/
  plan  : Option (List Nat)
  deriving DecidableEq, Repr

def FlashSt.reset : FlashSt := ⟨⟨false, 0, 0, 0, 0⟩, ⟨false, 0, 0, 0, 0⟩, false, 0, 0, 0, 0, 0, none, none⟩

/-! ## Keys and life cycle (05_security) -/

/-- A public-key hash in the fuses: its bits, and its check word once that is blown (R120). -/
structure PkFuse where
  hash : BitVec 384
  chk  : Option Word
  deriving DecidableEq, Repr

/-- The fuses (R118 to R123, R126, R133). -/
structure Fuses where
  lc       : BitVec 8
  pk0      : PkFuse
  pk1      : PkFuse
  pk2      : PkFuse
  pk3      : PkFuse
  revoke   : BitVec 3
  svn      : Nat
  key      : BitVec 256
  keyChk   : Option Word
  kill     : Bool
  enrolled : Bool
  policy   : BitVec 20
  devId    : DWord
  deriving DecidableEq, Repr

def Fuses.blank : Fuses := ⟨0, ⟨0, none⟩, ⟨0, none⟩, ⟨0, none⟩, ⟨0, none⟩, 0, 0, 0, none, false, false, 0, 0⟩

/-- A BBRAM slot (R124). -/
structure BbSlot where
  key      : BitVec 256
  version  : Word
  icode    : Word
  sentinel : DWord
  deriving DecidableEq, Repr

def BbSlot.zero : BbSlot := ⟨0, 0, 0, 0⟩

/-- The security controller beyond its registers (R124 to R137). -/
structure SecSt where
  fuses   : Fuses
  bb0     : BbSlot
  bb1     : BbSlot
  /-- The command running and its argument. -/
  cmd     : Option (Nat × Nat)
  /-- The nonce last shifted out and whether a response to it has come (R128). -/
  nonce   : Option (BitVec 128)
  used    : Bool
  /-- The response being verified. -/
  resp    : Option (BitVec 784)
  /-- SEC_BBRAM_LOST has been raised since power-on (R126). -/
  lostTold : Bool
  /-- The battery domain runs from VBAT (R447), and the bulk erase of Lockdown is running (R135). -/
  vault   : Bool
  erasing : Bool
  /-- The response to a tamper event in RUN has begun; whether it still runs, `respRuns` says (R136). -/
  respond : Bool
  deriving DecidableEq, Repr

def SecSt.reset : SecSt := ⟨.blank, .zero, .zero, none, none, false, none, false, false, false, false⟩

/-! ## The fabric (06_logic_fabric, 07_fabric_memory_and_arithmetic, 08_reconfiguration_and_upsets) -/

/-- How a die's output pins stand (R158). -/
inductive PinMode where
  | highZ | fabric | sleep
  deriving DecidableEq, Repr

/-- A block memory: its bytes with their extra bits, and per port the data latch, the output register and the flags
(corrected, uncorrectable, poison) that go with each (R168 to R171). -/
structure Bmem where
  cells  : SMap (BitVec 9)
  latchA : BitVec 72
  latchB : BitVec 72
  outA   : BitVec 72
  outB   : BitVec 72
  flagA  : BitVec 3
  flagB  : BitVec 3
  oflagA : BitVec 3
  oflagB : BitVec 3
  deriving DecidableEq, Repr

def Bmem.reset : Bmem := ⟨[], 0, 0, 0, 0, 0, 0, 0, 0⟩

/-- One port's part of a cascade chain (R174): the block whose latch, and whose output register, holds the last word read, and the words
with their flags in the cycles that the chain adds, newest first. -/
structure ChainPort where
  selL  : Fin 16
  selO  : Fin 16
  stage : List (BitVec 72 × BitVec 3)
  deriving DecidableEq, Repr

/-- A cascade chain (R174), kept at the site of its lowest block. -/
structure ChainSt where
  a : ChainPort
  b : ChainPort
  deriving DecidableEq, Repr

def ChainSt.reset : ChainSt := ⟨⟨0, 0, []⟩, ⟨0, 0, []⟩⟩

/-- The registers of an I/O cell (R154, R156): input, output and enable flip-flops for the rising and the falling edge, the serialiser and
deserialiser, the delays in taps, whether the output is enabled, and the level driven last, which a keeper holds (R158). -/
structure IoCell where
  inA    : Bool
  inB    : Bool
  outA   : Bool
  outB   : Bool
  oeA    : Bool
  oeB    : Bool
  ser    : Byte
  des    : Byte
  inTap  : Fin 512
  outTap : Fin 512
  on     : Bool
  keep   : Bool
  deriving DecidableEq, Repr

def IoCell.reset : IoCell := ⟨false, false, false, false, false, false, 0, 0, 0, 0, false, false⟩

/-- An arithmetic slice's registers (R176): the input stages, the pre-adder, the multiplier, the accumulator with its overflow, and the
narrow stage. ACC_FN and SHIFT pass through the register of each stage before the one they act in (R180's example). -/
structure Arith where
  a1   : BitVec 26
  a2   : BitVec 26
  b1   : BitVec 22
  b2   : BitVec 22
  c1   : BitVec 64
  d1   : BitVec 26
  acc1 : Fin 8
  pre1 : Fin 4
  sh1  : BitVec 6
  ad   : BitVec 26
  acc2 : Fin 8
  sh2  : BitVec 6
  m    : BitVec 48
  acc3 : Fin 8
  sh3  : BitVec 6
  p    : BitVec 64
  sh4  : BitVec 6
  ovf  : Bool
  o    : BitVec 48
  lsc  : BitVec 6
  oOvf : Bool
  deriving DecidableEq, Repr

def Arith.reset : Arith := ⟨0, 0, 0, 0, 0, 0, 0, 0, 0, 0, 0, 0, 0, 0, 0, 0, 0, false, 0, 0, false⟩

/-- A die's snapshot (R159, R161, R163): the flip-flops that held 1, the block-memory output registers that were not 0, the
regions fenced at the capture edge, whose shadows are undefined, and the count that names their free values; whether the
capture edge has passed and STATE does not show it yet, and the time at it. -/
structure Snap where
  ffs    : SMap Bool
  outs   : SMap (BitVec 144)
  fenced : List RegionDecl
  epoch  : Nat
  taken  : Bool
  time   : DWord
  deriving DecidableEq, Repr

def Snap.reset : Snap := ⟨[], [], [], 0, false, 0⟩

/-- A running readback (R165): the frames, destination and CAPTURE it was started with, the frames it has moved, and the count that names
the free contents of dynamic frames. -/
structure RbSt where
  fa      : Nat
  count   : Nat
  dest    : Nat
  capture : Bool
  done    : Nat
  epoch   : Nat
  deriving DecidableEq, Repr

/-- A port FIFO (R183 to R186): its words, and whether a frame is open on the side that writes. -/
structure Pfifo where
  words : List FWord
  open_ : Bool
  deriving DecidableEq, Repr

def Pfifo.reset : Pfifo := ⟨[], false⟩

/-- A kernel slot endpoint (R188 to R191): the descriptors presented in turn, each with its ticket, the tickets issued and not completed,
the completions held with the port writes each waits for, and the tickets that K_ABORT has named and the kernel has not completed since. -/
structure Kslot where
  descs  : List (List Word × BitVec 16)
  outst  : List (BitVec 16)
  held   : List (KCpl × List (Nat × Nat))
  abort  : List (BitVec 16)
  deriving DecidableEq, Repr

def Kslot.reset : Kslot := ⟨[], [], [], []⟩

/-- A request of a fabric NoC port: the fabric tag, its internal tag, whether it writes, the beats still to come, and
whether it is in quarantine (R193 to R195), and whether its response waits in the port for the fabric clock (R197). -/
structure NpReq where
  ftag  : Nat
  itag  : Nat
  req   : Req
  beats : Nat
  quar  : Bool
  ready : Bool
  deriving DecidableEq, Repr

/-- A fabric NoC port: its master requests, and the target-side requests shown to the fabric by tag (R195, R196). -/
structure Nport where
  reqs : List NpReq
  tgt  : List (Nat × Req)
  deriving DecidableEq, Repr

def Nport.reset : Nport := ⟨[], []⟩

/-- A crossing-line group on its receiving side (R151 to R153): the word it presents, zero before its first; the words in its elastic
register, 4 at most, or in its FIFO, 8 at most; and that its send clock has stopped and it has not re-centred since. -/
structure XingSt where
  word    : Word
  fifo    : List Word
  stopped : Bool
  deriving DecidableEq, Repr

def XingSt.reset : XingSt := ⟨0, [], false⟩

/-- A region beyond its registers (R201 to R205): frames of the partial load have reached it, the MODE and TMO of the closing
that runs, that its ports have drained (steps 3 and 4), and the values that its outgoing signals and its pins had when the wrappers closed
(R200). -/
structure PrSt where
  took    : Bool
  mode    : Nat
  tmo     : Nat
  drained : Bool
  outs    : List Bool
  pins    : BitVec 120
  deriving DecidableEq, Repr

def PrSt.reset : PrSt := ⟨false, 0, 0, false, [], 0⟩

/-- A frame in the repair queue: its address, whether its signature is also lost, and whether it waits for a flash pass
(R210 to R213). -/
structure SeuEnt where
  fa    : Nat
  sigUe : Bool
  flash : Bool
  /-- The stream of a flash pass has passed it (R213). -/
  due   : Bool
  deriving DecidableEq, Repr

/-! ## Words with check bits (R294) -/

/-- A stored word: data and check byte (R294). -/
structure BWord where
  d   : DWord
  chk : Byte
  deriving DecidableEq, Repr

/-! ## Signal engines (09_signal_engines) -/

/-- An S register with its poison mark (R216). -/
structure SReg where
  v : Word
  p : Bool
  deriving DecidableEq, Repr

/-- Where a result goes when it becomes visible (R220): an S register, a V register's eight words, an accumulator as VNAR and
BEXP see it, BX (taken, or folded by BEXP), sticky STAT bits, and the control registers that MOVC, IEN, IDIS and RETI write. -/
inductive SeDst where
  | s (i : Nat) (x : SReg)
  | v (i : Nat) (ws : List MWord)
  | acc (k : Nat) (lanes : List (BitVec 48))
  | bx (n : Nat)
  | bxMin (n : Nat)
  | sticky (bits : BitVec 3)
  | stat (v : Word)
  | ie (b : Bool)
  | ipc (v : Word)
  | istat (v : Word)
  | ivec (v : Word)
  deriving DecidableEq, Repr

/-- A result in flight and the slot in which it becomes visible (R220, R221); in issue order. -/
structure Fly where
  due : Nat
  dst : SeDst
  deriving DecidableEq, Repr

/-- A repeat block (R233): its first and last instruction. -/
structure Rep where
  start : Nat
  last  : Nat
  deriving DecidableEq, Repr

/-- A DMA descriptor (R239). -/
structure DmaDesc where
  remote  : Nat
  loc     : Nat
  len     : Nat
  rows    : Nat
  rstride : Int
  lstride : Int
  write   : Bool
  deriving DecidableEq, Repr

/-- A DMA channel (R239 to R241): the running transfer and its requests done, the last response code, and an error not yet
raised. -/
structure DmaCh where
  run  : Option DmaDesc
  done : Nat
  last : Nat
  err  : Bool
  deriving DecidableEq, Repr

def DmaCh.reset : DmaCh := ⟨none, 0, 0, false⟩

/-- A request that a channel had issued when it stopped (R241, R244): its address, its words, and the words a write carries. -/
structure SeLate where
  addr : Nat
  n    : Nat
  ws   : Option (List MWord)
  deriving DecidableEq, Repr

/-- A signal engine (R216, R219). The accumulators are kept twice: as a later VMAC or VACC chains on them and as VNAR and BEXP
see them (R220). -/
structure SEng where
  s      : SMap SReg
  p      : SMap (BitVec 18)
  m      : SMap (BitVec 18)
  l      : SMap (BitVec 18)
  v      : SMap MWord
  chain  : SMap (BitVec 48)
  acc    : SMap (BitVec 48)
  bx     : Nat
  lc0    : Nat
  lc1    : Nat
  pc     : Nat
  sticky : BitVec 3
  ie     : Bool
  ipc    : Nat
  pend   : BitVec 3
  mask   : BitVec 3
  ivec   : Nat
  ticket : Nat
  desc   : List Word
  /-- Issue slots since the start, and the results in flight. -/
  slot   : Nat
  fly    : List Fly
  /-- Delay slots still to issue and the target, if the branch is taken (R232). -/
  br     : Option (Nat × Option Nat)
  outer  : Option Rep
  inner  : Option Rep
  /-- DONE has issued, with these output tokens, and waits to drain (R243). -/
  fin    : Option (List DWord)
  dma0   : DmaCh
  dma1   : DmaCh
  /-- A completion of status ERROR has still to be sent (R246). -/
  owed   : Bool
  deriving DecidableEq, Repr

/-- Registers read 0 and BX is 47 (R249). -/
def SEng.reset : SEng :=
  ⟨[], [], [], [], [], [], [], 47, 0, 0, 0, 0, false, 0, 0, 0, 0, 0, [], 0, [], none, none, none, none, .reset, .reset, false⟩

/-- Engines by die × 48 + engine, data-memory words and program-memory instructions (39 bits, R248) by engine and place, and by
engine the requests that its stopped channels had issued, which a reset of the block does not recall (R249). -/
structure SeSt where
  eng : SMap SEng
  late : SMap (List SeLate)
  dm  : SMap BWord
  pm  : SMap (BitVec 39)
  deriving DecidableEq, Repr

def SeSt.reset : SeSt := ⟨[], [], [], []⟩

/-! ## The dispatcher (10_dispatcher) -/

/-- A firing in a ready list or the re-issue queue (R256): the operation, its epoch, the re-issues used, and the unit it excludes. -/
structure DEntry where
  op    : Nat
  epoch : Nat
  used  : Nat
  excl  : Option Nat
  deriving DecidableEq, Repr

/-- A held ticket (R263). -/
structure Ticket where
  t     : Nat
  live  : Bool
  op    : Nat
  epoch : Nat
  used  : Nat
  unit_ : Nat
  deriving DecidableEq, Repr

/-- A completion waiting in the completion buffer (R271): unit code, ticket, status (0 OK, 1 ERROR, 2 ABORTED), tokens. -/
structure DCpl where
  unit_  : Nat
  ticket : Nat
  status : Nat
  toks   : List DWord
  deriving DecidableEq, Repr

/-- An execution in a core queue (R267), with the completion that its core has written while it is held: the writer's requester ID and
what is sent. -/
structure CqEnt where
  t      : Nat
  op     : Nat
  popped : Bool
  cpl    : Option (Nat × DCpl)
  deriving DecidableEq, Repr

/-- What a die reports in a closing round (R274). -/
structure DReport where
  quiet : Bool
  sent  : Nat
  recv  : Nat
  err   : Nat
  deriving DecidableEq, Repr

/-- A dispatcher beyond its registers. -/
structure DfdSt where
  /-- Ready lists by class × 8 + priority. -/
  ready   : SMap (List DEntry)
  reissue : List DEntry
  /-- By priority: entries gathered for the tail of a sub-ring, its read and write places, as entry counts (R257). -/
  gather  : SMap (List DEntry)
  rd      : SMap Nat
  wr      : SMap Nat
  /-- By operation: sub-ring places below this count are dropped when refilled (ABORT_OP, R268). -/
  dropTo  : SMap Nat
  /-- By priority: the operations of the entries in the sub-ring, oldest first. -/
  sub     : SMap (List Nat)
  tickets : List Ticket
  nextT   : Nat
  /-- The class and, by class, the unit last issued (R261). -/
  lastCls : Nat
  lastU   : SMap Nat
  /-- By operation: the unit it was last issued to, and the unit its next firing excludes (R261, R269). -/
  aff     : SMap (Option Nat)
  avoid   : SMap (Option Nat)
  cq      : SMap (List CqEnt)
  cpls    : List DCpl
  /-- Tokens sent to another die whose write has had no response (R271). -/
  fwd     : List DWord
  /-- DFD_UNIT_EN_KS bits that a fence closing cleared (R269), with the region each belongs to. -/
  marks   : SMap (Option Nat)
  /-- The closing that runs is of device scope, the counts at its last boundary, and the last round's report (R274). -/
  device  : Bool
  sent0   : Nat
  recv0   : Nat
  err0    : Nat
  report  : Option DReport
  /-- Clean rounds in a row, on the head die. -/
  clean   : Nat
  deriving DecidableEq, Repr

def DfdSt.reset : DfdSt :=
  ⟨[], [], [], [], [], [], [], [], 1, 0, [], [], [], [], [], [], [], false, 0, 0, 0, none, 0⟩

/-! ## Bank memory (11_bank_memory) -/

/-- A bank beyond its registers: the latched power request (R287), and a wipe that follows the running transition (R290). -/
structure BankSt where
  latched : Option Nat
  wipe    : Bool
  deriving DecidableEq, Repr

def BankSt.reset : BankSt := ⟨none, false⟩

/-! ## The network and coherence (12_network_and_coherence) -/

/-- A line in a die's caches (R318, R319): 1 shared, 2 exclusive, 3 modified; its eight words; the check-bit flips stored
with each (R324); the master whose access brought it or made it dirty (R283); and the caches in front of the remote line cache that
hold it: bit p the cache of coherent port p (R192), bit 16 the cores' (R318, R420). -/
structure CLine where
  st    : Nat
  words : List MWord
  flip  : List Byte
  by_   : Master
  near  : BitVec 17
  deriving DecidableEq, Repr

/-- A directory entry (R317, R320): the owner in state X, the dies that hold the line, and when it was last granted. -/
structure DirEnt where
  owner : Option Nat
  vec   : BitVec 8
  stamp : Nat
  deriving DecidableEq, Repr

/-- Where a request in the network stands (R312 to R315). -/
inductive NetPlace where
  | flying (vc : Nat) | parked | done
  deriving DecidableEq, Repr

/-- A request a master has outstanding, or whose tag is in quarantine (R315), with its place in the order of issue (R20). -/
structure NetReq where
  req   : Req
  place : NetPlace
  quar  : Bool
  seq   : Nat
  deriving DecidableEq, Repr

/-! ## Die-to-die links (13_die_links) -/

/-- The sending end of a module (R329): the next SEQ, the flits not yet acknowledged with their retries, oldest first, and the
credits returned for the eight receive buffers (R327). -/
structure LinkTx where
  next : Nat
  un   : List (Nat × Nat)
  cred : List Nat
  deriving DecidableEq, Repr

def LinkTx.reset : LinkTx := ⟨0, [], [0, 0, 0, 0, 0, 0, 0, 0]⟩

/-- The receiving end of a module (R328, R329): the next SEQ expected, whether flits are discarded until the replay from it, and
the bytes of a record that goes on in the next flit. -/
structure LinkRx where
  expect : Nat
  nak    : Bool
  part   : List Byte
  deriving DecidableEq, Repr

def LinkRx.reset : LinkRx := ⟨0, false, []⟩

/-- What bring-up of an edge has come to (R333, R338): a valid CAPS block that passed, or the end of its wait without one. -/
inductive CapsIn where
  | waiting | block (bytes : List Byte) | none | failed
  deriving DecidableEq, Repr

/-- The links: by die, edge and module; by die and edge; and by die the raw flits received (R340) and the transmissions that
BDL_TEST has still to corrupt (R343). -/
structure BdlSt where
  tx   : SMap LinkTx
  rx   : SMap LinkRx
  caps : SMap CapsIn
  raw  : SMap (List (List Byte))
  test : SMap Nat
  deriving DecidableEq, Repr

def BdlSt.reset : BdlSt := ⟨[], [], [], [], []⟩

/-! ## DRAM and encryption (14_dram_and_encryption) -/

/-- A stored codeword (R346 to R348): the 64-bit word, the reserved pattern's mark, and the symbols flipped under
DDR_ECC_FLIP as two devices and the bits. -/
structure DCell where
  d      : DWord
  poison : Bool
  flip   : Option (Nat × Nat × Nat)
  deriving DecidableEq, Repr

/-- A queued DRAM request (R351, R352): the request, its channel-local line, its service class, whether promoted, and its
place in arrival order. -/
structure DReq where
  req   : Req
  line  : Nat
  cls   : Nat
  prom  : Bool
  seq   : Nat
  deriving DecidableEq, Repr

/-- A subchannel (R352, R353): its queues, a write drain running, the banks in in-order mode with the write each waits
for, and the open row of each bank. -/
structure DSub where
  reads   : List DReq
  writes  : List DReq
  drain   : Bool
  inOrder : List (Nat × Nat)
  rows    : SMap (Option Nat)
  deriving DecidableEq, Repr

def DSub.reset : DSub := ⟨[], [], false, [], []⟩

/-- A channel beyond its registers: training results are in the always-on domain (R60, R368). -/
abbrev DdrSt := Bool

/-- An encryption engine (R362 to R364): current and next keys by KeyID, the INIT command's window and KeyID while it runs, and
whether the command that runs is of device scope. -/
structure MeeSt where
  cur    : SMap (BitVec 256)
  nxt    : SMap (BitVec 256)
  init   : Option (Nat × Nat)
  device : Bool
  deriving DecidableEq, Repr

def MeeSt.reset : MeeSt := ⟨[], [], none, false⟩

/-! ## Serial lanes (15_serial_lanes) -/

/-- Why a lane is in electrical idle (R377): it stays there, for 1 µs before bring-up, or for 65 ms after training failed. -/
inductive LaneIdle where
  | stay | start | retry
  deriving DecidableEq, Repr

/-- What a received frame is handed on as. -/
inductive RxKind where
  | eth | pause | data | hello
  deriving DecidableEq, Repr

/-- A frame in the wake buffer of a port (R387): its bytes as far as they were held, whether it is marked in error, and its ingress stamp. -/
structure HeldFrame where
  kind  : RxKind
  bytes : List Byte
  err   : Bool
  sec   : Nat
  ns    : Nat
  deriving DecidableEq, Repr

/-- A lane beyond its registers: its idle, the mode it runs in the layout of LAN_MODEn (R371, R378), the low background scans
in a row, a re-adaptation running, whether the next scan judges one (R380), the fills of its elastic buffers, a frame in
progress on receive and on transmit that they have broken (R376), and, at a port's first lane, what its wake buffer holds, oldest
first. -/
structure LaneSt where
  idle    : LaneIdle
  mode    : Nat
  low     : Nat
  readapt : Bool
  judge   : Bool
  rxFill  : Nat
  txFill  : Nat
  broken  : Bool
  txBroken : Bool
  wake    : List HeldFrame
  deriving DecidableEq, Repr

def LaneSt.reset : LaneSt := ⟨.stay, 0, 0, false, false, 32, 32, false, false, []⟩

/-- A pair's 1 µs of electrical idle (R384): the state it goes to, bypass or bring-up, and a request latched meanwhile. -/
structure PairSt where
  idle    : Option Bool
  latched : Option Bool
  deriving DecidableEq, Repr

def PairSt.reset : PairSt := ⟨none, none⟩

/-- The lanes by die and lane, the pairs by die and pair, and the frequency of each quad's reference input in Hz (R369). -/
structure LanSt where
  lane : SMap LaneSt
  pair : SMap PairSt
  qclk : SMap Nat
  deriving DecidableEq, Repr

def LanSt.reset : LanSt := ⟨[], [], []⟩

/-! ## Port engines (16_port_engines) -/

/-- A frame in a port engine: its bytes without the FCS, source and destination port codes, and what the trunk descriptor says
of it (R412). `raw` is a host frame sent with LOOKUP = 0 (R391), `tnb` a TNB frame, `bank` the bank that holds its cells, if
one does (R410). -/
structure Frame where
  bytes  : List Byte
  src    : Nat
  dest   : Nat
  queue  : Nat
  vid    : Nat
  tag    : Nat
  tsReq  : Bool
  err    : Bool
  poison : Bool
  flood  : Bool
  raw    : Bool
  tnb    : Bool
  sec    : Nat
  ns     : Nat
  bank   : Option Nat
  deriving DecidableEq, Repr

/-- An L2 entry (R396). -/
structure L2Ent where
  mac    : Nat
  vid    : Nat
  static : Bool
  locked : Bool
  hit    : Bool
  age    : Nat
  moves  : Nat
  port   : Nat
  left   : Nat
  deriving DecidableEq, Repr

/-- A learn event (R398). -/
inductive Learn where
  | new | move | refresh
  deriving DecidableEq, Repr

structure LearnEv where
  kind : Learn
  mac  : Nat
  vid  : Nat
  port : Nat
  deriving DecidableEq, Repr

/-- A change on its way to a replica (R400): its sequence number, the entry, and what it becomes. -/
structure L2Upd where
  seq : Nat
  idx : Nat
  ent : Option L2Ent
  deriving DecidableEq, Repr

/-- An egress timestamp record (R417). -/
structure TsRec where
  port : Nat
  tag  : Nat
  sec  : Nat
  ns   : Nat
  deriving DecidableEq, Repr

/-- A port engine beyond its registers: the learn queue, the changes on their way to the replica and the sequence number of the
next, the timestamp FIFO and whether it lost records, and the fraction below NS of its time counter (R416). -/
structure PenDie where
  learn : List LearnEv
  upd   : List L2Upd
  next  : Nat
  ts    : List TsRec
  lost  : Bool
  frac  : Nat
  deriving DecidableEq, Repr

def PenDie.reset : PenDie := ⟨[], [], 0, [], false, 0⟩

/-- Deficit round-robin at a destination (R411): the queue in turn and whether it has had its quantum this round. -/
structure DrrSt where
  cur : Nat
  had : Bool
  deriving DecidableEq, Repr

def DrrSt.reset : DrrSt := ⟨0, false⟩

/-- A TNB port's hello (R408): the peer's HELLO has been received, and keepalives missed in a row. -/
structure HelloSt where
  seen   : Bool
  missed : Nat
  deriving DecidableEq, Repr

def HelloSt.reset : HelloSt := ⟨false, 0⟩

/-- A frame on its way over the trunk and the cells of it still to arrive (R412). -/
structure TrunkFrame where
  frame : Frame
  left  : Nat
  deriving DecidableEq, Repr

/-- Time set on the head die, taken at the next SYNC tick (R416). -/
structure TimeSet where
  time : Option DWord
  adj  : Option Word
  step : Option Int
  deriving DecidableEq, Repr

def TimeSet.reset : TimeSet := ⟨none, none, none⟩

/-- The port engines. L2 entries by table, 0 to 7 a die's replica and 8 the arbiter's, and index; move windows that run,
likewise; the change counter and the software command in the arbiter; VLAN words and next-hop entries by die; queues, pauses
and deficits by die, destination and queue; what has arrived of a ring access by ring; frames on the trunk by receiving die and
edge, those of the Y edge without a response by sending die; and PPS_OUT. -/
structure PenSt where
  l2      : SMap (Option L2Ent)
  window  : SMap Bool
  seq     : Nat
  cmd     : Option (Nat × List Word)
  vlan    : SMap Word
  nh      : SMap Word
  die     : SMap PenDie
  queue   : SMap (List Frame)
  paused  : SMap Bool
  deficit : SMap Nat
  drr     : SMap DrrSt
  hello   : SMap HelloSt
  ring    : SMap (Option Resp)
  air     : SMap (List TrunkFrame)
  yout    : SMap (List Frame)
  time    : TimeSet
  pps     : Bool
  deriving DecidableEq, Repr

def PenSt.reset : PenSt := ⟨[], [], 0, none, [], [], [], [], [], [], [], [], [], [], [], .reset, false⟩

/-! ## The state of the chapters -/

/-- Configuration memory and the Parsers (04_configuration): by die, frame address and 64-bit word; golden signatures and
dynamic marks by die and frame; held REG writes by die. Flash is by device and device address, and a device page whose
contents an aborted operation left undefined has a nonzero count. -/
structure CfgSt where
  frames    : SMap DWord
  sigs      : SMap Word
  dyn       : SMap Bool
  held      : SMap (List (Nat × Word))
  warm      : SMap WarmSt
  parse     : ParseSt
  run       : RunImg
  flash     : FlashSt
  flashMem  : SMap Byte
  flashJunk : SMap Nat
  /-- The CFG_CMD that is running: its OP and SLOT. -/
  cmd       : Option (Nat × Nat)
  deriving DecidableEq, Repr

def CfgSt.reset : CfgSt := ⟨[], [], [], [], [], .reset, .reset, .reset, [], [], none⟩

/-- The fabric by die and site (06 to 08). -/
structure FabSt where
  design : SMap DieDesign
  pins   : SMap PinMode
  ff     : SMap Bool
  lut    : SMap DWord
  bm     : SMap Bmem
  chain  : SMap ChainSt
  arith  : SMap Arith
  io     : SMap IoCell
  snap   : SMap Snap
  rb     : SMap (Option RbSt)
  fifo   : SMap Pfifo
  kslot  : SMap Kslot
  nport  : SMap Nport
  xing   : SMap XingSt
  pr     : SMap PrSt
  seu    : SMap (List SeuEnt)
  deriving DecidableEq, Repr

def FabSt.reset : FabSt := ⟨[], [], [], [], [], [], [], [], [], [], [], [], [], [], [], []⟩

/-- The banks (11_bank_memory): words by bank and place, with none for a word not written since its bank's contents became
undefined; the count of that event by bank, 0 once the bank has been zero-filled. -/
structure BnkSt where
  words : SMap (Option BWord)
  junk  : SMap Nat
  st    : SMap BankSt
  deriving DecidableEq, Repr

def BnkSt.reset : BnkSt := ⟨[], [], []⟩

/-- Coherence and the network (12_network_and_coherence): cached lines by die and line, directory entries by line, requests by
requester ID and tag. -/
structure CohSt where
  cache : SMap (Option CLine)
  dir   : SMap (Option DirEnt)
  stamp : Nat
  net   : SMap (Option NetReq)
  sent  : Nat
  deriving DecidableEq, Repr

def CohSt.reset : CohSt := ⟨[], [], 0, [], 0⟩

/-- DRAM (14_dram_and_encryption): codewords by channel and word, with none for one not written since the contents became
undefined; the count of that event by channel; subchannels, channels and encryption engines. -/
structure DrmSt where
  cells : SMap (Option DCell)
  junk  : SMap Nat
  sub   : SMap DSub
  res   : SMap DdrSt
  mee   : SMap MeeSt
  seq   : Nat
  deriving DecidableEq, Repr

def DrmSt.reset : DrmSt := ⟨[], [], [], [], [], 0⟩

/-! ## The device (00_scope, 19_package_and_electrical) -/

/-- The parts of R1. -/
inductive Part where
  | px2 | px4 | px8 | px8c
  deriving DecidableEq, Repr

/-- The temperature grades (00_scope). -/
inductive Grade where
  | e | i
  deriving DecidableEq, Repr

/-- The steppings (00_scope). -/
inductive Stepping where
  | a0 | a1 | b0
  deriving DecidableEq, Repr

/-- What is fixed when the device is made: the part, its grade and stepping, and the identity fuses that name the head
die and the dies whose fuses are blank (R2, R31). -/
structure DeviceId where
  part     : Part
  grade    : Grade
  stepping : Stepping
  head     : Die
  blank    : BitVec 8
  /-- The spare columns that the fuses of each bank use, by die × 8 + bank, as BNK_REPAIRb shows them (R299). -/
  repair   : List (BitVec 24)
  deriving DecidableEq, Repr

/-- What the last command that was an access got back: the response code, and the words read with their poison marks. -/
structure Reply where
  resp : Resp
  data : List MWord
  deriving DecidableEq, Repr

/-- The privilege modes of a hart (R419). -/
inductive Priv where
  | machine | supervisor | user
  deriving DecidableEq, Repr

/-- A hart (R419, R421, R422): its mode, pc, integer and floating-point registers, whether interrupts are enabled, the CSRs of its traps and
translation (Machine/Hart.lean numbers them), its PMP entries, and whether its first fetch is still to come. -/
structure HartSt where
  priv    : Priv
  pc      : DWord
  x       : List DWord
  f       : List DWord
  ie      : Bool
  csr     : List DWord
  pmpAddr : List DWord
  pmpCfg  : List Byte
  first   : Bool
  deriving DecidableEq, Repr

/-- A hart before its first release (notes/assumptions/22.md). -/
def HartSt.reset : HartSt :=
  ⟨.machine, 0, List.replicate 32 0, List.replicate 32 0, false, List.replicate 10 0, List.replicate 16 0, List.replicate 16 0, false⟩

/-- The state of the machine. -/
structure State where
  pending : List Instr
  reply   : Reply
  fresh   : Nat
  dev     : DeviceId
  boot    : BootSt
  rf      : SMap DWord
  holds   : SMap Hold
  clk     : SMap ClkSt
  ckmux   : SMap CkMux2
  evs     : SMap EvSrc
  pulses  : List (Nat × Nat)
  usr     : BitVec 32
  snt     : SMap SntSt
  mbox    : SMap MboxSt
  /-- MTIME written on the head die, taken at the next SYNC tick (R425). -/
  mset    : Option DWord
  smbPub  : List Word
  smbHost : List Word
  lad     : SMap LadSt
  thm     : ThmSt
  mon     : SMap MonWin
  cfg     : CfgSt
  fab     : FabSt
  se      : SeSt
  dfd     : SMap DfdSt
  bnk     : BnkSt
  coh     : CohSt
  bdl     : BdlSt
  drm     : DrmSt
  lan     : LanSt
  pen     : PenSt
  sec     : SecSt
  /-- The harts by number, d × 4 + c (R419). -/
  harts   : SMap HartSt
  deriving DecidableEq, Repr

/-- The reasons a command could stop the machine. No command does: the spec answers every access with a response code (R310)
and every other condition with a register, an event or a reset, so every command has a next state. -/
inductive Fault where
  /-- Raised by nobody. Safe: it stands here because a fault type may not be left without a name. -/
  | none
  deriving DecidableEq, Repr

/-- The reasons a command could be refused. No arm of Machine/Dispatch.lean refuses one. -/
inductive Refusal where
  /-- Raised by the arm of a command that has no meaning yet; no arm is left so. Safe: the machine stops. -/
  | notModelled (mnemonic : String)
  deriving DecidableEq, Repr

/-- The device as it is made: what the spec leaves to the part that is bought (notes/assumptions/2.md). -/
def DeviceId.reset : DeviceId := ⟨.px8, .i, .a0, 0, 0, []⟩

/-- Start-up state while power-on reset is asserted (R56, R66). -/
def BootSt.reset : BootSt := ⟨some .power, false, true, false, ⟨false, 0, 0⟩, none, false, false, false, false⟩

/-- Register cells while power-on reset is asserted: every register at its reset value. SYS_BOOT_STATUS.PROG_N_PIN shows the pin, which
is high (notes/assumptions/2.md); CLK_REF_CTRL.SEL and CLK_REF_STATUS.CUR are 0b100 on a dependent die. -/
def resetCellList : SMap DWord := (List.range 8).flatMap (fun d =>
  (d * 2 ^ 21 + 8, 0x800#64) :: if d = 0 then [] else [(d * 2 ^ 21 + 0x2002, 0x400000004#64)])

/-- The machine right after reset: power-on reset is asserted on every die, and nothing has started (R56, R66). -/
def State.reset : State where
  pending := []
  reply := ⟨.ok, []⟩
  fresh := 0
  dev := .reset
  boot := .reset
  rf := resetCellList
  holds := []
  clk := []
  ckmux := []
  evs := []
  pulses := []
  usr := 0
  snt := []
  mbox := []
  mset := none
  smbPub := []
  smbHost := []
  lad := []
  thm := .reset
  mon := []
  cfg := .reset
  fab := .reset
  se := .reset
  dfd := []
  bnk := .reset
  coh := .reset
  bdl := .reset
  drm := .reset
  lan := .reset
  pen := .reset
  sec := .reset
  harts := []

end Sys2Proof.Machine
end

