-- ==== Sys2Proof/Machine/Ops.lean ====
section
/-!
DEFINITION. The named operations over the registers and the device that every meaning is written in: reading and
writing a field, answering an access, walking the dies, raising an event bit, and taking a free value.
-/

namespace Sys2Proof.Machine

/-! ## Register cells and fields -/

/-- The key of the cell that holds an offset of a die's window. -/
def cellKey (d off : Nat) : Nat := d * 2 ^ 21 + off / 8

/-- A register cell. -/
def State.cell (s : State) (k : Nat) : DWord := SMap.get cellRst s.rf k

/-- Write a register cell. -/
def State.setCell (s : State) (k : Nat) (v : DWord) : State := { s with rf := SMap.set cellRst s.rf k v }

/-- The place of a field's lowest bit in its cell. -/
def Fld.sh (f : Fld) : Nat := f.lo + 8 * (f.off % 8)

/-- A word with `w` bits from `sh` up replaced. -/
def splice (old : DWord) (sh w v : Nat) : DWord :=
  let mask := BitVec.ofNat 64 (2 ^ w - 1) <<< sh
  (old &&& ~~~ mask) ||| (BitVec.ofNat 64 (v % 2 ^ w) <<< sh)

/-- The value of a field on die `d`. -/
def State.g (s : State) (d : Nat) (f : Fld) : Nat := ((s.cell (cellKey d f.off)).toNat >>> f.sh) % 2 ^ f.w

/-- Set a field on die `d`. -/
def State.p (s : State) (d : Nat) (f : Fld) (v : Nat) : State :=
  s.setCell (cellKey d f.off) (splice (s.cell (cellKey d f.off)) f.sh f.w v)

/-- A one-bit field is 1. -/
def State.on (s : State) (d : Nat) (f : Fld) : Bool := s.g d f == 1

/-- Set bit `n` of a field. -/
def State.setBit (s : State) (d : Nat) (f : Fld) (n : Nat) : State := s.p d f (s.g d f ||| 2 ^ n)

/-- Clear bit `n` of a field. -/
def State.clrBit (s : State) (d : Nat) (f : Fld) (n : Nat) : State := s.p d f (s.g d f &&& (2 ^ f.w - 1 - 2 ^ n))

/-- Bit `n` of a field. -/
def State.bit (s : State) (d : Nat) (f : Fld) (n : Nat) : Bool := (s.g d f).testBit n

/-- Add to a counter that wraps. -/
def State.inc (s : State) (d : Nat) (f : Fld) (n : Nat) : State := s.p d f (s.g d f + n)

/-- Add 1 to a counter that saturates. -/
def State.incSat (s : State) (d : Nat) (f : Fld) : State := s.p d f (min (s.g d f + 1) (2 ^ f.w - 1))

/-- The 32-bit register at an offset. -/
def word (off : Nat) : Fld := ⟨off, 0, 32⟩

/-- Let the registers whose cell key satisfies `p` fall back to their reset values (R7). -/
def State.resetCells (s : State) (p : Nat → Bool) : State := { s with rf := SMap.keep s.rf (fun k => !(p k)) }

/-- The cells of die `d` from offset `lo` up to, not including, offset `hi`. -/
def inRange (d lo hi k : Nat) : Bool := decide (cellKey d lo ≤ k ∧ k < cellKey d hi)

/-! ## Answers -/

/-- Answer an access with a response code and no data. -/
def State.ans (s : State) (r : Resp) : State := { s with reply := ⟨r, []⟩ }

/-- The response is still to come: the reply holds nothing. -/
def State.noAnswer (s : State) : State := s.ans .ok

/-- Answer a read. -/
def State.ansData (s : State) (r : Resp) (v : List DWord) : State := { s with reply := ⟨r, v.map (fun x => ⟨x, false⟩)⟩ }

/-- Perform an access that is accepted, or refuse it with ACCESS_ERROR and no effect. -/
def State.accept (s : State) (c : Bool) (t : State) : State := if c then t.ans .ok else s.ans .accessError

/-! ## Free values -/

/-- Take a free value (notes/assumptions/3.md): the value, and the state with the counter stepped. -/
def State.free (s : State) (w : Nat) : BitVec w × State := (Config.freeValue w s.fresh, { s with fresh := s.fresh + 1 })

/-! ## Dies -/

/-- The dies a part has (R2). -/
def Part.dies : Part → Nat
  | .px2 => 2 | .px4 => 4 | .px8 => 8 | .px8c => 8

/-- The width of a part's grid (R2). -/
def Part.width : Part → Nat
  | .px2 => 2 | .px4 => 2 | .px8 => 4 | .px8c => 4

/-- The head die. -/
def State.head (s : State) : Nat := s.dev.head.val

/-- The die is an F-die of the part with identity fuses: not the companion of a PX8C, not blank (R2, R31). -/
def State.present (s : State) (d : Nat) : Bool :=
  decide (d < s.dev.part.dies) && !(s.dev.part == .px8c && d == 7) && !s.dev.blank.getLsbD d

/-- The F-dies of the device, in order. -/
def State.dies (s : State) : List Nat := (List.range 8).filter s.present

/-- Do something on each die of a list in turn. -/
def State.each (s : State) (l : List Nat) (f : State → Nat → State) : State := l.foldl f s

/-- Do something on every die of the device. -/
def State.onDies (s : State) (f : State → Nat → State) : State := s.each s.dies f

/-- Set one field to one value on every die of the device. -/
def State.pAll (s : State) (f : Fld) (v : Nat) : State := s.onDies (fun s d => s.p d f v)

/-! ## State held by die -/

def State.clkOf (s : State) (d : Nat) : ClkSt := SMap.get (fun _ => ClkSt.reset) s.clk d
def State.setClk (s : State) (d : Nat) (c : ClkSt) : State := { s with clk := SMap.set (fun _ => ClkSt.reset) s.clk d c }
def State.sntOf (s : State) (d : Nat) : SntSt := SMap.get (fun _ => SntSt.reset) s.snt d
def State.setSnt (s : State) (d : Nat) (c : SntSt) : State := { s with snt := SMap.set (fun _ => SntSt.reset) s.snt d c }
def State.ladOf (s : State) (d : Nat) : LadSt := SMap.get (fun _ => LadSt.reset) s.lad d
def State.setLad (s : State) (d : Nat) (c : LadSt) : State := { s with lad := SMap.set (fun _ => LadSt.reset) s.lad d c }
def State.mboxOf (s : State) (d : Nat) : MboxSt := SMap.get (fun _ => none) s.mbox d
def State.setMbox (s : State) (d : Nat) (c : MboxSt) : State := { s with mbox := SMap.set (fun _ => none) s.mbox d c }
def State.ckOf (s : State) (d i : Nat) : CkMux2 := SMap.get (fun _ => CkMux2.reset) s.ckmux (d * 65536 + i)
def State.setCk (s : State) (d i : Nat) (c : CkMux2) : State :=
  { s with ckmux := SMap.set (fun _ => CkMux2.reset) s.ckmux (d * 65536 + i) c }
def State.monOf (s : State) (d m : Nat) : MonWin := SMap.get (fun _ => MonWin.reset) s.mon (d * 16 + m)
def State.setMon (s : State) (d m : Nat) (c : MonWin) : State :=
  { s with mon := SMap.set (fun _ => MonWin.reset) s.mon (d * 16 + m) c }
/-- Source `n` in the event controller of die `r`. -/
def State.evOf (s : State) (r n : Nat) : EvSrc := SMap.get (fun _ => EvSrc.reset) s.evs (r * 1024 + n)
def State.setEv (s : State) (r n : Nat) (c : EvSrc) : State :=
  { s with evs := SMap.set (fun _ => EvSrc.reset) s.evs (r * 1024 + n) c }

/-! ## Where a die stands -/

/-- The start-up phases of R66. -/
def Phase.por : Nat := 0
def Phase.housekeep : Nat := 1
def Phase.heaterHold : Nat := 2
def Phase.initWait : Nat := 3
def Phase.load : Nat := 4
def Phase.wake : Nat := 5
def Phase.running : Nat := 6
def Phase.noImage : Nat := 7
def Phase.lockdown : Nat := 8

/-- The start-up phase of the device, as the head die shows it. -/
def State.phase (s : State) : Nat := s.g s.head R.SYS_BOOT_STATUS.PHASE

/-- Set the phase on every die (R68). -/
def State.setPhase (s : State) (v : Nat) : State := s.pAll R.SYS_BOOT_STATUS.PHASE v

/-- The ladder states of R441. -/
def Ladder.run : Nat := 0
def Ladder.comma : Nat := 1
def Ladder.semicolon : Nat := 2
def Ladder.colon : Nat := 3
def Ladder.fullStop : Nat := 4

/-- The die is in RUN and is not leaving it. -/
def State.running (s : State) (d : Nat) : Bool :=
  s.g d R.PWR_STATUS.STATE == Ladder.run && s.g d R.PWR_STATUS.PHASE == 0

/-- A wake-up step code has completed on the die (CFG_WAKE_STATUS.DONE_STEPS). -/
def State.stepDone (s : State) (d code : Nat) : Bool := s.bit d R.CFG_WAKE_STATUS.DONE_STEPS code

/-! ## Events -/

/-- Whether a die's event messages can reach another die is judged by the network (Machine/Operands.lean); a pulse is put in
flight to the controllers of a list of dies (R427). -/
def State.pulseTo (s : State) (l : List Nat) (n : Nat) : State := { s with pulses := s.pulses ++ l.map (fun r => (r, n)) }

end Sys2Proof.Machine
end

