-- ==== Sys2Proof/Machine/Access.lean ====
section
/-!
DEFINITION. What a register write looks like to the block that receives it (R4, R432): who writes, which register, what
the register would hold, and the bits written. Each family answers such a write with one function of its own.
-/

namespace Sys2Proof.Machine

/-- A write that has passed the decode and form checks. `new` is the whole register (both words of a pair) as the write's
RW, RWS, W1C and W1S fields would leave it; `raw` is what was written, in place, and 0 where nothing was written;
`mask` marks the bits written. -/
structure Wr where
  m    : Master
  d    : Nat
  r    : RegRef
  old  : Nat
  new  : Nat
  raw  : Nat
  mask : Nat
  deriving DecidableEq, Repr

/-- A field of a register value. -/
def Fld.of (f : Fld) (v : Nat) : Nat := (v >>> f.lo) % 2 ^ f.w

/-- The value of a register on a die: both words of a pair. -/
def State.reg (s : State) (d : Nat) (r : RegRef) : Nat := s.g d ⟨r.off, 0, if r.id.info.pair then 64 else 32⟩

/-- Store a register's value on a die. -/
def State.setReg (s : State) (d : Nat) (r : RegRef) (v : Nat) : State :=
  s.p d ⟨r.off, 0, if r.id.info.pair then 64 else 32⟩ v

/-- The bits of a register that a write can change. -/
def RegInfo.writable (i : RegInfo) : Nat := i.rw ||| i.wo ||| i.w1c ||| i.w1s ||| i.rws

/-- What a register holds after a write of `raw` under `mask` (R4): RW and RWS fields take the written bits, W1C bits
written as 1 clear, W1S bits written as 1 set, every other bit keeps its value. -/
def RegInfo.merge (i : RegInfo) (old raw mask : Nat) : Nat :=
  let rw := (i.rw ||| i.rws) &&& mask
  let kept := (2 ^ 64 - 1) ^^^ (rw ||| (i.w1c &&& raw))
  (old &&& kept) ||| (raw &&& rw) ||| (i.w1s &&& raw &&& mask)

/-- The write as the block sees it. -/
def mkWr (s : State) (m : Master) (d : Nat) (r : RegRef) (raw mask : Nat) : Wr :=
  let old := s.reg d r
  ⟨m, d, r, old, r.id.info.merge old raw mask, raw, mask⟩

/-- Store what the write leaves and answer OK. -/
def State.store (s : State) (w : Wr) : State := (s.setReg w.d w.r w.new).ans .ok

/-- Store what the write leaves if a check holds; otherwise no effect and ACCESS_ERROR. -/
def State.storeIf (s : State) (w : Wr) (c : Bool) : State := if c then s.store w else s.ans .accessError

end Sys2Proof.Machine
end

