-- ==== Sys2Proof/Machine/Flags.lean ====
section
/-!
DEFINITION. The codes and flag computations that several blocks share: CRC-32C (R84), the (72,64) SECDED code and its
syndromes (R294, R295), byte order, and the counts and saturations of the engines' arithmetic (R178, R228 to R231).
-/

namespace Sys2Proof.Machine

/-! ## Bytes and words -/

/-- The bytes of a value, least significant first (little-endian, R84, R89). -/
def bytesLE : Nat → Nat → List Byte
  | 0, _ => []
  | n + 1, v => BitVec.ofNat 8 v :: bytesLE n (v / 256)

/-- The value of bytes, least significant first. -/
def natLE : List Byte → Nat
  | [] => 0
  | b :: l => b.toNat + 256 * natLE l

/-- The value of bytes, most significant first. -/
def natBE (l : List Byte) : Nat := natLE l.reverse

/-- The bytes of a value, most significant first. -/
def bytesBE (n v : Nat) : List Byte := (bytesLE n v).reverse

/-- The value of `n` bytes from an offset, most significant first. -/
def beAt (l : List Byte) (off n : Nat) : Nat := natBE ((l.drop off).take n)

/-- The value of `n` bytes from an offset, least significant first. -/
def leAt (l : List Byte) (off n : Nat) : Nat := natLE ((l.drop off).take n)

/-- The number of 1 bits of a value below 2^n. -/
def popcount : Nat → Nat → Nat
  | 0, _ => 0
  | n + 1, v => v % 2 + popcount n (v / 2)

/-- The positions of the 1 bits of a value below 2^n. -/
def bitsOf (n v : Nat) : List Nat := (List.range n).filter (fun i => v.testBit i)

/-- `n` bits of a value from bit `lo`. -/
def fld (w lo n : Nat) : Nat := w / 2 ^ lo % 2 ^ n

/-- The value of `n` bits as a signed number. -/
def sext (n v : Nat) : Int := (BitVec.ofNat n v).toInt

/-- The low `n` bits of a number. -/
def wrapNat (n : Nat) (x : Int) : Nat := (x % (2 ^ n : Int)).toNat

/-! ## CRC-32C -/

/-- One bit of CRC-32C: the Castagnoli polynomial 0x1EDC6F41, reflected (R84). -/
def crcBit (c : Word) : Word := if c.getLsbD 0 then (c >>> 1) ^^^ 0x82F63B78#32 else c >>> 1

/-- One byte of CRC-32C. -/
def crcByte (c : Word) (b : Byte) : Word :=
  crcBit (crcBit (crcBit (crcBit (crcBit (crcBit (crcBit (crcBit (c ^^^ b.zeroExtend 32))))))))

/-- CRC-32C of bytes: initial value and final XOR of all ones (R84). -/
def crc32c (l : List Byte) : Word := (l.foldl crcByte 0xFFFFFFFF#32) ^^^ 0xFFFFFFFF#32

/-! ## Ethernet's FCS and the TNB header check -/

/-- One bit of the CRC of IEEE 802.3, reflected. -/
def fcsBit (c : Word) : Word := if c.getLsbD 0 then (c >>> 1) ^^^ 0xEDB88320#32 else c >>> 1

def fcsByte (c : Word) (b : Byte) : Word :=
  fcsBit (fcsBit (fcsBit (fcsBit (fcsBit (fcsBit (fcsBit (fcsBit (c ^^^ b.zeroExtend 32))))))))

/-- The FCS of a frame (R392, R405), as IEEE 802.3 computes it. -/
def fcs32 (l : List Byte) : Word := (l.foldl fcsByte 0xFFFFFFFF#32) ^^^ 0xFFFFFFFF#32

/-- One bit of the CRC-16 with polynomial 0x1021 (R405). -/
def crc16Bit (c : BitVec 16) : BitVec 16 := if c.getLsbD 15 then (c <<< 1) ^^^ 0x1021#16 else c <<< 1

def crc16Byte (c : BitVec 16) (b : Byte) : BitVec 16 :=
  crc16Bit (crc16Bit (crc16Bit (crc16Bit (crc16Bit (crc16Bit (crc16Bit (crc16Bit (c ^^^ (b.zeroExtend 16 <<< 8)))))))))

/-- HCRC: initial value 0xFFFF, no reflection, no final XOR (R405). -/
def crc16 (l : List Byte) : Nat := (l.foldl crc16Byte 0xFFFF#16).toNat

/-! ## The SECDED code -/

/-- The columns h(0) to h(63) of R294: the first 56 bytes of weight 3 in ascending order, then eight of weight 5. -/
def secdedCols : List Nat :=
  (((List.range 256).filter (fun v => popcount 8 v == 3)).take 56) ++ [0x1F, 0x2F, 0x37, 0x3B, 0x3D, 0x3E, 0x4F, 0x57]

/-- XOR of the columns whose bit of `v` is 1. -/
def secdedXor : List Nat → Nat → Nat
  | [], _ => 0
  | h :: l, v => (if v % 2 = 1 then h else 0) ^^^ secdedXor l (v / 2)

/-- The check byte of a word (R294). -/
def secdedCheck (d : DWord) : Byte := BitVec.ofNat 8 (secdedXor secdedCols d.toNat)

/-- What a syndrome means (R294). -/
inductive Syn where
  | clean | check | data (bit : Nat) | poison | bad
  deriving DecidableEq, Repr

def synOf (s : Nat) : Syn :=
  if s = 0 then .clean
  else if popcount 8 s = 1 then .check
  else if s = 0xFF then .poison
  else match secdedCols.findIdx? (fun h => h == s) with
    | some j => .data j
    | none => .bad

/-- The word delivered under a syndrome: its data, corrected, and its poison mark (R294). -/
def synWord (d : DWord) : Syn → MWord
  | .clean => ⟨d, false⟩
  | .check => ⟨d, false⟩
  | .data j => ⟨d ^^^ (1#64 <<< j), false⟩
  | .poison => ⟨d, true⟩
  | .bad => ⟨d, true⟩

/-- A syndrome that is corrected. -/
def Syn.ce : Syn → Bool
  | .check => true | .data _ => true | .clean => false | .poison => false | .bad => false

/-- A syndrome that is an uncorrectable error, not propagated poison (R295). -/
def Syn.ue : Syn → Bool
  | .bad => true | .check => false | .data _ => false | .clean => false | .poison => false

/-- A word with some of its bytes replaced (R296). -/
def mergeBytes (old new : DWord) (be : Byte) : DWord :=
  let m := (List.range 8).foldl (fun (a : DWord) i => if be.getLsbD i then a ||| (0xFF#64 <<< (8 * i)) else a) 0
  (old &&& ~~~ m) ||| (new &&& m)

/-! ## Arithmetic -/

/-- A signed value held to `w` bits (R178, R230). -/
def satInt (w : Nat) (x : Int) : Int := max (-(2 ^ (w - 1) : Int)) (min x (2 ^ (w - 1) - 1))

/-- Redundant sign bits of a value: how many bits below the top bit equal it (R179, R231). -/
def redundantSign {w : Nat} (x : BitVec w) : Nat :=
  ((List.range (w - 1)).takeWhile (fun i => x.getLsbD (w - 2 - i) == x.getLsbD (w - 1))).length

end Sys2Proof.Machine
end

