-- ==== Sys2Proof/Machine/Store.lean ====
section
/-!
DEFINITION. The storage behind the memories, as plain reads and writes with no rights and no side effects: bank words
(R279, R294), DRAM codewords (R345, R346), configuration frames (R93), flash bytes (R81, R83), and the events that leave a memory
zero or undefined.
-/

namespace Sys2Proof.Machine

/-- A count that names the free values of contents undefined from now on (notes/assumptions/4.md). -/
def State.newEpoch (s : State) : Nat × State := (s.fresh + 2, { s with fresh := s.fresh + 1 })

/-! ## Banks -/

/-- The count under which a bank's unwritten words are undefined, or 0 when they are zero. Bank `B` is die × 8 + bank. -/
def State.bankJunk (s : State) (B : Nat) : Nat := SMap.get (fun _ => 1) s.bnk.junk B

/-- What an unlisted word of a bank is: zero with valid check bits, or undefined. -/
def bankUnlisted (junk : SMap Nat) (k : Nat) : Option BWord :=
  if SMap.get (fun _ => 1) junk (k / 2 ^ 19) = 0 then some ⟨0, 0⟩ else none

/-- Word `w` of a bank. Undefined contents have valid check bits (R300). -/
def State.bankWord (s : State) (B w : Nat) : BWord :=
  match SMap.get (bankUnlisted s.bnk.junk) s.bnk.words (B * 2 ^ 19 + w) with
  | some x => x
  | none =>
    let v := Config.undefWord B (s.bankJunk B) w
    ⟨v, secdedCheck v⟩

/-- Store word `w` of a bank. -/
def State.setBankWord (s : State) (B w : Nat) (x : BWord) : State :=
  { s with bnk := { s.bnk with words := SMap.set (bankUnlisted s.bnk.junk) s.bnk.words (B * 2 ^ 19 + w) (some x) } }

/-- Forget what a bank holds, leaving its unwritten words as count `e` says. -/
def State.clearBank (s : State) (B e : Nat) : State :=
  { s with bnk := { s.bnk with
      words := SMap.keep s.bnk.words (fun k => decide (k / 2 ^ 19 ≠ B))
      junk := SMap.set (fun _ => 1) s.bnk.junk B e } }

/-- Write every word of a bank with zero and valid check bits (R287, R290). -/
def State.zeroBank (s : State) (B : Nat) : State := s.clearBank B 0

/-- Leave a bank's contents undefined (R60, R300). -/
def State.loseBank (s : State) (B : Nat) : State := let (e, s) := s.newEpoch; s.clearBank B e

def State.bankSt (s : State) (B : Nat) : BankSt := SMap.get (fun _ => BankSt.reset) s.bnk.st B
def State.setBankSt (s : State) (B : Nat) (x : BankSt) : State :=
  { s with bnk := { s.bnk with st := SMap.set (fun _ => BankSt.reset) s.bnk.st B x } }

/-! ## DRAM -/

/-- The count under which a channel's unwritten codewords are undefined. -/
def State.dramJunk (s : State) (ch : Nat) : Nat := SMap.get (fun _ => 1) s.drm.junk ch

/-- The codeword listed for a channel-local word, if any. -/
def State.dcell (s : State) (ch w : Nat) : Option DCell := SMap.get (fun _ => none) s.drm.cells (ch * 2 ^ 40 + w)

/-- Store a codeword. -/
def State.setDcell (s : State) (ch w : Nat) (x : DCell) : State :=
  { s with drm := { s.drm with cells := SMap.set (fun _ => none) s.drm.cells (ch * 2 ^ 40 + w) (some x) } }

/-- Leave a channel's contents undefined (R60, R368). -/
def State.loseDram (s : State) (ch : Nat) : State :=
  let (e, s) := s.newEpoch
  { s with drm := { s.drm with
      cells := SMap.keep s.drm.cells (fun k => decide (k / 2 ^ 40 ≠ ch))
      junk := SMap.set (fun _ => 1) s.drm.junk ch e } }

def State.dsub (s : State) (k : Nat) : DSub := SMap.get (fun _ => DSub.reset) s.drm.sub k
def State.setDsub (s : State) (k : Nat) (x : DSub) : State :=
  { s with drm := { s.drm with sub := SMap.set (fun _ => DSub.reset) s.drm.sub k x } }
/-- The training results of channel `ch` are in its die's always-on domain (R60, R368). -/
def State.trainCopy (s : State) (ch : Nat) : Bool := SMap.get (fun _ => false) s.drm.res ch
def State.setTrainCopy (s : State) (ch : Nat) (x : Bool) : State :=
  { s with drm := { s.drm with res := SMap.set (fun _ => false) s.drm.res ch x } }
/-- The encryption engine of channel `ch`. -/
def State.mee (s : State) (ch : Nat) : MeeSt := SMap.get (fun _ => MeeSt.reset) s.drm.mee ch
def State.setMee (s : State) (ch : Nat) (x : MeeSt) : State :=
  { s with drm := { s.drm with mee := SMap.set (fun _ => MeeSt.reset) s.drm.mee ch x } }

/-! ## Configuration memory -/

/-- Frames per die (R91, R93). -/
def frameCount : Nat := 368640

/-- The key of a frame of a die. -/
def frameKey (d fa : Nat) : Nat := d * 2 ^ 19 + fa

/-- 64-bit word `w`, 0 to 63, of a frame (R93). -/
def State.frameWord (s : State) (d fa w : Nat) : DWord := SMap.get (fun _ => 0) s.cfg.frames (frameKey d fa * 64 + w)
def State.setFrameWord (s : State) (d fa w : Nat) (v : DWord) : State :=
  { s with cfg := { s.cfg with frames := SMap.set (fun _ => 0) s.cfg.frames (frameKey d fa * 64 + w) v } }

/-- The 64 words of a frame. -/
def State.frame (s : State) (d fa : Nat) : List DWord := (List.range 64).map (s.frameWord d fa)
def State.setFrame (s : State) (d fa : Nat) (ws : List DWord) : State :=
  ws.zipIdx.foldl (fun s x => s.setFrameWord d fa x.2 x.1) s

/-- The 512 bytes of a frame in order from byte 0 (R93). -/
def frameBytes (ws : List DWord) : List Byte := ws.flatMap (fun v => bytesLE 8 v.toNat)

/-- A frame's golden signature (R90, R93). -/
def State.sig (s : State) (d fa : Nat) : Word := SMap.get (fun _ => 0) s.cfg.sigs (frameKey d fa)
def State.setSig (s : State) (d fa : Nat) (v : Word) : State :=
  { s with cfg := { s.cfg with sigs := SMap.set (fun _ => 0) s.cfg.sigs (frameKey d fa) v } }
/-- The signature map marks the frame as dynamic (R90). -/
def State.dynMark (s : State) (d fa : Nat) : Bool := SMap.get (fun _ => false) s.cfg.dyn (frameKey d fa)
def State.setDynMark (s : State) (d fa : Nat) (v : Bool) : State :=
  { s with cfg := { s.cfg with dyn := SMap.set (fun _ => false) s.cfg.dyn (frameKey d fa) v } }

/-- A capture frame (R159). -/
def isCaptureFrame (fa : Nat) : Bool := decide (3056 ≤ fa % 3072)

/-- A frame that no check covers: marked dynamic, or a capture frame (R90, R160). -/
def State.isDynamic (s : State) (d fa : Nat) : Bool := s.dynMark d fa || isCaptureFrame fa

def State.setCfg (s : State) (c : CfgSt) : State := { s with cfg := c }
def State.warmOf (s : State) (d : Nat) : WarmSt := SMap.get (fun _ => WarmSt.reset) s.cfg.warm d
def State.setWarm (s : State) (d : Nat) (x : WarmSt) : State :=
  { s with cfg := { s.cfg with warm := SMap.set (fun _ => WarmSt.reset) s.cfg.warm d x } }
/-- The held REG writes of a die, in stream order (R92). -/
def State.heldOf (s : State) (d : Nat) : List (Nat × Word) := SMap.get (fun _ => []) s.cfg.held d
def State.setHeld (s : State) (d : Nat) (x : List (Nat × Word)) : State :=
  { s with cfg := { s.cfg with held := SMap.set (fun _ => []) s.cfg.held d x } }
def State.setParse (s : State) (p : ParseSt) : State := { s with cfg := { s.cfg with parse := p } }
def State.setFlash (s : State) (f : FlashSt) : State := { s with cfg := { s.cfg with flash := f } }

/-! ## Flash -/

/-- Both devices form the logical flash (R81). -/
def State.flashDual (s : State) : Bool := s.g s.head R.SYS_BOOT_STATUS.MODE == 0

/-- The device and device address of a logical byte (R81), as one key. -/
def State.flashKey (s : State) (a : Nat) : Nat :=
  if s.flashDual then (a / 2 % 2) * 2 ^ 48 + (a / 4 * 2 + a % 2) else a

/-- The logical page, the logical sector S and the size of the logical flash (R81). -/
def State.flashPage (s : State) : Nat := s.cfg.flash.dev0.page * (if s.flashDual then 2 else 1)
def State.flashSector (s : State) : Nat := s.cfg.flash.dev0.sector * (if s.flashDual then 2 else 1)
def State.flashSize (s : State) : Nat := s.cfg.flash.dev0.size * (if s.flashDual then 2 else 1)

/-- The device page a key falls in: the unit in which contents can be undefined. -/
def State.flashUnit (s : State) (k : Nat) : Nat := k / 2 ^ 48 * 2 ^ 48 + k % 2 ^ 48 / max 1 s.cfg.flash.dev0.page

/-- A byte of the logical flash: erased bytes read 0xFF (R110); undefined contents are a free value (R113). -/
def State.flashByte (s : State) (a : Nat) : Byte :=
  let k := s.flashKey a
  let e := SMap.get (fun _ => 0) s.cfg.flashJunk (s.flashUnit k)
  if e = 0 then SMap.get (fun _ => 0xFF#8) s.cfg.flashMem k else (Config.undefWord 2000 e k).truncate 8

/-- `n` bytes of the logical flash. -/
def State.flashBytes (s : State) (a n : Nat) : List Byte := (List.range n).map (fun i => s.flashByte (a + i))

/-- Set a byte of the logical flash, whose contents are defined from then on. -/
def State.setFlashByte (s : State) (a : Nat) (v : Byte) : State :=
  let k := s.flashKey a
  { s with cfg := { s.cfg with
      flashMem := SMap.set (fun _ => 0xFF#8) s.cfg.flashMem k v
      flashJunk := SMap.set (fun _ => 0) s.cfg.flashJunk (s.flashUnit k) 0 } }

/-- Write bytes to the logical flash. -/
def State.setFlashBytes (s : State) (a : Nat) (l : List Byte) : State :=
  l.zipIdx.foldl (fun s x => s.setFlashByte (a + x.2) x.1) s

/-- Leave a range of the logical flash undefined (R113). -/
def State.loseFlash (s : State) (a n : Nat) : State :=
  let (e, s) := s.newEpoch
  (List.range n).foldl (fun (s : State) i =>
    { s with cfg := { s.cfg with
        flashJunk := SMap.set (fun _ => 0) s.cfg.flashJunk (s.flashUnit (s.flashKey (a + i))) e } }) s

/-! ## The fabric -/

def State.designOf (s : State) (d : Nat) : DieDesign := SMap.get (fun _ => DieDesign.empty) s.fab.design d
def State.setDesign (s : State) (d : Nat) (x : DieDesign) : State :=
  { s with fab := { s.fab with design := SMap.set (fun _ => DieDesign.empty) s.fab.design d x } }
def State.pinsOf (s : State) (d : Nat) : PinMode := SMap.get (fun _ => .highZ) s.fab.pins d
def State.setPins (s : State) (d : Nat) (x : PinMode) : State :=
  { s with fab := { s.fab with pins := SMap.set (fun _ => .highZ) s.fab.pins d x } }
/-- Flip-flop `f` of tile `t` of a die; `k` is t × 16 + f (R159). -/
def State.ff (s : State) (d k : Nat) : Bool := SMap.get (fun _ => false) s.fab.ff (d * 2 ^ 23 + k)
def State.setFf (s : State) (d k : Nat) (v : Bool) : State :=
  { s with fab := { s.fab with ff := SMap.set (fun _ => false) s.fab.ff (d * 2 ^ 23 + k) v } }
/-- The 64 bits of a cell's function generator; `k` is tile × 8 + cell (R139). -/
def State.lut (s : State) (d k : Nat) : DWord := SMap.get (fun _ => 0) s.fab.lut (d * 2 ^ 22 + k)
def State.setLut (s : State) (d k : Nat) (v : DWord) : State :=
  { s with fab := { s.fab with lut := SMap.set (fun _ => 0) s.fab.lut (d * 2 ^ 22 + k) v } }
/-- A cascade chain, by the site of its lowest block (R174). -/
def State.chainOf (s : State) (d k : Nat) : ChainSt := SMap.get (fun _ => ChainSt.reset) s.fab.chain (d * 4096 + k)
def State.setChain (s : State) (d k : Nat) (x : ChainSt) : State :=
  { s with fab := { s.fab with chain := SMap.set (fun _ => ChainSt.reset) s.fab.chain (d * 4096 + k) x } }
/-- An I/O cell: pins 0 to 95 are HSIO, 96 to 119 HS3 (R154, R156). -/
def State.ioOf (s : State) (d p : Nat) : IoCell := SMap.get (fun _ => IoCell.reset) s.fab.io (d * 128 + p)
def State.setIo (s : State) (d p : Nat) (x : IoCell) : State :=
  { s with fab := { s.fab with io := SMap.set (fun _ => IoCell.reset) s.fab.io (d * 128 + p) x } }
def State.bmem (s : State) (d k : Nat) : Bmem := SMap.get (fun _ => Bmem.reset) s.fab.bm (d * 4096 + k)
def State.setBmem (s : State) (d k : Nat) (x : Bmem) : State :=
  { s with fab := { s.fab with bm := SMap.set (fun _ => Bmem.reset) s.fab.bm (d * 4096 + k) x } }
def State.arithOf (s : State) (d k : Nat) : Arith := SMap.get (fun _ => Arith.reset) s.fab.arith (d * 8192 + k)
def State.setArith (s : State) (d k : Nat) (x : Arith) : State :=
  { s with fab := { s.fab with arith := SMap.set (fun _ => Arith.reset) s.fab.arith (d * 8192 + k) x } }
def State.snapOf (s : State) (d : Nat) : Snap := SMap.get (fun _ => Snap.reset) s.fab.snap d
def State.setSnap (s : State) (d : Nat) (x : Snap) : State :=
  { s with fab := { s.fab with snap := SMap.set (fun _ => Snap.reset) s.fab.snap d x } }
/-- The readback that runs on a die (R165). -/
def State.rbOf (s : State) (d : Nat) : Option RbSt := SMap.get (fun _ => none) s.fab.rb d
def State.setRb (s : State) (d : Nat) (x : Option RbSt) : State :=
  { s with fab := { s.fab with rb := SMap.set (fun _ => none) s.fab.rb d x } }
/-- Port FIFO `n`, 0 to 7 ingress, 8 to 15 egress (FAB_PFIFO_STATUSn). -/
def State.fifo (s : State) (d n : Nat) : Pfifo := SMap.get (fun _ => Pfifo.reset) s.fab.fifo (d * 16 + n)
def State.setFifo (s : State) (d n : Nat) (x : Pfifo) : State :=
  ({ s with fab := { s.fab with fifo := SMap.set (fun _ => Pfifo.reset) s.fab.fifo (d * 16 + n) x } }).p d
    (R.FAB_PFIFO_STATUS.FILL n) x.words.length
def State.kslot (s : State) (d k : Nat) : Kslot := SMap.get (fun _ => Kslot.reset) s.fab.kslot (d * 64 + k)
def State.setKslot (s : State) (d k : Nat) (x : Kslot) : State :=
  ({ s with fab := { s.fab with kslot := SMap.set (fun _ => Kslot.reset) s.fab.kslot (d * 64 + k) x } }).p d
    (R.FAB_KSLOT_STATUS.OUTST k) x.outst.length
def State.nport (s : State) (d p : Nat) : Nport := SMap.get (fun _ => Nport.reset) s.fab.nport (d * 32 + p)
def State.setNport (s : State) (d p : Nat) (x : Nport) : State :=
  { s with fab := { s.fab with nport := SMap.set (fun _ => Nport.reset) s.fab.nport (d * 32 + p) x } }
def State.prOf (s : State) (d r : Nat) : PrSt := SMap.get (fun _ => PrSt.reset) s.fab.pr (d * 32 + r)
def State.setPr (s : State) (d r : Nat) (x : PrSt) : State :=
  { s with fab := { s.fab with pr := SMap.set (fun _ => PrSt.reset) s.fab.pr (d * 32 + r) x } }
/-- The repair queue of a die (R212). -/
def State.seuOf (s : State) (d : Nat) : List SeuEnt := SMap.get (fun _ => []) s.fab.seu d
def State.setSeu (s : State) (d : Nat) (x : List SeuEnt) : State :=
  (({ s with fab := { s.fab with seu := SMap.set (fun _ => []) s.fab.seu d x } }).p d R.CFG_SWEEP_STATUS.QFILL
    x.length).p d R.CFG_SWEEP_STATUS.FLASH_PENDING (if x.any (fun e => e.flash) then 1 else 0)

/-! ## Signal engines -/

/-- Engine `i` of die `d`. -/
def State.eng (s : State) (d i : Nat) : SEng := SMap.get (fun _ => SEng.reset) s.se.eng (d * 48 + i)

/-- A channel that has a transfer (R239). -/
def DmaCh.busy (c : DmaCh) : Bool := c.run.isSome

/-- The requests of an engine's stopped channels that have not completed. -/
def State.seLate (s : State) (d i : Nat) : List SeLate := SMap.get (fun _ => []) s.se.late (d * 48 + i)

/-- Store an engine; SEA_STATUSi shows its PC and channels, SEA_DOORBELLi its doorbell. -/
def State.setEng (s : State) (d i : Nat) (e : SEng) : State :=
  ((({ s with se := { s.se with eng := SMap.set (fun _ => SEng.reset) s.se.eng (d * 48 + i) e } }).p d
    (R.SEA_STATUS.PC i) e.pc).p d (R.SEA_STATUS.DMA_BUSY i) (if e.dma0.busy || e.dma1.busy || !(s.seLate d i).isEmpty then 1 else 0)).p d
    (R.SEA_DOORBELL.RING i) (if e.pend.getLsbD 0 then 1 else 0)

def State.setSeLate (s : State) (d i : Nat) (l : List SeLate) : State :=
  { s with se := { s.se with late := SMap.set (fun _ => []) s.se.late (d * 48 + i) l } }

/-- Word `w` of an engine's data memory (R217, R247). -/
def State.dmWord (s : State) (d i w : Nat) : BWord := SMap.get (fun _ => ⟨0, 0⟩) s.se.dm ((d * 48 + i) * 32768 + w)
def State.setDmWord (s : State) (d i w : Nat) (x : BWord) : State :=
  { s with se := { s.se with dm := SMap.set (fun _ => ⟨0, 0⟩) s.se.dm ((d * 48 + i) * 32768 + w) x } }
/-- Instruction `n` of an engine's program memory with its check bits (R218, R248). -/
def State.pmWord (s : State) (d i n : Nat) : BitVec 39 := SMap.get (fun _ => 0) s.se.pm ((d * 48 + i) * 16384 + n)
def State.setPmWord (s : State) (d i n : Nat) (x : BitVec 39) : State :=
  { s with se := { s.se with pm := SMap.set (fun _ => 0) s.se.pm ((d * 48 + i) * 16384 + n) x } }
/-- An engine's memories are filled with zero and valid check bits (R249). -/
def State.zeroSeMem (s : State) (d i : Nat) : State :=
  { s with se := { s.se with
      dm := SMap.keep s.se.dm (fun k => decide (k / 32768 ≠ d * 48 + i))
      pm := SMap.keep s.se.pm (fun k => decide (k / 16384 ≠ d * 48 + i)) } }

/-! ## The dispatcher -/

def State.dfdOf (s : State) (d : Nat) : DfdSt := SMap.get (fun _ => DfdSt.reset) s.dfd d
def State.putDfd (s : State) (d : Nat) (x : DfdSt) : State := { s with dfd := SMap.set (fun _ => DfdSt.reset) s.dfd d x }

/-- The completion buffer of a die has room: while its 64 entries are full, completions wait in their units (R271). -/
def State.cplRoom (s : State) (d : Nat) : Bool := decide ((s.dfdOf d).cpls.length < 64)

/-- A unit sends a completion; it waits in the completion buffer of its die (R271). -/
def State.sendCpl (s : State) (d : Nat) (c : DCpl) : State :=
  let x := s.dfdOf d
  s.putDfd d { x with cpls := x.cpls ++ [c] }

/-! ## Lanes and port engines -/

def State.lane (s : State) (d n : Nat) : LaneSt := SMap.get (fun _ => LaneSt.reset) s.lan.lane (d * 32 + n)
def State.setLane (s : State) (d n : Nat) (x : LaneSt) : State :=
  { s with lan := { s.lan with lane := SMap.set (fun _ => LaneSt.reset) s.lan.lane (d * 32 + n) x } }
def State.pair (s : State) (d k : Nat) : PairSt := SMap.get (fun _ => PairSt.reset) s.lan.pair (d * 16 + k)
def State.setPair (s : State) (d k : Nat) (x : PairSt) : State :=
  { s with lan := { s.lan with pair := SMap.set (fun _ => PairSt.reset) s.lan.pair (d * 16 + k) x } }
/-- A quad's reference input in Hz; none is stated before one has been measured (notes/assumptions/33.md). -/
def State.qclk (s : State) (d q : Nat) : Nat := SMap.get (fun _ => 156250000) s.lan.qclk (d * 8 + q)
def State.setQclk (s : State) (d q hz : Nat) : State :=
  { s with lan := { s.lan with qclk := SMap.set (fun _ => 156250000) s.lan.qclk (d * 8 + q) hz } }

def State.setPen (s : State) (x : PenSt) : State := { s with pen := x }
def State.penDie (s : State) (d : Nat) : PenDie := SMap.get (fun _ => PenDie.reset) s.pen.die d
/-- Store a port engine's own state; PEN_STATUS shows its learn queue. -/
def State.setPenDie (s : State) (d : Nat) (x : PenDie) : State :=
  (s.setPen { s.pen with die := SMap.set (fun _ => PenDie.reset) s.pen.die d x }).p d R.PEN_STATUS.LQ_FILL x.learn.length
/-- Entry `i` of a table: 0 to 7 a die's replica, 8 the arbiter's (R396, R400). -/
def State.l2 (s : State) (t i : Nat) : Option L2Ent := SMap.get (fun _ => none) s.pen.l2 (t * 2 ^ 19 + i)
def State.setL2 (s : State) (t i : Nat) (x : Option L2Ent) : State :=
  s.setPen { s.pen with l2 := SMap.set (fun _ => none) s.pen.l2 (t * 2 ^ 19 + i) x }
def State.window (s : State) (t i : Nat) : Bool := SMap.get (fun _ => false) s.pen.window (t * 2 ^ 19 + i)
def State.setWindow (s : State) (t i : Nat) (x : Bool) : State :=
  s.setPen { s.pen with window := SMap.set (fun _ => false) s.pen.window (t * 2 ^ 19 + i) x }
def State.vlanWord (s : State) (d v w : Nat) : Word := SMap.get (fun _ => 0) s.pen.vlan ((d * 4096 + v) * 4 + w)
def State.setVlanWord (s : State) (d v w : Nat) (x : Word) : State :=
  s.setPen { s.pen with vlan := SMap.set (fun _ => 0) s.pen.vlan ((d * 4096 + v) * 4 + w) x }
def State.nhop (s : State) (d i : Nat) : Word := SMap.get (fun _ => 0) s.pen.nh (d * 2 ^ 20 + i)
def State.setNhop (s : State) (d i : Nat) (x : Word) : State :=
  s.setPen { s.pen with nh := SMap.set (fun _ => 0) s.pen.nh (d * 2 ^ 20 + i) x }
def qKey (d e q : Nat) : Nat := (d * 64 + e) * 8 + q
def State.queue (s : State) (d e q : Nat) : List Frame := SMap.get (fun _ => []) s.pen.queue (qKey d e q)
def State.paused (s : State) (d e q : Nat) : Bool := SMap.get (fun _ => false) s.pen.paused (qKey d e q)
def State.setPaused (s : State) (d e q : Nat) (x : Bool) : State :=
  s.setPen { s.pen with paused := SMap.set (fun _ => false) s.pen.paused (qKey d e q) x }
def State.deficit (s : State) (d e q : Nat) : Nat := SMap.get (fun _ => 0) s.pen.deficit (qKey d e q)
def State.setDeficit (s : State) (d e q x : Nat) : State :=
  s.setPen { s.pen with deficit := SMap.set (fun _ => 0) s.pen.deficit (qKey d e q) x }
def State.drr (s : State) (d e : Nat) : DrrSt := SMap.get (fun _ => DrrSt.reset) s.pen.drr (d * 64 + e)
def State.setDrr (s : State) (d e : Nat) (x : DrrSt) : State :=
  s.setPen { s.pen with drr := SMap.set (fun _ => DrrSt.reset) s.pen.drr (d * 64 + e) x }
def State.hello (s : State) (d p : Nat) : HelloSt := SMap.get (fun _ => HelloSt.reset) s.pen.hello (d * 32 + p)
def State.setHello (s : State) (d p : Nat) (x : HelloSt) : State :=
  s.setPen { s.pen with hello := SMap.set (fun _ => HelloSt.reset) s.pen.hello (d * 32 + p) x }
def State.ringAck (s : State) (d r : Nat) : Option Resp := SMap.get (fun _ => none) s.pen.ring (d * 16 + r)
def State.setRingAck (s : State) (d r : Nat) (x : Option Resp) : State :=
  s.setPen { s.pen with ring := SMap.set (fun _ => none) s.pen.ring (d * 16 + r) x }
def State.air (s : State) (d e : Nat) : List TrunkFrame := SMap.get (fun _ => []) s.pen.air (d * 4 + e)
def State.setAir (s : State) (d e : Nat) (x : List TrunkFrame) : State :=
  s.setPen { s.pen with air := SMap.set (fun _ => []) s.pen.air (d * 4 + e) x }
def State.yout (s : State) (d : Nat) : List Frame := SMap.get (fun _ => []) s.pen.yout d
def State.setYout (s : State) (d : Nat) (x : List Frame) : State :=
  s.setPen { s.pen with yout := SMap.set (fun _ => []) s.pen.yout d x }

/-! ## The network -/

/-- A die's cached copy of a line. -/
def State.copyOf (s : State) (q line : Nat) : Option CLine := SMap.get (fun _ => none) s.coh.cache (q * 2 ^ 48 + line)
def State.setCopy (s : State) (q line : Nat) (x : Option CLine) : State :=
  { s with coh := { s.coh with cache := SMap.set (fun _ => none) s.coh.cache (q * 2 ^ 48 + line) x } }
def State.dirOf (s : State) (line : Nat) : Option DirEnt := SMap.get (fun _ => none) s.coh.dir line
def State.setDir (s : State) (line : Nat) (x : Option DirEnt) : State :=
  { s with coh := { s.coh with dir := SMap.set (fun _ => none) s.coh.dir line x } }
/-- The request a requester has under a tag. -/
def State.netOf (s : State) (rid tag : Nat) : Option NetReq := SMap.get (fun _ => none) s.coh.net (rid * 512 + tag)
def State.setNet (s : State) (rid tag : Nat) (x : Option NetReq) : State :=
  { s with coh := { s.coh with net := SMap.set (fun _ => none) s.coh.net (rid * 512 + tag) x } }
/-- A request is issued: it is in the network under its tag, after every earlier one (R20). -/
def State.sendNet (s : State) (q : Req) (tag : Nat) (place : NetPlace) : State :=
  ({ s with coh := { s.coh with sent := s.coh.sent + 1 } }).setNet q.m.rid tag (some ⟨q, place, false, s.coh.sent⟩)

/-- A hart. -/
def State.hart (s : State) (k : Nat) : HartSt := SMap.get (fun _ => HartSt.reset) s.harts k
def State.setHart (s : State) (k : Nat) (x : HartSt) : State :=
  { s with harts := SMap.set (fun _ => HartSt.reset) s.harts k x }

end Sys2Proof.Machine
end

