-- ==== Sys2Proof/Machine/Boot.lean ====
section
/-!
DEFINITION. What the head die's Parser reads in flash before it reads an image (04_configuration): the boot records (R84), the trial
log (R85) and the order in which slots are tried (R100).
-/

namespace Sys2Proof.Machine

/-! ## Boot records -/

/-- The areas that a slot must not meet or run past (R84). -/
def slotFits (sector size base len : Nat) : Bool :=
  base != 0 && len != 0 && base % sector == 0 && len % sector == 0 && decide (3 * sector ≤ base) && decide (base + len ≤ size)

def slotsApart (a al b bl : Nat) : Bool := decide (a + al ≤ b) || decide (b + bl ≤ a)

/-- The boot record in 256 bytes, if they hold a valid one, for a logical flash of a sector and a size (R84). -/
def parseBootRec (sector size : Nat) (l : List Byte) : Option BootRec :=
  let at8 (o : Nat) : Nat := leAt l o 8
  let b : BootRec := {
    seq := leAt l 8 4, active := leAt l 12 1, previous := leAt l 13 1, pending := leAt l 14 1 == 1
    trials := if leAt l 15 1 = 0 then 3 else leAt l 15 1, freq := leAt l 16 1
    aBase := at8 0x18, aSize := at8 0x20, bBase := at8 0x28, bSize := at8 0x30, gBase := at8 0x38, gSize := at8 0x40 }
  if leAt l 0 4 == 0x74425243 && leAt l 4 4 / 65536 == 1 && leAt l 0xFC 4 == (crc32c (l.take 0xFC)).toNat
      && decide (b.active ≤ 2) && (decide (b.previous ≤ 2) || b.previous == 0xFF) && decide (leAt l 14 1 ≤ 1)
      && decide (leAt l 15 1 ≤ 15) && decide (25 ≤ b.freq ∧ b.freq ≤ 50) && leAt l 0x11 7 == 0 && leAt l 0x48 180 == 0
      && slotFits sector size b.aBase b.aSize && slotFits sector size b.bBase b.bSize && slotFits sector size b.gBase b.gSize
      && slotsApart b.aBase b.aSize b.bBase b.bSize && slotsApart b.aBase b.aSize b.gBase b.gSize
      && slotsApart b.bBase b.bSize b.gBase b.gSize then some b else none

/-- Boot record copy `c`, 0 or 1, if it is valid. -/
def State.bootCopy (s : State) (c : Nat) : Option BootRec :=
  parseBootRec s.flashSector s.flashSize (s.flashBytes (c * s.flashSector) 256)

/-- The boot record in force and its copy (R84). -/
def State.bootRecord (s : State) : Option (BootRec × Nat) :=
  match s.bootCopy 0, s.bootCopy 1 with
  | some a, some b => if a.seq < b.seq then some (b, 1) else some (a, 0)
  | some a, none => some (a, 0)
  | none, some b => some (b, 1)
  | none, none => none

/-! ## The trial log -/

def Trial.attempt : Nat := 1
def Trial.confirm : Nat := 2

/-- The logical addresses of the pages of the log. -/
def State.logPages (s : State) : List Nat :=
  (List.range (s.flashSector / max 1 s.flashPage)).map (fun i => 2 * s.flashSector + i * s.flashPage)

/-- The 16 bytes of an entry (R85). -/
def trialEntry (seq kind : Nat) : List Byte :=
  let l := bytesLE 4 0x54474F4C ++ bytesLE 4 seq ++ bytesLE 4 kind
  l ++ bytesLE 4 (crc32c l).toNat

/-- The number of entries of a kind with a SEQ: only those with a correct MAGIC and CRC count. -/
def State.trialCount (s : State) (seq kind : Nat) : Nat :=
  (s.logPages.filter (fun a => s.flashBytes a 16 == trialEntry seq kind)).length

/-- Whether every byte of a range of the logical flash reads 0xFF. -/
def State.flashBlank (s : State) (a n : Nat) : Bool := (s.flashBytes a n).all (fun b => b == 0xFF#8)

/-- The lowest blank page of the log. -/
def State.blankPage (s : State) : Option Nat := s.logPages.find? (fun a => s.flashBlank a s.flashPage)

/-- Program an entry in the lowest blank page of the log, if there is one. -/
def State.addTrial (s : State) (seq kind : Nat) : Option State :=
  s.blankPage.map (fun a => s.setFlashBytes a (trialEntry seq kind))

/-- The programming of an entry is cut short: a partial entry, which fails its CRC (R103). -/
def State.cutTrial (s : State) : State :=
  match s.blankPage with
  | none => s
  | some a =>
    let (f, s) := s.free 96
    let l := bytesLE 12 f.toNat
    s.setFlashBytes a (l ++ bytesLE 4 (~~~ crc32c l).toNat)

/-! ## Slots -/

/-- The base of a slot, and the bytes it has (R83, R84). -/
def State.slotAt (s : State) (n : Nat) : Nat × Nat :=
  match s.cfg.flash.br with
  | some b => if n = 0 then (b.aBase, b.aSize) else if n = 1 then (b.bBase, b.bSize) else (b.gBase, b.gSize)
  | none => (0x01000000, s.flashSize - 0x01000000)

/-- The slots in an order, each once and without "none" (R100). -/
def slotOrder : List Nat → List Nat
  | [] => []
  | n :: l => if 2 < n then slotOrder l else n :: (slotOrder l).filter (fun k => k != n)

/-- The slot plan, with the ATTEMPT entry programmed where the record is on trial and the flash lets it be (R100). -/
def makePlan (s : State) (attempt : Bool) : State :=
  let rec_ := s.bootRecord
  let s := s.setFlash { s.cfg.flash with br := rec_.map (fun x => x.1) }
  let h := s.head
  match rec_ with
  | none => (s.p h R.CFG_BOOT_STATUS.BR_COPY 3).setFlash { s.cfg.flash with plan := some [2] }
  | some (b, copy) =>
    let s := (s.p h R.CFG_BOOT_STATUS.BR_COPY copy).p h R.CFG_BOOT_SEQ.SEQ b.seq
    let tried := s.trialCount b.seq Trial.attempt
    let onTrial := b.pending && s.trialCount b.seq Trial.confirm == 0
    let (order, s) :=
      if onTrial then
        if b.trials ≤ tried then ([b.previous, 2], s)
        else if attempt then
          match s.addTrial b.seq Trial.attempt with
          | some t => ([b.active, b.previous, 2], t)
          | none => ([b.previous, 2], s)
        else ([b.previous, 2], s.cutTrial)
      else ([b.active, b.previous, 2], s)
    let s := s.p h R.CFG_BOOT_STATUS.ATTEMPTS (min 15 (s.trialCount b.seq Trial.attempt))
    s.setFlash { s.cfg.flash with plan := some (slotOrder order) }

/-! ## The codes of R104 -/

def Lerr.none : Nat := 0x00
def Lerr.flash : Nat := 0x01
def Lerr.hdrHash : Nat := 0x02
def Lerr.hdrFormat : Nat := 0x03
def Lerr.part : Nat := 0x04
def Lerr.stepping : Nat := 0x05
def Lerr.keyHash : Nat := 0x06
def Lerr.signature : Nat := 0x07
def Lerr.svn : Nat := 0x08
def Lerr.policy : Nat := 0x09
def Lerr.keyUnavailable : Nat := 0x0A
def Lerr.chain : Nat := 0x0B
def Lerr.gcmTag : Nat := 0x0C
def Lerr.length : Nat := 0x0D
def Lerr.record : Nat := 0x0E
def Lerr.sigOrder : Nat := 0x0F
def Lerr.frameCheck : Nat := 0x10
def Lerr.frameMissing : Nat := 0x11
def Lerr.regDenied : Nat := 0x12
def Lerr.dieAbsent : Nat := 0x13
def Lerr.dieLink : Nat := 0x14
def Lerr.wakeOrder : Nat := 0x15
def Lerr.lockTimeout : Nat := 0x16
def Lerr.warmDigest : Nat := 0x17
def Lerr.tamper : Nat := 0x18
def Lerr.busy : Nat := 0x19

end Sys2Proof.Machine
end

