-- ==== Sys2Proof/Machine/Operands.lean ====
section
/-!
DEFINITION. What a command's operands name: the dies and routers behind a requester ID (R2, R3, R302), the system address
and its map (R23 to R28), the path between two dies (R303), and the rights a master class carries (R116, R117).
-/

namespace Sys2Proof.Machine

/-! ## Geometry -/

/-- The grid column and row of a die (R2). -/
def State.col (s : State) (d : Nat) : Nat := d % s.dev.part.width
def State.row (s : State) (d : Nat) : Nat := d / s.dev.part.width

/-- The node ID of the router at die-local (x, y) of a die (R3). -/
def State.node (s : State) (d x y : Nat) : Nat := (s.row d * 8 + y) * 32 + (s.col d * 6 + x)

/-- The requester ID of a port of a router (R3). -/
def State.rid (s : State) (d x y port : Nat) : Nat := s.node d x y * 8 + port

/-- The die a requester ID belongs to (R2, R3). -/
def State.dieOfRid (s : State) (rid : Nat) : Nat :=
  let node := rid / 8
  (node / 32 / 8) * s.dev.part.width + (node % 32) / 6

/-- The requester IDs of the die's own masters (R302). -/
def State.coreRid (s : State) (d c : Nat) : Nat := s.rid d (1 + c) 4 0
def State.seRid (s : State) (d i : Nat) : Nat := s.rid d (1 + (i / 6) % 4) ((i / 6) / 4) (i % 6)
def State.nocpRid (s : State) (d p : Nat) : Nat := s.rid d (1 + (p / 4) % 4) (2 + p / 16) (p % 4)
def State.dfdRid (s : State) (d : Nat) : Nat := s.rid d 2 7 0
def State.penRid (s : State) (d k : Nat) : Nat := s.rid d 3 7 k
def State.parserRid (s : State) (d : Nat) : Nat := s.rid d 4 7 0
def State.mgmtRid (s : State) (d : Nat) : Nat := s.rid d 1 7 1

/-- The masters inside the device (R116, R302). -/
def State.seMaster (s : State) (d i : Nat) : Master := ⟨.seDma, s.seRid d i⟩
def State.dfdMaster (s : State) (d : Nat) : Master := ⟨.dfd, s.dfdRid d⟩
def State.parserMaster (s : State) (d : Nat) : Master := ⟨.parser, s.parserRid d⟩
def State.penMaster (s : State) (d : Nat) : Master := ⟨.pen, s.penRid d 0⟩

/-! ## Edges and paths -/

/-- The states of an edge (BDL_STATUSe.STATE). -/
def Edge.absent : Nat := 0
def Edge.training : Nat := 1
def Edge.caps : Nat := 2
def Edge.up : Nat := 3
def Edge.down : Nat := 4
def Edge.fatal : Nat := 5
def Edge.raw : Nat := 6

/-- The die at the far side of an edge: 0 is +X, 1 is -X, 2 is +Y, 3 is -Y. -/
def State.neighbour (s : State) (d e : Nat) : Option Nat :=
  let w := s.dev.part.width
  let h := s.dev.part.dies / w
  if e = 0 then if s.col d + 1 < w then some (d + 1) else none
  else if e = 1 then if 0 < s.col d then some (d - 1) else none
  else if e = 2 then if s.row d + 1 < h then some (d + w) else none
  else if 0 < s.row d then some (d - w) else none

/-- The edge that faces another from the far side. -/
def farEdge (e : Nat) : Nat := if e % 2 = 0 then e + 1 else e - 1

/-- The state of an edge; the companion's edges (R338) stand as their F-die ends do. -/
def State.edgeState (s : State) (d e : Nat) : Nat :=
  if s.present d then s.g d (R.BDL_STATUS.STATE e)
  else match s.neighbour d e with
    | some n => s.g n (R.BDL_STATUS.STATE (farEdge e))
    | none => Edge.absent

/-- An edge that carries packets: not Fatal, not DOWN, not RAW (R331, R335, R339). -/
def State.edgeCarries (s : State) (d e : Nat) : Bool := s.edgeState d e == Edge.up

/-- An edge that is being brought up, or brought up again (R333, R341). -/
def State.edgeRising (s : State) (d e : Nat) : Bool := s.edgeState d e == Edge.training || s.edgeState d e == Edge.caps

/-- The edges, as (die, edge) pairs seen from the sending side, on the way from column `c` to column `c2` of a row. -/
def xHops (w row : Nat) (c c2 : Nat) : List (Nat × Nat) :=
  if c < c2 then (List.range (c2 - c)).map (fun k => (row * w + c + k, 0))
  else (List.range (c - c2)).map (fun k => (row * w + c - k, 1))

/-- The edges on the way from row `r` to row `r2` of a column. -/
def yHops (w col : Nat) (r r2 : Nat) : List (Nat × Nat) :=
  if r < r2 then (List.range (r2 - r)).map (fun k => ((r + k) * w + col, 2))
  else (List.range (r - r2)).map (fun k => ((r - k) * w + col, 3))

/-- The edges a packet crosses from one die to another: along X, then along Y (R303). -/
def State.path (s : State) (a b : Nat) : List (Nat × Nat) :=
  let w := s.dev.part.width
  xHops w (s.row a) (s.col a) (s.col b) ++ yHops w (s.col b) (s.row a) (s.row b)

/-- Every edge of the way from one die to another carries packets. -/
def State.pathUp (s : State) (a b : Nat) : Bool := (s.path a b).all (fun h => s.edgeCarries h.1 h.2)

/-- A request and its response can both cross (R331). -/
def State.roundTrip (s : State) (a b : Nat) : Bool := s.pathUp a b && s.pathUp b a

/-- A pulse of event `n` of die `d` goes to every controller that can be reached (R427, R430). -/
def State.pulse (s : State) (d n : Nat) : State := s.pulseTo (s.dies.filter (fun r => s.pathUp d r)) n

end Sys2Proof.Machine
end

