-- ==== Sys2Proof/Machine/Rights.lean ====
section
/-!
DEFINITION. Who may do what: the life-cycle state and the effective debug level (R118, R128), the supervisors (R282), the
rights of KeyIDs (R130), and the blocks that a reset holds (R29, R64, R65).
-/

namespace Sys2Proof.Machine

/-! ## Life cycle -/

def Lc.blank : Nat := 0
def Lc.provisioned : Nat := 1
def Lc.deployed : Nat := 2
def Lc.returned : Nat := 3
def Lc.scrapped : Nat := 4

/-- Pair `p` of the life-cycle fuses has a bit blown (R118). -/
def lcPair (lc : BitVec 8) (p : Nat) : Bool := lc.getLsbD (2 * p) || lc.getLsbD (2 * p + 1)

/-- The life-cycle state: the highest state whose pair has either bit blown (R118). -/
def lcOf (lc : BitVec 8) : Nat :=
  if lcPair lc 3 then Lc.scrapped else if lcPair lc 2 then Lc.returned else if lcPair lc 1 then Lc.deployed
  else if lcPair lc 0 then Lc.provisioned else Lc.blank

def State.lc (s : State) : Nat := lcOf s.sec.fuses.lc

/-- The effective debug level (R118): 0 LOCKED, 1 DEBUG_NS, 2 DEBUG_FULL, 3 RETURN. In Lockdown JTAG accepts IDCODE and BYPASS
only (R135). -/
def State.dbgLevel (s : State) : Nat :=
  if s.boot.lockdown then 0
  else if s.lc = Lc.deployed then s.g s.head R.SEC_LC.DBG_LEVEL else if s.lc = Lc.scrapped then 0 else 2

/-- The debug module asks for what only DEBUG_FULL grants (R128). -/
def debugBelow (s : State) (m : Master) : Bool := m.cls == .debug && decide (s.dbgLevel < 2)

/-- The debug module cannot be reached, so no access of its class arises (R128; notes/assumptions/57.md). -/
def State.debugShut (s : State) (m : Master) : Bool := m.cls == .debug && s.dbgLevel == 0

/-- A supervisor (R282). -/
def State.supervisor (s : State) (m : Master) : Bool :=
  m.cls == .coreM || m.cls == .mgmt || (m.cls == .debug && decide (2 ≤ s.dbgLevel))

/-- The master may use a KeyID (R130). -/
def State.keyRight (s : State) (m : Master) (k : Nat) : Bool :=
  if m.cls = .debug ∧ s.dbgLevel < 2 then s.dbgLevel == 1 && k == 0
  else s.bit s.head (R.SEC_KEYID_RIGHTS.CLASSES k) m.cls.bit

/-! ## Held blocks -/

/-- The bits of SYS_RST_BLOCK (R64). -/
def Blk.apc : Nat := 0
def Blk.sea : Nat := 1
def Blk.dfd : Nat := 2
def Blk.pen : Nat := 3
def Blk.lan : Nat := 4
def Blk.ddr0 : Nat := 5
def Blk.mee0 : Nat := 7
def Blk.bnk : Nat := 9
def Blk.rlc : Nat := 10
def Blk.mon : Nat := 11
def Blk.evt : Nat := 12
def Blk.gsr : Nat := 13

/-- The wake-up steps of R74. -/
def WStep.lock : Nat := 1
def WStep.goe : Nat := 2
def WStep.gsr : Nat := 3
def WStep.gwe : Nat := 4
def WStep.ddrw : Nat := 5
def WStep.core : Nat := 6
def WStep.lane : Nat := 7
def WStep.done : Nat := 8

/-- A block that leaves the no-image reset at the GSR step, or the cores, at CORE (R29, R74). The controllers of a warm load
run from its start (R109). In Lockdown every hard block is in reset (R135). -/
def State.noImageHold (s : State) (d b : Nat) : Bool :=
  if s.boot.lockdown then true
  else if b = Blk.apc then !s.stepDone d WStep.core
  else if b = Blk.sea ∨ b = Blk.dfd ∨ b = Blk.pen ∨ b = Blk.bnk ∨ b = Blk.gsr then !s.stepDone d WStep.gsr
  else if 5 ≤ b ∧ b ≤ 8 then !s.stepDone d WStep.gsr && !s.boot.warm
  else false

/-- A block is in reset (R29, R64), or its release waits for its gate (R65). -/
def State.held (s : State) (d b : Nat) : Bool :=
  s.bit d R.SYS_RST_BLOCK.HOLD b || (s.ladOf d).gated.testBit b || s.noImageHold d b

/-! ## Fences (R200, R201) -/

/-- The states of a region (FAB_PR_STATUSr.STATE). -/
def Pr.active : Nat := 0
def Pr.draining : Nat := 1
def Pr.fenced : Nat := 2
def Pr.loading : Nat := 3
def Pr.failed : Nat := 4
def Pr.releasing : Nat := 5
def Pr.absent : Nat := 7

def State.prState (s : State) (d r : Nat) : Nat := s.g d (R.FAB_PR_STATUS.STATE r)

/-- The region's wrappers are closed (R200): from FENCED until it is ACTIVE again. -/
def State.regionFenced (s : State) (d r : Nat) : Bool := decide (Pr.fenced ≤ s.prState d r ∧ s.prState d r ≤ Pr.releasing)

/-- The level of user event line `n` (R429): 0 before GSR, while FAB_GSR is held, and while the region of the primitive that
drives it is fenced. -/
def State.usrLevel (s : State) (n : Nat) : Bool :=
  s.usr.getLsbD n && s.dies.any (fun d => !s.held d Blk.gsr && (s.designOf d).irqs.any (fun x => x.1 == n &&
    match x.2 with
    | some r => !s.regionFenced d r
    | none => true))

/-- The die's domain is below RUN. -/
def State.belowRun (s : State) (d : Nat) : Bool := s.g d R.PWR_STATUS.STATE != Ladder.run

/-- The die is in FULL_STOP or is entering it (R312); while it leaves FULL_STOP it starts up again (R445). -/
def State.fullStopped (s : State) (d : Nat) : Bool :=
  (s.g d R.PWR_STATUS.STATE == Ladder.fullStop && s.g d R.PWR_STATUS.PHASE == 0)
    || (s.g d R.PWR_STATUS.PHASE == 1 && (s.ladOf d).goal == Ladder.fullStop)

/-- A wake source starts a die's exit (R444, R446): while the die is entering a state, the wake is latched. -/
def wakeDie (s : State) (d src : Nat) : State :=
  if s.g d R.PWR_STATUS.PHASE = 1 then
    (s.setLad d { s.ladOf d with latched := some Ladder.run, src := src }).p d R.PWR_STATUS.PEND 1
  else if s.belowRun d ∧ s.g d R.PWR_STATUS.PHASE = 0 then
    (s.p d R.PWR_STATUS.PHASE 2).p d R.PWR_STATUS.LAST_WAKE src
  else s

end Sys2Proof.Machine
end

