-- ==== Sys2Proof/Machine/Reset.lean ====
section
/-!
DEFINITION. Resets of RECONFIG scope and wider (R56 to R63, R98, R99): what each reaches and what survives, and when a block
of the clock tree is busy (R47).
-/

namespace Sys2Proof.Machine

/-! ## Busy blocks (R47) -/

/-- One of the eight KeyIDs of an MEE_KSTATE register is REKEYING. -/
def rekeys (v : Nat) : Bool := (List.range 8).any (fun j => v / 16 ^ j % 8 == 3)

/-- A request in the network is on its way to a memory of engine `i` of die `d` (R24, R249). -/
def seAwaited (s : State) (d i : Nat) : Bool :=
  s.coh.net.any (fun e => match e.2 with
    | some r => r.place != .done && r.req.addr.toNat / 0x80000 == 0x400 + d * 48 + i
    | none => false)

/-- A block's own gate finds it busy (R47, R249, R300, R342): requests accepted and not completed, or an internal operation. A block
held in reset is never busy (R65). -/
def gateBusy (s : State) (d g : Nat) : Bool :=
  let edge (e : Nat) : Bool := let v := s.edgeState d e; v == Edge.training || v == Edge.caps || v == Edge.up || v == Edge.raw
  let sub (ch : Nat) : Bool := let x := s.dsub ch; !x.reads.isEmpty || !x.writes.isEmpty
  let ddr (c : Nat) : Bool := !s.held d (Blk.ddr0 + c) && (s.g d (R.DDR_STATUS.STATE c) == 1 || s.g d (R.DDR_STATUS.STATE c) == 4
    || sub (4 * d + 2 * c) || sub (4 * d + 2 * c + 1))
  let bank (b : Nat) : Bool := !s.held d Blk.bnk && (s.on d (R.BNK_STATUS.HANDOVER_PENDING b) || s.on d (R.BNK_STATUS.WIPING b)
    || decide (3 ≤ s.g d (R.BNK_STATUS.PSTATE b)))
  if g = 32 then edge 0 || edge 1 || edge 2 || edge 3
  else if g = 33 ∨ g = 42 then ddr 0
  else if g = 34 ∨ g = 43 then ddr 1
  else if g = 37 then !s.held d Blk.rlc && s.on d R.RLC_STATUS.FLUSHING
  else if g = 39 then !s.held d Blk.dfd && (s.g d R.DFD_STATUS.STATE == 2 || s.g d R.DFD_EPOCH_STATUS.STATE == 1
    || !(s.dfdOf d).cpls.isEmpty || !(s.dfdOf d).fwd.isEmpty)
  else if g = 40 then !s.held d Blk.pen && (s.pen.queue.any (fun e => e.1 / 512 == d) || !(s.penDie d).learn.isEmpty
    || s.on d R.PEN_STATUS.RESYNC || (List.range 16).any (fun r => (s.ringAck d r).isSome) || (d == s.head && s.on d R.PEN_L2_STATUS.BUSY))
  else if g = 41 then (List.range 8).any bank
  else if g = 44 ∨ g = 45 then !s.held d (Blk.mee0 + (g - 44)) && (s.on d (R.MEE_KEY_STATUS.BUSY (g - 44))
    || (s.mee (2 * d + (g - 44))).init.isSome || (List.range 8).any (fun j => rekeys (s.g d (R.MEE_KSTATE.STATE (g - 44) j))))
  else if 72 ≤ g ∧ g < 76 then !s.held d Blk.apc && fld (s.g d R.APC_STATUS.STATE) (3 * (g - 72)) 3 == 1
  else if 80 ≤ g ∧ g < 88 then bank (g - 80)
  else if 88 ≤ g ∧ g < 92 then edge (g - 88)
  else if 96 ≤ g ∧ g < 144 then
    let st := s.g d (R.SEA_STATUS.STATE (g - 96))
    !s.held d Blk.sea && (st == 1 || st == 2 || st == 3 || st == 6 || s.on d (R.SEA_STATUS.DMA_BUSY (g - 96))
      || seAwaited s d (g - 96))
  else false

/-- The lid mesh is on PX8 and PX8C only (R132). -/
def State.hasMesh (s : State) : Bool := s.dev.part == .px8 || s.dev.part == .px8c

/-- The sources monitored from power-on, of those that the part has, and the responses that cannot be cleared (R133). -/
def State.startEn (s : State) : Nat := fld s.sec.fuses.policy.toNat 9 7 &&& (if s.hasMesh then 0x7F else 0x5F)
def State.runFloor (s : State) : Nat := fld s.sec.fuses.policy.toNat 16 4

/-! ## What a reset keeps -/

/-- The registers of the battery domain (SEC_TAMPER_CFG, SEC_TAMPER_RESP, SEC_TAMPER_LOG). -/
def batteryReg (id : RegId) : Bool := id == .SEC_TAMPER_CFG || id == .SEC_TAMPER_RESP || id == .SEC_TAMPER_LOG

/-- The registers of the key store, in the always-on domain but cleared by DEVICE scope (R368). -/
def keyStoreReg (id : RegId) : Bool := id == .MEE_KSTATE || id == .MEE_RK_START || id == .MEE_RK_END || id == .MEE_RK_BOUND

/-- What CFG_WARM_STATUS and its like lose under DEVICE scope (R107). -/
def warmReg (id : RegId) : Bool := id == .CFG_WARM_STATUS

/-- A register survives a reset of a scope (R59, R60, R107, R368). -/
def regKept (sc : Scope) (r : RegRef) : Bool :=
  match sc with
  | .power => batteryReg r.id
  | .device => (r.id.alwaysOn && !keyStoreReg r.id && !warmReg r.id) || r.block == some .PWR || r.block == some .THM
  | .reconfig => r.id.alwaysOn || r.block == some .PWR || r.block == some .THM || r.block == some .CLK
  | .blocks => true

/-- A cell's 32-bit half, as bits of the cell, where a register at that half survives. -/
def halfKept (sc : Scope) (off : Nat) : Bool :=
  match regAt off with
  | some r => regKept sc r
  | none => false

/-- The cell `k` after a reset of a scope, given what it held. -/
def cellAfter (sc : Scope) (k : Nat) (v : DWord) : DWord :=
  let off := 8 * (k % 2 ^ 21)
  let rst := cellRst k
  match regAt off with
  | some r =>
    if r.id.info.pair then (if regKept sc r then v else rst)
    else splice (splice rst 0 32 (if regKept sc r then v.toNat else rst.toNat)) 32 32
      ((if halfKept sc (off + 4) then v else rst).toNat >>> 32)
  | none => splice rst 32 32 ((if halfKept sc (off + 4) then v else rst).toNat >>> 32)

/-- Every register takes its reset value but those that a scope spares. -/
def resetRegs (s : State) (sc : Scope) : State := s.rf.foldl (fun t e => t.setCell e.1 (cellAfter sc e.1 e.2)) s

/-! ## Operations that a reset cuts short -/

/-- A word whose CRC-32C check will not match: what an interrupted fuse program leaves (R120, R123). -/
def wrongCheck (l : List Byte) : Word := ~~~ crc32c l

/-- A BBRAM slot is valid: its integrity code and its sentinel match (R124). -/
def bbValid (b : BbSlot) : Bool :=
  b.icode == crc32c (bytesLE 32 b.key.toNat ++ bytesLE 4 b.version.toNat) && b.sentinel == 0x5AC33CA596E11E69#64

/-- The active BBRAM slot: the valid slot with the higher VERSION (R125). -/
def bbActive (x : SecSt) : Option Nat :=
  if bbValid x.bb0 && (!bbValid x.bb1 || decide (x.bb1.version.toNat ≤ x.bb0.version.toNat)) then some 0
  else if bbValid x.bb1 then some 1 else none

/-- The inactive slot: the other one, or slot 0 when neither is valid (R125). -/
def bbInactive (x : SecSt) : Nat := if bbActive x = some 0 then 1 else 0

/-- A security command that is cut short leaves what R119 to R127 say. -/
def secAbort (s : State) : State :=
  match s.sec.cmd with
  | none => s
  | some (op, arg) =>
    let (f, s) := s.free 512
    let x := { s.sec with cmd := none }
    let fu := x.fuses
    let slot (b : BbSlot) : BbSlot := { b with key := f.extractLsb' 0 256, version := f.extractLsb' 256 32, sentinel := 0 }
    let old1 := bbInactive x == 1
    let x := match op with
      | 1 => if old1 then { x with bb1 := slot x.bb1 } else { x with bb0 := slot x.bb0 }
      | 2 => if old1 then { x with bb1 := slot x.bb1 } else { x with bb0 := slot x.bb0 }
      | 3 => { x with fuses := { fu with key := f.extractLsb' 0 256, keyChk := some (wrongCheck (bytesLE 32 (f.toNat % 2 ^ 256))) } }
      | 4 =>
        let h := f.extractLsb' 0 384
        let p : PkFuse := ⟨h, if f.getLsbD 400 then some (wrongCheck (bytesBE 48 h.toNat)) else none⟩
        { x with fuses := match arg % 4 with
            | 0 => { fu with pk0 := p }
            | 1 => { fu with pk1 := p }
            | 2 => { fu with pk2 := p }
            | _ => { fu with pk3 := p } }
      | 5 => if f.getLsbD 0 then { x with fuses := { fu with revoke := fu.revoke ||| (1#3 <<< arg) } } else x
      | 6 =>
        let top := min 64 (max fu.svn s.cfg.run.svn)
        { x with fuses := { fu with svn := fu.svn + f.toNat % (top - fu.svn + 1) } }
      | 7 => { x with fuses := { fu with policy := fu.policy ||| (f.extractLsb' 0 20 &&& 0xFFE0F#20 &&& BitVec.ofNat 20 (s.g s.head (R.SEC_KEY_DATA.DATA 0))) } }
      | 8 => if f.getLsbD 0 then { x with fuses := { fu with lc := fu.lc ||| (1#8 <<< (2 * (arg - 1))) } } else x
      | _ => x
    { s with sec := x }

/-- What a flash operation in progress leaves: the sectors still to be erased, or the page being programmed, are undefined (R113); what the
operation has done stays. -/
def nvcAbort (s : State) : State :=
  let f := s.cfg.flash
  let s := if f.op = 1 then s.loseFlash (f.addr + f.done * s.flashSector) (f.len - f.done * s.flashSector)
    else if f.op = 2 ∧ f.done * s.flashPage < f.len then s.loseFlash (f.addr + f.done * s.flashPage) s.flashPage
    else s
  s.setFlash { s.cfg.flash with op := 0 }

/-! ## The parts of the device -/

/-- The pairs of a die stand where no image runs, and PLL A follows BYPASS_RATE (R29, R30, LAN_QPLLAq), once their registers are at
their reset values. -/
def lanePins (s : State) (d : Nat) : State :=
  let v := if s.boot.straps.bypassEn then 1 else 0
  let s := (List.range 16).foldl (fun s k => (s.p d (R.LAN_PAIR.BYPASS k) v).p d (R.LAN_PAIR.ACTIVE k) v) s
  let s := (List.range 32).foldl (fun s n => s.p d (R.LAN_STATUS.STATE n) (2 - (1 - v))) s
  let r := s.boot.straps.bypassRate
  let int := if r = 0 then 66 else if r = 1 then 82 else 85
  (List.range 8).foldl (fun s q => (s.p d (R.LAN_QPLLA.INT q) int).p d (R.LAN_QPLLA.FRAC q) (if r = 1 then 0x800000 else 0)) s

/-- The dies whose identity fuses are blank keep their lanes where no image runs (R31). -/
def blankLanes (s : State) : State :=
  s.each ((List.range 8).filter (fun d => decide (d < s.dev.part.dies) && !(s.dev.part == .px8c && d == 7) && !s.present d)) lanePins

/-- The edges of a die train again in HOUSEKEEP (R333, R342), once their registers are at their reset values. -/
def edgesTrain (s : State) (d : Nat) : State :=
  (List.range 4).foldl (fun s e => if (s.neighbour d e).isSome then s.p d (R.BDL_STATUS.STATE e) Edge.training else s) s

/-- The PART code of R86. -/
def Part.code : Part → Nat
  | .px2 => 1 | .px4 => 2 | .px8 => 3 | .px8c => 4

/-- The PACKAGE code of BDL_IDENT that goes with a part (R336). -/
def Part.package : Part → Nat
  | .px2 => 1 | .px4 => 2 | .px8 => 3 | .px8c => 3

/-- BNK_REPAIRb shows the bank's fuses (R299). -/
def showRepair (s : State) (d : Nat) : State :=
  (List.range 8).foldl (fun s b => s.p d (R.BNK_REPAIR.USED b) ((s.dev.repair[d * 8 + b]?).getD 0).toNat) s

/-- Identity fuses that registers of a die show: the requester IDs of its NoC ports, BDL_IDENT, and the boot addresses in the head
die's window (APC_BOOTc). -/
def showIdent (s : State) (d : Nat) : State :=
  let s := (List.range 32).foldl (fun s p => s.p d (R.FAB_NOCP_STATUS.RID p) (s.nocpRid d p)) s
  let s := (List.range 4).foldl (fun s c => s.p d (R.APC_BOOT.ADDR c) (s.head * 2 ^ 24 + 0x0C0000)) s
  let nbr := ((List.range 4).filter (fun e => (s.neighbour d e).isSome)).foldl (fun a e => a + 2 ^ e) 0
  let s := ((s.p d R.BDL_IDENT.NBR nbr).p d R.BDL_IDENT.PART s.dev.part.code).p d R.BDL_IDENT.PACKAGE s.dev.part.package
  showRepair ((s.p d R.BDL_IDENT.HEAD (if d = s.head then 1 else 0)).p d R.BDL_IDENT.POSITION d) d

/-- The limits that the fuses of the temperature grade give the thermal plant (THM_LOOP_CFG, THM_HEAT_CFG). -/
def showGrade (s : State) (d : Nat) : State :=
  let cold := s.dev.grade == .i
  ((s.p d R.THM_LOOP_CFG.T_CRIT (if cold then 100 else 95)).p d R.THM_HEAT_CFG.HEAT_OFF (if cold then 231 else 15)).p d
    R.THM_HEAT_CFG.HEAT_ON (if cold then 221 else 5)

/-- What a die's pins, edges and fuses set once its registers have their reset values. -/
def dieShow (s : State) (d : Nat) : State := showIdent (edgesTrain (lanePins s d) d) d

/-- A root that has stopped acquires again if its reference is active (R40, R63). -/
def rootStart (s : State) (d : Nat) : State :=
  let active := if d = s.head then s.bit d R.CLK_REF_STATUS.ACTIVE (s.g d R.CLK_REF_STATUS.CUR) else (s.clkOf d).pkgActive
  if s.g d R.CLK_ROOT_STATUS.STATE = 0 ∧ active then s.p d R.CLK_ROOT_STATUS.STATE 1 else s

/-- The banks of a die after a reset of RECONFIG scope or wider: a secure bank is wiped, the others are undefined (R60, R300). -/
def resetBanks (s : State) (d : Nat) : State :=
  let secure := s.on d (R.BNK_CTRL.SECURE 7)
  (List.range 8).foldl (fun s b => if b = 7 ∧ secure then s.zeroBank (d * 8 + b) else s.loseBank (d * 8 + b)) s

/-- The DRAM of a die: placed in self-refresh with its training results kept under RECONFIG, lost under a wider scope (R60, R368).
DESIGN CHOICE (notes/assumptions/54.md): what stands in a channel's queues then reaches no DRAM. -/
def resetDram (s : State) (sc : Scope) (d : Nat) : State :=
  (List.range 2).foldl (fun s c =>
    let ch := 2 * d + c
    let st := s.g d (R.DDR_STATUS.STATE c)
    let s := (s.setDsub (2 * ch) .reset).setDsub (2 * ch + 1) .reset
    if sc = Scope.reconfig then s.setTrainCopy ch (s.trainCopy ch || decide (2 ≤ st ∧ st ≤ 4))
    else ((s.loseDram ch).setTrainCopy ch false).setMee ch .reset) s

/-- The keys of encryption engines stay; a device command or fill in progress ends. -/
def meeKeep (m : SMap MeeSt) : SMap MeeSt := m.filterMap (fun e =>
  let v := { e.2 with init := none, device := false }
  if v = MeeSt.reset then none else some (e.1, v))

/-- Warm images stay; a partial load that was to set VALID again has ended (R107, R206). -/
def warmKeep (m : SMap WarmSt) : SMap WarmSt := m.filterMap (fun e =>
  let v := { e.2 with refresh := false }
  if v = WarmSt.reset then none else some (e.1, v))

/-- The check word of the fuse key has been blown and does not match: the program was interrupted (R123). -/
def Fuses.keyBroken (f : Fuses) : Bool := f.keyChk.isSome && f.keyChk != some (crc32c (bytesLE 32 f.key.toNat))

/-- A fuse key that an interrupted program spoilt is reported as FUSE_FAIL wherever the key is checked: after the reset that cut the program
short, at power-on release and before a use (R123, R126, R127; notes/assumptions/55.md). -/
def noteFuseFail (s : State) : State :=
  if s.sec.fuses.keyBroken && !s.on s.head R.SEC_CMD_STATUS.BUSY then
    (s.p s.head R.SEC_CMD_STATUS.RESULT 5).p s.head R.SEC_CMD_STATUS.DONE 1
  else s

/-- Everything that a reset of RECONFIG scope or wider clears, on every die. -/
def clearDevice (s : State) (sc : Scope) : State :=
  let prog := s.g s.head R.SYS_BOOT_STATUS.PROG_N_PIN
  let fails := s.g s.head R.SEC_LC.DBG_FAILS
  let lockout := s.g s.head R.SEC_LC.DBG_LOCKOUT
  let nvcRan := s.cfg.flash.op != 0
  let keyRan : Bool := match s.sec.cmd with
    | some (op, _) => op == 3
    | none => false
  let rbRan := s.dies.filter (fun d => s.on d R.CFG_RB_STATUS.BUSY)
  let s := s.onDies (fun s d => resetDram (resetBanks s d) sc d)
  let s := nvcAbort (secAbort (if s.on s.head R.CFG_BOOT_STATUS.CONF_BUSY then s.cutTrial else s))
  let s := { s with
    rf := (resetRegs s sc).rf
    holds := [], evs := [], pulses := [], usr := 0, snt := [], mon := [], se := .reset, dfd := [], coh := .reset, bdl := .reset
    ckmux := [], fab := .reset, pen := .reset
    lan := { s.lan with lane := [], pair := [] }
    bnk := { s.bnk with st := [] }
    drm := { s.drm with mee := meeKeep s.drm.mee, seq := 0 }
    lad := [], mset := none
    cfg := { s.cfg with
      frames := [], sigs := [], dyn := [], held := [], parse := .reset, run := .reset
      warm := if sc = Scope.reconfig then warmKeep s.cfg.warm else [], flash := .reset, cmd := none }
    sec := { s.sec with nonce := none, used := false, resp := none, respond := false } }
  let s := if sc = Scope.reconfig then s else { s with clk := [] }
  let s := if sc = Scope.power then s else blankLanes s
  let s := if sc = Scope.power then { s with mbox := [], smbPub := [], smbHost := [], thm := .reset } else s
  let s := s.onDies (fun s d =>
    let s := if sc = Scope.power then s else dieShow s d
    let s := ((s.p d R.SYS_BOOT_STATUS.PROG_N_PIN prog).p d R.SYS_BOOT_STATUS.DONE_PIN 0).p d R.SYS_BOOT_STATUS.INIT_N_PIN 0
    let s := (((s.p d R.PWR_STATUS.STATE 0).p d R.PWR_STATUS.PHASE 0).p d R.PWR_STATUS.PEND 0).p d R.SYS_WDT_CTRL.EN 0
    let s := s.p d R.CFG_WARM_STATUS.BUILDING 0
    let s := if sc = Scope.reconfig then rootStart s d
      else if d = s.head then s else (s.p d R.CLK_REF_CTRL.SEL 4).p d R.CLK_REF_STATUS.CUR 4
    if rbRan.contains d then (s.p d R.CFG_RB_STATUS.RESULT 5).p d R.CFG_RB_STATUS.DONE 1 else s)
  let s := if nvcRan then (s.p s.head R.NVC_STATUS.RESULT 6).p s.head R.NVC_STATUS.DONE 1 else s
  let s := if keyRan then noteFuseFail s else s
  if sc = Scope.power then
    let en := s.g s.head R.SEC_TAMPER_CFG.EN
    let s := (s.p s.head R.SEC_TAMPER_CFG.LOCK 0).p s.head R.SEC_TAMPER_CFG.EN (en ||| s.startEn ||| 0x80)
    let resp : Fld := ⟨R.SEC_TAMPER_RESP.ZEROISE.off, 0, 4⟩
    s.p s.head resp (s.g s.head resp ||| s.runFloor)
  else (s.p s.head R.SEC_LC.DBG_FAILS fails).p s.head R.SEC_LC.DBG_LOCKOUT lockout

/-! ## Causes (R58, R61, R62) -/

/-- BYPASS_EN and BYPASS_RATE are read again at a reset (R30, R469). The pins stay as they were until the LANE step; what they are after
it is open. -/
def readStraps (s : State) : State :=
  if s.stepDone s.head WStep.lane then
    let (f, s) := s.free 3
    { s with boot := { s.boot with straps := { s.boot.straps with bypassEn := f.getLsbD 2, bypassRate := (f.extractLsb' 0 2).toFin } } }
  else s

/-- A recorded reset of RECONFIG scope or wider acts on every die (R59 to R63). -/
def fullReset (s : State) (sc : Scope) (cause origin detail : Nat) : State :=
  let warm := decide (sc = Scope.reconfig ∧ cause ≠ 6) && s.on s.head R.CFG_WARM_CTRL.ON_RESET
    && s.dies.all (fun d => s.on d R.CFG_WARM_STATUS.VALID)
  let s := clearDevice (if sc = Scope.power then s else readStraps s) sc
  let s := s.onDies (fun s d =>
    ((s.p d R.SYS_RST_CAUSE.CAUSE cause).p d R.SYS_RST_CAUSE.ORIGIN origin).p d R.SYS_RST_CAUSE.DETAIL detail)
  let stays := sc = Scope.power ∨ cause = 6
  let s := { s with
    boot := { s.boot with
      inReset := if stays then some sc else s.boot.inReset
      cleared := false, judgeHeat := true, jtag := none, modeHeld := false, failed := false, warm := warm, warmReady := false
      lockdown := s.boot.lockdown && sc != Scope.power } }
  let s := if s.boot.lockdown then s.p s.head R.SEC_LC.LOCKDOWN 1 else s
  s.setPhase (if sc = Scope.power then Phase.por else if s.boot.lockdown then Phase.lockdown else Phase.housekeep)

/-- A cause of RECONFIG scope or wider arises on a die (R61, R62): during a reset that is as wide it is absorbed. -/
def raiseReset (s : State) (sc : Scope) (cause origin detail : Nat) : State :=
  match s.boot.inReset with
  | some r => if sc.rank < r.rank then fullReset s sc cause origin detail else s
  | none => fullReset s sc cause origin detail

/-- The internal reset that undoes a failed start-up load (R99): the effects of RECONFIG scope, no cause; what the load recorded,
the wake-up sequence's error, the slot plan and the sampled mode stay. -/
def internalReset (s : State) : State :=
  let kept := (s.rf.filter (fun e =>
    let off := 8 * (e.1 % 2 ^ 21)
    decide (0x60010 ≤ off ∧ off < 0x60024)))
  let mode := s.g s.head R.SYS_BOOT_STATUS.MODE
  let bad := s.g s.head R.SYS_BOOT_STATUS.MODE_BAD
  let f := s.cfg.flash
  let werr := s.g s.head R.CFG_WAKE_STATUS.ERROR
  let s := clearDevice (readStraps s) .reconfig
  let s := kept.foldl (fun s e => s.setCell e.1 e.2) s
  let s := (s.pAll R.SYS_BOOT_STATUS.MODE mode).pAll R.SYS_BOOT_STATUS.MODE_BAD bad
  let s := s.onDies (fun s d => (s.p d R.CFG_LOAD_STATUS.BUSY 0).p d R.CFG_WAKE_STATUS.ERROR werr)
  let s := { s with boot := { s.boot with
    cleared := false, judgeHeat := false, modeHeld := true, failed := true, warm := false, warmReady := false, jtag := none } }
  (s.setFlash { FlashSt.reset with br := f.br, plan := f.plan }).setPhase Phase.housekeep

end Sys2Proof.Machine
end

