-- ==== Sys2Proof/Machine/Clock.lean ====
section
/-!
DEFINITION. The clocks of a die (02_clocks): the reference inputs and mux, the root PLL, the gate tree, the alternate-source
muxes, the user PLLs, CKMUX2 and the clock monitor, and the meanings of their commands.
-/

namespace Sys2Proof.Machine

/-! ## Reference inputs and the root PLL -/

/-- The root PLL's states (CLK_ROOT_STATUS.STATE). -/
def Root.off : Nat := 0
def Root.acquire : Nat := 1
def Root.locked : Nat := 2
def Root.holdover : Nat := 3
def Root.relock : Nat := 4

/-- The input is one of the die's (R32): 0 to 3 on the head die, PKGREF on a dependent die. -/
def inpHere (s : State) (d n : Nat) : Bool := if d = s.head then decide (n < 4) else n == 4

/-- The input's ratio is not 0 (R33), and a recovered-clock selector is enabled (R32). -/
def inpEnabled (s : State) (d n : Nat) : Bool :=
  inpHere s d n &&
    (n == 4 || (s.g d (R.CLK_REF_RATIO.INT n) != 0 && (decide (2 ≤ n) || s.on d (R.CLK_RCV_CTRL.EN n))))

def inpActive (s : State) (d n : Nat) : Bool :=
  if n = 4 then (s.clkOf d).pkgActive else s.bit d R.CLK_REF_STATUS.ACTIVE n

def inpQual (s : State) (d n : Nat) : Bool :=
  if n = 4 then (s.clkOf d).pkgQual else s.bit d R.CLK_REF_STATUS.QUAL n

def setBitTo (s : State) (d : Nat) (f : Fld) (n : Nat) (v : Bool) : State := if v then s.setBit d f n else s.clrBit d f n

def setActive (s : State) (d n : Nat) (v : Bool) : State :=
  if n = 4 then s.setClk d { s.clkOf d with pkgActive := v } else setBitTo s d R.CLK_REF_STATUS.ACTIVE n v

def setQual (s : State) (d n : Nat) (v : Bool) : State :=
  if n = 4 then s.setClk d { s.clkOf d with pkgQual := v } else setBitTo s d R.CLK_REF_STATUS.QUAL n v

/-- Mark whether the input has been active for QUAL_TIME, and whether its last measurement passed (R34). -/
def setMarks (s : State) (d n : Nat) (timed meas : Bool) : State :=
  let c := s.clkOf d
  let upd (x : BitVec 5) (v : Bool) : BitVec 5 :=
    if v then x ||| (1#5 <<< n) else x &&& ~~~ (1#5 <<< n)
  s.setClk d { c with timed := upd c.timed timed, measOk := upd c.measOk meas }

def rootState (s : State) (d : Nat) : Nat := s.g d R.CLK_ROOT_STATUS.STATE
def setRoot (s : State) (d v : Nat) : State := s.p d R.CLK_ROOT_STATUS.STATE v
def refCur (s : State) (d : Nat) : Nat := s.g d R.CLK_REF_STATUS.CUR

/-- The root clock of a die runs: the PLL has locked and has not gone back to OFF (R40, R42). -/
def rootRuns (s : State) (d : Nat) : Bool := decide (Root.locked ≤ rootState s d ∧ rootState s d ≤ Root.relock)

/-- The source that a recovered-clock selector names gives a clock (R32): the selector is enabled and its lane, on a die the part has, has
CDR lock. -/
def selectorRuns (s : State) (n : Nat) : Bool :=
  let d := s.g s.head (R.CLK_RCV_CTRL.DIE n)
  s.on s.head (R.CLK_RCV_CTRL.EN n) && s.present d && s.on d (R.LAN_STATUS.CDR_LOCK (s.g s.head (R.CLK_RCV_CTRL.LANE n)))

/-- The source of an input can show edges (R32): PKGREF is the head die's root, RCV0 and RCV1 their selectors; REFCLK and LREF come from
the board. -/
def inpSource (s : State) (n : Nat) : Bool :=
  if n = 4 then rootRuns s s.head else if n < 2 then selectorRuns s n else true

/-- RCLK_OUT0 or RCLK_OUT1 carries edges (R32, R34): it is driven, its selector gives a clock, and with SQUELCH its input is active; else
it is held low. -/
def rclkCarries (s : State) (o : Nat) : Bool :=
  let x (a b : Fld) : Fld := if o = 0 then a else b
  let n := s.g s.head (x R.CLK_RCLK_CTRL.SRC0 R.CLK_RCLK_CTRL.SRC1)
  s.on s.head (x R.CLK_RCLK_CTRL.EN0 R.CLK_RCLK_CTRL.EN1) && selectorRuns s n
    && (!s.on s.head (x R.CLK_RCLK_CTRL.SQUELCH0 R.CLK_RCLK_CTRL.SQUELCH1) || inpActive s s.head n)

/-- The root's offset from LREF has a value: LREF is an input of the die, enabled, active and not in use (R33, CLK_ROOT_FOFS). -/
def fofsLive (s : State) (d : Nat) : Bool :=
  inpHere s d 3 && s.g d (R.CLK_REF_RATIO.INT 3) != 0 && inpActive s d 3 && refCur s d != 3

/-- CLK_ROOT_FOFS reads 0 where the offset has no value. -/
def fofsRest (s : State) (d : Nat) : State := if fofsLive s d then s else s.p d R.CLK_ROOT_FOFS.FOFS 0

/-- The reference reaching the PLL has stopped: its input shows no edges, or the mux is between its inputs (R37). -/
def refStopped (s : State) (d : Nat) : Bool :=
  !inpActive s d (refCur s d) || (s.clkOf d).ref.step == .newLow

/-- A PLL in HOLDOVER whose current input is qualified, and reaches it, enters RELOCK (R36, R40). -/
def relockIfQualified (s : State) (d : Nat) : State :=
  if rootState s d = Root.holdover ∧ inpQual s d (refCur s d) ∧ refStopped s d = false then setRoot s d Root.relock else s

/-- Switch the reference mux at once to an input (R38): STUCK and SWITCHING fall. -/
def muxForce (s : State) (d n : Nat) : State :=
  let s := (((s.p d R.CLK_REF_CTRL.SEL n).p d R.CLK_REF_STATUS.CUR n).p d R.CLK_REF_STATUS.STUCK 0).p d
    R.CLK_REF_STATUS.SWITCHING 0
  relockIfQualified (fofsRest (s.setClk d { s.clkOf d with ref := MuxSt.reset }) d) d

/-- The first qualified input in the order of CLK_REF_PRIO (R39). -/
def autoChoice (s : State) (d : Nat) : Option Nat :=
  [s.g d R.CLK_REF_PRIO.FIRST, s.g d R.CLK_REF_PRIO.SECOND, s.g d R.CLK_REF_PRIO.THIRD,
    s.g d R.CLK_REF_PRIO.FOURTH].find? (fun n => decide (n < 4) && inpQual s d n)

/-- REF_AUTO_SWITCH (R39): with the PLL in HOLDOVER, entered while AUTO was set, on an input that is not qualified, the mux switches by
force to the first qualified input; with none qualified the PLL stays in HOLDOVER. -/
def autoSwitch (s : State) (d : Nat) : State :=
  if d = s.head ∧ (s.clkOf d).autoPend ∧ rootState s d = Root.holdover ∧ inpQual s d (refCur s d) = false then
    match autoChoice s d with
    | some n => muxForce s d n
    | none => s
  else s

/-- CLOCK_FAILURE (R58): the root of die `d` raises a reset of DEVICE scope. -/
def clockFailure (s : State) (d : Nat) : State := raiseReset s .device 3 d 0

/-- Enter HOLDOVER, with its event (R37, R40); AUTO, as it stands now, says whether the hardware then chooses the input (R39). -/
def enterHoldover (s : State) (d : Nat) : State :=
  (((setRoot s d Root.holdover).p d R.CLK_EVT.HOLDOVER 1).setClk d { s.clkOf d with autoPend := s.on d R.CLK_REF_CTRL.AUTO })

/-- The root PLL declares loss of its reference (R37, R40). -/
def rootLoss (s : State) (d : Nat) : State :=
  if rootState s d = Root.acquire then setRoot s d Root.off
  else if rootState s d = Root.locked then
    if s.on d R.CLK_ROOT_STATUS.HIST_VALID then autoSwitch (enterHoldover s d) d else clockFailure s d
  else if rootState s d = Root.relock then autoSwitch (enterHoldover s d) d
  else s

/-- The PLL in OFF starts acquiring once its selected input is active, unless the die is in FULL_STOP or power-on reset
holds (ROOT_ACQUIRE_START, R40, R43). -/
def startAcquire (s : State) (d : Nat) : State :=
  if rootState s d = Root.off ∧ inpActive s d (refCur s d) ∧ s.boot.inReset ≠ some .power
      ∧ s.fullStopped d = false then setRoot s d Root.acquire else s

/-- An input stops showing edges (R34): ACTIVE and QUAL fall at once and its loss is recorded. -/
def edgeLoss (s : State) (d n : Nat) : State :=
  let s := fofsRest (setMarks (setQual (setActive s d n false) d n false) d n false false) d
  if n = 4 then s.p d R.CLK_EVT.PKGREF_LOSS 1 else s.setBit d R.CLK_EVT.REF_LOSS n

/-! ## Writes to the reference registers -/

/-- AUTO takes a value; written 0, it ends a choice that the hardware has still to make (R39). -/
def setAuto (s : State) (d v : Nat) : State :=
  let s := s.p d R.CLK_REF_CTRL.AUTO v
  if v = 0 then s.setClk d { s.clkOf d with autoPend := false } else s

/-- A write of CLK_REF_CTRL (R35, R38, R39). -/
def writeRefCtrl (s : State) (w : Wr) : State :=
  let d := w.d
  let sel := R.CLK_REF_CTRL.SEL.of w.new
  let force := R.CLK_REF_CTRL.FORCE.of w.raw == 1
  let changes := sel != s.g d R.CLK_REF_CTRL.SEL
  let auto := s.on d R.CLK_REF_CTRL.AUTO
  let newAuto := if force && auto then 1 else R.CLK_REF_CTRL.AUTO.of w.new
  if d ≠ s.head then s.ans .accessError
  else if 4 ≤ sel then s.ans .accessError
  else if (changes || force) && !inpActive s d sel then s.ans .accessError
  else if force then
    if rootState s d = Root.holdover then (muxForce (setAuto s d newAuto) d sel).ans .ok
    else s.ans .accessError
  else if changes then
    if auto || s.on d R.CLK_REF_STATUS.SWITCHING then s.ans .accessError
    else
      let s := (setAuto (s.p d R.CLK_REF_CTRL.SEL sel) d newAuto).p d R.CLK_REF_STATUS.SWITCHING 1
      (s.setClk d { s.clkOf d with ref := ⟨.oldLow, sel⟩ }).ans .ok
  else (setAuto s d newAuto).ans .ok

/-- A code that a CLK_REF_PRIO field may hold (R39). -/
def prioOk (n : Nat) : Bool := decide (n < 4) || n == 7

/-- A write of CLK_REF_PRIO (R39). DESIGN CHOICE (notes/assumptions/53.md): in HOLDOVER, with a choice still to be made, a write that lists
an input already qualified switches to it at once. -/
def writeRefPrio (s : State) (w : Wr) : State :=
  if prioOk (R.CLK_REF_PRIO.FIRST.of w.new) && prioOk (R.CLK_REF_PRIO.SECOND.of w.new)
      && prioOk (R.CLK_REF_PRIO.THIRD.of w.new) && prioOk (R.CLK_REF_PRIO.FOURTH.of w.new) then
    (autoSwitch (s.setReg w.d w.r w.new) w.d).ans .ok
  else s.ans .accessError

/-- A write of CLK_REF_RATIOn: INT is 0 or 40 to 1,600, and the ratio of the input in use does not change while the PLL
follows it (R33). A ratio of 0 disables the input. DESIGN CHOICE (notes/assumptions/53.md): an active input so disabled is recorded as
lost in CLK_EVT.REF_LOSS. -/
def writeRefRatio (s : State) (w : Wr) : State :=
  let n := w.r.i
  let int := (R.CLK_REF_RATIO.INT 0).of w.new
  let following := refCur s w.d == n && (rootState s w.d == Root.acquire || rootState s w.d == Root.locked
    || rootState s w.d == Root.relock)
  if (int == 0 || (decide (40 ≤ int) && decide (int ≤ 1600))) && !following then
    let s := s.setReg w.d w.r w.new
    (if int = 0 ∧ inpActive s w.d n then edgeLoss s w.d n else fofsRest s w.d).ans .ok
  else s.ans .accessError

/-- A write of CLK_RCV_CTRLs (R32): the die exists and RDIV is 16 to 4,095. A selector that is off passes no edges.
DESIGN CHOICE (notes/assumptions/53.md): an active input so disabled is recorded as lost in CLK_EVT.REF_LOSS. -/
def writeRcvCtrl (s : State) (w : Wr) : State :=
  if s.present ((R.CLK_RCV_CTRL.DIE 0).of w.new) && decide (16 ≤ (R.CLK_RCV_CTRL.RDIV 0).of w.new) then
    let s := s.setReg w.d w.r w.new
    (if (R.CLK_RCV_CTRL.EN 0).of w.new = 0 ∧ inpActive s w.d w.r.i then edgeLoss s w.d w.r.i else s).ans .ok
  else s.ans .accessError

/-- A write of CLK_ROOT_CFG: reserved codes are refused. -/
def writeRootCfg (s : State) (w : Wr) : State :=
  s.storeIf w (R.CLK_ROOT_CFG.FMON_PPM.of w.new != 0 && decide (R.CLK_ROOT_CFG.QUAL_TIME.of w.new ≤ 3)
    && R.CLK_ROOT_CFG.HOLD_AVG.of w.new != 3)

/-! ## The gate tree -/

/-- The assigned gates of R46, deepest level first. -/
def gatesDeepFirst : List Nat :=
  (List.range 48).map (· + 96) ++
  ((List.range 6).map (· + 64) ++ (List.range 4).map (· + 72) ++ (List.range 8).map (· + 80) ++ (List.range 4).map (· + 88)) ++
  (List.range 14).map (· + 32) ++ (List.range 5 ++ (List.range 16).map (· + 8))

/-- The level of a gate: 1 tap, 2 domain, 3 subdomain, 4 leaf. -/
def gateLevel (g : Nat) : Nat := if g < 32 then 1 else if g < 64 then 2 else if g < 96 then 3 else 4

/-- The assigned gates, shallowest level first. -/
def gatesShallowFirst : List Nat :=
  (List.range 5 ++ (List.range 16).map (· + 8)) ++ (List.range 14).map (· + 32) ++
  ((List.range 6).map (· + 64) ++ (List.range 4).map (· + 72) ++ (List.range 8).map (· + 80) ++ (List.range 4).map (· + 88)) ++
  (List.range 48).map (· + 96)

/-- The parent of a gate (R46); none for the root's own taps. -/
def gateParent (g : Nat) : Option Nat :=
  if g < 32 then none
  else if g = 32 then some 0
  else if g ≤ 34 then some 1
  else if g ≤ 37 then some 2
  else if g ≤ 40 then some 3
  else if g ≤ 45 then some 4
  else if g < 72 then some 38
  else if g < 80 then some 35
  else if g < 88 then some 41
  else if g < 96 then some 32
  else some (64 + (g - 96) / 8)

/-- CLK_GATE_ENk. -/
def gateReg (k : Nat) : Fld := ⟨0x010100 + 4 * k, 0, 32⟩

/-- The assigned bits of CLK_GATE_ENk. -/
def gateMask (k : Nat) : Nat :=
  if k = 0 then 0x00FFFF1F else if k = 1 then 0x3FFF else if k = 2 then 0x0FFF0F3F else if k = 3 then 0xFFFFFFFF
  else 0xFFFF

def gateOpen (s : State) (d g : Nat) : Bool := s.bit d (gateReg (g / 32)) (g % 32)

/-- The lowest-numbered open child of a gate. -/
def openChild (s : State) (d g : Nat) : Option Nat :=
  (gatesShallowFirst.filter (fun c => gateParent c == some g)).find? (gateOpen s d)

/-- The gate that refuses the closing of `g`, if any (R47). -/
def closeBlocker (s : State) (d g : Nat) : Option Nat :=
  if g = 2 ∨ g = 36 then some g
  else match openChild s d g with
    | some c => some c
    | none => if gateBusy s d g then some g else none

/-- The gate that refuses the opening of `g`, if any (R44, R47). -/
def openBlocker (s : State) (d g : Nat) : Option Nat :=
  if 8 ≤ g ∧ g < 24 then if s.g d (R.CLK_FTAP.DIV (g - 8)) = 0 then some g else none
  else match gateParent g with
    | some q => if gateOpen s d q then none else some q
    | none => none

/-- Apply every closure that `want` asks for, deepest level first, each checked against what the ones before it leave;
the first refusal is kept (R48). -/
def applyClosures (s : State) (d : Nat) (want : Nat → Bool) : State × Option Nat :=
  gatesDeepFirst.foldl (fun (a : State × Option Nat) g =>
    match a.2 with
    | some _ => a
    | none =>
      if gateOpen a.1 d g && !want g then
        match closeBlocker a.1 d g with
        | some b => (a.1, some b)
        | none => (a.1.clrBit d (gateReg (g / 32)) (g % 32), none)
      else a) (s, none)

/-- Apply every opening that `want` asks for, shallowest level first (R48). -/
def applyOpenings (s : State) (d : Nat) (want : Nat → Bool) : State × Option Nat :=
  gatesShallowFirst.foldl (fun (a : State × Option Nat) g =>
    match a.2 with
    | some _ => a
    | none =>
      if !gateOpen a.1 d g && want g then
        match openBlocker a.1 d g with
        | some b => (a.1, some b)
        | none => (a.1.setBit d (gateReg (g / 32)) (g % 32), none)
      else a) (s, none)

/-- Record a refused gate change (R47). -/
def gateRefused (s : State) (d b : Nat) : State :=
  (s.p d R.CLK_GATE_STATUS.BLOCKER b).p d R.CLK_GATE_STATUS.REFUSED 1

/-- A write of CLK_GATE_ENk outside a sentence (R47, R48): all of its changes or none. -/
def writeGate (s : State) (d k v : Nat) : State :=
  let v := v &&& gateMask k
  let want (g : Nat) : Bool := if g / 32 = k then v.testBit (g % 32) else gateOpen s d g
  match applyClosures s d want with
  | (_, some b) => (gateRefused s d b).ans .accessError
  | (s1, none) =>
    match applyOpenings s1 d want with
    | (_, some b) => (gateRefused s d b).ans .accessError
    | (s2, none) => s2.ans .ok

/-- A value that CLK_FTAPn.DIV may hold (R44). -/
def ftapOk (v : Nat) : Bool := v == 0 || (decide (20 ≤ v) && decide (v ≤ 4096))

/-- A write of CLK_FTAPn (R44): refused while the tap's gate is open. -/
def writeFtap (s : State) (w : Wr) : State :=
  s.storeIf w (ftapOk ((R.CLK_FTAP.DIV 0).of w.new) && !gateOpen s w.d (8 + w.r.i))

/-! ## Alternate sources -/

def altSrc : AltMux → Fld
  | .apc => R.CLK_ALT_CTRL.APC_SRC | .evt => R.CLK_ALT_CTRL.EVT_SRC
def altForceBit : AltMux → Fld
  | .apc => R.CLK_ALT_CTRL.APC_FORCE | .evt => R.CLK_ALT_CTRL.EVT_FORCE
def altCur : AltMux → Fld
  | .apc => R.CLK_ALT_STATUS.APC_CUR | .evt => R.CLK_ALT_STATUS.EVT_CUR
def altStuck : AltMux → Fld
  | .apc => R.CLK_ALT_STATUS.APC_STUCK | .evt => R.CLK_ALT_STATUS.EVT_STUCK
def altSwitching : AltMux → Fld
  | .apc => R.CLK_ALT_STATUS.APC_SWITCHING | .evt => R.CLK_ALT_STATUS.EVT_SWITCHING
def altEvent : AltMux → Fld
  | .apc => R.CLK_EVT.APC_MUX_STUCK | .evt => R.CLK_EVT.EVT_MUX_STUCK

/-- End a switch of an alternate-source mux on a source. -/
def altDone (s : State) (d : Nat) (x : AltMux) (src : Nat) : State :=
  ((s.p d (altCur x) src).p d (altStuck x) 0).p d (altSwitching x) 0

/-- A source of the alternate-source muxes runs (R50): the die's root tap, LREF, or the ring oscillator. A ratio of 0 hides LREF's
ACTIVE bit and stops nothing here (R33), so LREF then counts as running. -/
def altRuns (s : State) (d src : Nat) : Bool :=
  if src = 0 then rootRuns s d
  else if src = 1 then s.g s.head (R.CLK_REF_RATIO.INT 3) == 0 || inpActive s s.head 3
  else true

/-- What one mux's fields of a CLK_ALT_CTRL write are refused for (R35, R50): the reserved code, a source that does not run, a force while
not stuck, or a change of source while a switch runs. -/
def altOk (s : State) (w : Wr) (x : AltMux) : Bool :=
  let src := (altSrc x).of w.new
  let force := (altForceBit x).of w.raw == 1
  src != 3 && (if force then s.on w.d (altStuck x) && altRuns s w.d src
    else src == s.g w.d (altSrc x) || (!s.on w.d (altSwitching x) && altRuns s w.d src))

/-- Start, force or leave one mux (R50). -/
def altApply (s : State) (w : Wr) (x : AltMux) : State :=
  let src := (altSrc x).of w.new
  if (altForceBit x).of w.raw = 1 then altDone (s.p w.d (altSrc x) src) w.d x src
  else if src = s.g w.d (altSrc x) then s
  else (s.p w.d (altSrc x) src).p w.d (altSwitching x) 1

/-- A write of CLK_ALT_CTRL (R50). -/
def writeAltCtrl (s : State) (w : Wr) : State :=
  if altOk s w .apc && altOk s w .evt then (altApply (altApply s w .apc) w .evt).ans .ok else s.ans .accessError

/-! ## User PLLs -/

/-- The limits of R51 that do not depend on the input, for CLK_UPLL_CTRLn. -/
def upllCtrlOk (n v : Nat) : Bool :=
  let src := (R.CLK_UPLL_CTRL.SRC 0).of v
  (R.CLK_UPLL_CTRL.REFDIV 0).of v != 0 && decide (16 ≤ (R.CLK_UPLL_CTRL.FBDIV 0).of v) && decide (src ≤ 4)
    && !(src == 4 && n == 0)

def upllGood (s : State) (d n : Nat) : Bool := (s.clkOf d).upllGood.getLsbD n

def setUpllGood (s : State) (d n : Nat) (v : Bool) : State :=
  let c := s.clkOf d
  s.setClk d { c with upllGood := if v then c.upllGood ||| (1#8 <<< n) else c.upllGood &&& ~~~ (1#8 <<< n) }

/-- A write of CLK_UPLL_CTRLn (R51). A PLL that is disabled is not locked and measures nothing. -/
def writeUpllCtrl (s : State) (w : Wr) : State :=
  let n := w.r.i
  let en := (R.CLK_UPLL_CTRL.EN 0).of w.new
  let was := (R.CLK_UPLL_CTRL.EN 0).of w.old
  if upllCtrlOk n w.new && (was == 0 || w.new % 2 ^ 31 == w.old % 2 ^ 31) then
    let s := s.setReg w.d w.r w.new
    (if en = 1 then s
     else setUpllGood (((s.p w.d (R.CLK_UPLL_STATUS.LOCK n) 0).p w.d (R.CLK_UPLL_STATUS.LIMIT n) 0).p w.d
       (R.CLK_UPLL_STATUS.INPUT_ACTIVE n) 0) w.d n false).ans .ok
  else s.ans .accessError

/-- An output divisor of R51. -/
def upllDivOk (v : Nat) : Bool := v == 0 || decide (5 ≤ v)

/-- A write of CLK_UPLL_OUTn (R51). -/
def writeUpllOut (s : State) (w : Wr) : State :=
  s.storeIf w (upllDivOk (w.new % 256) && upllDivOk (w.new / 2 ^ 8 % 256) && upllDivOk (w.new / 2 ^ 16 % 256)
    && upllDivOk (w.new / 2 ^ 24 % 256) && (s.g w.d (R.CLK_UPLL_CTRL.EN w.r.i) == 0 || w.new == w.old))

/-- Output `m` of a user PLL runs (R51, R52): the PLL is enabled and the output is not off; no frequency limit is broken; and the PLL has
its lock or does not stop without it. -/
def upllOutRuns (s : State) (d n m : Nat) : Bool :=
  s.on d (R.CLK_UPLL_CTRL.EN n) && s.g d ⟨(R.CLK_UPLL_OUT.DIV0 n).off, 8 * m, 8⟩ != 0 && !s.on d (R.CLK_UPLL_STATUS.LIMIT n)
    && (s.on d (R.CLK_UPLL_STATUS.LOCK n) || !s.on d (R.CLK_UPLL_CTRL.STOP_ON_UNLOCK n))

/-- A fabric tap runs (R44, R46): it has a divisor and its gate is open. -/
def tapRuns (s : State) (d n : Nat) : Bool := gateOpen s d (8 + n) && s.g d (R.CLK_FTAP.DIV n) != 0

/-- The rail of an HSIO bank, 0 or 1, or of the HS3 bank, 2, of a die is present (R158). -/
def railOn (s : State) (d bank : Nat) : Bool := !s.boot.straps.noRail.getLsbD (3 * d + bank)

/-- The input of a user PLL can show edges (R51, R154): its HSIO pair, of bank n div 4, needs the bank's rail; a fabric tap and the output
of the PLL below need to run; LREF and REFCLK come from the board at their physical frequency, whatever their ratio (R33). -/
def upllSource (s : State) (d n : Nat) : Bool :=
  let src := s.g d (R.CLK_UPLL_CTRL.SRC n)
  if src = 0 then railOn s d (n / 4)
  else if src = 3 then tapRuns s d n
  else if src = 4 then upllOutRuns s d (n - 1) 0
  else true

/-- The limits of R51 that depend on the input's frequency: the phase detector 10 to 400 MHz, the VCO 4 to 8 GHz, and each enabled output
at most 800 MHz. -/
def upllLimitsOk (s : State) (d n hz : Nat) : Bool :=
  let r := s.g d (R.CLK_UPLL_CTRL.REFDIV n)
  let vco := hz * s.g d (R.CLK_UPLL_CTRL.FBDIV n)
  decide (10000000 * r ≤ hz ∧ hz ≤ 400000000 * r ∧ 4000000000 * r ≤ vco ∧ vco ≤ 8000000000 * r)
    && (List.range 4).all (fun m =>
      let div := s.g d ⟨(R.CLK_UPLL_OUT.DIV0 n).off, 8 * m, 8⟩
      div == 0 || decide (vco ≤ 800000000 * r * div))

/-- A user PLL leaves lock (R51, R52). -/
def upllLost (s : State) (d n : Nat) : State :=
  ((s.p d (R.CLK_UPLL_STATUS.LOCK n) 0).p d (R.CLK_UPLL_STATUS.UNLOCK_STICKY n) 1).setBit d R.CLK_EVT.UPLL_UNLOCK n

/-! ## Clock monitor -/

/-- The sources of CLK_MON_CTRL.SRC. -/
def monSrcOk (v : Nat) : Bool := decide (v ≤ 4) || (decide (8 ≤ v) && decide (v ≤ 23))

/-- A write of CLK_MON_CTRL (R54). -/
def writeClkMon (s : State) (w : Wr) : State :=
  let start := R.CLK_MON_CTRL.START.of w.raw == 1
  if monSrcOk (R.CLK_MON_CTRL.SRC.of w.new) && !(start && s.on w.d R.CLK_MON_STATUS.BUSY) then
    let s := s.setReg w.d w.r w.new
    (if start then s.p w.d R.CLK_MON_STATUS.BUSY 1 else s).ans .ok
  else s.ans .accessError

/-- A write to a register of the CLK block (R55). -/
def writeClk (s : State) (w : Wr) : State :=
  match w.r.id with
  | .CLK_REF_CTRL => writeRefCtrl s w
  | .CLK_REF_PRIO => writeRefPrio s w
  | .CLK_REF_RATIO => writeRefRatio s w
  | .CLK_RCV_CTRL => writeRcvCtrl s w
  | .CLK_ROOT_CFG => writeRootCfg s w
  | .CLK_FTAP => writeFtap s w
  | .CLK_GATE_EN0 => writeGate s w.d 0 w.new
  | .CLK_GATE_EN1 => writeGate s w.d 1 w.new
  | .CLK_GATE_EN2 => writeGate s w.d 2 w.new
  | .CLK_GATE_EN3 => writeGate s w.d 3 w.new
  | .CLK_GATE_EN4 => writeGate s w.d 4 w.new
  | .CLK_ALT_CTRL => writeAltCtrl s w
  | .CLK_UPLL_CTRL => writeUpllCtrl s w
  | .CLK_UPLL_OUT => writeUpllOut s w
  | .CLK_MON_CTRL => writeClkMon s w
  | _ => s.store w

/-! ## The events of the clocks -/

/-- The mux sees the low phase of the old input, which runs, and stops passing it (R35 step 2). In FULL_STOP the mux stops (R43). -/
def execRefMuxOldLow (die : Die) (s : State) : Host.Outcome State Fault Refusal :=
  let c := s.clkOf die
  .next (if c.ref.step = .oldLow ∧ inpActive s die (refCur s die) ∧ s.fullStopped die = false then
    s.setClk die { c with ref := ⟨.newLow, c.ref.dst⟩ } else s)

/-- The mux sees a low phase of the new input, which runs: it passes that input, and STUCK and SWITCHING fall (R35, R36). -/
def execRefMuxNewLow (die : Die) (s : State) : Host.Outcome State Fault Refusal :=
  let c := s.clkOf die
  .next (if c.ref.step = .newLow ∧ inpActive s die c.ref.dst ∧ s.fullStopped die = false then muxForce s die c.ref.dst else s)

/-- A switch is not complete 1,024 periods of the new input after the write; a new input that has stopped counts
nothing (R36). -/
def execRefmuxStuck (die : Die) (s : State) : Host.Outcome State Fault Refusal :=
  let c := s.clkOf die
  .next (if c.ref.step ≠ .idle ∧ s.on die R.CLK_REF_STATUS.STUCK = false ∧ inpActive s die c.ref.dst
      ∧ s.fullStopped die = false then
    (s.p die R.CLK_REF_STATUS.STUCK 1).p die R.CLK_EVT.REFMUX_STUCK 1 else s)

/-- No edge within 4 periods: the input's ACTIVE and QUAL fall and its loss is recorded (R34). -/
def execRefEdgeLoss (die : Die) (inp : Fin 5) (s : State) : Host.Outcome State Fault Refusal :=
  .next (if inpHere s die inp ∧ inpActive s die inp then edgeLoss s die inp else s)

/-- An input that shows edges again is late for the measurement that now runs (R34). -/
def markLate (s : State) (d n : Nat) : State := s.setClk d { s.clkOf d with late := (s.clkOf d).late ||| (1#5 <<< n) }

/-- The input's next edge: an enabled input whose source runs becomes active, and a PLL in OFF that waits for it starts acquiring
(R34, R40). -/
def execRefEdgeReturn (die : Die) (inp : Fin 5) (s : State) : Host.Outcome State Fault Refusal :=
  .next (if inpEnabled s die inp ∧ inpSource s inp ∧ inpActive s die inp = false then
    startAcquire (markLate (setActive s die inp true) die inp) die else s)

/-- The input has been active for QUAL_TIME: it qualifies before the root first locks, and afterwards once a measurement
begun after its first edge has passed (R34). A PLL in HOLDOVER on it enters RELOCK; with AUTO it may switch (R39, R40). -/
def execRefQualified (die : Die) (inp : Fin 5) (s : State) : Host.Outcome State Fault Refusal :=
  let c := s.clkOf die
  let meas := c.measOk.getLsbD inp
  .next (if inpEnabled s die inp ∧ inpActive s die inp then
    let s := setMarks s die inp true meas
    if c.everLocked ∧ !meas then s
    else autoSwitch (relockIfQualified (setQual s die inp true) die) die
  else s)

/-- A measured offset, in ppb from the frequency that the ratio implies, is within FMON_PPM (R34). -/
def fmonOk (s : State) (d : Nat) (ppb : Int) : Bool := decide (ppb.natAbs ≤ 1000 * s.g d R.CLK_ROOT_CFG.FMON_PPM)

/-- What one measurement of an input does (R34). An input that became active after the measurement began has none. -/
def measureInput (d : Nat) (pass : BitVec 5) (s : State) (n : Nat) : State :=
  if inpEnabled s d n && inpActive s d n && !(s.clkOf d).late.getLsbD n then
    let timed := (s.clkOf d).timed.getLsbD n
    if pass.getLsbD n then
      let s := setMarks s d n timed true
      if timed then setQual s d n true else s
    else setQual (setMarks s d n timed false) d n false
  else s

/-- The inputs whose measured offsets are within FMON_PPM. -/
def fmonPass (s : State) (d : Nat) (ppb : Vector Int 5) : BitVec 5 :=
  (List.range 5).foldl (fun (v : BitVec 5) n => if fmonOk s d (ppb[n]?.getD 0) then v ||| (1#5 <<< n) else v) 0

/-- A 10 ms measurement of every enabled input against the root ends and the next one begins (R34): it passes or clears QUAL; with
HOLD_ON_FREQ a failing measurement of the current input is a loss (R37). FOFS takes the measured offset, or 0 while LREF is in use, not
active or disabled (R33). A PLL that then stands in HOLDOVER may find an input qualified (R39, R40). -/
def execFreqMeasurement (die : Die) (ppb : Vector Int 5) (fofs : Word) (s : State) : Host.Outcome State Fault Refusal :=
  let d := die.val
  .next (if (s.clkOf d).everLocked then
    let cur := refCur s d
    let pass := fmonPass s d ppb
    let failed := inpEnabled s d cur && inpActive s d cur && !(s.clkOf d).late.getLsbD cur && !pass.getLsbD cur
      && s.on d R.CLK_ROOT_CFG.HOLD_ON_FREQ
    let s := [0, 1, 2, 3, 4].foldl (measureInput d pass) s
    let s := s.setClk d { s.clkOf d with late := 0 }
    let s := s.p d R.CLK_ROOT_FOFS.FOFS (if fofsLive s d then fofs.toNat else 0)
    let s := if failed then rootLoss s d else s
    autoSwitch (relockIfQualified s d) d
  else s)

/-- Phase error within the window for 1,024 reference periods: ACQUIRE becomes LOCKED, and the first lock starts the hard
clocks (R40). -/
def execRootLock (die : Die) (s : State) : Host.Outcome State Fault Refusal :=
  let d := die.val
  .next (if rootState s d = Root.acquire ∧ refStopped s d = false then
    (setRoot s d Root.locked).setClk d { s.clkOf d with everLocked := true } else s)

/-- The PLL declares loss of its reference: no edges reach it (R37). -/
def execRootRefLoss (die : Die) (s : State) : Host.Outcome State Fault Refusal :=
  .next (if refStopped s die then rootLoss s die else s)

/-- Phase error outside the window for 16 periods moves LOCKED to HOLDOVER or, with no history, raises a clock-failure
reset (R40). -/
def execRootPhaseLoss (die : Die) (s : State) : Host.Outcome State Fault Refusal :=
  .next (if rootState s die = Root.locked then relockIfQualified (rootLoss s die) die else s)

/-- The root is within 0.01 ppm of the reference for 1 s: RELOCK becomes LOCKED (R40). -/
def execRootRelocked (die : Die) (s : State) : Host.Outcome State Fault Refusal :=
  .next (if rootState s die = Root.relock ∧ refStopped s die = false then
    (setRoot s die Root.locked).p die R.CLK_EVT.RELOCKED 1 else s)

/-- The analogue loop unlocks: a clock-failure reset from any state but OFF (R40). -/
def execAnalogueUnlock (die : Die) (s : State) : Host.Outcome State Fault Refusal :=
  .next (if rootState s die ≠ Root.off then clockFailure s die else s)

/-- LOCKED continuously for HOLD_AVG (R40). -/
def execHistValidSet (die : Die) (s : State) : Host.Outcome State Fault Refusal :=
  .next (if rootState s die = Root.locked then s.p die R.CLK_ROOT_STATUS.HIST_VALID 1 else s)

/-- An alternate-source mux completes its switch, once it has seen the low phases it waits for; a new source that has stopped has none
(R36, R50). -/
def execAltSwitchComplete (die : Die) (mux : AltMux) (s : State) : Host.Outcome State Fault Refusal :=
  .next (if s.on die (altSwitching mux) ∧ altRuns s die (s.g die (altSrc mux)) then altDone s die mux (s.g die (altSrc mux)) else s)

/-- An alternate switch is not complete 1,024 cycles of the new source after the write; a new source that has stopped counts nothing
(R36, R50). -/
def execAltStuck (die : Die) (mux : AltMux) (s : State) : Host.Outcome State Fault Refusal :=
  .next (if s.on die (altSwitching mux) ∧ s.on die (altStuck mux) = false ∧ altRuns s die (s.g die (altSrc mux)) then
    (s.p die (altStuck mux) 1).p die (altEvent mux) 1 else s)

/-- The 10 µs measurement of a user PLL's input gives a frequency, 0 where it shows no edges (R51): while it shows none or breaks a limit,
LIMIT reads 1 and a locked PLL leaves lock. -/
def execUpllMeasure (die : Die) (n : Fin 8) (edges : Bool) (hz : Nat) (s : State) : Host.Outcome State Fault Refusal :=
  let edges := edges && hz != 0 && upllSource s die n
  let good := edges && upllLimitsOk s die n hz
  .next (if s.on die (R.CLK_UPLL_CTRL.EN n) then
    let s1 := (s.p die (R.CLK_UPLL_STATUS.INPUT_ACTIVE n) (if edges then 1 else 0)).p die (R.CLK_UPLL_STATUS.LIMIT n)
      (if good then 0 else 1)
    let s2 := setUpllGood s1 die n good
    if !good ∧ s2.on die (R.CLK_UPLL_STATUS.LOCK n) then upllLost s2 die n else s2
  else s)

/-- A user PLL that is enabled and measured good reaches lock (R51). -/
def execUpllLock (die : Die) (n : Fin 8) (s : State) : Host.Outcome State Fault Refusal :=
  .next (if s.on die (R.CLK_UPLL_CTRL.EN n) ∧ upllGood s die n then s.p die (R.CLK_UPLL_STATUS.LOCK n) 1 else s)

/-- A locked user PLL is outside its lock window for 16 periods (R52). -/
def execUpllUnlock (die : Die) (n : Fin 8) (s : State) : Host.Outcome State Fault Refusal :=
  .next (if s.on die (R.CLK_UPLL_STATUS.LOCK n) then upllLost s die n else s)

/-- A change of CKMUX2 SEL (R53): with FORCE, O follows at once; otherwise a glitch-free switch starts. A change back to the
input still passed, before that input was let go, ends the switch. -/
def ckSelect (c : CkMux2) (sel : Bool) : CkMux2 :=
  if sel = c.sel then c
  else if c.force then { c with sel := sel, cur := sel, sw := .idle, stuck := false }
  else if sel = c.cur ∧ c.sw ≠ .newLow then { c with sel := sel, sw := .idle, stuck := false }
  else { c with sel := sel, sw := if c.sw = .newLow then .newLow else .oldLow }

def execCkmux2Sel (die : Die) (mux : Nat) (sel : Bool) (s : State) : Host.Outcome State Fault Refusal :=
  .next (s.setCk die mux (ckSelect (s.ckOf die mux) sel))

/-- CKMUX2 FORCE (R53): asserted, O follows the selected input at once and STUCK falls. -/
def execCkmux2Force (die : Die) (mux : Nat) (force : Bool) (s : State) : Host.Outcome State Fault Refusal :=
  let c := s.ckOf die mux
  .next (s.setCk die mux (if force then { c with force := true, cur := c.sel, sw := .idle, stuck := false }
    else { c with force := false }))

/-- What the image says of a CKMUX2. -/
def muxDecl (s : State) (d k : Nat) : Option MuxDecl := ((s.designOf d).muxes.find? (fun x => x.1 == k)).map (fun x => x.2)

/-- The clock source runs on a die in RUN, looked for through at most `f` muxes in a row (R53, R149, R150): a CKMUX2 passes the input that
it follows, and holds O low while it hangs. -/
def srcRuns : Nat → State → Nat → ClkSrc → Bool
  | 0, _, _, _ => false
  | f + 1, s, d, c =>
    match c with
    | .tap n => tapRuns s d n
    | .pll n m => upllOutRuns s d n m
    | .pair p => railOn s d (p / 4)
    | .logic => true
    | .mux k =>
      let x := s.ckOf d k
      x.sw != .newLow && !x.stuck && match muxDecl s d k with
        | some y => srcRuns f s d (if x.cur then y.i1 else y.i0)
        | none => false

/-- A clock of the fabric runs: the die is in RUN, whose ladder holds no fabric tap, and its source runs (R149, R150). -/
def clkRuns (s : State) (d : Nat) (c : ClkSrc) : Bool := !s.belowRun d && srcRuns ((s.designOf d).muxes.length + 2) s d c

/-- A clock that the image chooses for an endpoint, by number; one without a choice runs on FT0. -/
def endClock (l : List (Nat × ClkSrc)) (n : Nat) : ClkSrc := ((l.find? (fun x => x.1 == n)).map (fun x => x.2)).getD (.tap 0)

/-- The clock that CFG_CAP_CTRL.CLKSEL names runs (R162). -/
def clkselRuns (s : State) (d sel : Nat) : Bool :=
  !s.belowRun d && (if sel < 16 then tapRuns s d sel else if sel < 48 then upllOutRuns s d ((sel - 16) / 4) (sel % 4) else false)

/-- The source of a track (R149). -/
def trackSrc (s : State) (d : Nat) : Track → Option ClkSrc
  | .global g => ((s.designOf d).gtracks.find? (fun x => x.1 == g.val)).map (fun x => x.2.src)
  | .regional q t => ((s.designOf d).rtracks.find? (fun x => x.1 == q.val * 8 + t.val)).map (fun x => x.2)

/-- A track carries a running clock. -/
def trackRuns (s : State) (d : Nat) (t : Track) : Bool :=
  match trackSrc s d t with
  | some c => clkRuns s d c
  | none => false

/-- A track reaches a clock region (R149): a global track where the image enables it, a regional track in its own region and the regions
directly above and below. -/
def trackReaches (s : State) (d q : Nat) : Track → Bool
  | .global g => (s.designOf d).gtracks.any (fun x => x.1 == g.val && x.2.regions.getLsbD q)
  | .regional r _ => r.val == q || r.val + 10 == q || r.val == q + 10

/-- A CKMUX2 switch is not complete after 1,024 cycles of the new input, which must run; `atNew` says that the mux has let the old input go
and holds O low (R36, R53). -/
def execCkmux2Stuck (die : Die) (mux : Nat) (s : State) (atNew : Bool := false) : Host.Outcome State Fault Refusal :=
  let c := s.ckOf die mux
  .next (if c.sw ≠ .idle then s.setCk die mux { c with stuck := true, sw := if atNew then .newLow else c.sw } else s)

/-- CKMUX2 sees the low phases it waits for and completes its switch (R53). -/
def execCkmux2SwitchComplete (die : Die) (mux : Nat) (s : State) : Host.Outcome State Fault Refusal :=
  let c := s.ckOf die mux
  .next (if c.sw ≠ .idle then s.setCk die mux { c with cur := c.sel, sw := .idle, stuck := false } else s)

/-- The clock monitor's window ends (R54). -/
def execClkMonDone (die : Die) (count : Word) (s : State) : Host.Outcome State Fault Refusal :=
  .next (if s.on die R.CLK_MON_STATUS.BUSY then
    (((s.p die R.CLK_MON_STATUS.BUSY 0).p die R.CLK_MON_COUNT.COUNT count.toNat).p die R.CLK_MON_STATUS.DONE 1).p die
      R.CLK_MON_STATUS.NO_CLOCK (if count = 0 then 1 else 0)
  else s)

end Sys2Proof.Machine
end

