-- ==== Sys2Proof/Machine/Bank.lean ====
section
/-!
DEFINITION. A bank as its own controller sees it (11_bank_memory): the order of tests of an access, the words with their code
and poison, power states, handovers and wipes. Coherence stands above it (Machine/Coherence.lean).
-/

namespace Sys2Proof.Machine

def Pst.on : Nat := 0
def Pst.retention : Nat := 1
def Pst.off : Nat := 2
def Pst.toRet : Nat := 3
def Pst.toOff : Nat := 4
def Pst.waking : Nat := 5
def Pst.filling : Nat := 6

def Own.free : Nat := 0x1FFF
def Own.secureSupervisor : Nat := 0x1FFE

def State.pstate (s : State) (d b : Nat) : Nat := s.g d (R.BNK_STATUS.PSTATE b)
def State.bankOwner (s : State) (d b : Nat) : Nat := s.g d (R.BNK_CTRL.OWNER b)
def State.bankSecure (s : State) (d b : Nat) : Bool := b == 7 && s.on d (R.BNK_CTRL.SECURE b)

/-! ## Words -/

/-- Count a corrected error (R295). -/
def bankCe (s : State) (d b : Nat) : State := (s.incSat d (R.BNK_ECC_CNT.CE b)).p d R.BNK_EVT.CE 1

/-- Count an uncorrectable error and log it if the log is empty (R295). -/
def bankUe (s : State) (d b w syn : Nat) : State :=
  let s := (s.incSat d (R.BNK_ECC_CNT.UE b)).p d R.BNK_EVT.UE 1
  if s.on d R.BNK_ERR_LOG.VALID then s
  else (((s.p d R.BNK_ERR_LOG.VALID 1).p d R.BNK_ERR_LOG.BANK b).p d R.BNK_ERR_LOG.SYNDROME syn).p d R.BNK_ERR_LOG.OFFSET w

/-- The syndrome of word `w` of a bank (R294). -/
def bankSyn (s : State) (d b w : Nat) : Nat :=
  let x := s.bankWord (d * 8 + b) w
  (x.chk ^^^ secdedCheck x.d).toNat

/-- Count and log what a syndrome found (R295). -/
def bankNote (s : State) (d b w : Nat) : State :=
  let y := bankSyn s d b w
  let s := if (synOf y).ce then bankCe s d b else s
  if (synOf y).ue then bankUe s d b w y else s

/-- The word that a read delivers (R294, R295). -/
def bankSees (s : State) (d b w : Nat) : MWord := synWord (s.bankWord (d * 8 + b) w).d (synOf (bankSyn s d b w))

/-- Read word `w` of a bank: what is delivered, and the state with errors counted (R294, R295). -/
def bankReadWord (s : State) (d b w : Nat) : MWord × State := (bankSees s d b w, bankNote s d b w)

/-- The check byte stored with data: the code, or for poison the poison pattern (R295). -/
def storedCheck (v : DWord) (p : Bool) : Byte := if p then ~~~ secdedCheck v else secdedCheck v

/-- Store a whole word, under the DATA_ONLY test (R295, R298). -/
def bankPutWord (s : State) (d b w : Nat) (v : MWord) : State :=
  let keep := s.on d R.BNK_ECC_TEST.DATA_ONLY && s.g d R.BNK_ECC_TEST.BANK == b
  s.setBankWord (d * 8 + b) w ⟨v.v, if keep then (s.bankWord (d * 8 + b) w).chk else storedCheck v.v v.p⟩

/-- Write the enabled bytes of word `w` of a bank (R295, R296). A partial write corrects the old word first; into an
uncorrectable or poisoned word it stores the poison pattern and is counted in UE. -/
def bankWriteWord (s : State) (d b w : Nat) (v : MWord) (be : Byte) : State :=
  if be = 0xFF#8 then bankPutWord s d b w v
  else if be = 0#8 then s
  else
    let old := bankSees s d b w
    let y := synOf (bankSyn s d b w)
    let s := bankNote s d b w
    let s := if y = .poison then s.incSat d (R.BNK_ECC_CNT.UE b) else s
    let m := mergeBytes old.v v.v be
    s.setBankWord (d * 8 + b) w ⟨m, storedCheck m (old.p || v.p)⟩

/-! ## Copies of the bank's lines (R283, R285) -/

/-- The owner check (R281, R282, R289): whether the master may access the bank. -/
def bankAdmits (s : State) (m : Master) (d b : Nat) : Bool :=
  let o := s.bankOwner d b
  let dbg := m.cls == .debug && decide (2 ≤ s.dbgLevel) && !s.bankSecure d b
  if o = Own.free then !s.bankSecure d b
  else if o < 0x1000 then m.rid == o || dbg
  else if o < 0x1008 then (m.cls == .pen && s.dieOfRid m.rid == o - 0x1000) || dbg
  else if o < 0x1010 then (m.cls == .dfd && s.dieOfRid m.rid == o - 0x1008) || dbg
  else if o = Own.secureSupervisor then s.supervisor m
  else dbg

/-- The counters of a remote line cache (RLC counters, k = 0 to 6). -/
def rlcCnt (s : State) (q k : Nat) : State := s.inc q (R.RLC_CNT.COUNT k) 1

/-- A cached word as the data array delivers it (R324). -/
def cacheSees (c : CLine) (i : Nat) : MWord :=
  let x := c.words.getD i ⟨0, false⟩
  if x.p then x else synWord x.v (synOf (c.flip.getD i 0).toNat)

/-- Count what the data array found in a word (R324). -/
def cacheNote (s : State) (q : Nat) (c : CLine) (i : Nat) : State :=
  if (c.words.getD i ⟨0, false⟩).p then s
  else
    let y := synOf (c.flip.getD i 0).toNat
    let s := if y.ce then (s.incSat q R.RLC_ECC_CNT.CE).p q R.RLC_EVT.CE 1 else s
    if y.ue then (s.incSat q R.RLC_ECC_CNT.UE).p q R.RLC_EVT.UE 1 else s

/-- A write-back that its target refuses is lost, counted and logged (R322). -/
def wbLost (s : State) (q line : Nat) (r : Resp) : State :=
  let s := (rlcCnt s q 6).p q R.RLC_EVT.WB_ERR 1
  if s.on q R.RLC_WB_LOG.VALID then s
  else ((s.p q R.RLC_WB_LOG.VALID 1).p q R.RLC_WB_LOG.RESP r.code).p q R.RLC_WB_LOG.KEYID (line / 2 ^ 42 % 64) |>.p q
    R.RLC_WB_LOG.LINE (line % 2 ^ 42)

/-- The dies of a directory entry. -/
def DirEnt.holders (e : DirEnt) : List Nat := (List.range 8).filter (fun q => e.vec.getLsbD q)

/-- Send a snoop to each die that holds a line, but for one. -/
def snoopAll (s : State) (line : Nat) (except : Option Nat) (f : State → Nat → State) : State :=
  match s.dirOf line with
  | some e => (e.holders.filter (fun q => some q != except)).foldl (fun s q => f (rlcCnt s q 3) q) s
  | none => s

/-- The lines of a bank that some cache holds. -/
def bankLines (s : State) (d b : Nat) : List Nat :=
  let lo := (0x10000000 + d * 0x2000000 + b * 0x400000) / 64
  (s.coh.dir.filter (fun e => decide (lo ≤ e.1 ∧ e.1 < lo + 65536))).map (fun e => e.1)

/-- Recall a line of a bank from every cache; a dirty copy is written back under the rights of the master that made it dirty (R285 step
3). -/
def bankRecallLine (s : State) (d b line : Nat) : State :=
  let s := snoopAll s line none (fun s q =>
    match s.copyOf q line with
    | some c =>
      let s := if c.st = 3 then
          if bankAdmits s c.by_ d b then
            (List.range 8).foldl (fun s i => bankPutWord (cacheNote s q c i) d b (line * 64 % 0x400000 / 64 * 8 + i) (cacheSees c i)) s
          else wbLost s q line .accessError
        else s
      (rlcCnt s q 4).setCopy q line none
    | none => s)
  s.setDir line none

/-- Recall every cached line of a bank (R285 step 3, R287). -/
def bankRecall (s : State) (d b : Nat) : State := (bankLines s d b).foldl (fun s l => bankRecallLine s d b l) s

/-! ## Power -/

/-- Start the power transition from the state a bank is in to a requested one (R287): a bank that leaves ON recalls its cached lines; a
pending zero fill makes a return to
ON a fill (R290). -/
def bankPowerStart (s : State) (d b req : Nat) : State :=
  let st := s.pstate d b
  let s := s.p d (R.BNK_CTRL.POWER b) req
  let go (v : Nat) := s.p d (R.BNK_STATUS.PSTATE b) v
  if st = Pst.on ∧ req = 1 then (bankRecall s d b).p d (R.BNK_STATUS.PSTATE b) Pst.toRet
  else if st = Pst.on ∧ req = 2 then (bankRecall s d b).p d (R.BNK_STATUS.PSTATE b) Pst.toOff
  else if st = Pst.retention ∧ req = 0 then
    go (if s.on d (R.BNK_STATUS.ZERO_PENDING b) then Pst.filling else Pst.waking)
  else if st = Pst.retention ∧ req = 2 then go Pst.toOff
  else if st = Pst.off ∧ req = 0 then go Pst.filling
  else s

/-- The steady state that a transition leads to (R287). -/
def pstAfter (st : Nat) : Nat :=
  if st = Pst.toRet then Pst.retention else if st = Pst.toOff then Pst.off
  else if st = Pst.waking ∨ st = Pst.filling then Pst.on else st

/-- A bank reaches the end of its transition: OFF loses its contents, a fill leaves zeros, and BNK_POWER is raised (R287). -/
def bankPowerArrive (s : State) (d b : Nat) : State :=
  let st := s.pstate d b
  let s := if st = Pst.toOff then s.loseBank (d * 8 + b)
    else if st = Pst.filling then (s.zeroBank (d * 8 + b)).p d (R.BNK_STATUS.ZERO_PENDING b) 0 else s
  (s.p d (R.BNK_STATUS.PSTATE b) (pstAfter st)).p d R.BNK_EVT.POWER 1

/-- Start a latched power request, if there is one (R287). -/
def bankPowerNext (s : State) (d b : Nat) : State :=
  match (s.bankSt (d * 8 + b)).latched with
  | some r =>
    bankPowerStart ((s.setBankSt (d * 8 + b) { s.bankSt (d * 8 + b) with latched := none }).p d
      (R.BNK_STATUS.PEND_POWER b) 0) d b r
  | none => s

/-- Bring a bank that waits for it back to ON for an access (R288): the running transition completes, then the bank returns
to ON, and POWER reads ON. -/
def bankBringOn (s : State) (d b : Nat) : State :=
  let s := if s.pstate d b = Pst.toRet then bankPowerArrive s d b else s
  let s := if s.pstate d b = Pst.retention then (bankPowerStart s d b 0) else s
  if s.pstate d b = Pst.on then s else (bankPowerArrive s d b).p d (R.BNK_CTRL.POWER b) 0

/-! ## Wipes -/

/-- End a wipe of a bank that is not on: the cut supply has lost the data, and the zero fill is due (R290). -/
def bankCutSupply (s : State) (d b : Nat) : State :=
  (((s.zeroBank (d * 8 + b)).p d (R.BNK_STATUS.ZERO_PENDING b) 1).p d (R.BNK_STATUS.WIPING b) 0).p d R.BNK_EVT.WIPE_DONE 1

/-- Discard every cached copy of a bank's lines (R290 step 1). -/
def dropBankLines (s : State) (d b : Nat) : State :=
  let lo := (0x10000000 + d * 0x2000000 + b * 0x400000) / 64
  let mine (line : Nat) : Bool := decide (lo ≤ line ∧ line < lo + 65536)
  { s with coh := { s.coh with
      cache := SMap.keep s.coh.cache (fun k => !mine (k % 2 ^ 48))
      dir := SMap.keep s.coh.dir (fun k => !mine k) } }

/-- Order a wipe of a bank (R290): on a bank that is on or filling, WIPING is set and the zeroing follows; on one in a
transition, the wipe waits for its end; on one without supply, it ends at once. A wipe during a wipe is absorbed. -/
def bankWipe (s : State) (d b : Nat) : State :=
  let s := dropBankLines s d b
  let st := s.pstate d b
  if s.on d (R.BNK_STATUS.WIPING b) then s
  else if st = Pst.on then s.p d (R.BNK_STATUS.WIPING b) 1
  else if st = Pst.retention ∨ st = Pst.off then bankCutSupply s d b
  else (s.setBankSt (d * 8 + b) { s.bankSt (d * 8 + b) with wipe := true }).p d (R.BNK_STATUS.WIPING b) 1

/-- Wipe every secure bank of the device (R60, R78, R119, R134). -/
def wipeSecure (s : State) : State :=
  s.onDies (fun s d => if s.bankSecure d 7 then bankWipe s d 7 else s)

/-- A power transition ends (R287, R290): a wipe that waits for it follows the rule of the state reached, and then a latched
request starts. -/
def bankTransitionEnd (s : State) (d b : Nat) : State :=
  let s := bankPowerArrive s d b
  let x := s.bankSt (d * 8 + b)
  let s := if x.wipe then
      bankWipe ((s.setBankSt (d * 8 + b) { x with wipe := false }).p d (R.BNK_STATUS.WIPING b) 0) d b
    else s
  bankPowerNext s d b

/-! ## The tests of an access -/

/-- Log a refused access if the log is empty (R283). -/
def bankLog (s : State) (m : Master) (d b w kind : Nat) : State :=
  if s.on d R.BNK_ACC_LOG.VALID then s
  else
    ((((((s.p d R.BNK_ACC_LOG.VALID 1).p d R.BNK_ACC_LOG.KIND kind).p d R.BNK_ACC_LOG.BANK b).p d R.BNK_ACC_LOG.CLASS
      m.cls.bit).p d R.BNK_ACC_LOG.RID m.rid).p d R.BNK_ACC_LOG.OFFSET w).p d R.BNK_EVT.ACCESS_ERR 1

/-- The bank's clock runs: gate 41 and its own gate are open (R283, R300). -/
def bankClocked (s : State) (d b : Nat) : Bool := gateOpen s d 41 && gateOpen s d (80 + b)

/-- Why an access is refused, in the order of R283: the response and, where it is logged, the kind. -/
def bankRefusal (s : State) (m : Master) (d b : Nat) (formOk : Bool) : Option (Resp × Nat) :=
  let st := s.pstate d b
  if s.held d Blk.bnk then some (.targetError, 0)
  else if !bankAdmits s m d b then
    some (.accessError, if s.bankOwner d b = Own.free then 2 else 1)
  else if s.on d (R.BNK_STATUS.HANDOVER_PENDING b) then some (.accessError, 3)
  else if s.on d (R.BNK_STATUS.WIPING b) then some (.targetError, 4)
  else if !bankClocked s d b then some (.domainDown, 0)
  else if st = Pst.off ∨ st = Pst.toOff then some (.domainDown, 0)
  else if (st = Pst.retention ∨ st = Pst.toRet ∨ st = Pst.waking) ∧ s.on d (R.BNK_CTRL.WAKE_ON_ACCESS b) = false then
    some (.domainDown, 0)
  else if !formOk then some (.targetError, 0)
  else none

/-- Judge an access to word `w` of a bank (R283, R288): refused and logged, or admitted with the bank brought to ON. -/
def bankJudge (s : State) (m : Master) (d b w : Nat) (formOk : Bool) : Option Resp × State :=
  match bankRefusal s m d b formOk with
  | some (r, k) => (some r, if k = 0 then s else bankLog s m d b w k)
  | none => (none, (if s.pstate d b = Pst.on then s else bankBringOn s d b).inc d (R.BNK_CNT_ACC.COUNT b) 1)

/-- A hit in a cache is an access to the bank as far as its owner goes (R283): the tests of owner, handover and wipe, logged at the bank. -/
def bankGuard (s : State) (m : Master) (d b w : Nat) : Option Resp × State :=
  match bankRefusal s m d b true with
  | some (r, k) => if k = 0 then (none, s) else (some r, bankLog s m d b w k)
  | none => (none, s)

/-- After an access: a power request latched before it starts now (R288). -/
def bankAfter (s : State) (d b : Nat) : State := if s.pstate d b = Pst.on then bankPowerNext s d b else s

end Sys2Proof.Machine
end

