-- ==== Sys2Proof/Machine/Dram.lean ====
section
/-!
DEFINITION. A DRAM channel and its encryption engine (14_dram_and_encryption): the channel map, the symbol code, the tests of
a request, and encrypted lines.
-/

namespace Sys2Proof.Machine

/-! ## The channel map -/

def DdrState.off : Nat := 0
def DdrState.training : Nat := 1
def DdrState.ready : Nat := 2
def DdrState.selfref : Nat := 3
def DdrState.retrain : Nat := 4
def DdrState.failed : Nat := 5

/-- The die and controller of a global channel. -/
def chDie (ch : Nat) : Nat := ch / 2
def chCtl (ch : Nat) : Nat := ch % 2

/-- The channels of the part (14_dram_and_encryption). -/
def State.channels (s : State) : List Nat := s.dies.flatMap (fun d => [2 * d, 2 * d + 1])

/-- The channel is trained, so its ranges are mapped (R76, R349, R354). -/
def chServes (s : State) (ch : Nat) : Bool :=
  let st := s.g (chDie ch) (R.DDR_STATUS.STATE (chCtl ch))
  s.present (chDie ch) && (st == DdrState.ready || st == DdrState.selfref || st == DdrState.retrain)

/-- The clocks of the channel's PHY, controller and encryption engine run (R46). -/
def chClocked (s : State) (ch : Nat) : Bool :=
  let c := chCtl ch
  gateOpen s (chDie ch) (33 + c) && gateOpen s (chDie ch) (42 + c) && gateOpen s (chDie ch) (44 + c)

/-- Where set `k` of die `r`'s map puts an offset of the DRAM window: channel and channel-local address (R349). -/
def mapSet (s : State) (r k o : Nat) : Option (Nat × Nat) :=
  let mask := s.g r (R.DDR_MAP_CTL.CHMASK k)
  let n := popcount 16 mask
  let grain := 2 ^ s.g r (R.DDR_MAP_CTL.GRAIN_LOG2 k)
  let base := s.g r (R.DDR_MAP_RNG.BASE k) * 2 ^ 30
  let size := s.g r (R.DDR_MAP_RNG.SIZE k) * 2 ^ 30
  if s.on r (R.DDR_MAP_CTL.EN k) && decide (base ≤ o) && decide (o < base + size) && decide (0 < n) then
    let chunk := (o - base) / grain
    match (bitsOf 16 mask)[chunk % n]? with
    | some ch => some (ch, s.g r (R.DDR_MAP_RNG.CHBASE k) * 2 ^ 30 + chunk / n * grain + (o - base) % grain)
    | none => none
  else none

/-- Where die `r`'s map puts an offset of the DRAM window, if a trained channel serves it (R349). -/
def dramDecode (s : State) (r o : Nat) : Option (Nat × Nat) :=
  match (List.range 8).findSome? (fun k => mapSet s r k o) with
  | some (ch, l) => if chServes s ch then some (ch, l) else none
  | none => none

/-! ## The symbol code -/

/-- How a codeword decodes (R346): corrected, uncorrectable with its syndrome, and the word delivered. -/
structure RsRead where
  ce   : Bool
  ue   : Option Nat
  word : MWord
  deriving DecidableEq, Repr

/-- Decode a stored codeword (R346 to R348). -/
def rsDecode (c : DCell) : RsRead :=
  match c.flip with
  | none => ⟨false, none, ⟨c.d, c.poison⟩⟩
  | some (a, b, f) =>
    if f = 0 then ⟨false, none, ⟨c.d, c.poison⟩⟩
    else if a = b ∧ c.poison = false then ⟨true, none, ⟨c.d, false⟩⟩
    else if Config.rsLooksSingle a b f c.poison then ⟨true, none, ⟨Config.rsWord c.d a b f c.poison, false⟩⟩
    else ⟨false, some (Config.rsSyndrome a b f c.poison).toNat, ⟨Config.rsWord c.d a b f c.poison, true⟩⟩

/-- Decode channel-local word `w` of a channel; undefined contents decode as they may (R346). -/
def dramSees (s : State) (ch w : Nat) : RsRead :=
  match s.dcell ch w with
  | some c => rsDecode c
  | none =>
    let e := s.dramJunk ch
    let v := Config.undefWord (1000 + ch) e w
    let k := Config.undefKind (1000 + ch) e w
    if k = 0 then ⟨false, none, ⟨v, false⟩⟩
    else if k = 1 then ⟨true, none, ⟨v, false⟩⟩
    else if k = 2 then ⟨false, some (Config.undefWord (1016 + ch) e w).toNat, ⟨v, true⟩⟩
    else ⟨false, none, ⟨v, true⟩⟩

/-- Count and log what the decoder found (R347). -/
def dramNote (s : State) (ch w : Nat) (r : RsRead) : State :=
  let d := chDie ch
  let c := chCtl ch
  let s := if r.ce then (s.incSat d (R.DDR_ECC_CNT.CE c)).p d (R.DDR_EVT.CE c) 1 else s
  match r.ue with
  | none => s
  | some y =>
    let s := (s.incSat d (R.DDR_ECC_CNT.UE c)).p d (R.DDR_EVT.UE c) 1
    if s.on d (R.DDR_ERR_LOG.VALID c) then s
    else (((s.p d (R.DDR_ERR_LOG.VALID c) 1).p d (R.DDR_ERR_LOG.SYNDROME c) y).p d (R.DDR_ERR_LOG.WORD c) (w % 8)).p d
      (R.DDR_ERR_LOG.LINE c) (w / 8)

/-- Read `n` words from channel-local word `w` on. -/
def dramReadWords (s : State) (ch w n : Nat) : List MWord × State :=
  ((List.range n).map (fun i => (dramSees s ch (w + i)).word),
    (List.range n).foldl (fun s i => dramNote s ch (w + i) (dramSees s ch (w + i))) s)

/-- Write a burst of words from channel-local word `w` on; an armed DDR_ECC_FLIP acts on it and disarms (R348). -/
def dramWriteWords (s : State) (ch w : Nat) (ws : List MWord) : State :=
  let d := chDie ch
  let c := chCtl ch
  let arm := s.on d (R.DDR_ECC_FLIP.ARM c)
  let flip := if arm then
      some (s.g d (R.DDR_ECC_FLIP.DEV0 c), s.g d (R.DDR_ECC_FLIP.DEV1 c), s.g d (R.DDR_ECC_FLIP.FLIP c))
    else none
  let s := if arm then s.p d (R.DDR_ECC_FLIP.ARM c) 0 else s
  ws.zipIdx.foldl (fun s x => s.setDcell ch (w + x.2) ⟨x.1.v, x.1.p, flip⟩) s

/-! ## Protected windows and the tests of a request -/

/-- 16 MiB. -/
def u16M : Nat := 2 ^ 24

/-- The protected window that holds a channel-local address, if any (R358). -/
def protWindow (s : State) (ch a : Nat) : Option Nat :=
  let d := chDie ch
  let i := chCtl ch
  (List.range 4).find? (fun w => s.on d (R.MEE_PROT.EN i w)
    && decide (s.g d (R.MEE_PROT.BASE i w) * u16M ≤ a ∧ a < (s.g d (R.MEE_PROT.BASE i w) + s.g d (R.MEE_PROT.SIZE i w)) * u16M))

/-- The address lies in a metadata region (R357, R358). -/
def inMetadata (s : State) (ch a : Nat) : Bool :=
  let d := chDie ch
  let i := chCtl ch
  (List.range 4).any (fun w => s.on d (R.MEE_PROT.EN i w)
    && decide (s.g d (R.MEE_PROT.META i w) * u16M ≤ a
      ∧ a < s.g d (R.MEE_PROT.META i w) * u16M + s.g d (R.MEE_PROT.SIZE i w) * u16M / 4))

/-- The state of a KeyID in an engine (MEE_KSTATEj). -/
def kstate (s : State) (ch k : Nat) : Nat := (s.g (chDie ch) (R.MEE_KSTATE.STATE (chCtl ch) (k / 8)) / 16 ^ (k % 8)) % 8

def Ks.empty : Nat := 0
def Ks.active : Nat := 1
def Ks.staged : Nat := 2
def Ks.rekeying : Nat := 3
def Ks.rekeyed : Nat := 4

/-- Why the encryption engine refuses a request, in the order of R357. -/
def meeRefusal (s : State) (m : Master) (ch a k : Nat) : Option Resp :=
  if !s.keyRight m k then some .keyDenied
  else if inMetadata s ch a then some .accessError
  else if k = 0 then if (protWindow s ch a).isSome then some .accessError else none
  else if (protWindow s ch a).isNone then some .targetError
  else if kstate s ch k = Ks.empty then some .targetError
  else none

/-- Record in MEE_FAIL_LOG if it is empty (R357, R360, R366). -/
def meeLog (s : State) (m : Master) (ch a k kind : Nat) (r : Resp) : State :=
  let d := chDie ch
  let i := chCtl ch
  if s.on d (R.MEE_FAIL_LOG.VALID i) then s
  else
    (((((s.p d (R.MEE_FAIL_LOG.VALID i) 1).p d (R.MEE_FAIL_LOG.KIND i) kind).p d (R.MEE_FAIL_LOG.RESP i)
      (if kind = 3 then r.code else 0)).p d (R.MEE_FAIL_LOG.CLASS i) m.cls.bit).p d (R.MEE_FAIL_LOG.KEYID i) k).p d
      (R.MEE_FAIL_LOG.LINE i) (a / 64)

/-- The counters of an engine (MEE counters, k = 0 to 4). -/
def meeCnt (s : State) (ch k : Nat) : State := s.inc (chDie ch) (R.MEE_CNT.COUNT (chCtl ch) k) 1

/-- Judge a request (R65, R357, R368): a controller or engine in reset gives TARGET_ERROR; a refusal is counted and logged. -/
def meeJudge (s : State) (m : Master) (ch a k : Nat) : Option Resp × State :=
  if s.held (chDie ch) (Blk.ddr0 + chCtl ch) || s.held (chDie ch) (Blk.mee0 + chCtl ch) then (some .targetError, s)
  else match meeRefusal s m ch a k with
    | some r => (some r, meeLog (meeCnt s ch 3) m ch a k 3 r)
    | none => (none, s)

/-! ## Encryption -/

/-- The bytes of a block, most significant first, as a little-endian word: the half that covers plaintext word `h`, 0 or 1. -/
def ksHalf (b : BitVec 128) (h : Nat) : DWord :=
  BitVec.ofNat 64 (natBE (bytesLE 8 ((b >>> (64 * (1 - h))).toNat % 2 ^ 64)))

/-- Keystream block `b` (R359). -/
def ksBlock (key : BitVec 256) (k a n b : Nat) : BitVec 128 :=
  Config.aes256 key (BitVec.ofNat 128 (k * 2 ^ 120 + (a / 64 % 2 ^ 42) * 2 ^ 78 + n * 2 ^ 14 + b * 2 ^ 12))

/-- Keystream for word `j` of the line (R359). -/
def ksWord (key : BitVec 256) (k a n j : Nat) : DWord := ksHalf (ksBlock key k a n (j / 2)) (j % 2)

/-- Words with the keystream of the line applied. -/
def crypt (key : BitVec 256) (k a n : Nat) (ws : List DWord) : List DWord :=
  ws.zipIdx.map (fun x => x.1 ^^^ ksWord key k a n x.2)

/-- Two words as one block, first byte most significant. -/
def blockOf (lo hi : DWord) : BitVec 128 :=
  BitVec.ofNat 128 (natBE (bytesLE 8 lo.toNat) * 2 ^ 64 + natBE (bytesLE 8 hi.toNat))

/-- The 16-byte blocks of ciphertext words. -/
def blocks : List DWord → List (BitVec 128)
  | a :: b :: l => blockOf a b :: blocks l
  | [a] => [blockOf a 0]
  | [] => []

/-- The tag of a line (R359). -/
def tagOf (key : BitVec 256) (k a n : Nat) (ct : List DWord) : DWord :=
  let aa := a / 64 % 2 ^ 42
  let h := Config.aes256 key 0
  let g := Config.ghash h (blocks ct ++ [BitVec.ofNat 128 (aa * 2 ^ 70 + n)])
  let m := Config.aes256 key (BitVec.ofNat 128 (2 ^ 126 + k * 2 ^ 120 + aa * 2 ^ 78 + n * 2 ^ 14))
  (g ^^^ m).truncate 64

/-- The next key applies at this line (R364): while re-keying, below BOUNDARY; once re-keyed, in the whole range
(notes/assumptions/20.md). -/
def usesNext (s : State) (ch a k : Nat) : Bool :=
  let d := chDie ch
  let i := chCtl ch
  let st := kstate s ch k
  s.g d (R.MEE_RK_CFG.KEYID i) == k && decide (s.g d (R.MEE_RK_START.LINE i) ≤ a / 64)
    && ((st == Ks.rekeying && decide (a / 64 < s.g d (R.MEE_RK_BOUND.LINE i)))
      || (st == Ks.rekeyed && decide (a / 64 < s.g d (R.MEE_RK_END.LINE i))))

/-- The key that applies at a channel-local address (R364). -/
def lineKey (s : State) (ch a k : Nat) : BitVec 256 :=
  let m := s.mee ch
  if usesNext s ch a k then SMap.get (fun _ => 0) m.nxt k else SMap.get (fun _ => 0) m.cur k

/-- The channel-local word index of a line's metadata: counter, then tag (R358). -/
def metaWord (s : State) (ch a : Nat) : Nat :=
  match protWindow s ch a with
  | some w =>
    let d := chDie ch
    let i := chCtl ch
    (s.g d (R.MEE_PROT.META i w) * u16M + (a - s.g d (R.MEE_PROT.BASE i w) * u16M) / 64 * 16) / 8
  | none => 0

/-- Count a look-up in the counter/tag cache: a hit or a miss as the cache happens to hold the line (R361). -/
def ctLookup (s : State) (ch : Nat) : State := let (b, s) := s.free 1; meeCnt s ch (if b = 1 then 0 else 1)

/-- Read an encrypted line at channel-local address `a` (R359, R360): the words, whether the tag matched, the counter. -/
def encRead (s : State) (m : Master) (ch a k : Nat) : List MWord × Bool × Nat × State :=
  let s := ctLookup s ch
  let (md, s) := dramReadWords s ch (metaWord s ch a) 2
  let (ct, s) := dramReadWords s ch (a / 8) 8
  let n := (md.headD ⟨0, false⟩).v.toNat
  let tag := (md.getD 1 ⟨0, false⟩).v
  let key := lineKey s ch a k
  let cts := ct.map (fun x => x.v)
  let pt := crypt key k a n cts
  if tagOf key k a n cts = tag then
    ((pt.zip ct).map (fun x => ⟨x.1, x.2.p⟩), true, n, s)
  else
    let s := meeLog ((meeCnt s ch 2).p (chDie ch) (R.MEE_EVT.TAG_FAIL (chCtl ch)) 1) m ch a k 1 .ok
    (pt.map (fun x => ⟨x, true⟩), false, n, s)

/-- Store a line under a key and a counter, with its tag (R359). -/
def encStore (s : State) (ch a k n : Nat) (key : BitVec 256) (ws : List MWord) : State :=
  let ct := crypt key k a n (ws.map (fun x => x.v))
  let s := dramWriteWords s ch (a / 8) ((ct.zip ws).map (fun x => ⟨x.1, x.2.p⟩))
  dramWriteWords s ch (metaWord s ch a) [⟨BitVec.ofNat 64 n, false⟩, ⟨tagOf key k a n ct, false⟩]

/-- Count lines moved on a channel (DDR counters, k = 0 reads, 1 writes). -/
def ddrCnt (s : State) (ch k : Nat) : State := s.inc (chDie ch) (R.DDR_CNT.COUNT (chCtl ch) k) 1

/-- Read a line that the engine has admitted. -/
def dramReadLine (s : State) (m : Master) (ch a k : Nat) : List MWord × State :=
  let s := ddrCnt s ch 0
  if k = 0 then dramReadWords s ch (a / 8) 8
  else
    let (ws, _, _, s) := encRead s m ch a k
    (ws, s)

/-- Words merged into a line: for each of the eight, the new word and its byte enables. A whole word replaces its mark; a
partly written word that was poisoned stays poisoned (R296, R322, R347). -/
def mergeLine (old : List MWord) (new : List (MWord × Byte)) : List MWord :=
  (old.zip new).map (fun x =>
    if x.2.2 = 0xFF#8 then x.2.1
    else if x.2.2 = 0#8 then x.1
    else ⟨mergeBytes x.1.v x.2.1.v x.2.2, x.1.p || x.2.1.p⟩)

/-- Write words into a line that the engine has admitted (R347, R360, R366): part of a line is a read-modify-write of it; a
counter that would wrap refuses the write. -/
def dramWriteLine (s : State) (m : Master) (ch a k : Nat) (new : List (MWord × Byte)) : Resp × State :=
  let whole := new.all (fun x => x.2 == 0xFF#8)
  if k = 0 then
    let (old, s) := if whole then ([], s) else dramReadWords s ch (a / 8) 8
    let ws := if whole then new.map (fun x => x.1) else mergeLine old new
    (.ok, dramWriteWords (ddrCnt s ch 1) ch (a / 8) ws)
  else
    let key := lineKey s ch a k
    let n0 := (dramSees s ch (metaWord s ch a)).word.v.toNat
    if n0 = 2 ^ 64 - 1 then
      let d := chDie ch
      let i := chCtl ch
      (.targetError, (((meeLog s m ch a k 2 .targetError).setBit d (R.MEE_EXH.KEYIDS i) (k - 1))).p d
        (R.MEE_EVT.EXHAUSTED i) 1)
    else if whole then
      (.ok, encStore (ddrCnt (ctLookup s ch) ch 1) ch a k (n0 + 1) key (new.map (fun x => x.1)))
    else
      let (old, ok, n, s) := encRead s m ch a k
      let ws := mergeLine old new
      let ws := if ok then ws else ws.map (fun x => ⟨x.v, true⟩)
      (.ok, encStore (ddrCnt s ch 1) ch a k (n + 1) key ws)

end Sys2Proof.Machine
end

