-- ==== Sys2Proof/Machine/Coherence.lean ====
section
/-!
DEFINITION. Memory as the masters of the device reach it: the system address map (R23 to R26), the way to the home die (R303,
R312), the home slices with their directories, the caches of each die (R317 to R324), and reads and writes of coherent and
non-coherent masters (R20, R21, R321).
-/

namespace Sys2Proof.Machine

/-! ## The system address -/

/-- What a system address names (R24). The companion die's windows are 0 its control space, 1 its banks and 2 its fabric space (R26, R339). -/
inductive Target where
  | ctrl (d off : Nat)
  | bank (d b off : Nat)
  | se (d i off : Nat)
  | fabric (d p off : Nat)
  | comp (win off : Nat)
  | dram (ch a k : Nat)
  | none
  deriving DecidableEq, Repr

/-- The target window of a die that holds an offset of its fabric user space: port and offset in the window (R24, R196). -/
def fabWindow (s : State) (d off : Nat) : Option (Nat × Nat) :=
  ((List.range 32).find? (fun p => s.on d (R.FAB_NOCP_WIN.TARGET p)
    && decide (s.g d (R.FAB_NOCP_WIN.BASE p) * 65536 ≤ off
      ∧ off < s.g d (R.FAB_NOCP_WIN.BASE p) * 65536 + 2 ^ s.g d (R.FAB_NOCP_WIN.SIZE_LOG2 p)))).map
    (fun p => (p, off - s.g d (R.FAB_NOCP_WIN.BASE p) * 65536))

/-- The DRAM window is open to the master (R29, R109): to all after the GSR step, during a warm load to the Parser. -/
def dramOpen (s : State) (m : Master) : Bool :=
  s.stepDone s.head WStep.gsr || (s.boot.warm && s.boot.warmReady && m.cls == .parser)

/-- A node of die 7 that the companion declared in its CAPS block (R333, R339). -/
def companionNode (s : State) (x y : Nat) : Bool :=
  match SMap.get (fun _ => CapsIn.waiting) s.bdl.caps 24 with
  | .block b => (leAt b 0x10 8).testBit (y * 6 + x)
  | _ => false

/-- The size of a window that the admitted companion declares, as a power of two, or 0: both of its edges show it. -/
def companionLog2 (s : State) (w : Nat) : Nat :=
  let f (e : Nat) : Fld := if w = 0 then R.BDL_WIN.CTRL_LOG2 e else if w = 1 then R.BDL_WIN.BANK_LOG2 e else R.BDL_WIN.FAB_LOG2 e
  if s.dev.part = .px8c then max (s.g 6 (f 0)) (s.g 3 (f 2)) else 0

/-- An offset in a window of the companion (R26, R339): inside its declared size, at a node that it declared. -/
def companionOff (s : State) (w off : Nat) : Target :=
  let n := companionLog2 s w
  if n ≠ 0 ∧ off < 2 ^ n ∧ (w = 2 ∨ (w = 0 ∧ companionNode s 1 7) ∨ (w = 1 ∧ companionNode s 0 (off / 0x400000))) then .comp w off else .none

/-- Decode a system address for a master on die `r` (R23 to R26). -/
def decodeAddr (s : State) (m : Master) (r : Nat) (x : Nat) : Target :=
  let k := x / 2 ^ 48 % 64
  let a := x % 2 ^ 48
  if 2 ^ 54 ≤ x then .none
  else if 0x020000000000 ≤ a ∧ a < 0x040000000000 then
    if dramOpen s m then
      match dramDecode s r (a - 0x020000000000) with
      | some (ch, l) => .dram ch l k
      | none => .none
    else .none
  else if k ≠ 0 then .none
  else if a < 0x08000000 then
    let d := a / 0x1000000
    if s.present d then .ctrl d (a % 0x1000000)
    else if d = 7 then companionOff s 0 (a % 0x1000000) else .none
  else if 0x10000000 ≤ a ∧ a < 0x20000000 then
    let d := (a - 0x10000000) / 0x2000000
    if s.present d then .bank d (a % 0x2000000 / 0x400000) (a % 0x400000)
    else if d = 7 then companionOff s 1 (a % 0x2000000) else .none
  else if 0x20000000 ≤ a ∧ a < 0x30000000 then
    let g := (a - 0x20000000) / 0x80000
    let off := (a - 0x20000000) % 0x80000
    if s.present (g / 48) ∧ off < 0x50000 then .se (g / 48) (g % 48) off else .none
  else if 0x40000000 ≤ a ∧ a < 0x80000000 then
    let d := (a - 0x40000000) / 0x8000000
    if s.present d then
      match fabWindow s d ((a - 0x40000000) % 0x8000000) with
      | some (p, o) => .fabric d p o
      | none => .none
    else if d = 7 then companionOff s 2 ((a - 0x40000000) % 0x8000000) else .none
  else .none

/-- The die a target lies on. -/
def Target.die : Target → Option Nat
  | .ctrl d _ => some d
  | .bank d _ _ => some d
  | .se d _ _ => some d
  | .fabric d _ _ => some d
  | .comp _ _ => some 7
  | .dram ch _ _ => some (chDie ch)
  | .none => Option.none

/-- A cacheable target (R20). -/
def Target.cacheable : Target → Bool
  | .bank _ _ _ => true
  | .dram _ _ _ => true
  | .ctrl _ _ => false
  | .se _ _ _ => false
  | .fabric _ _ _ => false
  | .comp w _ => w == 1
  | .none => false

/-- A request to uncached space, whose requests a requester completes in issue order (R20). -/
def uncached (s : State) (q : Req) : Bool :=
  match decodeAddr s q.m (s.dieOfRid q.m.rid) q.addr.toNat with
  | .ctrl _ _ => true
  | .se _ _ _ => true
  | .fabric _ _ _ => true
  | .comp w _ => w != 1
  | _ => false

/-- An uncached request of a requester waits for the uncached requests that it issued before and that have not completed (R20). -/
def uncachedWaits (s : State) (q : Req) (tag : Nat) : Bool :=
  uncached s q && s.coh.net.any (fun e =>
    match e.2 with
    | some r => e.1 / 512 == q.m.rid && !r.quar && r.place != .done && uncached s r.req && (match s.netOf q.m.rid tag with
      | some x => decide (r.seq < x.seq)
      | none => true)
    | none => false)

/-! ## The way there -/

/-- A packet wakes the die it arrives on, and is counted there (R312, R444). -/
def packetWake (s : State) (d : Nat) : State :=
  if s.belowRun d ∧ s.g d R.PWR_STATUS.PHASE = 0 then (wakeDie s d 1).inc d R.NOC_CNT_WAKE.COUNT 1 else wakeDie s d 1

/-- The edges that a request and its response cross (R303, R331). -/
def tripHops (s : State) (r d : Nat) : List (Nat × Nat) := s.path r d ++ s.path d r

/-- The way of a request from die `r` to die `d` (R303, R312, R331, R341): refused over an edge that is Fatal or DOWN, and where it
or its response meets a die in FULL_STOP or an edge that is being brought up again; otherwise it wakes a domain below RUN and
is served. -/
def routeTo (s : State) (r d : Nat) : Option Resp × State :=
  let hops := tripHops s r d
  if hops.any (fun h => !s.edgeCarries h.1 h.2 && !s.edgeRising h.1 h.2) then (some .retryExhausted, s)
  else if s.fullStopped d || hops.any (fun h => s.edgeRising h.1 h.2 || s.fullStopped h.1) then
    (some .domainDown, s.inc r R.NOC_CNT_DOWN.COUNT 1)
  else if s.belowRun d then (none, packetWake s d)
  else (none, s)

/-! ## The home -/

/-- Serve the queued writes of a channel to a line, in arrival order, so that a later access sees them (R353). -/
def serveWrites (s : State) (ch a : Nat) : State :=
  let k := ch * 2 + a / 64 % 2
  let q := s.dsub k
  let mine := q.writes.filter (fun x => x.line == a / 64)
  let s := s.setDsub k { q with
    writes := q.writes.filter (fun x => x.line != a / 64)
    inOrder := q.inOrder.filter (fun x => mine.all (fun y => y.seq != x.2)) }
  mine.foldl (fun s x =>
    let be := x.req.be
    (dramWriteLine s x.req.m ch (x.line * 64) (x.req.addr.toNat / 2 ^ 48 % 64) (x.req.data.zip be)).2) s

/-- A request to a channel whose gate is closed is accepted and not served, so its master receives TIMEOUT (R47, R314;
notes/assumptions/53.md). -/
def unserved (s : State) (m : Master) : Option Resp × State :=
  let d := s.dieOfRid m.rid
  (some .timeout, (s.inc d R.NOC_CNT_TMO.COUNT 1).p d R.NOC_EVT.TIMEOUT 1)

/-- What the companion die answers, which is open (R339): `v` stands for it. -/
def companionResp (v : BitVec 3) : Resp :=
  if v = 1 then .targetError else if v = 2 then .decodeError else if v = 3 then .accessError else if v = 5 then .domainDown
  else if v = 6 then .keyDenied else .ok

/-- Words that come from outside the device: free values. -/
def freeWords (s : State) (n : Nat) : List MWord × State :=
  (List.range n).foldl (fun (x : List MWord × State) _ =>
    let (v, t) := x.2.free 64
    (x.1 ++ [⟨v, false⟩], t)) ([], s)

/-- Judge an access at its home, before any snoop (R283, R322, R357). -/
def homeJudge (s : State) (m : Master) (t : Target) : Option Resp × State :=
  match t with
  | .bank d b off => bankJudge s m d b (off / 8) true
  | .dram ch a k => if chClocked s ch then meeJudge s m ch a k else unserved s m
  | .ctrl _ _ => (some .targetError, s)
  | .se _ _ _ => (some .targetError, s)
  | .fabric _ _ _ => (some .targetError, s)
  | .comp _ _ =>
    let (v, s) := s.free 3
    (if companionResp v = .ok then none else some (companionResp v), s)
  | .none => (some .decodeError, s)

/-- Read `n` words of an admitted line from word `w` on, at its home. -/
def homeFetch (s : State) (m : Master) (t : Target) (w n : Nat) : List MWord × State :=
  match t with
  | .bank d b off =>
    let w0 := off / 64 * 8 + w
    ((List.range n).map (fun i => bankSees s d b (w0 + i)), (List.range n).foldl (fun s i => bankNote s d b (w0 + i)) s)
  | .dram ch a k =>
    let (l, s) := dramReadLine (serveWrites s ch (a / 64 * 64)) m ch (a / 64 * 64) k
    ((l.drop w).take n, s)
  | .ctrl _ _ => ([], s)
  | .se _ _ _ => ([], s)
  | .fabric _ _ _ => ([], s)
  | .comp _ _ => freeWords s n
  | .none => ([], s)

/-- Write words of an admitted line at its home: each of the eight with its byte enables. -/
def homeStore (s : State) (m : Master) (t : Target) (new : List (MWord × Byte)) : Resp × State :=
  match t with
  | .bank d b off =>
    (.ok, new.zipIdx.foldl (fun s x => bankWriteWord s d b (off / 64 * 8 + x.2) x.1.1 x.1.2) s)
  | .dram ch a k => dramWriteLine (serveWrites s ch (a / 64 * 64)) m ch (a / 64 * 64) k new
  | .ctrl _ _ => (.targetError, s)
  | .se _ _ _ => (.targetError, s)
  | .fabric _ _ _ => (.targetError, s)
  | .comp _ _ => (.ok, s)
  | .none => (.decodeError, s)

/-- An access has ended at its home: a bank may start a latched power request (R288). -/
def homeAfter (s : State) (t : Target) : State :=
  match t with
  | .bank d b _ => bankAfter s d b
  | .dram _ _ _ => s
  | .ctrl _ _ => s
  | .se _ _ _ => s
  | .fabric _ _ _ => s
  | .comp _ _ => s
  | .none => s

/-- The target of a line, as die `r` decodes it. -/
def lineTarget (s : State) (m : Master) (r line : Nat) : Target := decodeAddr s m r (line * 64)

/-- Whole words to store. -/
def wholeLine (ws : List MWord) : List (MWord × Byte) := ws.map (fun x => (x, 0xFF#8))

/-! ## Caches -/

/-- Write words into a die's copy of a line; an armed RLC_ECC_FLIP acts on the write and disarms (R324). -/
def cachePut (s : State) (q line : Nat) (remote : Bool) (st : Nat) (by_ : Master) (near : BitVec 17) (ws : List MWord)
    (wrote : List Bool) (old : List Byte) : State :=
  let arm := remote && s.on q R.RLC_ECC_FLIP.ARM
  let f := if arm then BitVec.ofNat 8 (s.g q R.RLC_ECC_FLIP.FLIP) else 0#8
  let flip := (List.range 8).map (fun i => if wrote.getD i true then f else old.getD i 0)
  let s := if arm then s.p q R.RLC_ECC_FLIP.ARM 0 else s
  s.setCopy q line (some ⟨st, ws, flip, by_, near⟩)

/-- Write a die's dirty copy home under the rights of the master that made it dirty: whether its target took it (R283, R322). Where the
write-back times out, the target may hold either value (R316). -/
def writeHome (s : State) (q line : Nat) (c : CLine) : Bool × State :=
  let t := lineTarget s c.by_ q line
  let ws := (List.range 8).map (cacheSees c)
  let s := (List.range 8).foldl (fun s i => cacheNote s q c i) s
  match homeJudge s c.by_ t with
  | (some .timeout, s) =>
    let (b, s) := s.free 1
    (false, wbLost (if b = 1 then (homeStore s c.by_ t (wholeLine ws)).2 else s) q line .timeout)
  | (some r, s) => (false, wbLost s q line r)
  | (none, s) =>
    match homeStore s c.by_ t (wholeLine ws) with
    | (.ok, s) => (true, homeAfter s t)
    | (r, s) => (false, wbLost s q line r)

/-- The directory drops a die from a line. -/
def dirDrop (s : State) (q line : Nat) : State :=
  match s.dirOf line with
  | some e =>
    let v := e.vec &&& ~~~ (1#8 <<< q)
    s.setDir line (if v = 0 then none else some ⟨if e.owner = some q then none else e.owner, v, e.stamp⟩)
  | none => s

/-- A die's copy leaves its caches; a dirty one is written home first (SNP_INVAL, SNP_RECALL, R319). -/
def dropCopy (s : State) (q line : Nat) : State :=
  match s.copyOf q line with
  | some c => (if c.st = 3 then (writeHome s q line c).2 else s).setCopy q line none
  | none => s

/-- A dirty copy is written home and stays in a cleaner state; where its target refuses it, the line is invalid everywhere (R322). -/
def cleanCopy (s : State) (q line st : Nat) : State :=
  match s.copyOf q line with
  | some c =>
    if c.st = 3 then
      match writeHome s q line c with
      | (true, s) => s.setCopy q line (some { c with st := st })
      | (false, s) => dirDrop (s.setCopy q line none) q line
    else s.setCopy q line (some { c with st := min c.st st })
  | none => s

/-- A die's copy becomes shared; dirty data is written home first (SNP_SHARED, R319). -/
def shareCopy (s : State) (q line : Nat) : State := cleanCopy s q line 1

/-- Take every copy of a line back, written home where dirty (R285, R292, R309 CLEAN_INVAL). -/
def recallLine (s : State) (line : Nat) : State :=
  (snoopAll s line none (fun s q => dropCopy (rlcCnt s q 4) q line)).setDir line none

/-- The home slice of a line (R317): banks 0 to 7, then the two engines, of its die. -/
def sliceOf (s : State) (m : Master) (r line : Nat) : Nat :=
  match lineTarget s m r line with
  | .bank d b _ => d * 16 + b
  | .dram ch _ _ => chDie ch * 16 + 8 + chCtl ch
  | .ctrl _ _ => 0
  | .se _ _ _ => 0
  | .fabric _ _ _ => 0
  | .comp _ off => 7 * 16 + off / 0x400000 % 8
  | .none => 0

/-- The least recently shared of some lines (R320). -/
def oldestLine (l : List (Nat × Option DirEnt)) : Option Nat :=
  (l.foldl (fun (b : Option (Nat × Nat)) x =>
    match x.2, b with
    | some e, some (_, t) => if e.stamp < t then some (x.1, e.stamp) else b
    | some e, none => some (x.1, e.stamp)
    | none, _ => b) none).map (fun x => x.1)

/-- Make room for a line in its home slice's set: a full set takes back the line least recently shared (R317, R320). -/
def makeRoom (s : State) (m : Master) (r line : Nat) : State :=
  if (s.dirOf line).isSome then s
  else
    let sl := sliceOf s m r line
    let set (x : Nat) : Nat := Config.dirSet sl x % (if sl % 16 < 8 then 2048 else 8192)
    let l := s.coh.dir.filter (fun e => sliceOf s m r e.1 == sl && set e.1 == set line)
    if l.length < 16 then s
    else match oldestLine l with
      | some v => recallLine (rlcCnt s (sl / 16) 5) v
      | none => s

/-- Grant a line to a die (R319, R320). -/
def grant (s : State) (q line : Nat) (owner : Bool) : State :=
  let vec : BitVec 8 := match s.dirOf line with
    | some e => e.vec
    | none => 0
  let s := { s with coh := { s.coh with stamp := s.coh.stamp + 1 } }
  s.setDir line (some ⟨if owner then some q else none, vec ||| (1#8 <<< q), s.coh.stamp⟩)

/-- The caches of a die may hold lines: RLC is not in reset (R325). -/
def caching (s : State) (q : Nat) : Bool := !s.held q Blk.rlc

/-- Evict a die's copy: WRITEBACK when modified, EVICT otherwise (R319, R320). -/
def evictCopy (s : State) (q line : Nat) : State :=
  match s.copyOf q line with
  | some c =>
    let s := if c.st = 3 then rlcCnt s q 2 else s
    let s := dropCopy s q line
    match s.dirOf line with
    | some e =>
      let v := e.vec &&& ~~~ (1#8 <<< q)
      s.setDir line (if v = 0 then none else some ⟨if e.owner = some q then none else e.owner, v, e.stamp⟩)
    | none => s
  | none => s

/-! ## The caches of a die (R192, R318, R420) -/

/-- The cache in front of the remote line cache that a master of die `q` has: that of a coherent port, or the cores' (bit 16). Signal
engines and the dispatcher have none. -/
def nearCache (s : State) (q : Nat) (m : Master) : Option Nat :=
  match m.cls with
  | .coreM => some 16
  | .coreSU => some 16
  | .fab => (List.range 16).find? (fun p => s.nocpRid q p == m.rid)
  | _ => none

/-- A copy of die `q` is of a line whose home is another die. -/
def awayLine (s : State) (q line : Nat) (c : CLine) : Bool := decide ((lineTarget s c.by_ q line).die ≠ some q)

/-- The set of a line in a cache of die `q`: port caches have 64 sets of 8 ways (R192), the cores' cache 2,048 of 16 (R420), and so has
each slice of the remote line cache, cache 17, that address bits [7:6] select (R318). -/
def cacheSetOf (q c line : Nat) : Nat :=
  if c < 16 then Config.cacheSet (q * 18 + c) line % 64
  else if c = 16 then Config.cacheSet (q * 18 + 16) line % 2048
  else line % 4 * 2048 + Config.cacheSet (q * 18 + 17) line % 2048

/-- The ways of a set. -/
def cacheWays (c : Nat) : Nat := if c < 16 then 8 else 16

/-- The lines that a cache of die `q` holds in a line's set, but for that line. -/
def setLines (s : State) (q c line : Nat) : List Nat :=
  (s.coh.cache.filter (fun e => e.1 / 2 ^ 48 == q && e.1 % 2 ^ 48 != line && cacheSetOf q c (e.1 % 2 ^ 48) == cacheSetOf q c line
    && match e.2 with
      | some x => if c ≤ 16 then x.near.getLsbD c else awayLine s q (e.1 % 2 ^ 48) x
      | none => false)).map (fun e => e.1 % 2 ^ 48)

/-- A line leaves one cache of its die: a remote line stays in the remote line cache, with its dirty data; a line of the die itself that
no other cache there holds goes home (R318, R319). -/
def leaveNear (s : State) (q c line : Nat) : State :=
  match s.copyOf q line with
  | some x =>
    let x' := { x with near := x.near &&& ~~~ (1#17 <<< c) }
    let s := s.setCopy q line (some x')
    if x'.near = 0 ∧ awayLine s q line x = false then evictCopy s q line else s
  | none => s

/-- A cache makes room for a line: which line leaves a full set is open (notes/assumptions/56.md). -/
def makeWay (s : State) (q c line : Nat) : State :=
  let l := setLines s q c line
  if l.length < cacheWays c then s
  else
    let (v, s) := s.free 4
    let x := l.getD (v.toNat % l.length) line
    if c ≤ 16 then leaveNear s q c x else evictCopy s q x

/-- A line comes into the cache of a master of die `q`: into no other where it is written (R318). -/
def nearTake (s : State) (q : Nat) (m : Master) (line : Nat) (write : Bool) : State :=
  match nearCache s q m, s.copyOf q line with
  | some c, some x =>
    let near := (if write then 0#17 else x.near) ||| (1#17 <<< c)
    makeWay (s.setCopy q line (some { x with near := near })) q c line
  | none, some x => if write then s.setCopy q line (some { x with near := 0 }) else s
  | _, none => s

/-- Fill a line into the caches of die `q` for a master (R319): READ_SHARED, or READ_UNIQUE with ownership. The rights are
checked at the home before any snoop. -/
def fill (s : State) (q : Nat) (m : Master) (line : Nat) (unique : Bool) : Resp × State :=
  let t := lineTarget s m q line
  match t.die with
  | none => (.decodeError, s)
  | some h =>
    if !t.cacheable then (.targetError, s)
    else match routeTo s q h with
      | (some r, s) => (r, s)
      | (none, s) =>
        match homeJudge s m t with
        | (some r, s) => (r, s)
        | (none, s) =>
          let s := if q = h then s else rlcCnt s q 1
          let s := makeRoom s m h line
          let s := if unique then
              snoopAll s line (some q) (fun s p => dropCopy s p line)
            else match s.dirOf line with
              | some e => match e.owner with
                | some p => shareCopy (rlcCnt s p 3) p line
                | none => s
              | none => s
          let s := if unique then s.setDir line ((s.dirOf line).map (fun e => { e with vec := e.vec &&& (1#8 <<< q) })) else s
          let alone := match s.dirOf line with
            | some e => (e.holders.filter (fun p => p != q)).isEmpty
            | none => true
          let (ws, s) := homeFetch s m t 0 8
          let s := if q = h then s else makeWay s q 17 line
          let s := cachePut s q line (q != h) (if unique || alone then 2 else 1) m 0 ws [] []
          (.ok, homeAfter (nearTake (grant s q line (unique || alone)) q m line unique) t)

/-- Move a shared copy to exclusive (UPGRADE, R319). -/
def upgrade (s : State) (q : Nat) (m : Master) (line : Nat) : Resp × State :=
  let t := lineTarget s m q line
  match t.die with
  | none => (.decodeError, s)
  | some h =>
    match routeTo s q h with
    | (some r, s) => (r, s)
    | (none, s) =>
      match homeJudge s m t with
      | (some r, s) => (r, s)
      | (none, s) =>
        let s := snoopAll s line (some q) (fun s p => dropCopy s p line)
        let s := s.setDir line ((s.dirOf line).map (fun e => { e with vec := e.vec &&& (1#8 <<< q) }))
        match s.copyOf q line with
        | some c => (.ok, homeAfter (grant (s.setCopy q line (some { c with st := 2 })) q line true) t)
        | none => (.ok, homeAfter s t)

/-! ## Reads and writes -/

/-- A coherent master (R321). Those of the companion are, where both sides agreed on it (R339). -/
def State.coherent (s : State) (m : Master) : Bool :=
  !(s.dev.part == .px8c && s.dieOfRid m.rid == 7 && !s.bit 6 (R.BDL_CAPS.CAPS 0) 1) &&
  match m.cls with
  | .coreM => true | .coreSU => true | .seDma => true | .dfd => true
  | .fab => m.rid / 8 / 32 % 8 == 2
  | .pen => false | .parser => false | .debug => false | .mgmt => false

/-- A hit in a cache of a die passes the bank's tests of owner, handover and wipe (R283). -/
def hitJudge (s : State) (q : Nat) (m : Master) (line : Nat) : Option Resp × State :=
  match lineTarget s m q line with
  | .bank d b off => bankGuard s m d b (off / 8)
  | _ => (none, s)

/-- A copy that a master of die `q` finds serves it (R318): one that its own cache does not hold is counted as a hit of the remote line
cache. -/
def hitTake (s : State) (q : Nat) (m : Master) (line : Nat) (c : CLine) (write : Bool) : State :=
  let own : Bool := match nearCache s q m with
    | some k => c.near.getLsbD k
    | none => false
  nearTake (if !own && awayLine s q line c then rlcCnt s q 0 else s) q m line write

/-- Read words of a line through the caches of the master's die (R318, R319). -/
def cohRead (s : State) (q : Nat) (m : Master) (line w n : Nat) : Resp × List MWord × State :=
  let take (s : State) : Resp × List MWord × State :=
    match s.copyOf q line with
    | some c => (.ok, (List.range n).map (fun i => cacheSees c (w + i)),
        (List.range n).foldl (fun s i => cacheNote s q c (w + i)) s)
    | none => (.ok, [], s)
  match s.copyOf q line with
  | some c => match hitJudge s q m line with
    | (some r, s) => (r, [], s)
    | (none, s) => take (hitTake s q m line c false)
  | none => match fill s q m line false with
    | (.ok, s) => take s
    | (r, s) => (r, [], s)

/-- Write words into the copy that die `q` holds, which is then modified; the master that makes a line dirty stays with it (R283). -/
def copyWrite (s : State) (q : Nat) (m : Master) (line : Nat) (new : List (MWord × Byte)) : State :=
  match s.copyOf q line with
  | some c =>
    let old := (List.range 8).map (cacheSees c)
    cachePut s q line (awayLine s q line c) 3 (if c.st = 3 then c.by_ else m) c.near (mergeLine old new)
      (new.map (fun x => x.2 != 0#8)) c.flip
  | none => s

/-- Write words of a line through the caches of the master's die, which then holds it modified (R319). -/
def cohWrite (s : State) (q : Nat) (m : Master) (line : Nat) (new : List (MWord × Byte)) : Resp × State :=
  match s.copyOf q line with
  | some c => match hitJudge s q m line with
    | (some r, s) => (r, s)
    | (none, s) =>
      match (if c.st = 1 then upgrade s q m line else (.ok, s)) with
      | (.ok, s) => (.ok, copyWrite (hitTake s q m line c true) q m line new)
      | (r, s) => (r, s)
  | none => match fill s q m line true with
    | (.ok, s) => (.ok, copyWrite s q m line new)
    | (r, s) => (r, s)

/-- Read words of a line for a non-coherent master: the home snoops the owner first (R21). -/
def ncRead (s : State) (r : Nat) (m : Master) (line w n : Nat) : Resp × List MWord × State :=
  let t := lineTarget s m r line
  match t.die with
  | none => (.decodeError, [], s)
  | some h =>
    match routeTo s r h with
    | (some e, s) => (e, [], s)
    | (none, s) =>
      match homeJudge s m t with
      | (some e, s) => (e, [], s)
      | (none, s) =>
        let s := match s.dirOf line with
          | some e => match e.owner with
            | some p =>
              let s := shareCopy (rlcCnt s p 3) p line
              s.setDir line ((s.dirOf line).map (fun e => { e with owner := none }))
            | none => s
          | none => s
        let (ws, s) := homeFetch s m t w n
        (.ok, ws, homeAfter s t)

/-- Write words of a line for a non-coherent master: every cached copy goes first (R21). -/
def ncWrite (s : State) (r : Nat) (m : Master) (line : Nat) (new : List (MWord × Byte)) : Resp × State :=
  let t := lineTarget s m r line
  match t.die with
  | none => (.decodeError, s)
  | some h =>
    match routeTo s r h with
    | (some e, s) => (e, s)
    | (none, s) =>
      match homeJudge s m t with
      | (some e, s) => (e, s)
      | (none, s) =>
        let s := (snoopAll s line none (fun s q => dropCopy s q line)).setDir line none
        let (e, s) := homeStore s m t new
        (e, homeAfter s t)

/-- The master's accesses to a line are cached on its die: it is coherent, and the line is another die's or the master has a cache of its
own (R318). -/
def cachedHere (s : State) (m : Master) (line : Nat) : Bool :=
  let q := s.dieOfRid m.rid
  s.coherent m && caching s q && (decide ((lineTarget s m q line).die ≠ some q) || (nearCache s q m).isSome)

/-- Read `n` words, within one line, from the word that holds `addr`. -/
def lineRead (s : State) (m : Master) (addr n : Nat) : Resp × List MWord × State :=
  let q := s.dieOfRid m.rid
  if cachedHere s m (addr / 64) then cohRead s q m (addr / 64) (addr / 8 % 8) n else ncRead s q m (addr / 64) (addr / 8 % 8) n

/-- Write words, within one line, from the word that holds `addr`. -/
def lineWrite (s : State) (m : Master) (addr : Nat) (ws : List (MWord × Byte)) : Resp × State :=
  let q := s.dieOfRid m.rid
  let pad := List.replicate (addr / 8 % 8) ((⟨0, false⟩ : MWord), (0#8 : Byte))
  let new := pad ++ ws
  let new := new ++ List.replicate (8 - new.length) ((⟨0, false⟩ : MWord), (0#8 : Byte))
  if cachedHere s m (addr / 64) then cohWrite s q m (addr / 64) new else ncWrite s q m (addr / 64) new

/-- Read `n` words of cacheable memory line by line, ending at the first response that is not OK. -/
def memRead : Nat → State → Master → Nat → Nat → Resp × List MWord × State
  | 0, s, _, _, _ => (.ok, [], s)
  | fuel + 1, s, m, addr, n =>
    if n = 0 then (.ok, [], s)
    else
      let k := min n (8 - addr / 8 % 8)
      match lineRead s m addr k with
      | (.ok, ws, s) =>
        match memRead fuel s m (addr + 8 * k) (n - k) with
        | (.ok, l, s) => (.ok, ws ++ l, s)
        | (r, _, s) => (r, [], s)
      | (r, _, s) => (r, [], s)

/-- Write words of cacheable memory line by line, ending at the first response that is not OK. -/
def memWrite : Nat → State → Master → Nat → List (MWord × Byte) → Resp × State
  | 0, s, _, _, _ => (.ok, s)
  | fuel + 1, s, m, addr, ws =>
    if ws.isEmpty then (.ok, s)
    else
      let k := min ws.length (8 - addr / 8 % 8)
      match lineWrite s m addr (ws.take k) with
      | (.ok, s) => memWrite fuel s m (addr + 8 * k) (ws.drop k)
      | (r, s) => (r, s)

end Sys2Proof.Machine
end

