-- ==== Sys2Proof/Machine/Hart.lean ====
section
/-!
DEFINITION. The application cores as harts (R419, R421, R422): their identity, what they hold as they leave reset, the physical attributes
of the address map, and the traps that stop their loads and stores.
-/

namespace Sys2Proof.Machine

/-! ## What a hart is (R419) -/

/-- misa: RV64 with A, C, D, F, I, M, S and U. -/
def misa : DWord := 0x800000000014112D

/-- The hart number of a die's core. -/
def hartOf (d c : Nat) : Nat := d * 4 + c

/-- mhartid. -/
def mhartid (d c : Nat) : DWord := BitVec.ofNat 64 (hartOf d c)

/-- The number of PMP entries (R421). -/
def pmpEntries : Nat := 16

/-- The states of APC_STATUS. -/
def Core.reset : Nat := 0
def Core.run : Nat := 1
def Core.wfi : Nat := 2
def Core.halted : Nat := 3

def coreField (c : Nat) : Fld := ⟨R.APC_STATUS.STATE.off, 3 * c, 3⟩
def State.coreState (s : State) (d c : Nat) : Nat := s.g d (coreField c)
def State.setCore (s : State) (d c v : Nat) : State := s.p d (coreField c) v

/-- Cut a bit string into words, the first from its low end. -/
def cutWords (n : Nat) {w : Nat} (v : BitVec w) : List DWord := (List.range n).map (fun k => v.extractLsb' (64 * k) 64)

/-- A core as it leaves reset (R422): machine mode at APC_BOOTc, a0 holding mhartid and a1 zero, interrupts disabled; every other register
is undefined, and a free value stands for it. -/
def hartStart (s : State) (d c : Nat) : State :=
  let (x, s) := s.free 2048
  let (f, s) := s.free 2048
  let (r, s) := s.free 640
  let (a, s) := s.free 1024
  let (p, s) := s.free 128
  s.setHart (hartOf d c)
    { priv := .machine, pc := BitVec.ofNat 64 (s.g d (R.APC_BOOT.ADDR c)), ie := false, first := true
      x := ((((cutWords 32 x).set 0 0).set 10 (mhartid d c)).set 11 0)
      f := cutWords 32 f
      csr := cutWords 10 r
      pmpAddr := cutWords pmpEntries a
      pmpCfg := (List.range pmpEntries).map (fun k => p.extractLsb' (8 * k) 8) }

/-- A core leaves reset at APC_BOOTc (R422), if its APC_RELEASE bit is set and nothing holds it. -/
def startCore (s : State) (d c : Nat) : State :=
  if s.bit d R.APC_RELEASE.CORES c && !s.held d Blk.apc && s.coreState d c == Core.reset then
    hartStart (s.setCore d c Core.run) d c
  else s

/-- Every released core of a die starts. -/
def startCores (s : State) (d : Nat) : State := (List.range 4).foldl (fun s c => startCore s d c) s

/-- Every core of a die is in reset. -/
def stopCores (s : State) (d : Nat) : State := (List.range 4).foldl (fun s c => s.setCore d c Core.reset) s

/-! ## Traps (R297, R421) -/

/-- The exceptions that an access of a core can take; their codes are those of RISC-V (notes/assumptions/22.md). -/
inductive Trap where
  | fetchFault | loadMisaligned | loadFault | storeMisaligned | storeFault
  deriving DecidableEq, Repr

def Trap.code : Trap → Nat
  | .fetchFault => 1 | .loadMisaligned => 4 | .loadFault => 5 | .storeMisaligned => 6 | .storeFault => 7

/-- The places in `HartSt.csr` of the registers that a trap reads or writes. -/
def Csr.mtval : Nat := 0
def Csr.mcause : Nat := 1
def Csr.mepc : Nat := 2
def Csr.mtvec : Nat := 3
def Csr.stval : Nat := 4
def Csr.scause : Nat := 5
def Csr.sepc : Nat := 6
def Csr.stvec : Nat := 7
def Csr.medeleg : Nat := 8
def Csr.satp : Nat := 9

/-- The hart that a master is: an application core of the device. -/
def hartOfMaster (s : State) (m : Master) : Option (Nat × Nat) :=
  if m.cls = .coreM ∨ m.cls = .coreSU then
    let d := s.dieOfRid m.rid
    ((List.range 4).find? (fun c => s.coreRid d c == m.rid)).map (fun c => (d, c))
  else none

/-- A hart takes a trap. From machine mode it goes to machine mode; from another mode its delegation decides, which its program has set, so
the choice is free, and so are the address of the instruction and of the handler. The trap value is the faulting virtual address, which is
the physical one in machine mode and free in a mode that translates. -/
def takeTrap (s : State) (m : Master) (d c : Nat) (t : Trap) (addr : Nat) : State :=
  let (v, s) := s.free 193
  let h := s.hart (hartOf d c)
  let s := s.setCore d c Core.run
  let val := if m.cls = .coreM then BitVec.ofNat 64 addr else v.extractLsb' 0 64
  let pc := v.extractLsb' 64 64
  let epc := v.extractLsb' 128 64
  if m.cls = .coreM ∨ v.getLsbD 192 then
    s.setHart (hartOf d c) { h with
      priv := .machine, pc := pc, ie := false, first := false
      csr := ((h.csr.set Csr.mtval val).set Csr.mcause (BitVec.ofNat 64 t.code)).set Csr.mepc epc }
  else
    s.setHart (hartOf d c) { h with
      priv := .supervisor, pc := pc, ie := false, first := false
      csr := ((h.csr.set Csr.stval val).set Csr.scause (BitVec.ofNat 64 t.code)).set Csr.sepc epc }

/-- A master that is a core out of reset takes a trap; another master has none to take. The reply stays. -/
def State.coreTrap (s : State) (m : Master) (t : Trap) (addr : Nat) : State :=
  match hartOfMaster s m with
  | some (d, c) => if s.coreState d c = Core.run ∨ s.coreState d c = Core.wfi then takeTrap s m d c t addr else s
  | none => s

/-- What a core does with the answer to its load or store (R297, R421): a response other than OK, or a poisoned word that it loads, is a
precise access fault. -/
def State.coreSees (s : State) (m : Master) (store : Bool) (addr : Nat) : State :=
  if s.reply.resp ≠ .ok then s.coreTrap m (if store then .storeFault else .loadFault) addr
  else if s.reply.data.any (fun w => w.p) then s.coreTrap m .loadFault addr
  else s

/-! ## The physical attributes (R421) -/

/-- Cached ranges: the DRAM window and bank memory. -/
def cachedRange (x : Nat) : Bool :=
  decide (0x020000000000 ≤ x % 2 ^ 48 ∧ x % 2 ^ 48 < 0x040000000000) || decide (0x10000000 ≤ x % 2 ^ 48 ∧ x % 2 ^ 48 < 0x20000000)

/-- The flash aperture of the head die (R114). -/
def flashRange (s : State) (x : Nat) : Bool :=
  decide (s.head * 0x1000000 + 0x0C0000 ≤ x % 2 ^ 48 ∧ x % 2 ^ 48 < s.head * 0x1000000 + 0x100000)

/-- Control space. -/
def ctrlRange (x : Nat) : Bool := decide (x % 2 ^ 48 < 0x08000000)

/-- A core may execute from the range of an address. -/
def execRange (s : State) (x : Nat) : Bool := decide (x < 2 ^ 54) && (cachedRange x || flashRange s x)

/-- An operation that stores: a write or an atomic. -/
def opStores (o : NocOp) : Bool := decide (1 ≤ o.code ∧ o.code ≤ 4)

/-- The trap that stops a core's load, store or atomic before it is issued: bits [55:54] set, an atomic outside the cached ranges, or an
access that is not aligned to its own size. -/
def coreStops (s : State) (q : Req) : Option Trap :=
  let x := q.addr.toNat
  let fault := if opStores q.op then Trap.storeFault else Trap.loadFault
  if q.m.cls ≠ .coreM ∧ q.m.cls ≠ .coreSU then none
  else if 2 ^ 54 ≤ x then some fault
  else if 2 ≤ q.op.code ∧ q.op.code ≤ 4 ∧ cachedRange x = false then some fault
  else if q.op.code ≤ 4 ∧ q.size ≤ 8 ∧ x % max 1 q.size ≠ 0 then
    if ctrlRange x && !flashRange s x then some fault
    else some (if opStores q.op then .storeMisaligned else .loadMisaligned)
  else none

/-- A request of a master, unless its core takes a trap instead of issuing it. -/
def State.ifIssued (s : State) (q : Req) (f : State → State) : State :=
  match coreStops s q with
  | some t => s.coreTrap q.m t q.addr.toNat
  | none => f s

end Sys2Proof.Machine
end

