-- ==== Sys2Proof/Machine/PenBuf.lean ====
section
/-!
DEFINITION. The packet buffer and the queues of a port engine (R409, R410), the edges a frame takes over the trunk (R412), what a
dead edge costs (R404, R413), and the port codes of R390.
-/

namespace Sys2Proof.Machine

/-! ## Port codes (R390) -/

def portCode (d kind i : Nat) : Nat := d * 128 + kind * 32 + i
def codeDie (c : Nat) : Nat := fld c 7 3
def codeKind (c : Nat) : Nat := fld c 5 2
def codeIndex (c : Nat) : Nat := fld c 0 5

/-- The destinations of a die: lane ports 0 to 31, fabric ports from 32, rings from 40, and the trunk toward +X, -X and Y. -/
def Dst.fabric : Nat := 32
def Dst.ring : Nat := 40
def Dst.plusX : Nat := 56
def Dst.minusX : Nat := 57
def Dst.y : Nat := 58
def isTrunk (e : Nat) : Bool := decide (Dst.plusX ≤ e ∧ e ≤ Dst.y)

/-- The counters of a destination and of a port engine. -/
def State.penCnt (s : State) (d k : Nat) : State := s.inc d (R.PEN_CNT.COUNT k) 1
def State.portCnt (s : State) (d i k n : Nat) : State := s.inc d (R.PEN_PORT_CNT.COUNT i k) n

/-! ## Lane ports (R389) -/

/-- The number of lanes of an enabled port. -/
def portWidth (s : State) (d p : Nat) : Nat := 2 ^ s.g d (R.PEN_PORT_CFG.WIDTH p)

/-- The port with this first lane is enabled. -/
def portOn (s : State) (d p : Nat) : Bool := decide (p < 32) && s.on d (R.PEN_PORT_CFG.ENABLE p)

/-- The first lane of the enabled port that a lane belongs to; a lane of no enabled port stands alone (notes/assumptions/34.md). -/
def firstLane (s : State) (d n : Nat) : Nat :=
  ((List.range (n + 1)).find? (fun p => portOn s d p && decide (n < p + portWidth s d p))).getD n

/-- The lanes of the port with this first lane. -/
def portLanes (s : State) (d p : Nat) : List Nat :=
  (List.range (if portOn s d p then portWidth s d p else 1)).map (p + ·)

/-! ## Cells -/

/-- The cells that a frame takes (R409). -/
def Frame.cells (f : Frame) : Nat := max 1 ((f.bytes.length + 255) / 256)

def cellsOf (l : List Frame) : Nat := (l.map Frame.cells).foldl (· + ·) 0

/-- Every frame that a die's buffer holds. -/
def penFrames (s : State) (d : Nat) : List Frame :=
  (s.pen.queue.filter (fun e => e.1 / 8 / 64 == d)).flatMap (fun e => e.2)

/-- The port engine owns the bank and the bank is on (R410). -/
def bankServes (s : State) (d b : Nat) : Bool :=
  s.bankOwner d b == 0x1000 + d && s.pstate d b == Pst.on && !s.on d (R.BNK_STATUS.HANDOVER_PENDING b)

/-- Cells may be placed in the bank (R410). -/
def bankOpen (s : State) (d b : Nat) : Bool := s.bit d R.PEN_BUF_CFG.BANKS b && bankServes s d b

/-- The cells in use in one place: a bank, or the buffer itself. -/
def cellsIn (s : State) (d : Nat) (b : Option Nat) : Nat := cellsOf ((penFrames s d).filter (fun f => f.bank == b))

/-- The free cells of one place. -/
def freeIn (s : State) (d : Nat) (b : Option Nat) : Nat :=
  match b with
  | none => 65536 - cellsIn s d none
  | some b => if bankOpen s d b then 16384 - cellsIn s d (some b) else 0

/-- The free shared cells (R409). -/
def freeCells (s : State) (d : Nat) : Nat :=
  freeIn s d none + ((List.range 8).map (fun b => freeIn s d (some b))).foldl (· + ·) 0

/-- Show the buffer: the free cells and the banks that hold cells. -/
def showBuf (s : State) (d : Nat) : State :=
  let fs := penFrames s d
  (s.p d R.PEN_BUF_FREE.FREE (freeCells s d)).p d R.PEN_BUF_STATUS.BANKS_USED
    ((List.range 8).foldl (fun v b => if fs.any (fun f => f.bank == some b) then v + 2 ^ b else v) 0)

/-- Replace a queue. -/
def State.setQueue (s : State) (d e q : Nat) (l : List Frame) : State :=
  showBuf (s.setPen { s.pen with queue := SMap.set (fun _ => []) s.pen.queue (qKey d e q) l }) d

/-- A queue may take a frame (R409): it stays within MINQ, or within the share ALPHA_LOG2 of the free cells, or, for a transit
frame on a trunk queue, within TRANSIT_MIN. -/
def admits (s : State) (d e q : Nat) (f : Frame) (transit : Bool) : Bool :=
  let l := s.queue d e q
  let n := cellsOf l + f.cells
  let a := sext 4 (s.g d R.PEN_BUF_CFG.ALPHA_LOG2)
  let free := freeCells s d
  decide (n ≤ s.g d R.PEN_BUF_CFG.MINQ)
    || (if 0 ≤ a then decide (n ≤ free * 2 ^ a.toNat) else decide (n * 2 ^ (-a).toNat ≤ free))
    || (transit && isTrunk e
      && decide (cellsOf (l.filter (fun g => codeDie g.src != d)) + f.cells ≤ s.g d R.PEN_TRUNK_CFG.TRANSIT_MIN))

/-- The place that a frame's cells take: the buffer itself, else the first bank with room (notes/assumptions/35.md). -/
def placeFor (s : State) (d : Nat) (f : Frame) : Option (Option Nat) :=
  (none :: (List.range 8).map some).find? (fun b => decide (f.cells ≤ freeIn s d b))

/-- Put a frame into a queue, if R409 admits it and it finds room. -/
def enqueue (s : State) (d e q : Nat) (f : Frame) (transit : Bool) : Option State :=
  if admits s d e q f transit then
    match placeFor s d f with
    | some b => some (s.setQueue d e q (s.queue d e q ++ [{ f with bank := b }]))
    | none => none
  else none

/-! ## Banks that go away (R410) -/

/-- Drop the frames of a die that satisfy `p` from every queue, counting each in device counter `k`. -/
def dropFrames (s : State) (d k : Nat) (p : Nat → Frame → Bool) : State :=
  let keys := (s.pen.queue.filter (fun e => e.1 / 8 / 64 == d)).map (fun e => e.1)
  keys.foldl (fun s key =>
    let e := key / 8 % 64
    let l := s.queue d e (key % 8)
    let gone := l.filter (p e)
    (s.inc d (R.PEN_CNT.COUNT k) gone.length).setQueue d e (key % 8) (l.filter (fun f => !(p e f)))) s

/-- A bank that the port engine no longer may use loses its frames at once (R410). -/
def penBankCheck (s : State) (d b : Nat) : State :=
  if bankServes s d b then showBuf s d
  else (dropFrames s d 11 (fun _ f => f.bank == some b)).clrBit d R.PEN_BUF_STATUS.DRAINING b

/-! ## The way over the trunk (R412) -/

/-- An edge is Fatal or DOWN. -/
def edgeDead (s : State) (d e : Nat) : Bool := s.edgeState d e == Edge.fatal || s.edgeState d e == Edge.down

/-- The trunk destination that leads from one die toward another. -/
def trunkToward (s : State) (d t : Nat) : Nat :=
  if s.col d < s.col t then Dst.plusX else if s.col t < s.col d then Dst.minusX else Dst.y

/-- The edge that a trunk destination of a die sends over; the Y edge leads to the part's other row. -/
def trunkEdge (s : State) (d e : Nat) : Nat :=
  if e = Dst.plusX then 0 else if e = Dst.minusX then 1 else if s.row d = 0 then 2 else 3

/-- A frame's way from one die to another crosses a Fatal or DOWN edge (R413). -/
def wayDead (s : State) (d t : Nat) : Bool := (s.path d t).any (fun h => edgeDead s h.1 h.2)

/-- The learn events that wait on a die are lost (R404). -/
def loseLearn (s : State) (d : Nat) : State :=
  let x := s.penDie d
  (s.inc d (R.PEN_CNT.COUNT 1) x.learn.length).setPenDie d { x with learn := [] }

/-- Each die shows whether a Fatal or DOWN edge cuts it off from the head die (R404); on one that acts on its own, events wait
for its own replica. -/
def penReach (s : State) : State :=
  s.onDies (fun s d =>
    if d = s.head then s
    else if wayDead s d s.head || wayDead s s.head d then
      let s := (s.p d R.PEN_STATUS.ARB_UNREACH 1).p d R.PEN_STATUS.REPLICA_STALE 1
      let s := s.setPenDie d { s.penDie d with upd := [] }
      if s.on d R.PEN_LEARN_CFG.ISLAND then s else loseLearn s d
    else s.p d R.PEN_STATUS.ARB_UNREACH 0)

/-- Frames queued for a dead edge, or on their way over it, are dropped (R413). -/
def cutTrunk (s : State) : State :=
  penReach (s.onDies (fun s d =>
    let s := dropFrames s d 7 (fun e _ => isTrunk e && edgeDead s d (trunkEdge s d e))
    (List.range 4).foldl (fun s e =>
      if edgeDead s d e ∧ s.air d e ≠ [] then
        let from_ := (s.neighbour d e).getD d
        let s := (s.inc from_ (R.PEN_CNT.COUNT 7) (s.air d e).length).setAir d e []
        if 2 ≤ e then s.setYout from_ [] else s
      else s) s))

end Sys2Proof.Machine
end

