-- ==== Sys2Proof/Machine/BankEvents.lean ====
section
/-!
DEFINITION. Commands on bank memory (11_bank_memory): accesses, atomics, ownership, power, wipes, and the register writes of the
bank block.
-/

namespace Sys2Proof.Machine

/-! ## The form of a request -/

/-- A request keeps the rules of R194: one beat lies within 64 bytes; a burst starts on a 64-byte boundary and stays within
4 KiB. -/
def reqFormOk (q : Req) : Bool :=
  let a := q.addr.toNat
  decide (1 ≤ q.size) && (decide (a % 64 + q.size ≤ 64) || (a % 64 == 0 && decide (a % 4096 + q.size ≤ 4096)))

/-- The words a request touches. -/
def reqWords (q : Req) : Nat := (q.addr.toNat % 8 + q.size + 7) / 8

/-- The byte enables of the request's word `i` (R194, R308). -/
def reqBe (q : Req) (i : Nat) : Byte :=
  if q.be.isEmpty then
    let a := q.addr.toNat % 8
    (List.range 8).foldl (fun (x : Byte) j =>
      if a ≤ 8 * i + j ∧ 8 * i + j < a + q.size then x ||| (1#8 <<< j) else x) 0
  else q.be.getD i 0

/-- The words of a write with their byte enables. -/
def reqWwords (q : Req) : List (MWord × Byte) :=
  (List.range (reqWords q)).map (fun i => (q.data.getD i ⟨0, false⟩, reqBe q i))

/-- An atomic is one beat on a naturally aligned operand of 4 or 8 bytes (R292). -/
def atomicOk (q : Req) : Bool := (q.size == 4 || q.size == 8) && q.addr.toNat % q.size == 0

/-! ## Reads and writes of cacheable memory -/

/-- Refuse a request whose form is wrong: at a bank after the tests of R283, elsewhere at once. -/
def badForm (s : State) (q : Req) : State :=
  match decodeAddr s q.m (s.dieOfRid q.m.rid) q.addr.toNat with
  | .bank d b off =>
    match bankJudge s q.m d b (off / 8) false with
    | (some r, s) => s.ans r
    | (none, s) => s.ans .targetError
  | .none => s.ans .decodeError
  | .ctrl _ _ => s.ans .targetError
  | .se _ _ _ => s.ans .targetError
  | .fabric _ _ _ => s.ans .targetError
  | .comp _ _ => s.ans .targetError
  | .dram _ _ _ => s.ans .targetError

/-- A read of cacheable memory (R20, R21). -/
def memReadReq (s : State) (q : Req) : State :=
  if reqFormOk q then
    match memRead 65 s q.m q.addr.toNat (reqWords q) with
    | (.ok, ws, s) => { s with reply := ⟨.ok, ws⟩ }
    | (r, _, s) => s.ans r
  else badForm s q

/-- A write of cacheable memory (R20, R21). -/
def memWriteReq (s : State) (q : Req) : State :=
  if reqFormOk q then
    match memWrite 65 s q.m q.addr.toNat (reqWwords q) with
    | (r, s) => s.ans r
  else badForm s q

/-! ## Atomics -/

/-- The word after an atomic on its `w` bits (R292). -/
def atomicResult (op : NocOp) (w old operand cmp : Nat) : Nat :=
  match op with
  | .atomicAdd => (old + operand) % 2 ^ w
  | .atomicSwap => operand
  | .atomicCas => if old = cmp then operand else old
  | .read => old | .write => old | .readShared => old | .readUnique => old | .upgrade => old | .writeback => old
  | .evict => old | .clean => old | .cleanInval => old | .reserved => old

/-- An atomic at a bank (R292, R293): judged, the line recalled, the word read, and unless it is uncorrectable or poisoned
the result written with fresh check bits. The old value is returned. -/
def bankAtomic (s : State) (q : Req) : State :=
  let r := s.dieOfRid q.m.rid
  match decodeAddr s q.m r q.addr.toNat with
  | .bank d b off =>
    match routeTo s r d with
    | (some e, s) => s.ans e
    | (none, s) =>
      match bankJudge s q.m d b (off / 8) (atomicOk q) with
      | (some e, s) => s.ans e
      | (none, s) =>
        let s := recallLine s (q.addr.toNat / 64)
        let x := bankSees s d b (off / 8)
        let y := synOf (bankSyn s d b (off / 8))
        let s := bankNote s d b (off / 8)
        if x.p then (if y = .poison then bankUe s d b (off / 8) 0xFF else s).ans .targetError
        else
          let w := 8 * q.size
          let sh := 8 * (off % 8)
          let old := (x.v.toNat >>> sh) % 2 ^ w
          let opd := (q.data.getD 0 ⟨0, false⟩).v.toNat % 2 ^ w
          let cmp := (q.data.getD 1 ⟨0, false⟩).v.toNat % 2 ^ w
          let v := splice x.v sh w (atomicResult q.op w old opd cmp)
          let s := s.setBankWord (d * 8 + b) (off / 8) ⟨v, secdedCheck v⟩
          (bankAfter s d b).ansData .ok [BitVec.ofNat 64 old]
  | .comp w _ =>
    match routeTo s r 7 with
    | (some e, s) => s.ans e
    | (none, s) =>
      if w = 1 ∧ atomicOk q then
        let s := recallLine s (q.addr.toNat / 64)
        let (v, s) := s.free 3
        let (x, s) := s.free 64
        if companionResp v = .ok then s.ansData .ok [x] else s.ans (companionResp v)
      else s.ans .targetError
  | .none => s.ans .decodeError
  | .ctrl _ _ => s.ans .targetError
  | .se _ _ _ => s.ans .targetError
  | .fabric _ _ _ => s.ans .targetError
  | .dram _ _ _ => s.ans .targetError

/-! ## Register writes of the bank block -/

/-- An owner code that may be written (R281). -/
def ownerOk (s : State) (o : Nat) : Bool :=
  decide (o < 0x1000) || (decide (0x1000 ≤ o ∧ o < 0x1008) && s.present (o - 0x1000))
    || (decide (0x1008 ≤ o ∧ o < 0x1010) && s.present (o - 0x1008)) || o == Own.secureSupervisor || o == Own.free

/-- The writer is the bank's owner, by requester ID, or a supervisor (R284, R291). -/
def ownsBank (s : State) (m : Master) (d b : Nat) : Bool :=
  (decide (s.bankOwner d b < 0x1000) && s.bankOwner d b == m.rid) || s.supervisor m

/-- The owner of a bank, whatever kind it is, or a supervisor (R298). -/
def ownsBankAny (s : State) (m : Master) (d b : Nat) : Bool :=
  s.supervisor m || (s.bankOwner d b != Own.free && bankAdmits s m d b)

/-- A change of OWNER that its writer may make (R284). -/
def mayChangeOwner (s : State) (m : Master) (d b o : Nat) : Bool :=
  let cur := s.bankOwner d b
  ownerOk s o &&
    (s.supervisor m || (cur == Own.free && o == m.rid) || (decide (cur < 0x1000) && cur == m.rid))

/-- The power state that a POWER write is judged against (R287). -/
def powerBasis (s : State) (d b : Nat) : Nat := pstAfter (s.pstate d b)

/-- A POWER write may be accepted (R285, R287). -/
def powerOk (s : State) (d b req : Nat) : Bool :=
  req != 3 && !s.on d (R.BNK_STATUS.HANDOVER_PENDING b) && !s.on d (R.BNK_STATUS.PEND_POWER b)
    && !(powerBasis s d b == Pst.off && req == 1)

/-- Take a POWER request: start it, or latch it behind a running transition (R287). -/
def powerTake (s : State) (d b req : Nat) : State :=
  if s.pstate d b = pstAfter (s.pstate d b) then bankPowerStart s d b req
  else (s.setBankSt (d * 8 + b) { s.bankSt (d * 8 + b) with latched := some req }).p d (R.BNK_STATUS.PEND_POWER b) 1

/-- An accepted change of OWNER (R284, R285 steps 1 to 4): NEXT_OWNER takes the new value, the cached lines are recalled, and the wipe of
a secure bank begins. -/
def handoverStart (s : State) (d b owner : Nat) : State :=
  let s := (s.p d (R.BNK_STATUS.NEXT_OWNER b) owner).p d (R.BNK_STATUS.HANDOVER_PENDING b) 1
  let s := bankRecall s d b
  if s.bankSecure d b then bankWipe s d b else s

/-- A write of BNK_CTRLb (R284 to R291): every change must be its writer's to make, or nothing changes. -/
def writeBnkCtrl (s : State) (w : Wr) : State :=
  let d := w.d
  let b := w.r.i
  let owner := (R.BNK_CTRL.OWNER 0).of w.new
  let power := (R.BNK_CTRL.POWER 0).of w.new
  let keep := (R.BNK_CTRL.KEEP 0).of w.new
  let wake := (R.BNK_CTRL.WAKE_ON_ACCESS 0).of w.new
  let wipe := (R.BNK_CTRL.WIPE 0).of w.raw == 1
  let secure := b == 7 && (R.BNK_CTRL.SECURE 0).of w.raw == 1 && !s.bankSecure d b
  let newOwner := owner != s.bankOwner d b
  let newPower := power != s.g d (R.BNK_CTRL.POWER b)
  let other := keep != s.g d (R.BNK_CTRL.KEEP b) || wake != s.g d (R.BNK_CTRL.WAKE_ON_ACCESS b) || newPower || wipe
  let pend := s.on d (R.BNK_STATUS.HANDOVER_PENDING b)
  if (newOwner && (pend || !mayChangeOwner s w.m d b owner))
      || (other && !ownsBank s w.m d b)
      || (newPower && !powerOk s d b power)
      || (wipe && (s.pstate d b != Pst.on || pend || s.on d (R.BNK_STATUS.WIPING b)))
      || (secure && !s.supervisor w.m) then s.ans .accessError
  else
    let s := (s.p d (R.BNK_CTRL.KEEP b) keep).p d (R.BNK_CTRL.WAKE_ON_ACCESS b) wake
    let s := if secure then s.p d (R.BNK_CTRL.SECURE b) 1 else s
    let s := if wipe then bankWipe s d b else s
    let s := if newPower then powerTake s d b power else s
    let s := if newOwner then handoverStart s d b owner else s
    (penBankCheck s d b).ans .ok

/-- The bank under test (R298). -/
def testBank (s : State) (d : Nat) : Nat := s.g d R.BNK_ECC_TEST.BANK

/-- A write to a register of the bank block. -/
def writeBnk (s : State) (w : Wr) : State :=
  match w.r.id with
  | .BNK_CTRL => writeBnkCtrl s w
  | .BNK_ECC_TEST => s.storeIf w (ownsBankAny s w.m w.d (R.BNK_ECC_TEST.BANK.of w.new))
  | .BNK_ECC_ADDR => s.storeIf w (ownsBankAny s w.m w.d (testBank s w.d))
  | .BNK_ECC_CHK =>
    let b := testBank s w.d
    if ownsBankAny s w.m w.d b && s.pstate w.d b == Pst.on then
      let k := s.g w.d R.BNK_ECC_ADDR.OFFSET
      let x := s.bankWord (w.d * 8 + b) k
      (s.setBankWord (w.d * 8 + b) k { x with chk := BitVec.ofNat 8 (R.BNK_ECC_CHK.CHECK.of w.raw) }).ans .ok
    else s.ans .accessError
  | _ => s.store w

/-- What a read of BNK_ECC_CHK returns: the stored check byte and the syndrome; the bank must be on (R298). -/
def readEccChk (s : State) (d : Nat) : Option Nat :=
  let b := testBank s d
  if s.pstate d b = Pst.on then
    let k := s.g d R.BNK_ECC_ADDR.OFFSET
    some (bankSyn s d b k * 256 + (s.bankWord (d * 8 + b) k).chk.toNat)
  else none

/-! ## Meanings of the events -/

/-- A read or a write that goes to bank memory, and what its master sees; another address is not this command's. -/
def bankTake (s : State) (q : Req) : State :=
  let sees (s : State) : State := s.coreSees q.m (opStores q.op) q.addr.toNat
  if s.debugShut q.m then s.ans .accessError
  else match decodeAddr s q.m (s.dieOfRid q.m.rid) q.addr.toNat with
  | .bank _ _ _ => sees (if q.op = .write then memWriteReq s q else memReadReq s q)
  | .none => sees (s.ans .decodeError)
  | .ctrl _ _ => s
  | .se _ _ _ => s
  | .fabric _ _ _ => s
  | .comp w _ => if w = 1 then sees (if q.op = .write then memWriteReq s q else memReadReq s q) else s
  | .dram _ _ _ => s

/-- A read or a write of bank memory (R283). -/
def execBankAccess (req : Req) (s : State) : Host.Outcome State Fault Refusal :=
  .next (s.ifIssued req (bankTake · req))

/-- An atomic to bank memory; to any other address TARGET_ERROR (R194, R292). -/
def execBankAtomic (req : Req) (s : State) : Host.Outcome State Fault Refusal :=
  .next (s.ifIssued req (fun s =>
    if s.debugShut req.m then s.ans .accessError
    else (bankAtomic s req).coreSees req.m true req.addr.toNat))

/-- The handover ends (R285 step 5): OWNER takes NEXT_OWNER. -/
def handoverEnd (s : State) (d b : Nat) : State :=
  (((s.p d (R.BNK_CTRL.OWNER b) (s.g d (R.BNK_STATUS.NEXT_OWNER b))).p d (R.BNK_STATUS.HANDOVER_PENDING b) 0).p d
    (R.BNK_STATUS.NEXT_OWNER b) Own.free).p d R.BNK_EVT.HANDOVER 1

/-- A bank power transition completes (R287, R290). -/
def execBankPowerReached (die : Die) (bank : Fin 8) (s : State) : Host.Outcome State Fault Refusal :=
  .next (if s.pstate die bank ≠ pstAfter (s.pstate die bank) then bankTransitionEnd s die bank else s)

/-- A tamper response ends with the last wipe (R136). -/
def restRespond (s : State) : State :=
  if s.dies.any (fun d => (List.range 8).any (fun b => s.on d (R.BNK_STATUS.WIPING b))) then s
  else { s with sec := { s.sec with respond := false } }

/-- A wipe has zeroed every word (R290); a handover that waits for it may then end. -/
def execWipeDone (die : Die) (bank : Fin 8) (s : State) : Host.Outcome State Fault Refusal :=
  .next (if s.on die (R.BNK_STATUS.WIPING bank) ∧ s.pstate die bank = Pst.on then
    restRespond (((s.zeroBank (die * 8 + bank)).p die (R.BNK_STATUS.WIPING bank) 0).p die R.BNK_EVT.WIPE_DONE 1)
  else s)

end Sys2Proof.Machine
end

