-- ==== Sys2Proof/Machine/CohEvents.lean ====
section
/-!
DEFINITION. Commands of the caches and home slices (12_network_and_coherence): fills, upgrades, evictions, cleans, snoops and
flushes, and what a Fatal link does to a directory.
-/

namespace Sys2Proof.Machine

/-- Answer with a response and go on. -/
def answered (x : Resp × State) : State := x.2.ans x.1

/-- A read miss fills the line (R319); a line already held asks nothing of its home. -/
def execReadShared (m : Master) (line : LineId) (s : State) : Host.Outcome State Fault Refusal :=
  let q := s.dieOfRid m.rid
  .next (if (s.copyOf q line).isNone ∧ cachedHere s m line then answered (fill s q m line false) else s)

/-- A write miss fills the line with ownership (R319). -/
def execReadUnique (m : Master) (line : LineId) (s : State) : Host.Outcome State Fault Refusal :=
  let q := s.dieOfRid m.rid
  .next (if (s.copyOf q line).isNone ∧ cachedHere s m line then answered (fill s q m line true) else s)

/-- The state of a die's copy: 0 when it holds none. -/
def copySt (s : State) (q line : Nat) : Nat :=
  match s.copyOf q line with
  | some c => c.st
  | none => 0

/-- A write to a shared copy moves it to exclusive (R319). -/
def execUpgrade (m : Master) (line : LineId) (s : State) : Host.Outcome State Fault Refusal :=
  let q := s.dieOfRid m.rid
  .next (if copySt s q line = 1 then answered (upgrade s q m line) else s)

/-- The eviction of a modified copy writes it home (R319). -/
def execWriteback (die : Die) (line : LineId) (s : State) : Host.Outcome State Fault Refusal :=
  .next (if copySt s die line = 3 then evictCopy s die line else s)

/-- The eviction of a clean copy is announced (R319). -/
def execEvict (die : Die) (line : LineId) (s : State) : Host.Outcome State Fault Refusal :=
  .next (if copySt s die line = 1 ∨ copySt s die line = 2 then evictCopy s die line else s)

/-- A dirty line is written home and kept (R309). -/
def execCleanOp (m : Master) (line : LineId) (s : State) : Host.Outcome State Fault Refusal :=
  .next ((cleanCopy s (s.dieOfRid m.rid) line 2).ans .ok)

/-- A line is written home if dirty and invalidated everywhere (R309). -/
def execCleanInval (m : Master) (line : LineId) (s : State) : Host.Outcome State Fault Refusal :=
  let q := s.dieOfRid m.rid
  .next (match lineTarget s m q line with
    | .none => s.ans .decodeError
    | .bank _ _ _ => (recallLine s line).ans .ok
    | .dram _ _ _ => (recallLine s line).ans .ok
    | .ctrl _ _ => s.ans .targetError
    | .se _ _ _ => s.ans .targetError
    | .fabric _ _ _ => s.ans .targetError
    | .comp w _ => if w = 1 then (recallLine s line).ans .ok else s.ans .targetError)

/-- A SNP_SHARED snoop (R319). -/
def execSnpShared (die : Die) (line : LineId) (s : State) : Host.Outcome State Fault Refusal :=
  .next (match s.dirOf line with
    | some e =>
      let s := shareCopy (rlcCnt s die 3) die line
      if e.owner = some die.val then s.setDir line ((s.dirOf line).map (fun e => { e with owner := none })) else s
    | none => rlcCnt s die 3)

/-- A SNP_INVAL snoop (R319). -/
def execSnpInval (die : Die) (line : LineId) (s : State) : Host.Outcome State Fault Refusal :=
  .next (dirDrop (dropCopy (rlcCnt s die 3) die line) die line)

/-- A SNP_RECALL snoop (R319). -/
def execSnpRecall (die : Die) (line : LineId) (s : State) : Host.Outcome State Fault Refusal :=
  .next (dirDrop (dropCopy (rlcCnt (rlcCnt s die 3) die 4) die line) die line)

/-- The lines a die's caches hold. -/
def cachedLines (s : State) (q : Nat) : List Nat :=
  (s.coh.cache.filter (fun e => e.1 / 2 ^ 48 == q)).map (fun e => e.1 % 2 ^ 48)

/-- A line whose home is another die. -/
def remoteLine (s : State) (q line : Nat) : Bool :=
  match s.copyOf q line with
  | some c => awayLine s q line c
  | none => false

/-- A cache in front of the remote line cache writes back and invalidates its lines (R197, R424). -/
def flushNear (s : State) (q c : Nat) : State :=
  ((cachedLines s q).filter (fun l =>
    match s.copyOf q l with
    | some x => x.near.getLsbD c
    | none => false)).foldl (fun s l => leaveNear s q c l) s

/-- Write back and invalidate a die's copies of remote lines (RLC_CTRL.FLUSH, R64, R325). -/
def flushRemote (s : State) (q : Nat) : State :=
  ((cachedLines s q).filter (remoteLine s q)).foldl (fun s l => evictCopy s q l) s

/-- Write back and invalidate every line in a die's caches (R325 on entry to COLON and FULL_STOP, R424). -/
def flushAll (s : State) (q : Nat) : State := (cachedLines s q).foldl (fun s l => evictCopy s q l) s

/-- The home slices of a die recall every copy of their lines (R325). -/
def recallHomed (s : State) (d : Nat) : State :=
  ((s.coh.dir.map (fun e => e.1)).filter (fun l => decide ((lineTarget s (s.parserMaster d) d l).die = some d))).foldl
    (fun s l => recallLine s l) s

/-- A remote line cache flush ends (RLC_CTRL, RLC_EVT). -/
def execRlcFlushDone (die : Die) (s : State) : Host.Outcome State Fault Refusal :=
  .next (if s.on die R.RLC_STATUS.FLUSHING then
    ((flushRemote s die).p die R.RLC_STATUS.FLUSHING 0).p die R.RLC_EVT.FLUSH_DONE 1 else s)

/-- A write to a register of the RLC block. -/
def writeRlc (s : State) (w : Wr) : State :=
  match w.r.id with
  | .RLC_CTRL =>
    if s.on w.d R.RLC_STATUS.FLUSHING then s.ans .accessError
    else (if R.RLC_CTRL.FLUSH.of w.raw = 1 then s.p w.d R.RLC_STATUS.FLUSHING 1 else s).ans .ok
  | _ => s.store w

/-- A write to a register of the NOC block (R314). -/
def writeNoc (s : State) (w : Wr) : State :=
  match w.r.id with
  | .NOC_TMO_CFG =>
    let t := R.NOC_TMO_CFG.TMO.of w.new
    s.storeIf w (decide (1 ≤ t ∧ t ≤ 1000000))
  | _ => s.store w

/-! ## A Fatal link -/

/-- Write the poison pattern into a line at its home (R323). -/
def poisonLine (s : State) (t : Target) : State :=
  match t with
  | .bank d b off =>
    (List.range 8).foldl (fun s i =>
      let w := off / 64 * 8 + i
      let x := s.bankWord (d * 8 + b) w
      s.setBankWord (d * 8 + b) w { x with chk := ~~~ secdedCheck x.d }) s
  | .dram ch a _ =>
    (List.range 8).foldl (fun s i =>
      let w := a / 64 * 8 + i
      s.setDcell ch w ⟨(dramSees s ch w).word.v, true, none⟩) s
  | .ctrl _ _ => s
  | .se _ _ _ => s
  | .fabric _ _ _ => s
  | .comp _ _ => s
  | .none => s

/-- A home slice handles a line after a link became Fatal (R323): dies it cannot reach leave the vector, and a line one of
them owned is poisoned and counted. -/
def cutLine (s : State) (line : Nat) : State :=
  match s.dirOf line with
  | some e =>
    let m := s.parserMaster s.head
    let t := lineTarget s m s.head line
    match t.die with
    | some h =>
      let v : BitVec 8 := (e.holders.filter (fun q => !s.roundTrip h q)).foldl (fun v q => v &&& ~~~ (1#8 <<< q)) e.vec
      let lost := match e.owner with
        | some q => !s.roundTrip h q
        | none => false
      let s := if lost then ((poisonLine s t).inc h R.NOC_LOST_LINES.COUNT 1).p h R.NOC_EVT.LOST_LINE 1 else s
      s.setDir line (if v = 0 then none else some ⟨if lost then none else e.owner, v, e.stamp⟩)
    | none => s
  | none => s

/-- LINK_FATAL_DIRECTORY (R323). -/
def cutDirectory (s : State) : State := (s.coh.dir.map (fun e => e.1)).foldl cutLine s

/-! ## Tags and directory entries that cannot be read (R324) -/

/-- A directory entry of a die's home slices reads uncorrectable: its line is recalled from every die. Which one, and whether one does, is
free. -/
def dirUpset (s : State) (d : Nat) : State :=
  let l := (s.coh.dir.map (fun e => e.1)).filter (fun l => decide ((lineTarget s (s.parserMaster d) d l).die = some d))
  if l.isEmpty then s
  else
    let (v, s) := s.free 20
    if v.getLsbD 0 then (recallLine s (l.getD (v.toNat / 2 % l.length) 0)).p d R.RLC_EVT.DIR_UE 1 else s

/-- A remote line cache cannot read a tag: it writes back and invalidates every readable way of the set, and the home treats the line whose
tag is lost as one that it cannot reach (R323). Which one, and whether one is, is free. -/
def tagUpset (s : State) (q : Nat) : State :=
  let l := (cachedLines s q).filter (remoteLine s q)
  if l.isEmpty then s
  else
    let (v, s) := s.free 20
    if v.getLsbD 0 then
      let line := l.getD (v.toNat / 2 % l.length) 0
      let s := (setLines s q 17 line).foldl (fun s l => evictCopy s q l) s
      let t := lineTarget s (s.parserMaster q) q line
      let lost := match s.dirOf line with
        | some e => e.owner == some q
        | none => false
      let s := match t.die with
        | some h => if lost then ((poisonLine s t).inc h R.NOC_LOST_LINES.COUNT 1).p h R.NOC_EVT.LOST_LINE 1 else s
        | none => s
      dirDrop (s.setCopy q line none) q line
    else s

/-- The caches and home slices of a die go on for a step of time. -/
def cachesPass (s : State) (d : Nat) : State := tagUpset (dirUpset s d) d

end Sys2Proof.Machine
end

