-- ==== Sys2Proof/Machine/Event.lean ====
section
/-!
DEFINITION. The event controller of each die (R426 to R430): where the level of each source comes from, pending marks, claims
and completions, and the meanings of their events.
-/

namespace Sys2Proof.Machine

/-- Some bit of a field is set. -/
def State.any (s : State) (d : Nat) (f : Fld) : Bool := s.g d f != 0

/-- Some lane's, engine's or ring's field is set, over the instances of a die. -/
def State.anyOf (s : State) (d n : Nat) (f : Nat → Fld) : Bool := (List.range n).any (fun i => s.any d (f i))

/-- The level of local event `i` of die `d`: the OR of the event bits that feed it (R427, R428). -/
def localLevel (s : State) (d i : Nat) : Bool :=
  match i with
  | 0 => s.any d R.CLK_EVT.REFMUX_STUCK || s.any d R.CLK_EVT.APC_MUX_STUCK || s.any d R.CLK_EVT.EVT_MUX_STUCK
  | 1 => s.any d R.CLK_EVT.REF_LOSS || s.any d R.CLK_EVT.PKGREF_LOSS || s.any d R.CLK_EVT.HOLDOVER
      || s.any d R.CLK_EVT.RELOCKED
  | 2 => s.any d R.CLK_EVT.UPLL_UNLOCK
  | 5 => s.any d R.CFG_RB_STATUS.DONE
  | 8 => s.any d R.FAB_XING_STATUS.UNDERRUN || s.anyOf d 16 R.FAB_PFIFO_STATUS.FRAMING
  | 9 => s.anyOf d 32 R.FAB_PR_STATUS.TIMEOUT
  | 10 => s.any d R.SEA_EVT_DONE.DONE
  | 11 => s.any d R.SEA_EVT_ERR.ERR
  | 13 => s.any d R.DFD_EVT.OP_ERR || s.any d R.DFD_EVT.TOK_ERR || s.any d R.DFD_EVT.SPILL_ERR || s.any d R.DFD_EVT.FWD_ERR
  | 14 => s.any d R.DFD_EVT.SPILL || s.any d R.DFD_EVT.STOPPED
  | 15 => s.any d R.DFD_EVT.EPOCH_DONE || s.any d R.DFD_EVT.EPOCH_SLOW
  | 16 => s.any d R.DFD_EVT.CQ_READY
  | 17 => s.any d R.DFD_EVT.CQ_REVOKE
  | 18 => s.any d R.BNK_EVT.CE || s.any d R.BNK_EVT.UE
  | 19 => s.any d R.BNK_EVT.ACCESS_ERR
  | 20 => s.any d R.BNK_EVT.HANDOVER || s.any d R.BNK_EVT.WIPE_DONE || s.any d R.BNK_EVT.POWER
  | 21 => s.any d R.NOC_EVT.TIMEOUT || s.any d R.NOC_EVT.LATE
  | 22 => s.any d R.NOC_EVT.LOST_LINE
  | 23 => s.any d R.RLC_EVT.CE || s.any d R.RLC_EVT.UE || s.any d R.RLC_EVT.DIR_UE || s.any d R.RLC_EVT.WB_ERR
  | 24 => s.any d R.RLC_EVT.FLUSH_DONE
  | 25 => s.any d R.BDL_EVT.FATAL || s.any d R.BDL_EVT.DOWN || s.any d R.BDL_EVT.COMPANION
  | 26 => s.anyOf d 2 R.DDR_EVT.CE || s.anyOf d 2 R.DDR_EVT.UE
  | 27 => s.anyOf d 2 R.DDR_EVT.TRAIN_FAIL || s.anyOf d 2 R.DDR_EVT.RETRAIN
  | 28 => s.anyOf d 2 R.MEE_EVT.TAG_FAIL || s.anyOf d 2 R.MEE_EVT.EXHAUSTED
  | 29 => s.anyOf d 2 R.MEE_EVT.REKEY_DONE || s.anyOf d 2 R.MEE_EVT.KEY_DONE
  | 30 => s.anyOf d 32 R.LAN_EVT.LINK_UP || s.anyOf d 32 R.LAN_EVT.LINK_DOWN
  | 31 => s.anyOf d 32 R.LAN_EVT.AN_FAIL || s.anyOf d 32 R.LAN_EVT.TRAIN_FAIL || s.anyOf d 8 R.LAN_QSTATUS.UNLOCK
  | 32 => s.anyOf d 32 R.LAN_EVT.EB_ERR || s.anyOf d 32 R.LAN_EVT.MARGIN_LOW
  | 33 => s.anyOf d 32 R.LAN_EVT.EYE_DONE
  | 34 => s.anyOf d 16 R.PEN_RING_STATUS.EVT
  | 35 => s.any d R.PEN_EVT.RING_ERR || s.any d R.PEN_EVT.TS_OVF || s.any d R.PEN_EVT.LEARN_DROP
      || s.any d R.PEN_EVT.TNB_DOWN || s.any d R.PEN_EVT.BANK_DRAINED
  | 38 => s.any d R.APC_EVT.CE || s.any d R.APC_EVT.UE
  | 39 => s.any d R.PWR_EVT.ENTERED
  | 40 => s.any d R.PWR_EVT.WAKE
  | 41 => s.any d R.PWR_EVT.ENTRY_FAIL
  | 42 => s.any d R.THM_EVT.FAN_FAIL
  | 43 => s.any d R.THM_EVT.CRIT
  | 44 => s.any d R.THM_EVT.TRIP
  | 45 => s.any d R.THM_EVT.HEATER
  | 46 => s.any d R.THM_EVT.VOLT
  | i => if 47 ≤ i ∧ i ≤ 62 then s.any d (R.MON_CTRL.DONE (i - 47)) else false

/-- The level of a device event, 576 to 639 (R428, R429). -/
def deviceLevel (s : State) (n : Nat) : Bool :=
  match n with
  | 578 => s.any s.head R.SEC_CMD_STATUS.DONE
  | 579 => s.any s.head R.NVC_STATUS.DONE
  | 580 => s.any s.head R.CFG_CMD_STATUS.DONE
  | 581 => s.any s.head R.PEN_EVT.MOVE_LOCK
  | 582 => s.any s.head R.PEN_EVT.L2_FULL
  | 583 => s.any s.head R.PEN_EVT.PPS_IN
  | n => if 608 ≤ n ∧ n < 640 then s.usrLevel (n - 608) else false

/-- The level of event `n` (R427). -/
def evLevel (s : State) (n : Nat) : Bool := if n < 576 then localLevel s (n / 72) (n % 72) else deviceLevel s n

/-- The die that owns event `n` (R428). -/
def evOwner (s : State) (n : Nat) : Nat := if n < 576 then n / 72 else s.head

/-- The level of a source as the controller of die `r` sees it at once: its own die's sources directly, another die's as last
received (R427, R430). -/
def seenLevel (s : State) (r n : Nat) : Bool := if evOwner s n = r then evLevel s n else (s.evOf r n).level

/-- A source takes a level: it becomes pending when the level is 1 and it is neither pending nor claimed (R427). -/
def EvSrc.takeLevel (e : EvSrc) (l : Bool) : EvSrc :=
  { e with level := l, pending := e.pending || (l && !e.claimed) }

/-- A source takes a pulse: it becomes pending, or the pulse merges into its pending or held mark (R427). -/
def EvSrc.takePulse (e : EvSrc) : EvSrc :=
  if e.claimed then { e with held := true } else { e with pending := true }

/-- A source is completed: a held mark or a level of 1 makes it pending again (R427). -/
def EvSrc.complete (e : EvSrc) (l : Bool) : EvSrc :=
  if e.claimed then { e with claimed := false, held := false, level := l, pending := e.held || l } else e

/-- Source `n` (ID n + 1) is enabled for context `x` on die `r` (R426). -/
def evEnabled (s : State) (r x n : Nat) : Bool := s.bit r (R.EVT_EN.EN x ((n + 1) / 32)) ((n + 1) % 32)

/-- The priority of source `n` on die `r` (R426). -/
def evPrio (s : State) (r n : Nat) : Nat := s.g r (R.EVT_PRIO.PRIO n)

/-- A source is eligible for a context (R426). -/
def evEligible (s : State) (r x n : Nat) : Bool :=
  (s.evOf r n).pending && evEnabled s r x n && decide (s.g r (R.EVT_THR.THRESH x) < evPrio s r n)

/-- The sources that the controller of die `r` holds something about, in order. -/
def evListed (s : State) (r : Nat) : List Nat :=
  (s.evs.filter (fun e => e.1 / 1024 == r)).map (fun e => e.1 % 1024)

/-- The eligible source of highest priority, the lowest ID on a tie (R426). -/
def evBest (s : State) (r x : Nat) : Option Nat :=
  (evListed s r).foldl (fun b n =>
    if evEligible s r x n then
      match b with
      | some c => if evPrio s r c < evPrio s r n then some n else b
      | none => some n
    else b) none

/-- A context requests its interrupt while any source is eligible (R426). -/
def evRequests (s : State) (r x : Nat) : Bool := (evBest s r x).isSome

/-- A read of EVT_CLAIMx (R426): the ID claimed, or 0, and the state after. -/
def claimRead (s : State) (r x : Nat) : Nat × State :=
  match evBest s r x with
  | some n => (n + 1, s.setEv r n { s.evOf r n with pending := false, claimed := true })
  | none => (0, s)

/-- A write of EVT_CLAIMx completes the ID, unless it is not enabled in the context (R426). -/
def claimComplete (s : State) (r x id : Nat) : State :=
  if 1 ≤ id ∧ id ≤ 640 ∧ evEnabled s r x (id - 1) then
    s.setEv r (id - 1) ((s.evOf r (id - 1)).complete (seenLevel s r (id - 1)))
  else s

/-- EVT_PENDk (R426): bit j is source 32k + j. -/
def evPendWord (s : State) (r k : Nat) : Nat :=
  ((List.range 32).filter (fun j => decide (1 ≤ 32 * k + j) && (s.evOf r (32 * k + j - 1)).pending)).foldl
    (fun a j => a + 2 ^ j) 0

/-- The way from die `d` to die `r` crosses a Fatal or DOWN edge (R430). -/
def State.pathBroken (s : State) (d r : Nat) : Bool :=
  (s.path d r).any (fun h => s.edgeState h.1 h.2 == Edge.fatal || s.edgeState h.1 h.2 == Edge.down)

/-- EVENT_LOST (R430): every controller marks the dies whose sources it can no longer hear. -/
def updateLost (s : State) : State :=
  s.onDies (fun s r => s.p r R.EVT_LOST.DIES
    ((s.dies.filter (fun d => s.pathBroken d r)).foldl (fun a d => a + 2 ^ d) 0))

/-! ## Meanings -/

/-- A level message reaches the controller of a die: the source takes the level its owner shows (R427). From a die that
cannot be reached nothing arrives and the source keeps its last level (R430). -/
def execEventLevel (die : Die) (n : Fin 640) (s : State) : Host.Outcome State Fault Refusal :=
  .next (if s.present die ∧ s.pathUp (evOwner s n) die then
    s.setEv die n ((s.evOf die n).takeLevel (evLevel s n)) else s)

/-- A pulse in flight to the controller of a die arrives there (R427). -/
def execEventPulse (die : Die) (n : Fin 640) (s : State) : Host.Outcome State Fault Refusal :=
  .next (if (die.val, n.val) ∈ s.pulses then
    { s with pulses := s.pulses.erase (die.val, n.val) }.setEv die n (s.evOf die n).takePulse else s)

end Sys2Proof.Machine
end

