-- ==== Sys2Proof/Machine/Packet.lean ====
section
/-!
DEFINITION. Packets as bits: the flits of the four networks (R305 to R308) and the records that carry them over a die link
(R328). A record body is as it must be when decoding it and laying it out again gives it back, which says that every field that
must be zero is.
-/

namespace Sys2Proof.Machine

/-! ## The flits of the networks -/

/-- A REQ flit (R305). -/
structure ReqFlit where
  dest  : BitVec 9
  dport : BitVec 3
  rid   : BitVec 12
  tag   : BitVec 9
  op    : BitVec 4
  cls   : BitVec 3
  len   : BitVec 6
  size  : BitVec 1
  dat   : BitVec 1
  keyId : BitVec 6
  addr  : BitVec 48
  deriving DecidableEq, Repr

/-- SIZE has a meaning for atomics only, and is zero otherwise. -/
def ReqFlit.isAtomic (f : ReqFlit) : Bool := f.op == 2 || f.op == 3 || f.op == 4

def ReqFlit.bits (f : ReqFlit) : BitVec 128 :=
  f.dest ++ f.dport ++ f.rid ++ f.tag ++ f.op ++ f.cls ++ f.len ++ (if f.isAtomic then f.size else 0) ++ f.dat ++ 0#26 ++ f.keyId
    ++ f.addr

def ReqFlit.ofBits (b : BitVec 128) : ReqFlit :=
  { dest := b.extractLsb' 119 9, dport := b.extractLsb' 116 3, rid := b.extractLsb' 104 12, tag := b.extractLsb' 95 9
    op := b.extractLsb' 91 4, cls := b.extractLsb' 88 3, len := b.extractLsb' 82 6, size := b.extractLsb' 81 1
    dat := b.extractLsb' 80 1, keyId := b.extractLsb' 48 6, addr := b.extractLsb' 0 48 }

/-- An RSP flit (R306). -/
structure RspFlit where
  dest  : BitVec 9
  dport : BitVec 3
  tag   : BitVec 9
  resp  : BitVec 3
  kind  : BitVec 4
  src   : BitVec 9
  sport : BitVec 3
  prior : BitVec 2
  deriving DecidableEq, Repr

def RspFlit.bits (f : RspFlit) : BitVec 64 :=
  f.dest ++ f.dport ++ f.tag ++ f.resp ++ f.kind ++ f.src ++ f.sport ++ 0#22 ++ f.prior

def RspFlit.ofBits (b : BitVec 64) : RspFlit :=
  { dest := b.extractLsb' 55 9, dport := b.extractLsb' 52 3, tag := b.extractLsb' 43 9, resp := b.extractLsb' 40 3
    kind := b.extractLsb' 36 4, src := b.extractLsb' 27 9, sport := b.extractLsb' 24 3, prior := b.extractLsb' 0 2 }

/-- An SNP flit (R307). -/
structure SnpFlit where
  dest  : BitVec 9
  dport : BitVec 3
  src   : BitVec 9
  sport : BitVec 3
  snpId : BitVec 9
  op    : BitVec 4
  keyId : BitVec 6
  line  : BitVec 42
  deriving DecidableEq, Repr

def SnpFlit.bits (f : SnpFlit) : BitVec 96 :=
  f.dest ++ f.dport ++ f.src ++ f.sport ++ f.snpId ++ f.op ++ 0#11 ++ f.keyId ++ f.line

def SnpFlit.ofBits (b : BitVec 96) : SnpFlit :=
  { dest := b.extractLsb' 87 9, dport := b.extractLsb' 84 3, src := b.extractLsb' 75 9, sport := b.extractLsb' 72 3
    snpId := b.extractLsb' 63 9, op := b.extractLsb' 59 4, keyId := b.extractLsb' 42 6, line := b.extractLsb' 0 42 }

/-- The control field of a DAT flit (R308). -/
structure DatCtl where
  dir   : BitVec 1
  resp  : BitVec 3
  dest  : BitVec 9
  dport : BitVec 3
  rid   : BitVec 12
  tag   : BitVec 9
  beat  : BitVec 6
  last  : BitVec 1
  be    : BitVec 64
  deriving DecidableEq, Repr

/-- RESP is zero toward a target or home. -/
def DatCtl.bits (f : DatCtl) : BitVec 108 :=
  f.dir ++ (if f.dir = 1 then f.resp else 0) ++ f.dest ++ f.dport ++ f.rid ++ f.tag ++ f.beat ++ f.last ++ f.be

def DatCtl.ofBits (b : BitVec 108) : DatCtl :=
  { dir := b.extractLsb' 107 1, resp := b.extractLsb' 104 3, dest := b.extractLsb' 95 9, dport := b.extractLsb' 92 3
    rid := b.extractLsb' 80 12, tag := b.extractLsb' 71 9, beat := b.extractLsb' 65 6, last := b.extractLsb' 64 1
    be := b.extractLsb' 0 64 }

/-! ## Records of a PAYLOAD flit (R328) -/

/-- A record of a die link: its virtual channel where it has one, and the flit it carries. -/
inductive LinkRecord where
  | req (vc : Bool) (f : ReqFlit)
  | rsp (f : RspFlit)
  | snp (f : SnpFlit)
  | dat (vc : Bool) (data : BitVec 512) (poison : Byte) (f : DatCtl)
  | trunk (body : List Byte)
  deriving DecidableEq, Repr

/-- The length of a record's body by its NET; nothing for a reserved NET. -/
def recordLen (net : Nat) : Option Nat :=
  match net with
  | 0 => some 16
  | 1 => some 8
  | 2 => some 12
  | 3 => some 80
  | 4 => some 64
  | 7 => some 0
  | _ => none

/-- The body of a record as bytes; a DAT body's upper bits of byte 78 and its byte 79 are zero. -/
def LinkRecord.body : LinkRecord → List Byte
  | .req _ f => bytesLE 16 f.bits.toNat
  | .rsp f => bytesLE 8 f.bits.toNat
  | .snp f => bytesLE 12 f.bits.toNat
  | .dat _ data poison f => bytesLE 64 data.toNat ++ [poison] ++ bytesLE 15 f.bits.toNat
  | .trunk b => b

/-- The record that a NET, a virtual channel and a body spell. -/
def LinkRecord.ofBody (net : Nat) (vc : Bool) (b : List Byte) : LinkRecord :=
  match net with
  | 0 => .req vc (ReqFlit.ofBits (BitVec.ofNat 128 (leAt b 0 16)))
  | 1 => .rsp (RspFlit.ofBits (BitVec.ofNat 64 (leAt b 0 8)))
  | 2 => .snp (SnpFlit.ofBits (BitVec.ofNat 96 (leAt b 0 12)))
  | 3 => .dat vc (BitVec.ofNat 512 (leAt b 0 64)) (BitVec.ofNat 8 (leAt b 64 1)) (DatCtl.ofBits (BitVec.ofNat 108 (leAt b 65 14)))
  | _ => .trunk b

/-- The fields of a record header that must be zero are: the low 9 bits; LANE but for a row number on an X edge's NoC module; and
VC but on REQ and DAT. -/
def recordHeadOk (xNoc : Bool) (h : Nat) : Bool :=
  fld h 0 9 == 0 && (fld h 9 3 == 0 || (xNoc && fld h 9 3 == 1 && fld h 13 3 != 7))
    && (fld h 12 1 == 0 || fld h 13 3 == 0 || fld h 13 3 == 3)

/-- The whole records at the front of what has come, and the bytes of the one that goes on in the next flit; nothing where a
field that must be zero is not, or a NET is reserved (notes/assumptions/43.md). -/
def takeRecords (xNoc : Bool) : Nat → List Byte → Option (List LinkRecord × List Byte)
  | 0, b => some ([], b)
  | k + 1, b =>
    if b.length < 2 then some ([], b)
    else
      let h := leAt b 0 2
      let net := fld h 13 3
      match recordLen net with
      | none => none
      | some n =>
        if !recordHeadOk xNoc h then none
        else if net = 7 then (if (b.drop 2).all (· == 0) then some ([], []) else none)
        else if b.length < 2 + n then some ([], b)
        else
          let body := (b.drop 2).take n
          let r := LinkRecord.ofBody net (h.testBit 12) body
          if r.body = body then (takeRecords xNoc k (b.drop (2 + n))).map (fun x => (r :: x.1, x.2)) else none

/-- What the payload of a flit brings, after the start of a record that an earlier flit left. A payload has 244 bytes, and the
shortest record 10. -/
def payloadRecords (xNoc : Bool) (part f : List Byte) : Option (List LinkRecord × List Byte) :=
  takeRecords xNoc 40 (part ++ (f.drop 8).take 244)

end Sys2Proof.Machine
end

