-- ==== Sys2Proof/Machine/DieLink.lean ====
section
/-!
DEFINITION. The die-to-die links (13_die_links): flits with their CRC, acknowledgement and replay, Fatal and DOWN edges, bring-up
with the capability exchange, and the companion die of the PX8C.
-/

namespace Sys2Proof.Machine

/-! ## State by edge and module -/

def linkKey (d e m : Nat) : Nat := d * 64 + e * 8 + m
def State.linkTx (s : State) (d e m : Nat) : LinkTx := SMap.get (fun _ => LinkTx.reset) s.bdl.tx (linkKey d e m)
def State.setLinkTx (s : State) (d e m : Nat) (x : LinkTx) : State :=
  { s with bdl := { s.bdl with tx := SMap.set (fun _ => LinkTx.reset) s.bdl.tx (linkKey d e m) x } }
def State.linkRx (s : State) (d e m : Nat) : LinkRx := SMap.get (fun _ => LinkRx.reset) s.bdl.rx (linkKey d e m)
def State.setLinkRx (s : State) (d e m : Nat) (x : LinkRx) : State :=
  { s with bdl := { s.bdl with rx := SMap.set (fun _ => LinkRx.reset) s.bdl.rx (linkKey d e m) x } }
def State.capsIn (s : State) (d e : Nat) : CapsIn := SMap.get (fun _ => CapsIn.waiting) s.bdl.caps (d * 4 + e)
def State.setCapsIn (s : State) (d e : Nat) (x : CapsIn) : State :=
  { s with bdl := { s.bdl with caps := SMap.set (fun _ => CapsIn.waiting) s.bdl.caps (d * 4 + e) x } }
def State.rawRx (s : State) (d : Nat) : List (List Byte) := SMap.get (fun _ => []) s.bdl.raw d
def State.setRawRx (s : State) (d : Nat) (l : List (List Byte)) : State :=
  { s with bdl := { s.bdl with raw := SMap.set (fun _ => []) s.bdl.raw d l } }
/-- The transmissions that BDL_TEST of a die has still to corrupt (R343). -/
def State.testLeft (s : State) (d : Nat) : Nat := SMap.get (fun _ => 0) s.bdl.test d
def State.setTestLeft (s : State) (d n : Nat) : State :=
  { s with bdl := { s.bdl with test := SMap.set (fun _ => 0) s.bdl.test d n } }

def State.setEdge (s : State) (d e v : Nat) : State := s.p d (R.BDL_STATUS.STATE e) v

/-- Start both directions of an edge's modules again, as seen from die `d` (R333: SEQ begins at 0). -/
def linkRestart (s : State) (d e : Nat) : State :=
  (List.range 6).foldl (fun s m => (s.setLinkTx d e m .reset).setLinkRx d e m .reset) s

/-- The edge toward the companion of a PX8C (R338). -/
def companionEdge (s : State) (d e : Nat) : Bool := s.dev.part == .px8c && ((d == 6 && e == 0) || (d == 3 && e == 2))

/-! ## Bring-up (R333) -/

/-- A die starts to bring up its edges: each toward a grid neighbour trains, and every mark of an earlier run is cleared. -/
def bdlBringUp (s : State) (d : Nat) : State :=
  (List.range 4).foldl (fun s e =>
    let s := linkRestart (s.setCapsIn d e .waiting) d e
    let s := ((s.p d (R.BDL_STATUS.REASON e) 0).p d (R.BDL_STATUS.MODULE e) 0).p d (R.BDL_STATUS.LOWPWR e) 0
    let s := (s.p d ⟨0x300104 + 64 * e, 0, 32⟩ 0).p d ⟨0x300108 + 64 * e, 0, 32⟩ 0
    let s := s.p d ⟨0x30010C + 64 * e, 0, 32⟩ 0
    s.setEdge d e (if (s.neighbour d e).isSome then Edge.training else Edge.absent)) (s.setRawRx d [])

/-- An edge goes DOWN for a reason (R334, R335). -/
def edgeDown (s : State) (d e reason m : Nat) : State :=
  (cutTrunk ∘ updateLost) ((((s.setEdge d e Edge.down).p d (R.BDL_STATUS.REASON e) reason).p d (R.BDL_STATUS.MODULE e) m).p d
    R.BDL_EVT.DOWN 1)

def Reason.trainFail : Nat := 1
def Reason.noCaps : Nat := 2
def Reason.incompatible : Nat := 3
def Reason.identMismatch : Nat := 4
def Reason.retryExhausted : Nat := 5

/-! ## The capability exchange (R333, R334) -/

/-- The stepping code of R333. -/
def Stepping.code : Stepping → Nat
  | .a0 => 0 | .a1 => 1 | .b0 => 2

/-- The CAPS block that a die sends on an edge (R333). -/
def capsBlock (s : State) (d e : Nat) : List Byte :=
  let head := if d = s.head then 8 else 0
  let caps := 1 + 2 + 16 + (if e < 2 then 4 else 0)
  let l := bytesLE 4 0x4C494942 ++ bytesLE 2 0x0102 ++ [1, 0] ++ bytesLE 1 (head + d) ++ bytesLE 1 s.dev.part.code
    ++ bytesLE 1 s.dev.stepping.code ++ bytesLE 1 (s.g d (R.BDL_CAPS.MODULES e)) ++ bytesLE 4 caps
    ++ bytesLE 8 (2 ^ 48 - 1) ++ [0, 0, 0] ++ List.replicate 33 0
  l ++ bytesLE 4 (crc32c l).toNat

/-- A valid CAPS block: its MAGIC and its CRC. -/
def capsValid (b : List Byte) : Bool :=
  decide (64 ≤ b.length) && leAt b 0 4 == 0x4C494942 && leAt b 0x3C 4 == (crc32c (b.take 0x3C)).toNat

/-- The version agreed with a peer: major, then minor (R334). -/
def agreedVersion (b : List Byte) : Nat × Nat :=
  let v := leAt b 4 2
  let major := v / 256
  let minor := v % 256
  if major = 1 then (1, min 2 minor) else if 1 < major then (1, 2) else (major, minor)

/-- The position that the grid predicts behind an edge, if a die stands there. -/
def predicted (s : State) (d e : Nat) : Option Nat := s.neighbour d e

/-- Why a CAPS block takes an edge DOWN, if it does (R334). -/
def capsRefuse (s : State) (d e : Nat) (b : List Byte) : Option Nat :=
  let (major, _) := agreedVersion b
  let who := leAt b 8 1
  if major < 1 ∨ major < leAt b 6 1 then some Reason.incompatible
  else if some (who % 8) ≠ predicted s d e ∨ leAt b 9 1 ≠ s.dev.part.code ∨ ((who / 8).testBit 0 ∧ d = s.head) then
    some Reason.identMismatch
  else none

/-- What a passed CAPS block leaves in the registers (R334, R339). -/
def capsTake (s : State) (d e : Nat) (b : List Byte) : State :=
  let (major, minor) := agreedVersion b
  let who := leAt b 8 1
  let own := leAt (capsBlock s d e) 0x0C 4
  let s := ((s.p d (R.BDL_PEER.VER_MAJOR e) major).p d (R.BDL_PEER.VER_MINOR e) minor).p d (R.BDL_PEER.PART e) (leAt b 9 1)
  let s := ((s.p d (R.BDL_PEER.ROLE e) (leAt b 7 1)).p d (R.BDL_PEER.HEAD e) (who / 8)).p d (R.BDL_PEER.POSITION e) who
  s.p d (R.BDL_CAPS.CAPS e) (leAt b 0x0C 4 &&& own)

/-- An edge comes UP at one end (R333 step 3). -/
def edgeUp (s : State) (d e : Nat) : State := penReach ((linkRestart s d e).setEdge d e Edge.up)

/-- A CAPS block is a companion's that may be admitted (R338). -/
def companionBlock (s : State) (d e : Nat) (b : List Byte) : Bool :=
  leAt b 7 1 == 1 && leAt b 8 1 == 7 && (capsRefuse s d e b).isNone

/-- Both companion edges have an outcome: the companion is admitted, or each edge that trained becomes RAW (R338, R339). -/
def companionDecide (s : State) : State :=
  let x := s.capsIn 6 0
  let y := s.capsIn 3 2
  if x = .waiting ∨ y = .waiting ∨ (x = .failed ∧ y = .failed) then s
  else
    let admitted : Option (List Byte) := match x, y with
      | .block a, .block b => if a = b ∧ companionBlock s 6 0 a ∧ companionBlock s 3 2 b then some a else none
      | _, _ => none
    let s := [(6, 0), (3, 2)].foldl (fun (s : State) de =>
      match admitted with
      | some b =>
        let coh := (leAt b 0x0C 4).testBit 1
        let s := edgeUp (capsTake s de.1 de.2 b) de.1 de.2
        ((s.p de.1 (R.BDL_WIN.CTRL_LOG2 de.2) (leAt b 0x18 1)).p de.1 (R.BDL_WIN.BANK_LOG2 de.2)
          (if coh then leAt b 0x19 1 else 0)).p de.1 (R.BDL_WIN.FAB_LOG2 de.2) (leAt b 0x1A 1)
      | none => if s.capsIn de.1 de.2 = .failed then s else s.setEdge de.1 de.2 Edge.raw) s
    updateLost ((s.p 6 R.BDL_EVT.COMPANION 1).p 3 R.BDL_EVT.COMPANION 1)

/-! ## Meanings: bring-up -/

/-- The root of a die is LOCKED. -/
def rootLocked (s : State) (d : Nat) : Bool := s.g d R.CLK_ROOT_STATUS.STATE == 2

/-- A module completes training (R333 step 1); with all six the edge goes on to CAPS. -/
def execModuleTrained (die : Die) (edge : Fin 4) (module : Fin 6) (s : State) : Host.Outcome State Fault Refusal :=
  .next (
    let far : Bool := match s.neighbour die edge with
      | some n => companionEdge s die edge || (s.present n && rootLocked s n)
      | none => false
    if s.present die ∧ s.edgeState die edge = Edge.training ∧ rootLocked s die ∧ far then
      let s := s.setBit die (R.BDL_CAPS.MODULES edge) module
      if s.g die (R.BDL_CAPS.MODULES edge) = 63 then s.setEdge die edge Edge.caps else s
    else s)

/-- A module fails training (R333 step 1). -/
def execTrainFail (die : Die) (edge : Fin 4) (module : Fin 6) (s : State) : Host.Outcome State Fault Refusal :=
  .next (
    if s.present die ∧ s.edgeState die edge = Edge.training ∧ s.bit die (R.BDL_CAPS.MODULES edge) module = false then
      let s := edgeDown s die edge Reason.trainFail module
      if companionEdge s die edge then companionDecide (s.setCapsIn die edge .failed) else s
    else s)

/-- An end sends its CAPS block (R333 step 2): the block goes out. -/
def execCapsSend (die : Die) (edge : Fin 4) (s : State) : Host.Outcome State Fault Refusal :=
  .next (
    if s.present die ∧ s.edgeState die edge = Edge.caps then
      let b := capsBlock s die edge
      s.ansData .ok ((List.range 8).map (fun k => BitVec.ofNat 64 (leAt b (8 * k) 8)))
    else s)

/-- A CAPS block is received (R333, R334, R338). The edge is UP once the blocks of both ends have passed. -/
def execCapsReceive (die : Die) (edge : Fin 4) (block : List Byte) (s : State) : Host.Outcome State Fault Refusal :=
  .next (
    if s.present die ∧ s.edgeState die edge = Edge.caps ∧ s.capsIn die edge = .waiting ∧ capsValid block then
      if companionEdge s die edge then companionDecide (s.setCapsIn die edge (.block block))
      else match capsRefuse s die edge block with
        | some r => edgeDown s die edge r 0
        | none =>
          let s := capsTake (s.setCapsIn die edge (.block block)) die edge block
          match s.neighbour die edge with
          | some n =>
            let f := farEdge edge
            if s.edgeState n f = Edge.caps ∧ s.capsIn n f ≠ .waiting then updateLost (edgeUp (edgeUp s die edge) n f) else s
          | none => s
    else s)

/-- No valid CAPS within 100 µs of training (R334, R338). -/
def execNoCaps (die : Die) (edge : Fin 4) (s : State) : Host.Outcome State Fault Refusal :=
  .next (
    if s.present die ∧ s.edgeState die edge = Edge.caps ∧ s.capsIn die edge = .waiting then
      if companionEdge s die edge then companionDecide (s.setCapsIn die edge .none)
      else edgeDown s die edge Reason.noCaps 0
    else s)

/-! ## Fatal edges (R330, R331) -/

/-- Show how many tags of a die's masters are quarantined (R315). -/
def showQuar (s : State) (d : Nat) : State :=
  s.p d R.NOC_QUAR.COUNT ((s.coh.net.filter (fun e => s.dieOfRid (e.1 / 512) == d
    && match e.2 with
      | some r => r.quar
      | none => false)).length)

/-- The clock of a NoC port runs (R192); a port without a choice runs on FT0. -/
def portClk (s : State) (d p : Nat) : Bool := clkRuns s d (endClock (s.designOf d).nclk p)

/-- A fabric NoC port follows its internal tags (R195): one that is free carries no request, and one in quarantine no fabric tag. While the
port's clock stands still, a response waits in the port (R197). -/
def portSync (s : State) (rid : Nat) : State :=
  let d := s.dieOfRid rid
  match (List.range 32).find? (fun p => s.nocpRid d p == rid) with
  | none => s
  | some p =>
    let x := s.nport d p
    s.setNport d p { x with
      reqs := (x.reqs.filter (fun q => decide (0 < q.beats) || (s.netOf rid q.itag).isSome || q.ready
          || (!portClk s d p && !q.quar))).map (fun q =>
        match s.netOf rid q.itag with
        | some r => { q with quar := r.quar }
        | none => if q.beats = 0 then { q with ready := true } else q) }

/-- The entry of a tag in the network changes. -/
def State.putNet (s : State) (rid tag : Nat) (x : Option NetReq) : State :=
  showQuar (portSync (s.setNet rid tag x) rid) (s.dieOfRid rid)

/-- Quarantine the tag of a request (R315, R331). -/
def quarantine (s : State) (rid tag : Nat) (r : NetReq) : State := s.putNet rid tag (some { r with place := .done, quar := true })

/-- An edge becomes Fatal at both ends (R330). -/
def edgeFatal (s : State) (d e m : Nat) : State :=
  let one (s : State) (d e : Nat) : State :=
    if s.present d then
      (((s.setEdge d e Edge.fatal).p d (R.BDL_STATUS.REASON e) Reason.retryExhausted).p d (R.BDL_STATUS.MODULE e) m).p d
        R.BDL_EVT.FATAL 1
    else s
  let s := one s d e
  match s.neighbour d e with
  | some n => one s n (farEdge e)
  | none => s

/-- The die that a request goes to, as its requester's die decodes it. -/
def reqDie (s : State) (q : Req) : Option Nat := (decodeAddr s q.m (s.dieOfRid q.m.rid) q.addr.toNat).die

/-- Every router knows the Fatal edge (R331): outstanding requests whose way crosses a Fatal edge complete with RETRY_EXHAUSTED
and their tags are quarantined, home slices handle the dies they cannot reach, and controllers show what they cannot hear. -/
def execFatalKnown (die : Die) (edge : Fin 4) (s : State) : Host.Outcome State Fault Refusal :=
  .next (
    if s.present die ∧ s.edgeState die edge = Edge.fatal then
      let s := s.coh.net.foldl (fun s e =>
        match e.2 with
        | some r =>
          let lost : Bool := match reqDie s r.req with
            | some h => (tripHops s (s.dieOfRid (e.1 / 512)) h).any (fun h => s.edgeState h.1 h.2 == Edge.fatal)
            | none => false
          if r.place ≠ .done ∧ lost then quarantine (s.ans .retryExhausted) (e.1 / 512) (e.1 % 512) r else s
        | none => s) s
      cutTrunk (updateLost (cutDirectory s))
    else s)

/-! ## Flits (R327 to R329) -/

/-- A flit as it must be: 256 bytes with a correct CRC, a known FTYPE, and its zero fields zero. -/
def flitOk (f : List Byte) : Bool :=
  let h := leAt f 0 8
  f.length == 256 && leAt f 252 4 == (crc32c (f.take 252)).toNat && decide (h % 16 ≤ 3) && fld h 26 6 == 0

/-- Sequence numbers not yet acknowledged after everything before `q` is. -/
def dropBefore (l : List (Nat × Nat)) (q : Nat) : List (Nat × Nat) :=
  if l.any (fun x => x.1 == q) then l.dropWhile (fun x => x.1 != q) else l

/-- The sender replays everything it holds (R329): each replay is one retry; a flit that has had 8 is exhausted (R330). -/
def replay (s : State) (d e m : Nat) : State :=
  let x := s.linkTx d e m
  match x.un with
  | [] => s
  | (_, n) :: _ =>
    if 8 ≤ n then edgeFatal s d e m
    else (s.setLinkTx d e m { x with un := x.un.map (fun y => (y.1, min 8 (y.2 + 1))) }).inc d (R.BDL_CNT_REPLAY.COUNT e) 1

/-- What a header returns to the sender of the same module: credits, an acknowledgement, or a NAK (R327, R329). -/
def takeHeader (s : State) (d e m h : Nat) : State :=
  let x := s.linkTx d e m
  let x := { x with cred := (List.range 8).map (fun k => x.cred.getD k 0 + fld h (32 + 4 * k) 4) }
  let q := fld h 14 10
  if fld h 25 1 = 0 then s.setLinkTx d e m x
  else if fld h 24 1 = 1 then replay (s.setLinkTx d e m { x with un := dropBefore x.un q }) d e m
  else
    let un := if x.un.any (fun y => y.1 == q) then (dropBefore x.un q).drop 1 else x.un
    s.setLinkTx d e m { x with un := un }

/-- The far sender has sent a flit with SEQ `q`: a new one joins what it holds unacknowledged, up to 128 (R329). -/
def flitSent (s : State) (d e m q : Nat) : State :=
  let x := s.linkTx d e m
  if x.next = q ∧ x.un.length < 128 then s.setLinkTx d e m { x with next := (q + 1) % 1024, un := x.un ++ [(q, 0)] } else s

/-- BDL_TEST corrupts this transmission of a die's module (R343): whether it does, and the state with one fewer to do. -/
def testCorrupts (s : State) (d e m : Nat) : Bool × State :=
  if s.on d R.BDL_TEST.ARM ∧ s.g d R.BDL_TEST.EDGE = e ∧ s.g d R.BDL_TEST.MODULE = m ∧ 0 < s.testLeft d then
    let n := s.testLeft d - 1
    let s := s.setTestLeft d n
    (true, if n = 0 then s.p d R.BDL_TEST.ARM 0 else s)
  else (false, s)

/-- A module carries the NoC across an X edge (R326). -/
def xNocModule (e m : Nat) : Bool := decide (e < 2 ∧ m < 4)

/-- What the payload of an accepted flit leaves of an unfinished record (R328); nothing where it breaks the format, which counts as
a CRC error (R327). -/
def payloadRest (e m : Nat) (x : LinkRx) (f : List Byte) : Option (List Byte) :=
  if leAt f 0 8 % 16 = 1 then (payloadRecords (xNocModule e m) x.part f).map (fun r => r.2) else some x.part

/-- A flit arrives at a module of an UP edge (R329). -/
def flitArrive (s : State) (d e m : Nat) (f : List Byte) : State :=
  let h := leAt f 0 8
  let x0 := s.linkRx d e m
  let good := flitOk f
  let (bad, s) : Bool × State := match s.neighbour d e with
    | some n =>
      if s.present n then
        match testCorrupts s n (farEdge e) m with
        | (b, s) => (b, if good && h % 16 == 0 then s else flitSent s n (farEdge e) m (if good then fld h 4 10 else x0.expect))
      else (false, s)
    | none => (false, s)
  if !good || bad then
    (s.setLinkRx d e m { x0 with nak := true }).inc d (R.BDL_CNT_CRC.COUNT e) 1
  else if h % 16 = 0 then takeHeader s d e m h
  else if fld h 4 10 ≠ x0.expect then
    (s.setLinkRx d e m { x0 with nak := true }).inc d (R.BDL_CNT_CRC.COUNT e) 1
  else
    match payloadRest e m x0 f with
    | none => (s.setLinkRx d e m { x0 with nak := true }).inc d (R.BDL_CNT_CRC.COUNT e) 1
    | some part =>
      let s := s.setLinkRx d e m ⟨(x0.expect + 1) % 1024, false, part⟩
      let s := if h % 16 = 1 then s.inc d (R.BDL_CNT_FLITS.COUNT e) 1 else s
      takeHeader s d e m h

/-- FAB_GSR has been released and is not held on the die (R340). -/
def gsrDone (s : State) (d : Nat) : Bool := !s.held d Blk.gsr

/-- The raw edge of a die that faces the companion, when C_UP is 1 (R340). -/
def rawEdge (s : State) (d : Nat) : Option Nat :=
  ((List.range 4).find? (fun e => companionEdge s d e && s.edgeState d e == Edge.raw)).filter (fun _ => gsrDone s d)

/-- A flit is received (R329); on a RAW edge it passes unchanged into the receive buffer of 64 (R340). -/
def execFlitReceive (die : Die) (edge : Fin 4) (module : Fin 6) (flit : List Byte) (s : State) :
    Host.Outcome State Fault Refusal :=
  .next (
    if !s.present die then s
    else if s.edgeState die edge = Edge.up then flitArrive s die edge module flit
    else if rawEdge s die = some edge.val ∧ module = 0 ∧ flit.length = 256 ∧ (s.rawRx die).length < 64 then
      s.setRawRx die (s.rawRx die ++ [flit])
    else s)

/-- 256 ns without progress while flits are unacknowledged (R329). -/
def execReplayTimeout (die : Die) (edge : Fin 4) (module : Fin 6) (s : State) : Host.Outcome State Fault Refusal :=
  .next (if s.present die ∧ s.edgeState die edge = Edge.up then replay s die edge module else s)

/-- The words of a flit, byte k in bits [8k+7:8k] (R340). -/
def flitWords (f : List Byte) : List DWord := (List.range 32).map (fun k => BitVec.ofNat 64 (leAt f (8 * k) 8))

/-- CMPSTRM transmit: the flit goes out over the raw edge (R340). -/
def execCmpstrmTx (die : Die) (flit : List Byte) (s : State) : Host.Outcome State Fault Refusal :=
  .next (if (rawEdge s die).isSome then s.ansData .ok (flitWords flit) else s)

/-- CMPSTRM receive: the oldest buffered flit passes to the fabric (R340). -/
def execCmpstrmRx (die : Die) (s : State) : Host.Outcome State Fault Refusal :=
  .next (match rawEdge s die, s.rawRx die with
    | some _, f :: l => (s.setRawRx die l).ansData .ok (flitWords f)
    | _, _ => s)

/-! ## Registers -/

/-- A write of BDL_TEST (R343). -/
def writeBdlTest (s : State) (w : Wr) : State :=
  let d := w.d
  let e := R.BDL_TEST.EDGE.of w.new
  let n := R.BDL_TEST.COUNT.of w.new
  if (w.m.cls == .coreM || (w.m.cls == .debug && decide (2 ≤ s.dbgLevel))) && !s.on d R.BDL_TEST.ARM && n != 0
      && decide (R.BDL_TEST.MODULE.of w.new < 6) && s.edgeState d e != Edge.absent then
    let s := s.store w
    if R.BDL_TEST.ARM.of w.new = 1 then s.setTestLeft d n else s
  else s.ans .accessError

/-- A write to a register of the BDL block. -/
def writeBdl (s : State) (w : Wr) : State :=
  match w.r.id with
  | .BDL_TEST => writeBdlTest s w
  | _ => s.store w

end Sys2Proof.Machine
end

