-- ==== Sys2Proof/Machine/DramEvents.lean ====
section
/-!
DEFINITION. Commands of the DDR5 controllers and the encryption engines (14_dram_and_encryption): queueing and scheduling,
training and refresh, the channel map, key commands and live re-keying.
-/

namespace Sys2Proof.Machine

/-! ## Scheduling -/

/-- The subchannel queue of a channel-local address (R345). -/
def subKey (ch a : Nat) : Nat := ch * 2 + a / 64 % 2

/-- The rank capacity of a channel (R344). -/
def rankSize (s : State) (ch : Nat) : Nat :=
  if s.on (chDie ch) (R.DDR_CFG.DENSITY (chCtl ch)) then 64 * 2 ^ 30 else 32 * 2 ^ 30

/-- The bank of a line within its subchannel: rank, bank group, bank (R345). -/
def bankOf (s : State) (ch line : Nat) : Nat :=
  let a := line * 64
  a / rankSize s ch * 32 + a / 2 ^ 17 % 4 * 8 + a / 2 ^ 14 % 8

/-- The row of a line (R345). -/
def rowOf (s : State) (ch line : Nat) : Nat := line * 64 % rankSize s ch / 2 ^ 19

/-- The service class of a master class (R351). -/
def serviceClass (s : State) (ch : Nat) (m : Master) : Nat :=
  s.g (chDie ch) (R.DDR_QOS.CLASS (chCtl ch)) / 4 ^ m.cls.bit % 4

/-- Queue one line's read (R352, R353): a queued earlier write to its bank and row switches the bank to in-order mode. -/
def queueRead (s : State) (ch line : Nat) (q : Req) : State :=
  let k := subKey ch (line * 64)
  let x := s.dsub k
  let s := { s with drm := { s.drm with seq := s.drm.seq + 1 } }
  let r : DReq := ⟨q, line, serviceClass s ch q.m, false, s.drm.seq⟩
  let b := bankOf s ch line
  let hit := x.writes.filter (fun y => bankOf s ch y.line == b && rowOf s ch y.line == rowOf s ch line)
  let fresh := !hit.isEmpty && !x.inOrder.any (fun y => y.1 == b)
  let s := if fresh then ddrCnt s ch 4 else s
  let io := if fresh then x.inOrder ++ [(b, (hit.map (fun y => y.seq)).foldl max 0)] else x.inOrder
  s.setDsub k { x with reads := x.reads ++ [r], inOrder := io }

/-- Queue one line's write (R352). -/
def queueWrite (s : State) (ch line : Nat) (q : Req) : State :=
  let k := subKey ch (line * 64)
  let x := s.dsub k
  let s := { s with drm := { s.drm with seq := s.drm.seq + 1 } }
  s.setDsub k { x with writes := x.writes ++ [⟨q, line, serviceClass s ch q.m, false, s.drm.seq⟩] }

/-- A DRAM-window request for one line is judged by the encryption engine and queued (R352, R357, R366). While the queue is
full the engine accepts nothing. A write is acknowledged as it enters the queue. -/
def ddrRequest (s : State) (q : Req) : State :=
  let r := s.dieOfRid q.m.rid
  let sees (s : State) : State := s.coreSees q.m (opStores q.op) q.addr.toNat
  match decodeAddr s q.m r q.addr.toNat with
  | .dram ch a k =>
    let x := s.dsub (subKey ch a)
    if q.addr.toNat % 64 + q.size > 64 then sees (s.ans .targetError)
    else if (if q.op = .write then x.writes.length else x.reads.length) ≥ 64 then s
    else match meeJudge s q.m ch a k with
      | (some e, s) => sees (s.ans e)
      | (none, s) =>
        if q.op = .write then
          if k ≠ 0 ∧ (dramSees s ch (metaWord s ch a)).word.v.toNat = 2 ^ 64 - 1 then
            sees (answered (dramWriteLine s q.m ch (a / 64 * 64) k []))
          else
            let pad := List.replicate (a / 8 % 8) ((⟨0, false⟩ : MWord), (0#8 : Byte))
            let ws := pad ++ reqWwords q
            let ws := ws ++ List.replicate (8 - ws.length) ((⟨0, false⟩ : MWord), (0#8 : Byte))
            (queueWrite s ch (a / 64) { q with data := ws.map (fun y => y.1), be := ws.map (fun y => y.2) }).ans .ok
        else queueRead s ch (a / 64) q
  | .none => sees (s.ans .decodeError)
  | .ctrl _ _ => s
  | .se _ _ _ => s
  | .fabric _ _ _ => s
  | .comp _ _ => s
  | .bank _ _ _ => s

/-- A request to DRAM. -/
def execDdrRequest (req : Req) (s : State) : Host.Outcome State Fault Refusal :=
  .next (s.ifIssued req (fun s => if s.debugShut req.m then s.ans .accessError else ddrRequest s req))

/-- The request is the oldest of its bank, where the bank is in in-order mode (R353). -/
def inOrderOk (s : State) (ch : Nat) (x : DSub) (r : DReq) : Bool :=
  let b := bankOf s ch r.line
  !x.inOrder.any (fun y => y.1 == b)
    || (x.reads ++ x.writes).all (fun y => bankOf s ch y.line != b || decide (r.seq ≤ y.seq))

/-- The request hits an open row (R352). -/
def rowHit (s : State) (ch : Nat) (x : DSub) (r : DReq) : Bool :=
  SMap.get (fun _ => none) x.rows (bankOf s ch r.line) == some (rowOf s ch r.line)

/-- Whether one read goes before another (R351, R352): the lower class, where a promoted request is of class 0 and goes
first, oldest first; then a row hit; then the older. -/
def goesBefore (s : State) (ch : Nat) (x : DSub) (a b : DReq) : Bool :=
  let ca := if a.prom then 0 else a.cls + 1
  let cb := if b.prom then 0 else b.cls + 1
  if ca ≠ cb then decide (ca < cb)
  else if a.prom then decide (a.seq < b.seq)
  else
    let ha := rowHit s ch x a
    let hb := rowHit s ch x b
    if ha != hb then ha else decide (a.seq < b.seq)

/-- The best of some requests. -/
def pickReq (before : DReq → DReq → Bool) : List DReq → Option DReq
  | [] => none
  | r :: l => match pickReq before l with
    | some b => if before b r then some b else some r
    | none => some r

/-- The write that leads an in-order bank may be served among the reads, since a read waits for it (R353). -/
def readChoice (s : State) (ch : Nat) (x : DSub) : Option DReq :=
  pickReq (goesBefore s ch x)
    ((x.reads.filter (inOrderOk s ch x)) ++
      x.writes.filter (fun r => inOrderOk s ch x r && x.inOrder.any (fun y => y.1 == bankOf s ch r.line)))

/-- The oldest write that may be served. -/
def writeChoice (s : State) (ch : Nat) (x : DSub) : Option DReq :=
  pickReq (fun a b => decide (a.seq < b.seq)) (x.writes.filter (inOrderOk s ch x))

/-- Open the row of a served line, counting a row hit. -/
def openRow (s : State) (ch : Nat) (k : Nat) (r : DReq) : State :=
  let x := s.dsub k
  let s := if rowHit s ch x r then ddrCnt s ch 2 else s
  s.setDsub k { x with rows := SMap.set (fun _ => none) x.rows (bankOf s ch r.line) (some (rowOf s ch r.line)) }

/-- Serve a read: its words go to the requester (R352). -/
def serveRead (s : State) (ch k : Nat) (r : DReq) : State :=
  let s := openRow s ch k r
  let x := s.dsub k
  let s := s.setDsub k { x with reads := x.reads.filter (fun y => y.seq != r.seq) }
  let a := r.req.addr.toNat
  let (l, s) := dramReadLine s r.req.m ch (r.line * 64) (a / 2 ^ 48 % 64)
  { s with reply := ⟨.ok, (l.drop (a / 8 % 8)).take (reqWords r.req)⟩ }.coreSees r.req.m false a

/-- Serve a write; the drain goes on while more than 16 writes wait and no read is promoted (R352, R353). -/
def serveWrite (s : State) (ch k : Nat) (r : DReq) : State :=
  let s := openRow s ch k r
  let x := s.dsub k
  let ws := x.writes.filter (fun y => y.seq != r.seq)
  let s := s.setDsub k { x with
    writes := ws
    drain := x.drain && decide (16 < ws.length) && !x.reads.any (fun y => y.prom)
    inOrder := x.inOrder.filter (fun y => y.2 != r.seq) }
  (dramWriteLine s r.req.m ch (r.line * 64) (r.req.addr.toNat / 2 ^ 48 % 64) (r.req.data.zip r.req.be)).2

/-- The scheduler serves one request of a subchannel (R352). -/
def execDdrServe (die : Die) (ctl : Fin 2) (sub : Fin 2) (s : State) : Host.Outcome State Fault Refusal :=
  let ch := die.val * 2 + ctl.val
  let k := ch * 2 + sub.val
  let x := s.dsub k
  .next (if chServes s ch && chClocked s ch then
    match (if x.drain then writeChoice s ch x else readChoice s ch x) with
    | some r => if x.writes.any (fun y => y.seq == r.seq) then serveWrite s ch k r else serveRead s ch k r
    | none => s
  else s)

/-- A write drain starts: 48 writes wait, or no read does (R352). -/
def execWriteDrainStart (die : Die) (ctl : Fin 2) (sub : Fin 2) (s : State) : Host.Outcome State Fault Refusal :=
  let k := (die.val * 2 + ctl.val) * 2 + sub.val
  let x := s.dsub k
  .next (if (48 ≤ x.writes.length ∨ x.reads.isEmpty) ∧ ¬ x.writes.isEmpty then s.setDsub k { x with drain := true } else s)

/-- A request has waited longer than its class's AGE and is promoted (R351). -/
def execAgePromote (die : Die) (ctl : Fin 2) (sub : Fin 2) (seq : Nat) (s : State) : Host.Outcome State Fault Refusal :=
  let ch := die.val * 2 + ctl.val
  let k := ch * 2 + sub.val
  let x := s.dsub k
  let age (c : Nat) : Nat := s.g die (R.DDR_AGE.AGE ctl) / 256 ^ c % 256
  let hit (r : DReq) : Bool := r.seq == seq && !r.prom && age r.cls != 0
  .next (if (x.reads ++ x.writes).any hit then
    ddrCnt (s.setDsub k { x with
      reads := x.reads.map (fun r => if hit r then { r with prom := true } else r)
      writes := x.writes.map (fun r => if hit r then { r with prom := true } else r) }) ch 3
  else s)

/-! ## Training and refresh -/

/-- Training starts on an enabled channel (DDR_TRAIN_START, R354). -/
def trainStart (s : State) (d c : Nat) : State :=
  if s.on d (R.DDR_CFG.EN c) && !s.held d (Blk.ddr0 + c) && s.g d (R.DDR_STATUS.STATE c) == DdrState.off then
    s.p d (R.DDR_STATUS.STATE c) DdrState.training else s

/-- A channel finishes training (R354, R356). -/
def execTrainingDone (die : Die) (ctl : Fin 2) (temp : Byte) (s : State) : Host.Outcome State Fault Refusal :=
  .next (if s.g die (R.DDR_STATUS.STATE ctl) = DdrState.training then
    (s.p die (R.DDR_STATUS.STATE ctl) DdrState.ready).p die (R.DDR_STATUS.TRAIN_TEMP ctl) temp.toNat else s)

/-- A channel fails to train (R354). -/
def execTrainingFail (die : Die) (ctl : Fin 2) (s : State) : Host.Outcome State Fault Refusal :=
  .next (if s.g die (R.DDR_STATUS.STATE ctl) = DdrState.training then
    (s.p die (R.DDR_STATUS.STATE ctl) DdrState.failed).p die (R.DDR_EVT.TRAIN_FAIL ctl) 1 else s)

/-- All-bank refresh closes every row of the channel; no contents change (R355). -/
def execRefresh (die : Die) (ctl : Fin 2) (s : State) : Host.Outcome State Fault Refusal :=
  let k := (die.val * 2 + ctl.val) * 2
  .next (if s.g die (R.DDR_STATUS.STATE ctl) = DdrState.ready then
    let s := s.setDsub k { s.dsub k with rows := [] }
    s.setDsub (k + 1) { s.dsub (k + 1) with rows := [] }
  else s)

/-- A move of the die temperature by more than 20 °C brings an incremental retraining (R356). -/
def execTempRetrain (die : Die) (ctl : Fin 2) (temp : Byte) (s : State) : Host.Outcome State Fault Refusal :=
  let was := (BitVec.ofNat 8 (s.g die (R.DDR_STATUS.TRAIN_TEMP ctl))).toInt
  .next (if s.g die (R.DDR_STATUS.STATE ctl) = DdrState.ready ∧ 20 < (temp.toInt - was).natAbs then
    (ddrCnt (s.p die (R.DDR_STATUS.TRAIN_TEMP ctl) temp.toNat) (die.val * 2 + ctl.val) 5).p die (R.DDR_EVT.RETRAIN ctl) 1
  else s)

/-! ## Register writes of the controllers -/

/-- DDR_MAP_SUM: CRC-32C of the 16 map registers in offset order (R350). -/
def mapSum (s : State) (d : Nat) : Nat :=
  (crc32c ((List.range 16).flatMap (fun i => bytesLE 4 (s.g d (word (0x400100 + 4 * i)))))).toNat

/-- Two sets of ranges meet. -/
def overlaps (a n b m : Nat) : Bool := decide (a < b + m ∧ b < a + n)

/-- The checks made when EN of set `k` is written to 1 with a map word and its range as they stand (R350). -/
def mapEnableOk (s : State) (d k ctl : Nat) : Bool :=
  let mask := (R.DDR_MAP_CTL.CHMASK 0).of ctl
  let n := popcount 16 mask
  let base := s.g d (R.DDR_MAP_RNG.BASE k)
  let size := s.g d (R.DDR_MAP_RNG.SIZE k)
  decide (n = 1 ∨ n = 2 ∨ n = 4 ∨ n = 8 ∨ n = 16) && decide (size ≠ 0) && size % n == 0
    && (bitsOf 16 mask).all (fun c => s.channels.contains c)
    && decide (base + size ≤ 2048)
    && (List.range 8).all (fun j => j == k || !s.on d (R.DDR_MAP_CTL.EN j)
      || !overlaps base size (s.g d (R.DDR_MAP_RNG.BASE j)) (s.g d (R.DDR_MAP_RNG.SIZE j)))

/-- A grain that DDR_MAP_CTL may hold, and a size that DDR_MAP_RNG may hold. -/
def grainOk (v : Nat) : Bool := let g := (R.DDR_MAP_CTL.GRAIN_LOG2 0).of v; decide (8 ≤ g ∧ g ≤ 30)
def mapSizeOk (v : Nat) : Bool := decide ((R.DDR_MAP_RNG.SIZE 0).of v ≤ 2048)

/-- A write of DDR_MAP_CTLs (R350): an enabled set takes nothing but the clearing of EN. -/
def writeMapCtl (s : State) (w : Wr) : State :=
  let k := w.r.i
  let enNew := (R.DDR_MAP_CTL.EN 0).of w.new == 1
  let enOld := (R.DDR_MAP_CTL.EN 0).of w.old == 1
  let same := w.new % 2 ^ 31 == w.old % 2 ^ 31
  let ok := grainOk w.new && (if enOld then same else !enNew || mapEnableOk s w.d k w.new)
  if ok then
    let s := s.setReg w.d w.r w.new
    (s.p w.d R.DDR_MAP_SUM.CRC (mapSum s w.d)).ans .ok
  else s.ans .accessError

/-- A write of DDR_MAP_RNGs (R350). -/
def writeMapRng (s : State) (w : Wr) : State :=
  if mapSizeOk w.new && (!s.on w.d (R.DDR_MAP_CTL.EN w.r.i) || w.new == w.old) then
    let s := s.setReg w.d w.r w.new
    (s.p w.d R.DDR_MAP_SUM.CRC (mapSum s w.d)).ans .ok
  else s.ans .accessError

/-- A write to a register of a DDR block. -/
def writeDdr (s : State) (w : Wr) : State :=
  match w.r.id with
  | .DDR_CFG =>
    s.storeIf w ((R.DDR_CFG.EN 0).of w.new == (R.DDR_CFG.EN 0).of w.old || !s.stepDone w.d WStep.gsr)
  | .DDR_ECC_FLIP =>
    s.storeIf w (s.supervisor w.m && decide ((R.DDR_ECC_FLIP.DEV0 0).of w.new ≤ 9 ∧ (R.DDR_ECC_FLIP.DEV1 0).of w.new ≤ 9))
  | .DDR_MAP_CTL => writeMapCtl s w
  | .DDR_MAP_RNG => writeMapRng s w
  | _ => s.store w

/-! ## Keys -/

def setKstate (s : State) (ch k v : Nat) : State := s.p (chDie ch) ⟨(R.MEE_KSTATE.STATE (chCtl ch) (k / 8)).off, 4 * (k % 8), 3⟩ v

def setCurKey (s : State) (ch k : Nat) (v : BitVec 256) : State :=
  let m := s.mee ch
  s.setMee ch { m with cur := SMap.set (fun _ => 0) m.cur k v }
def setNextKey (s : State) (ch k : Nat) (v : BitVec 256) : State :=
  let m := s.mee ch
  s.setMee ch { m with nxt := SMap.set (fun _ => 0) m.nxt k v }
def nextKey (s : State) (ch k : Nat) : BitVec 256 := SMap.get (fun _ => 0) (s.mee ch).nxt k

/-- The engine of R364 or the initialisation of R362 is running. -/
def meeBusy (s : State) (ch : Nat) : Bool :=
  kstate s ch (s.g (chDie ch) (R.MEE_RK_CFG.KEYID (chCtl ch))) == Ks.rekeying || (s.mee ch).init.isSome

/-- What a command on one engine ends with before it acts (R362): 0 OK, 1 BAD_STATE, 2 BAD_ARG, 3 BUSY. -/
def meeCheck (s : State) (ch op k : Nat) : Nat :=
  let st := kstate s ch k
  if k = 0 ∨ op = 0 ∨ 7 < op then 2
  else if (op = 1 ∧ st ≠ Ks.empty) ∨ (op = 2 ∧ st ≠ Ks.active) ∨ (op = 3 ∧ st ≠ Ks.staged) ∨ (op = 4 ∧ st ≠ Ks.staged)
    ∨ (op = 5 ∧ st ≠ Ks.rekeyed) ∨ (op = 7 ∧ st = Ks.empty) then 1
  else if (op = 4 ∨ op = 7) ∧ meeBusy s ch then 3
  else 0

/-- BOUNDARY reaches END: the KeyID is re-keyed (R364). -/
def rekeyEnd (s : State) (ch k : Nat) : State :=
  let d := chDie ch
  let i := chCtl ch
  if s.g d (R.MEE_RK_END.LINE i) ≤ s.g d (R.MEE_RK_BOUND.LINE i) then
    (setKstate s ch k Ks.rekeyed).p d (R.MEE_EVT.REKEY_DONE i) 1 else s

/-- Apply a command to one engine (R362, R364). -/
def meeApply (s : State) (ch op k arg : Nat) (key : BitVec 256) (start stop : Nat) : State :=
  let d := chDie ch
  let i := chCtl ch
  if op = 1 then setKstate (setCurKey s ch k key) ch k Ks.active
  else if op = 2 then setKstate (setNextKey s ch k key) ch k Ks.staged
  else if op = 3 then setKstate (setNextKey s ch k 0) ch k Ks.active
  else if op = 4 then
    let s := (((s.p d (R.MEE_RK_START.LINE i) start).p d (R.MEE_RK_END.LINE i) stop).p d (R.MEE_RK_BOUND.LINE i) start).p d
      (R.MEE_RK_CFG.KEYID i) k
    rekeyEnd (setKstate s ch k Ks.rekeying) ch k
  else if op = 5 then setKstate (setNextKey (setCurKey s ch k (nextKey s ch k)) ch k 0) ch k Ks.active
  else if op = 6 then setKstate (setNextKey (setCurKey s ch k 0) ch k 0) ch k Ks.empty
  else s.setMee ch { s.mee ch with init := some (arg, k) }

/-- The key that MEE_KEY_DATA0 to 7 of an instance hold (R362). -/
def meeKeyData (s : State) (d i : Nat) : BitVec 256 :=
  BitVec.ofNat 256 (natBE ((List.range 8).flatMap (fun n => bytesLE 4 (s.g d (R.MEE_KEY_DATA.DATA i n)))))

/-- End a key command (R362): its result, the refusing instance, DONE with its event, and the key data zeroised. -/
def meeEnd (s : State) (d i res inst : Nat) : State :=
  let s := (((s.p d (R.MEE_KEY_STATUS.RESULT i) res).p d (R.MEE_KEY_STATUS.FAIL_INST i) inst).p d
    (R.MEE_KEY_STATUS.DONE i) 1).p d (R.MEE_KEY_STATUS.BUSY i) 0
  ((List.range 8).foldl (fun s n => s.p d (R.MEE_KEY_DATA.DATA i n) 0) s).p d (R.MEE_EVT.KEY_DONE i) 1

/-- A write of MEE_KEY_CMD (R362, R363). -/
def writeKeyCmd (s : State) (w : Wr) : State :=
  let d := w.d
  let i := w.r.i
  let dev := (R.MEE_KEY_CMD.SCOPE 0).of w.raw == 1
  let op := (R.MEE_KEY_CMD.OP 0).of w.raw
  let k := (R.MEE_KEY_CMD.KEYID 0).of w.raw
  let arg := (R.MEE_KEY_CMD.ARG 0).of w.raw
  if !(w.m.cls == .coreM || w.m.cls == .mgmt) || s.on d (R.MEE_KEY_STATUS.BUSY i) || (dev && !(d == s.head && i == 0)) then
    s.ans .accessError
  else
    let s := s.p d (R.MEE_KEY_CMD.OWNER i) w.m.rid
    let l := if dev then s.channels else [d * 2 + i]
    let key := meeKeyData s d i
    let start := s.g d (R.MEE_RK_START.LINE i)
    let stop := s.g d (R.MEE_RK_END.LINE i)
    (match l.find? (fun ch => meeCheck s ch op k != 0) with
    | some ch => meeEnd s d i (meeCheck s ch op k) (if dev then ch else 0)
    | none =>
      let s := l.foldl (fun s ch => meeApply s ch op k arg key start stop) s
      if op = 7 then
        let s := s.setMee (d * 2 + i) { s.mee (d * 2 + i) with device := dev }
        s.p d (R.MEE_KEY_STATUS.BUSY i) 1
      else meeEnd s d i 0 0).ans .ok

/-- The places that a window write would occupy: the data range, then the metadata range, in units of 4 MiB (R358). -/
def protRanges (v : Nat) : List (Nat × Nat) :=
  let base := (R.MEE_PROT.BASE 0 0).of v * 4
  let size := (R.MEE_PROT.SIZE 0 0).of v
  [(base, size * 4), ((R.MEE_PROT.META 0 0).of v * 4, size)]

/-- A write of MEE_PROTw (R358): refused for an enabled window, for a size that is no multiple of 4 units, and where it would
make windows or metadata regions overlap. -/
def writeProt (s : State) (w : Wr) : State :=
  let en (v : Nat) : Bool := (R.MEE_PROT.EN 0 0).of v == 1
  let others := (List.range 4).flatMap (fun j =>
    let v := s.reg w.d ⟨.MEE_PROT, w.r.i, j⟩
    if j ≠ w.r.j ∧ en v then protRanges v else [])
  let mine := protRanges w.new
  let clash := en w.new && (mine.any (fun a => others.any (fun b => overlaps a.1 a.2 b.1 b.2))
    || (match mine with
      | [a, b] => overlaps a.1 a.2 b.1 b.2
      | _ => false))
  s.storeIf w (!(en w.old && w.new != w.old) && (R.MEE_PROT.SIZE 0 0).of w.new % 4 == 0 && !clash)

/-- A write to a register of the MEE block (R358, R362). -/
def writeMee (s : State) (w : Wr) : State :=
  match w.r.id with
  | .MEE_PROT => writeProt s w
  | .MEE_KEY_DATA => s.storeIf w (w.m.cls == .coreM || w.m.cls == .mgmt)
  | .MEE_KEY_CMD => writeKeyCmd s w
  | .MEE_RK_START => s.storeIf w (kstate s (w.d * 2 + w.r.i) (s.g w.d (R.MEE_RK_CFG.KEYID w.r.i)) != Ks.rekeying)
  | .MEE_RK_END => s.storeIf w (kstate s (w.d * 2 + w.r.i) (s.g w.d (R.MEE_RK_CFG.KEYID w.r.i)) != Ks.rekeying)
  | _ => s.store w

/-- Write every line of a window as zeros under the KeyID's current key with counter 0 (R362 INIT). -/
def initWindow (s : State) (ch w k : Nat) : State :=
  let d := chDie ch
  let i := chCtl ch
  let base := s.g d (R.MEE_PROT.BASE i w) * u16M
  let key := SMap.get (fun _ => 0) (s.mee ch).cur k
  if s.on d (R.MEE_PROT.EN i w) then
    (List.range (s.g d (R.MEE_PROT.SIZE i w) * u16M / 64)).foldl (fun s j =>
      encStore s ch (base + 64 * j) k 0 key (List.replicate 8 ⟨0, false⟩)) s
  else s

/-- Window initialisation completes on one engine; the command ends when every engine it runs on is done (R362, R363). -/
def execMeeInitDone (die : Die) (inst : Fin 2) (s : State) : Host.Outcome State Fault Refusal :=
  let ch := die.val * 2 + inst.val
  .next (match (s.mee ch).init with
    | some (w, k) =>
      let s := initWindow s ch w k
      let s := s.setMee ch { s.mee ch with init := none }
      let h := s.head * 2
      if (s.mee h).device && s.on s.head (R.MEE_KEY_STATUS.BUSY 0) then
        if s.channels.all (fun c => (s.mee c).init.isNone) then
          meeEnd (s.setMee h { s.mee h with device := false }) s.head 0 0 0
        else s
      else if s.on die (R.MEE_KEY_STATUS.BUSY inst) then meeEnd s die inst 0 0
      else s
    | none => s)

/-- The re-key engine takes one line (R364): it reads it under the current key, writes it under the next key with counter 0,
and moves BOUNDARY. It pauses while its engine or controller is in reset (R365). -/
def execRekeyLine (die : Die) (inst : Fin 2) (s : State) : Host.Outcome State Fault Refusal :=
  let d := die.val
  let i := inst.val
  let ch := d * 2 + i
  let k := s.g d (R.MEE_RK_CFG.KEYID i)
  let line := s.g d (R.MEE_RK_BOUND.LINE i)
  .next (if kstate s ch k = Ks.rekeying ∧ line < s.g d (R.MEE_RK_END.LINE i) ∧ chServes s ch ∧ chClocked s ch
      ∧ s.held d (Blk.ddr0 + i) = false ∧ s.held d (Blk.mee0 + i) = false then
    let a := line * 64
    let s := serveWrites s ch a
    let s := if (protWindow s ch a).isSome then
        let (ws, _, _, s) := encRead (ddrCnt s ch 0) (s.parserMaster d) ch a k
        encStore (ddrCnt s ch 1) ch a k 0 (nextKey s ch k) ws
      else s
    rekeyEnd (meeCnt (s.p d (R.MEE_RK_BOUND.LINE i) (line + 1)) ch 4) ch k
  else s)

/-- Zeroise every key of every engine (R134, R365): every KeyID is EMPTY, the engines stop, and a running command ends with
TAMPER_ABORT. -/
def zeroiseKeys (s : State) : State :=
  s.channels.foldl (fun s ch =>
    let d := chDie ch
    let i := chCtl ch
    let s := s.setMee ch MeeSt.reset
    let s := (List.range 8).foldl (fun s j => s.p d (R.MEE_KSTATE.STATE i j) 0) s
    if s.on d (R.MEE_KEY_STATUS.BUSY i) then meeEnd s d i 4 0
    else (List.range 8).foldl (fun s n => s.p d (R.MEE_KEY_DATA.DATA i n) 0) s) s

end Sys2Proof.Machine
end

