-- ==== Sys2Proof/Machine/Fabric.lean ====
section
/-!
DEFINITION. The logic fabric (06_logic_fabric, 07_fabric_memory_and_arithmetic): flip-flops, shift registers and distributed RAM
(R138 to R146), block memories (R167 to R175), arithmetic slices (R176 to R180), crossing lines (R151 to R153) and the user
event lines (R429). A command of this file is one edge of the clock that the primitive runs on.
-/

namespace Sys2Proof.Machine

/-! ## Sites and fences -/

/-- The number of a tile (R138). -/
def tileNum (t : Tile) : Nat := t.y.val * 400 + t.x.val

/-- A region holds a tile (R198, R199): its frame column is x div 5. -/
def regionTile (s : State) (d r x y : Nat) : Bool :=
  s.on d (R.FAB_PR_GEOM.VALID r)
    && decide (s.g d (R.FAB_PR_GEOM.FC_LO r) ≤ x / 5 ∧ x / 5 ≤ s.g d (R.FAB_PR_GEOM.FC_HI r))
    && decide (s.g d (R.FAB_PR_GEOM.ROW_LO r) ≤ y / 64 ∧ y / 64 ≤ s.g d (R.FAB_PR_GEOM.ROW_HI r))

/-- What the image declares of a region, if it declares it. -/
def regionDecl (s : State) (d r : Nat) : Option RegionDecl := ((s.designOf d).regions.find? (fun x => x.1 == r)).map (fun x => x.2)

/-- A tile lies in a region whose fence is closed (R200, R201). -/
def tileFenced (s : State) (d x y : Nat) : Bool :=
  (List.range 32).any (fun r => s.regionFenced d r && regionTile s d r x y)

/-- A hard primitive lies in a region whose fence is closed; `f` gives a region's primitives of its kind (R198). -/
def siteFenced (s : State) (d k : Nat) (f : RegionDecl → List Nat) : Bool :=
  (List.range 32).any (fun r => s.regionFenced d r &&
    match regionDecl s d r with
    | some x => (f x).contains k
    | none => false)

/-- The die is in RUN and holds a design: its fabric clocks can run (R164). -/
def fabClocked (s : State) (d : Nat) : Bool := s.present d && !s.belowRun d

/-- The Parsers are writing configuration memory of the die: a full load, or a partial load that names it (R146, R175, R206). -/
def fabWritten (s : State) (d : Nat) : Bool :=
  s.cfg.parse.kind == .full || (s.cfg.parse.kind == .partialLoad && s.cfg.parse.touched.getLsbD d)

/-- Writes of the fabric's memories are enabled on the die (R146, R175): the GWE step is done and configuration memory is not being
written. -/
def fabWrites (s : State) (d : Nat) : Bool := s.stepDone d WStep.gwe && !fabWritten s d

/-- The region of a tile (R138). -/
def regionOfTile (t : Tile) : Nat := t.x.val / 40 + 10 * (t.y.val / 64)

/-! ## Function generators (R139, R143, R144) -/

/-- What the image makes of a cell; one that it does not use is in F6 mode with a table of zeros. -/
def cellCfg (s : State) (d k : Nat) : CellCfg :=
  (((s.designOf d).cells.find? (fun x => x.1 == k)).map (fun x => x.2)).getD ⟨.f6, 0, false, false, .mem64⟩

/-- I5..I0 of a cell of a tile. -/
def tileAddr (x : TileIn) (c : Nat) : Nat := ((x.i.toArray[c]?).getD 0).toNat

/-- The cells that a write of distributed RAM reaches, given the write cell (R144); none where the mode has no group with that
write cell. Address bits above [5:0] count cells from the lowest (notes/assumptions/40.md). -/
def ramCells (mode : MemMode) (cell addr : Nat) : List Nat :=
  match mode with
  | .mem64 => [cell]
  | .mem64d => if cell % 2 = 1 then [cell - 1, cell] else []
  | .mem64q => if cell % 4 = 3 then [cell - 3, cell - 2, cell - 1, cell] else []
  | .mem128 => if cell % 2 = 1 then [cell - 1 + addr / 64 % 2] else []
  | .mem256 => if cell % 4 = 3 then [cell - 3 + addr / 64 % 4] else []
  | .mem512 => if cell = 7 then [addr / 64 % 8] else []

/-- The cells of a group. -/
def ramGroup (mode : MemMode) (cell : Nat) : List Nat :=
  match mode with
  | .mem64 => [cell]
  | .mem64d => [cell - 1, cell]
  | .mem64q => [cell - 3, cell - 2, cell - 1, cell]
  | .mem128 => [cell - 1, cell]
  | .mem256 => [cell - 3, cell - 2, cell - 1, cell]
  | .mem512 => [0, 1, 2, 3, 4, 5, 6, 7]

/-- The address that a write cell's inputs form (R144): I5..I0, and above them XB of the cells that the organisation names. -/
def ramAddr (mode : MemMode) (c : Nat) (x : TileIn) : Nat :=
  let b (n : Nat) : Nat := if x.xb.getLsbD n then 1 else 0
  tileAddr x c + 64 * (match mode with
    | .mem128 => b c
    | .mem256 => b (c - 1) + 2 * b c
    | .mem512 => b 5 + 2 * b 6 + 4 * b 7
    | .mem64 => 0
    | .mem64d => 0
    | .mem64q => 0)

/-- What a cell's outputs present that no rule gives, HOUT in SHIFT and MEM modes and FOUT of a cell of a wide group that is not its write
cell: a free value (notes/assumptions/3.md). -/
def cellOpen (d k n : Nat) : Bool := (Config.undefWord (5000 + d) 0 k).getLsbD n

/-- FOUT of a cell (R139, R143, R144); `x` holds the inputs of its tile. -/
def fout (s : State) (d base c : Nat) (x : TileIn) : Bool :=
  let g := cellCfg s d (base + c)
  let v := s.lut d (base + c)
  match g.mode with
  | .f6 => v.getLsbD (tileAddr x c)
  | .f5pair => v.getLsbD (32 + tileAddr x c % 32)
  | .shift => v.getLsbD (tileAddr x c)
  | .mem =>
    if g.mem == .mem64 || g.mem == .mem64d || g.mem == .mem64q then v.getLsbD (tileAddr x c)
    else match ramCells g.mem c (ramAddr g.mem c x) with
      | k :: _ => (s.lut d (base + k)).getLsbD (tileAddr x c)
      | [] => cellOpen d (base + c) 1

/-- HOUT of a cell (R139). -/
def hout (s : State) (d base c : Nat) (x : TileIn) : Bool :=
  let g := cellCfg s d (base + c)
  if g.mode == .f6 || g.mode == .f5pair then (s.lut d (base + c)).getLsbD (tileAddr x c % 32) else cellOpen d (base + c) 0

/-! ## Carry (R142) -/

/-- SUM of a cell's carry stage. -/
def carrySum (s : State) (d base c : Nat) (x : TileIn) (ci : Bool) : Bool := xor (fout s d base c x) ci

/-- CO of a cell's carry stage. -/
def carryOut (s : State) (d base c : Nat) (x : TileIn) (ci : Bool) : Bool :=
  if fout s d base c x then ci
  else if (cellCfg s d (base + c)).genXb then x.xb.getLsbD c
  else hout s d base c x

/-- The carry into cell `n` of a tile whose cell 0 takes `ci`. -/
def carryUp (s : State) (d base : Nat) (x : TileIn) (ci : Bool) (n : Nat) : Bool :=
  (List.range n).foldl (fun b c => carryOut s d base c x b) ci

/-- CI of cell 0 of the tile in column `x`, row `y`; `ins` holds the inputs of its cells, then of the tiles below it. -/
def carryIn (s : State) (d x : Nat) : List TileIn → Nat → Bool
  | [], _ => false
  | i :: l, y =>
    match (((s.designOf d).carry.find? (fun e => e.1 == y * 400 + x)).map (fun e => e.2)).getD .zero with
    | .zero => false
    | .one => true
    | .xa => i.xa.getLsbD 0
    | .below =>
      match y, l with
      | 0, _ => false
      | _ + 1, [] => false
      | y + 1, j :: l => carryUp s d ((y * 400 + x) * 8) j (carryIn s d x (j :: l) y) 8

/-! ## Flip-flops (R140, R141) -/

/-- The control set of a half-tile, if the image uses it (R140). -/
def halfCfg (s : State) (d : Nat) (t : Tile) (h : Nat) : Option HalfCfg :=
  ((s.designOf d).halves.find? (fun x => x.1 == tileNum t * 2 + h)).map (fun x => x.2)

/-- The half-tile's CLK shows edges: its track runs and reaches its region (R149, R150). -/
def halfRuns (s : State) (d : Nat) (t : Tile) (h : Nat) : Bool :=
  fabClocked s d && match halfCfg s d t h with
    | some c => trackRuns s d c.clk && trackReaches s d (regionOfTile t) c.clk
    | none => false

/-- CE and SR of a half-tile, with the constants that its control set gives (R140). -/
def halfCe (s : State) (d : Nat) (t : Tile) (h : Nat) (ce : Bool) : Bool :=
  match halfCfg s d t h with
  | some c => c.ceOne || ce
  | none => false
def halfSr (s : State) (d : Nat) (t : Tile) (h : Nat) (sr : Bool) : Bool :=
  match halfCfg s d t h with
  | some c => !c.srZero && sr
  | none => false

/-- SR of the half-tile acts without waiting for an edge (R140). -/
def halfAsync (s : State) (d : Nat) (t : Tile) (h : Nat) : Bool :=
  match halfCfg s d t h with
  | some c => !c.srZero && !c.srSync
  | none => false

/-- The design's values of a flip-flop; without a declaration SRVAL and INIT are 0 and D is the function output. -/
def ffCfg (s : State) (d k : Nat) : FfCfg :=
  (((s.designOf d).ffs.find? (fun x => x.1 == k)).map (fun x => x.2)).getD ⟨false, false, .func⟩

/-- The half-tile of flip-flop `ff` of a tile: four cells of two flip-flops each. -/
def ffHalf (ff : Fin 16) : Nat := ff.val / 8

/-- D of a flip-flop (R141): FFA, the even ones, takes FOUT, the carry sum or XA; FFB takes HOUT, the carry out or XB. -/
def ffD (s : State) (d : Nat) (t : Tile) (ff : Fin 16) (ins : List TileIn) : Bool :=
  match ins with
  | [] => false
  | x :: _ =>
    let base := tileNum t * 8
    let c := ff.val / 2
    let ci := carryUp s d base x (carryIn s d t.x.val ins t.y.val) c
    let a := ff.val % 2 == 0
    match (ffCfg s d (tileNum t * 16 + ff)).d with
    | .func => if a then fout s d base c x else hout s d base c x
    | .carry => if a then carrySum s d base c x ci else carryOut s d base c x ci
    | .bypass => if a then x.xa.getLsbD c else x.xb.getLsbD c

/-- What a cell presents: FOUT, HOUT, SUM and CO. -/
def cellReply (s : State) (d : Nat) (t : Tile) (c : Nat) (ins : List TileIn) : List DWord :=
  match ins with
  | [] => []
  | x :: _ =>
    let base := tileNum t * 8
    let ci := carryUp s d base x (carryIn s d t.x.val ins t.y.val) c
    [fout s d base c x, hout s d base c x, carrySum s d base c x ci, carryOut s d base c x ci].map (fun b => if b then 1 else 0)

/-- The next value of a flip-flop on an edge (R141): with SR it takes SRVAL, with CE it takes D. -/
def ffNext (c : FfCfg) (q sr ce d : Bool) : Bool := if sr then c.srval else if ce then d else q

/-- Flip-flops of a die that satisfy `p`, by key, take INIT (R141, R207). -/
def initFfs (s : State) (d : Nat) (p : Nat → Bool) : State :=
  let s := { s with fab := { s.fab with ff := SMap.keep s.fab.ff (fun k => !(k / 2 ^ 23 == d && p (k % 2 ^ 23))) } }
  ((s.designOf d).ffs.filter (fun x => p x.1)).foldl (fun s x => s.setFf d x.1 x.2.init) s

/-- A flip-flop on the active edge of its CLK (R141). While global set-reset holds it keeps INIT; in a fenced region it holds its value
(R201). After an SR that came too late the value is free; between the GSR and the GWE steps, where R74 holds the initial values and R146
does not, it is one of the two, freely (notes/assumptions/54.md). The reply gives what the cell presents before the edge. -/
def cellEdge (s : State) (d : Nat) (t : Tile) (ff : Fin 16) (ins : List TileIn) (ce sr late : Bool) : State :=
  let k := tileNum t * 16 + ff
  let h := ffHalf ff
  let c := ffCfg s d k
  let out := cellReply s d t (ff.val / 2) ins
  let q := ffNext c (s.ff d k) (halfSr s d t h sr) (halfCe s d t h ce) (ffD s d t ff ins)
  (if !halfRuns s d t h || tileFenced s d t.x t.y then s
    else if s.held d Blk.gsr then s.setFf d k c.init
    else if late && halfAsync s d t h then
      let (v, s) := s.free 1
      s.setFf d k (v.getLsbD 0)
    else if !s.stepDone d WStep.gwe then
      let (v, s) := s.free 1
      s.setFf d k (if v.getLsbD 0 then q else s.ff d k)
    else s.setFf d k q).ansData .ok out

/-! ## I/O cells (R154, R156, R158) -/

/-- What the image makes of a pin, if it uses it. -/
def pinCfg (s : State) (d p : Nat) : Option IoCfg := ((s.designOf d).pins.find? (fun x => x.1 == p)).map (fun x => x.2)

/-- The bank of a pin: HSIO banks 0 and 1 of 48 pins, HS3 bank 2. -/
def pinBank (p : Nat) : Nat := p / 48

/-- The fenced region that an output pin lies in (R200). -/
def pinFence (s : State) (d p : Nat) : Option Nat :=
  (List.range 32).find? (fun r => s.regionFenced d r &&
    match regionDecl s d r with
    | some x => x.pins.contains p
    | none => false)

/-- A register of an I/O cell after an edge: the rising edge loads the first, the falling edge of a DDR register the second; a cell without
the register passes its input. -/
def ioRegA (k : IoReg) (fall v cur : Bool) : Bool := if k == .none then v else if fall then cur else v
def ioRegB (k : IoReg) (fall v cur : Bool) : Bool := if k == .ddr && fall then v else cur

/-- An I/O cell after an edge (R154, R156). -/
def ioNext (c : IoCfg) (r : IoCell) (x : IoDrive) : IoCell :=
  let outA := ioRegA c.outReg x.fall x.o r.outA
  let outB := ioRegB c.outReg x.fall x.o r.outB
  let oeA := ioRegA c.oeReg x.fall x.oe r.oeA
  let oeB := ioRegB c.oeReg x.fall x.oe r.oeB
  let level := if x.fall && c.outReg == .ddr then outB else outA
  let ena := if x.fall && c.oeReg == .ddr then oeB else oeA
  { inA := ioRegA c.inReg x.fall x.pad r.inA
    inB := ioRegB c.inReg x.fall x.pad r.inB
    outA := outA, outB := outB, oeA := oeA, oeB := oeB
    ser := if 1 < c.ratio then x.ser else r.ser
    des := if 1 < c.ratio then x.des else r.des
    inTap := if c.dyn then x.inTap else c.inTap
    outTap := if c.dyn then x.outTap else c.outTap
    on := ena && c.output
    keep := if ena && c.output then level else r.keep }

/-- What a pin shows outward. -/
inductive PinOut where
  | highZ | drive (v : Bool) | pull (v : Bool)
  deriving DecidableEq, Repr

/-- A resting pin (R158, R200); `keep` is the level that KEEP holds. -/
def restOut (r : Rest) (keep : Bool) : PinOut :=
  match r with
  | .highZ => .highZ
  | .low => .drive false
  | .high => .drive true
  | .keep => .drive keep

/-- What an output pin shows (R158): high impedance before GOE, with its bank's rail absent and in Lockdown; its SLEEP value in COLON and
FULL_STOP; the fence value in a fenced region; otherwise what the fabric drives, through the open drain, with the pull of an HS3 pin that
is not driven (R156). -/
def pinOut (s : State) (d p : Nat) : PinOut :=
  let r := s.ioOf d p
  match pinCfg s d p with
  | none => .highZ
  | some c =>
    if !railOn s d (pinBank p) then .highZ
    else match s.pinsOf d with
      | .highZ => .highZ
      | .sleep => if c.output then restOut c.sleep r.keep else .highZ
      | .fabric =>
        match pinFence s d p with
        | some q => if c.output then restOut c.fence ((s.prOf d q).pins.getLsbD p) else .highZ
        | none =>
          if r.on && !(c.odrain && r.keep) then .drive r.keep
          else match c.pull with
            | .none => .highZ
            | .up => .pull true
            | .down => .pull false
            | .keeper => .pull r.keep

/-- A pin's output as a reply: 0 and 1 driven, 2 and 3 pulled, 4 high impedance. -/
def PinOut.code : PinOut → DWord
  | .drive v => if v then 1 else 0
  | .pull v => if v then 3 else 2
  | .highZ => 4

/-- The registers of an I/O cell on an edge of its clock (R154, R156). Global set-reset and a fence hold them
(notes/assumptions/56.md). The reply gives what the pin shows after it. -/
def ioEdge (s : State) (d p : Nat) (x : IoDrive) : State :=
  let s := match pinCfg s d p with
    | some c =>
      if fabClocked s d && trackRuns s d c.clk && (pinFence s d p).isNone && !s.held d Blk.gsr then s.setIo d p (ioNext c (s.ioOf d p) x)
      else s
    | none => s
  s.ansData .ok [(pinOut s d p).code]

/-! ## Crossing lines (R151 to R153) -/

/-- The die that crossing lines of an edge reach. Toward die 7 of a PX8C there are some only if the companion declares them, bit 4
of its capabilities (R153, R333, R339). -/
def crossingTo (s : State) (d e : Nat) : Option Nat :=
  match s.neighbour d e with
  | some n =>
    let companion := s.dev.part == .px8c && n == 7 && s.edgeState d e == Edge.up && s.bit d (R.BDL_CAPS.CAPS e) 4
    if s.present d && (s.present n || companion) then some n else none
  | none => none

/-- A die has passed the GSR step; the companion counts as a die in RUN (R339). -/
def pastGsr (s : State) (d : Nat) : Bool := !s.present d || s.stepDone d WStep.gsr

/-- The groups of an edge (R151): 45 for each region that borders the neighbour, 12 regions on an X edge and 10 on a Y edge. -/
def xingGroups (e : Nat) : Nat := if e < 2 then 540 else 450

def xingKey (d e g : Nat) : Nat := (d * 4 + e) * 1024 + g
/-- A group on its receiving side. -/
def State.xing (s : State) (k : Nat) : XingSt := SMap.get (fun _ => XingSt.reset) s.fab.xing k
def State.setXing (s : State) (k : Nat) (v : XingSt) : State :=
  { s with fab := { s.fab with xing := SMap.set (fun _ => XingSt.reset) s.fab.xing k v } }

/-- What the image makes of a group, if it uses it. -/
def xingDecl (s : State) (d e g : Nat) : Option XingDecl :=
  ((s.designOf d).xings.find? (fun x => x.1 == e * 1024 + g)).map (fun x => x.2)

/-- Groups of the edge are up (R152). -/
def xingUp (s : State) (d e : Nat) : Bool := s.bit d R.FAB_XING_STATUS.LINK_UP e && (crossingTo s d e).isSome

/-- The group is sent from a region whose fence is closed (R200). -/
def xingFenced (s : State) (d e g : Nat) : Bool := siteFenced s d (e * 1024 + g) RegionDecl.xings

/-- The word that a group holds last on its receiving side. -/
def XingSt.last (x : XingSt) : Word := (x.fifo.getLast?).getD x.word

/-- The send side of a group on an edge of its clock (R151): a SYNC group stores a word in the elastic register of the far side, an ASYNC
group, while VALID is given and there is room, in its FIFO. From a fenced region the lines carry their safe value (R200). Toward an
isolated or absent die, or before the groups are up, the word is discarded (R153). The reply says whether the far side has room. -/
def xingSend (s : State) (d e g : Nat) (word : Word) (valid : Bool) : State :=
  match crossingTo s d e, xingDecl s d e g with
  | some n, some c =>
    let k := xingKey n (farEdge e) g
    let x := s.xing k
    let word := if xingFenced s d e g then (match c.safe with
        | .zero => 0
        | .one => BitVec.allOnes 32
        | .hold => x.last) else word
    if fabClocked s d && clkRuns s d c.clk && xingUp s d e && s.present n && decide (g < xingGroups e) then
      if c.sync then (if x.stopped || decide (4 ≤ x.fifo.length) then s else s.setXing k { x with fifo := x.fifo ++ [word] })
      else if valid && decide (x.fifo.length < 8) then
        (s.setXing k { x with fifo := x.fifo ++ [word &&& 0x7FFFFFFF#32] }).ansData .ok [1]
      else s.ansData .ok [if x.fifo.length < 8 then 1 else 0]
    else s
  | _, _ => s

/-- The receive side of a group on an edge of its clock (R151 to R153): a SYNC group presents the next word, or its last one where there is
none; an ASYNC group shows VALID while its FIFO holds a word, and READY takes it. It presents zero before its first word, and toward an
isolated or absent die. -/
def xingRecv (s : State) (d e g : Nat) (ready : Bool) : State :=
  match xingDecl s d e g with
  | some c =>
    let k := xingKey d e g
    let x := s.xing k
    if fabClocked s d && clkRuns s d c.clk && decide (g < xingGroups e) then
      if !xingUp s d e then s.ansData .ok [0, 0]
      else
        match x.fifo with
        | w :: l =>
          if c.sync then (if x.stopped then s.ansData .ok [x.word.zeroExtend 64, 1]
            else (s.setXing k { x with word := w, fifo := l }).ansData .ok [w.zeroExtend 64, 1])
          else (if ready then s.setXing k { x with word := w, fifo := l } else s).ansData .ok [w.zeroExtend 64, 1]
        | [] => s.ansData .ok [if c.sync then x.word.zeroExtend 64 else 0, if c.sync then 1 else 0]
    else s
  | none => s

/-- Every group of an edge of a die presents zero and holds nothing. -/
def xingClear (s : State) (d e : Nat) : State :=
  { s with fab := { s.fab with xing := SMap.keep s.fab.xing (fun k => k / 1024 != d * 4 + e) } }

/-- Crossing groups of an edge come up once both dies have passed the GSR step (R152); until its first word comes a group presents zero. -/
def execXingGroupUp (die : Die) (edge : Fin 4) (s : State) : Host.Outcome State Fault Refusal :=
  .next (match crossingTo s die edge with
    | some n =>
      if pastGsr s die ∧ pastGsr s n ∧ s.bit die R.FAB_XING_STATUS.LINK_UP edge = false then
        let s := (xingClear s die edge).setBit die R.FAB_XING_STATUS.LINK_UP edge
        if s.present n then (xingClear s n (farEdge edge)).setBit n R.FAB_XING_STATUS.LINK_UP (farEdge edge) else s
      else s
    | none => s)

/-- A SYNC group that is up on the receiving die, whose clock there runs. -/
def xingSync (s : State) (d e g : Nat) : Bool :=
  fabClocked s d && xingUp s d e && match xingDecl s d e g with
    | some c => c.sync && clkRuns s d c.clk && decide (g < xingGroups e)
    | none => false

/-- The send side of the group lies in a fenced region of the die across the edge. -/
def xingFarFenced (s : State) (d e g : Nat) : Bool :=
  match s.neighbour d e with
  | some n => xingFenced s n (farEdge e) g
  | none => false

/-- The send clock of a SYNC group stops while its receive clock runs (R153): it presents its last word, and UNDERRUN is set. A group sent
from a fenced region keeps its status (R200). -/
def execXingUnderrun (die : Die) (edge : Fin 4) (group : Fin 540) (s : State) : Host.Outcome State Fault Refusal :=
  let k := xingKey die edge group
  let x := s.xing k
  .next (if xingSync s die edge group && !xingFarFenced s die edge group then
    (s.setBit die R.FAB_XING_STATUS.UNDERRUN edge).setXing k { x with word := x.last, fifo := [], stopped := true } else s)

/-- The group has re-centred after its send clock returned; the words sent in the meantime are lost (R153). -/
def execXingRecentre (die : Die) (edge : Fin 4) (group : Fin 540) (s : State) : Host.Outcome State Fault Refusal :=
  let k := xingKey die edge group
  .next (if xingSync s die edge group && !xingFarFenced s die edge group then
    s.setXing k { s.xing k with fifo := [], stopped := false } else s)

/-! ## Clocked sites -/

/-- A clocked site of the fabric on the edge of its clock: a flip-flop (R141), the registers of an I/O cell (R154, R156), or a registered
end of a crossing-line group (R151). -/
def execFlipFlopEdge (die : Die) (site : FfSite) (ins : List TileIn) (late : Bool) (s : State) : Host.Outcome State Fault Refusal :=
  .next (match site with
    | .cell tile ff ce sr => cellEdge s die tile ff ins ce sr late
    | .io pin drive => ioEdge s die pin drive
    | .send edge group word valid => xingSend s die edge group word valid
    | .recv edge group ready => xingRecv s die edge group ready)

/-- An asynchronous SR sets a flip-flop without waiting for an edge (R141). -/
def execAsyncSetReset (die : Die) (tile : Tile) (ff : Fin 16) (s : State) : Host.Outcome State Fault Refusal :=
  let k := tileNum tile * 16 + ff
  .next (if !fabClocked s die || tileFenced s die tile.x tile.y || s.held die Blk.gsr || !halfAsync s die tile (ffHalf ff) then s
    else s.setFf die k (ffCfg s die k).srval)

/-! ## Function generators with contents (R143 to R146) -/

/-- The shift registers and distributed RAM of a half-tile take an edge of their write clock. -/
def cellWrites (s : State) (d : Nat) (t : Tile) (h : Nat) : Bool := halfRuns s d t h && fabWrites s d && !tileFenced s d t.x t.y

/-- A shift register after an edge: every stage moves up one place and stage 1, bit 0, takes the data input: XA, or stage 64, SHOUT, of the
cell below (R143). -/
def shiftNext (s : State) (d base c : Nat) (xa : Byte) : DWord :=
  let inp := if (cellCfg s d (base + c)).chain ∧ c ≠ 0 then (s.lut d (base + (c - 1))).getLsbD 63 else xa.getLsbD c
  (s.lut d (base + c) <<< 1) ||| (if inp then 1 else 0)

/-- The SHIFT cells of a tile's halves on an active edge of their CLK with CE (R143): all take what the edge finds, so cells that chain move
together. -/
def execShiftRegisterEdge (die : Die) (tile : Tile) (lower upper : Bool) (ce : BitVec 2) (xa : Byte) (s : State) :
    Host.Outcome State Fault Refusal :=
  let base := tileNum tile * 8
  let moves (c : Nat) : Bool := (if c < 4 then lower else upper) && cellWrites s die tile (c / 4)
    && halfCe s die tile (c / 4) (ce.getLsbD (c / 4)) && (cellCfg s die (base + c)).mode == .shift
  .next (((List.range 8).filter moves).foldl (fun t c => t.setLut die (base + c) (shiftNext s die base c xa)) s)

/-- A word with one bit replaced. -/
def putBit (v : DWord) (i : Nat) (b : Bool) : DWord := (v &&& ~~~ (1#64 <<< i)) ||| (if b then 1#64 <<< i else 0)

/-- Distributed RAM writes XA of the write cell at the write address (R144). The reply gives the data read there before the edge and after
it (R145). -/
def execDistributedRamWrite (die : Die) (tile : Tile) (cell : Fin 8) (i : Vector (BitVec 6) 8) (xa xb : Byte) (ce : Bool) (s : State) :
    Host.Outcome State Fault Refusal :=
  let ins : TileIn := ⟨i, xa, xb⟩
  let base := tileNum tile * 8
  let h := cell.val / 4
  let mode := (cellCfg s die (base + cell)).mem
  let addr := ramAddr mode cell ins
  let t := if cellWrites s die tile h && halfCe s die tile h ce && tile.x.val % 4 == 3
      && (ramGroup mode cell).all (fun c => (cellCfg s die (base + c)).mode == .mem) then
      (ramCells mode cell addr).foldl (fun s c =>
        s.setLut die (base + c) (putBit (s.lut die (base + c)) (addr % 64) (ins.xa.getLsbD cell))) s
    else s
  .next (t.ansData .ok [if fout s die base cell ins then 1 else 0, if fout t die base cell ins then 1 else 0])

/-! ## Block memories (R167 to R175) -/

/-- The attributes of a block memory that the image does not use: 512x72, OLD, no output register, one clock. -/
def bmPortPlain : BmPort := ⟨6, .old, false, 0⟩
def bmCfgPlain : BmCfg := ⟨bmPortPlain, bmPortPlain, .global 0, .global 0, false, [], 0, 0⟩

def bmCfg (s : State) (d k : Nat) : BmCfg := (((s.designOf d).bmems.find? (fun x => x.1 == k)).map (fun x => x.2)).getD bmCfgPlain

/-- The bits of DO that a port's aspect ratio uses (R167); above them DO is 0 (R159). -/
def bmMask (p : BmPort) (v : BitVec 72) : BitVec 72 :=
  let x := 2 ^ p.logW.val
  v &&& BitVec.ofNat 72 (2 ^ (if 8 ≤ x then x + x / 8 else x) - 1)

/-- The bits of the byte cells that a port's address names: byte cell and mask (R168). -/
def bmSpan (p : BmPort) (addr : Nat) : List (Nat × Nat) :=
  let x := 2 ^ p.logW.val
  let w := addr % (32768 / x)
  if 8 ≤ x then (List.range (x / 8)).map (fun b => (w * (x / 8) + b, 0x1FF))
  else [(w * x / 8, (2 ^ x - 1) * 2 ^ (w * x % 8))]

/-- The value of the bits of a span within DI or DO (R167): data low, extra bits high. -/
def bmPick (p : BmPort) (addr di b : Nat) : Nat :=
  let x := 2 ^ p.logW.val
  if 8 ≤ x then fld di (8 * b) 8 + 256 * fld di (x + b) 1
  else di % 2 ^ x * 2 ^ (addr % (32768 / x) * x % 8)

/-- The word that byte cells give at a span (R167). -/
def bmWord (p : BmPort) (addr : Nat) (cells : Nat → BitVec 9) : Nat :=
  let x := 2 ^ p.logW.val
  (bmSpan p addr).zipIdx.foldl (fun v e =>
    let c := (cells e.1.1).toNat
    if 8 ≤ x then v + c % 256 * 2 ^ (8 * e.2) + c / 256 * 2 ^ (x + e.2)
    else v + c / 2 ^ (addr % (32768 / x) * x % 8) % 2 ^ x) 0

/-- What a port writes: byte cell, mask and value (R169). With ECC the encoder or, with CHKWR, DI gives the check byte, and any
write enable writes the whole word (R171 to R173). -/
def bmPuts (c : BmCfg) (p : BmPort) (x : BmDrive) : List (Nat × Nat × Nat) :=
  let we := if c.ecc then (if x.we = 0 then 0#8 else 0xFF#8) else x.we
  let d := x.di.toNat % 2 ^ 64
  let di := if c.ecc ∧ !x.chkwr then d + 2 ^ 64 * (storedEcc (BitVec.ofNat 64 d) x.poison).toNat else x.di.toNat
  ((bmSpan p x.addr.toNat).zipIdx.filter (fun e => we.getLsbD e.2)).map (fun e =>
    (e.1.1, e.1.2, bmPick p x.addr.toNat di e.2))
where
  /-- The check byte of R171, inverted for poison (R172). -/
  storedEcc (v : DWord) (poison : Bool) : Byte := if poison then ~~~ secdedCheck v else secdedCheck v

/-- Write under a mask. -/
def bmPut (cells : SMap (BitVec 9)) (e : Nat × Nat × Nat) : SMap (BitVec 9) :=
  let old := (SMap.get (fun _ => 0#9) cells e.1).toNat
  SMap.set (fun _ => 0#9) cells e.1 (BitVec.ofNat 9 ((old &&& (0x1FF - e.2.1)) ||| (e.2.2 &&& e.2.1)))

/-- Two lists of masked byte cells share a bit. -/
def bmMeet (a b : List (Nat × Nat)) : Bool := a.any (fun x => b.any (fun y => x.1 == y.1 && x.2 &&& y.2 != 0))

/-- DO and the flags (corrected, uncorrectable, poison) that a raw word gives (R171). -/
def bmDecode (ecc : Bool) (v : Nat) : BitVec 72 × BitVec 3 :=
  if ecc then
    let d := BitVec.ofNat 64 v
    let syn := synOf ((secdedCheck d).toNat ^^^ v / 2 ^ 64 % 256)
    let chk := v / 2 ^ 64 % 256 * 2 ^ 64
    (BitVec.ofNat 72 ((match syn with
        | .data _ => (synWord d syn).v.toNat
        | .clean => d.toNat
        | .check => d.toNat
        | .poison => d.toNat
        | .bad => d.toNat) + chk),
      match syn with
      | .clean => 0
      | .check => 1
      | .data _ => 1
      | .poison => 6
      | .bad => 2)
  else (BitVec.ofNat 72 v, 0)

/-- A port's part of an operation: what it reads and writes after enable, cascade and the gate on writes. -/
structure BmAct where
  on   : Bool
  span : List (Nat × Nat)
  puts : List (Nat × Nat × Nat)
  deriving DecidableEq, Repr

/-- CASC_ADDR of a port addresses the block (R174); a value of N or above addresses none. -/
def bmChosen (c : BmCfg) (x : BmDrive) : Bool := c.chain.val == 0 || x.casc == c.place

def bmAct (c : BmCfg) (p : BmPort) (x : Option BmDrive) (writes : Bool) : BmAct :=
  match x with
  | some x =>
    let on := x.en && bmChosen c x
    ⟨on, if on then bmSpan p x.addr.toNat else [], if on && writes then bmPuts c p x else []⟩
  | none => ⟨false, [], []⟩

/-- The masks of what a port writes. -/
def BmAct.marks (a : BmAct) : List (Nat × Nat) := a.puts.map (fun e => (e.1, e.2.1))

/-- The latch of a port after an edge (R169, R170). `old` and `new` are the contents before and after; `other` is the other
port's part; `hit` says that this port met an access whose result is undefined. -/
def bmLatch (c : BmCfg) (p : BmPort) (x : Option BmDrive) (me : BmAct) (old new : SMap (BitVec 9))
    (cur : BitVec 72 × BitVec 3) (hit : Bool) (free : BitVec 75) : BitVec 72 × BitVec 3 :=
  match x with
  | none => cur
  | some x =>
    if !me.on then cur
    else
      let read (m : SMap (BitVec 9)) := bmDecode c.ecc (bmWord p x.addr.toNat (fun k => SMap.get (fun _ => 0#9) m k))
      if !me.puts.isEmpty && p.latch == .keep then cur
      else if hit then (bmMask p (free.truncate 72), free.extractLsb' 72 3)
      else if !me.puts.isEmpty && p.latch == .new then read new
      else read old

/-- The output register of a port after an edge (R169): DORST loads DORSTVAL, DOCE takes the latch. The flags under DORST are not
stated. -/
def bmOut (p : BmPort) (x : Option BmDrive) (cur latch : BitVec 72 × BitVec 3) (free : BitVec 3) : BitVec 72 × BitVec 3 :=
  match x with
  | none => cur
  | some x =>
    if !p.pipe then cur
    else if x.dorst then (bmMask p p.dorstval, free)
    else if x.doce then latch
    else cur

/-- A block memory on an edge of its ports (R169). Where both are given the edges coincide: on one clock, or within the 300 ps of R170 on
two. -/
def bmStep (s : State) (d k : Nat) (a b : Option BmDrive) : State :=
  let c := bmCfg s d k
  let m := s.bmem d k
  let w := fabWrites s d && !siteFenced s d k RegionDecl.bmems
  let pa := bmAct c c.a a w
  let pb := bmAct c c.b b w
  let new := (pb.puts ++ pa.puts).foldl bmPut m.cells
  let bad := !c.sameClk
  let (f, s') := s.free 256
  let clash := if bad then (pa.puts.zipIdx.flatMap (fun x => pb.puts.filterMap (fun y =>
      let k := x.1.2.1 &&& y.2.1
      if x.1.1 = y.1 ∧ k ≠ 0 then some (x.1.1, k, (f.toNat >>> (9 * x.2)) % 512) else none))) else []
  let new := clash.foldl bmPut new
  let hitA := bad && bmMeet pa.span pb.marks
  let hitB := bad && bmMeet pb.span pa.marks
  let la := bmLatch c c.a a pa m.cells new (m.latchA, m.flagA) hitA (f.extractLsb' 72 75)
  let lb := bmLatch c c.b b pb m.cells new (m.latchB, m.flagB) hitB (f.extractLsb' 147 75)
  let oa := bmOut c.a a (m.outA, m.oflagA) (m.latchA, m.flagA) (f.extractLsb' 222 3)
  let ob := bmOut c.b b (m.outB, m.oflagB) (m.latchB, m.flagB) (f.extractLsb' 225 3)
  let gsr := s.held d Blk.gsr
  s'.setBmem d k { m with
    cells := new
    latchA := la.1, latchB := lb.1, flagA := la.2, flagB := lb.2
    outA := if gsr && c.a.pipe then bmMask c.a c.a.dorstval else oa.1
    outB := if gsr && c.b.pipe then bmMask c.b c.b.dorstval else ob.1
    oflagA := oa.2, oflagB := ob.2 }

/-- What a port of a block drives: the latch, or its output register (R169). -/
def bmDoA (c : BmCfg) (m : Bmem) : BitVec 72 × BitVec 3 := if c.a.pipe then (m.outA, m.oflagA) else (m.latchA, m.flagA)
def bmDoB (c : BmCfg) (m : Bmem) : BitVec 72 × BitVec 3 := if c.b.pipe then (m.outB, m.oflagB) else (m.latchB, m.flagB)

/-- The lowest block of the chain that a block is in, and the blocks of the chain; a block in no chain stands alone (R174). -/
def chainBase (c : BmCfg) (k : Nat) : Nat := if c.chain.val = 0 then k else k - c.place.val
def chainLen (c : BmCfg) : Nat := max 1 c.chain.val

/-- The cycles that a chain adds to the read latency: 1 for 5 to 8 blocks, 2 for 9 to 12, 3 for 13 to 16 (R174). -/
def chainAdds (c : BmCfg) : Nat := (c.chain.val - 1) / 4

/-- What one port of a chain presents: the block that was addressed, through the cycles that the chain adds. -/
def chainDo (c : BmCfg) (p : BmPort) (x : ChainPort) (block : Nat → BitVec 72 × BitVec 3) : BitVec 72 × BitVec 3 :=
  let now := block (if p.pipe then x.selO else x.selL)
  if chainAdds c = 0 then now else (x.stage[chainAdds c - 1]?).getD (0, 0)

/-- One port's part of a chain after an edge: the block addressed for the latch, the one that the output register holds, and the added
cycles. -/
def chainNext (c : BmCfg) (p : BmPort) (x : ChainPort) (drive : Option BmDrive) (block : Nat → BitVec 72 × BitVec 3) : ChainPort :=
  match drive with
  | none => x
  | some y =>
    { selL := if y.en && decide (y.casc.val < chainLen c) then y.casc else x.selL
      selO := if y.doce && !y.dorst then x.selL else x.selO
      stage := (block (if p.pipe then x.selO else x.selL) :: x.stage).take (chainAdds c) }

/-- A word of a port as a reply: DO[63:0], then DO[71:64] with ECC_CE, ECC_UE and POISON above it. -/
def doReply (x : BitVec 72 × BitVec 3) : List DWord :=
  [x.1.truncate 64, BitVec.ofNat 64 (x.1.toNat / 2 ^ 64 + 256 * x.2.toNat)]

/-- The ports of a block memory, or of the cascade chain that it is in, on the edges of their clocks (R169, R174); a port whose track
carries no clock sees none (R150). The reply gives DO of ports A and B after the edge. -/
def execBmemPortOp (die : Die) (site : Fin 4096) (a b : Option BmDrive) (s : State) : Host.Outcome State Fault Refusal :=
  let c := bmCfg s die site
  let base := chainBase c site
  let a := if trackRuns s die c.clkA then a else none
  let b := if trackRuns s die c.clkB then b else none
  let x := s.chainOf die base
  let blkA (s : State) (i : Nat) : BitVec 72 × BitVec 3 := bmDoA c (s.bmem die (base + i))
  let blkB (s : State) (i : Nat) : BitVec 72 × BitVec 3 := bmDoB c (s.bmem die (base + i))
  .next (if !fabClocked s die then s
    else
      let t := (List.range (chainLen c)).foldl (fun t i => bmStep t die (base + i) a b) s
      let y : ChainSt := ⟨chainNext c c.a x.a a (blkA s), chainNext c c.b x.b b (blkB s)⟩
      let t := if c.chain.val = 0 then t else t.setChain die base y
      if c.chain.val = 0 then t.ansData .ok (doReply (blkA t 0) ++ doReply (blkB t 0))
      else t.ansData .ok (doReply (chainDo c c.a y.a (blkA t)) ++ doReply (chainDo c c.b y.b (blkB t))))

/-- Output registers of a die's block memories take DORSTVAL (R175). -/
def resetBmOuts (s : State) (d : Nat) : State :=
  let listed := (s.fab.bm.filter (fun e => e.1 / 4096 == d)).map (fun e => e.1 % 4096)
  let declared := (s.designOf d).bmems.map (fun x => x.1)
  (listed ++ declared).foldl (fun (s : State) (k : Nat) =>
      let c := bmCfg s d k
      let m := s.bmem d k
      s.setBmem d k { m with
        outA := if c.a.pipe then bmMask c.a c.a.dorstval else m.outA
        outB := if c.b.pipe then bmMask c.b c.b.dorstval else m.outB }) s

/-! ## Arithmetic slices (R176 to R180) -/

def arithCfgPlain : ArithCfg := ⟨0, 0, 0, 0, 0, false, false, false, false, 48, false, false, false, .global 0⟩

def arithCfg (s : State) (d k : Nat) : ArithCfg :=
  (((s.designOf d).slices.find? (fun x => x.1 == k)).map (fun x => x.2)).getD arithCfgPlain

/-- The pre-adder (R176): the result wraps modulo 2^26. -/
def preAdd (fn : Fin 4) (a d : BitVec 26) : BitVec 26 :=
  match fn with
  | 0 => a
  | 1 => d + a
  | 2 => d - a
  | 3 => d

/-- The exact 48-bit product of the multiplier (R176). -/
def mulExact (ad : BitVec 26) (b : BitVec 22) : BitVec 48 := BitVec.ofInt 48 (ad.toInt * b.toInt)

/-- What the accumulator takes under ACC_FN, exactly (R176). -/
def accExact (fn : Fin 8) (m p c link : Int) : Int :=
  match fn with
  | 0 => m
  | 1 => c + m
  | 2 => p + m
  | 3 => p - m
  | 4 => link + m
  | 5 => link - m
  | 6 => c - m
  | 7 => p + c

/-- The 64-bit signed number holds the value. -/
def fits64 (x : Int) : Bool := decide (-(2 ^ 63 : Int) ≤ x ∧ x < (2 ^ 63 : Int))

/-- P shifted down, with copies of its sign above bit 63 (R178). -/
def narShift (p : BitVec 64) (shift : BitVec 6) : Int := (p.sshiftRight shift.toNat).toInt

/-- OVF (R178): P does not fit the window. -/
def narOvf (w : Nat) (p : BitVec 64) (shift : BitVec 6) : Bool := narShift p shift != satInt w (narShift p shift)

/-- O (R178): the window, sign-extended to 48 bits, or the nearest value that fits it with SAT. -/
def narrow (w : Nat) (sat : Bool) (p : BitVec 64) (shift : BitVec 6) : BitVec 48 :=
  let x := narShift p shift
  BitVec.ofInt 48 (if sat then satInt w x else sext w (wrapNat w x))

/-- A pair of delay registers on an edge: the values after it. -/
def delay2 {n : Nat} (ce : Bool) (inp r1 r2 : BitVec n) (depth : Nat) : BitVec n × BitVec n :=
  (if ce ∧ 1 ≤ depth then inp else r1, if ce ∧ 2 ≤ depth then r1 else r2)

/-- What the next stage sees of an input before the edge. -/
def tap2 {n : Nat} (inp r1 r2 : BitVec n) (depth : Nat) : BitVec n := if depth = 0 then inp else if depth = 1 then r1 else r2

/-- What reaches a slice over the link paths from the slice below (R180): P, and A and B after the first register. -/
structure ArithLink where
  p : BitVec 64
  a : BitVec 26
  b : BitVec 22
  deriving DecidableEq, Repr

/-- What the wires of a slice carry before an edge: the inputs taken, the values that reach each stage, with a disabled register passed
through, and the outputs. ACC_FN and SHIFT reach their stage through the registers of the stages before it, beside the product
(notes/assumptions/41.md). -/
structure ArithWires where
  aIn   : BitVec 26
  bIn   : BitVec 22
  c     : BitVec 64
  accFn : Fin 8
  preFn : Fin 4
  shift : BitVec 6
  adNew : BitVec 26
  acc2  : Fin 8
  sh2   : BitVec 6
  mNew  : BitVec 48
  acc3  : Fin 8
  sh3   : BitVec 6
  pNew  : BitVec 64
  ovfN  : Bool
  p     : BitVec 64
  ovf   : Bool
  sh4   : BitVec 6
  oNew  : BitVec 48
  lscN  : BitVec 6
  oOvfN : Bool
  deriving DecidableEq, Repr

/-- The wires of a slice (R176, R178, R179). -/
def arithWires (g : ArithCfg) (r : Arith) (x : ArithDrive) (l : ArithLink) : ArithWires :=
  let aIn := if g.aLink then l.a else x.a
  let bIn := if g.bLink then l.b else x.b
  let a := tap2 aIn r.a1 r.a2 g.aDepth
  let b := tap2 bIn r.b1 r.b2 g.bDepth
  let c := if g.cDepth = 0 then x.c else r.c1
  let d := if g.dDepth = 0 then x.d else r.d1
  let accFn := if g.ctlDepth = 0 then x.accFn else r.acc1
  let preFn := if g.ctlDepth = 0 then x.preFn else r.pre1
  let shift := if g.ctlDepth = 0 then x.shift else r.sh1
  let adNew := preAdd preFn a d
  let acc2 := if g.preReg then r.acc2 else accFn
  let sh2 := if g.preReg then r.sh2 else shift
  let mNew := mulExact (if g.preReg then r.ad else adNew) b
  let acc3 := if g.mulReg then r.acc3 else acc2
  let sh3 := if g.mulReg then r.sh3 else sh2
  let m := if g.mulReg then r.m else mNew
  let sum := accExact acc3 m.toInt r.p.toInt c.toInt l.p.toInt
  let pNew := BitVec.ofInt 64 sum
  let p := if g.accReg then r.p else pNew
  let sh4 := if g.accReg then r.sh4 else sh3
  { aIn := aIn, bIn := bIn, c := c, accFn := accFn, preFn := preFn, shift := shift, adNew := adNew, acc2 := acc2, sh2 := sh2
    mNew := mNew, acc3 := acc3, sh3 := sh3, pNew := pNew, ovfN := !fits64 sum, p := p
    ovf := if g.accReg then r.ovf else !fits64 sum, sh4 := sh4
    oNew := narrow g.oWidth g.sat p sh4, lscN := BitVec.ofNat 6 (redundantSign p), oOvfN := narOvf g.oWidth p sh4 }

/-- The outputs of a slice: O, LSC, OVF, ACC_OVF and P (R176). -/
def arithOut (g : ArithCfg) (r : Arith) (w : ArithWires) : List DWord :=
  let o := if g.narReg then r.o else w.oNew
  let lsc := if g.narReg then r.lsc else w.lscN
  let ovf := if g.narReg then r.oOvf else w.oOvfN
  [o.zeroExtend 64, lsc.zeroExtend 64, if ovf then 1 else 0, if w.ovf then 1 else 0, w.p]

/-- A slice after an edge of its clock (R176): every enabled register takes what its stage computes from the values before the
edge, under its stage's clock enable; RST sets every enabled register to 0. -/
def arithNext (g : ArithCfg) (r : Arith) (x : ArithDrive) (l : ArithLink) : Arith :=
  let w := arithWires g r x l
  let e1 := x.ce.getLsbD 0
  let e2 := g.preReg && x.ce.getLsbD 1
  let e3 := g.mulReg && x.ce.getLsbD 2
  let e4 := g.accReg && x.ce.getLsbD 3
  let e5 := g.narReg && x.ce.getLsbD 4
  let c1 := e1 && g.ctlDepth != 0
  let a := delay2 e1 w.aIn r.a1 r.a2 g.aDepth
  let b := delay2 e1 w.bIn r.b1 r.b2 g.bDepth
  if x.rst then .reset
  else
    { a1 := a.1, a2 := a.2, b1 := b.1, b2 := b.2
      c1 := if e1 && g.cDepth != 0 then x.c else r.c1
      d1 := if e1 && g.dDepth != 0 then x.d else r.d1
      acc1 := if c1 then x.accFn else r.acc1
      pre1 := if c1 then x.preFn else r.pre1
      sh1 := if c1 then x.shift else r.sh1
      ad := if e2 then w.adNew else r.ad
      acc2 := if e2 then w.accFn else r.acc2
      sh2 := if e2 then w.shift else r.sh2
      m := if e3 then w.mNew else r.m
      acc3 := if e3 then w.acc2 else r.acc3
      sh3 := if e3 then w.sh2 else r.sh3
      p := if e4 then w.pNew else r.p
      ovf := if e4 then w.ovfN else r.ovf
      sh4 := if e4 then w.sh3 else r.sh4
      o := if e5 then w.oNew else r.o
      lsc := if e5 then w.lscN else r.lsc
      oOvf := if e5 then w.oOvfN else r.oOvf }

/-- What the slice gives the one above it (R180). -/
def arithLinkOut (g : ArithCfg) (r : Arith) (w : ArithWires) : ArithLink :=
  ⟨w.p, if 1 ≤ g.aDepth.val then r.a1 else w.aIn, if 1 ≤ g.bDepth.val then r.b1 else w.bIn⟩

/-- What reaches a slice from below when the slice there is not part of the command: its registers, and a free value where it passes a
wire, or where the column has no slice below (notes/assumptions/3.md). -/
def arithBelow (s : State) (d k : Nat) : ArithLink :=
  let g := arithCfg s d (k - 1)
  let r := s.arithOf d (k - 1)
  let v (n : Nat) : DWord := Config.undefWord (5010 + d) n k
  let on (b : Bool) : Bool := decide (k % 128 ≠ 0) && b
  ⟨if on g.accReg then r.p else v 0, if on (decide (1 ≤ g.aDepth.val)) then r.a1 else (v 1).truncate 26,
    if on (decide (1 ≤ g.bDepth.val)) then r.b1 else (v 2).truncate 22⟩

/-- Slices on an edge, from slice `k` up one column, each with the values of all before the edge: the state after it and the outputs before
it. Global set-reset sets every register to 0 (R176); in a fenced region the registers hold (R201). -/
def arithEdge (s0 : State) (d : Nat) : List ArithDrive → Nat → ArithLink → State × List DWord → State × List DWord
  | [], _, _, a => a
  | x :: xs, k, l, (s, out) =>
    let g := arithCfg s0 d k
    let r := s0.arithOf d k
    let w := arithWires g r x l
    let s := if !trackRuns s0 d g.clk || siteFenced s0 d k RegionDecl.slices then s
      else if s0.held d Blk.gsr then s.setArith d k .reset
      else s.setArith d k (arithNext g r x l)
    arithEdge s0 d xs (k + 1) (arithLinkOut g r w) (s, out ++ arithOut g r w)

/-- Arithmetic slices of one column, from `site` up, on an edge of their clock (R176, R180). The reply gives the outputs of each before
the edge. -/
def execArithSliceEdge (die : Die) (site : Fin 4608) (drives : List ArithDrive) (s : State) : Host.Outcome State Fault Refusal :=
  let l := drives.take (128 - site.val % 128)
  .next (if !fabClocked s die then s
    else
      let r := arithEdge s die l site (arithBelow s die site) (s, [])
      r.1.ansData .ok r.2)

/-! ## User event lines (R429) -/

/-- The input of the EVTIRQ primitive that drives a line changes. -/
def execEvtirqLevel (line : Fin 32) (level : Bool) (s : State) : Host.Outcome State Fault Refusal :=
  .next (if s.dies.any (fun d => (s.designOf d).irqs.any (fun x => x.1 == line.val)) then
    { s with usr := if level then s.usr ||| (1#32 <<< line.val) else s.usr &&& ~~~ (1#32 <<< line.val) } else s)

end Sys2Proof.Machine
end

