-- ==== Sys2Proof/Machine/Lanes.lean ====
section
/-!
DEFINITION. The serial lanes (15_serial_lanes): quad PLLs and rates, modes, bring-up, bypass pairs, and what the ladder and the
resets do to a lane.
-/

namespace Sys2Proof.Machine

/-- LAN_STATUSn.STATE. -/
def Ln.off : Nat := 0
def Ln.idle : Nat := 1
def Ln.bypass : Nat := 2
def Ln.an : Nat := 3
def Ln.training : Nat := 4
def Ln.align : Nat := 5
def Ln.up : Nat := 6
def Ln.lpi : Nat := 7

def laneState (s : State) (d n : Nat) : Nat := s.g d (R.LAN_STATUS.STATE n)

/-- The lane receives data: UP or BYPASS (R380, R382). -/
def laneLive (s : State) (d n : Nat) : Bool := laneState s d n == Ln.up || laneState s d n == Ln.bypass

/-! ## Rates (R369 to R372) -/

/-- A mode in the layout of LAN_MODEn. -/
def modeWord (pll dv mod fec pcs : Nat) : Nat := pll * 512 + dv * 64 + mod * 32 + fec * 2 + pcs
def modePll (m : Nat) : Nat := fld m 9 1
def modeD (m : Nat) : Nat := fld m 6 3
def modePam4 (m : Nat) : Bool := m.testBit 5
def modeFec (m : Nat) : Nat := fld m 1 2
def modeTnb (m : Nat) : Bool := m.testBit 0

/-- The PLL register of a quad: EN, INT and FRAC. -/
def qpll (pll q : Nat) : Fld × Fld × Fld :=
  if pll = 0 then (R.LAN_QPLLA.EN q, R.LAN_QPLLA.INT q, R.LAN_QPLLA.FRAC q)
  else (R.LAN_QPLLB.EN q, R.LAN_QPLLB.INT q, R.LAN_QPLLB.FRAC q)

def qpllLock (pll q : Nat) : Fld := if pll = 0 then R.LAN_QSTATUS.LOCK_A q else R.LAN_QSTATUS.LOCK_B q

/-- The frequency F of a quad PLL, in units of 2^-24 Hz (R369). -/
def qpllFreq (hz int frac : Nat) : Nat := hz * (int * 2 ^ 24 + frac)

/-- The limits of R369. -/
def qpllOk (hz int frac : Nat) : Bool :=
  decide (20 ≤ int ∧ int ≤ 145) && decide (9000000000 * 2 ^ 24 ≤ qpllFreq hz int frac)
    && decide (qpllFreq hz int frac ≤ 14500000000 * 2 ^ 24)

/-- The bit rate of a lane in a mode, in units of 2^-(24 + D) bit/s (R370). -/
def bitRate (s : State) (d n m : Nat) : Nat :=
  let r := qpll (modePll m) (n / 4)
  qpllFreq (s.qclk d (n / 4)) (s.g d r.2.1) (s.g d r.2.2) * 8 * (if modePam4 m then 2 else 1)

/-- The bit rate is a nominal one, to within 0.001 ppm (R370; notes/assumptions/36.md). -/
def rateIs (s : State) (d n m hz : Nat) : Bool :=
  let x := bitRate s d n m
  let t := hz * 2 ^ (24 + modeD m)
  decide ((x - t) * 1000000000 ≤ t ∧ (t - x) * 1000000000 ≤ t)

/-- The bit rate lies within the range of R370. -/
def rateInRange (s : State) (d n m : Nat) : Bool :=
  let x := bitRate s d n m
  let u := 2 ^ (24 + modeD m)
  let lo := if modePam4 m then 53125000000 else 1250000000
  let hi := if modePam4 m then 224000000000 else 56000000000
  decide (lo * u * 1000000000 ≤ x * 1000000001 ∧ x * 1000000000 ≤ hi * u * 1000000001)

/-- An Ethernet PHY type (R372): its code, lanes, lane rate in bit/s, PAM4, and FEC as LAN_MODEn codes it. -/
structure PhyType where
  code  : Nat
  lanes : Nat
  hz    : Nat
  pam4  : Bool
  fec   : Nat
  deriving DecidableEq, Repr

def phyTypes : List PhyType :=
  [⟨1, 1, 10312500000, false, 0⟩, ⟨2, 1, 25781250000, false, 1⟩, ⟨3, 1, 53125000000, true, 2⟩,
   ⟨4, 4, 25781250000, false, 1⟩, ⟨5, 2, 53125000000, true, 2⟩, ⟨6, 1, 106250000000, true, 2⟩,
   ⟨7, 4, 53125000000, true, 2⟩, ⟨8, 2, 106250000000, true, 2⟩, ⟨9, 1, 212500000000, true, 2⟩,
   ⟨10, 4, 106250000000, true, 2⟩, ⟨11, 4, 212500000000, true, 2⟩, ⟨12, 8, 106250000000, true, 2⟩,
   ⟨13, 8, 212500000000, true, 2⟩]

/-- The TNB rates of R378 by code: bit/s and PAM4. -/
def tnbRates : List (Nat × Bool) :=
  [(1250000000, false), (10312500000, false), (25781250000, false), (56000000000, false), (53125000000, true),
   (106250000000, true), (212500000000, true), (224000000000, true)]

/-- The mode of a lane is one of a type's, the number of lanes aside. -/
def modeIsType (s : State) (d n m : Nat) (t : PhyType) : Bool :=
  modePam4 m == t.pam4 && modeFec m == t.fec && rateIs s d n m t.hz

/-- A combination that LAN_MODEn may hold (R370, R371). -/
def modeOk (s : State) (d n m : Nat) : Bool :=
  decide (modeD m ≤ 6) && modeFec m != 3 && rateInRange s d n m &&
    (if modeTnb m then modeFec m == 0 || (modePam4 m && modeFec m == 2) else phyTypes.any (modeIsType s d n m))

/-- The type code that LAN_STATUSn.PHY shows for a mode on a port of `w` lanes (R372); a TNB rate with no code has a free value. -/
def phyCode (s : State) (d n w m : Nat) : Nat × State :=
  if modeTnb m then
    match (List.range 8).find? (fun r =>
        let x := tnbRates.getD r (0, false)
        modePam4 m == x.2 && rateIs s d n m x.1) with
    | some r => (0x80 + r, s)
    | none => let (v, s) := s.free 8; (v.toNat, s)
  else
    match phyTypes.find? (fun t => t.lanes == w && modeIsType s d n m t) with
    | some t => (t.code, s)
    | none => (0, s)

/-- The mode in which an enabled, locked PLL of the lane's quad gives a rate (R378); PLL A before B (notes/assumptions/36.md). -/
def modeFor (s : State) (d n hz : Nat) (pam4 : Bool) (fec pcs : Nat) : Option Nat :=
  let q := n / 4
  ((List.range 2).flatMap (fun p => (List.range 7).map (fun e => modeWord p e (if pam4 then 1 else 0) fec pcs))).find? (fun m =>
    s.on d (qpll (modePll m) q).1 && s.on d (qpllLock (modePll m) q) && rateIs s d n m hz)

/-! ## The port as the port engine sees it (R389) -/

/-- A lane delivers frames: UP or in low-power idle, no HI_BER, no test pattern (R375, R386). -/
def lanePasses (s : State) (d n : Nat) : Bool :=
  (laneState s d n == Ln.up || laneState s d n == Ln.lpi) && !s.on d (R.LAN_STATUS.HI_BER n) && !s.on d (R.LAN_PRBS.GEN n)

/-- A port runs TNB coding. -/
def portTnb (s : State) (d p : Nat) : Bool := modeTnb (s.lane d p).mode

/-- Work out a port's LINK and MISMATCH again (R389, R408). -/
def portRefresh (s : State) (d n : Nat) : State :=
  let p := firstLane s d n
  if portOn s d p then
    let ls := portLanes s d p
    let mode (k : Nat) := s.g d ⟨0x500014 + 4096 * k, 0, 32⟩
    let mis := ls.any (fun k => mode k != mode p)
    let s := s.p d (R.PEN_PORT_STATUS.MISMATCH p) (if mis then 1 else 0)
    if ls.all (lanePasses s d) && !mis then
      if portTnb s d p then s.p d (R.PEN_PORT_STATUS.LINK p) (max 1 (s.g d (R.PEN_PORT_STATUS.LINK p)))
      else s.p d (R.PEN_PORT_STATUS.LINK p) 2
    else ((s.setHello d p .reset).p d (R.PEN_PORT_STATUS.LINK p) 0).p d (R.PEN_PORT_STATUS.LPI p) 0
  else s

/-! ## Moving a lane (R377) -/

/-- The recovered clock of a lane stops: a selector that follows it shows no edges (R385). -/
def laneClockStop (s : State) (d n : Nat) : State :=
  (List.range 2).foldl (fun s k =>
    if s.on s.head (R.CLK_RCV_CTRL.EN k) ∧ s.g s.head (R.CLK_RCV_CTRL.DIE k) = d ∧ s.g s.head (R.CLK_RCV_CTRL.LANE k) = n
        ∧ inpActive s s.head k then edgeLoss s s.head k else s) s

/-- A user scan of a lane ends unfinished, and so does a re-adaptation (R382). -/
def laneEndScan (s : State) (d n : Nat) : State :=
  let s := s.setLane d n { s.lane d n with low := 0, readapt := false, judge := false }
  if s.on d (R.LAN_EYE_RESULT.BUSY n) then
    (((s.p d (R.LAN_EYE_RESULT.BUSY n) 0).p d (R.LAN_EYE_RESULT.STATUS n) 2).p d (R.LAN_EYE_RESULT.DONE n) 1).p d
      (R.LAN_EVT.EYE_DONE n) 1
  else s

/-- A lane's link goes down (R377, R384). -/
def laneDown (s : State) (d n : Nat) : State :=
  (s.p d (R.LAN_EVT.LINK_DOWN n) 1).inc d (R.LAN_CNT.COUNT n 6) 1

/-- Move a lane to a state, with everything that leaving the old one brings. -/
def laneGo (s : State) (d n st : Nat) (why : LaneIdle) : State :=
  let old := laneState s d n
  let s := if (old = Ln.up ∨ old = Ln.lpi) ∧ st ≠ Ln.up ∧ st ≠ Ln.lpi then laneDown s d n else s
  let s := if (old = Ln.up ∨ old = Ln.bypass) ∧ st ≠ old then laneEndScan s d n else s
  let s := if (old = Ln.align ∨ old = Ln.up ∨ old = Ln.bypass) ∧ st ≠ Ln.align ∧ st ≠ Ln.up ∧ st ≠ Ln.bypass then
      laneClockStop s d n else s
  let s := if st = Ln.up ∨ st = Ln.lpi then s
    else ((((((s.p d (R.LAN_STATUS.PHY n) 0).p d (R.LAN_STATUS.HI_BER n) 0).p d (R.LAN_STATUS.DESKEW n) 0).p d
      (R.LAN_STATUS.FEC_ALIGN n) 0).p d (R.LAN_STATUS.BLOCK_LOCK n) 0).p d (R.LAN_STATUS.CDR_LOCK n) 0)
  let s := (s.p d (R.LAN_STATUS.STATE n) st).setLane d n { s.lane d n with idle := why }
  portRefresh s d n

/-- Electrical idle for 1 µs, then bring-up (R377). -/
def laneRestart (s : State) (d n : Nat) : State :=
  let p := firstLane s d n
  let s := if p = n then s.p d (R.LAN_AN_STATUS.ASTATE n) 0 else s
  laneGo s d n Ln.idle .start

/-- Take a mode and train, or align where training is off (R377, R379). -/
def laneTrain (s : State) (d n m : Nat) : State :=
  let s := s.setLane d n { s.lane d n with mode := m }
  laneGo s d n (if s.on d (R.LAN_LT_CFG.EN n) then Ln.training else Ln.align) .stay

/-- The configured mode of a lane. -/
def laneMode (s : State) (d n : Nat) : Nat := s.g d ⟨0x500014 + 4096 * n, 0, 32⟩

/-- Bring-up begins as the idle ends (R377): AN at the port's first lane, whose result the other lanes follow (R378). -/
def laneBegin (s : State) (d n : Nat) : State :=
  let p := firstLane s d n
  if s.on d (R.LAN_CTRL.ENABLE n) = false then laneGo s d n Ln.off .stay
  else if s.on d (R.LAN_CTRL.AN_EN p) then
    if n = p then (laneGo s d n Ln.an .stay).p d (R.LAN_AN_STATUS.ASTATE n) 1
    else if s.g d (R.LAN_AN_STATUS.ASTATE p) = 2 then laneTrain s d n (s.lane d n).mode
    else laneGo s d n Ln.idle .stay
  else laneTrain s d n (laneMode s d n)

/-! ## Bypass pairs (R383, R384) -/

/-- Both lanes of a pair go to electrical idle for 1 µs on the way to bypass or to bring-up. -/
def pairIdle (s : State) (d k : Nat) (byp : Bool) : State :=
  let s := laneGo (laneGo s d (2 * k) Ln.idle .stay) d (2 * k + 1) Ln.idle .stay
  (s.setPair d k { s.pair d k with idle := some byp }).p d (R.LAN_PAIR.ACTIVE k) 0

/-- Take up a request for bypass or release (R384). -/
def pairRequest (s : State) (d k : Nat) (want : Bool) : State :=
  let s := s.p d (R.LAN_PAIR.BYPASS k) (if want then 1 else 0)
  if (s.pair d k).idle.isSome then s.setPair d k { s.pair d k with latched := some want }
  else if want = s.on d (R.LAN_PAIR.ACTIVE k) then s
  else pairIdle s d k want

/-- PLL A of a pair's quad is locked; without it the pair does not enter bypass (R383). -/
def pairClocked (s : State) (d k : Nat) : Bool := s.on d (R.LAN_QSTATUS.LOCK_A (k / 2))

/-- The pair's idle ends: it enters bypass, or its lanes start bring-up; then a latched request is taken up (R384). A pair on its way to
bypass whose quad has no reference stays in electrical idle (R383). -/
def pairIdleEnd (s : State) (d k : Nat) : State :=
  let x := s.pair d k
  match x.idle with
  | none => s
  | some byp =>
    if byp && !pairClocked s d k then s else
    let s := s.setPair d k .reset
    let s := if byp then
        (laneGo (laneGo s d (2 * k) Ln.bypass .stay) d (2 * k + 1) Ln.bypass .stay).p d (R.LAN_PAIR.ACTIVE k) 1
      else laneBegin (laneBegin s d (2 * k)) d (2 * k + 1)
    match x.latched with
    | some w => if w = byp then s else pairIdle s d k w
    | none => s

/-! ## Start-up, resets and the ladder (R29, R60, R77, R387) -/

/-- Put a pair where no image runs: bypass, or electrical idle with BYPASS_EN low (R29, R30). -/
def pairNoImage (s : State) (d k : Nat) : State :=
  let b := s.boot.straps.bypassEn
  let v := if b then 1 else 0
  let st := if b then Ln.bypass else Ln.idle
  let s := laneGo (laneGo s d (2 * k) st .stay) d (2 * k + 1) st .stay
  ((s.setPair d k .reset).p d (R.LAN_PAIR.BYPASS k) v).p d (R.LAN_PAIR.ACTIVE k) v

def lanesNoImage (s : State) (d : Nat) : State := (List.range 16).foldl (fun s k => pairNoImage s d k) s

/-- The reset values of PLL A that BYPASS_RATE selects (LAN_QPLLAq). -/
def lanePllReset (s : State) (d : Nat) : State :=
  let r := s.boot.straps.bypassRate
  let int := if r = 0 then 66 else if r = 1 then 82 else 85
  (List.range 8).foldl (fun s q =>
    (s.p d (R.LAN_QPLLA.INT q) int).p d (R.LAN_QPLLA.FRAC q) (if r = 1 then 0x800000 else 0)) s

/-- What a reset that reaches the block leaves in the registers that follow pins, once the cells are at their reset values: the
lanes stand where no image runs. -/
def lanesReset (s : State) (d : Nat) : State :=
  let s := { s with lan := { s.lan with
    lane := SMap.keep s.lan.lane (fun k => decide (k / 32 ≠ d)), pair := SMap.keep s.lan.pair (fun k => decide (k / 16 ≠ d)) } }
  lanesNoImage (lanePllReset s d) d

/-- The LANE step of a die (R77): pairs that are kept stay in bypass, every other pair is released. -/
def lanesHandOver (s : State) (d : Nat) : State :=
  let keep := s.g d R.CFG_WAKE_CFG.LANE_KEEP
  (List.range 16).foldl (fun s k =>
    if keep.testBit k then pairRequest s d k true
    else if (s.pair d k).idle.isSome then pairRequest s d k false
    else pairIdle (s.p d (R.LAN_PAIR.BYPASS k) 0) d k false) s

/-- The pair of a lane is in bypass, or on its way there. -/
def laneInBypass (s : State) (d n : Nat) : Bool := s.on d (R.LAN_PAIR.ACTIVE (n / 2)) || (s.pair d (n / 2)).idle == some true

/-- LAN is held in reset (R64, R387): pairs in bypass go on, other lanes go to electrical idle; counters and state clear. -/
def lanesHold (s : State) (d : Nat) : State :=
  (List.range 32).foldl (fun s n =>
    let s := if laneInBypass s d n then s else laneGo s d n Ln.idle .stay
    let s := (List.range 10).foldl (fun s k => s.p d (R.LAN_CNT.COUNT n k) 0) s
    let s := ((s.p d (R.LAN_EVT.LINK_UP n) 0).p d ⟨0x500060 + 4096 * n, 0, 32⟩ 0).p d ⟨0x500048 + 4096 * n, 0, 64⟩ 0
    let s := if laneInBypass s d n then s else
      ((s.p d ⟨0x500024 + 4096 * n, 0, 32⟩ 0).p d ⟨0x500028 + 4096 * n, 0, 32⟩ 0).p d ⟨0x500030 + 4096 * n, 0, 32⟩ 0
    s.setLane d n { LaneSt.reset with idle := (s.lane d n).idle }) s

/-- Bring-up restarts at the lanes that are neither off nor in bypass (R387). -/
def lanesRelease (s : State) (d : Nat) : State :=
  (List.range 32).foldl (fun s n =>
    if laneInBypass s d n || (s.pair d (n / 2)).idle.isSome then s
    else if s.on d (R.LAN_CTRL.ENABLE n) then laneRestart s d n else laneGo s d n Ln.off .stay) s

/-- Low-power idle is agreed on a lane: EEE agreed, or TNB (R387, R389). -/
def laneLpiAgreed (s : State) (d n : Nat) : Bool :=
  s.on d (R.LAN_AN_STATUS.EEE (firstLane s d n)) || modeTnb (s.lane d n).mode

/-- A die enters SEMICOLON (R387). -/
def lanesSemicolon (s : State) (d : Nat) : State :=
  (List.range 32).foldl (fun s n =>
    if laneState s d n = Ln.up then
      if s.g d (R.LAN_CTRL.SLEEP n) = 1 ∧ laneLpiAgreed s d n then laneGo s d n Ln.lpi .stay
      else if s.g d (R.LAN_CTRL.SLEEP n) = 2 then laneGo s d n Ln.idle .stay else s
    else s) s

/-- A die enters COLON or FULL_STOP (R387). -/
def lanesStop (s : State) (d : Nat) : State :=
  (List.range 16).foldl (fun s k =>
    if s.on d (R.LAN_PAIR.SLEEP_BYPASS k) then
      if s.on d (R.LAN_PAIR.ACTIVE k) then s else pairIdle s d k true
    else (laneGo (laneGo s d (2 * k) Ln.idle .stay) d (2 * k + 1) Ln.idle .stay).setPair d k .reset) s

/-- A die leaves SEMICOLON: lanes in low-power idle are up again, idle ones start bring-up. -/
def lanesFromSemicolon (s : State) (d : Nat) : State :=
  (List.range 32).foldl (fun s n =>
    if laneState s d n = Ln.lpi then laneGo s d n Ln.up .stay
    else if laneState s d n = Ln.idle ∧ (s.lane d n).idle = .stay ∧ (s.pair d (n / 2)).idle = none
        ∧ s.on d (R.LAN_CTRL.ENABLE n) ∧ s.g d (R.LAN_CTRL.SLEEP n) = 2 then laneRestart s d n
    else s) s

/-- A die leaves COLON, at its GSR step (R387): pairs in sleep bypass are released and bring-up restarts. -/
def lanesFromColon (s : State) (d : Nat) : State :=
  (List.range 16).foldl (fun s k =>
    if s.on d (R.LAN_PAIR.BYPASS k) then (if s.on d (R.LAN_PAIR.ACTIVE k) then s else pairIdle s d k true)
    else pairIdle (s.setPair d k .reset) d k false) s

end Sys2Proof.Machine
end

