-- ==== Sys2Proof/Machine/LaneEvents.lean ====
section
/-!
DEFINITION. The events of the serial lanes (15_serial_lanes) and the register writes of the LAN block: locks, negotiation and
training, alignment and loss, adaptation and eye scans, and test patterns.
-/

namespace Sys2Proof.Machine

/-! ## Quad PLLs -/

/-- A lane runs on a PLL of its quad (R369): in the mode it runs, or else in the mode it is set to. -/
def laneUsesPll (s : State) (d n pll : Nat) : Bool :=
  if laneState s d n = Ln.bypass then pll == 0
  else s.on d (R.LAN_CTRL.ENABLE n) &&
    modePll (if Ln.training ≤ laneState s d n then (s.lane d n).mode else laneMode s d n) == pll

/-- A PLL locks, its reference measured (R369). -/
def execQpllLock (die : Die) (quad : Fin 8) (pll : Fin 2) (hz : Nat) (s : State) : Host.Outcome State Fault Refusal :=
  let r := qpll pll quad
  .next (if s.present die ∧ s.on die r.1 ∧ 100000000 ≤ hz ∧ hz ≤ 400000000
      ∧ qpllOk hz (s.g die r.2.1) (s.g die r.2.2) then
    ((s.setQclk die quad hz).p die (R.LAN_QSTATUS.REF_ACTIVE quad) 1).p die (qpllLock pll quad) 1
  else s)

/-- A PLL loses lock, and with `edges` 0 its reference shows no edges (R369): every lane that uses it goes to IDLE; one whose
pair is on its way to bypass or release is there already. -/
def execQpllUnlock (die : Die) (quad : Fin 8) (pll : Fin 2) (edges : Bool) (s : State) : Host.Outcome State Fault Refusal :=
  .next (if s.present die ∧ s.on die (qpllLock pll quad) then
    let s := ((s.p die (qpllLock pll quad) 0).p die (R.LAN_QSTATUS.UNLOCK quad) 1).p die (R.LAN_QSTATUS.REF_ACTIVE quad)
      (if edges then 1 else 0)
    (List.range 4).foldl (fun s i =>
      let n := 4 * quad.val + i
      if laneUsesPll s die n pll then
        if laneState s die n = Ln.bypass then pairIdle s die (n / 2) true
        else if laneState s die n = Ln.off ∨ (s.pair die (n / 2)).idle.isSome then s else laneRestart s die n
      else s) s
  else s)

/-! ## Negotiation (R378) -/

/-- Every lane of the port can run a rate (R378). -/
def portCan (s : State) (d p hz : Nat) (pam4 : Bool) : Bool :=
  (portLanes s d p).all (fun n => (modeFor s d n hz pam4 0 0).isSome)

/-- The Ethernet types that the port advertises. -/
def ethAvail (s : State) (d p : Nat) : List PhyType :=
  phyTypes.filter (fun t => s.bit d (R.LAN_AN_ADV.ETH p) (t.code - 1) && t.lanes == (portLanes s d p).length
    && portCan s d p t.hz t.pam4)

/-- The TNB rate codes that the port advertises. -/
def tnbAvail (s : State) (d p : Nat) : List Nat :=
  if s.on d (R.LAN_AN_ADV.TNB p) then
    (List.range 8).filter (fun r => s.bit d (R.LAN_AN_ADV.TNB_RATES p) r
      && portCan s d p (tnbRates.getD r (0, false)).1 (tnbRates.getD r (0, false)).2)
  else []

/-- What negotiation comes to (R378): the type code, the rate, PAM4, FEC and PCS; TNB wins, then the highest common type. -/
def anResolve (s : State) (d p partner : Nat) : Option (Nat × Nat × Bool × Nat × Nat) :=
  let tnb := if partner.testBit 31 then (tnbAvail s d p).filter (fun r => partner.testBit (13 + r)) else []
  match tnb.getLast? with
  | some r =>
    let x := tnbRates.getD r (0, false)
    some (0x80 + r, x.1, x.2, if x.2 && s.on d (R.LAN_AN_ADV.TNB_FEC p) && partner.testBit 30 then 2 else 0, 1)
  | none =>
    match ((ethAvail s d p).filter (fun t => partner.testBit (t.code - 1))).getLast? with
    | some t => some (t.code, t.hz, t.pam4, t.fec, 0)
    | none => none

/-- The fields of LAN_AN_PARTNERn. -/
def partnerMask : Nat := 0xE01FFFFF

/-- The port's first lane is in AN and negotiation runs. -/
def anRuns (s : State) (d n : Nat) : Bool :=
  s.present d && firstLane s d n == n && laneState s d n == Ln.an && s.g d (R.LAN_AN_STATUS.ASTATE n) == 1

/-- Negotiation resolves a common mode: every lane of the port takes it (R377, R378). -/
def execAnResolved (die : Die) (lane : Fin 32) (partner : Word) (s : State) : Host.Outcome State Fault Refusal :=
  let pg := partner.toNat &&& partnerMask
  .next (match anRuns s die lane, anResolve s die lane pg with
    | true, some (code, hz, pam4, fec, pcs) =>
      let s := s.p die ⟨0x500028 + 4096 * lane, 0, 32⟩ pg
      let s := ((s.p die (R.LAN_AN_STATUS.RESULT lane) code).p die (R.LAN_AN_STATUS.ASTATE lane) 2).p die
        (R.LAN_AN_STATUS.FEC lane) (if pcs = 1 ∧ fec = 2 then 1 else 0)
      let s := s.p die (R.LAN_AN_STATUS.EEE lane) (if s.on die (R.LAN_AN_ADV.EEE lane) ∧ pg.testBit 29 then 1 else 0)
      (portLanes s die lane).foldl (fun s n =>
        let m := (modeFor s die n hz pam4 fec pcs).getD 0
        if n = lane.val then laneTrain s die n m
        else
          let s := s.setLane die n { s.lane die n with mode := m }
          if laneState s die n = Ln.off ∨ laneState s die n = Ln.bypass ∨ (s.lane die n).idle ≠ .stay then s
          else laneTrain s die n m) s
    | _, _ => s)

/-- No common mode (R377). -/
def execAnFail (die : Die) (lane : Fin 32) (partner : Word) (s : State) : Host.Outcome State Fault Refusal :=
  let pg := partner.toNat &&& partnerMask
  .next (if anRuns s die lane ∧ anResolve s die lane pg = none then
    ((s.p die ⟨0x500028 + 4096 * lane, 0, 32⟩ pg).p die (R.LAN_AN_STATUS.ASTATE lane) 3).p die (R.LAN_EVT.AN_FAIL lane) 1
  else s)

/-- Negotiation starts again after 65 ms (R377). -/
def execAnRestart (die : Die) (lane : Fin 32) (s : State) : Host.Outcome State Fault Refusal :=
  .next (if s.present die ∧ laneState s die lane = Ln.an ∧ s.g die (R.LAN_AN_STATUS.ASTATE lane) = 3 then
    s.p die (R.LAN_AN_STATUS.ASTATE lane) 1 else s)

/-! ## Bring-up and loss -/

/-- A lane's electrical idle ends (R377). -/
def execLaneIdleEnd (die : Die) (lane : Fin 32) (s : State) : Host.Outcome State Fault Refusal :=
  .next (if s.present die ∧ !s.held die Blk.lan ∧ laneState s die lane = Ln.idle ∧ (s.lane die lane).idle ≠ .stay then
    laneBegin s die lane else s)

/-- Both ends report receiver ready (R377, R379). -/
def execTrainingReady (die : Die) (lane : Fin 32) (taps : Word) (s : State) : Host.Outcome State Fault Refusal :=
  .next (if s.present die ∧ laneState s die lane = Ln.training then
    laneGo (s.p die ⟨0x500030 + 4096 * lane, 0, 32⟩ taps.toNat) die lane Ln.align .stay else s)

/-- The training limit passes (R377, R379): 65 ms of idle. -/
def execTrainingTimeout (die : Die) (lane : Fin 32) (s : State) : Host.Outcome State Fault Refusal :=
  .next (if s.present die ∧ laneState s die lane = Ln.training then
    (laneGo s die lane Ln.idle .retry).p die (R.LAN_EVT.TRAIN_FAIL lane) 1 else s)

/-- Block lock is gained or lost (R373). -/
def execBlockLock (die : Die) (lane : Fin 32) (gained : Bool) (s : State) : Host.Outcome State Fault Refusal :=
  .next (if s.present die ∧ (laneState s die lane = Ln.align ∨ laneState s die lane = Ln.up) then
    if gained then
      ((s.p die (R.LAN_STATUS.BLOCK_LOCK lane) 1).p die (R.LAN_STATUS.CDR_LOCK lane) 1).p die (R.LAN_STATUS.SIGNAL lane) 1
    else (s.p die (R.LAN_STATUS.BLOCK_LOCK lane) 0).p die (R.LAN_STATUS.FEC_ALIGN lane) 0
  else s)

/-- Locks, FEC alignment and deskew on every lane of the port: its lanes come UP (R373, R377). -/
def execAlignComplete (die : Die) (lane : Fin 32) (s : State) : Host.Outcome State Fault Refusal :=
  let p := firstLane s die lane
  let ls := portLanes s die p
  .next (if s.present die ∧ ls.any (fun n => laneState s die n == Ln.align)
      ∧ ls.all (fun n => (laneState s die n == Ln.align || laneState s die n == Ln.up)
        && s.on die (R.LAN_STATUS.BLOCK_LOCK n) && s.on die (R.LAN_STATUS.CDR_LOCK n)) then
    ls.foldl (fun s n =>
      let m := (s.lane die n).mode
      let s := (s.p die (R.LAN_STATUS.DESKEW n) 1).p die (R.LAN_STATUS.FEC_ALIGN n) (if modeFec m = 0 then 0 else 1)
      if laneState s die n = Ln.align then
        let (code, s) := phyCode s die n ls.length m
        (laneGo (s.p die (R.LAN_STATUS.PHY n) code) die n Ln.up .stay).p die (R.LAN_EVT.LINK_UP n) 1
      else s) s
  else s)

/-- Loss of signal for 1 µs, or with `cdr` of CDR lock, takes an UP lane back to bring-up (R375, R377). -/
def execLinkLoss (die : Die) (lane : Fin 32) (cdr : Bool) (s : State) : Host.Outcome State Fault Refusal :=
  .next (if s.present die ∧ (laneState s die lane = Ln.up ∨ laneState s die lane = Ln.lpi) then
    laneRestart (if cdr then s else s.p die (R.LAN_STATUS.SIGNAL lane) 0) die lane else s)

/-- The error threshold of HI_BER is met (R375). -/
def execHiBerSet (die : Die) (lane : Fin 32) (s : State) : Host.Outcome State Fault Refusal :=
  .next (if s.present die ∧ laneState s die lane = Ln.up then portRefresh (s.p die (R.LAN_STATUS.HI_BER lane) 1) die lane else s)

/-- A full window with fewer errors (R375). -/
def execHiBerClear (die : Die) (lane : Fin 32) (s : State) : Host.Outcome State Fault Refusal :=
  .next (if s.present die ∧ s.on die (R.LAN_STATUS.HI_BER lane) then
    portRefresh (s.p die (R.LAN_STATUS.HI_BER lane) 0) die lane else s)

/-- An elastic buffer fills or empties (R376): it re-centres, and the frame in progress is marked in error. -/
def execEbOverflow (die : Die) (lane : Fin 32) (tx : Bool) (s : State) : Host.Outcome State Fault Refusal :=
  let x := s.lane die lane
  .next (if s.present die ∧ laneState s die lane = Ln.up then
    (s.setLane die lane (if tx then { x with txFill := 32, txBroken := true } else { x with rxFill := 32, broken := true })).p die
      (R.LAN_EVT.EB_ERR lane) 1
  else s)

/-! ## Adaptation and eye scans (R380 to R382) -/

/-- The vertical and the horizontal opening of an eye, in the layout of LAN_EYE_MARGINn. -/
def eyeV (e : Word) : Nat := fld e.toNat 24 8 + fld e.toNat 16 8
def eyeH (e : Word) : Nat := fld e.toNat 8 8 + fld e.toNat 0 8

/-- The eye with the smallest vertical opening (R382). -/
def worstEye (l : List Word) : Word :=
  match l with
  | [] => 0
  | e :: l => l.foldl (fun w x => if eyeV x < eyeV w then x else w) e

/-- Start a re-adaptation (R380); a user scan pauses (R382). -/
def startReadapt (s : State) (d n : Nat) : State :=
  let x := s.lane d n
  if laneLive s d n && !x.readapt then
    let s := s.setLane d n { x with readapt := true, low := 0 }
    if s.on d (R.LAN_EYE_RESULT.BUSY n) then s.p d (R.LAN_EYE_RESULT.STATUS n) 1 else s
  else s

/-- The background margin scan (R380): the worst eye is stored; after 3 low scans in a row the lane re-adapts, and the first
scan after a re-adaptation raises MARGIN_LOW if the eye is still low. -/
def execBackgroundScan (die : Die) (lane : Fin 32) (eyes : List Word) (s : State) : Host.Outcome State Fault Refusal :=
  let e := worstEye eyes
  .next (if s.present die ∧ laneLive s die lane ∧ (s.lane die lane).readapt = false ∧ eyes ≠ [] then
    let isLow := eyeH e < s.g die (R.LAN_ADAPT_CFG.HTH lane) ∨ eyeV e < s.g die (R.LAN_ADAPT_CFG.VTH lane)
    let x := s.lane die lane
    let s := s.p die ⟨0x500054 + 4096 * lane, 0, 32⟩ e.toNat
    let s := s.setLane die lane { x with low := if isLow then x.low + 1 else 0, judge := false }
    let s := if isLow ∧ x.judge then s.p die (R.LAN_EVT.MARGIN_LOW lane) 1 else s
    if isLow ∧ 3 ≤ x.low + 1 ∧ s.on die (R.LAN_ADAPT_CFG.EN lane) then startReadapt s die lane else s
  else s)

/-- A re-adaptation ends (R380, R382). -/
def execReadaptComplete (die : Die) (lane : Fin 32) (s : State) : Host.Outcome State Fault Refusal :=
  let x := s.lane die lane
  .next (if s.present die ∧ x.readapt then
    let s := (s.setLane die lane { x with readapt := false, judge := true }).inc die (R.LAN_CNT.COUNT lane 7) 1
    if s.on die (R.LAN_EYE_RESULT.BUSY lane) ∧ s.g die (R.LAN_EYE_RESULT.STATUS lane) = 1 then
      s.p die (R.LAN_EYE_RESULT.STATUS lane) 0 else s
  else s)

/-- A user scan ends (R381, R382). -/
def execEyeScanDone (die : Die) (lane : Fin 32) (errors : Nat) (eyes : List Word) (s : State) :
    Host.Outcome State Fault Refusal :=
  .next (if s.present die ∧ s.on die (R.LAN_EYE_RESULT.BUSY lane) ∧ s.g die (R.LAN_EYE_RESULT.STATUS lane) = 0 then
    let s := if s.on die (R.LAN_EYE_CTRL.MODE lane) then
        s.p die ⟨0x500050 + 4096 * lane, 0, 32⟩ (worstEye eyes).toNat
      else s.p die (R.LAN_EYE_RESULT.ERRORS lane) (min errors (2 ^ 32 - 1))
    ((s.p die (R.LAN_EYE_RESULT.BUSY lane) 0).p die (R.LAN_EYE_RESULT.DONE lane) 1).p die (R.LAN_EVT.EYE_DONE lane) 1
  else s)

/-- The 1 µs of a pair's idle ends (R384). -/
def execPairIdleEnd (die : Die) (pair : Fin 16) (s : State) : Host.Outcome State Fault Refusal :=
  .next (if s.present die then pairIdleEnd s die pair else s)

/-! ## Pattern checkers (R386) -/

/-- The checkers of a die's lanes go on for a step of time: one that is not synchronised may lock, and one that is counts the errors it
finds. What arrives is free. -/
def prbsPass (s : State) (d : Nat) : State :=
  (List.range 32).foldl (fun s n =>
    if s.on d (R.LAN_PRBS.CHK n) then
      if s.on d (R.LAN_PRBS.CHK_LOCK n) then
        let (e, s) := s.free 12
        s.inc d (R.LAN_CNT.COUNT n 8) e.toNat
      else
        let (l, s) := s.free 1
        s.p d (R.LAN_PRBS.CHK_LOCK n) l.toNat
    else s) s

/-! ## Register writes -/

/-- The LANE step of the die is complete: the lanes are the port engine's (R30, R77). -/
def lanesOurs (s : State) (d : Nat) : Bool := s.stepDone d WStep.lane

/-- A write of LAN_CTRLn (R377). Before the LANE step, and in a pair that is in bypass or on its way, the lane does not move. -/
def writeLanCtrl (s : State) (w : Wr) : State :=
  let d := w.d
  let n := w.r.i
  let en := (R.LAN_CTRL.ENABLE 0).of w.new
  let was := (R.LAN_CTRL.ENABLE 0).of w.old
  let restart := (R.LAN_CTRL.RESTART 0).of w.raw == 1
  if (R.LAN_CTRL.SLEEP 0).of w.new = 3 then s.ans .accessError
  else
    let s := s.setReg d w.r w.new
    let free := lanesOurs s d && !laneInBypass s d n && (s.pair d (n / 2)).idle.isNone
    let s := if !free then s
      else if en = 0 ∧ was = 1 then laneGo s d n Ln.off .stay
      else if en = 1 ∧ was = 0 then laneRestart s d n
      else if restart ∧ en = 1 ∧ !(laneState s d n == Ln.idle && (s.lane d n).idle == .start) then laneRestart s d n
      else s
    s.ans .ok

/-- A write of LAN_MODEn (R371). -/
def writeLanMode (s : State) (w : Wr) : State :=
  if laneState s w.d w.r.i = Ln.off ∧ modeOk s w.d w.r.i w.new then (portRefresh (s.setReg w.d w.r w.new) w.d w.r.i).ans .ok
  else s.ans .accessError

/-- A write of LAN_PAIRn (R384). -/
def writeLanPair (s : State) (w : Wr) : State :=
  let s1 := s.p w.d (R.LAN_PAIR.SLEEP_BYPASS w.r.i) ((R.LAN_PAIR.SLEEP_BYPASS 0).of w.new)
  if w.mask % 2 = 1 then (pairRequest s1 w.d w.r.i ((R.LAN_PAIR.BYPASS 0).of w.new == 1)).ans .ok else s1.ans .ok

/-- A write of LAN_EYE_CTRLn (R381, R382). -/
def writeEyeCtrl (s : State) (w : Wr) : State :=
  let d := w.d
  let n := w.r.i
  let dwell := (R.LAN_EYE_CTRL.DWELL_LOG2 0).of w.new
  let start := (R.LAN_EYE_CTRL.START 0).of w.raw == 1
  if dwell < 20 ∨ 40 < dwell ∨ (start ∧ (s.on d (R.LAN_EYE_RESULT.BUSY n) ∨ laneLive s d n = false)) then s.ans .accessError
  else
    let s := s.setReg d w.r w.new
    (if start then (s.p d (R.LAN_EYE_RESULT.BUSY n) 1).p d (R.LAN_EYE_RESULT.STATUS n) (if (s.lane d n).readapt then 1 else 0)
     else s).ans .ok

/-- A write of LAN_PRBSn (R386). -/
def writePrbs (s : State) (w : Wr) : State :=
  let d := w.d
  let n := w.r.i
  let pat := (R.LAN_PRBS.PATTERN 0).of w.new
  let gen := (R.LAN_PRBS.GEN 0).of w.new
  let chk := (R.LAN_PRBS.CHK 0).of w.new
  let pam4 := modePam4 (if Ln.training ≤ laneState s d n then (s.lane d n).mode else laneMode s d n)
  if pat = 7 ∨ laneState s d n = Ln.bypass ∨ (5 ≤ pat ∧ (gen = 1 ∨ chk = 1) ∧ pam4 = false) then s.ans .accessError
  else
    let s := s.setReg d w.r w.new
    let s := if chk = 0 then s.p d (R.LAN_PRBS.CHK_LOCK n) 0 else s
    (if gen = 1 ∧ laneState s d n = Ln.up then laneRestart s d n else portRefresh s d n).ans .ok

/-- A write of LAN_QPLLAq or LAN_QPLLBq (R369). -/
def writeQpll (s : State) (w : Wr) (pll : Nat) : State :=
  let d := w.d
  let q := w.r.i
  let int := (R.LAN_QPLLA.INT 0).of w.new
  let frac := (R.LAN_QPLLA.FRAC 0).of w.new
  let used := (List.range 4).any (fun i => laneUsesPll s d (4 * q + i) pll)
  if qpllOk (s.qclk d q) int frac && (!used || w.new == w.old) then
    let s := s.setReg d w.r w.new
    (if w.new = w.old then s else s.p d (qpllLock pll q) 0).ans .ok
  else s.ans .accessError

/-- A write to a register of the LAN block. -/
def writeLan (s : State) (w : Wr) : State :=
  match w.r.id with
  | .LAN_CTRL => writeLanCtrl s w
  | .LAN_MODE => writeLanMode s w
  | .LAN_PAIR => writeLanPair s w
  | .LAN_AN_ADV => s.storeIf w (firstLane s w.d w.r.i == w.r.i)
  | .LAN_LT_CFG =>
    let x := (R.LAN_LT_CFG.PRESET 0).of w.new
    s.storeIf w (decide (1 ≤ x ∧ x ≤ 3))
  | .LAN_ADAPT_CFG =>
    let s := s.setReg w.d w.r w.new
    (if (R.LAN_ADAPT_CFG.READAPT 0).of w.raw = 1 then startReadapt s w.d w.r.i else s).ans .ok
  | .LAN_EYE_CTRL => writeEyeCtrl s w
  | .LAN_PRBS => writePrbs s w
  | .LAN_QPLLA => writeQpll s w 0
  | .LAN_QPLLB => writeQpll s w 1
  | _ => s.store w

/-- What a read of a LAN register returns: the negotiation registers read 0 except at a port's first lane. -/
def readLan (s : State) (d : Nat) (r : RegRef) (v : Nat) : Nat :=
  match r.id with
  | .LAN_AN_ADV => if firstLane s d r.i = r.i then v else 0
  | .LAN_AN_PARTNER => if firstLane s d r.i = r.i then v else 0
  | _ => v

end Sys2Proof.Machine
end

