-- ==== Sys2Proof/Machine/PenL2.lean ====
section
/-!
DEFINITION. The L2 table of the port engines (R395 to R404): lookup, learn events, the arbiter and its moves, locks and aging,
the ordered changes to the replicas, software commands, and the VLAN and next-hop tables behind their command registers.
-/

namespace Sys2Proof.Machine

/-- The arbiter's table (R400). -/
def arbTable : Nat := 8

/-! ## Entries (R396) -/

/-- The set of an address (R396): the MAC bytes in the order sent, then the VID bytes, most significant first. -/
def l2Set (mac vid : Nat) : Nat := (crc32c ((bytesLE 6 mac).reverse ++ (bytesLE 2 vid).reverse)).toNat % 32768

/-- The entry of an address in a table. -/
def l2Find (s : State) (t mac vid : Nat) : Option (Nat × L2Ent) :=
  let base := l2Set mac vid * 16
  (List.range 16).findSome? (fun w => match s.l2 t (base + w) with
    | some e => if e.mac = mac ∧ e.vid = vid then some (base + w, e) else none
    | none => none)

/-- A free way of the address's set. -/
def l2Free (s : State) (t mac vid : Nat) : Option Nat :=
  let base := l2Set mac vid * 16
  ((List.range 16).map (base + ·)).find? (fun i => (s.l2 t i).isNone)

/-- The words of an entry (R396). -/
def entWords (e : L2Ent) : List Nat :=
  let b (x : Bool) (k : Nat) := if x then 2 ^ k else 0
  [e.mac % 2 ^ 32, e.vid * 2 ^ 16 + e.mac / 2 ^ 32,
   2 ^ 31 + b e.static 30 + b e.locked 29 + b e.hit 28 + e.age % 16 * 2 ^ 24 + e.moves % 16 * 2 ^ 20 + e.port % 1024, e.left % 65536]

/-- The address that data words give. -/
def wordsMac (w : List Word) : Nat := (w.getD 0 0).toNat + fld (w.getD 1 0).toNat 0 16 * 2 ^ 32
def wordsVid (w : List Word) : Nat := fld (w.getD 1 0).toNat 16 12

/-- The entry that data words give, if it is valid; HIT is each replica's own. -/
def wordsEnt (w : List Word) : Option L2Ent :=
  let x := (w.getD 2 0).toNat
  if x.testBit 31 then
    some ⟨wordsMac w, wordsVid w, x.testBit 30, x.testBit 29, false, fld x 24 4, fld x 20 4, fld x 0 10, (w.getD 3 0).toNat % 65536⟩
  else none

/-- The indexes that a table lists. -/
def l2Listed (s : State) (t : Nat) : List (Nat × L2Ent) :=
  s.pen.l2.filterMap (fun x => if x.1 / 2 ^ 19 = t then x.2.map (fun e => (x.1 % 2 ^ 19, e)) else none)

/-! ## Changes (R400) -/

/-- The die whose counters and events a table's owner uses. -/
def tableDie (s : State) (t : Nat) : Nat := if t = arbTable then s.head else t

/-- A replica takes a change; HIT stays the replica's own while the address stays. -/
def replicaTake (s : State) (d i : Nat) (x : Option L2Ent) : State :=
  s.setL2 d i (x.map (fun e => match s.l2 d i with
    | some o => { e with hit := if o.mac = e.mac ∧ o.vid = e.vid then o.hit else false }
    | none => e))

/-- A change takes effect: the arbiter's goes with its number to every die it reaches, an island's to its own replica. -/
def l2Change (s : State) (t i : Nat) (x : Option L2Ent) : State :=
  if t = arbTable then
    let n := s.pen.seq
    let s := (s.setL2 arbTable i x).setPen { (s.setL2 arbTable i x).pen with seq := n + 1 }
    s.onDies (fun s d => if s.on d R.PEN_STATUS.ARB_UNREACH then s
      else s.setPenDie d { s.penDie d with upd := (s.penDie d).upd ++ [⟨n, i, x⟩] })
  else replicaTake s t i x

/-- A move of a dynamic entry (R401). -/
def l2Move (s : State) (t i : Nat) (e : L2Ent) (port : Nat) : State :=
  let d := tableDie s t
  let cfg := s.head
  if e.static ∨ e.locked then s.penCnt d 2
  else
    let n := if s.window t i then e.moves + 1 else 1
    if n ≤ s.g cfg R.PEN_LEARN_CFG.MOVE_MAX then
      l2Change (s.setWindow t i true) t i (some { e with port := port, moves := n, age := 0 })
    else
      ((l2Change s t i (some { e with locked := true, left := s.g cfg R.PEN_LEARN_CFG.LOCK_TIME })).penCnt d 2).p d
        R.PEN_EVT.MOVE_LOCK 1

/-- Apply a learn event to a table (R400). -/
def l2Apply (s : State) (t : Nat) (v : LearnEv) : State :=
  match l2Find s t v.mac v.vid with
  | some (i, e) =>
    if v.kind = .refresh ∨ e.port = v.port then l2Change s t i (some { e with age := 0 }) else l2Move s t i e v.port
  | none =>
    if v.kind = .refresh then s
    else match l2Free s t v.mac v.vid with
      | some i => l2Change s t i (some ⟨v.mac, v.vid, false, false, false, 0, 0, v.port, 0⟩)
      | none => (s.penCnt (tableDie s t) 3).p (tableDie s t) R.PEN_EVT.L2_FULL 1

/-! ## Learning (R398, R399) -/

/-- A die raises a learn event: lost while the arbiter cannot be reached or is held, unless the die acts on its own; dropped
when the queue is full. -/
def raiseLearn (s : State) (d : Nat) (v : LearnEv) : State :=
  let x := s.penDie d
  let island := s.on d R.PEN_STATUS.ARB_UNREACH && s.on d R.PEN_LEARN_CFG.ISLAND
  if !island && (s.on d R.PEN_STATUS.ARB_UNREACH || s.held s.head Blk.pen) then s.penCnt d 1
  else if 4096 ≤ x.learn.length then (s.penCnt d 0).p d R.PEN_EVT.LEARN_DROP 1
  else s.setPenDie d { x with learn := x.learn ++ [v] }

/-- What the source search of a good frame does (R398): the state after it, and whether the frame may go on. -/
def learnFrom (s : State) (d mac vid port : Nat) : Bool × State :=
  match l2Find s d mac vid with
  | none => (true, raiseLearn s d ⟨.new, mac, vid, port⟩)
  | some (i, e) =>
    if e.port = port then
      if e.hit then (true, s) else (true, raiseLearn (s.setL2 d i (some { e with hit := true })) d ⟨.refresh, mac, vid, port⟩)
    else if e.static ∨ e.locked then
      (!(e.locked && s.on s.head R.PEN_LEARN_CFG.LOCK_DROP), s.penCnt d 2)
    else (true, raiseLearn s d ⟨.move, mac, vid, port⟩)

/-! ## Software commands (R403) -/

/-- Remove the arbiter's entries that satisfy `p`. -/
def l2Flush (s : State) (p : L2Ent → Bool) : State :=
  ((l2Listed s arbTable).filter (fun x => p x.2)).foldl (fun s x => l2Change (s.setWindow arbTable x.1 false) arbTable x.1 none) s

/-- The arbiter performs a command: its result code and the state after it. -/
def l2Command (s : State) (op : Nat) (w : List Word) : Nat × State :=
  let mac := wordsMac w
  let vid := wordsVid w
  let port := fld (w.getD 2 0).toNat 0 10
  match op with
  | 3 =>
    match wordsEnt w, l2Find s arbTable mac vid with
    | some n, some (i, e) =>
      if e.locked ∧ n.static = false ∧ n.port ≠ e.port then (0, s.penCnt s.head 2)
      else (0, l2Change (s.setWindow arbTable i false) arbTable i (some n))
    | some n, none =>
      match l2Free s arbTable mac vid with
      | some i => (0, l2Change (s.setWindow arbTable i false) arbTable i (some n))
      | none => (2, (s.penCnt s.head 3).p s.head R.PEN_EVT.L2_FULL 1)
    | none, some (i, _) => (0, l2Change (s.setWindow arbTable i false) arbTable i none)
    | none, none => (0, s)
  | 4 =>
    match l2Find s arbTable mac vid with
    | some (i, _) => (0, l2Change (s.setWindow arbTable i false) arbTable i none)
    | none => (1, s)
  | 5 => (0, l2Flush s (fun e => e.port == port))
  | 6 => (0, l2Flush s (fun e => e.vid == vid))
  | 7 => (0, l2Flush s (fun e => !e.static))
  | _ => (0, s)

/-- The data words of a die's L2 command registers. -/
def l2Data (s : State) (d : Nat) : List Word := (List.range 4).map (fun k => BitVec.ofNat 32 (s.g d (R.PEN_L2_DATA.WORD k)))

def setL2Data (s : State) (d : Nat) (w : List Nat) : State :=
  (List.range 4).foldl (fun s k => s.p d (R.PEN_L2_DATA.WORD k) (w.getD k 0)) s

/-- READ and READ_INDEX act on the local replica. -/
def l2Read (s : State) (d : Nat) : State :=
  match l2Find s d (wordsMac (l2Data s d)) (wordsVid (l2Data s d)) with
  | some (_, e) => (setL2Data s d (entWords e)).p d R.PEN_L2_STATUS.RESULT 0
  | none => s.p d R.PEN_L2_STATUS.RESULT 1

def l2ReadIndex (s : State) (d i : Nat) : State :=
  (setL2Data s d (match s.l2 d (i % 2 ^ 19) with
    | some e => entWords e
    | none => [])).p d R.PEN_L2_STATUS.RESULT 0

/-- A write of PEN_L2_CMD (R403). -/
def writeL2Cmd (s : State) (w : Wr) : State :=
  let d := w.d
  let op := R.PEN_L2_CMD.OP.of w.raw
  if s.on d R.PEN_L2_STATUS.BUSY ∨ op = 0 ∨ 7 < op ∨ (3 ≤ op ∧ d ≠ s.head) ∨ (op = 2 ∧ 2 ^ 19 ≤ R.PEN_L2_CMD.INDEX.of w.new) then
    s.ans .accessError
  else
    let s := s.setReg d w.r w.new
    (if op = 1 then l2Read s d
     else if op = 2 then l2ReadIndex s d (R.PEN_L2_CMD.INDEX.of w.new)
     else (s.p d R.PEN_L2_STATUS.BUSY 1).setPen { s.pen with cmd := some (op, l2Data s d) }).ans .ok

/-- A write of PEN_VLAN_CMD (R397). -/
def writeVlanCmd (s : State) (w : Wr) : State :=
  let d := w.d
  let v := R.PEN_VLAN_CMD.INDEX.of w.raw
  if 4096 ≤ v then s.ans .accessError
  else if R.PEN_VLAN_CMD.WRITE.of w.raw = 1 then
    ((List.range 4).foldl (fun s k =>
      s.setVlanWord d v k (BitVec.ofNat 32 (s.g d (R.PEN_VLAN_DATA.WORD k) &&& (if k = 2 then 0xFFFFFF03 else if k = 3 then 0
        else 0xFFFFFFFF)))) s).ans .ok
  else ((List.range 4).foldl (fun s k => s.p d (R.PEN_VLAN_DATA.WORD k) (s.vlanWord d v k).toNat) s).ans .ok

/-- A write of PEN_NH_CMD (R407). -/
def writeNhCmd (s : State) (w : Wr) : State :=
  let d := w.d
  let i := R.PEN_NH_CMD.INDEX.of w.raw
  if R.PEN_NH_CMD.WRITE.of w.raw = 1 then
    (s.setNhop d i (BitVec.ofNat 32 (s.g d R.PEN_NH_DATA.WORD &&& 0x800003FF))).ans .ok
  else (s.p d R.PEN_NH_DATA.WORD (s.nhop d i).toNat).ans .ok

/-! ## Meanings -/

/-- The port engine of a die works: it is out of reset and its domain is in RUN. -/
def penRuns (s : State) (d : Nat) : Bool := s.present d && !s.held d Blk.pen && !s.belowRun d

/-- The arbiter takes the software command, or the first learn event of a die (R400); a die that acts on its own applies its
events to its own replica (R404). -/
def execArbiterApply (src : Die) (command : Bool) (s : State) : Host.Outcome State Fault Refusal :=
  .next (
    if command then
      match s.pen.cmd with
      | some (op, w) =>
        if penRuns s s.head then
          let (r, s) := l2Command (s.setPen { s.pen with cmd := none }) op w
          (s.p s.head R.PEN_L2_STATUS.RESULT r).p s.head R.PEN_L2_STATUS.BUSY 0
        else s
      | none => s
    else
      match (s.penDie src).learn with
      | v :: l =>
        if penRuns s src then
          let t := s.setPenDie src { s.penDie src with learn := l }
          if s.on src R.PEN_STATUS.ARB_UNREACH then l2Apply t src v
          else if penRuns s s.head then l2Apply t arbTable v else s
        else s
      | [] => s)

/-- A replica applies the next change in sequence (R400). -/
def execReplicaUpdate (die : Die) (s : State) : Host.Outcome State Fault Refusal :=
  .next (match (s.penDie die).upd with
    | u :: l => replicaTake (s.setPenDie die { s.penDie die with upd := l, next := u.seq + 1 }) die u.idx u.ent
    | [] => s)

/-- A lock expires (R401). -/
def execLockExpiry (table : Fin 9) (index : Fin 524288) (s : State) : Host.Outcome State Fault Refusal :=
  .next (match s.l2 table index with
    | some e =>
      if e.locked then
        l2Change (s.setWindow table index false) table index (some { e with locked := false, moves := 0, left := 0 })
      else s
    | none => s)

/-- A move window ends (R401). -/
def execMoveWindowEnd (table : Fin 9) (index : Fin 524288) (s : State) : Host.Outcome State Fault Refusal :=
  .next (if s.window table index then
    let s := s.setWindow table index false
    match s.l2 table index with
    | some e => if e.locked then s else l2Change s table index (some { e with moves := 0 })
    | none => s
  else s)

/-- A tick of age (R402): HIT clears and AGE rises on every replica that the arbiter reaches, and entries that reach 4 go. -/
def execAgeTick (s : State) : Host.Outcome State Fault Refusal :=
  .next (if s.on s.head R.PEN_AGE_CFG.EN ∧ penRuns s s.head then
    let older (e : L2Ent) : L2Ent := { e with hit := false, age := if e.static then e.age else e.age + 1 }
    let tick (s : State) (t : Nat) : State := (l2Listed s t).foldl (fun s x => s.setL2 t x.1 (some (older x.2))) s
    let s := s.onDies (fun s d => if s.on d R.PEN_STATUS.ARB_UNREACH then s else tick s d)
    let s := tick s arbTable
    ((l2Listed s arbTable).filter (fun x => !x.2.static && decide (4 ≤ x.2.age))).foldl (fun s x =>
      l2Change (s.setWindow arbTable x.1 false) arbTable x.1 none) s
  else s)

/-- Copy the head die's replica to a die's. -/
def copyReplica (s : State) (d : Nat) : State :=
  let s := s.setPen { s.pen with l2 := SMap.keep s.pen.l2 (fun k => decide (k / 2 ^ 19 ≠ d)) }
  (l2Listed s s.head).foldl (fun s x => s.setL2 d x.1 (some { x.2 with hit := false })) s

/-- The copy of the head die's replica completes after an exit (R404, R418). -/
def execResyncDone (die : Die) (s : State) : Host.Outcome State Fault Refusal :=
  .next (if s.present die ∧ die.val ≠ s.head ∧ s.on die R.PEN_STATUS.RESYNC ∧ s.on die R.PEN_STATUS.ARB_UNREACH = false then
    let h := s.penDie s.head
    let s := copyReplica s die
    ((s.setPenDie die { s.penDie die with upd := h.upd, next := h.next }).p die R.PEN_STATUS.RESYNC 0).p die
      R.PEN_STATUS.REPLICA_STALE 0
  else s)

end Sys2Proof.Machine
end

