-- ==== Sys2Proof/Machine/PenTime.lean ====
section
/-!
DEFINITION. Device time, timestamps and PPS (R416, R417).
-/

namespace Sys2Proof.Machine

/-- A second, in units of 2^-32 ns. -/
def secUnits : Nat := 1000000000 * 2 ^ 32

/-- A die's time counter, in units of 2^-32 ns. -/
def timeNow (s : State) (d : Nat) : Nat :=
  s.g d R.PEN_TIME.SEC * secUnits + s.g d R.PEN_TIME.NS * 2 ^ 32 + (s.penDie d).frac

/-- Set a die's time counter; SEC wraps. -/
def setTime (s : State) (d t : Nat) : State :=
  let s := (s.p d R.PEN_TIME.SEC (t / secUnits)).p d R.PEN_TIME.NS (t % secUnits / 2 ^ 32)
  s.setPenDie d { s.penDie d with frac := t % 2 ^ 32 }

/-- A stamp, truncated to whole nanoseconds, corrected by a delay in ps (R417): SEC and NS. -/
def stamp (s : State) (d : Nat) (ps : Int) : Nat × Nat :=
  let t : Int := (timeNow s d : Int) + ps * 2 ^ 32 / 1000
  let t := t.toNat
  (t / secUnits % 2 ^ 32, t % secUnits / 2 ^ 32)

/-- The ingress stamp at a lane port: the frame passed the pins RX_DELAY earlier. -/
def rxStamp (s : State) (d p : Nat) : Nat × Nat := stamp s d (-(sext 16 (s.g d (R.PEN_PORT_DLY.RX_DELAY p))))
/-- The egress stamp at a lane port: the frame leaves the pins TX_DELAY later. -/
def txStamp (s : State) (d p : Nat) : Nat × Nat := stamp s d (sext 16 (s.g d (R.PEN_PORT_DLY.TX_DELAY p)))

/-- The units by which `ns` nanoseconds of the root move a time counter (R416): 0.75 × (1 + ADJ × 10^-9) ns a cycle. -/
def timeStepUnits (ns : Nat) (adj : Int) : Nat :=
  (ns * 4 / 3) * ((3 * (1000000000 + adj) * 2 ^ 32 / 4000000000 : Int)).toNat

/-- The root of a die has been LOCKED since it left OFF, so its hard clocks run (R40). -/
def hardClocks (s : State) (d : Nat) : Bool := s.present d && (s.clkOf d).everLocked

/-- What a SYNC tick makes of a time counter that has come to `t` (R416): a time that was set replaces it, steps are added. -/
def takeTime (x : TimeSet) (t : Nat) : Nat :=
  let t := match x.time with
    | some v => (v.toNat / 2 ^ 32) * secUnits + (v.toNat % 2 ^ 32) * 2 ^ 32
    | none => t
  match x.step with
  | some k => ((t : Int) + k * 2 ^ 32).toNat
  | none => t

/-- `ns` nanoseconds end in a SYNC tick (R416): what was set on the head die takes effect on every die, the head die's counter
goes on, and a dependent die's, where its port engine runs, is aligned to it; with the head die's port engine held, a counter goes on
by itself. -/
def timePass (s : State) (ns : Nat) : State :=
  let x := s.pen.time
  let s := s.setPen { s.pen with time := .reset }
  let on := s.dies.filter (fun d => hardClocks s d && penRuns s d)
  let s := match x.adj with
    | some v => s.each on (fun s d => s.p d R.PEN_TIME_ADJ.VALUE v.toNat)
    | none => s
  let next (s : State) (d : Nat) : Nat := takeTime x (timeNow s d + timeStepUnits ns (sext 32 (s.g d R.PEN_TIME_ADJ.VALUE)))
  let lead := next s s.head
  s.each on (fun s d => setTime s d (if on.contains s.head then lead else next s d))

/-- A write of PEN_TIME, PEN_TIME_ADJ or PEN_TIME_STEP on the head die (R416): checked, and taken at the next SYNC tick. -/
def writeTime (s : State) (w : Wr) : State :=
  if w.d ≠ s.head ∨ 1000000000 ≤ w.new % 2 ^ 32 then s.ans .accessError
  else
    let new := BitVec.ofNat 64 w.new
    (s.setPen { s.pen with time := { s.pen.time with time := some new } }).ans .ok
def writeTimeAdj (s : State) (w : Wr) : State :=
  let v := sext 32 w.new
  if w.d ≠ s.head ∨ v < -500000 ∨ 500000 < v then s.ans .accessError
  else (s.setPen { s.pen with time := { s.pen.time with adj := some (BitVec.ofNat 32 w.new) } }).ans .ok
def writeTimeStep (s : State) (w : Wr) : State :=
  if w.d ≠ s.head then s.ans .accessError
  else (s.setPen { s.pen with time := { s.pen.time with step := some (s.pen.time.step.getD 0 + sext 32 w.raw) } }).ans .ok

/-- A rising edge on PPS_IN of the head die (R417). -/
def execPpsInEdge (s : State) : Host.Outcome State Fault Refusal :=
  .next (if penRuns s s.head then
    (s.p s.head R.PEN_PPS_IN_TS.TIME (timeNow s s.head / 2 ^ 32 % 1000000000 + (timeNow s s.head / secUnits) * 2 ^ 32)).p s.head
      R.PEN_EVT.PPS_IN 1
  else s)

/-- PPS_OUT rises as NS passes 0 and falls after WIDTH ms (R417). -/
def execPpsOut (rise : Bool) (s : State) : Host.Outcome State Fault Refusal :=
  .next (if s.on s.head R.PEN_PPS_CFG.EN ∧ s.pen.pps ≠ rise then s.setPen { s.pen with pps := rise } else s)

/-- Add an egress timestamp record (R417). -/
def tsRecord (s : State) (d port tag : Nat) (t : Nat × Nat) : State :=
  let x := s.penDie d
  if 256 ≤ x.ts.length then ((s.setPenDie d { x with lost := true }).penCnt d 10).p d R.PEN_EVT.TS_OVF 1
  else s.setPenDie d { x with ts := x.ts ++ [⟨port, tag, t.1, t.2⟩] }

/-- A read of PEN_TS_POP pops one record (R417): the 64-bit value, and the state with PEN_TS_SEC. -/
def tsPop (s : State) (d : Nat) : Nat × State :=
  let x := s.penDie d
  let lost := if x.lost then 2 ^ 62 else 0
  let s := s.setPenDie d { x with ts := x.ts.drop 1, lost := false }
  match x.ts with
  | r :: _ => (2 ^ 63 + lost + r.port % 1024 * 2 ^ 48 + r.tag % 4096 * 2 ^ 32 + r.ns, s.p d R.PEN_TS_SEC.SEC r.sec)
  | [] => (lost, s)

end Sys2Proof.Machine
end

