-- ==== Sys2Proof/Machine/Capture.lean ====
section
/-!
DEFINITION. Snapshot capture (R159 to R164) and the start of a readback (R165, R166).
-/

namespace Sys2Proof.Machine

/-! ## Frames -/

/-- The clock region and the minor of a frame address (R93). -/
def frameRegion (fa : Nat) : Nat := fa / 3072
def frameMinor (fa : Nat) : Nat := fa % 3072

/-- A region declaration covers a tile. -/
def declTile (r : RegionDecl) (x y : Nat) : Bool :=
  decide (r.fcLo ≤ x / 5 ∧ x / 5 ≤ r.fcHi) && decide (r.rowLo ≤ y / 64 ∧ y / 64 ≤ r.rowHi)

/-- A bit of a capture frame (R159); where a region was fenced at the capture edge, its shadow is undefined (R163). -/
def shadowBit (s : State) (d fa b : Nat) : Bool :=
  let x := s.snapOf d
  let q := frameRegion fa
  let m := frameMinor fa - 3056
  let undef := (Config.undefWord (3000 + d) x.epoch (fa * 64 + b / 64)).getLsbD (b % 64)
  if m < 10 then
    let p := m * 4096 + b
    let t := p / 16
    let tx := q % 10 * 40 + t % 40
    let ty := q / 10 * 64 + t / 40
    if x.fenced.any (fun r => declTile r tx ty) then undef
    else SMap.get (fun _ => false) x.ffs ((ty * 400 + tx) * 16 + p % 16)
  else if m < 12 ∧ q < 114 then
    let p := (m - 10) * 4096 + b
    let k := q * 36 + p / 144
    if 36 ≤ p / 144 ∨ 4096 ≤ k then false
    else if x.fenced.any (fun r => r.bmems.contains k) then undef
    else (SMap.get (fun _ => 0#144) x.outs k).getLsbD (p % 144)
  else false

/-- The words of a capture frame. -/
def shadowFrame (s : State) (d fa : Nat) : List DWord :=
  (List.range 64).map (fun w => (List.range 64).foldl (fun (v : DWord) i =>
    if shadowBit s d fa (64 * w + i) then v ||| (1#64 <<< i) else v) 0)

/-- The words of a frame as readback finds them (R165). A dynamic frame holds the live contents of what it configures; which of
its bits are which is not documented (R93), so the words under count `e` are free. -/
def readFrame (s : State) (d e fa : Nat) : List DWord :=
  if isCaptureFrame fa then shadowFrame s d fa
  else if s.dynMark d fa then (List.range 64).map (fun w => Config.undefWord (3008 + d) e (fa * 64 + w))
  else s.frame d fa

/-! ## Captures (R161 to R164) -/

def Cap.idle : Nat := 0
def Cap.armed : Nat := 1
def Cap.delaying : Nat := 2
def Cap.captured : Nat := 3

def capState (s : State) (d : Nat) : Nat := s.g d R.CFG_CAP_STATUS.STATE

/-- A capture is armed or delaying. -/
def capWaits (s : State) (d : Nat) : Bool := capState s d == Cap.armed || capState s d == Cap.delaying

/-- Return a waiting capture to IDLE; the shadows and SNAP_VALID stay (R162). -/
def capIdle (s : State) (d : Nat) : State :=
  ((((s.p d R.CFG_CAP_STATUS.STATE Cap.idle).p d R.CFG_CAP_STATUS.REMAIN 0).p d R.CFG_CAP_CTRL.ARM 0)).setSnap d
    { s.snapOf d with taken := false }

/-- Entry to COLON or FULL_STOP cancels a waiting capture (R164). -/
def capCancel (s : State) (d : Nat) : State :=
  if capWaits s d then (capIdle s d).p d R.CFG_CAP_STATUS.CANCELLED 1 else s

/-- The frames that a running readback covers include a capture frame. -/
def rbCovers (s : State) (d : Nat) : Bool :=
  match s.rbOf d with
  | some x => x.capture || (List.range x.count).any (fun i => isCaptureFrame (x.fa + i))
  | none => false

/-- A write of CFG_CAP_CTRL (R128, R161, R162). ARM in the register shows a waiting capture, so a write of 0 leaves it. -/
def writeCap (s : State) (w : Wr) : State :=
  let d := w.d
  let arm := w.raw.testBit 31
  let abort := w.raw.testBit 30
  if 2 ≤ R.CFG_CAP_CTRL.TRIG.of w.new ∨ 48 ≤ R.CFG_CAP_CTRL.CLKSEL.of w.new ∨ (arm ∧ debugBelow s w.m) then s.ans .accessError
  else if arm && (capWaits s d || (s.on d R.CFG_RB_STATUS.BUSY && rbCovers s d)) then s.ans .accessError
  else
    let keep := s.on d R.CFG_CAP_CTRL.ARM
    let s := (s.setReg d w.r w.new).p d R.CFG_CAP_CTRL.ARM (if keep || arm then 1 else 0)
    let s := if abort && capWaits s d then capIdle s d else s
    (if arm then (s.p d R.CFG_CAP_STATUS.STATE Cap.armed).p d R.CFG_CAP_STATUS.REMAIN 0 else s).ans .ok

/-- What the flip-flops and output registers of a die hold now (R159, R161). -/
def takeSnap (s : State) (d : Nat) : State :=
  let fences := ((List.range 32).filter (s.regionFenced d)).filterMap (regionDecl s d)
  let (e, s) := s.newEpoch
  let ffs := (s.fab.ff.filter (fun x => x.1 / 2 ^ 23 == d)).map (fun x => (x.1 % 2 ^ 23, x.2))
  let outs := (s.fab.bm.filter (fun x => x.1 / 4096 == d)).filterMap (fun x =>
    let v := x.2.outB ++ x.2.outA
    if v = 0 then none else some (x.1 % 4096, v))
  (if fences.isEmpty then s else s.p d R.CFG_CAP_STATUS.PR_OVERLAP 1).setSnap d
    ⟨ffs, outs, fences, e, true, BitVec.ofNat 64 (s.g d R.PEN_TIME.SEC * 2 ^ 32 + s.g d R.PEN_TIME.NS)⟩

/-- The clock that the capture is on shows edges (R162, R164). -/
def capClocked (s : State) (d : Nat) : Bool := s.present d && clkselRuns s d (s.g d R.CFG_CAP_CTRL.CLKSEL)

/-- The trigger edge (R161), which with DELAY = 0 is the capture edge. -/
def execCaptureTrigger (die : Die) (s : State) : Host.Outcome State Fault Refusal :=
  let n := s.g die R.CFG_CAP_CTRL.DELAY
  .next (if capClocked s die && capState s die == Cap.armed then
    let s := (s.p die R.CFG_CAP_STATUS.STATE Cap.delaying).p die R.CFG_CAP_STATUS.REMAIN n
    if n = 0 then takeSnap s die else s
  else s)

/-- A rising edge of the selected clock after the trigger edge (R161): REMAIN counts down, and the DELAYth edge is the capture edge. -/
def execCaptureEdge (die : Die) (s : State) : Host.Outcome State Fault Refusal :=
  let n := s.g die R.CFG_CAP_STATUS.REMAIN
  .next (if capClocked s die && capState s die == Cap.delaying && !(s.snapOf die).taken then
    let s := s.p die R.CFG_CAP_STATUS.REMAIN (n - 1)
    if n ≤ 1 then takeSnap s die else s
  else s)

/-- 16 ns after the capture edge (R161). -/
def execCaptureDone (die : Die) (s : State) : Host.Outcome State Fault Refusal :=
  .next (if capState s die == Cap.delaying && (s.snapOf die).taken then
    let t := (s.snapOf die).time
    let s := (capIdle s die).p die R.CFG_CAP_STATUS.STATE Cap.captured
    ((s.p die R.CFG_CAP_STATUS.SNAP_VALID 1).p die R.CFG_CAP_TIME.TIME t.toNat).pulse die (die * 72 + 5)
  else s)

/-- 1 ms without an edge of the selected clock (R162). -/
def execCaptureClkStopped (die : Die) (s : State) : Host.Outcome State Fault Refusal :=
  .next (if capWaits s die && !capClocked s die then s.p die R.CFG_CAP_STATUS.CLK_STOPPED 1 else s)

/-! ## Readback (R165, R166) -/

def Rb.ok : Nat := 0
def Rb.denied : Nat := 1
def Rb.range : Nat := 2
def Rb.busy : Nat := 3
def Rb.memError : Nat := 4
def Rb.aborted : Nat := 5

/-- A readback ends with a result. -/
def rbEnd (s : State) (d result : Nat) : State :=
  (((s.setRb d none).p d R.CFG_RB_STATUS.BUSY 0).p d R.CFG_RB_STATUS.RESULT result).p d R.CFG_RB_STATUS.DONE 1

/-- A load or partial load is writing frames on the die (R165). -/
def loadWrites (s : State) (d : Nat) : Bool :=
  s.cfg.parse.kind == .full || (s.cfg.parse.kind == .partialLoad && s.cfg.parse.written.any (fun e => e.1 / 2 ^ 19 == d))

/-- The readback may not see the frames it names (R128, R166). -/
def rbDenied (s : State) (m : Master) (d : Nat) : Bool :=
  if debugBelow s m then true
  else if s.on d R.CFG_RB_CTRL.CAPTURE then s.lc == Lc.scrapped
  else s.lc == Lc.deployed && decide (s.dbgLevel < 2)
    && (List.range (s.g d R.CFG_RB_COUNT.COUNT)).any (fun i => !isCaptureFrame (s.g d R.CFG_RB_CTRL.FA + i))

/-- A write of CFG_RB_CTRL. A readback that is denied, out of range or blocked ends at once; any other runs on the frames and the
destination that the registers name now (R165, R166). -/
def writeRbCtrl (s : State) (w : Wr) : State :=
  let d := w.d
  if w.raw.testBit 31 then
    if s.on d R.CFG_RB_STATUS.BUSY then s.ans .accessError
    else
      let s := s.setReg d w.r w.new
      let n := s.g d R.CFG_RB_COUNT.COUNT
      let cap := s.on d R.CFG_RB_CTRL.CAPTURE
      if !cap && (n == 0 || decide (frameCount < s.g d R.CFG_RB_CTRL.FA + n)) then (rbEnd s d Rb.range).ans .ok
      else if rbDenied s w.m d then (rbEnd s d Rb.denied).ans .ok
      else if loadWrites s d then (rbEnd s d Rb.busy).ans .ok
      else
        let (e, s) := s.newEpoch
        ((s.setRb d (some ⟨s.g d R.CFG_RB_CTRL.FA, n, s.g d R.CFG_RB_DEST.DEST, cap, 0, e⟩)).p d R.CFG_RB_STATUS.BUSY 1).ans .ok
  else s.store w

/-- A running readback is aborted (R165). -/
def rbAbort (s : State) (d : Nat) : State := if s.on d R.CFG_RB_STATUS.BUSY then rbEnd s d Rb.aborted else s

end Sys2Proof.Machine
end

