-- ==== Sys2Proof/Machine/SeIsa.lean ====
section
/-!
DEFINITION. What a signal engine computes (R223 to R231): instruction fields, scalar and lane functions with their truncation,
saturation and sticky flags, and the addresses of its memory instructions.
-/

namespace Sys2Proof.Machine

/-! ## Fields of an instruction (R224) -/

/-- The bits below [31:26] that an opcode uses; any other bit that is 1 raises ILLEGAL (R225). None for an opcode not listed. -/
def seUses (op : Nat) : Option Nat :=
  if op = 0x00 then some 0 else if op = 0x01 then some 0x3FFF
  else if op = 0x02 then some 0x03FC3FFF
  else if op = 0x03 then some 0x3FFF else if op = 0x04 then some 0x03E00000
  else if op = 0x05 then some 0 else if op = 0x06 then some 0x03FFCFFF
  else if op = 0x07 then some 0x03800000 else if op = 0x08 then some 1
  else if op = 0x09 then some 0x03FF0001 else if op = 0x0A then some 7
  else if op = 0x0B then some 0x001F0001 else if op = 0x0C then some 0x3F
  else if op = 0x10 then some 0x03FFF81F
  else if 0x11 ≤ op ∧ op ≤ 0x14 then some 0x03FFFFFF
  else if op = 0x15 then some 0x03E0FFFF else if op = 0x16 then some 0x03FFF8DF
  else if op = 0x17 then some 0x03FFFFFF else if op = 0x18 then some 0x03FF0001
  else if op = 0x19 then some 0x001CFFFF
  else if 0x20 ≤ op ∧ op ≤ 0x24 then some 0x03FFFFFF
  else if op = 0x28 then some 0x03FFFF1F else if op = 0x29 then some 0x03FFFF03
  else if op = 0x2A then some 0x03FF0600 else if op = 0x2B then some 0x03FF063F
  else if op = 0x2C then some 0x007FFF00 else if op = 0x2D then some 0x007F063F
  else if op = 0x2E then some 0x03E3FE3F else if op = 0x2F then some 0x001F0E00
  else none

/-- A branch (R232). -/
def seBranch (op : Nat) : Bool := decide (1 ≤ op ∧ op ≤ 5)

/-- May not stand in a delay slot (R232). -/
def seNoDelay (op : Nat) : Bool := seBranch op || op == 0x06 || op == 0x07 || op == 0x0A

/-- May not stand in a repeat block (R234). -/
def seNoBlock (op : Nat) : Bool := seBranch op || op == 0x07 || op == 0x0A || op == 0x08

/-! ## Sticky bits (R219) -/

def Sticky.none : BitVec 3 := 0
def Sticky.satf : BitVec 3 := 1
def Sticky.ovf : BitVec 3 := 2
def Sticky.aov : BitVec 3 := 4

/-- The value fits in `w` bits, signed. -/
def fits (w : Nat) (x : Int) : Bool := decide (-(2 ^ (w - 1) : Int) ≤ x ∧ x < 2 ^ (w - 1))

/-- A result held to `w` bits with saturation on request (R228): the value and the sticky bits. -/
def satOr (w : Nat) (sat : Bool) (x : Int) : Int × BitVec 3 :=
  if sat && !fits w x then (satInt w x, Sticky.satf) else (x, Sticky.none)

/-- A left shift held to `w` bits (R228). -/
def shiftLeft (w : Nat) (sat : Bool) (x : Int) (n : Nat) : Int × BitVec 3 :=
  let r := x * 2 ^ n
  if fits w r then (r, Sticky.none) else if sat then (satInt w r, Sticky.satf) else (r, Sticky.ovf)

/-- Redundant sign bits of a signed value of `w` bits (R231). -/
def redSign (w : Nat) (x : Int) : Nat := redundantSign (BitVec.ofInt w x)

/-! ## Scalar functions (R226) -/

/-- The result of SALU function `fn` on two S registers, and its sticky bits. Reserved functions are refused before. -/
def saluFn (fn : Nat) (a b : Word) : Int × BitVec 3 :=
  let x := a.toInt
  let y := b.toInt
  let n := b.toNat % 32
  let flag (c : Bool) : Int := if c then 1 else 0
  match fn with
  | 0 => (x + y, 0)
  | 1 => (x - y, 0)
  | 2 => ((a &&& b).toInt, 0)
  | 3 => ((a ||| b).toInt, 0)
  | 4 => ((a ^^^ b).toInt, 0)
  | 5 => shiftLeft 32 false x n
  | 6 => ((a.toNat / 2 ^ n : Nat), 0)
  | 7 => (x / 2 ^ n, 0)
  | 8 => (flag (decide (x < y)), 0)
  | 9 => (flag (decide (a.toNat < b.toNat)), 0)
  | 10 => (min x y, 0)
  | 11 => (max x y, 0)
  | 12 => (x * y, 0)
  | 13 => (x * y / 2 ^ 32, 0)
  | 14 => ((redSign 32 x : Nat), 0)
  | 15 => (x * 2 ^ redSign 32 x, 0)
  | 16 => satOr 32 true (x + y)
  | _ => satOr 32 true (x - y)

/-- SHI (R225): left, logical right, arithmetic right. -/
def shiFn (kind : Nat) (a : Word) (n : Nat) : Int × BitVec 3 :=
  if kind = 0 then shiftLeft 32 false a.toInt n
  else if kind = 1 then ((a.toNat / 2 ^ n : Nat), 0)
  else (a.toInt / 2 ^ n, 0)

/-! ## Lanes (R216) -/

/-- Lane `j` of a vector at `w` bits, as its bits. -/
def laneNat (ws : List MWord) (w j : Nat) : Nat := fld (ws.getD (w * j / 64) ⟨0, false⟩).v.toNat (w * j % 64) w

/-- Lane `j` of a vector at `w` bits, signed. -/
def lane (ws : List MWord) (w j : Nat) : Int := sext w (laneNat ws w j)

/-- A 64-bit word made of lanes of `w` bits. -/
def packWord (w : Nat) (ls : List Int) : DWord :=
  BitVec.ofNat 64 (ls.foldr (fun x (a : Nat) => wrapNat w x + a * 2 ^ w) 0)

/-- A vector made of lanes of `w` bits, with no marks. -/
def packLanes (w : Nat) (f : Nat → Int) : List MWord :=
  (List.range 8).map (fun k => ⟨packWord w ((List.range (64 / w)).map (fun j => f (k * (64 / w) + j))), false⟩)

/-- The lane size of an SZ field (R225). -/
def szBits (sz : Nat) : Nat := if sz = 0 then 8 else if sz = 1 then 16 else 32

/-- Some word of a vector is marked. -/
def marked (ws : List MWord) : Bool := ws.any (fun x => x.p)

/-- The OR of sticky bits over lanes 0 to n - 1. -/
def stickyOr (n : Nat) (f : Nat → BitVec 3) : BitVec 3 := (List.range n).foldl (fun a j => a ||| f j) 0

/-- VALU function `fn` on one lane (R227); VSWAP is handled by its caller's choice of lane. -/
def valuFn (fn w : Nat) (sat : Bool) (x y : Int) : Int × BitVec 3 :=
  match fn with
  | 0 => satOr w sat (x + y)
  | 1 => satOr w sat (x - y)
  | 2 => ((BitVec.ofInt w x &&& BitVec.ofInt w y).toInt, 0)
  | 3 => ((BitVec.ofInt w x ||| BitVec.ofInt w y).toInt, 0)
  | 4 => ((BitVec.ofInt w x ^^^ BitVec.ofInt w y).toInt, 0)
  | 5 => (min x y, 0)
  | 6 => (max x y, 0)
  | 7 => satOr w sat (if x < 0 then -x else x)
  | 8 => satOr w sat (-x)
  | 11 => ((redSign w x : Nat), 0)
  | 12 => (x * 2 ^ redSign w x, 0)
  | _ => (x, 0)

/-- VALU functions that read a second operand (R227). -/
def valuTwo (fn : Nat) : Bool := decide (fn ≤ 6)

/-- VSH on one lane (R225, R228). -/
def vshFn (kind w : Nat) (sat : Bool) (v n : Nat) : Int × BitVec 3 :=
  if kind = 0 then shiftLeft w sat (sext w v) n
  else if kind = 1 then ((v / 2 ^ n : Nat), 0)
  else (sext w v / 2 ^ n, 0)

/-- An accumulator lane after OP of VMAC or VACC (R229): wrapped to 48 bits, with AOV on signed overflow. -/
def accOp (op : Nat) (old : BitVec 48) (v : Int) : BitVec 48 × BitVec 3 :=
  let r := if op = 0 then v else if op = 1 then old.toInt + v else old.toInt - v
  (BitVec.ofInt 48 r, if fits 48 r then Sticky.none else Sticky.aov)

/-- One lane of VNAR (R230). -/
def vnarLane (a : BitVec 48) (sh : Nat) (sat : Bool) : Int × BitVec 3 :=
  let x := a.toInt / 2 ^ sh
  if fits 16 x then (x, Sticky.none)
  else if sat then ((if a.toInt < 0 then -32768 else 32767), Sticky.satf)
  else (x, Sticky.ovf)

/-! ## Pointers (R223) -/

/-- The smallest power of two that is at least `n`. -/
def ceilPow2 (n : Nat) : Nat := ((List.range 19).map (fun k => 2 ^ k)).find? (fun p => decide (n ≤ p)) |>.getD (2 ^ 18)

/-- A pointer after a step, wrapped in its circular buffer when the length is not 0 (R223). -/
def stepPtr (p l : BitVec 18) (step : Int) : BitVec 18 :=
  if l = 0 then BitVec.ofInt 18 (p.toNat + step)
  else
    let n := ceilPow2 l.toNat
    let base := p.toNat / n * n
    BitVec.ofInt 18 (base + ((p.toNat - base : Nat) + step) % l.toNat)

/-! ## Program memory's code (R248) -/

/-- The columns g(0) to g(31): the first 32 seven-bit values of weight 3 in ascending order. -/
def pmCols : List Nat := ((List.range 128).filter (fun v => popcount 7 v == 3)).take 32

/-- The check bits of an instruction. -/
def pmCheck (w : Word) : BitVec 7 := BitVec.ofNat 7 (secdedXor pmCols w.toNat)

/-- A stored instruction: check bits above its 32 bits. -/
def pmPack (w : Word) (c : BitVec 7) : BitVec 39 := c.append w

/-- What a fetch finds: the instruction, corrected, and whether an error was corrected; none when uncorrectable. -/
def pmSee (x : BitVec 39) : Option (Word × Bool) :=
  let w := x.extractLsb' 0 32
  let y := (x.extractLsb' 32 7 ^^^ pmCheck w).toNat
  if y = 0 then some (w, false)
  else if popcount 7 y = 1 then some (w, true)
  else match pmCols.findIdx? (fun g => g == y) with
    | some j => some (w ^^^ (1#32 <<< j), true)
    | none => none

end Sys2Proof.Machine
end

