-- ==== Sys2Proof/Machine/SeCore.lean ====
section
/-!
DEFINITION. A signal engine's machinery (09_signal_engines): its memories with their codes, results in flight, the issue of one
instruction with its checks, repeat blocks, branches, errors, and the start and stop of an execution.
-/

namespace Sys2Proof.Machine

def SeState.idle : Nat := 0
def SeState.run : Nat := 1
def SeState.wait : Nat := 2
def SeState.halting : Nat := 3
def SeState.halted : Nat := 4
def SeState.error : Nat := 5
def SeState.aborting : Nat := 6

def SeErr.illegal : Nat := 1
def SeErr.misalign : Nat := 2
def SeErr.poison : Nat := 3
def SeErr.pmemUe : Nat := 4
def SeErr.dma : Nat := 5
def SeErr.desc : Nat := 6

def State.seState (s : State) (d i : Nat) : Nat := s.g d (R.SEA_STATUS.STATE i)
def State.setSeState (s : State) (d i v : Nat) : State := s.p d (R.SEA_STATUS.STATE i) v

/-- The engine is in stand-alone mode (R245). -/
def State.standalone (s : State) (d i : Nat) : Bool := s.on d (R.SEA_CTRL.MODE i)

/-- The gates above an engine are open (R218). -/
def seGatesOpen (s : State) (d i : Nat) : Bool := gateOpen s d (96 + i) && gateOpen s d (64 + i / 8) && gateOpen s d 38

/-- The engine's clock runs: its gates are open, its block is not in reset, and the die is in RUN (R218, R249). -/
def seClocked (s : State) (d i : Nat) : Bool :=
  s.present d && seGatesOpen s d i && !s.held d Blk.sea && !s.belowRun d

/-! ## Data memory (R217, R247) -/

def dmSyn (s : State) (d i w : Nat) : Nat :=
  let x := s.dmWord d i w
  (x.chk ^^^ secdedCheck x.d).toNat

/-- The word that a read delivers (R247). -/
def dmSees (s : State) (d i w : Nat) : MWord := synWord (s.dmWord d i w).d (synOf (dmSyn s d i w))

/-- A corrected error is counted (R247). -/
def dmNote (s : State) (d i w : Nat) : State := if (synOf (dmSyn s d i w)).ce then s.incSat d (R.SEA_ECC.DM_CE i) else s

/-- The flips that an armed SEA_ECC_TESTi makes in the next write to a memory, and the state with it disarmed (R248). -/
def seFlip (s : State) (d i : Nat) (pm : Bool) : Byte × State :=
  if s.on d (R.SEA_ECC_TEST.ARM i) ∧ s.on d (R.SEA_ECC_TEST.PM i) = pm then
    (BitVec.ofNat 8 (s.g d (R.SEA_ECC_TEST.FLIP i)), s.p d (R.SEA_ECC_TEST.ARM i) 0)
  else (0, s)

/-- Write the enabled bytes of one data-memory word, check bits flipped as given; a part of an uncorrectable word stays poison. -/
def dmPut (s : State) (d i : Nat) (flip : Byte) (w : Nat) (v : MWord) (be : Byte) : State :=
  if be = 0#8 then s
  else
    let old := dmSees s d i w
    let s := if be = 0xFF#8 then s else dmNote s d i w
    let x := mergeBytes old.v v.v be
    let bad := v.p || (be != 0xFF#8 && old.p)
    s.setDmWord d i w ⟨x, (if bad then ~~~ secdedCheck x else secdedCheck x) ^^^ flip⟩

/-- Write words of data memory from word `w` on, wrapping (R217). -/
def dmWrite (s : State) (d i w : Nat) (ws : List (MWord × Byte)) : State :=
  let (flip, s) := seFlip s d i false
  ws.zipIdx.foldl (fun s x => dmPut s d i flip ((w + x.2) % 32768) x.1.1 x.1.2) s

/-- Read words of data memory from word `w` on, wrapping, with errors counted. -/
def dmRead (s : State) (d i w n : Nat) : List MWord × State :=
  let l := (List.range n).map (fun k => (w + k) % 32768)
  (l.map (dmSees s d i), l.foldl (fun s k => dmNote s d i k) s)

/-! ## Program memory (R218, R248) -/

/-- Write one instruction; poison inverts its check bits (R218). -/
def pmPut (s : State) (d i : Nat) (flip : Byte) (n : Nat) (w : Word) (poison : Bool) : State :=
  let c := (if poison then ~~~ pmCheck w else pmCheck w) ^^^ flip.truncate 7
  s.setPmWord d i n (pmPack w c)

/-- Write the enabled bytes of a 64-bit word of program memory, two instructions: a narrower write reads the word and writes all of it
(R218). -/
def pmWrite (s : State) (d i w : Nat) (ws : List (MWord × Byte)) : State :=
  let (flip, s) := seFlip s d i true
  ws.zipIdx.foldl (fun s x =>
    [0, 1].foldl (fun s h =>
      let be := fld x.1.2.toNat (4 * h) 4
      if x.1.2 = 0#8 then s
      else
        let n := (2 * (w + x.2) + h) % 16384
        let old := pmSee (s.pmWord d i n)
        let o : Word := match old with
          | some (y, _) => y
          | none => (s.pmWord d i n).extractLsb' 0 32
        let m := mergeBytes (o.zeroExtend 64) ((x.1.1.v >>> (32 * h)).truncate 32 |>.zeroExtend 64) (BitVec.ofNat 8 be)
        let s := match old with
          | some (_, true) => if be = 15 then s else s.incSat d (R.SEA_ECC.PM_CE i)
          | _ => s
        pmPut s d i flip n (m.truncate 32) (x.1.1.p || (be != 15 && old.isNone))) s) s

/-- A 64-bit word of program memory as a NoC read returns it (R248). -/
def pmSees (s : State) (d i w : Nat) : MWord :=
  let at_ (h : Nat) : Word × Bool := match pmSee (s.pmWord d i ((2 * w + h) % 16384)) with
    | some (y, _) => (y, false)
    | none => ((s.pmWord d i ((2 * w + h) % 16384)).extractLsb' 0 32, true)
  ⟨(at_ 1).1.append (at_ 0).1, (at_ 0).2 || (at_ 1).2⟩

/-- Count the corrections a read of program memory makes (R248). -/
def pmNote (s : State) (d i n : Nat) : State :=
  match pmSee (s.pmWord d i n) with
  | some (_, true) => s.incSat d (R.SEA_ECC.PM_CE i)
  | some (_, false) => s
  | none => s

/-! ## Registers -/

def SEng.sreg (e : SEng) (n : Nat) : SReg := SMap.get (fun _ => ⟨0, false⟩) e.s n
def SEng.preg (e : SEng) (n : Nat) : BitVec 18 := SMap.get (fun _ => 0) e.p n
def SEng.mreg (e : SEng) (n : Nat) : BitVec 18 := SMap.get (fun _ => 0) e.m n
def SEng.lreg (e : SEng) (n : Nat) : BitVec 18 := SMap.get (fun _ => 0) e.l n
def SEng.vreg (e : SEng) (n : Nat) : List MWord := (List.range 8).map (fun k => SMap.get (fun _ => ⟨0, false⟩) e.v (n * 8 + k))
def SEng.chainOf (e : SEng) (k j : Nat) : BitVec 48 := SMap.get (fun _ => 0) e.chain (k * 32 + j)
def SEng.accOf (e : SEng) (k j : Nat) : BitVec 48 := SMap.get (fun _ => 0) e.acc (k * 32 + j)
def SEng.setP (e : SEng) (n : Nat) (v : BitVec 18) : SEng := { e with p := SMap.set (fun _ => 0) e.p n v }
def SEng.setM (e : SEng) (n : Nat) (v : BitVec 18) : SEng := { e with m := SMap.set (fun _ => 0) e.m n v }
def SEng.setL (e : SEng) (n : Nat) (v : BitVec 18) : SEng := { e with l := SMap.set (fun _ => 0) e.l n v }
def SEng.setChain (e : SEng) (k : Nat) (ls : List (BitVec 48)) : SEng :=
  { e with chain := ls.zipIdx.foldl (fun m x => SMap.set (fun _ => 0) m (k * 32 + x.2) x.1) e.chain }
def SEng.ch (e : SEng) (c : Nat) : DmaCh := if c = 0 then e.dma0 else e.dma1
def SEng.setCh (e : SEng) (c : Nat) (x : DmaCh) : SEng := if c = 0 then { e with dma0 := x } else { e with dma1 := x }

/-! ## Results in flight (R220, R221) -/

/-- A result becomes visible. -/
def SEng.land (e : SEng) : SeDst → SEng
  | .s i x => if i = 0 then e else { e with s := SMap.set (fun _ => ⟨0, false⟩) e.s i x }
  | .v i ws => { e with v := ws.zipIdx.foldl (fun m x => SMap.set (fun _ => ⟨0, false⟩) m (i * 8 + x.2) x.1) e.v }
  | .acc k ls => { e with acc := ls.zipIdx.foldl (fun m x => SMap.set (fun _ => 0) m (k * 32 + x.2) x.1) e.acc }
  | .bx n => { e with bx := min n 47 }
  | .bxMin n => { e with bx := min e.bx n }
  | .sticky b => { e with sticky := e.sticky ||| b }
  | .stat v => { e with sticky := v.truncate 3, ie := v.getLsbD 3 }
  | .ie b => { e with ie := b }
  | .ipc v => { e with ipc := v.toNat % 16384 }
  | .istat v => { e with pend := e.pend &&& ~~~ v.truncate 3, mask := v.extractLsb' 4 3 }
  | .ivec v => { e with ivec := v.toNat % 16384 }

/-- Put a result in flight with a latency. -/
def SEng.send (e : SEng) (lat : Nat) (x : SeDst) : SEng := { e with fly := e.fly ++ [⟨e.slot + lat, x⟩] }

/-- Put sticky bits in flight. -/
def SEng.sendSticky (e : SEng) (lat : Nat) (b : BitVec 3) : SEng := if b = 0 then e else e.send lat (.sticky b)

/-- Make visible what is due in slot `t`: earlier slots first, and in issue order within a slot (R221). -/
def SEng.landAt (e : SEng) (t : Nat) : SEng :=
  let e' := (e.fly.filter (fun f => f.due == t)).foldl (fun e f => e.land f.dst) e
  { e' with fly := e'.fly.filter (fun f => f.due != t) }

/-- Let `n` slots pass (R220). -/
def SEng.pass (e : SEng) : Nat → SEng
  | 0 => e
  | n + 1 => SEng.pass (({ e with slot := e.slot + 1 }).landAt (e.slot + 1)) n

/-- Every issued instruction completes and makes its result visible (R235, R243): the longest latency is 4. -/
def SEng.drain (e : SEng) : SEng := e.pass 4

/-! ## Errors and the end of an execution -/

/-! ### The requests of a transfer (R239) -/

/-- One request of a transfer: its system address, its data-memory address and its bytes. -/
structure DmaPart where
  addr : Nat
  loc  : Nat
  len  : Nat
  deriving DecidableEq, Repr

/-- Split `n` bytes at addresses from `a` on into requests that end at multiples of `unit`. -/
def splitAt (unit : Nat) : Nat → Nat → Nat → Nat → List DmaPart
  | 0, _, _, _ => []
  | fuel + 1, a, l, n =>
    if n = 0 then []
    else
      let k := min n (unit - a % unit)
      ⟨a, l, k⟩ :: splitAt unit fuel (a + k) (l + k) (n - k)

/-- A row that lies in cacheable space or in fabric user space: to the first 64-byte boundary, bursts to each 4 KiB boundary, and what
is left after the last 64-byte boundary. -/
def splitBurst (a l n : Nat) : List DmaPart :=
  let h := min n ((64 - a % 64) % 64)
  let mid := (n - h) / 64 * 64
  let head := if h = 0 then [] else [⟨a, l, h⟩]
  let tail := if n - h - mid = 0 then [] else [⟨a + h + mid, l + h + mid, n - h - mid⟩]
  head ++ splitAt 4096 18 (a + h) (l + h) mid ++ tail

/-- The requests of one row. -/
def rowParts (s : State) (m : Master) (a l n : Nat) : List DmaPart :=
  match decodeAddr s m (s.dieOfRid m.rid) a with
  | .se _ _ _ => splitAt 64 1025 a l n
  | .ctrl _ _ => splitAt 8 8193 a l n
  | _ => splitBurst a l n

/-- The requests of a transfer in issue order. -/
def dmaParts (s : State) (m : Master) (x : DmaDesc) : List DmaPart :=
  (List.range x.rows).flatMap (fun k =>
    rowParts s m (wrapNat 64 ((x.remote : Int) + (k : Nat) * x.rstride)) (wrapNat 18 ((x.loc : Int) + (k : Nat) * x.lstride)) x.len)

/-- Both channels are idle and have no error to raise. -/
def SEng.noDma (e : SEng) : SEng :=
  { e with dma0 := { e.dma0 with run := none, done := 0, err := false }, dma1 := { e.dma1 with run := none, done := 0, err := false } }

/-- A channel stops issuing: of its next requests, at most 32 were already issued, and how many is a free value; what a write of
them carries was read (R239, R244). -/
def seStopCh (s : State) (d i c : Nat) : State :=
  match ((s.eng d i).ch c).run with
  | none => s
  | some x =>
    let (n, s) := s.free 6
    (((dmaParts s (s.seMaster d i) x).drop ((s.eng d i).ch c).done).take (min n.toNat 32)).foldl (fun s p =>
      if x.write then
        match dmRead s d i (p.loc / 8) (p.len / 8) with
        | (ws, s) => s.setSeLate d i (s.seLate d i ++ [⟨p.addr, p.len / 8, some ws⟩])
      else s.setSeLate d i (s.seLate d i ++ [⟨p.addr, p.len / 8, none⟩])) s

/-- Both channels stop (R244 step 2). -/
def seStopDma (s : State) (d i : Nat) : State :=
  let s := seStopCh (seStopCh s d i 0) d i 1
  s.setEng d i (s.eng d i).noDma

/-- Forget the flow of an execution. -/
def SEng.noFlow (e : SEng) : SEng := { e with br := none, outer := none, inner := none, fin := none }

/-- The unit code of an engine (R260). -/
def seUnit (i : Nat) : Nat := i

/-- The completion that an engine owes after an error is sent once its channels are idle and the completion buffer has room
(R246, R271). -/
def seOwed (s : State) (d i : Nat) : State :=
  let e := s.eng d i
  if e.owed ∧ (s.seLate d i).isEmpty ∧ s.cplRoom d then
    (s.setEng d i { e with owed := false }).sendCpl d ⟨seUnit i, e.ticket, 1, []⟩
  else s

/-- An error stops the engine precisely (R246): the completion follows once the channels are idle. -/
def seError (s : State) (d i : Nat) (code resp ch pc : Nat) : State :=
  let e := (s.eng d i).drain
  let disp := !s.standalone d i
  let s := (seStopDma (s.setEng d i { e.noFlow with pc := pc }) d i).setSeState d i SeState.error
  let s := (((s.p d (R.SEA_ERR.CODE i) code).p d (R.SEA_ERR.RESP i) resp).p d (R.SEA_ERR.CH i) ch).p d (R.SEA_ERR.PC i) pc
  let s := s.setBit d R.SEA_EVT_ERR.ERR i
  if disp then seOwed (s.setEng d i { s.eng d i with owed := true }) d i else s

/-- Begin an execution (R242, R245). -/
def seStart (s : State) (d i entry ticket : Nat) (desc : List Word) : State :=
  let e := (s.eng d i).drain.noDma.noFlow
  let e := { e with
    sticky := 0, ie := false, pend := 0, bx := 47, lc0 := 0, lc1 := 0, pc := entry % 16384, ticket := ticket
    desc := desc, slot := 0, fly := [] }
  let s := ((s.setEng d i e).setSeState d i SeState.run).p d (R.SEA_STATUS.IN_ISR i) 0
  (((s.p d (R.SEA_ERR.CODE i) 0).p d (R.SEA_ERR.RESP i) 0).p d (R.SEA_ERR.CH i) 0).p d (R.SEA_ERR.PC i) 0

/-- An engine that runs stops (R244): what it had issued completes, its channels stop, and it is ABORTING. -/
def seStop (s : State) (d i : Nat) : State :=
  let st := s.seState d i
  if st = SeState.run ∨ st = SeState.wait ∨ st = SeState.halting then
    (seStopDma (s.setEng d i (s.eng d i).drain.noFlow) d i).setSeState d i SeState.aborting
  else s

/-- ABORT for a ticket (R244): nothing when the engine no longer runs it. -/
def seAbort (s : State) (d i ticket : Nat) : State := if (s.eng d i).ticket = ticket then seStop s d i else s

/-! ## Repeat blocks and the next PC (R233, R234) -/

/-- The last instruction of the outer block's iteration has issued. -/
def SEng.outerEnd (e : SEng) (pc : Nat) : SEng × Nat :=
  match e.outer with
  | some b =>
    if b.last = pc then
      let e := { e with lc0 := e.lc0 - 1 }
      if e.lc0 = 0 then ({ e with outer := none }, pc + 1) else (e, b.start)
    else (e, pc + 1)
  | none => (e, pc + 1)

/-- The instruction that issues after the one at `pc`, in straight code and repeat blocks. -/
def SEng.after (e : SEng) (pc : Nat) : SEng × Nat :=
  match e.inner with
  | some b =>
    if b.last = pc then
      let e := { e with lc1 := e.lc1 - 1 }
      if e.lc1 = 0 then ({ e with inner := none }).outerEnd pc else (e, b.start)
    else (e, pc + 1)
  | none => e.outerEnd pc

/-! ## Issue -/

/-- What an instruction does when it would issue: raise an error, or take effect, its PC's successor chosen or the next. -/
inductive SeRes where
  | err (code resp ch : Nat)
  | ok (s : State) (e : SEng) (npc : Option Nat)

/-- A slot is interruptible, the IE term apart (R236). -/
def SEng.gap (e : SEng) : Bool := e.br.isNone && e.outer.isNone && e.fin.isNone

/-- An interrupt is taken before the next slot (R235). -/
def SEng.irqDue (e : SEng) : Bool := e.ie && (e.pend &&& e.mask) != 0 && e.gap

/-- The engine issues in its next slot: it runs, or holds a WAIT, or is halting and has not reached an interruptible slot
(R245). -/
def seIssues (s : State) (d i : Nat) : Bool :=
  let e := s.eng d i
  seClocked s d i && e.fin.isNone && !e.irqDue
    && (s.seState d i == SeState.run || (s.seState d i == SeState.halting && !e.gap))

/-- An instruction has issued: counters, the slot, delay slots and the next PC (R220, R232, R233). -/
def seRetire (s : State) (d i : Nat) (e : SEng) (npc : Option Nat) (br0 : Option (Nat × Option Nat)) : State :=
  let (e, n) := match npc with
    | some n => (e, n)
    | none => e.after e.pc
  let (e, n) := match br0 with
    | some (1, some t) => ({ e with br := none }, t)
    | some (1, none) => ({ e with br := none }, n)
    | some (k, t) => ({ e with br := some (k - 1, t) }, n)
    | none => (e, n)
  let e := ({ e with pc := n % 16384 }).pass 1
  ((s.setEng d i e).inc d (R.SEA_CNT_ISSUE.COUNT i) 1).inc d (R.SEA_CNT_CYCLE.COUNT i) 1

/-- Issue the instruction at PC if it is one of opcode `op` (R224, R225, R246): its checks in order, then its effect. A word that
is uncorrectable or has no listed opcode raises its error whichever opcode was asked for. -/
def seIssue (s : State) (d i op : Nat) (f : State → SEng → Nat → SeRes) : State :=
  if seIssues s d i then
    let e := s.eng d i
    match pmSee (s.pmWord d i e.pc) with
    | none => seError s d i SeErr.pmemUe 0 0 e.pc
    | some (word, _) =>
      let w := word.toNat
      match seUses (w / 2 ^ 26) with
      | none => seError (pmNote s d i e.pc) d i SeErr.illegal 0 0 e.pc
      | some uses =>
        if w / 2 ^ 26 ≠ op then s
        else
          let s := pmNote s d i e.pc
          if w % 2 ^ 26 &&& (2 ^ 26 - 1 - uses) ≠ 0 ∨ (e.br.isSome ∧ seNoDelay op) ∨ (e.outer.isSome ∧ seNoBlock op) then
            seError s d i SeErr.illegal 0 0 e.pc
          else match f s e w with
            | .err c r h => seError s d i c r h e.pc
            | .ok s e' npc => seRetire s d i e' npc e.br
  else s

end Sys2Proof.Machine
end

