-- ==== Sys2Proof/Machine/SeOps.lean ====
section
/-!
DEFINITION. The instructions of a signal engine (R219, R223 to R237): one effect per opcode, and the meaning of its command, which
issues the instruction at the engine's PC.
-/

namespace Sys2Proof.Machine

/-! ## Helpers -/

/-- The instruction takes effect and the next one follows. -/
def seOk (s : State) (e : SEng) : SeRes := .ok s e none

/-- The instruction raises ILLEGAL or POISON. -/
def seIll : SeRes := .err SeErr.illegal 0 0
def sePoison : SeRes := .err SeErr.poison 0 0

/-- Send a scalar result with its sticky bits. -/
def SEng.sendS (e : SEng) (lat d : Nat) (x : Int × BitVec 3) : SEng :=
  (e.send lat (.s d ⟨BitVec.ofInt 32 x.1, false⟩)).sendSticky lat x.2

/-- Send lanes of `w` bits to a V register, with their sticky bits. -/
def SEng.sendV (e : SEng) (lat d w : Nat) (f : Nat → Int × BitVec 3) : SEng :=
  (e.send lat (.v d (packLanes w (fun j => (f j).1)))).sendSticky lat (stickyOr (512 / w) (fun j => (f j).2))

/-! ## Control flow (R232 to R234) -/

/-- Take a branch after its two delay slots. -/
def seJump (s : State) (e : SEng) (t : Option Nat) : SeRes := seOk s { e with br := some (2, t) }

/-- The target of a PC-relative branch, modulo 16,384 (R218). -/
def seRel (e : SEng) (w : Nat) : Nat := wrapNat 14 (e.pc + sext 14 (fld w 0 14))

def seNop (s : State) (e : SEng) (_w : Nat) : SeRes := seOk s e
def seBr (s : State) (e : SEng) (w : Nat) : SeRes := seJump s e (some (seRel e w))

/-- The condition of BRC (R225). -/
def brcMeets (cond : Nat) (x : Int) : Bool :=
  match cond with
  | 0 => x == 0 | 1 => x != 0 | 2 => decide (x < 0) | 3 => decide (0 ≤ x) | 4 => decide (0 < x) | _ => decide (x ≤ 0)

def seBrc (s : State) (e : SEng) (w : Nat) : SeRes :=
  let a := e.sreg (fld w 21 5)
  if 5 < fld w 18 3 then seIll
  else if a.p then sePoison
  else seJump s e (if brcMeets (fld w 18 3) a.v.toInt then some (seRel e w) else none)

def seCall (s : State) (e : SEng) (w : Nat) : SeRes :=
  seJump s (e.sendS 2 31 (((e.pc + 3) % 16384 : Nat), 0)) (some (seRel e w))

def seJr (s : State) (e : SEng) (w : Nat) : SeRes :=
  let a := e.sreg (fld w 21 5)
  if a.p then sePoison else seJump s e (some (a.v.toNat % 16384))

/-- RETI: IPC is read at its issue, and IE is set for the target (R225). -/
def seReti (s : State) (e : SEng) (_w : Nat) : SeRes := seJump s (e.send 3 (.ie true)) (some e.ipc)

/-- REP (R233, R234). A skipped inner block that ends its outer block ends the outer iteration. -/
def seRep (s : State) (e : SEng) (w : Nat) : SeRes :=
  let a := e.sreg (fld w 20 5)
  let src := fld w 25 1
  let last := e.pc + fld w 14 6 + 1
  let tooLong := match e.outer with
    | some b => decide (b.last < last)
    | none => false
  if e.inner.isSome || decide (16383 < last) || tooLong then seIll
  else if src = 1 ∧ a.p then sePoison
  else
    let n := if src = 1 then a.v.toNat else fld w 0 12
    if 4095 < n then seIll
    else if e.outer.isSome then
      let e := { e with lc1 := n }
      if n = 0 then
        match e.outerEnd last with
        | (e, npc) => .ok s e (some npc)
      else seOk s { e with inner := some ⟨e.pc + 1, last⟩ }
    else
      let e := { e with lc0 := n }
      if n = 0 then .ok s e (some (last + 1)) else seOk s { e with outer := some ⟨e.pc + 1, last⟩ }

/-- The output tokens of DONE (R243). -/
def seTokens (e : SEng) (n : Nat) : List DWord :=
  (List.range n).map (fun t => (e.sreg (25 + 2 * t)).v.append (e.sreg (24 + 2 * t)).v)

/-- A channel of those given ended with an error not yet raised: the lowest, and its response (R241). -/
def seDmaErr (e : SEng) (chs : List Nat) : Option (Nat × Nat) :=
  (chs.find? (fun c => (e.ch c).err && !(e.ch c).busy)).map (fun c => (c, (e.ch c).last))

def seDone (s : State) (e : SEng) (w : Nat) : SeRes :=
  let n := fld w 23 3
  if 4 < n then seIll
  else if (List.range (2 * n)).any (fun k => (e.sreg (24 + k)).p) then sePoison
  else match seDmaErr e [0, 1] with
    | some (c, r) => .err SeErr.dma r c
    | none => .ok s { e with fin := some (seTokens e n) } (some e.pc)

def seInt (s : State) (e : SEng) (w : Nat) : SeRes := seOk s (e.send 2 (.ie (fld w 0 1 == 1)))

/-! ## WAIT (R225, R241) -/

/-- The channels that a WAIT mask names. -/
def waitChs (mask : Nat) : List Nat := [0, 1].filter (fun c => mask.testBit c)

/-- A condition that a WAIT names holds. -/
def waitReady (e : SEng) (mask : Nat) : Bool :=
  (!(waitChs mask).isEmpty && (waitChs mask).all (fun c => !(e.ch c).busy)) || (mask.testBit 2 && e.pend.getLsbD 0)

/-- WAIT when it issues with its condition holding. -/
def seWait (s : State) (e : SEng) (w : Nat) : SeRes :=
  if fld w 0 3 = 0 then seIll
  else match seDmaErr e (waitChs (fld w 0 3)) with
    | some (c, r) => .err SeErr.dma r c
    | none => seOk s e

/-- The word at PC, corrected. -/
def seFetch (s : State) (d i : Nat) (e : SEng) : Option Nat := (pmSee (s.pmWord d i e.pc)).map (fun x => x.1.toNat)

/-- The engine stands at a WAIT whose condition does not hold and that raises nothing. -/
def waitHolds (s : State) (d i : Nat) : Bool :=
  let e := s.eng d i
  match seFetch s d i e with
  | some w => decide (w / 2 ^ 26 = 0x0A) && decide (w % 2 ^ 26 < 8) && e.br.isNone && e.outer.isNone
      && decide (w % 8 ≠ 0) && !waitReady e (w % 8)
  | none => false

/-! ## MOVC and the exponent (R219, R231) -/

/-- What MOVC reads from a control register; none for a number that is not listed. -/
def ctlRead (s : State) (d i : Nat) (e : SEng) (c : Nat) : Option Nat :=
  if c = 0 then some (e.sticky.toNat + if e.ie then 8 else 0)
  else if c = 1 then some e.bx
  else if c = 2 then some e.ipc
  else if c = 3 then some (e.pend.toNat + 16 * e.mask.toNat)
  else if c = 4 then some e.ivec
  else if c = 5 then some e.lc0
  else if c = 6 then some e.lc1
  else if c = 7 then some e.ticket
  else if 8 ≤ c ∧ c ≤ 15 then some (e.desc.getD (c - 8) 0).toNat
  else if c = 16 then some (s.g d (R.SEA_CNT_CYCLE.COUNT i))
  else if c = 17 then some ((if e.dma0.busy then 1 else 0) + (if e.dma1.busy then 2 else 0)
    + 16 * e.dma0.last + 256 * e.dma1.last)
  else if c = 18 then some (d * 48 + i)
  else none

def seMovc (d i : Nat) (s : State) (e : SEng) (w : Nat) : SeRes :=
  let r := fld w 21 5
  let c := fld w 16 5
  if fld w 0 1 = 0 then
    match ctlRead s d i e c with
    | some v => seOk s (e.sendS 2 r (v, 0))
    | none => seIll
  else
    let x := e.sreg r
    if 4 < c then seIll
    else if x.p then sePoison
    else if c = 0 then seOk s (e.send 2 (.stat x.v))
    else if c = 1 then seOk s (e.send 2 (.bx (x.v.toNat % 64)))
    else if c = 2 then seOk s (e.send 2 (.ipc x.v))
    else if c = 3 then seOk s (e.send 2 (.istat x.v))
    else seOk s (e.send 2 (.ivec x.v))

def seBxset (s : State) (e : SEng) (w : Nat) : SeRes :=
  if 47 < fld w 0 6 then seIll else seOk s (e.send 2 (.bx (fld w 0 6)))

/-- The least redundant-sign count over lanes. -/
def leastRed (w : Nat) (l : List Int) : Nat := l.foldl (fun m x => min m (redSign w x)) (w - 1)

def seBexp (s : State) (e : SEng) (w : Nat) : SeRes :=
  let a := fld w 16 5
  let sz := fld w 9 2
  if sz = 3 ∨ (fld w 11 1 = 1 ∧ 4 ≤ a) then seIll
  else if fld w 11 1 = 1 then
    seOk s (e.send 2 (.bxMin (leastRed 48 ((List.range 32).map (fun j => (e.accOf a j).toInt)))))
  else if marked (e.vreg a) then sePoison
  else
    let b := szBits sz
    seOk s (e.send 2 (.bxMin (leastRed b ((List.range (512 / b)).map (lane (e.vreg a) b)))))

/-! ## Scalar arithmetic (R225, R226) -/

def seSalu (s : State) (e : SEng) (w : Nat) : SeRes :=
  let fn := fld w 0 5
  let a := e.sreg (fld w 16 5)
  let b := e.sreg (fld w 11 5)
  if 17 < fn then seIll
  else if a.p || (fn != 14 && fn != 15 && b.p) then sePoison
  else seOk s (e.sendS (if fn = 12 ∨ fn = 13 then 3 else 2) (fld w 21 5) (saluFn fn a.v b.v))

/-- An instruction of format I: a result from SA and the immediate. -/
def seImm (g : Word → Nat → Int) (s : State) (e : SEng) (w : Nat) : SeRes :=
  let a := e.sreg (fld w 16 5)
  if a.p then sePoison else seOk s (e.sendS 2 (fld w 21 5) (g a.v (fld w 0 16), 0))

def seAddi : State → SEng → Nat → SeRes := seImm (fun a n => a.toInt + sext 16 n)
def seAndi : State → SEng → Nat → SeRes := seImm (fun a n => (a.toNat &&& n : Nat))
def seOri : State → SEng → Nat → SeRes := seImm (fun a n => (a.toNat ||| n : Nat))
def seXori : State → SEng → Nat → SeRes := seImm (fun a n => (a.toNat ^^^ n : Nat))
def seSlti : State → SEng → Nat → SeRes := seImm (fun a n => if a.toInt < sext 16 n then 1 else 0)
def seLui (s : State) (e : SEng) (w : Nat) : SeRes := seOk s (e.sendS 2 (fld w 21 5) ((fld w 0 16 * 65536 : Nat), 0))

def seShi (s : State) (e : SEng) (w : Nat) : SeRes :=
  let a := e.sreg (fld w 16 5)
  if fld w 6 2 = 3 then seIll
  else if a.p then sePoison
  else seOk s (e.sendS 2 (fld w 21 5) (shiFn (fld w 6 2) a.v (fld w 0 5)))

/-- PMOV (R225): a pointer register written is visible to the next instruction (R220). -/
def sePmov (s : State) (e : SEng) (w : Nat) : SeRes :=
  let r := fld w 21 5
  let k := fld w 19 2
  let n := fld w 16 3
  if k = 3 then seIll
  else if fld w 0 1 = 0 then
    let v : Int := if k = 0 then (e.preg n).toNat else if k = 1 then (e.mreg n).toInt else (e.lreg n).toNat
    seOk s (e.sendS 2 r (v, 0))
  else
    let x := e.sreg r
    let v : BitVec 18 := x.v.truncate 18
    if x.p then sePoison
    else seOk s (if k = 0 then e.setP n v else if k = 1 then e.setM n v else e.setL n v)

def sePadd (s : State) (e : SEng) (w : Nat) : SeRes :=
  let p := fld w 18 3
  seOk s (e.setP p (stepPtr (e.preg p) (e.lreg p) (sext 16 (fld w 0 16))))

/-! ## Memory (R223, R247) -/

/-- The effective address of a format M instruction and the engine after its pointer's update, or its error. -/
def seAddr (e : SEng) (w size : Nat) : Except Nat (Nat × SEng) :=
  let p := fld w 18 3
  let mode := fld w 13 2
  let off := sext 13 (fld w 0 13) * size
  if mode = 3 then .error SeErr.illegal
  else
    let a := if mode = 0 then wrapNat 18 ((e.preg p).toNat + off) else (e.preg p).toNat
    if a % size ≠ 0 then .error SeErr.misalign
    else if mode = 0 then .ok (a, e)
    else .ok (a, e.setP p (stepPtr (e.preg p) (e.lreg p) (if mode = 1 then (e.mreg (fld w 15 3)).toInt else off)))

def seLds (d i : Nat) (s : State) (e : SEng) (w : Nat) : SeRes :=
  match seAddr e w 4 with
  | .error c => .err c 0 0
  | .ok (a, e) =>
    let x := dmSees s d i (a / 8)
    seOk (dmNote s d i (a / 8)) (e.send 4 (.s (fld w 21 5) ⟨(x.v >>> (8 * (a % 8))).truncate 32, x.p⟩))

def seSts (d i : Nat) (s : State) (e : SEng) (w : Nat) : SeRes :=
  match seAddr e w 4 with
  | .error c => .err c 0 0
  | .ok (a, e') =>
    let x := e.sreg (fld w 21 5)
    let v : DWord := x.v.zeroExtend 64 <<< (8 * (a % 8))
    seOk (dmWrite s d i (a / 8) [(⟨v, x.p⟩, if a % 8 = 0 then 0x0F else 0xF0)]) e'

def seLdv (d i : Nat) (s : State) (e : SEng) (w : Nat) : SeRes :=
  match seAddr e w 64 with
  | .error c => .err c 0 0
  | .ok (a, e) =>
    match dmRead s d i (a / 8) 8 with
    | (ws, s) => seOk s (e.send 4 (.v (fld w 21 5) ws))

def seStv (d i : Nat) (s : State) (e : SEng) (w : Nat) : SeRes :=
  match seAddr e w 64 with
  | .error c => .err c 0 0
  | .ok (a, e') => seOk (dmWrite s d i (a / 8) ((e.vreg (fld w 21 5)).map (fun x => (x, 0xFF)))) e'

def seLdvb (d i : Nat) (s : State) (e : SEng) (w : Nat) : SeRes :=
  match seAddr e w 2 with
  | .error c => .err c 0 0
  | .ok (a, e) =>
    let x := dmSees s d i (a / 8)
    let v := fld x.v.toNat (8 * (a % 8)) 16
    let y := packWord 16 [v, v, v, v]
    seOk (dmNote s d i (a / 8)) (e.send 4 (.v (fld w 21 5) (List.replicate 8 ⟨y, x.p⟩)))

/-! ## Vector arithmetic (R227 to R230) -/

def seValu (s : State) (e : SEng) (w : Nat) : SeRes :=
  let fn := fld w 0 5
  let sz := fld w 9 2
  let a := e.vreg (fld w 16 5)
  let b := e.vreg (fld w 11 5)
  let d := fld w 21 5
  if 12 < fn ∨ sz = 3 then seIll
  else if fn = 10 then seOk s (e.send 2 (.v d a))
  else if marked a || (valuTwo fn && marked b) then sePoison
  else
    let n := szBits sz
    seOk s (e.sendV 2 d n (fun j =>
      valuFn fn n (fld w 8 1 == 1) (lane a n (if fn = 9 then j ^^^ 1 else j)) (lane b n j)))

def seVsh (s : State) (e : SEng) (w : Nat) : SeRes :=
  let kind := fld w 0 2
  let sz := fld w 9 2
  let a := e.vreg (fld w 16 5)
  let b := e.sreg (fld w 11 5)
  if kind = 3 ∨ sz = 3 then seIll
  else if marked a || b.p then sePoison
  else
    let n := szBits sz
    seOk s (e.sendV 2 (fld w 21 5) n (fun j => vshFn kind n (fld w 8 1 == 1) (laneNat a n j) (b.v.toNat % 64)))

def seVbrd (s : State) (e : SEng) (w : Nat) : SeRes :=
  let sz := fld w 9 2
  let a := e.sreg (fld w 16 5)
  if sz = 3 then seIll
  else if a.p then sePoison
  else seOk s (e.sendV 2 (fld w 21 5) (szBits sz) (fun _ => (a.v.toNat, 0)))

def seVext (s : State) (e : SEng) (w : Nat) : SeRes :=
  let sz := fld w 9 2
  let n := szBits sz
  let j := fld w 0 6
  let a := e.vreg (fld w 16 5)
  if sz = 3 ∨ 512 / n ≤ j then seIll
  else if (a.getD (n * j / 64) ⟨0, false⟩).p then sePoison
  else seOk s (e.sendS 2 (fld w 21 5) (lane a n j, 0))

/-- Apply OP to the lanes of an accumulator: the chain sees it next, VNAR, BEXP and AOV after the MAC latency (R220, R229). -/
def seAcc (s : State) (e : SEng) (k op : Nat) (v : Nat → Int) : SeRes :=
  let r := (List.range 32).map (fun j => accOp op (e.chainOf k j) (v j))
  let ls := r.map (fun x => x.1)
  seOk s (((e.setChain k ls).send 4 (.acc k ls)).sendSticky 4 (r.foldl (fun a x => a ||| x.2) 0))

def seVmac (s : State) (e : SEng) (w : Nat) : SeRes :=
  let a := e.vreg (fld w 16 5)
  let b := e.vreg (fld w 11 5)
  let op := fld w 9 2
  if op = 3 then seIll
  else if marked a || marked b then sePoison
  else seAcc s e (fld w 21 2) op (fun j => lane a 16 (if fld w 8 1 = 1 then j ^^^ 1 else j) * lane b 16 j)

def seVacc (s : State) (e : SEng) (w : Nat) : SeRes :=
  let a := e.vreg (fld w 16 5)
  let op := fld w 9 2
  if op = 3 ∨ 32 < fld w 0 6 then seIll
  else if marked a then sePoison
  else seAcc s e (fld w 21 2) op (fun j => (BitVec.ofInt 48 (lane a 16 j * 2 ^ fld w 0 6)).toInt)

def seVnar (s : State) (e : SEng) (w : Nat) : SeRes :=
  let b := e.sreg (fld w 11 5)
  let src := fld w 10 1
  if 32 < fld w 0 6 then seIll
  else if src = 1 ∧ b.p then sePoison
  else
    let sh := if src = 0 then fld w 0 6 else min (b.v.toNat % 64) 32
    seOk s (e.sendV 3 (fld w 21 5) 16 (fun j => vnarLane (e.accOf (fld w 16 2) j) sh (fld w 9 1 == 1)))

/-! ## DMA (R239) -/

/-- A descriptor as it stands in data memory. -/
def dmaParse (ws : List MWord) : DmaDesc :=
  let g (k : Nat) : Nat := (ws.getD k ⟨0, false⟩).v.toNat
  ⟨g 0, g 1 % 2 ^ 18, g 1 / 2 ^ 32 % 2 ^ 17, g 2 % 2 ^ 16, sext 32 (g 2 / 2 ^ 32), sext 32 (g 3 % 2 ^ 32), (g 3 / 2 ^ 32).testBit 0⟩

/-- A descriptor keeps the rules of R239. -/
def dmaOk (ws : List MWord) : Bool :=
  let g (k : Nat) : Nat := (ws.getD k ⟨0, false⟩).v.toNat
  let x := dmaParse ws
  x.remote % 8 == 0 && g 1 % 2 ^ 32 / 2 ^ 18 == 0 && x.loc % 8 == 0
    && g 1 / 2 ^ 32 / 2 ^ 17 == 0 && x.len % 8 == 0 && decide (8 ≤ x.len ∧ x.len ≤ 65536)
    && g 2 % 2 ^ 32 / 2 ^ 16 == 0 && decide (1 ≤ x.rows)
    && x.rstride % 8 == 0 && x.lstride % 8 == 0 && decide (g 3 / 2 ^ 32 < 2)

/-- DMA on an idle channel. -/
def seDma (d i : Nat) (s : State) (e : SEng) (w : Nat) : SeRes :=
  let a := e.sreg (fld w 16 5)
  let adr := a.v.toNat % 2 ^ 18
  let c := fld w 0 1
  if a.p then sePoison
  else if adr % 32 ≠ 0 then .err SeErr.misalign 0 0
  else
    match dmRead s d i (adr / 8) 4 with
    | (ws, s) =>
      if marked ws then sePoison
      else if !dmaOk ws then .err SeErr.desc 0 0
      else seOk s (e.setCh c { e.ch c with run := some (dmaParse ws), done := 0 })

/-- The engine stands at a DMA instruction, with no error before it, on a busy channel (R222). -/
def dmaStalls (s : State) (d i : Nat) : Bool :=
  let e := s.eng d i
  match seFetch s d i e with
  | some w => decide (w / 2 ^ 26 = 0x0B) && decide (w % 2 ^ 26 &&& (2 ^ 26 - 1 - 0x001F0001) = 0)
      && !(e.sreg (fld w 16 5)).p && decide ((e.sreg (fld w 16 5)).v.toNat % 32 = 0) && (e.ch (fld w 0 1)).busy
  | none => false

/-! ## Meanings -/

def execNop (die : Die) (eng : Fin 48) (s : State) : Host.Outcome State Fault Refusal := .next (seIssue s die eng 0x00 seNop)
def execBr (die : Die) (eng : Fin 48) (s : State) : Host.Outcome State Fault Refusal := .next (seIssue s die eng 0x01 seBr)
def execBrc (die : Die) (eng : Fin 48) (s : State) : Host.Outcome State Fault Refusal := .next (seIssue s die eng 0x02 seBrc)
def execCall (die : Die) (eng : Fin 48) (s : State) : Host.Outcome State Fault Refusal := .next (seIssue s die eng 0x03 seCall)
def execJr (die : Die) (eng : Fin 48) (s : State) : Host.Outcome State Fault Refusal := .next (seIssue s die eng 0x04 seJr)

/-- RETI ends the interrupt routine (R235). -/
def execReti (die : Die) (eng : Fin 48) (s : State) : Host.Outcome State Fault Refusal :=
  .next (seIssue s die eng 0x05 (fun s e w => seReti (s.p die (R.SEA_STATUS.IN_ISR eng) 0) e w))

def execRep (die : Die) (eng : Fin 48) (s : State) : Host.Outcome State Fault Refusal := .next (seIssue s die eng 0x06 seRep)

/-- DONE issues, and the engine then waits until everything has drained (R243). -/
def execDoneOp (die : Die) (eng : Fin 48) (s : State) : Host.Outcome State Fault Refusal :=
  .next (seIssue s die eng 0x07 seDone)

def execIntOp (die : Die) (eng : Fin 48) (s : State) : Host.Outcome State Fault Refusal := .next (seIssue s die eng 0x08 seInt)
def execMovc (die : Die) (eng : Fin 48) (s : State) : Host.Outcome State Fault Refusal :=
  .next (seIssue s die eng 0x09 (seMovc die eng))

/-- WAIT issues when its condition holds, and otherwise begins to hold issue (R220, R225). -/
def execWait (die : Die) (eng : Fin 48) (s : State) : Host.Outcome State Fault Refusal :=
  .next (if seIssues s die eng ∧ waitHolds s die eng then s.setSeState die eng SeState.wait
    else seIssue s die eng 0x0A seWait)

/-- DMA starts its channel; on a busy channel the engine stalls for a cycle (R222, R239). -/
def execDma (die : Die) (eng : Fin 48) (s : State) : Host.Outcome State Fault Refusal :=
  .next (if seIssues s die eng ∧ dmaStalls s die eng then
      (s.inc die (R.SEA_CNT_STALL.COUNT eng) 1).inc die (R.SEA_CNT_CYCLE.COUNT eng) 1
    else seIssue s die eng 0x0B (seDma die eng))

def execBxset (die : Die) (eng : Fin 48) (s : State) : Host.Outcome State Fault Refusal :=
  .next (seIssue s die eng 0x0C seBxset)
def execSalu (die : Die) (eng : Fin 48) (s : State) : Host.Outcome State Fault Refusal := .next (seIssue s die eng 0x10 seSalu)
def execAddi (die : Die) (eng : Fin 48) (s : State) : Host.Outcome State Fault Refusal := .next (seIssue s die eng 0x11 seAddi)
def execAndi (die : Die) (eng : Fin 48) (s : State) : Host.Outcome State Fault Refusal := .next (seIssue s die eng 0x12 seAndi)
def execOri (die : Die) (eng : Fin 48) (s : State) : Host.Outcome State Fault Refusal := .next (seIssue s die eng 0x13 seOri)
def execXori (die : Die) (eng : Fin 48) (s : State) : Host.Outcome State Fault Refusal := .next (seIssue s die eng 0x14 seXori)
def execLui (die : Die) (eng : Fin 48) (s : State) : Host.Outcome State Fault Refusal := .next (seIssue s die eng 0x15 seLui)
def execShi (die : Die) (eng : Fin 48) (s : State) : Host.Outcome State Fault Refusal := .next (seIssue s die eng 0x16 seShi)
def execSlti (die : Die) (eng : Fin 48) (s : State) : Host.Outcome State Fault Refusal := .next (seIssue s die eng 0x17 seSlti)
def execPmov (die : Die) (eng : Fin 48) (s : State) : Host.Outcome State Fault Refusal := .next (seIssue s die eng 0x18 sePmov)
def execPadd (die : Die) (eng : Fin 48) (s : State) : Host.Outcome State Fault Refusal := .next (seIssue s die eng 0x19 sePadd)

/-- A memory instruction loses `guard` cycles to the bank guard of R217 before it issues: each is a stall (R222). -/
def seGuard (s : State) (d i : Nat) (guard : Bool) : State :=
  if guard ∧ seIssues s d i then (s.inc d (R.SEA_CNT_STALL.COUNT i) 1).inc d (R.SEA_CNT_CYCLE.COUNT i) 1 else s

def execLds (die : Die) (eng : Fin 48) (s : State) (guard : Bool := false) : Host.Outcome State Fault Refusal :=
  .next (seIssue (seGuard s die eng guard) die eng 0x20 (seLds die eng))
def execSts (die : Die) (eng : Fin 48) (s : State) (guard : Bool := false) : Host.Outcome State Fault Refusal :=
  .next (seIssue (seGuard s die eng guard) die eng 0x21 (seSts die eng))
def execLdv (die : Die) (eng : Fin 48) (s : State) (guard : Bool := false) : Host.Outcome State Fault Refusal :=
  .next (seIssue (seGuard s die eng guard) die eng 0x22 (seLdv die eng))
def execStv (die : Die) (eng : Fin 48) (s : State) (guard : Bool := false) : Host.Outcome State Fault Refusal :=
  .next (seIssue (seGuard s die eng guard) die eng 0x23 (seStv die eng))
def execLdvb (die : Die) (eng : Fin 48) (s : State) (guard : Bool := false) : Host.Outcome State Fault Refusal :=
  .next (seIssue (seGuard s die eng guard) die eng 0x24 (seLdvb die eng))
def execValu (die : Die) (eng : Fin 48) (s : State) : Host.Outcome State Fault Refusal := .next (seIssue s die eng 0x28 seValu)
def execVsh (die : Die) (eng : Fin 48) (s : State) : Host.Outcome State Fault Refusal := .next (seIssue s die eng 0x29 seVsh)
def execVbrd (die : Die) (eng : Fin 48) (s : State) : Host.Outcome State Fault Refusal := .next (seIssue s die eng 0x2A seVbrd)
def execVext (die : Die) (eng : Fin 48) (s : State) : Host.Outcome State Fault Refusal := .next (seIssue s die eng 0x2B seVext)
def execVmac (die : Die) (eng : Fin 48) (s : State) : Host.Outcome State Fault Refusal := .next (seIssue s die eng 0x2C seVmac)
def execVacc (die : Die) (eng : Fin 48) (s : State) : Host.Outcome State Fault Refusal := .next (seIssue s die eng 0x2D seVacc)
def execVnar (die : Die) (eng : Fin 48) (s : State) : Host.Outcome State Fault Refusal := .next (seIssue s die eng 0x2E seVnar)
def execBexp (die : Die) (eng : Fin 48) (s : State) : Host.Outcome State Fault Refusal := .next (seIssue s die eng 0x2F seBexp)

end Sys2Proof.Machine
end

