-- ==== Sys2Proof/Machine/SeEvents.lean ====
section
/-!
DEFINITION. What happens to a signal engine besides its instructions (R217, R218, R225, R235, R242 to R245): WAIT and DONE ending,
interrupts, its registers, and accesses to its memories.
-/

namespace Sys2Proof.Machine

/-! ## The core -/

/-- Let many slots pass: nothing is in flight after the longest latency. -/
def SEng.passMany (e : SEng) (n : Nat) : SEng :=
  let e := e.pass (min n 4)
  { e with slot := e.slot + (n - min n 4) }

/-- Something reaches an engine that may be holding a WAIT: how many of the WAIT's cycles, each a slot, have passed by then is a free
value (R220). -/
def waitPass (s : State) (d i : Nat) : State :=
  if s.seState d i = SeState.wait ∧ !(s.eng d i).fly.isEmpty then
    let (n, s) := s.free 3
    s.setEng d i ((s.eng d i).passMany n.toNat)
  else s

/-- The engine as it stands in the first slot, of the next four, in which an interrupt is taken from a WAIT (R220, R235). -/
def SEng.toIrq (e : SEng) : SEng := ((List.range 5).map (fun k => e.pass k)).find? (fun e => e.irqDue) |>.getD e

/-- A WAIT that has held issue for a number of cycles releases when its condition holds and no interrupt is taken first
(R220, R225, R235). -/
def execWaitRelease (die : Die) (eng : Fin 48) (held : Nat) (s : State) : Host.Outcome State Fault Refusal :=
  .next (
    let e := (s.eng die eng).passMany held
    let ready : Bool := match seFetch s die eng e with
      | some w => waitReady e (w % 8)
      | none => false
    if s.seState die eng = SeState.wait ∧ seClocked s die eng ∧ ready ∧ e.irqDue = false then
      let s := ((s.setEng die eng e).inc die (R.SEA_CNT_WAIT.COUNT eng) held).inc die (R.SEA_CNT_CYCLE.COUNT eng) held
      seIssue (s.setSeState die eng SeState.run) die eng 0x0A seWait
    else s)

/-- Everything has drained behind a DONE (R243, R245): the completion is sent, when the completion buffer takes it (R271), or a
channel's error is raised. -/
def execDoneCompletion (die : Die) (eng : Fin 48) (s : State) : Host.Outcome State Fault Refusal :=
  .next (
    let e := s.eng die eng
    match e.fin with
    | some toks =>
      if s.seState die eng = SeState.run ∧ seClocked s die eng ∧ e.dma0.busy = false ∧ e.dma1.busy = false
          ∧ (s.standalone die eng ∨ s.cplRoom die) then
        match seDmaErr e [0, 1] with
        | some (c, r) => seError s die eng SeErr.dma r c e.pc
        | none =>
          let e := e.drain.noFlow
          let s := (s.setEng die eng { e with pc := (e.pc + 1) % 16384 }).setSeState die eng SeState.idle
          if s.standalone die eng then s.setBit die R.SEA_EVT_DONE.DONE eng
          else s.sendCpl die ⟨seUnit eng, e.ticket, 0, toks⟩
      else s
    | none => s)

/-- An interrupt is taken (R235): issued instructions complete, IPC takes the PC, IE falls, and the handler's entry issues next. -/
def execInterruptTaken (die : Die) (eng : Fin 48) (s : State) : Host.Outcome State Fault Refusal :=
  .next (
    let st := s.seState die eng
    let e := if st = SeState.wait then (s.eng die eng).toIrq else s.eng die eng
    if (st = SeState.run ∨ st = SeState.wait) ∧ seClocked s die eng ∧ e.irqDue then
      let e := e.drain
      ((s.setEng die eng { e with ipc := e.pc, ie := false, pc := e.ivec }).setSeState die eng SeState.run).p die
        (R.SEA_STATUS.IN_ISR eng) 1
    else s)

/-- START (R245). -/
def seBegin (s : State) (d i : Nat) : State :=
  (seStart s d i (s.g d (R.SEA_ENTRY.PC i)) 0 []).p d (R.SEA_STATUS.PEND_START i) 0

/-- A halting engine has drained (R245). -/
def execHaltComplete (die : Die) (eng : Fin 48) (s : State) : Host.Outcome State Fault Refusal :=
  .next (
    let e := s.eng die eng
    if s.seState die eng = SeState.halting ∧ seClocked s die eng ∧ (e.gap ∨ e.fin.isSome)
        ∧ e.dma0.busy = false ∧ e.dma1.busy = false then
      let s := (s.setEng die eng e.drain.noFlow).setSeState die eng SeState.halted
      if s.on die (R.SEA_STATUS.PEND_START eng) then seBegin s die eng else s
    else s)

/-! ## Registers -/

/-- The state is IDLE, HALTED or ERROR (R245). -/
def seStopped (st : Nat) : Bool := st == SeState.idle || st == SeState.halted || st == SeState.error

/-- A write of SEA_CTRLi (R245): MODE first, then START or HALT against the MODE it leaves; refused whole. -/
def writeSeaCtrl (s : State) (d i : Nat) (mode start halt : Bool) : State :=
  let st := s.seState d i
  let run := st == SeState.run || st == SeState.wait
  if (mode != s.standalone d i && !seStopped st)
      || ((start || halt) && !mode) || (start && run) || (halt && !run) then s.ans .accessError
  else
    let s := s.p d (R.SEA_CTRL.MODE i) (if mode then 1 else 0)
    let s := if halt then s.setSeState d i SeState.halting
      else if start then
        if st = SeState.halting then s.p d (R.SEA_STATUS.PEND_START i) 1 else seBegin s d i
      else s
    s.ans .ok

/-- Ring an engine's doorbell (R235). -/
def seRing (s : State) (d i : Nat) : State :=
  let s := waitPass s d i
  s.setEng d i { s.eng d i with pend := (s.eng d i).pend ||| 1 }

/-- A write to a register of the SEA block. -/
def writeSea (s : State) (w : Wr) : State :=
  match w.r.id with
  | .SEA_CTRL => writeSeaCtrl s w.d w.r.i ((R.SEA_CTRL.MODE 0).of w.new == 1) ((R.SEA_CTRL.START 0).of w.raw == 1)
      ((R.SEA_CTRL.HALT 0).of w.raw == 1)
  | .SEA_DOORBELL => (if (R.SEA_DOORBELL.RING 0).of w.raw = 1 then seRing s w.d w.r.i else s).ans .ok
  | _ => s.store w

/-! ## Accesses to the memories (R217, R218) -/

/-- The widths of an access to an engine's memory, naturally aligned. -/
def seFormOk (q : Req) : Bool := [1, 2, 4, 8, 16, 32, 64].contains q.size && q.addr.toNat % q.size == 0

/-- The engine takes no write of its program memory (R218). -/
def seProgBusy (s : State) (d i : Nat) : Bool :=
  let st := s.seState d i
  st == SeState.run || st == SeState.wait || st == SeState.halting || st == SeState.aborting

/-- An access at the engine's port. -/
def seAccess (s : State) (q : Req) (d i off : Nat) : State :=
  if s.held d Blk.sea then s.ans .targetError
  else if !seGatesOpen s d i then s.ans .domainDown
  else if !seFormOk q || !(q.op == .read || q.op == .write) then s.ans .targetError
  else
    let w := off / 8
    let n := reqWords q
    if off < 0x40000 then
      if q.op = .read then
        match dmRead s d i w n with
        | (ws, s) => { s with reply := ⟨.ok, ws⟩ }
      else (dmWrite s d i w (reqWwords q)).ans .ok
    else
      let w := w - 0x8000
      if q.op = .read then
        let s := (List.range (2 * n)).foldl (fun s k => pmNote s d i (2 * w + k)) s
        { s with reply := ⟨.ok, (List.range n).map (fun k => pmSees s d i (w + k))⟩ }
      else if seProgBusy s d i then s.ans .accessError
      else (pmWrite s d i w (reqWwords q)).ans .ok

/-- An access from the network to an engine's memory (R217, R218, R303). -/
def seMemReq (s : State) (q : Req) (d i off : Nat) : State :=
  match routeTo s (s.dieOfRid q.m.rid) d with
  | (some r, s) => s.ans r
  | (none, s) => seAccess s q d i off

/-- An access that goes to an engine's memory, and what its master sees; another address is not this command's. -/
def seTake (s : State) (q : Req) : State :=
  let sees (s : State) : State := s.coreSees q.m (opStores q.op) q.addr.toNat
  if s.debugShut q.m then s.ans .accessError
  else match decodeAddr s q.m (s.dieOfRid q.m.rid) q.addr.toNat with
  | .se d i off => sees (seMemReq s q d i off)
  | .none => sees (s.ans .decodeError)
  | .bank _ _ _ => s
  | .ctrl _ _ => s
  | .fabric _ _ _ => s
  | .comp _ _ => s
  | .dram _ _ _ => s

/-- An access to an engine's data or program memory. -/
def execSeNocAccess (req : Req) (s : State) : Host.Outcome State Fault Refusal :=
  .next (s.ifIssued req (seTake · req))

end Sys2Proof.Machine
end

