-- ==== Sys2Proof/Machine/Dispatcher.lean ====
section
/-!
DEFINITION. The dataflow dispatcher (10_dispatcher): operations and tokens, ready lists and spill, units and issue, tickets,
completions, revocation and migration, and epochs.
-/

namespace Sys2Proof.Machine

/-! ## Counters (0x80_0100 + 8k) -/

def Cnt.tokens : Nat := 0
def Cnt.fires : Nat := 1
def Cnt.issues : Nat := 2
def Cnt.cpl : Nat := 3
def Cnt.staleCpl : Nat := 4
def Cnt.staleTok : Nat := 5
def Cnt.badTok : Nat := 6
def Cnt.tokOvf : Nat := 7
def Cnt.err : Nat := 8
def Cnt.retry : Nat := 9
def Cnt.migrated : Nat := 10
def Cnt.aborted : Nat := 11
def Cnt.spilled : Nat := 12
def Cnt.refilled : Nat := 13
def Cnt.spillLost : Nat := 14
def Cnt.deferred : Nat := 15
def Cnt.fwdSent : Nat := 16
def Cnt.fwdRecv : Nat := 17
def Cnt.fwdErr : Nat := 18
def Cnt.affHit : Nat := 19

def dfdCnt (s : State) (d k n : Nat) : State := s.inc d (R.DFD_CNT.COUNT k) n

/-! ## Operations (R250 to R252) -/

/-- Word `w` of operation `n`'s descriptor. -/
def opWord (s : State) (d n w : Nat) : Nat := s.g d (R.DFD_OPDESC.WORD n w)

def opValid (s : State) (d n : Nat) : Bool := (opWord s d n 0).testBit 31
def opMig (s : State) (d n : Nat) : Bool := (opWord s d n 0).testBit 30
def opClass (s : State) (d n : Nat) : Nat := fld (opWord s d n 0) 28 2
def opPrio (s : State) (d n : Nat) : Nat := fld (opWord s d n 0) 25 3
def opRetry (s : State) (d n : Nat) : Nat := fld (opWord s d n 0) 23 2
def opEvt (s : State) (d n : Nat) : Bool := (opWord s d n 0).testBit 22
def opValency (s : State) (d n : Nat) : Nat := fld (opWord s d n 0) 13 8
def opSel (s : State) (d n : Nat) : Nat := fld (opWord s d n 1) 16 16
def opEntry (s : State) (d n : Nat) : Nat := fld (opWord s d n 1) 0 14

/-- The eight words of a descriptor as a unit gets them: OPID reads as n (R251). -/
def opDesc (s : State) (d n : Nat) : List Word :=
  (List.range 8).map (fun w =>
    BitVec.ofNat 32 (if w = 0 then opWord s d n 0 / 8192 * 8192 + n else opWord s d n w))

/-- Word 0 may be written with VALID = 1 beside word 1 as it stands (R251, R252). -/
def descOk (w0 w1 : Nat) : Bool :=
  let cls := fld w0 28 2
  let sel := fld w1 16 16
  cls != 3 && fld w0 21 1 == 0 && fld w0 13 8 != 0 && fld w1 14 2 == 0
    && (cls != 0 || sel / 64 == 0) && (cls != 2 || sel / 16 == 0) && (cls == 0 || fld w1 0 14 == 0)

/-! ## Lists -/

def DfdSt.list (x : DfdSt) (k : Nat) : List DEntry := SMap.get (fun _ => []) x.ready k
def DfdSt.setList (x : DfdSt) (k : Nat) (l : List DEntry) : DfdSt := { x with ready := SMap.set (fun _ => []) x.ready k l }
def DfdSt.gat (x : DfdSt) (p : Nat) : List DEntry := SMap.get (fun _ => []) x.gather p
def DfdSt.setGat (x : DfdSt) (p : Nat) (l : List DEntry) : DfdSt := { x with gather := SMap.set (fun _ => []) x.gather p l }
def DfdSt.num (m : SMap Nat) (k : Nat) : Nat := SMap.get (fun _ => 0) m k
/-- The operations in a sub-ring, and whether any sub-ring has an entry of operation `n`. -/
def DfdSt.subOps (x : DfdSt) (p : Nat) : List Nat := SMap.get (fun _ => []) x.sub p
def DfdSt.inSub (x : DfdSt) (n : Nat) : Bool := x.sub.any (fun e => e.2.contains n)
def DfdSt.queue (x : DfdSt) (c : Nat) : List CqEnt := SMap.get (fun _ => []) x.cq c

/-- The entries on chip, by class and priority. -/
def DfdSt.onChip (x : DfdSt) : Nat := x.ready.foldl (fun a e => a + e.2.length) 0

/-- The entries of a priority on chip. -/
def DfdSt.ofPrio (x : DfdSt) (p : Nat) : Nat := (x.list p).length + (x.list (8 + p)).length + (x.list (16 + p)).length

/-- The shared entries in use: each priority has 32 of its own (R256). -/
def DfdSt.shared (x : DfdSt) : Nat := (List.range 8).foldl (fun a p => a + (x.ofPrio p - 32)) 0

/-- There is on-chip room for an entry of priority `p` (R256). -/
def DfdSt.room (x : DfdSt) (p : Nat) : Bool := decide (x.ofPrio p < 32) || decide (x.shared < 3840)

/-- Store the dispatcher's lists; the registers that show them follow. -/
def State.setDfd (s : State) (d : Nat) (x : DfdSt) : State :=
  let busy (cls : Nat) : Nat := x.tickets.foldl (fun a t => if t.unit_ / 64 = cls then a ||| 2 ^ (t.unit_ % 64) else a) 0
  let s := ((((s.putDfd d x).p d R.DFD_STATUS.READY x.onChip).p d R.DFD_STATUS.TICKETS x.tickets.length).p d
    R.DFD_STATUS.TICKET_FULL (if 512 ≤ x.tickets.length then 1 else 0)).p d R.DFD_UNIT_BUSY_SE.BUSY (busy 0)
  let s := s.p d R.DFD_UNIT_BUSY_KS.BUSY (busy 1)
  (List.range 4).foldl (fun s c =>
    (s.p d (R.DFD_CQ_STATUS.HELD c) (x.queue c).length).p d (R.DFD_CQ_STATUS.WAITING c)
      ((x.queue c).filter (fun e => !e.popped)).length) s

/-- The operations of a die whose state word is not 0. -/
def activeOps (s : State) (d : Nat) : List Nat :=
  ((s.rf.filter (fun e => inRange d 0x810000 0x818000 e.1)).flatMap (fun e =>
    let n := (e.1 % 2 ^ 21 - 0x810000 / 8) * 2
    [n, n + 1])).filter (fun n => s.g d ⟨0x810000 + 4 * n, 0, 32⟩ != 0)

/-- Show the number of LIVE tickets of an operation (DFD_OPSTATEn.OUTST). -/
def showOutst (s : State) (d n : Nat) : State :=
  s.p d (R.DFD_OPSTATE.OUTST n) (min 255 ((s.dfdOf d).tickets.filter (fun t => t.live && t.op == n)).length)

/-- An operation has a ready entry, a deferred firing or a live ticket (R252). -/
def opPending (s : State) (d n : Nat) : Bool :=
  let x := s.dfdOf d
  x.ready.any (fun e => e.2.any (fun y => y.op == n)) || x.reissue.any (fun y => y.op == n)
    || x.gather.any (fun e => e.2.any (fun y => y.op == n)) || x.inSub n
    || s.g d (R.DFD_OPSTATE.DEFER n) != 0 || x.tickets.any (fun t => t.live && t.op == n)

/-- A write of a descriptor word (R252). -/
def writeDesc (s : State) (d n w v : Nat) : State :=
  if opValid s d n then
    if w ≠ 0 ∨ v.testBit 31 ∨ opPending s d n then s.ans .accessError
    else
      let x := s.dfdOf d
      let s := s.putDfd d { x with avoid := SMap.set (fun _ => none) x.avoid n none }
      ((s.p d (R.DFD_OPDESC.WORD n 0) (v / 8192 * 8192 + n)).p d (R.DFD_OPSTATE.COUNT n) 0).ans .ok
  else if w = 0 then
    if v.testBit 31 && !descOk v (opWord s d n 1) then s.ans .accessError
    else (s.p d (R.DFD_OPDESC.WORD n 0) (v / 8192 * 8192 + n)).ans .ok
  else (s.p d (R.DFD_OPDESC.WORD n w) v).ans .ok

/-! ## Firing (R255 to R259) -/

/-- A spill sub-ring's places, and the entries it holds or is gathering. -/
def subPlaces (s : State) (d : Nat) : Nat := 2 ^ (s.g d R.DFD_SPILL_CFG.SIZE_LOG2 - 3) / 8
def subHeld (s : State) (d p : Nat) : Nat := s.g d (R.DFD_SPILL_FILL.FILL p) + ((s.dfdOf d).gat p).length

/-- A firing of priority `p` may go to its sub-ring (R255, R257, R259). -/
def spillRoom (s : State) (d p : Nat) : Bool :=
  s.on d R.DFD_SPILL_CFG.EN && !s.on d R.DFD_SPILL_CFG.ERR && decide (subHeld s d p < subPlaces s d)

/-- Where a new firing of priority `p` goes (R257): on chip, to the sub-ring, or nowhere. -/
inductive Place where
  | chip | spill | defer
  deriving DecidableEq, Repr

def placeOf (s : State) (d p : Nat) : Place :=
  if s.on d R.DFD_SPILL_CFG.EN ∧ subHeld s d p ≠ 0 then (if spillRoom s d p then .spill else .defer)
  else if (s.dfdOf d).room p then .chip
  else if spillRoom s d p then .spill
  else .defer

/-- An entry joins the list of its class and priority; it takes the unit that its operation's next firing excludes (R269). -/
def joinList (s : State) (d k : Nat) (e : DEntry) : State :=
  let x := s.dfdOf d
  let e := { e with excl := SMap.get (fun _ => none) x.avoid e.op }
  let x := { x with avoid := SMap.set (fun _ => none) x.avoid e.op none }
  s.setDfd d (x.setList k (x.list k ++ [e]))

/-- Place a firing of operation `n` that has a place. One that goes to a sub-ring takes the unit it excludes when it comes back. -/
def placeFiring (s : State) (d n : Nat) (pl : Place) : State :=
  let x := s.dfdOf d
  let e : DEntry := ⟨n, s.g d R.DFD_EPOCH.EPOCH % 256, 0, none⟩
  match pl with
  | .chip => joinList s d (opClass s d n * 8 + opPrio s d n) e
  | .spill => s.setDfd d (x.setGat (opPrio s d n) (x.gat (opPrio s d n) ++ [e]))
  | .defer => s

/-- Fire while the count reaches the valency (R255). -/
def fireOp : Nat → State → Nat → Nat → State
  | 0, s, _, _ => s
  | fuel + 1, s, d, n =>
    let c := s.g d (R.DFD_OPSTATE.COUNT n)
    let v := opValency s d n
    if v = 0 ∨ c < v then s
    else
      let pl := placeOf s d (opPrio s d n)
      let df := s.g d (R.DFD_OPSTATE.DEFER n)
      if pl = .defer ∧ 255 ≤ df then s
      else
        let s := dfdCnt (s.p d (R.DFD_OPSTATE.COUNT n) (c - v)) d Cnt.fires 1
        let s := if pl = .defer then dfdCnt (s.p d (R.DFD_OPSTATE.DEFER n) (df + 1)) d Cnt.deferred 1
          else placeFiring s d n pl
        fireOp fuel s d n

/-- Count a token word of this die whose operation exists (R254). -/
def countToken (s : State) (d : Nat) (w : Nat) : State :=
  let n := fld w 0 13
  let c := fld w 16 8
  if fld w 24 8 ≠ s.g d R.DFD_EPOCH.EPOCH % 256 then dfdCnt s d Cnt.staleTok 1
  else if 65535 < s.g d (R.DFD_OPSTATE.COUNT n) + c then
    (dfdCnt s d Cnt.tokOvf 1).p d R.DFD_EVT.TOK_ERR 1
  else if c = 0 then s
  else fireOp 65536 ((dfdCnt s d Cnt.tokens 1).p d (R.DFD_OPSTATE.COUNT n) (s.g d (R.DFD_OPSTATE.COUNT n) + c)) d n

/-- A token word is for this die and names an operation (R254). -/
def tokenOk (s : State) (d w : Nat) : Bool := decide (w < 2 ^ 32) && fld w 13 3 == d && opValid s d (fld w 0 13)

/-- A write of DFD_TOKEN at its die (R254, R271). -/
def tokenWrite (s : State) (d : Nat) (m : Master) (w : Nat) : State :=
  if tokenOk s d w then
    let s := if m.cls = .dfd ∧ s.dieOfRid m.rid ≠ d then dfdCnt s d Cnt.fwdRecv 1 else s
    (countToken s d w).ans .ok
  else s.ans .accessError

/-- Deliver the output tokens of a completion, token 0 first (R254, R264, R271). -/
def deliver (s : State) (d : Nat) (l : List DWord) : State :=
  l.foldl (fun s t =>
    let w := t.toNat
    if w < 2 ^ 32 ∧ fld w 13 3 ≠ d then
      let x := s.dfdOf d
      dfdCnt (s.putDfd d { x with fwd := x.fwd ++ [t] }) d Cnt.fwdSent 1
    else if tokenOk s d w then countToken s d w
    else (dfdCnt s d Cnt.badTok 1).p d R.DFD_EVT.TOK_ERR 1) s

/-! ## Units (R260) -/

def unitCls (u : Nat) : Nat := u / 64
def unitIdx (u : Nat) : Nat := u % 64

/-- A unit code that a die has (R260, R268). -/
def unitOk (u : Nat) : Bool := decide (u < 48) || decide (64 ≤ u ∧ u < 128) || decide (128 ≤ u ∧ u < 132)

/-- The DFD_UNIT_EN field of a class. -/
def unitEn (cls : Nat) : Fld := if cls = 0 then R.DFD_UNIT_EN_SE.EN else if cls = 1 then R.DFD_UNIT_EN_KS.EN else R.DFD_UNIT_EN_CORE.EN

/-- The units of a class. -/
def unitCount (cls : Nat) : Nat := if cls = 0 then 48 else if cls = 1 then 64 else 4

/-- The states of a kernel slot (FAB_KSLOT_STATUSk.STATE). -/
def Slot.absent : Nat := 0
def Slot.offline : Nat := 1
def Slot.online : Nat := 2
def Slot.draining : Nat := 3

/-- Unit `u` of a class is free (R260); `sel` is the operation's SEL. -/
def unitFree (s : State) (d cls sel u : Nat) : Bool :=
  let x := s.dfdOf d
  s.bit d (unitEn cls) u &&
    (if cls = 0 then
      !s.standalone d u && (s.seState d u == SeState.idle || s.seState d u == SeState.error) && gateOpen s d (96 + u)
        && !x.tickets.any (fun t => t.live && t.unit_ == u) && (sel == 0 || sel.testBit (u / 8))
    else if cls = 1 then
      s.on d (R.FAB_KSLOT_CFG.DECLARED u) && s.g d (R.FAB_KSLOT_CFG.KTYPE u) == sel
        && s.g d (R.FAB_KSLOT_STATUS.STATE u) == Slot.online && decide ((s.kslot d u).outst.length < 2)
    else
      s.on d (R.DFD_CQ_CFG.EN u) && decide ((x.queue u).length < s.g d (R.DFD_CQ_CFG.QDEPTH u))
        && (sel == 0 || sel.testBit u))

/-- The units that an entry may be issued to, in round-robin order after `last` (R261): the one it excludes only when no
other is eligible. -/
def unitsFor (s : State) (d cls last : Nat) (e : DEntry) : List Nat :=
  let n := unitCount cls
  let l := (List.range n).map (fun k => (last + 1 + k) % n)
  let l := l.filter (fun u => unitFree s d cls (opSel s d e.op) u)
  let rest := l.filter (fun u => some (cls * 64 + u) != e.excl)
  if rest.isEmpty then l else rest

/-- The entries of a class and priority that may be issued: re-issues first, then the first 16 of the list (R261). The flag
marks a re-issue. -/
def candidates (s : State) (d cls p last : Nat) : List (Bool × DEntry × List Nat) :=
  let x := s.dfdOf d
  let re := (x.reissue.filter (fun e => opClass s d e.op == cls && opPrio s d e.op == p)).map (fun e => (true, e))
  let rd := ((x.list (cls * 8 + p)).take 16).map (fun e => (false, e))
  ((re ++ rd).map (fun e => (e.1, e.2, unitsFor s d cls last e.2))).filter (fun c => !c.2.2.isEmpty)

/-- The highest priority of a class with candidates (R261). -/
def topCandidates (s : State) (d cls last : Nat) : List (Bool × DEntry × List Nat) :=
  ((List.range 8).map (fun k => candidates s d cls (7 - k) last)).find? (fun l => !l.isEmpty) |>.getD []

/-- The entry and unit that a class's policy picks, and whether by affinity (R261). -/
def pick (s : State) (d cls : Nat) : Option (Bool × DEntry × Nat × Bool) :=
  let x := s.dfdOf d
  let last := SMap.get (fun _ => unitCount cls - 1) x.lastU cls
  let l := topCandidates s d cls last
  let n := unitCount cls
  let aff := if s.bit d R.DFD_POLICY.AFFINITY cls then
      ((List.range n).map (fun k => (last + 1 + k) % n)).findSome? (fun u =>
        (l.find? (fun c => c.2.2.contains u && SMap.get (fun _ => none) x.aff c.2.1.op == some (cls * 64 + u))).map
          (fun c => (c.1, c.2.1, u, true)))
    else none
  match aff with
  | some r => some r
  | none => match l with
    | (b, e, u :: _) :: _ => some (b, e, u, false)
    | _ => none

/-! ## Tickets (R263) -/

/-- A ticket value after another. -/
def ticketAfter (t : Nat) : Nat := t % 65535 + 1

/-- The first value from `t` on that is not held. -/
def freeTicket : Nat → List Ticket → Nat → Nat
  | 0, _, t => t
  | fuel + 1, l, t => if l.any (fun x => x.t == t) then freeTicket fuel l (ticketAfter t) else t

/-- Issue an entry to a unit under a fresh ticket (R261, R263, R265 to R267). -/
def issueTo (s : State) (d cls : Nat) (re : Bool) (e : DEntry) (u : Nat) (aff : Bool) : State :=
  let x := s.dfdOf d
  let k := cls * 8 + opPrio s d e.op
  let t := freeTicket 513 x.tickets x.nextT
  let code := cls * 64 + u
  let x := if re then { x with reissue := x.reissue.erase e } else x.setList k ((x.list k).erase e)
  let first := cls == 2 && !(x.queue u).any (fun q => !q.popped)
  let x := { x with
    tickets := x.tickets ++ [⟨t, true, e.op, e.epoch, e.used, code⟩]
    nextT := ticketAfter t
    lastCls := cls
    lastU := SMap.put x.lastU cls u
    aff := SMap.set (fun _ => none) x.aff e.op (some code)
    cq := if cls = 2 then SMap.set (fun _ => []) x.cq u (x.queue u ++ [⟨t, e.op, false, none⟩]) else x.cq }
  let s := showOutst (dfdCnt (s.setDfd d x) d Cnt.issues 1) d e.op
  let s := if aff then dfdCnt s d Cnt.affHit 1 else s
  let desc := opDesc s d e.op
  if cls = 0 then seStart s d u (opEntry s d e.op) t desc
  else if cls = 1 then
    let y := s.kslot d u
    s.setKslot d u { y with descs := y.descs ++ [(desc, BitVec.ofNat 16 t)], outst := y.outst ++ [BitVec.ofNat 16 t] }
  else if first then s.p d R.DFD_EVT.CQ_READY 1
  else s

/-- Forget a ticket. -/
def dropTicket (s : State) (d t : Nat) : State :=
  let x := s.dfdOf d
  let op := (x.tickets.find? (fun y => y.t == t)).map (fun y => y.op)
  let s := s.setDfd d { x with tickets := x.tickets.filter (fun y => y.t != t) }
  match op with
  | some n => showOutst s d n
  | none => s

/-- Put a firing into the re-issue queue (R256). -/
def requeue (s : State) (d : Nat) (e : DEntry) : State :=
  let x := s.dfdOf d
  s.setDfd d { x with reissue := x.reissue ++ [e] }

/-! ## Completions (R264) -/

/-- A firing failed (R264): it is issued again while re-issues remain, otherwise it is failed for good. The unit of a failed execution is
taken out of service where the policy says so, whether or not the firing is issued again. -/
def firingFailed (s : State) (d : Nat) (t : Ticket) (kind : Nat) : State :=
  let s := if s.bit d R.DFD_POLICY.ERR_OFF (unitCls t.unit_) then s.clrBit d (unitEn (unitCls t.unit_)) (unitIdx t.unit_) else s
  if t.used < opRetry s d t.op then
    dfdCnt (requeue s d ⟨t.op, t.epoch, t.used + 1, none⟩) d Cnt.retry 1
  else
    let s := (dfdCnt s d Cnt.err 1).p d R.DFD_EVT.OP_ERR 1
    if s.on d R.DFD_ERR_LOG.VALID then s
    else ((((s.p d R.DFD_ERR_LOG.VALID 1).p d R.DFD_ERR_LOG.KIND kind).p d R.DFD_ERR_LOG.UNIT t.unit_).p d
      R.DFD_ERR_LOG.TICKET t.t).p d R.DFD_ERR_LOG.OPID t.op

/-- Count a stale completion and its tokens (R264). -/
def staleCpl (s : State) (d n : Nat) : State :=
  let v := s.g d (R.DFD_CNT.COUNT Cnt.staleCpl)
  s.p d (R.DFD_CNT.COUNT Cnt.staleCpl) ((v / 2 ^ 32 + n) % 2 ^ 32 * 2 ^ 32 + (v + 1) % 2 ^ 32)

/-- Handle a completion by the state of its ticket (R264). -/
def complete (s : State) (d : Nat) (c : DCpl) : State :=
  match (s.dfdOf d).tickets.find? (fun t => t.t == c.ticket && t.unit_ == c.unit_) with
  | some t =>
    let s := dropTicket s d t.t
    if t.live then
      let s := if opEvt s d t.op then s.pulse d (d * 72 + 12) else s
      if c.status = 0 then deliver (dfdCnt s d Cnt.cpl 1) d c.toks
      else firingFailed s d t (if c.status = 2 then 2 else 1)
    else staleCpl s d c.toks.length
  | none => s

/-! ## Revocation (R263, R267, R269, R270) -/

/-- Take a ticket out of a core queue when its execution has not been popped; otherwise show the revocation (R267). -/
def cqRevoke (s : State) (d c t : Nat) : State :=
  let x := s.dfdOf d
  match (x.queue c).find? (fun e => e.t == t) with
  | some e =>
    if e.popped then
      ((s.p d (R.DFD_CQ_STATUS.REVOKED c) t).p d (R.DFD_CQ_STATUS.REVOKE c) 1).p d R.DFD_EVT.CQ_REVOKE 1
    else dropTicket (s.setDfd d { x with cq := SMap.set (fun _ => []) x.cq c ((x.queue c).erase e) }) d t
  | none => s

/-- One K_ABORT pulse at a kernel slot: its kernel has the ticket from K_ABORT_TICKET as revoked (R188, R266). -/
def kslotAbort (s : State) (d k t : Nat) : State :=
  let x := s.kslot d k
  s.setKslot d k { x with abort := x.abort ++ [BitVec.ofNat 16 t] }

/-- Revoke a LIVE ticket at the dispatcher and at its unit (R265 to R267). -/
def revoke (s : State) (d : Nat) (t : Ticket) : State :=
  let x := s.dfdOf d
  let s := s.setDfd d { x with tickets := x.tickets.map (fun y => if y.t = t.t then { y with live := false } else y) }
  let s := showOutst s d t.op
  if unitCls t.unit_ = 0 then seAbort s d (unitIdx t.unit_) t.t
  else if unitCls t.unit_ = 2 then cqRevoke s d (unitIdx t.unit_) t.t
  else kslotAbort s d (unitIdx t.unit_) t.t

/-- The LIVE tickets of a die that satisfy a test. -/
def liveTickets (s : State) (d : Nat) (f : Ticket → Bool) : List Ticket := (s.dfdOf d).tickets.filter (fun t => t.live && f t)

/-- Migrate a LIVE ticket (R269): a migratable firing is re-issued elsewhere, any other runs on and its operation's next
firing excludes the unit. -/
def migrate (s : State) (d : Nat) (t : Ticket) : State :=
  if opMig s d t.op then
    dfdCnt (requeue (revoke s d t) d ⟨t.op, t.epoch, t.used, some t.unit_⟩) d Cnt.migrated 1
  else
    let x := s.dfdOf d
    s.putDfd d { x with avoid := SMap.set (fun _ => none) x.avoid t.op (some t.unit_) }

/-- Migrate tickets: the state, and whether some ticket was not migratable (R269). -/
def migrateAll (s : State) (d : Nat) (l : List Ticket) : State × Bool :=
  (l.foldl (fun s t => migrate s d t) s, l.any (fun t => !opMig s d t.op))

/-- EVACUATE_UNIT (R268). -/
def evacuateUnit (s : State) (d u : Nat) : State × Bool :=
  let s := s.clrBit d (unitEn (unitCls u)) (unitIdx u)
  migrateAll s d (liveTickets s d (fun t => t.unit_ == u))

/-- ABORT_UNIT (R268). -/
def abortUnit (s : State) (d u : Nat) : State :=
  (liveTickets s d (fun t => t.unit_ == u)).foldl (fun s t => dfdCnt (revoke s d t) d Cnt.aborted 1) s

/-- A unit leaves service abruptly (R270). -/
def unitLost (s : State) (d u : Nat) : State :=
  (liveTickets s d (fun t => t.unit_ == u)).foldl (fun s t =>
    if opMig s d t.op then migrate s d t else firingFailed (revoke s d t) d t 3) s

/-- ABORT_OP (R268). -/
def abortOp (s : State) (d n : Nat) : State :=
  let s := (liveTickets s d (fun t => t.op == n)).foldl (fun s t => dfdCnt (revoke s d t) d Cnt.aborted 1) s
  let x := s.dfdOf d
  let mine (l : List DEntry) : Nat := (l.filter (fun e => e.op == n)).length
  let others (l : List DEntry) : List DEntry := l.filter (fun e => e.op != n)
  let dropped := x.ready.foldl (fun a e => a + mine e.2) 0 + mine x.reissue + x.gather.foldl (fun a e => a + mine e.2) 0
    + s.g d (R.DFD_OPSTATE.DEFER n)
  let keep (m : SMap (List DEntry)) : SMap (List DEntry) :=
    (m.map (fun e => (e.1, others e.2))).filter (fun e => !e.2.isEmpty)
  let x := { x with
    ready := keep x.ready
    reissue := others x.reissue
    gather := keep x.gather
    dropTo := if !x.inSub n then x.dropTo else SMap.set (fun _ => 0) x.dropTo n (DfdSt.num x.wr (opPrio s d n)) }
  ((dfdCnt (s.setDfd d x) d Cnt.aborted dropped).p d (R.DFD_OPSTATE.DEFER n) 0).p d (R.DFD_OPSTATE.COUNT n) 0

/-! ## Epochs (R272 to R275) -/

/-- A die is quiescent (R272). -/
def quiescent (s : State) (d : Nat) : Bool :=
  let x := s.dfdOf d
  x.onChip == 0 && x.reissue.isEmpty && x.gather.all (fun e => e.2.isEmpty)
    && (List.range 8).all (fun p => s.g d (R.DFD_SPILL_FILL.FILL p) == 0)
    && (activeOps s d).all (fun n => s.g d (R.DFD_OPSTATE.DEFER n) == 0)
    && x.tickets.isEmpty && x.cpls.isEmpty && x.fwd.isEmpty

def closing (s : State) (d : Nat) : Bool := s.g d R.DFD_EPOCH_STATUS.STATE == 1

/-- Zero every token count of a die. -/
def zeroCounts (s : State) (d : Nat) : State := (activeOps s d).foldl (fun s n => s.p d (R.DFD_OPSTATE.COUNT n) 0) s

/-- The forward counts since the last boundary start again (R274). -/
def restartReport (s : State) (d : Nat) : State :=
  s.putDfd d { s.dfdOf d with
    device := false, report := none, clean := 0
    sent0 := s.g d (R.DFD_CNT.COUNT Cnt.fwdSent)
    recv0 := s.g d (R.DFD_CNT.COUNT Cnt.fwdRecv)
    err0 := s.g d (R.DFD_CNT.COUNT Cnt.fwdErr) }

/-- The epoch advances and is open (R273, R275). -/
def nextEpoch (s : State) (d : Nat) : State :=
  (((restartReport s d).inc d R.DFD_EPOCH.EPOCH 1).p d R.DFD_EPOCH_STATUS.STATE 0).p d R.DFD_EVT.EPOCH_DONE 1

/-- The boundary of a die (R273). -/
def boundary (s : State) (d : Nat) : State :=
  let n := ((activeOps s d).filter (fun n => s.g d (R.DFD_OPSTATE.COUNT n) != 0)).length
  nextEpoch (zeroCounts (s.p d R.DFD_EPOCH_STATUS.RESIDUAL n) d) d

/-- Empty every ready list, the re-issue queue and every sub-ring (R275). -/
def emptyLists (s : State) (d : Nat) : State :=
  let x := s.dfdOf d
  let s := s.setDfd d { x with ready := [], reissue := [], gather := [], rd := [], wr := [], dropTo := [], sub := [] }
  (List.range 8).foldl (fun s p => s.p d (R.DFD_SPILL_FILL.FILL p) 0) s

/-- EPOCH_ABORT on one die (R275). -/
def epochAbort (s : State) (d : Nat) : State :=
  let s := (liveTickets s d (fun _ => true)).foldl (fun s t => revoke s d t) s
  let s := emptyLists s d
  let s := (activeOps s d).foldl (fun s n => s.p d (R.DFD_OPSTATE.DEFER n) 0) s
  nextEpoch (zeroCounts s d) d

/-! ## Commands (R268) -/

/-- A command refused with BAD_ARG. -/
def cmdBad (s : State) (d : Nat) : State := (s.p d R.DFD_CMD_STATUS.RESULT 2).ans .accessError

/-- A command accepted: its requester and its result. -/
def cmdOk (s : State) (d : Nat) (m : Master) (deferred : Bool) : State :=
  ((s.p d R.DFD_CMD.OWNER m.rid).p d R.DFD_CMD_STATUS.RESULT (if deferred then 1 else 0)).ans .ok

/-- A write of DFD_CMD (R268). -/
def dfdCmd (s : State) (d : Nat) (m : Master) (op arg : Nat) : State :=
  let device := s.on d R.DFD_EPOCH_CTRL.SCOPE
  let scope := if device then s.dies else [d]
  match op with
  | 1 =>
    if 8192 ≤ arg ∨ opValid s d arg = false then cmdBad s d
    else match migrateAll s d (liveTickets s d (fun t => t.op == arg)) with
      | (s, df) => cmdOk s d m df
  | 2 =>
    if unitOk arg then
      match evacuateUnit s d arg with
      | (s, df) => cmdOk s d m df
    else cmdBad s d
  | 3 => if 8192 ≤ arg ∨ opValid s d arg = false then cmdBad s d else cmdOk (abortOp s d arg) d m false
  | 4 => if unitOk arg then cmdOk (abortUnit s d arg) d m false else cmdBad s d
  | 5 =>
    if (device ∧ d ≠ s.head) ∨ scope.any (fun e => closing s e) then cmdBad s d
    else
      let s := scope.foldl (fun s e =>
        (s.putDfd e { s.dfdOf e with device := device, report := none, clean := 0 }).p e R.DFD_EPOCH_STATUS.STATE 1) s
      cmdOk s d m false
  | 6 =>
    if device ∧ d ≠ s.head then cmdBad s d
    else cmdOk (scope.foldl epochAbort s) d m false
  | _ => cmdBad s d

/-! ## Stopping (R276) -/

def Dstate.stopped : Nat := 0
def Dstate.running : Nat := 1
def Dstate.stopping : Nat := 2

def dfdState (s : State) (d : Nat) : Nat := s.g d R.DFD_STATUS.STATE

/-- A change of ENABLE (R276, R435): a write of 1 while STOPPING is latched, and a differing write is then refused. -/
def writeEnable (s : State) (d en : Nat) : State :=
  let st := dfdState s d
  if st = Dstate.stopping ∧ s.on d R.DFD_CTRL.ENABLE ∧ en = 0 then s.ans .accessError
  else
    let s := s.p d R.DFD_CTRL.ENABLE en
    let s := if en = 1 ∧ st = Dstate.stopped then s.p d R.DFD_STATUS.STATE Dstate.running
      else if en = 0 ∧ st = Dstate.running then s.p d R.DFD_STATUS.STATE Dstate.stopping
      else s
    s.ans .ok

/-! ## Core queues (R267) -/

/-- A read of DFD_CQ_POPc: the value and the state after. -/
def cqPop (s : State) (d c : Nat) : Nat × State :=
  let x := s.dfdOf d
  match (x.queue c).find? (fun e => !e.popped) with
  | some e =>
    let q := (x.queue c).map (fun y => if y.t = e.t then { y with popped := true } else y)
    let s := s.setDfd d { x with cq := SMap.set (fun _ => []) x.cq c q }
    let s := (opDesc s d e.op).zipIdx.foldl (fun s w => s.p d (R.DFD_CQ_DESC.WORD c w.2) w.1.toNat) s
    (2 ^ 63 + e.t * 2 ^ 32 + e.op, s)
  | none => (0, s)

/-- Some store of a requester is in the network without an acknowledgement (R267). -/
def storesPend (s : State) (rid : Nat) : Bool :=
  s.coh.net.any (fun e => match e.2 with
    | some r => r.req.m.rid == rid && r.req.op != .read && r.place != .done
    | none => false)

/-- A completion that a core has written goes on: not while a store of that core is unacknowledged, nor while the completion buffer is
full (R17, R267, R271). -/
def cqRelease (s : State) (d c : Nat) : State :=
  let x := s.dfdOf d
  match (x.queue c).find? (fun e => match e.cpl with
      | some (rid, _) => s.cplRoom d && !storesPend s rid
      | none => false) with
  | some e =>
    let s := s.setDfd d { x with cq := SMap.set (fun _ => []) x.cq c ((x.queue c).erase e) }
    match e.cpl with
    | some (_, k) => s.sendCpl d k
    | none => s
  | none => s

/-- A write of DFD_CQ_CPLc. The cluster may hold its effect; a ticket whose completion is held has been completed. -/
def cqComplete (s : State) (d c rid status ntok t : Nat) : State :=
  let x := s.dfdOf d
  if (x.queue c).any (fun e => e.popped && e.cpl.isNone && e.t == t) ∧ status ≠ 3 ∧ ntok ≤ 4 then
    let toks := (List.range ntok).map (fun k => BitVec.ofNat 64 (s.g d (R.DFD_CQ_TOK.TOKEN c k)))
    let q := (x.queue c).map (fun e => if e.t = t then { e with cpl := some (rid, ⟨128 + c, t, status, toks⟩) } else e)
    (cqRelease (s.setDfd d { x with cq := SMap.set (fun _ => []) x.cq c q }) d c).ans .ok
  else s.ans .accessError

/-- FLUSH (R267, R270): the live tickets are lost with their unit, every ticket is released, and the queue is empty. -/
def cqFlush (s : State) (d c : Nat) : State :=
  let l := (s.dfdOf d).queue c
  let s := unitLost s d (128 + c)
  let s := l.foldl (fun s e => dropTicket s d e.t) s
  let x := s.dfdOf d
  s.setDfd d { x with cq := SMap.set (fun _ => []) x.cq c [] }

/-- A write of DFD_CQ_CFGc. -/
def writeCqCfg (s : State) (w : Wr) : State :=
  let q := (R.DFD_CQ_CFG.QDEPTH 0).of w.new
  if q < 1 ∨ 16 < q ∨ (q ≠ s.g w.d (R.DFD_CQ_CFG.QDEPTH w.r.i) ∧ !((s.dfdOf w.d).queue w.r.i).isEmpty) then s.ans .accessError
  else
    let s := s.store w
    if (R.DFD_CQ_CFG.FLUSH 0).of w.raw = 1 then (cqFlush s w.d w.r.i).ans .ok else s

/-- No sub-ring holds an entry (R258); one that is gathered for a line is not in it yet. -/
def ringsEmpty (s : State) (d : Nat) : Bool := (List.range 8).all (fun p => s.g d (R.DFD_SPILL_FILL.FILL p) == 0)

/-- A write to a register of the DFD block. -/
def writeDfd (s : State) (w : Wr) : State :=
  let d := w.d
  match w.r.id with
  | .DFD_OPDESC => writeDesc s d w.r.i w.r.j w.new
  | .DFD_TOKEN => tokenWrite s d w.m w.raw
  | .DFD_CMD => dfdCmd s d w.m (R.DFD_CMD.OP.of w.raw) (R.DFD_CMD.ARG.of w.raw)
  | .DFD_CTRL => writeEnable s d (R.DFD_CTRL.ENABLE.of w.new)
  | .DFD_SPILL_BASE => s.storeIf w (ringsEmpty s d)
  | .DFD_SPILL_CFG =>
    let n := R.DFD_SPILL_CFG.SIZE_LOG2.of w.new
    s.storeIf w (ringsEmpty s d && decide (16 ≤ n ∧ n ≤ 30))
  | .DFD_UNIT_EN_KS =>
    let x := s.dfdOf d
    let set := w.new &&& (2 ^ 64 - 1 - w.old)
    (s.putDfd d { x with marks := SMap.keep x.marks (fun k => !set.testBit k) }).store w
  | .DFD_CQ_CFG => writeCqCfg s w
  | .DFD_CQ_CPL => cqComplete s d w.r.i w.m.rid ((R.DFD_CQ_CPL.STATUS 0).of w.raw) ((R.DFD_CQ_CPL.NTOK 0).of w.raw)
      ((R.DFD_CQ_CPL.TICKET 0).of w.raw)
  | _ => s.store w

end Sys2Proof.Machine
end

