-- ==== Sys2Proof/Machine/PenFrames.lean ====
section
/-!
DEFINITION. What becomes of a frame in a port engine (R389 to R395, R405, R406, R409, R411, R414): the checks on receive, its class,
learning, the lookups, flooding, and the way to a queue or out by cut-through.
-/

namespace Sys2Proof.Machine

/-! ## Sending on a lane port -/

/-- The link of a lane port is up (R389). -/
def portUp (s : State) (d p : Nat) : Bool := portOn s d p && s.g d (R.PEN_PORT_STATUS.LINK p) == 2

def frameType (b : List Byte) : Nat := beAt b 12 2

/-- The bytes of a frame as a lane port sends them: the tag removed where the VLAN's UNTAG names the port (R395). -/
def laneBytes (s : State) (d p : Nat) (f : Frame) : List Byte :=
  if !f.tnb && !f.raw && frameType f.bytes == 0x8100 && (s.vlanWord d f.vid 1).getLsbD p then f.bytes.take 12 ++ f.bytes.drop 16
  else f.bytes

/-- A frame on the wire: its FCS follows, least significant byte first, and is wrong for a frame in error. -/
def wireBytes (b : List Byte) (bad : Bool) : List Byte :=
  let c := fcs32 b
  b ++ bytesLE 4 (if bad then (~~~ c).toNat else c.toNat)

/-- Bytes as the words that a reply holds. -/
def replyBytes (s : State) (b : List Byte) : State :=
  s.ansData .ok ((List.range ((b.length + 7) / 8)).map (fun k => BitVec.ofNat 64 (leAt b (8 * k) 8)))

/-- One idle block between frames is deleted where an elastic buffer holds more than 40 blocks and inserted where it holds fewer than 24;
either is counted (R376). The fill it comes to. -/
def matchRate (s : State) (d n fill : Nat) : Nat × State :=
  if 40 < fill then (fill - 1, s.inc d (R.LAN_CNT.COUNT n 5) 1)
  else if fill < 24 then (fill + 1, s.inc d (R.LAN_CNT.COUNT n 4) 1)
  else (fill, s)

/-- The transmit buffers of a port's lanes after a frame, whose fills follow the clocks and are free; and whether one of them broke the
frame (R376). -/
def txCoding (s : State) (d p : Nat) : Bool × State :=
  (portLanes s d p).foldl (fun (x : Bool × State) n =>
    let l := x.2.lane d n
    let (v, s) := x.2.free 7
    let (fill, s) := matchRate s d n (v.toNat % 65)
    (x.1 || l.txBroken, s.setLane d n { l with txFill := fill, txBroken := false })) (false, s)

/-- A lane port sends a frame: its counters, its timestamp record, and an end of transmit LPI (R389, R411, R417). -/
def laneTx (s : State) (d p : Nat) (f : Frame) : State :=
  let (cut, s) := txCoding s d p
  let bad := f.err || f.poison || cut
  let b := wireBytes (laneBytes s d p f) bad
  let s := (s.portCnt d p 4 1).portCnt d p 5 b.length
  let s := if bad then s.portCnt d p 6 1 else s
  let s := if f.tsReq then tsRecord s d (portCode d 0 p) f.tag (txStamp s d p) else s
  replyBytes (s.p d (R.PEN_PORT_STATUS.LPI p) 0) b

/-- The rate of a lane port in bit/s. -/
def portRate (s : State) (d p : Nat) : Nat :=
  let m := (s.lane d p).mode
  (portLanes s d p).length * (bitRate s d p m / 2 ^ (24 + modeD m))

/-- A frame from a lane port of the die may leave by cut-through (R411). -/
def cutOk (s : State) (d p : Nat) (f : Frame) : Bool :=
  let src := codeIndex f.src
  codeKind f.src == 0 && codeDie f.src == d && s.on d (R.PEN_PORT_CFG.CUT p) && portUp s d p
    && (List.range 8).all (fun q => (s.queue d p q).isEmpty) && !s.paused d p f.queue
    && decide (portRate s d p ≤ portRate s d src)

/-! ## To a destination (R390, R409, R414) -/

/-- The fabric port is one that the image uses. -/
def fabricPortOn (s : State) (d n : Nat) : Bool := decide (n < 8) && (s.designOf d).pfifos.getLsbD n

/-- Queue a frame, or drop it and count it at its destination. -/
def queueOrDrop (s : State) (d e : Nat) (f : Frame) : State :=
  match enqueue s d e f.queue f false with
  | some s => s
  | none => s.portCnt d e 7 1

/-- A frame goes to a port of its own die. -/
def localSend (s : State) (d : Nat) (f : Frame) (code : Nat) : State :=
  let i := codeIndex code
  match codeKind code with
  | 0 =>
    if !portOn s d i then s.penCnt d 14
    else if f.tnb ≠ portTnb s d i then s.penCnt d 12
    else if s.g d (R.PEN_PORT_CFG.STATE i) ≠ 2 ∧ f.raw = false then s.portCnt d i 3 1
    else if cutOk s d i f then laneTx s d i f
    else queueOrDrop s d i f
  | 1 =>
    if codeKind f.src = 1 ∨ codeKind f.src = 2 then s.penCnt d 12
    else if fabricPortOn s d i then queueOrDrop s d (Dst.fabric + i) f
    else s.penCnt d 14
  | 2 => if i < 8 ∧ s.on d (R.PEN_RING_CFG.EN i) then queueOrDrop s d (Dst.ring + i) f else s.penCnt d 14
  | _ => if i = 0 then s else s.penCnt d 14

/-- A frame goes onto the trunk toward another die, or is lost where its way is dead (R412, R413). -/
def trunkSend (s : State) (d t : Nat) (f : Frame) : State :=
  if wayDead s d t then s.penCnt d 7
  else match enqueue s d (trunkToward s d t) f.queue f false with
    | some s => s
    | none => s.penCnt d 7

/-- A frame goes to a port code (R390). -/
def sendTo (s : State) (d : Nat) (f : Frame) (code : Nat) : State :=
  let t := codeDie code
  let f := { f with dest := code }
  if codeKind code = 3 ∨ t = d then localSend s d f code
  else if s.present t then trunkSend s d t f
  else s.penCnt d 14

/-! ## VLANs and flooding (R393, R395, R397) -/

def vlanValid (s : State) (d v : Nat) : Bool := (s.vlanWord d v 2).getLsbD 0
def vlanLearns (s : State) (d v : Nat) : Bool := (s.vlanWord d v 2).getLsbD 1

/-- The member ports of a VLAN on a die. -/
def vlanMembers (s : State) (d v : Nat) : List Nat :=
  ((List.range 32).filter (fun p => (s.vlanWord d v 0).getLsbD p && portOn s d p)).map (portCode d 0)
    ++ ((List.range 8).filter (fun i => (s.vlanWord d v 2).getLsbD (24 + i))).map (portCode d 1)
    ++ ((List.range 8).filter (fun i => (s.vlanWord d v 2).getLsbD (16 + i))).map (portCode d 2)

/-- One flood copy goes to every member on this die but the source; each is counted. -/
def floodLocal (s : State) (d : Nat) (f : Frame) : State :=
  ((vlanMembers s d f.vid).filter (fun c => c != f.src)).foldl (fun s c =>
    localSend (s.penCnt d 4) d { f with dest := c, flood := false } c) s

/-- A frame is flooded: on this die, and over the trunk to every other die that the VLAN names. -/
def flood (s : State) (d : Nat) (f : Frame) : State :=
  let s := floodLocal s d f
  ((List.range 8).filter (fun t => t != d && (s.vlanWord d f.vid 2).getLsbD (8 + t) && s.present t)).foldl (fun s t =>
    trunkSend (s.penCnt d 4) d t { f with dest := portCode t 3 1, flood := true }) s

/-- The destination and the source address of an Ethernet frame. -/
def dstMac (b : List Byte) : Nat := beAt b 0 6
def srcMac (b : List Byte) : Nat := beAt b 6 6
def isGroup (mac : Nat) : Bool := mac.testBit 40

/-- An Ethernet frame is forwarded (R395). -/
def ethForward (s : State) (d : Nat) (f : Frame) : State :=
  let m := dstMac f.bytes
  if isGroup m then flood s d f
  else match l2Find s d m f.vid with
    | none => flood s d f
    | some (i, e) =>
      let s := s.setL2 d i (some { e with hit := true })
      if e.port = f.src then s
      else if e.port = portCode (codeDie e.port) 3 1 then flood s d f
      else sendTo s d f e.port

/-- The tag of an Ethernet frame, if it has one: PCP and VID (R393). -/
def ethTag (b : List Byte) : Option (Nat × Nat) :=
  if frameType b = 0x8100 then
    let t := beAt b 14 2
    if fld t 0 12 = 0 then none else some (fld t 13 3, fld t 0 12)
  else none

/-! ## TNB (R405 to R407) -/

/-- The fields of a TNB header. -/
def tnbDst (b : List Byte) : Nat := beAt b 2 3 % 2 ^ 20
def tnbTtl (b : List Byte) : Nat := beAt b 8 1
def tnbQueue (b : List Byte) : Nat := fld (beAt b 1 1) 5 3

/-- A TNB frame with its TTL one lower and HCRC computed again (R406). -/
def tnbHop (b : List Byte) : List Byte :=
  let h := b.take 8 ++ bytesBE 1 (tnbTtl b - 1) ++ (b.drop 9).take 5
  h ++ bytesBE 2 (crc16 h) ++ b.drop 16

/-- The reason for which a DATA frame is dropped, if one of the first four checks of R406 fails; the length is without FCS. -/
def tnbCheck (b : List Byte) : Option Nat :=
  if fld (beAt b 0 1) 4 4 ≠ 1 then some 1
  else if crc16 (b.take 14) ≠ beAt b 14 2 then some 2
  else if beAt b 10 2 + 16 ≠ b.length then some 3
  else if tnbTtl b = 0 then some 4
  else none

/-- Drop a TNB frame for a reason (R406). -/
def tnbDrop (s : State) (d reason : Nat) : State := (s.penCnt d 6).p d R.PEN_STATUS.TNB_REASON reason

/-- The port that the next-hop table names for a frame (R406, R407): MYID's entry must name a fabric port or host ring. -/
def tnbPort (s : State) (d dst : Nat) : Option Nat :=
  let e := s.nhop d dst
  let port := fld e.toNat 0 10
  if e.getLsbD 31 && !(dst == s.g d R.PEN_TNB_CFG.MYID && codeKind port != 1 && codeKind port != 2) then some port else none

/-- A TNB frame is forwarded by its next hop; toward a lane port one hop is counted off when it came from one (R406). -/
def tnbForward (s : State) (d : Nat) (f : Frame) : State :=
  match tnbPort s d (tnbDst f.bytes) with
  | none => tnbDrop s d 5
  | some port =>
    if port = portCode (codeDie port) 3 1 then tnbDrop s d 5
    else sendTo s d (if codeKind port = 0 ∧ codeKind f.src = 0 then { f with bytes := tnbHop f.bytes } else f) port

/-! ## Receive (R374, R376, R387, R391, R392) -/

/-- The coding layers of a lane that had nothing to report. -/
def cleanCoding : Coding := ⟨0, 0, 0, 0, false, 32⟩

/-- What a lane's coding layers report with a frame is counted (R374); a block of idle is deleted or inserted after it (R376); the frame is
in error if they mark it or an elastic buffer broke it. -/
def laneCoding (s : State) (d n : Nat) (c : Coding) : Bool × State :=
  let x := s.lane d n
  let s := (((s.inc d (R.LAN_CNT.COUNT n 0) c.corr).inc d (R.LAN_CNT.COUNT n 1) c.uncorr).inc d (R.LAN_CNT.COUNT n 2) c.sym).inc d
    (R.LAN_CNT.COUNT n 3) c.sync
  let (fill, s) := matchRate s d n c.fill.val
  (c.err || decide (0 < c.uncorr) || x.broken, s.setLane d n { x with rxFill := fill, broken := false })

/-- The coding layers of a port's lanes, the k-th report from its k-th lane. -/
def takeCoding (s : State) (d p : Nat) (cs : List Coding) : Bool × State :=
  (portLanes s d p).zipIdx.foldl (fun (x : Bool × State) l =>
    let (e, s) := laneCoding x.2 d l.1 (cs.getD l.2 cleanCoding)
    (x.1 || e, s)) (false, s)

/-- A start of frame at a die below RUN wakes it, and the frame is held (R387, R444): 4 KiB for each lane of the port. What goes beyond is
dropped and counted, and its frame marked in error. -/
def holdFrame (s : State) (d p : Nat) (k : RxKind) (b : List Byte) (bad : Bool) : State :=
  let s := wakeDie s d 3
  let x := s.lane d p
  let t := rxStamp s d p
  let room := 4096 * (portLanes s d p).length - (x.wake.map (fun h => h.bytes.length)).sum
  if b.length ≤ room then s.setLane d p { x with wake := x.wake ++ [⟨k, b, bad, t.1, t.2⟩] }
  else (s.setLane d p { x with wake := x.wake ++ [⟨k, b.take room, true, t.1, t.2⟩] }).inc d (R.LAN_CNT.COUNT p 9) 1

/-- The checks of the MAC (R392): a TNB frame may be as short as 20 bytes (R405; notes/assumptions/37.md). -/
def macOk (s : State) (d p : Nat) (tnb : Bool) (b : List Byte) : Bool :=
  decide ((if tnb then 20 else 64) ≤ b.length) && decide (b.length ≤ s.g d (R.PEN_PORT_L2.MAX_LEN p))
    && leAt b (b.length - 4) 4 == (fcs32 (b.take (b.length - 4))).toNat

/-- A frame that the coding layers marked (`bad`) or not passes its port's MAC: whether it is good, and the state with what was counted. -/
def macTake (s : State) (d p : Nat) (tnb : Bool) (b : List Byte) (bad : Bool) : Bool × State :=
  if macOk s d p tnb b && !bad then (true, (s.portCnt d p 0 1).portCnt d p 1 b.length) else (false, s.portCnt d p 2 1)

/-- A frame from a lane port, as received with its stamp. -/
def laneFrame (d p q vid : Nat) (tnb : Bool) (b : List Byte) (t : Nat × Nat) : Frame :=
  ⟨b, portCode d 0 p, 0, q, vid, 0, false, false, false, false, false, tnb, t.1, t.2, none⟩

/-- The class of an Ethernet frame from a lane port (R393): queue and VID. -/
def laneClass (s : State) (d p : Nat) (b : List Byte) : Nat × Nat :=
  (ethTag b).getD (s.g d (R.PEN_PORT_CFG.DEF_PCP p), s.g d (R.PEN_PORT_L2.PVID p))

/-- The lane port that a bad frame is already leaving by, cut through (R411). -/
def badCut (s : State) (d p : Nat) (f : Frame) : Option Nat :=
  let port := if f.tnb then
      (if (tnbCheck f.bytes).isNone then tnbPort s d (tnbDst f.bytes) else none)
    else if isGroup (dstMac f.bytes) then none else (l2Find s d (dstMac f.bytes) f.vid).map (fun x => x.2.port)
  match port with
  | some c =>
    let i := codeIndex c
    if codeKind c = 0 ∧ codeDie c = d ∧ c ≠ f.src ∧ portTnb s d i = f.tnb ∧ s.g d (R.PEN_PORT_CFG.STATE i) = 2
        ∧ s.g d (R.PEN_PORT_CFG.STATE p) = 2 ∧ cutOk s d i f then some i else none
  | none => none

/-- A received frame that turned out bad: cut through, it ends with an invalid FCS (R411). -/
def receiveBad (s : State) (d p : Nat) (f : Frame) : State :=
  match badCut s d p f with
  | some i => laneTx s d i { f with err := true }
  | none => s

/-- Stop or start queues of a port as a PAUSE or PFC frame says (R392): opcode, and times in the order of IEEE 802.3. -/
def takePause (s : State) (d p : Nat) (b : List Byte) : State :=
  let op := beAt b 14 2
  if op = 1 then (List.range 8).foldl (fun s q => s.setPaused d p q (beAt b 16 2 != 0)) s
  else if op = 0x0101 ∧ s.on d (R.PEN_PORT_CFG.PFC_EN p) then
    (List.range 8).foldl (fun s q => if (beAt b 16 2).testBit q then s.setPaused d p q (beAt b (18 + 2 * q) 2 != 0) else s) s
  else s

/-- The source search of a good frame (R398), at a port that learns in a VLAN that learns. -/
def learnStep (s : State) (d p : Nat) (f : Frame) : Bool × State :=
  if s.g d (R.PEN_PORT_CFG.STATE p) ≠ 0 ∧ vlanLearns s d f.vid ∧ !isGroup (srcMac f.bytes) then
    learnFrom s d (srcMac f.bytes) f.vid f.src
  else (true, s)

/-- A frame on a port that is not FORWARDING (R391): with TRAP, one for 01-80-C2-00-00-0x goes to the rings of its VLAN. -/
def trapOrDrop (s : State) (d p : Nat) (f : Frame) : State :=
  if s.on d (R.PEN_PORT_L2.TRAP p) ∧ dstMac f.bytes / 16 = 0x0180C200000 then
    ((vlanMembers s d f.vid).filter (fun c => codeKind c == 2)).foldl (fun s c => localSend s d { f with dest := c } c) s
  else s.portCnt d p 3 1

/-- A good Ethernet frame from a lane port (R391, R393, R395, R398). -/
def ethReceived (s : State) (d p : Nat) (b : List Byte) (t : Nat × Nat) : State :=
  let (q, vid) := laneClass s d p b
  let f := laneFrame d p q vid false b t
  if !vlanValid s d vid || !(s.vlanWord d vid 0).getLsbD p then s.penCnt d 5
  else
    match learnStep s d p f with
    | (false, s) => s
    | (true, s) => if s.g d (R.PEN_PORT_CFG.STATE p) = 2 then ethForward s d f else trapOrDrop s d p f

/-- The port takes frames of a coding: it is enabled, up, and the engine is out of reset. -/
def portTakes (s : State) (d p : Nat) (tnb : Bool) : Bool :=
  s.present d && !s.held d Blk.pen && portUp s d p && portTnb s d p == tnb

/-! ## A frame of each kind, once the coding layers have passed it on -/

/-- An Ethernet frame, FCS included (R392). -/
def takeEth (s : State) (d p : Nat) (frame : List Byte) (bad : Bool) (t : Nat × Nat) : State :=
  let b := frame.take (frame.length - 4)
  match macTake s d p false frame bad with
  | (false, s) =>
    let (q, vid) := laneClass s d p b
    receiveBad s d p (laneFrame d p q vid false b t)
  | (true, s) => if frameType b = 0x8808 then takePause s d p b else ethReceived s d p b t

/-- A PAUSE or PFC frame (R392). -/
def takePauseFrame (s : State) (d p : Nat) (frame : List Byte) (bad : Bool) : State :=
  match macTake s d p (portTnb s d p) frame bad with
  | (false, s) => s
  | (true, s) => takePause s d p frame

/-- A DATA frame on a TNB port (R406). -/
def takeData (s : State) (d p : Nat) (frame : List Byte) (bad : Bool) (t : Nat × Nat) : State :=
  let b := frame.take (frame.length - 4)
  let f := laneFrame d p (tnbQueue b) 0 true b t
  match macTake s d p true frame bad with
  | (false, s) => receiveBad s d p f
  | (true, s) =>
    match tnbCheck b with
    | some r => tnbDrop s d r
    | none =>
      if fld (beAt b 0 1) 0 4 ≠ 0 then s
      else if s.g d (R.PEN_PORT_CFG.STATE p) ≠ 2 then s.portCnt d p 3 1
      else tnbForward s d f

/-! ## The hello (R408) -/

/-- A TNB port whose lanes are up. -/
def helloPort (s : State) (d p : Nat) : Bool :=
  s.present d && !s.held d Blk.pen && portOn s d p && portTnb s d p && s.g d (R.PEN_PORT_STATUS.LINK p) != 0

/-- A HELLO is valid: its header passes, and its payload has its MAGIC and CRC. -/
def helloValid (b : List Byte) : Bool :=
  beAt b 0 1 == 0x11 && crc16 (b.take 14) == beAt b 14 2 && beAt b 10 2 == 32 && b.length == 48
    && beAt b 16 4 == 0x544E4248 && beAt b 44 4 == (crc32c ((b.drop 16).take 28)).toNat

/-- A HELLO frame (R408): a peer with this device's ID is a loop; an incompatible version keeps the port down; a valid HELLO with SEEN
brings it up. -/
def takeHello (s : State) (d p : Nat) (frame : List Byte) (bad : Bool) : State :=
  let b := frame.take (frame.length - 4)
  match macTake s d p true frame bad with
  | (false, s) => s
  | (true, s) =>
    if !helloValid b then s
    else
      let maj := beAt b 20 1
      if beAt b 28 4 % 2 ^ 20 = s.g d R.PEN_TNB_CFG.MYID then
        (s.p d (R.PEN_PORT_STATUS.LOOP p) 1).p d R.PEN_EVT.TNB_DOWN 1
      else if maj < 1 ∨ 1 < beAt b 22 1 then s.p d R.PEN_EVT.TNB_DOWN 1
      else
        let s := ((s.setHello d p ⟨true, 0⟩).p d (R.PEN_PORT_STATUS.LOOP p) 0).p d (R.PEN_PORT_STATUS.VER p) 0x10
        if (beAt b 23 1).testBit 0 then s.p d (R.PEN_PORT_STATUS.LINK p) 2 else s

/-! ## From the coding layers, and from the wake buffer -/

/-- A port is in a state to take a frame of a kind. -/
def kindTaken (s : State) (d p : Nat) : RxKind → Bool
  | .eth => portTakes s d p false
  | .pause => s.present d && !s.held d Blk.pen && portUp s d p
  | .data => portTakes s d p true
  | .hello => helloPort s d p

/-- A frame that has passed the coding layers. -/
def takeFrame (s : State) (d p : Nat) (k : RxKind) (b : List Byte) (bad : Bool) (t : Nat × Nat) : State :=
  match k with
  | .eth => takeEth s d p b bad t
  | .pause => takePauseFrame s d p b bad
  | .data => takeData s d p b bad t
  | .hello => takeHello s d p b bad

/-- What a port's wake buffer holds is delivered, in the order received, once the engine runs (R387). -/
def deliverHeld (s : State) (d p : Nat) : State :=
  let x := s.lane d p
  if penRuns s d && !x.wake.isEmpty then
    x.wake.foldl (fun s h => if kindTaken s d p h.kind then takeFrame s d p h.kind h.bytes h.err (h.sec, h.ns) else s)
      (s.setLane d p { x with wake := [] })
  else s

/-- A frame of a kind is received at a port that takes it (R374, R376, R387, R392). -/
def receiveFrame (s : State) (d p : Nat) (k : RxKind) (b : List Byte) (cs : List Coding) : State :=
  if kindTaken s d p k then
    let (bad, s) := takeCoding s d p cs
    if s.belowRun d then holdFrame s d p k b bad
    else
      let s := deliverHeld s d p
      takeFrame s d p k b bad (rxStamp s d p)
  else s

/-! ## Meanings -/

/-- A received Ethernet frame, FCS included (R392). -/
def execFrameReceive (die : Die) (lane : Fin 32) (frame : List Byte) (codings : List Coding) (s : State) :
    Host.Outcome State Fault Refusal := .next (receiveFrame s die lane .eth frame codings)

/-- A received PAUSE or PFC frame (R392). -/
def execPauseReceive (die : Die) (lane : Fin 32) (frame : List Byte) (codings : List Coding) (s : State) :
    Host.Outcome State Fault Refusal :=
  .next (if frameType frame = 0x8808 then receiveFrame s die lane .pause frame codings else s)

/-- The time of a PAUSE or PFC ends for a queue (R392). -/
def execPauseExpiry (die : Die) (lane : Fin 32) (queue : Fin 8) (s : State) : Host.Outcome State Fault Refusal :=
  .next (s.setPaused die lane queue false)

/-- A DATA frame received on a TNB port (R406). -/
def execTnbDataReceive (die : Die) (lane : Fin 32) (frame : List Byte) (codings : List Coding) (s : State) :
    Host.Outcome State Fault Refusal :=
  .next (if fld (beAt frame 0 1) 0 4 ≠ 1 then receiveFrame s die lane .data frame codings else s)

end Sys2Proof.Machine
end

