-- ==== Sys2Proof/Machine/Fifos.lean ====
section
/-!
DEFINITION. Port FIFOs (R181 to R187) and kernel-slot endpoints (R188 to R191), from the fabric's side.
-/

namespace Sys2Proof.Machine

/-! ## Fabric clocks -/

/-- The clock of a port-FIFO pair (R181), of a kernel slot (R188). -/
def pairClock (s : State) (d n : Nat) : ClkSrc := endClock (s.designOf d).pclk n
def slotClock (s : State) (d k : Nat) : ClkSrc := endClock (s.designOf d).kclk k

/-! ## Port FIFOs -/

/-- The region that a port-FIFO pair lies in has its fence closed, or has drained its ports (R201 step 4). -/
def pairFenced (s : State) (d n : Nat) : Bool :=
  (List.range 32).any (fun r => s.bit d (R.FAB_PR_PFIFO.PAIRS r) n
    && (s.regionFenced d r || (s.prState d r == Pr.draining && (s.prOf d r).drained)))

/-- The fabric side of a pair moves words (R187): the image uses it, its clock runs, and no reset or fence holds it. -/
def pairRuns (s : State) (d n : Nat) : Bool :=
  s.present d && (s.designOf d).pfifos.getLsbD n && clkRuns s d (pairClock s d n) && !s.held d Blk.pen
    && !s.held d Blk.gsr && !pairFenced s d n

def isSop (w : FWord) : Bool := w.sb.getLsbD 0
def isEop (w : FWord) : Bool := w.sb.getLsbD 1

/-- The words after the first word that ends a frame. -/
def afterEop : List FWord → List FWord
  | [] => []
  | w :: l => if w.sb.getLsbD 1 then l else afterEop l

/-- The words of the frame in front, through its EOP word, if that is stored. -/
def frontFrame : List FWord → Option (List FWord)
  | [] => none
  | w :: l => if w.sb.getLsbD 1 then some [w] else (frontFrame l).map (w :: ·)

/-- The words up to the last EOP word: those of an open frame removed. -/
def beforeOpen (l : List FWord) : List FWord := (l.reverse.dropWhile (fun w => !w.sb.getLsbD 1)).reverse

/-- A word passes a FIFO: POISON_SEEN records its POISON bit (R187). -/
def notePoison (s : State) (d n : Nat) (w : FWord) : State :=
  if w.sb.getLsbD 9 then s.p d (R.FAB_PFIFO_STATUS.POISON_SEEN n) 1 else s

/-- A word as a reply: its eight data words, then the sideband. -/
def fwordReply (w : FWord) : List DWord :=
  (List.range 8).map (fun i => (w.data >>> (64 * i)).truncate 64) ++ [w.sb]

/-- An ingress word transfers (R183). -/
def execPfifoIngressTransfer (die : Die) (fifo : Fin 8) (s : State) : Host.Outcome State Fault Refusal :=
  let x := s.fifo die fifo
  .next (if pairRuns s die fifo then
    match x.words with
    | [] => s
    | w :: l => ((notePoison s die fifo w).setFifo die fifo { x with words := l }).ansData .ok (fwordReply w)
  else s)

/-- I_DROP discards the rest of the presented frame (R184). -/
def execPfifoIngressDrop (die : Die) (fifo : Fin 8) (s : State) : Host.Outcome State Fault Refusal :=
  let x := s.fifo die fifo
  .next (if pairRuns s die fifo && !x.words.isEmpty then
    (s.setFifo die fifo { x with words := afterEop x.words }).inc die (R.FAB_PFIFO_DROP.FRAMES fifo) 1 else s)

/-! ### Egress -/

/-- The bytes of a word, DATA[7:0] first (R182). -/
def wordBytes (w : FWord) : List Byte := bytesLE 64 w.data.toNat

/-- A frame from the words of an egress FIFO (R182, R414). -/
def fabFrame (s : State) (d n : Nat) (ws : List FWord) : Frame :=
  let bytes := ws.flatMap wordBytes
  let last := (ws.getLast?.map (fun w => fld w.sb.toNat 2 6)).getD 0
  let sop := (ws.head?.map (fun w => w.sb.toNat)).getD 0
  let b := bytes.take (bytes.length - last)
  ⟨b, portCode d 1 n, 0, fld sop 16 3, 0, fld sop 20 12, sop.testBit 19,
    ws.any (fun w => w.sb.getLsbD 8), ws.any (fun w => w.sb.getLsbD 9), false, false, s.on d (R.PEN_FP_CFG.TNB n), 0, 0, none⟩

/-- A frame of a fabric port or host ring in LOOKUP mode is looked up as a TNB or an Ethernet frame with an untagged VID (R414,
R415). Frames from fabric ports need their VLAN's membership (R393). -/
def lookupSend (s : State) (d : Nat) (f : Frame) (tnb : Bool) (pvid : Nat) (member : Bool) : State :=
  if tnb then
    match tnbCheck f.bytes with
    | some r => tnbDrop s d r
    | none => tnbForward s d { f with tnb := true, queue := tnbQueue f.bytes }
  else
    let (q, vid) := (ethTag f.bytes).getD (f.queue, pvid)
    if !vlanValid s d vid || (member && !(s.vlanWord d vid 2).getLsbD (24 + codeIndex f.src)) then s.penCnt d 5
    else ethForward s d { f with queue := q, vid := vid }

/-- The port engine takes a frame of fabric port `n` (R414). -/
def fabSend (s : State) (d n : Nat) (f : Frame) (port : Nat) : State :=
  if s.on d (R.PEN_FP_CFG.LOOKUP n) then lookupSend s d f (s.on d (R.PEN_FP_CFG.TNB n)) (s.g d (R.PEN_FP_CFG.PVID n)) true
  else if portOn s d port then
    localSend s d { f with raw := true, tnb := portTnb s d port, dest := portCode d 0 port } (portCode d 0 port)
  else s.penCnt d 14

/-- Frames that found no room: the destinations' Q_DROP counts and, while no way is dead, the trunk's. -/
def lostForRoom (s : State) (d : Nat) : Nat :=
  ((List.range 56).map (fun i => s.g d (R.PEN_PORT_CNT.COUNT i 7))).foldl (· + ·) 0
    + (if s.dies.all (fun t => !wayDead s d t) then s.g d (R.PEN_CNT.COUNT 7) else 0)

/-- The port engine reads the frame in front of an egress FIFO once the queues it goes to accept it (R185). -/
def takeOut : Nat → State → Nat → Nat → State
  | 0, s, _, _ => s
  | k + 1, s, d, n =>
    let x := s.fifo d (8 + n)
    match frontFrame x.words with
    | none => s
    | some ws =>
      let f := fabFrame s d n ws
      let s' := fabSend (s.setFifo d (8 + n) { x with words := afterEop x.words }) d n f
        ((ws.head?.map (fun w => fld w.sb.toNat 10 5)).getD 0)
      if s.held d Blk.pen || lostForRoom s' d != lostForRoom s d then s else takeOut k s' d n

/-- An open egress frame is aborted and counted (R186). -/
def abortOpen (s : State) (d n : Nat) : State :=
  let x := s.fifo d (8 + n)
  if x.open_ then
    (s.setFifo d (8 + n) ⟨beforeOpen x.words, false⟩).inc d (R.FAB_PFIFO_DROP.FRAMES (8 + n)) 1
  else s

/-- E_READY and E_AFULL of an egress FIFO (R185), as a reply: an entry is free; no more are free than FAB_PFIFO_AFULLm.TH. -/
def egressFlags (s : State) (d n : Nat) : State :=
  let free := 512 - (s.fifo d (8 + n)).words.length
  s.ansData .ok [if 0 < free then 1 else 0, if free ≤ s.g d (R.FAB_PFIFO_AFULL.TH n) then 1 else 0]

/-- An egress word transfers (R185); a word out of place sets FRAMING (R186). The reply gives E_READY and E_AFULL after it. -/
def execPfifoEgressTransfer (die : Die) (fifo : Fin 8) (word : FWord) (s : State) : Host.Outcome State Fault Refusal :=
  let n := fifo.val
  let x := s.fifo die (8 + n)
  .next (if !pairRuns s die n then s
    else egressFlags (if 512 ≤ x.words.length then s
    else if !(isSop word) && !x.open_ then s.p die (R.FAB_PFIFO_STATUS.FRAMING (8 + n)) 1
    else
      let s := if isSop word && x.open_ then (abortOpen s die n).p die (R.FAB_PFIFO_STATUS.FRAMING (8 + n)) 1 else s
      let x := s.fifo die (8 + n)
      let s := (notePoison s die (8 + n) word).setFifo die (8 + n) ⟨x.words ++ [word], !(isEop word)⟩
      takeOut 512 s die n) die n)

/-- E_DROP aborts the frame being written (R186). -/
def execPfifoEgressDrop (die : Die) (fifo : Fin 8) (s : State) : Host.Outcome State Fault Refusal :=
  .next (if pairRuns s die fifo then abortOpen s die fifo else s)

/-- A write of FAB_PFIFO_AFULLm: a threshold of 1 to 256. -/
def writeAfull (s : State) (w : Wr) : State :=
  let v := (R.FAB_PFIFO_AFULL.TH 0).of w.new
  s.storeIf w (decide (1 ≤ v ∧ v ≤ 256))

/-- Both FIFOs of a pair are flushed; `count` counts the ingress frames as dropped by the port engine (R187). -/
def flushPair (s : State) (d n : Nat) (count : Bool) : State :=
  let frames := ((s.fifo d n).words.filter (fun w => isEop w)).length
  let s := if count then s.inc d (R.PEN_CNT.COUNT 13) frames else s
  (s.setFifo d n .reset).setFifo d (8 + n) .reset

/-! ## Kernel slots -/

/-- The region that a kernel slot lies in has its fence closed. -/
def slotFenced (s : State) (d k : Nat) : Bool :=
  (List.range 32).any (fun r => s.regionFenced d r && s.bit d (R.FAB_PR_KSLOT.SLOTS r) k)

/-- The fabric side of a slot's endpoint moves. -/
def slotRuns (s : State) (d k : Nat) : Bool :=
  s.present d && clkRuns s d (slotClock s d k) && !s.held d Blk.gsr && !s.held d Blk.dfd && !slotFenced s d k

def slotState (s : State) (d k : Nat) : Nat := s.g d (R.FAB_KSLOT_STATUS.STATE k)

/-- The level of K_IDLE as the kernel drives it (R188). -/
def showIdle (s : State) (d k : Nat) (idle : Bool) : State := s.p d (R.FAB_KSLOT_STATUS.IDLE k) (if idle then 1 else 0)

/-- A descriptor transfers to the kernel (R188, R189): the reply gives its words and the ticket; `idle` is K_IDLE afterwards. -/
def execKslotDescTransfer (die : Die) (slot : Fin 64) (s : State) (idle : Bool := false) : Host.Outcome State Fault Refusal :=
  let x := s.kslot die slot
  .next (if slotRuns s die slot && slotState s die slot == Slot.online then
    match x.descs with
    | [] => s
    | (ws, t) :: l =>
      (showIdle (s.setKslot die slot { x with descs := l }) die slot idle).ansData .ok
        (ws.map (fun w => w.zeroExtend 64) ++ [t.zeroExtend 64])
  else s)

/-- The writes that the NoC ports of a mask have accepted and that have had no response, as port and fabric tag (R190). -/
def portWrites (s : State) (d mask : Nat) : List (Nat × Nat) :=
  (bitsOf 32 mask).flatMap (fun p => ((s.nport d p).reqs.filter (fun q => q.req.op != .read && !q.quar)).map (fun q => (p, q.itag)))

/-- A completion reaches the endpoint (R188 to R190): one whose ticket is not outstanding is counted; the endpoint holds at most
two. A ticket that K_ABORT has named may complete too. `idle` is K_IDLE afterwards. -/
def execKslotCompletion (die : Die) (slot : Fin 64) (cpl : KCpl) (s : State) (idle : Bool := false) : Host.Outcome State Fault Refusal :=
  let x := s.kslot die slot
  .next (if !slotRuns s die slot || decide (2 ≤ x.held.length) then s
    else showIdle (if x.outst.contains cpl.ticket && !x.descs.any (fun e => e.2 == cpl.ticket)
        && !x.held.any (fun h => h.1.ticket == cpl.ticket) then
      s.setKslot die slot { x with
        held := x.held ++ [(cpl, portWrites s die (s.g die (R.FAB_KSLOT_CFG.PORTMASK slot)))], abort := x.abort.erase cpl.ticket }
    else
      let first := s.g die (R.FAB_KSLOT_STATUS.BAD_CPL slot) = 0
      let s := s.incSat die (R.FAB_KSLOT_STATUS.BAD_CPL slot)
      if first then s.pulse die (die * 72 + 8) else s) die slot idle)

/-- A held completion waits for no write any more: the requests it noted have had their responses (R190). -/
def heldReady (s : State) (d : Nat) (waits : List (Nat × Nat)) : Bool :=
  waits.all (fun w => !(s.nport d w.1).reqs.any (fun q => q.itag == w.2 && !q.quar))

/-- The completion that the dispatcher receives (R188): status 3 is ERROR, and 5 to 7 tokens are ERROR with none. -/
def kslotCpl (slot : Nat) (c : KCpl) : DCpl :=
  if 5 ≤ c.ntok.val then ⟨64 + slot, c.ticket.toNat, 1, []⟩
  else ⟨64 + slot, c.ticket.toNat, if c.status = 3 then 1 else c.status.val, (c.data ++ List.replicate 4 0).take c.ntok.val⟩

/-- The endpoint passes its oldest held completion on (R190), when the completion buffer takes it (R271). -/
def execKslotCompletionRelease (die : Die) (slot : Fin 64) (s : State) : Host.Outcome State Fault Refusal :=
  let x := s.kslot die slot
  .next (if !s.present die || s.held die Blk.dfd then s
    else match x.held with
      | [] => s
      | (c, waits) :: l =>
        if heldReady s die waits && s.cplRoom die then
          let x := { x with held := l, outst := x.outst.erase c.ticket }
          (s.setKslot die slot x).sendCpl die (kslotCpl slot c)
        else s)

end Sys2Proof.Machine
end

