-- ==== Sys2Proof/Machine/Regions.lean ====
section
/-!
DEFINITION. Reconfigurable regions (R198 to R209): closing and releasing a fence, and what an image declares of a die's fabric.
-/

namespace Sys2Proof.Machine

/-! ## What a region holds -/

def regionSlots (s : State) (d r : Nat) : List Nat := bitsOf 64 (s.g d (R.FAB_PR_KSLOT.SLOTS r))
def regionPorts (s : State) (d r : Nat) : List Nat := bitsOf 32 (s.g d (R.FAB_PR_NOCP.PORTS r))
def regionPairs (s : State) (d r : Nat) : List Nat := bitsOf 8 (s.g d (R.FAB_PR_PFIFO.PAIRS r))

/-- The frame column and row of a frame (R198). -/
def frameCol (fa : Nat) : Nat := frameRegionCol fa * 8 + fa % 3072 / 384
where
  /-- The region column of a frame address (R93). -/
  frameRegionCol (fa : Nat) : Nat := fa / 3072 % 10
def frameRow (fa : Nat) : Nat := fa / 30720

/-- A region holds a frame (R198, R199). -/
def regionFrame (s : State) (d r fa : Nat) : Bool :=
  s.on d (R.FAB_PR_GEOM.VALID r)
    && decide (s.g d (R.FAB_PR_GEOM.FC_LO r) ≤ frameCol fa ∧ frameCol fa ≤ s.g d (R.FAB_PR_GEOM.FC_HI r))
    && decide (s.g d (R.FAB_PR_GEOM.ROW_LO r) ≤ frameRow fa ∧ frameRow fa ≤ s.g d (R.FAB_PR_GEOM.ROW_HI r))

/-- The region that a frame lies in, if any. -/
def regionOfFrame (s : State) (d fa : Nat) : Option Nat := (List.range 32).find? (fun r => regionFrame s d r fa)

/-- A region that is moving (R209). -/
def prMoving (s : State) (d : Nat) : Bool :=
  (List.range 32).any (fun r =>
    s.prState d r == Pr.draining || s.prState d r == Pr.loading || s.prState d r == Pr.releasing)

def setPrState (s : State) (d r v : Nat) : State := s.p d (R.FAB_PR_STATUS.STATE r) v
def setSlot (s : State) (d k v : Nat) : State := s.p d (R.FAB_KSLOT_STATUS.STATE k) v

/-! ## Kernel slots -/

/-- Where a slot stands when nothing drains it: ABSENT unless the image declares it, OFFLINE while a reset or a fence holds it
(R191, R201), otherwise ONLINE. -/
def slotRest (s : State) (d k : Nat) : State :=
  if !s.on d (R.FAB_KSLOT_CFG.DECLARED k) then setSlot s d k Slot.absent
  else if s.held d Blk.gsr || s.held d Blk.dfd || slotFenced s d k then setSlot s d k Slot.offline
  else
    let s := setSlot s d k Slot.online
    if (s.kslot d k).outst.isEmpty then s.p d (R.FAB_KSLOT_STATUS.IDLE k) 1 else s

/-- A slot whose enable a closing of region `r` cleared gets it back (R207, R269). -/
def unmark (s : State) (d r k : Nat) : State :=
  let x := s.dfdOf d
  if SMap.get (fun _ => none) x.marks k = some r then
    (s.putDfd d { x with marks := SMap.set (fun _ => none) x.marks k none }).setBit d R.DFD_UNIT_EN_KS.EN k
  else s

/-- MODE = MIGRATE applies EVACUATE_UNIT to a slot and marks the enable it clears (R269). -/
def evacuateSlot (s : State) (d r k : Nat) : State :=
  let s := if s.bit d R.DFD_UNIT_EN_KS.EN k then
      let x := s.dfdOf d
      s.putDfd d { x with marks := SMap.set (fun _ => none) x.marks k (some r) }
    else s
  (evacuateUnit s d (64 + k)).1

/-! ## Closing (R201, R202) -/

/-- The closing of an ACTIVE region starts: its slots drain. -/
def startClose (s : State) (d r : Nat) : State :=
  let mode := s.g d (R.FAB_PR_CTRL.MODE r)
  let s := (setPrState s d r Pr.draining).setPr d r { s.prOf d r with
    mode := mode, tmo := s.g d (R.FAB_PR_CTRL.TMO r), drained := false }
  (regionSlots s d r).foldl (fun s k =>
    let s := if slotState s d k = Slot.online then setSlot s d k Slot.draining else s
    if mode = 1 then evacuateSlot s d r k else s) s

/-- Every slot of the region is out of service. -/
def slotsOffline (s : State) (d r : Nat) : Bool :=
  (regionSlots s d r).all (fun k => slotState s d k == Slot.offline || slotState s d k == Slot.absent)

/-- A NoC port that step 3 of a closing or a closed fence keeps from new requests (R201): its slots are OFFLINE. -/
def portFenced (s : State) (d p : Nat) : Bool :=
  (List.range 32).any (fun r => s.bit d (R.FAB_PR_NOCP.PORTS r) p
    && (s.regionFenced d r || (s.prState d r == Pr.draining && slotsOffline s d r)))

/-- The master requests of a port that wait for an answer. -/
def portOutst (s : State) (d p : Nat) : Nat := ((s.nport d p).reqs.filter (fun q => !q.quar)).length

/-- The release of a FENCED region starts: its flip-flops take INIT (R207 step 1). -/
def startRelease (s : State) (d r : Nat) : State :=
  initFfs (setPrState s d r Pr.releasing) d (fun k => regionTile s d r (k / 16 % 400) (k / 16 / 400))

/-- A latched request is taken (R208). -/
def takePending (s : State) (d r : Nat) (go : State → State) : State :=
  if s.on d (R.FAB_PR_STATUS.PENDING r) then go (s.p d (R.FAB_PR_STATUS.PENDING r) 0) else s

/-- A write of FAB_PR_CTRLr (R201, R202, R207, R208). -/
def writePrCtrl (s : State) (w : Wr) : State :=
  let d := w.d
  let r := w.r.i
  let st := s.prState d r
  let fence := (R.FAB_PR_CTRL.FENCE 0).of w.new = 1
  let pend (s : State) : State := s.p d (R.FAB_PR_STATUS.PENDING r) 1
  if !s.on d (R.FAB_PR_GEOM.VALID r) || (R.FAB_PR_CTRL.MODE 0).of w.new = 3 then s.ans .accessError
  else if fence then
    if st = Pr.active then (startClose (s.setReg d w.r w.new) d r).ans .ok
    else if st = Pr.releasing then (pend (s.setReg d w.r w.new)).ans .ok
    else s.ans .ok
  else if st = Pr.failed then s.ans .accessError
  else
    let s := s.setReg d w.r w.new
    if st = Pr.fenced then (startRelease s d r).ans .ok
    else if st = Pr.draining ∨ st = Pr.loading then (pend s).ans .ok
    else s.ans .ok

/-- The levels of K_IDLE of a region's slots. -/
def showIdles (s : State) (d r : Nat) (idle : DWord) : State :=
  (regionSlots s d r).foldl (fun s k => showIdle s d k (idle.getLsbD k)) s

/-- Slots of a draining region whose K_IDLE is 1 and that have nothing outstanding go OFFLINE (R201 step 2). -/
def execPrSlotsOffline (die : Die) (region : Fin 32) (idle : DWord) (s : State) : Host.Outcome State Fault Refusal :=
  .next (if s.prState die region = Pr.draining then
    (regionSlots s die region).foldl (fun s k =>
      if slotState s die k = Slot.draining ∧ (s.kslot die k).outst.isEmpty ∧ idle.getLsbD k then
        setSlot s die k Slot.offline else s) (showIdles s die region idle)
  else s)

/-- The cache of a coherent port writes back its dirty lines and invalidates its lines (R197). -/
def flushPort (s : State) (d p : Nat) : State := flushNear s d p

/-- The ports of a draining region are drained: NoC ports have nothing outstanding and empty caches, ingress FIFOs are flushed,
and open egress frames are aborted (R201 steps 3 and 4). -/
def execPrPortsDrained (die : Die) (region : Fin 32) (s : State) : Host.Outcome State Fault Refusal :=
  let r := region.val
  .next (if s.prState die r = Pr.draining ∧ slotsOffline s die r
      ∧ (regionPorts s die r).all (fun p => portOutst s die p == 0) ∧ (s.prOf die r).drained = false then
    let s := ((regionPorts s die r).filter (fun p => decide (p < 16))).foldl (fun s p => flushPort s die p) s
    let s := (regionPairs s die r).foldl (fun s n => abortOpen (s.setFifo die n .reset) die n) s
    s.setPr die r { s.prOf die r with drained := true }
  else s)

/-- Queued repairs of a region are cancelled as its closing reaches FENCED (R215). -/
def cancelRepairs (s : State) (d r : Nat) : State :=
  let gone := (s.seuOf d).filter (fun e => regionFrame s d r e.fa)
  let s := s.setSeu d ((s.seuOf d).filter (fun e => !regionFrame s d r e.fa))
  gone.foldl (fun s e => (s.p d R.CFG_SEU_LAST.RESULT 4).p d R.CFG_SEU_LAST.FA e.fa) s

/-- What the outgoing signals of a fenced region present (R200): their safe values, HOLD the value that the signal last had. -/
def regionOuts (s : State) (d r : Nat) : List Bool :=
  match regionDecl s d r with
  | some x => x.outs.zipIdx.map (fun o =>
      match o.1 with
      | .zero => false
      | .one => true
      | .hold => (s.prOf d r).outs.getD o.2 false)
  | none => []

/-- The wrappers close (R201 steps 5 and 6); `outs` and `pins` are the values that the region's outgoing signals and the die's pins then
have. The reply gives what the signals present. -/
def execPrFenced (die : Die) (region : Fin 32) (s : State) (outs : List Bool := []) (pins : BitVec 120 := 0) :
    Host.Outcome State Fault Refusal :=
  let r := region.val
  .next (if s.prState die r = Pr.draining ∧ (s.prOf die r).drained then
    let s := (cancelRepairs (setPrState s die r Pr.fenced) die r).pulse die (die * 72 + 9)
    let s := s.setPr die r { s.prOf die r with took := false, outs := outs, pins := pins }
    let shown := (regionOuts s die r).map (fun b => if b then (1 : DWord) else 0)
    takePending (s.ansData .ok shown) die r (fun s => startRelease s die r)
  else s)

/-- TMO passes with slots not OFFLINE (R202): the closing is abandoned, or with FORCE what is left on the slots is revoked. -/
def execPrCloseTimeout (die : Die) (region : Fin 32) (s : State) : Host.Outcome State Fault Refusal :=
  let r := region.val
  .next (if s.prState die r = Pr.draining ∧ slotsOffline s die r = false ∧ (s.prOf die r).tmo ≠ 0 then
    if (s.prOf die r).mode = 2 then
      (regionSlots s die r).foldl (fun s k =>
        if slotState s die k = Slot.draining then setSlot (abortUnit s die (64 + k)) die k Slot.offline else s) s
    else
      let s := ((setPrState s die r Pr.active).p die (R.FAB_PR_STATUS.TIMEOUT r) 1).p die (R.FAB_PR_STATUS.PENDING r) 0
      (regionSlots s die r).foldl (fun s k => slotRest (unmark s die r k) die k) s
  else s)

/-- 64 ns after the release write (R207 steps 2 to 5). -/
def execPrActive (die : Die) (region : Fin 32) (s : State) : Host.Outcome State Fault Refusal :=
  let r := region.val
  .next (if s.prState die r = Pr.releasing then
    let s := setPrState s die r Pr.active
    let s := (regionSlots s die r).foldl (fun s k =>
      slotRest (if s.on die (R.FAB_KSLOT_CFG.DECLARED k) then unmark s die r k else s) die k) s
    takePending (s.pulse die (die * 72 + 9)) die r (fun s => startClose s die r)
  else s)

/-! ## What an image declares (R199, R204) -/

/-- Two regions share a frame. -/
def declsMeet (a b : RegionDecl) : Bool :=
  decide (a.fcLo ≤ b.fcHi ∧ b.fcLo ≤ a.fcHi ∧ a.rowLo ≤ b.rowHi ∧ b.rowLo ≤ a.rowHi)
    || a.slots &&& b.slots != 0 || a.ports &&& b.ports != 0 || a.pairs &&& b.pairs != 0

/-- Two windows share an address (R196). -/
def winsMeet (a b : WinDecl) : Bool :=
  decide (a.base * 65536 < b.base * 65536 + 2 ^ b.log2 ∧ b.base * 65536 < a.base * 65536 + 2 ^ a.log2)

/-- No two different entries of a list meet. -/
def apart {α : Type} (f : α → α → Bool) : List (Nat × α) → Bool
  | [] => true
  | x :: l => l.all (fun y => x.1 != y.1 && !f x.2 y.2) && apart f l

/-- The declarations of a full image keep R196 and R199. -/
def designOk (x : DieDesign) : Bool :=
  x.regions.all (fun r => decide (r.1 < 32 ∧ r.2.fcLo ≤ r.2.fcHi ∧ r.2.fcHi < 80 ∧ r.2.rowLo ≤ r.2.rowHi ∧ r.2.rowHi < 12))
    && apart declsMeet x.regions
    && x.kslots.all (fun k => decide (k.1 < 64)) && x.windows.all (fun p => decide (16 ≤ p.1 ∧ p.1 < 32 ∧ 16 ≤ p.2.log2
      ∧ p.2.log2 ≤ 27 ∧ p.2.base * 65536 % 2 ^ p.2.log2 = 0 ∧ p.2.base * 65536 + 2 ^ p.2.log2 ≤ 2 ^ 27))
    && apart winsMeet x.windows

/-- Show a kernel slot's declaration. -/
def showSlot (s : State) (d : Nat) (x : DieDesign) (k : Nat) : State :=
  match x.kslots.find? (fun e => e.1 == k) with
  | some (_, c) => ((s.p d (R.FAB_KSLOT_CFG.DECLARED k) 1).p d (R.FAB_KSLOT_CFG.KTYPE k) c.ktype.toNat).p d
      (R.FAB_KSLOT_CFG.PORTMASK k) c.portmask.toNat
  | none => ((s.p d (R.FAB_KSLOT_CFG.DECLARED k) 0).p d (R.FAB_KSLOT_CFG.KTYPE k) 0).p d (R.FAB_KSLOT_CFG.PORTMASK k) 0

/-- Show a region's declaration; it is ACTIVE (R209). -/
def showRegion (s : State) (d : Nat) (e : Nat × RegionDecl) : State :=
  let r := e.1
  let x := e.2
  let s := ((((s.p d (R.FAB_PR_GEOM.VALID r) 1).p d (R.FAB_PR_GEOM.FC_LO r) x.fcLo).p d (R.FAB_PR_GEOM.FC_HI r) x.fcHi).p d
    (R.FAB_PR_GEOM.ROW_LO r) x.rowLo).p d (R.FAB_PR_GEOM.ROW_HI r) x.rowHi
  setPrState (((s.p d (R.FAB_PR_KSLOT.SLOTS r) x.slots.toNat).p d (R.FAB_PR_NOCP.PORTS r) x.ports.toNat).p d
    (R.FAB_PR_PFIFO.PAIRS r) x.pairs.toNat) d r Pr.active

/-- Cells of the fabric take their configured contents: function generators TRUTH, block memories INIT (R145, R175). -/
def fillFabric (s : State) (d : Nat) (x : DieDesign) : State :=
  let s := x.cells.foldl (fun s c => s.setLut d c.1 c.2.truth) s
  x.bmems.foldl (fun s b => s.setBmem d b.1 { Bmem.reset with cells := b.2.init.foldl (fun m e => SMap.set (fun _ => 0#9) m e.1 e.2) [] }) s

/-- A full image is in place on a die: its declarations show, and its primitives start (R199). -/
def applyDesign (s : State) (d : Nat) (x : DieDesign) : State :=
  let s := s.setDesign d x
  let s := x.regions.foldl (fun s e => showRegion s d e) s
  let s := (List.range 64).foldl (fun s k => showSlot s d x k) s
  let s := x.windows.foldl (fun s e => ((s.p d (R.FAB_NOCP_WIN.TARGET e.1) 1).p d (R.FAB_NOCP_WIN.SIZE_LOG2 e.1) e.2.log2).p d
    (R.FAB_NOCP_WIN.BASE e.1) e.2.base) s
  let s := (List.range 16).foldl (fun s n => s.p d (R.FAB_PFIFO_STATUS.USED n) (if x.pfifos.getLsbD (n % 8) then 1 else 0)) s
  resetBmOuts (initFfs (fillFabric s d x) d (fun _ => true)) d

/-- The part of a design that lies in regions of a list, by the running design's declarations. -/
def inRegions (s : State) (d : Nat) (rs : List Nat) (x : DieDesign) : DieDesign :=
  let tile (t : Nat) : Bool := rs.any (fun r => regionTile s d r (t % 400) (t / 400))
  let decls := rs.filterMap (regionDecl s d)
  { x with
    kslots := x.kslots.filter (fun e => rs.any (fun r => s.bit d (R.FAB_PR_KSLOT.SLOTS r) e.1))
    pclk := x.pclk.filter (fun e => rs.any (fun r => s.bit d (R.FAB_PR_PFIFO.PAIRS r) e.1))
    kclk := x.kclk.filter (fun e => rs.any (fun r => s.bit d (R.FAB_PR_KSLOT.SLOTS r) e.1))
    nclk := x.nclk.filter (fun e => rs.any (fun r => s.bit d (R.FAB_PR_NOCP.PORTS r) e.1))
    ffs := x.ffs.filter (fun e => tile (e.1 / 16))
    halves := x.halves.filter (fun e => tile (e.1 / 2))
    cells := x.cells.filter (fun e => tile (e.1 / 8))
    carry := x.carry.filter (fun e => tile e.1)
    pins := x.pins.filter (fun e => decls.any (fun r => r.pins.contains e.1))
    xings := x.xings.filter (fun e => decls.any (fun r => r.xings.contains e.1))
    irqs := x.irqs.filter (fun e => match e.2 with
      | some r => rs.contains r
      | none => false)
    bmems := x.bmems.filter (fun e => decls.any (fun r => r.bmems.contains e.1))
    slices := x.slices.filter (fun e => decls.any (fun r => r.slices.contains e.1)) }

/-- A design with the part that lies in regions of a list replaced by a new design's (R204). -/
def mergeDesign (s : State) (d : Nat) (rs : List Nat) (old new : DieDesign) : DieDesign :=
  let gone := inRegions s d rs old
  let new := inRegions s d rs new
  let keep {α : Type} (l g : List (Nat × α)) : List (Nat × α) := l.filter (fun e => !g.any (fun x => x.1 == e.1))
  { old with
    kslots := keep old.kslots gone.kslots ++ new.kslots, ffs := keep old.ffs gone.ffs ++ new.ffs
    cells := keep old.cells gone.cells ++ new.cells, bmems := keep old.bmems gone.bmems ++ new.bmems
    slices := keep old.slices gone.slices ++ new.slices, halves := keep old.halves gone.halves ++ new.halves
    carry := keep old.carry gone.carry ++ new.carry, pins := keep old.pins gone.pins ++ new.pins
    xings := keep old.xings gone.xings ++ new.xings, pclk := keep old.pclk gone.pclk ++ new.pclk
    kclk := keep old.kclk gone.kclk ++ new.kclk, nclk := keep old.nclk gone.nclk ++ new.nclk
    irqs := keep old.irqs gone.irqs ++ new.irqs }

/-- A partial image has been loaded into regions of a die: their primitives and kernel slots are the new ones (R204). -/
def applyPartial (s : State) (d : Nat) (rs : List Nat) (new : DieDesign) : State :=
  let s := s.setDesign d (mergeDesign s d rs (s.designOf d) new)
  let new := inRegions s d rs new
  let s := rs.foldl (fun s r => (regionSlots s d r).foldl (fun s k => showSlot s d new k) s) s
  fillFabric s d new

end Sys2Proof.Machine
end

