-- ==== Sys2Proof/Machine/Sweep.lean ====
section
/-!
DEFINITION. The upset sweep and repair (R210 to R215).
-/

namespace Sys2Proof.Machine

/-- The CRC-32C of a frame's words (R93). -/
def frameCrc (ws : List DWord) : Word := crc32c (frameBytes ws)

/-- The sweep moves: enabled, after DONE, in RUN, with nothing that pauses it (R211). -/
def sweepReady (s : State) (d : Nat) : Bool :=
  s.present d && s.on d R.CFG_SWEEP_CTRL.EN && s.phase == Phase.running
def sweepPaused (s : State) (d : Nat) : Bool := !s.running d || loadWrites s d || s.on d R.CFG_RB_STATUS.BUSY
/-- CFG_SWEEP_STATUS.STATE. -/
def sweepState (s : State) (d : Nat) : Nat := if !sweepReady s d then 0 else if sweepPaused s d then 2 else 1

/-- The sweep checks a frame: static, in no region or in one that is ACTIVE or DRAINING (R210). -/
def swept (s : State) (d fa : Nat) : Bool :=
  !s.isDynamic d fa && match regionOfFrame s d fa with
    | none => true
    | some r => s.prState d r == Pr.active || s.prState d r == Pr.draining

/-- Show the last result. -/
def seuLast (s : State) (d result fa : Nat) : State := (s.p d R.CFG_SEU_LAST.RESULT result).p d R.CFG_SEU_LAST.FA fa

/-- A frame cannot be repaired (R214). -/
def unrepairable (s : State) (d fa : Nat) : State :=
  let s := ((seuLast s d 3 fa).inc d R.CFG_SEU_UNFIXED.COUNT 1).pulse d (d * 72 + 7)
  if s.on d R.CFG_SWEEP_CTRL.ESC_RESET then raiseReset s .reconfig 8 d 0 else s

/-- A frame has been repaired (R212, R213). -/
def repaired (s : State) (d result fa : Nat) : State :=
  ((seuLast s d result fa).inc d R.CFG_SEU_FIXED.COUNT 1).pulse d (d * 72 + 6)

/-- Flip bits of a frame. -/
def flipFrame (s : State) (d fa : Nat) (flips : List Nat) : State :=
  flips.foldl (fun s b => s.setFrameWord d fa (b / 64 % 64) (s.frameWord d fa (b / 64 % 64) ^^^ (1#64 <<< (b % 64)))) s

/-- An upset is counted, and its frame enters the repair queue if there is room (R210, R213). -/
def upset (s : State) (d fa : Nat) (sigUe : Bool) : State :=
  let s := s.inc d R.CFG_SEU_DET.COUNT 1
  let q := s.seuOf d
  if q.any (fun e => e.fa == fa) then s
  else if 64 ≤ q.length then unrepairable s d fa
  else s.setSeu d (q ++ [⟨fa, sigUe, false, false⟩])

/-- One slot of the sweep. `flips` are bits of the frame that have flipped since it was last looked at; `glitch` a first reading
in error; `sigErr` an error in the stored signature: 1 correctable, 2 not (R211). -/
def execSweepSlot (die : Die) (flips : List Nat) (glitch : Bool) (sigErr : Fin 3) (s : State) : Host.Outcome State Fault Refusal :=
  let d := die.val
  .next (if sweepReady s d && !sweepPaused s d then
    let fa := s.g d R.CFG_SWEEP_STATUS.POS
    let s := flipFrame s d fa flips
    let s := if fa + 1 = frameCount then (s.p d R.CFG_SWEEP_STATUS.POS 0).inc d R.CFG_SWEEP_PASSES.PASSES 1
      else s.p d R.CFG_SWEEP_STATUS.POS (fa + 1)
    if !swept s d fa then s
    else if sigErr = 2 then upset s d fa true
    else if frameCrc (s.frame d fa) ≠ s.sig d fa then upset s d fa false
    else if glitch then seuLast s d 5 fa
    else s
  else s)

/-- A write of CFG_SWEEP_CTRL: setting EN starts from frame 0 (R211). -/
def writeSweep (s : State) (w : Wr) : State :=
  if R.CFG_SWEEP_CTRL.DIV.of w.new = 0 then s.ans .accessError
  else
    let s' := s.store w
    if !s.on w.d R.CFG_SWEEP_CTRL.EN && s'.on w.d R.CFG_SWEEP_CTRL.EN then s'.p w.d R.CFG_SWEEP_STATUS.POS 0 else s'

/-! ## Repair -/

/-- The running image can be read again from flash (R213). -/
def flashSource (s : State) : Bool :=
  match s.cfg.run.src with
  | .slot _ => true
  | .none => false
  | .jtag => false
  | .mem _ => false
  | .warm => s.g s.head R.CFG_BOOT_STATUS.RUN_SLOT != 3

/-- A frame that the warm image cannot repair waits for a flash pass, or is unrepairable (R212, R213). -/
def repairFromFlash (s : State) (d : Nat) (e : SeuEnt) : State :=
  let replaced := match regionOfFrame s d e.fa with
    | some r => s.on d (R.FAB_PR_STATUS.REPLACED r)
    | none => false
  if s.on d R.CFG_SWEEP_CTRL.FLASH_REPAIR && !replaced && flashSource s then
    s.setSeu d ((s.seuOf d).map (fun x => if x.fa = e.fa then { x with flash := true, due := false } else x))
  else unrepairable (s.setSeu d ((s.seuOf d).filter (fun x => x.fa != e.fa))) d e.fa

/-- The 4 bytes of a 64-bit word that hold word `i` of a list of 32-bit words. -/
def halfWord (w : DWord) (i : Nat) : Word := if i % 2 = 0 then w.truncate 32 else (w >>> 32).truncate 32

/-- The next queued frame is repaired from the warm image (R212). `wrong` tells that the written frame reads back wrong twice (R94), which
leaves it unrepairable (notes/assumptions/31.md). -/
def execRepairFromWarm (die : Die) (s : State) (wrong : Bool := false) : Host.Outcome State Fault Refusal :=
  let d := die.val
  .next (if !s.present d || !s.running d || loadWrites s d then s
    else match (s.seuOf d).find? (fun e => !e.flash) with
      | none => s
      | some e =>
        if s.on d R.CFG_WARM_STATUS.VALID then
          let base := s.g d R.CFG_WARM_BASE.BASE
          let m := s.parserMaster d
          let rep := s.reply
          let (r1, ws, s) := memRead 70 s m (base + e.fa * 512) 64
          let (r2, sg, s) := if e.sigUe then memRead 4 s m (base + 0x0B400000 + e.fa / 2 * 8) 1 else (.ok, [], s)
          let s := { s with reply := rep }
          let sig := if e.sigUe then halfWord ((sg.head?.map (fun x => x.v)).getD 0) e.fa else s.sig d e.fa
          let new := ws.map (fun x => x.v)
          if r1 = .ok ∧ r2 = .ok ∧ (ws ++ sg).all (fun x => !x.p) ∧ frameCrc new = sig then
            let s := ((s.setFrame d e.fa new).setSig d e.fa sig).setSeu d ((s.seuOf d).filter (fun x => x.fa != e.fa))
            if wrong then unrepairable s d e.fa else repaired s d 1 e.fa
          else repairFromFlash s d e
        else repairFromFlash s d e)

/-- Every frame that waits for a flash pass becomes unrepairable (R213). -/
def failFlashPass (s : State) : State :=
  s.onDies (fun s d =>
    let gone := (s.seuOf d).filter (fun e => e.flash)
    gone.foldl (fun s e => unrepairable s d e.fa) (s.setSeu d ((s.seuOf d).filter (fun e => !e.flash))))

/-- A flash pass starts: the running slot is read again and no record is forwarded (R213). -/
def execFlashPassStart (s : State) : Host.Outcome State Fault Refusal :=
  .next (if s.dies.any (fun d => (s.seuOf d).any (fun e => e.flash)) && s.cfg.parse.kind == .idle
      && s.phase == Phase.running then
    if flashSource s then s.setParse { ParseSt.reset with kind := .flashPass, src := .slot (s.g s.head R.CFG_BOOT_STATUS.RUN_SLOT) }
    else failFlashPass s
  else s)

/-- A frame that the stream of a flash pass has carried is written and checked (R213); one that reads back wrong twice is unrepairable
(notes/assumptions/31.md). -/
def passRepair (s : State) (d fa : Nat) (wrong : Bool) : State :=
  match (s.seuOf d).find? (fun e => e.fa == fa && e.flash && e.due) with
  | none => s
  | some e =>
    let words := SMap.get (fun _ => []) s.cfg.parse.passed (frameKey d fa)
    let s := s.setSeu d ((s.seuOf d).filter (fun x => x.fa != fa))
    if e.sigUe ∨ frameCrc words = s.sig d fa then
      let s := (s.setFrame d fa words).setSig d fa (frameCrc words)
      if wrong then unrepairable s d fa else repaired s d 2 fa
    else unrepairable s d fa

/-- Every frame that the stream has carried is repaired, at the latest when the pass ends. -/
def passRepairs (s : State) : State :=
  s.onDies (fun s d => ((s.seuOf d).filter (fun e => e.due)).foldl (fun s e => passRepair s d e.fa false) s)

/-- The stream of a flash pass carries a frame that waits (R213). -/
def execFlashPassFrame (die : Die) (fa : Fin 368640) (wrong : Bool) (s : State) : Host.Outcome State Fault Refusal :=
  .next (if s.cfg.parse.kind = .flashPass ∧ s.cfg.parse.hdrDone then passRepair s die fa wrong else s)

end Sys2Proof.Machine
end

