-- ==== Sys2Proof/Machine/CfgRegs.lean ====
section
/-!
DEFINITION. The registers of the CFG block (04_configuration): the command port (R104), CFG_CONFIRM (R101), the warm image's base
(R105, R107), and the registers of capture, readback and the sweep, which Machine/Capture.lean and Machine/Sweep.lean define.
-/

namespace Sys2Proof.Machine

/-- The operations of CFG_CMD. -/
def CfgOp.verifySlot : Nat := 1
def CfgOp.verifyMem : Nat := 2
def CfgOp.loadMem : Nat := 3
def CfgOp.warmBuild : Nat := 4

/-- The running slot, if the image came from one. -/
def State.runSlot (s : State) : Option Nat :=
  let n := s.g s.head R.CFG_BOOT_STATUS.RUN_SLOT
  if n < 3 then some n else none

/-- The running image may still be confirmed (R101): it is the active slot of a PENDING boot record with no CONFIRM entry. -/
def State.confirmable (s : State) : Bool :=
  match s.cfg.flash.br with
  | some b => b.pending && s.runSlot == some b.active && s.trialCount b.seq Trial.confirm == 0
  | none => false

/-- CFG_CONFIRM (R101). -/
def writeConfirm (s : State) (key : Nat) : State :=
  if key ≠ 0x5A3CC3A5 then s.ans .accessError
  else if s.on s.head R.CFG_BOOT_STATUS.CONF_BUSY then s.ans .ok
  else if s.confirmable then
    if s.blankPage.isSome then (s.p s.head R.CFG_BOOT_STATUS.CONF_BUSY 1).ans .ok
    else (s.p s.head R.CFG_BOOT_STATUS.CONF 3).ans .ok
  else (s.p s.head R.CFG_BOOT_STATUS.CONF 0).ans .ok

/-- VALID and the digest of a die are cleared (R107). -/
def warmClear (s : State) (d : Nat) : State :=
  (s.setWarm d { s.warmOf d with digest := 0, refresh := false }).p d R.CFG_WARM_STATUS.VALID 0

/-- A pass of the Parsers through an image starts for a command, if they are free. -/
def startCmd (s : State) : State :=
  match s.cfg.cmd with
  | none => s
  | some (op, slot) =>
    if s.cfg.parse.kind ≠ .idle then s
    else
      let mem := ImgSrc.mem (s.g s.head R.CFG_CMD_ADDR.ADDR)
      if op = CfgOp.verifySlot then s.setParse { ParseSt.reset with kind := .verify, src := .slot slot }
      else if op = CfgOp.verifyMem then s.setParse { ParseSt.reset with kind := .verify, src := mem }
      else if op = CfgOp.loadMem then
        (s.setParse { ParseSt.reset with kind := .partialLoad, src := mem }).onDies (fun s d =>
          ((s.p d R.CFG_LOAD_STATUS.BUSY 1).p d R.CFG_LOAD_STATUS.SOURCE 6).p d R.CFG_LOAD_STATUS.ERROR 0)
      else match s.runSlot with
        | some n => s.setParse { ParseSt.reset with kind := .warmBuild, src := .slot n }
        | none => s.setParse { ParseSt.reset with kind := .finished, finErr := some Lerr.busy }

/-- The dies that a warm build writes: those with a base (R106). -/
def State.warmDies (s : State) : List Nat := s.dies.filter (fun d => s.g d R.CFG_WARM_BASE.BASE != 0)

/-- A warm build starts: its dies show it and their regions are not valid until it ends (R106). -/
def warmBuildMarks (s : State) : State :=
  s.each s.warmDies (fun s d => (warmClear s d).p d R.CFG_WARM_STATUS.BUILDING 1)

/-- A pass of the Parsers is over: for a command, whose end CFG_CMD_COMPLETE reports, with its error; otherwise a command that has waited
starts. -/
def passEnd (s : State) (forCmd : Bool) (err : Nat) : State :=
  if forCmd then s.setParse { ParseSt.reset with kind := .finished, finErr := some err } else startCmd (s.setParse .reset)

/-- The running command is a warm build. -/
def buildCmd (s : State) : Bool := s.cfg.cmd.any (fun c => c.1 == CfgOp.warmBuild)

/-- A warm build fails: VALID stays 0 (R106), and CFG_LOAD_FAIL is raised (R104). -/
def warmFail (s : State) (err : Nat) : State :=
  let s := (s.pAll R.CFG_WARM_STATUS.BUILDING 0).pulse s.head (s.head * 72 + 4)
  passEnd s (buildCmd s) err

/-- A warm build fails for a reason that has no code of R104: the error shown is open, but is not NONE. -/
def warmFailOpen (s : State) : State :=
  let (f, s) := s.free 8
  warmFail s (1 + f.toNat % 25)

/-- A write of CFG_WARM_BASE (R105, R107); a change during a build fails it (R106). -/
def writeWarmBase (s : State) (w : Wr) : State :=
  let building := s.on w.d R.CFG_WARM_STATUS.BUILDING && w.new != s.g w.d R.CFG_WARM_BASE.BASE
  let s := (warmClear s w.d).store w
  if building then { warmFailOpen s with reply := s.reply } else s

/-- A write of CFG_CMD (R104, R203). DESIGN CHOICE (notes/assumptions/55.md): while the command runs ERROR reads NONE. -/
def writeCfgCmd (s : State) (w : Wr) : State :=
  let op := R.CFG_CMD.OP.of w.raw
  let slot := R.CFG_CMD.SLOT.of w.new
  if s.on s.head R.CFG_CMD_STATUS.BUSY ∨ slot = 3 ∨ op = 0 ∨ 4 < op then s.ans .accessError
  else if op = CfgOp.loadMem ∧ !s.on s.head R.SYS_BOOT_STATUS.DONE_PIN then s.ans .accessError
  else
    let s := (s.setReg w.d w.r w.new).p w.d R.CFG_CMD.OWNER w.m.rid
    let s := (s.p s.head R.CFG_CMD_STATUS.BUSY 1).p s.head R.CFG_CMD_STATUS.ERROR 0
    let s := s.setCfg { s.cfg with cmd := some (op, slot) }
    let s := if op = CfgOp.warmBuild ∧ s.runSlot.isSome then warmBuildMarks s else s
    (startCmd s).ans .ok

/-- A base that CFG_WARM_BASE may hold (R105): 0, or 1 MiB-aligned in the DRAM window, with any KeyID. -/
def warmBaseOk (v : Nat) : Bool :=
  v == 0 || (v % 2 ^ 20 == 0 && decide (v / 2 ^ 54 = 0) && decide (0x020000000000 ≤ v % 2 ^ 48 ∧ v % 2 ^ 48 + 0x0C000000 ≤ 0x040000000000))

/-- A write to a register of the CFG block. -/
def writeCfg (s : State) (w : Wr) : State :=
  match w.r.id with
  | .CFG_CONFIRM => writeConfirm s w.raw
  | .CFG_CMD => writeCfgCmd s w
  | .CFG_CMD_ADDR => s.storeIf w (w.new % 8 == 0)
  | .CFG_WARM_BASE =>
    if warmBaseOk w.new then writeWarmBase s w else s.ans .accessError
  | .CFG_CAP_CTRL => writeCap s w
  | .CFG_RB_CTRL => writeRbCtrl s w
  | .CFG_RB_DEST => s.storeIf w (w.new % 64 == 0)
  | .CFG_SWEEP_CTRL => writeSweep s w
  | _ => s.store w

/-- The word that a read of a CFG register gives where it is not what the register holds. -/
def readCfg (s : State) (d : Nat) (r : RegRef) : Option Nat :=
  match r.id with
  | .CFG_SWEEP_STATUS => some ((s.p d R.CFG_SWEEP_STATUS.STATE (sweepState s d)).reg d r)
  | _ => none

/-- The registers that a warm build copies into the always-on domain of a die (R109), with their values. -/
def accessRegs (s : State) (d : Nat) : List (Nat × Nat) :=
  ([R.DDR_CFG.EN 0, R.DDR_CFG.EN 1].map (fun f => (f.off, s.g d (word f.off))))
    ++ (List.range 8).flatMap (fun k => [(R.DDR_MAP_RNG.SIZE k).off, (R.DDR_MAP_CTL.EN k).off].map (fun o => (o, s.g d (word o))))
    ++ (List.range 2).flatMap (fun i => (List.range 4).map (fun j => let o := (R.MEE_PROT.EN i j).off; (o, s.g d ⟨o, 0, 64⟩)))

/-- A register that R109 copied has been written with a value different from the copied one: the warm image of the die is no longer valid
(R107). -/
def warmCheck (s : State) (d off : Nat) : State :=
  if s.on d R.CFG_WARM_STATUS.VALID ∧ s.reply.resp = .ok
      ∧ (accessRegs s d).any (fun x => x.1 == off && !(s.warmOf d).access.contains x) then warmClear s d
  else s

/-- The registers that a die's warm access state covers stand at their reset values, as the image's own writes find them (R109). -/
def accessBlank (s : State) (d : Nat) : State :=
  let keys := (s.warmOf d).access.map (fun x => cellKey d x.1)
  s.resetCells (fun k => keys.contains k)

end Sys2Proof.Machine
end

