-- ==== Sys2Proof/Machine/SecRegs.lean ====
section
/-!
DEFINITION. The registers of the SEC block (05_security): who may reach them (R117), the commands' checks (R119 to R125, R137), the
key status (R120, R123, R124, R126), the tamper settings and their floors (R133, R136), and the rights (R130, R131).
-/

namespace Sys2Proof.Machine

/-- A master that SEC accepts (R117). -/
def State.secOpen (s : State) (m : Master) : Bool := s.supervisor m

def State.setSec (s : State) (x : SecSt) : State := { s with sec := x }
def State.setFuses (s : State) (x : Fuses) : State := { s with sec := { s.sec with fuses := x } }

/-! ## Fuses and keys -/

/-- Public-key hash `k` (R120). -/
def Fuses.pk (f : Fuses) (k : Nat) : PkFuse := if k = 0 then f.pk0 else if k = 1 then f.pk1 else if k = 2 then f.pk2 else f.pk3
def Fuses.setPk (f : Fuses) (k : Nat) (x : PkFuse) : Fuses :=
  if k = 0 then { f with pk0 := x } else if k = 1 then { f with pk1 := x } else if k = 2 then { f with pk2 := x }
  else { f with pk3 := x }

/-- The bytes of a 384-bit hash: SHA-384's first byte is the most significant (R120). -/
def hashBytes (h : BitVec 384) : List Byte := bytesBE 48 h.toNat

/-- The check word of a hash: the CRC-32C of its bytes in order. -/
def pkCheck (h : BitVec 384) : Word := crc32c (hashBytes h)

/-- A hash is PRESENT once its check word is blown, and BROKEN when the word does not match (R120). -/
def PkFuse.present (p : PkFuse) : Bool := p.chk.isSome
def PkFuse.broken (p : PkFuse) : Bool :=
  match p.chk with
  | some c => c != pkCheck p.hash
  | none => p.hash != 0

/-- A hash that may verify an image or an unlock (R120, R121). -/
def Fuses.pkUsable (f : Fuses) (k : Nat) : Bool :=
  (f.pk k).present && !(f.pk k).broken && !(decide (k < 3) && f.revoke.getLsbD k)

/-- Any hash is PRESENT (R120). -/
def Fuses.pkAny (f : Fuses) : Bool := (List.range 4).any (fun k => (f.pk k).present)

/-- The fuse key's check word matches (R123). -/
def Fuses.keyMatches (f : Fuses) : Bool := f.keyChk == some (crc32c (bytesLE 32 f.key.toNat))
def Fuses.keyUsable (f : Fuses) : Bool := f.keyMatches && !f.kill

/-- BBRAM_LOST (R126). -/
def SecSt.bbLost (x : SecSt) : Bool := x.fuses.enrolled && (bbActive x).isNone

/-- The policy bits of R137's POLICY_PROGRAM: SEC_POLICY's fields. -/
def Policy.unencOk : Nat := 0
def Policy.fuseSubst : Nat := 1
def Policy.startZeroise : Nat := 2
def Policy.vaultZeroise : Nat := 3
def policyMask : Nat := 0xFFE0F

def State.policy (s : State) (b : Nat) : Bool := s.sec.fuses.policy.getLsbD b

/-- On entering BBRAM_LOST both slots are zeroised and SEC_BBRAM_LOST is raised once per power-on (R126). -/
def bbCheck (s : State) : State :=
  if s.sec.bbLost then
    let told := s.sec.lostTold
    let s := s.setSec { s.sec with bb0 := .zero, bb1 := .zero, lostTold := true }
    if told then s else s.pulse s.head 577
  else s

/-! ## Commands -/

def SecRes.ok : Nat := 0
def SecRes.denied : Nat := 1
def SecRes.badArg : Nat := 2
def SecRes.verifyFail : Nat := 3
def SecRes.tamperAbort : Nat := 4
def SecRes.fuseFail : Nat := 5

/-- SEC_KEY_DATA and SEC_KEY_VERSION are zeroised (R127). -/
def zeroKeyRegs (s : State) : State :=
  ((List.range 12).foldl (fun s n => s.p s.head (R.SEC_KEY_DATA.DATA n) 0) s).p s.head R.SEC_KEY_VERSION.VERSION 0

/-- `n` words of SEC_KEY_DATA, word 0 first, as bytes. -/
def State.keyData (s : State) (n : Nat) : List Byte :=
  (List.range n).flatMap (fun i => bytesLE 4 (s.g s.head (R.SEC_KEY_DATA.DATA i)))

/-- A command ends (R127, R137). -/
def secEnd (s : State) (res : Nat) : State :=
  let s := zeroKeyRegs (s.setSec { s.sec with cmd := none })
  ((s.p s.head R.SEC_CMD_STATUS.RESULT res).p s.head R.SEC_CMD_STATUS.BUSY 0).p s.head R.SEC_CMD_STATUS.DONE 1

/-- The states in which a command runs (R137). -/
def secStateOk (lc op : Nat) : Bool :=
  match op with
  | 1 => lc == Lc.provisioned || lc == Lc.deployed
  | 2 => lc == Lc.provisioned || lc == Lc.deployed
  | 3 => lc == Lc.provisioned
  | 4 => lc == Lc.blank || lc == Lc.provisioned
  | 5 => lc == Lc.provisioned || lc == Lc.deployed
  | 6 => lc == Lc.provisioned || lc == Lc.deployed
  | 7 => lc == Lc.blank || lc == Lc.provisioned
  | _ => true

/-- A transition that R119 permits. -/
def lcAllowed (s : State) (target : Nat) : Bool :=
  let lc := s.lc
  let f := s.sec.fuses
  (lc == Lc.blank && target == Lc.provisioned && (List.range 4).any (fun k => (f.pk k).present && !(f.pk k).broken))
    || (lc == Lc.provisioned && target == Lc.deployed)
    || (lc == Lc.deployed && target == Lc.returned && s.dbgLevel == 3)
    || (lc != Lc.scrapped && target == Lc.scrapped)

/-- How a command is judged when it is written: SecRes.ok when it runs. -/
def secJudge (s : State) (op arg : Nat) : Nat :=
  let x := s.sec
  let f := x.fuses
  if !secStateOk s.lc op then SecRes.denied
  else match op with
  | 1 =>
    let v := s.g s.head R.SEC_KEY_VERSION.VERSION
    let holds (b : BbSlot) : Bool := bbValid b && decide (v ≤ b.version.toNat)
    if v = 0 ∨ holds x.bb0 ∨ holds x.bb1 then SecRes.badArg else SecRes.ok
  | 2 =>
    let slot := if bbInactive x = 0 then x.bb0 else x.bb1
    if bbValid slot && (bbActive x).isNone then SecRes.denied else SecRes.ok
  | 3 => if f.key = 0 ∧ f.keyChk = none then SecRes.ok else SecRes.denied
  | 4 =>
    if 3 < arg then SecRes.badArg
    else if (f.pk arg).hash = 0 ∧ (f.pk arg).chk = none then SecRes.ok else SecRes.denied
  | 5 =>
    if 2 < arg then SecRes.badArg
    else if s.on s.head R.SEC_PKH_STATUS.RUN_PK_VALID ∧ s.g s.head R.SEC_PKH_STATUS.RUN_PK = arg then SecRes.denied
    else if (List.range 4).any (fun k => k != arg && f.pkUsable k) then SecRes.ok else SecRes.denied
  | 8 => if lcAllowed s arg then SecRes.ok else SecRes.denied
  | _ => SecRes.ok

/-- BB_WRITE and BB_ERASE_OLD begin by erasing the sentinel of the inactive slot (R125, R127). -/
def bbErase (s : State) : State :=
  s.setSec (if bbInactive s.sec = 0 then { s.sec with bb0 := { s.sec.bb0 with sentinel := 0 } }
    else { s.sec with bb1 := { s.sec.bb1 with sentinel := 0 } })

/-- A write of SEC_CMD (R137). The tamper event of LOCKDOWN is added in Machine/Tamper.lean. -/
def writeSecCmd (s : State) (w : Wr) : State :=
  let op := R.SEC_CMD.OP.of w.raw
  let arg := R.SEC_CMD.ARG.of w.new
  if s.on s.head R.SEC_CMD_STATUS.BUSY ∨ op = 0 ∨ 9 < op then s.ans .accessError
  else
    let s := (s.setReg w.d w.r w.new).p w.d R.SEC_CMD.OWNER w.m.rid
    let res := secJudge s op arg
    let s := (s.p w.d R.SEC_CMD_STATUS.BUSY 1).setSec { s.sec with cmd := some (op, arg) }
    (if res = SecRes.ok ∧ op ≠ 9 then (if op = 1 ∨ op = 2 then bbErase s else s) else secEnd s res).ans .ok

/-! ## Writes and reads -/

def rightsLocked (s : State) : Bool := s.on s.head R.SEC_RIGHTS_LOCK.LOCK
def tamperLocked (s : State) : Bool := s.on s.head R.SEC_TAMPER_CFG.LOCK

/-- A write of SEC_TAMPER_LOG: COUNT, WHEN and FIRST clear when SOURCES reaches 0. -/
def writeTamperLog (s : State) (w : Wr) : State :=
  if s.boot.lockdown then s.ans .accessError
  else
    let s := s.store w
    if s.g w.d R.SEC_TAMPER_LOG.SOURCES = 0 then
      ((s.p w.d R.SEC_TAMPER_LOG.COUNT 0).p w.d R.SEC_TAMPER_LOG.WHEN 0).p w.d R.SEC_TAMPER_LOG.FIRST 0
    else s

/-- A write to a register of the SEC block, but for the tamper event of LOCKDOWN. -/
def writeSec (s : State) (w : Wr) : State :=
  match w.r.id with
  | .SEC_CMD => writeSecCmd s w
  | .SEC_KEY_DATA => (s.setReg w.d w.r w.raw).ans .ok
  | .SEC_KEY_VERSION => (s.setReg w.d w.r w.raw).ans .ok
  | .SEC_TAMPER_CFG =>
    let en := R.SEC_TAMPER_CFG.EN.of w.new
    if tamperLocked s ∨ en &&& s.startEn ≠ s.startEn ∨ (en.testBit 5 ∧ !s.hasMesh) then s.ans .accessError
    else (s.store w).p w.d R.SEC_TAMPER_CFG.EN (en ||| 0x80)
  | .SEC_TAMPER_RESP => s.storeIf w (!tamperLocked s && w.new % 16 &&& s.runFloor == s.runFloor)
  | .SEC_TAMPER_LOG => writeTamperLog s w
  | .SEC_TEMP_LIMITS =>
    s.storeIf w (!tamperLocked s && decide (sext 8 (R.SEC_TEMP_LIMITS.TEMP_LO.of w.new) < sext 8 (R.SEC_TEMP_LIMITS.TEMP_HI.of w.new)))
  | .SEC_NVC_RIGHTS => s.storeIf w (!rightsLocked s)
  | .SEC_KEYID_RIGHTS => s.storeIf w (!rightsLocked s)
  | _ => s.store w

/-- A list of bits as a number, the first the lowest. -/
def bitsNat (l : List Bool) : Nat := l.foldr (fun b a => (if b then 1 else 0) + 2 * a) 0

/-- The word that a read of a SEC register gives where fuses, BBRAM or the debug level decide it. -/
def readSec (s : State) (d : Nat) (r : RegRef) : Option Nat :=
  let x := s.sec
  let f := x.fuses
  let four (p : Nat → Bool) : Nat := bitsNat ((List.range 4).map p)
  match r.id with
  | .SEC_LC => some (((s.p d R.SEC_LC.STATE s.lc).p d R.SEC_LC.DBG_LEVEL s.dbgLevel).reg d r)
  | .SEC_KEY_STATUS => some (bitsNat [bbActive x == some 1, false, false, false, false, false, false, false, bbValid x.bb0,
      bbValid x.bb1, false, false, f.keyMatches, f.kill, x.bbLost, f.enrolled])
  | .SEC_BB_VER =>
    let b := if r.i = 0 then x.bb0 else x.bb1
    some (if bbValid b then b.version.toNat else 0)
  | .SEC_PKH_STATUS => some (four (fun k => (f.pk k).present) + 16 * f.revoke.toNat + 256 * four (fun k => (f.pk k).broken)
      + 65536 * s.g d R.SEC_PKH_STATUS.RUN_PK + 2 ^ 18 * s.g d R.SEC_PKH_STATUS.RUN_PK_VALID)
  | .SEC_SVN_FLOOR => some f.svn
  | .SEC_POLICY => some f.policy.toNat
  | .SEC_DEVICE_ID => some f.devId.toNat
  | _ => none

end Sys2Proof.Machine
end

