-- ==== Sys2Proof/Machine/NvcRegs.lean ====
section
/-!
DEFINITION. The registers of the flash controller (04_configuration): the checks of an operation when it is written (R110 to R112, R130),
and how an operation ends.
-/

namespace Sys2Proof.Machine

def NvcOp.erase : Nat := 1
def NvcOp.program : Nat := 2
def NvcOp.blankCheck : Nat := 3
def NvcOp.read : Nat := 4
def NvcOp.resetFlash : Nat := 5

/-- The result codes of R111. -/
def NvcRes.ok : Nat := 0
def NvcRes.notErased : Nat := 1
def NvcRes.prot : Nat := 2
def NvcRes.align : Nat := 3
def NvcRes.flashError : Nat := 4
def NvcRes.memError : Nat := 5
def NvcRes.aborted : Nat := 6
def NvcRes.eraseFail : Nat := 7

/-- The states of NVC_STATUS. -/
def NvcState.idle : Nat := 0
def NvcState.busy : Nat := 1
def NvcState.suspended : Nat := 2

def State.nvcState (s : State) : Nat := s.g s.head R.NVC_STATUS.STATE

/-- An operation ends: its result, the failing address, DONE, and the unlock bits cleared (R111, R112). DESIGN CHOICE
(notes/assumptions/55.md): an operation that ends OK leaves NVC_FAIL_ADDR as it was. -/
def nvcEnd (s : State) (res failAddr : Nat) : State :=
  let h := s.head
  let s := s.setFlash { s.cfg.flash with op := 0 }
  let s := ((s.p h R.NVC_STATUS.STATE NvcState.idle).p h R.NVC_STATUS.RESULT res).p h R.NVC_STATUS.DONE 1
  let s := if res = NvcRes.ok then s else s.p h R.NVC_FAIL_ADDR.ADDR failAddr
  ((s.p h R.NVC_PROTECT.RUN_UNLOCK 0).p h R.NVC_PROTECT.G_UNLOCK 0).p h R.NVC_PROTECT.BOOT_UNLOCK 0

/-- The operands follow R110 for the devices that are set up. -/
def nvcAligned (s : State) (op addr len : Nat) : Bool :=
  let fits := decide (addr + len ≤ s.flashSize)
  let unit (u : Nat) : Bool := addr % u == 0 && len % u == 0
  match op with
  | 1 => unit s.flashSector && fits
  | 2 => unit s.flashPage && decide (len ≤ 2 ^ 20) && fits
  | 3 => unit s.flashPage && fits
  | 4 => len % 8 == 0 && decide (len ≤ 2 ^ 24) && fits
  | _ => true

/-- A range of the logical flash meets a guarded one (R112). -/
def nvcGuarded (s : State) (addr len : Nat) : Bool :=
  let h := s.head
  let meets (a n : Nat) : Bool := overlaps addr len a n
  let slot (n : Nat) : Bool := let (a, l) := s.slotAt n; meets a l
  (!s.on h R.NVC_PROTECT.BOOT_UNLOCK && meets 0 (3 * s.flashSector)) || (!s.on h R.NVC_PROTECT.G_UNLOCK && slot 2)
    || (!s.on h R.NVC_PROTECT.RUN_UNLOCK && (match s.runSlot with
      | some n => slot n
      | none => false))

/-- The master may write NVC_CMD (R130). -/
def State.nvcRight (s : State) (m : Master) : Bool :=
  m.cls == .mgmt || s.bit s.head R.SEC_NVC_RIGHTS.CLASSES m.cls.bit

/-- A write of NVC_CMD (R110, R111). An operation whose operands are refused, or that finds no flash set up, ends at once. DESIGN CHOICE
(notes/assumptions/55.md): ALIGN is judged before PROTECTED, and such an end shows NVC_ADDR in NVC_FAIL_ADDR. -/
def writeNvcCmd (s : State) (w : Wr) : State :=
  let op := R.NVC_CMD.OP.of w.raw
  if !s.nvcRight w.m || s.nvcState != NvcState.idle || op == 0 || decide (5 < op) then s.ans .accessError
  else
    let s := (s.setReg w.d w.r w.new).p w.d R.NVC_CMD.OWNER w.m.rid
    let addr := s.g w.d R.NVC_ADDR.ADDR
    let len := s.g w.d R.NVC_LEN.LEN
    let refusal : Option Nat :=
      if op = NvcOp.resetFlash then none
      else if !s.cfg.flash.ready then some NvcRes.flashError
      else if !nvcAligned s op addr len then some NvcRes.align
      else if op ≤ 2 && nvcGuarded s addr len then some NvcRes.prot
      else none
    match refusal with
    | some r => (nvcEnd s r addr).ans .ok
    | none => ((s.p w.d R.NVC_STATUS.STATE NvcState.busy).setFlash
        { s.cfg.flash with op := op, addr := addr, len := len, mem := s.g w.d R.NVC_MEM.MEM, done := 0 }).ans .ok

/-- A write to a register of the NVC block. -/
def writeNvc (s : State) (w : Wr) : State :=
  match w.r.id with
  | .NVC_CMD => writeNvcCmd s w
  | .NVC_CFG => s.storeIf w (R.NVC_CFG.MIN_RESUME.of w.new != 0)
  | .NVC_MEM => s.storeIf w (w.new % 8 == 0)
  | _ => s.store w

/-! ## The flash aperture (R114, R115) -/

/-- The offsets of the head die's window that show the logical flash. -/
def inAperture (s : State) (d off : Nat) : Bool := d == s.head && decide (0x0C0000 ≤ off ∧ off < 0x100000)

/-- The size of the piece that an erase or a program works on at a time. -/
def nvcUnit (s : State) : Nat := max 1 (if s.cfg.flash.op = NvcOp.erase then s.flashSector else s.flashPage)

/-- The pieces of the running operation. -/
def nvcUnits (s : State) : Nat := s.cfg.flash.len / nvcUnit s

/-- An erase or program runs, which a read of another sector suspends (R115). -/
def flashWorks (s : State) : Bool :=
  s.nvcState != NvcState.idle && (s.cfg.flash.op == NvcOp.erase || s.cfg.flash.op == NvcOp.program)

/-- `n` bytes from `a` meet the busy sector: the one that the running erase or program works on (R115). -/
def flashBusy (s : State) (a n : Nat) : Bool :=
  let f := s.cfg.flash
  let z := max 1 s.flashSector
  let b := (f.addr + min f.done (nvcUnits s - 1) * nvcUnit s) / z
  flashWorks s && decide (a / z ≤ b ∧ b ≤ (a + n - 1) / z)

/-- The words of the logical flash from `a` on, which is 8-byte aligned. Beyond the end of the devices the spec gives no value. -/
def flashWords (s : State) (a n : Nat) : List MWord × State :=
  (List.range n).foldl (fun (x : List MWord × State) i =>
    let b := a + 8 * i
    if b + 8 ≤ x.2.flashSize then (x.1 ++ [⟨BitVec.ofNat 64 (natLE (x.2.flashBytes b 8)), false⟩], x.2)
    else
      let (v, t) := x.2.free 64
      (x.1 ++ [⟨v, false⟩], t)) ([], s)

/-- A read of the aperture. The busy sector gives poison in every word; a read of another suspends the operation. -/
def xipRead (s : State) (off size : Nat) : State :=
  if !([1, 2, 4, 8, 16, 32, 64].contains size && off % size == 0) then s.ans .accessError
  else if !s.cfg.flash.ready then s.ans .targetError
  else
    let a := s.g s.head R.NVC_XIP_BASE.BASE * 2 ^ 18 + off % 2 ^ 18
    let n := (size + 7) / 8
    if flashBusy s a size then
      (List.range n).foldl (fun (s : State) _ =>
        let (v, t) := s.free 64
        { t with reply := ⟨.ok, t.reply.data ++ [⟨v, true⟩]⟩ }) (s.ans .ok)
    else
      let (ws, s) := flashWords s (a / 8 * 8) n
      { (if flashWorks s then s.p s.head R.NVC_STATUS.STATE NvcState.suspended else s) with reply := ⟨.ok, ws⟩ }

/-- A read at an offset of the head die's window that lies in the aperture. -/
def apertureRead (s : State) (off size : Nat) : State :=
  if s.boot.inReset.isSome then s.ans .targetError else xipRead s (off - 0x0C0000) size

end Sys2Proof.Machine
end

