-- ==== Sys2Proof/Machine/DispatchEvents.lean ====
section
/-!
DEFINITION. What happens in a dispatcher as it runs (R255 to R264, R271 to R276): deferral, spill and refill, issue, completions,
forwarded tokens, and the rounds and boundaries of an epoch.
-/

namespace Sys2Proof.Machine

/-- The dispatcher's clock runs: its gate is open, it is not in reset, and the die is in RUN (R46, R278). -/
def dfdRuns (s : State) (d : Nat) : Bool := s.present d && gateOpen s d 39 && !s.held d Blk.dfd && !s.belowRun d

/-! ## Deferral and spill -/

/-- No line can be written: spilling is off, or stopped by an error (R257, R259). -/
def spillOff (s : State) (d : Nat) : Bool := !s.on d R.DFD_SPILL_CFG.EN || s.on d R.DFD_SPILL_CFG.ERR

/-- The oldest entry gathered for a sub-ring joins its on-chip list. -/
def ungather (s : State) (d p : Nat) : State :=
  let x := s.dfdOf d
  match x.gat p with
  | [] => s
  | e :: l => joinList (s.setDfd d (x.setGat p l)) d (opClass s d e.op * 8 + p) e

/-- While no line can be written, an entry gathered for an empty sub-ring is placed on chip as a deferred firing is. Otherwise the lowest
operation with a deferred firing that has a place is placed (R255). -/
def execDeferredPlace (die : Die) (s : State) : Host.Outcome State Fault Refusal :=
  .next (
    if dfdRuns s die then
      match (List.range 8).find? (fun p => spillOff s die && !((s.dfdOf die).gat p).isEmpty
          && s.g die (R.DFD_SPILL_FILL.FILL p) == 0 && (s.dfdOf die).room p) with
      | some p => (ungather s die p).p die R.DFD_STATUS.ORDER_LOST 1
      | none =>
      match (activeOps s die).find? (fun n => s.g die (R.DFD_OPSTATE.DEFER n) != 0
          && placeOf s die (opPrio s die n) != .defer) with
      | some n =>
        let s := placeFiring s die n (placeOf s die (opPrio s die n))
        (s.p die (R.DFD_OPSTATE.DEFER n) (s.g die (R.DFD_OPSTATE.DEFER n) - 1)).p die R.DFD_STATUS.ORDER_LOST 1
      | none => s
    else s)

/-- The system address of place `n` of sub-ring `p` (R257). -/
def ringAddr (s : State) (d p n : Nat) : Nat :=
  s.g d R.DFD_SPILL_BASE.BASE + p * 2 ^ (s.g d R.DFD_SPILL_CFG.SIZE_LOG2 - 3) + n % max 1 (subPlaces s d) * 8

/-- A spill entry as it is written (R257). -/
def spillWord (s : State) (d : Nat) (e : DEntry) : DWord :=
  BitVec.ofNat 64 (0xD5 * 2 ^ 56 + e.used * 2 ^ 32 + e.epoch * 2 ^ 24 + opClass s d e.op * 2 ^ 16 + e.op)

/-- The entries that the next line of sub-ring `p` takes, up to the end of its 64-byte line (R257). -/
def spillLine (s : State) (d p : Nat) : List DEntry :=
  let x := s.dfdOf d
  (x.gat p).take (8 - DfdSt.num x.wr p % 8)

/-- The write of a line was refused: its entries stay deferred and spilling stops (R259). One whose operation has no room in its count
of deferred firings stays gathered. -/
def spillFailed (s : State) (d p : Nat) : State :=
  let l := spillLine s d p
  let x := s.dfdOf d
  let s := s.setDfd d (x.setGat p ((x.gat p).drop l.length))
  let (s, kept) := l.foldl (fun (a : State × List DEntry) e =>
    let n := a.1.g d (R.DFD_OPSTATE.DEFER e.op)
    if n < 255 then (dfdCnt (a.1.p d (R.DFD_OPSTATE.DEFER e.op) (n + 1)) d Cnt.deferred 1, a.2) else (a.1, a.2 ++ [e])) (s, [])
  let x := s.dfdOf d
  let s := s.setDfd d (x.setGat p (kept ++ x.gat p))
  (s.p d R.DFD_SPILL_CFG.ERR 1).p d R.DFD_EVT.SPILL_ERR 1

/-- A line of spill entries may be written (R257, R259). -/
def spillReady (s : State) (d p : Nat) : Bool :=
  dfdRuns s d && s.on d R.DFD_SPILL_CFG.EN && !s.on d R.DFD_SPILL_CFG.ERR && !((s.dfdOf d).gat p).isEmpty

/-- A line of spill entries is written to its sub-ring (R257). -/
def execSpillLineWrite (die : Die) (prio : Fin 8) (s : State) : Host.Outcome State Fault Refusal :=
  .next (
    if spillReady s die prio then
      let l := spillLine s die prio
      let x := s.dfdOf die
      let wr := DfdSt.num x.wr prio
      match memWrite 2 s (s.dfdMaster die) (ringAddr s die prio wr) (l.map (fun e => (⟨spillWord s die e, false⟩, 0xFF#8))) with
      | (.ok, s) =>
        let fill := s.g die (R.DFD_SPILL_FILL.FILL prio)
        let x := s.dfdOf die
        let x := { x.setGat prio ((x.gat prio).drop l.length) with
          wr := SMap.set (fun _ => 0) x.wr prio (wr + l.length)
          sub := SMap.set (fun _ => []) x.sub prio (x.subOps prio ++ l.map (fun e => e.op)) }
        let s := (dfdCnt (s.setDfd die x) die Cnt.spilled l.length).p die (R.DFD_SPILL_FILL.FILL prio) (fill + l.length)
        if fill = 0 then s.p die R.DFD_EVT.SPILL 1 else s
      | (_, s) => spillFailed s die prio
    else s)

/-- The network lost a line's write (R259). -/
def execSpillWriteError (die : Die) (prio : Fin 8) (s : State) : Host.Outcome State Fault Refusal :=
  .next (if spillReady s die prio then spillFailed s die prio else s)

/-- The sub-ring that refill serves: the highest priority that is not empty, with 64 shared entries free (R257). -/
def refillFrom (s : State) (d : Nat) : Option Nat :=
  if dfdRuns s d ∧ (s.dfdOf d).shared + 64 ≤ 3840 then
    ((List.range 8).map (fun k => 7 - k)).find? (fun p => s.g d (R.DFD_SPILL_FILL.FILL p) != 0)
  else none

/-- The entries that a refill moves: up to the end of a line (R257). -/
def refillCount (s : State) (d p : Nat) : Nat :=
  min (s.g d (R.DFD_SPILL_FILL.FILL p)) (8 - DfdSt.num (s.dfdOf d).rd p % 8)

/-- An entry read back is sound (R257, R259). -/
def spillEntryOk (x : MWord) : Bool := !x.p && x.v.toNat / 2 ^ 56 == 0xD5

/-- Pass one entry of a sub-ring: it joins its list, is dropped by an earlier ABORT_OP, or is lost. -/
def refillOne (s : State) (d p place : Nat) (w : MWord) : State :=
  let v := w.v.toNat
  let n := fld v 0 13
  if spillEntryOk w then
    if place < DfdSt.num (s.dfdOf d).dropTo n then dfdCnt s d Cnt.aborted 1
    else dfdCnt (joinList s d (fld v 16 2 * 8 + p) ⟨n, fld v 24 8, fld v 32 2, none⟩) d Cnt.refilled 1
  else (dfdCnt s d Cnt.spillLost 1).p d R.DFD_EVT.SPILL_ERR 1

/-- Move the read pointer of a sub-ring; an operation with no entry left in a sub-ring has none to drop. -/
def refillPass (s : State) (d p n : Nat) : State :=
  let x := s.dfdOf d
  let x := { x with
    rd := SMap.set (fun _ => 0) x.rd p (DfdSt.num x.rd p + n)
    sub := SMap.set (fun _ => []) x.sub p ((x.subOps p).drop n) }
  (s.putDfd d { x with dropTo := SMap.keep x.dropTo (fun n => x.inSub n) }).p d (R.DFD_SPILL_FILL.FILL p)
    (s.g d (R.DFD_SPILL_FILL.FILL p) - n)

/-- The whole line is lost (R259). -/
def refillLost (s : State) (d p n : Nat) : State :=
  refillPass ((dfdCnt s d Cnt.spillLost n).p d R.DFD_EVT.SPILL_ERR 1) d p n

/-- A line of the highest-priority sub-ring moves back on chip (R257, R259). -/
def execRefill (die : Die) (s : State) : Host.Outcome State Fault Refusal :=
  .next (match refillFrom s die with
    | some p =>
      let n := refillCount s die p
      let rd := DfdSt.num (s.dfdOf die).rd p
      match memRead 2 s (s.dfdMaster die) (ringAddr s die p rd) n with
      | (.ok, ws, s) =>
        refillPass (ws.zipIdx.foldl (fun s w => refillOne s die p (rd + w.2) w.1) s) die p n
      | (_, _, s) => refillLost s die p n
    | none => s)

/-- The network lost a refill's read (R259). -/
def execRefillError (die : Die) (s : State) : Host.Outcome State Fault Refusal :=
  .next (match refillFrom s die with
    | some p => refillLost s die p (refillCount s die p)
    | none => s)

/-! ## Issue and completion -/

/-- The classes in turn after the one last issued (R261). -/
def classTurn (last : Nat) : List Nat := [(last + 1) % 3, (last + 2) % 3, last % 3]

/-- One issue decision (R261): nothing while stopped, or while 512 tickets are held (R263). -/
def execIssue (die : Die) (s : State) : Host.Outcome State Fault Refusal :=
  .next (
    if dfdRuns s die ∧ dfdState s die = Dstate.running ∧ (s.dfdOf die).tickets.length < 512 then
      match (classTurn (s.dfdOf die).lastCls).findSome? (fun c => (pick s die c).map (fun p => (c, p))) with
      | some (c, re, e, u, aff) => issueTo s die c re e u aff
      | none => s
    else s)

/-- Each core queue passes on what it may. -/
def cqReleaseAll (s : State) (d : Nat) : State := (List.range 4).foldl (fun s c => cqRelease s d c) s

/-- The dispatcher accepts the next completion (R262, R264); completions that the cores have written go on where they may. -/
def execCompletion (die : Die) (s : State) : Host.Outcome State Fault Refusal :=
  .next (
    if dfdRuns s die then
      let x := s.dfdOf die
      match x.cpls with
      | c :: l => cqReleaseAll (complete (s.putDfd die { x with cpls := l }) die c) die
      | [] => cqReleaseAll s die
    else s)

/-- The response to the oldest forwarded token arrives (R271): the target's own, or what the network answered in its place. -/
def execRemoteTokenResponse (die : Die) (net : Resp) (s : State) : Host.Outcome State Fault Refusal :=
  .next (
    let x := s.dfdOf die
    match x.fwd with
    | t :: l =>
      let r := fld t.toNat 13 3
      let s := s.putDfd die { x with fwd := l }
      let rep := s.reply
      let (resp, s) : Resp × State :=
        if net ≠ .ok then (net, s)
        else if !s.present r then (.decodeError, s)
        else match routeTo s die r with
          | (some e, s) => (e, s)
          | (none, s) =>
            if s.held r Blk.dfd then (.targetError, s)
            else
              let s := tokenWrite s r (s.dfdMaster die) t.toNat
              (s.reply.resp, s)
      let s := { s with reply := rep }
      if resp = .ok then s else (dfdCnt s die Cnt.fwdErr 1).p die R.DFD_EVT.FWD_ERR 1
    | [] => s)

/-- The unit of a revoked ticket can no longer complete it (R263). A kernel whose executions are all revoked may be idle without
completing any of them (R189). -/
def unitLetGo (s : State) (d : Nat) (t : Ticket) : Bool :=
  let u := unitIdx t.unit_
  if unitCls t.unit_ = 0 then s.seState d u != SeState.aborting
  else if unitCls t.unit_ = 1 then 
    s.on d (R.FAB_KSLOT_STATUS.IDLE u) || s.g d (R.FAB_KSLOT_STATUS.STATE u) != Slot.online
      || !(s.dfdOf d).tickets.any (fun x => x.live && x.unit_ == t.unit_)
  else !((s.dfdOf d).queue u).any (fun e => e.t == t.t)

/-- A revoked ticket is released (R263); one whose completion is at the dispatcher's input waits for it. -/
def execTicketRelease (die : Die) (ticket : BitVec 16) (s : State) : Host.Outcome State Fault Refusal :=
  .next (match (s.dfdOf die).tickets.find? (fun t => t.t == ticket.toNat && !t.live) with
    | some t =>
      if unitLetGo s die t ∧ (s.dfdOf die).cpls.all (fun c => c.ticket != t.t) then
        let s := if unitCls t.unit_ = 1 then
            let u := unitIdx t.unit_
            let y := s.kslot die u
            let y := { y with outst := y.outst.erase ticket, descs := y.descs.filter (fun e => e.2 != ticket) }
            let s := s.setKslot die u y
            if y.outst.isEmpty then s.p die (R.FAB_KSLOT_STATUS.IDLE u) 1 else s
          else s
        dropTicket s die t.t
      else s
    | none => s)

/-- ABORT reaches an engine for a ticket (R244): the dispatcher has revoked it. -/
def execSeAbort (die : Die) (eng : Fin 48) (ticket : BitVec 16) (s : State) : Host.Outcome State Fault Refusal :=
  .next (match (s.dfdOf die).tickets.find? (fun t => t.t == ticket.toNat && t.unit_ == seUnit eng) with
    | some t => if t.live then revoke s die t else seAbort s die eng t.t
    | none => s)

/-! ## Epochs (R273, R274) -/

/-- The forward counts of a die since its last boundary (R274). -/
def dieReport (s : State) (d : Nat) : DReport :=
  let x := s.dfdOf d
  let since (k v0 : Nat) : Nat := (s.g d (R.DFD_CNT.COUNT k) + 2 ^ 64 - v0) % 2 ^ 64
  ⟨quiescent s d, since Cnt.fwdSent x.sent0, since Cnt.fwdRecv x.recv0, since Cnt.fwdErr x.err0⟩

/-- A device-scope closing is running. -/
def deviceClosing (s : State) : Bool := closing s s.head && (s.dfdOf s.head).device

/-- The head die collects a round of reports (R274). -/
def execEpochRound (s : State) : Host.Outcome State Fault Refusal :=
  .next (
    if deviceClosing s then
      let l := s.dies.map (fun d => (d, dieReport s d))
      let sum (f : DReport → Nat) : Nat := l.foldl (fun a x => a + f x.2) 0
      let ok := l.all (fun x => x.2.quiet && s.roundTrip x.1 s.head) && sum (fun r => r.sent) == sum (fun r => r.err + r.recv)
      let same := l.all (fun x => (s.dfdOf x.1).report == some x.2)
      let n := if ok then (if same then (s.dfdOf s.head).clean + 1 else 1) else 0
      let s := l.foldl (fun s x => s.putDfd x.1 { s.dfdOf x.1 with report := if ok then some x.2 else none }) s
      s.putDfd s.head { s.dfdOf s.head with clean := n }
    else s)

/-- The boundary tick (R273, R274): of one die once it is quiescent, or of every die after two clean rounds. -/
def execEpochBoundary (die : Die) (s : State) : Host.Outcome State Fault Refusal :=
  .next (
    if deviceClosing s then
      if die.val = s.head ∧ 2 ≤ (s.dfdOf s.head).clean then s.dies.foldl boundary s else s
    else if s.present die ∧ closing s die ∧ quiescent s die then boundary s die
    else s)

/-- SLOW on one die (R273). -/
def markSlow (s : State) (d : Nat) : State :=
  if closing s d then (s.p d R.DFD_EPOCH_STATUS.SLOW 1).p d R.DFD_EVT.EPOCH_SLOW 1 else s

/-- TMO has passed since EPOCH_CLOSE (R273): on a die-scope closing for its die; on a device-scope closing for every die that
the head can reach, and for one it cannot reach by that die's own TMO. -/
def execEpochSlow (die : Die) (s : State) : Host.Outcome State Fault Refusal :=
  .next (
    if closing s die = false ∨ s.g die R.DFD_EPOCH_CTRL.TMO = 0 then s
    else if (s.dfdOf die).device then
      if die.val = s.head then (s.dies.filter (fun d => s.pathUp s.head d)).foldl markSlow s
      else if s.pathUp s.head die then s
      else markSlow s die
    else markSlow s die)

/-! ## Stopping (R276) -/

/-- A stopping dispatcher has no LIVE ticket left; a latched ENABLE takes it on to RUNNING (R276, R435). -/
def execDfdStopped (die : Die) (s : State) : Host.Outcome State Fault Refusal :=
  .next (
    if dfdState s die = Dstate.stopping ∧ (liveTickets s die (fun _ => true)).isEmpty then
      (s.p die R.DFD_STATUS.STATE (if s.on die R.DFD_CTRL.ENABLE then Dstate.running else Dstate.stopped)).p die
        R.DFD_EVT.STOPPED 1
    else s)

end Sys2Proof.Machine
end

