-- ==== Sys2Proof/Machine/PenPorts.lean ====
section
/-!
DEFINITION. Port set-up, the TNB hello, low-power idle, draining banks, and the register writes and reads of the PEN block
(R389, R404, R408, R410, R415).
-/

namespace Sys2Proof.Machine

/-! ## The hello (R408) -/

/-- The HELLO frame of a port. What its header holds beyond KIND, SRC and the lengths is not stated: `x` stands for it. -/
def helloFrame (s : State) (d p : Nat) (x : BitVec 32) : List Byte :=
  let my := s.g d R.PEN_TNB_CFG.MYID
  let h := [0x11] ++ bytesBE 1 (fld x.toNat 28 3 * 32) ++ bytesBE 3 (fld x.toNat 0 20) ++ bytesBE 3 my
    ++ bytesBE 1 (fld x.toNat 20 8) ++ [0] ++ bytesBE 2 32 ++ [0, 0]
  let pay := bytesBE 4 0x544E4248 ++ bytesBE 2 0x0100 ++ [1] ++ bytesBE 1 (if (s.hello d p).seen then 1 else 0) ++ bytesBE 4 3
    ++ bytesBE 4 my ++ bytesBE 2 (portCode d 0 p) ++ List.replicate 10 0
  h ++ bytesBE 2 (crc16 h) ++ pay ++ bytesBE 4 (crc32c pay).toNat

/-- A port sends a HELLO frame (R408): it goes out. -/
def execHelloSend (die : Die) (lane : Fin 32) (s : State) : Host.Outcome State Fault Refusal :=
  .next (if helloPort s die lane then
    let (x, s) := s.free 32
    let (cut, s) := txCoding s die lane
    replyBytes s (wireBytes (helloFrame s die lane x) cut)
  else s)

/-- A HELLO is received (R408). -/
def execHelloReceive (die : Die) (lane : Fin 32) (frame : List Byte) (codings : List Coding) (s : State) :
    Host.Outcome State Fault Refusal := .next (receiveFrame s die lane .hello frame codings)

/-- No agreement within 10 ms (R408). -/
def execHelloTimeout (die : Die) (lane : Fin 32) (s : State) : Host.Outcome State Fault Refusal :=
  .next (if helloPort s die lane ∧ s.g die (R.PEN_PORT_STATUS.LINK lane) = 1 then
    (s.p die (R.PEN_PORT_STATUS.HELLO_FAIL lane) 1).p die R.PEN_EVT.TNB_DOWN 1 else s)

/-- A keepalive is missed; the third in a row takes an up port back to hello (R408). -/
def execKeepaliveMiss (die : Die) (lane : Fin 32) (s : State) : Host.Outcome State Fault Refusal :=
  let x := s.hello die lane
  .next (if helloPort s die lane ∧ s.g die (R.PEN_PORT_STATUS.LINK lane) = 2 then
    if 2 ≤ x.missed then
      ((s.setHello die lane .reset).p die (R.PEN_PORT_STATUS.LINK lane) 1).p die R.PEN_EVT.TNB_DOWN 1
    else s.setHello die lane { x with missed := x.missed + 1 }
  else s)

/-- All eight egress queues have been empty for LPI_IDLE µs (R389). -/
def execLpiEntry (die : Die) (lane : Fin 32) (s : State) : Host.Outcome State Fault Refusal :=
  .next (if s.present die ∧ !s.held die Blk.pen ∧ portUp s die lane ∧ laneLpiAgreed s die lane
      ∧ s.g die (R.LAN_CTRL.SLEEP lane) = 1 ∧ (List.range 8).all (fun q => (s.queue die lane q).isEmpty) then
    s.p die (R.PEN_PORT_STATUS.LPI lane) 1 else s)

/-! ## Draining banks (R410) -/

/-- The bank has drained. -/
def drained (s : State) (d b : Nat) : State := (s.clrBit d R.PEN_BUF_STATUS.DRAINING b).p d R.PEN_EVT.BANK_DRAINED 1

/-- The last frame has left a draining bank. -/
def execBankDrained (die : Die) (bank : Fin 8) (s : State) : Host.Outcome State Fault Refusal :=
  .next (if s.bit die R.PEN_BUF_STATUS.DRAINING bank ∧ cellsIn s die (some bank.val) = 0 then drained s die bank else s)

/-- 10 ms after the BANKS bit cleared, what the bank still holds is dropped. -/
def execBankDrainTimeout (die : Die) (bank : Fin 8) (s : State) : Host.Outcome State Fault Refusal :=
  .next (if s.bit die R.PEN_BUF_STATUS.DRAINING bank then
    drained (dropFrames s die 11 (fun _ f => f.bank == some bank.val)) die bank else s)

/-- A write of PEN_BUF_CFG: banks whose bit clears drain; a bank whose bit is set again does not. -/
def writeBufCfg (s : State) (w : Wr) : State :=
  let d := w.d
  let old := s.g d R.PEN_BUF_CFG.BANKS
  let s := s.setReg d w.r w.new
  let new := s.g d R.PEN_BUF_CFG.BANKS
  let s := (List.range 8).foldl (fun s b =>
    if old.testBit b && !new.testBit b then s.setBit d R.PEN_BUF_STATUS.DRAINING b
    else if new.testBit b then s.clrBit d R.PEN_BUF_STATUS.DRAINING b else s) s
  (showBuf s d).ans .ok

/-! ## Ports (R389) -/

/-- The lanes of a port of width code `v` from lane `p`. -/
def lanesFrom (p v : Nat) : List Nat := (List.range (2 ^ v)).map (p + ·)

/-- No lane of a list moves: each is OFF or in BYPASS. -/
def lanesStill (s : State) (d : Nat) (l : List Nat) : Bool :=
  l.all (fun n => laneState s d n == Ln.off || laneState s d n == Ln.bypass)

/-- A write of PEN_PORT_CFGp (R389): what it must keep. -/
def portCfgOk (s : State) (d p new : Nat) : Bool :=
  let v := (R.PEN_PORT_CFG.WIDTH 0).of new
  let en := (R.PEN_PORT_CFG.ENABLE 0).of new == 1
  (portOn s d p || en) && (R.PEN_PORT_CFG.STATE 0).of new != 3 && (R.PEN_PORT_CFG.LPI_IDLE 0).of new != 0 && p % 2 ^ v == 0
    && (v == s.g d (R.PEN_PORT_CFG.WIDTH p) || lanesStill s d (lanesFrom p v ++ lanesFrom p (s.g d (R.PEN_PORT_CFG.WIDTH p))))
    && (!en || (List.range 32).all (fun q => q == p || !portOn s d q || decide (q + portWidth s d q ≤ p) || decide (p + 2 ^ v ≤ q)))

/-- A write of PEN_PORT_CFGp. The frames of a port that is disabled are dropped. -/
def writePortCfg (s : State) (w : Wr) : State :=
  let d := w.d
  let p := w.r.i
  if portCfgOk s d p w.new then
    let s := s.setReg d w.r w.new
    if portOn s d p then (portRefresh s d p).ans .ok
    else (((dropFrames s d 14 (fun e _ => e == p)).setHello d p .reset).p d (R.PEN_PORT_STATUS.LINK p) 0).ans .ok
  else s.ans .accessError

/-! ## Rings (R415) -/

/-- A write of a ring's CFG: while EN is 1 no other field changes. -/
def writeRingCfg (s : State) (w : Wr) : State :=
  let slot := (R.PEN_RING_CFG.SLOT_LOG2 0).of w.new
  let size := (R.PEN_RING_CFG.SIZE_LOG2 0).of w.new
  s.storeIf w (decide (11 ≤ slot ∧ slot ≤ 14) && decide (6 ≤ size ∧ size ≤ 16)
    && (w.old < 2 ^ 31 || w.new % 2 ^ 31 == w.old % 2 ^ 31))

/-- A write of a ring's STATUS: clearing ERR restarts the ring. -/
def writeRingStatus (s : State) (w : Wr) : State :=
  let s := (s.setReg w.d w.r w.new).ans .ok
  if w.old.testBit 2 ∧ w.new.testBit 2 = false then s.setRingAck w.d w.r.i none else s

/-- A write to a register of the PEN block. -/
def writePen (s : State) (w : Wr) : State :=
  match w.r.id with
  | .PEN_LEARN_CFG =>
    if R.PEN_LEARN_CFG.MOVE_MAX.of w.new = 0 ∨ R.PEN_LEARN_CFG.MOVE_WIN.of w.new = 0 ∨ R.PEN_LEARN_CFG.LOCK_TIME.of w.new = 0 then
      s.ans .accessError
    else
      let s := s.setReg w.d w.r w.new
      (if s.on w.d R.PEN_STATUS.ARB_UNREACH ∧ s.on w.d R.PEN_LEARN_CFG.ISLAND = false then loseLearn s w.d else s).ans .ok
  | .PEN_AGE_CFG => s.storeIf w (decide (4 ≤ R.PEN_AGE_CFG.AGE_TIME.of w.new))
  | .PEN_TNB_CFG => s.storeIf w (R.PEN_TNB_CFG.HELLO_INT.of w.new != 0)
  | .PEN_BUF_CFG => writeBufCfg s w
  | .PEN_TRUNK_CFG =>
    let y := R.PEN_TRUNK_CFG.Y_RATE.of w.new
    s.storeIf w (decide (1 ≤ y ∧ y ≤ 123))
  | .PEN_L2_CMD => writeL2Cmd s w
  | .PEN_VLAN_CMD => writeVlanCmd s w
  | .PEN_NH_CMD => writeNhCmd s w
  | .PEN_TIME => writeTime s w
  | .PEN_TIME_ADJ => writeTimeAdj s w
  | .PEN_TIME_STEP => writeTimeStep s w
  | .PEN_PPS_CFG =>
    let x := R.PEN_PPS_CFG.WIDTH.of w.new
    s.storeIf w (decide (1 ≤ x ∧ x ≤ 999))
  | .PEN_PORT_CFG => writePortCfg s w
  | .PEN_PORT_L2 => s.storeIf w (portOn s w.d w.r.i && decide (1518 ≤ (R.PEN_PORT_L2.MAX_LEN 0).of w.new))
  | .PEN_PORT_DLY => s.storeIf w (portOn s w.d w.r.i)
  | .PEN_PORT_STATUS => s.storeIf w (portOn s w.d w.r.i)
  | .PEN_SCHED => s.storeIf w ((List.range 8).all (fun q => fld w.new (8 * q) 8 != 0))
  | .PEN_RING_BASE => s.storeIf w (w.new % 64 == 0 && !s.on w.d (R.PEN_RING_CFG.EN w.r.i))
  | .PEN_RING_CFG => writeRingCfg s w
  | .PEN_RING_STATUS => writeRingStatus s w
  | _ => s.store w

/-- What a read of a PEN register returns: the port registers read 0 except at the first lane of an enabled port (R389). -/
def readPen (s : State) (d : Nat) (r : RegRef) (v : Nat) : Nat :=
  let port := if portOn s d r.i then v else 0
  match r.id with
  | .PEN_PORT_CFG => port
  | .PEN_PORT_L2 => port
  | .PEN_PORT_DLY => port
  | .PEN_PORT_STATUS => port
  | _ => v

/-! ## Resets and the ladder (R418) -/

/-- Forget a die's queues, trunk transit, learn queue, timestamps and pauses; its tables stay. -/
def penEmpty (s : State) (d : Nat) : State :=
  let x := s.penDie d
  let p := s.pen
  let drop {α : Type} (m : SMap α) (n : Nat) : SMap α := SMap.keep m (fun k => decide (k / n ≠ d))
  let s := s.setPen { p with
    queue := drop p.queue 512, paused := drop p.paused 512, deficit := drop p.deficit 512, drr := drop p.drr 64
    hello := drop p.hello 32, ring := drop p.ring 16, air := drop p.air 4, yout := drop p.yout 1 }
  showBuf (s.setPenDie d { x with learn := [], ts := [], lost := false, frac := 0 }) d

/-- Forget a die's tables: the replica, VLANs and next hops, and with the head die's the arbiter's (R418). -/
def penTables (s : State) (d : Nat) : State :=
  let p := s.pen
  let gone (t : Nat) : Bool := decide (t = d) || (decide (d = s.head) && decide (t = arbTable))
  let s := s.setPen { p with
    l2 := SMap.keep p.l2 (fun k => !gone (k / 2 ^ 19)), window := SMap.keep p.window (fun k => !gone (k / 2 ^ 19))
    vlan := SMap.keep p.vlan (fun k => decide (k / 16384 ≠ d)), nh := SMap.keep p.nh (fun k => decide (k / 2 ^ 20 ≠ d))
    cmd := if d = s.head then none else p.cmd }
  s.setPenDie d { s.penDie d with upd := [] }

/-- A die enters COLON or FULL_STOP: its frames are dropped and counted, tables are lost (R418). -/
def penStop (s : State) (d : Nat) : State := penTables (penEmpty (dropFrames s d 13 (fun _ _ => true)) d) d

/-- A dependent die leaves COLON or FULL_STOP: its replica is to be copied (R418). -/
def penExit (s : State) (d : Nat) : State := if d = s.head then s else s.p d R.PEN_STATUS.RESYNC 1

end Sys2Proof.Machine
end

