-- ==== Sys2Proof/Machine/BlockReset.lean ====
section
/-!
DEFINITION. The reset of single blocks (R63 to R65): what holding each block does, what its release does, and the writes of
SYS_RST_BLOCK and the causes of BLOCKS scope that hold blocks.
-/

namespace Sys2Proof.Machine

/-- The registers of a die from offset `lo` to `hi` take their reset values (R7), and their held high halves are freed (R433). -/
def resetRange (s : State) (d lo hi : Nat) : State :=
  { s with holds := SMap.keep s.holds (fun k => !inRange d lo hi k) }.resetCells (inRange d lo hi)

/-! ## The application cluster (R422, R424) -/

/-- The cluster's L2 writes back its dirty lines (R424). -/
def flushL2 (s : State) (d : Nat) : State := flushNear s d 16

/-! ## Signal engines (R249) -/

/-- Every engine of a die leaves service (R270): its dispatched executions are revoked. -/
def revokeEngines (s : State) (d : Nat) : State := (List.range 48).foldl (fun s i => unitLost s d i) s

/-- The engines are as after reset; their memories keep their contents. -/
def clearEngines (s : State) (d : Nat) : State :=
  let s := (List.range 48).foldl (fun s i => if (s.eng d i).dma0.busy || (s.eng d i).dma1.busy then seStopDma s d i else s) s
  let s := { s with se := { s.se with eng := SMap.keep s.se.eng (fun k => decide (k / 48 ≠ d)) } }
  resetRange s d 0x700000 0x800000

/-- The engines' memories are lost and filled with zero and valid check bits (R249). -/
def clearSeMem (s : State) (d : Nat) : State := (List.range 48).foldl (fun s i => s.zeroSeMem d i) s

/-! ## The dispatcher (R191, R278) -/

/-- Every slot stands where the resets and fences put it; one that stops being ONLINE leaves service (R191, R270). -/
def restSlots (s : State) (d : Nat) : State :=
  (List.range 64).foldl (fun s k =>
    let was := slotState s d k
    let s := slotRest s d k
    if (was = Slot.online ∨ was = Slot.draining) ∧ slotState s d k = Slot.offline then unitLost s d (64 + k) else s) s

/-- Every LIVE ticket is revoked at its unit. -/
def revokeAll (s : State) (d : Nat) : State := (liveTickets s d (fun _ => true)).foldl (fun s t => revoke s d t) s

/-- The dispatcher forgets everything but its descriptors; the slots' outstanding tickets go with it, each with its K_ABORT pulse
(R191). -/
def clearDfd (s : State) (d : Nat) : State :=
  let s := s.putDfd d .reset
  let s := (List.range 64).foldl (fun s k =>
    let x := s.kslot d k
    s.setKslot d k ⟨[], [], [], x.abort ++ x.outst.filter (fun t => !x.abort.contains t)⟩) s
  resetRange s d 0x800000 0x840000

/-! ## Banks (R300) -/

/-- BNK is held: secure banks are wiped, OFF banks filled with zero, and every register takes its reset value. -/
def holdBanks (s : State) (d : Nat) : State :=
  let s := (List.range 8).foldl (fun s b =>
    let st := s.pstate d b
    let s := { s with bnk := { s.bnk with st := SMap.set (fun _ => BankSt.reset) s.bnk.st (d * 8 + b) .reset } }
    if s.bankSecure d b then (dropBankLines s d b).zeroBank (d * 8 + b)
    else if st = Pst.off ∨ st = Pst.toOff ∨ st = Pst.filling then s.zeroBank (d * 8 + b) else s) s
  showRepair (resetRange s d 0x100000 0x200000) d

/-! ## DRAM channels (R368) -/

/-- What waits in a subchannel is served in arrival order. -/
def drainSub (s : State) (ch k : Nat) : State :=
  let x := s.dsub k
  let s := x.writes.foldl (fun s r => serveWrite s ch k r) s
  (x.reads.foldl (fun s r => serveRead s ch k r) s).setDsub k .reset

/-- A controller is held: its queues drain and a trained channel enters self-refresh. -/
def holdDdr (s : State) (d c : Nat) : State :=
  let ch := 2 * d + c
  let rep := s.reply
  let s := { drainSub (drainSub s ch (2 * ch)) ch (2 * ch + 1) with reply := rep }
  let st := s.g d (R.DDR_STATUS.STATE c)
  s.p d (R.DDR_STATUS.STATE c)
    (if st = DdrState.ready ∨ st = DdrState.retrain ∨ st = DdrState.selfref then DdrState.selfref else DdrState.off)

/-- Reads that wait in a channel's queues when its encryption engine is held are answered with TARGET_ERROR, which reaches no command
(R65). -/
def dropReads (s : State) (k : Nat) : State :=
  let x := s.dsub k
  (x.reads.foldl (fun s r => s.putNet r.req.m.rid r.req.tag none) s).setDsub k { x with reads := [] }

/-- An encryption engine is held: its registers take their reset values; keys, the states of KeyIDs and a rekey's range and BOUNDARY stay
(R368). -/
def holdMee (s : State) (d i : Nat) : State :=
  let ch := 2 * d + i
  let keep (k : Nat) : Bool := match regAt (8 * (k % 2 ^ 21)) with
    | some r => keyStoreReg r.id || r.block != some .MEE || r.i != i
    | none => true
  let s := dropReads (dropReads s (2 * ch)) (2 * ch + 1)
  let s := s.resetCells (fun k => decide (k / 2 ^ 21 = d) && !keep k)
  s.setMee ch { s.mee ch with init := none, device := false }

/-- A controller leaves reset: training runs as at GSR. -/
def releaseDdr (s : State) (d c : Nat) : State :=
  if s.noImageHold d (Blk.ddr0 + c) then s else trainStart (s.p d (R.DDR_STATUS.STATE c) DdrState.off) d c

/-! ## Port engine, monitors and event controller (R187, R418, R426, R453) -/

/-- PEN is held: queues and FIFOs are emptied, registers take their reset values, tables stay. -/
def holdPen (s : State) (d : Nat) : State :=
  let s := (List.range 8).foldl (fun s n => flushPair s d n false) (penEmpty s d)
  let s := if d = s.head then s.setPen { s.pen with cmd := none, time := .reset, pps := false } else s
  penReach (showBuf (resetRange s d 0x600000 0x700000) d)

/-- A profile monitor's EN clears and its results are lost (R453). -/
def stopMon (s : State) (d m : Nat) : State :=
  let s := (s.setMon d m .reset).p d (R.MON_CTRL.EN m) 0
  let s := (s.p d (R.MON_MIN.VALUE m) 0xFFFFFFFF).p d (R.MON_MAX.VALUE m) 0
  let s := (s.p d (R.MON_COUNT.VALUE m) 0).p d (R.MON_SUM.VALUE m) 0
  (List.range 32).foldl (fun s k => s.p d (R.MON_HIST.COUNT m k) 0) s

/-- MON is held: its registers take their reset values. -/
def holdMons (s : State) (d : Nat) : State :=
  resetRange ((List.range 16).foldl (fun s m => s.setMon d m .reset) s) d 0x040000 0x050000

def stopMons (s : State) (d : Nat) : State := (List.range 16).foldl (fun s m => stopMon s d m) s

/-- The event controller of a die forgets its priorities, enables, thresholds and claims (R430). -/
def clearEvt (s : State) (d : Nat) : State :=
  resetRange { s with evs := SMap.keep s.evs (fun k => decide (k / 1024 ≠ d)) } d 0x050000 0x060000

/-- The levels that reach a controller are sampled afresh (R430). -/
def sampleLevels (s : State) (d : Nat) : State :=
  updateLost ((List.range 640).foldl (fun s n =>
    if s.pathUp (evOwner s n) d && evLevel s n then s.setEv d n ((s.evOf d n).takeLevel true) else s) s)

/-! ## Global set-reset (R141, R175, R187, R191, R197) -/

/-- The coherent ports write back and invalidate before FAB_GSR takes effect. -/
def flushPorts (s : State) (d : Nat) : State := (List.range 16).foldl (fun s p => flushPort s d p) s

/-- The registers of a die's I/O cells take 0 on global set-reset; the level that a keeper holds, and the delays, stay
(notes/assumptions/56.md). -/
def restIo (s : State) (d : Nat) : State :=
  (List.range 120).foldl (fun s p =>
    let x := s.ioOf d p
    s.setIo d p { IoCell.reset with inTap := x.inTap, outTap := x.outTap, on := x.on, keep := x.keep }) s

/-- Global set-reset acts on a die's primitives: flip-flops and output registers take their initial values, the registers of
arithmetic slices 0 (R141, R175, R176). -/
def setReset (s : State) (d : Nat) : State :=
  let s := resetBmOuts (initFfs s d (fun _ => true)) d
  let s := restIo s d
  { s with fab := { s.fab with arith := SMap.keep s.fab.arith (fun k => decide (k / 8192 ≠ d)) } }

/-- Requests shown to the fabric through a die's target windows are completed with TARGET_ERROR (R65, R196). -/
def dropTargets (s : State) (d : Nat) : State :=
  (List.range 32).foldl (fun s p =>
    let n := s.nport d p
    if n.tgt.isEmpty then s
    else (n.tgt.foldl (fun s t => s.putNet t.2.m.rid t.2.tag none) s).setNport d p { n with tgt := [] }) s

/-- FAB_GSR is held: primitives take their initial values, slots and port FIFOs leave service. -/
def holdGsr (s : State) (d : Nat) : State :=
  let s := (setReset (dropTargets s d) d).setRawRx d []
  let s := (List.range 8).foldl (fun s n => abortOpen (s.setFifo d n .reset) d n) s
  restSlots s d

/-! ## Holding and releasing (R64, R65) -/

/-- What a block does before its reset takes hold (R64). -/
def beforeHold (s : State) (d b : Nat) : State :=
  if b = Blk.apc then flushL2 s d
  else if b = Blk.sea then revokeEngines s d
  else if b = Blk.dfd then revokeAll s d
  else if b = Blk.ddr0 ∨ b = Blk.ddr0 + 1 then holdDdr s d (b - Blk.ddr0)
  else if b = Blk.rlc then flushRemote s d
  else if b = Blk.gsr then flushPorts s d
  else s

/-- What a block's reset does. -/
def onHold (s : State) (d b : Nat) : State :=
  if b = Blk.apc then stopCores s d
  else if b = Blk.sea then clearEngines s d
  else if b = Blk.dfd then restSlots (clearDfd s d) d
  else if b = Blk.pen then holdPen s d
  else if b = Blk.lan then lanesHold s d
  else if b = Blk.bnk then holdBanks s d
  else if b = Blk.mee0 ∨ b = Blk.mee0 + 1 then holdMee s d (b - Blk.mee0)
  else if b = Blk.mon then holdMons s d
  else if b = Blk.evt then clearEvt s d
  else if b = Blk.gsr then holdGsr s d
  else s

/-- A block enters reset. -/
def holdBlock (s : State) (d b : Nat) : State := onHold ((beforeHold s d b).setBit d R.SYS_RST_BLOCK.HOLD b) d b

/-- The gate of a block's clock (R46); none where the tree does not gate it. -/
def blockGate (b : Nat) : Option Nat :=
  if b = Blk.apc then some 35 else if b = Blk.sea then some 38 else if b = Blk.dfd then some 39 else if b = Blk.pen then some 40
  else if b = Blk.ddr0 ∨ b = Blk.ddr0 + 1 then some (42 + (b - Blk.ddr0))
  else if b = Blk.mee0 ∨ b = Blk.mee0 + 1 then some (44 + (b - Blk.mee0))
  else if b = Blk.bnk then some 41 else if b = Blk.rlc then some 37 else none

/-- The block's clock runs, so its reset can release (R65). -/
def blockClocked (s : State) (d b : Nat) : Bool :=
  match blockGate b with
  | some g => gateOpen s d g
  | none => true

/-- A block whose bit is clear and whose clock runs leaves reset, unless the wake-up sequence still holds it. -/
def leaveReset (s : State) (d b : Nat) : State :=
  if s.held d b then s
  else if b = Blk.apc then startCores s d
  else if b = Blk.dfd ∨ b = Blk.gsr then restSlots s d
  else if b = Blk.lan then lanesRelease s d
  else if b = Blk.ddr0 ∨ b = Blk.ddr0 + 1 then releaseDdr s d (b - Blk.ddr0)
  else if b = Blk.evt then sampleLevels s d
  else s

/-- A bit of SYS_RST_BLOCK is cleared: the block leaves reset, or waits for its gate to open (R65). -/
def releaseBlock (s : State) (d b : Nat) : State :=
  let s := s.clrBit d R.SYS_RST_BLOCK.HOLD b
  if blockClocked s d b then leaveReset s d b
  else s.setLad d { s.ladOf d with gated := (s.ladOf d).gated ||| 2 ^ b }

/-- Blocks whose gate has opened leave reset (R65). -/
def leaveGated (s : State) (d : Nat) : State :=
  (List.range 14).foldl (fun s b =>
    if (s.ladOf d).gated.testBit b && blockClocked s d b then
      leaveReset (s.setLad d { s.ladOf d with gated := (s.ladOf d).gated &&& (0x3FFF - 2 ^ b) }) d b
    else s) s

/-- SYS_RST_BLOCK takes a value: blocks enter and leave reset, in the order of their bits. -/
def setHolds (s : State) (d v : Nat) : State :=
  (List.range 14).foldl (fun s b =>
    let was := s.bit d R.SYS_RST_BLOCK.HOLD b
    if v.testBit b && !was then holdBlock (s.setLad d { s.ladOf d with gated := (s.ladOf d).gated &&& (0x3FFF - 2 ^ b) }) d b
    else if was && !v.testBit b then releaseBlock s d b else s) s

/-! ## Causes of BLOCKS scope (R58, R61 to R63, R65) -/

/-- The blocks of a mask are held for a cause. -/
def holdMask (s : State) (d mask : Nat) : State :=
  let s := setHolds s d (s.g d R.SYS_RST_BLOCK.HOLD ||| mask)
  s.setLad d { s.ladOf d with blocks := mask, later := 0 }

/-- A cause of BLOCKS scope arises on a die: it is recorded there, and its blocks are held at once or, in SEMICOLON and deeper, once the
die is in RUN. During another reset it is absorbed. DESIGN CHOICE (notes/assumptions/54.md): a cause that still waits for RUN counts as
a reset in progress, so a second one is absorbed and not recorded. -/
def raiseBlocks (s : State) (d cause detail mask : Nat) : State :=
  let l := s.ladOf d
  if s.boot.inReset.isSome ∨ l.blocks ≠ 0 ∨ l.later ≠ 0 then s
  else
    let s := ((s.p d R.SYS_RST_CAUSE.CAUSE cause).p d R.SYS_RST_CAUSE.ORIGIN d).p d R.SYS_RST_CAUSE.DETAIL detail
    if 2 ≤ s.g d R.PWR_STATUS.STATE then s.setLad d { s.ladOf d with later := mask } else holdMask s d mask

/-- The causes whose scope SYS_RST_REACHc gives (R58): lock-up 0, watchdog 1, debug 2, software 3. -/
def raiseReach (s : State) (d c detail : Nat) : State :=
  if s.on d (R.SYS_RST_REACH.SCOPE c) then raiseReset s .reconfig (4 + [0, 1, 3, 4].getD c 0) d detail
  else raiseBlocks s d (4 + [0, 1, 3, 4].getD c 0) detail (s.g d (R.SYS_RST_REACH.MASK c))

/-- 1 µs after a cause of BLOCKS scope, its mask bits are cleared (R65). -/
def execBlocksResetRelease (die : Die) (s : State) : Host.Outcome State Fault Refusal :=
  let l := s.ladOf die
  .next (if l.blocks = 0 then s
    else setHolds (s.setLad die { l with blocks := 0 }) die (s.g die R.SYS_RST_BLOCK.HOLD &&& (0x3FFF - l.blocks % 0x4000)))

end Sys2Proof.Machine
end

