-- ==== Sys2Proof/Machine/Control.lean ====
section
/-!
DEFINITION. The SYS, APC and EVT blocks: their register writes (03_reset_and_startup, 17_processors_and_control), the reset causes
that cores, watchdogs, debug modules and software raise (R58), the timers (R425), and the harts' run control (R423).
-/

namespace Sys2Proof.Machine

/-! ## Watchdog and software reset -/

/-- A die's watchdog counts: EN is set, and it is not paused by the ladder (R63). -/
def wdtRuns (s : State) (d : Nat) : Bool := s.on d R.SYS_WDT_CTRL.EN && !(s.on d R.SYS_WDT_CTRL.PAUSE_SLEEP && s.belowRun d)

/-- A write of SYS_WDT_CTRL: refused while EN is 1, or with TIMEOUT 0. -/
def writeWdt (s : State) (w : Wr) : State :=
  s.storeIf w (!s.on w.d R.SYS_WDT_CTRL.EN && R.SYS_WDT_CTRL.TIMEOUT.of w.new != 0)

/-- A write of SYS_WDT_KICK: the key restarts the count, anything else expires a running watchdog. DESIGN CHOICE
(notes/assumptions/54.md): while EN is 0 a wrong key has no effect. -/
def writeKick (s : State) (d key : Nat) : State :=
  (if key = 0x4B1C4B1C ∨ s.on d R.SYS_WDT_CTRL.EN = false then s else raiseReach s d 1 0).ans .ok

/-- A write of SYS_RST_SW. -/
def writeRstSw (s : State) (w : Wr) : State :=
  if R.SYS_RST_SW.KEY.of w.raw ≠ 0xA5C3 then s.ans .accessError
  else (if R.SYS_RST_SW.GO.of w.raw = 1 then raiseReach s w.d 3 0 else s).ans .ok

/-! ## The mailbox (R431) -/

/-- Who may write a mailbox register. -/
def mboxMaster (s : State) (m : Master) : Bool := m.cls == .coreM || (m.cls == .debug && decide (2 ≤ s.dbgLevel))

/-- A write of SYS_MBOX_CMD: the service begins. -/
def writeMboxCmd (s : State) (w : Wr) : State :=
  if mboxMaster s w.m && !s.on w.d R.SYS_MBOX_STATUS.BUSY then
    (((s.p w.d R.SYS_MBOX_CMD.OWNER w.m.rid).p w.d R.SYS_MBOX_STATUS.BUSY 1).setMbox w.d
      (some (R.SYS_MBOX_CMD.CMD.of w.raw))).ans .ok
  else s.ans .accessError

/-- A write to a register of the SYS block. -/
def writeSys (s : State) (w : Wr) : State :=
  match w.r.id with
  | .SYS_RST_BLOCK => (setHolds s w.d (R.SYS_RST_BLOCK.HOLD.of w.new)).ans .ok
  | .SYS_RST_SW => writeRstSw s w
  | .SYS_WDT_CTRL => writeWdt s w
  | .SYS_WDT_KICK => writeKick s w.d (w.raw % 2 ^ 32)
  | .SYS_MBOX_CMD => writeMboxCmd s w
  | .SYS_MBOX_DATA => s.storeIf w (mboxMaster s w.m && !s.on w.d R.SYS_MBOX_STATUS.BUSY)
  | _ => s.store w

/-! ## The application cluster (R422, R425) -/

/-- MTIME, and whether core `c`'s timer interrupt is pending. -/
def mtime (s : State) (d : Nat) : Nat := s.g d R.APC_MTIME.TIME
def mtip (s : State) (d c : Nat) : Bool := decide (s.g d (R.APC_MTIMECMP.CMP c) ≤ mtime s d)

/-- A write of APC_RELEASE: a running core's bit stays 1; a bit written to 1 after CORE starts its core. -/
def writeRelease (s : State) (w : Wr) : State :=
  let v := R.APC_RELEASE.CORES.of w.new
  if (List.range 4).all (fun c => v.testBit c || s.coreState w.d c == Core.reset) then
    (startCores (s.setReg w.d w.r w.new) w.d).ans .ok
  else s.ans .accessError

/-- A write to a register of the APC block. -/
def writeApc (s : State) (w : Wr) : State :=
  match w.r.id with
  | .APC_BOOT => s.storeIf w (w.new % 4 == 0 && s.coreState w.d w.r.i == Core.reset)
  | .APC_RELEASE => writeRelease s w
  | .APC_MTIME => if w.d = s.head then { s with mset := some (BitVec.ofNat 64 w.new) }.ans .ok else s.ans .accessError
  | _ => s.store w

/-- A write to a register of the EVT block (R426). -/
def writeEvt (s : State) (w : Wr) : State :=
  match w.r.id with
  | .EVT_CLAIM => (claimComplete s w.d w.r.i ((R.EVT_CLAIM.ID 0).of w.raw)).ans .ok
  | _ => s.store w

/-- What a read of an EVT register gives where the controller computes it. -/
def readEvt (s : State) (d : Nat) (r : RegRef) : Option Nat :=
  match r.id with
  | .EVT_PEND => some (evPendWord s d r.i)
  | _ => none

/-! ## The events of cores, watchdogs and debug modules -/

/-- A core locks up (R58): it runs, and traps on the first instruction of its machine-mode trap handler. -/
def execLockUp (die : Die) (core : Fin 4) (s : State) : Host.Outcome State Fault Refusal :=
  .next (if s.present die ∧ s.coreState die core = Core.run then raiseReach s die 0 core else s)

/-- A die's watchdog expires (R58, R63). -/
def execWatchdogExpiry (die : Die) (s : State) : Host.Outcome State Fault Refusal :=
  .next (if s.present die ∧ wdtRuns s die then raiseReach s die 1 0 else s)

/-- A debug module can be reached (R128). -/
def debugOpen (s : State) (d : Nat) : Bool := s.present d && decide (1 ≤ s.dbgLevel)

/-- A debug module asks for a reset with ndmreset (R58, R423). -/
def execDebugReset (die : Die) (s : State) : Host.Outcome State Fault Refusal :=
  .next (if debugOpen s die then raiseReach s die 2 0 else s)

/-- A debug module halts a hart that is out of reset (R423). -/
def execHartHalt (die : Die) (core : Fin 4) (s : State) : Host.Outcome State Fault Refusal :=
  .next (if debugOpen s die ∧ s.coreState die core ≠ Core.reset then s.setCore die core Core.halted else s)

/-- A debug module resumes a halted hart (R423). -/
def execHartResume (die : Die) (core : Fin 4) (s : State) : Host.Outcome State Fault Refusal :=
  .next (if debugOpen s die ∧ s.coreState die core = Core.halted then s.setCore die core Core.run else s)

/-- MTIME is compared with MTIMECMPc (R425): MTIP, which follows from the two, is the reply. -/
def execMtimeCompare (die : Die) (core : Fin 4) (s : State) : Host.Outcome State Fault Refusal :=
  .next (s.ansData .ok [if mtip s die core then 1 else 0])

/-- The SMBus host writes the words that SMB_FETCH returns (R431). -/
def execSmbusHostWrite (words : List Word) (s : State) : Host.Outcome State Fault Refusal :=
  .next { s with smbHost := (List.range 8).map (fun i => words.getD i 0) }

/-- The first fetch of a core that has left reset (R422): from a range that it may not execute it faults, which is a lock-up (R58). -/
def firstFetch (s : State) (d c : Nat) : State :=
  let h := s.hart (hartOf d c)
  if h.first ∧ s.coreState d c = Core.run then
    let s := s.setHart (hartOf d c) { h with first := false }
    if execRange s h.pc.toNat then s else raiseReach s d 0 c
  else s

/-- The caches of a cluster (R420): an error that SECDED corrects is counted in CE, one that it does not in UE. Whether there is one is free. -/
def coreCaches (s : State) (d : Nat) : State :=
  if (List.range 4).any (fun c => s.coreState d c == Core.run) then
    let (e, s) := s.free 2
    let s := if e.getLsbD 0 then (s.incSat d R.APC_ECC.CE).p d R.APC_EVT.CE 1 else s
    if e.getLsbD 1 then (s.incSat d R.APC_ECC.UE).p d R.APC_EVT.UE 1 else s
  else s

/-- The cores of a die go on for a step of time. -/
def coresPass (s : State) (d : Nat) : State := coreCaches ((List.range 4).foldl (fun s c => firstFetch s d c) s) d

end Sys2Proof.Machine
end

