-- ==== Sys2Proof/Machine/Sentence.lean ====
section
/-!
DEFINITION. Sentences (R436 to R440): opening, staging, rollback, and how a sentence ends. Machine/RegAccess.lean adds the commit,
which checks and applies the staged writes.
-/

namespace Sys2Proof.Machine

def Snt.idle : Nat := 0
def Snt.opened : Nat := 1
def Snt.committing : Nat := 2

def SntRes.none : Nat := 0
def SntRes.ok : Nat := 1
def SntRes.conflict : Nat := 2
def SntRes.refused : Nat := 3
def SntRes.timeout : Nat := 4
def SntRes.ladder : Nat := 5
def SntRes.rolledBack : Nat := 6
def SntRes.unreachable : Nat := 7

def sntState (s : State) (d : Nat) : Nat := s.g d R.SNT_STATUS.STATE
def sntDevice (s : State) (d : Nat) : Bool := s.on d R.SNT_STATUS.SCOPE

/-- The requester owns the die's sentence. -/
def sntOwns (s : State) (m : Master) (d : Nat) : Bool := s.g d R.SNT_STATUS.OWNER == m.rid

/-- The dies of a sentence seen from die `d`: all with a device-scope sentence open, or `d` alone. -/
def sntDies (s : State) (d : Nat) : List Nat :=
  if sntDevice s d then s.dies.filter (fun x => sntState s x != Snt.idle && sntDevice s x) else [d]

/-- The engine of a die is idle with a result; what it staged is dropped. -/
def sntClose (s : State) (d res : Nat) : State :=
  let s := s.setSnt d { s.sntOf d with entries := [], clash := none }
  (((s.p d R.SNT_STATUS.RESULT res).p d R.SNT_STATUS.STATE Snt.idle).p d R.SNT_STATUS.SCOPE 0).p d R.SNT_STATUS.COUNT 0

/-- The pulse that ends a sentence (R438). -/
def sntPulse (s : State) (d : Nat) (device : Bool) : State := if device then s.pulse s.head 584 else s.pulse d (d * 72 + 37)

/-- Head and die can reach each other. -/
def headReaches (s : State) (d : Nat) : Bool := s.pathUp s.head d && s.pathUp d s.head

/-- SNT_FAIL of a die. -/
def sntFail (s : State) (d die off : Nat) : State := (s.p d R.SNT_FAIL.DIE die).p d R.SNT_FAIL.OFFSET off

/-- A sentence is rolled back (R440). A device-scope sentence goes with it on every die that the head die can reach; the head die then
pulses, unless the die is left over from a sentence that has ended. -/
def sntRollback (s : State) (d res : Nat) : State :=
  if sntState s d = Snt.idle then s
  else
    let device := sntDevice s d
    let l := if headReaches s d then (sntDies s d).filter (fun x => x == d || headReaches s x) else [d]
    let left := device && !l.contains s.head
    let s := l.foldl (fun s x => sntFail (sntClose s x res) x 0 0) s
    if left then s else sntPulse s d device

/-! ## Opening (R436, R439) -/

/-- A sentence opens on a die. -/
def sntOpen (s : State) (m : Master) (device : Bool) (d : Nat) : State :=
  let s := s.setSnt d ⟨[], none, m⟩
  let s := ((s.p d R.SNT_STATUS.RESULT SntRes.none).p d R.SNT_STATUS.INTRUDED 0).p d R.SNT_STATUS.SCOPE (if device then 1 else 0)
  sntFail (((s.p d R.SNT_STATUS.STATE Snt.opened).p d R.SNT_STATUS.COUNT 0).p d R.SNT_STATUS.OWNER m.rid) d 0 0

/-- A write of SNT_BEGIN. -/
def writeSntBegin (s : State) (w : Wr) : State :=
  let device := R.SNT_BEGIN.SCOPE.of w.raw == 1
  let l := if device then s.dies else [w.d]
  if (device && w.d != s.head) || l.any (fun d => sntState s d != Snt.idle) then s.ans .accessError
  else (l.foldl (fun s d => sntOpen s w.m device d) s).ans .ok

/-- The owner may write SNT_COMMIT or SNT_ROLLBACK of an open sentence; of a device-scope one, on the head die (R436, R439). -/
def sntMay (s : State) (m : Master) (d : Nat) (go : Bool) : Bool :=
  go && sntState s d == Snt.opened && sntOwns s m d && (!sntDevice s d || d == s.head)

/-- A write of SNT_ROLLBACK. -/
def writeSntRollback (s : State) (w : Wr) : State :=
  if sntMay s w.m w.d (R.SNT_ROLLBACK.GO.of w.raw == 1) then (sntRollback s w.d SntRes.rolledBack).ans .ok else s.ans .accessError

/-- A sentence has been open longer than SNT_CFG.TMO (R440). -/
def execSentenceTimeout (die : Die) (s : State) : Host.Outcome State Fault Refusal :=
  .next (if s.present die ∧ sntState s die = Snt.opened ∧ s.g die R.SNT_CFG.TMO ≠ 0 then sntRollback s die SntRes.timeout else s)

/-! ## Staging (R436, R437) -/

/-- A value of an RWS register that keeps the rules that depend on that value alone: its reserved codes and ranges. -/
def rwsValueOk (r : RegRef) (v : Nat) : Bool :=
  match r.id with
  | .CLK_FTAP => ftapOk ((R.CLK_FTAP.DIV 0).of v)
  | .CFG_CAP_CTRL => decide (R.CFG_CAP_CTRL.TRIG.of v < 2 ∧ R.CFG_CAP_CTRL.CLKSEL.of v < 48)
  | .FAB_PR_CTRL => (R.FAB_PR_CTRL.MODE 0).of v != 3
  | .BNK_CTRL => (R.BNK_CTRL.POWER 0).of v != 3
  | .DDR_MAP_CTL => grainOk v
  | .DDR_MAP_RNG => mapSizeOk v
  | .PEN_TNB_CFG => R.PEN_TNB_CFG.HELLO_INT.of v != 0
  | .PEN_TRUNK_CFG => let y := R.PEN_TRUNK_CFG.Y_RATE.of v; decide (1 ≤ y ∧ y ≤ 123)
  | _ => true

/-- The RWS part of a register's value. -/
def rwsPart (r : RegRef) (v : Nat) : Nat := v &&& r.id.info.rws

/-- A staged register, if the die's sentence holds one at an offset. -/
def sntEntry (s : State) (d off : Nat) : Option SntEntry := (s.sntOf d).entries.find? (fun e => e.off == off)

/-- What an RWS register would hold with its staged value over its applied one. -/
def stagedOver (s : State) (d : Nat) (r : RegRef) (old : Nat) : Nat :=
  match sntEntry s d r.off with
  | some e => (old &&& (2 ^ 64 - 1 - r.id.info.rws)) ||| rwsPart r e.val
  | none => old

/-- Stage the RWS fields of a write (R436, R437): `none` when its value is refused or it would need a 257th entry. -/
def sntStage (s : State) (m : Master) (d : Nat) (r : RegRef) (v : Nat) : Option State :=
  let x := s.sntOf d
  let known := (sntEntry s d r.off).isSome
  if !rwsValueOk r v || (!known && decide (256 ≤ x.entries.length)) then none
  else
    let es := if known then x.entries.map (fun e => if e.off = r.off then { e with val := rwsPart r v } else e)
      else x.entries ++ [⟨r.off, rwsPart r v, rwsPart r (s.reg d r)⟩]
    let alien := !sntOwns s m d
    let s := s.setSnt d { x with entries := es, clash := if alien ∧ x.clash = none then some r.off else x.clash }
    let s := s.p d R.SNT_STATUS.COUNT es.length
    some (if alien then s.p d R.SNT_STATUS.INTRUDED 1 else s)

end Sys2Proof.Machine
end

