-- ==== Sys2Proof/Machine/Ladder.lean ====
section
/-!
DEFINITION. The power ladder (R441 to R446): requests, entry with its blockers and steps, and the wake sources. Leaving COLON and
FULL_STOP, which applies register writes again, is in Machine/Wakeup.lean.
-/

namespace Sys2Proof.Machine

def LPhase.steady : Nat := 0
def LPhase.entering : Nat := 1
def LPhase.exiting : Nat := 2

def ladState (s : State) (d : Nat) : Nat := s.g d R.PWR_STATUS.STATE
def ladPhase (s : State) (d : Nat) : Nat := s.g d R.PWR_STATUS.PHASE

/-! ## Requests (R442, R446) -/

/-- A die begins to enter a state; on leaving RUN its wake timer starts. -/
def ladEnter (s : State) (d t : Nat) (trip : Bool) : State :=
  let l := s.ladOf d
  let s := s.setLad d { l with goal := t, drained := false, trip := trip, timer := l.timer || ladState s d == Ladder.run }
  (s.p d R.PWR_STATUS.PHASE LPhase.entering).p d R.PWR_STATUS.BLOCKER 0

/-- A request is latched. -/
def ladLatch (s : State) (d t : Nat) : State :=
  (s.setLad d { s.ladOf d with latched := some t, src := 1 }).p d R.PWR_STATUS.PEND 1

/-- A die takes a request (R442, R446): deeper, it is entered from where the die stands; shallower, the die first exits to RUN; while the
die moves, the request is latched. -/
def ladTake (s : State) (d t : Nat) (trip : Bool) : State :=
  let st := ladState s d
  if ladPhase s d = LPhase.exiting then (if t = Ladder.run then s else ladLatch s d t)
  else if ladPhase s d = LPhase.entering then (if t = (s.ladOf d).goal then s else ladLatch s d t)
  else if t = st then s
  else if st < t then ladEnter s d t trip
  else wakeDie (if t = Ladder.run then s else ladLatch s d t) d 1

/-- The dies a request goes to. -/
def ladDies (s : State) (d : Nat) (scope : Bool) : List Nat := if scope then s.dies else [d]

/-- A request that keeps R442. -/
def ladOk (s : State) (d t : Nat) (scope : Bool) : Bool :=
  decide (t ≤ 4) && !(scope && d != s.head) && !(t == Ladder.fullStop && !scope)

/-- A different request is latched on some die of a request (R446). -/
def ladConflict (s : State) (d t : Nat) (scope : Bool) : Bool :=
  (ladDies s d scope).any (fun x => s.on x R.PWR_STATUS.PEND && (s.ladOf x).latched != some t)

/-- A request for a ladder state. -/
def ladRequest (s : State) (d t : Nat) (scope : Bool) : State := (ladDies s d scope).foldl (fun s x => ladTake s x t false) s

/-- A write to a register of the PWR block. -/
def writePwr (s : State) (w : Wr) : State :=
  match w.r.id with
  | .PWR_CTRL =>
    let t := R.PWR_CTRL.TARGET.of w.new
    let scope := R.PWR_CTRL.SCOPE.of w.raw == 1
    if ladOk s w.d t scope && !ladConflict s w.d t scope then (ladRequest (s.p w.d R.PWR_CTRL.TARGET t) w.d t scope).ans .ok
    else s.ans .accessError
  | .PWR_CFG => s.storeIf w (R.PWR_CFG.ENTRY_TMO.of w.new != 0)
  | .PWR_WAKE_TIMER => s.storeIf w (R.PWR_WAKE_TIMER.COUNT.of w.new != 0)
  | _ => s.store w

/-! ## Entry (R443) -/

def Blocker.flash : Nat := 1
def Blocker.region : Nat := 2
def Blocker.repair : Nat := 3

/-- What keeps a die from entering a state: 0 nothing, 1 a flash operation, 2 a region, 3 a repair (R113, R209, R443). -/
def blockerOf (s : State) (d goal : Nat) : Nat :=
  if 2 ≤ goal && s.nvcState != NvcState.idle then Blocker.flash
  else if prMoving s d then Blocker.region
  else if !(s.seuOf d).isEmpty then Blocker.repair
  else 0

/-- The die's masters have requests in flight (R443 step 2). -/
def netWaits (s : State) (d : Nat) : Bool :=
  s.coh.net.any (fun e => s.dieOfRid (e.1 / 512) == d && match e.2 with
    | some r => r.place != .done && !r.quar
    | none => false)

/-- Step 2 of an entry to COLON or FULL_STOP: the sentence is rolled back, captures are cancelled, units revoked, engines
stopped (R249), and caches written back and recalled. -/
def drainDie (s : State) (d : Nat) : State :=
  let s := capCancel (sntRollback s d SntRes.ladder) d
  let s := rbAbort (revokeAll s d) d
  let s := (List.range 48).foldl (fun s i => seStop s d i) s
  recallHomed (flushAll (flushPorts s d) d) d

/-- Entry proceeds on a die once nothing blocks it: step 2, and for COLON and deeper only when its requests have been answered. -/
def execLadderEntryProceed (die : Die) (s : State) : Host.Outcome State Fault Refusal :=
  let l := s.ladOf die
  let deep := decide (3 ≤ l.goal)
  .next (if s.present die ∧ ladPhase s die = LPhase.entering ∧ l.drained = false
      ∧ (l.trip ∨ blockerOf s die l.goal = 0) ∧ ¬ (deep ∧ netWaits s die) then
    let s := if deep then drainDie s die else s
    s.setLad die { s.ladOf die with drained := true }
  else s)

/-- A wake from a thermal trip is refused while any die reads T_CRIT or higher (R451). -/
def tripHolds (s : State) : Bool :=
  (s.ladOf s.head).trip && s.dies.any (fun d =>
    decide (sext 8 (s.g s.head R.THM_LOOP_CFG.T_CRIT) * 10 ≤ sext 16 (s.g d R.THM_TEMP.TEMP)))

/-- What a die does once it stands still: a latched request starts (R446). -/
def ladSettle (s : State) (d : Nat) : State :=
  let l := s.ladOf d
  match l.latched with
  | some t =>
    let s := (s.setLad d { l with latched := none }).p d R.PWR_STATUS.PEND 0
    if t = Ladder.run then (if tripHolds s then s else wakeDie s d l.src) else ladTake s d t false
  | none => s

/-- An entry is abandoned on a die: it stays in its state, and the event names the blocker. -/
def ladAbandon (s : State) (b d : Nat) : State :=
  let s := s.setLad d { s.ladOf d with goal := ladState s d, drained := false, timer := (s.ladOf d).timer && ladState s d != Ladder.run }
  ladSettle (((s.p d R.PWR_STATUS.PHASE LPhase.steady).p d R.PWR_STATUS.BLOCKER b).p d R.PWR_EVT.ENTRY_FAIL 1) d

/-- A blocker remains ENTRY_TMO after the request (R443 step 1). A FULL_STOP, which every die enters together, is abandoned on every
die. -/
def execEntryTimeout (die : Die) (s : State) : Host.Outcome State Fault Refusal :=
  let l := s.ladOf die
  let b := blockerOf s die l.goal
  .next (if s.present die ∧ ladPhase s die = LPhase.entering ∧ l.drained = false ∧ l.trip = false ∧ b ≠ 0 then
    if l.goal = Ladder.fullStop then
      (s.dies.filter (fun d => ladPhase s d == LPhase.entering && (s.ladOf d).goal == Ladder.fullStop)).foldl
        (fun s d => ladAbandon s b d) s
    else ladAbandon s b die
  else s)

/-! ## In the state (R443 steps 4 and 5) -/

/-- Trained channels enter self-refresh with the die's domain (R368). -/
def ddrSleep (s : State) (d : Nat) : State :=
  (List.range 2).foldl (fun s c =>
    let st := s.g d (R.DDR_STATUS.STATE c)
    if st = DdrState.ready ∨ st = DdrState.retrain then s.p d (R.DDR_STATUS.STATE c) DdrState.selfref else s) s

/-- They return to service with it. -/
def ddrReturn (s : State) (d : Nat) : State :=
  (List.range 2).foldl (fun s c =>
    if s.g d (R.DDR_STATUS.STATE c) = DdrState.selfref ∧ s.held d (Blk.ddr0 + c) = false then
      s.p d (R.DDR_STATUS.STATE c) DdrState.ready else s) s

/-- The banks of a die in COLON (R300): without KEEP a bank loses its contents; one that was on is zero-filled at the exit, one in
RETENTION when it is next on. -/
def banksColon (s : State) (d : Nat) : State :=
  (List.range 8).foldl (fun s b =>
    let s := if s.pstate d b = pstAfter (s.pstate d b) then s else bankTransitionEnd s d b
    if s.on d (R.BNK_CTRL.KEEP b) ∨ s.pstate d b = Pst.off then s
    else
      let s := s.zeroBank (d * 8 + b)
      if s.pstate d b = Pst.retention then s.p d (R.BNK_STATUS.ZERO_PENDING b) 1 else s) s

/-- The data latches of a die's block memories are lost: each holds a free value (R175). -/
def loseLatches (s : State) (d : Nat) : State :=
  ((s.fab.bm.filter (fun e => e.1 / 4096 == d)).map (fun e => e.1 % 4096)).foldl (fun s k =>
    let (v, s) := s.free 144
    s.setBmem d k { s.bmem d k with latchA := v.extractLsb' 0 72, latchB := v.extractLsb' 72 72 })
    { s with fab := { s.fab with chain := SMap.keep s.fab.chain (fun k => decide (k / 4096 ≠ d)) } }

/-- The dispatcher loses descriptors, state and registers (R278). -/
def loseDfd (s : State) (d : Nat) : State := resetRange (clearDfd s d) d 0x800000 0x900000

/-- What COLON and FULL_STOP take from a die. -/
def deepLoss (s : State) (d : Nat) : State :=
  let s := (List.range 8).foldl (fun s n => flushPair s d n true) s
  let s := lanesStop (penStop s d) d
  let s := clearSeMem (clearEngines s d) d
  let s := banksColon (stopMons (stopCores (loseDfd s d) d) d) d
  (loseLatches s d).setPins d .sleep

/-- The mux and the root PLL of a die stop (R43): the PLL is OFF without history, and PKGREF, which is the head die's root, shows no edges
on a dependent die (R32). A switch of the mux that was in progress waits (notes/assumptions/53.md). -/
def rootStop (s : State) (d : Nat) : State :=
  let c := s.clkOf d
  let s := (setRoot s d Root.off).p d R.CLK_ROOT_STATUS.HIST_VALID 0
  s.setClk d { c with
    everLocked := false, pkgActive := false, pkgQual := false, timed := c.timed &&& 0xF, measOk := c.measOk &&& 0xF, late := 0
    autoPend := false }

/-- The die has the supplies of its new state. -/
def ladArriveDown (s : State) (d goal : Nat) : State :=
  let s := ddrSleep s d
  if goal = Ladder.semicolon then lanesSemicolon s d
  else if goal = Ladder.colon then deepLoss s d
  else if goal = Ladder.fullStop then rootStop (deepLoss s d) d
  else s

/-- A die reaches the state it was entering, with nothing that has come to block it since (R209); FULL_STOP waits for step 2 of every die
(R443). -/
def execStateEntered (die : Die) (s : State) : Host.Outcome State Fault Refusal :=
  let l := s.ladOf die
  let all := s.dies.all (fun d => ladState s d == Ladder.fullStop || (ladPhase s d == LPhase.entering
    && (s.ladOf d).goal == Ladder.fullStop && (s.ladOf d).drained))
  .next (if s.present die ∧ ladPhase s die = LPhase.entering ∧ l.drained ∧ (l.goal ≠ Ladder.fullStop ∨ all)
      ∧ (l.trip ∨ blockerOf s die l.goal = 0) then
    let s := ladArriveDown s die l.goal
    let s := (s.p die R.PWR_STATUS.STATE l.goal).p die R.PWR_STATUS.PHASE LPhase.steady
    ladSettle (s.p die R.PWR_EVT.ENTERED 1) die
  else s)

/-! ## Waking (R444) -/

/-- The state a die stands in or is entering. -/
def ladDepth (s : State) (d : Nat) : Nat := if ladPhase s d = LPhase.entering then (s.ladOf d).goal else ladState s d

/-- Some lane of a die hears a start of frame: up, or in low-power idle. -/
def laneHears (s : State) (d : Nat) : Bool := (List.range 32).any (fun n => laneState s d n == Ln.up || laneState s d n == Ln.lpi)

/-- A request of some master is parked for the die (R312). -/
def parkedFor (s : State) (d : Nat) : Bool :=
  s.coh.net.any (fun e => match e.2 with
    | some r => r.place == .parked && reqDie s r.req == some d
    | none => false)

/-- A wake source of the table is there for a die in the state it is in. -/
def wakeThere (s : State) (d : Nat) : WakeSrc → Bool
  | .packet => decide (ladDepth s d ≤ 3) && parkedFor s d
  | .interrupt => decide (ladDepth s d ≤ 2) && (List.range 8).any (fun x => evRequests s d x)
  | .frame => decide (ladDepth s d ≤ 2) && laneHears s d
  | .sentence => decide (ladDepth s d ≤ 3) && sntState s d == Snt.committing

/-- The row of R444. -/
def wakeRow : WakeSrc → Nat
  | .packet => 1 | .interrupt => 2 | .frame => 3 | .sentence => 4

/-- An enabled wake source wakes a die. -/
def execWakeEvent (die : Die) (src : WakeSrc) (s : State) : Host.Outcome State Fault Refusal :=
  .next (if s.present die ∧ wakeThere s die src then wakeDie s die (wakeRow src) else s)

/-- Every die wakes. -/
def wakeAll (s : State) (row : Nat) : State := if tripHolds s then s else s.onDies (fun s d => wakeDie s d row)

/-- The wake timer of a die below RUN fires, once, and wakes every die if it is enabled. -/
def execWakeTimerExpiry (s : State) : Host.Outcome State Fault Refusal :=
  let l := s.dies.filter (fun d => (s.ladOf d).timer && s.belowRun d)
  .next (if l.isEmpty then s
    else
      let on := l.any (fun d => s.on d R.PWR_CFG.WAKE_TIMER)
      let s := l.foldl (fun s d => s.setLad d { s.ladOf d with timer := false }) s
      if on then wakeAll s 5 else s)

/-- An SMBus write of 0x01 to command code 0x10 at the head die's port (R444, R471). -/
def execSmbusWake (data : Byte) (s : State) : Host.Outcome State Fault Refusal :=
  .next (if data = 1 ∧ s.on s.head R.PWR_CFG.WAKE_SMBUS then wakeAll s 6 else s)

end Sys2Proof.Machine
end

