-- ==== Sys2Proof/Machine/Thermal.lean ====
section
/-!
DEFINITION. Sensors and the thermal plant (R448 to R451): the loop, the fans, the heater, the limits, and the THM registers.
-/

namespace Sys2Proof.Machine

/-! ## The loop (R449) -/

def FanState.off : Nat := 0
def FanState.spinup : Nat := 1
def FanState.run : Nat := 2
def FanState.failed : Nat := 3

def fanState (s : State) (n : Nat) : Nat := s.g s.head (R.THM_FAN_STATUS.STATE n)

/-- A fan's place in the plant. -/
def ThmSt.fan (x : ThmSt) (n : Nat) : Fan := if n = 0 then x.fan0 else x.fan1
def ThmSt.setFan (x : ThmSt) (n : Nat) (f : Fan) : ThmSt := if n = 0 then { x with fan0 := f } else { x with fan1 := f }

/-- A fan moves to a state; `tries` are its failed tries in a row. -/
def fanTo (s : State) (n st tries : Nat) : State :=
  { s with thm := s.thm.setFan n ⟨0, tries⟩ }.p s.head (R.THM_FAN_STATUS.STATE n) st

/-- THM_TEMP of a die, in 0.1 °C. -/
def dieTemp (s : State) (d : Nat) : Int := sext 16 (s.g d R.THM_TEMP.TEMP)

/-- The measurement T: the highest THM_TEMP over all present dies. -/
def plantT (s : State) : Int := s.dies.foldl (fun a d => max a (dieTemp s d)) (dieTemp s s.head)

/-- A setting in °C, as 0.1 °C. -/
def celsius (s : State) (f : Fld) : Int := sext 8 (s.g s.head f) * 10

/-- A setting of the plant that is a count. -/
def thmNat (s : State) (f : Fld) : Nat := s.g s.head f

/-- One 100 ms tick of the plant's own counters. -/
def thmTick (x : ThmSt) : ThmSt :=
  { x with fan0 := { x.fan0 with ticks := x.fan0.ticks + 1 }, fan1 := { x.fan1 with ticks := x.fan1.ticks + 1 }
           heatTicks := x.heatTicks + 1 }

/-- HEATER_EN changes (R450). -/
def heaterTo (s : State) (on : Bool) : State :=
  ({ s with thm := { s.thm with heatTicks := 0 } }.p s.head R.THM_STATUS.HEATER (if on then 1 else 0)).p s.head R.THM_EVT.HEATER 1

/-- The heater rule of R450. -/
def heaterStep (s : State) (t : Int) : State :=
  if s.on s.head R.THM_STATUS.HEATER then
    if celsius s R.THM_HEAT_CFG.HEAT_OFF ≤ t ∧ 10 * thmNat s R.THM_HEAT_CFG.MIN_ON ≤ s.thm.heatTicks then heaterTo s false else s
  else if t < celsius s R.THM_HEAT_CFG.HEAT_ON ∧ 10 * thmNat s R.THM_HEAT_CFG.MIN_OFF ≤ s.thm.heatTicks then heaterTo s true
  else s

/-- A value held between 0 and 100 %, in thousandths of a percent. -/
def percent (x : Int) : Int := max 0 (min x 100000)

/-- The integral, the demand and the common duty of one step. -/
def loopStep (s : State) (t : Int) : Int × State :=
  let x := s.thm
  let e := t - celsius s R.THM_LOOP_CFG.T_SET
  let heat := s.on s.head R.THM_STATUS.HEATER
  let i : Int := if heat then 0 else percent (x.integral + thmNat s R.THM_LOOP_CFG.KI * e)
  let d : Int := if heat then 0 else percent (thmNat s R.THM_LOOP_CFG.KP * e * 100 + i)
  let slew : Int := thmNat s R.THM_FAN_CFG.SLEW * 100
  (d, { s with thm := { x with integral := i, duty := if x.duty ≤ d then min d (x.duty + slew) else max d (x.duty - slew) } })

/-- The transitions of a fan that a step can make: OFF to SPINUP and RUN to OFF. -/
def fanStep (d : Int) (s : State) (n : Nat) : State :=
  let min_ : Int := thmNat s R.THM_FAN_CFG.MIN_DUTY * 1000
  let t := (s.thm.fan n).ticks
  if fanState s n = FanState.off ∧ min_ + 5000 ≤ d ∧ 10 * thmNat s R.THM_FAN_CFG.MIN_OFF ≤ t then
    fanTo s n FanState.spinup (s.thm.fan n).tries
  else if fanState s n = FanState.run ∧ d < min_ ∧ 10 * thmNat s R.THM_FAN_CFG.MIN_ON ≤ t then fanTo s n FanState.off 0
  else s

/-- What a fan drives, in thousandths of a percent: by its state, 100 % beside a failed fan, 100 % at
T_CRIT, and 0 % in heater hold (R69). -/
def fanOutput (s : State) (n : Nat) : Int :=
  let st := fanState s n
  if st = FanState.failed ∨ s.phase = Phase.heaterHold then 0
  else if s.on s.head R.THM_STATUS.CRIT ∨ fanState s (1 - n) = FanState.failed ∨ st = FanState.spinup then 100000
  else if st = FanState.off then 0
  else max s.thm.duty (thmNat s R.THM_FAN_CFG.MIN_DUTY * 1000)

/-- FAN_PWMn takes its duty. -/
def fanShow (s : State) : State :=
  (List.range 2).foldl (fun s n => s.p s.head (R.THM_FAN_STATUS.DUTY n) (fanOutput s n / 1000).toNat) s

/-- THM_STATUS shows T and whether it has reached T_CRIT; a crossing raises THM_CRIT (R451). -/
def critStep (s : State) (t : Int) : State :=
  let was := s.on s.head R.THM_STATUS.CRIT
  let crit := decide (celsius s R.THM_LOOP_CFG.T_CRIT ≤ t)
  let s := (s.p s.head R.THM_STATUS.T (wrapNat 16 t)).p s.head R.THM_STATUS.CRIT (if crit then 1 else 0)
  if crit && !was then s.p s.head R.THM_EVT.CRIT 1 else s

/-- The plant runs: not while the part is held in power-on reset, and not in heater hold (R69, R451). -/
def plantRuns (s : State) : Bool := s.boot.inReset != some .power && s.phase != Phase.heaterHold

/-- The fans' speeds as their tachometers measured them over the last second (R449). -/
def fanSpeeds (s : State) (rpm : List (BitVec 16)) : State :=
  (rpm.take 2).zipIdx.foldl (fun s x => s.p s.head (R.THM_FAN_STATUS.RPM x.2) x.1.toNat) s

/-- One step of the plant (R449 to R451); `rpm` is what the tachometers show. -/
def execThermalStep (s : State) (rpm : List (BitVec 16) := [0, 0]) : Host.Outcome State Fault Refusal :=
  .next (if plantRuns s then
    let t := plantT s
    let (d, s) := loopStep (heaterStep (critStep { fanSpeeds s rpm with thm := thmTick s.thm } t) t) t
    fanShow (fanStep d (fanStep d s 0) 1)
  else s)

/-- A fan's SPIN_TIME ends (R449): its tach decides. -/
def execFanSpinupEnd (fan : Fin 2) (rpm : BitVec 16) (s : State) : Host.Outcome State Fault Refusal :=
  .next (if plantRuns s ∧ fanState s fan = FanState.spinup then
    let s := s.p s.head (R.THM_FAN_STATUS.RPM fan) rpm.toNat
    let tries := (s.thm.fan fan).tries + 1
    fanShow (if thmNat s R.THM_SPIN_CFG.SPIN_RPM ≤ rpm.toNat then fanTo s fan FanState.run 0
      else if 3 ≤ tries then (fanTo s fan FanState.failed 0).p s.head R.THM_EVT.FAN_FAIL 1
      else fanTo s fan FanState.off tries)
  else s)

/-- A fan in RUN has stayed below SPIN_RPM / 2 for 3 s (R449). -/
def execFanStall (fan : Fin 2) (rpm : BitVec 16) (s : State) : Host.Outcome State Fault Refusal :=
  .next (if plantRuns s ∧ fanState s fan = FanState.run ∧ 2 * rpm.toNat < thmNat s R.THM_SPIN_CFG.SPIN_RPM then
    fanShow (fanTo (s.p s.head (R.THM_FAN_STATUS.RPM fan) rpm.toNat) fan FanState.spinup 0)
  else s)

/-! ## Limits and sensors (R448, R451) -/

/-- A die has been at 120 °C or above for 1 ms: the head die requests FULL_STOP for the device. -/
def execThermalTrip (die : Die) (s : State) : Host.Outcome State Fault Refusal :=
  .next (if s.present die ∧ 1200 ≤ dieTemp s die ∧ s.boot.inReset ≠ some .power ∧ s.boot.lockdown = false then
    let s := (s.pAll R.PWR_STATUS.TRIP 1).p s.head R.THM_EVT.TRIP 1
    s.onDies (fun s d => ladTake s d Ladder.fullStop true)
  else s)

/-- The 1 ms update of a die's readings. -/
def execSensorUpdate (die : Die) (temp : BitVec 16) (mv : List (BitVec 16)) (s : State) : Host.Outcome State Fault Refusal :=
  .next (if s.present die ∧ s.boot.inReset ≠ some .power then
    let s := s.p die R.THM_TEMP.TEMP temp.toNat
    let s := if sext 16 (s.g die R.THM_TEMP.PEAK) < temp.toInt then s.p die R.THM_TEMP.PEAK temp.toNat else s
    (List.range 6).foldl (fun s n => match mv[n]? with
      | some v => s.p die (R.THM_VOLT.MV n) v.toNat
      | none => s) s
  else s)

/-- A rail has stayed outside ±5 % for 1 ms. -/
def execRailOutOfRange (die : Die) (rail : Fin 6) (s : State) : Host.Outcome State Fault Refusal :=
  .next (if s.present die ∧ s.boot.inReset ≠ some .power then s.setBit die R.THM_EVT.VOLT rail else s)

/-! ## Registers -/

/-- FAN_RETRY returns FAILED fans to OFF. -/
def fanRetry (s : State) : State :=
  fanShow ((List.range 2).foldl (fun s n => if fanState s n = FanState.failed then fanTo s n FanState.off 0 else s) s)

/-- A write to a register of the THM block. -/
def writeThm (s : State) (w : Wr) : State :=
  match w.r.id with
  | .THM_FAN_CFG =>
    let m := R.THM_FAN_CFG.MIN_DUTY.of w.new
    s.storeIf w (R.THM_FAN_CFG.SLEW.of w.new != 0 && decide (1 ≤ m ∧ m ≤ 95))
  | .THM_SPIN_CFG =>
    if R.THM_SPIN_CFG.PPR.of w.new = 0 ∨ R.THM_SPIN_CFG.SPIN_TIME.of w.new = 0 then s.ans .accessError
    else
      let s := s.setReg w.d w.r w.new
      (if R.THM_SPIN_CFG.FAN_RETRY.of w.raw = 1 then fanRetry s else s).ans .ok
  | .THM_HEAT_CFG =>
    s.storeIf w (decide (sext 8 (R.THM_HEAT_CFG.HEAT_ON.of w.new) < sext 8 (R.THM_HEAT_CFG.HEAT_OFF.of w.new)))
  | _ => s.store w

end Sys2Proof.Machine
end

