-- ==== Sys2Proof/Machine/Monitor.lean ====
section
/-!
DEFINITION. The profile monitors (R452, R453): their registers, samples and windows.
-/

namespace Sys2Proof.Machine

/-- The die of the device whose NoC port has a requester ID on die `d` (R452). -/
def ridOnDie (s : State) (d rid : Nat) : Bool := s.dieOfRid rid == d && decide (rid / 8 % 32 / 6 = s.col d)

/-- ARG names a resource of the die for its source (R452). -/
def monArgOk (s : State) (d src arg : Nat) : Bool :=
  match src with
  | 1 => ridOnDie s d arg
  | 2 => decide (arg < 2)
  | 5 => decide (arg / 8 < 56)
  | 7 => decide (arg < 6)
  | _ => true

/-- A latency source (R452). -/
def monLatency (src : Nat) : Bool := src == 1 || src == 2 || src == 3 || src == 8

/-- A window starts: its results are clear. -/
def monStart (s : State) (d m : Nat) : State := s.setMon d m .reset

/-- A write to a register of the MON block. -/
def writeMon (s : State) (w : Wr) : State :=
  let m := w.r.i
  let run := s.on w.d (R.MON_CTRL.EN m)
  match w.r.id with
  | .MON_CTRL =>
    let en := (R.MON_CTRL.EN 0).of w.new == 1
    if en && (R.MON_CTRL.EN 0).of w.mask == 1 then
      (monStart ((stopMon s w.d m).setReg w.d w.r w.new) w.d m).ans .ok
    else s.store w
  | .MON_SRC =>
    let src := (R.MON_SRC.SRC 0).of w.new
    s.storeIf w (!run && decide (src ≤ 8) && (R.MON_SRC.PERIOD 0).of w.new != 0 && monArgOk s w.d src ((R.MON_SRC.ARG 0).of w.new))
  | .MON_BIN => s.storeIf w (!run && decide ((R.MON_BIN.SHIFT 0).of w.new ≤ 24))
  | .MON_WIN => s.storeIf w (!run && (R.MON_WIN.WIN 0).of w.new != 0)
  | _ => s.store w

/-- A sample updates the running window. -/
def MonWin.take (x : MonWin) (v base shift : Nat) : MonWin :=
  let k := Nat.min ((v - base) / 2 ^ shift) 31
  { min := Nat.min x.min v, max := Nat.max x.max v, count := (x.count + 1) % 2 ^ 64, sum := (x.sum + v) % 2 ^ 64
    hist := SMap.set (fun _ => 0) x.hist k (Nat.min (SMap.get (fun _ => 0) x.hist k + 1) (2 ^ 32 - 1)) }

/-- A monitor takes a sample: it runs, its source is not Off, and its die is in RUN. -/
def execMonSample (die : Die) (mon : Fin 16) (sample : Word) (s : State) : Host.Outcome State Fault Refusal :=
  .next (if s.present die ∧ s.on die (R.MON_CTRL.EN mon) ∧ s.g die (R.MON_SRC.SRC mon) ≠ 0 ∧ s.belowRun die = false then
    s.setMon die mon ((s.monOf die mon).take sample.toNat (s.g die (R.MON_BIN.BASE mon)) (s.g die (R.MON_BIN.SHIFT mon)))
  else s)

/-- The results of a window reach the read registers. -/
def monFreeze (s : State) (d m : Nat) : State :=
  let x := s.monOf d m
  let s := ((s.p d (R.MON_MIN.VALUE m) x.min).p d (R.MON_MAX.VALUE m) x.max).p d (R.MON_COUNT.VALUE m) x.count
  let s := s.p d (R.MON_SUM.VALUE m) x.sum
  (List.range 32).foldl (fun s k => s.p d (R.MON_HIST.COUNT m k) (SMap.get (fun _ => 0) x.hist k)) s

/-- A window ends; with CONT the next starts on the same edge. -/
def execMonWindowEnd (die : Die) (mon : Fin 16) (s : State) : Host.Outcome State Fault Refusal :=
  .next (if s.present die ∧ s.on die (R.MON_CTRL.EN mon) then
    let s := (monFreeze s die mon).p die (R.MON_CTRL.DONE mon) 1
    let s := monStart s die mon
    if s.on die (R.MON_CTRL.CONT mon) then s else s.p die (R.MON_CTRL.EN mon) 0
  else s)

end Sys2Proof.Machine
end

