-- ==== Sys2Proof/Machine/FabRegs.lean ====
section
/-!
DEFINITION. The registers of the FAB block (07_fabric_memory_and_arithmetic, 08_reconfiguration_and_upsets).
-/

namespace Sys2Proof.Machine

/-- A write to a register of the FAB block. -/
def writeFab (s : State) (w : Wr) : State :=
  match w.r.id with
  | .FAB_PR_CTRL => writePrCtrl s w
  | .FAB_PFIFO_AFULL => writeAfull s w
  | _ => s.store w

/-- What a read of a FAB register returns: the fill and clock of a port FIFO and the requests of a NoC port as they stand. A port is
stalled while none of its 512 internal tags is free (R195). -/
def readFab (s : State) (d : Nat) (r : RegRef) : Nat :=
  match r.id with
  | .FAB_PFIFO_STATUS =>
    let s := s.p d (R.FAB_PFIFO_STATUS.FILL r.i) (s.fifo d r.i).words.length
    (s.p d (R.FAB_PFIFO_STATUS.CLK_RUN r.i) (if clkRuns s d (pairClock s d (r.i % 8)) then 1 else 0)).reg d r
  | .FAB_NOCP_STATUS =>
    let n := portOutst s d r.i
    ((s.p d (R.FAB_NOCP_STATUS.OUTST r.i) n).p d (R.FAB_NOCP_STATUS.STALLED r.i) (if 512 ≤ (s.nport d r.i).reqs.length then 1 else 0)).reg d r
  | _ => s.reg d r

end Sys2Proof.Machine
end

