-- ==== Sys2Proof/Machine/Tamper.lean ====
section
/-!
DEFINITION. Tamper (R78, R79, R132 to R136): the sources, the log, the response in each situation, and Lockdown.
-/

namespace Sys2Proof.Machine

/-- The sources of R132 by their bits. -/
def Tsrc.vglitch : Nat := 2
def Tsrc.ckglitch : Nat := 3
def Tsrc.temp : Nat := 4
def Tsrc.mesh : Nat := 5
def Tsrc.jtag : Nat := 6
def Tsrc.soft : Nat := 7

/-- A source is enabled (R132, R133): by software, by the START_EN fuses, or always. The lid mesh is on some parts only. -/
def tamperOn (s : State) (k : Nat) : Bool :=
  (s.g s.head R.SEC_TAMPER_CFG.EN ||| s.startEn ||| 0x80).testBit k && (k != Tsrc.mesh || s.hasMesh)

/-- The battery domain runs from VBAT: main power is absent (R447). -/
def inVault (s : State) : Bool := s.boot.inReset == some .power && s.sec.vault

/-- A source is monitored now (R78, R132): with main power absent, the pins and the mesh; none while power-on reset is asserted with main
power present. -/
def tamperHeard (s : State) (k : Nat) : Bool :=
  tamperOn s k && (if s.boot.inReset = some .power then s.sec.vault && (decide (k < 2) || k == Tsrc.mesh) else true)

/-! ## The log (R134, SEC_TAMPER_LOG) -/

/-- The device is in a ladder state below RUN, as its head die is. -/
def onLadder (s : State) : Bool := s.phase == Phase.running && s.belowRun s.head

/-- The situation of an event, as WHEN shows it. -/
def tamperWhen (s : State) : Nat :=
  if inVault s then 3 else if s.sec.cmd.isSome then 4 else if s.phase ≠ Phase.running then 0
  else if onLadder s then 2 else 1

/-- An event of one source or of several in one cycle enters the log as one entry (R136); the lowest-numbered of them is the first
(notes/assumptions/57.md). -/
def tamperLog (s : State) (srcs : List Nat) : State :=
  let h := s.head
  let when_ := tamperWhen s
  let s := if s.g h R.SEC_TAMPER_LOG.SOURCES = 0 then
      ((s.p h R.SEC_TAMPER_LOG.FIRST (srcs.headD 0)).p h R.SEC_TAMPER_LOG.WHEN when_).p h R.SEC_TAMPER_LOG.VAULT (if when_ = 3 then 1 else 0)
    else s
  (srcs.foldl (fun s k => s.setBit h R.SEC_TAMPER_LOG.SOURCES k) s).incSat h R.SEC_TAMPER_LOG.COUNT

/-! ## Responses (R134) -/

/-- ZEROISE: both BBRAM slots, every encryption-engine key and the key registers. -/
def zeroise (s : State) : State :=
  bbCheck (zeroKeyRegs (zeroiseKeys (s.setSec { s.sec with bb0 := .zero, bb1 := .zero })))

/-- A running security command is aborted: a partly written slot is zeroised, a fuse command stops after the bit in progress. -/
def tamperSecCmd (s : State) : State :=
  match s.sec.cmd with
  | none => zeroKeyRegs s
  | some (op, _) =>
    let s := secAbort s
    let s := if op = 1 ∨ op = 2 then
        s.setSec (if bbInactive s.sec = 0 then { s.sec with bb0 := .zero } else { s.sec with bb1 := .zero })
      else s
    bbCheck (secEnd s SecRes.tamperAbort)

/-- What every event outside Vault and Lockdown ends: the debug unlock, a security command, a flash operation, and the warm images (R107,
R113, R128). -/
def tamperEnds (s : State) : State :=
  let s := (s.setSec { s.sec with nonce := none, used := false, resp := none }).p s.head R.SEC_LC.DBG_LEVEL 0
  let s := tamperSecCmd s
  let s := if s.cfg.flash.op = 0 then s
    else let (a, s) := s.free 64; nvcEnd (nvcAbort s) NvcRes.aborted a.toNat
  let s := s.onDies rbAbort
  s.onDies warmClear

/-- A readback and a flash operation that the event of state `s0` has ended read as aborted after a reset too (R113, R165). -/
def showEnded (s0 s : State) : State :=
  let s := s.onDies (fun s d =>
    if s0.on d R.CFG_RB_STATUS.BUSY then (s.p d R.CFG_RB_STATUS.RESULT Rb.aborted).p d R.CFG_RB_STATUS.DONE 1 else s)
  if s0.cfg.flash.op = 0 then s else (s.p s.head R.NVC_STATUS.RESULT NvcRes.aborted).p s.head R.NVC_STATUS.DONE 1

/-- The cells of the registers that Lockdown does not reset: SYS, SEC, NVC and the records of the last load. -/
def lockdownKept (s : State) : List (Nat × DWord) :=
  s.rf.filter (fun e =>
    let off := 8 * (e.1 % 2 ^ 21)
    decide (off < 0x010000 ∨ 0x070000 ≤ off ∧ off < 0x090000 ∨ 0x060010 ≤ off ∧ off < 0x060024 ∨ off = 0x060038))

/-- The pairs that leave lane traffic for bypass pairing, with 1 µs of electrical idle (R79, R135). -/
def pairsToBypass (s : State) : List (Nat × Nat) :=
  if s.boot.straps.bypassEn then
    s.dies.flatMap (fun d => ((List.range 16).filter (fun k => !s.on d (R.LAN_PAIR.ACTIVE k) || (s.pair d k).idle.isSome)).map
      (fun k => (d, k)))
  else []

/-- The loads and commands that Lockdown cuts short are recorded with TAMPER (R98, R104). -/
def tamperLoads (s : State) : State :=
  let s := if s.cfg.parse.kind = .full ∨ s.cfg.parse.kind = .partialLoad then s.pAll R.CFG_LOAD_STATUS.ERROR Lerr.tamper else s
  let s := if s.cfg.cmd.isSome then s.p s.head R.CFG_CMD_STATUS.ERROR Lerr.tamper else s
  match s.cfg.parse.kind, s.cfg.parse.src with
  | .full, .slot n =>
    s.p s.head (if n = 0 then R.CFG_BOOT_LOG.A_ERR else if n = 1 then R.CFG_BOOT_LOG.B_ERR else R.CFG_BOOT_LOG.G_ERR) Lerr.tamper
  | _, _ => s

/-- The device enters Lockdown (R78, R79, R135): outputs float, the blocks and the cores are in reset, configuration memory is being
erased, lanes return to bypass pairing, DRAM is no longer refreshed, and DONE and INIT_N are low. -/
def enterLockdown (s : State) : State :=
  let s := tamperLoads s
  let pairs := pairsToBypass s
  let kept := lockdownKept s
  let s := clearDevice (wipeSecure s) .reconfig
  let s := kept.foldl (fun s e => s.setCell e.1 e.2) s
  let s := s.onDies (fun s d =>
    let s := ((s.p d R.SYS_BOOT_STATUS.DONE_PIN 0).p d R.SYS_BOOT_STATUS.INIT_N_PIN 0).p d R.SYS_BOOT_STATUS.HEATER_ACTIVE 0
    warmClear ((s.p d R.CFG_LOAD_STATUS.BUSY 0).p d R.CFG_LOAD_STATUS.LOADED 0) d)
  let s := ((s.p s.head R.CFG_BOOT_STATUS.RUN_SLOT 3).p s.head R.CFG_BOOT_STATUS.CONF_BUSY 0).p s.head R.CFG_CMD_STATUS.BUSY 0
  let s := s.each s.channels (fun s ch => (s.loseDram ch).setTrainCopy ch false)
  let s := pairs.foldl (fun s x => pairIdle s x.1 x.2 true) s
  let s := { s with boot := { s.boot with
    inReset := none, cleared := false, jtag := none, lockdown := true, modeHeld := false, warm := false, warmReady := false } }
  ((s.setSec { s.sec with erasing := true }).p s.head R.SEC_LC.LOCKDOWN 1).setPhase Phase.lockdown

/-- The response during start-up (R78, R79): a load in progress ends, and so does a wake-up sequence. -/
def tamperStartup (s : State) : State :=
  let wake := s.phase = Phase.wake
  let s := if s.policy Policy.startZeroise then zeroise s else s
  let s := enterLockdown s
  if wake then s.pAll R.CFG_WAKE_STATUS.ERROR 4 else s

/-- The responses that apply: those that software enabled and those that the fuses fix (R133). -/
def tamperResp (s : State) (b : Nat) : Bool :=
  (s.g s.head ⟨R.SEC_TAMPER_RESP.ZEROISE.off, 0, 4⟩ ||| s.runFloor).testBit b

/-- The response in RUN. -/
def tamperRun (s : State) : State :=
  let lock := tamperResp s 3
  let rst := tamperResp s 2
  let wipe := tamperResp s 1
  let s := if tamperResp s 0 then zeroise s else s
  let s := if wipe then wipeSecure s else s
  if lock then enterLockdown s
  else
    let s := if rst then raiseReset s .reconfig 8 s.head 0 else s.pulse s.head 576
    s.setSec { s.sec with respond := true }

/-- A response runs (R136): the reset it made has not cleared configuration memory yet, or a wipe that it ordered goes on. -/
def respRuns (s : State) : Bool :=
  s.sec.respond && ((s.phase == Phase.housekeep && !s.boot.cleared)
    || s.dies.any (fun d => (List.range 8).any (fun b => s.on d (R.BNK_STATUS.WIPING b))))

/-- A tamper event of source `k`, with the sources of `also` in the same cycle (R134, R136). While a response runs it is logged, and adds
Lockdown if that is enabled. -/
def tamper (s : State) (k : Nat) (also : BitVec 8) : State :=
  let srcs := (List.range 8).filter (fun i => (i == k || also.getLsbD i) && tamperHeard s i)
  if srcs.isEmpty then s
  else
    let when_ := tamperWhen s
    let t := tamperLog s srcs
    if when_ = 3 then
      if s.policy Policy.vaultZeroise then t.setSec { t.sec with bb0 := .zero, bb1 := .zero } else t
    else if s.boot.lockdown then t
    else if respRuns s then (if tamperResp t 3 then enterLockdown t else t)
    else
      let t := tamperEnds t
      showEnded s (if s.phase ≠ Phase.running then tamperStartup t
        else if onLadder s then enterLockdown (if tamperResp t 0 then zeroise t else t)
        else tamperRun t)

/-! ## The sources (R132) -/

/-- A tamper pin has sat at a level for 3 cycles of the 32.768 kHz oscillator. -/
def execTamperPin (pin : TamperPin) (level : Bool) (s : State) (also : BitVec 8 := 0) : Host.Outcome State Fault Refusal :=
  let k := match pin with
    | .tamper0 => 0
    | .tamper1 => 1
  let pol := if k = 0 then R.SEC_TAMPER_CFG.POL0 else R.SEC_TAMPER_CFG.POL1
  .next (if level = s.on s.head pol then tamper s k also else s)

/-- A core, hard or auxiliary rail of a die has left ±12 % of nominal and counts as a glitch. -/
def execVglitch (die : Die) (rail : Rail) (s : State) (also : BitVec 8 := 0) : Host.Outcome State Fault Refusal :=
  .next (if s.present die ∧ (rail = .core ∨ rail = .hard ∨ rail = .aux) then tamper s Tsrc.vglitch also else s)

/-- A phase of a root reference or of the /8 tap is shorter than 40 % of nominal. -/
def execCkglitch (die : Die) (s : State) (also : BitVec 8 := 0) : Host.Outcome State Fault Refusal :=
  .next (if s.present die then tamper s Tsrc.ckglitch also else s)

/-- A die has been at a temperature, in 0.1 °C, for 10 ms. -/
def execTamperTemp (die : Die) (temp : Int) (s : State) (also : BitVec 8 := 0) : Host.Outcome State Fault Refusal :=
  let lo := 10 * sext 8 (s.g s.head R.SEC_TEMP_LIMITS.TEMP_LO)
  let hi := 10 * sext 8 (s.g s.head R.SEC_TEMP_LIMITS.TEMP_HI)
  .next (if s.present die ∧ (hi < temp ∨ (temp < lo ∧ s.phase ≠ Phase.heaterHold)) then tamper s Tsrc.temp also else s)

/-- The lid mesh is checked. -/
def execMeshCheck (fault : Bool) (s : State) (also : BitVec 8 := 0) : Host.Outcome State Fault Refusal :=
  .next (if fault then tamper s Tsrc.mesh also else s)

/-- The bulk erase of configuration memory in Lockdown is complete (R78, R135). -/
def execLockdownEraseDone (s : State) : Host.Outcome State Fault Refusal :=
  .next (s.setSec { s.sec with erasing := false })

/-! ## LOCKDOWN (R132, R137) -/

/-- A write to a register of the SEC block. LOCKDOWN is a tamper event once its command has ended. -/
def writeSecFull (s : State) (w : Wr) : State :=
  let t := writeSec s w
  if w.r.id = .SEC_CMD ∧ R.SEC_CMD.OP.of w.raw = 9 ∧ t.reply.resp = .ok then { tamper t Tsrc.soft 0 with reply := t.reply } else t

end Sys2Proof.Machine
end

