-- ==== Sys2Proof/Machine/RegAccess.lean ====
section
/-!
DEFINITION. Register accesses (R4 to R8, R27, R28, R65, R116, R117, R432, R433): where an access goes, its form, the family that
answers a write, the staging of RWS fields (R436, R437), and reads with their side effects.
-/

namespace Sys2Proof.Machine

/-! ## Where an access goes -/

/-- The register at a byte of a die's window (R27, R28): the head die's blocks hold only BLOCK_VERSION elsewhere. -/
def regOn (s : State) (d off : Nat) : Option RegRef :=
  match regAt off with
  | some r =>
    if (r.block = some .SEC ∨ r.block = some .NVC) ∧ d ≠ s.head ∧ r.off ≠ 0x070000 ∧ r.off ≠ 0x080000 then none else some r
  | none => none

/-- Every byte of an access falls within a defined register (R28). -/
def bytesDefined (s : State) (d off size : Nat) : Bool :=
  decide (off + size ≤ 2 ^ 24)
    && (List.range ((off % 4 + size + 3) / 4)).all (fun k => (regOn s d (off / 4 * 4 + 4 * k)).isSome)

/-- The bit of SYS_RST_BLOCK that holds a register's block (R64). -/
def holdBit (r : RegRef) : Option Nat :=
  match r.block with
  | some .APC => some Blk.apc
  | some .SEA => some Blk.sea
  | some .DFD => some Blk.dfd
  | some .PEN => some Blk.pen
  | some .LAN => some Blk.lan
  | some .DDR => if r.off < 0x440000 then some Blk.ddr0 else some (Blk.ddr0 + 1)
  | some .MEE => if r.off < 0x4A0000 then some Blk.mee0 else some (Blk.mee0 + 1)
  | some .BNK => some Blk.bnk
  | some .RLC => some Blk.rlc
  | some .MON => some Blk.mon
  | some .EVT => some Blk.evt
  | _ => none

/-- The register's block accepts no request: it is held, or the device is (R65). -/
def regHeld (s : State) (d : Nat) (r : RegRef) : Bool :=
  s.boot.inReset.isSome || (match holdBit r with
    | some b => s.held d b
    | none => false)

/-- What refuses an access to a register before its fields are looked at: its block held (R65), or a master that SEC does not accept
(R117). -/
def regRefusal (s : State) (m : Master) (d : Nat) (r : RegRef) : Option Resp :=
  if regHeld s d r then some .targetError
  else if r.block = some .SEC ∧ d = s.head ∧ s.secOpen m = false then some .accessError
  else none

/-! ## Writes -/

/-- A write to a register of the SNT block but SNT_COMMIT, which Machine/Commit.lean answers. -/
def writeSnt (s : State) (w : Wr) : State :=
  match w.r.id with
  | .SNT_BEGIN => writeSntBegin s w
  | .SNT_ROLLBACK => writeSntRollback s w
  | .SNT_CFG => s.storeIf w (sntState s w.d == Snt.idle)
  | _ => s.store w

/-- After a write to the CLK block, which may have opened gates, the blocks that waited for theirs leave reset (R65); its reply stays. -/
def gatesSettle (t : State) (d : Nat) : State := { leaveGated t d with reply := t.reply }

/-- The family that answers a write. -/
def writeFamily (s : State) (w : Wr) : State :=
  match w.r.block with
  | some .SYS => writeSys s w
  | some .CLK => gatesSettle (writeClk s w) w.d
  | some .PWR => writePwr s w
  | some .THM => writeThm s w
  | some .MON => writeMon s w
  | some .EVT => writeEvt s w
  | some .CFG => writeCfg s w
  | some .SEC => writeSecFull s w
  | some .NVC => writeNvc s w
  | some .BNK => writeBnk s w
  | some .NOC => writeNoc s w
  | some .RLC => writeRlc s w
  | some .BDL => writeBdl s w
  | some .DDR => warmCheck (writeDdr s w) w.d w.r.off
  | some .MEE => warmCheck (writeMee s w) w.d w.r.off
  | some .LAN => writeLan s w
  | some .PEN => writePen s w
  | some .SEA => writeSea s w
  | some .DFD => writeDfd s w
  | some .APC => writeApc s w
  | some .FAB => writeFab s w
  | some .SNT => writeSnt s w
  | none => s.ans .decodeError

/-- The RWS fields of a write while a sentence is open on the die are staged, and its other fields act at once (R4, R436). -/
def writeStaged (s : State) (m : Master) (d : Nat) (r : RegRef) (raw mask : Nat) : State :=
  let i := r.id.info
  let v := i.merge (stagedOver s d r (s.reg d r)) raw (mask &&& i.rws)
  match sntStage s m d r v with
  | none => s.ans .accessError
  | some t =>
    let rest := mask &&& (2 ^ 64 - 1 - i.rws)
    if i.writable &&& rest = 0 then t.ans .ok
    else
      let u := writeFamily t (mkWr t m d r (raw &&& rest) rest)
      if u.reply.resp = .ok then u else s.ans .accessError

/-- An RWS write to a staged register while its commit is in progress is a conflict (R437). -/
def noteClash (s : State) (d : Nat) (r : RegRef) (mask : Nat) : State :=
  let x := s.sntOf d
  if sntState s d = Snt.committing ∧ mask &&& r.id.info.rws ≠ 0 ∧ (sntEntry s d r.off).isSome ∧ x.clash = none then
    s.setSnt d { x with clash := some r.off }
  else s

/-- A write of `raw` under `mask` to a register whose block accepts it (R5, R27). -/
def writeReg (s : State) (m : Master) (d : Nat) (r : RegRef) (raw mask : Nat) : State :=
  let i := r.id.info
  if (i.head ∧ d ≠ s.head) ∨ r.id.imageSet ∨ i.writable = 0 then s.ans .accessError
  else if mask &&& i.rws ≠ 0 ∧ sntState s d = Snt.opened then writeStaged s m d r raw mask
  else
    let t := writeFamily s (mkWr s m d r (raw &&& mask) mask)
    if t.reply.resp = .ok ∧ sntState s d = Snt.committing then noteClash t d r mask else t

/-- A write of one word or of a whole pair: `lo` bits up from bit `sh` of the register. -/
def writeWord (commit : State → Wr → State) (s : State) (m : Master) (d off n v : Nat) : State :=
  match regOn s d off with
  | none => s.ans .decodeError
  | some r =>
    match regRefusal s m d r with
    | some x => s.ans x
    | none =>
      let sh := 8 * (off - r.off)
      let mask := (2 ^ (8 * n) - 1) * 2 ^ sh
      let raw := v % 2 ^ (8 * n) * 2 ^ sh
      if r.id = .SNT_COMMIT then commit s (mkWr s m d r raw mask) else writeReg s m d r raw mask

/-- The first response that is not OK. -/
def worse (a b : Resp) : Resp := if a = .ok then b else a

/-- A register pair starts at an offset. -/
def pairAt (s : State) (d off : Nat) : Bool :=
  match regOn s d off with
  | some r => r.id.info.pair && r.off == off
  | none => false

/-- A write that has reached the die (R28, R432). -/
def regWrite (commit : State → Wr → State) (s : State) (m : Master) (d off size v : Nat) (poison : Bool) : State :=
  if inAperture s d off then s.ans (if s.boot.inReset.isSome then .targetError else .accessError)
  else if !bytesDefined s d off size then s.ans .decodeError
  else if (size ≠ 4 ∧ size ≠ 8) ∨ off % size ≠ 0 then s.ans .accessError
  else if poison then s.ans .targetError
  else if size = 4 ∨ pairAt s d off then writeWord commit s m d off size v
  else
    let a := writeWord commit s m d off 4 v
    let b := writeWord commit a m d (off + 4) 4 (v / 2 ^ 32)
    b.ans (worse a.reply.resp b.reply.resp)

/-! ## Reads -/

/-- The ladder state that a reading of the edges of a die goes by; the companion counts as a die in RUN. -/
def endState (s : State) (d : Nat) : Nat := if s.present d then s.g d R.PWR_STATUS.STATE else Ladder.run

/-- An edge that carries traffic is in its low-power state while both ends are in SEMICOLON or COLON (R341). -/
def edgeLowPower (s : State) (d e : Nat) : Bool :=
  let low (t : Nat) : Bool := endState s t == Ladder.semicolon || endState s t == Ladder.colon
  (s.edgeState d e == Edge.up || s.edgeState d e == Edge.raw) && low d && (s.neighbour d e).any low

/-- What a read of a BDL register returns: LOWPWR follows the ladder (R341). -/
def readBdl (s : State) (d : Nat) (r : RegRef) (v : Nat) : Nat :=
  match r.id with
  | .BDL_STATUS => if edgeLowPower s d r.i then v ||| 16 else v
  | _ => v

/-- What a register shows, without side effects. -/
def viewReg (s : State) (d : Nat) (r : RegRef) : Nat :=
  match r.block with
  | some .CFG => (readCfg s d r).getD (s.reg d r)
  | some .SEC => (readSec s d r).getD (s.reg d r)
  | some .EVT => (readEvt s d r).getD (s.reg d r)
  | some .LAN => readLan s d r (s.reg d r)
  | some .PEN => readPen s d r (s.reg d r)
  | some .BDL => readBdl s d r (s.reg d r)
  | some .FAB => readFab s d r
  | _ => s.reg d r

/-- A read of the bits of `mask` of a register, with the side effects of its fields there (R4, R426, R433): a claim, a pop, a clear. The
peak temperature, cleared, is the lowest there is, so that the next reading replaces it. -/
def readReg (s : State) (d : Nat) (r : RegRef) (mask : Nat) : Nat × State :=
  match r.id with
  | .EVT_CLAIM => claimRead s d r.i
  | .PEN_TS_POP => tsPop s d
  | .DFD_CQ_POP => cqPop s d r.i
  | .THM_TEMP => (s.reg d r, s.p d R.THM_TEMP.PEAK 0x8000)
  | id =>
    let v := viewReg s d r &&& (2 ^ 64 - 1 - id.info.wo)
    let rc := id.info.rc &&& mask
    (v, if rc = 0 then s else s.setReg d r (s.reg d r &&& (2 ^ 64 - 1 - rc)))

/-- A 32-bit read of the high half of a counter or a pop register (R433). -/
def readHigh (s : State) (m : Master) (d : Nat) (r : RegRef) : Nat × State :=
  let k := cellKey d r.off
  match SMap.look s.holds k with
  | some h => if h.rid = m.rid then (h.hi.toNat, { s with holds := SMap.del s.holds k })
    else (if r.id.isPop then 0 else viewReg s d r / 2 ^ 32, s)
  | none => (if r.id.isPop then 0 else viewReg s d r / 2 ^ 32, s)

/-- A read of one aligned 32-bit word. -/
def readHalf (s : State) (m : Master) (d off : Nat) (r : RegRef) : Nat × State :=
  if r.id.isCounter || r.id.isPop then
    if off = r.off then
      let (v, s) := readReg s d r (2 ^ 64 - 1)
      (v % 2 ^ 32, { s with holds := SMap.put s.holds (cellKey d r.off) ⟨m.rid, BitVec.ofNat 32 (v / 2 ^ 32)⟩ })
    else readHigh s m d r
  else
    let sh := 8 * (off - r.off)
    let (v, s) := readReg s d r ((2 ^ 32 - 1) * 2 ^ sh)
    (v / 2 ^ sh % 2 ^ 32, s)

/-- A read of one aligned word that may be refused: the response, the value, and the state after. -/
def readWord (s : State) (m : Master) (d off : Nat) : Resp × Nat × State :=
  match regOn s d off with
  | none => (.decodeError, 0, s)
  | some r =>
    match regRefusal s m d r with
    | some x => (x, 0, s)
    | none =>
      if r.id = .BNK_ECC_CHK then
        match readEccChk s d with
        | some v => (.ok, v, s)
        | none => (.accessError, 0, s)
      else
        let (v, s) := readHalf s m d off r
        (.ok, v, s)

/-- A read that has reached the die (R28, R432): the response, the value, and the state after. -/
def regRead (s : State) (m : Master) (d off size : Nat) : Resp × Nat × State :=
  if !bytesDefined s d off size then (.decodeError, 0, s)
  else if (size ≠ 1 ∧ size ≠ 2 ∧ size ≠ 4 ∧ size ≠ 8) ∨ off % size ≠ 0 then (.accessError, 0, s)
  else if size < 8 then
    let (r, v, s) := readWord s m d (off / 4 * 4)
    (r, v / 2 ^ (8 * (off % 4)) % 2 ^ (8 * size), s)
  else
    match regOn s d off with
    | none => (.decodeError, 0, s)
    | some r =>
      if r.id.info.pair ∧ r.off = off then
        match regRefusal s m d r with
        | some x => (x, 0, s)
        | none =>
          let (v, s) := readReg s d r (2 ^ 64 - 1)
          (.ok, v, s)
      else
        let (a, lo, s) := readWord s m d off
        let (b, hi, s) := readWord s m d (off + 4)
        (worse a b, lo + hi * 2 ^ 32, s)

/-! ## Over the network -/

/-- The way of a register access to a die (R303, R312). -/
def ctrlRoute (s : State) (m : Master) (d : Nat) : Option Resp × State :=
  if s.debugShut m then (some .accessError, s)
  else if s.present d then routeTo s (s.dieOfRid m.rid) d else (some .decodeError, s)

/-- An offset in the control window of the companion, which answers for itself (R26, R339). -/
def companionCtrl (s : State) (d off : Nat) : Bool := d == 7 && companionOff s 0 off == .comp 0 off

/-- The companion answers an access of a master: what, and with which `n` words, is open (R339). -/
def companionAns (s : State) (m : Master) (n : Nat) : State :=
  if s.debugShut m then s.ans .accessError
  else match routeTo s (s.dieOfRid m.rid) 7 with
  | (some x, s) => s.ans x
  | (none, s) =>
    let (v, s) := s.free 3
    let (ws, s) := freeWords s n
    { s with reply := ⟨companionResp v, if companionResp v = .ok then ws else []⟩ }

/-- A register read that a master sends. -/
def readOver (s : State) (m : Master) (d off size : Nat) : State :=
  if companionCtrl s d off then companionAns s m 1
  else match ctrlRoute s m d with
  | (some x, s) => s.ans x
  | (none, s) =>
    if inAperture s d off then apertureRead s off size
    else match regRead s m d off size with
    | (.ok, v, s) => s.ansData .ok [BitVec.ofNat 64 v]
    | (x, _, s) => s.ans x

/-- A register read of a master, and what a core does with the answer (R421). -/
def accessRead (s : State) (m : Master) (d off size : Nat) : State :=
  (readOver s m d off size).coreSees m false (d * 0x1000000 + off)

end Sys2Proof.Machine
end

