-- ==== Sys2Proof/Machine/Commit.lean ====
section
/-!
DEFINITION. The commit of a sentence (R437 to R439): the checks, the apply tick and the outcome; and a master's register write, which may be
a commit.
-/

namespace Sys2Proof.Machine

/-! ## The checks (R437) -/

/-- A staged register of the gate tree. -/
def gateEntry (e : SntEntry) : Bool := decide (0x010100 ≤ e.off ∧ e.off < 0x010114)

/-- What the staged gate registers ask of gate `g`. -/
def gateWant (s : State) (d : Nat) (es : List SntEntry) (g : Nat) : Bool :=
  match es.find? (fun e => e.off == 0x010100 + 4 * (g / 32)) with
  | some e => (e.val &&& gateMask (g / 32)).testBit (g % 32)
  | none => gateOpen s d g

/-- A check that fails: the gate that refuses, if one does, and the offset of the failing register; or the state that every entry leaves. -/
abbrev Trial := Except (Option Nat × Nat) State

/-- The staged closures, then the other entries in staging order, then the openings (R48). -/
def trialClose (s : State) (d : Nat) (es : List SntEntry) : Trial :=
  let want := gateWant s d (es.filter gateEntry)
  match applyClosures s d want with
  | (t, none) => .ok t
  | (t, some b) =>
    let g := (gatesDeepFirst.find? (fun g => gateOpen t d g && !want g)).getD b
    .error (some b, 0x010100 + 4 * (g / 32))

def trialOpen (s : State) (d : Nat) (es : List SntEntry) : Trial :=
  let want := gateWant s d (es.filter gateEntry)
  match applyOpenings s d want with
  | (t, none) => .ok t
  | (t, some b) =>
    let g := (gatesShallowFirst.find? (fun g => !gateOpen t d g && want g)).getD b
    .error (some b, 0x010100 + 4 * (g / 32))

/-- Apply the entries that are no gates, in order. -/
def trialRest (m : Master) (d : Nat) : State → List SntEntry → Trial
  | s, [] => .ok s
  | s, e :: es =>
    match regAt e.off with
    | none => .error (none, e.off)
    | some r =>
      let t := writeFamily s (mkWr s m d r e.val r.id.info.rws)
      if t.reply.resp = .ok then trialRest m d t es else .error (none, e.off)

/-- Every staged write of a die, each checked against what those before it leave. -/
def trial (s : State) (d : Nat) : Trial :=
  let x := s.sntOf d
  match trialClose s d x.entries with
  | .error e => .error e
  | .ok t =>
    match trialRest x.owner d t (x.entries.filter (fun e => !gateEntry e)) with
    | .error e => .error e
    | .ok t => trialOpen t d x.entries

/-- The first staged register of a die that has met a conflict. -/
def sntConflict (s : State) (d : Nat) : Option Nat :=
  let x := s.sntOf d
  match x.clash with
  | some o => some o
  | none => (x.entries.find? (fun e => match regAt e.off with
      | some r => rwsPart r (s.reg d r) != e.seen
      | none => true)).map (·.off)

/-- Why a sentence fails: the die, its result, the register, and the gate that refuses, if one does. -/
structure SntBad where
  die  : Nat
  res  : Nat
  off  : Nat
  gate : Option Nat
  deriving DecidableEq, Repr

/-- What a die reports when it prepares: ready, with what its entries leave, or why it fails. -/
def prepare (s : State) (d : Nat) : Except SntBad State :=
  match sntConflict s d with
  | some o => .error ⟨d, SntRes.conflict, o, none⟩
  | none =>
    match (s.sntOf d).entries with
    | [] => .ok s
    | e :: _ =>
      if s.fullStopped d then .error ⟨d, SntRes.refused, e.off, none⟩
      else match trial s d with
        | .ok t => .ok t
        | .error (b, o) => .error ⟨d, SntRes.refused, o, b⟩

/-! ## The outcome (R438, R439) -/

/-- The first die of a list that fails: a die that cannot report is UNREACHABLE; or the state in which every die's entries are applied. -/
def prepareAll (device : Bool) : State → List Nat → Except SntBad State
  | s, [] => .ok s
  | s, d :: l =>
    if device && !headReaches s d then .error ⟨d, SntRes.unreachable, 0, none⟩
    else match prepare s d with
      | .error b => .error b
      | .ok t => prepareAll device t l

/-- A sentence ends: every die of it that the head die can reach shows the result; SNT_FAIL names the failing die and register on the
die that took the commit and on the failing die. -/
def sntFinish (s : State) (d res : Nat) (bad : Option (Nat × Nat)) : State :=
  let device := sntDevice s d
  let l := (sntDies s d).filter (fun x => !device || headReaches s x)
  let s := l.foldl (fun s x =>
    let s := sntClose s x res
    match bad with
    | some (b, o) => if x = d ∨ (x = b ∧ res ≠ SntRes.unreachable) then sntFail s x b o else sntFail s x 0 0
    | none => sntFail s x 0 0) s
  sntPulse s d device

/-- The commit fails: no staged write is applied on any die (R48, R439), and a gate that refused is recorded on its die. -/
def sntRefuse (s : State) (d : Nat) (x : SntBad) : State :=
  let s := match x.gate with
    | some b => gateRefused s x.die b
    | none => s
  (sntFinish s d x.res (some (x.die, x.off))).ans .accessError

/-- The dies of a sentence that hold staged registers. -/
def sntHolders (s : State) (d : Nat) : List Nat := (sntDies s d).filter (fun x => !(s.sntOf x).entries.isEmpty)

/-- A write of SNT_COMMIT (R438): every domain that holds a staged register wakes; once all run, the checks are made, and the sentence waits
for its tick. The response comes with the outcome. -/
def writeSntCommit (s : State) (w : Wr) : State :=
  let d := w.d
  if sntMay s w.m d (R.SNT_COMMIT.GO.of w.raw == 1) then
    let device := sntDevice s d
    let l := sntDies s d
    match l.find? (fun x => (device && !headReaches s x) || (s.fullStopped x && !(s.sntOf x).entries.isEmpty)) with
    | some x =>
      if headReaches s x || !device then
        sntRefuse s d ⟨x, SntRes.refused, (((s.sntOf x).entries.head?).map (·.off)).getD 0, none⟩
      else sntRefuse s d ⟨x, SntRes.unreachable, 0, none⟩
    | none =>
      let s := (sntHolders s d).foldl (fun s x => if s.belowRun x then packetWake s x else s) s
      let go : State := (l.foldl (fun s x => s.p x R.SNT_STATUS.STATE Snt.committing) s).noAnswer
      if (sntHolders s d).all s.running then
        match prepareAll device s l with
        | .error x => sntRefuse s d x
        | .ok _ => go
      else go
  else s.ans .accessError

/-- The apply tick (R438, R439): the checks stand, and every staged write takes effect together; the master that wrote SNT_COMMIT gets its
response. -/
def execApplyTick (die : Die) (s : State) : Host.Outcome State Fault Refusal :=
  .next (if s.present die ∧ sntState s die = Snt.committing ∧ (sntDevice s die = false ∨ die.val = s.head)
      ∧ (sntHolders s die).all s.running then
    match prepareAll (sntDevice s die) s (sntDies s die) with
    | .error x => (sntRefuse s die x).coreSees (s.sntOf die).owner true (die * 0x1000000 + R.SNT_COMMIT.GO.off)
    | .ok t => (sntFinish (t.each (sntDies s die) leaveGated) die SntRes.ok none).ans .ok
  else s)

/-! ## A master's register write -/

/-- A register write that a master sends over the network. -/
def writeOver (s : State) (m : Master) (d off size v : Nat) (poison : Bool) : State :=
  if companionCtrl s d off then companionAns s m 0
  else match ctrlRoute s m d with
  | (some x, s) => s.ans x
  | (none, s) => regWrite writeSntCommit s m d off size v poison

/-- A register write of a master, and what a core does with the answer (R421). -/
def accessWrite (s : State) (m : Master) (d off size v : Nat) (poison : Bool) : State :=
  (writeOver s m d off size v poison).coreSees m true (d * 0x1000000 + off)

/-- A 32-bit register write. -/
def put32 (s : State) (m : Master) (d off v : Nat) : State := accessWrite s m d off 4 v false

/-- A 64-bit write of a register pair. -/
def put64 (s : State) (m : Master) (d off v : Nat) : State := accessWrite s m d off 8 v false

end Sys2Proof.Machine
end

