-- ==== Sys2Proof/Machine/RegCommands.lean ====
section
/-!
DEFINITION. The commands that are a master's access to one register. Each names the fields that matter to it; a 32-bit write sets the
register's other fields as they stand, and its WO and W1C fields to 0 unless the command names them.
-/

namespace Sys2Proof.Machine

/-- A register value with a field replaced. -/
def Fld.setIn (f : Fld) (x v : Nat) : Nat := x - f.of x * 2 ^ f.lo + v % 2 ^ f.w * 2 ^ f.lo

/-- The RW and RWS fields of a 32-bit register as they stand. -/
def keptFields (s : State) (d off : Nat) : Nat :=
  match regAt off with
  | some r => s.reg d r &&& (r.id.info.rw ||| r.id.info.rws)
  | none => 0

/-- Write the named fields of one register. -/
def poke (s : State) (m : Master) (d : Nat) (l : List (Fld × Nat)) : State :=
  let off := ((l.head?).map (fun p => p.1.off)).getD 0
  put32 s m d off (l.foldl (fun x p => p.1.setIn x p.2) (keptFields s d off))

/-- A write of SEC_CMD. -/
def secPoke (s : State) (m : Master) (op arg : Nat) : State := poke s m s.head [(R.SEC_CMD.OP, op), (R.SEC_CMD.ARG, arg)]

/-- A write of DFD_CMD. -/
def dfdPoke (s : State) (m : Master) (d op arg : Nat) : State := poke s m d [(R.DFD_CMD.OP, op), (R.DFD_CMD.ARG, arg)]

/-- A write of MEE_KEY_CMD of instance `i`. -/
def meePoke (s : State) (m : Master) (d i op keyid arg : Nat) (device : Bool) : State :=
  poke s m d [(R.MEE_KEY_CMD.OP i, op), (R.MEE_KEY_CMD.KEYID i, keyid), (R.MEE_KEY_CMD.ARG i, arg), (R.MEE_KEY_CMD.SCOPE i, device.toNat)]

/-- A write of PEN_L2_CMD. -/
def l2Poke (s : State) (m : Master) (d op : Nat) : State := poke s m d [(R.PEN_L2_CMD.OP, op)]

/-- A write of SYS_MBOX_CMD (R431). -/
def mboxPoke (s : State) (m : Master) (d cmd : Nat) : State := poke s m d [(R.SYS_MBOX_CMD.CMD, cmd)]

/-- A register write (R4). -/
def execRegisterWrite (m : Master) (die : Die) (off size : Nat) (data : DWord) (poison : Bool) (s : State) : Host.Outcome State Fault Refusal :=
  .next (accessWrite s m die off size data.toNat poison)

/-- A register read; its RC fields clear (R5). -/
def execReadClear (m : Master) (die : Die) (off size : Nat) (s : State) : Host.Outcome State Fault Refusal :=
  .next (accessRead s m die off size)

/-- A 32-bit read of the high half of a counter or pop register (R433). -/
def execHighHalfRead (m : Master) (die : Die) (off : Nat) (s : State) : Host.Outcome State Fault Refusal :=
  .next (accessRead s m die off 4)

/-- A write of SYS_WDT_KICK (R58). -/
def execWdtKick (m : Master) (die : Die) (key : Word) (s : State) : Host.Outcome State Fault Refusal :=
  .next (put32 s m die R.SYS_WDT_KICK.KEY.off key.toNat)

/-- A write of SYS_WDT_CTRL (R63). -/
def execWdtEnable (m : Master) (die : Die) (v : Word) (s : State) : Host.Outcome State Fault Refusal :=
  .next (put32 s m die R.SYS_WDT_CTRL.EN.off v.toNat)

/-- A write of SYS_RST_SW (R58). -/
def execSoftwareReset (m : Master) (die : Die) (key : BitVec 16) (go : Bool) (s : State) : Host.Outcome State Fault Refusal :=
  .next (poke s m die [(R.SYS_RST_SW.KEY, key.toNat), (R.SYS_RST_SW.GO, go.toNat)])

/-- A write of SYS_RST_BLOCK (R64). -/
def execRstBlockWrite (m : Master) (die : Die) (hold : BitVec 14) (s : State) : Host.Outcome State Fault Refusal :=
  .next (poke s m die [(R.SYS_RST_BLOCK.HOLD, hold.toNat)])

/-- A write of SEC_TAMPER_LOG (R136). -/
def execTamperLogClear (m : Master) (v : Word) (s : State) : Host.Outcome State Fault Refusal :=
  .next (put32 s m s.head R.SEC_TAMPER_LOG.SOURCES.off v.toNat)

/-- A write of SEC_TAMPER_CFG (R133). -/
def execTamperCfgLock (m : Master) (v : Word) (s : State) : Host.Outcome State Fault Refusal :=
  .next (put32 s m s.head R.SEC_TAMPER_CFG.LOCK.off v.toNat)

/-- A write of CLK_REF_CTRL (R35). -/
def execRefSelWrite (m : Master) (die : Die) (sel : Fin 8) (auto : Bool) (s : State) : Host.Outcome State Fault Refusal :=
  .next (poke s m die [(R.CLK_REF_CTRL.SEL, sel), (R.CLK_REF_CTRL.AUTO, auto.toNat)])

/-- A write of CLK_REF_CTRL with FORCE (R38). -/
def execRefForce (m : Master) (die : Die) (sel : Fin 8) (auto : Bool) (s : State) : Host.Outcome State Fault Refusal :=
  .next (poke s m die [(R.CLK_REF_CTRL.SEL, sel), (R.CLK_REF_CTRL.AUTO, auto.toNat), (R.CLK_REF_CTRL.FORCE, 1)])

/-- A write of CLK_GATE_ENk (R48). -/
def execGateWrite (m : Master) (die : Die) (k : Fin 5) (v : Word) (s : State) : Host.Outcome State Fault Refusal :=
  .next (put32 s m die (gateReg k).off v.toNat)

/-- A write of a source in CLK_ALT_CTRL (R50). -/
def execAltSwitch (m : Master) (die : Die) (mux : AltMux) (src : Fin 4) (s : State) : Host.Outcome State Fault Refusal :=
  .next (poke s m die [(altSrc mux, src)])

/-- A write of CLK_ALT_CTRL with FORCE (R50). -/
def execAltForce (m : Master) (die : Die) (mux : AltMux) (src : Fin 4) (s : State) : Host.Outcome State Fault Refusal :=
  .next (poke s m die [(altSrc mux, src), (altForceBit mux, 1)])

/-- A write of CLK_UPLL_CTRLn (R51). -/
def execUpllEnable (m : Master) (die : Die) (n : Fin 8) (v : Word) (s : State) : Host.Outcome State Fault Refusal :=
  .next (put32 s m die (R.CLK_UPLL_CTRL.EN n).off v.toNat)

/-- A write of CLK_MON_CTRL (R54). -/
def execClkMonStart (m : Master) (die : Die) (v : Word) (s : State) : Host.Outcome State Fault Refusal :=
  .next (put32 s m die R.CLK_MON_CTRL.START.off v.toNat)

/-- A write of CFG_CONFIRM (R101). -/
def execConfirm (m : Master) (key : Word) (s : State) : Host.Outcome State Fault Refusal :=
  .next (put32 s m s.head R.CFG_CONFIRM.KEY.off key.toNat)

/-- CFG_CMD VERIFY_SLOT (R88). -/
def execVerifySlot (m : Master) (slot : Fin 4) (s : State) : Host.Outcome State Fault Refusal :=
  .next (poke s m s.head [(R.CFG_CMD.OP, CfgOp.verifySlot), (R.CFG_CMD.SLOT, slot)])

/-- CFG_CMD VERIFY_MEM (R88). -/
def execVerifyMem (m : Master) (s : State) : Host.Outcome State Fault Refusal :=
  .next (poke s m s.head [(R.CFG_CMD.OP, CfgOp.verifyMem)])


/-- CFG_CMD WARM_BUILD (R106). -/
def execWarmBuild (m : Master) (s : State) : Host.Outcome State Fault Refusal :=
  .next (poke s m s.head [(R.CFG_CMD.OP, CfgOp.warmBuild)])

/-- NVC_CMD ERASE (R110). -/
def execNvcErase (m : Master) (s : State) : Host.Outcome State Fault Refusal :=
  .next (poke s m s.head [(R.NVC_CMD.OP, 1)])

/-- NVC_CMD PROGRAM (R111). -/
def execNvcProgram (m : Master) (s : State) : Host.Outcome State Fault Refusal :=
  .next (poke s m s.head [(R.NVC_CMD.OP, 2)])

/-- NVC_CMD BLANK_CHECK (R110). -/
def execNvcBlankCheck (m : Master) (s : State) : Host.Outcome State Fault Refusal :=
  .next (poke s m s.head [(R.NVC_CMD.OP, 3)])

/-- NVC_CMD READ (R110). -/
def execNvcRead (m : Master) (s : State) : Host.Outcome State Fault Refusal :=
  .next (poke s m s.head [(R.NVC_CMD.OP, 4)])

/-- NVC_CMD RESET_FLASH (R110). -/
def execNvcResetFlash (m : Master) (s : State) : Host.Outcome State Fault Refusal :=
  .next (poke s m s.head [(R.NVC_CMD.OP, 5)])

/-- SEC_CMD BB_WRITE (R125). -/
def execBbWrite (m : Master) (s : State) : Host.Outcome State Fault Refusal :=
  .next (secPoke s m 1 0)

/-- SEC_CMD BB_ERASE_OLD (R125). -/
def execBbEraseOld (m : Master) (s : State) : Host.Outcome State Fault Refusal :=
  .next (secPoke s m 2 0)

/-- SEC_CMD FUSE_KEY_PROGRAM (R123). -/
def execFuseKeyProgram (m : Master) (s : State) : Host.Outcome State Fault Refusal :=
  .next (secPoke s m 3 0)

/-- SEC_CMD PKH_PROGRAM (R120). -/
def execPkhProgram (m : Master) (arg : Byte) (s : State) : Host.Outcome State Fault Refusal :=
  .next (secPoke s m 4 arg.toNat)

/-- SEC_CMD PKH_REVOKE (R121). -/
def execPkhRevoke (m : Master) (arg : Byte) (s : State) : Host.Outcome State Fault Refusal :=
  .next (secPoke s m 5 arg.toNat)

/-- SEC_CMD SVN_COMMIT (R122). -/
def execSvnCommit (m : Master) (s : State) : Host.Outcome State Fault Refusal :=
  .next (secPoke s m 6 0)

/-- SEC_CMD POLICY_PROGRAM (R137). -/
def execPolicyProgram (m : Master) (s : State) : Host.Outcome State Fault Refusal :=
  .next (secPoke s m 7 0)

/-- SEC_CMD LC_ADVANCE (R119). -/
def execLcAdvance (m : Master) (arg : Byte) (s : State) : Host.Outcome State Fault Refusal :=
  .next (secPoke s m 8 arg.toNat)

/-- SEC_CMD LOCKDOWN (R137). -/
def execLockdownCmd (m : Master) (s : State) : Host.Outcome State Fault Refusal :=
  .next (secPoke s m 9 0)

/-- A write of SEC_RIGHTS_LOCK (R131). -/
def execRightsLock (m : Master) (s : State) : Host.Outcome State Fault Refusal :=
  .next (poke s m s.head [(R.SEC_RIGHTS_LOCK.LOCK, 1)])

/-- A write of CFG_CAP_CTRL (R161). -/
def execCaptureArm (m : Master) (die : Die) (v : Word) (s : State) : Host.Outcome State Fault Refusal :=
  .next (put32 s m die R.CFG_CAP_CTRL.ARM.off v.toNat)

/-- A write of CFG_CAP_CTRL with ABORT and without ARM (R162). -/
def execCaptureAbort (m : Master) (die : Die) (s : State) : Host.Outcome State Fault Refusal :=
  .next (poke s m die [(R.CFG_CAP_CTRL.ARM, 0), (R.CFG_CAP_CTRL.ABORT, 1)])

/-- A write of CFG_RB_CTRL (R165). -/
def execReadbackStart (m : Master) (die : Die) (v : Word) (s : State) : Host.Outcome State Fault Refusal :=
  .next (put32 s m die R.CFG_RB_CTRL.START.off v.toNat)

/-- A write of FAB_PR_CTRLr with FENCE = 1 (R201). -/
def execFenceClose (m : Master) (die : Die) (region : Fin 32) (mode : Fin 4) (tmo : Fin 4096) (s : State) : Host.Outcome State Fault Refusal :=
  .next (poke s m die [(R.FAB_PR_CTRL.FENCE region, 1), (R.FAB_PR_CTRL.MODE region, mode), (R.FAB_PR_CTRL.TMO region, tmo)])

/-- A write of FAB_PR_CTRLr with FENCE = 0 (R207). -/
def execFenceRelease (m : Master) (die : Die) (region : Fin 32) (s : State) : Host.Outcome State Fault Refusal :=
  .next (poke s m die [(R.FAB_PR_CTRL.FENCE region, 0)])

/-- A write of CFG_SWEEP_CTRL (R211). -/
def execSweepEnable (m : Master) (die : Die) (v : Word) (s : State) : Host.Outcome State Fault Refusal :=
  .next (put32 s m die R.CFG_SWEEP_CTRL.EN.off v.toNat)

/-- A write of SEA_DOORBELLi (R235). -/
def execDoorbell (m : Master) (die : Die) (eng : Fin 48) (s : State) : Host.Outcome State Fault Refusal :=
  .next (poke s m die [(R.SEA_DOORBELL.RING eng, 1)])

/-- A write of SEA_CTRLi.START (R245). -/
def execSeaStart (m : Master) (die : Die) (eng : Fin 48) (s : State) : Host.Outcome State Fault Refusal :=
  .next (poke s m die [(R.SEA_CTRL.START eng, 1)])

/-- A write of SEA_CTRLi.HALT (R245). -/
def execSeaHalt (m : Master) (die : Die) (eng : Fin 48) (s : State) : Host.Outcome State Fault Refusal :=
  .next (poke s m die [(R.SEA_CTRL.HALT eng, 1)])

/-- A write of SEA_CTRLi.MODE (R245). -/
def execSeaMode (m : Master) (die : Die) (eng : Fin 48) (mode : Bool) (s : State) : Host.Outcome State Fault Refusal :=
  .next (poke s m die [(R.SEA_CTRL.MODE eng, mode.toNat)])

/-- A write of DFD_TOKEN (R254). -/
def execTokenWrite (m : Master) (die : Die) (token : DWord) (s : State) : Host.Outcome State Fault Refusal :=
  .next (put64 s m die R.DFD_TOKEN.TOKEN.off token.toNat)

/-- A write of a descriptor word (R252). -/
def execDescriptorWrite (m : Master) (die : Die) (op : Fin 8192) (w : Fin 8) (value : Word) (s : State) : Host.Outcome State Fault Refusal :=
  .next (put32 s m die (R.DFD_OPDESC.WORD op w).off value.toNat)

/-- A 64-bit read of DFD_CQ_POPc (R267). -/
def execCqPop (m : Master) (die : Die) (queue : Fin 4) (s : State) : Host.Outcome State Fault Refusal :=
  .next (accessRead s m die (R.DFD_CQ_POP.VALID queue).off 8)

/-- A write of DFD_CQ_CPLc (R267). -/
def execCqComplete (m : Master) (die : Die) (queue : Fin 4) (status : Fin 4) (ntok : Fin 8) (ticket : BitVec 16) (s : State) : Host.Outcome State Fault Refusal :=
  .next (poke s m die [(R.DFD_CQ_CPL.STATUS queue, status), (R.DFD_CQ_CPL.NTOK queue, ntok), (R.DFD_CQ_CPL.TICKET queue, ticket.toNat)])

/-- A write of DFD_CQ_CFGc.FLUSH (R267). -/
def execCqFlush (m : Master) (die : Die) (queue : Fin 4) (s : State) : Host.Outcome State Fault Refusal :=
  .next (poke s m die [(R.DFD_CQ_CFG.FLUSH queue, 1)])

/-- DFD_CMD MIGRATE_OP (R269). -/
def execMigrateOp (m : Master) (die : Die) (op : BitVec 16) (s : State) : Host.Outcome State Fault Refusal :=
  .next (dfdPoke s m die 1 op.toNat)

/-- DFD_CMD EVACUATE_UNIT (R268). -/
def execEvacuateUnit (m : Master) (die : Die) (unit : BitVec 16) (s : State) : Host.Outcome State Fault Refusal :=
  .next (dfdPoke s m die 2 unit.toNat)

/-- DFD_CMD ABORT_OP (R268). -/
def execAbortOp (m : Master) (die : Die) (op : BitVec 16) (s : State) : Host.Outcome State Fault Refusal :=
  .next (dfdPoke s m die 3 op.toNat)

/-- DFD_CMD ABORT_UNIT (R268). -/
def execAbortUnit (m : Master) (die : Die) (unit : BitVec 16) (s : State) : Host.Outcome State Fault Refusal :=
  .next (dfdPoke s m die 4 unit.toNat)

/-- DFD_CMD CLOSE_EPOCH (R273). -/
def execEpochClose (m : Master) (die : Die) (s : State) : Host.Outcome State Fault Refusal :=
  .next (dfdPoke s m die 5 0)

/-- DFD_CMD ABORT_EPOCH (R275). -/
def execEpochAbort (m : Master) (die : Die) (s : State) : Host.Outcome State Fault Refusal :=
  .next (dfdPoke s m die 6 0)

/-- A write of DFD_CTRL.ENABLE (R276). -/
def execDfdEnable (m : Master) (die : Die) (enable : Bool) (s : State) : Host.Outcome State Fault Refusal :=
  .next (poke s m die [(R.DFD_CTRL.ENABLE, enable.toNat)])

/-- A write of BNK_CTRLb.OWNER (R284). -/
def execOwnerChange (m : Master) (die : Die) (bank : Fin 8) (owner : BitVec 13) (s : State) : Host.Outcome State Fault Refusal :=
  .next (poke s m die [(R.BNK_CTRL.OWNER bank, owner.toNat)])

/-- A write of BNK_CTRLb.POWER (R287). -/
def execBankPowerRequest (m : Master) (die : Die) (bank : Fin 8) (power : Fin 4) (s : State) : Host.Outcome State Fault Refusal :=
  .next (poke s m die [(R.BNK_CTRL.POWER bank, power)])

/-- A write of BNK_CTRLb.WIPE (R291). -/
def execBankWipe (m : Master) (die : Die) (bank : Fin 8) (s : State) : Host.Outcome State Fault Refusal :=
  .next (poke s m die [(R.BNK_CTRL.WIPE bank, 1)])

/-- A write of BNK_CTRL7.SECURE (R289). -/
def execSecureSet (m : Master) (die : Die) (s : State) : Host.Outcome State Fault Refusal :=
  .next (poke s m die [(R.BNK_CTRL.SECURE 7, 1)])

/-- A read of BNK_ECC_CHK (R298). -/
def execEccChkRead (m : Master) (die : Die) (s : State) : Host.Outcome State Fault Refusal :=
  .next (accessRead s m die R.BNK_ECC_CHK.CHECK.off 4)

/-- A write of BNK_ECC_CHK (R298). -/
def execEccChkWrite (m : Master) (die : Die) (check : Byte) (s : State) : Host.Outcome State Fault Refusal :=
  .next (poke s m die [(R.BNK_ECC_CHK.CHECK, check.toNat)])

/-- A write of RLC_CTRL.FLUSH (R325). -/
def execRlcFlush (m : Master) (die : Die) (s : State) : Host.Outcome State Fault Refusal :=
  .next (poke s m die [(R.RLC_CTRL.FLUSH, 1)])

/-- A write of RLC_ECC_FLIP (R324). -/
def execRlcEccArm (m : Master) (die : Die) (flip : Byte) (s : State) : Host.Outcome State Fault Refusal :=
  .next (poke s m die [(R.RLC_ECC_FLIP.ARM, 1), (R.RLC_ECC_FLIP.FLIP, flip.toNat)])

/-- A write of BDL_TEST (R343). -/
def execBdlTest (m : Master) (die : Die) (arm : Bool) (edge : Fin 4) (module : Fin 8) (count : Fin 16) (s : State) : Host.Outcome State Fault Refusal :=
  .next (poke s m die [(R.BDL_TEST.ARM, arm.toNat), (R.BDL_TEST.COUNT, count), (R.BDL_TEST.EDGE, edge), (R.BDL_TEST.MODULE, module)])

/-- A write of DDR_ECC_FLIP (R348). -/
def execDdrEccFlip (m : Master) (die : Die) (ctl : Fin 2) (v : Word) (s : State) : Host.Outcome State Fault Refusal :=
  .next (put32 s m die (R.DDR_ECC_FLIP.ARM ctl).off v.toNat)

/-- A write of DDR_MAP_CTLk (R350). -/
def execMapSetEnable (m : Master) (die : Die) (set : Fin 8) (v : Word) (s : State) : Host.Outcome State Fault Refusal :=
  .next (put32 s m die (R.DDR_MAP_CTL.EN set).off v.toNat)

/-- MEE_KEY_CMD LOAD_CURRENT (R362). -/
def execLoadCurrent (m : Master) (die : Die) (inst : Fin 2) (keyid : Fin 64) (device : Bool) (s : State) : Host.Outcome State Fault Refusal :=
  .next (meePoke s m die inst 1 keyid 0 device)

/-- MEE_KEY_CMD LOAD_NEXT (R362). -/
def execLoadNext (m : Master) (die : Die) (inst : Fin 2) (keyid : Fin 64) (device : Bool) (s : State) : Host.Outcome State Fault Refusal :=
  .next (meePoke s m die inst 2 keyid 0 device)

/-- MEE_KEY_CMD ABANDON (R362). -/
def execAbandon (m : Master) (die : Die) (inst : Fin 2) (keyid : Fin 64) (device : Bool) (s : State) : Host.Outcome State Fault Refusal :=
  .next (meePoke s m die inst 3 keyid 0 device)

/-- MEE_KEY_CMD REKEY (R364). -/
def execRekey (m : Master) (die : Die) (inst : Fin 2) (keyid : Fin 64) (device : Bool) (s : State) : Host.Outcome State Fault Refusal :=
  .next (meePoke s m die inst 4 keyid 0 device)

/-- MEE_KEY_CMD PROMOTE (R362). -/
def execPromote (m : Master) (die : Die) (inst : Fin 2) (keyid : Fin 64) (device : Bool) (s : State) : Host.Outcome State Fault Refusal :=
  .next (meePoke s m die inst 5 keyid 0 device)

/-- MEE_KEY_CMD CLEAR (R362). -/
def execMeeClear (m : Master) (die : Die) (inst : Fin 2) (keyid : Fin 64) (device : Bool) (s : State) : Host.Outcome State Fault Refusal :=
  .next (meePoke s m die inst 6 keyid 0 device)

/-- MEE_KEY_CMD INIT (R362). -/
def execMeeInit (m : Master) (die : Die) (inst : Fin 2) (keyid : Fin 64) (window : Fin 4) (device : Bool) (s : State) : Host.Outcome State Fault Refusal :=
  .next (meePoke s m die inst 7 keyid window device)

/-- A write of LAN_QPLLAq or LAN_QPLLBq (R369). -/
def execQpllWrite (m : Master) (die : Die) (quad : Fin 8) (pll : Fin 2) (v : DWord) (s : State) : Host.Outcome State Fault Refusal :=
  .next (put64 s m die ((R.LAN_QPLLA.EN quad).off + 8 * pll) v.toNat)

/-- A write of LAN_CTRLn (R377). -/
def execLaneEnable (m : Master) (die : Die) (lane : Fin 32) (v : Word) (s : State) : Host.Outcome State Fault Refusal :=
  .next (put32 s m die (R.LAN_CTRL.ENABLE lane).off v.toNat)

/-- A write of LAN_CTRLn.RESTART (R377). -/
def execLaneRestart (m : Master) (die : Die) (lane : Fin 32) (s : State) : Host.Outcome State Fault Refusal :=
  .next (poke s m die [(R.LAN_CTRL.RESTART lane, 1)])

/-- A write of LAN_ADAPT_CFGn.READAPT (R380). -/
def execReadapt (m : Master) (die : Die) (lane : Fin 32) (s : State) : Host.Outcome State Fault Refusal :=
  .next (poke s m die [(R.LAN_ADAPT_CFG.READAPT lane, 1)])

/-- A write of LAN_EYE_CTRLn (R382). -/
def execEyeScanStart (m : Master) (die : Die) (lane : Fin 32) (v : Word) (s : State) : Host.Outcome State Fault Refusal :=
  .next (put32 s m die (R.LAN_EYE_CTRL.START lane).off v.toNat)

/-- A write of LAN_PAIRn (R384). -/
def execPairBypassWrite (m : Master) (die : Die) (pair : Fin 16) (v : Word) (s : State) : Host.Outcome State Fault Refusal :=
  .next (put32 s m die (R.LAN_PAIR.BYPASS pair).off v.toNat)

/-- A write of LAN_PRBSn (R386). -/
def execPrbsWrite (m : Master) (die : Die) (lane : Fin 32) (v : Word) (s : State) : Host.Outcome State Fault Refusal :=
  .next (put32 s m die (R.LAN_PRBS.GEN lane).off v.toNat)

/-- PEN_L2_CMD READ (R403). -/
def execL2Read (m : Master) (die : Die) (s : State) : Host.Outcome State Fault Refusal :=
  .next (l2Poke s m die 1)

/-- PEN_L2_CMD READ_INDEX (R403). -/
def execL2ReadIndex (m : Master) (die : Die) (index : BitVec 20) (s : State) : Host.Outcome State Fault Refusal :=
  .next (poke s m die [(R.PEN_L2_CMD.OP, 2), (R.PEN_L2_CMD.INDEX, index.toNat)])

/-- PEN_L2_CMD WRITE (R403). -/
def execL2Write (m : Master) (die : Die) (s : State) : Host.Outcome State Fault Refusal :=
  .next (l2Poke s m die 3)

/-- PEN_L2_CMD DELETE (R403). -/
def execL2Delete (m : Master) (die : Die) (s : State) : Host.Outcome State Fault Refusal :=
  .next (l2Poke s m die 4)

/-- PEN_L2_CMD FLUSH_PORT (R403). -/
def execFlushPort (m : Master) (die : Die) (s : State) : Host.Outcome State Fault Refusal :=
  .next (l2Poke s m die 5)

/-- PEN_L2_CMD FLUSH_VLAN (R403). -/
def execFlushVlan (m : Master) (die : Die) (s : State) : Host.Outcome State Fault Refusal :=
  .next (l2Poke s m die 6)

/-- PEN_L2_CMD FLUSH_DYNAMIC (R403). -/
def execFlushDynamic (m : Master) (die : Die) (s : State) : Host.Outcome State Fault Refusal :=
  .next (l2Poke s m die 7)

/-- PEN_VLAN_CMD with WRITE = 0 (R397). -/
def execVlanRead (m : Master) (die : Die) (index : BitVec 20) (s : State) : Host.Outcome State Fault Refusal :=
  .next (poke s m die [(R.PEN_VLAN_CMD.WRITE, 0), (R.PEN_VLAN_CMD.INDEX, index.toNat)])

/-- PEN_VLAN_CMD with WRITE = 1 (R397). -/
def execVlanWrite (m : Master) (die : Die) (index : BitVec 20) (s : State) : Host.Outcome State Fault Refusal :=
  .next (poke s m die [(R.PEN_VLAN_CMD.WRITE, 1), (R.PEN_VLAN_CMD.INDEX, index.toNat)])

/-- PEN_NH_CMD with WRITE = 0 (R407). -/
def execNhRead (m : Master) (die : Die) (index : BitVec 20) (s : State) : Host.Outcome State Fault Refusal :=
  .next (poke s m die [(R.PEN_NH_CMD.WRITE, 0), (R.PEN_NH_CMD.INDEX, index.toNat)])

/-- PEN_NH_CMD with WRITE = 1 (R407). -/
def execNhWrite (m : Master) (die : Die) (index : BitVec 20) (s : State) : Host.Outcome State Fault Refusal :=
  .next (poke s m die [(R.PEN_NH_CMD.WRITE, 1), (R.PEN_NH_CMD.INDEX, index.toNat)])

/-- A write of PEN_RING_TAILr (R415). -/
def execRingTailWrite (m : Master) (die : Die) (ring : Fin 16) (index : Word) (s : State) : Host.Outcome State Fault Refusal :=
  .next (put32 s m die (R.PEN_RING_TAIL.INDEX ring).off index.toNat)

/-- A read of PEN_TS_POP (R417). -/
def execTsPop (m : Master) (die : Die) (size : Nat) (s : State) : Host.Outcome State Fault Refusal :=
  .next (accessRead s m die R.PEN_TS_POP.VALID.off size)

/-- A write of PEN_TIME (R416). -/
def execTimeWrite (m : Master) (die : Die) (v : DWord) (s : State) : Host.Outcome State Fault Refusal :=
  .next (put64 s m die R.PEN_TIME.SEC.off v.toNat)

/-- A write of PEN_TIME_ADJ (R416). -/
def execTimeAdjWrite (m : Master) (die : Die) (v : Word) (s : State) : Host.Outcome State Fault Refusal :=
  .next (put32 s m die R.PEN_TIME_ADJ.VALUE.off v.toNat)

/-- A write of PEN_TIME_STEP (R416). -/
def execTimeStep (m : Master) (die : Die) (v : Word) (s : State) : Host.Outcome State Fault Refusal :=
  .next (put32 s m die R.PEN_TIME_STEP.VALUE.off v.toNat)

/-- A write of PEN_PORT_CFGp (R389). -/
def execPortCfgWrite (m : Master) (die : Die) (lane : Fin 32) (v : Word) (s : State) : Host.Outcome State Fault Refusal :=
  .next (put32 s m die (R.PEN_PORT_CFG.ENABLE lane).off v.toNat)

/-- A write of APC_RELEASE (R422). -/
def execReleaseWrite (m : Master) (die : Die) (cores : BitVec 4) (s : State) : Host.Outcome State Fault Refusal :=
  .next (poke s m die [(R.APC_RELEASE.CORES, cores.toNat)])

/-- A write of MTIME (R425). -/
def execMtimeWrite (m : Master) (die : Die) (v : DWord) (s : State) : Host.Outcome State Fault Refusal :=
  .next (put64 s m die R.APC_MTIME.TIME.off v.toNat)

/-- A read of EVT_CLAIMx (R426). -/
def execClaim (m : Master) (die : Die) (ctx : Fin 8) (s : State) : Host.Outcome State Fault Refusal :=
  .next (accessRead s m die (R.EVT_CLAIM.ID ctx).off 4)

/-- A write of EVT_CLAIMx (R426). -/
def execClaimComplete (m : Master) (die : Die) (ctx : Fin 8) (id : BitVec 10) (s : State) : Host.Outcome State Fault Refusal :=
  .next (poke s m die [(R.EVT_CLAIM.ID ctx, id.toNat)])

/-- Mailbox VERSION (R431). -/
def execVersion (m : Master) (die : Die) (s : State) : Host.Outcome State Fault Refusal :=
  .next (mboxPoke s m die 1)

/-- Mailbox SENSORS (R431). -/
def execSensors (m : Master) (die : Die) (s : State) : Host.Outcome State Fault Refusal :=
  .next (mboxPoke s m die 2)

/-- Mailbox LADDER (R442). -/
def execLadder (m : Master) (die : Die) (s : State) : Host.Outcome State Fault Refusal :=
  .next (mboxPoke s m die 3)

/-- Mailbox THERMAL (R451). -/
def execThermal (m : Master) (die : Die) (s : State) : Host.Outcome State Fault Refusal :=
  .next (mboxPoke s m die 4)

/-- Mailbox SMB_PUBLISH (R431). -/
def execSmbPublish (m : Master) (die : Die) (s : State) : Host.Outcome State Fault Refusal :=
  .next (mboxPoke s m die 5)

/-- Mailbox SMB_FETCH (R431). -/
def execSmbFetch (m : Master) (die : Die) (s : State) : Host.Outcome State Fault Refusal :=
  .next (mboxPoke s m die 6)

/-- Mailbox TAMPER_INFO (R431). -/
def execTamperInfo (m : Master) (die : Die) (s : State) : Host.Outcome State Fault Refusal :=
  .next (mboxPoke s m die 7)

/-- A write of SNT_BEGIN (R436). -/
def execSntBegin (m : Master) (die : Die) (scope : Bool) (s : State) : Host.Outcome State Fault Refusal :=
  .next (poke s m die [(R.SNT_BEGIN.SCOPE, scope.toNat)])

/-- A 32-bit register write while a sentence is open (R437). -/
def execStagedWrite (m : Master) (die : Die) (off : Nat) (v : Word) (s : State) : Host.Outcome State Fault Refusal :=
  .next (put32 s m die off v.toNat)

/-- A write of SNT_COMMIT (R437). -/
def execSntCommit (m : Master) (die : Die) (go : Bool) (s : State) : Host.Outcome State Fault Refusal :=
  .next (poke s m die [(R.SNT_COMMIT.GO, go.toNat)])

/-- A write of SNT_ROLLBACK (R440). -/
def execSntRollback (m : Master) (die : Die) (go : Bool) (s : State) : Host.Outcome State Fault Refusal :=
  .next (poke s m die [(R.SNT_ROLLBACK.GO, go.toNat)])

/-- A write of PWR_CTRL (R442). -/
def execLadderRequest (m : Master) (die : Die) (target : Fin 8) (scope : Bool) (s : State) : Host.Outcome State Fault Refusal :=
  .next (poke s m die [(R.PWR_CTRL.TARGET, target), (R.PWR_CTRL.SCOPE, scope.toNat)])

/-- A write of THM_SPIN_CFG.FAN_RETRY (R449). -/
def execFanRetry (m : Master) (die : Die) (s : State) : Host.Outcome State Fault Refusal :=
  .next (poke s m die [(R.THM_SPIN_CFG.FAN_RETRY, 1)])

/-- A write of MON_CTRLm (R453). -/
def execMonEnable (m : Master) (die : Die) (mon : Fin 16) (v : Word) (s : State) : Host.Outcome State Fault Refusal :=
  .next (put32 s m die (R.MON_CTRL.EN mon).off v.toNat)

end Sys2Proof.Machine
end

