-- ==== Sys2Proof/Machine/Noc.lean ====
section
/-!
DEFINITION. The network (R302 to R316): what each operation of a request does at its target, packets in flight and parked, completion
timeouts and quarantined tags.
-/

namespace Sys2Proof.Machine

/-! ## At the target -/

/-- Every byte of the request is enabled (R194). -/
def wholeBe (q : Req) : Bool :=
  q.be.isEmpty || (List.range (reqWords q)).all (fun i => reqBe q i == reqBe { q with be := [] } i)

/-- A request to control space (R194, R432): the word in its place. -/
def ctrlReq (s : State) (q : Req) (d off : Nat) : State :=
  match ctrlRoute s q.m d with
  | (some x, s) => s.ans x
  | (none, s) =>
    let sh := 8 * (off % 8)
    if inAperture s d off then
      if q.op = .read then apertureRead s off q.size else s.ans (if s.boot.inReset.isSome then .targetError else .accessError)
    else if q.op = .read then
      match regRead s q.m d off q.size with
      | (.ok, v, s) => s.ansData .ok [BitVec.ofNat 64 (v * 2 ^ sh)]
      | (x, _, s) => s.ans x
    else if q.op = .write then
      if bytesDefined s d off q.size && !wholeBe q then s.ans .accessError
      else
        let w := q.data.getD 0 ⟨0, false⟩
        regWrite writeSntCommit s q.m d off q.size (w.v.toNat / 2 ^ sh) w.p
    else s.ans .targetError

/-- A request to a window that logic in a fabric serves, from a master whose answer no command brings: the fabric's response and its data
are free values (R196). -/
def fabricReq (s : State) (q : Req) (d p : Nat) : State :=
  match routeTo s (s.dieOfRid q.m.rid) d with
  | (some x, s) => s.ans x
  | (none, s) =>
    if s.held d Blk.gsr ∨ portFenced s d p then s.ans .targetError
    else
      let (e, s) := s.free 1
      if e = 1 then s.ans .targetError
      else
        let (ws, s) := freeWords s (if q.op = .read then reqWords q else 0)
        { s with reply := ⟨.ok, ws⟩ }

/-- A cache's request for a line, for reading or with ownership (R309, R319): the line's words. -/
def fillReq (s : State) (q : Req) (unique : Bool) : State :=
  let d := s.dieOfRid q.m.rid
  let line := q.addr.toNat / 64 % 2 ^ 48
  let x : Resp × State :=
    if copySt s d line = 0 then fill s d q.m line unique
    else if unique ∧ copySt s d line = 1 then upgrade s d q.m line
    else (.ok, s)
  match x with
  | (.ok, s) =>
    match cohRead s d q.m line 0 8 with
    | (.ok, ws, s) => { s with reply := ⟨.ok, ws⟩ }
    | (r, _, s) => s.ans r
  | (r, s) => s.ans r

/-- What a cache does to a line it holds. -/
def lineReq (s : State) (q : Req) : State :=
  let d := s.dieOfRid q.m.rid
  let line := q.addr.toNat / 64 % 2 ^ 48
  match q.op with
  | .upgrade => if copySt s d line = 1 then answered (upgrade s d q.m line) else s.ans .ok
  | .writeback => (if copySt s d line = 3 then evictCopy s d line else s).ans .ok
  | .evict => (if copySt s d line = 1 ∨ copySt s d line = 2 then evictCopy s d line else s).ans .ok
  | .clean => (cleanCopy s d line 2).ans .ok
  | _ => (recallLine s line).ans .ok

/-- A request to cacheable space. -/
def cacheReq (s : State) (q : Req) : State :=
  match q.op with
  | .read => memReadReq s q
  | .write => memWriteReq s q
  | .atomicAdd => bankAtomic s q
  | .atomicSwap => bankAtomic s q
  | .atomicCas => bankAtomic s q
  | .readShared => fillReq s q false
  | .readUnique => fillReq s q true
  | .reserved => s.ans .targetError
  | _ => lineReq s q

/-- Serve a request at its target and answer it (R309, R310). -/
def served (s : State) (q : Req) : State :=
  if s.debugShut q.m then s.ans .accessError
  else match decodeAddr s q.m (s.dieOfRid q.m.rid) q.addr.toNat with
  | .none => s.ans .decodeError
  | .ctrl d off => ctrlReq s q d off
  | .se d i off => if q.op = .read ∨ q.op = .write then seMemReq s q d i off else s.ans .targetError
  | .fabric d p _ => if q.op = .read ∨ q.op = .write then fabricReq s q d p else s.ans .targetError
  | .comp w _ =>
    if w = 1 then cacheReq s q
    else if q.op = .read ∨ q.op = .write then companionAns s q.m (if q.op = .read then reqWords q else 0) else s.ans .targetError
  | .bank _ _ _ => cacheReq s q
  | .dram _ _ _ => cacheReq s q

/-- Perform a request at its target; its master sees the answer. -/
def perform (s : State) (q : Req) : State := (served s q).coreSees q.m (opStores q.op) q.addr.toNat

/-- A write of words at an 8-byte boundary by a master of the device: the response, and the state after. -/
def sendWrite (s : State) (m : Master) (addr : Nat) (ws : List MWord) : Resp × State :=
  let t := perform s ⟨m, 0, .write, BitVec.ofNat 64 addr, 8 * ws.length, ws, []⟩
  (t.reply.resp, t)

/-- A read of words at an 8-byte boundary. -/
def sendRead (s : State) (m : Master) (addr n : Nat) : Resp × List MWord × State :=
  let t := perform s ⟨m, 0, .read, BitVec.ofNat 64 addr, 8 * n, [], []⟩
  (t.reply.resp, t.reply.data, t)

/-! ## Packets (R312, R313) -/

/-- The node that a target's packets go to (R302). -/
def targetNode (s : State) : Target → Nat
  | .ctrl d _ => s.node d 1 7
  | .bank d b _ => s.node d 0 b
  | .se d i _ => s.seRid d i / 8
  | .fabric d p _ => s.nocpRid d p / 8
  | .comp w off => if w = 0 then s.node 7 1 7 else s.node 7 0 (if w = 1 then off / 0x400000 % 8 else 0)
  | .dram ch _ _ => s.node (chDie ch) 5 (if chCtl ch = 0 then 2 else 5)
  | .none => 0

/-- A request is injected at its router, which refuses it at once or sends it on the virtual channel of its destination's state. -/
def execPacketInject (req : Req) (s : State) : Host.Outcome State Fault Refusal :=
  let r := s.dieOfRid req.m.rid
  .next (if s.present r ∧ (s.netOf req.m.rid req.tag).isNone then
    s.ifIssued req (fun s =>
      match reqDie s req with
      | none => (s.ans .decodeError).coreSees req.m (opStores req.op) req.addr.toNat
      | some d =>
        match routeTo s r d with
        | (some x, t) => (t.ans x).coreSees req.m (opStores req.op) req.addr.toNat
        | (none, _) => s.sendNet req req.tag (.flying (if s.belowRun d then 1 else 0)))
  else s)

/-- A packet reaches a domain that is not in RUN: it is parked and wakes it, or finds it in FULL_STOP. -/
def execPacketPark (rid : Nat) (tag : Fin 512) (s : State) : Host.Outcome State Fault Refusal :=
  .next (match s.netOf rid tag with
    | none => s
    | some r =>
      match r.place, reqDie s r.req with
      | .flying _, some d =>
        if s.fullStopped d then
          ((s.putNet rid tag none).inc (s.dieOfRid rid) R.NOC_CNT_DOWN.COUNT 1).ans .domainDown
        else if s.running d then s
        else (packetWake s d).setNet rid tag (some { r with place := .parked })
      | _, _ => s)

/-- A completion reaches a quarantined tag (R315): it is discarded. -/
def lateOne (s : State) (rid tag : Nat) : State :=
  let d := s.dieOfRid rid
  ((s.putNet rid tag none).inc d R.NOC_LATE_CPL.COUNT 1).p d R.NOC_EVT.LATE 1

/-- A request in the network is performed, and its completion delivered; that of a quarantined tag reaches nobody. -/
def completeReq (s : State) (rid tag : Nat) (r : NetReq) : State :=
  if r.quar then { lateOne (perform s r.req) rid tag with reply := s.reply }
  else (perform s r.req).putNet rid tag none

/-- Put a request that waits into a list of them by the order of issue. -/
def bySeq (k : Nat) (r : NetReq) : List (Nat × NetReq) → List (Nat × NetReq)
  | [] => [(k, r)]
  | e :: l => if e.2.seq ≤ r.seq then e :: bySeq k r l else (k, r) :: e :: l

/-- The requests parked for a die, in the order in which they were issued. -/
def parkedList (s : State) (d : Nat) : List (Nat × NetReq) :=
  s.coh.net.foldl (fun l e =>
    match e.2 with
    | some r => if r.place = .parked ∧ reqDie s r.req = some d then bySeq e.1 r l else l
    | none => l) []

/-- A domain that has reached RUN takes what is parked for it; an uncached request that an earlier one of its requester holds back waits
on (R20). -/
def execParkedDelivery (die : Die) (s : State) : Host.Outcome State Fault Refusal :=
  .next (if s.present die ∧ s.running die then
    (parkedList s die).foldl (fun s e =>
      if uncachedWaits s e.2.req (e.1 % 512) then s else completeReq s (e.1 / 512) (e.1 % 512) e.2) s
  else s)

/-- A request to a port's window is shown to the fabric under target tag `g` (R196): the reply's data gives T_RQ_ADDR, its offset in the
window. Until the fabric answers it, it is in the network under its requester's tag. -/
def showTarget (s : State) (q : Req) (d p off g : Nat) : State :=
  match routeTo s (s.dieOfRid q.m.rid) d with
  | (some x, s) => s.ans x
  | (none, s) =>
    let n := s.nport d p
    if s.held d Blk.gsr || portFenced s d p then s.ans .targetError
    else if n.tgt.any (fun t => t.1 == g) then s
    else
      let s := s.setNport d p { n with tgt := n.tgt ++ [(g, q)] }
      let s := if (s.netOf q.m.rid q.tag).isNone then s.sendNet q q.tag (.flying 0) else s
      s.ansData .ok [BitVec.ofNat 64 off]

/-- The lowest free target tag of a port. -/
def freeTarget (s : State) (d p : Nat) : Nat :=
  ((List.range 64).find? (fun g => (s.nport d p).tgt.all (fun t => t.1 != g))).getD 64

/-- The port of the device whose window a request goes to, with the offset there. -/
def targetPort (s : State) (q : Req) : Option (Nat × Nat × Nat) :=
  match decodeAddr s q.m (s.dieOfRid q.m.rid) q.addr.toNat with
  | .fabric d p o => some (d, p, o)
  | .comp _ _ => none
  | .ctrl _ _ => none
  | .bank _ _ _ => none
  | .se _ _ _ => none
  | .dram _ _ _ => none
  | .none => none

/-- A request is served: the one in the network under its tag, once its domain runs, or at once. One to a window of fabric user space is
shown to the fabric, whose answer NOC_TARGET_RESPONSE brings. An uncached request stays in the network while an earlier one of its
requester does (R20). -/
def serveReq (s : State) (q : Req) : State :=
  if uncachedWaits s q q.tag then (if (s.netOf q.m.rid q.tag).isNone then s.sendNet q q.tag (.flying 0) else s)
  else match targetPort s q with
  | some (d, p, o) =>
    if (s.nport d p).tgt.any (fun t => t.2.m.rid == q.m.rid && t.2.tag == q.tag) then s
    else
      match s.netOf q.m.rid q.tag with
      | some r => if r.req = q ∧ r.quar = false ∧ s.running d then showTarget s q d p o (freeTarget s d p) else s
      | none => showTarget s q d p o (freeTarget s d p)
  | none =>
  match s.netOf q.m.rid q.tag with
  | some r =>
    let runs : Bool := match reqDie s q with
      | some d => s.running d
      | none => true
    if r.req = q ∧ r.place ≠ .done ∧ r.quar = false ∧ runs then completeReq s q.m.rid q.tag r else s
  | none => perform s q

/-- A read is performed at its target (R309). -/
def execNocRead (req : Req) (s : State) : Host.Outcome State Fault Refusal := .next (if req.op = .read then s.ifIssued req (serveReq · req) else s)

/-- A write is performed at its target (R309). -/
def execNocWrite (req : Req) (s : State) : Host.Outcome State Fault Refusal := .next (if req.op = .write then s.ifIssued req (serveReq · req) else s)

/-! ## Timeouts (R314, R315) -/

/-- A request has not completed within TMO: its master receives TIMEOUT and its tag is quarantined. A packet that is still in the network may
yet be performed. -/
def timeoutReq (s : State) (rid tag : Nat) (r : NetReq) : State :=
  let d := s.dieOfRid rid
  let s := (s.inc d R.NOC_CNT_TMO.COUNT 1).p d R.NOC_EVT.TIMEOUT 1
  let s := if s.on d R.NOC_TMO_LOG.VALID then s
    else
      let s := ((s.p d R.NOC_TMO_LOG.VALID 1).p d R.NOC_TMO_LOG.OP r.req.op.code).p d R.NOC_TMO_LOG.RID rid
      (s.p d R.NOC_TMO_LOG.TAG tag).p d R.NOC_TMO_LOG.DEST
        (targetNode s (decodeAddr s r.req.m d r.req.addr.toNat))
  s.putNet rid tag (some { r with quar := true })

def execCompletionTimeout (rid : Nat) (tag : Fin 512) (s : State) : Host.Outcome State Fault Refusal :=
  .next (match s.netOf rid tag with
    | some r =>
      if r.place ≠ .done ∧ r.quar = false then
        ((timeoutReq s rid tag r).ans .timeout).coreSees r.req.m (opStores r.req.op) r.req.addr.toNat
      else s
    | none => s)

/-- The late completion of a quarantined tag arrives; a parked packet has none before its domain runs. -/
def execLateCompletion (rid : Nat) (tag : Fin 512) (s : State) : Host.Outcome State Fault Refusal :=
  .next (match s.netOf rid tag with
    | some r =>
      let runs : Bool := match reqDie s r.req with
        | some d => s.running d
        | none => true
      if r.quar = false then s
      else if r.place = .done then lateOne s rid tag
      else if runs then completeReq s rid tag r
      else s
    | none => s)

/-- 4 × TMO after injection the tag is free again; whether a packet that never completed was performed is a free value (R310). -/
def execQuarantineExpiry (rid : Nat) (tag : Fin 512) (s : State) : Host.Outcome State Fault Refusal :=
  .next (match s.netOf rid tag with
    | some r =>
      if r.quar then
        let (b, t) := s.free 1
        let t := if r.place ≠ .done ∧ b = 1 then { perform t r.req with reply := s.reply } else t
        t.putNet rid tag none
      else s
    | none => s)

/-- A read of the flash aperture by a master (R114). -/
def execXipRead (m : Master) (off : Fin 0x40000) (size : Nat) (s : State) : Host.Outcome State Fault Refusal :=
  .next (match ctrlRoute s m s.head with
    | (some x, s) => s.ans x
    | (none, s) => if s.boot.inReset.isSome then s.ans .targetError else xipRead s off size)

/-- A suspended flash operation resumes (R115). -/
def execNvcResume (s : State) : Host.Outcome State Fault Refusal :=
  .next (if s.nvcState = NvcState.suspended then s.p s.head R.NVC_STATUS.STATE NvcState.busy else s)

end Sys2Proof.Machine
end

