-- ==== Sys2Proof/Machine/FabricPorts.lean ====
section
/-!
DEFINITION. The fabric NoC ports (R192 to R197): master requests with their write beats, and the target side; and the end of a bank's
handover (R285).
-/

namespace Sys2Proof.Machine

/-! ## The master side (R193 to R195) -/

/-- The region of a port has its fence closed. -/
def portClosed (s : State) (d p : Nat) : Bool := (List.range 32).any (fun r => s.bit d (R.FAB_PR_NOCP.PORTS r) p && s.regionFenced d r)

/-- A port's handshakes run: its fabric clock does (R150, R192). -/
def portRuns (s : State) (d p : Nat) : Bool :=
  s.present d && s.running d && portClk s d p && !s.held d Blk.gsr && !portClosed s d p

/-- Responses that waited in the port for its clock have been delivered (R197). -/
def portDeliver (s : State) (d p : Nat) : State :=
  let n := s.nport d p
  if n.reqs.any (fun q => q.ready) then s.setNport d p { n with reqs := n.reqs.filter (fun q => !q.ready) } else s

/-- The response of a fabric request: the word before its data is N_RD_TAG or N_WR_TAG; the beats follow, the last with LAST (R193). -/
def portAnswer (s : State) (x : NpReq) : State :=
  { s with reply := ⟨s.reply.resp, ⟨BitVec.ofNat 64 x.ftag, false⟩ :: s.reply.data⟩ }

def portMaster (s : State) (d p : Nat) : Master := ⟨.fab, s.nocpRid d p⟩

/-- The lowest free internal tag of a port (R195). -/
def freeItag (s : State) (d p : Nat) : Option Nat :=
  (List.range 512).find? (fun t => (s.netOf (s.nocpRid d p) t).isNone && (s.nport d p).reqs.all (fun q => q.itag != t))

/-- The operation that N_RQ_OP names. -/
def portOp (op : Nat) : NocOp :=
  match op with
  | 0 => .read | 1 => .write | 2 => .atomicAdd | 3 => .atomicSwap | 4 => .atomicCas | 5 => .readUnique | 6 => .clean
  | _ => .cleanInval

/-- A port's request whose data is complete goes out: one to a domain in RUN is answered, one that wakes its domain is parked
under its internal tag. -/
def portSend (s : State) (d p : Nat) (x : NpReq) : State :=
  let n := s.nport d p
  let s := s.setNport d p { n with reqs := n.reqs.filter (fun q => q.itag != x.itag) }
  match reqDie s x.req with
  | none => portAnswer (s.ans .decodeError) x
  | some t =>
    match routeTo s d t with
    | (some r, s) => portAnswer (s.ans r) x
    | (none, s') =>
      if s.belowRun t then
        let n := s'.nport d p
        (s'.setNport d p { n with reqs := n.reqs ++ [{ x with beats := 0 }] }).sendNet x.req x.itag .parked
      else if uncachedWaits s x.req x.itag then
        (s.setNport d p { n with reqs := (s.nport d p).reqs ++ [{ x with beats := 0 }] }).sendNet x.req x.itag (.flying 0)
      else portAnswer (perform s x.req) x

/-- What R194 asks of a burst is broken: 2 beats or more from an address that is not 64-byte aligned, or across a 4 KiB boundary; an
atomic of more than one beat. Such a request is answered with TARGET_ERROR and has no effect (notes/assumptions/56.md). -/
def burstBad (x : NpReq) (op beats : Nat) : Bool :=
  let a := x.req.addr.toNat
  decide (2 ≤ beats) && (decide (2 ≤ op ∧ op ≤ 4) || a % 64 != 0 || a / 4096 != (a + 64 * beats - 1) / 4096)

/-- A request transfers on a port (R193, R194). A read of control space takes the aligned 8 bytes, or 4, at its address. -/
def execNocPortRequest (die : Die) (port : Fin 32) (op : Fin 8) (addr : DWord) (len : Fin 64) (size : Bool) (tag : Fin 256)
    (s : State) : Host.Outcome State Fault Refusal :=
  let s := if portRuns s die port then portDeliver s die port else s
  .next (if portRuns s die port ∧ portFenced s die port = false ∧ (s.nport die port).reqs.all (fun q => q.ftag != tag.val || q.quar) then
    match freeItag s die port with
    | none => s
    | some t =>
      let o := portOp op
      let a := addr.toNat
      let beats := len.val + 1
      let ctrl : Bool := match decodeAddr s (portMaster s die port) die a with
        | .ctrl _ _ => true
        | _ => false
      let bytes :=
        if 2 ≤ op.val ∧ op.val ≤ 4 then (if size then 8 else 4)
        else if 2 ≤ beats ∨ op.val = 1 then 64 * beats
        else if ctrl then (if a % 8 = 0 then 8 else 4)
        else 64 - a % 64
      let x : NpReq := ⟨tag, t, ⟨portMaster s die port, ⟨t % 512, Nat.mod_lt _ (by decide)⟩, o, addr, bytes, [], []⟩, 0, false, false⟩
      if 5 ≤ op.val ∧ 16 ≤ port.val then portAnswer (s.ans .accessError) x
      else if burstBad x op.val beats then portAnswer (s.ans .targetError) x
      else if 1 ≤ op.val ∧ op.val ≤ 4 then
        let n := s.nport die port
        s.setNport die port { n with reqs := n.reqs ++ [{ x with beats := beats }] }
      else portSend s die port x
  else s)

/-- The lowest of the bytes a beat enables, and their number if they are contiguous, else 0. -/
def beSpan (be : DWord) : Nat × Nat :=
  let l := bitsOf 64 be.toNat
  match l with
  | [] => (0, 0)
  | b :: _ => (b, if l = (List.range l.length).map (b + ·) then l.length else 0)

/-- The eight words of a beat. -/
def beatWords (data : BitVec 512) (poison : Byte) : List MWord :=
  (List.range 8).map (fun i => ⟨(data >>> (64 * i)).truncate 64, poison.getLsbD i⟩)

/-- A request with its last beat: control space takes the bytes that BE selects, an atomic its operand from those lanes, and any other
write its words with their byte enables. -/
def finishBeat (s : State) (d : Nat) (x : NpReq) (data : BitVec 512) (be : DWord) : NpReq :=
  let q := x.req
  let (b, n) := beSpan be
  let base := q.addr.toNat / 64 * 64
  if q.op = .write then
    match decodeAddr s q.m d q.addr.toNat with
    | .ctrl _ _ =>
      if x.req.data.length = 8 then
        { x with req := { q with
            addr := BitVec.ofNat 64 (base + b), size := if n = 0 then 1 else n
            data := (q.data.drop (b / 8)).take 1, be := [] } }
      else x
    | _ => { x with req := { q with addr := BitVec.ofNat 64 base } }
  else
    let w := 8 * q.size
    let lane (k : Nat) : DWord := ((data >>> (8 * k)).truncate 64) &&& BitVec.ofNat 64 (2 ^ w - 1)
    let bad (k : Nat) : Bool := match q.data[k / 8]? with
      | some w => w.p
      | none => false
    { x with req := { q with data := [⟨lane b, bad b⟩, ⟨lane (b + q.size), bad (b + q.size)⟩], be := [] } }

/-- A write-data beat transfers (R193): it belongs to the oldest request that waits for one. -/
def execNocPortWriteBeat (die : Die) (port : Fin 32) (data : BitVec 512) (be : DWord) (poison : Byte) (last : Bool) (s : State) :
    Host.Outcome State Fault Refusal :=
  let s := if portRuns s die port then portDeliver s die port else s
  .next (if portRuns s die port then
    let n := s.nport die port
    match n.reqs.find? (fun q => decide (0 < q.beats)) with
    | none => s
    | some x =>
      let bes := (List.range 8).map (fun i => (be >>> (8 * i)).truncate 8)
      let x := { x with
        req := { x.req with data := x.req.data ++ beatWords data poison, be := x.req.be ++ bes }
        beats := if last then 0 else x.beats - 1 }
      if 0 < x.beats then
        s.setNport die port { n with reqs := n.reqs.map (fun q => if q.itag = x.itag then x else q) }
      else portSend s die port (finishBeat s die x data be)
  else s)

/-! ## The target side (R196) -/

/-- A request to a port's window: shown to the fabric under a target tag, or refused. -/
def execNocTargetRequest (die : Die) (port : Fin 32) (tag : Fin 64) (req : Req) (s : State) : Host.Outcome State Fault Refusal :=
  .next (match targetPort s req with
    | some (d, p, o) =>
      let free : Bool := match s.netOf req.m.rid req.tag with
        | some r => r.req == req && r.place != .done && !r.quar
        | none => true
      if d = die.val ∧ p = port.val ∧ free ∧ uncachedWaits s req req.tag = false then showTarget s req d p o tag else s
    | none => s)

/-- The fabric answers a request: the response goes to the requester; after the requester's timeout it is discarded (R196). -/
def execNocTargetResponse (die : Die) (port : Fin 32) (tag : Fin 64) (resp : Resp) (data : List MWord) (s : State) :
    Host.Outcome State Fault Refusal :=
  .next (if portRuns s die port then
    let n := s.nport die port
    match n.tgt.find? (fun t => t.1 == tag.val) with
    | none => s
    | some (_, q) =>
      let s := s.setNport die port { n with tgt := n.tgt.filter (fun t => t.1 != tag.val) }
      let answer (s : State) : State :=
        { s with reply := ⟨resp, if resp = .ok ∧ q.op = .read then (List.range (reqWords q)).map (fun k => data.getD k ⟨0, false⟩) else []⟩ }
      match s.netOf q.m.rid q.tag with
      | some r =>
        if r.req ≠ q then s
        else if r.quar then lateOne s q.m.rid q.tag
        else answer (s.putNet q.m.rid q.tag none)
      | none => s
  else s)

/-! ## Handover (R285) -/

/-- The steps of an accepted change of OWNER are done, a secure bank's wipe among them. -/
def execHandoverComplete (die : Die) (bank : Fin 8) (s : State) : Host.Outcome State Fault Refusal :=
  .next (if s.present die ∧ s.on die (R.BNK_STATUS.HANDOVER_PENDING bank) ∧ s.on die (R.BNK_STATUS.WIPING bank) = false then
    handoverEnd s die bank else s)

end Sys2Proof.Machine
end

