-- ==== Sys2Proof/Machine/Startup.lean ====
section
/-!
DEFINITION. Start-up (R56 to R73, R80, R98 to R100, R109) and the wake-up sequence (R74 to R77): the phases, the configuration pins, the
slots in turn, and the steps.
-/

namespace Sys2Proof.Machine

/-! ## Power, brown-out and the PROG_N pin (R56, R57, R72) -/

/-- A rail under its threshold (R56, R57): VCC_AUX falling asserts power-on reset and puts the battery domain into Vault (R447); another
rail keeps a power-on reset that has not released. -/
def execPowerOnReset (rail : Rail) (s : State) : Host.Outcome State Fault Refusal :=
  .next (if rail = .aux then
    (raiseReset s .power 1 0 0).setSec { (raiseReset s .power 1 0 0).sec with vault := true }
  else s)

/-- A device in RETURNED or SCRAPPED whose KEY_KILL is unblown blows it and zeroises BBRAM (R119). -/
def killAtPowerOn (s : State) : State :=
  if (s.lc = Lc.returned ∨ s.lc = Lc.scrapped) ∧ s.sec.fuses.kill = false then
    s.setSec { s.sec with fuses := { s.sec.fuses with kill := true }, bb0 := .zero, bb1 := .zero }
  else s

/-- Every rail has been good for 4 ms: power-on reset releases and HOUSEKEEP begins (R56, R66). A PROG_N pin that is still low is then a
pin reset. -/
def execPorRelease (straps : Straps) (s : State) : Host.Outcome State Fault Refusal :=
  .next (if s.boot.inReset = some .power then
    let s := { s with boot := { s.boot with inReset := none, straps := straps } }
    let s := s.setSec { s.sec with vault := false, lostTold := false }
    let s := s.onDies (fun s d =>
      let s := showGrade (dieShow s d) d
      if d = s.head then s else (s.p d R.CLK_REF_CTRL.SEL 4).p d R.CLK_REF_STATUS.CUR 4)
    let s := blankLanes s
    let s := noteFuseFail (bbCheck (killAtPowerOn s))
    let s := (s.onDies startAcquire).setPhase Phase.housekeep
    if s.on s.head R.SYS_BOOT_STATUS.PROG_N_PIN then s else raiseReset s .reconfig 6 s.head 0
  else s)

/-- A brown-out that a die's comparators find (R57, R58, R61). -/
def execBrownOut (rail : Rail) (s : State) (die : Die := 0) : Host.Outcome State Fault Refusal :=
  .next (if rail = .aux ∨ s.present die = false then s else raiseReset s .device 2 die rail.num)

/-- PROG_N has been low for 1 µs (R72): a pin reset, except in Lockdown. -/
def execProgNLow (s : State) : Host.Outcome State Fault Refusal :=
  let s := s.pAll R.SYS_BOOT_STATUS.PROG_N_PIN 0
  .next (if s.boot.lockdown then s else raiseReset s .reconfig 6 s.head 0)

/-- PROG_N rises: start-up resumes at HOUSEKEEP (R72). -/
def execProgNRise (s : State) : Host.Outcome State Fault Refusal :=
  let s := s.pAll R.SYS_BOOT_STATUS.PROG_N_PIN 1
  .next (if s.boot.inReset = some .reconfig then { s with boot := { s.boot with inReset := none } } else s)

/-! ## Arriving in RUN (R445) -/

/-- A die is in RUN after a ladder exit; a cause of BLOCKS scope that waited for it takes effect (R63), then a latched request. -/
def arrive (s : State) (d : Nat) : State :=
  let l := s.ladOf d
  let s := ((s.p d R.PWR_STATUS.STATE Ladder.run).p d R.PWR_STATUS.PHASE LPhase.steady).p d R.PWR_EVT.WAKE 1
  let s := s.setLad d { l with goal := Ladder.run, drained := false, trip := false, timer := false }
  ladSettle (if l.later = 0 then s else holdMask s d l.later) d

/-- The dies that leave FULL_STOP arrive (R445). -/
def arriveFullStop (s : State) : State :=
  (s.dies.filter (fun d => ladState s d == Ladder.fullStop && ladPhase s d == LPhase.exiting)).foldl arrive s

/-! ## The slots (R70, R98 to R100) -/

/-- MODE selects flash (R71). -/
def flashMode (s : State) : Bool := decide (s.g s.head R.SYS_BOOT_STATUS.MODE < 2)

/-- No slot could be loaded (R100): the device stays in NO_IMAGE, INIT_N low. -/
def noImage (s : State) : State :=
  let s := ((s.setParse .reset).setPhase Phase.noImage).pAll R.SYS_BOOT_STATUS.INIT_N_PIN 0
  arriveFullStop (s.pAll R.CFG_LOAD_STATUS.BUSY 0)

/-- The Parser begins to read an image at start-up. -/
def beginImage (s : State) (src : ImgSrc) (code : Nat) : State :=
  let s := (s.setParse { ParseSt.reset with kind := .full, src := src }).setPhase Phase.load
  let s := s.onDies (fun s d =>
    (((s.p d R.CFG_LOAD_STATUS.BUSY 1).p d R.CFG_LOAD_STATUS.SOURCE code).p d R.CFG_LOAD_STATUS.ERROR 0).p d
      (word R.CFG_LOAD_ERR_INFO.SEG.off) 0)
  { s with boot := { s.boot with failed := false } }.pAll R.SYS_BOOT_STATUS.INIT_N_PIN 1

/-- The next slot of the plan, or NO_IMAGE when none is left (R100). -/
def nextSlot (s : State) : State :=
  match s.cfg.flash.plan with
  | some (n :: l) => beginImage (s.setFlash { s.cfg.flash with plan := some l }) (.slot n) (n + 1)
  | some [] => noImage s
  | none => s

/-- CFG_BOOT_LOG takes the result of a slot. -/
def bootLog (s : State) (n err : Nat) : State :=
  s.p s.head (if n = 0 then R.CFG_BOOT_LOG.A_ERR else if n = 1 then R.CFG_BOOT_LOG.B_ERR else R.CFG_BOOT_LOG.G_ERR) err

/-- The error of a load is recorded on every die, with its frame on the die where it arose (R98). -/
def noteLoad (s : State) (err seg : Nat) (at_ : Option (Nat × Nat)) : State :=
  s.onDies (fun s d =>
    let s := ((s.p d R.CFG_LOAD_STATUS.ERROR err).p d R.CFG_LOAD_STATUS.BUSY 0).p d R.CFG_LOAD_ERR_INFO.SEG seg
    s.p d R.CFG_LOAD_ERR_INFO.FRAME (match at_ with
      | some (x, fa) => if x = d then fa else 0
      | none => 0))

/-- A start-up load fails (R98): the error is recorded, the load is undone, and start-up goes through HOUSEKEEP to the next slot. -/
def loadFail (s : State) (src : ImgSrc) (err seg : Nat) (at_ : Option (Nat × Nat)) : State :=
  let s := (noteLoad s err seg at_).pAll R.CFG_LOAD_STATUS.LOADED 0
  let s := if err = Lerr.wakeOrder then s.pAll R.CFG_WAKE_STATUS.ERROR 1 else s
  internalReset (match src with
    | .slot n => bootLog s n err
    | _ => s)

/-! ## Warm loads up to the first read (R108, R109) -/

/-- The channels that the maps of a device use. -/
def mapChannels (s : State) : List Nat :=
  s.channels.filter (fun ch => s.dies.any (fun d => (List.range 8).any (fun k =>
    s.on d (R.DDR_MAP_CTL.EN k) && s.bit d (R.DDR_MAP_CTL.CHMASK k) ch)))

/-- A die's warm access state returns to its registers. -/
def restoreAccess (s : State) (d : Nat) : State :=
  let s := (s.warmOf d).access.foldl (fun s x => s.p d ⟨x.1, 0, if x.1 < 0x480000 then 32 else 64⟩ x.2) s
  s.p d R.DDR_MAP_SUM.CRC (mapSum s d)

/-- A channel leaves self-refresh with the short retraining, from the copied training results. -/
def resumeChannel (s : State) (ch : Nat) : State :=
  s.p (chDie ch) (R.DDR_STATUS.STATE (chCtl ch))
    (if s.trainCopy ch ∧ s.on (chDie ch) (R.DDR_CFG.EN (chCtl ch)) then DdrState.training else DdrState.failed)

/-- A warm load starts: access state and channels return. The Parsers read once every channel has resumed. -/
def warmStart (s : State) : State :=
  let s := s.onDies (fun s d =>
    ((s.p d R.CFG_LOAD_STATUS.BUSY 1).p d R.CFG_LOAD_STATUS.SOURCE 5).p d R.CFG_LOAD_STATUS.ERROR 0)
  let s := s.onDies restoreAccess
  s.each (mapChannels s) resumeChannel

/-! ## The phases (R66 to R71) -/

/-- LOAD begins (R70, R71, R99, R108). -/
def enterLoad (s : State) : State :=
  let s := s.setPhase Phase.load
  if s.boot.warm then warmStart s
  else if flashMode s && s.cfg.flash.plan == some [] then noImage s
  else s

/-- INIT_N is released: INIT_WAIT, which a pass with a sampled mode does not wait in (R70, R99, R445). After a load has failed INIT_N stays
low until the Parser begins to read again. -/
def releaseInit (s : State) : State :=
  if s.boot.modeHeld then enterLoad (if s.boot.failed then s else s.pAll R.SYS_BOOT_STATUS.INIT_N_PIN 1)
  else s.setPhase Phase.initWait

/-- Configuration memory is clear (R66), which needs every root (R67). -/
def execConfigClearDone (s : State) : Host.Outcome State Fault Refusal :=
  .next (if s.phase = Phase.housekeep ∧ s.boot.inReset = none ∧ s.present s.head ∧ s.dies.all (rootRuns s) then
    { s with boot := { s.boot with cleared := true }, sec := { s.sec with respond := false } }
  else s)

/-- T_HOLD of the temperature grade, in 0.1 °C (R69). -/
def tHold (s : State) : Int := if s.dev.grade = .i then -400 else 0

/-- The thermal plant stands at its reset values: its settings, its loop and its fans (R69, R450). -/
def plantReset (s : State) : State :=
  let h := s.head
  let s := resetRange { s with thm := .reset } h R.THM_LOOP_CFG.KP.off (R.THM_HEAT_CFG.HEAT_ON.off + 4)
  let s := (showGrade s h).p h R.THM_STATUS.HEATER 0
  (s.p h (word (R.THM_FAN_STATUS.STATE 0).off) 0).p h (word (R.THM_FAN_STATUS.STATE 1).off) 0

/-- HEATER_HOLD begins: HEATER_EN is high and the fans stand still (R69). -/
def heaterHold (s : State) : State :=
  let s := (s.setPhase Phase.heaterHold).pAll R.SYS_BOOT_STATUS.HEATER_ACTIVE 1
  (plantReset s).p s.head R.THM_STATUS.HEATER 1

/-- HOUSEKEEP ends; `temp` is the head die's temperature in 0.1 °C (R69). -/
def execHousekeepEnd (temp : Int) (s : State) : Host.Outcome State Fault Refusal :=
  .next (if s.phase = Phase.housekeep ∧ s.boot.cleared ∧ s.boot.inReset = none ∧ s.dies.all (rootRuns s) then
    if s.boot.judgeHeat ∧ temp < tHold s then heaterHold s else releaseInit s
  else s)

/-- The head die has been at T_HOLD or above for 1 s: HEATER_EN passes to the thermal plant (R69, R450). -/
def execHeaterHoldEnd (temp : Int) (s : State) : Host.Outcome State Fault Refusal :=
  .next (if s.phase = Phase.heaterHold ∧ s.boot.inReset = none ∧ tHold s ≤ temp then
    releaseInit (plantReset (s.pAll R.SYS_BOOT_STATUS.HEATER_ACTIVE 0))
  else s)

/-- INIT_N reads high: MODE is sampled and LOAD begins (R70, R71). -/
def execInitNHigh (mode : Fin 8) (s : State) : Host.Outcome State Fault Refusal :=
  .next (if s.phase = Phase.initWait ∧ s.boot.inReset = none then
    let s := ((s.pAll R.SYS_BOOT_STATUS.INIT_N_PIN 1).pAll R.SYS_BOOT_STATUS.MODE mode).pAll R.SYS_BOOT_STATUS.MODE_BAD
      (if 3 ≤ mode.val then 1 else 0)
    enterLoad s
  else s)

/-! ## Flash set-up (R80, R81) -/

/-- The devices may be used in a mode (R81). -/
def flashOk (dual : Bool) (a b : Sfdp) : Bool :=
  let m := if dual then 2 else 1
  a.ok && (!dual || a == b) && decide (8192 ≤ a.sector * m ∧ a.sector * m ≤ 524288 ∧ 256 ≤ a.page * m ∧ a.page * m ≤ 1024)
    && a.size != 0

/-- The devices are set up, and the clock moves to the one that the boot record names (R80, R84). -/
def flashTake (s : State) (a b : Sfdp) : State :=
  let s := s.setFlash { s.cfg.flash with dev0 := a, dev1 := b, ready := true }
  let h := s.head
  let s := (s.p h R.NVC_CFG.DUAL (if s.flashDual then 1 else 0)).p h R.NVC_INFO.SECTOR_LOG2 s.flashSector.log2
  (s.p h R.NVC_INFO.PAGE_LOG2 s.flashPage.log2).p h R.NVC_INFO.SIZE_LOG2 s.flashSize.log2

/-- NVC_CFG.FREQ shows the clock: that of the boot record in force, or the 100 MHz of the set-up. -/
def flashClock (s : State) : State :=
  s.p s.head R.NVC_CFG.FREQ (match s.cfg.flash.br with
    | some b => b.freq
    | none => 25)

/-- The boot record in force is read, without a plan: a warm load tries no slot. -/
def readRecord (s : State) : State :=
  match s.bootRecord with
  | none => s
  | some (b, copy) => ((s.setFlash { s.cfg.flash with br := some b }).p s.head R.CFG_BOOT_STATUS.BR_COPY copy).p s.head
      R.CFG_BOOT_SEQ.SEQ b.seq

/-- The flash devices answer the set-up of LOAD or of RESET_FLASH (R80, R110). At LOAD the slots are then tried in turn; with no usable
device no slot can be loaded. `attempt` is false where the ATTEMPT entry cannot be programmed. -/
def execFlashSetup (dev0 dev1 : Sfdp) (s : State) (attempt : Bool := true) : Host.Outcome State Fault Refusal :=
  let good := flashOk s.flashDual dev0 dev1
  .next (if s.phase = Phase.load ∧ s.boot.inReset = none ∧ flashMode s ∧ s.cfg.flash.ready = false then
    if s.boot.warm then (if good then flashClock (readRecord (flashTake s dev0 dev1)) else s)
    else if good then
      let s := flashTake s dev0 dev1
      nextSlot (flashClock (if s.cfg.flash.plan.isSome then s else makePlan s attempt))
    else noImage (s.pAll R.CFG_LOAD_STATUS.ERROR Lerr.flash)
  else if s.cfg.flash.op = NvcOp.resetFlash then
    if good then flashClock (flashTake s dev0 dev1) else s.setFlash { s.cfg.flash with ready := false }
  else s)

/-- JTAG takes an instruction of the debug or programming kind: not while DEPLOYED is locked, in SCRAPPED or in Lockdown (R118, R128,
R135). -/
def jtagOpen (s : State) : Bool :=
  s.lc != Lc.scrapped && !s.boot.lockdown && !(s.lc == Lc.deployed && s.g s.head R.SEC_LC.DBG_LEVEL == 0)

/-- An image arrives over IEEE 1532 programming (R66, R71). -/
def execJtagProgram (image : List Byte) (s : State) : Host.Outcome State Fault Refusal :=
  .next (if jtagOpen s ∧ s.boot.inReset = none ∧ s.cfg.parse.kind = .idle ∧ s.boot.warm = false
      ∧ ((s.phase = Phase.load ∧ flashMode s = false) ∨ s.phase = Phase.noImage) then
    beginImage { s with boot := { s.boot with jtag := some image } } .jtag 4
  else s)

/-! ## The wake-up sequence (R74 to R77) -/

/-- The step code in the slot now to be performed. -/
def wakeCode (s : State) : Nat := fld (s.g s.head R.CFG_WAKE_SEQ.SLOT) (4 * s.g s.head R.CFG_WAKE_STATUS.SLOT) 4

/-- A step of a code is next. -/
def wakeAt (s : State) (code : Nat) : Bool :=
  s.on s.head R.CFG_WAKE_STATUS.ACTIVE && s.boot.inReset.isNone && wakeCode s == code

/-- The sequence starts. -/
def wakeBegin (s : State) : State :=
  (s.setPhase Phase.wake).onDies (fun s d => (s.p d (word R.CFG_WAKE_STATUS.SLOT.off) 0).p d R.CFG_WAKE_STATUS.ACTIVE 1)

/-- A step completes on every die; slot 7 ends the sequence. -/
def wakeStep (s : State) (code : Nat) : State :=
  s.onDies (fun s d =>
    let s := s.setBit d R.CFG_WAKE_STATUS.DONE_STEPS code
    let k := s.g d R.CFG_WAKE_STATUS.SLOT
    if k = 7 then s.p d R.CFG_WAKE_STATUS.ACTIVE 0 else s.p d R.CFG_WAKE_STATUS.SLOT (k + 1))

/-- The LOCK step is satisfied. -/
def wakeLocked (s : State) : Bool :=
  s.dies.all (fun d => rootState s d == Root.locked
    && (List.range 8).all (fun n => !s.on d (R.CLK_UPLL_CTRL.EN n) || s.on d (R.CLK_UPLL_STATUS.LOCK n)))

/-- The LOCK step completes. -/
def execWakeLock (s : State) : Host.Outcome State Fault Refusal :=
  .next (if wakeAt s WStep.lock && wakeLocked s then wakeStep s WStep.lock else s)

/-- LOCK is not satisfied within LOCK_TMO: the image counts as a failed load (R76). -/
def execLockTimeout (s : State) : Host.Outcome State Fault Refusal :=
  .next (if wakeAt s WStep.lock && !wakeLocked s then
    loadFail (s.pAll R.CFG_WAKE_STATUS.ERROR 2) s.cfg.run.src Lerr.lockTimeout 0 none
  else s)

/-- The GOE step: outputs follow the image. -/
def execWakeGoe (s : State) : Host.Outcome State Fault Refusal :=
  .next (if wakeAt s WStep.goe then (wakeStep s WStep.goe).onDies (fun s d => s.setPins d .fabric) else s)

/-- A REG write of the image (R92), as its die's Parser makes it; the reply is that of the write. -/
def imageWrite (s : State) (d off v : Nat) : State :=
  match regOn s d off with
  | none => s.ans .decodeError
  | some r => let sh := 8 * (off - r.off); writeReg s (s.parserMaster d) d r (v * 2 ^ sh) ((2 ^ 32 - 1) * 2 ^ sh)

/-- A die's held REG writes are applied, in stream order (R92). After a warm load they replace the restored settings, which stand where the
image writes none (R109). -/
def applyHeld (s : State) (d : Nat) : State :=
  let l := s.heldOf d
  let go (s : State) : State := l.foldl (fun s x => imageWrite s d x.1 x.2.toNat) s
  let kept := (s.warmOf d).access.filter (fun x => !l.any (fun y => y.1 / 8 == x.1 / 8))
  let t := if s.boot.warm then
      let u := kept.foldl (fun s x => s.p d ⟨x.1, 0, if x.1 < 0x480000 then 32 else 64⟩ x.2) (go (accessBlank s d))
      u.p d R.DDR_MAP_SUM.CRC (mapSum u d)
    else go s
  { t with reply := s.reply }

/-- The GSR step: held writes, then blocks leave the no-image reset, slots stand, and enabled channels train. -/
def execWakeGsr (s : State) : Host.Outcome State Fault Refusal :=
  .next (if wakeAt s WStep.gsr then
    let s := wakeStep (s.onDies applyHeld) WStep.gsr
    s.onDies (fun s d => trainStart (trainStart (restSlots s d) d 0) d 1)
  else s)

/-- The GWE step. -/
def execWakeGwe (s : State) : Host.Outcome State Fault Refusal :=
  .next (if wakeAt s WStep.gwe then wakeStep s WStep.gwe else s)

/-- An enabled channel has not finished training: it trains, or its controller is held (R65, R74). -/
def ddrTraining (s : State) (ch : Nat) : Bool :=
  let st := s.g (chDie ch) (R.DDR_STATUS.STATE (chCtl ch))
  s.on (chDie ch) (R.DDR_CFG.EN (chCtl ch)) && (st == DdrState.training || st == DdrState.off)

/-- The DDRW step completes when every enabled channel has finished training. -/
def execWakeDdrw (s : State) : Host.Outcome State Fault Refusal :=
  .next (if wakeAt s WStep.ddrw && !s.channels.any (ddrTraining s) then wakeStep s WStep.ddrw else s)

/-- DDRW is not satisfied within DDRW_TMO: the sequence goes on, and the untrained channels serve nothing (R76). -/
def execDdrwTimeout (s : State) : Host.Outcome State Fault Refusal :=
  .next (if wakeAt s WStep.ddrw && s.channels.any (ddrTraining s) then
    let s := s.each (s.channels.filter (ddrTraining s)) (fun s ch => s.p (chDie ch) (R.DDR_EVT.TRAIN_FAIL (chCtl ch)) 1)
    wakeStep (s.pAll R.CFG_WAKE_STATUS.ERROR 3) WStep.ddrw
  else s)

/-- The CORE step: released cores start. -/
def execWakeCore (s : State) : Host.Outcome State Fault Refusal :=
  .next (if wakeAt s WStep.core then (wakeStep s WStep.core).onDies startCores else s)

/-- The LANE step (R77). -/
def execWakeLane (s : State) : Host.Outcome State Fault Refusal :=
  .next (if wakeAt s WStep.lane then (wakeStep s WStep.lane).onDies lanesHandOver else s)

/-- A warm build starts after DONE when the running image asks for it (R106). -/
def autoBuild (s : State) : State :=
  match s.runSlot with
  | some n =>
    if s.cfg.run.warm && !s.warmDies.isEmpty && s.cfg.parse.kind == .idle then
      (warmBuildMarks s).setParse { ParseSt.reset with kind := .warmBuild, src := .slot n }
    else s
  | none => s

/-- The DONE step: DONE rises, start-up is complete, and dies that leave FULL_STOP are in RUN (R445). -/
def execWakeDone (s : State) : Host.Outcome State Fault Refusal :=
  .next (if wakeAt s WStep.done then
    let s := ((wakeStep s WStep.done).pAll R.SYS_BOOT_STATUS.DONE_PIN 1).setPhase Phase.running
    autoBuild (arriveFullStop (s.onDies (fun s d => s.pulse d (d * 72 + 3))))
  else s)

/-- An END slot ends the sequence. -/
def execWakeEnd (s : State) : Host.Outcome State Fault Refusal :=
  .next (if wakeAt s 0 then
    s.onDies (fun s d => (s.setBit d R.CFG_WAKE_STATUS.DONE_STEPS 0).p d R.CFG_WAKE_STATUS.ACTIVE 0)
  else s)

end Sys2Proof.Machine
end

