-- ==== Sys2Proof/Machine/Wakeup.lean ====
section
/-!
DEFINITION. Leaving the ladder's states (R445): COMMA and SEMICOLON, the GSR, GWE and CORE steps of COLON, and the start-up of the device
that leaves FULL_STOP.
-/

namespace Sys2Proof.Machine

/-- COLON's GSR step (R445): channels and banks are back, primitives take their initial values, held REG writes are applied again, and
pins, slots, lanes and tables return. -/
def colonGsr (s : State) (d : Nat) : State :=
  let s := applyHeld (setReset (ddrReturn s d) d) d
  let s := lanesFromColon (restSlots s d) d
  let s := (penExit s d).setPins d .fabric
  s.setLad d { s.ladOf d with colon := 1 }

/-- A device that has left FULL_STOP on every die starts up again (R445): its blocks are as after a reset of RECONFIG scope, which is no
cause; MTIME goes on and pins keep their SLEEP values; the warm image is loaded where every die has one (R108). Heater hold and INIT_WAIT are
passed. -/
def fullStopExit (s : State) : State :=
  let lad := s.lad
  let times := s.dies.map (fun d => (d, mtime s d, s.on d R.PWR_STATUS.PEND))
  let mode := s.g s.head R.SYS_BOOT_STATUS.MODE
  let bad := s.g s.head R.SYS_BOOT_STATUS.MODE_BAD
  let warm := s.dies.all (fun d => s.on d R.CFG_WARM_STATUS.VALID)
  let s := { clearDevice s .reconfig with lad := lad }
  let s := times.foldl (fun s x =>
    let d := x.1
    let s := ((s.p d R.PWR_STATUS.STATE Ladder.fullStop).p d R.PWR_STATUS.PHASE LPhase.exiting).p d R.PWR_STATUS.PEND
      (if x.2.2 then 1 else 0)
    let s := ((s.p d R.APC_MTIME.TIME x.2.1).p d R.SYS_BOOT_STATUS.MODE mode).p d R.SYS_BOOT_STATUS.MODE_BAD bad
    startAcquire (s.setPins d .sleep) d) s
  { s with boot := { s.boot with
      cleared := false, judgeHeat := false, jtag := none, modeHeld := true, failed := false, warm := warm, warmReady := false }
  }.setPhase Phase.housekeep

/-- A die's supplies and clocks are back (R445). -/
def execExitComplete (die : Die) (s : State) : Host.Outcome State Fault Refusal :=
  let st := ladState s die
  .next (if s.present die ∧ ladPhase s die = LPhase.exiting ∧ s.boot.inReset = none then
    if st = Ladder.comma then arrive (ddrReturn s die) die
    else if st = Ladder.semicolon then arrive (lanesFromSemicolon (ddrReturn s die) die) die
    else if st = Ladder.colon then (if (s.ladOf die).colon = 0 then colonGsr s die else s)
    else if st = Ladder.fullStop ∧ s.phase ≠ Phase.housekeep ∧ s.dies.all (fun d => ladState s d == Ladder.fullStop
        && ladPhase s d == LPhase.exiting && rootState s d == Root.off) then fullStopExit s
    else s
  else s)

/-- One GAP after the GSR step of a COLON exit the die is in RUN (R445). -/
def execColonGweStep (die : Die) (s : State) : Host.Outcome State Fault Refusal :=
  .next (if (s.ladOf die).colon = 1 ∧ ladPhase s die = LPhase.exiting then
    arrive (s.setLad die { s.ladOf die with colon := 2 }) die
  else s)

/-- One GAP after GWE its released cores start (R445). -/
def execColonCoreStep (die : Die) (s : State) : Host.Outcome State Fault Refusal :=
  .next (if (s.ladOf die).colon = 2 then
    let s := s.setLad die { s.ladOf die with colon := 0 }
    if ladState s die < Ladder.colon then startCores s die else s
  else s)

end Sys2Proof.Machine
end

