-- ==== Sys2Proof/Machine/Mailbox.lean ====
section
/-!
DEFINITION. The services of the management controllers' mailboxes (R431, R442, R449).
-/

namespace Sys2Proof.Machine

/-- The RESULT codes of the mailbox. -/
def Mres.ok : Nat := 0
def Mres.badCmd : Nat := 1
def Mres.badArg : Nat := 2
def Mres.busy : Nat := 3
def Mres.denied : Nat := 4

/-- Argument word `i`. -/
def mboxArg (s : State) (d i : Nat) : Nat := s.g d (R.SYS_MBOX_DATA.DATA i)

/-- Result words, word 0 first. -/
def mboxWords (s : State) (d : Nat) (ws : List Nat) : State :=
  ws.zipIdx.foldl (fun s x => s.p d (R.SYS_MBOX_DATA.DATA x.2) x.1) s

/-- SENSORS: the die temperature, sign-extended, and the rails. -/
def svcSensors (s : State) (d : Nat) : State :=
  mboxWords s d (wrapNat 32 (dieTemp s d) :: (List.range 6).map (fun n => s.g d (R.THM_VOLT.MV n)))

/-- LADDER: the request of R442, and the state the die stands in. -/
def svcLadder (s : State) (d : Nat) : Nat × State :=
  let t := mboxArg s d 0
  let scope := mboxArg s d 1
  if 1 < scope ∨ ladOk s d t (scope == 1) = false then (Mres.badArg, s)
  else if ladConflict s d t (scope == 1) then (Mres.busy, s)
  else
    let s := ladRequest s d t (scope == 1)
    (Mres.ok, mboxWords s d [ladState s d])

/-- THERMAL. -/
def svcThermal (s : State) (d : Nat) : State :=
  let h := s.head
  let fan (n : Nat) : Nat × Nat := (s.g h (R.THM_FAN_STATUS.DUTY n), s.g h (R.THM_FAN_STATUS.RPM n))
  mboxWords s d [wrapNat 32 (plantT s), (fan 0).1, (fan 1).1, (fan 0).2, (fan 1).2,
    s.g h R.THM_STATUS.HEATER + 16 * fanState s 0 + 256 * fanState s 1]

/-- The words of SMB_PUBLISH become readable by the SMBus host. -/
def svcPublish (s : State) (d : Nat) : State :=
  { s with smbPub := (List.range 8).map (fun i => BitVec.ofNat 32 (mboxArg s d i)) }

/-- SMB_FETCH: the words the host last wrote, 0 before it has written any. -/
def svcFetch (s : State) (d : Nat) : State := mboxWords s d ((List.range 8).map (fun i => (s.smbHost.getD i 0).toNat))

/-- TAMPER_INFO: the log, and its age, which is a free value. -/
def svcTamper (s : State) (d : Nat) : Nat × State :=
  if d = s.head then
    let (age, s) := s.free 32
    (Mres.ok, mboxWords s d [s.g d (word R.SEC_TAMPER_LOG.SOURCES.off), age.toNat])
  else (Mres.denied, s)

/-- Run a service: its result and the state after. -/
def service (s : State) (d cmd : Nat) : Nat × State :=
  if s.sec.erasing then (Mres.busy, s)
  else match cmd with
    | 1 => (Mres.ok, mboxWords s d [Config.romVersion.toNat, Config.romBuild.toNat])
    | 2 => (Mres.ok, svcSensors s d)
    | 3 => svcLadder s d
    | 4 => (Mres.ok, svcThermal s d)
    | 5 => (Mres.ok, svcPublish s d)
    | 6 => (Mres.ok, svcFetch s d)
    | 7 => svcTamper s d
    | _ => (Mres.badCmd, s)

/-- A service ends (R431). -/
def execMailboxDone (die : Die) (s : State) : Host.Outcome State Fault Refusal :=
  let d := die.val
  .next (match s.mboxOf d with
    | none => s
    | some cmd =>
      let (res, s) := service s d cmd
      (((s.setMbox d none).p d R.SYS_MBOX_STATUS.RESULT res).p d R.SYS_MBOX_STATUS.BUSY 0).pulse d (d * 72 + 36))

end Sys2Proof.Machine
end

