-- ==== Sys2Proof/Machine/PenSend.lean ====
section
/-!
DEFINITION. What leaves a port engine (R411 to R415): the choice of queue, sending to lane ports, fabric ports, host rings and the trunk, frames
that arrive over the trunk, and host rings.
-/

namespace Sys2Proof.Machine

/-! ## The choice of queue (R411, R413) -/

/-- A queue has a frame to send. -/
def queueReady (s : State) (d e q : Nat) : Bool := !(s.queue d e q).isEmpty && !s.paused d e q

/-- The first queue that strict priority serves: all of them where a destination has no SP_FROM (R413; notes/assumptions/38.md). -/
def spFrom (s : State) (d e : Nat) : Nat := if e < 32 then s.g d (R.PEN_PORT_CFG.SP_FROM e) else 0

/-- The length of the frame in front of a queue. -/
def frontLen (s : State) (d e q : Nat) : Nat := ((s.queue d e q).head?.map (fun f => f.bytes.length)).getD 0

/-- Deficit round-robin over queues 0 to `n` − 1: the queue in turn gets its quantum once a round, and sends while its deficit lasts. -/
def drrPick : Nat → State → Nat → Nat → Nat → Option Nat × State
  | 0, s, _, _, _ => (none, s)
  | k + 1, s, d, e, n =>
    let x := s.drr d e
    let q := x.cur % n
    let next (s : State) : State := s.setDrr d e ⟨(q + 1) % n, false⟩
    if !queueReady s d e q then drrPick k (next (if (s.queue d e q).isEmpty then s.setDeficit d e q 0 else s)) d e n
    else
      let w := s.g d (R.PEN_SCHED.WEIGHT e) / 256 ^ q % 256
      let s := if x.had then s else (s.setDeficit d e q (s.deficit d e q + 256 * w)).setDrr d e ⟨q, true⟩
      let len := frontLen s d e q
      if len ≤ s.deficit d e q then (some q, s.setDeficit d e q (s.deficit d e q - len)) else drrPick k (next s) d e n

/-- The queue that a destination sends from next, and the state with the scheduler stepped. -/
def pickQueue (s : State) (d e : Nat) : Option Nat × State :=
  let n := spFrom s d e
  match ((List.range 8).reverse.filter (fun q => decide (n ≤ q))).find? (queueReady s d e) with
  | some q => (some q, s)
  | none => if (List.range n).any (queueReady s d e) then drrPick 1024 s d e n else (none, s)

/-! ## Long transfers -/

/-- A list in parts of `n`. -/
def partsOf {α : Type} (n : Nat) : Nat → List α → List (List α)
  | 0, _ => []
  | _, [] => []
  | k + 1, l => l.take n :: partsOf n k (l.drop n)

/-- Words written in requests of 64 bytes: the first response that is not OK. -/
def sendMany (s : State) (m : Master) (addr : Nat) (ws : List MWord) : Resp × State :=
  (partsOf 8 ws.length ws).zipIdx.foldl (fun (x : Resp × State) p =>
    let (r, t) := sendWrite x.2 m (addr + 64 * p.2) p.1
    (worse x.1 r, t)) (.ok, s)

/-- `n` words read in at most `k` requests of 64 bytes, until a response is not OK. -/
def readBeats (m : Master) : Nat → State → Nat → Nat → Resp × List MWord × State
  | 0, s, _, _ => (.ok, [], s)
  | k + 1, s, addr, n =>
    match sendRead s m addr (min 8 n) with
    | (.ok, ws, t) =>
      let (r, l, u) := readBeats m k t (addr + 64) (n - 8)
      (r, ws ++ l, u)
    | x => x

/-- `n` words read in requests of 64 bytes, until a response is not OK. -/
def readMany (s : State) (m : Master) (addr n : Nat) : Resp × List MWord × State := readBeats m ((n + 7) / 8) s addr n

/-- Bytes as 64-bit words, padded with zero. -/
def bytesWords (b : List Byte) : List DWord := (partsOf 8 b.length b).map (fun p => BitVec.ofNat 64 (natLE p))

/-! ## Fabric ports (R182, R183, R414) -/

/-- The words of a frame in an ingress FIFO. -/
def ingressWords (d : Nat) (f : Frame) : List FWord :=
  let ps := partsOf 64 (max 1 f.bytes.length) f.bytes
  let ps := if ps.isEmpty then [[]] else ps
  let sop : Nat := codeIndex f.src * 2 ^ 10 + (if codeDie f.src = d then 0 else 2 ^ 15) + f.queue % 8 * 2 ^ 16 + f.ns % 2 ^ 32 * 2 ^ 32
  ps.zipIdx.map (fun x =>
    let last := decide (x.2 + 1 = ps.length)
    let sb := (if x.2 = 0 then 1 + sop else 0) + (if last then 2 + 4 * (64 - x.1.length) % 256 + (if f.err then 2 ^ 8 else 0) else 0)
      + (if f.poison then 2 ^ 9 else 0)
    ⟨BitVec.ofNat 512 (natLE x.1), BitVec.ofNat 64 sb⟩)

/-- A frame enters an ingress FIFO once it has room; behind a closed fence it is dropped (R183, R201). -/
def fabricTx (s : State) (d n : Nat) (f : Frame) : Option State :=
  if pairFenced s d n then some (s.penCnt d 8)
  else
    let x := s.fifo d n
    let ws := ingressWords d f
    if s.held d Blk.gsr || decide (512 < x.words.length + ws.length) then none
    else some (s.setFifo d n { x with words := x.words ++ ws })

/-! ## Host rings (R415) -/

/-- A ring runs: enabled and not stopped. -/
def ringRuns (s : State) (d r : Nat) : Bool := s.on d (R.PEN_RING_CFG.EN r) && !s.on d (R.PEN_RING_STATUS.ERR r)

def ringSize (s : State) (d r : Nat) : Nat := 2 ^ s.g d (R.PEN_RING_CFG.SIZE_LOG2 r)
def slotSize (s : State) (d r : Nat) : Nat := 2 ^ s.g d (R.PEN_RING_CFG.SLOT_LOG2 r)
def ringHead (s : State) (d r : Nat) : Nat := s.g d (R.PEN_RING_HEAD.INDEX r) % ringSize s d r
def ringTail (s : State) (d r : Nat) : Nat := s.g d (R.PEN_RING_TAIL.INDEX r) % ringSize s d r

/-- The address of slot HEAD. -/
def slotAddr (s : State) (d r : Nat) : Nat := s.g d (R.PEN_RING_BASE.ADDR r) + ringHead s d r * slotSize s d r

/-- The header of an RX slot. -/
def rxHeader (f : Frame) : List Byte :=
  let b (c : Bool) (v : Nat) : Nat := if c then v else 0
  bytesLE 2 f.bytes.length ++ bytesLE 2 (b f.err 1 + b f.poison 2 + b (codeKind f.src == 0) 4) ++ bytesLE 2 (f.src % 1024)
    ++ bytesLE 2 (f.queue % 8) ++ bytesLE 2 (f.vid % 4096) ++ bytesLE 6 0 ++ bytesLE 4 f.sec ++ bytesLE 4 f.ns ++ bytesLE 8 0

/-- A frame goes to an RX ring: written to slot HEAD, or dropped where the ring is stopped, full or too small. While an earlier slot's
writes are not acknowledged, it waits. -/
def ringTx (s : State) (d r : Nat) (f : Frame) : Option State :=
  if (s.ringAck d r).isSome then none
  else if !ringRuns s d r || (ringHead s d r + 1) % ringSize s d r == ringTail s d r
      || decide (slotSize s d r < f.bytes.length + 32) then some (s.penCnt d 9)
  else
    let (x, t) := sendMany s (s.penMaster d) (slotAddr s d r) ((bytesWords (rxHeader f ++ f.bytes)).map (fun w => ⟨w, false⟩))
    some ({ t with reply := s.reply }.setRingAck d r (some x))

/-- HEAD moves on (R415). -/
def ringAdvance (s : State) (d r : Nat) : State :=
  (s.p d (R.PEN_RING_HEAD.INDEX r) ((ringHead s d r + 1) % ringSize s d r)).p d (R.PEN_RING_STATUS.EVT r) 1

/-! ## The trunk (R412) -/

/-- The cells of a frame on the trunk. -/
def trunkCells (f : Frame) : Nat := 1 + (f.bytes.length - 40 + 59) / 60

/-- A frame leaves over a trunk edge. -/
def trunkTx (s : State) (d e : Nat) (f : Frame) : Option State :=
  let edge := trunkEdge s d e
  match s.neighbour d edge with
  | none => none
  | some t =>
    if s.edgeState d edge = Edge.up then
      let back := if e = Dst.plusX then 1 else if e = Dst.minusX then 0 else 5 - edge
      let s := s.setAir t back (s.air t back ++ [⟨f, trunkCells f⟩])
      some (if e = Dst.y then s.setYout d (s.yout d ++ [f]) else s)
    else none

/-! ## Sending -/

/-- A frame leaves for a destination, if that takes it now. -/
def sendOut (s : State) (d e : Nat) (f : Frame) : Option State :=
  if e < 32 then (if portUp s d e then some (laneTx s d e f) else none)
  else if e < 40 then fabricTx s d (e - 32) f
  else if e < 56 then ringTx s d (e - 40) f
  else if e < 59 then trunkTx s d e f
  else none

/-- Frames that wait in egress FIFOs are looked at again once a queue has room (R185). -/
def retryOut (s : State) (d : Nat) : State := (List.range 8).foldl (fun s n => takeOut 512 s d n) s

/-- The scheduler of a destination sends a frame (R411). -/
def execEgressSend (die : Die) (dest : Fin 64) (s : State) : Host.Outcome State Fault Refusal :=
  let d := die.val
  let e := dest.val
  .next (if penRuns s d then
    match pickQueue s d e with
    | (none, _) => s
    | (some q, t) =>
      match t.queue d e q with
      | [] => s
      | f :: l =>
        match sendOut (t.setQueue d e q l) d e f with
        | some t => retryOut t d
        | none => s
  else s)

/-- A frame arrives at the end of its last cell: here, or on its way. A frame on its way is never dropped for want of room: it waits. -/
def trunkArrive (s : State) (d : Nat) (f : Frame) : Option State :=
  let t := codeDie f.dest
  if t = d then some (if f.flood then floodLocal s d f else localSend s d f f.dest)
  else if wayDead s d t then some (s.penCnt d 7)
  else enqueue s d (trunkToward s d t) f.queue f true

/-- A cell of the frame in front arrives over an edge (R412). -/
def execTrunkCell (die : Die) (edge : Fin 4) (s : State) : Host.Outcome State Fault Refusal :=
  .next (if penRuns s die then
    match s.air die edge with
    | [] => s
    | x :: l =>
      if 1 < x.left then s.setAir die edge ({ x with left := x.left - 1 } :: l)
      else (trunkArrive (s.setAir die edge l) die x.frame).getD s
  else s)

/-- The response to a Y write of a die (R413): one that is not OK loses its frame. An OK follows the frame's last cell. -/
def execYWriteResponse (die : Die) (resp : Resp) (s : State) : Host.Outcome State Fault Refusal :=
  let d := die.val
  let edge := trunkEdge s d Dst.y
  .next (match s.yout d, s.neighbour d edge with
    | f :: l, some t =>
      let back := 5 - edge
      let inAir := decide (l.length < (s.air t back).length)
      if resp = .ok then (if inAir then s else s.setYout d l)
      else
        let s := (s.setYout d l).penCnt d 7
        if inAir ∧ ((s.air t back).head?.map (fun x => x.frame)) = some f then s.setAir t back (s.air t back).tail else s
    | _, _ => s)

/-! ## Rings -/

/-- Every write of the slot at HEAD has been acknowledged (R415). -/
def execRingHeadAdvance (die : Die) (ring : Fin 16) (s : State) : Host.Outcome State Fault Refusal :=
  .next (if s.ringAck die ring = some .ok then ringAdvance (s.setRingAck die ring none) die ring else s)

/-- A ring access was answered with an error: the ring stops (R415). -/
def execRingError (die : Die) (ring : Fin 16) (s : State) : Host.Outcome State Fault Refusal :=
  .next (match s.ringAck die ring with
    | some r =>
      if r = .ok then s
      else
        let s := (s.setRingAck die ring none).p die (R.PEN_RING_STATUS.ERR ring) 1
        (s.p die (R.PEN_RING_STATUS.RESP ring) r.code).p die R.PEN_EVT.RING_ERR 1
    | none => s)

/-- The frame of a TX slot: its header and its bytes. -/
def txFrame (d r : Nat) (h b : List Byte) (poison : Bool) : Frame :=
  let fl := leAt h 2 2
  ⟨b, portCode d 2 r, leAt h 4 2 % 1024, leAt h 6 1 % 8, leAt h 8 2 % 4096, leAt h 10 2 % 4096, fl.testBit 3, fl.testBit 0,
    poison || fl.testBit 1, false, false, false, 0, 0, none⟩

/-- A frame of a TX slot goes its way: looked up, or to the port code in the slot in every port state (R391, R415). -/
def txForward (s : State) (d : Nat) (f : Frame) (lookup : Bool) : State :=
  if lookup then lookupSend s d f false f.vid false
  else
    let tnb := codeKind f.dest == 0 && portTnb s (codeDie f.dest) (codeIndex f.dest)
    sendTo s d { f with raw := true, tnb := tnb } f.dest

/-- The port engine reads and sends the TX slot at HEAD (R415). -/
def execTxRingSend (die : Die) (ring : Fin 16) (s : State) : Host.Outcome State Fault Refusal :=
  let d := die.val
  let r := ring.val
  let m := s.penMaster d
  let rep := s.reply
  let wordsOf (ws : List MWord) : List Byte := ws.flatMap (fun w => bytesLE 8 w.v.toNat)
  .next (if penRuns s d ∧ 8 ≤ r ∧ ringRuns s d r ∧ s.ringAck d r = none ∧ ringHead s d r ≠ ringTail s d r then
    let a := slotAddr s d r
    match readMany s m a 4 with
    | (.ok, hw, t) =>
      let h := wordsOf hw
      let len := leAt h 0 2
      match readMany t m (a + 32) ((len + 7) / 8) with
      | (.ok, bw, t) =>
        let f := txFrame d r h ((wordsOf bw).take len) ((hw ++ bw).any (fun w => w.p))
        let t := ringAdvance t d r
        { txForward t d f ((leAt h 2 2).testBit 4) with reply := rep }
      | (x, _, t) => { t with reply := rep }.setRingAck d r (some x)
    | (x, _, t) => { t with reply := rep }.setRingAck d r (some x)
  else s)

end Sys2Proof.Machine
end

