-- ==== Sys2Proof/Machine/Nvc.lean ====
section
/-!
DEFINITION. What the flash operations do (R110, R111), and the copying of a readback (R165). Both move data through the NoC as a Parser of
the device.
-/

namespace Sys2Proof.Machine

/-! ## Moving data -/

/-- Words written from any 8-byte boundary, as requests that each stay within 64 bytes: the first response that is not OK. -/
def writeWords (s : State) (m : Master) (addr : Nat) (ws : List MWord) : Resp × State :=
  let k := (8 - addr / 8 % 8) % 8
  if k = 0 then sendMany s m addr ws
  else
    let (r, s) := sendWrite s m addr (ws.take k)
    if ws.length ≤ k then (r, s)
    else
      let (r2, s) := sendMany s m (addr + 8 * k) (ws.drop k)
      (worse r r2, s)

/-- `n` words read from any 8-byte boundary, until a response is not OK. -/
def readWords (s : State) (m : Master) (addr n : Nat) : Resp × List MWord × State :=
  let k := min n ((8 - addr / 8 % 8) % 8)
  if k = 0 then readMany s m addr n
  else
    match sendRead s m addr k with
    | (.ok, ws, s) =>
      let (r, l, s) := readMany s m (addr + 8 * k) (n - k)
      (r, ws ++ l, s)
    | (r, _, s) => (r, [], s)

/-! ## Flash operations -/

/-- The pages of a range of the logical flash. -/
def flashPages (s : State) (a n : Nat) : List Nat :=
  (List.range (n / max 1 s.flashPage)).map (fun i => a + i * s.flashPage)

/-- The first page of a range that is not blank. -/
def notBlank (s : State) (a n : Nat) : Option Nat := (flashPages s a n).find? (fun p => !s.flashBlank p s.flashPage)

/-- A range of the logical flash is erased. -/
def flashErase (s : State) (a n : Nat) : State := s.setFlashBytes a (List.replicate n 0xFF#8)

/-- The sector or page that the operation works on, and what is left of its range, are undefined. -/
def loseRest (s : State) : State :=
  let f := s.cfg.flash
  let k := f.done * nvcUnit s
  s.loseFlash (f.addr + k) (f.len - k)

/-- A running erase or program does its next sector or page. A program first finds every target page blank (R110, R111); one whose source
word cannot be read ends there. -/
def nvcStep (s : State) : State :=
  let f := s.cfg.flash
  let u := nvcUnit s
  let a := f.addr + f.done * u
  if s.nvcState ≠ NvcState.busy ∨ nvcUnits s ≤ f.done then s
  else if f.op = NvcOp.erase then (flashErase s a u).setFlash { f with done := f.done + 1 }
  else if f.op = NvcOp.program then
    match (if f.done = 0 then notBlank s f.addr f.len else none) with
    | some p => nvcEnd s NvcRes.notErased p
    | none =>
      match readWords s (s.parserMaster s.head) (f.mem + f.done * u) (u / 8) with
      | (.ok, ws, s) =>
        if ws.any (fun w => w.p) then
          nvcEnd (loseRest s) NvcRes.memError (a + 8 * (ws.findIdx? (fun w => w.p)).getD 0)
        else (s.setFlashBytes a (ws.flatMap (fun w => bytesLE 8 w.v.toNat))).setFlash { f with done := f.done + 1 }
      | (_, ws, s) => nvcEnd (loseRest s) NvcRes.memError (a + 8 * ws.length)
  else s

/-- The next `n` sectors or pages. -/
def nvcSteps (s : State) (n : Nat) : State := (List.range n).foldl (fun s _ => nvcStep s) s

/-- The flash fails at an address of the operation's range: what it had left of an erase or a program is undefined. -/
def flashFails (s : State) (x : FlashFail) : State :=
  let f := s.cfg.flash
  if f.op = NvcOp.erase ∨ f.op = NvcOp.program then
    let s := if f.op = NvcOp.program ∧ f.done = 0 then (match notBlank s f.addr f.len with
        | some p => nvcEnd s NvcRes.notErased p
        | none => s) else s
    let s := nvcSteps s ((x.addr - f.addr) / nvcUnit s - f.done)
    if s.nvcState ≠ NvcState.busy then s
    else nvcEnd (loseRest s) (if f.op = NvcOp.erase ∧ x.notBlank then NvcRes.eraseFail else NvcRes.flashError) x.addr
  else if f.op = NvcOp.resetFlash then nvcEnd (s.setFlash { f with ready := false }) NvcRes.flashError x.addr
  else nvcEnd s NvcRes.flashError x.addr

/-- READ: the flash is copied to memory, request by request, until one is not answered OK. -/
def flashRead (s : State) : State :=
  let f := s.cfg.flash
  let m := s.parserMaster s.head
  let k := (64 - f.mem % 64) % 64
  let first := min k f.len
  let parts := (if first = 0 then [] else [(0, first)]) ++
    (List.range ((f.len - first + 63) / 64)).map (fun i => (first + 64 * i, min 64 (f.len - first - 64 * i)))
  let (bad, s) := parts.foldl (fun (x : Option Nat × State) p =>
    match x.1 with
    | some _ => x
    | none =>
      let (ws, t) := flashWords x.2 (f.addr + p.1) (p.2 / 8)
      match sendWrite t m (f.mem + p.1) ws with
      | (.ok, t) => (none, t)
      | (_, t) => (some (f.addr + p.1), t)) (none, s)
  match bad with
  | some a => nvcEnd s NvcRes.memError a
  | none => nvcEnd s NvcRes.ok 0

/-- The running flash operation ends; `fail` is where and how it fails, if it does. The reply of a command that is in progress stays. -/
def execNvcComplete (fail : Option FlashFail) (s : State) : Host.Outcome State Fault Refusal :=
  let f := s.cfg.flash
  let t :=
    if s.nvcState ≠ NvcState.busy then s
    else match fail with
      | some x => flashFails s x
      | none =>
        if f.op = NvcOp.erase ∨ f.op = NvcOp.program then
          let t := nvcSteps s (nvcUnits s - f.done)
          if t.nvcState ≠ NvcState.busy then t else nvcEnd t NvcRes.ok 0
        else if f.op = NvcOp.blankCheck then
          match notBlank s f.addr f.len with
          | some p => nvcEnd s NvcRes.notErased p
          | none => nvcEnd s NvcRes.ok 0
        else if f.op = NvcOp.read then flashRead s
        else if f.ready then nvcEnd s NvcRes.ok 0 else nvcEnd s NvcRes.flashError 0
  .next { t with reply := s.reply }

/-! ## Readback (R165) -/

/-- Frame `i` of a readback and its place in the destination; none past its end. -/
def rbFrame (x : RbSt) (i : Nat) : Option (Nat × Nat) :=
  if x.capture then
    if i < 1920 then some (i / 16 * 3072 + 3056 + i % 16, i / 16 * 8192 + i % 16 * 512) else none
  else if i < x.count then some (x.fa + i, 512 * i) else none

/-- A running readback moves its next frame; a request that is not answered OK ends it with MEM_ERROR. -/
def rbStep (s : State) (d : Nat) : State :=
  match s.rbOf d with
  | none => s
  | some x =>
    match rbFrame x x.done with
    | none => s
    | some (fa, off) =>
      match sendMany s (s.parserMaster d) (x.dest + off) ((readFrame s d x.epoch fa).map (fun v => ⟨v, false⟩)) with
      | (.ok, t) => t.setRb d (some { x with done := x.done + 1 })
      | (_, t) => rbEnd t d Rb.memError

/-- A readback moves the frames that are left, and ends. -/
def execReadbackDone (die : Die) (s : State) : Host.Outcome State Fault Refusal :=
  .next (match s.rbOf die with
    | some x =>
      if s.present die ∧ s.on die R.CFG_RB_STATUS.BUSY then
        let left := (if x.capture then 1920 else x.count) - x.done
        let t := (List.range left).foldl (fun t _ => rbStep t die) s
        { (if (t.rbOf die).isSome then rbEnd t die Rb.ok else t) with reply := s.reply }
      else s
    | none => s)

end Sys2Proof.Machine
end

