-- ==== Sys2Proof/Machine/Security.lean ====
section
/-!
DEFINITION. The security commands' ends (R119 to R127, R137), debug unlock (R128, R129), and the loss of VBAT (R127, R447).
-/

namespace Sys2Proof.Machine

/-! ## Commands (R137) -/

/-- A BBRAM slot that holds a key and a version (R124). -/
def bbSlot (key : BitVec 256) (v : Word) : BbSlot :=
  ⟨key, v, crc32c (bytesLE 32 key.toNat ++ bytesLE 4 v.toNat), 0x5AC33CA596E11E69⟩

/-- BB_WRITE ends: the inactive slot holds the key, and BB_ENROLLED is blown (R125). -/
def bbWriteEnd (s : State) : State :=
  let x := s.sec
  let b := bbSlot (BitVec.ofNat 256 (natLE (s.keyData 8))) (BitVec.ofNat 32 (s.g s.head R.SEC_KEY_VERSION.VERSION))
  let x := { x with fuses := { x.fuses with enrolled := true } }
  s.setSec (if bbInactive x = 0 then { x with bb0 := b } else { x with bb1 := b })

/-- BB_ERASE_OLD ends: the inactive slot is zeroised (R125). -/
def bbEraseEnd (s : State) : State :=
  bbCheck (s.setSec (if bbInactive s.sec = 0 then { s.sec with bb0 := .zero } else { s.sec with bb1 := .zero }))

/-- FUSE_KEY_PROGRAM ends (R123). -/
def fuseKeyEnd (s : State) : State :=
  let l := s.keyData 8
  s.setFuses { s.sec.fuses with key := BitVec.ofNat 256 (natLE l), keyChk := some (crc32c l) }

/-- PKH_PROGRAM ends (R120). -/
def pkhEnd (s : State) (k : Nat) : State :=
  let h := BitVec.ofNat 384 (natBE (s.keyData 12))
  s.setFuses (s.sec.fuses.setPk k ⟨h, some (pkCheck h)⟩)

/-- SVN_COMMIT ends: the floor is at the running image's SVN, or at 64 (R122). -/
def svnEnd (s : State) : State :=
  s.setFuses { s.sec.fuses with svn := max s.sec.fuses.svn (min 64 s.cfg.run.svn) }

/-- POLICY_PROGRAM ends: the bits given are blown. -/
def policyEnd (s : State) : State :=
  s.setFuses { s.sec.fuses with policy :=
    s.sec.fuses.policy ||| BitVec.ofNat 20 (s.g s.head (R.SEC_KEY_DATA.DATA 0) &&& policyMask) }

/-- LC_ADVANCE ends: the state's pair is blown, secure banks are wiped, the warm images are cleared, keys are killed in RETURNED and
SCRAPPED, and a reset of RECONFIG scope follows (R119). -/
def lcEnd (s : State) (target : Nat) : State :=
  let p := target - 1
  let f := s.sec.fuses
  let s := s.setFuses { f with lc := f.lc ||| (1#8 <<< (2 * p)) ||| (1#8 <<< (2 * p + 1)) }
  let s := (wipeSecure s).onDies warmClear
  let s := if Lc.returned ≤ target then
      zeroiseKeys (s.setSec { s.sec with fuses := { s.sec.fuses with kill := true }, bb0 := .zero, bb1 := .zero })
    else s
  raiseReset (secEnd s SecRes.ok) .reconfig 8 s.head 0

/-- The running security command ends. `ok` is false where its verification or its fuses failed: the command then leaves what an
interrupted one leaves. -/
def execSecCmdComplete (ok : Bool) (s : State) : Host.Outcome State Fault Refusal :=
  .next (match s.sec.cmd with
  | none => s
  | some (op, arg) =>
    if op = 2 then secEnd (bbEraseEnd s) SecRes.ok
    else if !ok then secEnd (secAbort s) (if op = 1 then SecRes.verifyFail else SecRes.fuseFail)
    else match op with
      | 1 => secEnd (bbWriteEnd s) SecRes.ok
      | 3 => secEnd (fuseKeyEnd s) SecRes.ok
      | 4 => secEnd (pkhEnd s arg) SecRes.ok
      | 5 => secEnd (s.setFuses { s.sec.fuses with revoke := s.sec.fuses.revoke ||| (1#3 <<< arg) }) SecRes.ok
      | 6 => secEnd (svnEnd s) SecRes.ok
      | 7 => secEnd (policyEnd s) SecRes.ok
      | 8 => lcEnd s arg
      | _ => secEnd s SecRes.ok)

/-! ## Debug unlock (R128) -/

/-- The port takes SEC_CHAL and SEC_RESP: not in SCRAPPED, in Lockdown, or before power-on reset releases (R118, R135). -/
def unlockOpen (s : State) : Bool := s.lc != Lc.scrapped && !s.boot.lockdown && s.boot.inReset != some .power

/-- A failed unlock: three set the lockout. -/
def unlockFail (s : State) : State :=
  let n := min 3 (s.g s.head R.SEC_LC.DBG_FAILS + 1)
  let s := s.p s.head R.SEC_LC.DBG_FAILS n
  if n = 3 then s.p s.head R.SEC_LC.DBG_LOCKOUT 1 else s

/-- Capturing SEC_CHAL: the reply is the fresh nonce, most significant word first, and the device ID. -/
def execSecChal (s : State) : Host.Outcome State Fault Refusal :=
  .next (if unlockOpen s then
    let (n, s) := s.free 128
    (s.setSec { s.sec with nonce := some n, used := false }).ansData .ok
      [n.extractLsb' 64 64, n.extractLsb' 0 64, s.sec.fuses.devId]
  else s)

/-- A response is shifted in. -/
def execSecResp (v : BitVec 784) (s : State) : Host.Outcome State Fault Refusal :=
  .next (if unlockOpen s ∧ s.on s.head R.SEC_LC.DBG_LOCKOUT = false then
    if s.sec.nonce.isNone ∨ s.sec.used then unlockFail s else s.setSec { s.sec with used := true, resp := some v }
  else s)

/-- The signed message of a response: the nonce, the device ID and LEVEL. -/
def unlockMessage (s : State) (nonce : BitVec 128) (level : Nat) : List Byte :=
  bytesBE 16 nonce.toNat ++ bytesBE 8 s.sec.fuses.devId.toNat ++ bytesBE 1 level

/-- A response verifies. -/
def unlockOk (s : State) (v : BitVec 784) : Bool :=
  let level := (v.extractLsb' 776 8).toNat
  let pk := (v.extractLsb' 768 8).toNat
  match s.sec.nonce with
  | none => false
  | some n => s.sec.used && decide (1 ≤ level ∧ level ≤ 3) && decide (pk ≤ 3) && s.sec.fuses.pkUsable pk
      && Config.ecdsaOkByHash (s.sec.fuses.pk pk).hash (Config.sha384 (unlockMessage s n level)) (bytesBE 96 (v.extractLsb' 0 768).toNat)

/-- Verification ends. -/
def execUnlockVerified (s : State) : Host.Outcome State Fault Refusal :=
  .next (match s.sec.resp with
  | none => s
  | some v =>
    let t := s.setSec { s.sec with resp := none }
    if unlockOk s v then t.p s.head R.SEC_LC.DBG_LEVEL (v.extractLsb' 776 8).toNat else unlockFail t)

/-- An instruction is loaded into the JTAG instruction register (R129): while DEPLOYED is locked, one of another kind is a tamper event or
acts as BYPASS. -/
def execJtagInstruction (instr : JtagInstr) (s : State) : Host.Outcome State Fault Refusal :=
  .next (if instr = .other ∧ s.lc = Lc.deployed ∧ s.dbgLevel = 0 then tamper s Tsrc.jtag 0 else s)

/-! ## VBAT (R127, R447) -/

/-- A slot after the battery domain's supply has been down at `mv` millivolts (R124): its sentinel stays at 1.10 V and above and is lost
below 0.95 V; its other cells stay at 0.80 V and above. What a cell holds between or below is open: `f` stands for it. -/
def bbDecay (mv : Nat) (b : BbSlot) (f : BitVec 384) : BbSlot :=
  let b := if 800 ≤ mv then b
    else { b with key := f.extractLsb' 0 256, version := f.extractLsb' 256 32, icode := f.extractLsb' 288 32 }
  if 1100 ≤ mv then b else if mv < 950 ∨ f.getLsbD 320 then { b with sentinel := 0 } else b

/-- VBAT falls to `mv` millivolts, 0 where it is absent, while main power is absent: BBRAM decays, and the log and the settings of the
battery domain are lost (R127, R447). -/
def execVbatLoss (s : State) (mv : Nat := 0) : Host.Outcome State Fault Refusal :=
  .next (if inVault s then
    let h := s.head
    let (a, s) := s.free 384
    let (b, s) := s.free 384
    let s := (s.setSec { s.sec with bb0 := bbDecay mv s.sec.bb0 a, bb1 := bbDecay mv s.sec.bb1 b }).resetCells
      (inRange h 0x070070 0x070080)
    (s.p h R.SEC_TAMPER_CFG.EN (s.startEn ||| 0x80)).p h ⟨R.SEC_TAMPER_RESP.ZEROISE.off, 0, 4⟩ s.runFloor
  else s)

end Sys2Proof.Machine
end

