-- ==== Sys2Proof/Machine/Image.lean ====
section
/-!
DEFINITION. Reading an image (R86 to R88, R104): its header and the checks of it, its segments, and the end of a pass that fails.
-/

namespace Sys2Proof.Machine

/-! ## Where the bytes come from -/

/-- The base and size of the slot that a pass reads: for a verification, by the boot record in flash now; else by that of this start
(R83, R84). Without a boot record only slot G has a place. -/
def passSlot (s : State) (n : Nat) : Option (Nat × Nat) :=
  if s.cfg.parse.kind = .verify then
    match s.bootRecord with
    | some (b, _) => some (if n = 0 then (b.aBase, b.aSize) else if n = 1 then (b.bBase, b.bSize) else (b.gBase, b.gSize))
    | none => if n = 2 then some (0x01000000, s.flashSize - 0x01000000) else none
  else some (s.slotAt n)

/-- The bytes that the source can have for the image, where the source sets a bound. -/
def srcRoom (s : State) : Option Nat :=
  match s.cfg.parse.src with
  | .slot n => (passSlot s n).map (fun x => x.2)
  | .jtag => s.boot.jtag.map (fun l => l.length)
  | .mem _ => none
  | .warm => some 0
  | .none => some 0

/-- `n` bytes of the image from an offset. A memory source is read through the network by the head die's Parser, and gives nothing when a
request is not answered OK or a word is poisoned. -/
def srcRead (s : State) (off n : Nat) : Option (List Byte) × State :=
  match s.cfg.parse.src with
  | .slot k =>
    match passSlot s k with
    | some (base, _) => (some (s.flashBytes (base + off) n), s)
    | none => (none, s)
  | .jtag => (s.boot.jtag.map (fun l => (l.drop off).take n), s)
  | .mem a =>
    match readWords s (s.parserMaster s.head) (a + off) ((n + 7) / 8) with
    | (.ok, ws, t) => (if ws.any (fun w => w.p) then none else some ((ws.flatMap (fun w => bytesLE 8 w.v.toNat)).take n), { t with reply := s.reply })
    | (_, _, t) => (none, { t with reply := s.reply })
  | .warm => (none, s)
  | .none => (none, s)

/-- A Parser read beside an erase or program (R115): of a sector it works on, it waits; of another, the operation is suspended. -/
def srcWaits (s : State) (off n : Nat) : Bool :=
  match s.cfg.parse.src with
  | .slot k =>
    match passSlot s k with
    | some (base, _) => flashBusy s (base + off) n
    | none => false
  | _ => false
def srcSuspends (s : State) : State :=
  match s.cfg.parse.src with
  | .slot _ => if flashWorks s then s.p s.head R.NVC_STATUS.STATE NvcState.suspended else s
  | _ => s

/-! ## The header (R86) -/

def Hdr.enc (h : List Byte) : Bool := (leAt h 0x24 4).testBit 0
def Hdr.keySrc (h : List Byte) : Nat := fld (leAt h 0x24 4) 1 2
def Hdr.warmAuto (h : List Byte) : Bool := (leAt h 0x24 4).testBit 3
def Hdr.bodyLen (h : List Byte) : Nat := leAt h 0x18 8
def Hdr.segCount (h : List Byte) : Nat := leAt h 0x20 4
def Hdr.svn (h : List Byte) : Nat := leAt h 0x14 4
def Hdr.version (h : List Byte) : Nat := leAt h 0x10 4
def Hdr.pkIndex (h : List Byte) : Nat := leAt h 0x28 4
def Hdr.pubKey (h : List Byte) : List Byte := (h.drop 0x100).take 97
def Hdr.sig (h : List Byte) : List Byte := (h.drop 0x200).take 96
def Hdr.hash (h : List Byte) : BitVec 384 := BitVec.ofNat 384 (beAt h 0xFD0 48)

/-- The bytes that R86 does not list are zero, and so are the bits of FLAGS that it does not. -/
def hdrZero (h : List Byte) : Bool :=
  leAt h 0x02C 4 == 0 && leAt h 0x03C 4 == 0 && leAt h 0x070 0x90 == 0 && leAt h 0x161 0x9F == 0 && leAt h 0x260 0xD70 == 0 && leAt h 0x24 4 / 16 == 0

/-- The KIND that a pass takes (R203): a full image to start up, a partial one from memory, either to verify. -/
def kindOk (k : LoadKind) (v : Nat) : Bool :=
  match k with
  | .partialLoad => v == 1
  | .verify => decide (v ≤ 1)
  | _ => v == 0

/-- The fuse hashes decide which key may sign (R120). -/
def pkhChecked (s : State) : Bool := s.lc != Lc.blank || s.sec.fuses.pkAny

/-- The options that a life-cycle state accepts (R118). -/
def policyOk (s : State) (enc : Bool) : Bool :=
  let lc := s.lc
  if lc = Lc.blank ∨ lc = Lc.returned then !enc
  else if lc = Lc.provisioned then true
  else if lc = Lc.deployed then enc || s.policy Policy.unencOk
  else false

/-- The key that decrypts an image (R123, R126). -/
def imageKey (s : State) (h : List Byte) : Option (BitVec 256) :=
  let f := s.sec.fuses
  let fuse := if f.keyUsable then some f.key else none
  if Hdr.keySrc h = 1 then fuse
  else if Hdr.keySrc h = 2 then
    match bbActive s.sec with
    | some k => some (if k = 0 then s.sec.bb0.key else s.sec.bb1.key)
    | none => if s.sec.bbLost && s.policy Policy.fuseSubst then fuse else none
  else none

/-- The checks of steps 1 to 4 of R88, in order: NONE, or the first that fails. -/
def hdrCheck (s : State) (h : List Byte) : Nat :=
  let f := s.sec.fuses
  let k := Hdr.pkIndex h
  if h.length ≠ 4096 ∨ Config.sha384 (h.take 0xFD0) ≠ Hdr.hash h then Lerr.hdrHash
  else if leAt h 0 4 ≠ 0x54595850 ∨ leAt h 4 4 / 65536 ≠ 1 ∨ !kindOk s.cfg.parse.kind (leAt h 0x0C 4) ∨ !hdrZero h then Lerr.hdrFormat
  else if leAt h 8 2 ≠ s.dev.part.code then Lerr.part
  else if s.dev.stepping.code < leAt h 0x0A 2 then Lerr.stepping
  else if pkhChecked s ∧ ¬ (k ≤ 3 ∧ f.pkUsable k ∧ Config.sha384 (Hdr.pubKey h) = (f.pk k).hash) then Lerr.keyHash
  else if !Config.ecdsaOk (Hdr.pubKey h) (Config.sha384 (h.take 0x200)) (Hdr.sig h) then Lerr.signature
  else if Hdr.svn h < f.svn then Lerr.svn
  else if !policyOk s (Hdr.enc h) then Lerr.policy
  else if Hdr.enc h ∧ (imageKey s h).isNone then Lerr.keyUnavailable
  else Lerr.none

/-! ## A pass that fails -/

/-- The regions of a die that a partial load has written to. -/
def loadingRegions (s : State) (d : Nat) : List Nat := (List.range 32).filter (fun r => s.prState d r == Pr.loading)

/-- A failed partial load (R205, R206): its regions are FAILED and the frames it wrote are undefined. -/
def partialFail (s : State) (err seg : Nat) (at_ : Option (Nat × Nat)) : State :=
  let written := s.cfg.parse.written
  let s := (noteLoad s err seg at_).pAll R.CFG_LOAD_STATUS.SOURCE 6
  let s := s.onDies (fun s d =>
    let (e, s) := s.newEpoch
    let s := (written.filter (fun x => x.1 / 2 ^ 19 == d && x.2 && !isCaptureFrame (x.1 % 2 ^ 19))).foldl (fun s x =>
      let fa := x.1 % 2 ^ 19
      s.setFrame d fa ((List.range 64).map (fun w => Config.undefWord (3016 + d) e (fa * 64 + w)))) s
    let s := (loadingRegions s d).foldl (fun s r => (setPrState s d r Pr.failed).p d (R.FAB_PR_STATUS.PENDING r) 0) s
    if s.cfg.parse.touched.getLsbD d then s.setWarm d { s.warmOf d with refresh := false } else s)
  passEnd (s.pulse s.head (s.head * 72 + 4)) true err

/-- A pass fails with an error, in a segment, on a die at a frame where there is one. -/
def passFail (s : State) (err seg : Nat) (at_ : Option (Nat × Nat)) : State :=
  match s.cfg.parse.kind with
  | .full => loadFail s s.cfg.parse.src err seg at_
  | .partialLoad => partialFail s err seg at_
  | .verify => passEnd s true err
  | .warmBuild => warmFail s err
  | .flashPass => startCmd (failFlashPass ((passRepairs s).setParse .reset))
  | .idle => s
  | .finished => s

/-- A record fails: the segment is the last one read. -/
def recFail (s : State) (err : Nat) (at_ : Option (Nat × Nat)) : State := passFail s err (s.cfg.parse.seg - 1) at_

/-- The flash must be set up for a slot to be read (R80). -/
def srcReady (s : State) : Bool :=
  match s.cfg.parse.src with
  | .slot _ => s.cfg.flash.ready
  | _ => true

/-- A pass is running and wants its header, or has it. -/
def passing (s : State) : Bool := s.cfg.parse.kind != .idle && s.cfg.parse.kind != .finished

/-- A partial load comes to a die (R206): its warm image is no longer valid, and if it was, the load goes into it as well. -/
def touchDie (s : State) (d : Nat) : State :=
  if s.cfg.parse.kind ≠ .partialLoad ∨ s.cfg.parse.touched.getLsbD d then s
  else
    let was := s.on d R.CFG_WARM_STATUS.VALID
    let s := s.setParse { s.cfg.parse with touched := s.cfg.parse.touched ||| (1#8 <<< d) }
    (s.setWarm d { s.warmOf d with refresh := was }).p d R.CFG_WARM_STATUS.VALID 0

/-- A partial load starts, of an image whose records name the dies of a mask (R206). -/
def touchNamed (s : State) (names : BitVec 8) : State := (s.dies.filter (fun d => names.getLsbD d)).foldl touchDie s

/-- CFG_CMD LOAD_MEM (R203): `names` are the dies that the image's records name, whose warm images are no longer valid once the load
starts (R206). -/
def execLoadMem (m : Master) (s : State) (names : BitVec 8 := 0) : Host.Outcome State Fault Refusal :=
  let t := poke s m s.head [(R.CFG_CMD.OP, CfgOp.loadMem)]
  .next (if s.cfg.parse.kind = .idle then touchNamed t names else t)

/-- The header is read whole and checked (R88 steps 1 to 4). A warm build's header must be that of the running image (R106). `names` are
the dies that the image's records name. -/
def execImageHeader (s : State) (names : BitVec 8 := 0) : Host.Outcome State Fault Refusal :=
  .next (if !passing s || s.cfg.parse.hdrDone || srcWaits s 0 4096 then s
  else
  let s := touchNamed s names
  if !srcReady s then passFail s Lerr.flash 0 none
  else
    let s := bbCheck (srcSuspends s)
    let (h, s) := srcRead s 0 4096
    let h := h.getD []
    let s := if Hdr.keySrc h = 1 then noteFuseFail s else s
    let err := hdrCheck s h
    if err ≠ Lerr.none then passFail s err 0 none
    else if s.cfg.parse.kind = .warmBuild ∧ Hdr.hash h ≠ s.cfg.run.hdrHash then passFail s Lerr.chain 0 none
    else s.setParse { s.cfg.parse with
      hdrDone := true, hdr := h, pos := 4096, seg := 0, next := BitVec.ofNat 384 (beAt h 0x40 48)
      pk := if pkhChecked s then some (Hdr.pkIndex h) else none })

/-! ## Records: what a stream's front holds (R89, R90) -/

def Rec.frames : Nat := 1
def Rec.sparse : Nat := 2
def Rec.fill : Nat := 3
def Rec.copy : Nat := 4
def Rec.sigs : Nat := 5
def Rec.sigmap : Nat := 6
def Rec.reg : Nat := 7
def Rec.wake : Nat := 8
def Rec.end_ : Nat := 15

def Rec.type (b : List Byte) : Nat := leAt b 3 1
def Rec.mask (b : List Byte) : Nat := leAt b 2 1
def Rec.addr (b : List Byte) : Nat := leAt b 4 4
def Rec.count (b : List Byte) : Nat := leAt b 8 4
def Rec.pay (b : List Byte) : List Byte := b.drop 12
def Rec.optional (t : Nat) : Bool := decide (0x80 ≤ t ∧ t ≤ 0xFE)

/-- The payload that a record needs to be used, or a first part of it where it is used in parts. -/
def Rec.need (b : List Byte) : Nat :=
  let t := Rec.type b
  if t = Rec.frames then 512
  else if t = Rec.sparse then 8 + 8 * popcount 64 (leAt b 12 8)
  else if t = Rec.fill ∨ t = Rec.copy ∨ t = Rec.sigs ∨ t = Rec.sigmap then 4
  else if t = Rec.reg then 8 * Rec.count b
  else if t = Rec.wake then 8
  else if Rec.optional t ∧ Rec.count b ≠ 0 then 4
  else 0

/-- The front record can be used, with the bytes that have arrived. -/
def recReady (s : State) : Bool :=
  let b := s.cfg.parse.buf
  !s.cfg.parse.ended && decide (12 ≤ b.length) && decide (Rec.need b + 12 ≤ b.length)
    && (Rec.type b != Rec.sparse || decide (20 ≤ b.length))

/-- The counts of R90. -/
def Rec.countOk (t c : Nat) : Bool :=
  if t = Rec.frames ∨ t = Rec.fill ∨ t = Rec.copy ∨ t = Rec.sigs then decide (1 ≤ c ∧ c ≤ frameCount)
  else if t = Rec.sparse then c == 1
  else if t = Rec.sigmap then decide (1 ≤ c ∧ c ≤ 11520)
  else if t = Rec.reg then decide (1 ≤ c ∧ c ≤ 4096)
  else if t = Rec.wake then c == 2
  else if t = Rec.end_ then c == 0
  else c % 4 == 0

/-- The record addresses frames. -/
def Rec.onFrames (t : Nat) : Bool := decide (1 ≤ t ∧ t ≤ 6)

/-- The frames that a record addresses: their number. -/
def Rec.span (b : List Byte) : Nat := if Rec.type b = Rec.sigmap then 32 * Rec.count b else Rec.count b

/-- The form of a record that R90 and R91 ask for. -/
def Rec.formOk (b : List Byte) : Bool :=
  let t := Rec.type b
  (Rec.onFrames t || t == Rec.reg || t == Rec.wake || t == Rec.end_ || Rec.optional t) && Rec.countOk t (Rec.count b)
    && leAt b 0 2 == 0 && decide (Rec.addr b < 2 ^ 19)
    && (!Rec.onFrames t || decide (Rec.addr b + Rec.span b ≤ frameCount)) && (t != Rec.sigmap || Rec.addr b % 32 == 0)

/-- The companion of a PX8C takes configuration records (R91, R338). -/
def companionTakes (s : State) : Bool :=
  s.dev.part == .px8c && s.edgeState 6 0 == Edge.up && s.bit 6 (R.BDL_CAPS.CAPS 0) 3

/-- Some chain of edges joins two dies. -/
def joined (s : State) (a b : Nat) : Bool :=
  ((List.range 8).foldl (fun (l : List Nat) _ =>
    l ++ (l.flatMap (fun d => (List.range 4).filterMap (fun e => if s.edgeCarries d e then s.neighbour d e else none))).filter
      (fun n => !l.contains n)) [a]).contains b

/-- What is wrong with the dies that a record names (R91, R97, R335). -/
def maskErr (s : State) (mask : Nat) : Option (Nat × Option (Nat × Nat)) :=
  let named := bitsOf 8 mask
  if mask = 0 ∨ named.any (fun d => decide (s.dev.part.dies ≤ d)) ∨ (s.dev.part = .px8c ∧ mask.testBit 7 ∧ !companionTakes s) then
    some (Lerr.record, none)
  else
    let far := named.filter (fun d => !(s.dev.part == .px8c && d == 7))
    match far.find? (fun d => !s.present d) with
    | some d => some (Lerr.dieAbsent, some (d, 0))
    | none =>
      match named.find? (fun d => d != s.head && !s.roundTrip s.head d) with
      | some d => some (if joined s s.head d then Lerr.dieLink else Lerr.dieAbsent, some (d, 0))
      | none => none

/-- The dies of a record whose Parsers this device holds. -/
def maskDies (s : State) (mask : Nat) : List Nat := s.dies.filter (fun d => mask.testBit d)

/-- A partial load may write a frame of a die (R203, R205). -/
def partialMay (s : State) (d fa : Nat) : Bool :=
  match regionOfFrame s d fa with
  | some r => s.prState d r == Pr.fenced || s.prState d r == Pr.loading || s.prState d r == Pr.failed
  | none => false

/-- The first of a list of dies and frames that a test picks. -/
def findFrame (ds : List Nat) (a n : Nat) (p : Nat → Nat → Bool) : Option (Nat × Nat) :=
  ds.findSome? (fun d => ((List.range n).find? (fun i => p d (a + i))).map (fun i => (d, a + i)))

/-- A frame has been written by this pass. -/
def wasWritten (s : State) (d fa : Nat) : Bool := SMap.get (fun _ => false) s.cfg.parse.written (frameKey d fa)

/-- What is wrong with the front record, before any of it is used (R90 to R92, R94, R203). DESIGN CHOICE (notes/assumptions/55.md): a second
WAKE fails with RECORD. -/
def recErr (s : State) (b : List Byte) : Option (Nat × Option (Nat × Nat)) :=
  let t := Rec.type b
  let ds := maskDies s (Rec.mask b)
  if !Rec.formOk b then some (Lerr.record, none)
  else match maskErr s (Rec.mask b) with
    | some e => some e
    | none =>
      let k := s.cfg.parse.kind
      if t = Rec.wake ∧ (s.cfg.parse.wake.isSome ∨ s.dies.any (fun d => !(Rec.mask b).testBit d)) then some (Lerr.record, none)
      else if k = .partialLoad ∧ t = Rec.reg then some (Lerr.regDenied, ds.head?.map (fun d => (d, 0)))
      else if k = .partialLoad ∧ Rec.onFrames t then
        match findFrame ds (Rec.addr b) (Rec.span b) (fun d fa => !partialMay s d fa) with
        | some x => some (Lerr.record, some x)
        | none => if t = Rec.sigmap then late ds else none
      else if k = .full ∧ t = Rec.sigmap then late ds
      else none
where
  /-- A SIGMAP word that covers a frame already written comes too late (R94). -/
  late (ds : List Nat) : Option (Nat × Option (Nat × Nat)) :=
    (findFrame ds (Rec.addr b) (Rec.span b) (wasWritten s)).map (fun x => (Lerr.sigOrder, some x))

/-- Judge the front record once its first words have arrived. The stream must not stop inside a record, or without END (R91). -/
def settle (s : State) : State :=
  let p := s.cfg.parse
  if p.ended ∨ !passing s then s
  else if p.buf.length < 12 then (if p.lastSeg then recFail s Lerr.record none else s)
  else match recErr s p.buf with
    | some (e, x) => recFail s e x
    | none => if p.lastSeg ∧ !recReady s then recFail s Lerr.record none else s

end Sys2Proof.Machine
end

