-- ==== Sys2Proof/Machine/Records.lean ====
section
/-!
DEFINITION. The records of an image (R90 to R95, R204, R206): what each writes on the dies that it names, for a load, and into the warm
regions, for a warm build (R105, R106).
-/

namespace Sys2Proof.Machine

/-! ## Warm regions (R105) -/

/-- Offsets of the signatures, the signature map and the records in a warm region, and its hashed length. -/
def warmSigs : Nat := 0x0B400000
def warmMap : Nat := 0x0B568000
def warmRecs : Nat := 0x0B580000
def warmLen : Nat := 0x0B590000

def warmBase (s : State) (d : Nat) : Nat := s.g d R.CFG_WARM_BASE.BASE

/-- Words written to a die's warm region by its Parser. -/
def warmWords (s : State) (d off : Nat) (ws : List DWord) : Resp × State :=
  let (r, t) := sendMany s (s.parserMaster d) (warmBase s d + off) (ws.map (fun v => ⟨v, false⟩))
  (r, { t with reply := s.reply })

/-- One 32-bit word written to a die's warm region. -/
def warmWord32 (s : State) (d off : Nat) (v : Word) : Resp × State :=
  let a := warmBase s d + off
  let w : DWord := if a % 8 = 0 then v.zeroExtend 64 else v.zeroExtend 64 <<< 32
  let t := perform s ⟨s.parserMaster d, 0, .write, BitVec.ofNat 64 a, 4, [⟨w, false⟩], []⟩
  (t.reply.resp, { t with reply := s.reply })

/-! ## One item on one die -/

/-- How the writing of one item ends: as it should, with an error of R104, or with a network error of a warm build. -/
inductive PutRes where
  | ok | bad (err : Nat) | net
  deriving DecidableEq, Repr

/-- A pass that writes the dies' configuration memory. -/
def loads (s : State) : Bool := s.cfg.parse.kind == .full || s.cfg.parse.kind == .partialLoad

/-- A partial load also writes into the warm region; a network error there leaves the warm image not valid. -/
def refreshWrite (s : State) (d : Nat) (f : State → Resp × State) : State :=
  if s.cfg.parse.kind = .partialLoad ∧ (s.warmOf d).refresh then
    match f s with
    | (.ok, t) => t
    | (_, t) => t.setWarm d { t.warmOf d with refresh := false }
  else s

/-- A die takes part in a warm build. -/
def builds (s : State) (d : Nat) : Bool :=
  s.cfg.parse.kind == .warmBuild && warmBase s d != 0 && s.on d R.CFG_WARM_STATUS.BUILDING

def netRes (x : Resp × State) : PutRes × State := (if x.1 = .ok then .ok else .net, x.2)

/-- A region takes its first frame (R204). -/
def regionLoads (s : State) (d fa : Nat) : State :=
  if s.cfg.parse.kind ≠ .partialLoad then s
  else match regionOfFrame s d fa with
    | some r => setPrState s d r Pr.loading
    | none => s

/-- A frame has been written by this pass. -/
def markWritten (s : State) (d fa : Nat) : State :=
  s.setParse { s.cfg.parse with written := SMap.set (fun _ => false) s.cfg.parse.written (frameKey d fa) true }

/-- The stream of a flash pass carries a frame: it is kept, and a repair that waits for it is due (R213). -/
def passFrame (s : State) (d fa : Nat) (ws : List DWord) : State :=
  let s := s.setParse { s.cfg.parse with passed := SMap.set (fun _ => []) s.cfg.parse.passed (frameKey d fa) ws }
  if (s.seuOf d).any (fun e => e.fa == fa && e.flash) then
    s.setSeu d ((s.seuOf d).map (fun e => if e.fa = fa ∧ e.flash then { e with due := true } else e))
  else s

/-- A frame is written on a die (R94, R160). A reading back that comes back wrong has it written once more, and `wrong` says where two do.
A partial load writes only where its region still stands open (R203). -/
def putFrame (wrong : Option FrameWrong) (s : State) (d fa : Nat) (ws : List DWord) : PutRes × State :=
  if builds s d then netRes (warmWords (markWritten s d fa) d (fa * 512) ws)
  else if s.cfg.parse.kind = .flashPass then (.ok, passFrame (markWritten s d fa) d fa ws)
  else if !loads s then (.ok, markWritten s d fa)
  else if s.cfg.parse.kind = .partialLoad ∧ partialMay s d fa = false then (.bad Lerr.record, s)
  else
    let s := touchDie s d
    if isCaptureFrame fa then (.ok, refreshWrite (markWritten s d fa) d (fun s => warmWords s d (fa * 512) ws))
    else if !s.dynMark d fa && !SMap.get (fun _ => false) s.cfg.parse.sigSeen (frameKey d fa) then (.bad Lerr.sigOrder, s)
    else
      let s := markWritten ((regionLoads s d fa).setFrame d fa ws) d fa
      if !s.dynMark d fa && (frameCrc ws != s.sig d fa || wrong.any (fun x => x.die.val == d && x.fa.val == fa && x.twice)) then
        (.bad Lerr.frameCheck, s)
      else (.ok, refreshWrite s d (fun s => warmWords s d (fa * 512) ws))

/-- A golden signature arrives for a frame of a die (R90, R204). -/
def putSig (s : State) (d fa : Nat) (v : Word) : PutRes × State :=
  if builds s d then netRes (warmWord32 s d (warmSigs + 4 * fa) v)
  else if !loads s then (.ok, s)
  else
    let s := (touchDie s d).setSig d fa v
    let s := s.setParse { s.cfg.parse with sigSeen := SMap.set (fun _ => false) s.cfg.parse.sigSeen (frameKey d fa) true }
    (.ok, refreshWrite s d (fun s => warmWord32 s d (warmSigs + 4 * fa) v))

/-- A signature-map word arrives for 32 frames of a die. -/
def putMap (s : State) (d fa : Nat) (v : Word) : PutRes × State :=
  if builds s d then netRes (warmWord32 s d (warmMap + fa / 8) v)
  else if !loads s then (.ok, s)
  else
    let s := (List.range 32).foldl (fun s j => s.setDynMark d (fa + j) (v.getLsbD j)) (touchDie s d)
    (.ok, refreshWrite s d (fun s => warmWord32 s d (warmMap + fa / 8) v))

/-- Items in turn, until one does not end well: the result with its die and frame. -/
def putAll (s : State) (l : List (Nat × Nat × (State → PutRes × State))) : PutRes × Option (Nat × Nat) × State :=
  l.foldl (fun (x : PutRes × Option (Nat × Nat) × State) e =>
    if x.1 = .ok then
      let (r, t) := e.2.2 x.2.2
      (r, some (e.1, e.2.1), t)
    else x) (.ok, none, s)

/-! ## Using a record -/

/-- The buffer after `n` items of the front record, of `bytes` payload bytes, have been used; `step` frames an item. -/
def recRest (b : List Byte) (n step bytes : Nat) : List Byte :=
  let c := Rec.count b - n
  if c = 0 then b.drop (12 + bytes)
  else b.take 4 ++ bytesLE 4 (Rec.addr b + n * step) ++ bytesLE 4 c ++ b.drop (12 + bytes)

/-- The front record leaves the buffer, in part or whole, and the next is judged. -/
def recTake (s : State) (rest : List Byte) : State := settle (s.setParse { s.cfg.parse with buf := rest })

/-- A record's items have been written: the buffer moves on, or the pass fails. -/
def recDone (x : PutRes × Option (Nat × Nat) × State) (rest : List Byte) : State :=
  match x with
  | (.ok, _, s) => recTake s rest
  | (.bad e, at_, s) => recFail s e at_
  | (.net, _, s) => warmFailOpen s

/-- A partial load waits for a readback on a die that it names (R165). -/
def recWaits (s : State) (b : List Byte) : Bool :=
  s.cfg.parse.kind == .partialLoad && (maskDies s (Rec.mask b)).any (fun d => s.on d R.CFG_RB_STATUS.BUSY)

/-- The front record is of a type and can be used now. -/
def recIs (s : State) (t : Nat) : Bool :=
  passing s && s.cfg.parse.hdrDone && recReady s && Rec.type s.cfg.parse.buf == t && !recWaits s s.cfg.parse.buf

/-- 64-bit words from bytes. -/
def words64 (l : List Byte) : List DWord := bytesWords l
/-- The 32-bit word at an index of some bytes. -/
def word32 (l : List Byte) (i : Nat) : Word := BitVec.ofNat 32 (leAt l (4 * i) 4)

/-- FRAMES: as many frames as have arrived. -/
def execFrames (s : State) (wrong : Option FrameWrong := none) : Host.Outcome State Fault Refusal :=
  .next (if recIs s Rec.frames then
    let b := s.cfg.parse.buf
    let pay := Rec.pay b
    let n := min (Rec.count b) (pay.length / 512)
    let items := (List.range n).flatMap (fun i => (maskDies s (Rec.mask b)).map (fun d =>
      (d, Rec.addr b + i, fun s => putFrame wrong s d (Rec.addr b + i) (words64 ((pay.drop (512 * i)).take 512)))))
    recDone (putAll s items) (recRest b n 1 (512 * n))
  else s)

/-- SPARSE: one frame. -/
def execSparse (s : State) (wrong : Option FrameWrong := none) : Host.Outcome State Fault Refusal :=
  .next (if recIs s Rec.sparse then
    let b := s.cfg.parse.buf
    let mask := leAt b 12 8
    let ws := (List.range 64).map (fun k =>
      if mask.testBit k then BitVec.ofNat 64 (leAt b (20 + 8 * popcount k mask) 8) else 0#64)
    let items := (maskDies s (Rec.mask b)).map (fun d => (d, Rec.addr b, fun s => putFrame wrong s d (Rec.addr b) ws))
    recDone (putAll s items) (b.drop (20 + 8 * popcount 64 mask))
  else s)

/-- FILL: every frame is the pattern, 128 times. -/
def execFill (s : State) (wrong : Option FrameWrong := none) : Host.Outcome State Fault Refusal :=
  .next (if recIs s Rec.fill then
    let b := s.cfg.parse.buf
    let p := leAt b 12 4
    let ws := List.replicate 64 (BitVec.ofNat 64 (p + p * 2 ^ 32))
    let items := (List.range (Rec.count b)).flatMap (fun i => (maskDies s (Rec.mask b)).map (fun d =>
      (d, Rec.addr b + i, fun s => putFrame wrong s d (Rec.addr b + i) ws)))
    recDone (putAll s items) (b.drop 16)
  else s)

/-- A frame that COPY reads: of configuration memory, for a warm build of the die's warm region, and for a flash pass of the stream. -/
def copySource (s : State) (d fa : Nat) : Option (List DWord) × State :=
  if builds s d then
    let (r, ws, t) := readMany s (s.parserMaster d) (warmBase s d + fa * 512) 64
    (if r = .ok ∧ ws.all (fun w => !w.p) then some (ws.map (fun w => w.v)) else none, { t with reply := s.reply })
  else if s.cfg.parse.kind = .flashPass then (some (SMap.get (fun _ => []) s.cfg.parse.passed (frameKey d fa)), s)
  else (some (s.frame d fa), s)

/-- COPY: frames that this pass has written, to another range. DESIGN CHOICE (notes/assumptions/55.md): ranges that overlap fail with
RECORD. -/
def execCopy (s : State) (wrong : Option FrameWrong := none) : Host.Outcome State Fault Refusal :=
  .next (if recIs s Rec.copy then
    let b := s.cfg.parse.buf
    let src := leAt b 12 4
    let n := Rec.count b
    let a := Rec.addr b
    let ds := maskDies s (Rec.mask b)
    if frameCount < src + n ∨ (src < a + n ∧ a < src + n) then recFail s Lerr.record none
    else match findFrame ds src n (fun d fa => !wasWritten s d fa) with
      | some x => recFail s Lerr.record (some x)
      | none =>
        let items := (List.range n).flatMap (fun i => ds.map (fun d =>
          (d, a + i, fun s => match copySource s d (src + i) with
            | (some ws, s) => putFrame wrong s d (a + i) ws
            | (none, s) => (PutRes.net, s))))
        recDone (putAll s items) (b.drop 16)
  else s)

/-- SIGS: as many signatures as have arrived. -/
def execSigs (s : State) : Host.Outcome State Fault Refusal :=
  .next (if recIs s Rec.sigs then
    let b := s.cfg.parse.buf
    let pay := Rec.pay b
    let n := min (Rec.count b) (pay.length / 4)
    let items := (List.range n).flatMap (fun i => (maskDies s (Rec.mask b)).map (fun d =>
      (d, Rec.addr b + i, fun s => putSig s d (Rec.addr b + i) (word32 pay i))))
    recDone (putAll s items) (recRest b n 1 (4 * n))
  else s)

/-- SIGMAP: as many words as have arrived. -/
def execSigmap (s : State) : Host.Outcome State Fault Refusal :=
  .next (if recIs s Rec.sigmap then
    let b := s.cfg.parse.buf
    let pay := Rec.pay b
    let n := min (Rec.count b) (pay.length / 4)
    let items := (List.range n).flatMap (fun i => (maskDies s (Rec.mask b)).map (fun d =>
      (d, Rec.addr b + 32 * i, fun s => putMap s d (Rec.addr b + 32 * i) (word32 pay i))))
    recDone (putAll s items) (recRest b n 32 (4 * n))
  else s)

/-! ## REG (R92) -/

/-- How a REG pair's block takes its write: at once, held to the GSR step, or not at all. -/
inductive RegWhen where
  | now | held | never
  deriving DecidableEq, Repr

/-- The blocks that R92 lists. -/
def regWhen (off : Nat) : RegWhen :=
  if off % 4 ≠ 0 then .never
  else match (regAt off).bind (fun r => r.block) with
    | some .CLK => .now | some .THM => .now | some .NOC => .now | some .EVT => .now
    | some .MON => .held | some .BNK => .held | some .RLC => .held | some .DDR => .held | some .MEE => .held
    | some .LAN => .held | some .PEN => .held | some .SEA => .held | some .DFD => .held | some .APC => .held
    | some .FAB => .held
    | _ => .never

/-- One pair on one die, beside the trial state in which every write so far has been made: the error, the state and the trial state. -/
def putReg (x : Option Nat × State × State) (d : Nat) (pr : Nat × Nat) : Option Nat × State × State :=
  match x with
  | (some e, s, t) => (some e, s, t)
  | (none, s, t) =>
    let t := imageWrite t d pr.1 pr.2
    match regWhen pr.1 with
    | .never => (some Lerr.regDenied, s, t)
    | .now =>
      let u := imageWrite s d pr.1 pr.2
      if u.reply.resp = .ok then (none, { u with reply := s.reply }, t) else (some Lerr.regDenied, s, t)
    | .held =>
      if t.reply.resp ≠ .ok then (some Lerr.regDenied, s, t)
      else if 4096 ≤ (s.heldOf d).length then (some Lerr.record, s, t)
      else (none, s.setHeld d (s.heldOf d ++ [(pr.1, BitVec.ofNat 32 pr.2)]), t)

/-- The pairs of a REG record. -/
def regPairs (b : List Byte) : List (Nat × Nat) :=
  (List.range (Rec.count b)).map (fun i => (leAt b (12 + 8 * i) 4, leAt b (16 + 8 * i) 4))

/-- REG pairs on a die, from a state in which its held writes are tried first. -/
def putRegs (s : State) (d : Nat) (prs : List (Nat × Nat)) : Option Nat × State :=
  let trial := (s.heldOf d).foldl (fun s x => imageWrite s d x.1 x.2.toNat) (if s.boot.warm then accessBlank s d else s)
  let (e, s, _) := prs.foldl (fun x p => putReg x d p) (none, s, trial)
  (e, s)

/-- A record as it stands enters the stream that a warm build keeps for each die that it names (R105). -/
def keepRecord (s : State) (b : List Byte) (bytes : Nat) : State :=
  (maskDies s (Rec.mask b)).foldl (fun s d =>
    let l := SMap.get (fun _ => []) s.cfg.parse.regs d ++ (List.range (bytes / 4)).map (word32 b)
    s.setParse { s.cfg.parse with regs := SMap.set (fun _ => []) s.cfg.parse.regs d l }) s

def execReg (s : State) : Host.Outcome State Fault Refusal :=
  .next (if recIs s Rec.reg then
    let b := s.cfg.parse.buf
    let rest := b.drop (12 + 8 * Rec.count b)
    if s.cfg.parse.kind = .full then
      let (e, s) := (maskDies s (Rec.mask b)).foldl (fun (x : Option (Nat × Nat) × State) d =>
        match x.1 with
        | some _ => x
        | none =>
          let (e, s) := putRegs x.2 d (regPairs b)
          (e.map (fun c => (c, d)), s)) (none, s)
      match e with
      | some (c, d) => recFail s c (some (d, 0))
      | none => recTake s rest
    else if s.cfg.parse.kind = .warmBuild then recTake (keepRecord s b (12 + 8 * Rec.count b)) rest
    else recTake s rest
  else s)

/-! ## WAKE and optional records -/

/-- WAKE: the values are used when END is reached. -/
def execWake (s : State) : Host.Outcome State Fault Refusal :=
  .next (if recIs s Rec.wake then
    let b := s.cfg.parse.buf
    let s := if s.cfg.parse.kind = .warmBuild then keepRecord s b 20 else s
    recTake (s.setParse { s.cfg.parse with wake := some (leAt b 12 4, leAt b 16 4) }) (b.drop 20)
  else s)

/-- A record of an optional type is skipped, as far as it has arrived. -/
def execOptionalRecord (s : State) : Host.Outcome State Fault Refusal :=
  let b := s.cfg.parse.buf
  .next (if recIs s (Rec.type b) && Rec.optional (Rec.type b) then
    let n := min (Rec.count b) ((Rec.pay b).length / 4 * 4)
    recTake s (recRest b n 0 n)
  else s)

end Sys2Proof.Machine
end

