-- ==== Sys2Proof/Machine/Load.lean ====
section
/-!
DEFINITION. The end of a pass through an image (R75, R88, R90, R95, R104, R203 to R206), the reading of segments (R87, R88), warm builds
and warm loads (R106 to R109), and the end of a confirmation (R101).
-/

namespace Sys2Proof.Machine

/-! ## What a load leaves (R100, R101, R107) -/

/-- A valid wake-up sequence (R75). -/
def wakeOk (seq cfg : Nat) : Bool :=
  let slots := (List.range 8).map (fun k => fld seq (4 * k) 4)
  let steps := slots.takeWhile (fun c => c != 0)
  let at_ (c : Nat) : Nat := steps.findIdx (fun x => x == c)
  let once (c : Nat) : Bool := steps.count c == 1
  (slots.drop steps.length).all (fun c => c == 0) && steps.all (fun c => decide (c ≤ 8))
    && once WStep.lock && once WStep.goe && once WStep.gsr && once WStep.gwe && once WStep.core && once WStep.lane && once WStep.done
    && decide (steps.count WStep.ddrw ≤ 1) && at_ WStep.lock == 0
    && decide (at_ WStep.gsr < at_ WStep.gwe ∧ at_ WStep.gsr < at_ WStep.core ∧ at_ WStep.gsr < at_ WStep.lane)
    && (steps.count WStep.ddrw == 0 || decide (at_ WStep.gsr < at_ WStep.ddrw)) && decide (at_ WStep.gwe < at_ WStep.done)
    && cfg % 256 != 0

/-- Which slot runs, as CFG_BOOT_STATUS shows it. -/
def showRun (s : State) (slot : Option Nat) : State :=
  let h := s.head
  match slot with
  | none => ((s.p h R.CFG_BOOT_STATUS.RUN_SLOT 3).p h R.CFG_BOOT_STATUS.FALLBACK 0).p h R.CFG_BOOT_STATUS.CONF 0
  | some n =>
    let s := s.p h R.CFG_BOOT_STATUS.RUN_SLOT n
    match s.cfg.flash.br with
    | none => (s.p h R.CFG_BOOT_STATUS.FALLBACK 0).p h R.CFG_BOOT_STATUS.CONF 0
    | some b =>
      let conf := if b.pending ∧ n = b.active then (if s.trialCount b.seq Trial.confirm = 0 then 1 else 2) else 0
      (s.p h R.CFG_BOOT_STATUS.FALLBACK (if n = b.active then 0 else 1)).p h R.CFG_BOOT_STATUS.CONF conf

/-- The running image: its record, and its hash index (R120). -/
def setRun (s : State) (x : RunImg) : State :=
  let s := s.setCfg { s.cfg with run := x }
  (s.p s.head R.SEC_PKH_STATUS.RUN_PK (x.pk.getD 0)).p s.head R.SEC_PKH_STATUS.RUN_PK_VALID (if x.pk.isSome then 1 else 0)

/-- Every die shows a complete image and takes its wake-up sequence (R90). -/
def showLoaded (s : State) (version : Nat) (wake : Nat × Nat) : State :=
  s.onDies (fun s d =>
    let s := ((s.p d R.CFG_LOAD_STATUS.BUSY 0).p d R.CFG_LOAD_STATUS.LOADED 1).p d R.CFG_IMAGE_VERSION.VERSION version
    let s := (s.p d R.CFG_WAKE_SEQ.SLOT wake.1).p d R.CFG_WAKE_CFG.LANE_KEEP (wake.2 / 2 ^ 16)
    ((s.p d R.CFG_WAKE_CFG.LOCK_TMO (fld wake.2 12 2)).p d R.CFG_WAKE_CFG.DDRW_TMO (fld wake.2 8 2)).p d R.CFG_WAKE_CFG.GAP (wake.2 % 256))

/-- What an image declares of a die. -/
def designFor (l : List (Nat × DieDesign)) (d : Nat) : DieDesign :=
  match l.find? (fun e => e.1 == d) with
  | some e => e.2
  | none => DieDesign.empty

/-- A full load has succeeded: the wake-up sequence begins. -/
def fullDone (s : State) : State :=
  let p := s.cfg.parse
  let slot := match p.src with
    | .slot n => some n
    | _ => none
  let run : RunImg := ⟨p.src, Hdr.version p.hdr, Hdr.svn p.hdr, Hdr.warmAuto p.hdr, Hdr.hash p.hdr, p.pk⟩
  let s := showLoaded s run.version (p.wake.getD (0, 0))
  let s := showRun (match slot with
    | some n => bootLog s n Lerr.none
    | none => s) slot
  let s := s.onDies (fun s d => if (s.warmOf d).run.hdrHash = run.hdrHash then s else warmClear s d)
  let s := (setRun s run).onDies (fun s d => applyDesign s d (designFor p.design d))
  wakeBegin ({ s with boot := { s.boot with jtag := none } }.setParse .reset)

/-- A partial load has succeeded (R204, R206): its regions are FENCED again, and a release that waited starts. -/
def partialDone (s : State) : State :=
  let p := s.cfg.parse
  let s := ((s.pAll R.CFG_LOAD_STATUS.SOURCE 6).pAll R.CFG_LOAD_STATUS.ERROR Lerr.none).pAll R.CFG_LOAD_STATUS.BUSY 0
  let s := s.onDies (fun s d =>
    let rs := loadingRegions s d
    let new := designFor p.design d
    let w := s.warmOf d
    let s := if w.refresh ∧ p.touched.getLsbD d then s.setWarm d { w with
        marks := rs.foldl (fun (m : BitVec 32) r => m ||| (1#32 <<< r)) w.marks, design := mergeDesign s d rs w.design new }
      else s
    let s := applyPartial s d rs new
    rs.foldl (fun s r =>
      takePending ((setPrState s d r Pr.fenced).p d (R.FAB_PR_STATUS.REPLACED r) 1) d r (fun s => startRelease s d r)) s)
  passEnd s true Lerr.none

/-- The stream that a warm build has kept goes into each die's region, ending in END (R105). -/
def writeRecs (s : State) : Bool × State :=
  (s.warmDies.filter (builds s)).foldl (fun (x : Bool × State) d =>
    let l := SMap.get (fun _ => []) s.cfg.parse.regs d ++ [BitVec.ofNat 32 (0x0F000000 + 2 ^ (16 + d)), 0, 0]
    let (r, t) := warmWords x.2 d warmRecs (words64 (l.flatMap (fun w => bytesLE 4 w.toNat)))
    (x.1 && r == .ok, t)) (true, s)

/-- The lengths of R88 step 6 agree. -/
def lengthOk (s : State) : Bool :=
  let p := s.cfg.parse
  p.seg == Hdr.segCount p.hdr && p.pos - 4096 == Hdr.bodyLen p.hdr

/-- END has been reached and the last segment has been read: the pass is complete. A warm build then waits for its digests. -/
def passDone (s : State) : State :=
  let p := s.cfg.parse
  if !(p.ended && p.lastSeg) then s
  else if !lengthOk s then recFail s Lerr.length none
  else match p.kind with
    | .full => fullDone s
    | .partialLoad => partialDone s
    | .verify => passEnd s true Lerr.none
    | .flashPass => passEnd (passRepairs s) false Lerr.none
    | .warmBuild =>
      let (ok, t) := writeRecs s
      if ok then t else warmFailOpen t
    | .idle => s
    | .finished => s

/-! ## END (R75, R90, R91, R95, R199, R203) -/

/-- A frame that a full image has not written. -/
def missingFrame (s : State) : Option (Nat × Nat) := findFrame s.dies 0 frameCount (fun d fa => !wasWritten s d fa)

/-- What END finds wrong. DESIGN CHOICE (notes/assumptions/55.md): a missing WAKE fails with RECORD. -/
def endErr (s : State) (design : List (Nat × DieDesign)) : Option (Nat × Option (Nat × Nat)) :=
  match s.cfg.parse.wake with
  | none => some (Lerr.record, none)
  | some (seq, cfg) =>
    match s.cfg.parse.kind with
    | .full =>
      if !wakeOk seq cfg then some (Lerr.wakeOrder, none)
      else match missingFrame s with
        | some x => some (Lerr.frameMissing, some x)
        | none => if s.dies.all (fun d => designOk (designFor design d)) then none else some (Lerr.record, none)
    | .partialLoad =>
      if seq = s.g s.head R.CFG_WAKE_SEQ.SLOT ∧ cfg = s.g s.head (word R.CFG_WAKE_CFG.GAP.off) then none else some (Lerr.wakeOrder, none)
    | .verify => if wakeOk seq cfg then none else some (Lerr.wakeOrder, none)
    | _ => none

/-- END ends the stream: every payload byte after it is zero. `design` is what the frames declare. -/
def execEndRecord (design : List (Nat × DieDesign)) (s : State) : Host.Outcome State Fault Refusal :=
  .next (if recIs s Rec.end_ then
    match endErr s design with
    | some (e, x) => recFail s e x
    | none =>
      if (Rec.pay s.cfg.parse.buf).any (fun b => b != 0#8) then recFail s Lerr.record none
      else passDone (s.setParse { s.cfg.parse with buf := [], ended := true, design := design })
  else s)

/-! ## Segments (R87, R88) -/

/-- The initial vector of segment `i`: IV_BASE, its last 4 bytes XORed with `i`. -/
def segIv (h : List Byte) (i : Nat) : List Byte :=
  (h.drop 0x30).take 8 ++ bytesBE 4 (beAt h 0x38 4 ^^^ i)

/-- The payload of a segment, decrypted where the image is. -/
def segPlain (s : State) (l : List Byte) (len : Nat) : Option (List Byte) :=
  let p := s.cfg.parse
  let body := (l.drop 8).take len
  if Hdr.enc p.hdr then
    (imageKey s p.hdr).bind (fun k => Config.gcmOpen k (segIv p.hdr p.seg) (l.take 8) body ((l.drop (8 + len)).take 16))
  else some body

/-- A segment of `n` bytes with a payload of `len` has been read: its hash and tag, then its records (R88 step 5).
DESIGN CHOICE (notes/assumptions/55.md): reserved bits of SFLAGS that are not 0 fail with LENGTH. -/
def takeSegment (s : State) (l : List Byte) (len n : Nat) : State :=
  let p := s.cfg.parse
  if Config.sha384 l ≠ p.next then passFail s Lerr.chain p.seg none
  else if 2 ≤ leAt l 4 4 then passFail s Lerr.length p.seg none
  else match segPlain s l len with
    | none => passFail s (if (imageKey s p.hdr).isSome then Lerr.gcmTag else Lerr.keyUnavailable) p.seg none
    | some pay =>
      let t := s.setParse { p with pos := p.pos + n, seg := p.seg + 1, next := BitVec.ofNat 384 (beAt l (n - 48) 48)
                                   lastSeg := leAt l 4 4 == 1, buf := if p.ended then [] else p.buf ++ pay }
      if p.ended then (if pay.any (fun b => b != 0#8) then recFail t Lerr.record none else passDone t)
      else settle t

/-- A pass wants its next segment: no record that has arrived can be used. -/
def wantsSegment (s : State) : Bool :=
  passing s && s.cfg.parse.hdrDone && !s.cfg.parse.lastSeg && !recReady s

/-- The next segment is read whole. `disturbed` readings of it fail their hash; a third ends the pass. DESIGN CHOICE
(notes/assumptions/55.md): a LEN out of range or no multiple of 8 fails with LENGTH. -/
def execSegmentRead (disturbed : Fin 4) (s : State) : Host.Outcome State Fault Refusal :=
  let p := s.cfg.parse
  let past (s : State) (n : Nat) : Bool := decide (Hdr.bodyLen p.hdr < p.pos - 4096 + n) || (match srcRoom s with
    | some r => decide (r < p.pos + n)
    | none => false)
  .next (if !wantsSegment s || srcWaits s p.pos 8 then s
  else if Hdr.segCount p.hdr ≤ p.seg ∨ past s 8 then passFail s Lerr.length p.seg none
  else
    match srcRead (srcSuspends s) p.pos 8 with
    | (none, s) => passFail s Lerr.chain p.seg none
    | (some a, s) =>
      let len := leAt a 0 4
      let n := 56 + len + (if Hdr.enc p.hdr then 16 else 0)
      if len % 8 ≠ 0 ∨ len < 8 ∨ 65536 < len ∨ past s n then passFail s Lerr.length p.seg none
      else if srcWaits s p.pos n then s
      else match srcRead s p.pos n with
        | (none, s) => passFail s Lerr.chain p.seg none
        | (some l, s) => if disturbed = 3 then passFail s Lerr.chain p.seg none else takeSegment (bbCheck s) l len n)

/-! ## Warm builds (R106, R206) -/

/-- The words of a die's warm region that its digest covers, read by its Parser. -/
def regionRead (s : State) (d : Nat) : Option (List DWord) × State :=
  let (r, ws, t) := readMany s (s.parserMaster d) (warmBase s d) (warmLen / 8)
  (if r = .ok ∧ ws.all (fun w => !w.p) then some (ws.map (fun w => w.v)) else none, { t with reply := s.reply })

def wordsDigest (ws : List DWord) : BitVec 384 := Config.sha384 (ws.flatMap (fun v => bytesLE 8 v.toNat))

/-- A die's region and digest are valid. -/
def warmValid (s : State) (d : Nat) (digest : BitVec 384) : State :=
  ((s.setWarm d { s.warmOf d with digest := digest, refresh := false }).p d R.CFG_WARM_STATUS.VALID 1).pulse d (d * 72 + 4)

/-- The digests of a build, die by die; a region that cannot be read fails it. -/
def buildDigests (s : State) : Bool × State :=
  (s.warmDies.filter (builds s)).foldl (fun (x : Bool × State) d =>
    match regionRead x.2 d with
    | (some ws, t) =>
      let t := t.setWarm d ⟨wordsDigest ws, accessRegs t d, 0, false,
        { t.cfg.run with src := s.cfg.parse.src }, designFor s.cfg.parse.design d⟩
      (x.1, t)
    | (none, t) => (false, t)) (true, s)

/-- A warm build ends: digests and access state are stored, and the regions are valid. -/
def execWarmBuildDone (s : State) : Host.Outcome State Fault Refusal :=
  .next (if s.cfg.parse.kind = .warmBuild ∧ s.cfg.parse.ended ∧ s.cfg.parse.lastSeg then
    let ds := s.warmDies.filter (builds s)
    let (ok, t) := buildDigests s
    if ok then
      let t := t.each ds (fun s d => (warmValid s d (s.warmOf d).digest).p d R.CFG_WARM_STATUS.BUILDING 0)
      passEnd t (buildCmd t) Lerr.none
    else warmFailOpen (t.each ds warmClear)
  else s)

/-- After a partial load the digest of a die's region is taken again (R206). A region that cannot be read stays not valid. -/
def execWarmDigestRecomputed (die : Die) (s : State) : Host.Outcome State Fault Refusal :=
  .next (if s.present die ∧ (s.warmOf die).refresh ∧ ¬ (s.cfg.parse.kind = .partialLoad ∧ s.cfg.parse.touched.getLsbD die) then
    match regionRead s die with
    | (some ws, t) => warmValid t die (wordsDigest ws)
    | (none, t) => t.setWarm die { t.warmOf die with refresh := false }
  else s)

/-! ## Commands and confirmation (R101, R104) -/

/-- A CFG_CMD operation ends. -/
def execCfgCmdComplete (s : State) : Host.Outcome State Fault Refusal :=
  .next (match s.cfg.cmd, s.cfg.parse.kind with
  | some _, .finished =>
    let e := s.cfg.parse.finErr.getD Lerr.none
    let s := (s.setCfg { s.cfg with cmd := none }).setParse .reset
    ((s.p s.head R.CFG_CMD_STATUS.ERROR e).p s.head R.CFG_CMD_STATUS.BUSY 0).p s.head R.CFG_CMD_STATUS.DONE 1
  | _, _ => s)

/-- Programming of the CONFIRM entry ends; `ok` is false where the flash reports an error. -/
def execConfirmProgrammed (ok : Bool) (s : State) : Host.Outcome State Fault Refusal :=
  let h := s.head
  .next (if s.on h R.CFG_BOOT_STATUS.CONF_BUSY then
    let s := s.p h R.CFG_BOOT_STATUS.CONF_BUSY 0
    if !ok then (s.cutTrial).p h R.CFG_BOOT_STATUS.CONF 3
    else match s.cfg.flash.br.bind (fun b => s.addTrial b.seq Trial.confirm) with
      | some t => t.p h R.CFG_BOOT_STATUS.CONF 2
      | none => s.p h R.CFG_BOOT_STATUS.CONF 3
  else s)

/-! ## Warm loads (R108, R109) -/

/-- The REG pairs and the WAKE values of a record stream, to its END. -/
def streamRecs : Nat → List Byte → List (Nat × Nat) × Option (Nat × Nat)
  | 0, _ => ([], none)
  | fuel + 1, b =>
    if Rec.type b = Rec.reg then
      let (l, w) := streamRecs fuel (b.drop (12 + 8 * Rec.count b))
      (regPairs b ++ l, w)
    else if Rec.type b = Rec.wake then
      let (l, w) := streamRecs fuel (b.drop 20)
      (l, some (w.getD (leAt b 12 4, leAt b 16 4)))
    else ([], none)

/-- A die takes its image from the words of its warm region. -/
def warmTake (s : State) (d : Nat) (ws : List DWord) : State :=
  let s := (partsOf 64 frameCount (ws.take (frameCount * 64))).zipIdx.foldl (fun s x =>
    if isCaptureFrame x.2 then s else s.setFrame d x.2 x.1) s
  let sigs := (ws.drop (warmSigs / 8)).take (frameCount / 2)
  let s := sigs.zipIdx.foldl (fun s x => (s.setSig d (2 * x.2) (halfWord x.1 0)).setSig d (2 * x.2 + 1) (halfWord x.1 1)) s
  let map := (ws.drop (warmMap / 8)).take (frameCount / 64)
  let s := map.zipIdx.foldl (fun s x => (List.range 64).foldl (fun s j => s.setDynMark d (64 * x.2 + j) (x.1.getLsbD j)) s) s
  let recs := (ws.drop (warmRecs / 8)).flatMap (fun v => bytesLE 8 v.toNat)
  let (prs, wake) := streamRecs recs.length recs
  let (e, s) := putRegs s d prs
  let s := if e.isSome then s.setParse { s.cfg.parse with finErr := e } else s
  if d = s.head then s.setParse { s.cfg.parse with wake := wake } else s

/-- A warm load that fails (R108, R109): the dies at fault record it, no warm image is valid, configuration memory and the restored access
state are cleared, and the slots are tried. -/
def warmFallback (s : State) (bad : List Nat) (attempt : Bool) : State :=
  let s := bad.foldl (fun s d => s.p d R.CFG_LOAD_STATUS.ERROR Lerr.warmDigest) s
  let s := s.onDies (fun s d =>
    let s := accessBlank s d
    let s := warmClear (s.p d R.CFG_LOAD_STATUS.BUSY 0) d
    (List.range 2).foldl (fun s c => s.p d (R.DDR_STATUS.STATE c) DdrState.off) (s.p d R.DDR_MAP_SUM.CRC (mapSum s d)))
  let s := s.setCfg { s.cfg with frames := [], sigs := [], dyn := [], held := [], parse := .reset }
  let s := { s with boot := { s.boot with warm := false, warmReady := false } }
  if flashMode s ∧ s.cfg.flash.ready then nextSlot (makePlan s attempt) else s

/-- A warm load has succeeded: the wake-up sequence begins. -/
def warmDone (s : State) : State :=
  let run := (s.warmOf s.head).run
  let slot := match run.src with
    | .slot n => some n
    | _ => none
  let s := showLoaded s run.version (s.cfg.parse.wake.getD (0, 0))
  let s := setRun (showRun s slot) { run with src := .warm }
  let s := s.onDies (fun s d =>
    let s := applyDesign s d (s.warmOf d).design
    (bitsOf 32 (s.warmOf d).marks.toNat).foldl (fun s r => s.p d (R.FAB_PR_STATUS.REPLACED r) 1) s)
  wakeBegin (s.setParse .reset)

/-- Every die's Parser reads its region. -/
def warmReads (s : State) : List (Nat × Option (List DWord)) × State :=
  s.dies.foldl (fun x d => (x.1 ++ [(d, (regionRead x.2 d).1)], (regionRead x.2 d).2)) ([], s)

/-- The dies whose region cannot be read, or has another digest than the one kept. -/
def warmWrong (s : State) (reads : List (Nat × Option (List DWord))) : List Nat :=
  (reads.filter (fun x => match x.2 with
    | some ws => decide (wordsDigest ws ≠ (s.warmOf x.1).digest)
    | none => true)).map (fun x => x.1)

/-- The dies take their image from the words read, where no die is at fault; one whose pairs are refused fails the load. -/
def warmEnd (s : State) (reads : List (Nat × Option (List DWord))) (bad : List Nat) (attempt : Bool) : State :=
  if bad.isEmpty then
    let t := reads.foldl (fun s x => warmTake s x.1 (x.2.getD [])) s
    if t.cfg.parse.finErr.isSome then warmFallback t t.dies attempt else warmDone t
  else warmFallback s bad attempt

/-- The channels have resumed: the Parsers read and hash their regions. -/
def execWarmParserStart (s : State) (attempt : Bool := true) : Host.Outcome State Fault Refusal :=
  let chans := mapChannels s
  let st (ch : Nat) : Nat := s.g (chDie ch) (R.DDR_STATUS.STATE (chCtl ch))
  .next (if s.phase = Phase.load ∧ s.boot.inReset = none ∧ s.boot.warm ∧ s.boot.warmReady = false
      ∧ chans.all (fun ch => st ch != DdrState.training) then
    let failed := chans.filter (fun ch => st ch == DdrState.failed)
    let x := warmReads { s with boot := { s.boot with warmReady := true } }
    warmEnd x.2 x.1 (failed.map chDie ++ warmWrong x.2 x.1) attempt
  else s)

end Sys2Proof.Machine
end

