-- ==== Sys2Proof/Machine/SeDma.lean ====
section
/-!
DEFINITION. The DMA channels of the signal engines at work (R239 to R241): the requests of a transfer, its end, and its errors.
-/

namespace Sys2Proof.Machine

/-! ## One request (R239) -/

/-- One request is performed and completes: its response. -/
def dmaOne (s : State) (d i : Nat) (x : DmaDesc) (p : DmaPart) : Resp × State :=
  let m := s.seMaster d i
  if x.write then
    match dmRead s d i (p.loc / 8) (p.len / 8) with
    | (ws, s) => sendWrite s m p.addr ws
  else
    match sendRead s m p.addr (p.len / 8) with
    | (.ok, ws, s) => (.ok, dmWrite s d i (p.loc / 8) (ws.map (fun w => (w, 0xFF#8))))
    | (r, _, s) => (r, s)

/-- A request that was already issued when the channel stopped: its read data is discarded (R241). -/
def dmaLate (s : State) (d i : Nat) (x : DmaDesc) (p : DmaPart) : State :=
  let m := s.seMaster d i
  if x.write then (dmaOne s d i x p).2 else (sendRead s m p.addr (p.len / 8)).2.2

/-- Count the bytes that a channel has moved. -/
def dmaBytes (s : State) (d i n : Nat) : State := s.inc d (R.SEA_CNT_DMABYTES.COUNT i) n

/-! ## The end of a transfer (R240, R241) -/

/-- A channel ends: its DMA-done PEND bit is set. An error that an earlier transfer left to be raised stays, with its response. -/
def dmaEnd (s : State) (d i c : Nat) (err : Option Resp) : State :=
  let s := waitPass s d i
  let e := s.eng d i
  let x := { e.ch c with run := none, done := 0 }
  let x := if x.err then x
    else match err with
    | some r => { x with last := r.code, err := true }
    | none => { x with last := 0 }
  s.setEng d i { e.setCh c x with pend := e.pend ||| (2#3 <<< c) }

/-- The channel receives a response that is not OK. How many of the next requests it had issued, of at most 32 outstanding, is a free
value. -/
def dmaFail (s : State) (d i c : Nat) (x : DmaDesc) (rest : List DmaPart) (r : Resp) : State :=
  let (n, s) := s.free 5
  dmaEnd ((rest.take n.toNat).foldl (fun s p => dmaLate s d i x p) s) d i c (some r)

/-- Perform the requests of a transfer until one fails. -/
def dmaRun (d i c : Nat) (x : DmaDesc) : State → List DmaPart → State
  | s, [] => dmaEnd s d i c none
  | s, p :: l =>
    match dmaOne s d i x p with
    | (.ok, s) => dmaRun d i c x (dmaBytes s d i p.len) l
    | (r, s) => dmaFail s d i c x l r

/-- Perform `n` requests of a transfer, until one fails; `f` is what becomes of the next. -/
def dmaUpTo (d i c : Nat) (x : DmaDesc) (f : State → DmaPart → List DmaPart → State) : State → List DmaPart → Nat → State
  | s, [], _ => s
  | s, p :: l, 0 => f s p l
  | s, p :: l, n + 1 =>
    match dmaOne s d i x p with
    | (.ok, s) => dmaUpTo d i c x f (dmaBytes s d i p.len) l n
    | (r, s) => dmaFail s d i c x l r

/-- The transfer that the engine has on a channel. -/
def dmaLive (s : State) (d i c : Nat) : Option DmaDesc := if s.present d then ((s.eng d i).ch c).run else none

/-- The requests of a channel that have not completed. -/
def dmaRest (s : State) (d i c : Nat) (x : DmaDesc) : List DmaPart :=
  (dmaParts s (s.seMaster d i) x).drop ((s.eng d i).ch c).done

/-- Every request of a channel has completed (R240). -/
def execDmaChannelDone (die : Die) (eng : Fin 48) (ch : Fin 2) (s : State) : Host.Outcome State Fault Refusal :=
  .next (match dmaLive s die eng ch with
    | some x => { dmaRun die eng ch x s (dmaRest s die eng ch x) with reply := s.reply }
    | none => s)

/-- A request times out (R315): it is counted and logged, and quarantines a tag; whether a write was performed is open (R310). -/
def dmaTimeout (s : State) (d i : Nat) (x : DmaDesc) (p : DmaPart) : State :=
  let m := s.seMaster d i
  let (b, s) := s.free 1
  let s := if x.write ∧ b = 1#1 then (dmaOne s d i x p).2 else s
  let tag := ((List.range 512).find? (fun g => (s.netOf m.rid g).isNone)).getD 0
  timeoutReq s m.rid tag ⟨⟨m, 0, if x.write then .write else .read, BitVec.ofNat 64 p.addr, p.len, [], []⟩, .done, false, s.coh.sent⟩

/-- After `after` more requests of a channel have completed, one gets a response that is not OK (R241). -/
def execDmaResponseError (die : Die) (eng : Fin 48) (ch : Fin 2) (after : Nat) (resp : Resp) (s : State) :
    Host.Outcome State Fault Refusal :=
  .next (match dmaLive s die eng ch with
    | some x =>
      let l := dmaRest s die eng ch x
      if resp = .ok ∨ l.length ≤ after then s
      else
        { dmaUpTo die eng ch x (fun s p rest =>
            dmaFail (if resp = .timeout then dmaTimeout s die eng x p else s) die eng ch x rest resp) s l after with reply := s.reply }
    | none => s)

/-! ## Stopped channels (R244, R246) -/

/-- The oldest request of an engine's stopped channels completes; a read's data is discarded. -/
def lateStep (s : State) (d i : Nat) : State :=
  match s.seLate d i with
  | [] => s
  | p :: l =>
    let s := s.setSeLate d i l
    match p.ws with
    | some ws => (sendWrite s (s.seMaster d i) p.addr ws).2
    | none => (sendRead s (s.seMaster d i) p.addr p.n).2.2

/-- No request of a stopped channel is outstanding: an aborting engine is IDLE, and the completion after an error is sent. -/
def lateEnd (s : State) (d i : Nat) : State :=
  if (s.seLate d i).isEmpty then
    let s := s.setEng d i (s.eng d i)
    seOwed (if s.seState d i = SeState.aborting then s.setSeState d i SeState.idle else s) d i
  else s

/-- The last outstanding request of an aborting engine has completed (R244). -/
def execAbortingEnd (die : Die) (eng : Fin 48) (s : State) : Host.Outcome State Fault Refusal :=
  .next (if s.seState die eng = SeState.aborting then
    { lateEnd ((s.seLate die eng).foldl (fun s _ => lateStep s die eng) s) die eng with reply := s.reply }
  else s)

/-! ## What goes on with time -/

/-- A channel of a clocked engine performs its next request; the last one ends it. -/
def dmaStep (s : State) (d i c : Nat) : State :=
  match dmaLive s d i c with
  | some x =>
    if seClocked s d i then
      match dmaRest s d i c x with
      | [] => dmaEnd s d i c none
      | p :: l =>
        match dmaOne s d i x p with
        | (.ok, s) =>
          let s := dmaBytes s d i p.len
          if l.isEmpty then dmaEnd s d i c none
          else
            let e := s.eng d i
            s.setEng d i (e.setCh c { e.ch c with done := (e.ch c).done + 1 })
        | (r, s) => dmaFail s d i c x l r
    else s
  | none => s

/-- An engine as time passes: what a WAIT lets become visible, a request of each channel, and one of a stopped channel. -/
def seStep (s : State) (d i : Nat) : State :=
  let s := if s.seState d i = SeState.wait ∧ seClocked s d i ∧ !(s.eng d i).fly.isEmpty then s.setEng d i (s.eng d i).drain else s
  let s := dmaStep (dmaStep s d i 0) d i 1
  if (s.seLate d i).isEmpty then (if (s.eng d i).owed then seOwed s d i else s) else lateEnd (lateStep s d i) d i

/-- Every engine as time passes. -/
def seTime (s : State) : State :=
  ((s.se.eng.map (fun e => e.1)) ++ (s.se.late.map (fun e => e.1)).filter (fun k => !s.se.eng.any (fun e => e.1 == k))).foldl
    (fun s k => seStep s (k / 48) (k % 48)) s

end Sys2Proof.Machine
end

