-- ==== Sys2Proof/Machine/Dispatch.lean ====
section
/-!
DEFINITION. The dispatch of a command to its meaning: one arm per constructor of Instr, in the order of the table.
-/

namespace Sys2Proof.Machine

def exec (i : Instr) (s : State) : Host.Outcome State Fault Refusal :=
  match i with
  | .registerWrite m die off size data poison => Sys2Proof.Machine.execRegisterWrite m die off size data poison s
  | .readClear m die off size => Sys2Proof.Machine.execReadClear m die off size s
  | .highHalfRead m die off => Sys2Proof.Machine.execHighHalfRead m die off s
  | .powerOnReset rail => Sys2Proof.Machine.execPowerOnReset rail s
  | .porRelease straps => Sys2Proof.Machine.execPorRelease straps s
  | .brownOut rail die => Sys2Proof.Machine.execBrownOut rail s die
  | .lockUp die core => Sys2Proof.Machine.execLockUp die core s
  | .watchdogExpiry die => Sys2Proof.Machine.execWatchdogExpiry die s
  | .wdtKick m die key => Sys2Proof.Machine.execWdtKick m die key s
  | .wdtEnable m die v => Sys2Proof.Machine.execWdtEnable m die v s
  | .progNLow => Sys2Proof.Machine.execProgNLow s
  | .progNRise => Sys2Proof.Machine.execProgNRise s
  | .debugReset die => Sys2Proof.Machine.execDebugReset die s
  | .softwareReset m die key go => Sys2Proof.Machine.execSoftwareReset m die key go s
  | .blocksResetRelease die => Sys2Proof.Machine.execBlocksResetRelease die s
  | .rstBlockWrite m die hold => Sys2Proof.Machine.execRstBlockWrite m die hold s
  | .configClearDone => Sys2Proof.Machine.execConfigClearDone s
  | .housekeepEnd temp => Sys2Proof.Machine.execHousekeepEnd temp s
  | .heaterHoldEnd temp => Sys2Proof.Machine.execHeaterHoldEnd temp s
  | .initNHigh mode => Sys2Proof.Machine.execInitNHigh mode s
  | .flashSetup dev0 dev1 attempt => Sys2Proof.Machine.execFlashSetup dev0 dev1 s attempt
  | .jtagProgram image => Sys2Proof.Machine.execJtagProgram image s
  | .imageHeader names => Sys2Proof.Machine.execImageHeader s names
  | .segmentRead disturbed => Sys2Proof.Machine.execSegmentRead disturbed s
  | .frames wrong => Sys2Proof.Machine.execFrames s wrong
  | .sparse wrong => Sys2Proof.Machine.execSparse s wrong
  | .fill wrong => Sys2Proof.Machine.execFill s wrong
  | .copy wrong => Sys2Proof.Machine.execCopy s wrong
  | .sigs => Sys2Proof.Machine.execSigs s
  | .sigmap => Sys2Proof.Machine.execSigmap s
  | .reg => Sys2Proof.Machine.execReg s
  | .wake => Sys2Proof.Machine.execWake s
  | .endRecord design => Sys2Proof.Machine.execEndRecord design s
  | .optionalRecord => Sys2Proof.Machine.execOptionalRecord s
  | .wakeLock => Sys2Proof.Machine.execWakeLock s
  | .lockTimeout => Sys2Proof.Machine.execLockTimeout s
  | .wakeGoe => Sys2Proof.Machine.execWakeGoe s
  | .wakeGsr => Sys2Proof.Machine.execWakeGsr s
  | .wakeGwe => Sys2Proof.Machine.execWakeGwe s
  | .wakeDdrw => Sys2Proof.Machine.execWakeDdrw s
  | .ddrwTimeout => Sys2Proof.Machine.execDdrwTimeout s
  | .wakeCore => Sys2Proof.Machine.execWakeCore s
  | .wakeLane => Sys2Proof.Machine.execWakeLane s
  | .wakeDone => Sys2Proof.Machine.execWakeDone s
  | .wakeEnd => Sys2Proof.Machine.execWakeEnd s
  | .tamperPin pin level also => Sys2Proof.Machine.execTamperPin pin level s also
  | .vglitch die rail also => Sys2Proof.Machine.execVglitch die rail s also
  | .ckglitch die also => Sys2Proof.Machine.execCkglitch die s also
  | .tamperTemp die temp also => Sys2Proof.Machine.execTamperTemp die temp s also
  | .meshCheck fault also => Sys2Proof.Machine.execMeshCheck fault s also
  | .lockdownEraseDone => Sys2Proof.Machine.execLockdownEraseDone s
  | .tamperLogClear m v => Sys2Proof.Machine.execTamperLogClear m v s
  | .tamperCfgLock m v => Sys2Proof.Machine.execTamperCfgLock m v s
  | .refSelWrite m die sel auto => Sys2Proof.Machine.execRefSelWrite m die sel auto s
  | .refMuxOldLow die => Sys2Proof.Machine.execRefMuxOldLow die s
  | .refMuxNewLow die => Sys2Proof.Machine.execRefMuxNewLow die s
  | .refmuxStuck die => Sys2Proof.Machine.execRefmuxStuck die s
  | .refForce m die sel auto => Sys2Proof.Machine.execRefForce m die sel auto s
  | .refEdgeLoss die inp => Sys2Proof.Machine.execRefEdgeLoss die inp s
  | .refEdgeReturn die inp => Sys2Proof.Machine.execRefEdgeReturn die inp s
  | .refQualified die inp => Sys2Proof.Machine.execRefQualified die inp s
  | .freqMeasurement die ppb fofs => Sys2Proof.Machine.execFreqMeasurement die ppb fofs s
  | .rootLock die => Sys2Proof.Machine.execRootLock die s
  | .rootRefLoss die => Sys2Proof.Machine.execRootRefLoss die s
  | .rootPhaseLoss die => Sys2Proof.Machine.execRootPhaseLoss die s
  | .rootRelocked die => Sys2Proof.Machine.execRootRelocked die s
  | .analogueUnlock die => Sys2Proof.Machine.execAnalogueUnlock die s
  | .histValidSet die => Sys2Proof.Machine.execHistValidSet die s
  | .gateWrite m die k v => Sys2Proof.Machine.execGateWrite m die k v s
  | .altSwitch m die mux src => Sys2Proof.Machine.execAltSwitch m die mux src s
  | .altSwitchComplete die mux => Sys2Proof.Machine.execAltSwitchComplete die mux s
  | .altStuck die mux => Sys2Proof.Machine.execAltStuck die mux s
  | .altForce m die mux src => Sys2Proof.Machine.execAltForce m die mux src s
  | .upllEnable m die n v => Sys2Proof.Machine.execUpllEnable m die n v s
  | .upllMeasure die n edges hz => Sys2Proof.Machine.execUpllMeasure die n edges hz s
  | .upllLock die n => Sys2Proof.Machine.execUpllLock die n s
  | .upllUnlock die n => Sys2Proof.Machine.execUpllUnlock die n s
  | .ckmux2Sel die mux sel => Sys2Proof.Machine.execCkmux2Sel die mux sel s
  | .ckmux2Force die mux force => Sys2Proof.Machine.execCkmux2Force die mux force s
  | .ckmux2Stuck die mux atNew => Sys2Proof.Machine.execCkmux2Stuck die mux s atNew
  | .clkMonStart m die v => Sys2Proof.Machine.execClkMonStart m die v s
  | .clkMonDone die count => Sys2Proof.Machine.execClkMonDone die count s
  | .confirm m key => Sys2Proof.Machine.execConfirm m key s
  | .confirmProgrammed ok => Sys2Proof.Machine.execConfirmProgrammed ok s
  | .verifySlot m slot => Sys2Proof.Machine.execVerifySlot m slot s
  | .verifyMem m => Sys2Proof.Machine.execVerifyMem m s
  | .loadMem m names => Sys2Proof.Machine.execLoadMem m s names
  | .warmBuild m => Sys2Proof.Machine.execWarmBuild m s
  | .warmBuildDone => Sys2Proof.Machine.execWarmBuildDone s
  | .cfgCmdComplete => Sys2Proof.Machine.execCfgCmdComplete s
  | .warmDigestRecomputed die => Sys2Proof.Machine.execWarmDigestRecomputed die s
  | .warmParserStart attempt => Sys2Proof.Machine.execWarmParserStart s attempt
  | .nvcErase m => Sys2Proof.Machine.execNvcErase m s
  | .nvcProgram m => Sys2Proof.Machine.execNvcProgram m s
  | .nvcBlankCheck m => Sys2Proof.Machine.execNvcBlankCheck m s
  | .nvcRead m => Sys2Proof.Machine.execNvcRead m s
  | .nvcResetFlash m => Sys2Proof.Machine.execNvcResetFlash m s
  | .nvcComplete fail => Sys2Proof.Machine.execNvcComplete fail s
  | .xipRead m off size => Sys2Proof.Machine.execXipRead m off size s
  | .nvcResume => Sys2Proof.Machine.execNvcResume s
  | .bbWrite m => Sys2Proof.Machine.execBbWrite m s
  | .bbEraseOld m => Sys2Proof.Machine.execBbEraseOld m s
  | .fuseKeyProgram m => Sys2Proof.Machine.execFuseKeyProgram m s
  | .pkhProgram m arg => Sys2Proof.Machine.execPkhProgram m arg s
  | .pkhRevoke m arg => Sys2Proof.Machine.execPkhRevoke m arg s
  | .svnCommit m => Sys2Proof.Machine.execSvnCommit m s
  | .policyProgram m => Sys2Proof.Machine.execPolicyProgram m s
  | .lcAdvance m arg => Sys2Proof.Machine.execLcAdvance m arg s
  | .lockdownCmd m => Sys2Proof.Machine.execLockdownCmd m s
  | .secCmdComplete ok => Sys2Proof.Machine.execSecCmdComplete ok s
  | .secChal => Sys2Proof.Machine.execSecChal s
  | .secResp v => Sys2Proof.Machine.execSecResp v s
  | .unlockVerified => Sys2Proof.Machine.execUnlockVerified s
  | .jtagInstruction instr => Sys2Proof.Machine.execJtagInstruction instr s
  | .rightsLock m => Sys2Proof.Machine.execRightsLock m s
  | .captureArm m die v => Sys2Proof.Machine.execCaptureArm m die v s
  | .captureAbort m die => Sys2Proof.Machine.execCaptureAbort m die s
  | .captureTrigger die => Sys2Proof.Machine.execCaptureTrigger die s
  | .captureEdge die => Sys2Proof.Machine.execCaptureEdge die s
  | .captureDone die => Sys2Proof.Machine.execCaptureDone die s
  | .captureClkStopped die => Sys2Proof.Machine.execCaptureClkStopped die s
  | .readbackStart m die v => Sys2Proof.Machine.execReadbackStart m die v s
  | .readbackDone die => Sys2Proof.Machine.execReadbackDone die s
  | .xingGroupUp die edge => Sys2Proof.Machine.execXingGroupUp die edge s
  | .xingUnderrun die edge group => Sys2Proof.Machine.execXingUnderrun die edge group s
  | .xingRecentre die edge group => Sys2Proof.Machine.execXingRecentre die edge group s
  | .bmemPortOp die site a b => Sys2Proof.Machine.execBmemPortOp die site a b s
  | .pfifoIngressTransfer die fifo => Sys2Proof.Machine.execPfifoIngressTransfer die fifo s
  | .pfifoIngressDrop die fifo => Sys2Proof.Machine.execPfifoIngressDrop die fifo s
  | .pfifoEgressTransfer die fifo word => Sys2Proof.Machine.execPfifoEgressTransfer die fifo word s
  | .pfifoEgressDrop die fifo => Sys2Proof.Machine.execPfifoEgressDrop die fifo s
  | .kslotDescTransfer die slot idle => Sys2Proof.Machine.execKslotDescTransfer die slot s idle
  | .kslotCompletion die slot cpl idle => Sys2Proof.Machine.execKslotCompletion die slot cpl s idle
  | .kslotCompletionRelease die slot => Sys2Proof.Machine.execKslotCompletionRelease die slot s
  | .nocPortRequest die port op addr len size tag => Sys2Proof.Machine.execNocPortRequest die port op addr len size tag s
  | .nocPortWriteBeat die port data be poison last => Sys2Proof.Machine.execNocPortWriteBeat die port data be poison last s
  | .nocTargetRequest die port tag req => Sys2Proof.Machine.execNocTargetRequest die port tag req s
  | .nocTargetResponse die port tag resp data => Sys2Proof.Machine.execNocTargetResponse die port tag resp data s
  | .cmpstrmTx die flit => Sys2Proof.Machine.execCmpstrmTx die flit s
  | .cmpstrmRx die => Sys2Proof.Machine.execCmpstrmRx die s
  | .evtirqLevel line level => Sys2Proof.Machine.execEvtirqLevel line level s
  | .fenceClose m die region mode tmo => Sys2Proof.Machine.execFenceClose m die region mode tmo s
  | .prSlotsOffline die region idle => Sys2Proof.Machine.execPrSlotsOffline die region idle s
  | .prPortsDrained die region => Sys2Proof.Machine.execPrPortsDrained die region s
  | .prFenced die region outs pins => Sys2Proof.Machine.execPrFenced die region s outs pins
  | .prCloseTimeout die region => Sys2Proof.Machine.execPrCloseTimeout die region s
  | .fenceRelease m die region => Sys2Proof.Machine.execFenceRelease m die region s
  | .prActive die region => Sys2Proof.Machine.execPrActive die region s
  | .sweepSlot die flips glitch sigErr => Sys2Proof.Machine.execSweepSlot die flips glitch sigErr s
  | .sweepEnable m die v => Sys2Proof.Machine.execSweepEnable m die v s
  | .repairFromWarm die wrong => Sys2Proof.Machine.execRepairFromWarm die s wrong
  | .flashPassStart => Sys2Proof.Machine.execFlashPassStart s
  | .flashPassFrame die fa wrong => Sys2Proof.Machine.execFlashPassFrame die fa wrong s
  | .nop die eng => Sys2Proof.Machine.execNop die eng s
  | .br die eng => Sys2Proof.Machine.execBr die eng s
  | .brc die eng => Sys2Proof.Machine.execBrc die eng s
  | .call die eng => Sys2Proof.Machine.execCall die eng s
  | .jr die eng => Sys2Proof.Machine.execJr die eng s
  | .reti die eng => Sys2Proof.Machine.execReti die eng s
  | .rep die eng => Sys2Proof.Machine.execRep die eng s
  | .doneOp die eng => Sys2Proof.Machine.execDoneOp die eng s
  | .intOp die eng => Sys2Proof.Machine.execIntOp die eng s
  | .movc die eng => Sys2Proof.Machine.execMovc die eng s
  | .wait die eng => Sys2Proof.Machine.execWait die eng s
  | .dma die eng => Sys2Proof.Machine.execDma die eng s
  | .bxset die eng => Sys2Proof.Machine.execBxset die eng s
  | .salu die eng => Sys2Proof.Machine.execSalu die eng s
  | .addi die eng => Sys2Proof.Machine.execAddi die eng s
  | .andi die eng => Sys2Proof.Machine.execAndi die eng s
  | .ori die eng => Sys2Proof.Machine.execOri die eng s
  | .xori die eng => Sys2Proof.Machine.execXori die eng s
  | .lui die eng => Sys2Proof.Machine.execLui die eng s
  | .shi die eng => Sys2Proof.Machine.execShi die eng s
  | .slti die eng => Sys2Proof.Machine.execSlti die eng s
  | .pmov die eng => Sys2Proof.Machine.execPmov die eng s
  | .padd die eng => Sys2Proof.Machine.execPadd die eng s
  | .lds die eng guard => Sys2Proof.Machine.execLds die eng s guard
  | .sts die eng guard => Sys2Proof.Machine.execSts die eng s guard
  | .ldv die eng guard => Sys2Proof.Machine.execLdv die eng s guard
  | .stv die eng guard => Sys2Proof.Machine.execStv die eng s guard
  | .ldvb die eng guard => Sys2Proof.Machine.execLdvb die eng s guard
  | .valu die eng => Sys2Proof.Machine.execValu die eng s
  | .vsh die eng => Sys2Proof.Machine.execVsh die eng s
  | .vbrd die eng => Sys2Proof.Machine.execVbrd die eng s
  | .vext die eng => Sys2Proof.Machine.execVext die eng s
  | .vmac die eng => Sys2Proof.Machine.execVmac die eng s
  | .vacc die eng => Sys2Proof.Machine.execVacc die eng s
  | .vnar die eng => Sys2Proof.Machine.execVnar die eng s
  | .bexp die eng => Sys2Proof.Machine.execBexp die eng s
  | .waitRelease die eng held => Sys2Proof.Machine.execWaitRelease die eng held s
  | .doneCompletion die eng => Sys2Proof.Machine.execDoneCompletion die eng s
  | .interruptTaken die eng => Sys2Proof.Machine.execInterruptTaken die eng s
  | .doorbell m die eng => Sys2Proof.Machine.execDoorbell m die eng s
  | .dmaChannelDone die eng ch => Sys2Proof.Machine.execDmaChannelDone die eng ch s
  | .dmaResponseError die eng ch after resp => Sys2Proof.Machine.execDmaResponseError die eng ch after resp s
  | .seNocAccess req => Sys2Proof.Machine.execSeNocAccess req s
  | .seAbort die eng ticket => Sys2Proof.Machine.execSeAbort die eng ticket s
  | .abortingEnd die eng => Sys2Proof.Machine.execAbortingEnd die eng s
  | .seaStart m die eng => Sys2Proof.Machine.execSeaStart m die eng s
  | .seaHalt m die eng => Sys2Proof.Machine.execSeaHalt m die eng s
  | .haltComplete die eng => Sys2Proof.Machine.execHaltComplete die eng s
  | .seaMode m die eng mode => Sys2Proof.Machine.execSeaMode m die eng mode s
  | .tokenWrite m die token => Sys2Proof.Machine.execTokenWrite m die token s
  | .deferredPlace die => Sys2Proof.Machine.execDeferredPlace die s
  | .spillLineWrite die prio => Sys2Proof.Machine.execSpillLineWrite die prio s
  | .spillWriteError die prio => Sys2Proof.Machine.execSpillWriteError die prio s
  | .refill die => Sys2Proof.Machine.execRefill die s
  | .refillError die => Sys2Proof.Machine.execRefillError die s
  | .issue die => Sys2Proof.Machine.execIssue die s
  | .completion die => Sys2Proof.Machine.execCompletion die s
  | .remoteTokenResponse die net => Sys2Proof.Machine.execRemoteTokenResponse die net s
  | .ticketRelease die ticket => Sys2Proof.Machine.execTicketRelease die ticket s
  | .descriptorWrite m die op w value => Sys2Proof.Machine.execDescriptorWrite m die op w value s
  | .cqPop m die queue => Sys2Proof.Machine.execCqPop m die queue s
  | .cqComplete m die queue status ntok ticket => Sys2Proof.Machine.execCqComplete m die queue status ntok ticket s
  | .cqFlush m die queue => Sys2Proof.Machine.execCqFlush m die queue s
  | .migrateOp m die op => Sys2Proof.Machine.execMigrateOp m die op s
  | .evacuateUnit m die unit => Sys2Proof.Machine.execEvacuateUnit m die unit s
  | .abortOp m die op => Sys2Proof.Machine.execAbortOp m die op s
  | .abortUnit m die unit => Sys2Proof.Machine.execAbortUnit m die unit s
  | .epochClose m die => Sys2Proof.Machine.execEpochClose m die s
  | .epochAbort m die => Sys2Proof.Machine.execEpochAbort m die s
  | .epochRound => Sys2Proof.Machine.execEpochRound s
  | .epochBoundary die => Sys2Proof.Machine.execEpochBoundary die s
  | .epochSlow die => Sys2Proof.Machine.execEpochSlow die s
  | .dfdEnable m die enable => Sys2Proof.Machine.execDfdEnable m die enable s
  | .dfdStopped die => Sys2Proof.Machine.execDfdStopped die s
  | .bankAccess req => Sys2Proof.Machine.execBankAccess req s
  | .bankAtomic req => Sys2Proof.Machine.execBankAtomic req s
  | .ownerChange m die bank owner => Sys2Proof.Machine.execOwnerChange m die bank owner s
  | .handoverComplete die bank => Sys2Proof.Machine.execHandoverComplete die bank s
  | .bankPowerRequest m die bank power => Sys2Proof.Machine.execBankPowerRequest m die bank power s
  | .bankPowerReached die bank => Sys2Proof.Machine.execBankPowerReached die bank s
  | .bankWipe m die bank => Sys2Proof.Machine.execBankWipe m die bank s
  | .wipeDone die bank => Sys2Proof.Machine.execWipeDone die bank s
  | .secureSet m die => Sys2Proof.Machine.execSecureSet m die s
  | .eccChkRead m die => Sys2Proof.Machine.execEccChkRead m die s
  | .eccChkWrite m die check => Sys2Proof.Machine.execEccChkWrite m die check s
  | .packetInject req => Sys2Proof.Machine.execPacketInject req s
  | .packetPark rid tag => Sys2Proof.Machine.execPacketPark rid tag s
  | .parkedDelivery die => Sys2Proof.Machine.execParkedDelivery die s
  | .completionTimeout rid tag => Sys2Proof.Machine.execCompletionTimeout rid tag s
  | .quarantineExpiry rid tag => Sys2Proof.Machine.execQuarantineExpiry rid tag s
  | .lateCompletion rid tag => Sys2Proof.Machine.execLateCompletion rid tag s
  | .nocRead req => Sys2Proof.Machine.execNocRead req s
  | .nocWrite req => Sys2Proof.Machine.execNocWrite req s
  | .readShared m line => Sys2Proof.Machine.execReadShared m line s
  | .readUnique m line => Sys2Proof.Machine.execReadUnique m line s
  | .upgrade m line => Sys2Proof.Machine.execUpgrade m line s
  | .writeback die line => Sys2Proof.Machine.execWriteback die line s
  | .evict die line => Sys2Proof.Machine.execEvict die line s
  | .cleanOp m line => Sys2Proof.Machine.execCleanOp m line s
  | .cleanInval m line => Sys2Proof.Machine.execCleanInval m line s
  | .snpShared die line => Sys2Proof.Machine.execSnpShared die line s
  | .snpInval die line => Sys2Proof.Machine.execSnpInval die line s
  | .snpRecall die line => Sys2Proof.Machine.execSnpRecall die line s
  | .rlcFlush m die => Sys2Proof.Machine.execRlcFlush m die s
  | .rlcFlushDone die => Sys2Proof.Machine.execRlcFlushDone die s
  | .rlcEccArm m die flip => Sys2Proof.Machine.execRlcEccArm m die flip s
  | .flitReceive die edge module flit => Sys2Proof.Machine.execFlitReceive die edge module flit s
  | .replayTimeout die edge module => Sys2Proof.Machine.execReplayTimeout die edge module s
  | .fatalKnown die edge => Sys2Proof.Machine.execFatalKnown die edge s
  | .moduleTrained die edge module => Sys2Proof.Machine.execModuleTrained die edge module s
  | .trainFail die edge module => Sys2Proof.Machine.execTrainFail die edge module s
  | .capsSend die edge => Sys2Proof.Machine.execCapsSend die edge s
  | .capsReceive die edge block => Sys2Proof.Machine.execCapsReceive die edge block s
  | .noCaps die edge => Sys2Proof.Machine.execNoCaps die edge s
  | .bdlTest m die arm edge module count => Sys2Proof.Machine.execBdlTest m die arm edge module count s
  | .ddrRequest req => Sys2Proof.Machine.execDdrRequest req s
  | .ddrServe die ctl sub => Sys2Proof.Machine.execDdrServe die ctl sub s
  | .writeDrainStart die ctl sub => Sys2Proof.Machine.execWriteDrainStart die ctl sub s
  | .agePromote die ctl sub seq => Sys2Proof.Machine.execAgePromote die ctl sub seq s
  | .trainingDone die ctl temp => Sys2Proof.Machine.execTrainingDone die ctl temp s
  | .trainingFail die ctl => Sys2Proof.Machine.execTrainingFail die ctl s
  | .refresh die ctl => Sys2Proof.Machine.execRefresh die ctl s
  | .tempRetrain die ctl temp => Sys2Proof.Machine.execTempRetrain die ctl temp s
  | .ddrEccFlip m die ctl v => Sys2Proof.Machine.execDdrEccFlip m die ctl v s
  | .mapSetEnable m die set v => Sys2Proof.Machine.execMapSetEnable m die set v s
  | .loadCurrent m die inst keyid device => Sys2Proof.Machine.execLoadCurrent m die inst keyid device s
  | .loadNext m die inst keyid device => Sys2Proof.Machine.execLoadNext m die inst keyid device s
  | .abandon m die inst keyid device => Sys2Proof.Machine.execAbandon m die inst keyid device s
  | .rekey m die inst keyid device => Sys2Proof.Machine.execRekey m die inst keyid device s
  | .promote m die inst keyid device => Sys2Proof.Machine.execPromote m die inst keyid device s
  | .meeClear m die inst keyid device => Sys2Proof.Machine.execMeeClear m die inst keyid device s
  | .meeInit m die inst keyid window device => Sys2Proof.Machine.execMeeInit m die inst keyid window device s
  | .meeInitDone die inst => Sys2Proof.Machine.execMeeInitDone die inst s
  | .rekeyLine die inst => Sys2Proof.Machine.execRekeyLine die inst s
  | .qpllWrite m die quad pll v => Sys2Proof.Machine.execQpllWrite m die quad pll v s
  | .qpllLock die quad pll hz => Sys2Proof.Machine.execQpllLock die quad pll hz s
  | .qpllUnlock die quad pll edges => Sys2Proof.Machine.execQpllUnlock die quad pll edges s
  | .laneEnable m die lane v => Sys2Proof.Machine.execLaneEnable m die lane v s
  | .laneRestart m die lane => Sys2Proof.Machine.execLaneRestart m die lane s
  | .laneIdleEnd die lane => Sys2Proof.Machine.execLaneIdleEnd die lane s
  | .anResolved die lane partner => Sys2Proof.Machine.execAnResolved die lane partner s
  | .anFail die lane partner => Sys2Proof.Machine.execAnFail die lane partner s
  | .anRestart die lane => Sys2Proof.Machine.execAnRestart die lane s
  | .trainingReady die lane taps => Sys2Proof.Machine.execTrainingReady die lane taps s
  | .trainingTimeout die lane => Sys2Proof.Machine.execTrainingTimeout die lane s
  | .blockLock die lane gained => Sys2Proof.Machine.execBlockLock die lane gained s
  | .alignComplete die lane => Sys2Proof.Machine.execAlignComplete die lane s
  | .linkLoss die lane cdr => Sys2Proof.Machine.execLinkLoss die lane cdr s
  | .hiBerSet die lane => Sys2Proof.Machine.execHiBerSet die lane s
  | .ebOverflow die lane tx => Sys2Proof.Machine.execEbOverflow die lane tx s
  | .backgroundScan die lane eyes => Sys2Proof.Machine.execBackgroundScan die lane eyes s
  | .readapt m die lane => Sys2Proof.Machine.execReadapt m die lane s
  | .eyeScanStart m die lane v => Sys2Proof.Machine.execEyeScanStart m die lane v s
  | .eyeScanDone die lane errors eyes => Sys2Proof.Machine.execEyeScanDone die lane errors eyes s
  | .pairBypassWrite m die pair v => Sys2Proof.Machine.execPairBypassWrite m die pair v s
  | .pairIdleEnd die pair => Sys2Proof.Machine.execPairIdleEnd die pair s
  | .prbsWrite m die lane v => Sys2Proof.Machine.execPrbsWrite m die lane v s
  | .frameReceive die lane frame codings => Sys2Proof.Machine.execFrameReceive die lane frame codings s
  | .pauseReceive die lane frame codings => Sys2Proof.Machine.execPauseReceive die lane frame codings s
  | .pauseExpiry die lane queue => Sys2Proof.Machine.execPauseExpiry die lane queue s
  | .arbiterApply src command => Sys2Proof.Machine.execArbiterApply src command s
  | .replicaUpdate die => Sys2Proof.Machine.execReplicaUpdate die s
  | .lockExpiry table index => Sys2Proof.Machine.execLockExpiry table index s
  | .moveWindowEnd table index => Sys2Proof.Machine.execMoveWindowEnd table index s
  | .ageTick => Sys2Proof.Machine.execAgeTick s
  | .l2Read m die => Sys2Proof.Machine.execL2Read m die s
  | .l2ReadIndex m die index => Sys2Proof.Machine.execL2ReadIndex m die index s
  | .l2Write m die => Sys2Proof.Machine.execL2Write m die s
  | .l2Delete m die => Sys2Proof.Machine.execL2Delete m die s
  | .flushPort m die => Sys2Proof.Machine.execFlushPort m die s
  | .flushVlan m die => Sys2Proof.Machine.execFlushVlan m die s
  | .flushDynamic m die => Sys2Proof.Machine.execFlushDynamic m die s
  | .vlanRead m die index => Sys2Proof.Machine.execVlanRead m die index s
  | .vlanWrite m die index => Sys2Proof.Machine.execVlanWrite m die index s
  | .nhRead m die index => Sys2Proof.Machine.execNhRead m die index s
  | .nhWrite m die index => Sys2Proof.Machine.execNhWrite m die index s
  | .tnbDataReceive die lane frame codings => Sys2Proof.Machine.execTnbDataReceive die lane frame codings s
  | .helloSend die lane => Sys2Proof.Machine.execHelloSend die lane s
  | .helloReceive die lane frame codings => Sys2Proof.Machine.execHelloReceive die lane frame codings s
  | .helloTimeout die lane => Sys2Proof.Machine.execHelloTimeout die lane s
  | .keepaliveMiss die lane => Sys2Proof.Machine.execKeepaliveMiss die lane s
  | .egressSend die dest => Sys2Proof.Machine.execEgressSend die dest s
  | .trunkCell die edge => Sys2Proof.Machine.execTrunkCell die edge s
  | .yWriteResponse die resp => Sys2Proof.Machine.execYWriteResponse die resp s
  | .ringHeadAdvance die ring => Sys2Proof.Machine.execRingHeadAdvance die ring s
  | .txRingSend die ring => Sys2Proof.Machine.execTxRingSend die ring s
  | .ringTailWrite m die ring index => Sys2Proof.Machine.execRingTailWrite m die ring index s
  | .ringError die ring => Sys2Proof.Machine.execRingError die ring s
  | .tsPop m die size => Sys2Proof.Machine.execTsPop m die size s
  | .ppsInEdge => Sys2Proof.Machine.execPpsInEdge s
  | .ppsOut rise => Sys2Proof.Machine.execPpsOut rise s
  | .timeWrite m die v => Sys2Proof.Machine.execTimeWrite m die v s
  | .timeAdjWrite m die v => Sys2Proof.Machine.execTimeAdjWrite m die v s
  | .timeStep m die v => Sys2Proof.Machine.execTimeStep m die v s
  | .bankDrained die bank => Sys2Proof.Machine.execBankDrained die bank s
  | .bankDrainTimeout die bank => Sys2Proof.Machine.execBankDrainTimeout die bank s
  | .lpiEntry die lane => Sys2Proof.Machine.execLpiEntry die lane s
  | .portCfgWrite m die lane v => Sys2Proof.Machine.execPortCfgWrite m die lane v s
  | .resyncDone die => Sys2Proof.Machine.execResyncDone die s
  | .releaseWrite m die cores => Sys2Proof.Machine.execReleaseWrite m die cores s
  | .mtimeWrite m die v => Sys2Proof.Machine.execMtimeWrite m die v s
  | .mtimeCompare die core => Sys2Proof.Machine.execMtimeCompare die core s
  | .eventLevel die n => Sys2Proof.Machine.execEventLevel die n s
  | .eventPulse die n => Sys2Proof.Machine.execEventPulse die n s
  | .claim m die ctx => Sys2Proof.Machine.execClaim m die ctx s
  | .claimComplete m die ctx id => Sys2Proof.Machine.execClaimComplete m die ctx id s
  | .version m die => Sys2Proof.Machine.execVersion m die s
  | .sensors m die => Sys2Proof.Machine.execSensors m die s
  | .ladder m die => Sys2Proof.Machine.execLadder m die s
  | .thermal m die => Sys2Proof.Machine.execThermal m die s
  | .smbPublish m die => Sys2Proof.Machine.execSmbPublish m die s
  | .smbFetch m die => Sys2Proof.Machine.execSmbFetch m die s
  | .tamperInfo m die => Sys2Proof.Machine.execTamperInfo m die s
  | .mailboxDone die => Sys2Proof.Machine.execMailboxDone die s
  | .sntBegin m die scope => Sys2Proof.Machine.execSntBegin m die scope s
  | .stagedWrite m die off v => Sys2Proof.Machine.execStagedWrite m die off v s
  | .sntCommit m die go => Sys2Proof.Machine.execSntCommit m die go s
  | .applyTick die => Sys2Proof.Machine.execApplyTick die s
  | .sntRollback m die go => Sys2Proof.Machine.execSntRollback m die go s
  | .sentenceTimeout die => Sys2Proof.Machine.execSentenceTimeout die s
  | .ladderRequest m die target scope => Sys2Proof.Machine.execLadderRequest m die target scope s
  | .ladderEntryProceed die => Sys2Proof.Machine.execLadderEntryProceed die s
  | .entryTimeout die => Sys2Proof.Machine.execEntryTimeout die s
  | .stateEntered die => Sys2Proof.Machine.execStateEntered die s
  | .wakeEvent die src => Sys2Proof.Machine.execWakeEvent die src s
  | .wakeTimerExpiry => Sys2Proof.Machine.execWakeTimerExpiry s
  | .smbusWake data => Sys2Proof.Machine.execSmbusWake data s
  | .exitComplete die => Sys2Proof.Machine.execExitComplete die s
  | .colonGweStep die => Sys2Proof.Machine.execColonGweStep die s
  | .colonCoreStep die => Sys2Proof.Machine.execColonCoreStep die s
  | .thermalStep rpm => Sys2Proof.Machine.execThermalStep s rpm
  | .fanSpinupEnd fan rpm => Sys2Proof.Machine.execFanSpinupEnd fan rpm s
  | .fanStall fan rpm => Sys2Proof.Machine.execFanStall fan rpm s
  | .fanRetry m die => Sys2Proof.Machine.execFanRetry m die s
  | .thermalTrip die => Sys2Proof.Machine.execThermalTrip die s
  | .sensorUpdate die temp mv => Sys2Proof.Machine.execSensorUpdate die temp mv s
  | .railOutOfRange die rail => Sys2Proof.Machine.execRailOutOfRange die rail s
  | .monEnable m die mon v => Sys2Proof.Machine.execMonEnable m die mon v s
  | .monSample die mon sample => Sys2Proof.Machine.execMonSample die mon sample s
  | .monWindowEnd die mon => Sys2Proof.Machine.execMonWindowEnd die mon s
  | .ckmux2SwitchComplete die mux => Sys2Proof.Machine.execCkmux2SwitchComplete die mux s
  | .hiBerClear die lane => Sys2Proof.Machine.execHiBerClear die lane s
  | .readaptComplete die lane => Sys2Proof.Machine.execReadaptComplete die lane s
  | .vbatLoss mv => Sys2Proof.Machine.execVbatLoss s mv
  | .smbusHostWrite words => Sys2Proof.Machine.execSmbusHostWrite words s
  | .hartHalt die core => Sys2Proof.Machine.execHartHalt die core s
  | .hartResume die core => Sys2Proof.Machine.execHartResume die core s
  | .flipFlopEdge die site ins late => Sys2Proof.Machine.execFlipFlopEdge die site ins late s
  | .asyncSetReset die tile ff => Sys2Proof.Machine.execAsyncSetReset die tile ff s
  | .shiftRegisterEdge die tile lower upper ce xa => Sys2Proof.Machine.execShiftRegisterEdge die tile lower upper ce xa s
  | .distributedRamWrite die tile cell inp xa xb ce => Sys2Proof.Machine.execDistributedRamWrite die tile cell inp xa xb ce s
  | .arithSliceEdge die site drives => Sys2Proof.Machine.execArithSliceEdge die site drives s

end Sys2Proof.Machine
end

