-- ==== Sys2Proof/Machine/Tick.lean ====
section
/-!
DEFINITION. What passes with time and no command says: MTIME and the device time counters, and the work of the units that move data on
their own. The table has no row for a tick, so this is what a step does when no command waits: 30 ns of the root pass, which are whole
counts of both, and end in a SYNC tick (notes/assumptions/9.md).
-/

namespace Sys2Proof.Machine

/-- The time that an idle step stands for, in nanoseconds. -/
def tickNs : Nat := 30

/-- The timers of the dies go on, 10 ns a count, and the SYNC tick takes what was written on the head die (R425). A die in FULL_STOP has
its count made up at the exit, so it is counted all along. -/
def mtimePass (s : State) (ns : Nat) : State :=
  let set := s.mset
  let s := { s with mset := none }
  s.each (s.dies.filter (hardClocks s)) (fun s d =>
    s.p d R.APC_MTIME.TIME ((match set with
      | some v => v.toNat
      | none => mtime s d) + ns / 10))

/-- The wake buffers of a die are delivered once its port engine runs (R387), and its pattern checkers go on (R386). -/
def lanesPass (s : State) (d : Nat) : State := (List.range 32).foldl (fun s p => deliverHeld s d p) (prbsPass s d)

/-- What moves data on its own makes a step: a flash operation a sector or page,
running readbacks a frame, DMA channels a request, the completions that the cores have written go on, and so do frames held in wake
buffers, pattern checkers and the first fetches of cores. The reply of the last command stays. -/
def unitsPass (s : State) : State :=
  let s' := seTime (s.dies.foldl (fun s d => cachesPass (coresPass (lanesPass (cqReleaseAll (rbStep s d) d) d) d) d) (nvcStep s))
  { s' with reply := s.reply }

/-- An idle step: nothing while the head die's clocks have not started. -/
def tick (s : State) : State :=
  if hardClocks s s.head then unitsPass (timePass (mtimePass s tickNs) tickNs) else s

end Sys2Proof.Machine
end

