-- ==== Sys2Proof/Safety.lean ====
section
/-!
DEFINITION. The terms that claims are made in: states whose register cells are canonical, accesses that reach their register, and which
part of the state a command leaves alone.
-/

namespace Sys2Proof.Machine

/-- The register cells are in canonical form. -/
def Canonical (s : State) : Prop := SMap.wf cellRst s.rf = true

/-- The addressed memories are in canonical form: bank words, DRAM codewords, engine data and program memories, flash bytes and
configuration frames are listed at rising places, and nothing is listed that equals what an unlisted place reads as. -/
def Memory.wf (s : State) : Bool :=
  SMap.wf (bankUnlisted s.bnk.junk) s.bnk.words && SMap.wf (fun _ => none) s.drm.cells && SMap.wf (fun _ => (⟨0, 0⟩ : BWord)) s.se.dm
    && SMap.wf (fun _ => 0#39) s.se.pm && SMap.wf (fun _ => 0xFF#8) s.cfg.flashMem && SMap.wf (fun _ => 0#64) s.cfg.frames

/-- An access of a master reaches register `r` of die `d` (R28, R65, R117, R128, R312): a debug module is not shut out, the die is present, in
RUN and can be reached, the register's block accepts requests, SEC accepts the master, the register is one that this die may write, and no
sentence is open on the die. -/
def Reaches (s : State) (m : Master) (d : Nat) (r : RegRef) : Prop :=
  s.debugShut m = false ∧ s.present d = true ∧ s.belowRun d = false ∧ (routeTo s (s.dieOfRid m.rid) d).1 = none ∧
  regOn s d r.off = some r ∧ regRefusal s m d r = none ∧ (r.id.info.head = true → d = s.head) ∧ sntState s d = Snt.idle

/-- An access of a master reaches register `r` of die `d`, on which a sentence is open (R436). -/
def Open (s : State) (m : Master) (d : Nat) (r : RegRef) : Prop :=
  s.debugShut m = false ∧ s.present d = true ∧ s.belowRun d = false ∧ (routeTo s (s.dieOfRid m.rid) d).1 = none ∧
  regOn s d r.off = some r ∧ regRefusal s m d r = none ∧ (r.id.info.head = true → d = s.head) ∧ sntState s d = Snt.opened

/-- What a 32-bit write of `raw` leaves in a register, by the access types of its fields (R4). -/
def written (s : State) (d : Nat) (r : RegRef) (raw : Nat) : Nat := r.id.info.merge (s.reg d r) raw (2 ^ 32 - 1)

/-- The 32-bit value that a command writes which names some fields of a register: the others as they stand. -/
def named (s : State) (d : Nat) (r : RegRef) (l : List (Fld × Nat)) : Nat :=
  l.foldl (fun x p => p.1.setIn x p.2) (keptFields s d r.off) % 2 ^ 32

/-- Of the state, only the registers and the reply differ. -/
def OnlyRegs (s t : State) : Prop := t = { s with rf := t.rf, reply := t.reply }

/-- Of the registers, only those in the listed 8-byte cells of the dies' windows differ. -/
def OnlyCells (s t : State) (ks : List Nat) : Prop := ∀ k, ¬ k ∈ ks → t.cell k = s.cell k

/-- Engine `i` of die `d`, which is in state `e`, issues word `w` of opcode `op` in this slot: it fetches it without an error, the word has no
bit set that its format does not use, and the opcode may stand where it stands (R218, R224, R225, R232, R234). -/
def Issues (s : State) (d i : Nat) (e : SEng) (op w : Nat) : Prop :=
  seIssues s d i = true ∧ e = s.eng d i ∧ (∃ x : Word, pmSee (s.pmWord d i e.pc) = some (x, false) ∧ x.toNat = w) ∧ w / 2 ^ 26 = op ∧
  (∃ u, seUses op = some u ∧ w % 2 ^ 26 &&& (2 ^ 26 - 1 - u) = 0) ∧ (e.br.isSome = true → seNoDelay op = false) ∧
  (e.outer.isSome = true → seNoBlock op = false)

end Sys2Proof.Machine
end

