-- ==== Sys2Proof/Certificates/Slice0/Obligations.lean ====
section
/-!
DEFINITION. The statements for the provers. A statement that a command completes says which next state it answers, under conditions on
the state and the operands alone; since that state is written out, the statement also says what the command leaves unchanged.
-/

open Sys2Proof Sys2Proof.Machine

/-- A step takes the command at the front of the queue and is its meaning on the state with the rest of the queue.
Where the spec leaves a point open, the clauses follow notes/assumptions/8.md. -/
def Obligations.StepRunsFront : Prop :=
  ∀ (c : Instr) (q : List Instr) (s : State), step { s with pending := c :: q } = exec c { s with pending := q }

/-- With no command waiting, a step answers the state that `tick` gives; while no clock runs on the head die that is the state itself.
The 30 ns that an idle step stands for are the model's choice (notes/assumptions/9.md). -/
def Obligations.IdleStepTicks : Prop :=
  ∀ s : State, s.pending = [] →
    step s = .next (tick s) ∧
    (hardClocks s s.head = false → step s = .next s) ∧
    (hardClocks s s.head = true → step s = .next (unitsPass (timePass (mtimePass s tickNs) tickNs))) ∧
    (∀ d, Canonical s → d ∈ s.dies → hardClocks s d = true →
      (s.mset = none → (mtimePass s tickNs).g d R.APC_MTIME.TIME = (s.g d R.APC_MTIME.TIME + 3) % 2 ^ 64) ∧
      (∀ v : DWord, s.mset = some v → (mtimePass s tickNs).g d R.APC_MTIME.TIME = (v.toNat + 3) % 2 ^ 64))

/-- The register cells are canonical in the state after reset, where power-on reset is asserted, the phase is POR, no command waits and
every die is in RUN. That power-on reset is still asserted is the model's choice (notes/assumptions/2.md).
Where the spec leaves a point open, the clauses follow notes/assumptions/2.md, notes/assumptions/7.md, notes/assumptions/8.md, notes/assumptions/51.md, notes/assumptions/52.md. -/
def Obligations.ResetState : Prop :=
  Canonical State.reset ∧ State.reset.phase = Phase.por ∧ State.reset.boot.inReset = some .power ∧ State.reset.pending = [] ∧
    ∀ d : Die, State.reset.g d R.PWR_STATUS.STATE = Ladder.run ∧ State.reset.on d R.SYS_BOOT_STATUS.PROG_N_PIN = true

/-- Every step keeps the register cells in canonical form: keys rise, and no cell is listed that holds its reset value.
Where the spec leaves a point open, the clauses follow notes/assumptions/1.md. -/
def Obligations.StepKeepsCanonical : Prop :=
  ∀ s t : State, Canonical s → step s = .next t → Canonical t

/-- No command faults and none is refused: every command answers a next state, whatever the state.
Where the spec leaves a point open, the clauses follow notes/assumptions/11.md, notes/assumptions/50.md. -/
def Obligations.EveryCommandAnswers : Prop :=
  ∀ (c : Instr) (s : State), ∃ t, exec c s = .next t

/-- A command leaves the queue and the identity of the device alone: the part, grade, stepping, head die and blank dies are fixed when
the device is made.
Where the spec leaves a point open, the clauses follow notes/assumptions/2.md. -/
def Obligations.IdentityIsFixed : Prop :=
  ∀ s t : State, step s = .next t → t.dev = s.dev ∧ t.pending = s.pending.drop 1

/-- Register writes that reach the watchdog, reset and mailbox registers of a die (R58, R63, R64, R431): what each leaves.
Where the spec leaves a point open, the clauses follow notes/assumptions/12.md, notes/assumptions/47.md. -/
def Obligations.SysWritesComplete : Prop :=
  ∀ (s : State) (m : Master) (die : Die),
    (∀ v : Word, Reaches s m die ⟨.SYS_WDT_CTRL, 0, 0⟩ → s.on die R.SYS_WDT_CTRL.EN = false →
      R.SYS_WDT_CTRL.TIMEOUT.of (written s die ⟨.SYS_WDT_CTRL, 0, 0⟩ v.toNat) ≠ 0 →
      exec (.wdtEnable m die v) s = .next ((s.setReg die ⟨.SYS_WDT_CTRL, 0, 0⟩ (written s die ⟨.SYS_WDT_CTRL, 0, 0⟩ v.toNat)).ans .ok)) ∧
    (Reaches s m die ⟨.SYS_WDT_KICK, 0, 0⟩ → exec (.wdtKick m die 0x4B1C4B1C) s = .next (s.ans .ok)) ∧
    (∀ key : Word, Reaches s m die ⟨.SYS_WDT_KICK, 0, 0⟩ → key ≠ 0x4B1C4B1C → s.on die R.SYS_WDT_CTRL.EN = true →
      exec (.wdtKick m die key) s = .next ((raiseReach s die 1 0).ans .ok)) ∧
    (Reaches s m die ⟨.SYS_RST_SW, 0, 0⟩ → exec (.softwareReset m die 0xA5C3 true) s = .next ((raiseReach s die 3 0).ans .ok)) ∧
    (∀ hold : BitVec 14, Reaches s m die ⟨.SYS_RST_BLOCK, 0, 0⟩ →
      exec (.rstBlockWrite m die hold) s = .next ((setHolds s die hold.toNat).ans .ok))

/-- The service commands of a die's mailbox (R431): with the mailbox free, each makes it busy for the requester, with its command.

Also: What the services answer (R431): a service that runs ends with its result and words, BUSY 0 and the pulse; the words the SMBus host
writes are the ones SMB_FETCH reads.
Where the spec leaves a point open, the clauses follow notes/assumptions/47.md. -/
def Obligations.MailboxComplete : Prop :=
  (∀ (s : State) (m : Master) (die : Die), Reaches s m die ⟨.SYS_MBOX_CMD, 0, 0⟩ → mboxMaster s m = true →
    s.on die R.SYS_MBOX_STATUS.BUSY = false →
    (let t (cmd : Nat) : State :=
      (((s.p die R.SYS_MBOX_CMD.OWNER m.rid).p die R.SYS_MBOX_STATUS.BUSY 1).setMbox die (some cmd)).ans .ok
     exec (.version m die) s = .next (t 1) ∧ exec (.sensors m die) s = .next (t 2) ∧ exec (.ladder m die) s = .next (t 3) ∧
     exec (.thermal m die) s = .next (t 4) ∧ exec (.smbPublish m die) s = .next (t 5) ∧ exec (.smbFetch m die) s = .next (t 6) ∧
     exec (.tamperInfo m die) s = .next (t 7)))
  ∧ (∀ (s : State) (die : Die),
    (∀ cmd, s.mboxOf die = some cmd →
      exec (.mailboxDone die) s = .next (((((service s die cmd).2.setMbox die none).p die R.SYS_MBOX_STATUS.RESULT
        (service s die cmd).1).p die R.SYS_MBOX_STATUS.BUSY 0).pulse die (die * 72 + 36))) ∧
    (s.sec.erasing = true → ∀ cmd, service s die cmd = (Mres.busy, s)) ∧
    (s.sec.erasing = false → ∀ cmd, cmd = 0 ∨ 8 ≤ cmd → service s die cmd = (Mres.badCmd, s)) ∧
    (s.sec.erasing = false → s.head ≠ die → service s die 7 = (Mres.denied, s)) ∧
    (∀ words : List Word, words.length = 8 → exec (.smbusHostWrite words) s = .next { s with smbHost := words }))

/-- Cores, debug modules and watchdogs (R58, R422, R423, R425): what each event and access leaves.
Where the spec leaves a point open, the clauses follow notes/assumptions/22.md, notes/assumptions/47.md. -/
def Obligations.CoresComplete : Prop :=
  ∀ (s : State) (m : Master) (die : Die) (core : Fin 4),
    (s.present die = true → s.coreState die core = Core.run → exec (.lockUp die core) s = .next (raiseReach s die 0 core)) ∧
    (s.present die = true → wdtRuns s die = true → exec (.watchdogExpiry die) s = .next (raiseReach s die 1 0)) ∧
    (debugOpen s die = true → exec (.debugReset die) s = .next (raiseReach s die 2 0)) ∧
    (debugOpen s die = true → s.coreState die core ≠ Core.reset →
      exec (.hartHalt die core) s = .next (s.setCore die core Core.halted)) ∧
    (debugOpen s die = true → s.coreState die core = Core.halted →
      exec (.hartResume die core) s = .next (s.setCore die core Core.run)) ∧
    exec (.mtimeCompare die core) s =
      .next (s.ansData .ok [if s.g die (R.APC_MTIMECMP.CMP core) ≤ s.g die R.APC_MTIME.TIME then 1 else 0]) ∧
    (∀ cores : BitVec 4, Reaches s m die ⟨.APC_RELEASE, 0, 0⟩ →
      (∀ c : Fin 4, cores.getLsbD c = true ∨ s.coreState die c = Core.reset) →
      ∃ v, R.APC_RELEASE.CORES.of v = cores.toNat ∧
        exec (.releaseWrite m die cores) s = .next ((startCores (s.setReg die ⟨.APC_RELEASE, 0, 0⟩ v) die).ans .ok)) ∧
    (∀ v : DWord, Reaches s m die ⟨.APC_MTIME, 0, 0⟩ → die.val = s.head →
      exec (.mtimeWrite m die v) s = .next ({ s with mset := some v }.ans .ok))

/-- Event controllers (R426, R427): a level and a pulse arrive, a claim takes the best source and a completion ends it.

Also: The life of an event source (R427): a level of 1 makes it pending unless it is claimed; a pulse that comes while it is claimed is
held, and completion makes it pending again if a pulse was held or the level is 1.
Where the spec leaves a point open, the clauses follow notes/assumptions/13.md. -/
def Obligations.EventsComplete : Prop :=
  (∀ (s : State) (m : Master) (die : Die),
    (∀ n : Fin 640, s.present die = true → s.pathUp (evOwner s n) die = true →
      exec (.eventLevel die n) s = .next (s.setEv die n ((s.evOf die n).takeLevel (evLevel s n)))) ∧
    (∀ n : Fin 640, (die.val, n.val) ∈ s.pulses →
      exec (.eventPulse die n) s =
        .next ({ s with pulses := s.pulses.erase (die.val, n.val) }.setEv die n (s.evOf die n).takePulse)) ∧
    (∀ x : Fin 8, Reaches s m die ⟨.EVT_CLAIM, x, 0⟩ →
      exec (.claim m die x) s = .next ((claimRead s die x).2.ansData .ok [BitVec.ofNat 64 (claimRead s die x).1])) ∧
    (∀ (x : Fin 8) (id : BitVec 10), Reaches s m die ⟨.EVT_CLAIM, x, 0⟩ →
      exec (.claimComplete m die x id) s = .next ((claimComplete s die x id.toNat).ans .ok)))
  ∧ (∀ (e : EvSrc) (l : Bool),
    ((e.takeLevel l).pending = (e.pending || (l && !e.claimed)) ∧ (e.takeLevel l).claimed = e.claimed) ∧
    (e.claimed = true → e.takePulse = { e with held := true }) ∧
    (e.claimed = false → e.takePulse = { e with pending := true }) ∧
    (e.claimed = true → (e.complete l).pending = (e.held || l) ∧ (e.complete l).claimed = false ∧ (e.complete l).held = false) ∧
    (e.claimed = false → e.complete l = e))

/-- A claim answers the eligible source of highest priority, the lowest ID on a tie (R426): nothing eligible has a higher priority,
and none of the same priority a lower ID.
Where the spec leaves a point open, the clauses follow notes/assumptions/8.md. -/
def Obligations.ClaimIsBest : Prop :=
  ∀ (s : State) (r x n : Nat), evBest s r x = some n → (evListed s r).Pairwise (· < ·) →
    evEligible s r x n = true ∧
    ∀ k ∈ evListed s r, evEligible s r x k = true → evPrio s r k < evPrio s r n ∨ (evPrio s r k = evPrio s r n ∧ n ≤ k)

/-- Power, brown-out and the PROG_N pin (R56, R57, R58, R72), and the block resets that end after 1 µs (R65).

Also: A cause arises during a reset that is in progress (R62): one of a scope no wider is absorbed, a wider one takes over; and of two causes
neither of which is in progress, each has its own effects.
Where the spec leaves a point open, the clauses follow notes/assumptions/12.md. -/
def Obligations.ResetEventsComplete : Prop :=
  (∀ (s : State),
    (exec (.powerOnReset .aux) s =
      .next ((raiseReset s .power 1 0 0).setSec { (raiseReset s .power 1 0 0).sec with vault := true })) ∧
    (∀ rail : Rail, rail ≠ .aux → exec (.powerOnReset rail) s = .next s) ∧
    (∀ (die : Die) (rail : Rail), rail ≠ .aux → s.present die = true →
      exec (.brownOut rail die) s = .next (raiseReset s .device 2 die rail.num)) ∧
    (s.boot.lockdown = false →
      exec .progNLow s = .next (raiseReset (s.pAll R.SYS_BOOT_STATUS.PROG_N_PIN 0) .reconfig 6 s.head 0)) ∧
    (s.boot.lockdown = true → exec .progNLow s = .next (s.pAll R.SYS_BOOT_STATUS.PROG_N_PIN 0)) ∧
    (∀ u, u = s.pAll R.SYS_BOOT_STATUS.PROG_N_PIN 1 → s.boot.inReset = some .reconfig →
      exec .progNRise s = .next { u with boot := { s.boot with inReset := none } }) ∧
    (∀ st : Straps, s.boot.inReset = some .power → Canonical s → s.on s.head R.SYS_BOOT_STATUS.PROG_N_PIN = true →
      ∃ t, exec (.porRelease st) s = .next t ∧ t.boot.inReset = none ∧ t.boot.straps = st ∧ t.sec.vault = false ∧
        ∀ d ∈ s.dies, t.g d R.SYS_BOOT_STATUS.PHASE = Phase.housekeep) ∧
    (∀ die : Die, (s.ladOf die).blocks ≠ 0 →
      exec (.blocksResetRelease die) s = .next (setHolds (s.setLad die { s.ladOf die with blocks := 0 }) die
        (s.g die R.SYS_RST_BLOCK.HOLD &&& (0x3FFF - (s.ladOf die).blocks % 0x4000)))))
  ∧ (∀ (s : State) (sc r : Scope) (cause origin detail : Nat),
    (s.boot.inReset = some r → r.rank ≤ sc.rank → raiseReset s sc cause origin detail = s) ∧
    (s.boot.inReset = some r → sc.rank < r.rank → raiseReset s sc cause origin detail = fullReset s sc cause origin detail) ∧
    (s.boot.inReset = none → raiseReset s sc cause origin detail = fullReset s sc cause origin detail))

/-- What every reset of RECONFIG scope or wider leaves on each die of the device (R59, R60, R64, R66): its cause, with origin and detail, the
phase where start-up resumes, DONE low, the ladder in RUN and every block release bit clear.
Where the spec leaves a point open, the clauses follow notes/assumptions/12.md, notes/assumptions/51.md. -/
def Obligations.FullResetLeaves : Prop :=
  ∀ (s : State) (sc : Scope) (cause origin detail : Nat), Canonical s → sc ≠ .blocks → cause < 16 → origin < 8 → detail < 256 →
    s.boot.lockdown = false →
    ∀ d ∈ s.dies,
      (fullReset s sc cause origin detail).g d R.SYS_RST_CAUSE.CAUSE = cause ∧
      (fullReset s sc cause origin detail).g d R.SYS_RST_CAUSE.ORIGIN = origin ∧
      (fullReset s sc cause origin detail).g d R.SYS_BOOT_STATUS.PHASE = (if sc = .power then Phase.por else Phase.housekeep) ∧
      (fullReset s sc cause origin detail).g d R.SYS_BOOT_STATUS.DONE_PIN = 0 ∧
      (fullReset s sc cause origin detail).g d R.PWR_STATUS.STATE = Ladder.run

/-- The phases from HOUSEKEEP to LOAD (R66, R69, R70, R71): clearing, heater hold, INIT_N and MODE.
Where the spec leaves a point open, the clauses follow notes/assumptions/11.md, notes/assumptions/21.md. -/
def Obligations.PhasesComplete : Prop :=
  ∀ s : State, s.boot.inReset = none →
    (s.phase = Phase.housekeep → s.present s.head = true → (∀ d ∈ s.dies, rootRuns s d = true) →
      exec .configClearDone s =
        .next { s with boot := { s.boot with cleared := true }, sec := { s.sec with respond := false } }) ∧
    (∀ temp : Int, s.phase = Phase.housekeep → s.boot.cleared = true → (∀ d ∈ s.dies, rootRuns s d = true) →
      (s.boot.judgeHeat = true → temp < tHold s → exec (.housekeepEnd temp) s = .next (heaterHold s)) ∧
      (tHold s ≤ temp → s.boot.modeHeld = false → exec (.housekeepEnd temp) s = .next (s.setPhase Phase.initWait)) ∧
      (tHold s ≤ temp → s.boot.modeHeld = true → exec (.housekeepEnd temp) s =
        .next (enterLoad (if s.boot.failed then s else s.pAll R.SYS_BOOT_STATUS.INIT_N_PIN 1)))) ∧
    (∀ temp : Int, s.phase = Phase.heaterHold → tHold s ≤ temp →
      exec (.heaterHoldEnd temp) s = .next (releaseInit (plantReset (s.pAll R.SYS_BOOT_STATUS.HEATER_ACTIVE 0)))) ∧
    (∀ mode : Fin 8, s.phase = Phase.initWait →
      exec (.initNHigh mode) s = .next (enterLoad (((s.pAll R.SYS_BOOT_STATUS.INIT_N_PIN 1).pAll R.SYS_BOOT_STATUS.MODE mode).pAll
        R.SYS_BOOT_STATUS.MODE_BAD (if 3 ≤ mode.val then 1 else 0)))) ∧
    (∀ (a b : Sfdp) (attempt : Bool), s.phase = Phase.load → flashMode s = true → s.cfg.flash.ready = false → s.boot.warm = false →
      (flashOk s.flashDual a b = false →
        exec (.flashSetup a b attempt) s = .next (noImage (s.pAll R.CFG_LOAD_STATUS.ERROR Lerr.flash))) ∧
      (flashOk s.flashDual a b = true → exec (.flashSetup a b attempt) s =
        .next (nextSlot (flashClock (if (flashTake s a b).cfg.flash.plan.isSome then flashTake s a b else makePlan (flashTake s a b) attempt))))) ∧
    (∀ image : List Byte, jtagOpen s = true → s.cfg.parse.kind = .idle → s.boot.warm = false → s.phase = Phase.noImage →
      exec (.jtagProgram image) s = .next (beginImage { s with boot := { s.boot with jtag := some image } } .jtag 4))

/-- The steps of the wake-up sequence (R74, R76, R77): each, when its slot is next and its condition holds, completes on every die with
what it does.

Also: A wake-up step that completes (R74): on every die its bit of DONE_STEPS is set and the sequence is at its next slot, or after slot 7
it has ended; nothing else changes there, and no memory and no other state of the device.
Where the spec leaves a point open, the clauses follow notes/assumptions/11.md. -/
def Obligations.WakeStepsComplete : Prop :=
  (∀ s : State,
    (wakeAt s WStep.lock = true → wakeLocked s = true → exec .wakeLock s = .next (wakeStep s WStep.lock)) ∧
    (wakeAt s WStep.lock = true → wakeLocked s = false →
      exec .lockTimeout s = .next (loadFail (s.pAll R.CFG_WAKE_STATUS.ERROR 2) s.cfg.run.src Lerr.lockTimeout 0 none)) ∧
    (wakeAt s WStep.goe = true → exec .wakeGoe s = .next ((wakeStep s WStep.goe).onDies (fun s d => s.setPins d .fabric))) ∧
    (wakeAt s WStep.gsr = true → exec .wakeGsr s = .next ((wakeStep (s.onDies applyHeld) WStep.gsr).onDies
      (fun s d => trainStart (trainStart (restSlots s d) d 0) d 1))) ∧
    (wakeAt s WStep.gwe = true → exec .wakeGwe s = .next (wakeStep s WStep.gwe)) ∧
    (wakeAt s WStep.ddrw = true → s.channels.any (ddrTraining s) = false → exec .wakeDdrw s = .next (wakeStep s WStep.ddrw)) ∧
    (wakeAt s WStep.ddrw = true → s.channels.any (ddrTraining s) = true →
      exec .ddrwTimeout s = .next (wakeStep ((s.each (s.channels.filter (ddrTraining s)) (fun s ch =>
        s.p (chDie ch) (R.DDR_EVT.TRAIN_FAIL (chCtl ch)) 1)).pAll R.CFG_WAKE_STATUS.ERROR 3) WStep.ddrw)) ∧
    (wakeAt s WStep.core = true → exec .wakeCore s = .next ((wakeStep s WStep.core).onDies startCores)) ∧
    (wakeAt s WStep.lane = true → exec .wakeLane s = .next ((wakeStep s WStep.lane).onDies lanesHandOver)) ∧
    (wakeAt s WStep.done = true → exec .wakeDone s = .next (autoBuild (arriveFullStop
      ((((wakeStep s WStep.done).pAll R.SYS_BOOT_STATUS.DONE_PIN 1).setPhase Phase.running).onDies
        (fun s d => s.pulse d (d * 72 + 3)))))) ∧
    (wakeAt s 0 = true → exec .wakeEnd s = .next (s.onDies (fun s d =>
      (s.setBit d R.CFG_WAKE_STATUS.DONE_STEPS 0).p d R.CFG_WAKE_STATUS.ACTIVE 0))))
  ∧ (∀ (s : State) (code : Nat), Canonical s → code < 9 →
    OnlyRegs s (wakeStep s code) ∧
    ∀ d ∈ s.dies,
      (wakeStep s code).g d R.CFG_WAKE_STATUS.DONE_STEPS = s.g d R.CFG_WAKE_STATUS.DONE_STEPS ||| 2 ^ code ∧
      (s.g d R.CFG_WAKE_STATUS.SLOT = 7 → (wakeStep s code).g d R.CFG_WAKE_STATUS.ACTIVE = 0 ∧
        (wakeStep s code).g d R.CFG_WAKE_STATUS.SLOT = 7) ∧
      (s.g d R.CFG_WAKE_STATUS.SLOT < 7 → (wakeStep s code).g d R.CFG_WAKE_STATUS.SLOT = s.g d R.CFG_WAKE_STATUS.SLOT + 1 ∧
        (wakeStep s code).g d R.CFG_WAKE_STATUS.ACTIVE = s.g d R.CFG_WAKE_STATUS.ACTIVE) ∧
      (∀ k, k ≠ cellKey d R.CFG_WAKE_STATUS.SLOT.off → k / 2 ^ 21 = d → (wakeStep s code).cell k = s.cell k))

/-- The reference mux of the head die (R35, R36, R38): a selection starts a switch, the switch runs through its low phases, and a hung
switch is reported and may be forced.

Also: The reference inputs (R33, R34, R37): edges are lost and return, inputs qualify and are measured.
Where the spec leaves a point open, the clauses follow notes/assumptions/11.md, notes/assumptions/53.md. -/
def Obligations.ReferencesComplete : Prop :=
  (∀ (s : State) (m : Master) (die : Die),
    (∀ (sel : Fin 8) (auto : Bool) (u : State), Reaches s m die ⟨.CLK_REF_CTRL, 0, 0⟩ → die.val = s.head → sel.val < 4 →
      sel.val ≠ s.g die R.CLK_REF_CTRL.SEL → inpActive s die sel = true → s.on die R.CLK_REF_CTRL.AUTO = false →
      s.on die R.CLK_REF_STATUS.SWITCHING = false → u = setAuto (s.p die R.CLK_REF_CTRL.SEL sel) die auto.toNat →
      exec (.refSelWrite m die sel auto) s = .next (gatesSettle (((u.p die R.CLK_REF_STATUS.SWITCHING 1).setClk die
        { u.clkOf die with ref := ⟨.oldLow, sel⟩ }).ans .ok) die)) ∧
    (∀ sel : Fin 8, Reaches s m die ⟨.CLK_REF_CTRL, 0, 0⟩ → die.val = s.head → sel.val < 4 → inpActive s die sel = true →
      rootState s die = Root.holdover → s.on die R.CLK_REF_CTRL.AUTO = false →
      exec (.refForce m die sel false) s = .next (gatesSettle ((muxForce (setAuto s die 0) die sel).ans .ok) die)) ∧
    (∀ sel : Fin 8, Reaches s m die ⟨.CLK_REF_CTRL, 0, 0⟩ → die.val = s.head → rootState s die ≠ Root.holdover →
      exec (.refForce m die sel false) s = .next ((gatesSettle (s.ans .accessError) die).coreTrap m .storeFault
        (die * 0x1000000 + RegRef.off ⟨.CLK_REF_CTRL, 0, 0⟩))) ∧
    ((s.clkOf die).ref.step = .oldLow → inpActive s die (refCur s die) = true → s.fullStopped die = false →
      exec (.refMuxOldLow die) s = .next (s.setClk die { s.clkOf die with ref := ⟨.newLow, (s.clkOf die).ref.dst⟩ })) ∧
    ((s.clkOf die).ref.step = .newLow → inpActive s die (s.clkOf die).ref.dst = true → s.fullStopped die = false →
      exec (.refMuxNewLow die) s = .next (muxForce s die (s.clkOf die).ref.dst)) ∧
    ((s.clkOf die).ref.step ≠ .idle → s.on die R.CLK_REF_STATUS.STUCK = false → inpActive s die (s.clkOf die).ref.dst = true →
      s.fullStopped die = false →
      exec (.refmuxStuck die) s = .next ((s.p die R.CLK_REF_STATUS.STUCK 1).p die R.CLK_EVT.REFMUX_STUCK 1)))
  ∧ (∀ (s : State) (die : Die) (inp : Fin 5),
    (inpHere s die inp = true → inpActive s die inp = true → exec (.refEdgeLoss die inp) s = .next (edgeLoss s die inp)) ∧
    (inpEnabled s die inp = true → inpSource s inp = true → inpActive s die inp = false →
      exec (.refEdgeReturn die inp) s = .next (startAcquire (markLate (setActive s die inp true) die inp) die)) ∧
    (inpEnabled s die inp = true → inpActive s die inp = true → (s.clkOf die).everLocked = false →
      exec (.refQualified die inp) s = .next (autoSwitch (relockIfQualified (setQual (setMarks s die inp true
        ((s.clkOf die).measOk.getLsbD inp)) die inp true) die) die)) ∧
    (inpEnabled s die inp = true → inpActive s die inp = true → (s.clkOf die).everLocked = true →
      (s.clkOf die).measOk.getLsbD inp = false → exec (.refQualified die inp) s = .next (setMarks s die inp true false)) ∧
    (∀ (ppb : Vector Int 5) (fofs : Word) (u v : State), (s.clkOf die).everLocked = true →
      s.on die R.CLK_ROOT_CFG.HOLD_ON_FREQ = false → u = [0, 1, 2, 3, 4].foldl (measureInput die (fmonPass s die ppb)) s →
      v = u.setClk die { u.clkOf die with late := 0 } →
      exec (.freqMeasurement die ppb fofs) s = .next (autoSwitch (relockIfQualified
        (v.p die R.CLK_ROOT_FOFS.FOFS (if fofsLive v die then fofs.toNat else 0)) die) die)))

/-- The root PLL's state (R40): each event moves it as the table says.

Also: Loss of the reference (R37, R40): LOCKED with history and RELOCK go to HOLDOVER, where no automatic switch is enabled to leave it at
once, LOCKED without history raises the clock-failure reset,
ACQUIRE goes back to OFF, and OFF and HOLDOVER stay.
Where the spec leaves a point open, the clauses follow notes/assumptions/11.md. -/
def Obligations.RootsComplete : Prop :=
  (∀ (s : State) (die : Die),
    (rootState s die = Root.acquire → refStopped s die = false →
      exec (.rootLock die) s = .next ((setRoot s die Root.locked).setClk die { s.clkOf die with everLocked := true })) ∧
    (refStopped s die = true → exec (.rootRefLoss die) s = .next (rootLoss s die)) ∧
    (rootState s die = Root.locked → exec (.rootPhaseLoss die) s = .next (relockIfQualified (rootLoss s die) die)) ∧
    (rootState s die = Root.relock → refStopped s die = false →
      exec (.rootRelocked die) s = .next ((setRoot s die Root.locked).p die R.CLK_EVT.RELOCKED 1)) ∧
    (rootState s die ≠ Root.off → exec (.analogueUnlock die) s = .next (clockFailure s die)) ∧
    (rootState s die = Root.locked → exec (.histValidSet die) s = .next (s.p die R.CLK_ROOT_STATUS.HIST_VALID 1)))
  ∧ (∀ (s : State) (d : Nat), Canonical s →
    (rootState s d = Root.locked → s.on d R.CLK_ROOT_STATUS.HIST_VALID = true → s.on d R.CLK_REF_CTRL.AUTO = false →
      rootState (rootLoss s d) d = Root.holdover) ∧
    (rootState s d = Root.relock → s.on d R.CLK_REF_CTRL.AUTO = false → rootState (rootLoss s d) d = Root.holdover) ∧
    (rootState s d = Root.locked → s.on d R.CLK_ROOT_STATUS.HIST_VALID = false → rootLoss s d = clockFailure s d) ∧
    (rootState s d = Root.acquire → rootState (rootLoss s d) d = Root.off) ∧
    (rootState s d = Root.off ∨ rootState s d = Root.holdover → rootState (rootLoss s d) d = rootState s d))

/-- Gates (R46 to R48): a write that changes one gate opens it where its parent is open, or its tap has a divisor, and closes it where every
child is closed and nothing that it clocks is busy; else no gate changes, and REFUSED and BLOCKER name the gate that refuses. A write makes
all of its changes or none: where a gate refuses, no gate has changed and REFUSED is set; else every assigned gate of the register stands as
written and no other gate has changed. -/
def Obligations.GatesComplete : Prop :=
  (∀ (s : State) (m : Master) (die : Die) (k : Fin 5) (v : Word) (g : Nat) (r : RegRef),
    r = ⟨[RegId.CLK_GATE_EN0, .CLK_GATE_EN1, .CLK_GATE_EN2, .CLK_GATE_EN3].getD k .CLK_GATE_EN4, 0, 0⟩ → Reaches s m die r →
    g ∈ gatesShallowFirst → g / 32 = k →
    (∀ j, j < 32 → j ≠ g % 32 → (gateMask k).testBit j = true → v.getLsbD j = gateOpen s die (32 * k + j)) →
    (v.getLsbD (g % 32) = true → gateOpen s die g = false →
      (openBlocker s die g = none →
        exec (.gateWrite m die k v) s = .next (gatesSettle ((s.setBit die (gateReg k) (g % 32)).ans .ok) die)) ∧
      (∀ b, openBlocker s die g = some b → exec (.gateWrite m die k v) s = .next ((gatesSettle ((gateRefused s die b).ans .accessError)
        die).coreTrap m .storeFault (die * 0x1000000 + r.off)))) ∧
    (v.getLsbD (g % 32) = false → gateOpen s die g = true →
      (closeBlocker s die g = none →
        exec (.gateWrite m die k v) s = .next (gatesSettle ((s.clrBit die (gateReg k) (g % 32)).ans .ok) die)) ∧
      (∀ b, closeBlocker s die g = some b → exec (.gateWrite m die k v) s = .next ((gatesSettle ((gateRefused s die b).ans .accessError)
        die).coreTrap m .storeFault (die * 0x1000000 + r.off)))) ∧
    (v.getLsbD (g % 32) = gateOpen s die g → exec (.gateWrite m die k v) s = .next (gatesSettle (s.ans .ok) die))) ∧
  (∀ (s : State) (d k v : Nat), Canonical s → d < 8 → k < 5 →
    ((writeGate s d k v).reply.resp = .ok ∧ (writeGate s d k v).g d (gateReg k) &&& gateMask k = v &&& gateMask k ∧
      ∀ j, j < 5 → j ≠ k → (writeGate s d k v).g d (gateReg j) = s.g d (gateReg j)) ∨
    ((writeGate s d k v).reply.resp = .accessError ∧ (∀ j, j < 5 → (writeGate s d k v).g d (gateReg j) = s.g d (gateReg j)) ∧
      (writeGate s d k v).g d R.CLK_GATE_STATUS.REFUSED = 1))

/-- Alternate sources (R36, R50): a source that runs is switched to; a switch that hangs is reported once and may be forced; a switch ends with
STUCK and SWITCHING 0. A measurement of the clock monitor starts and ends (R54). User PLLs (R51, R52) and the fabric's clock muxes (R53).
Where the spec leaves a point open, the clauses follow notes/assumptions/36.md. -/
def Obligations.PllsAndMuxesComplete : Prop :=
  ∀ (s : State) (m : Master) (die : Die),
    (∀ src : Fin 4, Reaches s m die ⟨.CLK_ALT_CTRL, 0, 0⟩ → src.val ≠ 3 → altRuns s die src = true →
      s.on die R.CLK_ALT_STATUS.APC_SWITCHING = false → s.g die R.CLK_ALT_CTRL.EVT_SRC ≠ 3 → src.val ≠ s.g die R.CLK_ALT_CTRL.APC_SRC →
      exec (.altSwitch m die .apc src) s =
        .next (gatesSettle (((s.p die R.CLK_ALT_CTRL.APC_SRC src).p die R.CLK_ALT_STATUS.APC_SWITCHING 1).ans .ok) die)) ∧
    (∀ src : Fin 4, Reaches s m die ⟨.CLK_ALT_CTRL, 0, 0⟩ → src.val ≠ 3 → altRuns s die src = true →
      s.on die R.CLK_ALT_STATUS.EVT_SWITCHING = false → s.g die R.CLK_ALT_CTRL.APC_SRC ≠ 3 → src.val ≠ s.g die R.CLK_ALT_CTRL.EVT_SRC →
      exec (.altSwitch m die .evt src) s =
        .next (gatesSettle (((s.p die R.CLK_ALT_CTRL.EVT_SRC src).p die R.CLK_ALT_STATUS.EVT_SWITCHING 1).ans .ok) die)) ∧
    (∀ src : Fin 4, Reaches s m die ⟨.CLK_ALT_CTRL, 0, 0⟩ → src.val ≠ 3 → altRuns s die src = true →
      s.on die R.CLK_ALT_STATUS.APC_STUCK = true → s.g die R.CLK_ALT_CTRL.EVT_SRC ≠ 3 →
      exec (.altForce m die .apc src) s =
        .next (gatesSettle ((altDone (s.p die R.CLK_ALT_CTRL.APC_SRC src) die .apc src).ans .ok) die)) ∧
    (∀ src : Fin 4, Reaches s m die ⟨.CLK_ALT_CTRL, 0, 0⟩ → src.val ≠ 3 → altRuns s die src = true →
      s.on die R.CLK_ALT_STATUS.EVT_STUCK = true → s.g die R.CLK_ALT_CTRL.APC_SRC ≠ 3 →
      exec (.altForce m die .evt src) s =
        .next (gatesSettle ((altDone (s.p die R.CLK_ALT_CTRL.EVT_SRC src) die .evt src).ans .ok) die)) ∧
    (∀ src : Fin 4, Reaches s m die ⟨.CLK_ALT_CTRL, 0, 0⟩ → s.on die R.CLK_ALT_STATUS.EVT_STUCK = false →
      exec (.altForce m die .evt src) s = .next ((gatesSettle (s.ans .accessError) die).coreTrap m .storeFault
        (die * 0x1000000 + RegRef.off ⟨.CLK_ALT_CTRL, 0, 0⟩))) ∧
    (∀ x : AltMux, s.on die (altSwitching x) = true → altRuns s die (s.g die (altSrc x)) = true →
      exec (.altSwitchComplete die x) s = .next (altDone s die x (s.g die (altSrc x)))) ∧
    (∀ x : AltMux, s.on die (altSwitching x) = true → altRuns s die (s.g die (altSrc x)) = true → s.on die (altStuck x) = false →
      exec (.altStuck die x) s = .next ((s.p die (altStuck x) 1).p die (altEvent x) 1)) ∧
    (∀ v : Word, Reaches s m die ⟨.CLK_MON_CTRL, 0, 0⟩ → R.CLK_MON_CTRL.START.of v.toNat = 1 →
      monSrcOk (R.CLK_MON_CTRL.SRC.of v.toNat) = true → s.on die R.CLK_MON_STATUS.BUSY = false →
      exec (.clkMonStart m die v) s = .next (gatesSettle (((s.setReg die ⟨.CLK_MON_CTRL, 0, 0⟩
        (written s die ⟨.CLK_MON_CTRL, 0, 0⟩ v.toNat)).p die R.CLK_MON_STATUS.BUSY 1).ans .ok) die)) ∧
    (∀ count : Word, s.on die R.CLK_MON_STATUS.BUSY = true →
      exec (.clkMonDone die count) s = .next ((((s.p die R.CLK_MON_STATUS.BUSY 0).p die R.CLK_MON_COUNT.COUNT count.toNat).p die
        R.CLK_MON_STATUS.DONE 1).p die R.CLK_MON_STATUS.NO_CLOCK (if count = 0 then 1 else 0))) ∧
    (∀ (n : Fin 8) (v : Word), Reaches s m die ⟨.CLK_UPLL_CTRL, n, 0⟩ → s.on die (R.CLK_UPLL_CTRL.EN n) = false →
      (∀ w, w = written s die ⟨.CLK_UPLL_CTRL, n, 0⟩ v.toNat → upllCtrlOk n w = true → (R.CLK_UPLL_CTRL.EN n).of w = 1 →
        exec (.upllEnable m die n v) s = .next (gatesSettle ((s.setReg die ⟨.CLK_UPLL_CTRL, n, 0⟩ w).ans .ok) die))) ∧
    (∀ (n : Fin 8) (hz : Nat), s.on die (R.CLK_UPLL_CTRL.EN n) = true → hz ≠ 0 → upllSource s die n = true →
      upllLimitsOk s die n hz = true →
      exec (.upllMeasure die n true hz) s = .next (setUpllGood ((s.p die (R.CLK_UPLL_STATUS.INPUT_ACTIVE n) 1).p die
        (R.CLK_UPLL_STATUS.LIMIT n) 0) die n true)) ∧
    (∀ n : Fin 8, s.on die (R.CLK_UPLL_CTRL.EN n) = true → upllGood s die n = true →
      exec (.upllLock die n) s = .next (s.p die (R.CLK_UPLL_STATUS.LOCK n) 1)) ∧
    (∀ n : Fin 8, s.on die (R.CLK_UPLL_STATUS.LOCK n) = true →
      exec (.upllUnlock die n) s = .next (((s.p die (R.CLK_UPLL_STATUS.LOCK n) 0).p die
        (R.CLK_UPLL_STATUS.UNLOCK_STICKY n) 1).setBit die R.CLK_EVT.UPLL_UNLOCK n)) ∧
    (∀ (mux : Nat) (sel : Bool), exec (.ckmux2Sel die mux sel) s = .next (s.setCk die mux (ckSelect (s.ckOf die mux) sel))) ∧
    (∀ mux : Nat, exec (.ckmux2Force die mux true) s = .next (s.setCk die mux { s.ckOf die mux with
      force := true, cur := (s.ckOf die mux).sel, sw := .idle, stuck := false })) ∧
    (∀ mux : Nat, exec (.ckmux2Force die mux false) s = .next (s.setCk die mux { s.ckOf die mux with force := false })) ∧
    (∀ mux : Nat, (s.ckOf die mux).sw ≠ .idle →
      exec (.ckmux2Stuck die mux false) s = .next (s.setCk die mux { s.ckOf die mux with stuck := true }) ∧
      exec (.ckmux2Stuck die mux true) s = .next (s.setCk die mux { s.ckOf die mux with stuck := true, sw := .newLow }) ∧
      exec (.ckmux2SwitchComplete die mux) s = .next (s.setCk die mux { s.ckOf die mux with
        cur := (s.ckOf die mux).sel, sw := .idle, stuck := false }))

/-- The configuration commands (R88, R101, R104, R106, R203): with none running and the Parsers free, each makes the command register busy for
its requester and starts its pass; a load from memory waits for DONE, and its image's dies are no longer warm once it starts; a build marks
the dies that it writes.

Also: CFG_CONFIRM (R101): only the key is accepted; a slot on trial begins its CONFIRM entry, or fails where the trial log is full; an image that
needs none shows NOT_NEEDED; and the entry's end shows what was programmed.
Where the spec leaves a point open, the clauses follow notes/assumptions/27.md, notes/assumptions/28.md, notes/assumptions/55.md. -/
def Obligations.CfgCommandsComplete : Prop :=
  (∀ (s : State) (m : Master) (r : RegRef) (taken : List (Fld × Nat) → State), r = ⟨.CFG_CMD, 0, 0⟩ →
    Reaches s m s.head r → s.on s.head R.CFG_CMD_STATUS.BUSY = false → s.cfg.parse.kind = .idle →
    (∀ l, taken l = (((s.setReg s.head r (written s s.head r (named s s.head r l))).p s.head R.CFG_CMD.OWNER m.rid).p s.head
      R.CFG_CMD_STATUS.BUSY 1).p s.head R.CFG_CMD_STATUS.ERROR 0) →
    (∀ (slot : Fin 4) (u : State), slot.val ≠ 3 → u = taken [(R.CFG_CMD.OP, 1), (R.CFG_CMD.SLOT, slot)] →
      exec (.verifySlot m slot) s = .next ((u.setCfg { u.cfg with
        cmd := some (1, slot.val), parse := { ParseSt.reset with kind := .verify, src := .slot slot.val } }).ans .ok)) ∧
    (∀ u : State, s.g s.head R.CFG_CMD.SLOT ≠ 3 → u = taken [(R.CFG_CMD.OP, 2)] →
      exec (.verifyMem m) s = .next ((u.setCfg { u.cfg with
        cmd := some (2, s.g s.head R.CFG_CMD.SLOT),
        parse := { ParseSt.reset with kind := .verify, src := .mem (s.g s.head R.CFG_CMD_ADDR.ADDR) } }).ans .ok)) ∧
    (∀ (names : BitVec 8) (u : State), s.g s.head R.CFG_CMD.SLOT ≠ 3 → s.on s.head R.SYS_BOOT_STATUS.DONE_PIN = true →
      u = taken [(R.CFG_CMD.OP, 3)] →
      exec (.loadMem m names) s = .next (touchNamed (((u.setCfg { u.cfg with
        cmd := some (3, s.g s.head R.CFG_CMD.SLOT),
        parse := { ParseSt.reset with kind := .partialLoad, src := .mem (s.g s.head R.CFG_CMD_ADDR.ADDR) } }).onDies (fun v d =>
          ((v.p d R.CFG_LOAD_STATUS.BUSY 1).p d R.CFG_LOAD_STATUS.SOURCE 6).p d R.CFG_LOAD_STATUS.ERROR 0)).ans .ok) names)) ∧
    (∀ names : BitVec 8, s.on s.head R.SYS_BOOT_STATUS.DONE_PIN = false →
      exec (.loadMem m names) s = .next ((s.ans .accessError).coreTrap m .storeFault (s.head * 0x1000000 + r.off))) ∧
    (∀ (n : Nat) (u : State), s.g s.head R.CFG_CMD.SLOT ≠ 3 → s.runSlot = some n → u = taken [(R.CFG_CMD.OP, 4)] →
      exec (.warmBuild m) s = .next (((warmBuildMarks (u.setCfg { u.cfg with cmd := some (4, s.g s.head R.CFG_CMD.SLOT) })).setParse
        { ParseSt.reset with kind := .warmBuild, src := .slot n }).ans .ok)))
  ∧ (∀ (s : State) (m : Master) (r : RegRef), r = ⟨.CFG_CONFIRM, 0, 0⟩ → Reaches s m s.head r →
    (∀ key : Word, key ≠ 0x5A3CC3A5 → exec (.confirm m key) s =
      .next ((s.ans .accessError).coreTrap m .storeFault (s.head * 0x1000000 + r.off))) ∧
    (s.on s.head R.CFG_BOOT_STATUS.CONF_BUSY = true → exec (.confirm m 0x5A3CC3A5) s = .next (s.ans .ok)) ∧
    (s.on s.head R.CFG_BOOT_STATUS.CONF_BUSY = false → s.confirmable = true → s.blankPage.isSome = true →
      exec (.confirm m 0x5A3CC3A5) s = .next ((s.p s.head R.CFG_BOOT_STATUS.CONF_BUSY 1).ans .ok)) ∧
    (s.on s.head R.CFG_BOOT_STATUS.CONF_BUSY = false → s.confirmable = true → s.blankPage.isSome = false →
      exec (.confirm m 0x5A3CC3A5) s = .next ((s.p s.head R.CFG_BOOT_STATUS.CONF 3).ans .ok)) ∧
    (s.on s.head R.CFG_BOOT_STATUS.CONF_BUSY = false → s.confirmable = false →
      exec (.confirm m 0x5A3CC3A5) s = .next ((s.p s.head R.CFG_BOOT_STATUS.CONF 0).ans .ok)))

/-- The records of the stream (R90, R91, R92): each, when it is at the front and can be used, writes its items, die by die for each frame, and
leaves the buffer. `wrong` is the frame, if any, that reads back other than it was written.

Also: How a start-up load writes a frame (R94): it is refused where no signature has come for a frame that is not dynamic; else its words are in
configuration memory, and it is good exactly where the frame is dynamic, or its CRC is the golden signature and it does not read back
wrong twice.
Where the spec leaves a point open, the clauses follow notes/assumptions/16.md, notes/assumptions/27.md, notes/assumptions/29.md. -/
def Obligations.RecordsComplete : Prop :=
  (∀ (s : State) (b : List Byte) (wrong : Option FrameWrong), s.cfg.parse.buf = b →
    (let ds := maskDies s (Rec.mask b)
     let put (n : Nat) (f : Nat → Nat → State → PutRes × State) : PutRes × Option (Nat × Nat) × State :=
       putAll s ((List.range n).flatMap (fun i => ds.map (fun d => (d, Rec.addr b + i, f i d))))
     (∀ n, recIs s Rec.frames = true → n = min (Rec.count b) ((Rec.pay b).length / 512) →
       exec (.frames wrong) s = .next (recDone (put n (fun i d s =>
         putFrame wrong s d (Rec.addr b + i) (words64 (((Rec.pay b).drop (512 * i)).take 512)))) (recRest b n 1 (512 * n)))) ∧
     (∀ ws, recIs s Rec.fill = true → ws = List.replicate 64 (BitVec.ofNat 64 (leAt b 12 4 + leAt b 12 4 * 2 ^ 32)) →
       exec (.fill wrong) s = .next (recDone (put (Rec.count b) (fun i d s => putFrame wrong s d (Rec.addr b + i) ws)) (b.drop 16))) ∧
     (∀ n, recIs s Rec.sigs = true → n = min (Rec.count b) ((Rec.pay b).length / 4) →
       exec .sigs s = .next (recDone (put n (fun i d s => putSig s d (Rec.addr b + i) (word32 (Rec.pay b) i))) (recRest b n 1 (4 * n)))) ∧
     (recIs s Rec.copy = true → s.cfg.parse.kind = .full → leAt b 12 4 + Rec.count b ≤ frameCount →
       (Rec.addr b + Rec.count b ≤ leAt b 12 4 ∨ leAt b 12 4 + Rec.count b ≤ Rec.addr b) →
       findFrame ds (leAt b 12 4) (Rec.count b) (fun d fa => !wasWritten s d fa) = none →
       exec (.copy wrong) s = .next (recDone (put (Rec.count b) (fun i d s => match copySource s d (leAt b 12 4 + i) with
         | (some ws, s) => putFrame wrong s d (Rec.addr b + i) ws
         | (none, s) => (PutRes.net, s))) (b.drop 16)))) ∧
    (∀ ws, recIs s Rec.sparse = true →
      ws = (List.range 64).map (fun k => if (leAt b 12 8).testBit k then
        BitVec.ofNat 64 (leAt b (20 + 8 * popcount k (leAt b 12 8)) 8) else 0#64) →
      exec (.sparse wrong) s = .next (recDone (putAll s ((maskDies s (Rec.mask b)).map (fun d =>
        (d, Rec.addr b, fun s => putFrame wrong s d (Rec.addr b) ws)))) (b.drop (20 + 8 * popcount 64 (leAt b 12 8))))) ∧
    (∀ n, recIs s Rec.sigmap = true → n = min (Rec.count b) ((Rec.pay b).length / 4) →
      exec .sigmap s = .next (recDone (putAll s ((List.range n).flatMap (fun i => (maskDies s (Rec.mask b)).map (fun d =>
        (d, Rec.addr b + 32 * i, fun s => putMap s d (Rec.addr b + 32 * i) (word32 (Rec.pay b) i)))))) (recRest b n 32 (4 * n)))) ∧
    (recIs s Rec.wake = true → s.cfg.parse.kind = .full →
      exec .wake s = .next (recTake (s.setParse { s.cfg.parse with wake := some (leAt b 12 4, leAt b 16 4) }) (b.drop 20))) ∧
    (∀ d u, recIs s Rec.reg = true → s.cfg.parse.kind = .full → maskDies s (Rec.mask b) = [d] →
      putRegs s d (regPairs b) = (none, u) → exec .reg s = .next (recTake u (b.drop (12 + 8 * Rec.count b)))) ∧
    (∀ n, Rec.optional (Rec.type b) = true → recIs s (Rec.type b) = true → n = min (Rec.count b) ((Rec.pay b).length / 4 * 4) →
      exec .optionalRecord s = .next (recTake s (recRest b n 0 n))) ∧
    (∀ design, recIs s Rec.end_ = true → endErr s design = none → Rec.pay b = [] →
      exec (.endRecord design) s = .next (passDone (s.setParse { s.cfg.parse with buf := [], ended := true, design := design }))))
  ∧ (∀ (s : State) (d fa : Nat) (ws : List DWord) (wrong : Option FrameWrong) (twice : Bool),
    s.cfg.parse.kind = .full → isCaptureFrame fa = false → ws.length = 64 →
    twice = wrong.any (fun x => x.die.val == d && x.fa.val == fa && x.twice) →
    (s.dynMark d fa = false → SMap.get (fun _ => false) s.cfg.parse.sigSeen (frameKey d fa) = false →
      putFrame wrong s d fa ws = (.bad Lerr.sigOrder, s)) ∧
    (s.dynMark d fa = true ∨ (SMap.get (fun _ => false) s.cfg.parse.sigSeen (frameKey d fa) = true ∧ frameCrc ws = s.sig d fa ∧
        twice = false) →
      putFrame wrong s d fa ws = (.ok, markWritten (s.setFrame d fa ws) d fa)) ∧
    (s.dynMark d fa = false → SMap.get (fun _ => false) s.cfg.parse.sigSeen (frameKey d fa) = true →
      frameCrc ws ≠ s.sig d fa ∨ twice = true →
      putFrame wrong s d fa ws = (.bad Lerr.frameCheck, markWritten (s.setFrame d fa ws) d fa)))

/-- Reading an image (R86 to R88): a header that passes every check is kept and the segment chain begins with its first hash; one that fails a
check, or a segment disturbed on its first read and both re-reads, fails the pass with the code of R104; a segment that is read is taken.
Where the spec leaves a point open, the clauses follow notes/assumptions/5.md, notes/assumptions/27.md. -/
def Obligations.ImageReadingComplete : Prop :=
  ∀ (s : State), passing s = true →
    (∀ (names : BitVec 8) (h : List Byte) (u v : State), s.cfg.parse.hdrDone = false → srcWaits s 0 4096 = false →
      srcReady (touchNamed s names) = true → srcRead (bbCheck (srcSuspends (touchNamed s names))) 0 4096 = (some h, u) →
      v = (if Hdr.keySrc h = 1 then noteFuseFail u else u) → v.cfg.parse.kind ≠ .warmBuild →
      exec (.imageHeader names) s = .next (if hdrCheck v h = Lerr.none then
        v.setParse { v.cfg.parse with hdrDone := true, hdr := h, pos := 4096, seg := 0, next := BitVec.ofNat 384 (beAt h 0x40 48)
                                      pk := if pkhChecked v then some (Hdr.pkIndex h) else none }
        else passFail v (hdrCheck v h) 0 none)) ∧
    (∀ h, h = s.cfg.parse.hdr → wantsSegment s = true → srcWaits s s.cfg.parse.pos 8 = false →
      (Hdr.segCount h ≤ s.cfg.parse.seg →
        ∀ k : Fin 4, exec (.segmentRead k) s = .next (passFail s Lerr.length s.cfg.parse.seg none)) ∧
      (∀ a u l t n, s.cfg.parse.seg < Hdr.segCount h → s.cfg.parse.pos - 4096 + 8 ≤ Hdr.bodyLen h →
        (∀ r, srcRoom s = some r → s.cfg.parse.pos + 8 ≤ r) → (∀ r, srcRoom u = some r → s.cfg.parse.pos + n ≤ r) →
        srcRead (srcSuspends s) s.cfg.parse.pos 8 = (some a, u) → leAt a 0 4 % 8 = 0 → 8 ≤ leAt a 0 4 → leAt a 0 4 ≤ 65536 →
        n = 56 + leAt a 0 4 + (if Hdr.enc h then 16 else 0) → s.cfg.parse.pos - 4096 + n ≤ Hdr.bodyLen h →
        srcWaits u s.cfg.parse.pos n = false → srcRead u s.cfg.parse.pos n = (some l, t) →
        exec (.segmentRead 3) s = .next (passFail t Lerr.chain s.cfg.parse.seg none) ∧
        ∀ k : Fin 4, k.val < 3 → exec (.segmentRead k) s = .next (takeSegment (bbCheck t) l (leAt a 0 4) n)))

/-- The order of the header's checks (R88): a wrong length or hash is found first, then a wrong form; a header of another part, a later stepping,
a key or signature that fails, or an SVN below the fuses does not pass, and SVN is the code only where the SVN is below.
Where the spec leaves a point open, the clauses follow notes/assumptions/5.md, notes/assumptions/27.md. -/
def Obligations.HeaderChecksInOrder : Prop :=
  ∀ (s : State) (h : List Byte),
    (hdrCheck s h = Lerr.hdrHash ↔ h.length ≠ 4096 ∨ Config.sha384 (h.take 0xFD0) ≠ Hdr.hash h) ∧
    (leAt h 0 4 ≠ 0x54595850 → hdrCheck s h = Lerr.hdrHash ∨ hdrCheck s h = Lerr.hdrFormat) ∧
    (Hdr.svn h < s.sec.fuses.svn ∨ leAt h 8 2 ≠ s.dev.part.code ∨ s.dev.stepping.code < leAt h 0x0A 2 ∨
        Config.ecdsaOk (Hdr.pubKey h) (Config.sha384 (h.take 0x200)) (Hdr.sig h) = false ∨
        (pkhChecked s = true ∧ (3 < Hdr.pkIndex h ∨ s.sec.fuses.pkUsable (Hdr.pkIndex h) = false ∨
          Config.sha384 (Hdr.pubKey h) ≠ (s.sec.fuses.pk (Hdr.pkIndex h)).hash)) →
      hdrCheck s h ≠ Lerr.none) ∧
    (s.sec.fuses.svn ≤ Hdr.svn h → hdrCheck s h ≠ Lerr.svn)

/-- Ends of configuration operations (R101, R104, R106, R109, R206): a command's end shows its error, the confirm entry's end its result, warm
builds and refreshes set VALID, and the Parsers of a warm load read once training has ended.
Where the spec leaves a point open, the clauses follow notes/assumptions/27.md, notes/assumptions/28.md. -/
def Obligations.CfgEndsComplete : Prop :=
  ∀ (s : State),
    (∀ c, s.cfg.cmd = some c → s.cfg.parse.kind = .finished →
      exec .cfgCmdComplete s = .next (((((s.setCfg { s.cfg with cmd := none }).setParse .reset).p s.head R.CFG_CMD_STATUS.ERROR
        (s.cfg.parse.finErr.getD Lerr.none)).p s.head R.CFG_CMD_STATUS.BUSY 0).p s.head R.CFG_CMD_STATUS.DONE 1)) ∧
    (s.on s.head R.CFG_BOOT_STATUS.CONF_BUSY = true →
      exec (.confirmProgrammed false) s = .next (((s.p s.head R.CFG_BOOT_STATUS.CONF_BUSY 0).cutTrial).p s.head R.CFG_BOOT_STATUS.CONF 3) ∧
      ∀ b t, s.cfg.flash.br = some b → (s.p s.head R.CFG_BOOT_STATUS.CONF_BUSY 0).addTrial b.seq Trial.confirm = some t →
        exec (.confirmProgrammed true) s = .next (t.p s.head R.CFG_BOOT_STATUS.CONF 2)) ∧
    (∀ t, s.cfg.parse.kind = .warmBuild → s.cfg.parse.ended = true → s.cfg.parse.lastSeg = true → buildDigests s = (true, t) →
      ∀ u, u = t.each (s.warmDies.filter (builds s)) (fun s d => (warmValid s d (s.warmOf d).digest).p d R.CFG_WARM_STATUS.BUILDING 0) →
        exec .warmBuildDone s = .next (passEnd u (buildCmd u) Lerr.none)) ∧
    (∀ (die : Die), s.present die = true → (s.warmOf die).refresh = true →
      ¬ (s.cfg.parse.kind = .partialLoad ∧ s.cfg.parse.touched.getLsbD die = true) →
      (∀ ws t, regionRead s die = (some ws, t) → exec (.warmDigestRecomputed die) s = .next (warmValid t die (wordsDigest ws))) ∧
      (∀ t, regionRead s die = (none, t) →
        exec (.warmDigestRecomputed die) s = .next (t.setWarm die { t.warmOf die with refresh := false }))) ∧
    (∀ (attempt : Bool) (reads : List (Nat × Option (List DWord))) (t : State),
      s.phase = Phase.load → s.boot.inReset = none → s.boot.warm = true → s.boot.warmReady = false →
      (∀ ch ∈ mapChannels s, s.g (chDie ch) (R.DDR_STATUS.STATE (chCtl ch)) ≠ DdrState.training) →
      warmReads { s with boot := { s.boot with warmReady := true } } = (reads, t) →
      ((∀ ch ∈ mapChannels s, s.g (chDie ch) (R.DDR_STATUS.STATE (chCtl ch)) ≠ DdrState.failed) → warmWrong t reads = [] →
        ∀ u, u = reads.foldl (fun v x => warmTake v x.1 (x.2.getD [])) t →
          exec (.warmParserStart attempt) s =
            .next (if u.cfg.parse.finErr = none then warmDone u else warmFallback u u.dies attempt)) ∧
      (∀ bad, bad = ((mapChannels s).filter (fun ch => s.g (chDie ch) (R.DDR_STATUS.STATE (chCtl ch)) == DdrState.failed)).map chDie ++
          warmWrong t reads → bad ≠ [] →
        exec (.warmParserStart attempt) s = .next (warmFallback t bad attempt)))

/-- Flash commands (R110, R111, R112): with the flash idle and the master's right, the operation starts, or ends at once with the code of what
its operands break; another access is refused.

Also: Ends of flash operations (R110, R111): an erase or a program does its sectors or pages in turn, a sector reads all 1 after its turn and
a page what memory holds; a blank check names the first page that is not blank; a program of a range that is not blank writes nothing.
Where the spec leaves a point open, the clauses follow notes/assumptions/26.md, notes/assumptions/55.md. -/
def Obligations.FlashComplete : Prop :=
  (∀ (s : State) (m : Master) (r : RegRef) (taken : Nat → State) (addr len : Nat), r = ⟨.NVC_CMD, 0, 0⟩ → Reaches s m s.head r →
    addr = s.g s.head R.NVC_ADDR.ADDR → len = s.g s.head R.NVC_LEN.LEN →
    (∀ op, taken op = (s.setReg s.head r (written s s.head r (named s s.head r [(R.NVC_CMD.OP, op)]))).p s.head R.NVC_CMD.OWNER m.rid) →
    ∀ (started ended : Nat → State),
    (∀ op, started op = (((taken op).p s.head R.NVC_STATUS.STATE NvcState.busy).setFlash { s.cfg.flash with
      op := op, addr := addr, len := len, mem := s.g s.head R.NVC_MEM.MEM, done := 0 }).ans .ok) →
    (∀ op, ended op = (nvcEnd (taken op) NvcRes.flashError addr).ans .ok) →
    (s.nvcRight m = true → s.nvcState = NvcState.idle → s.cfg.flash.ready = true →
      (nvcAligned s 1 addr len = true → nvcGuarded s addr len = false → exec (.nvcErase m) s = .next (started 1)) ∧
      (nvcAligned s 2 addr len = true → nvcGuarded s addr len = false → exec (.nvcProgram m) s = .next (started 2)) ∧
      (nvcAligned s 3 addr len = true → exec (.nvcBlankCheck m) s = .next (started 3)) ∧
      (nvcAligned s 4 addr len = true → exec (.nvcRead m) s = .next (started 4)) ∧
      (nvcAligned s 1 addr len = true → nvcGuarded s addr len = true →
        exec (.nvcErase m) s = .next ((nvcEnd (taken 1) NvcRes.prot addr).ans .ok)) ∧
      (nvcAligned s 2 addr len = true → nvcGuarded s addr len = true →
        exec (.nvcProgram m) s = .next ((nvcEnd (taken 2) NvcRes.prot addr).ans .ok)) ∧
      (nvcAligned s 1 addr len = false → exec (.nvcErase m) s = .next ((nvcEnd (taken 1) NvcRes.align addr).ans .ok)) ∧
      (nvcAligned s 4 addr len = false → exec (.nvcRead m) s = .next ((nvcEnd (taken 4) NvcRes.align addr).ans .ok))) ∧
    (s.nvcRight m = true → s.nvcState = NvcState.idle → exec (.nvcResetFlash m) s = .next (started 5)) ∧
    (s.nvcRight m = true → s.nvcState = NvcState.idle → s.cfg.flash.ready = false →
      exec (.nvcErase m) s = .next (ended 1) ∧ exec (.nvcProgram m) s = .next (ended 2) ∧ exec (.nvcBlankCheck m) s = .next (ended 3) ∧
      exec (.nvcRead m) s = .next (ended 4)) ∧
    (s.nvcRight m = false ∨ s.nvcState ≠ NvcState.idle →
      ∀ t, t = (s.ans .accessError).coreTrap m .storeFault (s.head * 0x1000000 + r.off) →
        exec (.nvcErase m) s = .next t ∧ exec (.nvcProgram m) s = .next t ∧ exec (.nvcBlankCheck m) s = .next t ∧
        exec (.nvcRead m) s = .next t ∧ exec (.nvcResetFlash m) s = .next t))
  ∧ (∀ (s : State) (f : FlashSt), f = s.cfg.flash → s.nvcState = NvcState.busy →
    (f.op = NvcOp.erase →
      exec (.nvcComplete none) s = .next { nvcEnd (nvcSteps s (nvcUnits s - f.done)) NvcRes.ok 0 with reply := s.reply }) ∧
    (f.op = NvcOp.erase → f.done < nvcUnits s →
      nvcStep s = (flashErase s (f.addr + f.done * nvcUnit s) (nvcUnit s)).setFlash { f with done := f.done + 1 }) ∧
    (f.op = NvcOp.blankCheck → notBlank s f.addr f.len = none →
      exec (.nvcComplete none) s = .next { nvcEnd s NvcRes.ok 0 with reply := s.reply }) ∧
    (∀ p, f.op = NvcOp.blankCheck → notBlank s f.addr f.len = some p →
      exec (.nvcComplete none) s = .next { nvcEnd s NvcRes.notErased p with reply := s.reply }) ∧
    (f.op = NvcOp.program → (nvcSteps s (nvcUnits s - f.done)).nvcState = NvcState.busy →
      exec (.nvcComplete none) s = .next { nvcEnd (nvcSteps s (nvcUnits s - f.done)) NvcRes.ok 0 with reply := s.reply }) ∧
    (∀ p, f.op = NvcOp.program → f.done = 0 → 0 < nvcUnits s → notBlank s f.addr f.len = some p →
      nvcStep s = nvcEnd s NvcRes.notErased p) ∧
    (∀ ws t, f.op = NvcOp.program → f.done < nvcUnits s → (f.done = 0 → notBlank s f.addr f.len = none) →
      readWords s (s.parserMaster s.head) (f.mem + f.done * nvcUnit s) (nvcUnit s / 8) = (.ok, ws, t) → (∀ w ∈ ws, w.p = false) →
      nvcStep s = (t.setFlashBytes (f.addr + f.done * nvcUnit s) (ws.flatMap (fun w => bytesLE 8 w.v.toNat))).setFlash
        { f with done := f.done + 1 }) ∧
    (∀ x : FlashFail, f.op = NvcOp.blankCheck ∨ f.op = NvcOp.read →
      exec (.nvcComplete (some x)) s = .next { nvcEnd s NvcRes.flashError x.addr with reply := s.reply }))

/-- Security commands (R119 to R125, R137): one that is permitted starts for its requester; one that is not ends at once with its result, the
key registers zeroised (R127); LOCKDOWN ends and is then a tamper event (R132).

Also: What a security command may do (R119, R120, R121, R123, R125): the conditions under which one is permitted.
Where the spec leaves a point open, the clauses follow notes/assumptions/24.md. -/
def Obligations.SecCommandsStart : Prop :=
  (∀ (s : State) (m : Master) (r : RegRef) (starts stops : Nat → Nat → State) (taken : Nat → Nat → State), r = ⟨.SEC_CMD, 0, 0⟩ →
    Reaches s m s.head r → s.on s.head R.SEC_CMD_STATUS.BUSY = false →
    (∀ op arg u, u = ((s.setReg s.head r (written s s.head r (named s s.head r [(R.SEC_CMD.OP, op), (R.SEC_CMD.ARG, arg)]))).p s.head
      R.SEC_CMD.OWNER m.rid).p s.head R.SEC_CMD_STATUS.BUSY 1 → taken op arg = u.setSec { u.sec with cmd := some (op, arg) }) →
    (∀ op arg, starts op arg = (taken op arg).ans .ok) → (∀ op arg, stops op arg = (secEnd (taken op arg) (secJudge s op arg)).ans .ok) →
    (secJudge s 1 0 = SecRes.ok → exec (.bbWrite m) s = .next ((bbErase (taken 1 0)).ans .ok)) ∧
    (secJudge s 2 0 = SecRes.ok → exec (.bbEraseOld m) s = .next ((bbErase (taken 2 0)).ans .ok)) ∧
    (secJudge s 3 0 = SecRes.ok → exec (.fuseKeyProgram m) s = .next (starts 3 0)) ∧
    (secJudge s 6 0 = SecRes.ok → exec (.svnCommit m) s = .next (starts 6 0)) ∧
    (secJudge s 7 0 = SecRes.ok → exec (.policyProgram m) s = .next (starts 7 0)) ∧
    (∀ arg : Byte, secJudge s 4 arg.toNat = SecRes.ok → exec (.pkhProgram m arg) s = .next (starts 4 arg.toNat)) ∧
    (∀ arg : Byte, secJudge s 5 arg.toNat = SecRes.ok → exec (.pkhRevoke m arg) s = .next (starts 5 arg.toNat)) ∧
    (∀ arg : Byte, secJudge s 8 arg.toNat = SecRes.ok → exec (.lcAdvance m arg) s = .next (starts 8 arg.toNat)) ∧
    exec (.lockdownCmd m) s = .next { tamper (stops 9 0) Tsrc.soft 0 with reply := ⟨.ok, []⟩ } ∧
    (secJudge s 1 0 ≠ SecRes.ok → exec (.bbWrite m) s = .next (stops 1 0)) ∧
    (secJudge s 2 0 ≠ SecRes.ok → exec (.bbEraseOld m) s = .next (stops 2 0)) ∧
    (secJudge s 3 0 ≠ SecRes.ok → exec (.fuseKeyProgram m) s = .next (stops 3 0)) ∧
    (secJudge s 6 0 ≠ SecRes.ok → exec (.svnCommit m) s = .next (stops 6 0)) ∧
    (secJudge s 7 0 ≠ SecRes.ok → exec (.policyProgram m) s = .next (stops 7 0)) ∧
    (∀ arg : Byte, secJudge s 4 arg.toNat ≠ SecRes.ok → exec (.pkhProgram m arg) s = .next (stops 4 arg.toNat)) ∧
    (∀ arg : Byte, secJudge s 5 arg.toNat ≠ SecRes.ok → exec (.pkhRevoke m arg) s = .next (stops 5 arg.toNat)) ∧
    (∀ arg : Byte, secJudge s 8 arg.toNat ≠ SecRes.ok → exec (.lcAdvance m arg) s = .next (stops 8 arg.toNat)))
  ∧ (∀ (s : State) (arg : Nat),
    (secJudge s 3 arg = SecRes.ok ↔ s.lc = Lc.provisioned ∧ s.sec.fuses.key = 0 ∧ s.sec.fuses.keyChk = none) ∧
    (secJudge s 4 arg = SecRes.ok ↔ (s.lc = Lc.blank ∨ s.lc = Lc.provisioned) ∧ arg ≤ 3 ∧ (s.sec.fuses.pk arg).hash = 0 ∧
      (s.sec.fuses.pk arg).present = false) ∧
    (secJudge s 5 arg = SecRes.ok → arg ≤ 2 ∧ (∃ k, k ≤ 3 ∧ k ≠ arg ∧ s.sec.fuses.pkUsable k = true) ∧
      (s.on s.head R.SEC_PKH_STATUS.RUN_PK_VALID = true → s.g s.head R.SEC_PKH_STATUS.RUN_PK ≠ arg)) ∧
    (secJudge s 8 arg = SecRes.ok → s.lc < arg ∧ arg ≤ Lc.scrapped ∧ (arg = Lc.returned → s.lc = Lc.deployed ∧ s.dbgLevel = 3) ∧
      (arg = Lc.deployed → s.lc = Lc.provisioned) ∧ (arg = Lc.provisioned → s.lc = Lc.blank)) ∧
    (s.lc = Lc.scrapped → ∀ op, 1 ≤ op → op ≤ 8 → secJudge s op arg ≠ SecRes.ok))

/-- Ends of security commands (R119 to R125): what each leaves in fuses and BBRAM; no fuse is ever unblown by one.
Where the spec leaves a point open, the clauses follow notes/assumptions/5.md, notes/assumptions/24.md. -/
def Obligations.SecCommandsEnd : Prop :=
  ∀ s : State,
    (∀ (arg : Nat) (f : Fuses), f = s.sec.fuses →
      (s.sec.cmd = some (1, arg) → exec (.secCmdComplete true) s = .next (secEnd (bbWriteEnd s) SecRes.ok)) ∧
      (s.sec.cmd = some (2, arg) → exec (.secCmdComplete true) s = .next (secEnd (bbEraseEnd s) SecRes.ok)) ∧
      (s.sec.cmd = some (3, arg) → exec (.secCmdComplete true) s = .next (secEnd (s.setFuses { f with
        key := BitVec.ofNat 256 (natLE (s.keyData 8)), keyChk := some (crc32c (s.keyData 8)) }) SecRes.ok)) ∧
      (s.sec.cmd = some (4, arg) → exec (.secCmdComplete true) s = .next (secEnd (s.setFuses (f.setPk arg
        ⟨BitVec.ofNat 384 (natBE (s.keyData 12)), some (pkCheck (BitVec.ofNat 384 (natBE (s.keyData 12))))⟩)) SecRes.ok)) ∧
      (s.sec.cmd = some (5, arg) → exec (.secCmdComplete true) s =
        .next (secEnd (s.setFuses { f with revoke := f.revoke ||| (1#3 <<< arg) }) SecRes.ok)) ∧
      (s.sec.cmd = some (6, arg) → exec (.secCmdComplete true) s =
        .next (secEnd (s.setFuses { f with svn := max f.svn (min 64 s.cfg.run.svn) }) SecRes.ok)) ∧
      (s.sec.cmd = some (7, arg) → exec (.secCmdComplete true) s = .next (secEnd (s.setFuses { f with
        policy := f.policy ||| BitVec.ofNat 20 (s.g s.head (R.SEC_KEY_DATA.DATA 0) &&& policyMask) }) SecRes.ok)) ∧
      (s.sec.cmd = some (8, arg) → exec (.secCmdComplete true) s = .next (lcEnd s arg))) ∧
    (∀ ok t f, exec (.secCmdComplete ok) s = .next t → (∀ arg, s.sec.cmd ≠ some (8, arg)) → f = s.sec.fuses →
      f.svn ≤ t.sec.fuses.svn ∧ f.revoke &&& t.sec.fuses.revoke = f.revoke ∧ f.policy &&& t.sec.fuses.policy = f.policy ∧
      t.sec.fuses.lc = f.lc ∧ (f.kill = true → t.sec.fuses.kill = true) ∧ (f.enrolled = true → t.sec.fuses.enrolled = true) ∧
      t.sec.fuses.devId = f.devId)

/-- Debug unlock and VBAT (R127, R128): a fresh nonce is shifted out with the device ID, a response to it is
verified once, and three failures lock the port; VBAT below 0.95 V in Vault leaves no valid slot, and a supply of 1.10 V or more all of both.
Where the spec leaves a point open, the clauses follow notes/assumptions/5.md, notes/assumptions/25.md. -/
def Obligations.UnlockComplete : Prop :=
  ∀ s : State,
    (unlockOpen s = true → exec .secChal s =
      .next (((s.free 128).2.setSec { s.sec with nonce := some (s.free 128).1, used := false }).ansData .ok
        [(s.free 128).1.extractLsb' 64 64, (s.free 128).1.extractLsb' 0 64, s.sec.fuses.devId])) ∧
    (∀ v, unlockOpen s = true → s.on s.head R.SEC_LC.DBG_LOCKOUT = false →
      (s.sec.nonce.isSome = true → s.sec.used = false →
        exec (.secResp v) s = .next (s.setSec { s.sec with used := true, resp := some v })) ∧
      (s.sec.nonce = none ∨ s.sec.used = true → exec (.secResp v) s = .next (unlockFail s))) ∧
    (∀ v, s.sec.resp = some v →
      exec .unlockVerified s = .next (if unlockOk s v then
        (s.setSec { s.sec with resp := none }).p s.head R.SEC_LC.DBG_LEVEL (v.extractLsb' 776 8).toNat
        else unlockFail (s.setSec { s.sec with resp := none }))) ∧
    (∀ mv : Nat, Canonical s → s.boot.inReset = some .power → s.sec.vault = true → ∃ t, exec (.vbatLoss mv) s = .next t ∧
      (mv < 950 → bbValid t.sec.bb0 = false ∧ bbValid t.sec.bb1 = false) ∧
      (1100 ≤ mv → t.sec.bb0 = s.sec.bb0 ∧ t.sec.bb1 = s.sec.bb1) ∧
      t.g s.head R.SEC_TAMPER_LOG.SOURCES = 0 ∧ t.on s.head R.SEC_TAMPER_CFG.LOCK = false ∧ t.sec.fuses = s.sec.fuses)

/-- The JTAG instruction register (R129): while DEPLOYED is locked, loading any instruction but the four of R128 is a tamper event where the
source JTAG is heard, and leaves the block as it was otherwise; nothing else that is loaded there has an effect of its own. -/
def Obligations.LockedJtag : Prop :=
  ∀ (s : State) (i : JtagInstr),
    (i = .other → s.lc = Lc.deployed → s.dbgLevel = 0 →
      (tamperOn s Tsrc.jtag = true → exec (.jtagInstruction i) s = .next (tamper s Tsrc.jtag 0)) ∧
      (tamperOn s Tsrc.jtag = false → exec (.jtagInstruction i) s = .next s)) ∧
    (i ≠ .other ∨ s.lc ≠ Lc.deployed ∨ s.dbgLevel ≠ 0 → exec (.jtagInstruction i) s = .next s)

/-- Tamper sources and their registers (R132, R133, R135): each source reports its event where it is detected, Lockdown's erase ends, and the
settings and the log take what they may.

Also: The response to a tamper event (R134, R136): the sources of a cycle that are heard enter the log as one entry, its count saturating; one in
Lockdown does nothing more, one while a response runs adds Lockdown where that is enabled, one before DONE or on the ladder ends in
Lockdown, and one in RUN follows the responses that apply, Lockdown before a reset.
Where the spec leaves a point open, the clauses follow notes/assumptions/23.md, notes/assumptions/57.md. -/
def Obligations.TamperComplete : Prop :=
  (∀ (s : State) (m : Master) (die : Die) (also : BitVec 8),
    (∀ b : Bool, s.on s.head R.SEC_TAMPER_CFG.POL0 = b → exec (.tamperPin .tamper0 b also) s = .next (tamper s 0 also)) ∧
    (∀ b : Bool, s.on s.head R.SEC_TAMPER_CFG.POL1 = b → exec (.tamperPin .tamper1 b also) s = .next (tamper s 1 also)) ∧
    (∀ r, s.present die = true → r = .core ∨ r = .hard ∨ r = .aux → exec (.vglitch die r also) s = .next (tamper s 2 also)) ∧
    (s.present die = true → exec (.ckglitch die also) s = .next (tamper s 3 also)) ∧
    (∀ temp : Int, s.present die = true → 10 * sext 8 (s.g s.head R.SEC_TEMP_LIMITS.TEMP_HI) < temp ∨
        (temp < 10 * sext 8 (s.g s.head R.SEC_TEMP_LIMITS.TEMP_LO) ∧ s.phase ≠ Phase.heaterHold) →
      exec (.tamperTemp die temp also) s = .next (tamper s 4 also)) ∧
    exec (.meshCheck true also) s = .next (tamper s 5 also) ∧
    exec .lockdownEraseDone s = .next (s.setSec { s.sec with erasing := false }) ∧
    (∀ v : Word, Reaches s m s.head ⟨.SEC_TAMPER_LOG, 0, 0⟩ → s.boot.lockdown = false →
      ∀ u, u = s.setReg s.head ⟨.SEC_TAMPER_LOG, 0, 0⟩ (written s s.head ⟨.SEC_TAMPER_LOG, 0, 0⟩ v.toNat) →
      (u.g s.head R.SEC_TAMPER_LOG.SOURCES ≠ 0 → exec (.tamperLogClear m v) s = .next (u.ans .ok)) ∧
      (u.g s.head R.SEC_TAMPER_LOG.SOURCES = 0 → exec (.tamperLogClear m v) s =
        .next ((((u.p s.head R.SEC_TAMPER_LOG.COUNT 0).p s.head R.SEC_TAMPER_LOG.WHEN 0).p s.head R.SEC_TAMPER_LOG.FIRST 0).ans .ok))) ∧
    (∀ v : Word, Reaches s m s.head ⟨.SEC_TAMPER_CFG, 0, 0⟩ →
      ∀ x, x = written s s.head ⟨.SEC_TAMPER_CFG, 0, 0⟩ v.toNat →
      (tamperLocked s = false → R.SEC_TAMPER_CFG.EN.of x &&& s.startEn = s.startEn →
        ((R.SEC_TAMPER_CFG.EN.of x).testBit 5 = true → s.hasMesh = true) → exec (.tamperCfgLock m v) s =
          .next (((s.setReg s.head ⟨.SEC_TAMPER_CFG, 0, 0⟩ x).p s.head R.SEC_TAMPER_CFG.EN (R.SEC_TAMPER_CFG.EN.of x ||| 0x80)).ans .ok)) ∧
      (tamperLocked s = true ∨ R.SEC_TAMPER_CFG.EN.of x &&& s.startEn ≠ s.startEn →
        exec (.tamperCfgLock m v) s = .next ((s.ans .accessError).coreTrap m .storeFault
          (s.head * 0x1000000 + RegRef.off ⟨.SEC_TAMPER_CFG, 0, 0⟩)))) ∧
    (∀ r : RegRef, r = ⟨.SEC_RIGHTS_LOCK, 0, 0⟩ → Reaches s m s.head r → exec (.rightsLock m) s = .next ((s.setReg s.head r
      (written s s.head r (named s s.head r [(R.SEC_RIGHTS_LOCK.LOCK, 1)]))).ans .ok)))
  ∧ (∀ (s : State) (k : Nat) (also : BitVec 8) (srcs : List Nat),
    srcs = (List.range 8).filter (fun i => (i == k || also.getLsbD i) && tamperHeard s i) →
    (srcs = [] → tamper s k also = s) ∧
    (srcs ≠ [] → inVault s = false →
      (s.boot.lockdown = true → tamper s k also = tamperLog s srcs) ∧
      (s.boot.lockdown = false → respRuns s = true → tamperResp (tamperLog s srcs) 3 = true →
        tamper s k also = enterLockdown (tamperLog s srcs)) ∧
      (s.boot.lockdown = false → respRuns s = true → tamperResp (tamperLog s srcs) 3 = false → tamper s k also = tamperLog s srcs) ∧
      (s.boot.lockdown = false → respRuns s = false → s.phase ≠ Phase.running ∨ onLadder s = true →
        (tamper s k also).boot.lockdown = true ∧ (tamper s k also).sec.erasing = true) ∧
      (s.boot.lockdown = false → respRuns s = false → s.phase = Phase.running → onLadder s = false →
        tamper s k also = showEnded s (tamperRun (tamperEnds (tamperLog s srcs))))) ∧
    (tamperResp s 3 = true → (tamperRun s).boot.lockdown = true) ∧
    (Canonical s → (tamperLog s srcs).g s.head R.SEC_TAMPER_LOG.COUNT = min 255 (s.g s.head R.SEC_TAMPER_LOG.COUNT + 1) ∧
      (∀ i ∈ srcs, ((tamperLog s srcs).g s.head R.SEC_TAMPER_LOG.SOURCES).testBit i = true) ∧
      (s.g s.head R.SEC_TAMPER_LOG.SOURCES ≠ 0 →
        (tamperLog s srcs).g s.head R.SEC_TAMPER_LOG.FIRST = s.g s.head R.SEC_TAMPER_LOG.FIRST)))

/-- Capture and readback (R161, R162, R165): arming, the trigger edge, the capture edge, its end 16 ns later, abort, a stopped clock; a
readback starts when its range stands and nothing forbids it, and ends with its result.

Also: Regions and the upset sweep (R201, R202, R207, R210 to R213): closing and releasing a fence step by step, and a sweep that finds,
queues and repairs upsets.
Where the spec leaves a point open, the clauses follow notes/assumptions/29.md, notes/assumptions/30.md, notes/assumptions/31.md,
notes/assumptions/56.md. -/
def Obligations.CaptureAndRegionsComplete : Prop :=
  (∀ (s : State) (m : Master) (die : Die) (r q : RegRef), r = ⟨.CFG_CAP_CTRL, 0, 0⟩ → q = ⟨.CFG_RB_CTRL, 0, 0⟩ →
    (∀ (v : Word) (x : Nat), Reaches s m die r → x = written s die r v.toNat → v.getLsbD 31 = true → R.CFG_CAP_CTRL.TRIG.of x < 2 →
      R.CFG_CAP_CTRL.CLKSEL.of x < 48 → debugBelow s m = false → capWaits s die = false →
      (s.on die R.CFG_RB_STATUS.BUSY && rbCovers s die) = false →
      exec (.captureArm m die v) s = .next (((((s.setReg die r x).p die R.CFG_CAP_CTRL.ARM 1).p die R.CFG_CAP_STATUS.STATE Cap.armed).p die
        R.CFG_CAP_STATUS.REMAIN 0).ans .ok)) ∧
    (∀ x u, Reaches s m die r → x = written s die r (named s die r [(R.CFG_CAP_CTRL.ARM, 0), (R.CFG_CAP_CTRL.ABORT, 1)]) →
      R.CFG_CAP_CTRL.TRIG.of x < 2 → R.CFG_CAP_CTRL.CLKSEL.of x < 48 →
      u = (s.setReg die r x).p die R.CFG_CAP_CTRL.ARM (if s.on die R.CFG_CAP_CTRL.ARM then 1 else 0) →
      exec (.captureAbort m die) s = .next ((if capWaits s die then capIdle u die else u).ans .ok)) ∧
    (∀ n u, capClocked s die = true → capState s die = Cap.armed → n = s.g die R.CFG_CAP_CTRL.DELAY →
      u = (s.p die R.CFG_CAP_STATUS.STATE Cap.delaying).p die R.CFG_CAP_STATUS.REMAIN n →
      exec (.captureTrigger die) s = .next (if n = 0 then takeSnap u die else u)) ∧
    (∀ n u, capClocked s die = true → capState s die = Cap.delaying → (s.snapOf die).taken = false →
      n = s.g die R.CFG_CAP_STATUS.REMAIN → u = s.p die R.CFG_CAP_STATUS.REMAIN (n - 1) →
      exec (.captureEdge die) s = .next (if n ≤ 1 then takeSnap u die else u)) ∧
    (capState s die = Cap.delaying → (s.snapOf die).taken = true →
      exec (.captureDone die) s = .next (((((capIdle s die).p die R.CFG_CAP_STATUS.STATE Cap.captured).p die
        R.CFG_CAP_STATUS.SNAP_VALID 1).p die R.CFG_CAP_TIME.TIME (s.snapOf die).time.toNat).pulse die (die * 72 + 5))) ∧
    (capWaits s die = true → capClocked s die = false →
      exec (.captureClkStopped die) s = .next (s.p die R.CFG_CAP_STATUS.CLK_STOPPED 1)) ∧
    (∀ (v : Word) (u : State) (inRange : Prop), Reaches s m die q → v.getLsbD 31 = true → s.on die R.CFG_RB_STATUS.BUSY = false →
      u = s.setReg die q (written s die q v.toNat) →
      (inRange ↔ u.on die R.CFG_RB_CTRL.CAPTURE = true ∨
        (u.g die R.CFG_RB_COUNT.COUNT ≠ 0 ∧ u.g die R.CFG_RB_CTRL.FA + u.g die R.CFG_RB_COUNT.COUNT ≤ frameCount)) →
      (inRange → rbDenied u m die = false → loadWrites u die = false →
        exec (.readbackStart m die v) s = .next (((u.newEpoch.2.setRb die (some ⟨u.g die R.CFG_RB_CTRL.FA, u.g die R.CFG_RB_COUNT.COUNT,
          u.g die R.CFG_RB_DEST.DEST, u.on die R.CFG_RB_CTRL.CAPTURE, 0, u.newEpoch.1⟩)).p die R.CFG_RB_STATUS.BUSY 1).ans .ok)) ∧
      (inRange → rbDenied u m die = true → exec (.readbackStart m die v) s = .next ((rbEnd u die Rb.denied).ans .ok)) ∧
      (inRange → rbDenied u m die = false → loadWrites u die = true →
        exec (.readbackStart m die v) s = .next ((rbEnd u die Rb.busy).ans .ok)) ∧
      (¬ inRange → exec (.readbackStart m die v) s = .next ((rbEnd u die Rb.range).ans .ok))) ∧
    (∀ x t, s.rbOf die = some x → s.present die = true → s.on die R.CFG_RB_STATUS.BUSY = true →
      t = (List.range ((if x.capture then 1920 else x.count) - x.done)).foldl (fun t _ => rbStep t die) s →
      exec (.readbackDone die) s = .next { (if (t.rbOf die).isSome then rbEnd t die Rb.ok else t) with reply := s.reply }))
  ∧ (∀ (s : State) (m : Master) (die : Die) (r : Fin 32) (ctl : RegRef), ctl = ⟨.FAB_PR_CTRL, r, 0⟩ →
    (∀ (mode : Fin 4) (tmo : Fin 4096), Reaches s m die ctl → s.on die (R.FAB_PR_GEOM.VALID r) = true → mode ≠ 3 →
      s.prState die r = Pr.active → exec (.fenceClose m die r mode tmo) s = .next ((startClose (s.setReg die ctl (written s die ctl
        (named s die ctl [(R.FAB_PR_CTRL.FENCE r, 1), (R.FAB_PR_CTRL.MODE r, mode), (R.FAB_PR_CTRL.TMO r, tmo)]))) die r).ans .ok)) ∧
    (Reaches s m die ctl → s.on die (R.FAB_PR_GEOM.VALID r) = true → s.g die (R.FAB_PR_CTRL.MODE r) ≠ 3 → s.prState die r = Pr.fenced →
      exec (.fenceRelease m die r) s = .next ((startRelease (s.setReg die ctl (written s die ctl
        (named s die ctl [(R.FAB_PR_CTRL.FENCE r, 0)]))) die r).ans .ok)) ∧
    (s.prState die r = Pr.draining →
      (∀ idle, exec (.prSlotsOffline die r idle) s = .next ((regionSlots s die r).foldl (fun s k =>
        if slotState s die k = Slot.draining ∧ (s.kslot die k).outst.isEmpty ∧ idle.getLsbD k then
          setSlot s die k Slot.offline else s) (showIdles s die r idle))) ∧
      (∀ u v, slotsOffline s die r = true → (∀ p ∈ regionPorts s die r, portOutst s die p = 0) → (s.prOf die r).drained = false →
        u = ((regionPorts s die r).filter (fun p => decide (p < 16))).foldl (fun s p => flushPort s die p) s →
        v = (regionPairs u die r).foldl (fun s n => abortOpen (s.setFifo die n .reset) die n) u →
        exec (.prPortsDrained die r) s = .next (v.setPr die r { v.prOf die r with drained := true })) ∧
      (∀ outs pins u v, (s.prOf die r).drained = true → s.on die (R.FAB_PR_STATUS.PENDING r) = false →
        u = (cancelRepairs (setPrState s die r Pr.fenced) die r).pulse die (die * 72 + 9) →
        v = u.setPr die r { u.prOf die r with took := false, outs := outs, pins := pins } →
        exec (.prFenced die r outs pins) s = .next (v.ansData .ok ((regionOuts v die r).map (fun b => if b then 1 else 0)))) ∧
      (∀ u, slotsOffline s die r = false → (s.prOf die r).tmo ≠ 0 → (s.prOf die r).mode ≠ 2 →
        u = ((setPrState s die r Pr.active).p die (R.FAB_PR_STATUS.TIMEOUT r) 1).p die (R.FAB_PR_STATUS.PENDING r) 0 →
        exec (.prCloseTimeout die r) s = .next ((regionSlots u die r).foldl (fun s k => slotRest (unmark s die r k) die k) u)) ∧
      (slotsOffline s die r = false → (s.prOf die r).tmo ≠ 0 → (s.prOf die r).mode = 2 →
        exec (.prCloseTimeout die r) s = .next ((regionSlots s die r).foldl (fun s k =>
          if slotState s die k = Slot.draining then setSlot (abortUnit s die (64 + k)) die k Slot.offline else s) s))) ∧
    (∀ u v, s.prState die r = Pr.releasing → s.on die (R.FAB_PR_STATUS.PENDING r) = false → u = setPrState s die r Pr.active →
      v = (regionSlots u die r).foldl (fun s k =>
        slotRest (if s.on die (R.FAB_KSLOT_CFG.DECLARED k) then unmark s die r k else s) die k) u →
      exec (.prActive die r) s = .next (v.pulse die (die * 72 + 9))) ∧
    (∀ v : Word, Reaches s m die ⟨.CFG_SWEEP_CTRL, 0, 0⟩ →
      ∀ x, x = written s die ⟨.CFG_SWEEP_CTRL, 0, 0⟩ v.toNat → R.CFG_SWEEP_CTRL.DIV.of x ≠ 0 → R.CFG_SWEEP_CTRL.EN.of x = 1 →
      s.on die R.CFG_SWEEP_CTRL.EN = false → Canonical s →
      exec (.sweepEnable m die v) s =
        .next (((s.setReg die ⟨.CFG_SWEEP_CTRL, 0, 0⟩ x).p die R.CFG_SWEEP_STATUS.POS 0).ans .ok)) ∧
    (∀ fa u flips (glitch : Bool) (e : Fin 3), sweepReady s die = true → sweepPaused s die = false → fa = s.g die R.CFG_SWEEP_STATUS.POS →
      fa + 1 < frameCount → u = (flipFrame s die fa flips).p die R.CFG_SWEEP_STATUS.POS (fa + 1) →
      (swept u die fa = false → exec (.sweepSlot die flips glitch e) s = .next u) ∧
      (swept u die fa = true → exec (.sweepSlot die flips glitch 2) s = .next (upset u die fa true) ∧
        (e ≠ 2 → frameCrc (u.frame die fa) ≠ u.sig die fa → exec (.sweepSlot die flips glitch e) s = .next (upset u die fa false)) ∧
        (e ≠ 2 → frameCrc (u.frame die fa) = u.sig die fa → exec (.sweepSlot die flips glitch e) s =
          .next (if glitch then seuLast u die 5 fa else u)))) ∧
    (∀ e, s.present die = true → s.running die = true → loadWrites s die = false → (s.seuOf die).find? (fun e => !e.flash) = some e →
      (∀ wrong, s.on die R.CFG_WARM_STATUS.VALID = false → exec (.repairFromWarm die wrong) s = .next (repairFromFlash s die e)) ∧
      (s.on die R.CFG_WARM_STATUS.VALID = true → e.sigUe = false →
        ∀ ws u, memRead 70 s (s.parserMaster die) (s.g die R.CFG_WARM_BASE.BASE + e.fa * 512) 64 = (.ok, ws, u) →
        (∀ x ∈ ws, x.p = false) → frameCrc (ws.map (fun x => x.v)) = u.sig die e.fa →
        ∀ (wrong : Bool) (w v : State), w = { u with reply := s.reply } →
        v = ((w.setFrame die e.fa (ws.map (fun x => x.v))).setSig die e.fa (u.sig die e.fa)).setSeu die
          ((w.seuOf die).filter (fun x => x.fa != e.fa)) →
        exec (.repairFromWarm die wrong) s = .next (if wrong then unrepairable v die e.fa else repaired v die 1 e.fa))) ∧
    (s.dies.any (fun d => (s.seuOf d).any (fun e => e.flash)) = true → s.cfg.parse.kind = .idle → s.phase = Phase.running →
      (flashSource s = true → exec .flashPassStart s = .next (s.setParse { ParseSt.reset with
        kind := .flashPass, src := .slot (s.g s.head R.CFG_BOOT_STATUS.RUN_SLOT) })) ∧
      (flashSource s = false → exec .flashPassStart s = .next (failFlashPass s))) ∧
    (∀ (fa : Fin 368640) e ws u, (s.seuOf die).find? (fun e => e.fa == fa.val && e.flash && e.due) = some e →
      s.cfg.parse.kind = .flashPass → s.cfg.parse.hdrDone = true → ws = SMap.get (fun _ => []) s.cfg.parse.passed (frameKey die fa) →
      u = s.setSeu die ((s.seuOf die).filter (fun x => x.fa != fa.val)) →
      (∀ (wrong : Bool) (v : State), e.sigUe = true ∨ frameCrc ws = u.sig die fa → v = (u.setFrame die fa ws).setSig die fa (frameCrc ws) →
        exec (.flashPassFrame die fa wrong) s = .next (if wrong then unrepairable v die fa else repaired v die 2 fa)) ∧
      (∀ wrong, e.sigUe = false → frameCrc ws ≠ u.sig die fa → exec (.flashPassFrame die fa wrong) s = .next (unrepairable u die fa))))

/-- Primitives of the fabric on an edge (R141, R143, R144, R154, R169, R176, R180, R201) in a die whose fabric clocks run: what each holds
afterwards; those of a fenced region hold.

Also: The accumulator and the narrowing of an arithmetic slice (R176, R178): P is the exact sum modulo 2^64 and OVF says that the sum did not
fit; with SAT the output lies in its window, and without overflow it is P shifted down.
Where the spec leaves a point open, the clauses follow notes/assumptions/30.md, notes/assumptions/40.md, notes/assumptions/41.md,
notes/assumptions/54.md, notes/assumptions/56.md. -/
def Obligations.PrimitivesComplete : Prop :=
  (∀ (s : State) (die : Die) (t : Tile),
    (∀ (ff : Fin 16) (ins : List TileIn) (ce sr late : Bool) (k h : Nat) (c : FfCfg) (q : Bool) (out : List DWord),
      k = tileNum t * 16 + ff → h = ff / 8 → c = ffCfg s die k → out = cellReply s die t (ff / 2) ins →
      q = (if halfSr s die t h sr then c.srval else if halfCe s die t h ce then ffD s die t ff ins else s.ff die k) →
      (halfRuns s die t h = false ∨ tileFenced s die t.x t.y = true →
        exec (.flipFlopEdge die (.cell t ff ce sr) ins late) s = .next (s.ansData .ok out)) ∧
      (halfRuns s die t h = true → tileFenced s die t.x t.y = false →
        (s.held die Blk.gsr = true →
          exec (.flipFlopEdge die (.cell t ff ce sr) ins late) s = .next ((s.setFf die k c.init).ansData .ok out)) ∧
        (s.held die Blk.gsr = false → late = false ∨ halfAsync s die t h = false → s.stepDone die WStep.gwe = true →
          exec (.flipFlopEdge die (.cell t ff ce sr) ins late) s = .next ((s.setFf die k q).ansData .ok out)) ∧
        (s.held die Blk.gsr = false → late = true → halfAsync s die t h = true →
          exec (.flipFlopEdge die (.cell t ff ce sr) ins late) s =
            .next (((s.free 1).2.setFf die k ((s.free 1).1.getLsbD 0)).ansData .ok out)))) ∧
    (∀ (p : Fin 120) (x : IoDrive) (c : IoCfg) (u : State), pinCfg s die p = some c → fabClocked s die = true →
      trackRuns s die c.clk = true → pinFence s die p = none → s.held die Blk.gsr = false → u = s.setIo die p (ioNext c (s.ioOf die p) x) →
      exec (.flipFlopEdge die (.io p x) [] false) s = .next (u.ansData .ok [(pinOut u die p).code])) ∧
    (∀ ff : Fin 16, fabClocked s die = true → tileFenced s die t.x t.y = false → s.held die Blk.gsr = false →
      halfAsync s die t (ff / 8) = true →
      exec (.asyncSetReset die t ff) s = .next (s.setFf die (tileNum t * 16 + ff) (ffCfg s die (tileNum t * 16 + ff)).srval)) ∧
    (∀ (lower upper : Bool) (ce : BitVec 2) (xa : Byte) (ls : List Nat), ls = (List.range 8).filter (fun c => (if c < 4 then lower else upper) &&
        cellWrites s die t (c / 4) && halfCe s die t (c / 4) (ce.getLsbD (c / 4)) && (cellCfg s die (tileNum t * 8 + c)).mode == .shift) →
      exec (.shiftRegisterEdge die t lower upper ce xa) s =
        .next (ls.foldl (fun u c => u.setLut die (tileNum t * 8 + c) (shiftNext s die (tileNum t * 8) c xa)) s)) ∧
    (∀ (cell : Fin 8) (ins : TileIn) (mode : MemMode) (addr : Nat) (u : State), cellWrites s die t (cell / 4) = true →
      halfCe s die t (cell / 4) true = true → t.x.val % 4 = 3 → mode = (cellCfg s die (tileNum t * 8 + cell)).mem →
      (∀ c ∈ ramGroup mode cell, (cellCfg s die (tileNum t * 8 + c)).mode = .mem) → addr = ramAddr mode cell ins →
      u = (ramCells mode cell addr).foldl (fun s c => s.setLut die (tileNum t * 8 + c)
        (putBit (s.lut die (tileNum t * 8 + c)) (addr % 64) (ins.xa.getLsbD cell))) s →
      exec (.distributedRamWrite die t cell ins.i ins.xa ins.xb true) s = .next (u.ansData .ok
        [if fout s die (tileNum t * 8) cell ins then 1 else 0, if fout u die (tileNum t * 8) cell ins then 1 else 0])) ∧
    (∀ (k : Fin 4608) (x : ArithDrive) (g : ArithCfg) (r : Arith) (l : ArithLink) (w : ArithWires), fabClocked s die = true →
      g = arithCfg s die k → r = s.arithOf die k → l = arithBelow s die k → w = arithWires g r x l → trackRuns s die g.clk = true →
      siteFenced s die k RegionDecl.slices = false →
      (s.held die Blk.gsr = true → exec (.arithSliceEdge die k [x]) s = .next ((s.setArith die k .reset).ansData .ok (arithOut g r w))) ∧
      (s.held die Blk.gsr = false →
        exec (.arithSliceEdge die k [x]) s = .next ((s.setArith die k (arithNext g r x l)).ansData .ok (arithOut g r w)) ∧
        (∀ (y : ArithDrive) (g2 : ArithCfg) (r2 : Arith) (l2 : ArithLink), k.val % 128 < 127 → g2 = arithCfg s die (k + 1) →
          r2 = s.arithOf die (k + 1) → l2 = arithLinkOut g r w → trackRuns s die g2.clk = true →
          siteFenced s die (k + 1) RegionDecl.slices = false →
          exec (.arithSliceEdge die k [x, y]) s = .next (((s.setArith die k (arithNext g r x l)).setArith die (k + 1)
            (arithNext g2 r2 y l2)).ansData .ok (arithOut g r w ++ arithOut g2 r2 (arithWires g2 r2 y l2)))))) ∧
    (∀ (k : Fin 4096) (x : BmDrive) (c : BmCfg) (m : Bmem) (u : State), fabClocked s die = true → c = bmCfg s die k → m = s.bmem die k →
      c.ecc = false → c.chain = 0 → c.a.latch = .old → c.a.pipe = false → trackRuns s die c.clkA = true → x.en = true →
      fabWrites s die = true → siteFenced s die k RegionDecl.bmems = false → s.held die Blk.gsr = false →
      u = (s.free 256).2.setBmem die k { m with
        cells := (bmPuts c c.a x).foldl bmPut m.cells
        latchA := BitVec.ofNat 72 (bmWord c.a x.addr.toNat (fun j => SMap.get (fun _ => 0#9) m.cells j))
        flagA := 0 } →
      exec (.bmemPortOp die k (some x) none) s =
        .next (u.ansData .ok (doReply (bmDoA c (u.bmem die k)) ++ doReply (bmDoB c (u.bmem die k))))))
  ∧ (∀ (c : ArithCfg) (r : Arith) (x : ArithDrive) (l : ArithLink), x.rst = false →
    (c.accReg = true → c.mulReg = true → c.cDepth = 0 → x.ce.getLsbD 3 = true →
      ∀ sum, sum = accExact r.acc3 r.m.toInt r.p.toInt x.c.toInt l.p.toInt →
      (∃ k : Int, (arithNext c r x l).p.toInt = sum + k * 2 ^ 64) ∧
      ((arithNext c r x l).ovf = false ↔ (arithNext c r x l).p.toInt = sum)) ∧
    (∀ (w : Nat) (p : BitVec 64) (sh : BitVec 6), 1 ≤ w → w ≤ 48 →
      -(2 ^ (w - 1) : Int) ≤ (narrow w true p sh).toInt ∧ (narrow w true p sh).toInt < (2 ^ (w - 1) : Int) ∧
      (narOvf w p sh = false → ∀ sat, (narrow w sat p sh).toInt = (p.sshiftRight sh.toNat).toInt) ∧
      (narOvf w p sh = true → (narrow w true p sh).toInt = if p.toInt < 0 then -(2 ^ (w - 1) : Int) else 2 ^ (w - 1) - 1)))

/-- The leading-sign count of an arithmetic slice (R179): LSC counts the bits below P[63] that equal P[63], from 0 to 63; P shifted left by it
is normalised; and LSC and O come out at the same edge, of the same P. -/
def Obligations.LscNormalises : Prop :=
  (∀ (p : BitVec 64) (n : Nat), n = redundantSign p →
    n ≤ 63 ∧ (∀ i, i < n → p.getLsbD (62 - i) = p.getLsbD 63) ∧
    (n < 63 → p.getLsbD (62 - n) ≠ p.getLsbD 63 ∧ (p <<< n).getLsbD 62 ≠ (p <<< n).getLsbD 63)) ∧
  (∀ (c : ArithCfg) (r : Arith) (x : ArithDrive) (l : ArithLink), x.rst = false → c.narReg = true → x.ce.getLsbD 4 = true →
    ∃ (p : BitVec 64) (sh : BitVec 6), (c.accReg = true → p = r.p ∧ sh = r.sh4) ∧
      (arithNext c r x l).o = narrow c.oWidth c.sat p sh ∧ (arithNext c r x l).lsc.toNat = redundantSign p)

/-- Crossing lines, port FIFOs and kernel-slot endpoints (R151 to R153, R183 to R186, R188 to R190, R429): what each transfer leaves.

Also: NoC ports of the fabric and a bank's handover (R193, R194, R196, R285): a request goes out, gathers its beats or is refused; a request
to a port's window is shown to the fabric, and its answer goes back.
Where the spec leaves a point open, the clauses follow notes/assumptions/30.md, notes/assumptions/56.md. -/
def Obligations.FabricPortsComplete : Prop :=
  (∀ (s : State) (die : Die) (n : Fin 8) (k : Fin 64) (e : Fin 4) (g : Fin 540),
    (∀ o u, crossingTo s die e = some o → pastGsr s die = true → pastGsr s o = true → s.bit die R.FAB_XING_STATUS.LINK_UP e = false →
      u = (xingClear s die e).setBit die R.FAB_XING_STATUS.LINK_UP e →
      exec (.xingGroupUp die e) s =
        .next (if s.present o then (xingClear u o (farEdge e)).setBit o R.FAB_XING_STATUS.LINK_UP (farEdge e) else u)) ∧
    (∀ x key, key = xingKey die e g → x = s.xing key → xingSync s die e g = true → xingFarFenced s die e g = false →
      exec (.xingUnderrun die e g) s = .next ((s.setBit die R.FAB_XING_STATUS.UNDERRUN e).setXing key
        { x with word := x.last, fifo := [], stopped := true }) ∧
      exec (.xingRecentre die e g) s = .next (s.setXing key { x with fifo := [], stopped := false })) ∧
    (∀ (o key : Nat) (c : XingDecl) (x : XingSt) (word : Word), crossingTo s die e = some o → xingDecl s die e g = some c →
      key = xingKey o (farEdge e) g → x = s.xing key → fabClocked s die = true → clkRuns s die c.clk = true → xingUp s die e = true →
      s.present o = true → g.val < xingGroups e → xingFenced s die e g = false →
      (c.sync = true → x.stopped = false → x.fifo.length < 4 →
        exec (.flipFlopEdge die (.send e g word true) [] false) s = .next (s.setXing key { x with fifo := x.fifo ++ [word] })) ∧
      (c.sync = false → x.fifo.length < 8 → exec (.flipFlopEdge die (.send e g word true) [] false) s =
        .next ((s.setXing key { x with fifo := x.fifo ++ [word &&& 0x7FFFFFFF#32] }).ansData .ok [1]))) ∧
    (∀ (key : Nat) (c : XingDecl) (x : XingSt) (ready : Bool), xingDecl s die e g = some c → key = xingKey die e g → x = s.xing key →
      fabClocked s die = true → clkRuns s die c.clk = true → g.val < xingGroups e →
      (xingUp s die e = false → exec (.flipFlopEdge die (.recv e g ready) [] false) s = .next (s.ansData .ok [0, 0])) ∧
      (∀ w l, xingUp s die e = true → x.fifo = w :: l → c.sync = true → x.stopped = false →
        exec (.flipFlopEdge die (.recv e g ready) [] false) s =
          .next ((s.setXing key { x with word := w, fifo := l }).ansData .ok [w.zeroExtend 64, 1])) ∧
      (xingUp s die e = true → x.fifo = [] → c.sync = true →
        exec (.flipFlopEdge die (.recv e g ready) [] false) s = .next (s.ansData .ok [x.word.zeroExtend 64, 1]))) ∧
    (∀ line : Fin 32, s.dies.any (fun d => (s.designOf d).irqs.any (fun x => x.1 == line.val)) = true →
      exec (.evtirqLevel line true) s = .next { s with usr := s.usr ||| (1#32 <<< line.val) } ∧
      exec (.evtirqLevel line false) s = .next { s with usr := s.usr &&& ~~~ (1#32 <<< line.val) }) ∧
    (pairRuns s die n = true →
      (∀ w l, (s.fifo die n).words = w :: l →
        exec (.pfifoIngressTransfer die n) s =
          .next (((notePoison s die n w).setFifo die n { s.fifo die n with words := l }).ansData .ok (fwordReply w)) ∧
        exec (.pfifoIngressDrop die n) s = .next ((s.setFifo die n { s.fifo die n with words := afterEop (w :: l) }).inc die
          (R.FAB_PFIFO_DROP.FRAMES n) 1)) ∧
      (∀ w, (s.fifo die (8 + n)).words.length < 512 → isSop w = !(s.fifo die (8 + n)).open_ → w.sb.getLsbD 9 = false →
        exec (.pfifoEgressTransfer die n w) s = .next (egressFlags (takeOut 512
          (s.setFifo die (8 + n) ⟨(s.fifo die (8 + n)).words ++ [w], !isEop w⟩) die n) die n)) ∧
      (∀ w, (s.fifo die (8 + n)).words.length < 512 → isSop w = false → (s.fifo die (8 + n)).open_ = false →
        exec (.pfifoEgressTransfer die n w) s = .next (egressFlags (s.p die (R.FAB_PFIFO_STATUS.FRAMING (8 + n)) 1) die n)) ∧
      ((s.fifo die (8 + n)).open_ = true → exec (.pfifoEgressDrop die n) s = .next
        ((s.setFifo die (8 + n) ⟨beforeOpen (s.fifo die (8 + n)).words, false⟩).inc die (R.FAB_PFIFO_DROP.FRAMES (8 + n)) 1))) ∧
    (∀ x, x = s.kslot die k →
      (∀ ws t l idle, slotRuns s die k = true → slotState s die k = Slot.online → x.descs = (ws, t) :: l →
        exec (.kslotDescTransfer die k idle) s = .next ((showIdle (s.setKslot die k { x with descs := l }) die k idle).ansData .ok
          (ws.map (fun w => w.zeroExtend 64) ++ [t.zeroExtend 64]))) ∧
      (∀ (c : KCpl) (idle : Bool), slotRuns s die k = true → x.held = [] →
        (c.ticket ∈ x.outst → (∀ e ∈ x.descs, e.2 ≠ c.ticket) → exec (.kslotCompletion die k c idle) s =
          .next (showIdle (s.setKslot die k { x with
            held := [(c, portWrites s die (s.g die (R.FAB_KSLOT_CFG.PORTMASK k)))], abort := x.abort.erase c.ticket }) die k idle)) ∧
        (c.ticket ∉ x.outst → s.g die (R.FAB_KSLOT_STATUS.BAD_CPL k) ≠ 0 →
          exec (.kslotCompletion die k c idle) s = .next (showIdle (s.incSat die (R.FAB_KSLOT_STATUS.BAD_CPL k)) die k idle))) ∧
      (∀ c w l, s.present die = true → s.held die Blk.dfd = false → x.held = (c, w) :: l → heldReady s die w = true →
        s.cplRoom die = true → exec (.kslotCompletionRelease die k) s =
          .next ((s.setKslot die k { x with held := l, outst := x.outst.erase c.ticket }).sendCpl die (kslotCpl k c)))))
  ∧ (∀ (s : State) (die : Die) (p : Fin 32), portRuns s die p = true → (∀ q ∈ (s.nport die p).reqs, q.ready = false) →
    (∀ (addr : DWord) (tag : Fin 256) (i : Nat) (len : Fin 64) (size : Bool) (ask : NocOp → Nat → Nat → NpReq), portFenced s die p = false →
      (∀ q ∈ (s.nport die p).reqs, q.ftag ≠ tag.val) → freeItag s die p = some i →
      (∀ op bytes beats, ask op bytes beats =
        ⟨tag, i, ⟨portMaster s die p, ⟨i % 512, Nat.mod_lt _ (by decide)⟩, op, addr, bytes, [], []⟩, beats, false, false⟩) →
      (len.val = 0 ∨ (addr.toNat % 64 = 0 ∧ addr.toNat / 4096 = (addr.toNat + 64 * (len.val + 1) - 1) / 4096) →
        exec (.nocPortRequest die p 1 addr len size tag) s = .next (s.setNport die p { s.nport die p with
          reqs := (s.nport die p).reqs ++ [ask .write (64 * (len.val + 1)) (len.val + 1)] })) ∧
      (exec (.nocPortRequest die p 2 addr 0 size tag) s = .next (s.setNport die p { s.nport die p with
          reqs := (s.nport die p).reqs ++ [ask .atomicAdd (if size then 8 else 4) 1] })) ∧
      (0 < len.val → exec (.nocPortRequest die p 2 addr len size tag) s =
        .next { s with reply := ⟨.targetError, [⟨BitVec.ofNat 64 tag, false⟩]⟩ }) ∧
      (16 ≤ p.val → exec (.nocPortRequest die p 5 addr len size tag) s =
        .next { s with reply := ⟨.accessError, [⟨BitVec.ofNat 64 tag, false⟩]⟩ }) ∧
      ((∃ ch a k, decodeAddr s (portMaster s die p) die addr.toNat = .dram ch a k) → exec (.nocPortRequest die p 0 addr 0 size tag) s =
        .next (portSend s die p (ask .read (64 - addr.toNat % 64) 0)))) ∧
    (∀ data be poison x, (s.nport die p).reqs.find? (fun q => decide (0 < q.beats)) = some x →
      ∀ y, y = { x with
        req := { x.req with
          data := x.req.data ++ beatWords data poison
          be := x.req.be ++ (List.range 8).map (fun i => (be >>> (8 * i)).truncate 8) }
        beats := 0 } →
      exec (.nocPortWriteBeat die p data be poison true) s = .next (portSend s die p (finishBeat s die y data be))))
  ∧ (∀ (s : State) (die : Die) (p : Fin 32),
    (∀ (tag : Fin 64) (q : Req) (off : Nat), targetPort s q = some (die.val, p.val, off) → s.netOf q.m.rid q.tag = none →
      uncachedWaits s q q.tag = false → ∀ u, routeTo s (s.dieOfRid q.m.rid) die = (none, u) →
      ((u.held die Blk.gsr || portFenced u die p) = true → exec (.nocTargetRequest die p tag q) s = .next (u.ans .targetError)) ∧
      (∀ v, (u.held die Blk.gsr || portFenced u die p) = false → (∀ t ∈ (u.nport die p).tgt, t.1 ≠ tag.val) →
        v = u.setNport die p { u.nport die p with tgt := (u.nport die p).tgt ++ [(tag.val, q)] } →
        exec (.nocTargetRequest die p tag q) s = .next ((if (v.netOf q.m.rid q.tag).isNone then v.sendNet q q.tag (.flying 0) else v).ansData
          .ok [BitVec.ofNat 64 off]))) ∧
    (∀ (tag : Fin 64) (q : Req) (ws : List MWord) (r : NetReq) (u : State), portRuns s die p = true →
      (s.nport die p).tgt.find? (fun t => t.1 == tag.val) = some (tag.val, q) → s.netOf q.m.rid q.tag = some r → r.req = q →
      u = s.setNport die p { s.nport die p with tgt := (s.nport die p).tgt.filter (fun t => t.1 != tag.val) } →
      (r.quar = false → q.op = .read → ws.length = reqWords q →
        exec (.nocTargetResponse die p tag .ok ws) s = .next { u.putNet q.m.rid q.tag none with reply := ⟨.ok, ws⟩ }) ∧
      (r.quar = true → exec (.nocTargetResponse die p tag .ok ws) s = .next (lateOne u q.m.rid q.tag))) ∧
    (∀ b : Fin 8, s.present die = true → s.on die (R.BNK_STATUS.HANDOVER_PENDING b) = true → s.on die (R.BNK_STATUS.WIPING b) = false →
      exec (.handoverComplete die b) s = .next (handoverEnd s die b)))

/-- Control instructions of a signal engine (R225, R232 to R235, R239, R243): what each leaves as it issues.
Where the spec leaves a point open, the clauses follow notes/assumptions/32.md. -/
def Obligations.SeControlComplete : Prop :=
  ∀ (s : State) (die : Die) (g : Fin 48) (e : SEng) (w : Nat),
    (Issues s die g e 0x00 w → exec (.nop die g) s = .next (seRetire s die g e none e.br)) ∧
    (Issues s die g e 0x01 w → exec (.br die g) s = .next (seRetire s die g { e with br := some (2, some (seRel e w)) } none none)) ∧
    (Issues s die g e 0x02 w → fld w 18 3 ≤ 5 → (e.sreg (fld w 21 5)).p = false → exec (.brc die g) s = .next (seRetire s die g { e with
      br := some (2, if brcMeets (fld w 18 3) (e.sreg (fld w 21 5)).v.toInt then some (seRel e w) else none) } none none)) ∧
    (Issues s die g e 0x03 w → exec (.call die g) s = .next (seRetire s die g { e.send 2 (.s 31 ⟨BitVec.ofNat 32 ((e.pc + 3) % 16384), false⟩) with
      br := some (2, some (seRel e w)) } none none)) ∧
    (Issues s die g e 0x04 w → (e.sreg (fld w 21 5)).p = false → exec (.jr die g) s = .next (seRetire s die g { e with
      br := some (2, some ((e.sreg (fld w 21 5)).v.toNat % 16384)) } none none)) ∧
    (Issues s die g e 0x05 w → exec (.reti die g) s = .next (seRetire (s.p die (R.SEA_STATUS.IN_ISR g) 0) die g { e.send 3 (.ie true) with
      br := some (2, some e.ipc) } none none)) ∧
    (∀ n last, n = (if fld w 25 1 = 1 then (e.sreg (fld w 20 5)).v.toNat else fld w 0 12) → last = e.pc + fld w 14 6 + 1 →
      Issues s die g e 0x06 w → e.inner = none → last ≤ 16383 → n ≤ 4095 → (fld w 25 1 = 1 → (e.sreg (fld w 20 5)).p = false) →
      (e.outer = none → n ≠ 0 → exec (.rep die g) s =
        .next (seRetire s die g { e with lc0 := n, outer := some ⟨e.pc + 1, last⟩ } none none)) ∧
      (e.outer = none → n = 0 → exec (.rep die g) s = .next (seRetire s die g { e with lc0 := 0 } (some (last + 1)) none)) ∧
      (∀ b, e.outer = some b → last ≤ b.last → n ≠ 0 → exec (.rep die g) s =
        .next (seRetire s die g { e with lc1 := n, inner := some ⟨e.pc + 1, last⟩ } none none)) ∧
      (∀ b, e.outer = some b → last ≤ b.last → n = 0 → exec (.rep die g) s =
        .next (seRetire s die g ({ e with lc1 := 0 }.outerEnd last).1 (some ({ e with lc1 := 0 }.outerEnd last).2) none))) ∧
    (Issues s die g e 0x07 w → fld w 23 3 ≤ 4 → (∀ k, k < 2 * fld w 23 3 → (e.sreg (24 + k)).p = false) → seDmaErr e [0, 1] = none →
      exec (.doneOp die g) s = .next (seRetire s die g { e with fin := some (seTokens e (fld w 23 3)) } (some e.pc) none)) ∧
    (Issues s die g e 0x08 w → exec (.intOp die g) s = .next (seRetire s die g (e.send 2 (.ie (fld w 0 1 == 1))) none e.br)) ∧
    (Issues s die g e 0x09 w →
      (∀ v, fld w 0 1 = 0 → ctlRead s die g e (fld w 16 5) = some v →
        exec (.movc die g) s = .next (seRetire s die g (e.send 2 (.s (fld w 21 5) ⟨BitVec.ofNat 32 v, false⟩)) none e.br)) ∧
      (∀ c v x, fld w 0 1 = 1 → c = fld w 16 5 → c ≤ 4 → v = (e.sreg (fld w 21 5)).v → (e.sreg (fld w 21 5)).p = false →
        x = (if c = 0 then .stat v else if c = 1 then .bx (v.toNat % 64) else if c = 2 then .ipc v else if c = 3 then .istat v else .ivec v) →
        exec (.movc die g) s = .next (seRetire s die g (e.send 2 x) none e.br))) ∧
    (Issues s die g e 0x0A w → fld w 0 3 ≠ 0 →
      (waitReady e (fld w 0 3) = true → seDmaErr e (waitChs (fld w 0 3)) = none → exec (.wait die g) s = .next (seRetire s die g e none none)) ∧
      (waitReady e (fld w 0 3) = false → exec (.wait die g) s = .next (s.setSeState die g SeState.wait))) ∧
    (∀ a ws u, Issues s die g e 0x0B w → (e.ch (fld w 0 1)).busy = false → (e.sreg (fld w 16 5)).p = false →
      a = (e.sreg (fld w 16 5)).v.toNat % 2 ^ 18 → a % 32 = 0 → dmRead s die g (a / 8) 4 = (ws, u) → marked ws = false → dmaOk ws = true →
      exec (.dma die g) s = .next (seRetire u die g (e.setCh (fld w 0 1) { e.ch (fld w 0 1) with
        run := some (dmaParse ws), done := 0 }) none e.br)) ∧
    (Issues s die g e 0x0C w → fld w 0 6 ≤ 47 → exec (.bxset die g) s = .next (seRetire s die g (e.send 2 (.bx (fld w 0 6))) none e.br))

/-- Scalar and memory instructions of a signal engine (R223, R225, R226, R247): the result each puts in flight, with its latency.
Where the spec leaves a point open, the clauses follow notes/assumptions/32.md. -/
def Obligations.SeScalarComplete : Prop :=
  ∀ (s : State) (die : Die) (g : Fin 48) (e : SEng) (w d : Nat) (a b : SReg), d = fld w 21 5 → a = e.sreg (fld w 16 5) → b = e.sreg (fld w 11 5) →
    (Issues s die g e 0x10 w → fld w 0 5 ≤ 17 → a.p = false → b.p = false → exec (.salu die g) s =
      .next (seRetire s die g (e.sendS (if fld w 0 5 = 12 ∨ fld w 0 5 = 13 then 3 else 2) d (saluFn (fld w 0 5) a.v b.v)) none e.br)) ∧
    (Issues s die g e 0x11 w → a.p = false → exec (.addi die g) s =
      .next (seRetire s die g (e.send 2 (.s d ⟨a.v + (BitVec.ofNat 16 w).signExtend 32, false⟩)) none e.br)) ∧
    (Issues s die g e 0x12 w → a.p = false → exec (.andi die g) s =
      .next (seRetire s die g (e.send 2 (.s d ⟨a.v &&& (BitVec.ofNat 16 w).zeroExtend 32, false⟩)) none e.br)) ∧
    (Issues s die g e 0x13 w → a.p = false → exec (.ori die g) s =
      .next (seRetire s die g (e.send 2 (.s d ⟨a.v ||| (BitVec.ofNat 16 w).zeroExtend 32, false⟩)) none e.br)) ∧
    (Issues s die g e 0x14 w → a.p = false → exec (.xori die g) s =
      .next (seRetire s die g (e.send 2 (.s d ⟨a.v ^^^ (BitVec.ofNat 16 w).zeroExtend 32, false⟩)) none e.br)) ∧
    (Issues s die g e 0x17 w → a.p = false → exec (.slti die g) s =
      .next (seRetire s die g (e.send 2 (.s d ⟨if a.v.slt ((BitVec.ofNat 16 w).signExtend 32) then 1 else 0, false⟩)) none e.br)) ∧
    (Issues s die g e 0x15 w → exec (.lui die g) s =
      .next (seRetire s die g (e.send 2 (.s d ⟨BitVec.ofNat 32 (w % 2 ^ 16 * 2 ^ 16), false⟩)) none e.br)) ∧
    (Issues s die g e 0x16 w → fld w 6 2 ≠ 3 → a.p = false →
      exec (.shi die g) s = .next (seRetire s die g (e.sendS 2 d (shiFn (fld w 6 2) a.v (fld w 0 5))) none e.br)) ∧
    (∀ k n, Issues s die g e 0x18 w → k = fld w 19 2 → n = fld w 16 3 → k ≠ 3 →
      (fld w 0 1 = 0 → exec (.pmov die g) s = .next (seRetire s die g (e.send 2 (.s d ⟨if k = 0 then (e.preg n).zeroExtend 32
        else if k = 1 then (e.mreg n).signExtend 32 else (e.lreg n).zeroExtend 32, false⟩)) none e.br)) ∧
      (fld w 0 1 = 1 → (e.sreg d).p = false → exec (.pmov die g) s = .next (seRetire s die g
        (if k = 0 then e.setP n ((e.sreg d).v.truncate 18) else if k = 1 then e.setM n ((e.sreg d).v.truncate 18)
          else e.setL n ((e.sreg d).v.truncate 18)) none e.br))) ∧
    (Issues s die g e 0x19 w → exec (.padd die g) s = .next (seRetire s die g (e.setP (fld w 18 3)
      (stepPtr (e.preg (fld w 18 3)) (e.lreg (fld w 18 3)) (sext 16 (fld w 0 16)))) none e.br)) ∧
    (∀ (n : Nat) (f : SEng) (guard : Bool) (u : State), u = seGuard s die g guard →
      (Issues u die g e 0x20 w → seAddr e w 4 = .ok (n, f) → exec (.lds die g guard) s = .next (seRetire (dmNote u die g (n / 8)) die g
        (f.send 4 (.s d ⟨((dmSees u die g (n / 8)).v >>> (8 * (n % 8))).truncate 32, (dmSees u die g (n / 8)).p⟩)) none e.br)) ∧
      (Issues u die g e 0x21 w → seAddr e w 4 = .ok (n, f) → exec (.sts die g guard) s = .next (seRetire (dmWrite u die g (n / 8)
        [(⟨(e.sreg d).v.zeroExtend 64 <<< (8 * (n % 8)), (e.sreg d).p⟩, if n % 8 = 0 then 0x0F else 0xF0)]) die g f none e.br)) ∧
      (Issues u die g e 0x22 w → seAddr e w 64 = .ok (n, f) → exec (.ldv die g guard) s =
        .next (seRetire (dmRead u die g (n / 8) 8).2 die g (f.send 4 (.v d (dmRead u die g (n / 8) 8).1)) none e.br)) ∧
      (Issues u die g e 0x23 w → seAddr e w 64 = .ok (n, f) → exec (.stv die g guard) s =
        .next (seRetire (dmWrite u die g (n / 8) ((e.vreg d).map (fun x => (x, 0xFF)))) die g f none e.br)) ∧
      (∀ v, Issues u die g e 0x24 w → seAddr e w 2 = .ok (n, f) → v = fld (dmSees u die g (n / 8)).v.toNat (8 * (n % 8)) 16 →
        exec (.ldvb die g guard) s = .next (seRetire (dmNote u die g (n / 8)) die g
          (f.send 4 (.v d (List.replicate 8 ⟨packWord 16 [v, v, v, v], (dmSees u die g (n / 8)).p⟩))) none e.br)))

/-- Vector instructions of a signal engine (R225, R227 to R231): the lanes each puts in flight; an accumulator's chain takes its result at once.
Where the spec leaves a point open, the clauses follow notes/assumptions/32.md. -/
def Obligations.SeVectorComplete : Prop :=
  ∀ (s : State) (die : Die) (g : Fin 48) (e : SEng) (w d n : Nat) (a b : List MWord) (x y : SReg), d = fld w 21 5 → n = szBits (fld w 9 2) →
    a = e.vreg (fld w 16 5) → b = e.vreg (fld w 11 5) → x = e.sreg (fld w 16 5) → y = e.sreg (fld w 11 5) →
    (Issues s die g e 0x28 w → fld w 0 5 ≤ 12 → fld w 9 2 ≠ 3 → fld w 0 5 ≠ 10 → marked a = false → marked b = false →
      exec (.valu die g) s = .next (seRetire s die g (e.sendV 2 d n (fun j =>
        valuFn (fld w 0 5) n (fld w 8 1 == 1) (lane a n (if fld w 0 5 = 9 then j ^^^ 1 else j)) (lane b n j))) none e.br)) ∧
    (Issues s die g e 0x28 w → fld w 0 5 = 10 → fld w 9 2 ≠ 3 →
      exec (.valu die g) s = .next (seRetire s die g (e.send 2 (.v d a)) none e.br)) ∧
    (Issues s die g e 0x29 w → fld w 0 2 ≠ 3 → fld w 9 2 ≠ 3 → marked a = false → y.p = false →
      exec (.vsh die g) s = .next (seRetire s die g (e.sendV 2 d n (fun j =>
        vshFn (fld w 0 2) n (fld w 8 1 == 1) (laneNat a n j) (y.v.toNat % 64))) none e.br)) ∧
    (Issues s die g e 0x2A w → fld w 9 2 ≠ 3 → x.p = false →
      exec (.vbrd die g) s = .next (seRetire s die g (e.sendV 2 d n (fun _ => (x.v.toNat, 0))) none e.br)) ∧
    (Issues s die g e 0x2B w → fld w 9 2 ≠ 3 → fld w 0 6 < 512 / n → (a.getD (n * fld w 0 6 / 64) ⟨0, false⟩).p = false →
      exec (.vext die g) s = .next (seRetire s die g (e.sendS 2 d (lane a n (fld w 0 6), 0)) none e.br)) ∧
    (∀ (k : Nat) (v : Nat → Int) (r : List (BitVec 48 × BitVec 3)), k = fld w 21 2 →
      r = (List.range 32).map (fun j => accOp (fld w 9 2) (e.chainOf k j) (v j)) → fld w 9 2 ≠ 3 → marked a = false →
      ∀ t, t = seRetire s die g (((e.setChain k (r.map (fun x => x.1))).send 4 (.acc k (r.map (fun x => x.1)))).sendSticky 4
        (r.foldl (fun a x => a ||| x.2) 0)) none e.br →
      (Issues s die g e 0x2C w → marked b = false →
        v = (fun j => lane a 16 (if fld w 8 1 = 1 then j ^^^ 1 else j) * lane b 16 j) → exec (.vmac die g) s = .next t) ∧
      (Issues s die g e 0x2D w → fld w 0 6 ≤ 32 →
        v = (fun j => (BitVec.ofInt 48 (lane a 16 j * 2 ^ fld w 0 6)).toInt) → exec (.vacc die g) s = .next t)) ∧
    (Issues s die g e 0x2E w → (fld w 10 1 = 0 → fld w 0 6 ≤ 32) → (fld w 10 1 = 1 → y.p = false) →
      exec (.vnar die g) s = .next (seRetire s die g (e.sendV 3 d 16 (fun j => vnarLane (e.accOf (fld w 16 2) j)
        (if fld w 10 1 = 0 then fld w 0 6 else min (y.v.toNat % 64) 32) (fld w 9 1 == 1))) none e.br)) ∧
    (Issues s die g e 0x2F w → fld w 9 2 ≠ 3 →
      (fld w 11 1 = 1 → fld w 16 5 < 4 → exec (.bexp die g) s = .next (seRetire s die g (e.send 2 (.bxMin
        (leastRed 48 ((List.range 32).map (fun j => (e.accOf (fld w 16 5) j).toInt))))) none e.br)) ∧
      (fld w 11 1 = 0 → marked a = false → exec (.bexp die g) s = .next (seRetire s die g (e.send 2 (.bxMin
        (leastRed n ((List.range (512 / n)).map (lane a n))))) none e.br)))

/-- What engines compute (R226, R227, R229, R230): 32-bit results wrap, shifts and saturation set their sticky bits exactly where the exact
result does not fit, and each lane of a vector result stands in its own bits. -/
def Obligations.SeArithmetic : Prop :=
  ∀ (a b : Word),
    (BitVec.ofInt 32 (saluFn 0 a b).1 = a + b ∧ BitVec.ofInt 32 (saluFn 1 a b).1 = a - b ∧ BitVec.ofInt 32 (saluFn 12 a b).1 = a * b ∧
      BitVec.ofInt 32 (saluFn 6 a b).1 = a >>> (b.toNat % 32) ∧ BitVec.ofInt 32 (saluFn 7 a b).1 = a.sshiftRight (b.toNat % 32)) ∧
    (BitVec.ofInt 32 (saluFn 5 a b).1 = a <<< (b.toNat % 32) ∧
      ((saluFn 5 a b).2 = Sticky.ovf ↔ (a <<< (b.toNat % 32)).sshiftRight (b.toNat % 32) ≠ a)) ∧
    ((saluFn 16 a b).2 = Sticky.satf ↔ a.saddOverflow b = true) ∧
    (a ≠ 0 → (BitVec.ofInt 32 (saluFn 15 a b).1).getLsbD 31 ≠ (BitVec.ofInt 32 (saluFn 15 a b).1).getLsbD 30) ∧
    (∀ (op : Nat) (old : BitVec 48) (v : Int), op ≤ 2 → -(2 ^ 47 : Int) ≤ v → v < (2 ^ 47 : Int) →
      ((accOp op old v).2 = Sticky.none ↔ (accOp op old v).1.toInt = if op = 0 then v else if op = 1 then old.toInt + v else old.toInt - v)) ∧
    (∀ (w : Nat) (f : Nat → Int) (j : Nat), w = 8 ∨ w = 16 ∨ w = 32 → j < 512 / w →
      lane (packLanes w f) w j = (BitVec.ofInt w (f j)).toInt)

/-- Program memory's code (R248): a stored instruction reads as written, any single flipped bit of its 39 is corrected, and any two flipped bits
are reported as uncorrectable. -/
def Obligations.ProgramMemoryCode : Prop :=
  ∀ w : Word,
    pmSee (pmPack w (pmCheck w)) = some (w, false) ∧
    (∀ i, i < 39 → pmSee (pmPack w (pmCheck w) ^^^ (1#39 <<< i)) = some (w, true)) ∧
    (∀ i j, i < j → j < 39 → pmSee (pmPack w (pmCheck w) ^^^ (1#39 <<< i) ^^^ (1#39 <<< j)) = none)

/-- An engine apart from its instructions (R217, R218, R235, R240 to R245): waits and ends, interrupts, its registers and accesses to its
memories.
Where the spec leaves a point open, the clauses follow notes/assumptions/32.md. -/
def Obligations.SeEventsComplete : Prop :=
  ∀ (s : State) (m : Master) (die : Die) (g : Fin 48) (e : SEng), e = s.eng die g →
    (∀ held f w u, f = e.passMany held → s.seState die g = SeState.wait → seClocked s die g = true → seFetch s die g f = some w →
      waitReady f (w % 8) = true → f.irqDue = false →
      u = ((s.setEng die g f).inc die (R.SEA_CNT_WAIT.COUNT g) held).inc die (R.SEA_CNT_CYCLE.COUNT g) held →
      exec (.waitRelease die g held) s = .next (seIssue (u.setSeState die g SeState.run) die g 0x0A seWait)) ∧
    (∀ toks u, e.fin = some toks → s.seState die g = SeState.run → seClocked s die g = true → e.dma0.busy = false → e.dma1.busy = false →
      seDmaErr e [0, 1] = none →
      u = (s.setEng die g { e.drain.noFlow with pc := (e.drain.noFlow.pc + 1) % 16384 }).setSeState die g SeState.idle →
      (s.standalone die g = true → u.standalone die g = true → exec (.doneCompletion die g) s = .next (u.setBit die R.SEA_EVT_DONE.DONE g)) ∧
      (s.standalone die g = false → u.standalone die g = false → s.cplRoom die = true →
        exec (.doneCompletion die g) s = .next (u.sendCpl die ⟨g.val, e.drain.noFlow.ticket, 0, toks⟩))) ∧
    (∀ f, f = (if s.seState die g = SeState.wait then e.toIrq else e) → s.seState die g = SeState.run ∨ s.seState die g = SeState.wait →
      seClocked s die g = true → f.irqDue = true → exec (.interruptTaken die g) s =
      .next (((s.setEng die g { f.drain with ipc := f.drain.pc, ie := false, pc := f.drain.ivec }).setSeState die g SeState.run).p die
        (R.SEA_STATUS.IN_ISR g) 1)) ∧
    (∀ u, s.seState die g = SeState.aborting → u = (s.setEng die g e).setSeState die g SeState.idle → s.seLate die g = [] →
      (u.eng die g).owed = false → exec (.abortingEnd die g) s = .next u) ∧
    (s.seState die g = SeState.halting → seClocked s die g = true → (e.gap = true ∨ e.fin.isSome = true) → e.dma0.busy = false → e.dma1.busy = false →
      ∀ u, u = (s.setEng die g e.drain.noFlow).setSeState die g SeState.halted → u.on die (R.SEA_STATUS.PEND_START g) = false →
      exec (.haltComplete die g) s = .next u) ∧
    (Reaches s m die ⟨.SEA_CTRL, g, 0⟩ → s.standalone die g = true → ∀ u, u = s.p die (R.SEA_CTRL.MODE g) 1 →
      (seStopped (s.seState die g) = true → exec (.seaStart m die g) s = .next ((seBegin u die g).ans .ok)) ∧
      (s.seState die g = SeState.halting → exec (.seaStart m die g) s = .next ((u.p die (R.SEA_STATUS.PEND_START g) 1).ans .ok)) ∧
      (s.seState die g = SeState.run ∨ s.seState die g = SeState.wait →
        exec (.seaHalt m die g) s = .next ((u.setSeState die g SeState.halting).ans .ok))) ∧
    (∀ mode : Bool, Reaches s m die ⟨.SEA_CTRL, g, 0⟩ → seStopped (s.seState die g) = true →
      exec (.seaMode m die g mode) s = .next ((s.p die (R.SEA_CTRL.MODE g) (if mode then 1 else 0)).ans .ok)) ∧
    (Reaches s m die ⟨.SEA_DOORBELL, g, 0⟩ → exec (.doorbell m die g) s = .next ((seRing s die g).ans .ok)) ∧
    (∀ (c : Fin 2) x l, dmaLive s die g c = some x → l = dmaRest s die g c x →
      exec (.dmaChannelDone die g c) s = .next { dmaRun die g c x s l with reply := s.reply } ∧
      ∀ r p rest, l = p :: rest → r ≠ .ok → exec (.dmaResponseError die g c 0 r) s =
        .next { dmaFail (if r = .timeout then dmaTimeout s die g x p else s) die g c x rest r with reply := s.reply }) ∧
    (∀ q off u w n, s.debugShut q.m = false → coreStops s q = none → decodeAddr s q.m (s.dieOfRid q.m.rid) q.addr.toNat = .se die g off →
      routeTo s (s.dieOfRid q.m.rid) die = (none, u) → u.held die Blk.sea = false → seGatesOpen u die g = true → seFormOk q = true →
      n = reqWords q →
      (q.op = .read → off < 0x40000 → exec (.seNocAccess q) s = .next ({ (dmRead u die g (off / 8) n).2 with
        reply := ⟨.ok, (dmRead u die g (off / 8) n).1⟩ }.coreSees q.m false q.addr.toNat)) ∧
      (q.op = .write → off < 0x40000 → exec (.seNocAccess q) s = .next ((dmWrite u die g (off / 8) (reqWwords q)).ans .ok)) ∧
      (q.op = .read → w = off / 8 - 0x8000 → 0x40000 ≤ off → exec (.seNocAccess q) s = .next ({
        (List.range (2 * n)).foldl (fun s k => pmNote s die g (2 * w + k)) u with
          reply := ⟨.ok, (List.range n).map (fun k => pmSees ((List.range (2 * n)).foldl (fun s k => pmNote s die g (2 * w + k)) u) die g (w + k))⟩
        }.coreSees q.m false q.addr.toNat)) ∧
      (q.op = .write → w = off / 8 - 0x8000 → 0x40000 ≤ off → seProgBusy u die g = false →
        exec (.seNocAccess q) s = .next ((pmWrite u die g w (reqWwords q)).ans .ok)))

/-- Commands of the dispatcher (R252, R254, R267, R268, R273, R275, R276): accesses that reach its registers and what each does.
Where the spec leaves a point open, the clauses follow notes/assumptions/39.md. -/
def Obligations.DfdCommandsComplete : Prop :=
  ∀ (s : State) (m : Master) (die : Die),
    (∀ (w : DWord) r, r = ⟨.DFD_TOKEN, 0, 0⟩ → Reaches s m die r → (m.cls ≠ .dfd ∨ s.dieOfRid m.rid = die) →
      (tokenOk s die w.toNat = true → exec (.tokenWrite m die w) s = .next ((countToken s die w.toNat).ans .ok)) ∧
      (tokenOk s die w.toNat = false → exec (.tokenWrite m die w) s = .next ((s.ans .accessError).coreTrap m .storeFault
        (die * 0x1000000 + r.off)))) ∧
    (∀ (op : Fin 8192) (k : Fin 8) (v : Word) r, r = ⟨.DFD_OPDESC, op, k⟩ → Reaches s m die r → opValid s die op = false →
      (k ≠ 0 → exec (.descriptorWrite m die op k v) s = .next ((s.p die (R.DFD_OPDESC.WORD op k) v.toNat).ans .ok)) ∧
      (k = 0 → (v.getLsbD 31 = true → descOk v.toNat (opWord s die op 1) = true) → exec (.descriptorWrite m die op k v) s =
        .next ((s.p die (R.DFD_OPDESC.WORD op 0) (v.toNat / 8192 * 8192 + op)).ans .ok)) ∧
      (k = 0 → v.getLsbD 31 = true → descOk v.toNat (opWord s die op 1) = false →
        exec (.descriptorWrite m die op k v) s =
        .next ((s.ans .accessError).coreTrap m .storeFault (die * 0x1000000 + r.off)))) ∧
    (∀ q : Fin 4, Reaches s m die ⟨.DFD_CQ_POP, q, 0⟩ →
      exec (.cqPop m die q) s = .next ((cqPop s die q).2.ansData .ok [BitVec.ofNat 64 (cqPop s die q).1])) ∧
    (∀ (q : Fin 4) (st : Fin 4) (n : Fin 8) (t : BitVec 16) c l, Reaches s m die ⟨.DFD_CQ_CPL, q, 0⟩ → st ≠ 3 → n ≤ 4 →
      ((s.dfdOf die).queue q).any (fun e => e.popped && e.cpl.isNone && e.t == t.toNat) = true →
      c = ⟨128 + q, t.toNat, st, (List.range n).map (fun k => BitVec.ofNat 64 (s.g die (R.DFD_CQ_TOK.TOKEN q k)))⟩ →
      l = ((s.dfdOf die).queue q).map (fun e => if e.t = t.toNat then { e with cpl := some (m.rid, c) } else e) →
      exec (.cqComplete m die q st n t) s =
        .next ((cqRelease (s.setDfd die { s.dfdOf die with cq := SMap.set (fun _ => []) (s.dfdOf die).cq q l }) die q).ans .ok)) ∧
    (∀ (q : Fin 4) r v, r = ⟨.DFD_CQ_CFG, q, 0⟩ → v = written s die r (named s die r [(R.DFD_CQ_CFG.FLUSH q, 1)]) → Reaches s m die r →
      1 ≤ s.g die (R.DFD_CQ_CFG.QDEPTH q) → s.g die (R.DFD_CQ_CFG.QDEPTH q) ≤ 16 →
      exec (.cqFlush m die q) s = .next ((cqFlush ((s.setReg die r v).ans .ok) die q).ans .ok)) ∧
    (∀ r bad, r = ⟨.DFD_CMD, 0, 0⟩ → Reaches s m die r → bad = (cmdBad s die).coreTrap m .storeFault (die * 0x1000000 + r.off) →
      (∀ op : BitVec 16, op.toNat < 8192 → opValid s die op.toNat = true →
        (∀ l, l = liveTickets s die (fun t => t.op == op.toNat) →
          exec (.migrateOp m die op) s = .next (cmdOk (migrateAll s die l).1 die m (migrateAll s die l).2)) ∧
        exec (.abortOp m die op) s = .next (cmdOk (abortOp s die op.toNat) die m false)) ∧
      (∀ u : BitVec 16, unitOk u.toNat = true →
        exec (.evacuateUnit m die u) s = .next (cmdOk (evacuateUnit s die u.toNat).1 die m (evacuateUnit s die u.toNat).2) ∧
        exec (.abortUnit m die u) s = .next (cmdOk (abortUnit s die u.toNat) die m false)) ∧
      (∀ op : BitVec 16, 8192 ≤ op.toNat → exec (.migrateOp m die op) s = .next bad ∧
        exec (.abortOp m die op) s = .next bad) ∧
      (s.on die R.DFD_EPOCH_CTRL.SCOPE = false →
        (closing s die = false → exec (.epochClose m die) s = .next (cmdOk ((s.putDfd die { s.dfdOf die with
          device := false, report := none, clean := 0 }).p die R.DFD_EPOCH_STATUS.STATE 1) die m false)) ∧
        (closing s die = true → exec (.epochClose m die) s = .next bad) ∧
        exec (.epochAbort m die) s = .next (cmdOk (epochAbort s die) die m false))) ∧
    (Reaches s m die ⟨.DFD_CTRL, 0, 0⟩ →
      (dfdState s die = Dstate.stopped → exec (.dfdEnable m die true) s =
        .next (((s.p die R.DFD_CTRL.ENABLE 1).p die R.DFD_STATUS.STATE Dstate.running).ans .ok)) ∧
      (dfdState s die = Dstate.running → exec (.dfdEnable m die false) s =
        .next (((s.p die R.DFD_CTRL.ENABLE 0).p die R.DFD_STATUS.STATE Dstate.stopping).ans .ok)) ∧
      (dfdState s die = Dstate.stopping → exec (.dfdEnable m die true) s = .next ((s.p die R.DFD_CTRL.ENABLE 1).ans .ok)))

/-- A dispatcher at work (R255, R257, R259, R261, R263, R264, R271, R273, R274, R276): what each event leaves.
Where the spec leaves a point open, the clauses follow notes/assumptions/39.md. -/
def Obligations.DfdEventsComplete : Prop :=
  ∀ (s : State) (die : Die) (x : DfdSt), x = s.dfdOf die →
    (dfdRuns s die = true →
      (∀ f, f = (fun p => spillOff s die && !(x.gat p).isEmpty && s.g die (R.DFD_SPILL_FILL.FILL p) == 0 && x.room p) →
        (∀ p, (List.range 8).find? f = some p → exec (.deferredPlace die) s = .next ((ungather s die p).p die R.DFD_STATUS.ORDER_LOST 1)) ∧
        (∀ n u, (List.range 8).find? f = none → (activeOps s die).find? (fun n => s.g die (R.DFD_OPSTATE.DEFER n) != 0
            && placeOf s die (opPrio s die n) != .defer) = some n → u = placeFiring s die n (placeOf s die (opPrio s die n)) →
          exec (.deferredPlace die) s =
            .next ((u.p die (R.DFD_OPSTATE.DEFER n) (u.g die (R.DFD_OPSTATE.DEFER n) - 1)).p die R.DFD_STATUS.ORDER_LOST 1))) ∧
      (∀ c re e u aff, dfdState s die = Dstate.running → x.tickets.length < 512 →
        (classTurn x.lastCls).findSome? (fun c => (pick s die c).map (fun p => (c, p))) = some (c, re, e, u, aff) →
        exec (.issue die) s = .next (issueTo s die c re e u aff)) ∧
      (∀ c l, x.cpls = c :: l → exec (.completion die) s = .next (cqReleaseAll (complete (s.putDfd die { x with cpls := l }) die c) die))) ∧
    (∀ p : Fin 8, spillReady s die p = true → ∀ l wr, l = spillLine s die p → wr = DfdSt.num x.wr p →
      (∀ u y, memWrite 2 s (s.dfdMaster die) (ringAddr s die p wr) (l.map (fun e => (⟨spillWord s die e, false⟩, 0xFF#8))) = (.ok, u) →
        y = u.dfdOf die → u.g die (R.DFD_SPILL_FILL.FILL p) ≠ 0 →
        exec (.spillLineWrite die p) s = .next ((dfdCnt (u.setDfd die { y.setGat p ((y.gat p).drop l.length) with
          wr := SMap.set (fun _ => 0) y.wr p (wr + l.length)
          sub := SMap.set (fun _ => []) y.sub p (y.subOps p ++ l.map (fun e => e.op)) }) die Cnt.spilled l.length).p die
            (R.DFD_SPILL_FILL.FILL p) (u.g die (R.DFD_SPILL_FILL.FILL p) + l.length))) ∧
      exec (.spillWriteError die p) s = .next (spillFailed s die p)) ∧
    (∀ p n rd, refillFrom s die = some p → n = refillCount s die p → rd = DfdSt.num x.rd p →
      (∀ ws u, memRead 2 s (s.dfdMaster die) (ringAddr s die p rd) n = (.ok, ws, u) → exec (.refill die) s =
        .next (refillPass (ws.zipIdx.foldl (fun s w => refillOne s die p (rd + w.2) w.1) u) die p n)) ∧
      exec (.refillError die) s = .next (refillLost s die p n)) ∧
    (∀ t l u, x.fwd = t :: l → u = s.putDfd die { x with fwd := l } →
      (∀ r, r ≠ .ok → exec (.remoteTokenResponse die r) s = .next ((dfdCnt u die Cnt.fwdErr 1).p die R.DFD_EVT.FWD_ERR 1)) ∧
      (∀ v w, u.present (fld t.toNat 13 3) = true → routeTo u die (fld t.toNat 13 3) = (none, v) →
        v.held (fld t.toNat 13 3) Blk.dfd = false → w = tokenWrite v (fld t.toNat 13 3) (v.dfdMaster die) t.toNat → w.reply.resp = .ok →
        exec (.remoteTokenResponse die .ok) s = .next { w with reply := s.reply })) ∧
    (∀ (k : BitVec 16) t, x.tickets.find? (fun t => t.t == k.toNat && !t.live) = some t → unitCls t.unit_ ≠ 1 → unitLetGo s die t = true →
      (∀ c ∈ x.cpls, c.ticket ≠ t.t) → exec (.ticketRelease die k) s = .next (dropTicket s die t.t)) ∧
    (∀ (k : BitVec 16) t y w, x.tickets.find? (fun t => t.t == k.toNat && !t.live) = some t → unitCls t.unit_ = 1 →
      unitLetGo s die t = true → (∀ c ∈ x.cpls, c.ticket ≠ t.t) → y = { s.kslot die (unitIdx t.unit_) with
        outst := (s.kslot die (unitIdx t.unit_)).outst.erase k, descs := (s.kslot die (unitIdx t.unit_)).descs.filter (fun e => e.2 != k) } →
      w = s.setKslot die (unitIdx t.unit_) y → exec (.ticketRelease die k) s =
        .next (dropTicket (if y.outst.isEmpty then w.p die (R.FAB_KSLOT_STATUS.IDLE (unitIdx t.unit_)) 1 else w) die t.t)) ∧
    (∀ (g : Fin 48) (k : BitVec 16) t, x.tickets.find? (fun t => t.t == k.toNat && t.unit_ == g.val) = some t →
      exec (.seAbort die g k) s = .next (if t.live then revoke s die t else seAbort s die g t.t)) ∧
    (deviceClosing s = true → (∃ d ∈ s.dies, quiescent s d = false) →
      ∀ u, u = s.dies.foldl (fun s d => s.putDfd d { s.dfdOf d with report := none }) s →
      exec .epochRound s = .next (u.putDfd u.head { u.dfdOf u.head with clean := 0 })) ∧
    (deviceClosing s = true → die.val = s.head → 2 ≤ (s.dfdOf s.head).clean → exec (.epochBoundary die) s = .next (s.dies.foldl boundary s)) ∧
    (deviceClosing s = false → s.present die = true → closing s die = true → quiescent s die = true →
      exec (.epochBoundary die) s = .next (boundary s die)) ∧
    (closing s die = true → s.g die R.DFD_EPOCH_CTRL.TMO ≠ 0 → x.device = false → exec (.epochSlow die) s =
      .next ((s.p die R.DFD_EPOCH_STATUS.SLOW 1).p die R.DFD_EVT.EPOCH_SLOW 1)) ∧
    (dfdState s die = Dstate.stopping → liveTickets s die (fun _ => true) = [] → exec (.dfdStopped die) s =
      .next ((s.p die R.DFD_STATUS.STATE (if s.on die R.DFD_CTRL.ENABLE then Dstate.running else Dstate.stopped)).p die R.DFD_EVT.STOPPED 1))

/-- Rules of the dispatcher (R255, R263): once a token has been counted, its operation's count stands below its valency unless its firings are
stopped, which takes 255 deferred ones and no place; and a fresh ticket is one that is not held.
Where the spec leaves a point open, the clauses follow notes/assumptions/39.md. -/
def Obligations.DispatcherRules : Prop :=
  (∀ (s : State) (d n : Nat), Canonical s → d < 8 → n < 8192 → opValency s d n ≠ 0 → ∀ t, t = fireOp 65536 s d n →
    opValency t d n = opValency s d n ∧
    (t.g d (R.DFD_OPSTATE.COUNT n) < opValency s d n ∨
      (placeOf t d (opPrio t d n) = .defer ∧ t.g d (R.DFD_OPSTATE.DEFER n) = 255)) ∧
    t.g d (R.DFD_OPSTATE.COUNT n) % opValency s d n = s.g d (R.DFD_OPSTATE.COUNT n) % opValency s d n) ∧
  (∀ (l : List Ticket) (k : Nat), l.length ≤ 512 → 1 ≤ k → k ≤ 65535 →
    (∀ x ∈ l, x.t ≠ freeTicket 513 l k) ∧ 1 ≤ freeTicket 513 l k ∧ freeTicket 513 l k ≤ 65535)

/-- Bank memory (R284, R287, R289 to R293, R298): registers of a bank, its power transitions and wipes, accesses and atomics.
Where the spec leaves a point open, the clauses follow notes/assumptions/4.md. -/
def Obligations.BanksComplete : Prop :=
  ∀ (s : State) (m : Master) (die : Die) (b : Fin 8), Canonical s →
    (Reaches s m die ⟨.BNK_CTRL, b, 0⟩ →
      (∀ o : BitVec 13, o.toNat ≠ s.bankOwner die b → s.on die (R.BNK_STATUS.HANDOVER_PENDING b) = false →
        mayChangeOwner s m die b o.toNat = true →
        exec (.ownerChange m die b o) s = .next ((penBankCheck (handoverStart s die b o.toNat) die b).ans .ok)) ∧
      (∀ p : Fin 4, ownsBank s m die b = true → p.val ≠ s.g die (R.BNK_CTRL.POWER b) → powerOk s die b p = true →
        exec (.bankPowerRequest m die b p) s = .next ((penBankCheck (powerTake s die b p) die b).ans .ok) ∧
        (s.pstate die b = Pst.on → p ≠ 0 → (powerTake s die b p).pstate die b = if p = 1 then Pst.toRet else Pst.toOff)) ∧
      (ownsBank s m die b = true → s.pstate die b = Pst.on → s.on die (R.BNK_STATUS.HANDOVER_PENDING b) = false →
        s.on die (R.BNK_STATUS.WIPING b) = false → exec (.bankWipe m die b) s = .next ((penBankCheck (bankWipe s die b) die b).ans .ok) ∧
          (bankWipe s die b).on die (R.BNK_STATUS.WIPING b) = true)) ∧
    (Reaches s m die ⟨.BNK_CTRL, 7, 0⟩ → s.supervisor m = true →
      exec (.secureSet m die) s = .next ((penBankCheck (s.p die (R.BNK_CTRL.SECURE 7) 1) die 7).ans .ok)) ∧
    (Reaches s m die ⟨.BNK_ECC_CHK, 0, 0⟩ → ∀ w, w = s.g die R.BNK_ECC_ADDR.OFFSET → s.pstate die (testBank s die) = Pst.on →
      exec (.eccChkRead m die) s = .next (s.ansData .ok [BitVec.ofNat 64 (bankSyn s die (testBank s die) w * 256 +
        (s.bankWord (die * 8 + testBank s die) w).chk.toNat)]) ∧
      ∀ v : Byte, ownsBankAny s m die (testBank s die) = true → exec (.eccChkWrite m die v) s =
        .next ((s.setBankWord (die * 8 + testBank s die) w { s.bankWord (die * 8 + testBank s die) w with chk := v }).ans .ok)) ∧
    (s.pstate die b ≠ pstAfter (s.pstate die b) → exec (.bankPowerReached die b) s = .next (bankTransitionEnd s die b)) ∧
    (s.on die (R.BNK_STATUS.WIPING b) = true → s.pstate die b = Pst.on → exec (.wipeDone die b) s =
      .next (restRespond (((s.zeroBank (die * 8 + b)).p die (R.BNK_STATUS.WIPING b) 0).p die R.BNK_EVT.WIPE_DONE 1))) ∧
    (∀ q off, s.debugShut q.m = false → coreStops s q = none → decodeAddr s q.m (s.dieOfRid q.m.rid) q.addr.toNat = .bank die b off →
      (∀ ws t, q.op = .read → reqFormOk q = true → memRead 65 s q.m q.addr.toNat (reqWords q) = (.ok, ws, t) →
        exec (.bankAccess q) s = .next ({ t with reply := ⟨.ok, ws⟩ }.coreSees q.m false q.addr.toNat)) ∧
      (∀ t, q.op = .write → reqFormOk q = true → memWrite 65 s q.m q.addr.toNat (reqWwords q) = (.ok, t) →
        exec (.bankAccess q) s = .next (t.ans .ok)) ∧
      (∀ u v w x y old new, routeTo s (s.dieOfRid q.m.rid) die = (none, u) → bankJudge u q.m die b (off / 8) (atomicOk q) = (none, v) →
        w = recallLine v (q.addr.toNat / 64) → x = bankSees w die b (off / 8) → x.p = false →
        old = (x.v.toNat >>> (8 * (off % 8))) % 2 ^ (8 * q.size) → new = atomicResult q.op (8 * q.size) old
          ((q.data.getD 0 ⟨0, false⟩).v.toNat % 2 ^ (8 * q.size)) ((q.data.getD 1 ⟨0, false⟩).v.toNat % 2 ^ (8 * q.size)) →
        y = splice x.v (8 * (off % 8)) (8 * q.size) new →
        exec (.bankAtomic q) s = .next ((bankAfter ((bankNote w die b (off / 8)).setBankWord (die * 8 + b) (off / 8) ⟨y, secdedCheck y⟩)
          die b).ansData .ok [BitVec.ofNat 64 old])))

/-- The (72,64) code (R294, R295): a word that was written reads as written, a single flipped data or check bit is corrected, two flipped bits
are uncorrectable but for eight pairs of data bits, which read as poison, and the poison pattern reads as poison. -/
def Obligations.BankCode : Prop :=
  ∀ (v : DWord),
    synOf ((secdedCheck v ^^^ secdedCheck v).toNat) = .clean ∧
    (∀ i, i < 64 → synWord (v ^^^ (1#64 <<< i)) (synOf ((secdedCheck v ^^^ secdedCheck (v ^^^ (1#64 <<< i))).toNat)) = ⟨v, false⟩) ∧
    (∀ i, i < 8 → synOf ((secdedCheck v ^^^ (1#8 <<< i) ^^^ secdedCheck v).toNat) = .check) ∧
    (∀ i j, i < j → j < 64 → synOf ((secdedCheck v ^^^ secdedCheck (v ^^^ (1#64 <<< i) ^^^ (1#64 <<< j))).toNat) =
      if 48 ≤ i ∧ i ≤ 55 ∧ i + j = 111 then .poison else .bad) ∧
    (∀ i j, i < 64 → j < 8 → synOf ((secdedCheck v ^^^ (1#8 <<< j) ^^^ secdedCheck (v ^^^ (1#64 <<< i))).toNat) = .bad) ∧
    (∀ i j, i < j → j < 8 → synOf ((secdedCheck v ^^^ (1#8 <<< i) ^^^ (1#8 <<< j) ^^^ secdedCheck v).toNat) = .bad) ∧
    synOf ((storedCheck v true ^^^ secdedCheck v).toNat) = .poison

/-- Caches and home slices (R309, R319, R324, R325): what each coherence message leaves.
Where the spec leaves a point open, the clauses follow notes/assumptions/6.md. -/
def Obligations.CoherenceComplete : Prop :=
  ∀ (s : State) (m : Master) (die : Die) (line : LineId) (q : Nat), q = s.dieOfRid m.rid →
    (s.copyOf q line = none → exec (.cleanOp m line) s = .next (s.ans .ok)) ∧
    (s.copyOf q line = none → cachedHere s m line = true →
      exec (.readShared m line) s = .next ((fill s q m line false).2.ans (fill s q m line false).1) ∧
      exec (.readUnique m line) s = .next ((fill s q m line true).2.ans (fill s q m line true).1)) ∧
    (∀ c, s.copyOf q line = some c →
      (c.st = 1 → exec (.upgrade m line) s = .next ((upgrade s q m line).2.ans (upgrade s q m line).1)) ∧
      (∀ u, c.st = 3 → writeHome s q line c = (true, u) →
        exec (.cleanOp m line) s = .next ((u.setCopy q line (some { c with st := 2 })).ans .ok)) ∧
      (∀ u, c.st = 3 → writeHome s q line c = (false, u) →
        exec (.cleanOp m line) s = .next ((dirDrop (u.setCopy q line none) q line).ans .ok)) ∧
      (c.st ≠ 3 → exec (.cleanOp m line) s = .next ((s.setCopy q line (some { c with st := min c.st 2 })).ans .ok))) ∧
    ((lineTarget s m q line).cacheable = true → exec (.cleanInval m line) s = .next ((recallLine s line).ans .ok)) ∧
    (∀ c, s.copyOf die line = some c →
      (c.st = 3 → exec (.writeback die line) s = .next (evictCopy s die line)) ∧
      (c.st = 1 ∨ c.st = 2 → exec (.evict die line) s = .next (evictCopy s die line))) ∧
    (∀ e u, s.dirOf line = some e → u = shareCopy (rlcCnt s die 3) die line →
      (e.owner ≠ some die.val → exec (.snpShared die line) s = .next u) ∧
      (e.owner = some die.val → exec (.snpShared die line) s =
        .next (u.setDir line ((u.dirOf line).map (fun e => { e with owner := none }))))) ∧
    (exec (.snpInval die line) s = .next (dirDrop (dropCopy (rlcCnt s die 3) die line) die line) ∧
      exec (.snpRecall die line) s = .next (dirDrop (dropCopy (rlcCnt (rlcCnt s die 3) die 4) die line) die line)) ∧
    (Reaches s m die ⟨.RLC_CTRL, 0, 0⟩ → s.on die R.RLC_STATUS.FLUSHING = false →
      exec (.rlcFlush m die) s = .next ((s.p die R.RLC_STATUS.FLUSHING 1).ans .ok)) ∧
    (s.on die R.RLC_STATUS.FLUSHING = true → exec (.rlcFlushDone die) s =
      .next (((flushRemote s die).p die R.RLC_STATUS.FLUSHING 0).p die R.RLC_EVT.FLUSH_DONE 1)) ∧
    (∀ (f : Byte) r, r = ⟨.RLC_ECC_FLIP, 0, 0⟩ → Reaches s m die r → exec (.rlcEccArm m die f) s =
      .next ((s.setReg die r (written s die r (named s die r [(R.RLC_ECC_FLIP.ARM, 1), (R.RLC_ECC_FLIP.FLIP, f.toNat)]))).ans .ok))

/-- The network (R114, R115, R309, R312 to R315): packets in flight, parked, served, timed out and quarantined; the flash aperture.
Where the spec leaves a point open, the clauses follow notes/assumptions/42.md. -/
def Obligations.NetworkComplete : Prop :=
  ∀ (s : State) (m : Master) (die : Die) (q : Req) (rid : Nat) (tag : Fin 512),
    (s.present (s.dieOfRid q.m.rid) = true → s.netOf q.m.rid q.tag = none → coreStops s q = none →
      (reqDie s q = none → exec (.packetInject q) s = .next ((s.ans .decodeError).coreSees q.m (opStores q.op) q.addr.toNat)) ∧
      (∀ d t, reqDie s q = some d → routeTo s (s.dieOfRid q.m.rid) d = (none, t) → exec (.packetInject q) s =
        .next (s.sendNet q q.tag (.flying (if s.belowRun d then 1 else 0))))) ∧
    (∀ r d c, s.netOf rid tag = some r → r.place = .flying c → reqDie s r.req = some d → s.fullStopped d = false → s.running d = false →
      exec (.packetPark rid tag) s = .next ((packetWake s d).setNet rid tag (some { r with place := .parked }))) ∧
    (∀ r, s.coh.net = [(rid * 512 + tag, some r)] → s.present die = true → s.running die = true → r.place = .parked →
      reqDie s r.req = some die.val → uncachedWaits s r.req tag = false → exec (.parkedDelivery die) s = .next (completeReq s rid tag r)) ∧
    (coreStops s q = none → uncachedWaits s q q.tag = false →
      (targetPort s q = none → s.netOf q.m.rid q.tag = none →
        (q.op = .read → exec (.nocRead q) s = .next (perform s q)) ∧ (q.op = .write → exec (.nocWrite q) s = .next (perform s q))) ∧
      (∀ r d, targetPort s q = none → s.netOf q.m.rid q.tag = some r → r.req = q → r.place ≠ .done → r.quar = false →
        reqDie s q = some d → s.running d = true →
        (q.op = .read → exec (.nocRead q) s = .next ((perform s q).putNet q.m.rid q.tag none)) ∧
        (q.op = .write → exec (.nocWrite q) s = .next ((perform s q).putNet q.m.rid q.tag none))) ∧
      (∀ d p o, targetPort s q = some (d, p, o) → s.netOf q.m.rid q.tag = none →
        (s.nport d p).tgt.any (fun t => t.2.m.rid == q.m.rid && t.2.tag == q.tag) = false →
        (q.op = .read → exec (.nocRead q) s = .next (showTarget s q d p o (freeTarget s d p))) ∧
        (q.op = .write → exec (.nocWrite q) s = .next (showTarget s q d p o (freeTarget s d p))))) ∧
    (∀ r, s.netOf rid tag = some r →
      (r.place ≠ .done → r.quar = false → exec (.completionTimeout rid tag) s =
        .next (((timeoutReq s rid tag r).ans .timeout).coreSees r.req.m (opStores r.req.op) r.req.addr.toNat)) ∧
      (r.place = .done → r.quar = true → exec (.lateCompletion rid tag) s = .next (lateOne s rid tag) ∧
        exec (.quarantineExpiry rid tag) s = .next ((s.free 1).2.putNet rid tag none)) ∧
      (∀ d, r.place ≠ .done → r.quar = true → reqDie s r.req = some d → s.running d = true →
        exec (.lateCompletion rid tag) s = .next { lateOne (perform s r.req) rid tag with reply := s.reply })) ∧
    (∀ (off : Fin 0x40000) (n : Nat) u, ctrlRoute s m s.head = (none, u) → u.boot.inReset = none →
      n ∈ [1, 2, 4, 8, 16, 32, 64] → off.val % n = 0 →
      (u.cfg.flash.ready = false → exec (.xipRead m off n) s = .next (u.ans .targetError)) ∧
      (∀ a ws t, u.cfg.flash.ready = true → a = u.g u.head R.NVC_XIP_BASE.BASE * 2 ^ 18 + off → flashBusy u a n = false →
        flashWords u (a / 8 * 8) ((n + 7) / 8) = (ws, t) →
        (flashWorks t = false → exec (.xipRead m off n) s = .next { t with reply := ⟨.ok, ws⟩ }) ∧
        (flashWorks t = true →
          exec (.xipRead m off n) s = .next { t.p t.head R.NVC_STATUS.STATE NvcState.suspended with reply := ⟨.ok, ws⟩ }))) ∧
    (s.nvcState = NvcState.suspended → exec .nvcResume s = .next (s.p s.head R.NVC_STATUS.STATE NvcState.busy))

/-- Die links (R327 to R331, R333, R334, R340, R343): training and the capability exchange; flits, the records in them and their replay; Fatal edges;
and raw edges. A flit with a wrong CRC, a wrong SEQ or a broken payload is not accepted and is NAKed; one that is as it must be moves SEQ on.
Where the spec leaves a point open, the clauses follow notes/assumptions/43.md. -/
def Obligations.LinksComplete : Prop :=
  ∀ (s : State) (m : Master) (die : Die) (e : Fin 4) (k : Fin 6), s.present die = true →
    (s.edgeState die e = Edge.up →
      (∀ f, exec (.flitReceive die e k f) s = .next (flitArrive s die e k f) ∧
        ∀ x y, x = s.linkRx die e k → y = (flitArrive s die e k f).linkRx die e k → SMap.wf (fun _ => LinkRx.reset) s.bdl.rx = true →
          (flitOk f = false → y = { x with nak := true }) ∧
          (flitOk f = true → leAt f 0 8 % 16 ≠ 0 → fld (leAt f 0 8) 4 10 ≠ x.expect ∨ payloadRest e k x f = none → y = { x with nak := true }) ∧
          (∀ part, flitOk f = true → leAt f 0 8 % 16 ≠ 0 → fld (leAt f 0 8) 4 10 = x.expect → payloadRest e k x f = some part →
            (∀ d, s.on d R.BDL_TEST.ARM = false) → y = ⟨(x.expect + 1) % 1024, false, part⟩)) ∧
      (∀ q l, (s.linkTx die e k).un = (q, 8) :: l → exec (.replayTimeout die e k) s = .next (edgeFatal s die e k)) ∧
      (∀ q n l, (s.linkTx die e k).un = (q, n) :: l → n < 8 → exec (.replayTimeout die e k) s = .next ((s.setLinkTx die e k
        { s.linkTx die e k with un := (s.linkTx die e k).un.map (fun y => (y.1, min 8 (y.2 + 1))) }).inc die (R.BDL_CNT_REPLAY.COUNT e) 1))) ∧
    (s.edgeState die e = Edge.fatal → s.coh.net = [] →
      exec (.fatalKnown die e) s = .next (cutTrunk (updateLost (cutDirectory s)))) ∧
    (∀ n, s.edgeState die e = Edge.training → rootLocked s die = true → s.neighbour die e = some n → s.present n = true → rootLocked s n = true →
      ∀ u, u = s.setBit die (R.BDL_CAPS.MODULES e) k →
      exec (.moduleTrained die e k) s = .next (if u.g die (R.BDL_CAPS.MODULES e) = 63 then u.setEdge die e Edge.caps else u)) ∧
    (s.edgeState die e = Edge.training → s.bit die (R.BDL_CAPS.MODULES e) k = false → companionEdge s die e = false →
      exec (.trainFail die e k) s = .next (edgeDown s die e Reason.trainFail k)) ∧
    (s.edgeState die e = Edge.caps →
      exec (.capsSend die e) s =
        .next (s.ansData .ok ((List.range 8).map (fun k => BitVec.ofNat 64 (leAt (capsBlock s die e) (8 * k) 8)))) ∧
      (s.capsIn die e = .waiting → companionEdge s die e = false →
        exec (.noCaps die e) s = .next (edgeDown s die e Reason.noCaps 0) ∧
        ∀ b, capsValid b = true →
          (∀ r, capsRefuse s die e b = some r → exec (.capsReceive die e b) s = .next (edgeDown s die e r 0)) ∧
          (∀ n u, capsRefuse s die e b = none → u = capsTake (s.setCapsIn die e (.block b)) die e b → u.neighbour die e = some n →
            (u.edgeState n (farEdge e) = Edge.caps → u.capsIn n (farEdge e) ≠ .waiting →
              exec (.capsReceive die e b) s = .next (updateLost (edgeUp (edgeUp u die e) n (farEdge e)))) ∧
            (u.edgeState n (farEdge e) ≠ Edge.caps → exec (.capsReceive die e b) s = .next u)))) ∧
    (∀ f x, rawEdge s die = some x → exec (.cmpstrmTx die f) s = .next (s.ansData .ok (flitWords f))) ∧
    (∀ f l x, rawEdge s die = some x → s.rawRx die = f :: l → exec (.cmpstrmRx die) s = .next ((s.setRawRx die l).ansData .ok (flitWords f))) ∧
    (∀ (md : Fin 8) (n : Fin 16) r l, r = ⟨.BDL_TEST, 0, 0⟩ → Reaches s m die r → m.cls = .coreM → s.on die R.BDL_TEST.ARM = false → n ≠ 0 →
      md < 6 → s.edgeState die e ≠ Edge.absent →
      l = [(R.BDL_TEST.ARM, 1), (R.BDL_TEST.COUNT, n.val), (R.BDL_TEST.EDGE, e.val), (R.BDL_TEST.MODULE, md.val)] →
      exec (.bdlTest m die true e md n) s = .next (((s.setReg die r (written s die r (named s die r l))).ans .ok).setTestLeft die n))

/-- DRAM controllers and encryption engines as software drives them (R348, R350, R362, R364): map sets, the code's test, and key commands, which
end with the code of the first check that fails or act and end with OK.
Where the spec leaves a point open, the clauses follow notes/assumptions/15.md, notes/assumptions/20.md. -/
def Obligations.DramCommandsComplete : Prop :=
  ∀ (s : State) (m : Master) (die : Die) (i : Fin 2),
    (∀ (v : Word) r x, r = ⟨.DDR_ECC_FLIP, i, 0⟩ → x = written s die r v.toNat → Reaches s m die r → s.supervisor m = true →
      (R.DDR_ECC_FLIP.DEV0 0).of x ≤ 9 → (R.DDR_ECC_FLIP.DEV1 0).of x ≤ 9 →
      exec (.ddrEccFlip m die i v) s = .next (warmCheck ((s.setReg die r x).ans .ok) die r.off)) ∧
    (∀ (k : Fin 8) (v : Word) r x u, r = ⟨.DDR_MAP_CTL, k, 0⟩ → x = written s die r v.toNat → u = s.setReg die r x → Reaches s m die r →
      s.on die (R.DDR_MAP_CTL.EN k) = false → (R.DDR_MAP_CTL.EN 0).of x = 1 →
      (grainOk x = true → mapEnableOk s die k x = true →
        exec (.mapSetEnable m die k v) s = .next (warmCheck ((u.p die R.DDR_MAP_SUM.CRC (mapSum u die)).ans .ok) die r.off)) ∧
      (mapEnableOk s die k x = false →
        exec (.mapSetEnable m die k v) s = .next ((s.ans .accessError).coreTrap m .storeFault (die * 0x1000000 + r.off)))) ∧
    (∀ (k : Fin 64) (dev : Bool) r u l key a b fails done ends, r = ⟨.MEE_KEY_CMD, i, 0⟩ → Reaches s m die r → m.cls = .coreM →
      s.on die (R.MEE_KEY_STATUS.BUSY i) = false → (dev = true → die.val = s.head ∧ i = 0) → u = s.p die (R.MEE_KEY_CMD.OWNER i) m.rid →
      l = (if dev then u.channels else [die.val * 2 + i.val]) → key = meeKeyData u die i → a = u.g die (R.MEE_RK_START.LINE i) →
      b = u.g die (R.MEE_RK_END.LINE i) → fails = (fun op => l.find? (fun c => meeCheck u c op k != 0)) →
      done = (fun op => warmCheck ((meeEnd (l.foldl (fun s c => meeApply s c op k 0 key a b) u) die i 0 0).ans .ok) die r.off) →
      ends = (fun op c => warmCheck ((meeEnd u die i (meeCheck u c op k) (if dev then c else 0)).ans .ok) die r.off) →
      (fails 1 = none → exec (.loadCurrent m die i k dev) s = .next (done 1)) ∧
      (∀ c, fails 1 = some c → exec (.loadCurrent m die i k dev) s = .next (ends 1 c)) ∧
      (fails 2 = none → exec (.loadNext m die i k dev) s = .next (done 2)) ∧
      (∀ c, fails 2 = some c → exec (.loadNext m die i k dev) s = .next (ends 2 c)) ∧
      (fails 3 = none → exec (.abandon m die i k dev) s = .next (done 3)) ∧
      (∀ c, fails 3 = some c → exec (.abandon m die i k dev) s = .next (ends 3 c)) ∧
      (fails 4 = none → exec (.rekey m die i k dev) s = .next (done 4)) ∧
      (∀ c, fails 4 = some c → exec (.rekey m die i k dev) s = .next (ends 4 c)) ∧
      (fails 5 = none → exec (.promote m die i k dev) s = .next (done 5)) ∧
      (∀ c, fails 5 = some c → exec (.promote m die i k dev) s = .next (ends 5 c)) ∧
      (fails 6 = none → exec (.meeClear m die i k dev) s = .next (done 6)) ∧
      (∀ c, fails 6 = some c → exec (.meeClear m die i k dev) s = .next (ends 6 c)) ∧
      (∀ (w : Fin 4) t h, fails 7 = none → t = l.foldl (fun s c => meeApply s c 7 k w key a b) u → h = die.val * 2 + i.val →
        exec (.meeInit m die i k w dev) s =
          .next (warmCheck (((t.setMee h { t.mee h with device := dev }).p die (R.MEE_KEY_STATUS.BUSY i) 1).ans .ok) die r.off)))

/-- What key commands check and do (R362): KeyID 0 takes none; each starts from one state of its KeyID and leaves another.
Where the spec leaves a point open, the clauses follow notes/assumptions/20.md. -/
def Obligations.KeyStates : Prop :=
  ∀ (s : State) (ch op k arg a b : Nat) (key : BitVec 256), Canonical s → ch < 16 → k < 64 →
    meeCheck s ch op 0 = 2 ∧
    (meeCheck s ch op k = 0 →
      (op = 1 → kstate s ch k = Ks.empty ∧ kstate (meeApply s ch op k arg key a b) ch k = Ks.active) ∧
      (op = 2 → kstate s ch k = Ks.active ∧ kstate (meeApply s ch op k arg key a b) ch k = Ks.staged) ∧
      (op = 3 → kstate s ch k = Ks.staged ∧ kstate (meeApply s ch op k arg key a b) ch k = Ks.active) ∧
      (op = 4 → kstate s ch k = Ks.staged ∧ kstate (meeApply s ch op k arg key a b) ch k = (if b % 2 ^ 31 ≤ a % 2 ^ 31 then Ks.rekeyed else Ks.rekeying)) ∧
      (op = 5 → kstate s ch k = Ks.rekeyed ∧ kstate (meeApply s ch op k arg key a b) ch k = Ks.active) ∧
      (op = 6 → kstate (meeApply s ch op k arg key a b) ch k = Ks.empty)) ∧
    (op = 2 → kstate s ch k ≠ Ks.active → k ≠ 0 → meeCheck s ch op k = 1) ∧
    (∀ k', k' < 64 → k' ≠ k → op ≤ 6 → kstate (meeApply s ch op k arg key a b) ch k' = kstate s ch k')

/-- DRAM at work (R347, R351 to R356, R358, R362, R364): requests are judged and queued, one is served at a time, training, refresh and the
engines' long operations end.
Where the spec leaves a point open, the clauses follow notes/assumptions/20.md, notes/assumptions/44.md. -/
def Obligations.DramEventsComplete : Prop :=
  ∀ (s : State) (die : Die) (c sub : Fin 2) (k ch : Nat) (x : DSub), ch = die.val * 2 + c → k = ch * 2 + sub → x = s.dsub k →
    (∀ q a j u sees, s.debugShut q.m = false → coreStops s q = none → q.addr.toNat % 64 + q.size ≤ 64 →
      decodeAddr s q.m (s.dieOfRid q.m.rid) q.addr.toNat = .dram ch a j → sees = (fun s => State.coreSees s q.m (opStores q.op) q.addr.toNat) →
      (q.op = .read → (s.dsub (subKey ch a)).reads.length < 64 →
        (meeJudge s q.m ch a j = (none, u) → exec (.ddrRequest q) s = .next (queueRead u ch (a / 64) q)) ∧
        (∀ r, meeJudge s q.m ch a j = (some r, u) → exec (.ddrRequest q) s = .next (sees (u.ans r)))) ∧
      (∀ x y, q.op = .write → (s.dsub (subKey ch a)).writes.length < 64 →
        x = List.replicate (a / 8 % 8) (⟨0, false⟩, 0#8) ++ reqWwords q → y = x ++ List.replicate (8 - x.length) (⟨0, false⟩, 0#8) →
        (meeJudge s q.m ch a j = (none, u) → j = 0 ∨ (dramSees u ch (metaWord u ch a)).word.v.toNat ≠ 2 ^ 64 - 1 →
          exec (.ddrRequest q) s = .next
            ((queueWrite u ch (a / 64) { q with data := y.map (fun e => e.1), be := y.map (fun e => e.2) }).ans .ok)) ∧
        (∀ r, meeJudge s q.m ch a j = (some r, u) → exec (.ddrRequest q) s = .next (sees (u.ans r))))) ∧
    (chServes s ch = true → chClocked s ch = true →
      (∀ r, x.drain = false → readChoice s ch x = some r → x.writes.any (fun y => y.seq == r.seq) = false →
        exec (.ddrServe die c sub) s = .next (serveRead s ch k r)) ∧
      (∀ r, x.drain = true → writeChoice s ch x = some r → x.writes.any (fun y => y.seq == r.seq) = true →
        exec (.ddrServe die c sub) s = .next (serveWrite s ch k r))) ∧
    (x.writes ≠ [] → 48 ≤ x.writes.length ∨ x.reads = [] → exec (.writeDrainStart die c sub) s = .next (s.setDsub k { x with drain := true })) ∧
    (∀ r, x.reads = [r] → x.writes = [] → r.prom = false → s.g die (R.DDR_AGE.AGE c) / 256 ^ r.cls % 256 ≠ 0 →
      exec (.agePromote die c sub r.seq) s = .next (ddrCnt (s.setDsub k { x with reads := [{ r with prom := true }] }) ch 3)) ∧
    (s.g die (R.DDR_STATUS.STATE c) = DdrState.training →
      (∀ t : Byte, exec (.trainingDone die c t) s =
        .next ((s.p die (R.DDR_STATUS.STATE c) DdrState.ready).p die (R.DDR_STATUS.TRAIN_TEMP c) t.toNat)) ∧
      exec (.trainingFail die c) s = .next ((s.p die (R.DDR_STATUS.STATE c) DdrState.failed).p die (R.DDR_EVT.TRAIN_FAIL c) 1)) ∧
    (s.g die (R.DDR_STATUS.STATE c) = DdrState.ready →
      (∀ u, u = s.setDsub (ch * 2) { s.dsub (ch * 2) with rows := [] } →
        exec (.refresh die c) s = .next (u.setDsub (ch * 2 + 1) { u.dsub (ch * 2 + 1) with rows := [] })) ∧
      (∀ t : Byte, 20 < (t.toInt - (BitVec.ofNat 8 (s.g die (R.DDR_STATUS.TRAIN_TEMP c))).toInt).natAbs → exec (.tempRetrain die c t) s =
        .next ((ddrCnt (s.p die (R.DDR_STATUS.TRAIN_TEMP c) t.toNat) ch 5).p die (R.DDR_EVT.RETRAIN c) 1))) ∧
    (∀ w j u v, (s.mee ch).init = some (w, j) → u = initWindow s ch w j → v = u.setMee ch { u.mee ch with init := none } →
      (v.mee (v.head * 2)).device = false → v.on die (R.MEE_KEY_STATUS.BUSY c) = true →
      exec (.meeInitDone die c) s = .next (meeEnd v die c 0 0)) ∧
    (∀ j l u, j = s.g die (R.MEE_RK_CFG.KEYID c) → l = s.g die (R.MEE_RK_BOUND.LINE c) → kstate s ch j = Ks.rekeying →
      l < s.g die (R.MEE_RK_END.LINE c) → chServes s ch = true → chClocked s ch = true → s.held die (Blk.ddr0 + c) = false →
      s.held die (Blk.mee0 + c) = false → u = serveWrites s ch (l * 64) →
      (protWindow u ch (l * 64) = none → exec (.rekeyLine die c) s =
        .next (rekeyEnd (meeCnt (u.p die (R.MEE_RK_BOUND.LINE c) (l + 1)) ch 4) ch j)) ∧
      (∀ ws p q v, (protWindow u ch (l * 64)).isSome = true →
        encRead (ddrCnt u ch 0) (u.parserMaster die) ch (l * 64) j = (ws, p, q, v) → ∀ t, t = encStore (ddrCnt v ch 1) ch (l * 64) j 0 (nextKey v ch j) ws →
        exec (.rekeyLine die c) s = .next (rekeyEnd (meeCnt (t.p die (R.MEE_RK_BOUND.LINE c) (l + 1)) ch 4) ch j)))

/-- Serial lanes as software drives them (R369, R377, R380 to R384, R386): PLL settings, a lane switched on, off and restarted, re-adaptation,
eye scans, bypass pairs and test patterns.
Where the spec leaves a point open, the clauses follow notes/assumptions/33.md, notes/assumptions/36.md, notes/assumptions/45.md. -/
def Obligations.LaneCommandsComplete : Prop :=
  ∀ (s t : State) (m : Master) (die : Die) (n : Fin 32) (x : Nat),
    (∀ (q : Fin 8) (pll : Fin 2) (v : DWord) r, r = (if pll = 0 then ⟨.LAN_QPLLA, q, 0⟩ else ⟨.LAN_QPLLB, q, 0⟩ : RegRef) → Reaches s m die r →
      x = r.id.info.merge (s.reg die r) v.toNat (2 ^ 64 - 1) → t = s.setReg die r x →
      qpllOk (s.qclk die q) ((R.LAN_QPLLA.INT 0).of x) ((R.LAN_QPLLA.FRAC 0).of x) = true → (∀ i : Fin 4, laneUsesPll s die (4 * q + i) pll = false) →
      exec (.qpllWrite m die q pll v) s = .next ((if x = s.reg die r then t else t.p die (qpllLock pll q) 0).ans .ok)) ∧
    (Reaches s m die ⟨.LAN_CTRL, n, 0⟩ → t = s.setReg die ⟨.LAN_CTRL, n, 0⟩ x → lanesOurs t die = true → laneInBypass t die n = false →
      (t.pair die (n / 2)).idle = none →
      (∀ v : Word, x = written s die ⟨.LAN_CTRL, n, 0⟩ v.toNat → (R.LAN_CTRL.SLEEP 0).of x ≠ 3 →
        ((R.LAN_CTRL.ENABLE 0).of x = 1 → s.on die (R.LAN_CTRL.ENABLE n) = false →
          exec (.laneEnable m die n v) s = .next ((laneRestart t die n).ans .ok)) ∧
        ((R.LAN_CTRL.ENABLE 0).of x = 0 → s.on die (R.LAN_CTRL.ENABLE n) = true →
          exec (.laneEnable m die n v) s = .next ((laneGo t die n Ln.off .stay).ans .ok))) ∧
      (x = written s die ⟨.LAN_CTRL, n, 0⟩ (named s die ⟨.LAN_CTRL, n, 0⟩ [(R.LAN_CTRL.RESTART n, 1)]) → s.g die (R.LAN_CTRL.SLEEP n) ≠ 3 →
        s.on die (R.LAN_CTRL.ENABLE n) = true → laneState t die n ≠ Ln.idle ∨ (t.lane die n).idle ≠ .start →
        exec (.laneRestart m die n) s = .next ((laneRestart t die n).ans .ok))) ∧
    (Reaches s m die ⟨.LAN_ADAPT_CFG, n, 0⟩ → t = s.setReg die ⟨.LAN_ADAPT_CFG, n, 0⟩ x →
      x = written s die ⟨.LAN_ADAPT_CFG, n, 0⟩ (named s die ⟨.LAN_ADAPT_CFG, n, 0⟩ [(R.LAN_ADAPT_CFG.READAPT n, 1)]) →
      laneLive t die n = true → (t.lane die n).readapt = false → t.on die (R.LAN_EYE_RESULT.BUSY n) = false →
      exec (.readapt m die n) s = .next ((t.setLane die n { t.lane die n with readapt := true, low := 0 }).ans .ok)) ∧
    (∀ v : Word, Reaches s m die ⟨.LAN_EYE_CTRL, n, 0⟩ → x = written s die ⟨.LAN_EYE_CTRL, n, 0⟩ v.toNat → t = s.setReg die ⟨.LAN_EYE_CTRL, n, 0⟩ x →
      20 ≤ (R.LAN_EYE_CTRL.DWELL_LOG2 0).of x → (R.LAN_EYE_CTRL.DWELL_LOG2 0).of x ≤ 40 → (R.LAN_EYE_CTRL.START 0).of v.toNat = 1 →
      s.on die (R.LAN_EYE_RESULT.BUSY n) = false → laneLive s die n = true → exec (.eyeScanStart m die n v) s =
        .next (((t.p die (R.LAN_EYE_RESULT.BUSY n) 1).p die (R.LAN_EYE_RESULT.STATUS n) (if (t.lane die n).readapt then 1 else 0)).ans .ok)) ∧
    (∀ (k : Fin 16) (v : Word), Reaches s m die ⟨.LAN_PAIR, k, 0⟩ → x = written s die ⟨.LAN_PAIR, k, 0⟩ v.toNat →
      t = (s.p die (R.LAN_PAIR.SLEEP_BYPASS k) ((R.LAN_PAIR.SLEEP_BYPASS 0).of x)).p die (R.LAN_PAIR.BYPASS k) ((R.LAN_PAIR.BYPASS 0).of x) →
      (∀ y, (t.pair die k).idle = some y →
        exec (.pairBypassWrite m die k v) s = .next ((t.setPair die k { t.pair die k with latched := some ((R.LAN_PAIR.BYPASS 0).of x == 1) }).ans .ok)) ∧
      ((t.pair die k).idle = none → ((R.LAN_PAIR.BYPASS 0).of x == 1) ≠ t.on die (R.LAN_PAIR.ACTIVE k) →
        exec (.pairBypassWrite m die k v) s = .next ((pairIdle t die k ((R.LAN_PAIR.BYPASS 0).of x == 1)).ans .ok))) ∧
    (∀ (v : Word) u, Reaches s m die ⟨.LAN_PRBS, n, 0⟩ → x = written s die ⟨.LAN_PRBS, n, 0⟩ v.toNat → t = s.setReg die ⟨.LAN_PRBS, n, 0⟩ x →
      (R.LAN_PRBS.PATTERN 0).of x < 5 → laneState s die n ≠ Ln.bypass →
      u = (if (R.LAN_PRBS.CHK 0).of x = 0 then t.p die (R.LAN_PRBS.CHK_LOCK n) 0 else t) →
      exec (.prbsWrite m die n v) s =
        .next ((if (R.LAN_PRBS.GEN 0).of x = 1 ∧ laneState u die n = Ln.up then laneRestart u die n else portRefresh u die n).ans .ok))

/-- What happens at the serial lanes (R369, R373, R375 to R384): PLLs lock and unlock, bring-up goes from idle through negotiation, training and
alignment to UP, links are lost, and scans, re-adaptations and idle periods end.
Where the spec leaves a point open, the clauses follow notes/assumptions/34.md, notes/assumptions/36.md. -/
def Obligations.LaneEventsComplete : Prop :=
  ∀ (s : State) (die : Die) (n : Fin 32), s.present die = true →
    (∀ (q : Fin 8) (pll : Fin 2) (t : State),
      (∀ hz, s.on die (qpll pll q).1 = true → 100000000 ≤ hz → hz ≤ 400000000 →
        qpllOk hz (s.g die (qpll pll q).2.1) (s.g die (qpll pll q).2.2) = true →
        exec (.qpllLock die q pll hz) s = .next (((s.setQclk die q hz).p die (R.LAN_QSTATUS.REF_ACTIVE q) 1).p die (qpllLock pll q) 1)) ∧
      (∀ edges : Bool, s.on die (qpllLock pll q) = true → Canonical s →
        t = ((s.p die (qpllLock pll q) 0).p die (R.LAN_QSTATUS.UNLOCK q) 1).p die (R.LAN_QSTATUS.REF_ACTIVE q) (if edges then 1 else 0) →
        ((∀ i : Fin 4, laneUsesPll t die (4 * q + i) pll = false) → exec (.qpllUnlock die q pll edges) s = .next t) ∧
        (n.val / 4 = q → (∀ i : Fin 4, laneUsesPll t die (4 * q + i) pll = decide (n.val = 4 * q + i)) → laneState t die n ≠ Ln.off →
          laneState t die n ≠ Ln.bypass → (t.pair die (n / 2)).idle = none → exec (.qpllUnlock die q pll edges) s = .next (laneRestart t die n)))) ∧
    (s.held die Blk.lan = false → laneState s die n = Ln.idle → (s.lane die n).idle ≠ .stay →
      (s.on die (R.LAN_CTRL.ENABLE n) = false → exec (.laneIdleEnd die n) s = .next (laneGo s die n Ln.off .stay)) ∧
      (s.on die (R.LAN_CTRL.ENABLE n) = true → s.on die (R.LAN_CTRL.AN_EN (firstLane s die n)) = false → exec (.laneIdleEnd die n) s = .next (laneTrain s die n (laneMode s die n))) ∧
      (∀ p, s.on die (R.LAN_CTRL.ENABLE n) = true → p = firstLane s die n → s.on die (R.LAN_CTRL.AN_EN p) = true →
        (p = n → exec (.laneIdleEnd die n) s = .next ((laneGo s die n Ln.an .stay).p die (R.LAN_AN_STATUS.ASTATE n) 1)) ∧
        (p ≠ n → s.g die (R.LAN_AN_STATUS.ASTATE p) = 2 → exec (.laneIdleEnd die n) s = .next (laneTrain s die n (s.lane die n).mode)) ∧
        (p ≠ n → s.g die (R.LAN_AN_STATUS.ASTATE p) ≠ 2 → exec (.laneIdleEnd die n) s = .next (laneGo s die n Ln.idle .stay)))) ∧
    (∀ (w : Word) pg t, pg = w.toNat &&& partnerMask → anRuns s die n = true → t = s.p die ⟨0x500028 + 4096 * n, 0, 32⟩ pg →
      (anResolve s die n pg = none →
        exec (.anFail die n w) s = .next ((t.p die (R.LAN_AN_STATUS.ASTATE n) 3).p die (R.LAN_EVT.AN_FAIL n) 1)) ∧
      (∀ code hz pam4 fec pcs u, anResolve s die n pg = some (code, hz, pam4, fec, pcs) →
        u = ((t.p die (R.LAN_AN_STATUS.RESULT n) code).p die (R.LAN_AN_STATUS.ASTATE n) 2).p die (R.LAN_AN_STATUS.FEC n)
          (if pcs = 1 ∧ fec = 2 then 1 else 0) →
        ∀ v, v = u.p die (R.LAN_AN_STATUS.EEE n) (if u.on die (R.LAN_AN_ADV.EEE n) ∧ pg.testBit 29 then 1 else 0) → portLanes v die n = [n.val] →
        exec (.anResolved die n w) s = .next (laneTrain v die n ((modeFor v die n hz pam4 fec pcs).getD 0)))) ∧
    (laneState s die n = Ln.an → s.g die (R.LAN_AN_STATUS.ASTATE n) = 3 →
      exec (.anRestart die n) s = .next (s.p die (R.LAN_AN_STATUS.ASTATE n) 1)) ∧
    (laneState s die n = Ln.training →
      (∀ taps : Word, exec (.trainingReady die n taps) s =
        .next (laneGo (s.p die ⟨0x500030 + 4096 * n, 0, 32⟩ taps.toNat) die n Ln.align .stay)) ∧
      exec (.trainingTimeout die n) s = .next ((laneGo s die n Ln.idle .retry).p die (R.LAN_EVT.TRAIN_FAIL n) 1)) ∧
    (laneState s die n = Ln.align →
      exec (.blockLock die n true) s = .next (((s.p die (R.LAN_STATUS.BLOCK_LOCK n) 1).p die (R.LAN_STATUS.CDR_LOCK n) 1).p die
        (R.LAN_STATUS.SIGNAL n) 1) ∧
      exec (.blockLock die n false) s = .next ((s.p die (R.LAN_STATUS.BLOCK_LOCK n) 0).p die (R.LAN_STATUS.FEC_ALIGN n) 0) ∧
      (firstLane s die n = n → portLanes s die n = [n.val] → s.on die (R.LAN_STATUS.BLOCK_LOCK n) = true → s.on die (R.LAN_STATUS.CDR_LOCK n) = true →
        Canonical s → ∀ md t, md = (s.lane die n).mode →
        t = (s.p die (R.LAN_STATUS.DESKEW n) 1).p die (R.LAN_STATUS.FEC_ALIGN n) (if modeFec md = 0 then 0 else 1) →
        ∀ c u, phyCode t die n 1 md = (c, u) →
        exec (.alignComplete die n) s = .next ((laneGo (u.p die (R.LAN_STATUS.PHY n) c) die n Ln.up .stay).p die (R.LAN_EVT.LINK_UP n) 1))) ∧
    (laneState s die n = Ln.up →
      exec (.linkLoss die n true) s = .next (laneRestart s die n) ∧
      exec (.linkLoss die n false) s = .next (laneRestart (s.p die (R.LAN_STATUS.SIGNAL n) 0) die n) ∧
      exec (.hiBerSet die n) s = .next (portRefresh (s.p die (R.LAN_STATUS.HI_BER n) 1) die n) ∧
      exec (.ebOverflow die n true) s =
        .next ((s.setLane die n { s.lane die n with txFill := 32, txBroken := true }).p die (R.LAN_EVT.EB_ERR n) 1) ∧
      exec (.ebOverflow die n false) s =
        .next ((s.setLane die n { s.lane die n with rxFill := 32, broken := true }).p die (R.LAN_EVT.EB_ERR n) 1)) ∧
    (s.on die (R.LAN_STATUS.HI_BER n) = true → exec (.hiBerClear die n) s = .next (portRefresh (s.p die (R.LAN_STATUS.HI_BER n) 0) die n)) ∧
    (∀ l e, laneLive s die n = true → (s.lane die n).readapt = false → l ≠ [] → e = worstEye l →
      s.g die (R.LAN_ADAPT_CFG.HTH n) ≤ eyeH e → s.g die (R.LAN_ADAPT_CFG.VTH n) ≤ eyeV e →
      exec (.backgroundScan die n l) s =
        .next ((s.p die ⟨0x500054 + 4096 * n, 0, 32⟩ e.toNat).setLane die n { s.lane die n with low := 0, judge := false })) ∧
    ((s.lane die n).readapt = true → s.on die (R.LAN_EYE_RESULT.BUSY n) = false → Canonical s →
      exec (.readaptComplete die n) s =
        .next ((s.setLane die n { s.lane die n with readapt := false, judge := true }).inc die (R.LAN_CNT.COUNT n 7) 1)) ∧
    (∀ k l t, s.on die (R.LAN_EYE_RESULT.BUSY n) = true → s.g die (R.LAN_EYE_RESULT.STATUS n) = 0 →
      t = (if s.on die (R.LAN_EYE_CTRL.MODE n) then s.p die ⟨0x500050 + 4096 * n, 0, 32⟩ (worstEye l).toNat
        else s.p die (R.LAN_EYE_RESULT.ERRORS n) (min k (2 ^ 32 - 1))) →
      exec (.eyeScanDone die n k l) s =
        .next (((t.p die (R.LAN_EYE_RESULT.BUSY n) 0).p die (R.LAN_EYE_RESULT.DONE n) 1).p die (R.LAN_EVT.EYE_DONE n) 1)) ∧
    (∀ (k : Fin 16) t, t = s.setPair die k .reset → (s.pair die k).latched = none →
      ((s.pair die k).idle = some true → pairClocked s die k = false → exec (.pairIdleEnd die k) s = .next s) ∧
      ((s.pair die k).idle = some true → pairClocked s die k = true → exec (.pairIdleEnd die k) s =
        .next ((laneGo (laneGo t die (2 * k) Ln.bypass .stay) die (2 * k + 1) Ln.bypass .stay).p die (R.LAN_PAIR.ACTIVE k) 1)) ∧
      ((s.pair die k).idle = some false → exec (.pairIdleEnd die k) s = .next (laneBegin (laneBegin t die (2 * k)) die (2 * k + 1))))

/-- The port engine as software drives it (R389, R397, R403, R407, R415 to R417): L2 commands, the VLAN and next-hop tables, port set-up, ring
tails, timestamps and device time.
Where the spec leaves a point open, the clauses follow notes/assumptions/35.md, notes/assumptions/45.md. -/
def Obligations.PenCommandsComplete : Prop :=
  ∀ (s t : State) (m : Master) (die : Die) (x : Nat),
    (Reaches s m die ⟨.PEN_L2_CMD, 0, 0⟩ → s.on die R.PEN_L2_STATUS.BUSY = false → t = s.setReg die ⟨.PEN_L2_CMD, 0, 0⟩ x →
      (x = written s die ⟨.PEN_L2_CMD, 0, 0⟩ (named s die ⟨.PEN_L2_CMD, 0, 0⟩ [(R.PEN_L2_CMD.OP, 1)]) →
        ∀ mac vid, mac = wordsMac (l2Data t die) → vid = wordsVid (l2Data t die) →
        (∀ i e, l2Find t die mac vid = some (i, e) →
          exec (.l2Read m die) s = .next (((setL2Data t die (entWords e)).p die R.PEN_L2_STATUS.RESULT 0).ans .ok)) ∧
        (l2Find t die mac vid = none → exec (.l2Read m die) s = .next ((t.p die R.PEN_L2_STATUS.RESULT 1).ans .ok))) ∧
      (∀ index : BitVec 20, index.toNat < 2 ^ 19 →
        x = written s die ⟨.PEN_L2_CMD, 0, 0⟩ (named s die ⟨.PEN_L2_CMD, 0, 0⟩ [(R.PEN_L2_CMD.OP, 2), (R.PEN_L2_CMD.INDEX, index.toNat)]) →
        exec (.l2ReadIndex m die index) s = .next (((setL2Data t die (((t.l2 die index.toNat).map entWords).getD [])).p die
          R.PEN_L2_STATUS.RESULT 0).ans .ok)) ∧
      (∀ f u, die.val = s.head → f = (fun op => written s die ⟨.PEN_L2_CMD, 0, 0⟩ (named s die ⟨.PEN_L2_CMD, 0, 0⟩ [(R.PEN_L2_CMD.OP, op)])) →
        u = (fun op => ((t.p die R.PEN_L2_STATUS.BUSY 1).setPen { t.pen with cmd := some (op, l2Data t die) }).ans .ok) →
        (x = f 3 → exec (.l2Write m die) s = .next (u 3)) ∧
        (x = f 4 → exec (.l2Delete m die) s = .next (u 4)) ∧
        (x = f 5 → exec (.flushPort m die) s = .next (u 5)) ∧
        (x = f 6 → exec (.flushVlan m die) s = .next (u 6)) ∧
        (x = f 7 → exec (.flushDynamic m die) s = .next (u 7)))) ∧
    (∀ index : BitVec 20,
      (Reaches s m die ⟨.PEN_VLAN_CMD, 0, 0⟩ → index.toNat < 4096 →
        exec (.vlanRead m die index) s =
          .next (((List.range 4).foldl (fun u k => u.p die (R.PEN_VLAN_DATA.WORD k) (s.vlanWord die index.toNat k).toNat) s).ans .ok) ∧
        (∀ u, u = (List.range 4).foldl (fun s k => s.setVlanWord die index.toNat k (BitVec.ofNat 32 (s.g die (R.PEN_VLAN_DATA.WORD k) &&&
          (if k = 2 then 0xFFFFFF03 else if k = 3 then 0 else 0xFFFFFFFF)))) s → exec (.vlanWrite m die index) s = .next (u.ans .ok) ∧
          (SMap.wf (fun _ => 0) s.pen.vlan = true → u = { s with pen := u.pen } ∧
            (∀ k, k < 2 → u.vlanWord die index.toNat k = BitVec.ofNat 32 (s.g die (R.PEN_VLAN_DATA.WORD k))) ∧
            u.vlanWord die index.toNat 2 = BitVec.ofNat 32 (s.g die (R.PEN_VLAN_DATA.WORD 2) &&& 0xFFFFFF03) ∧
            (∀ k, k < 4 → ∀ v, v ≠ index.toNat → u.vlanWord die v k = s.vlanWord die v k)))) ∧
      (Reaches s m die ⟨.PEN_NH_CMD, 0, 0⟩ →
        exec (.nhRead m die index) s = .next ((s.p die R.PEN_NH_DATA.WORD (s.nhop die index.toNat).toNat).ans .ok) ∧
        exec (.nhWrite m die index) s =
          .next ((s.setNhop die index.toNat (BitVec.ofNat 32 (s.g die R.PEN_NH_DATA.WORD &&& 0x800003FF))).ans .ok))) ∧
    (∀ (r : Fin 16) (index : Word), Reaches s m die ⟨.PEN_RING_TAIL, r, 0⟩ → x = written s die ⟨.PEN_RING_TAIL, r, 0⟩ index.toNat →
      exec (.ringTailWrite m die r index) s = .next ((s.setReg die ⟨.PEN_RING_TAIL, r, 0⟩ x).ans .ok)) ∧
    (Reaches s m die ⟨.PEN_TS_POP, 0, 0⟩ →
      (∀ y l u, (s.penDie die).ts = y :: l → (s.penDie die).lost = false →
        u = (s.setPenDie die { s.penDie die with ts := l, lost := false }).p die R.PEN_TS_SEC.SEC y.sec →
        exec (.tsPop m die 8) s = .next (u.ansData .ok
          [BitVec.ofNat 64 (2 ^ 63 + y.port % 1024 * 2 ^ 48 + y.tag % 4096 * 2 ^ 32 + y.ns)])) ∧
      ((s.penDie die).ts = [] → exec (.tsPop m die 8) s =
        .next ((s.setPenDie die { s.penDie die with ts := [], lost := false }).ansData .ok [if (s.penDie die).lost then 2 ^ 62 else 0]))) ∧
    (∀ (v : DWord) (w : Word), die.val = s.head →
      (Reaches s m die ⟨.PEN_TIME, 0, 0⟩ → v.toNat % 2 ^ 32 < 1000000000 →
        exec (.timeWrite m die v) s = .next ((s.setPen { s.pen with time := { s.pen.time with time := some v } }).ans .ok)) ∧
      (Reaches s m die ⟨.PEN_TIME_ADJ, 0, 0⟩ → -500000 ≤ w.toInt → w.toInt ≤ 500000 →
        exec (.timeAdjWrite m die w) s = .next ((s.setPen { s.pen with time := { s.pen.time with adj := some w } }).ans .ok)) ∧
      (Reaches s m die ⟨.PEN_TIME_STEP, 0, 0⟩ → exec (.timeStep m die w) s =
        .next ((s.setPen { s.pen with time := { s.pen.time with step := some (s.pen.time.step.getD 0 + w.toInt) } }).ans .ok))) ∧
    (∀ (p : Fin 32) (v : Word), Reaches s m die ⟨.PEN_PORT_CFG, p, 0⟩ → x = written s die ⟨.PEN_PORT_CFG, p, 0⟩ v.toNat →
      t = s.setReg die ⟨.PEN_PORT_CFG, p, 0⟩ x → portCfgOk s die p x = true →
      (portOn t die p = true → exec (.portCfgWrite m die p v) s = .next ((portRefresh t die p).ans .ok)) ∧
      (portOn t die p = false → exec (.portCfgWrite m die p v) s =
        .next ((((dropFrames t die 14 (fun e _ => e == p.val)).setHello die p .reset).p die (R.PEN_PORT_STATUS.LINK p) 0).ans .ok)))

/-- The L2 table (R400 to R402, R404): commands and learn events reach the arbiter in order, its changes reach the replicas, locks and windows of
moves end, entries age out, and a die takes the head die's replica when it comes back.
Where the spec leaves a point open, the clauses follow notes/assumptions/35.md, notes/assumptions/45.md. -/
def Obligations.L2TableComplete : Prop :=
  ∀ (s : State) (die : Die),
    (∀ op w r u, s.pen.cmd = some (op, w) → penRuns s s.head = true → l2Command (s.setPen { s.pen with cmd := none }) op w = (r, u) →
      exec (.arbiterApply die true) s = .next ((u.p s.head R.PEN_L2_STATUS.RESULT r).p s.head R.PEN_L2_STATUS.BUSY 0)) ∧
    (∀ v l t, (s.penDie die).learn = v :: l → penRuns s die = true → t = s.setPenDie die { s.penDie die with learn := l } →
      (s.on die R.PEN_STATUS.ARB_UNREACH = false → penRuns s s.head = true → exec (.arbiterApply die false) s = .next (l2Apply t arbTable v)) ∧
      (s.on die R.PEN_STATUS.ARB_UNREACH = true → exec (.arbiterApply die false) s = .next (l2Apply t die v))) ∧
    (∀ u l, (s.penDie die).upd = u :: l →
      exec (.replicaUpdate die) s = .next (replicaTake (s.setPenDie die { s.penDie die with upd := l, next := u.seq + 1 }) die u.idx u.ent)) ∧
    (∀ (t : Fin 9) (i : Fin 524288) e, s.l2 t i = some e →
      (e.locked = true → exec (.lockExpiry t i) s =
        .next (l2Change (s.setWindow t i false) t i (some { e with locked := false, moves := 0, left := 0 }))) ∧
      (s.window t i = true → e.locked = false →
        exec (.moveWindowEnd t i) s = .next (l2Change (s.setWindow t i false) t i (some { e with moves := 0 })))) ∧
    (s.on s.head R.PEN_AGE_CFG.EN = true → penRuns s s.head = true → SMap.wf (fun _ => none) s.pen.l2 = true →
      ∃ t, exec .ageTick s = .next t ∧ ∀ i e, i < 2 ^ 19 → s.l2 arbTable i = some e →
        (e.static = true → t.l2 arbTable i = some { e with hit := false }) ∧
        (e.static = false → t.l2 arbTable i = if 3 ≤ e.age then none else some { e with hit := false, age := e.age + 1 })) ∧
    (∀ t u, s.present die = true → die.val ≠ s.head → s.on die R.PEN_STATUS.RESYNC = true → s.on die R.PEN_STATUS.ARB_UNREACH = false →
      t = copyReplica s die →
      u = t.setPenDie die { t.penDie die with upd := (s.penDie s.head).upd, next := (s.penDie s.head).next } →
      exec (.resyncDone die) s = .next ((u.p die R.PEN_STATUS.RESYNC 0).p die R.PEN_STATUS.REPLICA_STALE 0))

/-- Frames in a port engine (R389 to R395, R406, R408, R411 to R413, R415): received, paused, greeted, sent, carried over the trunk, and moved
between rings and the network.
Where the spec leaves a point open, the clauses follow notes/assumptions/35.md, notes/assumptions/37.md, notes/assumptions/38.md, notes/assumptions/45.md. -/
def Obligations.PenTrafficComplete : Prop :=
  ∀ (s t : State) (die : Die) (p : Fin 32),
    (∀ (frame b : List Byte) cs bad v w, b = frame.take (frame.length - 4) → takeCoding s die p cs = (bad, v) → w = deliverHeld v die p →
      (v.belowRun die = true →
        (kindTaken s die p .eth = true → exec (.frameReceive die p frame cs) s = .next (holdFrame v die p .eth frame bad)) ∧
        (kindTaken s die p .pause = true → frameType frame = 0x8808 →
          exec (.pauseReceive die p frame cs) s = .next (holdFrame v die p .pause frame bad)) ∧
        (kindTaken s die p .data = true → fld (beAt frame 0 1) 0 4 ≠ 1 →
          exec (.tnbDataReceive die p frame cs) s = .next (holdFrame v die p .data frame bad)) ∧
        (kindTaken s die p .hello = true → exec (.helloReceive die p frame cs) s = .next (holdFrame v die p .hello frame bad))) ∧
      (∀ q, q = rxStamp w die p → v.belowRun die = false →
        (portTakes s die p false = true → macTake w die p false frame bad = (true, t) →
          (frameType b = 0x8808 → exec (.frameReceive die p frame cs) s = .next (takePause t die p b)) ∧
          (frameType b ≠ 0x8808 → exec (.frameReceive die p frame cs) s = .next (ethReceived t die p b q))) ∧
        (portTakes s die p false = true → macTake w die p false frame bad = (false, t) → exec (.frameReceive die p frame cs) s =
          .next (receiveBad t die p (laneFrame die p (laneClass t die p b).1 (laneClass t die p b).2 false b q))) ∧
        (s.present die = true → s.held die Blk.pen = false → portUp s die p = true → frameType frame = 0x8808 →
          macTake w die p (portTnb w die p) frame bad = (true, t) → exec (.pauseReceive die p frame cs) s = .next (takePause t die p frame)) ∧
        (portTakes s die p true = true → fld (beAt frame 0 1) 0 4 ≠ 1 → macTake w die p true frame bad = (true, t) →
          (∀ r, tnbCheck b = some r → exec (.tnbDataReceive die p frame cs) s = .next (tnbDrop t die r)) ∧
          (tnbCheck b = none → fld (beAt b 0 1) 0 4 = 0 → t.g die (R.PEN_PORT_CFG.STATE p) = 2 → exec (.tnbDataReceive die p frame cs) s =
            .next (tnbForward t die (laneFrame die p (tnbQueue b) 0 true b q)))) ∧
        (helloPort s die p = true → macTake w die p true frame bad = (true, t) → helloValid b = true →
          (beAt b 28 4 % 2 ^ 20 = t.g die R.PEN_TNB_CFG.MYID → exec (.helloReceive die p frame cs) s =
            .next ((t.p die (R.PEN_PORT_STATUS.LOOP p) 1).p die R.PEN_EVT.TNB_DOWN 1)) ∧
          (beAt b 28 4 % 2 ^ 20 ≠ t.g die R.PEN_TNB_CFG.MYID → 1 ≤ beAt b 20 1 → beAt b 22 1 ≤ 1 →
            ∀ u, u = ((t.setHello die p ⟨true, 0⟩).p die (R.PEN_PORT_STATUS.LOOP p) 0).p die (R.PEN_PORT_STATUS.VER p) 0x10 →
            exec (.helloReceive die p frame cs) s =
              .next (if (beAt b 23 1).testBit 0 then u.p die (R.PEN_PORT_STATUS.LINK p) 2 else u))))) ∧
    (∀ q : Fin 8, exec (.pauseExpiry die p q) s = .next (s.setPaused die p q false)) ∧
    (helloPort s die p = true →
      (∀ (x : BitVec 32) cut u, s.free 32 = (x, t) → txCoding t die p = (cut, u) →
        exec (.helloSend die p) s = .next (replyBytes u (wireBytes (helloFrame u die p x) cut))) ∧
      (s.g die (R.PEN_PORT_STATUS.LINK p) = 1 →
        exec (.helloTimeout die p) s = .next ((s.p die (R.PEN_PORT_STATUS.HELLO_FAIL p) 1).p die R.PEN_EVT.TNB_DOWN 1)) ∧
      (s.g die (R.PEN_PORT_STATUS.LINK p) = 2 →
        (2 ≤ (s.hello die p).missed → exec (.keepaliveMiss die p) s =
          .next (((s.setHello die p .reset).p die (R.PEN_PORT_STATUS.LINK p) 1).p die R.PEN_EVT.TNB_DOWN 1)) ∧
        ((s.hello die p).missed < 2 → exec (.keepaliveMiss die p) s =
          .next (s.setHello die p { s.hello die p with missed := (s.hello die p).missed + 1 })))) ∧
    (∀ k : Fin 8, s.bit die R.PEN_BUF_STATUS.DRAINING k = true →
      (cellsIn s die (some k.val) = 0 → exec (.bankDrained die k) s = .next (drained s die k)) ∧
      exec (.bankDrainTimeout die k) s = .next (drained (dropFrames s die 11 (fun _ f => f.bank == some k.val)) die k)) ∧
    (s.present die = true → s.held die Blk.pen = false → portUp s die p = true → laneLpiAgreed s die p = true →
      s.g die (R.LAN_CTRL.SLEEP p) = 1 → (∀ q, q < 8 → s.queue die p q = []) →
      exec (.lpiEntry die p) s = .next (s.p die (R.PEN_PORT_STATUS.LPI p) 1)) ∧
    (∀ (e : Fin 64) q f l u, penRuns s die = true → pickQueue s die e = (some q, t) → t.queue die e q = f :: l →
      sendOut (t.setQueue die e q l) die e f = some u → exec (.egressSend die e) s = .next (retryOut u die)) ∧
    (∀ (e : Fin 4) y l, penRuns s die = true → s.air die e = y :: l →
      (1 < y.left → exec (.trunkCell die e) s = .next (s.setAir die e ({ y with left := y.left - 1 } :: l))) ∧
      (y.left ≤ 1 → trunkArrive (s.setAir die e l) die y.frame = some t → exec (.trunkCell die e) s = .next t)) ∧
    (∀ f l n r, s.yout die = f :: l → s.neighbour die (trunkEdge s die Dst.y) = some n →
      (s.air n (5 - trunkEdge s die Dst.y)).length ≤ l.length →
      (r = Resp.ok → exec (.yWriteResponse die r) s = .next (s.setYout die l)) ∧
      (r ≠ Resp.ok → exec (.yWriteResponse die r) s = .next ((s.setYout die l).penCnt die 7))) ∧
    (∀ r : Fin 16,
      (s.ringAck die r = some .ok → exec (.ringHeadAdvance die r) s = .next (ringAdvance (s.setRingAck die r none) die r)) ∧
      (∀ x, s.ringAck die r = some x → x ≠ .ok → exec (.ringError die r) s = .next ((((s.setRingAck die r none).p die
        (R.PEN_RING_STATUS.ERR r) 1).p die (R.PEN_RING_STATUS.RESP r) x.code).p die R.PEN_EVT.RING_ERR 1)) ∧
      (∀ hw bw h n u, penRuns s die = true → 8 ≤ r.val → ringRuns s die r = true → s.ringAck die r = none → ringHead s die r ≠ ringTail s die r →
        readMany s (s.penMaster die) (slotAddr s die r) 4 = (.ok, hw, t) → h = hw.flatMap (fun w => bytesLE 8 w.v.toNat) → n = leAt h 0 2 →
        readMany t (s.penMaster die) (slotAddr s die r + 32) ((n + 7) / 8) = (.ok, bw, u) → exec (.txRingSend die r) s =
          .next { txForward (ringAdvance u die r) die (txFrame die r h ((bw.flatMap (fun w => bytesLE 8 w.v.toNat)).take n)
            ((hw ++ bw).any (fun w => w.p))) ((leAt h 2 2).testBit 4) with reply := s.reply })) ∧
    (penRuns s s.head = true → exec .ppsInEdge s = .next ((s.p s.head R.PEN_PPS_IN_TS.TIME (timeNow s s.head / 2 ^ 32 % 1000000000 +
      timeNow s s.head / secUnits * 2 ^ 32)).p s.head R.PEN_EVT.PPS_IN 1)) ∧
    (∀ rise : Bool, s.on s.head R.PEN_PPS_CFG.EN = true → s.pen.pps = !rise → exec (.ppsOut rise) s = .next (s.setPen { s.pen with pps := rise }))

/-- Register accesses (R4, R5, R28, R65, R432, R433): what a write gives its block, what refuses an access, what a read clears, and how the two
halves of a counter are read.
Where the spec leaves a point open, the clauses follow notes/assumptions/10.md, notes/assumptions/17.md. -/
def Obligations.RegisterAccess : Prop :=
  ∀ (s : State) (m : Master) (die : Die) (r : RegRef), Reaches s m die r → r.off % 4 = 0 → r.off + 8 ≤ 2 ^ 24 →
    (∀ v : DWord,
      (r.id.imageSet = false → r.id.info.writable ≠ 0 → r.id ≠ .SNT_COMMIT → exec (.registerWrite m die r.off 4 v false) s =
        .next ((writeFamily s (mkWr s m die r (v.toNat % 2 ^ 32) (2 ^ 32 - 1))).coreSees m true (die * 0x1000000 + r.off))) ∧
      (r.id.info.writable = 0 → exec (.registerWrite m die r.off 4 v false) s =
        .next ((s.ans .accessError).coreTrap m .storeFault (die * 0x1000000 + r.off))) ∧
      exec (.registerWrite m die r.off 4 v true) s = .next ((s.ans .targetError).coreTrap m .storeFault (die * 0x1000000 + r.off)) ∧
      (∀ size, size ≠ 4 → size ≠ 8 → bytesDefined s die r.off size = true → ∀ poison,
        exec (.registerWrite m die r.off size v poison) s =
          .next ((s.ans .accessError).coreTrap m .storeFault (die * 0x1000000 + r.off))) ∧
      (∀ off size poison, bytesDefined s die off size = false → inAperture s die off = false →
        exec (.registerWrite m die off size v poison) s = .next ((s.ans .decodeError).coreTrap m .storeFault (die * 0x1000000 + off)) ∧
        exec (.readClear m die off size) s = .next ((s.ans .decodeError).coreTrap m .loadFault (die * 0x1000000 + off)))) ∧
    (r.id ≠ .EVT_CLAIM → r.id ≠ .PEN_TS_POP → r.id ≠ .DFD_CQ_POP → r.id ≠ .THM_TEMP → r.id ≠ .BNK_ECC_CHK →
      ∀ v rc t, v = viewReg s die r &&& (2 ^ 64 - 1 - r.id.info.wo) →
      (r.id.isCounter = false → r.id.isPop = false → rc = r.id.info.rc &&& (2 ^ 32 - 1) →
        t = (if rc = 0 then s else s.setReg die r (s.reg die r &&& (2 ^ 64 - 1 - rc))) →
        exec (.readClear m die r.off 4) s = .next (t.ansData .ok [BitVec.ofNat 64 (v % 2 ^ 32)])) ∧
      (r.id.isCounter = true → r.id.isPop = false → r.id.info.rc = 0 → r.off % 8 = 0 →
        t = { s with holds := SMap.put s.holds (cellKey die r.off) ⟨m.rid, BitVec.ofNat 32 (v / 2 ^ 32)⟩ } →
        exec (.readClear m die r.off 4) s = .next (t.ansData .ok [BitVec.ofNat 64 (v % 2 ^ 32)]))) ∧
    (r.id.isCounter = true → r.id.isPop = false → r.off % 8 = 0 → regOn s die (r.off + 4) = some r →
      (∀ h, SMap.look s.holds (cellKey die r.off) = some h → h.rid = m.rid → exec (.highHalfRead m die (r.off + 4)) s =
        .next ({ s with holds := SMap.del s.holds (cellKey die r.off) }.ansData .ok [BitVec.ofNat 64 h.hi.toNat])) ∧
      ((∀ h, SMap.look s.holds (cellKey die r.off) = some h → h.rid ≠ m.rid) → exec (.highHalfRead m die (r.off + 4)) s =
        .next (s.ansData .ok [BitVec.ofNat 64 (viewReg s die r / 2 ^ 32 % 2 ^ 32)])))

/-- Sentences (R436 to R440): opening, staging, committing and rolling back, on one die and on the device. A staged write leaves the register
as it is until the apply tick.
Where the spec leaves a point open, the clauses follow notes/assumptions/18.md. -/
def Obligations.SentencesComplete : Prop :=
  ∀ (s t : State) (m : Master) (die : Die), t = sntFail (sntClose s die SntRes.rolledBack) die 0 0 →
    (Reaches s m die ⟨.SNT_BEGIN, 0, 0⟩ → exec (.sntBegin m die false) s = .next ((sntOpen s m false die).ans .ok)) ∧
    (Reaches s m die ⟨.SNT_BEGIN, 0, 0⟩ → die.val = s.head → (∀ d, d ∈ s.dies → sntState s d = Snt.idle) →
      exec (.sntBegin m die true) s = .next ((s.dies.foldl (fun u d => sntOpen u m true d) s).ans .ok)) ∧
    (∀ r (v : Word) x u, Open s m die r → r.id.imageSet = false → r.id.info.rws ≠ 0 → r.id.info.writable = r.id.info.rws →
      r.off % 4 = 0 → r.off / 8 ≠ R.SNT_STATUS.STATE.off / 8 → x = r.id.info.merge (stagedOver s die r (s.reg die r)) v.toNat (2 ^ 32 - 1 &&& r.id.info.rws) →
      sntStage s m die r x = some u → exec (.stagedWrite m die r.off v) s = .next (u.ans .ok) ∧
        (sntEntry u die r.off).map (fun e => e.val) = some (rwsPart r x) ∧ u.reg die r = s.reg die r) ∧
    (∀ u, Open s m die ⟨.SNT_COMMIT, 0, 0⟩ → sntOwns s m die = true → sntDevice s die = false → s.running die = true → s.fullStopped die = false →
      (prepare s die = .ok u → exec (.sntCommit m die true) s = .next (s.p die R.SNT_STATUS.STATE Snt.committing).noAnswer) ∧
      (∀ x r, prepare s die = .error x → x.die = die → u = (match x.gate with | some b => gateRefused s die b | none => s) →
        sntDevice u die = false → r = (⟨.SNT_COMMIT, 0, 0⟩ : RegRef) → exec (.sntCommit m die true) s =
        .next (((sntPulse (sntFail (sntClose u die x.res) die die x.off) die false).ans .accessError).coreTrap m .storeFault
          (die * 0x1000000 + r.off)))) ∧
    (∀ u, s.present die = true → sntState s die = Snt.committing → sntDevice s die = false → s.running die = true →
      prepare s die = .ok u → exec (.applyTick die) s = .next ((sntFinish (leaveGated u die) die SntRes.ok none).ans .ok)) ∧
    (Open s m die ⟨.SNT_ROLLBACK, 0, 0⟩ → sntOwns s m die = true → sntDevice s die = false →
      exec (.sntRollback m die true) s = .next ((sntPulse t die false).ans .ok)) ∧
    (s.present die = true → sntState s die = Snt.opened → s.g die R.SNT_CFG.TMO ≠ 0 → sntDevice s die = false →
      exec (.sentenceTimeout die) s = .next (sntPulse (sntFail (sntClose s die SntRes.timeout) die 0 0) die false))

/-- The power ladder (R442 to R446): requests, entry and what blocks it, arrival, the wake sources, and the exits.
Where the spec leaves a point open, the clauses follow notes/assumptions/19.md. -/
def Obligations.LadderComplete : Prop :=
  ∀ (s t : State) (m : Master) (die : Die) (l : LadSt), l = s.ladOf die →
    (∀ g : Fin 8, Reaches s m die ⟨.PWR_CTRL, 0, 0⟩ → s.on die R.PWR_STATUS.PEND = false → Canonical s →
      ladPhase s die = LPhase.steady → t = s.p die R.PWR_CTRL.TARGET g →
      (ladState s die < g → g ≤ 3 → exec (.ladderRequest m die g false) s = .next ((ladEnter t die g false).ans .ok)) ∧
      (g = 4 → die.val = s.head → (∀ d, d ∈ s.dies → s.on d R.PWR_STATUS.PEND = false) →
        exec (.ladderRequest m die g true) s = .next ((s.dies.foldl (fun u d => ladTake u d 4 false) t).ans .ok)) ∧
      (∀ r scope, r = (⟨.PWR_CTRL, 0, 0⟩ : RegRef) → 5 ≤ g ∨ (g = 4 ∧ scope = false) → exec (.ladderRequest m die g scope) s =
        .next ((s.ans .accessError).coreTrap m .storeFault (die * 0x1000000 + r.off)))) ∧
    (s.present die = true → ladPhase s die = LPhase.entering → l.drained = false → l.trip = false →
      (blockerOf s die l.goal = 0 →
        (l.goal < 3 → exec (.ladderEntryProceed die) s = .next (s.setLad die { l with drained := true })) ∧
        (3 ≤ l.goal → netWaits s die = false → t = drainDie s die →
          exec (.ladderEntryProceed die) s = .next (t.setLad die { t.ladOf die with drained := true }))) ∧
      (blockerOf s die l.goal ≠ 0 → l.goal ≠ Ladder.fullStop →
        exec (.entryTimeout die) s = .next (ladAbandon s (blockerOf s die l.goal) die))) ∧
    (s.present die = true → ladPhase s die = LPhase.entering → l.drained = true → l.goal ≠ Ladder.fullStop →
      (l.trip = true ∨ blockerOf s die l.goal = 0) →
      t = ((ladArriveDown s die l.goal).p die R.PWR_STATUS.STATE l.goal).p die R.PWR_STATUS.PHASE LPhase.steady →
      exec (.stateEntered die) s = .next (ladSettle (t.p die R.PWR_EVT.ENTERED 1) die)) ∧
    (∀ w, s.present die = true → wakeThere s die w = true → exec (.wakeEvent die w) s = .next (wakeDie s die (wakeRow w))) ∧
    (s.dies.filter (fun d => (s.ladOf d).timer && s.belowRun d) = [die.val] → s.on die R.PWR_CFG.WAKE_TIMER = true →
      exec .wakeTimerExpiry s = .next (wakeAll (s.setLad die { l with timer := false }) 5)) ∧
    (s.on s.head R.PWR_CFG.WAKE_SMBUS = true → exec (.smbusWake 1) s = .next (wakeAll s 6)) ∧
    (s.present die = true → ladPhase s die = LPhase.exiting → s.boot.inReset = none →
      (ladState s die = Ladder.comma → exec (.exitComplete die) s = .next (arrive (ddrReturn s die) die)) ∧
      (ladState s die = Ladder.semicolon → exec (.exitComplete die) s = .next (arrive (lanesFromSemicolon (ddrReturn s die) die) die)) ∧
      (ladState s die = Ladder.colon → l.colon = 0 → exec (.exitComplete die) s = .next (colonGsr s die)) ∧
      (ladState s die = Ladder.fullStop → s.phase ≠ Phase.housekeep → (∀ d, d ∈ s.dies → ladState s d = Ladder.fullStop ∧
        ladPhase s d = LPhase.exiting ∧ rootState s d = Root.off) → exec (.exitComplete die) s = .next (fullStopExit s))) ∧
    (l.colon = 1 → ladPhase s die = LPhase.exiting →
      exec (.colonGweStep die) s = .next (arrive (s.setLad die { l with colon := 2 }) die)) ∧
    (l.colon = 2 → ladState s die < Ladder.colon →
      exec (.colonCoreStep die) s = .next (startCores (s.setLad die { l with colon := 0 }) die))

/-- The thermal plant and the monitors (R448 to R453): a step of the loop keeps its integral and demand between 0 and 100 % and the duty within its
slew; fans start, stall and are tried again; limits trip; readings update; monitors start, sample and end their windows.
Where the spec leaves a point open, the clauses follow notes/assumptions/46.md. -/
def Obligations.PlantComplete : Prop :=
  ∀ (s t : State) (m : Master) (die : Die) (fan : Fin 2) (rpm : BitVec 16),
    (∀ a d u rpms, plantRuns s = true → a = plantT s → t = heaterStep (critStep { fanSpeeds s rpms with thm := thmTick s.thm } a) a →
      loopStep t a = (d, u) → exec (.thermalStep rpms) s = .next (fanShow (fanStep d (fanStep d u 0) 1)) ∧ 0 ≤ d ∧ d ≤ 100000 ∧ 0 ≤ u.thm.integral ∧ u.thm.integral ≤ 100000 ∧
      (u.thm.duty - s.thm.duty).natAbs ≤ thmNat t R.THM_FAN_CFG.SLEW * 100 ∧
      (t.on t.head R.THM_STATUS.HEATER = true → d = 0 ∧ u.thm.integral = 0)) ∧
    (plantRuns s = true → fanState s fan = FanState.spinup → t = s.p s.head (R.THM_FAN_STATUS.RPM fan) rpm.toNat → Canonical s →
      (s.g s.head R.THM_SPIN_CFG.SPIN_RPM ≤ rpm.toNat → exec (.fanSpinupEnd fan rpm) s = .next (fanShow (fanTo t fan FanState.run 0))) ∧
      (rpm.toNat < s.g s.head R.THM_SPIN_CFG.SPIN_RPM → 2 ≤ (s.thm.fan fan).tries → exec (.fanSpinupEnd fan rpm) s =
        .next (fanShow ((fanTo t fan FanState.failed 0).p s.head R.THM_EVT.FAN_FAIL 1))) ∧
      (rpm.toNat < s.g s.head R.THM_SPIN_CFG.SPIN_RPM → (s.thm.fan fan).tries < 2 → exec (.fanSpinupEnd fan rpm) s =
        .next (fanShow (fanTo t fan FanState.off ((s.thm.fan fan).tries + 1))))) ∧
    (plantRuns s = true → fanState s fan = FanState.run → 2 * rpm.toNat < s.g s.head R.THM_SPIN_CFG.SPIN_RPM → exec (.fanStall fan rpm) s =
      .next (fanShow (fanTo (s.p s.head (R.THM_FAN_STATUS.RPM fan) rpm.toNat) fan FanState.spinup 0))) ∧
    (∀ x, Reaches s m die ⟨.THM_SPIN_CFG, 0, 0⟩ → s.g die R.THM_SPIN_CFG.PPR ≠ 0 → s.g die R.THM_SPIN_CFG.SPIN_TIME ≠ 0 →
      x = written s die ⟨.THM_SPIN_CFG, 0, 0⟩ (named s die ⟨.THM_SPIN_CFG, 0, 0⟩ [(R.THM_SPIN_CFG.FAN_RETRY, 1)]) →
      exec (.fanRetry m die) s = .next ((fanRetry (s.setReg die ⟨.THM_SPIN_CFG, 0, 0⟩ x)).ans .ok)) ∧
    (s.present die = true → s.boot.inReset ≠ some .power → (1200 ≤ dieTemp s die → s.boot.lockdown = false →
      exec (.thermalTrip die) s =
        .next (((s.pAll R.PWR_STATUS.TRIP 1).p s.head R.THM_EVT.TRIP 1).onDies (fun u d => ladTake u d Ladder.fullStop true))) ∧
      (∀ temp mv u w, mv.length = 6 → u = s.p die R.THM_TEMP.TEMP temp.toNat →
        w = (if sext 16 (u.g die R.THM_TEMP.PEAK) < temp.toInt then u.p die R.THM_TEMP.PEAK temp.toNat else u) → exec (.sensorUpdate die temp mv) s =
          .next ((List.range 6).foldl (fun x n => x.p die (R.THM_VOLT.MV n) (mv.getD n 0).toNat) w)) ∧
      (∀ rail : Fin 6, exec (.railOutOfRange die rail) s = .next (s.setBit die R.THM_EVT.VOLT rail))) ∧
    (∀ (k : Fin 16),
      (∀ (v : Word) x, Reaches s m die ⟨.MON_CTRL, k, 0⟩ → x = written s die ⟨.MON_CTRL, k, 0⟩ v.toNat → (R.MON_CTRL.EN 0).of x = 1 →
        exec (.monEnable m die k v) s = .next ((monStart ((stopMon s die k).setReg die ⟨.MON_CTRL, k, 0⟩ x) die k).ans .ok)) ∧
      (s.present die = true → s.on die (R.MON_CTRL.EN k) = true →
        (∀ (v : Word) w, s.g die (R.MON_SRC.SRC k) ≠ 0 → s.belowRun die = false →
          w = (s.monOf die k).take v.toNat (s.g die (R.MON_BIN.BASE k)) (s.g die (R.MON_BIN.SHIFT k)) →
          exec (.monSample die k v) s = .next (s.setMon die k w) ∧
          w.min = Nat.min (s.monOf die k).min v.toNat ∧ w.max = Nat.max (s.monOf die k).max v.toNat ∧
          w.count = ((s.monOf die k).count + 1) % 2 ^ 64 ∧ w.sum = ((s.monOf die k).sum + v.toNat) % 2 ^ 64) ∧
        (t = monStart ((monFreeze s die k).p die (R.MON_CTRL.DONE k) 1) die k →
          exec (.monWindowEnd die k) s = .next (if t.on die (R.MON_CTRL.CONT k) then t else t.p die (R.MON_CTRL.EN k) 0))))
end

