-- ==== Sys2Proof/Laws/SMap.lean ====
section
/-!
SUPPORT. The laws of sparse maps: what reads answer after writes, and that every operation keeps the canonical form.
-/

namespace Sys2Proof.Machine

variable {α : Type}

@[simp] theorem SMap.look_nil (k : Nat) : SMap.look ([] : SMap α) k = none := rfl

@[simp] theorem SMap.get_nil (f : Nat → α) (k : Nat) : SMap.get f ([] : SMap α) k = f k := rfl

theorem SMap.look_put_same (m : SMap α) (k : Nat) (v : α) : SMap.look (SMap.put m k v) k = some v := by
  induction m with
  | nil => simp [SMap.put, SMap.look]
  | cons e m ih =>
    obtain ⟨k', v'⟩ := e
    unfold SMap.put
    split
    · simp [SMap.look]
    · split
      · simp [SMap.look]
      · next h => simp [SMap.look, h, ih]

theorem SMap.look_put_other (m : SMap α) (k k₂ : Nat) (v : α) (h : k₂ ≠ k) :
    SMap.look (SMap.put m k v) k₂ = SMap.look m k₂ := by
  induction m with
  | nil => simp [SMap.put, SMap.look, Ne.symm h]
  | cons e m ih =>
    obtain ⟨k', v'⟩ := e
    unfold SMap.put
    split
    · simp [SMap.look, Ne.symm h]
    · split
      · next h2 => subst h2; simp [SMap.look, Ne.symm h]
      · simp [SMap.look, ih]

theorem SMap.look_del_other (m : SMap α) (k k₂ : Nat) (h : k₂ ≠ k) :
    SMap.look (SMap.del m k) k₂ = SMap.look m k₂ := by
  induction m with
  | nil => simp [SMap.del]
  | cons e m ih =>
    obtain ⟨k', v'⟩ := e
    unfold SMap.del
    split
    · next h2 => subst h2; simp [SMap.look, Ne.symm h]
    · simp [SMap.look, ih]

theorem SMap.above_look (k : Nat) (m : SMap α) (h : SMap.above k m = true) : SMap.look m k = none := by
  induction m with
  | nil => rfl
  | cons e m ih =>
    obtain ⟨k', v'⟩ := e
    simp only [SMap.above, List.all_cons, Bool.and_eq_true, decide_eq_true_eq] at h
    have : k' ≠ k := by omega
    simp only [SMap.look, this, if_false]
    exact ih h.2

theorem SMap.above_mono (a b : Nat) (m : SMap α) (hab : a ≤ b) (h : SMap.above b m = true) :
    SMap.above a m = true := by
  simp only [SMap.above, List.all_eq_true, decide_eq_true_eq] at h ⊢
  intro e he
  have := h e he
  omega

theorem SMap.above_put (a k : Nat) (m : SMap α) (v : α) (h : SMap.above a m = true) (hk : a < k) :
    SMap.above a (SMap.put m k v) = true := by
  induction m with
  | nil => simp [SMap.put, SMap.above, hk]
  | cons e m ih =>
    obtain ⟨k', v'⟩ := e
    simp only [SMap.above, List.all_cons, Bool.and_eq_true, decide_eq_true_eq] at h
    unfold SMap.put
    split
    · simp only [SMap.above, List.all_cons, Bool.and_eq_true, decide_eq_true_eq]
      exact ⟨hk, h.1, h.2⟩
    · split
      · simp only [SMap.above, List.all_cons, Bool.and_eq_true, decide_eq_true_eq]
        exact ⟨hk, h.2⟩
      · simp only [SMap.above, List.all_cons, Bool.and_eq_true, decide_eq_true_eq]
        exact ⟨h.1, ih h.2⟩

theorem SMap.above_del (a k : Nat) (m : SMap α) (h : SMap.above a m = true) :
    SMap.above a (SMap.del m k) = true := by
  induction m with
  | nil => simp [SMap.del, SMap.above]
  | cons e m ih =>
    obtain ⟨k', v'⟩ := e
    simp only [SMap.above, List.all_cons, Bool.and_eq_true, decide_eq_true_eq] at h
    unfold SMap.del
    split
    · exact h.2
    · simp only [SMap.above, List.all_cons, Bool.and_eq_true, decide_eq_true_eq]
      exact ⟨h.1, ih h.2⟩

section
variable [DecidableEq α]

theorem SMap.look_del_same (f : Nat → α) (m : SMap α) (k : Nat) (h : SMap.wf f m = true) :
    SMap.look (SMap.del m k) k = none := by
  induction m with
  | nil => rfl
  | cons e m ih =>
    obtain ⟨k', v'⟩ := e
    simp only [SMap.wf, Bool.and_eq_true] at h
    unfold SMap.del
    split
    · next h2 => subst h2; exact SMap.above_look _ _ h.1.1
    · next h2 => simp only [SMap.look, h2, if_false]; exact ih h.2

theorem SMap.wf_put (f : Nat → α) (m : SMap α) (k : Nat) (v : α) (h : SMap.wf f m = true) (hv : v ≠ f k) :
    SMap.wf f (SMap.put m k v) = true := by
  induction m with
  | nil => simp [SMap.put, SMap.wf, SMap.above, hv]
  | cons e m ih =>
    obtain ⟨k', v'⟩ := e
    have h0 := h
    simp only [SMap.wf, Bool.and_eq_true, decide_eq_true_eq] at h
    unfold SMap.put
    split
    · next hlt =>
      simp only [SMap.wf, Bool.and_eq_true, decide_eq_true_eq]
      refine ⟨⟨?_, hv⟩, ⟨h.1.1, h.1.2⟩, h.2⟩
      simp only [SMap.above, List.all_cons, Bool.and_eq_true, decide_eq_true_eq]
      exact ⟨hlt, SMap.above_mono _ _ _ (by omega) h.1.1⟩
    · split
      · next h2 =>
        subst h2
        simp only [SMap.wf, Bool.and_eq_true, decide_eq_true_eq]
        exact ⟨⟨h.1.1, hv⟩, h.2⟩
      · next h1 h2 =>
        simp only [SMap.wf, Bool.and_eq_true, decide_eq_true_eq]
        exact ⟨⟨SMap.above_put _ _ _ _ h.1.1 (by omega), h.1.2⟩, ih h.2⟩

theorem SMap.wf_del (f : Nat → α) (m : SMap α) (k : Nat) (h : SMap.wf f m = true) :
    SMap.wf f (SMap.del m k) = true := by
  induction m with
  | nil => rfl
  | cons e m ih =>
    obtain ⟨k', v'⟩ := e
    simp only [SMap.wf, Bool.and_eq_true, decide_eq_true_eq] at h
    unfold SMap.del
    split
    · exact h.2
    · simp only [SMap.wf, Bool.and_eq_true, decide_eq_true_eq]
      exact ⟨⟨SMap.above_del _ _ _ h.1.1, h.1.2⟩, ih h.2⟩

/-- Writing keeps the canonical form. -/
theorem SMap.wf_set (f : Nat → α) (m : SMap α) (k : Nat) (v : α) (h : SMap.wf f m = true) :
    SMap.wf f (SMap.set f m k v) = true := by
  unfold SMap.set
  split
  · exact SMap.wf_del f m k h
  · next hv => exact SMap.wf_put f m k v h hv

/-- Keeping a part of the entries keeps the canonical form. -/
theorem SMap.wf_keep (f : Nat → α) (m : SMap α) (p : Nat → Bool) (h : SMap.wf f m = true) :
    SMap.wf f (SMap.keep m p) = true := by
  induction m with
  | nil => rfl
  | cons e m ih =>
    obtain ⟨k', v'⟩ := e
    simp only [SMap.wf, Bool.and_eq_true, decide_eq_true_eq] at h
    simp only [SMap.keep, List.filter_cons]
    split
    · simp only [SMap.wf, Bool.and_eq_true, decide_eq_true_eq]
      refine ⟨⟨?_, h.1.2⟩, ih h.2⟩
      have ha := h.1.1
      simp only [SMap.above, List.all_eq_true, decide_eq_true_eq, List.mem_filter] at ha ⊢
      exact fun e he => ha e he.1
    · exact ih h.2

/-- A read after a write to the same key answers the value written. -/
theorem SMap.get_set_same (f : Nat → α) (m : SMap α) (k : Nat) (v : α) (h : SMap.wf f m = true) :
    SMap.get f (SMap.set f m k v) k = v := by
  unfold SMap.get SMap.set
  split
  · next hv => rw [SMap.look_del_same f m k h]; exact hv.symm
  · rw [SMap.look_put_same]; rfl

/-- A write leaves every other key alone. -/
@[simp] theorem SMap.get_set_other (f : Nat → α) (m : SMap α) (k k₂ : Nat) (v : α) (h : k₂ ≠ k) :
    SMap.get f (SMap.set f m k v) k₂ = SMap.get f m k₂ := by
  unfold SMap.get SMap.set
  split
  · rw [SMap.look_del_other _ _ _ h]
  · rw [SMap.look_put_other _ _ _ _ h]

end

theorem SMap.look_keep (m : SMap α) (p : Nat → Bool) (k : Nat) :
    SMap.look (SMap.keep m p) k = if p k then SMap.look m k else none := by
  induction m with
  | nil => simp [SMap.keep]
  | cons e m ih =>
    obtain ⟨k', v'⟩ := e
    simp only [SMap.keep, List.filter_cons] at ih ⊢
    by_cases hk : k' = k
    · subst hk
      by_cases hp : p k'
      · simp [hp, SMap.look]
      · simp only [hp, Bool.false_eq_true, if_false] at ih ⊢
        exact ih
    · by_cases hp : p k'
      · simp only [hp, if_true, SMap.look, hk, if_false]; exact ih
      · simp only [hp, Bool.false_eq_true, if_false, SMap.look, hk]; exact ih

/-- What a key reads as after a part of the entries was dropped. -/
theorem SMap.get_keep (f : Nat → α) (m : SMap α) (p : Nat → Bool) (k : Nat) :
    SMap.get f (SMap.keep m p) k = if p k then SMap.get f m k else f k := by
  unfold SMap.get
  rw [SMap.look_keep]
  split <;> rfl

/-- Writing a key with what it reads as changes nothing. -/
theorem SMap.set_get (f : Nat → α) [DecidableEq α] (m : SMap α) (k : Nat) (h : SMap.wf f m = true) : SMap.set f m k (SMap.get f m k) = m := by
  have hdel : ∀ m : SMap α, SMap.look m k = none → SMap.del m k = m := by
    intro m
    induction m with
    | nil => intro _; rfl
    | cons e m ih =>
      obtain ⟨k', v⟩ := e
      intro hl
      unfold SMap.look at hl
      split at hl
      · simp at hl
      · next hk => simp only [SMap.del, hk, if_false, ih hl]
  have hput : ∀ (m : SMap α) (v : α), SMap.wf f m = true → SMap.look m k = some v → SMap.put m k v = m ∧ v ≠ f k := by
    intro m
    induction m with
    | nil => intro v _ hl; simp at hl
    | cons e m ih =>
      obtain ⟨k', v'⟩ := e
      intro v hw hl
      simp only [SMap.wf, Bool.and_eq_true, decide_eq_true_eq] at hw
      unfold SMap.look at hl
      split at hl
      · next hk =>
        subst hk
        injection hl with hl
        subst hl
        exact ⟨by simp [SMap.put], hw.1.2⟩
      · next hk =>
        have ⟨h1, h2⟩ := ih v hw.2 hl
        have hlt : ¬ k < k' := by
          intro hlt
          rw [SMap.above_look k m (SMap.above_mono k k' m (Nat.le_of_lt hlt) hw.1.1)] at hl
          simp at hl
        exact ⟨by simp only [SMap.put, hlt, hk, if_false, h1], h2⟩
  unfold SMap.set SMap.get
  cases hl : SMap.look m k with
  | none => simp [hdel m hl]
  | some v =>
    have ⟨h1, h2⟩ := hput m v h hl
    simp [h1, h2]

end Sys2Proof.Machine
end

