-- ==== Sys2Proof/Laws/Fields.lean ====
section
/-!
SUPPORT. The laws of register fields: a field read after it is written, the fields that a write leaves alone, and that every
write of a cell keeps the cells in canonical form.
-/

namespace Sys2Proof.Machine

/-- The field lies in its cell. -/
def Fld.ok (f : Fld) : Prop := f.sh + f.w ≤ 64 ∧ f.off < 2 ^ 24

/-- Two fields of one die that share no bit. -/
def Fld.apart (f g : Fld) : Prop := f.off / 8 ≠ g.off / 8 ∨ f.sh + f.w ≤ g.sh ∨ g.sh + g.w ≤ f.sh

/-- Bit `j` of a spliced word. -/
theorem splice_bit (old : DWord) (sh w v j : Nat) (hj : j < 64) :
    (splice old sh w v).getLsbD j =
      if sh ≤ j ∧ j < sh + w then (v % 2 ^ w).testBit (j - sh) else old.getLsbD j := by
  have hjs : j - sh < 64 := by omega
  have hm : (2 ^ w - 1).testBit (j - sh) = decide (j - sh < w) := Nat.testBit_two_pow_sub_one w (j - sh)
  have hv : (v % 2 ^ w).testBit (j - sh) = (decide (j - sh < w) && v.testBit (j - sh)) := Nat.testBit_mod_two_pow v w (j - sh)
  simp only [splice, BitVec.getLsbD_or, BitVec.getLsbD_and, BitVec.getLsbD_not, BitVec.getLsbD_shiftLeft,
    BitVec.getLsbD_ofNat, hj, hjs, hm, hv, decide_true, Bool.true_and]
  by_cases h1 : sh ≤ j <;> by_cases h2 : j - sh < w
  · have : sh ≤ j ∧ j < sh + w := by omega
    have h3 : ¬ j < sh := by omega
    simp [this, h2, h3]
  · have : ¬ (sh ≤ j ∧ j < sh + w) := by omega
    simp [this, h2]
  · have : ¬ (sh ≤ j ∧ j < sh + w) := by omega
    have h3 : j < sh := by omega
    simp [this, h3]
  · have : ¬ (sh ≤ j ∧ j < sh + w) := by omega
    simp [this, h2]

/-- The bits of a part of a word. -/
theorem part_bit (x : DWord) (sh w i : Nat) :
    ((x.toNat >>> sh) % 2 ^ w).testBit i = (decide (i < w) && x.getLsbD (sh + i)) := by
  simp [Nat.testBit_mod_two_pow, Nat.testBit_shiftRight, BitVec.testBit_toNat]

/-- The part that was written. -/
theorem splice_same (old : DWord) (sh w v : Nat) (h : sh + w ≤ 64) :
    ((splice old sh w v).toNat >>> sh) % 2 ^ w = v % 2 ^ w := by
  apply Nat.eq_of_testBit_eq
  intro i
  rw [part_bit]
  by_cases hi : i < w
  · rw [splice_bit _ _ _ _ _ (by omega)]
    have h1 : sh ≤ sh + i ∧ sh + i < sh + w := by omega
    simp [hi, h1]
  · simp [hi, Nat.testBit_mod_two_pow]

/-- A part with no bit in common with what was written. -/
theorem splice_other (old : DWord) (sh w v sh' w' : Nat) (h' : sh' + w' ≤ 64)
    (ha : sh + w ≤ sh' ∨ sh' + w' ≤ sh) :
    ((splice old sh w v).toNat >>> sh') % 2 ^ w' = (old.toNat >>> sh') % 2 ^ w' := by
  apply Nat.eq_of_testBit_eq
  intro i
  rw [part_bit, part_bit]
  by_cases hi : i < w'
  · rw [splice_bit _ _ _ _ _ (by omega)]
    have : ¬ (sh ≤ sh' + i ∧ sh' + i < sh + w) := by omega
    simp [this]
  · simp [hi]

/-- Writing a cell keeps the cells in canonical form. -/
theorem State.setCell_wf (s : State) (k : Nat) (v : DWord) (h : SMap.wf cellRst s.rf = true) :
    SMap.wf cellRst (s.setCell k v).rf = true := SMap.wf_set cellRst s.rf k v h

/-- Setting a field keeps the cells in canonical form. -/
theorem State.p_wf (s : State) (d : Nat) (f : Fld) (v : Nat) (h : SMap.wf cellRst s.rf = true) :
    SMap.wf cellRst (s.p d f v).rf = true := State.setCell_wf s _ _ h

/-- Resetting a part of the cells keeps them in canonical form. -/
theorem State.resetCells_wf (s : State) (q : Nat → Bool) (h : SMap.wf cellRst s.rf = true) :
    SMap.wf cellRst (s.resetCells q).rf = true := SMap.wf_keep cellRst s.rf (fun k => !(q k)) h

theorem State.cell_setCell_same (s : State) (k : Nat) (v : DWord) (h : SMap.wf cellRst s.rf = true) :
    (s.setCell k v).cell k = v := SMap.get_set_same cellRst s.rf k v h

@[simp] theorem State.cell_setCell_other (s : State) (k k₂ : Nat) (v : DWord) (h : k₂ ≠ k) :
    (s.setCell k v).cell k₂ = s.cell k₂ := SMap.get_set_other cellRst s.rf k k₂ v h

/-- What a reset of cells leaves (R7). -/
theorem State.cell_resetCells (s : State) (q : Nat → Bool) (k : Nat) :
    (s.resetCells q).cell k = if q k then cellRst k else s.cell k := by
  unfold State.resetCells State.cell
  rw [SMap.get_keep]
  cases q k <;> rfl

/-- Cells of different dies, or at different places, have different keys. -/
theorem cellKey_ne (d d' o o' : Nat) (ho : o < 2 ^ 24) (ho' : o' < 2 ^ 24) (h : d ≠ d' ∨ o / 8 ≠ o' / 8) :
    cellKey d o ≠ cellKey d' o' := by
  unfold cellKey
  omega

/-- A field read after it is written. -/
theorem State.g_p_same (s : State) (d : Nat) (f : Fld) (v : Nat) (hf : f.sh + f.w ≤ 64)
    (h : SMap.wf cellRst s.rf = true) : (s.p d f v).g d f = v % 2 ^ f.w := by
  unfold State.g State.p
  rw [State.cell_setCell_same _ _ _ h]
  exact splice_same _ _ _ _ hf

/-- A write of a field leaves every field alone that shares no bit with it. -/
theorem State.g_p_other (s : State) (d d' : Nat) (f g : Fld) (v : Nat) (hf : f.off < 2 ^ 24) (hg : g.ok)
    (h : SMap.wf cellRst s.rf = true) (ha : d ≠ d' ∨ f.apart g) : (s.p d f v).g d' g = s.g d' g := by
  unfold State.g State.p
  by_cases hk : cellKey d' g.off = cellKey d f.off
  · rw [hk, State.cell_setCell_same _ _ _ h]
    have hd : ¬ (d ≠ d' ∨ f.off / 8 ≠ g.off / 8) := fun hx => cellKey_ne d d' f.off g.off hf hg.2 hx hk.symm
    rcases ha with ha | ha
    · exact absurd (Or.inl ha) hd
    · rcases ha with ha | ha
      · exact absurd (Or.inr ha) hd
      · exact splice_other _ _ _ _ _ _ hg.1 ha
  · rw [State.cell_setCell_other _ _ _ _ hk]

/-- A write of a field leaves every cell of another place alone. -/
theorem State.cell_p_other (s : State) (d : Nat) (f : Fld) (v k : Nat) (hk : k ≠ cellKey d f.off) :
    (s.p d f v).cell k = s.cell k := State.cell_setCell_other s _ _ _ hk

/-- Writing a field with what it reads as changes nothing. -/
theorem State.p_same (s : State) (d : Nat) (f : Fld) (h : SMap.wf cellRst s.rf = true) :
    s.p d f (s.g d f) = s := by
  have hc : splice (s.cell (cellKey d f.off)) f.sh f.w (s.g d f) = s.cell (cellKey d f.off) := by
    apply BitVec.eq_of_getLsbD_eq
    intro j hj
    have h1 := splice_bit (s.cell (cellKey d f.off)) f.sh f.w (s.g d f) j hj
    rw [h1]
    split
    · next hin =>
      unfold State.g
      rw [Nat.testBit_mod_two_pow, part_bit]
      have e : f.sh + (j - f.sh) = j := by omega
      have l : j - f.sh < f.w := by omega
      simp [e, l]
    · rfl
  unfold State.p State.setCell
  rw [hc]
  have := SMap.set_get cellRst s.rf (cellKey d f.off) h
  unfold State.cell
  rw [this]

end Sys2Proof.Machine
end

