-- ==== Sys2Proof/Laws/State.lean ====
section
/-!
SUPPORT. What each named update of the state leaves alone: the update as a whole with its own fields put back, and one lemma per field,
so that no later proof unfolds a record update.
-/

namespace Sys2Proof.Machine

variable (s : State)

/-! ## The updates as a whole -/

/-- `setCell` writes `rf` only. -/
theorem State.setCell_frame (k : Nat) (v : DWord) : { s.setCell k v with rf := s.rf } = s := by simp only [State.setCell]
/-- `p` writes `rf` only. -/
theorem State.p_frame (d : Nat) (f : Fld) (v : Nat) : { s.p d f v with rf := s.rf } = s := State.setCell_frame s _ _
/-- `setBit` writes `rf` only. -/
theorem State.setBit_frame (d : Nat) (f : Fld) (n : Nat) : { s.setBit d f n with rf := s.rf } = s := State.p_frame s _ _ _
/-- `clrBit` writes `rf` only. -/
theorem State.clrBit_frame (d : Nat) (f : Fld) (n : Nat) : { s.clrBit d f n with rf := s.rf } = s := State.p_frame s _ _ _
/-- `setClk` writes `clk` only. -/
theorem State.setClk_frame (d : Nat) (c : ClkSt) : { s.setClk d c with clk := s.clk } = s := by simp only [State.setClk]
/-- `setSnt` writes `snt` only. -/
theorem State.setSnt_frame (d : Nat) (c : SntSt) : { s.setSnt d c with snt := s.snt } = s := by simp only [State.setSnt]
/-- `setLad` writes `lad` only. -/
theorem State.setLad_frame (d : Nat) (c : LadSt) : { s.setLad d c with lad := s.lad } = s := by simp only [State.setLad]
/-- `setMbox` writes `mbox` only. -/
theorem State.setMbox_frame (d : Nat) (c : MboxSt) : { s.setMbox d c with mbox := s.mbox } = s := by simp only [State.setMbox]
/-- `setCk` writes `ckmux` only. -/
theorem State.setCk_frame (d i : Nat) (c : CkMux2) : { s.setCk d i c with ckmux := s.ckmux } = s := by simp only [State.setCk]
/-- `setMon` writes `mon` only. -/
theorem State.setMon_frame (d m : Nat) (c : MonWin) : { s.setMon d m c with mon := s.mon } = s := by simp only [State.setMon]
/-- `setEv` writes `evs` only. -/
theorem State.setEv_frame (r n : Nat) (c : EvSrc) : { s.setEv r n c with evs := s.evs } = s := by simp only [State.setEv]
/-- `setBankWord` writes `bnk` only. -/
theorem State.setBankWord_frame (B w : Nat) (x : BWord) : { s.setBankWord B w x with bnk := s.bnk } = s := by simp only [State.setBankWord]
/-- `setBankSt` writes `bnk` only. -/
theorem State.setBankSt_frame (B : Nat) (x : BankSt) : { s.setBankSt B x with bnk := s.bnk } = s := by simp only [State.setBankSt]
/-- `setDcell` writes `drm` only. -/
theorem State.setDcell_frame (ch w : Nat) (x : DCell) : { s.setDcell ch w x with drm := s.drm } = s := by simp only [State.setDcell]
/-- `setDsub` writes `drm` only. -/
theorem State.setDsub_frame (k : Nat) (x : DSub) : { s.setDsub k x with drm := s.drm } = s := by simp only [State.setDsub]
/-- `setTrainCopy` writes `drm` only. -/
theorem State.setTrainCopy_frame (ch : Nat) (x : Bool) : { s.setTrainCopy ch x with drm := s.drm } = s := by simp only [State.setTrainCopy]
/-- `setMee` writes `drm` only. -/
theorem State.setMee_frame (ch : Nat) (x : MeeSt) : { s.setMee ch x with drm := s.drm } = s := by simp only [State.setMee]
/-- `setFrameWord` writes `cfg` only. -/
theorem State.setFrameWord_frame (d fa w : Nat) (v : DWord) : { s.setFrameWord d fa w v with cfg := s.cfg } = s :=
  by simp only [State.setFrameWord]
/-- `setSig` writes `cfg` only. -/
theorem State.setSig_frame (d fa : Nat) (v : Word) : { s.setSig d fa v with cfg := s.cfg } = s := by simp only [State.setSig]
/-- `setDynMark` writes `cfg` only. -/
theorem State.setDynMark_frame (d fa : Nat) (v : Bool) : { s.setDynMark d fa v with cfg := s.cfg } = s := by simp only [State.setDynMark]
/-- `setCfg` writes `cfg` only. -/
theorem State.setCfg_frame (c : CfgSt) : { s.setCfg c with cfg := s.cfg } = s := by simp only [State.setCfg]
/-- `setWarm` writes `cfg` only. -/
theorem State.setWarm_frame (d : Nat) (x : WarmSt) : { s.setWarm d x with cfg := s.cfg } = s := by simp only [State.setWarm]
/-- `setHeld` writes `cfg` only. -/
theorem State.setHeld_frame (d : Nat) (x : List (Nat × Word)) : { s.setHeld d x with cfg := s.cfg } = s := by simp only [State.setHeld]
/-- `setParse` writes `cfg` only. -/
theorem State.setParse_frame (p : ParseSt) : { s.setParse p with cfg := s.cfg } = s := by simp only [State.setParse]
/-- `setFlash` writes `cfg` only. -/
theorem State.setFlash_frame (f : FlashSt) : { s.setFlash f with cfg := s.cfg } = s := by simp only [State.setFlash]
/-- `setDesign` writes `fab` only. -/
theorem State.setDesign_frame (d : Nat) (x : DieDesign) : { s.setDesign d x with fab := s.fab } = s := by simp only [State.setDesign]
/-- `setPins` writes `fab` only. -/
theorem State.setPins_frame (d : Nat) (x : PinMode) : { s.setPins d x with fab := s.fab } = s := by simp only [State.setPins]
/-- `setFf` writes `fab` only. -/
theorem State.setFf_frame (d k : Nat) (v : Bool) : { s.setFf d k v with fab := s.fab } = s := by simp only [State.setFf]
/-- `setLut` writes `fab` only. -/
theorem State.setLut_frame (d k : Nat) (v : DWord) : { s.setLut d k v with fab := s.fab } = s := by simp only [State.setLut]
/-- `setChain` writes `fab` only. -/
theorem State.setChain_frame (d k : Nat) (x : ChainSt) : { s.setChain d k x with fab := s.fab } = s := by simp only [State.setChain]
/-- `setIo` writes `fab` only. -/
theorem State.setIo_frame (d p : Nat) (x : IoCell) : { s.setIo d p x with fab := s.fab } = s := by simp only [State.setIo]
/-- `setBmem` writes `fab` only. -/
theorem State.setBmem_frame (d k : Nat) (x : Bmem) : { s.setBmem d k x with fab := s.fab } = s := by simp only [State.setBmem]
/-- `setArith` writes `fab` only. -/
theorem State.setArith_frame (d k : Nat) (x : Arith) : { s.setArith d k x with fab := s.fab } = s := by simp only [State.setArith]
/-- `setSnap` writes `fab` only. -/
theorem State.setSnap_frame (d : Nat) (x : Snap) : { s.setSnap d x with fab := s.fab } = s := by simp only [State.setSnap]
/-- `setRb` writes `fab` only. -/
theorem State.setRb_frame (d : Nat) (x : Option RbSt) : { s.setRb d x with fab := s.fab } = s := by simp only [State.setRb]
/-- `setNport` writes `fab` only. -/
theorem State.setNport_frame (d p : Nat) (x : Nport) : { s.setNport d p x with fab := s.fab } = s := by simp only [State.setNport]
/-- `setPr` writes `fab` only. -/
theorem State.setPr_frame (d r : Nat) (x : PrSt) : { s.setPr d r x with fab := s.fab } = s := by simp only [State.setPr]
/-- `setSeLate` writes `se` only. -/
theorem State.setSeLate_frame (d i : Nat) (l : List SeLate) : { s.setSeLate d i l with se := s.se } = s := by simp only [State.setSeLate]
/-- `setDmWord` writes `se` only. -/
theorem State.setDmWord_frame (d i w : Nat) (x : BWord) : { s.setDmWord d i w x with se := s.se } = s := by simp only [State.setDmWord]
/-- `setPmWord` writes `se` only. -/
theorem State.setPmWord_frame (d i n : Nat) (x : BitVec 39) : { s.setPmWord d i n x with se := s.se } = s := by simp only [State.setPmWord]
/-- `setLane` writes `lan` only. -/
theorem State.setLane_frame (d n : Nat) (x : LaneSt) : { s.setLane d n x with lan := s.lan } = s := by simp only [State.setLane]
/-- `setPair` writes `lan` only. -/
theorem State.setPair_frame (d k : Nat) (x : PairSt) : { s.setPair d k x with lan := s.lan } = s := by simp only [State.setPair]
/-- `setQclk` writes `lan` only. -/
theorem State.setQclk_frame (d q hz : Nat) : { s.setQclk d q hz with lan := s.lan } = s := by simp only [State.setQclk]
/-- `setPen` writes `pen` only. -/
theorem State.setPen_frame (x : PenSt) : { s.setPen x with pen := s.pen } = s := by simp only [State.setPen]
/-- `setL2` writes `pen` only. -/
theorem State.setL2_frame (t i : Nat) (x : Option L2Ent) : { s.setL2 t i x with pen := s.pen } = s :=
  by simp only [State.setL2, State.setPen]
/-- `setWindow` writes `pen` only. -/
theorem State.setWindow_frame (t i : Nat) (x : Bool) : { s.setWindow t i x with pen := s.pen } = s :=
  by simp only [State.setWindow, State.setPen]
/-- `setVlanWord` writes `pen` only. -/
theorem State.setVlanWord_frame (d v w : Nat) (x : Word) : { s.setVlanWord d v w x with pen := s.pen } = s :=
  by simp only [State.setVlanWord, State.setPen]
/-- `setNhop` writes `pen` only. -/
theorem State.setNhop_frame (d i : Nat) (x : Word) : { s.setNhop d i x with pen := s.pen } = s :=
  by simp only [State.setNhop, State.setPen]
/-- `setPaused` writes `pen` only. -/
theorem State.setPaused_frame (d e q : Nat) (x : Bool) : { s.setPaused d e q x with pen := s.pen } = s :=
  by simp only [State.setPaused, State.setPen]
/-- `setDeficit` writes `pen` only. -/
theorem State.setDeficit_frame (d e q x : Nat) : { s.setDeficit d e q x with pen := s.pen } = s :=
  by simp only [State.setDeficit, State.setPen]
/-- `setDrr` writes `pen` only. -/
theorem State.setDrr_frame (d e : Nat) (x : DrrSt) : { s.setDrr d e x with pen := s.pen } = s := by simp only [State.setDrr, State.setPen]
/-- `setHello` writes `pen` only. -/
theorem State.setHello_frame (d p : Nat) (x : HelloSt) : { s.setHello d p x with pen := s.pen } = s :=
  by simp only [State.setHello, State.setPen]
/-- `setRingAck` writes `pen` only. -/
theorem State.setRingAck_frame (d r : Nat) (x : Option Resp) : { s.setRingAck d r x with pen := s.pen } = s :=
  by simp only [State.setRingAck, State.setPen]
/-- `setAir` writes `pen` only. -/
theorem State.setAir_frame (d e : Nat) (x : List TrunkFrame) : { s.setAir d e x with pen := s.pen } = s :=
  by simp only [State.setAir, State.setPen]
/-- `setYout` writes `pen` only. -/
theorem State.setYout_frame (d : Nat) (x : List Frame) : { s.setYout d x with pen := s.pen } = s :=
  by simp only [State.setYout, State.setPen]
/-- `setCopy` writes `coh` only. -/
theorem State.setCopy_frame (q line : Nat) (x : Option CLine) : { s.setCopy q line x with coh := s.coh } = s :=
  by simp only [State.setCopy]
/-- `setDir` writes `coh` only. -/
theorem State.setDir_frame (line : Nat) (x : Option DirEnt) : { s.setDir line x with coh := s.coh } = s := by simp only [State.setDir]
/-- `setNet` writes `coh` only. -/
theorem State.setNet_frame (rid tag : Nat) (x : Option NetReq) : { s.setNet rid tag x with coh := s.coh } = s :=
  by simp only [State.setNet]
/-- `setHart` writes `harts` only. -/
theorem State.setHart_frame (k : Nat) (x : HartSt) : { s.setHart k x with harts := s.harts } = s := by simp only [State.setHart]
/-- `setSec` writes `sec` only. -/
theorem State.setSec_frame (x : SecSt) : { s.setSec x with sec := s.sec } = s := by simp only [State.setSec]
/-- `setFuses` writes `sec` only. -/
theorem State.setFuses_frame (x : Fuses) : { s.setFuses x with sec := s.sec } = s := by simp only [State.setFuses]
/-- `setXing` writes `fab` only. -/
theorem State.setXing_frame (k : Nat) (v : XingSt) : { s.setXing k v with fab := s.fab } = s := by simp only [State.setXing]
/-- `setLinkTx` writes `bdl` only. -/
theorem State.setLinkTx_frame (d e m : Nat) (x : LinkTx) : { s.setLinkTx d e m x with bdl := s.bdl } = s := by simp only [State.setLinkTx]
/-- `setLinkRx` writes `bdl` only. -/
theorem State.setLinkRx_frame (d e m : Nat) (x : LinkRx) : { s.setLinkRx d e m x with bdl := s.bdl } = s := by simp only [State.setLinkRx]
/-- `setCapsIn` writes `bdl` only. -/
theorem State.setCapsIn_frame (d e : Nat) (x : CapsIn) : { s.setCapsIn d e x with bdl := s.bdl } = s := by simp only [State.setCapsIn]
/-- `setRawRx` writes `bdl` only. -/
theorem State.setRawRx_frame (d : Nat) (l : List (List Byte)) : { s.setRawRx d l with bdl := s.bdl } = s := by simp only [State.setRawRx]
/-- `setTestLeft` writes `bdl` only. -/
theorem State.setTestLeft_frame (d n : Nat) : { s.setTestLeft d n with bdl := s.bdl } = s := by simp only [State.setTestLeft]
/-- `setEdge` writes `rf` only. -/
theorem State.setEdge_frame (d e v : Nat) : { s.setEdge d e v with rf := s.rf } = s := State.p_frame s _ _ _
/-- `setSeState` writes `rf` only. -/
theorem State.setSeState_frame (d i v : Nat) : { s.setSeState d i v with rf := s.rf } = s := State.p_frame s _ _ _
/-- `setCore` writes `rf` only. -/
theorem State.setCore_frame (d c v : Nat) : { s.setCore d c v with rf := s.rf } = s := State.p_frame s _ _ _

/-! ## The updates that leave `pending` alone -/

@[simp] theorem State.setCell_pending (k : Nat) (v : DWord) : (s.setCell k v).pending = s.pending := by simp only [State.setCell]
@[simp] theorem State.p_pending (d : Nat) (f : Fld) (v : Nat) : (s.p d f v).pending = s.pending :=
  by simp only [State.p, State.setCell_pending]
@[simp] theorem State.setMbox_pending (d : Nat) (c : MboxSt) : (s.setMbox d c).pending = s.pending := by simp only [State.setMbox]
@[simp] theorem State.setDsub_pending (k : Nat) (x : DSub) : (s.setDsub k x).pending = s.pending := by simp only [State.setDsub]
@[simp] theorem State.setWarm_pending (d : Nat) (x : WarmSt) : (s.setWarm d x).pending = s.pending := by simp only [State.setWarm]
@[simp] theorem State.setLut_pending (d k : Nat) (v : DWord) : (s.setLut d k v).pending = s.pending := by simp only [State.setLut]
@[simp] theorem State.setFifo_pending (d n : Nat) (x : Pfifo) : (s.setFifo d n x).pending = s.pending :=
  by simp only [State.setFifo, State.p_pending]
@[simp] theorem State.setDmWord_pending (d i w : Nat) (x : BWord) : (s.setDmWord d i w x).pending = s.pending :=
  by simp only [State.setDmWord]
@[simp] theorem State.setL2_pending (t i : Nat) (x : Option L2Ent) : (s.setL2 t i x).pending = s.pending :=
  by simp only [State.setL2, State.setPen]
@[simp] theorem State.setHello_pending (d p : Nat) (x : HelloSt) : (s.setHello d p x).pending = s.pending :=
  by simp only [State.setHello, State.setPen]
@[simp] theorem State.setHart_pending (k : Nat) (x : HartSt) : (s.setHart k x).pending = s.pending := by simp only [State.setHart]
@[simp] theorem State.setRawRx_pending (d : Nat) (l : List (List Byte)) : (s.setRawRx d l).pending = s.pending :=
  by simp only [State.setRawRx]
@[simp] theorem State.setBit_pending (d : Nat) (f : Fld) (n : Nat) : (s.setBit d f n).pending = s.pending :=
  by simp only [State.setBit, State.p_pending]
@[simp] theorem State.setMon_pending (d m : Nat) (c : MonWin) : (s.setMon d m c).pending = s.pending := by simp only [State.setMon]
@[simp] theorem State.setMee_pending (ch : Nat) (x : MeeSt) : (s.setMee ch x).pending = s.pending := by simp only [State.setMee]
@[simp] theorem State.setParse_pending (p : ParseSt) : (s.setParse p).pending = s.pending := by simp only [State.setParse]
@[simp] theorem State.setIo_pending (d p : Nat) (x : IoCell) : (s.setIo d p x).pending = s.pending := by simp only [State.setIo]
@[simp] theorem State.setNport_pending (d p : Nat) (x : Nport) : (s.setNport d p x).pending = s.pending := by simp only [State.setNport]
@[simp] theorem State.setLane_pending (d n : Nat) (x : LaneSt) : (s.setLane d n x).pending = s.pending := by simp only [State.setLane]
@[simp] theorem State.setVlanWord_pending (d v w : Nat) (x : Word) : (s.setVlanWord d v w x).pending = s.pending :=
  by simp only [State.setVlanWord, State.setPen]
@[simp] theorem State.setAir_pending (d e : Nat) (x : List TrunkFrame) : (s.setAir d e x).pending = s.pending :=
  by simp only [State.setAir, State.setPen]
@[simp] theorem State.setFuses_pending (x : Fuses) : (s.setFuses x).pending = s.pending := by simp only [State.setFuses]
@[simp] theorem State.setEdge_pending (d e v : Nat) : (s.setEdge d e v).pending = s.pending :=
  by simp only [State.setEdge, State.p_pending]
@[simp] theorem State.setClk_pending (d : Nat) (c : ClkSt) : (s.setClk d c).pending = s.pending := by simp only [State.setClk]
@[simp] theorem State.setBankWord_pending (B w : Nat) (x : BWord) : (s.setBankWord B w x).pending = s.pending :=
  by simp only [State.setBankWord]
@[simp] theorem State.setSig_pending (d fa : Nat) (v : Word) : (s.setSig d fa v).pending = s.pending := by simp only [State.setSig]
@[simp] theorem State.setDesign_pending (d : Nat) (x : DieDesign) : (s.setDesign d x).pending = s.pending := by simp only [State.setDesign]
@[simp] theorem State.setArith_pending (d k : Nat) (x : Arith) : (s.setArith d k x).pending = s.pending := by simp only [State.setArith]
@[simp] theorem State.setSeu_pending (d : Nat) (x : List SeuEnt) : (s.setSeu d x).pending = s.pending :=
  by simp only [State.setSeu, State.p_pending]
@[simp] theorem State.setQclk_pending (d q hz : Nat) : (s.setQclk d q hz).pending = s.pending := by simp only [State.setQclk]
@[simp] theorem State.setPaused_pending (d e q : Nat) (x : Bool) : (s.setPaused d e q x).pending = s.pending :=
  by simp only [State.setPaused, State.setPen]
@[simp] theorem State.setCopy_pending (q line : Nat) (x : Option CLine) : (s.setCopy q line x).pending = s.pending :=
  by simp only [State.setCopy]
@[simp] theorem State.setLinkTx_pending (d e m : Nat) (x : LinkTx) : (s.setLinkTx d e m x).pending = s.pending :=
  by simp only [State.setLinkTx]
@[simp] theorem State.setCore_pending (d c v : Nat) : (s.setCore d c v).pending = s.pending :=
  by simp only [State.setCore, State.p_pending]
@[simp] theorem State.setLad_pending (d : Nat) (c : LadSt) : (s.setLad d c).pending = s.pending := by simp only [State.setLad]
@[simp] theorem State.setDcell_pending (ch w : Nat) (x : DCell) : (s.setDcell ch w x).pending = s.pending := by simp only [State.setDcell]
@[simp] theorem State.setCfg_pending (c : CfgSt) : (s.setCfg c).pending = s.pending := by simp only [State.setCfg]
@[simp] theorem State.setFf_pending (d k : Nat) (v : Bool) : (s.setFf d k v).pending = s.pending := by simp only [State.setFf]
@[simp] theorem State.setRb_pending (d : Nat) (x : Option RbSt) : (s.setRb d x).pending = s.pending := by simp only [State.setRb]
@[simp] theorem State.setSeLate_pending (d i : Nat) (l : List SeLate) : (s.setSeLate d i l).pending = s.pending :=
  by simp only [State.setSeLate]
@[simp] theorem State.setPenDie_pending (d : Nat) (x : PenDie) : (s.setPenDie d x).pending = s.pending :=
  by simp only [State.setPenDie, State.setPen, State.p_pending]
@[simp] theorem State.setDrr_pending (d e : Nat) (x : DrrSt) : (s.setDrr d e x).pending = s.pending :=
  by simp only [State.setDrr, State.setPen]
@[simp] theorem State.setNet_pending (rid tag : Nat) (x : Option NetReq) : (s.setNet rid tag x).pending = s.pending :=
  by simp only [State.setNet]
@[simp] theorem State.setCapsIn_pending (d e : Nat) (x : CapsIn) : (s.setCapsIn d e x).pending = s.pending :=
  by simp only [State.setCapsIn]
@[simp] theorem State.setCk_pending (d i : Nat) (c : CkMux2) : (s.setCk d i c).pending = s.pending := by simp only [State.setCk]
@[simp] theorem State.setTrainCopy_pending (ch : Nat) (x : Bool) : (s.setTrainCopy ch x).pending = s.pending :=
  by simp only [State.setTrainCopy]
@[simp] theorem State.setHeld_pending (d : Nat) (x : List (Nat × Word)) : (s.setHeld d x).pending = s.pending :=
  by simp only [State.setHeld]
@[simp] theorem State.setChain_pending (d k : Nat) (x : ChainSt) : (s.setChain d k x).pending = s.pending := by simp only [State.setChain]
@[simp] theorem State.setKslot_pending (d k : Nat) (x : Kslot) : (s.setKslot d k x).pending = s.pending :=
  by simp only [State.setKslot, State.p_pending]
@[simp] theorem State.setPmWord_pending (d i n : Nat) (x : BitVec 39) : (s.setPmWord d i n x).pending = s.pending :=
  by simp only [State.setPmWord]
@[simp] theorem State.setWindow_pending (t i : Nat) (x : Bool) : (s.setWindow t i x).pending = s.pending :=
  by simp only [State.setWindow, State.setPen]
@[simp] theorem State.setRingAck_pending (d r : Nat) (x : Option Resp) : (s.setRingAck d r x).pending = s.pending :=
  by simp only [State.setRingAck, State.setPen]
@[simp] theorem State.setSec_pending (x : SecSt) : (s.setSec x).pending = s.pending := by simp only [State.setSec]
@[simp] theorem State.setTestLeft_pending (d n : Nat) : (s.setTestLeft d n).pending = s.pending := by simp only [State.setTestLeft]
@[simp] theorem State.clrBit_pending (d : Nat) (f : Fld) (n : Nat) : (s.clrBit d f n).pending = s.pending :=
  by simp only [State.clrBit, State.p_pending]
@[simp] theorem State.setEv_pending (r n : Nat) (c : EvSrc) : (s.setEv r n c).pending = s.pending := by simp only [State.setEv]
@[simp] theorem State.setFrameWord_pending (d fa w : Nat) (v : DWord) : (s.setFrameWord d fa w v).pending = s.pending :=
  by simp only [State.setFrameWord]
@[simp] theorem State.setFlash_pending (f : FlashSt) : (s.setFlash f).pending = s.pending := by simp only [State.setFlash]
@[simp] theorem State.setBmem_pending (d k : Nat) (x : Bmem) : (s.setBmem d k x).pending = s.pending := by simp only [State.setBmem]
@[simp] theorem State.setPr_pending (d r : Nat) (x : PrSt) : (s.setPr d r x).pending = s.pending := by simp only [State.setPr]
@[simp] theorem State.setPair_pending (d k : Nat) (x : PairSt) : (s.setPair d k x).pending = s.pending := by simp only [State.setPair]
@[simp] theorem State.setNhop_pending (d i : Nat) (x : Word) : (s.setNhop d i x).pending = s.pending :=
  by simp only [State.setNhop, State.setPen]
@[simp] theorem State.setYout_pending (d : Nat) (x : List Frame) : (s.setYout d x).pending = s.pending :=
  by simp only [State.setYout, State.setPen]
@[simp] theorem State.setXing_pending (k : Nat) (v : XingSt) : (s.setXing k v).pending = s.pending := by simp only [State.setXing]
@[simp] theorem State.setSeState_pending (d i v : Nat) : (s.setSeState d i v).pending = s.pending :=
  by simp only [State.setSeState, State.p_pending]
@[simp] theorem State.setSnt_pending (d : Nat) (c : SntSt) : (s.setSnt d c).pending = s.pending := by simp only [State.setSnt]
@[simp] theorem State.setBankSt_pending (B : Nat) (x : BankSt) : (s.setBankSt B x).pending = s.pending := by simp only [State.setBankSt]
@[simp] theorem State.setDynMark_pending (d fa : Nat) (v : Bool) : (s.setDynMark d fa v).pending = s.pending :=
  by simp only [State.setDynMark]
@[simp] theorem State.setPins_pending (d : Nat) (x : PinMode) : (s.setPins d x).pending = s.pending := by simp only [State.setPins]
@[simp] theorem State.setSnap_pending (d : Nat) (x : Snap) : (s.setSnap d x).pending = s.pending := by simp only [State.setSnap]
@[simp] theorem State.setEng_pending (d i : Nat) (e : SEng) : (s.setEng d i e).pending = s.pending :=
  by simp only [State.setEng, State.p_pending]
@[simp] theorem State.setPen_pending (x : PenSt) : (s.setPen x).pending = s.pending := by simp only [State.setPen]
@[simp] theorem State.setDeficit_pending (d e q x : Nat) : (s.setDeficit d e q x).pending = s.pending :=
  by simp only [State.setDeficit, State.setPen]
@[simp] theorem State.setDir_pending (line : Nat) (x : Option DirEnt) : (s.setDir line x).pending = s.pending :=
  by simp only [State.setDir]
@[simp] theorem State.setLinkRx_pending (d e m : Nat) (x : LinkRx) : (s.setLinkRx d e m x).pending = s.pending :=
  by simp only [State.setLinkRx]

/-! ## The updates that leave `reply` alone -/

@[simp] theorem State.setCell_reply (k : Nat) (v : DWord) : (s.setCell k v).reply = s.reply := by simp only [State.setCell]
@[simp] theorem State.p_reply (d : Nat) (f : Fld) (v : Nat) : (s.p d f v).reply = s.reply := by simp only [State.p, State.setCell_reply]
@[simp] theorem State.setMbox_reply (d : Nat) (c : MboxSt) : (s.setMbox d c).reply = s.reply := by simp only [State.setMbox]
@[simp] theorem State.setDsub_reply (k : Nat) (x : DSub) : (s.setDsub k x).reply = s.reply := by simp only [State.setDsub]
@[simp] theorem State.setWarm_reply (d : Nat) (x : WarmSt) : (s.setWarm d x).reply = s.reply := by simp only [State.setWarm]
@[simp] theorem State.setLut_reply (d k : Nat) (v : DWord) : (s.setLut d k v).reply = s.reply := by simp only [State.setLut]
@[simp] theorem State.setFifo_reply (d n : Nat) (x : Pfifo) : (s.setFifo d n x).reply = s.reply :=
  by simp only [State.setFifo, State.p_reply]
@[simp] theorem State.setDmWord_reply (d i w : Nat) (x : BWord) : (s.setDmWord d i w x).reply = s.reply := by simp only [State.setDmWord]
@[simp] theorem State.setL2_reply (t i : Nat) (x : Option L2Ent) : (s.setL2 t i x).reply = s.reply :=
  by simp only [State.setL2, State.setPen]
@[simp] theorem State.setHello_reply (d p : Nat) (x : HelloSt) : (s.setHello d p x).reply = s.reply :=
  by simp only [State.setHello, State.setPen]
@[simp] theorem State.setHart_reply (k : Nat) (x : HartSt) : (s.setHart k x).reply = s.reply := by simp only [State.setHart]
@[simp] theorem State.setRawRx_reply (d : Nat) (l : List (List Byte)) : (s.setRawRx d l).reply = s.reply := by simp only [State.setRawRx]
@[simp] theorem State.setBit_reply (d : Nat) (f : Fld) (n : Nat) : (s.setBit d f n).reply = s.reply :=
  by simp only [State.setBit, State.p_reply]
@[simp] theorem State.setMon_reply (d m : Nat) (c : MonWin) : (s.setMon d m c).reply = s.reply := by simp only [State.setMon]
@[simp] theorem State.setMee_reply (ch : Nat) (x : MeeSt) : (s.setMee ch x).reply = s.reply := by simp only [State.setMee]
@[simp] theorem State.setParse_reply (p : ParseSt) : (s.setParse p).reply = s.reply := by simp only [State.setParse]
@[simp] theorem State.setIo_reply (d p : Nat) (x : IoCell) : (s.setIo d p x).reply = s.reply := by simp only [State.setIo]
@[simp] theorem State.setNport_reply (d p : Nat) (x : Nport) : (s.setNport d p x).reply = s.reply := by simp only [State.setNport]
@[simp] theorem State.setLane_reply (d n : Nat) (x : LaneSt) : (s.setLane d n x).reply = s.reply := by simp only [State.setLane]
@[simp] theorem State.setVlanWord_reply (d v w : Nat) (x : Word) : (s.setVlanWord d v w x).reply = s.reply :=
  by simp only [State.setVlanWord, State.setPen]
@[simp] theorem State.setAir_reply (d e : Nat) (x : List TrunkFrame) : (s.setAir d e x).reply = s.reply :=
  by simp only [State.setAir, State.setPen]
@[simp] theorem State.setFuses_reply (x : Fuses) : (s.setFuses x).reply = s.reply := by simp only [State.setFuses]
@[simp] theorem State.setEdge_reply (d e v : Nat) : (s.setEdge d e v).reply = s.reply := by simp only [State.setEdge, State.p_reply]
@[simp] theorem State.setClk_reply (d : Nat) (c : ClkSt) : (s.setClk d c).reply = s.reply := by simp only [State.setClk]
@[simp] theorem State.setBankWord_reply (B w : Nat) (x : BWord) : (s.setBankWord B w x).reply = s.reply := by simp only [State.setBankWord]
@[simp] theorem State.setSig_reply (d fa : Nat) (v : Word) : (s.setSig d fa v).reply = s.reply := by simp only [State.setSig]
@[simp] theorem State.setDesign_reply (d : Nat) (x : DieDesign) : (s.setDesign d x).reply = s.reply := by simp only [State.setDesign]
@[simp] theorem State.setArith_reply (d k : Nat) (x : Arith) : (s.setArith d k x).reply = s.reply := by simp only [State.setArith]
@[simp] theorem State.setSeu_reply (d : Nat) (x : List SeuEnt) : (s.setSeu d x).reply = s.reply :=
  by simp only [State.setSeu, State.p_reply]
@[simp] theorem State.setQclk_reply (d q hz : Nat) : (s.setQclk d q hz).reply = s.reply := by simp only [State.setQclk]
@[simp] theorem State.setPaused_reply (d e q : Nat) (x : Bool) : (s.setPaused d e q x).reply = s.reply :=
  by simp only [State.setPaused, State.setPen]
@[simp] theorem State.setCopy_reply (q line : Nat) (x : Option CLine) : (s.setCopy q line x).reply = s.reply :=
  by simp only [State.setCopy]
@[simp] theorem State.setLinkTx_reply (d e m : Nat) (x : LinkTx) : (s.setLinkTx d e m x).reply = s.reply := by simp only [State.setLinkTx]
@[simp] theorem State.setCore_reply (d c v : Nat) : (s.setCore d c v).reply = s.reply := by simp only [State.setCore, State.p_reply]
@[simp] theorem State.setLad_reply (d : Nat) (c : LadSt) : (s.setLad d c).reply = s.reply := by simp only [State.setLad]
@[simp] theorem State.setDcell_reply (ch w : Nat) (x : DCell) : (s.setDcell ch w x).reply = s.reply := by simp only [State.setDcell]
@[simp] theorem State.setCfg_reply (c : CfgSt) : (s.setCfg c).reply = s.reply := by simp only [State.setCfg]
@[simp] theorem State.setFf_reply (d k : Nat) (v : Bool) : (s.setFf d k v).reply = s.reply := by simp only [State.setFf]
@[simp] theorem State.setRb_reply (d : Nat) (x : Option RbSt) : (s.setRb d x).reply = s.reply := by simp only [State.setRb]
@[simp] theorem State.setSeLate_reply (d i : Nat) (l : List SeLate) : (s.setSeLate d i l).reply = s.reply := by simp only [State.setSeLate]
@[simp] theorem State.setPenDie_reply (d : Nat) (x : PenDie) : (s.setPenDie d x).reply = s.reply :=
  by simp only [State.setPenDie, State.setPen, State.p_reply]
@[simp] theorem State.setDrr_reply (d e : Nat) (x : DrrSt) : (s.setDrr d e x).reply = s.reply := by simp only [State.setDrr, State.setPen]
@[simp] theorem State.setNet_reply (rid tag : Nat) (x : Option NetReq) : (s.setNet rid tag x).reply = s.reply :=
  by simp only [State.setNet]
@[simp] theorem State.setCapsIn_reply (d e : Nat) (x : CapsIn) : (s.setCapsIn d e x).reply = s.reply := by simp only [State.setCapsIn]
@[simp] theorem State.setCk_reply (d i : Nat) (c : CkMux2) : (s.setCk d i c).reply = s.reply := by simp only [State.setCk]
@[simp] theorem State.setTrainCopy_reply (ch : Nat) (x : Bool) : (s.setTrainCopy ch x).reply = s.reply := by simp only [State.setTrainCopy]
@[simp] theorem State.setHeld_reply (d : Nat) (x : List (Nat × Word)) : (s.setHeld d x).reply = s.reply := by simp only [State.setHeld]
@[simp] theorem State.setChain_reply (d k : Nat) (x : ChainSt) : (s.setChain d k x).reply = s.reply := by simp only [State.setChain]
@[simp] theorem State.setKslot_reply (d k : Nat) (x : Kslot) : (s.setKslot d k x).reply = s.reply :=
  by simp only [State.setKslot, State.p_reply]
@[simp] theorem State.setPmWord_reply (d i n : Nat) (x : BitVec 39) : (s.setPmWord d i n x).reply = s.reply :=
  by simp only [State.setPmWord]
@[simp] theorem State.setWindow_reply (t i : Nat) (x : Bool) : (s.setWindow t i x).reply = s.reply :=
  by simp only [State.setWindow, State.setPen]
@[simp] theorem State.setRingAck_reply (d r : Nat) (x : Option Resp) : (s.setRingAck d r x).reply = s.reply :=
  by simp only [State.setRingAck, State.setPen]
@[simp] theorem State.setSec_reply (x : SecSt) : (s.setSec x).reply = s.reply := by simp only [State.setSec]
@[simp] theorem State.setTestLeft_reply (d n : Nat) : (s.setTestLeft d n).reply = s.reply := by simp only [State.setTestLeft]
@[simp] theorem State.clrBit_reply (d : Nat) (f : Fld) (n : Nat) : (s.clrBit d f n).reply = s.reply :=
  by simp only [State.clrBit, State.p_reply]
@[simp] theorem State.setEv_reply (r n : Nat) (c : EvSrc) : (s.setEv r n c).reply = s.reply := by simp only [State.setEv]
@[simp] theorem State.setFrameWord_reply (d fa w : Nat) (v : DWord) : (s.setFrameWord d fa w v).reply = s.reply :=
  by simp only [State.setFrameWord]
@[simp] theorem State.setFlash_reply (f : FlashSt) : (s.setFlash f).reply = s.reply := by simp only [State.setFlash]
@[simp] theorem State.setBmem_reply (d k : Nat) (x : Bmem) : (s.setBmem d k x).reply = s.reply := by simp only [State.setBmem]
@[simp] theorem State.setPr_reply (d r : Nat) (x : PrSt) : (s.setPr d r x).reply = s.reply := by simp only [State.setPr]
@[simp] theorem State.setPair_reply (d k : Nat) (x : PairSt) : (s.setPair d k x).reply = s.reply := by simp only [State.setPair]
@[simp] theorem State.setNhop_reply (d i : Nat) (x : Word) : (s.setNhop d i x).reply = s.reply :=
  by simp only [State.setNhop, State.setPen]
@[simp] theorem State.setYout_reply (d : Nat) (x : List Frame) : (s.setYout d x).reply = s.reply :=
  by simp only [State.setYout, State.setPen]
@[simp] theorem State.setXing_reply (k : Nat) (v : XingSt) : (s.setXing k v).reply = s.reply := by simp only [State.setXing]
@[simp] theorem State.setSeState_reply (d i v : Nat) : (s.setSeState d i v).reply = s.reply :=
  by simp only [State.setSeState, State.p_reply]
@[simp] theorem State.setSnt_reply (d : Nat) (c : SntSt) : (s.setSnt d c).reply = s.reply := by simp only [State.setSnt]
@[simp] theorem State.setBankSt_reply (B : Nat) (x : BankSt) : (s.setBankSt B x).reply = s.reply := by simp only [State.setBankSt]
@[simp] theorem State.setDynMark_reply (d fa : Nat) (v : Bool) : (s.setDynMark d fa v).reply = s.reply := by simp only [State.setDynMark]
@[simp] theorem State.setPins_reply (d : Nat) (x : PinMode) : (s.setPins d x).reply = s.reply := by simp only [State.setPins]
@[simp] theorem State.setSnap_reply (d : Nat) (x : Snap) : (s.setSnap d x).reply = s.reply := by simp only [State.setSnap]
@[simp] theorem State.setEng_reply (d i : Nat) (e : SEng) : (s.setEng d i e).reply = s.reply := by simp only [State.setEng, State.p_reply]
@[simp] theorem State.setPen_reply (x : PenSt) : (s.setPen x).reply = s.reply := by simp only [State.setPen]
@[simp] theorem State.setDeficit_reply (d e q x : Nat) : (s.setDeficit d e q x).reply = s.reply :=
  by simp only [State.setDeficit, State.setPen]
@[simp] theorem State.setDir_reply (line : Nat) (x : Option DirEnt) : (s.setDir line x).reply = s.reply := by simp only [State.setDir]
@[simp] theorem State.setLinkRx_reply (d e m : Nat) (x : LinkRx) : (s.setLinkRx d e m x).reply = s.reply := by simp only [State.setLinkRx]

/-! ## The updates that leave `fresh` alone -/

@[simp] theorem State.setCell_fresh (k : Nat) (v : DWord) : (s.setCell k v).fresh = s.fresh := by simp only [State.setCell]
@[simp] theorem State.p_fresh (d : Nat) (f : Fld) (v : Nat) : (s.p d f v).fresh = s.fresh := by simp only [State.p, State.setCell_fresh]
@[simp] theorem State.setMbox_fresh (d : Nat) (c : MboxSt) : (s.setMbox d c).fresh = s.fresh := by simp only [State.setMbox]
@[simp] theorem State.setDsub_fresh (k : Nat) (x : DSub) : (s.setDsub k x).fresh = s.fresh := by simp only [State.setDsub]
@[simp] theorem State.setWarm_fresh (d : Nat) (x : WarmSt) : (s.setWarm d x).fresh = s.fresh := by simp only [State.setWarm]
@[simp] theorem State.setLut_fresh (d k : Nat) (v : DWord) : (s.setLut d k v).fresh = s.fresh := by simp only [State.setLut]
@[simp] theorem State.setFifo_fresh (d n : Nat) (x : Pfifo) : (s.setFifo d n x).fresh = s.fresh :=
  by simp only [State.setFifo, State.p_fresh]
@[simp] theorem State.setDmWord_fresh (d i w : Nat) (x : BWord) : (s.setDmWord d i w x).fresh = s.fresh := by simp only [State.setDmWord]
@[simp] theorem State.setL2_fresh (t i : Nat) (x : Option L2Ent) : (s.setL2 t i x).fresh = s.fresh :=
  by simp only [State.setL2, State.setPen]
@[simp] theorem State.setHello_fresh (d p : Nat) (x : HelloSt) : (s.setHello d p x).fresh = s.fresh :=
  by simp only [State.setHello, State.setPen]
@[simp] theorem State.setHart_fresh (k : Nat) (x : HartSt) : (s.setHart k x).fresh = s.fresh := by simp only [State.setHart]
@[simp] theorem State.setRawRx_fresh (d : Nat) (l : List (List Byte)) : (s.setRawRx d l).fresh = s.fresh := by simp only [State.setRawRx]
@[simp] theorem State.setBit_fresh (d : Nat) (f : Fld) (n : Nat) : (s.setBit d f n).fresh = s.fresh :=
  by simp only [State.setBit, State.p_fresh]
@[simp] theorem State.setMon_fresh (d m : Nat) (c : MonWin) : (s.setMon d m c).fresh = s.fresh := by simp only [State.setMon]
@[simp] theorem State.setMee_fresh (ch : Nat) (x : MeeSt) : (s.setMee ch x).fresh = s.fresh := by simp only [State.setMee]
@[simp] theorem State.setParse_fresh (p : ParseSt) : (s.setParse p).fresh = s.fresh := by simp only [State.setParse]
@[simp] theorem State.setIo_fresh (d p : Nat) (x : IoCell) : (s.setIo d p x).fresh = s.fresh := by simp only [State.setIo]
@[simp] theorem State.setNport_fresh (d p : Nat) (x : Nport) : (s.setNport d p x).fresh = s.fresh := by simp only [State.setNport]
@[simp] theorem State.setLane_fresh (d n : Nat) (x : LaneSt) : (s.setLane d n x).fresh = s.fresh := by simp only [State.setLane]
@[simp] theorem State.setVlanWord_fresh (d v w : Nat) (x : Word) : (s.setVlanWord d v w x).fresh = s.fresh :=
  by simp only [State.setVlanWord, State.setPen]
@[simp] theorem State.setAir_fresh (d e : Nat) (x : List TrunkFrame) : (s.setAir d e x).fresh = s.fresh :=
  by simp only [State.setAir, State.setPen]
@[simp] theorem State.setFuses_fresh (x : Fuses) : (s.setFuses x).fresh = s.fresh := by simp only [State.setFuses]
@[simp] theorem State.setEdge_fresh (d e v : Nat) : (s.setEdge d e v).fresh = s.fresh := by simp only [State.setEdge, State.p_fresh]
@[simp] theorem State.setClk_fresh (d : Nat) (c : ClkSt) : (s.setClk d c).fresh = s.fresh := by simp only [State.setClk]
@[simp] theorem State.setBankWord_fresh (B w : Nat) (x : BWord) : (s.setBankWord B w x).fresh = s.fresh := by simp only [State.setBankWord]
@[simp] theorem State.setSig_fresh (d fa : Nat) (v : Word) : (s.setSig d fa v).fresh = s.fresh := by simp only [State.setSig]
@[simp] theorem State.setDesign_fresh (d : Nat) (x : DieDesign) : (s.setDesign d x).fresh = s.fresh := by simp only [State.setDesign]
@[simp] theorem State.setArith_fresh (d k : Nat) (x : Arith) : (s.setArith d k x).fresh = s.fresh := by simp only [State.setArith]
@[simp] theorem State.setSeu_fresh (d : Nat) (x : List SeuEnt) : (s.setSeu d x).fresh = s.fresh :=
  by simp only [State.setSeu, State.p_fresh]
@[simp] theorem State.setQclk_fresh (d q hz : Nat) : (s.setQclk d q hz).fresh = s.fresh := by simp only [State.setQclk]
@[simp] theorem State.setPaused_fresh (d e q : Nat) (x : Bool) : (s.setPaused d e q x).fresh = s.fresh :=
  by simp only [State.setPaused, State.setPen]
@[simp] theorem State.setCopy_fresh (q line : Nat) (x : Option CLine) : (s.setCopy q line x).fresh = s.fresh :=
  by simp only [State.setCopy]
@[simp] theorem State.setLinkTx_fresh (d e m : Nat) (x : LinkTx) : (s.setLinkTx d e m x).fresh = s.fresh := by simp only [State.setLinkTx]
@[simp] theorem State.setCore_fresh (d c v : Nat) : (s.setCore d c v).fresh = s.fresh := by simp only [State.setCore, State.p_fresh]
@[simp] theorem State.setLad_fresh (d : Nat) (c : LadSt) : (s.setLad d c).fresh = s.fresh := by simp only [State.setLad]
@[simp] theorem State.setDcell_fresh (ch w : Nat) (x : DCell) : (s.setDcell ch w x).fresh = s.fresh := by simp only [State.setDcell]
@[simp] theorem State.setCfg_fresh (c : CfgSt) : (s.setCfg c).fresh = s.fresh := by simp only [State.setCfg]
@[simp] theorem State.setFf_fresh (d k : Nat) (v : Bool) : (s.setFf d k v).fresh = s.fresh := by simp only [State.setFf]
@[simp] theorem State.setRb_fresh (d : Nat) (x : Option RbSt) : (s.setRb d x).fresh = s.fresh := by simp only [State.setRb]
@[simp] theorem State.setSeLate_fresh (d i : Nat) (l : List SeLate) : (s.setSeLate d i l).fresh = s.fresh := by simp only [State.setSeLate]
@[simp] theorem State.setPenDie_fresh (d : Nat) (x : PenDie) : (s.setPenDie d x).fresh = s.fresh :=
  by simp only [State.setPenDie, State.setPen, State.p_fresh]
@[simp] theorem State.setDrr_fresh (d e : Nat) (x : DrrSt) : (s.setDrr d e x).fresh = s.fresh := by simp only [State.setDrr, State.setPen]
@[simp] theorem State.setNet_fresh (rid tag : Nat) (x : Option NetReq) : (s.setNet rid tag x).fresh = s.fresh :=
  by simp only [State.setNet]
@[simp] theorem State.setCapsIn_fresh (d e : Nat) (x : CapsIn) : (s.setCapsIn d e x).fresh = s.fresh := by simp only [State.setCapsIn]
@[simp] theorem State.setCk_fresh (d i : Nat) (c : CkMux2) : (s.setCk d i c).fresh = s.fresh := by simp only [State.setCk]
@[simp] theorem State.setTrainCopy_fresh (ch : Nat) (x : Bool) : (s.setTrainCopy ch x).fresh = s.fresh := by simp only [State.setTrainCopy]
@[simp] theorem State.setHeld_fresh (d : Nat) (x : List (Nat × Word)) : (s.setHeld d x).fresh = s.fresh := by simp only [State.setHeld]
@[simp] theorem State.setChain_fresh (d k : Nat) (x : ChainSt) : (s.setChain d k x).fresh = s.fresh := by simp only [State.setChain]
@[simp] theorem State.setKslot_fresh (d k : Nat) (x : Kslot) : (s.setKslot d k x).fresh = s.fresh :=
  by simp only [State.setKslot, State.p_fresh]
@[simp] theorem State.setPmWord_fresh (d i n : Nat) (x : BitVec 39) : (s.setPmWord d i n x).fresh = s.fresh :=
  by simp only [State.setPmWord]
@[simp] theorem State.setWindow_fresh (t i : Nat) (x : Bool) : (s.setWindow t i x).fresh = s.fresh :=
  by simp only [State.setWindow, State.setPen]
@[simp] theorem State.setRingAck_fresh (d r : Nat) (x : Option Resp) : (s.setRingAck d r x).fresh = s.fresh :=
  by simp only [State.setRingAck, State.setPen]
@[simp] theorem State.setSec_fresh (x : SecSt) : (s.setSec x).fresh = s.fresh := by simp only [State.setSec]
@[simp] theorem State.setTestLeft_fresh (d n : Nat) : (s.setTestLeft d n).fresh = s.fresh := by simp only [State.setTestLeft]
@[simp] theorem State.clrBit_fresh (d : Nat) (f : Fld) (n : Nat) : (s.clrBit d f n).fresh = s.fresh :=
  by simp only [State.clrBit, State.p_fresh]
@[simp] theorem State.setEv_fresh (r n : Nat) (c : EvSrc) : (s.setEv r n c).fresh = s.fresh := by simp only [State.setEv]
@[simp] theorem State.setFrameWord_fresh (d fa w : Nat) (v : DWord) : (s.setFrameWord d fa w v).fresh = s.fresh :=
  by simp only [State.setFrameWord]
@[simp] theorem State.setFlash_fresh (f : FlashSt) : (s.setFlash f).fresh = s.fresh := by simp only [State.setFlash]
@[simp] theorem State.setBmem_fresh (d k : Nat) (x : Bmem) : (s.setBmem d k x).fresh = s.fresh := by simp only [State.setBmem]
@[simp] theorem State.setPr_fresh (d r : Nat) (x : PrSt) : (s.setPr d r x).fresh = s.fresh := by simp only [State.setPr]
@[simp] theorem State.setPair_fresh (d k : Nat) (x : PairSt) : (s.setPair d k x).fresh = s.fresh := by simp only [State.setPair]
@[simp] theorem State.setNhop_fresh (d i : Nat) (x : Word) : (s.setNhop d i x).fresh = s.fresh :=
  by simp only [State.setNhop, State.setPen]
@[simp] theorem State.setYout_fresh (d : Nat) (x : List Frame) : (s.setYout d x).fresh = s.fresh :=
  by simp only [State.setYout, State.setPen]
@[simp] theorem State.setXing_fresh (k : Nat) (v : XingSt) : (s.setXing k v).fresh = s.fresh := by simp only [State.setXing]
@[simp] theorem State.setSeState_fresh (d i v : Nat) : (s.setSeState d i v).fresh = s.fresh :=
  by simp only [State.setSeState, State.p_fresh]
@[simp] theorem State.setSnt_fresh (d : Nat) (c : SntSt) : (s.setSnt d c).fresh = s.fresh := by simp only [State.setSnt]
@[simp] theorem State.setBankSt_fresh (B : Nat) (x : BankSt) : (s.setBankSt B x).fresh = s.fresh := by simp only [State.setBankSt]
@[simp] theorem State.setDynMark_fresh (d fa : Nat) (v : Bool) : (s.setDynMark d fa v).fresh = s.fresh := by simp only [State.setDynMark]
@[simp] theorem State.setPins_fresh (d : Nat) (x : PinMode) : (s.setPins d x).fresh = s.fresh := by simp only [State.setPins]
@[simp] theorem State.setSnap_fresh (d : Nat) (x : Snap) : (s.setSnap d x).fresh = s.fresh := by simp only [State.setSnap]
@[simp] theorem State.setEng_fresh (d i : Nat) (e : SEng) : (s.setEng d i e).fresh = s.fresh := by simp only [State.setEng, State.p_fresh]
@[simp] theorem State.setPen_fresh (x : PenSt) : (s.setPen x).fresh = s.fresh := by simp only [State.setPen]
@[simp] theorem State.setDeficit_fresh (d e q x : Nat) : (s.setDeficit d e q x).fresh = s.fresh :=
  by simp only [State.setDeficit, State.setPen]
@[simp] theorem State.setDir_fresh (line : Nat) (x : Option DirEnt) : (s.setDir line x).fresh = s.fresh := by simp only [State.setDir]
@[simp] theorem State.setLinkRx_fresh (d e m : Nat) (x : LinkRx) : (s.setLinkRx d e m x).fresh = s.fresh := by simp only [State.setLinkRx]

/-! ## The updates that leave `dev` alone -/

@[simp] theorem State.setCell_dev (k : Nat) (v : DWord) : (s.setCell k v).dev = s.dev := by simp only [State.setCell]
@[simp] theorem State.p_dev (d : Nat) (f : Fld) (v : Nat) : (s.p d f v).dev = s.dev := by simp only [State.p, State.setCell_dev]
@[simp] theorem State.setMbox_dev (d : Nat) (c : MboxSt) : (s.setMbox d c).dev = s.dev := by simp only [State.setMbox]
@[simp] theorem State.setDsub_dev (k : Nat) (x : DSub) : (s.setDsub k x).dev = s.dev := by simp only [State.setDsub]
@[simp] theorem State.setWarm_dev (d : Nat) (x : WarmSt) : (s.setWarm d x).dev = s.dev := by simp only [State.setWarm]
@[simp] theorem State.setLut_dev (d k : Nat) (v : DWord) : (s.setLut d k v).dev = s.dev := by simp only [State.setLut]
@[simp] theorem State.setFifo_dev (d n : Nat) (x : Pfifo) : (s.setFifo d n x).dev = s.dev := by simp only [State.setFifo, State.p_dev]
@[simp] theorem State.setDmWord_dev (d i w : Nat) (x : BWord) : (s.setDmWord d i w x).dev = s.dev := by simp only [State.setDmWord]
@[simp] theorem State.setL2_dev (t i : Nat) (x : Option L2Ent) : (s.setL2 t i x).dev = s.dev := by simp only [State.setL2, State.setPen]
@[simp] theorem State.setHello_dev (d p : Nat) (x : HelloSt) : (s.setHello d p x).dev = s.dev :=
  by simp only [State.setHello, State.setPen]
@[simp] theorem State.setHart_dev (k : Nat) (x : HartSt) : (s.setHart k x).dev = s.dev := by simp only [State.setHart]
@[simp] theorem State.setRawRx_dev (d : Nat) (l : List (List Byte)) : (s.setRawRx d l).dev = s.dev := by simp only [State.setRawRx]
@[simp] theorem State.setBit_dev (d : Nat) (f : Fld) (n : Nat) : (s.setBit d f n).dev = s.dev := by simp only [State.setBit, State.p_dev]
@[simp] theorem State.setMon_dev (d m : Nat) (c : MonWin) : (s.setMon d m c).dev = s.dev := by simp only [State.setMon]
@[simp] theorem State.setMee_dev (ch : Nat) (x : MeeSt) : (s.setMee ch x).dev = s.dev := by simp only [State.setMee]
@[simp] theorem State.setParse_dev (p : ParseSt) : (s.setParse p).dev = s.dev := by simp only [State.setParse]
@[simp] theorem State.setIo_dev (d p : Nat) (x : IoCell) : (s.setIo d p x).dev = s.dev := by simp only [State.setIo]
@[simp] theorem State.setNport_dev (d p : Nat) (x : Nport) : (s.setNport d p x).dev = s.dev := by simp only [State.setNport]
@[simp] theorem State.setLane_dev (d n : Nat) (x : LaneSt) : (s.setLane d n x).dev = s.dev := by simp only [State.setLane]
@[simp] theorem State.setVlanWord_dev (d v w : Nat) (x : Word) : (s.setVlanWord d v w x).dev = s.dev :=
  by simp only [State.setVlanWord, State.setPen]
@[simp] theorem State.setAir_dev (d e : Nat) (x : List TrunkFrame) : (s.setAir d e x).dev = s.dev :=
  by simp only [State.setAir, State.setPen]
@[simp] theorem State.setFuses_dev (x : Fuses) : (s.setFuses x).dev = s.dev := by simp only [State.setFuses]
@[simp] theorem State.setEdge_dev (d e v : Nat) : (s.setEdge d e v).dev = s.dev := by simp only [State.setEdge, State.p_dev]
@[simp] theorem State.setClk_dev (d : Nat) (c : ClkSt) : (s.setClk d c).dev = s.dev := by simp only [State.setClk]
@[simp] theorem State.setBankWord_dev (B w : Nat) (x : BWord) : (s.setBankWord B w x).dev = s.dev := by simp only [State.setBankWord]
@[simp] theorem State.setSig_dev (d fa : Nat) (v : Word) : (s.setSig d fa v).dev = s.dev := by simp only [State.setSig]
@[simp] theorem State.setDesign_dev (d : Nat) (x : DieDesign) : (s.setDesign d x).dev = s.dev := by simp only [State.setDesign]
@[simp] theorem State.setArith_dev (d k : Nat) (x : Arith) : (s.setArith d k x).dev = s.dev := by simp only [State.setArith]
@[simp] theorem State.setSeu_dev (d : Nat) (x : List SeuEnt) : (s.setSeu d x).dev = s.dev := by simp only [State.setSeu, State.p_dev]
@[simp] theorem State.setQclk_dev (d q hz : Nat) : (s.setQclk d q hz).dev = s.dev := by simp only [State.setQclk]
@[simp] theorem State.setPaused_dev (d e q : Nat) (x : Bool) : (s.setPaused d e q x).dev = s.dev :=
  by simp only [State.setPaused, State.setPen]
@[simp] theorem State.setCopy_dev (q line : Nat) (x : Option CLine) : (s.setCopy q line x).dev = s.dev := by simp only [State.setCopy]
@[simp] theorem State.setLinkTx_dev (d e m : Nat) (x : LinkTx) : (s.setLinkTx d e m x).dev = s.dev := by simp only [State.setLinkTx]
@[simp] theorem State.setCore_dev (d c v : Nat) : (s.setCore d c v).dev = s.dev := by simp only [State.setCore, State.p_dev]
@[simp] theorem State.setLad_dev (d : Nat) (c : LadSt) : (s.setLad d c).dev = s.dev := by simp only [State.setLad]
@[simp] theorem State.setDcell_dev (ch w : Nat) (x : DCell) : (s.setDcell ch w x).dev = s.dev := by simp only [State.setDcell]
@[simp] theorem State.setCfg_dev (c : CfgSt) : (s.setCfg c).dev = s.dev := by simp only [State.setCfg]
@[simp] theorem State.setFf_dev (d k : Nat) (v : Bool) : (s.setFf d k v).dev = s.dev := by simp only [State.setFf]
@[simp] theorem State.setRb_dev (d : Nat) (x : Option RbSt) : (s.setRb d x).dev = s.dev := by simp only [State.setRb]
@[simp] theorem State.setSeLate_dev (d i : Nat) (l : List SeLate) : (s.setSeLate d i l).dev = s.dev := by simp only [State.setSeLate]
@[simp] theorem State.setPenDie_dev (d : Nat) (x : PenDie) : (s.setPenDie d x).dev = s.dev :=
  by simp only [State.setPenDie, State.setPen, State.p_dev]
@[simp] theorem State.setDrr_dev (d e : Nat) (x : DrrSt) : (s.setDrr d e x).dev = s.dev := by simp only [State.setDrr, State.setPen]
@[simp] theorem State.setNet_dev (rid tag : Nat) (x : Option NetReq) : (s.setNet rid tag x).dev = s.dev := by simp only [State.setNet]
@[simp] theorem State.setCapsIn_dev (d e : Nat) (x : CapsIn) : (s.setCapsIn d e x).dev = s.dev := by simp only [State.setCapsIn]
@[simp] theorem State.setCk_dev (d i : Nat) (c : CkMux2) : (s.setCk d i c).dev = s.dev := by simp only [State.setCk]
@[simp] theorem State.setTrainCopy_dev (ch : Nat) (x : Bool) : (s.setTrainCopy ch x).dev = s.dev := by simp only [State.setTrainCopy]
@[simp] theorem State.setHeld_dev (d : Nat) (x : List (Nat × Word)) : (s.setHeld d x).dev = s.dev := by simp only [State.setHeld]
@[simp] theorem State.setChain_dev (d k : Nat) (x : ChainSt) : (s.setChain d k x).dev = s.dev := by simp only [State.setChain]
@[simp] theorem State.setKslot_dev (d k : Nat) (x : Kslot) : (s.setKslot d k x).dev = s.dev := by simp only [State.setKslot, State.p_dev]
@[simp] theorem State.setPmWord_dev (d i n : Nat) (x : BitVec 39) : (s.setPmWord d i n x).dev = s.dev := by simp only [State.setPmWord]
@[simp] theorem State.setWindow_dev (t i : Nat) (x : Bool) : (s.setWindow t i x).dev = s.dev :=
  by simp only [State.setWindow, State.setPen]
@[simp] theorem State.setRingAck_dev (d r : Nat) (x : Option Resp) : (s.setRingAck d r x).dev = s.dev :=
  by simp only [State.setRingAck, State.setPen]
@[simp] theorem State.setSec_dev (x : SecSt) : (s.setSec x).dev = s.dev := by simp only [State.setSec]
@[simp] theorem State.setTestLeft_dev (d n : Nat) : (s.setTestLeft d n).dev = s.dev := by simp only [State.setTestLeft]
@[simp] theorem State.clrBit_dev (d : Nat) (f : Fld) (n : Nat) : (s.clrBit d f n).dev = s.dev := by simp only [State.clrBit, State.p_dev]
@[simp] theorem State.setEv_dev (r n : Nat) (c : EvSrc) : (s.setEv r n c).dev = s.dev := by simp only [State.setEv]
@[simp] theorem State.setFrameWord_dev (d fa w : Nat) (v : DWord) : (s.setFrameWord d fa w v).dev = s.dev :=
  by simp only [State.setFrameWord]
@[simp] theorem State.setFlash_dev (f : FlashSt) : (s.setFlash f).dev = s.dev := by simp only [State.setFlash]
@[simp] theorem State.setBmem_dev (d k : Nat) (x : Bmem) : (s.setBmem d k x).dev = s.dev := by simp only [State.setBmem]
@[simp] theorem State.setPr_dev (d r : Nat) (x : PrSt) : (s.setPr d r x).dev = s.dev := by simp only [State.setPr]
@[simp] theorem State.setPair_dev (d k : Nat) (x : PairSt) : (s.setPair d k x).dev = s.dev := by simp only [State.setPair]
@[simp] theorem State.setNhop_dev (d i : Nat) (x : Word) : (s.setNhop d i x).dev = s.dev := by simp only [State.setNhop, State.setPen]
@[simp] theorem State.setYout_dev (d : Nat) (x : List Frame) : (s.setYout d x).dev = s.dev := by simp only [State.setYout, State.setPen]
@[simp] theorem State.setXing_dev (k : Nat) (v : XingSt) : (s.setXing k v).dev = s.dev := by simp only [State.setXing]
@[simp] theorem State.setSeState_dev (d i v : Nat) : (s.setSeState d i v).dev = s.dev := by simp only [State.setSeState, State.p_dev]
@[simp] theorem State.setSnt_dev (d : Nat) (c : SntSt) : (s.setSnt d c).dev = s.dev := by simp only [State.setSnt]
@[simp] theorem State.setBankSt_dev (B : Nat) (x : BankSt) : (s.setBankSt B x).dev = s.dev := by simp only [State.setBankSt]
@[simp] theorem State.setDynMark_dev (d fa : Nat) (v : Bool) : (s.setDynMark d fa v).dev = s.dev := by simp only [State.setDynMark]
@[simp] theorem State.setPins_dev (d : Nat) (x : PinMode) : (s.setPins d x).dev = s.dev := by simp only [State.setPins]
@[simp] theorem State.setSnap_dev (d : Nat) (x : Snap) : (s.setSnap d x).dev = s.dev := by simp only [State.setSnap]
@[simp] theorem State.setEng_dev (d i : Nat) (e : SEng) : (s.setEng d i e).dev = s.dev := by simp only [State.setEng, State.p_dev]
@[simp] theorem State.setPen_dev (x : PenSt) : (s.setPen x).dev = s.dev := by simp only [State.setPen]
@[simp] theorem State.setDeficit_dev (d e q x : Nat) : (s.setDeficit d e q x).dev = s.dev := by simp only [State.setDeficit, State.setPen]
@[simp] theorem State.setDir_dev (line : Nat) (x : Option DirEnt) : (s.setDir line x).dev = s.dev := by simp only [State.setDir]
@[simp] theorem State.setLinkRx_dev (d e m : Nat) (x : LinkRx) : (s.setLinkRx d e m x).dev = s.dev := by simp only [State.setLinkRx]

/-! ## The updates that leave `boot` alone -/

@[simp] theorem State.setCell_boot (k : Nat) (v : DWord) : (s.setCell k v).boot = s.boot := by simp only [State.setCell]
@[simp] theorem State.p_boot (d : Nat) (f : Fld) (v : Nat) : (s.p d f v).boot = s.boot := by simp only [State.p, State.setCell_boot]
@[simp] theorem State.setMbox_boot (d : Nat) (c : MboxSt) : (s.setMbox d c).boot = s.boot := by simp only [State.setMbox]
@[simp] theorem State.setDsub_boot (k : Nat) (x : DSub) : (s.setDsub k x).boot = s.boot := by simp only [State.setDsub]
@[simp] theorem State.setWarm_boot (d : Nat) (x : WarmSt) : (s.setWarm d x).boot = s.boot := by simp only [State.setWarm]
@[simp] theorem State.setLut_boot (d k : Nat) (v : DWord) : (s.setLut d k v).boot = s.boot := by simp only [State.setLut]
@[simp] theorem State.setFifo_boot (d n : Nat) (x : Pfifo) : (s.setFifo d n x).boot = s.boot := by simp only [State.setFifo, State.p_boot]
@[simp] theorem State.setDmWord_boot (d i w : Nat) (x : BWord) : (s.setDmWord d i w x).boot = s.boot := by simp only [State.setDmWord]
@[simp] theorem State.setL2_boot (t i : Nat) (x : Option L2Ent) : (s.setL2 t i x).boot = s.boot := by simp only [State.setL2, State.setPen]
@[simp] theorem State.setHello_boot (d p : Nat) (x : HelloSt) : (s.setHello d p x).boot = s.boot :=
  by simp only [State.setHello, State.setPen]
@[simp] theorem State.setHart_boot (k : Nat) (x : HartSt) : (s.setHart k x).boot = s.boot := by simp only [State.setHart]
@[simp] theorem State.setRawRx_boot (d : Nat) (l : List (List Byte)) : (s.setRawRx d l).boot = s.boot := by simp only [State.setRawRx]
@[simp] theorem State.setBit_boot (d : Nat) (f : Fld) (n : Nat) : (s.setBit d f n).boot = s.boot :=
  by simp only [State.setBit, State.p_boot]
@[simp] theorem State.setMon_boot (d m : Nat) (c : MonWin) : (s.setMon d m c).boot = s.boot := by simp only [State.setMon]
@[simp] theorem State.setMee_boot (ch : Nat) (x : MeeSt) : (s.setMee ch x).boot = s.boot := by simp only [State.setMee]
@[simp] theorem State.setParse_boot (p : ParseSt) : (s.setParse p).boot = s.boot := by simp only [State.setParse]
@[simp] theorem State.setIo_boot (d p : Nat) (x : IoCell) : (s.setIo d p x).boot = s.boot := by simp only [State.setIo]
@[simp] theorem State.setNport_boot (d p : Nat) (x : Nport) : (s.setNport d p x).boot = s.boot := by simp only [State.setNport]
@[simp] theorem State.setLane_boot (d n : Nat) (x : LaneSt) : (s.setLane d n x).boot = s.boot := by simp only [State.setLane]
@[simp] theorem State.setVlanWord_boot (d v w : Nat) (x : Word) : (s.setVlanWord d v w x).boot = s.boot :=
  by simp only [State.setVlanWord, State.setPen]
@[simp] theorem State.setAir_boot (d e : Nat) (x : List TrunkFrame) : (s.setAir d e x).boot = s.boot :=
  by simp only [State.setAir, State.setPen]
@[simp] theorem State.setFuses_boot (x : Fuses) : (s.setFuses x).boot = s.boot := by simp only [State.setFuses]
@[simp] theorem State.setEdge_boot (d e v : Nat) : (s.setEdge d e v).boot = s.boot := by simp only [State.setEdge, State.p_boot]
@[simp] theorem State.setClk_boot (d : Nat) (c : ClkSt) : (s.setClk d c).boot = s.boot := by simp only [State.setClk]
@[simp] theorem State.setBankWord_boot (B w : Nat) (x : BWord) : (s.setBankWord B w x).boot = s.boot := by simp only [State.setBankWord]
@[simp] theorem State.setSig_boot (d fa : Nat) (v : Word) : (s.setSig d fa v).boot = s.boot := by simp only [State.setSig]
@[simp] theorem State.setDesign_boot (d : Nat) (x : DieDesign) : (s.setDesign d x).boot = s.boot := by simp only [State.setDesign]
@[simp] theorem State.setArith_boot (d k : Nat) (x : Arith) : (s.setArith d k x).boot = s.boot := by simp only [State.setArith]
@[simp] theorem State.setSeu_boot (d : Nat) (x : List SeuEnt) : (s.setSeu d x).boot = s.boot := by simp only [State.setSeu, State.p_boot]
@[simp] theorem State.setQclk_boot (d q hz : Nat) : (s.setQclk d q hz).boot = s.boot := by simp only [State.setQclk]
@[simp] theorem State.setPaused_boot (d e q : Nat) (x : Bool) : (s.setPaused d e q x).boot = s.boot :=
  by simp only [State.setPaused, State.setPen]
@[simp] theorem State.setCopy_boot (q line : Nat) (x : Option CLine) : (s.setCopy q line x).boot = s.boot := by simp only [State.setCopy]
@[simp] theorem State.setLinkTx_boot (d e m : Nat) (x : LinkTx) : (s.setLinkTx d e m x).boot = s.boot := by simp only [State.setLinkTx]
@[simp] theorem State.setCore_boot (d c v : Nat) : (s.setCore d c v).boot = s.boot := by simp only [State.setCore, State.p_boot]
@[simp] theorem State.setLad_boot (d : Nat) (c : LadSt) : (s.setLad d c).boot = s.boot := by simp only [State.setLad]
@[simp] theorem State.setDcell_boot (ch w : Nat) (x : DCell) : (s.setDcell ch w x).boot = s.boot := by simp only [State.setDcell]
@[simp] theorem State.setCfg_boot (c : CfgSt) : (s.setCfg c).boot = s.boot := by simp only [State.setCfg]
@[simp] theorem State.setFf_boot (d k : Nat) (v : Bool) : (s.setFf d k v).boot = s.boot := by simp only [State.setFf]
@[simp] theorem State.setRb_boot (d : Nat) (x : Option RbSt) : (s.setRb d x).boot = s.boot := by simp only [State.setRb]
@[simp] theorem State.setSeLate_boot (d i : Nat) (l : List SeLate) : (s.setSeLate d i l).boot = s.boot := by simp only [State.setSeLate]
@[simp] theorem State.setPenDie_boot (d : Nat) (x : PenDie) : (s.setPenDie d x).boot = s.boot :=
  by simp only [State.setPenDie, State.setPen, State.p_boot]
@[simp] theorem State.setDrr_boot (d e : Nat) (x : DrrSt) : (s.setDrr d e x).boot = s.boot := by simp only [State.setDrr, State.setPen]
@[simp] theorem State.setNet_boot (rid tag : Nat) (x : Option NetReq) : (s.setNet rid tag x).boot = s.boot := by simp only [State.setNet]
@[simp] theorem State.setCapsIn_boot (d e : Nat) (x : CapsIn) : (s.setCapsIn d e x).boot = s.boot := by simp only [State.setCapsIn]
@[simp] theorem State.setCk_boot (d i : Nat) (c : CkMux2) : (s.setCk d i c).boot = s.boot := by simp only [State.setCk]
@[simp] theorem State.setTrainCopy_boot (ch : Nat) (x : Bool) : (s.setTrainCopy ch x).boot = s.boot := by simp only [State.setTrainCopy]
@[simp] theorem State.setHeld_boot (d : Nat) (x : List (Nat × Word)) : (s.setHeld d x).boot = s.boot := by simp only [State.setHeld]
@[simp] theorem State.setChain_boot (d k : Nat) (x : ChainSt) : (s.setChain d k x).boot = s.boot := by simp only [State.setChain]
@[simp] theorem State.setKslot_boot (d k : Nat) (x : Kslot) : (s.setKslot d k x).boot = s.boot :=
  by simp only [State.setKslot, State.p_boot]
@[simp] theorem State.setPmWord_boot (d i n : Nat) (x : BitVec 39) : (s.setPmWord d i n x).boot = s.boot := by simp only [State.setPmWord]
@[simp] theorem State.setWindow_boot (t i : Nat) (x : Bool) : (s.setWindow t i x).boot = s.boot :=
  by simp only [State.setWindow, State.setPen]
@[simp] theorem State.setRingAck_boot (d r : Nat) (x : Option Resp) : (s.setRingAck d r x).boot = s.boot :=
  by simp only [State.setRingAck, State.setPen]
@[simp] theorem State.setSec_boot (x : SecSt) : (s.setSec x).boot = s.boot := by simp only [State.setSec]
@[simp] theorem State.setTestLeft_boot (d n : Nat) : (s.setTestLeft d n).boot = s.boot := by simp only [State.setTestLeft]
@[simp] theorem State.clrBit_boot (d : Nat) (f : Fld) (n : Nat) : (s.clrBit d f n).boot = s.boot :=
  by simp only [State.clrBit, State.p_boot]
@[simp] theorem State.setEv_boot (r n : Nat) (c : EvSrc) : (s.setEv r n c).boot = s.boot := by simp only [State.setEv]
@[simp] theorem State.setFrameWord_boot (d fa w : Nat) (v : DWord) : (s.setFrameWord d fa w v).boot = s.boot :=
  by simp only [State.setFrameWord]
@[simp] theorem State.setFlash_boot (f : FlashSt) : (s.setFlash f).boot = s.boot := by simp only [State.setFlash]
@[simp] theorem State.setBmem_boot (d k : Nat) (x : Bmem) : (s.setBmem d k x).boot = s.boot := by simp only [State.setBmem]
@[simp] theorem State.setPr_boot (d r : Nat) (x : PrSt) : (s.setPr d r x).boot = s.boot := by simp only [State.setPr]
@[simp] theorem State.setPair_boot (d k : Nat) (x : PairSt) : (s.setPair d k x).boot = s.boot := by simp only [State.setPair]
@[simp] theorem State.setNhop_boot (d i : Nat) (x : Word) : (s.setNhop d i x).boot = s.boot := by simp only [State.setNhop, State.setPen]
@[simp] theorem State.setYout_boot (d : Nat) (x : List Frame) : (s.setYout d x).boot = s.boot := by simp only [State.setYout, State.setPen]
@[simp] theorem State.setXing_boot (k : Nat) (v : XingSt) : (s.setXing k v).boot = s.boot := by simp only [State.setXing]
@[simp] theorem State.setSeState_boot (d i v : Nat) : (s.setSeState d i v).boot = s.boot := by simp only [State.setSeState, State.p_boot]
@[simp] theorem State.setSnt_boot (d : Nat) (c : SntSt) : (s.setSnt d c).boot = s.boot := by simp only [State.setSnt]
@[simp] theorem State.setBankSt_boot (B : Nat) (x : BankSt) : (s.setBankSt B x).boot = s.boot := by simp only [State.setBankSt]
@[simp] theorem State.setDynMark_boot (d fa : Nat) (v : Bool) : (s.setDynMark d fa v).boot = s.boot := by simp only [State.setDynMark]
@[simp] theorem State.setPins_boot (d : Nat) (x : PinMode) : (s.setPins d x).boot = s.boot := by simp only [State.setPins]
@[simp] theorem State.setSnap_boot (d : Nat) (x : Snap) : (s.setSnap d x).boot = s.boot := by simp only [State.setSnap]
@[simp] theorem State.setEng_boot (d i : Nat) (e : SEng) : (s.setEng d i e).boot = s.boot := by simp only [State.setEng, State.p_boot]
@[simp] theorem State.setPen_boot (x : PenSt) : (s.setPen x).boot = s.boot := by simp only [State.setPen]
@[simp] theorem State.setDeficit_boot (d e q x : Nat) : (s.setDeficit d e q x).boot = s.boot :=
  by simp only [State.setDeficit, State.setPen]
@[simp] theorem State.setDir_boot (line : Nat) (x : Option DirEnt) : (s.setDir line x).boot = s.boot := by simp only [State.setDir]
@[simp] theorem State.setLinkRx_boot (d e m : Nat) (x : LinkRx) : (s.setLinkRx d e m x).boot = s.boot := by simp only [State.setLinkRx]

/-! ## The updates that leave `rf` alone -/

@[simp] theorem State.setClk_rf (d : Nat) (c : ClkSt) : (s.setClk d c).rf = s.rf := by simp only [State.setClk]
@[simp] theorem State.setTrainCopy_rf (ch : Nat) (x : Bool) : (s.setTrainCopy ch x).rf = s.rf := by simp only [State.setTrainCopy]
@[simp] theorem State.setPins_rf (d : Nat) (x : PinMode) : (s.setPins d x).rf = s.rf := by simp only [State.setPins]
@[simp] theorem State.setSeLate_rf (d i : Nat) (l : List SeLate) : (s.setSeLate d i l).rf = s.rf := by simp only [State.setSeLate]
@[simp] theorem State.setPaused_rf (d e q : Nat) (x : Bool) : (s.setPaused d e q x).rf = s.rf :=
  by simp only [State.setPaused, State.setPen]
@[simp] theorem State.setSec_rf (x : SecSt) : (s.setSec x).rf = s.rf := by simp only [State.setSec]
@[simp] theorem State.setMbox_rf (d : Nat) (c : MboxSt) : (s.setMbox d c).rf = s.rf := by simp only [State.setMbox]
@[simp] theorem State.setSig_rf (d fa : Nat) (v : Word) : (s.setSig d fa v).rf = s.rf := by simp only [State.setSig]
@[simp] theorem State.setChain_rf (d k : Nat) (x : ChainSt) : (s.setChain d k x).rf = s.rf := by simp only [State.setChain]
@[simp] theorem State.setLane_rf (d n : Nat) (x : LaneSt) : (s.setLane d n x).rf = s.rf := by simp only [State.setLane]
@[simp] theorem State.setHello_rf (d p : Nat) (x : HelloSt) : (s.setHello d p x).rf = s.rf := by simp only [State.setHello, State.setPen]
@[simp] theorem State.setLinkTx_rf (d e m : Nat) (x : LinkTx) : (s.setLinkTx d e m x).rf = s.rf := by simp only [State.setLinkTx]
@[simp] theorem State.setEv_rf (r n : Nat) (c : EvSrc) : (s.setEv r n c).rf = s.rf := by simp only [State.setEv]
@[simp] theorem State.setWarm_rf (d : Nat) (x : WarmSt) : (s.setWarm d x).rf = s.rf := by simp only [State.setWarm]
@[simp] theorem State.setArith_rf (d k : Nat) (x : Arith) : (s.setArith d k x).rf = s.rf := by simp only [State.setArith]
@[simp] theorem State.setPen_rf (x : PenSt) : (s.setPen x).rf = s.rf := by simp only [State.setPen]
@[simp] theorem State.setYout_rf (d : Nat) (x : List Frame) : (s.setYout d x).rf = s.rf := by simp only [State.setYout, State.setPen]
@[simp] theorem State.setRawRx_rf (d : Nat) (l : List (List Byte)) : (s.setRawRx d l).rf = s.rf := by simp only [State.setRawRx]
@[simp] theorem State.setDcell_rf (ch w : Nat) (x : DCell) : (s.setDcell ch w x).rf = s.rf := by simp only [State.setDcell]
@[simp] theorem State.setFlash_rf (f : FlashSt) : (s.setFlash f).rf = s.rf := by simp only [State.setFlash]
@[simp] theorem State.setNport_rf (d p : Nat) (x : Nport) : (s.setNport d p x).rf = s.rf := by simp only [State.setNport]
@[simp] theorem State.setVlanWord_rf (d v w : Nat) (x : Word) : (s.setVlanWord d v w x).rf = s.rf :=
  by simp only [State.setVlanWord, State.setPen]
@[simp] theorem State.setNet_rf (rid tag : Nat) (x : Option NetReq) : (s.setNet rid tag x).rf = s.rf := by simp only [State.setNet]
@[simp] theorem State.setSnt_rf (d : Nat) (c : SntSt) : (s.setSnt d c).rf = s.rf := by simp only [State.setSnt]
@[simp] theorem State.setMee_rf (ch : Nat) (x : MeeSt) : (s.setMee ch x).rf = s.rf := by simp only [State.setMee]
@[simp] theorem State.setFf_rf (d k : Nat) (v : Bool) : (s.setFf d k v).rf = s.rf := by simp only [State.setFf]
@[simp] theorem State.setDmWord_rf (d i w : Nat) (x : BWord) : (s.setDmWord d i w x).rf = s.rf := by simp only [State.setDmWord]
@[simp] theorem State.setDeficit_rf (d e q x : Nat) : (s.setDeficit d e q x).rf = s.rf := by simp only [State.setDeficit, State.setPen]
@[simp] theorem State.setFuses_rf (x : Fuses) : (s.setFuses x).rf = s.rf := by simp only [State.setFuses]
@[simp] theorem State.setCk_rf (d i : Nat) (c : CkMux2) : (s.setCk d i c).rf = s.rf := by simp only [State.setCk]
@[simp] theorem State.setDynMark_rf (d fa : Nat) (v : Bool) : (s.setDynMark d fa v).rf = s.rf := by simp only [State.setDynMark]
@[simp] theorem State.setIo_rf (d p : Nat) (x : IoCell) : (s.setIo d p x).rf = s.rf := by simp only [State.setIo]
@[simp] theorem State.setPair_rf (d k : Nat) (x : PairSt) : (s.setPair d k x).rf = s.rf := by simp only [State.setPair]
@[simp] theorem State.setRingAck_rf (d r : Nat) (x : Option Resp) : (s.setRingAck d r x).rf = s.rf :=
  by simp only [State.setRingAck, State.setPen]
@[simp] theorem State.setLinkRx_rf (d e m : Nat) (x : LinkRx) : (s.setLinkRx d e m x).rf = s.rf := by simp only [State.setLinkRx]
@[simp] theorem State.setBankWord_rf (B w : Nat) (x : BWord) : (s.setBankWord B w x).rf = s.rf := by simp only [State.setBankWord]
@[simp] theorem State.setHeld_rf (d : Nat) (x : List (Nat × Word)) : (s.setHeld d x).rf = s.rf := by simp only [State.setHeld]
@[simp] theorem State.setSnap_rf (d : Nat) (x : Snap) : (s.setSnap d x).rf = s.rf := by simp only [State.setSnap]
@[simp] theorem State.setL2_rf (t i : Nat) (x : Option L2Ent) : (s.setL2 t i x).rf = s.rf := by simp only [State.setL2, State.setPen]
@[simp] theorem State.setCopy_rf (q line : Nat) (x : Option CLine) : (s.setCopy q line x).rf = s.rf := by simp only [State.setCopy]
@[simp] theorem State.setTestLeft_rf (d n : Nat) : (s.setTestLeft d n).rf = s.rf := by simp only [State.setTestLeft]
@[simp] theorem State.setDsub_rf (k : Nat) (x : DSub) : (s.setDsub k x).rf = s.rf := by simp only [State.setDsub]
@[simp] theorem State.setDesign_rf (d : Nat) (x : DieDesign) : (s.setDesign d x).rf = s.rf := by simp only [State.setDesign]
@[simp] theorem State.setPr_rf (d r : Nat) (x : PrSt) : (s.setPr d r x).rf = s.rf := by simp only [State.setPr]
@[simp] theorem State.setNhop_rf (d i : Nat) (x : Word) : (s.setNhop d i x).rf = s.rf := by simp only [State.setNhop, State.setPen]
@[simp] theorem State.setHart_rf (k : Nat) (x : HartSt) : (s.setHart k x).rf = s.rf := by simp only [State.setHart]
@[simp] theorem State.setLad_rf (d : Nat) (c : LadSt) : (s.setLad d c).rf = s.rf := by simp only [State.setLad]
@[simp] theorem State.setFrameWord_rf (d fa w : Nat) (v : DWord) : (s.setFrameWord d fa w v).rf = s.rf := by simp only [State.setFrameWord]
@[simp] theorem State.setLut_rf (d k : Nat) (v : DWord) : (s.setLut d k v).rf = s.rf := by simp only [State.setLut]
@[simp] theorem State.setPmWord_rf (d i n : Nat) (x : BitVec 39) : (s.setPmWord d i n x).rf = s.rf := by simp only [State.setPmWord]
@[simp] theorem State.setDrr_rf (d e : Nat) (x : DrrSt) : (s.setDrr d e x).rf = s.rf := by simp only [State.setDrr, State.setPen]
@[simp] theorem State.setXing_rf (k : Nat) (v : XingSt) : (s.setXing k v).rf = s.rf := by simp only [State.setXing]
@[simp] theorem State.setMon_rf (d m : Nat) (c : MonWin) : (s.setMon d m c).rf = s.rf := by simp only [State.setMon]
@[simp] theorem State.setCfg_rf (c : CfgSt) : (s.setCfg c).rf = s.rf := by simp only [State.setCfg]
@[simp] theorem State.setBmem_rf (d k : Nat) (x : Bmem) : (s.setBmem d k x).rf = s.rf := by simp only [State.setBmem]
@[simp] theorem State.setQclk_rf (d q hz : Nat) : (s.setQclk d q hz).rf = s.rf := by simp only [State.setQclk]
@[simp] theorem State.setAir_rf (d e : Nat) (x : List TrunkFrame) : (s.setAir d e x).rf = s.rf := by simp only [State.setAir, State.setPen]
@[simp] theorem State.setCapsIn_rf (d e : Nat) (x : CapsIn) : (s.setCapsIn d e x).rf = s.rf := by simp only [State.setCapsIn]
@[simp] theorem State.setBankSt_rf (B : Nat) (x : BankSt) : (s.setBankSt B x).rf = s.rf := by simp only [State.setBankSt]
@[simp] theorem State.setParse_rf (p : ParseSt) : (s.setParse p).rf = s.rf := by simp only [State.setParse]
@[simp] theorem State.setRb_rf (d : Nat) (x : Option RbSt) : (s.setRb d x).rf = s.rf := by simp only [State.setRb]
@[simp] theorem State.setWindow_rf (t i : Nat) (x : Bool) : (s.setWindow t i x).rf = s.rf := by simp only [State.setWindow, State.setPen]
@[simp] theorem State.setDir_rf (line : Nat) (x : Option DirEnt) : (s.setDir line x).rf = s.rf := by simp only [State.setDir]

/-! ## The updates that leave `holds` alone -/

@[simp] theorem State.setCell_holds (k : Nat) (v : DWord) : (s.setCell k v).holds = s.holds := by simp only [State.setCell]
@[simp] theorem State.p_holds (d : Nat) (f : Fld) (v : Nat) : (s.p d f v).holds = s.holds := by simp only [State.p, State.setCell_holds]
@[simp] theorem State.setMbox_holds (d : Nat) (c : MboxSt) : (s.setMbox d c).holds = s.holds := by simp only [State.setMbox]
@[simp] theorem State.setDsub_holds (k : Nat) (x : DSub) : (s.setDsub k x).holds = s.holds := by simp only [State.setDsub]
@[simp] theorem State.setWarm_holds (d : Nat) (x : WarmSt) : (s.setWarm d x).holds = s.holds := by simp only [State.setWarm]
@[simp] theorem State.setLut_holds (d k : Nat) (v : DWord) : (s.setLut d k v).holds = s.holds := by simp only [State.setLut]
@[simp] theorem State.setFifo_holds (d n : Nat) (x : Pfifo) : (s.setFifo d n x).holds = s.holds :=
  by simp only [State.setFifo, State.p_holds]
@[simp] theorem State.setDmWord_holds (d i w : Nat) (x : BWord) : (s.setDmWord d i w x).holds = s.holds := by simp only [State.setDmWord]
@[simp] theorem State.setL2_holds (t i : Nat) (x : Option L2Ent) : (s.setL2 t i x).holds = s.holds :=
  by simp only [State.setL2, State.setPen]
@[simp] theorem State.setHello_holds (d p : Nat) (x : HelloSt) : (s.setHello d p x).holds = s.holds :=
  by simp only [State.setHello, State.setPen]
@[simp] theorem State.setHart_holds (k : Nat) (x : HartSt) : (s.setHart k x).holds = s.holds := by simp only [State.setHart]
@[simp] theorem State.setRawRx_holds (d : Nat) (l : List (List Byte)) : (s.setRawRx d l).holds = s.holds := by simp only [State.setRawRx]
@[simp] theorem State.setBit_holds (d : Nat) (f : Fld) (n : Nat) : (s.setBit d f n).holds = s.holds :=
  by simp only [State.setBit, State.p_holds]
@[simp] theorem State.setMon_holds (d m : Nat) (c : MonWin) : (s.setMon d m c).holds = s.holds := by simp only [State.setMon]
@[simp] theorem State.setMee_holds (ch : Nat) (x : MeeSt) : (s.setMee ch x).holds = s.holds := by simp only [State.setMee]
@[simp] theorem State.setParse_holds (p : ParseSt) : (s.setParse p).holds = s.holds := by simp only [State.setParse]
@[simp] theorem State.setIo_holds (d p : Nat) (x : IoCell) : (s.setIo d p x).holds = s.holds := by simp only [State.setIo]
@[simp] theorem State.setNport_holds (d p : Nat) (x : Nport) : (s.setNport d p x).holds = s.holds := by simp only [State.setNport]
@[simp] theorem State.setLane_holds (d n : Nat) (x : LaneSt) : (s.setLane d n x).holds = s.holds := by simp only [State.setLane]
@[simp] theorem State.setVlanWord_holds (d v w : Nat) (x : Word) : (s.setVlanWord d v w x).holds = s.holds :=
  by simp only [State.setVlanWord, State.setPen]
@[simp] theorem State.setAir_holds (d e : Nat) (x : List TrunkFrame) : (s.setAir d e x).holds = s.holds :=
  by simp only [State.setAir, State.setPen]
@[simp] theorem State.setFuses_holds (x : Fuses) : (s.setFuses x).holds = s.holds := by simp only [State.setFuses]
@[simp] theorem State.setEdge_holds (d e v : Nat) : (s.setEdge d e v).holds = s.holds := by simp only [State.setEdge, State.p_holds]
@[simp] theorem State.setClk_holds (d : Nat) (c : ClkSt) : (s.setClk d c).holds = s.holds := by simp only [State.setClk]
@[simp] theorem State.setBankWord_holds (B w : Nat) (x : BWord) : (s.setBankWord B w x).holds = s.holds := by simp only [State.setBankWord]
@[simp] theorem State.setSig_holds (d fa : Nat) (v : Word) : (s.setSig d fa v).holds = s.holds := by simp only [State.setSig]
@[simp] theorem State.setDesign_holds (d : Nat) (x : DieDesign) : (s.setDesign d x).holds = s.holds := by simp only [State.setDesign]
@[simp] theorem State.setArith_holds (d k : Nat) (x : Arith) : (s.setArith d k x).holds = s.holds := by simp only [State.setArith]
@[simp] theorem State.setSeu_holds (d : Nat) (x : List SeuEnt) : (s.setSeu d x).holds = s.holds :=
  by simp only [State.setSeu, State.p_holds]
@[simp] theorem State.setQclk_holds (d q hz : Nat) : (s.setQclk d q hz).holds = s.holds := by simp only [State.setQclk]
@[simp] theorem State.setPaused_holds (d e q : Nat) (x : Bool) : (s.setPaused d e q x).holds = s.holds :=
  by simp only [State.setPaused, State.setPen]
@[simp] theorem State.setCopy_holds (q line : Nat) (x : Option CLine) : (s.setCopy q line x).holds = s.holds :=
  by simp only [State.setCopy]
@[simp] theorem State.setLinkTx_holds (d e m : Nat) (x : LinkTx) : (s.setLinkTx d e m x).holds = s.holds := by simp only [State.setLinkTx]
@[simp] theorem State.setCore_holds (d c v : Nat) : (s.setCore d c v).holds = s.holds := by simp only [State.setCore, State.p_holds]
@[simp] theorem State.setLad_holds (d : Nat) (c : LadSt) : (s.setLad d c).holds = s.holds := by simp only [State.setLad]
@[simp] theorem State.setDcell_holds (ch w : Nat) (x : DCell) : (s.setDcell ch w x).holds = s.holds := by simp only [State.setDcell]
@[simp] theorem State.setCfg_holds (c : CfgSt) : (s.setCfg c).holds = s.holds := by simp only [State.setCfg]
@[simp] theorem State.setFf_holds (d k : Nat) (v : Bool) : (s.setFf d k v).holds = s.holds := by simp only [State.setFf]
@[simp] theorem State.setRb_holds (d : Nat) (x : Option RbSt) : (s.setRb d x).holds = s.holds := by simp only [State.setRb]
@[simp] theorem State.setSeLate_holds (d i : Nat) (l : List SeLate) : (s.setSeLate d i l).holds = s.holds := by simp only [State.setSeLate]
@[simp] theorem State.setPenDie_holds (d : Nat) (x : PenDie) : (s.setPenDie d x).holds = s.holds :=
  by simp only [State.setPenDie, State.setPen, State.p_holds]
@[simp] theorem State.setDrr_holds (d e : Nat) (x : DrrSt) : (s.setDrr d e x).holds = s.holds := by simp only [State.setDrr, State.setPen]
@[simp] theorem State.setNet_holds (rid tag : Nat) (x : Option NetReq) : (s.setNet rid tag x).holds = s.holds :=
  by simp only [State.setNet]
@[simp] theorem State.setCapsIn_holds (d e : Nat) (x : CapsIn) : (s.setCapsIn d e x).holds = s.holds := by simp only [State.setCapsIn]
@[simp] theorem State.setCk_holds (d i : Nat) (c : CkMux2) : (s.setCk d i c).holds = s.holds := by simp only [State.setCk]
@[simp] theorem State.setTrainCopy_holds (ch : Nat) (x : Bool) : (s.setTrainCopy ch x).holds = s.holds := by simp only [State.setTrainCopy]
@[simp] theorem State.setHeld_holds (d : Nat) (x : List (Nat × Word)) : (s.setHeld d x).holds = s.holds := by simp only [State.setHeld]
@[simp] theorem State.setChain_holds (d k : Nat) (x : ChainSt) : (s.setChain d k x).holds = s.holds := by simp only [State.setChain]
@[simp] theorem State.setKslot_holds (d k : Nat) (x : Kslot) : (s.setKslot d k x).holds = s.holds :=
  by simp only [State.setKslot, State.p_holds]
@[simp] theorem State.setPmWord_holds (d i n : Nat) (x : BitVec 39) : (s.setPmWord d i n x).holds = s.holds :=
  by simp only [State.setPmWord]
@[simp] theorem State.setWindow_holds (t i : Nat) (x : Bool) : (s.setWindow t i x).holds = s.holds :=
  by simp only [State.setWindow, State.setPen]
@[simp] theorem State.setRingAck_holds (d r : Nat) (x : Option Resp) : (s.setRingAck d r x).holds = s.holds :=
  by simp only [State.setRingAck, State.setPen]
@[simp] theorem State.setSec_holds (x : SecSt) : (s.setSec x).holds = s.holds := by simp only [State.setSec]
@[simp] theorem State.setTestLeft_holds (d n : Nat) : (s.setTestLeft d n).holds = s.holds := by simp only [State.setTestLeft]
@[simp] theorem State.clrBit_holds (d : Nat) (f : Fld) (n : Nat) : (s.clrBit d f n).holds = s.holds :=
  by simp only [State.clrBit, State.p_holds]
@[simp] theorem State.setEv_holds (r n : Nat) (c : EvSrc) : (s.setEv r n c).holds = s.holds := by simp only [State.setEv]
@[simp] theorem State.setFrameWord_holds (d fa w : Nat) (v : DWord) : (s.setFrameWord d fa w v).holds = s.holds :=
  by simp only [State.setFrameWord]
@[simp] theorem State.setFlash_holds (f : FlashSt) : (s.setFlash f).holds = s.holds := by simp only [State.setFlash]
@[simp] theorem State.setBmem_holds (d k : Nat) (x : Bmem) : (s.setBmem d k x).holds = s.holds := by simp only [State.setBmem]
@[simp] theorem State.setPr_holds (d r : Nat) (x : PrSt) : (s.setPr d r x).holds = s.holds := by simp only [State.setPr]
@[simp] theorem State.setPair_holds (d k : Nat) (x : PairSt) : (s.setPair d k x).holds = s.holds := by simp only [State.setPair]
@[simp] theorem State.setNhop_holds (d i : Nat) (x : Word) : (s.setNhop d i x).holds = s.holds :=
  by simp only [State.setNhop, State.setPen]
@[simp] theorem State.setYout_holds (d : Nat) (x : List Frame) : (s.setYout d x).holds = s.holds :=
  by simp only [State.setYout, State.setPen]
@[simp] theorem State.setXing_holds (k : Nat) (v : XingSt) : (s.setXing k v).holds = s.holds := by simp only [State.setXing]
@[simp] theorem State.setSeState_holds (d i v : Nat) : (s.setSeState d i v).holds = s.holds :=
  by simp only [State.setSeState, State.p_holds]
@[simp] theorem State.setSnt_holds (d : Nat) (c : SntSt) : (s.setSnt d c).holds = s.holds := by simp only [State.setSnt]
@[simp] theorem State.setBankSt_holds (B : Nat) (x : BankSt) : (s.setBankSt B x).holds = s.holds := by simp only [State.setBankSt]
@[simp] theorem State.setDynMark_holds (d fa : Nat) (v : Bool) : (s.setDynMark d fa v).holds = s.holds := by simp only [State.setDynMark]
@[simp] theorem State.setPins_holds (d : Nat) (x : PinMode) : (s.setPins d x).holds = s.holds := by simp only [State.setPins]
@[simp] theorem State.setSnap_holds (d : Nat) (x : Snap) : (s.setSnap d x).holds = s.holds := by simp only [State.setSnap]
@[simp] theorem State.setEng_holds (d i : Nat) (e : SEng) : (s.setEng d i e).holds = s.holds := by simp only [State.setEng, State.p_holds]
@[simp] theorem State.setPen_holds (x : PenSt) : (s.setPen x).holds = s.holds := by simp only [State.setPen]
@[simp] theorem State.setDeficit_holds (d e q x : Nat) : (s.setDeficit d e q x).holds = s.holds :=
  by simp only [State.setDeficit, State.setPen]
@[simp] theorem State.setDir_holds (line : Nat) (x : Option DirEnt) : (s.setDir line x).holds = s.holds := by simp only [State.setDir]
@[simp] theorem State.setLinkRx_holds (d e m : Nat) (x : LinkRx) : (s.setLinkRx d e m x).holds = s.holds := by simp only [State.setLinkRx]

/-! ## The updates that leave `clk` alone -/

@[simp] theorem State.setCell_clk (k : Nat) (v : DWord) : (s.setCell k v).clk = s.clk := by simp only [State.setCell]
@[simp] theorem State.p_clk (d : Nat) (f : Fld) (v : Nat) : (s.p d f v).clk = s.clk := by simp only [State.p, State.setCell_clk]
@[simp] theorem State.setCk_clk (d i : Nat) (c : CkMux2) : (s.setCk d i c).clk = s.clk := by simp only [State.setCk]
@[simp] theorem State.setTrainCopy_clk (ch : Nat) (x : Bool) : (s.setTrainCopy ch x).clk = s.clk := by simp only [State.setTrainCopy]
@[simp] theorem State.setHeld_clk (d : Nat) (x : List (Nat × Word)) : (s.setHeld d x).clk = s.clk := by simp only [State.setHeld]
@[simp] theorem State.setChain_clk (d k : Nat) (x : ChainSt) : (s.setChain d k x).clk = s.clk := by simp only [State.setChain]
@[simp] theorem State.setKslot_clk (d k : Nat) (x : Kslot) : (s.setKslot d k x).clk = s.clk := by simp only [State.setKslot, State.p_clk]
@[simp] theorem State.setPmWord_clk (d i n : Nat) (x : BitVec 39) : (s.setPmWord d i n x).clk = s.clk := by simp only [State.setPmWord]
@[simp] theorem State.setWindow_clk (t i : Nat) (x : Bool) : (s.setWindow t i x).clk = s.clk :=
  by simp only [State.setWindow, State.setPen]
@[simp] theorem State.setRingAck_clk (d r : Nat) (x : Option Resp) : (s.setRingAck d r x).clk = s.clk :=
  by simp only [State.setRingAck, State.setPen]
@[simp] theorem State.setSec_clk (x : SecSt) : (s.setSec x).clk = s.clk := by simp only [State.setSec]
@[simp] theorem State.setTestLeft_clk (d n : Nat) : (s.setTestLeft d n).clk = s.clk := by simp only [State.setTestLeft]
@[simp] theorem State.clrBit_clk (d : Nat) (f : Fld) (n : Nat) : (s.clrBit d f n).clk = s.clk := by simp only [State.clrBit, State.p_clk]
@[simp] theorem State.setBankWord_clk (B w : Nat) (x : BWord) : (s.setBankWord B w x).clk = s.clk := by simp only [State.setBankWord]
@[simp] theorem State.setSig_clk (d fa : Nat) (v : Word) : (s.setSig d fa v).clk = s.clk := by simp only [State.setSig]
@[simp] theorem State.setDesign_clk (d : Nat) (x : DieDesign) : (s.setDesign d x).clk = s.clk := by simp only [State.setDesign]
@[simp] theorem State.setArith_clk (d k : Nat) (x : Arith) : (s.setArith d k x).clk = s.clk := by simp only [State.setArith]
@[simp] theorem State.setSeu_clk (d : Nat) (x : List SeuEnt) : (s.setSeu d x).clk = s.clk := by simp only [State.setSeu, State.p_clk]
@[simp] theorem State.setQclk_clk (d q hz : Nat) : (s.setQclk d q hz).clk = s.clk := by simp only [State.setQclk]
@[simp] theorem State.setPaused_clk (d e q : Nat) (x : Bool) : (s.setPaused d e q x).clk = s.clk :=
  by simp only [State.setPaused, State.setPen]
@[simp] theorem State.setCopy_clk (q line : Nat) (x : Option CLine) : (s.setCopy q line x).clk = s.clk := by simp only [State.setCopy]
@[simp] theorem State.setLinkTx_clk (d e m : Nat) (x : LinkTx) : (s.setLinkTx d e m x).clk = s.clk := by simp only [State.setLinkTx]
@[simp] theorem State.setCore_clk (d c v : Nat) : (s.setCore d c v).clk = s.clk := by simp only [State.setCore, State.p_clk]
@[simp] theorem State.setMbox_clk (d : Nat) (c : MboxSt) : (s.setMbox d c).clk = s.clk := by simp only [State.setMbox]
@[simp] theorem State.setDsub_clk (k : Nat) (x : DSub) : (s.setDsub k x).clk = s.clk := by simp only [State.setDsub]
@[simp] theorem State.setWarm_clk (d : Nat) (x : WarmSt) : (s.setWarm d x).clk = s.clk := by simp only [State.setWarm]
@[simp] theorem State.setLut_clk (d k : Nat) (v : DWord) : (s.setLut d k v).clk = s.clk := by simp only [State.setLut]
@[simp] theorem State.setFifo_clk (d n : Nat) (x : Pfifo) : (s.setFifo d n x).clk = s.clk := by simp only [State.setFifo, State.p_clk]
@[simp] theorem State.setDmWord_clk (d i w : Nat) (x : BWord) : (s.setDmWord d i w x).clk = s.clk := by simp only [State.setDmWord]
@[simp] theorem State.setL2_clk (t i : Nat) (x : Option L2Ent) : (s.setL2 t i x).clk = s.clk := by simp only [State.setL2, State.setPen]
@[simp] theorem State.setHello_clk (d p : Nat) (x : HelloSt) : (s.setHello d p x).clk = s.clk :=
  by simp only [State.setHello, State.setPen]
@[simp] theorem State.setHart_clk (k : Nat) (x : HartSt) : (s.setHart k x).clk = s.clk := by simp only [State.setHart]
@[simp] theorem State.setRawRx_clk (d : Nat) (l : List (List Byte)) : (s.setRawRx d l).clk = s.clk := by simp only [State.setRawRx]
@[simp] theorem State.setBit_clk (d : Nat) (f : Fld) (n : Nat) : (s.setBit d f n).clk = s.clk := by simp only [State.setBit, State.p_clk]
@[simp] theorem State.setEv_clk (r n : Nat) (c : EvSrc) : (s.setEv r n c).clk = s.clk := by simp only [State.setEv]
@[simp] theorem State.setFrameWord_clk (d fa w : Nat) (v : DWord) : (s.setFrameWord d fa w v).clk = s.clk :=
  by simp only [State.setFrameWord]
@[simp] theorem State.setFlash_clk (f : FlashSt) : (s.setFlash f).clk = s.clk := by simp only [State.setFlash]
@[simp] theorem State.setBmem_clk (d k : Nat) (x : Bmem) : (s.setBmem d k x).clk = s.clk := by simp only [State.setBmem]
@[simp] theorem State.setPr_clk (d r : Nat) (x : PrSt) : (s.setPr d r x).clk = s.clk := by simp only [State.setPr]
@[simp] theorem State.setPair_clk (d k : Nat) (x : PairSt) : (s.setPair d k x).clk = s.clk := by simp only [State.setPair]
@[simp] theorem State.setNhop_clk (d i : Nat) (x : Word) : (s.setNhop d i x).clk = s.clk := by simp only [State.setNhop, State.setPen]
@[simp] theorem State.setYout_clk (d : Nat) (x : List Frame) : (s.setYout d x).clk = s.clk := by simp only [State.setYout, State.setPen]
@[simp] theorem State.setXing_clk (k : Nat) (v : XingSt) : (s.setXing k v).clk = s.clk := by simp only [State.setXing]
@[simp] theorem State.setSeState_clk (d i v : Nat) : (s.setSeState d i v).clk = s.clk := by simp only [State.setSeState, State.p_clk]
@[simp] theorem State.setLad_clk (d : Nat) (c : LadSt) : (s.setLad d c).clk = s.clk := by simp only [State.setLad]
@[simp] theorem State.setDcell_clk (ch w : Nat) (x : DCell) : (s.setDcell ch w x).clk = s.clk := by simp only [State.setDcell]
@[simp] theorem State.setCfg_clk (c : CfgSt) : (s.setCfg c).clk = s.clk := by simp only [State.setCfg]
@[simp] theorem State.setFf_clk (d k : Nat) (v : Bool) : (s.setFf d k v).clk = s.clk := by simp only [State.setFf]
@[simp] theorem State.setRb_clk (d : Nat) (x : Option RbSt) : (s.setRb d x).clk = s.clk := by simp only [State.setRb]
@[simp] theorem State.setSeLate_clk (d i : Nat) (l : List SeLate) : (s.setSeLate d i l).clk = s.clk := by simp only [State.setSeLate]
@[simp] theorem State.setPenDie_clk (d : Nat) (x : PenDie) : (s.setPenDie d x).clk = s.clk :=
  by simp only [State.setPenDie, State.setPen, State.p_clk]
@[simp] theorem State.setDrr_clk (d e : Nat) (x : DrrSt) : (s.setDrr d e x).clk = s.clk := by simp only [State.setDrr, State.setPen]
@[simp] theorem State.setNet_clk (rid tag : Nat) (x : Option NetReq) : (s.setNet rid tag x).clk = s.clk := by simp only [State.setNet]
@[simp] theorem State.setCapsIn_clk (d e : Nat) (x : CapsIn) : (s.setCapsIn d e x).clk = s.clk := by simp only [State.setCapsIn]
@[simp] theorem State.setMon_clk (d m : Nat) (c : MonWin) : (s.setMon d m c).clk = s.clk := by simp only [State.setMon]
@[simp] theorem State.setMee_clk (ch : Nat) (x : MeeSt) : (s.setMee ch x).clk = s.clk := by simp only [State.setMee]
@[simp] theorem State.setParse_clk (p : ParseSt) : (s.setParse p).clk = s.clk := by simp only [State.setParse]
@[simp] theorem State.setIo_clk (d p : Nat) (x : IoCell) : (s.setIo d p x).clk = s.clk := by simp only [State.setIo]
@[simp] theorem State.setNport_clk (d p : Nat) (x : Nport) : (s.setNport d p x).clk = s.clk := by simp only [State.setNport]
@[simp] theorem State.setLane_clk (d n : Nat) (x : LaneSt) : (s.setLane d n x).clk = s.clk := by simp only [State.setLane]
@[simp] theorem State.setVlanWord_clk (d v w : Nat) (x : Word) : (s.setVlanWord d v w x).clk = s.clk :=
  by simp only [State.setVlanWord, State.setPen]
@[simp] theorem State.setAir_clk (d e : Nat) (x : List TrunkFrame) : (s.setAir d e x).clk = s.clk :=
  by simp only [State.setAir, State.setPen]
@[simp] theorem State.setFuses_clk (x : Fuses) : (s.setFuses x).clk = s.clk := by simp only [State.setFuses]
@[simp] theorem State.setEdge_clk (d e v : Nat) : (s.setEdge d e v).clk = s.clk := by simp only [State.setEdge, State.p_clk]
@[simp] theorem State.setSnt_clk (d : Nat) (c : SntSt) : (s.setSnt d c).clk = s.clk := by simp only [State.setSnt]
@[simp] theorem State.setBankSt_clk (B : Nat) (x : BankSt) : (s.setBankSt B x).clk = s.clk := by simp only [State.setBankSt]
@[simp] theorem State.setDynMark_clk (d fa : Nat) (v : Bool) : (s.setDynMark d fa v).clk = s.clk := by simp only [State.setDynMark]
@[simp] theorem State.setPins_clk (d : Nat) (x : PinMode) : (s.setPins d x).clk = s.clk := by simp only [State.setPins]
@[simp] theorem State.setSnap_clk (d : Nat) (x : Snap) : (s.setSnap d x).clk = s.clk := by simp only [State.setSnap]
@[simp] theorem State.setEng_clk (d i : Nat) (e : SEng) : (s.setEng d i e).clk = s.clk := by simp only [State.setEng, State.p_clk]
@[simp] theorem State.setPen_clk (x : PenSt) : (s.setPen x).clk = s.clk := by simp only [State.setPen]
@[simp] theorem State.setDeficit_clk (d e q x : Nat) : (s.setDeficit d e q x).clk = s.clk := by simp only [State.setDeficit, State.setPen]
@[simp] theorem State.setDir_clk (line : Nat) (x : Option DirEnt) : (s.setDir line x).clk = s.clk := by simp only [State.setDir]
@[simp] theorem State.setLinkRx_clk (d e m : Nat) (x : LinkRx) : (s.setLinkRx d e m x).clk = s.clk := by simp only [State.setLinkRx]

/-! ## The updates that leave `ckmux` alone -/

@[simp] theorem State.setCell_ckmux (k : Nat) (v : DWord) : (s.setCell k v).ckmux = s.ckmux := by simp only [State.setCell]
@[simp] theorem State.p_ckmux (d : Nat) (f : Fld) (v : Nat) : (s.p d f v).ckmux = s.ckmux := by simp only [State.p, State.setCell_ckmux]
@[simp] theorem State.setMbox_ckmux (d : Nat) (c : MboxSt) : (s.setMbox d c).ckmux = s.ckmux := by simp only [State.setMbox]
@[simp] theorem State.setTrainCopy_ckmux (ch : Nat) (x : Bool) : (s.setTrainCopy ch x).ckmux = s.ckmux := by simp only [State.setTrainCopy]
@[simp] theorem State.setHeld_ckmux (d : Nat) (x : List (Nat × Word)) : (s.setHeld d x).ckmux = s.ckmux := by simp only [State.setHeld]
@[simp] theorem State.setChain_ckmux (d k : Nat) (x : ChainSt) : (s.setChain d k x).ckmux = s.ckmux := by simp only [State.setChain]
@[simp] theorem State.setKslot_ckmux (d k : Nat) (x : Kslot) : (s.setKslot d k x).ckmux = s.ckmux :=
  by simp only [State.setKslot, State.p_ckmux]
@[simp] theorem State.setPmWord_ckmux (d i n : Nat) (x : BitVec 39) : (s.setPmWord d i n x).ckmux = s.ckmux :=
  by simp only [State.setPmWord]
@[simp] theorem State.setWindow_ckmux (t i : Nat) (x : Bool) : (s.setWindow t i x).ckmux = s.ckmux :=
  by simp only [State.setWindow, State.setPen]
@[simp] theorem State.setRingAck_ckmux (d r : Nat) (x : Option Resp) : (s.setRingAck d r x).ckmux = s.ckmux :=
  by simp only [State.setRingAck, State.setPen]
@[simp] theorem State.setSec_ckmux (x : SecSt) : (s.setSec x).ckmux = s.ckmux := by simp only [State.setSec]
@[simp] theorem State.setTestLeft_ckmux (d n : Nat) : (s.setTestLeft d n).ckmux = s.ckmux := by simp only [State.setTestLeft]
@[simp] theorem State.clrBit_ckmux (d : Nat) (f : Fld) (n : Nat) : (s.clrBit d f n).ckmux = s.ckmux :=
  by simp only [State.clrBit, State.p_ckmux]
@[simp] theorem State.setBankWord_ckmux (B w : Nat) (x : BWord) : (s.setBankWord B w x).ckmux = s.ckmux := by simp only [State.setBankWord]
@[simp] theorem State.setSig_ckmux (d fa : Nat) (v : Word) : (s.setSig d fa v).ckmux = s.ckmux := by simp only [State.setSig]
@[simp] theorem State.setDesign_ckmux (d : Nat) (x : DieDesign) : (s.setDesign d x).ckmux = s.ckmux := by simp only [State.setDesign]
@[simp] theorem State.setArith_ckmux (d k : Nat) (x : Arith) : (s.setArith d k x).ckmux = s.ckmux := by simp only [State.setArith]
@[simp] theorem State.setSeu_ckmux (d : Nat) (x : List SeuEnt) : (s.setSeu d x).ckmux = s.ckmux :=
  by simp only [State.setSeu, State.p_ckmux]
@[simp] theorem State.setQclk_ckmux (d q hz : Nat) : (s.setQclk d q hz).ckmux = s.ckmux := by simp only [State.setQclk]
@[simp] theorem State.setPaused_ckmux (d e q : Nat) (x : Bool) : (s.setPaused d e q x).ckmux = s.ckmux :=
  by simp only [State.setPaused, State.setPen]
@[simp] theorem State.setCopy_ckmux (q line : Nat) (x : Option CLine) : (s.setCopy q line x).ckmux = s.ckmux :=
  by simp only [State.setCopy]
@[simp] theorem State.setLinkTx_ckmux (d e m : Nat) (x : LinkTx) : (s.setLinkTx d e m x).ckmux = s.ckmux := by simp only [State.setLinkTx]
@[simp] theorem State.setCore_ckmux (d c v : Nat) : (s.setCore d c v).ckmux = s.ckmux := by simp only [State.setCore, State.p_ckmux]
@[simp] theorem State.setLad_ckmux (d : Nat) (c : LadSt) : (s.setLad d c).ckmux = s.ckmux := by simp only [State.setLad]
@[simp] theorem State.setDsub_ckmux (k : Nat) (x : DSub) : (s.setDsub k x).ckmux = s.ckmux := by simp only [State.setDsub]
@[simp] theorem State.setWarm_ckmux (d : Nat) (x : WarmSt) : (s.setWarm d x).ckmux = s.ckmux := by simp only [State.setWarm]
@[simp] theorem State.setLut_ckmux (d k : Nat) (v : DWord) : (s.setLut d k v).ckmux = s.ckmux := by simp only [State.setLut]
@[simp] theorem State.setFifo_ckmux (d n : Nat) (x : Pfifo) : (s.setFifo d n x).ckmux = s.ckmux :=
  by simp only [State.setFifo, State.p_ckmux]
@[simp] theorem State.setDmWord_ckmux (d i w : Nat) (x : BWord) : (s.setDmWord d i w x).ckmux = s.ckmux := by simp only [State.setDmWord]
@[simp] theorem State.setL2_ckmux (t i : Nat) (x : Option L2Ent) : (s.setL2 t i x).ckmux = s.ckmux :=
  by simp only [State.setL2, State.setPen]
@[simp] theorem State.setHello_ckmux (d p : Nat) (x : HelloSt) : (s.setHello d p x).ckmux = s.ckmux :=
  by simp only [State.setHello, State.setPen]
@[simp] theorem State.setHart_ckmux (k : Nat) (x : HartSt) : (s.setHart k x).ckmux = s.ckmux := by simp only [State.setHart]
@[simp] theorem State.setRawRx_ckmux (d : Nat) (l : List (List Byte)) : (s.setRawRx d l).ckmux = s.ckmux := by simp only [State.setRawRx]
@[simp] theorem State.setBit_ckmux (d : Nat) (f : Fld) (n : Nat) : (s.setBit d f n).ckmux = s.ckmux :=
  by simp only [State.setBit, State.p_ckmux]
@[simp] theorem State.setEv_ckmux (r n : Nat) (c : EvSrc) : (s.setEv r n c).ckmux = s.ckmux := by simp only [State.setEv]
@[simp] theorem State.setFrameWord_ckmux (d fa w : Nat) (v : DWord) : (s.setFrameWord d fa w v).ckmux = s.ckmux :=
  by simp only [State.setFrameWord]
@[simp] theorem State.setFlash_ckmux (f : FlashSt) : (s.setFlash f).ckmux = s.ckmux := by simp only [State.setFlash]
@[simp] theorem State.setBmem_ckmux (d k : Nat) (x : Bmem) : (s.setBmem d k x).ckmux = s.ckmux := by simp only [State.setBmem]
@[simp] theorem State.setPr_ckmux (d r : Nat) (x : PrSt) : (s.setPr d r x).ckmux = s.ckmux := by simp only [State.setPr]
@[simp] theorem State.setPair_ckmux (d k : Nat) (x : PairSt) : (s.setPair d k x).ckmux = s.ckmux := by simp only [State.setPair]
@[simp] theorem State.setNhop_ckmux (d i : Nat) (x : Word) : (s.setNhop d i x).ckmux = s.ckmux :=
  by simp only [State.setNhop, State.setPen]
@[simp] theorem State.setYout_ckmux (d : Nat) (x : List Frame) : (s.setYout d x).ckmux = s.ckmux :=
  by simp only [State.setYout, State.setPen]
@[simp] theorem State.setXing_ckmux (k : Nat) (v : XingSt) : (s.setXing k v).ckmux = s.ckmux := by simp only [State.setXing]
@[simp] theorem State.setSeState_ckmux (d i v : Nat) : (s.setSeState d i v).ckmux = s.ckmux :=
  by simp only [State.setSeState, State.p_ckmux]
@[simp] theorem State.setSnt_ckmux (d : Nat) (c : SntSt) : (s.setSnt d c).ckmux = s.ckmux := by simp only [State.setSnt]
@[simp] theorem State.setDcell_ckmux (ch w : Nat) (x : DCell) : (s.setDcell ch w x).ckmux = s.ckmux := by simp only [State.setDcell]
@[simp] theorem State.setCfg_ckmux (c : CfgSt) : (s.setCfg c).ckmux = s.ckmux := by simp only [State.setCfg]
@[simp] theorem State.setFf_ckmux (d k : Nat) (v : Bool) : (s.setFf d k v).ckmux = s.ckmux := by simp only [State.setFf]
@[simp] theorem State.setRb_ckmux (d : Nat) (x : Option RbSt) : (s.setRb d x).ckmux = s.ckmux := by simp only [State.setRb]
@[simp] theorem State.setSeLate_ckmux (d i : Nat) (l : List SeLate) : (s.setSeLate d i l).ckmux = s.ckmux := by simp only [State.setSeLate]
@[simp] theorem State.setPenDie_ckmux (d : Nat) (x : PenDie) : (s.setPenDie d x).ckmux = s.ckmux :=
  by simp only [State.setPenDie, State.setPen, State.p_ckmux]
@[simp] theorem State.setDrr_ckmux (d e : Nat) (x : DrrSt) : (s.setDrr d e x).ckmux = s.ckmux := by simp only [State.setDrr, State.setPen]
@[simp] theorem State.setNet_ckmux (rid tag : Nat) (x : Option NetReq) : (s.setNet rid tag x).ckmux = s.ckmux :=
  by simp only [State.setNet]
@[simp] theorem State.setCapsIn_ckmux (d e : Nat) (x : CapsIn) : (s.setCapsIn d e x).ckmux = s.ckmux := by simp only [State.setCapsIn]
@[simp] theorem State.setMon_ckmux (d m : Nat) (c : MonWin) : (s.setMon d m c).ckmux = s.ckmux := by simp only [State.setMon]
@[simp] theorem State.setMee_ckmux (ch : Nat) (x : MeeSt) : (s.setMee ch x).ckmux = s.ckmux := by simp only [State.setMee]
@[simp] theorem State.setParse_ckmux (p : ParseSt) : (s.setParse p).ckmux = s.ckmux := by simp only [State.setParse]
@[simp] theorem State.setIo_ckmux (d p : Nat) (x : IoCell) : (s.setIo d p x).ckmux = s.ckmux := by simp only [State.setIo]
@[simp] theorem State.setNport_ckmux (d p : Nat) (x : Nport) : (s.setNport d p x).ckmux = s.ckmux := by simp only [State.setNport]
@[simp] theorem State.setLane_ckmux (d n : Nat) (x : LaneSt) : (s.setLane d n x).ckmux = s.ckmux := by simp only [State.setLane]
@[simp] theorem State.setVlanWord_ckmux (d v w : Nat) (x : Word) : (s.setVlanWord d v w x).ckmux = s.ckmux :=
  by simp only [State.setVlanWord, State.setPen]
@[simp] theorem State.setAir_ckmux (d e : Nat) (x : List TrunkFrame) : (s.setAir d e x).ckmux = s.ckmux :=
  by simp only [State.setAir, State.setPen]
@[simp] theorem State.setFuses_ckmux (x : Fuses) : (s.setFuses x).ckmux = s.ckmux := by simp only [State.setFuses]
@[simp] theorem State.setEdge_ckmux (d e v : Nat) : (s.setEdge d e v).ckmux = s.ckmux := by simp only [State.setEdge, State.p_ckmux]
@[simp] theorem State.setClk_ckmux (d : Nat) (c : ClkSt) : (s.setClk d c).ckmux = s.ckmux := by simp only [State.setClk]
@[simp] theorem State.setBankSt_ckmux (B : Nat) (x : BankSt) : (s.setBankSt B x).ckmux = s.ckmux := by simp only [State.setBankSt]
@[simp] theorem State.setDynMark_ckmux (d fa : Nat) (v : Bool) : (s.setDynMark d fa v).ckmux = s.ckmux := by simp only [State.setDynMark]
@[simp] theorem State.setPins_ckmux (d : Nat) (x : PinMode) : (s.setPins d x).ckmux = s.ckmux := by simp only [State.setPins]
@[simp] theorem State.setSnap_ckmux (d : Nat) (x : Snap) : (s.setSnap d x).ckmux = s.ckmux := by simp only [State.setSnap]
@[simp] theorem State.setEng_ckmux (d i : Nat) (e : SEng) : (s.setEng d i e).ckmux = s.ckmux := by simp only [State.setEng, State.p_ckmux]
@[simp] theorem State.setPen_ckmux (x : PenSt) : (s.setPen x).ckmux = s.ckmux := by simp only [State.setPen]
@[simp] theorem State.setDeficit_ckmux (d e q x : Nat) : (s.setDeficit d e q x).ckmux = s.ckmux :=
  by simp only [State.setDeficit, State.setPen]
@[simp] theorem State.setDir_ckmux (line : Nat) (x : Option DirEnt) : (s.setDir line x).ckmux = s.ckmux := by simp only [State.setDir]
@[simp] theorem State.setLinkRx_ckmux (d e m : Nat) (x : LinkRx) : (s.setLinkRx d e m x).ckmux = s.ckmux := by simp only [State.setLinkRx]

/-! ## The updates that leave `evs` alone -/

@[simp] theorem State.setCell_evs (k : Nat) (v : DWord) : (s.setCell k v).evs = s.evs := by simp only [State.setCell]
@[simp] theorem State.p_evs (d : Nat) (f : Fld) (v : Nat) : (s.p d f v).evs = s.evs := by simp only [State.p, State.setCell_evs]
@[simp] theorem State.setMbox_evs (d : Nat) (c : MboxSt) : (s.setMbox d c).evs = s.evs := by simp only [State.setMbox]
@[simp] theorem State.setTrainCopy_evs (ch : Nat) (x : Bool) : (s.setTrainCopy ch x).evs = s.evs := by simp only [State.setTrainCopy]
@[simp] theorem State.setHeld_evs (d : Nat) (x : List (Nat × Word)) : (s.setHeld d x).evs = s.evs := by simp only [State.setHeld]
@[simp] theorem State.setChain_evs (d k : Nat) (x : ChainSt) : (s.setChain d k x).evs = s.evs := by simp only [State.setChain]
@[simp] theorem State.setKslot_evs (d k : Nat) (x : Kslot) : (s.setKslot d k x).evs = s.evs := by simp only [State.setKslot, State.p_evs]
@[simp] theorem State.setPmWord_evs (d i n : Nat) (x : BitVec 39) : (s.setPmWord d i n x).evs = s.evs := by simp only [State.setPmWord]
@[simp] theorem State.setWindow_evs (t i : Nat) (x : Bool) : (s.setWindow t i x).evs = s.evs :=
  by simp only [State.setWindow, State.setPen]
@[simp] theorem State.setRingAck_evs (d r : Nat) (x : Option Resp) : (s.setRingAck d r x).evs = s.evs :=
  by simp only [State.setRingAck, State.setPen]
@[simp] theorem State.setSec_evs (x : SecSt) : (s.setSec x).evs = s.evs := by simp only [State.setSec]
@[simp] theorem State.setTestLeft_evs (d n : Nat) : (s.setTestLeft d n).evs = s.evs := by simp only [State.setTestLeft]
@[simp] theorem State.clrBit_evs (d : Nat) (f : Fld) (n : Nat) : (s.clrBit d f n).evs = s.evs := by simp only [State.clrBit, State.p_evs]
@[simp] theorem State.setBankWord_evs (B w : Nat) (x : BWord) : (s.setBankWord B w x).evs = s.evs := by simp only [State.setBankWord]
@[simp] theorem State.setSig_evs (d fa : Nat) (v : Word) : (s.setSig d fa v).evs = s.evs := by simp only [State.setSig]
@[simp] theorem State.setDesign_evs (d : Nat) (x : DieDesign) : (s.setDesign d x).evs = s.evs := by simp only [State.setDesign]
@[simp] theorem State.setArith_evs (d k : Nat) (x : Arith) : (s.setArith d k x).evs = s.evs := by simp only [State.setArith]
@[simp] theorem State.setSeu_evs (d : Nat) (x : List SeuEnt) : (s.setSeu d x).evs = s.evs := by simp only [State.setSeu, State.p_evs]
@[simp] theorem State.setQclk_evs (d q hz : Nat) : (s.setQclk d q hz).evs = s.evs := by simp only [State.setQclk]
@[simp] theorem State.setPaused_evs (d e q : Nat) (x : Bool) : (s.setPaused d e q x).evs = s.evs :=
  by simp only [State.setPaused, State.setPen]
@[simp] theorem State.setCopy_evs (q line : Nat) (x : Option CLine) : (s.setCopy q line x).evs = s.evs := by simp only [State.setCopy]
@[simp] theorem State.setLinkTx_evs (d e m : Nat) (x : LinkTx) : (s.setLinkTx d e m x).evs = s.evs := by simp only [State.setLinkTx]
@[simp] theorem State.setCore_evs (d c v : Nat) : (s.setCore d c v).evs = s.evs := by simp only [State.setCore, State.p_evs]
@[simp] theorem State.setLad_evs (d : Nat) (c : LadSt) : (s.setLad d c).evs = s.evs := by simp only [State.setLad]
@[simp] theorem State.setDsub_evs (k : Nat) (x : DSub) : (s.setDsub k x).evs = s.evs := by simp only [State.setDsub]
@[simp] theorem State.setWarm_evs (d : Nat) (x : WarmSt) : (s.setWarm d x).evs = s.evs := by simp only [State.setWarm]
@[simp] theorem State.setLut_evs (d k : Nat) (v : DWord) : (s.setLut d k v).evs = s.evs := by simp only [State.setLut]
@[simp] theorem State.setFifo_evs (d n : Nat) (x : Pfifo) : (s.setFifo d n x).evs = s.evs := by simp only [State.setFifo, State.p_evs]
@[simp] theorem State.setDmWord_evs (d i w : Nat) (x : BWord) : (s.setDmWord d i w x).evs = s.evs := by simp only [State.setDmWord]
@[simp] theorem State.setL2_evs (t i : Nat) (x : Option L2Ent) : (s.setL2 t i x).evs = s.evs := by simp only [State.setL2, State.setPen]
@[simp] theorem State.setHello_evs (d p : Nat) (x : HelloSt) : (s.setHello d p x).evs = s.evs :=
  by simp only [State.setHello, State.setPen]
@[simp] theorem State.setHart_evs (k : Nat) (x : HartSt) : (s.setHart k x).evs = s.evs := by simp only [State.setHart]
@[simp] theorem State.setRawRx_evs (d : Nat) (l : List (List Byte)) : (s.setRawRx d l).evs = s.evs := by simp only [State.setRawRx]
@[simp] theorem State.setBit_evs (d : Nat) (f : Fld) (n : Nat) : (s.setBit d f n).evs = s.evs := by simp only [State.setBit, State.p_evs]
@[simp] theorem State.setMon_evs (d m : Nat) (c : MonWin) : (s.setMon d m c).evs = s.evs := by simp only [State.setMon]
@[simp] theorem State.setFrameWord_evs (d fa w : Nat) (v : DWord) : (s.setFrameWord d fa w v).evs = s.evs :=
  by simp only [State.setFrameWord]
@[simp] theorem State.setFlash_evs (f : FlashSt) : (s.setFlash f).evs = s.evs := by simp only [State.setFlash]
@[simp] theorem State.setBmem_evs (d k : Nat) (x : Bmem) : (s.setBmem d k x).evs = s.evs := by simp only [State.setBmem]
@[simp] theorem State.setPr_evs (d r : Nat) (x : PrSt) : (s.setPr d r x).evs = s.evs := by simp only [State.setPr]
@[simp] theorem State.setPair_evs (d k : Nat) (x : PairSt) : (s.setPair d k x).evs = s.evs := by simp only [State.setPair]
@[simp] theorem State.setNhop_evs (d i : Nat) (x : Word) : (s.setNhop d i x).evs = s.evs := by simp only [State.setNhop, State.setPen]
@[simp] theorem State.setYout_evs (d : Nat) (x : List Frame) : (s.setYout d x).evs = s.evs := by simp only [State.setYout, State.setPen]
@[simp] theorem State.setXing_evs (k : Nat) (v : XingSt) : (s.setXing k v).evs = s.evs := by simp only [State.setXing]
@[simp] theorem State.setSeState_evs (d i v : Nat) : (s.setSeState d i v).evs = s.evs := by simp only [State.setSeState, State.p_evs]
@[simp] theorem State.setSnt_evs (d : Nat) (c : SntSt) : (s.setSnt d c).evs = s.evs := by simp only [State.setSnt]
@[simp] theorem State.setDcell_evs (ch w : Nat) (x : DCell) : (s.setDcell ch w x).evs = s.evs := by simp only [State.setDcell]
@[simp] theorem State.setCfg_evs (c : CfgSt) : (s.setCfg c).evs = s.evs := by simp only [State.setCfg]
@[simp] theorem State.setFf_evs (d k : Nat) (v : Bool) : (s.setFf d k v).evs = s.evs := by simp only [State.setFf]
@[simp] theorem State.setRb_evs (d : Nat) (x : Option RbSt) : (s.setRb d x).evs = s.evs := by simp only [State.setRb]
@[simp] theorem State.setSeLate_evs (d i : Nat) (l : List SeLate) : (s.setSeLate d i l).evs = s.evs := by simp only [State.setSeLate]
@[simp] theorem State.setPenDie_evs (d : Nat) (x : PenDie) : (s.setPenDie d x).evs = s.evs :=
  by simp only [State.setPenDie, State.setPen, State.p_evs]
@[simp] theorem State.setDrr_evs (d e : Nat) (x : DrrSt) : (s.setDrr d e x).evs = s.evs := by simp only [State.setDrr, State.setPen]
@[simp] theorem State.setNet_evs (rid tag : Nat) (x : Option NetReq) : (s.setNet rid tag x).evs = s.evs := by simp only [State.setNet]
@[simp] theorem State.setCapsIn_evs (d e : Nat) (x : CapsIn) : (s.setCapsIn d e x).evs = s.evs := by simp only [State.setCapsIn]
@[simp] theorem State.setCk_evs (d i : Nat) (c : CkMux2) : (s.setCk d i c).evs = s.evs := by simp only [State.setCk]
@[simp] theorem State.setMee_evs (ch : Nat) (x : MeeSt) : (s.setMee ch x).evs = s.evs := by simp only [State.setMee]
@[simp] theorem State.setParse_evs (p : ParseSt) : (s.setParse p).evs = s.evs := by simp only [State.setParse]
@[simp] theorem State.setIo_evs (d p : Nat) (x : IoCell) : (s.setIo d p x).evs = s.evs := by simp only [State.setIo]
@[simp] theorem State.setNport_evs (d p : Nat) (x : Nport) : (s.setNport d p x).evs = s.evs := by simp only [State.setNport]
@[simp] theorem State.setLane_evs (d n : Nat) (x : LaneSt) : (s.setLane d n x).evs = s.evs := by simp only [State.setLane]
@[simp] theorem State.setVlanWord_evs (d v w : Nat) (x : Word) : (s.setVlanWord d v w x).evs = s.evs :=
  by simp only [State.setVlanWord, State.setPen]
@[simp] theorem State.setAir_evs (d e : Nat) (x : List TrunkFrame) : (s.setAir d e x).evs = s.evs :=
  by simp only [State.setAir, State.setPen]
@[simp] theorem State.setFuses_evs (x : Fuses) : (s.setFuses x).evs = s.evs := by simp only [State.setFuses]
@[simp] theorem State.setEdge_evs (d e v : Nat) : (s.setEdge d e v).evs = s.evs := by simp only [State.setEdge, State.p_evs]
@[simp] theorem State.setClk_evs (d : Nat) (c : ClkSt) : (s.setClk d c).evs = s.evs := by simp only [State.setClk]
@[simp] theorem State.setBankSt_evs (B : Nat) (x : BankSt) : (s.setBankSt B x).evs = s.evs := by simp only [State.setBankSt]
@[simp] theorem State.setDynMark_evs (d fa : Nat) (v : Bool) : (s.setDynMark d fa v).evs = s.evs := by simp only [State.setDynMark]
@[simp] theorem State.setPins_evs (d : Nat) (x : PinMode) : (s.setPins d x).evs = s.evs := by simp only [State.setPins]
@[simp] theorem State.setSnap_evs (d : Nat) (x : Snap) : (s.setSnap d x).evs = s.evs := by simp only [State.setSnap]
@[simp] theorem State.setEng_evs (d i : Nat) (e : SEng) : (s.setEng d i e).evs = s.evs := by simp only [State.setEng, State.p_evs]
@[simp] theorem State.setPen_evs (x : PenSt) : (s.setPen x).evs = s.evs := by simp only [State.setPen]
@[simp] theorem State.setDeficit_evs (d e q x : Nat) : (s.setDeficit d e q x).evs = s.evs := by simp only [State.setDeficit, State.setPen]
@[simp] theorem State.setDir_evs (line : Nat) (x : Option DirEnt) : (s.setDir line x).evs = s.evs := by simp only [State.setDir]
@[simp] theorem State.setLinkRx_evs (d e m : Nat) (x : LinkRx) : (s.setLinkRx d e m x).evs = s.evs := by simp only [State.setLinkRx]

/-! ## The updates that leave `pulses` alone -/

@[simp] theorem State.setCell_pulses (k : Nat) (v : DWord) : (s.setCell k v).pulses = s.pulses := by simp only [State.setCell]
@[simp] theorem State.p_pulses (d : Nat) (f : Fld) (v : Nat) : (s.p d f v).pulses = s.pulses :=
  by simp only [State.p, State.setCell_pulses]
@[simp] theorem State.setMbox_pulses (d : Nat) (c : MboxSt) : (s.setMbox d c).pulses = s.pulses := by simp only [State.setMbox]
@[simp] theorem State.setDsub_pulses (k : Nat) (x : DSub) : (s.setDsub k x).pulses = s.pulses := by simp only [State.setDsub]
@[simp] theorem State.setWarm_pulses (d : Nat) (x : WarmSt) : (s.setWarm d x).pulses = s.pulses := by simp only [State.setWarm]
@[simp] theorem State.setLut_pulses (d k : Nat) (v : DWord) : (s.setLut d k v).pulses = s.pulses := by simp only [State.setLut]
@[simp] theorem State.setFifo_pulses (d n : Nat) (x : Pfifo) : (s.setFifo d n x).pulses = s.pulses :=
  by simp only [State.setFifo, State.p_pulses]
@[simp] theorem State.setDmWord_pulses (d i w : Nat) (x : BWord) : (s.setDmWord d i w x).pulses = s.pulses :=
  by simp only [State.setDmWord]
@[simp] theorem State.setL2_pulses (t i : Nat) (x : Option L2Ent) : (s.setL2 t i x).pulses = s.pulses :=
  by simp only [State.setL2, State.setPen]
@[simp] theorem State.setHello_pulses (d p : Nat) (x : HelloSt) : (s.setHello d p x).pulses = s.pulses :=
  by simp only [State.setHello, State.setPen]
@[simp] theorem State.setHart_pulses (k : Nat) (x : HartSt) : (s.setHart k x).pulses = s.pulses := by simp only [State.setHart]
@[simp] theorem State.setRawRx_pulses (d : Nat) (l : List (List Byte)) : (s.setRawRx d l).pulses = s.pulses :=
  by simp only [State.setRawRx]
@[simp] theorem State.setBit_pulses (d : Nat) (f : Fld) (n : Nat) : (s.setBit d f n).pulses = s.pulses :=
  by simp only [State.setBit, State.p_pulses]
@[simp] theorem State.setMon_pulses (d m : Nat) (c : MonWin) : (s.setMon d m c).pulses = s.pulses := by simp only [State.setMon]
@[simp] theorem State.setMee_pulses (ch : Nat) (x : MeeSt) : (s.setMee ch x).pulses = s.pulses := by simp only [State.setMee]
@[simp] theorem State.setParse_pulses (p : ParseSt) : (s.setParse p).pulses = s.pulses := by simp only [State.setParse]
@[simp] theorem State.setIo_pulses (d p : Nat) (x : IoCell) : (s.setIo d p x).pulses = s.pulses := by simp only [State.setIo]
@[simp] theorem State.setNport_pulses (d p : Nat) (x : Nport) : (s.setNport d p x).pulses = s.pulses := by simp only [State.setNport]
@[simp] theorem State.setLane_pulses (d n : Nat) (x : LaneSt) : (s.setLane d n x).pulses = s.pulses := by simp only [State.setLane]
@[simp] theorem State.setVlanWord_pulses (d v w : Nat) (x : Word) : (s.setVlanWord d v w x).pulses = s.pulses :=
  by simp only [State.setVlanWord, State.setPen]
@[simp] theorem State.setAir_pulses (d e : Nat) (x : List TrunkFrame) : (s.setAir d e x).pulses = s.pulses :=
  by simp only [State.setAir, State.setPen]
@[simp] theorem State.setFuses_pulses (x : Fuses) : (s.setFuses x).pulses = s.pulses := by simp only [State.setFuses]
@[simp] theorem State.setEdge_pulses (d e v : Nat) : (s.setEdge d e v).pulses = s.pulses := by simp only [State.setEdge, State.p_pulses]
@[simp] theorem State.setClk_pulses (d : Nat) (c : ClkSt) : (s.setClk d c).pulses = s.pulses := by simp only [State.setClk]
@[simp] theorem State.setBankWord_pulses (B w : Nat) (x : BWord) : (s.setBankWord B w x).pulses = s.pulses :=
  by simp only [State.setBankWord]
@[simp] theorem State.setSig_pulses (d fa : Nat) (v : Word) : (s.setSig d fa v).pulses = s.pulses := by simp only [State.setSig]
@[simp] theorem State.setDesign_pulses (d : Nat) (x : DieDesign) : (s.setDesign d x).pulses = s.pulses := by simp only [State.setDesign]
@[simp] theorem State.setArith_pulses (d k : Nat) (x : Arith) : (s.setArith d k x).pulses = s.pulses := by simp only [State.setArith]
@[simp] theorem State.setSeu_pulses (d : Nat) (x : List SeuEnt) : (s.setSeu d x).pulses = s.pulses :=
  by simp only [State.setSeu, State.p_pulses]
@[simp] theorem State.setQclk_pulses (d q hz : Nat) : (s.setQclk d q hz).pulses = s.pulses := by simp only [State.setQclk]
@[simp] theorem State.setPaused_pulses (d e q : Nat) (x : Bool) : (s.setPaused d e q x).pulses = s.pulses :=
  by simp only [State.setPaused, State.setPen]
@[simp] theorem State.setCopy_pulses (q line : Nat) (x : Option CLine) : (s.setCopy q line x).pulses = s.pulses :=
  by simp only [State.setCopy]
@[simp] theorem State.setLinkTx_pulses (d e m : Nat) (x : LinkTx) : (s.setLinkTx d e m x).pulses = s.pulses :=
  by simp only [State.setLinkTx]
@[simp] theorem State.setCore_pulses (d c v : Nat) : (s.setCore d c v).pulses = s.pulses := by simp only [State.setCore, State.p_pulses]
@[simp] theorem State.setLad_pulses (d : Nat) (c : LadSt) : (s.setLad d c).pulses = s.pulses := by simp only [State.setLad]
@[simp] theorem State.setDcell_pulses (ch w : Nat) (x : DCell) : (s.setDcell ch w x).pulses = s.pulses := by simp only [State.setDcell]
@[simp] theorem State.setCfg_pulses (c : CfgSt) : (s.setCfg c).pulses = s.pulses := by simp only [State.setCfg]
@[simp] theorem State.setFf_pulses (d k : Nat) (v : Bool) : (s.setFf d k v).pulses = s.pulses := by simp only [State.setFf]
@[simp] theorem State.setRb_pulses (d : Nat) (x : Option RbSt) : (s.setRb d x).pulses = s.pulses := by simp only [State.setRb]
@[simp] theorem State.setSeLate_pulses (d i : Nat) (l : List SeLate) : (s.setSeLate d i l).pulses = s.pulses :=
  by simp only [State.setSeLate]
@[simp] theorem State.setPenDie_pulses (d : Nat) (x : PenDie) : (s.setPenDie d x).pulses = s.pulses :=
  by simp only [State.setPenDie, State.setPen, State.p_pulses]
@[simp] theorem State.setDrr_pulses (d e : Nat) (x : DrrSt) : (s.setDrr d e x).pulses = s.pulses :=
  by simp only [State.setDrr, State.setPen]
@[simp] theorem State.setNet_pulses (rid tag : Nat) (x : Option NetReq) : (s.setNet rid tag x).pulses = s.pulses :=
  by simp only [State.setNet]
@[simp] theorem State.setCapsIn_pulses (d e : Nat) (x : CapsIn) : (s.setCapsIn d e x).pulses = s.pulses := by simp only [State.setCapsIn]
@[simp] theorem State.setCk_pulses (d i : Nat) (c : CkMux2) : (s.setCk d i c).pulses = s.pulses := by simp only [State.setCk]
@[simp] theorem State.setTrainCopy_pulses (ch : Nat) (x : Bool) : (s.setTrainCopy ch x).pulses = s.pulses :=
  by simp only [State.setTrainCopy]
@[simp] theorem State.setHeld_pulses (d : Nat) (x : List (Nat × Word)) : (s.setHeld d x).pulses = s.pulses := by simp only [State.setHeld]
@[simp] theorem State.setChain_pulses (d k : Nat) (x : ChainSt) : (s.setChain d k x).pulses = s.pulses := by simp only [State.setChain]
@[simp] theorem State.setKslot_pulses (d k : Nat) (x : Kslot) : (s.setKslot d k x).pulses = s.pulses :=
  by simp only [State.setKslot, State.p_pulses]
@[simp] theorem State.setPmWord_pulses (d i n : Nat) (x : BitVec 39) : (s.setPmWord d i n x).pulses = s.pulses :=
  by simp only [State.setPmWord]
@[simp] theorem State.setWindow_pulses (t i : Nat) (x : Bool) : (s.setWindow t i x).pulses = s.pulses :=
  by simp only [State.setWindow, State.setPen]
@[simp] theorem State.setRingAck_pulses (d r : Nat) (x : Option Resp) : (s.setRingAck d r x).pulses = s.pulses :=
  by simp only [State.setRingAck, State.setPen]
@[simp] theorem State.setSec_pulses (x : SecSt) : (s.setSec x).pulses = s.pulses := by simp only [State.setSec]
@[simp] theorem State.setTestLeft_pulses (d n : Nat) : (s.setTestLeft d n).pulses = s.pulses := by simp only [State.setTestLeft]
@[simp] theorem State.clrBit_pulses (d : Nat) (f : Fld) (n : Nat) : (s.clrBit d f n).pulses = s.pulses :=
  by simp only [State.clrBit, State.p_pulses]
@[simp] theorem State.setEv_pulses (r n : Nat) (c : EvSrc) : (s.setEv r n c).pulses = s.pulses := by simp only [State.setEv]
@[simp] theorem State.setFrameWord_pulses (d fa w : Nat) (v : DWord) : (s.setFrameWord d fa w v).pulses = s.pulses :=
  by simp only [State.setFrameWord]
@[simp] theorem State.setFlash_pulses (f : FlashSt) : (s.setFlash f).pulses = s.pulses := by simp only [State.setFlash]
@[simp] theorem State.setBmem_pulses (d k : Nat) (x : Bmem) : (s.setBmem d k x).pulses = s.pulses := by simp only [State.setBmem]
@[simp] theorem State.setPr_pulses (d r : Nat) (x : PrSt) : (s.setPr d r x).pulses = s.pulses := by simp only [State.setPr]
@[simp] theorem State.setPair_pulses (d k : Nat) (x : PairSt) : (s.setPair d k x).pulses = s.pulses := by simp only [State.setPair]
@[simp] theorem State.setNhop_pulses (d i : Nat) (x : Word) : (s.setNhop d i x).pulses = s.pulses :=
  by simp only [State.setNhop, State.setPen]
@[simp] theorem State.setYout_pulses (d : Nat) (x : List Frame) : (s.setYout d x).pulses = s.pulses :=
  by simp only [State.setYout, State.setPen]
@[simp] theorem State.setXing_pulses (k : Nat) (v : XingSt) : (s.setXing k v).pulses = s.pulses := by simp only [State.setXing]
@[simp] theorem State.setSeState_pulses (d i v : Nat) : (s.setSeState d i v).pulses = s.pulses :=
  by simp only [State.setSeState, State.p_pulses]
@[simp] theorem State.setSnt_pulses (d : Nat) (c : SntSt) : (s.setSnt d c).pulses = s.pulses := by simp only [State.setSnt]
@[simp] theorem State.setBankSt_pulses (B : Nat) (x : BankSt) : (s.setBankSt B x).pulses = s.pulses := by simp only [State.setBankSt]
@[simp] theorem State.setDynMark_pulses (d fa : Nat) (v : Bool) : (s.setDynMark d fa v).pulses = s.pulses :=
  by simp only [State.setDynMark]
@[simp] theorem State.setPins_pulses (d : Nat) (x : PinMode) : (s.setPins d x).pulses = s.pulses := by simp only [State.setPins]
@[simp] theorem State.setSnap_pulses (d : Nat) (x : Snap) : (s.setSnap d x).pulses = s.pulses := by simp only [State.setSnap]
@[simp] theorem State.setEng_pulses (d i : Nat) (e : SEng) : (s.setEng d i e).pulses = s.pulses :=
  by simp only [State.setEng, State.p_pulses]
@[simp] theorem State.setPen_pulses (x : PenSt) : (s.setPen x).pulses = s.pulses := by simp only [State.setPen]
@[simp] theorem State.setDeficit_pulses (d e q x : Nat) : (s.setDeficit d e q x).pulses = s.pulses :=
  by simp only [State.setDeficit, State.setPen]
@[simp] theorem State.setDir_pulses (line : Nat) (x : Option DirEnt) : (s.setDir line x).pulses = s.pulses := by simp only [State.setDir]
@[simp] theorem State.setLinkRx_pulses (d e m : Nat) (x : LinkRx) : (s.setLinkRx d e m x).pulses = s.pulses :=
  by simp only [State.setLinkRx]

/-! ## The updates that leave `usr` alone -/

@[simp] theorem State.setCell_usr (k : Nat) (v : DWord) : (s.setCell k v).usr = s.usr := by simp only [State.setCell]
@[simp] theorem State.p_usr (d : Nat) (f : Fld) (v : Nat) : (s.p d f v).usr = s.usr := by simp only [State.p, State.setCell_usr]
@[simp] theorem State.setMbox_usr (d : Nat) (c : MboxSt) : (s.setMbox d c).usr = s.usr := by simp only [State.setMbox]
@[simp] theorem State.setDsub_usr (k : Nat) (x : DSub) : (s.setDsub k x).usr = s.usr := by simp only [State.setDsub]
@[simp] theorem State.setWarm_usr (d : Nat) (x : WarmSt) : (s.setWarm d x).usr = s.usr := by simp only [State.setWarm]
@[simp] theorem State.setLut_usr (d k : Nat) (v : DWord) : (s.setLut d k v).usr = s.usr := by simp only [State.setLut]
@[simp] theorem State.setFifo_usr (d n : Nat) (x : Pfifo) : (s.setFifo d n x).usr = s.usr := by simp only [State.setFifo, State.p_usr]
@[simp] theorem State.setDmWord_usr (d i w : Nat) (x : BWord) : (s.setDmWord d i w x).usr = s.usr := by simp only [State.setDmWord]
@[simp] theorem State.setL2_usr (t i : Nat) (x : Option L2Ent) : (s.setL2 t i x).usr = s.usr := by simp only [State.setL2, State.setPen]
@[simp] theorem State.setHello_usr (d p : Nat) (x : HelloSt) : (s.setHello d p x).usr = s.usr :=
  by simp only [State.setHello, State.setPen]
@[simp] theorem State.setHart_usr (k : Nat) (x : HartSt) : (s.setHart k x).usr = s.usr := by simp only [State.setHart]
@[simp] theorem State.setRawRx_usr (d : Nat) (l : List (List Byte)) : (s.setRawRx d l).usr = s.usr := by simp only [State.setRawRx]
@[simp] theorem State.setBit_usr (d : Nat) (f : Fld) (n : Nat) : (s.setBit d f n).usr = s.usr := by simp only [State.setBit, State.p_usr]
@[simp] theorem State.setMon_usr (d m : Nat) (c : MonWin) : (s.setMon d m c).usr = s.usr := by simp only [State.setMon]
@[simp] theorem State.setMee_usr (ch : Nat) (x : MeeSt) : (s.setMee ch x).usr = s.usr := by simp only [State.setMee]
@[simp] theorem State.setParse_usr (p : ParseSt) : (s.setParse p).usr = s.usr := by simp only [State.setParse]
@[simp] theorem State.setIo_usr (d p : Nat) (x : IoCell) : (s.setIo d p x).usr = s.usr := by simp only [State.setIo]
@[simp] theorem State.setNport_usr (d p : Nat) (x : Nport) : (s.setNport d p x).usr = s.usr := by simp only [State.setNport]
@[simp] theorem State.setLane_usr (d n : Nat) (x : LaneSt) : (s.setLane d n x).usr = s.usr := by simp only [State.setLane]
@[simp] theorem State.setVlanWord_usr (d v w : Nat) (x : Word) : (s.setVlanWord d v w x).usr = s.usr :=
  by simp only [State.setVlanWord, State.setPen]
@[simp] theorem State.setAir_usr (d e : Nat) (x : List TrunkFrame) : (s.setAir d e x).usr = s.usr :=
  by simp only [State.setAir, State.setPen]
@[simp] theorem State.setFuses_usr (x : Fuses) : (s.setFuses x).usr = s.usr := by simp only [State.setFuses]
@[simp] theorem State.setEdge_usr (d e v : Nat) : (s.setEdge d e v).usr = s.usr := by simp only [State.setEdge, State.p_usr]
@[simp] theorem State.setClk_usr (d : Nat) (c : ClkSt) : (s.setClk d c).usr = s.usr := by simp only [State.setClk]
@[simp] theorem State.setBankWord_usr (B w : Nat) (x : BWord) : (s.setBankWord B w x).usr = s.usr := by simp only [State.setBankWord]
@[simp] theorem State.setSig_usr (d fa : Nat) (v : Word) : (s.setSig d fa v).usr = s.usr := by simp only [State.setSig]
@[simp] theorem State.setDesign_usr (d : Nat) (x : DieDesign) : (s.setDesign d x).usr = s.usr := by simp only [State.setDesign]
@[simp] theorem State.setArith_usr (d k : Nat) (x : Arith) : (s.setArith d k x).usr = s.usr := by simp only [State.setArith]
@[simp] theorem State.setSeu_usr (d : Nat) (x : List SeuEnt) : (s.setSeu d x).usr = s.usr := by simp only [State.setSeu, State.p_usr]
@[simp] theorem State.setQclk_usr (d q hz : Nat) : (s.setQclk d q hz).usr = s.usr := by simp only [State.setQclk]
@[simp] theorem State.setPaused_usr (d e q : Nat) (x : Bool) : (s.setPaused d e q x).usr = s.usr :=
  by simp only [State.setPaused, State.setPen]
@[simp] theorem State.setCopy_usr (q line : Nat) (x : Option CLine) : (s.setCopy q line x).usr = s.usr := by simp only [State.setCopy]
@[simp] theorem State.setLinkTx_usr (d e m : Nat) (x : LinkTx) : (s.setLinkTx d e m x).usr = s.usr := by simp only [State.setLinkTx]
@[simp] theorem State.setCore_usr (d c v : Nat) : (s.setCore d c v).usr = s.usr := by simp only [State.setCore, State.p_usr]
@[simp] theorem State.setLad_usr (d : Nat) (c : LadSt) : (s.setLad d c).usr = s.usr := by simp only [State.setLad]
@[simp] theorem State.setDcell_usr (ch w : Nat) (x : DCell) : (s.setDcell ch w x).usr = s.usr := by simp only [State.setDcell]
@[simp] theorem State.setCfg_usr (c : CfgSt) : (s.setCfg c).usr = s.usr := by simp only [State.setCfg]
@[simp] theorem State.setFf_usr (d k : Nat) (v : Bool) : (s.setFf d k v).usr = s.usr := by simp only [State.setFf]
@[simp] theorem State.setRb_usr (d : Nat) (x : Option RbSt) : (s.setRb d x).usr = s.usr := by simp only [State.setRb]
@[simp] theorem State.setSeLate_usr (d i : Nat) (l : List SeLate) : (s.setSeLate d i l).usr = s.usr := by simp only [State.setSeLate]
@[simp] theorem State.setPenDie_usr (d : Nat) (x : PenDie) : (s.setPenDie d x).usr = s.usr :=
  by simp only [State.setPenDie, State.setPen, State.p_usr]
@[simp] theorem State.setDrr_usr (d e : Nat) (x : DrrSt) : (s.setDrr d e x).usr = s.usr := by simp only [State.setDrr, State.setPen]
@[simp] theorem State.setNet_usr (rid tag : Nat) (x : Option NetReq) : (s.setNet rid tag x).usr = s.usr := by simp only [State.setNet]
@[simp] theorem State.setCapsIn_usr (d e : Nat) (x : CapsIn) : (s.setCapsIn d e x).usr = s.usr := by simp only [State.setCapsIn]
@[simp] theorem State.setCk_usr (d i : Nat) (c : CkMux2) : (s.setCk d i c).usr = s.usr := by simp only [State.setCk]
@[simp] theorem State.setTrainCopy_usr (ch : Nat) (x : Bool) : (s.setTrainCopy ch x).usr = s.usr := by simp only [State.setTrainCopy]
@[simp] theorem State.setHeld_usr (d : Nat) (x : List (Nat × Word)) : (s.setHeld d x).usr = s.usr := by simp only [State.setHeld]
@[simp] theorem State.setChain_usr (d k : Nat) (x : ChainSt) : (s.setChain d k x).usr = s.usr := by simp only [State.setChain]
@[simp] theorem State.setKslot_usr (d k : Nat) (x : Kslot) : (s.setKslot d k x).usr = s.usr := by simp only [State.setKslot, State.p_usr]
@[simp] theorem State.setPmWord_usr (d i n : Nat) (x : BitVec 39) : (s.setPmWord d i n x).usr = s.usr := by simp only [State.setPmWord]
@[simp] theorem State.setWindow_usr (t i : Nat) (x : Bool) : (s.setWindow t i x).usr = s.usr :=
  by simp only [State.setWindow, State.setPen]
@[simp] theorem State.setRingAck_usr (d r : Nat) (x : Option Resp) : (s.setRingAck d r x).usr = s.usr :=
  by simp only [State.setRingAck, State.setPen]
@[simp] theorem State.setSec_usr (x : SecSt) : (s.setSec x).usr = s.usr := by simp only [State.setSec]
@[simp] theorem State.setTestLeft_usr (d n : Nat) : (s.setTestLeft d n).usr = s.usr := by simp only [State.setTestLeft]
@[simp] theorem State.clrBit_usr (d : Nat) (f : Fld) (n : Nat) : (s.clrBit d f n).usr = s.usr := by simp only [State.clrBit, State.p_usr]
@[simp] theorem State.setEv_usr (r n : Nat) (c : EvSrc) : (s.setEv r n c).usr = s.usr := by simp only [State.setEv]
@[simp] theorem State.setFrameWord_usr (d fa w : Nat) (v : DWord) : (s.setFrameWord d fa w v).usr = s.usr :=
  by simp only [State.setFrameWord]
@[simp] theorem State.setFlash_usr (f : FlashSt) : (s.setFlash f).usr = s.usr := by simp only [State.setFlash]
@[simp] theorem State.setBmem_usr (d k : Nat) (x : Bmem) : (s.setBmem d k x).usr = s.usr := by simp only [State.setBmem]
@[simp] theorem State.setPr_usr (d r : Nat) (x : PrSt) : (s.setPr d r x).usr = s.usr := by simp only [State.setPr]
@[simp] theorem State.setPair_usr (d k : Nat) (x : PairSt) : (s.setPair d k x).usr = s.usr := by simp only [State.setPair]
@[simp] theorem State.setNhop_usr (d i : Nat) (x : Word) : (s.setNhop d i x).usr = s.usr := by simp only [State.setNhop, State.setPen]
@[simp] theorem State.setYout_usr (d : Nat) (x : List Frame) : (s.setYout d x).usr = s.usr := by simp only [State.setYout, State.setPen]
@[simp] theorem State.setXing_usr (k : Nat) (v : XingSt) : (s.setXing k v).usr = s.usr := by simp only [State.setXing]
@[simp] theorem State.setSeState_usr (d i v : Nat) : (s.setSeState d i v).usr = s.usr := by simp only [State.setSeState, State.p_usr]
@[simp] theorem State.setSnt_usr (d : Nat) (c : SntSt) : (s.setSnt d c).usr = s.usr := by simp only [State.setSnt]
@[simp] theorem State.setBankSt_usr (B : Nat) (x : BankSt) : (s.setBankSt B x).usr = s.usr := by simp only [State.setBankSt]
@[simp] theorem State.setDynMark_usr (d fa : Nat) (v : Bool) : (s.setDynMark d fa v).usr = s.usr := by simp only [State.setDynMark]
@[simp] theorem State.setPins_usr (d : Nat) (x : PinMode) : (s.setPins d x).usr = s.usr := by simp only [State.setPins]
@[simp] theorem State.setSnap_usr (d : Nat) (x : Snap) : (s.setSnap d x).usr = s.usr := by simp only [State.setSnap]
@[simp] theorem State.setEng_usr (d i : Nat) (e : SEng) : (s.setEng d i e).usr = s.usr := by simp only [State.setEng, State.p_usr]
@[simp] theorem State.setPen_usr (x : PenSt) : (s.setPen x).usr = s.usr := by simp only [State.setPen]
@[simp] theorem State.setDeficit_usr (d e q x : Nat) : (s.setDeficit d e q x).usr = s.usr := by simp only [State.setDeficit, State.setPen]
@[simp] theorem State.setDir_usr (line : Nat) (x : Option DirEnt) : (s.setDir line x).usr = s.usr := by simp only [State.setDir]
@[simp] theorem State.setLinkRx_usr (d e m : Nat) (x : LinkRx) : (s.setLinkRx d e m x).usr = s.usr := by simp only [State.setLinkRx]

/-! ## The updates that leave `snt` alone -/

@[simp] theorem State.setCell_snt (k : Nat) (v : DWord) : (s.setCell k v).snt = s.snt := by simp only [State.setCell]
@[simp] theorem State.p_snt (d : Nat) (f : Fld) (v : Nat) : (s.p d f v).snt = s.snt := by simp only [State.p, State.setCell_snt]
@[simp] theorem State.setCk_snt (d i : Nat) (c : CkMux2) : (s.setCk d i c).snt = s.snt := by simp only [State.setCk]
@[simp] theorem State.setTrainCopy_snt (ch : Nat) (x : Bool) : (s.setTrainCopy ch x).snt = s.snt := by simp only [State.setTrainCopy]
@[simp] theorem State.setHeld_snt (d : Nat) (x : List (Nat × Word)) : (s.setHeld d x).snt = s.snt := by simp only [State.setHeld]
@[simp] theorem State.setChain_snt (d k : Nat) (x : ChainSt) : (s.setChain d k x).snt = s.snt := by simp only [State.setChain]
@[simp] theorem State.setKslot_snt (d k : Nat) (x : Kslot) : (s.setKslot d k x).snt = s.snt := by simp only [State.setKslot, State.p_snt]
@[simp] theorem State.setPmWord_snt (d i n : Nat) (x : BitVec 39) : (s.setPmWord d i n x).snt = s.snt := by simp only [State.setPmWord]
@[simp] theorem State.setWindow_snt (t i : Nat) (x : Bool) : (s.setWindow t i x).snt = s.snt :=
  by simp only [State.setWindow, State.setPen]
@[simp] theorem State.setRingAck_snt (d r : Nat) (x : Option Resp) : (s.setRingAck d r x).snt = s.snt :=
  by simp only [State.setRingAck, State.setPen]
@[simp] theorem State.setSec_snt (x : SecSt) : (s.setSec x).snt = s.snt := by simp only [State.setSec]
@[simp] theorem State.setTestLeft_snt (d n : Nat) : (s.setTestLeft d n).snt = s.snt := by simp only [State.setTestLeft]
@[simp] theorem State.clrBit_snt (d : Nat) (f : Fld) (n : Nat) : (s.clrBit d f n).snt = s.snt := by simp only [State.clrBit, State.p_snt]
@[simp] theorem State.setBankWord_snt (B w : Nat) (x : BWord) : (s.setBankWord B w x).snt = s.snt := by simp only [State.setBankWord]
@[simp] theorem State.setSig_snt (d fa : Nat) (v : Word) : (s.setSig d fa v).snt = s.snt := by simp only [State.setSig]
@[simp] theorem State.setDesign_snt (d : Nat) (x : DieDesign) : (s.setDesign d x).snt = s.snt := by simp only [State.setDesign]
@[simp] theorem State.setArith_snt (d k : Nat) (x : Arith) : (s.setArith d k x).snt = s.snt := by simp only [State.setArith]
@[simp] theorem State.setSeu_snt (d : Nat) (x : List SeuEnt) : (s.setSeu d x).snt = s.snt := by simp only [State.setSeu, State.p_snt]
@[simp] theorem State.setQclk_snt (d q hz : Nat) : (s.setQclk d q hz).snt = s.snt := by simp only [State.setQclk]
@[simp] theorem State.setPaused_snt (d e q : Nat) (x : Bool) : (s.setPaused d e q x).snt = s.snt :=
  by simp only [State.setPaused, State.setPen]
@[simp] theorem State.setCopy_snt (q line : Nat) (x : Option CLine) : (s.setCopy q line x).snt = s.snt := by simp only [State.setCopy]
@[simp] theorem State.setLinkTx_snt (d e m : Nat) (x : LinkTx) : (s.setLinkTx d e m x).snt = s.snt := by simp only [State.setLinkTx]
@[simp] theorem State.setCore_snt (d c v : Nat) : (s.setCore d c v).snt = s.snt := by simp only [State.setCore, State.p_snt]
@[simp] theorem State.setMbox_snt (d : Nat) (c : MboxSt) : (s.setMbox d c).snt = s.snt := by simp only [State.setMbox]
@[simp] theorem State.setDsub_snt (k : Nat) (x : DSub) : (s.setDsub k x).snt = s.snt := by simp only [State.setDsub]
@[simp] theorem State.setWarm_snt (d : Nat) (x : WarmSt) : (s.setWarm d x).snt = s.snt := by simp only [State.setWarm]
@[simp] theorem State.setLut_snt (d k : Nat) (v : DWord) : (s.setLut d k v).snt = s.snt := by simp only [State.setLut]
@[simp] theorem State.setFifo_snt (d n : Nat) (x : Pfifo) : (s.setFifo d n x).snt = s.snt := by simp only [State.setFifo, State.p_snt]
@[simp] theorem State.setDmWord_snt (d i w : Nat) (x : BWord) : (s.setDmWord d i w x).snt = s.snt := by simp only [State.setDmWord]
@[simp] theorem State.setL2_snt (t i : Nat) (x : Option L2Ent) : (s.setL2 t i x).snt = s.snt := by simp only [State.setL2, State.setPen]
@[simp] theorem State.setHello_snt (d p : Nat) (x : HelloSt) : (s.setHello d p x).snt = s.snt :=
  by simp only [State.setHello, State.setPen]
@[simp] theorem State.setHart_snt (k : Nat) (x : HartSt) : (s.setHart k x).snt = s.snt := by simp only [State.setHart]
@[simp] theorem State.setRawRx_snt (d : Nat) (l : List (List Byte)) : (s.setRawRx d l).snt = s.snt := by simp only [State.setRawRx]
@[simp] theorem State.setBit_snt (d : Nat) (f : Fld) (n : Nat) : (s.setBit d f n).snt = s.snt := by simp only [State.setBit, State.p_snt]
@[simp] theorem State.setEv_snt (r n : Nat) (c : EvSrc) : (s.setEv r n c).snt = s.snt := by simp only [State.setEv]
@[simp] theorem State.setFrameWord_snt (d fa w : Nat) (v : DWord) : (s.setFrameWord d fa w v).snt = s.snt :=
  by simp only [State.setFrameWord]
@[simp] theorem State.setFlash_snt (f : FlashSt) : (s.setFlash f).snt = s.snt := by simp only [State.setFlash]
@[simp] theorem State.setBmem_snt (d k : Nat) (x : Bmem) : (s.setBmem d k x).snt = s.snt := by simp only [State.setBmem]
@[simp] theorem State.setPr_snt (d r : Nat) (x : PrSt) : (s.setPr d r x).snt = s.snt := by simp only [State.setPr]
@[simp] theorem State.setPair_snt (d k : Nat) (x : PairSt) : (s.setPair d k x).snt = s.snt := by simp only [State.setPair]
@[simp] theorem State.setNhop_snt (d i : Nat) (x : Word) : (s.setNhop d i x).snt = s.snt := by simp only [State.setNhop, State.setPen]
@[simp] theorem State.setYout_snt (d : Nat) (x : List Frame) : (s.setYout d x).snt = s.snt := by simp only [State.setYout, State.setPen]
@[simp] theorem State.setXing_snt (k : Nat) (v : XingSt) : (s.setXing k v).snt = s.snt := by simp only [State.setXing]
@[simp] theorem State.setSeState_snt (d i v : Nat) : (s.setSeState d i v).snt = s.snt := by simp only [State.setSeState, State.p_snt]
@[simp] theorem State.setLad_snt (d : Nat) (c : LadSt) : (s.setLad d c).snt = s.snt := by simp only [State.setLad]
@[simp] theorem State.setDcell_snt (ch w : Nat) (x : DCell) : (s.setDcell ch w x).snt = s.snt := by simp only [State.setDcell]
@[simp] theorem State.setCfg_snt (c : CfgSt) : (s.setCfg c).snt = s.snt := by simp only [State.setCfg]
@[simp] theorem State.setFf_snt (d k : Nat) (v : Bool) : (s.setFf d k v).snt = s.snt := by simp only [State.setFf]
@[simp] theorem State.setRb_snt (d : Nat) (x : Option RbSt) : (s.setRb d x).snt = s.snt := by simp only [State.setRb]
@[simp] theorem State.setSeLate_snt (d i : Nat) (l : List SeLate) : (s.setSeLate d i l).snt = s.snt := by simp only [State.setSeLate]
@[simp] theorem State.setPenDie_snt (d : Nat) (x : PenDie) : (s.setPenDie d x).snt = s.snt :=
  by simp only [State.setPenDie, State.setPen, State.p_snt]
@[simp] theorem State.setDrr_snt (d e : Nat) (x : DrrSt) : (s.setDrr d e x).snt = s.snt := by simp only [State.setDrr, State.setPen]
@[simp] theorem State.setNet_snt (rid tag : Nat) (x : Option NetReq) : (s.setNet rid tag x).snt = s.snt := by simp only [State.setNet]
@[simp] theorem State.setCapsIn_snt (d e : Nat) (x : CapsIn) : (s.setCapsIn d e x).snt = s.snt := by simp only [State.setCapsIn]
@[simp] theorem State.setMon_snt (d m : Nat) (c : MonWin) : (s.setMon d m c).snt = s.snt := by simp only [State.setMon]
@[simp] theorem State.setMee_snt (ch : Nat) (x : MeeSt) : (s.setMee ch x).snt = s.snt := by simp only [State.setMee]
@[simp] theorem State.setParse_snt (p : ParseSt) : (s.setParse p).snt = s.snt := by simp only [State.setParse]
@[simp] theorem State.setIo_snt (d p : Nat) (x : IoCell) : (s.setIo d p x).snt = s.snt := by simp only [State.setIo]
@[simp] theorem State.setNport_snt (d p : Nat) (x : Nport) : (s.setNport d p x).snt = s.snt := by simp only [State.setNport]
@[simp] theorem State.setLane_snt (d n : Nat) (x : LaneSt) : (s.setLane d n x).snt = s.snt := by simp only [State.setLane]
@[simp] theorem State.setVlanWord_snt (d v w : Nat) (x : Word) : (s.setVlanWord d v w x).snt = s.snt :=
  by simp only [State.setVlanWord, State.setPen]
@[simp] theorem State.setAir_snt (d e : Nat) (x : List TrunkFrame) : (s.setAir d e x).snt = s.snt :=
  by simp only [State.setAir, State.setPen]
@[simp] theorem State.setFuses_snt (x : Fuses) : (s.setFuses x).snt = s.snt := by simp only [State.setFuses]
@[simp] theorem State.setEdge_snt (d e v : Nat) : (s.setEdge d e v).snt = s.snt := by simp only [State.setEdge, State.p_snt]
@[simp] theorem State.setClk_snt (d : Nat) (c : ClkSt) : (s.setClk d c).snt = s.snt := by simp only [State.setClk]
@[simp] theorem State.setBankSt_snt (B : Nat) (x : BankSt) : (s.setBankSt B x).snt = s.snt := by simp only [State.setBankSt]
@[simp] theorem State.setDynMark_snt (d fa : Nat) (v : Bool) : (s.setDynMark d fa v).snt = s.snt := by simp only [State.setDynMark]
@[simp] theorem State.setPins_snt (d : Nat) (x : PinMode) : (s.setPins d x).snt = s.snt := by simp only [State.setPins]
@[simp] theorem State.setSnap_snt (d : Nat) (x : Snap) : (s.setSnap d x).snt = s.snt := by simp only [State.setSnap]
@[simp] theorem State.setEng_snt (d i : Nat) (e : SEng) : (s.setEng d i e).snt = s.snt := by simp only [State.setEng, State.p_snt]
@[simp] theorem State.setPen_snt (x : PenSt) : (s.setPen x).snt = s.snt := by simp only [State.setPen]
@[simp] theorem State.setDeficit_snt (d e q x : Nat) : (s.setDeficit d e q x).snt = s.snt := by simp only [State.setDeficit, State.setPen]
@[simp] theorem State.setDir_snt (line : Nat) (x : Option DirEnt) : (s.setDir line x).snt = s.snt := by simp only [State.setDir]
@[simp] theorem State.setLinkRx_snt (d e m : Nat) (x : LinkRx) : (s.setLinkRx d e m x).snt = s.snt := by simp only [State.setLinkRx]

/-! ## The updates that leave `mbox` alone -/

@[simp] theorem State.setCell_mbox (k : Nat) (v : DWord) : (s.setCell k v).mbox = s.mbox := by simp only [State.setCell]
@[simp] theorem State.p_mbox (d : Nat) (f : Fld) (v : Nat) : (s.p d f v).mbox = s.mbox := by simp only [State.p, State.setCell_mbox]
@[simp] theorem State.setCk_mbox (d i : Nat) (c : CkMux2) : (s.setCk d i c).mbox = s.mbox := by simp only [State.setCk]
@[simp] theorem State.setTrainCopy_mbox (ch : Nat) (x : Bool) : (s.setTrainCopy ch x).mbox = s.mbox := by simp only [State.setTrainCopy]
@[simp] theorem State.setHeld_mbox (d : Nat) (x : List (Nat × Word)) : (s.setHeld d x).mbox = s.mbox := by simp only [State.setHeld]
@[simp] theorem State.setChain_mbox (d k : Nat) (x : ChainSt) : (s.setChain d k x).mbox = s.mbox := by simp only [State.setChain]
@[simp] theorem State.setKslot_mbox (d k : Nat) (x : Kslot) : (s.setKslot d k x).mbox = s.mbox :=
  by simp only [State.setKslot, State.p_mbox]
@[simp] theorem State.setPmWord_mbox (d i n : Nat) (x : BitVec 39) : (s.setPmWord d i n x).mbox = s.mbox := by simp only [State.setPmWord]
@[simp] theorem State.setWindow_mbox (t i : Nat) (x : Bool) : (s.setWindow t i x).mbox = s.mbox :=
  by simp only [State.setWindow, State.setPen]
@[simp] theorem State.setRingAck_mbox (d r : Nat) (x : Option Resp) : (s.setRingAck d r x).mbox = s.mbox :=
  by simp only [State.setRingAck, State.setPen]
@[simp] theorem State.setSec_mbox (x : SecSt) : (s.setSec x).mbox = s.mbox := by simp only [State.setSec]
@[simp] theorem State.setTestLeft_mbox (d n : Nat) : (s.setTestLeft d n).mbox = s.mbox := by simp only [State.setTestLeft]
@[simp] theorem State.clrBit_mbox (d : Nat) (f : Fld) (n : Nat) : (s.clrBit d f n).mbox = s.mbox :=
  by simp only [State.clrBit, State.p_mbox]
@[simp] theorem State.setBankWord_mbox (B w : Nat) (x : BWord) : (s.setBankWord B w x).mbox = s.mbox := by simp only [State.setBankWord]
@[simp] theorem State.setSig_mbox (d fa : Nat) (v : Word) : (s.setSig d fa v).mbox = s.mbox := by simp only [State.setSig]
@[simp] theorem State.setDesign_mbox (d : Nat) (x : DieDesign) : (s.setDesign d x).mbox = s.mbox := by simp only [State.setDesign]
@[simp] theorem State.setArith_mbox (d k : Nat) (x : Arith) : (s.setArith d k x).mbox = s.mbox := by simp only [State.setArith]
@[simp] theorem State.setSeu_mbox (d : Nat) (x : List SeuEnt) : (s.setSeu d x).mbox = s.mbox := by simp only [State.setSeu, State.p_mbox]
@[simp] theorem State.setQclk_mbox (d q hz : Nat) : (s.setQclk d q hz).mbox = s.mbox := by simp only [State.setQclk]
@[simp] theorem State.setPaused_mbox (d e q : Nat) (x : Bool) : (s.setPaused d e q x).mbox = s.mbox :=
  by simp only [State.setPaused, State.setPen]
@[simp] theorem State.setCopy_mbox (q line : Nat) (x : Option CLine) : (s.setCopy q line x).mbox = s.mbox := by simp only [State.setCopy]
@[simp] theorem State.setLinkTx_mbox (d e m : Nat) (x : LinkTx) : (s.setLinkTx d e m x).mbox = s.mbox := by simp only [State.setLinkTx]
@[simp] theorem State.setCore_mbox (d c v : Nat) : (s.setCore d c v).mbox = s.mbox := by simp only [State.setCore, State.p_mbox]
@[simp] theorem State.setLad_mbox (d : Nat) (c : LadSt) : (s.setLad d c).mbox = s.mbox := by simp only [State.setLad]
@[simp] theorem State.setDsub_mbox (k : Nat) (x : DSub) : (s.setDsub k x).mbox = s.mbox := by simp only [State.setDsub]
@[simp] theorem State.setWarm_mbox (d : Nat) (x : WarmSt) : (s.setWarm d x).mbox = s.mbox := by simp only [State.setWarm]
@[simp] theorem State.setLut_mbox (d k : Nat) (v : DWord) : (s.setLut d k v).mbox = s.mbox := by simp only [State.setLut]
@[simp] theorem State.setFifo_mbox (d n : Nat) (x : Pfifo) : (s.setFifo d n x).mbox = s.mbox := by simp only [State.setFifo, State.p_mbox]
@[simp] theorem State.setDmWord_mbox (d i w : Nat) (x : BWord) : (s.setDmWord d i w x).mbox = s.mbox := by simp only [State.setDmWord]
@[simp] theorem State.setL2_mbox (t i : Nat) (x : Option L2Ent) : (s.setL2 t i x).mbox = s.mbox := by simp only [State.setL2, State.setPen]
@[simp] theorem State.setHello_mbox (d p : Nat) (x : HelloSt) : (s.setHello d p x).mbox = s.mbox :=
  by simp only [State.setHello, State.setPen]
@[simp] theorem State.setHart_mbox (k : Nat) (x : HartSt) : (s.setHart k x).mbox = s.mbox := by simp only [State.setHart]
@[simp] theorem State.setRawRx_mbox (d : Nat) (l : List (List Byte)) : (s.setRawRx d l).mbox = s.mbox := by simp only [State.setRawRx]
@[simp] theorem State.setBit_mbox (d : Nat) (f : Fld) (n : Nat) : (s.setBit d f n).mbox = s.mbox :=
  by simp only [State.setBit, State.p_mbox]
@[simp] theorem State.setEv_mbox (r n : Nat) (c : EvSrc) : (s.setEv r n c).mbox = s.mbox := by simp only [State.setEv]
@[simp] theorem State.setFrameWord_mbox (d fa w : Nat) (v : DWord) : (s.setFrameWord d fa w v).mbox = s.mbox :=
  by simp only [State.setFrameWord]
@[simp] theorem State.setFlash_mbox (f : FlashSt) : (s.setFlash f).mbox = s.mbox := by simp only [State.setFlash]
@[simp] theorem State.setBmem_mbox (d k : Nat) (x : Bmem) : (s.setBmem d k x).mbox = s.mbox := by simp only [State.setBmem]
@[simp] theorem State.setPr_mbox (d r : Nat) (x : PrSt) : (s.setPr d r x).mbox = s.mbox := by simp only [State.setPr]
@[simp] theorem State.setPair_mbox (d k : Nat) (x : PairSt) : (s.setPair d k x).mbox = s.mbox := by simp only [State.setPair]
@[simp] theorem State.setNhop_mbox (d i : Nat) (x : Word) : (s.setNhop d i x).mbox = s.mbox := by simp only [State.setNhop, State.setPen]
@[simp] theorem State.setYout_mbox (d : Nat) (x : List Frame) : (s.setYout d x).mbox = s.mbox := by simp only [State.setYout, State.setPen]
@[simp] theorem State.setXing_mbox (k : Nat) (v : XingSt) : (s.setXing k v).mbox = s.mbox := by simp only [State.setXing]
@[simp] theorem State.setSeState_mbox (d i v : Nat) : (s.setSeState d i v).mbox = s.mbox := by simp only [State.setSeState, State.p_mbox]
@[simp] theorem State.setSnt_mbox (d : Nat) (c : SntSt) : (s.setSnt d c).mbox = s.mbox := by simp only [State.setSnt]
@[simp] theorem State.setDcell_mbox (ch w : Nat) (x : DCell) : (s.setDcell ch w x).mbox = s.mbox := by simp only [State.setDcell]
@[simp] theorem State.setCfg_mbox (c : CfgSt) : (s.setCfg c).mbox = s.mbox := by simp only [State.setCfg]
@[simp] theorem State.setFf_mbox (d k : Nat) (v : Bool) : (s.setFf d k v).mbox = s.mbox := by simp only [State.setFf]
@[simp] theorem State.setRb_mbox (d : Nat) (x : Option RbSt) : (s.setRb d x).mbox = s.mbox := by simp only [State.setRb]
@[simp] theorem State.setSeLate_mbox (d i : Nat) (l : List SeLate) : (s.setSeLate d i l).mbox = s.mbox := by simp only [State.setSeLate]
@[simp] theorem State.setPenDie_mbox (d : Nat) (x : PenDie) : (s.setPenDie d x).mbox = s.mbox :=
  by simp only [State.setPenDie, State.setPen, State.p_mbox]
@[simp] theorem State.setDrr_mbox (d e : Nat) (x : DrrSt) : (s.setDrr d e x).mbox = s.mbox := by simp only [State.setDrr, State.setPen]
@[simp] theorem State.setNet_mbox (rid tag : Nat) (x : Option NetReq) : (s.setNet rid tag x).mbox = s.mbox := by simp only [State.setNet]
@[simp] theorem State.setCapsIn_mbox (d e : Nat) (x : CapsIn) : (s.setCapsIn d e x).mbox = s.mbox := by simp only [State.setCapsIn]
@[simp] theorem State.setMon_mbox (d m : Nat) (c : MonWin) : (s.setMon d m c).mbox = s.mbox := by simp only [State.setMon]
@[simp] theorem State.setMee_mbox (ch : Nat) (x : MeeSt) : (s.setMee ch x).mbox = s.mbox := by simp only [State.setMee]
@[simp] theorem State.setParse_mbox (p : ParseSt) : (s.setParse p).mbox = s.mbox := by simp only [State.setParse]
@[simp] theorem State.setIo_mbox (d p : Nat) (x : IoCell) : (s.setIo d p x).mbox = s.mbox := by simp only [State.setIo]
@[simp] theorem State.setNport_mbox (d p : Nat) (x : Nport) : (s.setNport d p x).mbox = s.mbox := by simp only [State.setNport]
@[simp] theorem State.setLane_mbox (d n : Nat) (x : LaneSt) : (s.setLane d n x).mbox = s.mbox := by simp only [State.setLane]
@[simp] theorem State.setVlanWord_mbox (d v w : Nat) (x : Word) : (s.setVlanWord d v w x).mbox = s.mbox :=
  by simp only [State.setVlanWord, State.setPen]
@[simp] theorem State.setAir_mbox (d e : Nat) (x : List TrunkFrame) : (s.setAir d e x).mbox = s.mbox :=
  by simp only [State.setAir, State.setPen]
@[simp] theorem State.setFuses_mbox (x : Fuses) : (s.setFuses x).mbox = s.mbox := by simp only [State.setFuses]
@[simp] theorem State.setEdge_mbox (d e v : Nat) : (s.setEdge d e v).mbox = s.mbox := by simp only [State.setEdge, State.p_mbox]
@[simp] theorem State.setClk_mbox (d : Nat) (c : ClkSt) : (s.setClk d c).mbox = s.mbox := by simp only [State.setClk]
@[simp] theorem State.setBankSt_mbox (B : Nat) (x : BankSt) : (s.setBankSt B x).mbox = s.mbox := by simp only [State.setBankSt]
@[simp] theorem State.setDynMark_mbox (d fa : Nat) (v : Bool) : (s.setDynMark d fa v).mbox = s.mbox := by simp only [State.setDynMark]
@[simp] theorem State.setPins_mbox (d : Nat) (x : PinMode) : (s.setPins d x).mbox = s.mbox := by simp only [State.setPins]
@[simp] theorem State.setSnap_mbox (d : Nat) (x : Snap) : (s.setSnap d x).mbox = s.mbox := by simp only [State.setSnap]
@[simp] theorem State.setEng_mbox (d i : Nat) (e : SEng) : (s.setEng d i e).mbox = s.mbox := by simp only [State.setEng, State.p_mbox]
@[simp] theorem State.setPen_mbox (x : PenSt) : (s.setPen x).mbox = s.mbox := by simp only [State.setPen]
@[simp] theorem State.setDeficit_mbox (d e q x : Nat) : (s.setDeficit d e q x).mbox = s.mbox :=
  by simp only [State.setDeficit, State.setPen]
@[simp] theorem State.setDir_mbox (line : Nat) (x : Option DirEnt) : (s.setDir line x).mbox = s.mbox := by simp only [State.setDir]
@[simp] theorem State.setLinkRx_mbox (d e m : Nat) (x : LinkRx) : (s.setLinkRx d e m x).mbox = s.mbox := by simp only [State.setLinkRx]

/-! ## The updates that leave `mset` alone -/

@[simp] theorem State.setCell_mset (k : Nat) (v : DWord) : (s.setCell k v).mset = s.mset := by simp only [State.setCell]
@[simp] theorem State.p_mset (d : Nat) (f : Fld) (v : Nat) : (s.p d f v).mset = s.mset := by simp only [State.p, State.setCell_mset]
@[simp] theorem State.setMbox_mset (d : Nat) (c : MboxSt) : (s.setMbox d c).mset = s.mset := by simp only [State.setMbox]
@[simp] theorem State.setDsub_mset (k : Nat) (x : DSub) : (s.setDsub k x).mset = s.mset := by simp only [State.setDsub]
@[simp] theorem State.setWarm_mset (d : Nat) (x : WarmSt) : (s.setWarm d x).mset = s.mset := by simp only [State.setWarm]
@[simp] theorem State.setLut_mset (d k : Nat) (v : DWord) : (s.setLut d k v).mset = s.mset := by simp only [State.setLut]
@[simp] theorem State.setFifo_mset (d n : Nat) (x : Pfifo) : (s.setFifo d n x).mset = s.mset := by simp only [State.setFifo, State.p_mset]
@[simp] theorem State.setDmWord_mset (d i w : Nat) (x : BWord) : (s.setDmWord d i w x).mset = s.mset := by simp only [State.setDmWord]
@[simp] theorem State.setL2_mset (t i : Nat) (x : Option L2Ent) : (s.setL2 t i x).mset = s.mset := by simp only [State.setL2, State.setPen]
@[simp] theorem State.setHello_mset (d p : Nat) (x : HelloSt) : (s.setHello d p x).mset = s.mset :=
  by simp only [State.setHello, State.setPen]
@[simp] theorem State.setHart_mset (k : Nat) (x : HartSt) : (s.setHart k x).mset = s.mset := by simp only [State.setHart]
@[simp] theorem State.setRawRx_mset (d : Nat) (l : List (List Byte)) : (s.setRawRx d l).mset = s.mset := by simp only [State.setRawRx]
@[simp] theorem State.setBit_mset (d : Nat) (f : Fld) (n : Nat) : (s.setBit d f n).mset = s.mset :=
  by simp only [State.setBit, State.p_mset]
@[simp] theorem State.setMon_mset (d m : Nat) (c : MonWin) : (s.setMon d m c).mset = s.mset := by simp only [State.setMon]
@[simp] theorem State.setMee_mset (ch : Nat) (x : MeeSt) : (s.setMee ch x).mset = s.mset := by simp only [State.setMee]
@[simp] theorem State.setParse_mset (p : ParseSt) : (s.setParse p).mset = s.mset := by simp only [State.setParse]
@[simp] theorem State.setIo_mset (d p : Nat) (x : IoCell) : (s.setIo d p x).mset = s.mset := by simp only [State.setIo]
@[simp] theorem State.setNport_mset (d p : Nat) (x : Nport) : (s.setNport d p x).mset = s.mset := by simp only [State.setNport]
@[simp] theorem State.setLane_mset (d n : Nat) (x : LaneSt) : (s.setLane d n x).mset = s.mset := by simp only [State.setLane]
@[simp] theorem State.setVlanWord_mset (d v w : Nat) (x : Word) : (s.setVlanWord d v w x).mset = s.mset :=
  by simp only [State.setVlanWord, State.setPen]
@[simp] theorem State.setAir_mset (d e : Nat) (x : List TrunkFrame) : (s.setAir d e x).mset = s.mset :=
  by simp only [State.setAir, State.setPen]
@[simp] theorem State.setFuses_mset (x : Fuses) : (s.setFuses x).mset = s.mset := by simp only [State.setFuses]
@[simp] theorem State.setEdge_mset (d e v : Nat) : (s.setEdge d e v).mset = s.mset := by simp only [State.setEdge, State.p_mset]
@[simp] theorem State.setClk_mset (d : Nat) (c : ClkSt) : (s.setClk d c).mset = s.mset := by simp only [State.setClk]
@[simp] theorem State.setBankWord_mset (B w : Nat) (x : BWord) : (s.setBankWord B w x).mset = s.mset := by simp only [State.setBankWord]
@[simp] theorem State.setSig_mset (d fa : Nat) (v : Word) : (s.setSig d fa v).mset = s.mset := by simp only [State.setSig]
@[simp] theorem State.setDesign_mset (d : Nat) (x : DieDesign) : (s.setDesign d x).mset = s.mset := by simp only [State.setDesign]
@[simp] theorem State.setArith_mset (d k : Nat) (x : Arith) : (s.setArith d k x).mset = s.mset := by simp only [State.setArith]
@[simp] theorem State.setSeu_mset (d : Nat) (x : List SeuEnt) : (s.setSeu d x).mset = s.mset := by simp only [State.setSeu, State.p_mset]
@[simp] theorem State.setQclk_mset (d q hz : Nat) : (s.setQclk d q hz).mset = s.mset := by simp only [State.setQclk]
@[simp] theorem State.setPaused_mset (d e q : Nat) (x : Bool) : (s.setPaused d e q x).mset = s.mset :=
  by simp only [State.setPaused, State.setPen]
@[simp] theorem State.setCopy_mset (q line : Nat) (x : Option CLine) : (s.setCopy q line x).mset = s.mset := by simp only [State.setCopy]
@[simp] theorem State.setLinkTx_mset (d e m : Nat) (x : LinkTx) : (s.setLinkTx d e m x).mset = s.mset := by simp only [State.setLinkTx]
@[simp] theorem State.setCore_mset (d c v : Nat) : (s.setCore d c v).mset = s.mset := by simp only [State.setCore, State.p_mset]
@[simp] theorem State.setLad_mset (d : Nat) (c : LadSt) : (s.setLad d c).mset = s.mset := by simp only [State.setLad]
@[simp] theorem State.setDcell_mset (ch w : Nat) (x : DCell) : (s.setDcell ch w x).mset = s.mset := by simp only [State.setDcell]
@[simp] theorem State.setCfg_mset (c : CfgSt) : (s.setCfg c).mset = s.mset := by simp only [State.setCfg]
@[simp] theorem State.setFf_mset (d k : Nat) (v : Bool) : (s.setFf d k v).mset = s.mset := by simp only [State.setFf]
@[simp] theorem State.setRb_mset (d : Nat) (x : Option RbSt) : (s.setRb d x).mset = s.mset := by simp only [State.setRb]
@[simp] theorem State.setSeLate_mset (d i : Nat) (l : List SeLate) : (s.setSeLate d i l).mset = s.mset := by simp only [State.setSeLate]
@[simp] theorem State.setPenDie_mset (d : Nat) (x : PenDie) : (s.setPenDie d x).mset = s.mset :=
  by simp only [State.setPenDie, State.setPen, State.p_mset]
@[simp] theorem State.setDrr_mset (d e : Nat) (x : DrrSt) : (s.setDrr d e x).mset = s.mset := by simp only [State.setDrr, State.setPen]
@[simp] theorem State.setNet_mset (rid tag : Nat) (x : Option NetReq) : (s.setNet rid tag x).mset = s.mset := by simp only [State.setNet]
@[simp] theorem State.setCapsIn_mset (d e : Nat) (x : CapsIn) : (s.setCapsIn d e x).mset = s.mset := by simp only [State.setCapsIn]
@[simp] theorem State.setCk_mset (d i : Nat) (c : CkMux2) : (s.setCk d i c).mset = s.mset := by simp only [State.setCk]
@[simp] theorem State.setTrainCopy_mset (ch : Nat) (x : Bool) : (s.setTrainCopy ch x).mset = s.mset := by simp only [State.setTrainCopy]
@[simp] theorem State.setHeld_mset (d : Nat) (x : List (Nat × Word)) : (s.setHeld d x).mset = s.mset := by simp only [State.setHeld]
@[simp] theorem State.setChain_mset (d k : Nat) (x : ChainSt) : (s.setChain d k x).mset = s.mset := by simp only [State.setChain]
@[simp] theorem State.setKslot_mset (d k : Nat) (x : Kslot) : (s.setKslot d k x).mset = s.mset :=
  by simp only [State.setKslot, State.p_mset]
@[simp] theorem State.setPmWord_mset (d i n : Nat) (x : BitVec 39) : (s.setPmWord d i n x).mset = s.mset := by simp only [State.setPmWord]
@[simp] theorem State.setWindow_mset (t i : Nat) (x : Bool) : (s.setWindow t i x).mset = s.mset :=
  by simp only [State.setWindow, State.setPen]
@[simp] theorem State.setRingAck_mset (d r : Nat) (x : Option Resp) : (s.setRingAck d r x).mset = s.mset :=
  by simp only [State.setRingAck, State.setPen]
@[simp] theorem State.setSec_mset (x : SecSt) : (s.setSec x).mset = s.mset := by simp only [State.setSec]
@[simp] theorem State.setTestLeft_mset (d n : Nat) : (s.setTestLeft d n).mset = s.mset := by simp only [State.setTestLeft]
@[simp] theorem State.clrBit_mset (d : Nat) (f : Fld) (n : Nat) : (s.clrBit d f n).mset = s.mset :=
  by simp only [State.clrBit, State.p_mset]
@[simp] theorem State.setEv_mset (r n : Nat) (c : EvSrc) : (s.setEv r n c).mset = s.mset := by simp only [State.setEv]
@[simp] theorem State.setFrameWord_mset (d fa w : Nat) (v : DWord) : (s.setFrameWord d fa w v).mset = s.mset :=
  by simp only [State.setFrameWord]
@[simp] theorem State.setFlash_mset (f : FlashSt) : (s.setFlash f).mset = s.mset := by simp only [State.setFlash]
@[simp] theorem State.setBmem_mset (d k : Nat) (x : Bmem) : (s.setBmem d k x).mset = s.mset := by simp only [State.setBmem]
@[simp] theorem State.setPr_mset (d r : Nat) (x : PrSt) : (s.setPr d r x).mset = s.mset := by simp only [State.setPr]
@[simp] theorem State.setPair_mset (d k : Nat) (x : PairSt) : (s.setPair d k x).mset = s.mset := by simp only [State.setPair]
@[simp] theorem State.setNhop_mset (d i : Nat) (x : Word) : (s.setNhop d i x).mset = s.mset := by simp only [State.setNhop, State.setPen]
@[simp] theorem State.setYout_mset (d : Nat) (x : List Frame) : (s.setYout d x).mset = s.mset := by simp only [State.setYout, State.setPen]
@[simp] theorem State.setXing_mset (k : Nat) (v : XingSt) : (s.setXing k v).mset = s.mset := by simp only [State.setXing]
@[simp] theorem State.setSeState_mset (d i v : Nat) : (s.setSeState d i v).mset = s.mset := by simp only [State.setSeState, State.p_mset]
@[simp] theorem State.setSnt_mset (d : Nat) (c : SntSt) : (s.setSnt d c).mset = s.mset := by simp only [State.setSnt]
@[simp] theorem State.setBankSt_mset (B : Nat) (x : BankSt) : (s.setBankSt B x).mset = s.mset := by simp only [State.setBankSt]
@[simp] theorem State.setDynMark_mset (d fa : Nat) (v : Bool) : (s.setDynMark d fa v).mset = s.mset := by simp only [State.setDynMark]
@[simp] theorem State.setPins_mset (d : Nat) (x : PinMode) : (s.setPins d x).mset = s.mset := by simp only [State.setPins]
@[simp] theorem State.setSnap_mset (d : Nat) (x : Snap) : (s.setSnap d x).mset = s.mset := by simp only [State.setSnap]
@[simp] theorem State.setEng_mset (d i : Nat) (e : SEng) : (s.setEng d i e).mset = s.mset := by simp only [State.setEng, State.p_mset]
@[simp] theorem State.setPen_mset (x : PenSt) : (s.setPen x).mset = s.mset := by simp only [State.setPen]
@[simp] theorem State.setDeficit_mset (d e q x : Nat) : (s.setDeficit d e q x).mset = s.mset :=
  by simp only [State.setDeficit, State.setPen]
@[simp] theorem State.setDir_mset (line : Nat) (x : Option DirEnt) : (s.setDir line x).mset = s.mset := by simp only [State.setDir]
@[simp] theorem State.setLinkRx_mset (d e m : Nat) (x : LinkRx) : (s.setLinkRx d e m x).mset = s.mset := by simp only [State.setLinkRx]

/-! ## The updates that leave `smbPub` alone -/

@[simp] theorem State.setCell_smbPub (k : Nat) (v : DWord) : (s.setCell k v).smbPub = s.smbPub := by simp only [State.setCell]
@[simp] theorem State.p_smbPub (d : Nat) (f : Fld) (v : Nat) : (s.p d f v).smbPub = s.smbPub :=
  by simp only [State.p, State.setCell_smbPub]
@[simp] theorem State.setMbox_smbPub (d : Nat) (c : MboxSt) : (s.setMbox d c).smbPub = s.smbPub := by simp only [State.setMbox]
@[simp] theorem State.setDsub_smbPub (k : Nat) (x : DSub) : (s.setDsub k x).smbPub = s.smbPub := by simp only [State.setDsub]
@[simp] theorem State.setWarm_smbPub (d : Nat) (x : WarmSt) : (s.setWarm d x).smbPub = s.smbPub := by simp only [State.setWarm]
@[simp] theorem State.setLut_smbPub (d k : Nat) (v : DWord) : (s.setLut d k v).smbPub = s.smbPub := by simp only [State.setLut]
@[simp] theorem State.setFifo_smbPub (d n : Nat) (x : Pfifo) : (s.setFifo d n x).smbPub = s.smbPub :=
  by simp only [State.setFifo, State.p_smbPub]
@[simp] theorem State.setDmWord_smbPub (d i w : Nat) (x : BWord) : (s.setDmWord d i w x).smbPub = s.smbPub :=
  by simp only [State.setDmWord]
@[simp] theorem State.setL2_smbPub (t i : Nat) (x : Option L2Ent) : (s.setL2 t i x).smbPub = s.smbPub :=
  by simp only [State.setL2, State.setPen]
@[simp] theorem State.setHello_smbPub (d p : Nat) (x : HelloSt) : (s.setHello d p x).smbPub = s.smbPub :=
  by simp only [State.setHello, State.setPen]
@[simp] theorem State.setHart_smbPub (k : Nat) (x : HartSt) : (s.setHart k x).smbPub = s.smbPub := by simp only [State.setHart]
@[simp] theorem State.setRawRx_smbPub (d : Nat) (l : List (List Byte)) : (s.setRawRx d l).smbPub = s.smbPub :=
  by simp only [State.setRawRx]
@[simp] theorem State.setBit_smbPub (d : Nat) (f : Fld) (n : Nat) : (s.setBit d f n).smbPub = s.smbPub :=
  by simp only [State.setBit, State.p_smbPub]
@[simp] theorem State.setMon_smbPub (d m : Nat) (c : MonWin) : (s.setMon d m c).smbPub = s.smbPub := by simp only [State.setMon]
@[simp] theorem State.setMee_smbPub (ch : Nat) (x : MeeSt) : (s.setMee ch x).smbPub = s.smbPub := by simp only [State.setMee]
@[simp] theorem State.setParse_smbPub (p : ParseSt) : (s.setParse p).smbPub = s.smbPub := by simp only [State.setParse]
@[simp] theorem State.setIo_smbPub (d p : Nat) (x : IoCell) : (s.setIo d p x).smbPub = s.smbPub := by simp only [State.setIo]
@[simp] theorem State.setNport_smbPub (d p : Nat) (x : Nport) : (s.setNport d p x).smbPub = s.smbPub := by simp only [State.setNport]
@[simp] theorem State.setLane_smbPub (d n : Nat) (x : LaneSt) : (s.setLane d n x).smbPub = s.smbPub := by simp only [State.setLane]
@[simp] theorem State.setVlanWord_smbPub (d v w : Nat) (x : Word) : (s.setVlanWord d v w x).smbPub = s.smbPub :=
  by simp only [State.setVlanWord, State.setPen]
@[simp] theorem State.setAir_smbPub (d e : Nat) (x : List TrunkFrame) : (s.setAir d e x).smbPub = s.smbPub :=
  by simp only [State.setAir, State.setPen]
@[simp] theorem State.setFuses_smbPub (x : Fuses) : (s.setFuses x).smbPub = s.smbPub := by simp only [State.setFuses]
@[simp] theorem State.setEdge_smbPub (d e v : Nat) : (s.setEdge d e v).smbPub = s.smbPub := by simp only [State.setEdge, State.p_smbPub]
@[simp] theorem State.setClk_smbPub (d : Nat) (c : ClkSt) : (s.setClk d c).smbPub = s.smbPub := by simp only [State.setClk]
@[simp] theorem State.setBankWord_smbPub (B w : Nat) (x : BWord) : (s.setBankWord B w x).smbPub = s.smbPub :=
  by simp only [State.setBankWord]
@[simp] theorem State.setSig_smbPub (d fa : Nat) (v : Word) : (s.setSig d fa v).smbPub = s.smbPub := by simp only [State.setSig]
@[simp] theorem State.setDesign_smbPub (d : Nat) (x : DieDesign) : (s.setDesign d x).smbPub = s.smbPub := by simp only [State.setDesign]
@[simp] theorem State.setArith_smbPub (d k : Nat) (x : Arith) : (s.setArith d k x).smbPub = s.smbPub := by simp only [State.setArith]
@[simp] theorem State.setSeu_smbPub (d : Nat) (x : List SeuEnt) : (s.setSeu d x).smbPub = s.smbPub :=
  by simp only [State.setSeu, State.p_smbPub]
@[simp] theorem State.setQclk_smbPub (d q hz : Nat) : (s.setQclk d q hz).smbPub = s.smbPub := by simp only [State.setQclk]
@[simp] theorem State.setPaused_smbPub (d e q : Nat) (x : Bool) : (s.setPaused d e q x).smbPub = s.smbPub :=
  by simp only [State.setPaused, State.setPen]
@[simp] theorem State.setCopy_smbPub (q line : Nat) (x : Option CLine) : (s.setCopy q line x).smbPub = s.smbPub :=
  by simp only [State.setCopy]
@[simp] theorem State.setLinkTx_smbPub (d e m : Nat) (x : LinkTx) : (s.setLinkTx d e m x).smbPub = s.smbPub :=
  by simp only [State.setLinkTx]
@[simp] theorem State.setCore_smbPub (d c v : Nat) : (s.setCore d c v).smbPub = s.smbPub := by simp only [State.setCore, State.p_smbPub]
@[simp] theorem State.setLad_smbPub (d : Nat) (c : LadSt) : (s.setLad d c).smbPub = s.smbPub := by simp only [State.setLad]
@[simp] theorem State.setDcell_smbPub (ch w : Nat) (x : DCell) : (s.setDcell ch w x).smbPub = s.smbPub := by simp only [State.setDcell]
@[simp] theorem State.setCfg_smbPub (c : CfgSt) : (s.setCfg c).smbPub = s.smbPub := by simp only [State.setCfg]
@[simp] theorem State.setFf_smbPub (d k : Nat) (v : Bool) : (s.setFf d k v).smbPub = s.smbPub := by simp only [State.setFf]
@[simp] theorem State.setRb_smbPub (d : Nat) (x : Option RbSt) : (s.setRb d x).smbPub = s.smbPub := by simp only [State.setRb]
@[simp] theorem State.setSeLate_smbPub (d i : Nat) (l : List SeLate) : (s.setSeLate d i l).smbPub = s.smbPub :=
  by simp only [State.setSeLate]
@[simp] theorem State.setPenDie_smbPub (d : Nat) (x : PenDie) : (s.setPenDie d x).smbPub = s.smbPub :=
  by simp only [State.setPenDie, State.setPen, State.p_smbPub]
@[simp] theorem State.setDrr_smbPub (d e : Nat) (x : DrrSt) : (s.setDrr d e x).smbPub = s.smbPub :=
  by simp only [State.setDrr, State.setPen]
@[simp] theorem State.setNet_smbPub (rid tag : Nat) (x : Option NetReq) : (s.setNet rid tag x).smbPub = s.smbPub :=
  by simp only [State.setNet]
@[simp] theorem State.setCapsIn_smbPub (d e : Nat) (x : CapsIn) : (s.setCapsIn d e x).smbPub = s.smbPub := by simp only [State.setCapsIn]
@[simp] theorem State.setCk_smbPub (d i : Nat) (c : CkMux2) : (s.setCk d i c).smbPub = s.smbPub := by simp only [State.setCk]
@[simp] theorem State.setTrainCopy_smbPub (ch : Nat) (x : Bool) : (s.setTrainCopy ch x).smbPub = s.smbPub :=
  by simp only [State.setTrainCopy]
@[simp] theorem State.setHeld_smbPub (d : Nat) (x : List (Nat × Word)) : (s.setHeld d x).smbPub = s.smbPub := by simp only [State.setHeld]
@[simp] theorem State.setChain_smbPub (d k : Nat) (x : ChainSt) : (s.setChain d k x).smbPub = s.smbPub := by simp only [State.setChain]
@[simp] theorem State.setKslot_smbPub (d k : Nat) (x : Kslot) : (s.setKslot d k x).smbPub = s.smbPub :=
  by simp only [State.setKslot, State.p_smbPub]
@[simp] theorem State.setPmWord_smbPub (d i n : Nat) (x : BitVec 39) : (s.setPmWord d i n x).smbPub = s.smbPub :=
  by simp only [State.setPmWord]
@[simp] theorem State.setWindow_smbPub (t i : Nat) (x : Bool) : (s.setWindow t i x).smbPub = s.smbPub :=
  by simp only [State.setWindow, State.setPen]
@[simp] theorem State.setRingAck_smbPub (d r : Nat) (x : Option Resp) : (s.setRingAck d r x).smbPub = s.smbPub :=
  by simp only [State.setRingAck, State.setPen]
@[simp] theorem State.setSec_smbPub (x : SecSt) : (s.setSec x).smbPub = s.smbPub := by simp only [State.setSec]
@[simp] theorem State.setTestLeft_smbPub (d n : Nat) : (s.setTestLeft d n).smbPub = s.smbPub := by simp only [State.setTestLeft]
@[simp] theorem State.clrBit_smbPub (d : Nat) (f : Fld) (n : Nat) : (s.clrBit d f n).smbPub = s.smbPub :=
  by simp only [State.clrBit, State.p_smbPub]
@[simp] theorem State.setEv_smbPub (r n : Nat) (c : EvSrc) : (s.setEv r n c).smbPub = s.smbPub := by simp only [State.setEv]
@[simp] theorem State.setFrameWord_smbPub (d fa w : Nat) (v : DWord) : (s.setFrameWord d fa w v).smbPub = s.smbPub :=
  by simp only [State.setFrameWord]
@[simp] theorem State.setFlash_smbPub (f : FlashSt) : (s.setFlash f).smbPub = s.smbPub := by simp only [State.setFlash]
@[simp] theorem State.setBmem_smbPub (d k : Nat) (x : Bmem) : (s.setBmem d k x).smbPub = s.smbPub := by simp only [State.setBmem]
@[simp] theorem State.setPr_smbPub (d r : Nat) (x : PrSt) : (s.setPr d r x).smbPub = s.smbPub := by simp only [State.setPr]
@[simp] theorem State.setPair_smbPub (d k : Nat) (x : PairSt) : (s.setPair d k x).smbPub = s.smbPub := by simp only [State.setPair]
@[simp] theorem State.setNhop_smbPub (d i : Nat) (x : Word) : (s.setNhop d i x).smbPub = s.smbPub :=
  by simp only [State.setNhop, State.setPen]
@[simp] theorem State.setYout_smbPub (d : Nat) (x : List Frame) : (s.setYout d x).smbPub = s.smbPub :=
  by simp only [State.setYout, State.setPen]
@[simp] theorem State.setXing_smbPub (k : Nat) (v : XingSt) : (s.setXing k v).smbPub = s.smbPub := by simp only [State.setXing]
@[simp] theorem State.setSeState_smbPub (d i v : Nat) : (s.setSeState d i v).smbPub = s.smbPub :=
  by simp only [State.setSeState, State.p_smbPub]
@[simp] theorem State.setSnt_smbPub (d : Nat) (c : SntSt) : (s.setSnt d c).smbPub = s.smbPub := by simp only [State.setSnt]
@[simp] theorem State.setBankSt_smbPub (B : Nat) (x : BankSt) : (s.setBankSt B x).smbPub = s.smbPub := by simp only [State.setBankSt]
@[simp] theorem State.setDynMark_smbPub (d fa : Nat) (v : Bool) : (s.setDynMark d fa v).smbPub = s.smbPub :=
  by simp only [State.setDynMark]
@[simp] theorem State.setPins_smbPub (d : Nat) (x : PinMode) : (s.setPins d x).smbPub = s.smbPub := by simp only [State.setPins]
@[simp] theorem State.setSnap_smbPub (d : Nat) (x : Snap) : (s.setSnap d x).smbPub = s.smbPub := by simp only [State.setSnap]
@[simp] theorem State.setEng_smbPub (d i : Nat) (e : SEng) : (s.setEng d i e).smbPub = s.smbPub :=
  by simp only [State.setEng, State.p_smbPub]
@[simp] theorem State.setPen_smbPub (x : PenSt) : (s.setPen x).smbPub = s.smbPub := by simp only [State.setPen]
@[simp] theorem State.setDeficit_smbPub (d e q x : Nat) : (s.setDeficit d e q x).smbPub = s.smbPub :=
  by simp only [State.setDeficit, State.setPen]
@[simp] theorem State.setDir_smbPub (line : Nat) (x : Option DirEnt) : (s.setDir line x).smbPub = s.smbPub := by simp only [State.setDir]
@[simp] theorem State.setLinkRx_smbPub (d e m : Nat) (x : LinkRx) : (s.setLinkRx d e m x).smbPub = s.smbPub :=
  by simp only [State.setLinkRx]

/-! ## The updates that leave `smbHost` alone -/

@[simp] theorem State.setCell_smbHost (k : Nat) (v : DWord) : (s.setCell k v).smbHost = s.smbHost := by simp only [State.setCell]
@[simp] theorem State.p_smbHost (d : Nat) (f : Fld) (v : Nat) : (s.p d f v).smbHost = s.smbHost :=
  by simp only [State.p, State.setCell_smbHost]
@[simp] theorem State.setMbox_smbHost (d : Nat) (c : MboxSt) : (s.setMbox d c).smbHost = s.smbHost := by simp only [State.setMbox]
@[simp] theorem State.setDsub_smbHost (k : Nat) (x : DSub) : (s.setDsub k x).smbHost = s.smbHost := by simp only [State.setDsub]
@[simp] theorem State.setWarm_smbHost (d : Nat) (x : WarmSt) : (s.setWarm d x).smbHost = s.smbHost := by simp only [State.setWarm]
@[simp] theorem State.setLut_smbHost (d k : Nat) (v : DWord) : (s.setLut d k v).smbHost = s.smbHost := by simp only [State.setLut]
@[simp] theorem State.setFifo_smbHost (d n : Nat) (x : Pfifo) : (s.setFifo d n x).smbHost = s.smbHost :=
  by simp only [State.setFifo, State.p_smbHost]
@[simp] theorem State.setDmWord_smbHost (d i w : Nat) (x : BWord) : (s.setDmWord d i w x).smbHost = s.smbHost :=
  by simp only [State.setDmWord]
@[simp] theorem State.setL2_smbHost (t i : Nat) (x : Option L2Ent) : (s.setL2 t i x).smbHost = s.smbHost :=
  by simp only [State.setL2, State.setPen]
@[simp] theorem State.setHello_smbHost (d p : Nat) (x : HelloSt) : (s.setHello d p x).smbHost = s.smbHost :=
  by simp only [State.setHello, State.setPen]
@[simp] theorem State.setHart_smbHost (k : Nat) (x : HartSt) : (s.setHart k x).smbHost = s.smbHost := by simp only [State.setHart]
@[simp] theorem State.setRawRx_smbHost (d : Nat) (l : List (List Byte)) : (s.setRawRx d l).smbHost = s.smbHost :=
  by simp only [State.setRawRx]
@[simp] theorem State.setBit_smbHost (d : Nat) (f : Fld) (n : Nat) : (s.setBit d f n).smbHost = s.smbHost :=
  by simp only [State.setBit, State.p_smbHost]
@[simp] theorem State.setMon_smbHost (d m : Nat) (c : MonWin) : (s.setMon d m c).smbHost = s.smbHost := by simp only [State.setMon]
@[simp] theorem State.setMee_smbHost (ch : Nat) (x : MeeSt) : (s.setMee ch x).smbHost = s.smbHost := by simp only [State.setMee]
@[simp] theorem State.setParse_smbHost (p : ParseSt) : (s.setParse p).smbHost = s.smbHost := by simp only [State.setParse]
@[simp] theorem State.setIo_smbHost (d p : Nat) (x : IoCell) : (s.setIo d p x).smbHost = s.smbHost := by simp only [State.setIo]
@[simp] theorem State.setNport_smbHost (d p : Nat) (x : Nport) : (s.setNport d p x).smbHost = s.smbHost := by simp only [State.setNport]
@[simp] theorem State.setLane_smbHost (d n : Nat) (x : LaneSt) : (s.setLane d n x).smbHost = s.smbHost := by simp only [State.setLane]
@[simp] theorem State.setVlanWord_smbHost (d v w : Nat) (x : Word) : (s.setVlanWord d v w x).smbHost = s.smbHost :=
  by simp only [State.setVlanWord, State.setPen]
@[simp] theorem State.setAir_smbHost (d e : Nat) (x : List TrunkFrame) : (s.setAir d e x).smbHost = s.smbHost :=
  by simp only [State.setAir, State.setPen]
@[simp] theorem State.setFuses_smbHost (x : Fuses) : (s.setFuses x).smbHost = s.smbHost := by simp only [State.setFuses]
@[simp] theorem State.setEdge_smbHost (d e v : Nat) : (s.setEdge d e v).smbHost = s.smbHost :=
  by simp only [State.setEdge, State.p_smbHost]
@[simp] theorem State.setClk_smbHost (d : Nat) (c : ClkSt) : (s.setClk d c).smbHost = s.smbHost := by simp only [State.setClk]
@[simp] theorem State.setBankWord_smbHost (B w : Nat) (x : BWord) : (s.setBankWord B w x).smbHost = s.smbHost :=
  by simp only [State.setBankWord]
@[simp] theorem State.setSig_smbHost (d fa : Nat) (v : Word) : (s.setSig d fa v).smbHost = s.smbHost := by simp only [State.setSig]
@[simp] theorem State.setDesign_smbHost (d : Nat) (x : DieDesign) : (s.setDesign d x).smbHost = s.smbHost := by simp only [State.setDesign]
@[simp] theorem State.setArith_smbHost (d k : Nat) (x : Arith) : (s.setArith d k x).smbHost = s.smbHost := by simp only [State.setArith]
@[simp] theorem State.setSeu_smbHost (d : Nat) (x : List SeuEnt) : (s.setSeu d x).smbHost = s.smbHost :=
  by simp only [State.setSeu, State.p_smbHost]
@[simp] theorem State.setQclk_smbHost (d q hz : Nat) : (s.setQclk d q hz).smbHost = s.smbHost := by simp only [State.setQclk]
@[simp] theorem State.setPaused_smbHost (d e q : Nat) (x : Bool) : (s.setPaused d e q x).smbHost = s.smbHost :=
  by simp only [State.setPaused, State.setPen]
@[simp] theorem State.setCopy_smbHost (q line : Nat) (x : Option CLine) : (s.setCopy q line x).smbHost = s.smbHost :=
  by simp only [State.setCopy]
@[simp] theorem State.setLinkTx_smbHost (d e m : Nat) (x : LinkTx) : (s.setLinkTx d e m x).smbHost = s.smbHost :=
  by simp only [State.setLinkTx]
@[simp] theorem State.setCore_smbHost (d c v : Nat) : (s.setCore d c v).smbHost = s.smbHost :=
  by simp only [State.setCore, State.p_smbHost]
@[simp] theorem State.setLad_smbHost (d : Nat) (c : LadSt) : (s.setLad d c).smbHost = s.smbHost := by simp only [State.setLad]
@[simp] theorem State.setDcell_smbHost (ch w : Nat) (x : DCell) : (s.setDcell ch w x).smbHost = s.smbHost := by simp only [State.setDcell]
@[simp] theorem State.setCfg_smbHost (c : CfgSt) : (s.setCfg c).smbHost = s.smbHost := by simp only [State.setCfg]
@[simp] theorem State.setFf_smbHost (d k : Nat) (v : Bool) : (s.setFf d k v).smbHost = s.smbHost := by simp only [State.setFf]
@[simp] theorem State.setRb_smbHost (d : Nat) (x : Option RbSt) : (s.setRb d x).smbHost = s.smbHost := by simp only [State.setRb]
@[simp] theorem State.setSeLate_smbHost (d i : Nat) (l : List SeLate) : (s.setSeLate d i l).smbHost = s.smbHost :=
  by simp only [State.setSeLate]
@[simp] theorem State.setPenDie_smbHost (d : Nat) (x : PenDie) : (s.setPenDie d x).smbHost = s.smbHost :=
  by simp only [State.setPenDie, State.setPen, State.p_smbHost]
@[simp] theorem State.setDrr_smbHost (d e : Nat) (x : DrrSt) : (s.setDrr d e x).smbHost = s.smbHost :=
  by simp only [State.setDrr, State.setPen]
@[simp] theorem State.setNet_smbHost (rid tag : Nat) (x : Option NetReq) : (s.setNet rid tag x).smbHost = s.smbHost :=
  by simp only [State.setNet]
@[simp] theorem State.setCapsIn_smbHost (d e : Nat) (x : CapsIn) : (s.setCapsIn d e x).smbHost = s.smbHost :=
  by simp only [State.setCapsIn]
@[simp] theorem State.setCk_smbHost (d i : Nat) (c : CkMux2) : (s.setCk d i c).smbHost = s.smbHost := by simp only [State.setCk]
@[simp] theorem State.setTrainCopy_smbHost (ch : Nat) (x : Bool) : (s.setTrainCopy ch x).smbHost = s.smbHost :=
  by simp only [State.setTrainCopy]
@[simp] theorem State.setHeld_smbHost (d : Nat) (x : List (Nat × Word)) : (s.setHeld d x).smbHost = s.smbHost :=
  by simp only [State.setHeld]
@[simp] theorem State.setChain_smbHost (d k : Nat) (x : ChainSt) : (s.setChain d k x).smbHost = s.smbHost := by simp only [State.setChain]
@[simp] theorem State.setKslot_smbHost (d k : Nat) (x : Kslot) : (s.setKslot d k x).smbHost = s.smbHost :=
  by simp only [State.setKslot, State.p_smbHost]
@[simp] theorem State.setPmWord_smbHost (d i n : Nat) (x : BitVec 39) : (s.setPmWord d i n x).smbHost = s.smbHost :=
  by simp only [State.setPmWord]
@[simp] theorem State.setWindow_smbHost (t i : Nat) (x : Bool) : (s.setWindow t i x).smbHost = s.smbHost :=
  by simp only [State.setWindow, State.setPen]
@[simp] theorem State.setRingAck_smbHost (d r : Nat) (x : Option Resp) : (s.setRingAck d r x).smbHost = s.smbHost :=
  by simp only [State.setRingAck, State.setPen]
@[simp] theorem State.setSec_smbHost (x : SecSt) : (s.setSec x).smbHost = s.smbHost := by simp only [State.setSec]
@[simp] theorem State.setTestLeft_smbHost (d n : Nat) : (s.setTestLeft d n).smbHost = s.smbHost := by simp only [State.setTestLeft]
@[simp] theorem State.clrBit_smbHost (d : Nat) (f : Fld) (n : Nat) : (s.clrBit d f n).smbHost = s.smbHost :=
  by simp only [State.clrBit, State.p_smbHost]
@[simp] theorem State.setEv_smbHost (r n : Nat) (c : EvSrc) : (s.setEv r n c).smbHost = s.smbHost := by simp only [State.setEv]
@[simp] theorem State.setFrameWord_smbHost (d fa w : Nat) (v : DWord) : (s.setFrameWord d fa w v).smbHost = s.smbHost :=
  by simp only [State.setFrameWord]
@[simp] theorem State.setFlash_smbHost (f : FlashSt) : (s.setFlash f).smbHost = s.smbHost := by simp only [State.setFlash]
@[simp] theorem State.setBmem_smbHost (d k : Nat) (x : Bmem) : (s.setBmem d k x).smbHost = s.smbHost := by simp only [State.setBmem]
@[simp] theorem State.setPr_smbHost (d r : Nat) (x : PrSt) : (s.setPr d r x).smbHost = s.smbHost := by simp only [State.setPr]
@[simp] theorem State.setPair_smbHost (d k : Nat) (x : PairSt) : (s.setPair d k x).smbHost = s.smbHost := by simp only [State.setPair]
@[simp] theorem State.setNhop_smbHost (d i : Nat) (x : Word) : (s.setNhop d i x).smbHost = s.smbHost :=
  by simp only [State.setNhop, State.setPen]
@[simp] theorem State.setYout_smbHost (d : Nat) (x : List Frame) : (s.setYout d x).smbHost = s.smbHost :=
  by simp only [State.setYout, State.setPen]
@[simp] theorem State.setXing_smbHost (k : Nat) (v : XingSt) : (s.setXing k v).smbHost = s.smbHost := by simp only [State.setXing]
@[simp] theorem State.setSeState_smbHost (d i v : Nat) : (s.setSeState d i v).smbHost = s.smbHost :=
  by simp only [State.setSeState, State.p_smbHost]
@[simp] theorem State.setSnt_smbHost (d : Nat) (c : SntSt) : (s.setSnt d c).smbHost = s.smbHost := by simp only [State.setSnt]
@[simp] theorem State.setBankSt_smbHost (B : Nat) (x : BankSt) : (s.setBankSt B x).smbHost = s.smbHost := by simp only [State.setBankSt]
@[simp] theorem State.setDynMark_smbHost (d fa : Nat) (v : Bool) : (s.setDynMark d fa v).smbHost = s.smbHost :=
  by simp only [State.setDynMark]
@[simp] theorem State.setPins_smbHost (d : Nat) (x : PinMode) : (s.setPins d x).smbHost = s.smbHost := by simp only [State.setPins]
@[simp] theorem State.setSnap_smbHost (d : Nat) (x : Snap) : (s.setSnap d x).smbHost = s.smbHost := by simp only [State.setSnap]
@[simp] theorem State.setEng_smbHost (d i : Nat) (e : SEng) : (s.setEng d i e).smbHost = s.smbHost :=
  by simp only [State.setEng, State.p_smbHost]
@[simp] theorem State.setPen_smbHost (x : PenSt) : (s.setPen x).smbHost = s.smbHost := by simp only [State.setPen]
@[simp] theorem State.setDeficit_smbHost (d e q x : Nat) : (s.setDeficit d e q x).smbHost = s.smbHost :=
  by simp only [State.setDeficit, State.setPen]
@[simp] theorem State.setDir_smbHost (line : Nat) (x : Option DirEnt) : (s.setDir line x).smbHost = s.smbHost :=
  by simp only [State.setDir]
@[simp] theorem State.setLinkRx_smbHost (d e m : Nat) (x : LinkRx) : (s.setLinkRx d e m x).smbHost = s.smbHost :=
  by simp only [State.setLinkRx]

/-! ## The updates that leave `lad` alone -/

@[simp] theorem State.setCell_lad (k : Nat) (v : DWord) : (s.setCell k v).lad = s.lad := by simp only [State.setCell]
@[simp] theorem State.p_lad (d : Nat) (f : Fld) (v : Nat) : (s.p d f v).lad = s.lad := by simp only [State.p, State.setCell_lad]
@[simp] theorem State.setCk_lad (d i : Nat) (c : CkMux2) : (s.setCk d i c).lad = s.lad := by simp only [State.setCk]
@[simp] theorem State.setTrainCopy_lad (ch : Nat) (x : Bool) : (s.setTrainCopy ch x).lad = s.lad := by simp only [State.setTrainCopy]
@[simp] theorem State.setHeld_lad (d : Nat) (x : List (Nat × Word)) : (s.setHeld d x).lad = s.lad := by simp only [State.setHeld]
@[simp] theorem State.setChain_lad (d k : Nat) (x : ChainSt) : (s.setChain d k x).lad = s.lad := by simp only [State.setChain]
@[simp] theorem State.setKslot_lad (d k : Nat) (x : Kslot) : (s.setKslot d k x).lad = s.lad := by simp only [State.setKslot, State.p_lad]
@[simp] theorem State.setPmWord_lad (d i n : Nat) (x : BitVec 39) : (s.setPmWord d i n x).lad = s.lad := by simp only [State.setPmWord]
@[simp] theorem State.setWindow_lad (t i : Nat) (x : Bool) : (s.setWindow t i x).lad = s.lad :=
  by simp only [State.setWindow, State.setPen]
@[simp] theorem State.setRingAck_lad (d r : Nat) (x : Option Resp) : (s.setRingAck d r x).lad = s.lad :=
  by simp only [State.setRingAck, State.setPen]
@[simp] theorem State.setSec_lad (x : SecSt) : (s.setSec x).lad = s.lad := by simp only [State.setSec]
@[simp] theorem State.setTestLeft_lad (d n : Nat) : (s.setTestLeft d n).lad = s.lad := by simp only [State.setTestLeft]
@[simp] theorem State.clrBit_lad (d : Nat) (f : Fld) (n : Nat) : (s.clrBit d f n).lad = s.lad := by simp only [State.clrBit, State.p_lad]
@[simp] theorem State.setBankWord_lad (B w : Nat) (x : BWord) : (s.setBankWord B w x).lad = s.lad := by simp only [State.setBankWord]
@[simp] theorem State.setSig_lad (d fa : Nat) (v : Word) : (s.setSig d fa v).lad = s.lad := by simp only [State.setSig]
@[simp] theorem State.setDesign_lad (d : Nat) (x : DieDesign) : (s.setDesign d x).lad = s.lad := by simp only [State.setDesign]
@[simp] theorem State.setArith_lad (d k : Nat) (x : Arith) : (s.setArith d k x).lad = s.lad := by simp only [State.setArith]
@[simp] theorem State.setSeu_lad (d : Nat) (x : List SeuEnt) : (s.setSeu d x).lad = s.lad := by simp only [State.setSeu, State.p_lad]
@[simp] theorem State.setQclk_lad (d q hz : Nat) : (s.setQclk d q hz).lad = s.lad := by simp only [State.setQclk]
@[simp] theorem State.setPaused_lad (d e q : Nat) (x : Bool) : (s.setPaused d e q x).lad = s.lad :=
  by simp only [State.setPaused, State.setPen]
@[simp] theorem State.setCopy_lad (q line : Nat) (x : Option CLine) : (s.setCopy q line x).lad = s.lad := by simp only [State.setCopy]
@[simp] theorem State.setLinkTx_lad (d e m : Nat) (x : LinkTx) : (s.setLinkTx d e m x).lad = s.lad := by simp only [State.setLinkTx]
@[simp] theorem State.setCore_lad (d c v : Nat) : (s.setCore d c v).lad = s.lad := by simp only [State.setCore, State.p_lad]
@[simp] theorem State.setMbox_lad (d : Nat) (c : MboxSt) : (s.setMbox d c).lad = s.lad := by simp only [State.setMbox]
@[simp] theorem State.setDsub_lad (k : Nat) (x : DSub) : (s.setDsub k x).lad = s.lad := by simp only [State.setDsub]
@[simp] theorem State.setWarm_lad (d : Nat) (x : WarmSt) : (s.setWarm d x).lad = s.lad := by simp only [State.setWarm]
@[simp] theorem State.setLut_lad (d k : Nat) (v : DWord) : (s.setLut d k v).lad = s.lad := by simp only [State.setLut]
@[simp] theorem State.setFifo_lad (d n : Nat) (x : Pfifo) : (s.setFifo d n x).lad = s.lad := by simp only [State.setFifo, State.p_lad]
@[simp] theorem State.setDmWord_lad (d i w : Nat) (x : BWord) : (s.setDmWord d i w x).lad = s.lad := by simp only [State.setDmWord]
@[simp] theorem State.setL2_lad (t i : Nat) (x : Option L2Ent) : (s.setL2 t i x).lad = s.lad := by simp only [State.setL2, State.setPen]
@[simp] theorem State.setHello_lad (d p : Nat) (x : HelloSt) : (s.setHello d p x).lad = s.lad :=
  by simp only [State.setHello, State.setPen]
@[simp] theorem State.setHart_lad (k : Nat) (x : HartSt) : (s.setHart k x).lad = s.lad := by simp only [State.setHart]
@[simp] theorem State.setRawRx_lad (d : Nat) (l : List (List Byte)) : (s.setRawRx d l).lad = s.lad := by simp only [State.setRawRx]
@[simp] theorem State.setBit_lad (d : Nat) (f : Fld) (n : Nat) : (s.setBit d f n).lad = s.lad := by simp only [State.setBit, State.p_lad]
@[simp] theorem State.setEv_lad (r n : Nat) (c : EvSrc) : (s.setEv r n c).lad = s.lad := by simp only [State.setEv]
@[simp] theorem State.setFrameWord_lad (d fa w : Nat) (v : DWord) : (s.setFrameWord d fa w v).lad = s.lad :=
  by simp only [State.setFrameWord]
@[simp] theorem State.setFlash_lad (f : FlashSt) : (s.setFlash f).lad = s.lad := by simp only [State.setFlash]
@[simp] theorem State.setBmem_lad (d k : Nat) (x : Bmem) : (s.setBmem d k x).lad = s.lad := by simp only [State.setBmem]
@[simp] theorem State.setPr_lad (d r : Nat) (x : PrSt) : (s.setPr d r x).lad = s.lad := by simp only [State.setPr]
@[simp] theorem State.setPair_lad (d k : Nat) (x : PairSt) : (s.setPair d k x).lad = s.lad := by simp only [State.setPair]
@[simp] theorem State.setNhop_lad (d i : Nat) (x : Word) : (s.setNhop d i x).lad = s.lad := by simp only [State.setNhop, State.setPen]
@[simp] theorem State.setYout_lad (d : Nat) (x : List Frame) : (s.setYout d x).lad = s.lad := by simp only [State.setYout, State.setPen]
@[simp] theorem State.setXing_lad (k : Nat) (v : XingSt) : (s.setXing k v).lad = s.lad := by simp only [State.setXing]
@[simp] theorem State.setSeState_lad (d i v : Nat) : (s.setSeState d i v).lad = s.lad := by simp only [State.setSeState, State.p_lad]
@[simp] theorem State.setSnt_lad (d : Nat) (c : SntSt) : (s.setSnt d c).lad = s.lad := by simp only [State.setSnt]
@[simp] theorem State.setDcell_lad (ch w : Nat) (x : DCell) : (s.setDcell ch w x).lad = s.lad := by simp only [State.setDcell]
@[simp] theorem State.setCfg_lad (c : CfgSt) : (s.setCfg c).lad = s.lad := by simp only [State.setCfg]
@[simp] theorem State.setFf_lad (d k : Nat) (v : Bool) : (s.setFf d k v).lad = s.lad := by simp only [State.setFf]
@[simp] theorem State.setRb_lad (d : Nat) (x : Option RbSt) : (s.setRb d x).lad = s.lad := by simp only [State.setRb]
@[simp] theorem State.setSeLate_lad (d i : Nat) (l : List SeLate) : (s.setSeLate d i l).lad = s.lad := by simp only [State.setSeLate]
@[simp] theorem State.setPenDie_lad (d : Nat) (x : PenDie) : (s.setPenDie d x).lad = s.lad :=
  by simp only [State.setPenDie, State.setPen, State.p_lad]
@[simp] theorem State.setDrr_lad (d e : Nat) (x : DrrSt) : (s.setDrr d e x).lad = s.lad := by simp only [State.setDrr, State.setPen]
@[simp] theorem State.setNet_lad (rid tag : Nat) (x : Option NetReq) : (s.setNet rid tag x).lad = s.lad := by simp only [State.setNet]
@[simp] theorem State.setCapsIn_lad (d e : Nat) (x : CapsIn) : (s.setCapsIn d e x).lad = s.lad := by simp only [State.setCapsIn]
@[simp] theorem State.setMon_lad (d m : Nat) (c : MonWin) : (s.setMon d m c).lad = s.lad := by simp only [State.setMon]
@[simp] theorem State.setMee_lad (ch : Nat) (x : MeeSt) : (s.setMee ch x).lad = s.lad := by simp only [State.setMee]
@[simp] theorem State.setParse_lad (p : ParseSt) : (s.setParse p).lad = s.lad := by simp only [State.setParse]
@[simp] theorem State.setIo_lad (d p : Nat) (x : IoCell) : (s.setIo d p x).lad = s.lad := by simp only [State.setIo]
@[simp] theorem State.setNport_lad (d p : Nat) (x : Nport) : (s.setNport d p x).lad = s.lad := by simp only [State.setNport]
@[simp] theorem State.setLane_lad (d n : Nat) (x : LaneSt) : (s.setLane d n x).lad = s.lad := by simp only [State.setLane]
@[simp] theorem State.setVlanWord_lad (d v w : Nat) (x : Word) : (s.setVlanWord d v w x).lad = s.lad :=
  by simp only [State.setVlanWord, State.setPen]
@[simp] theorem State.setAir_lad (d e : Nat) (x : List TrunkFrame) : (s.setAir d e x).lad = s.lad :=
  by simp only [State.setAir, State.setPen]
@[simp] theorem State.setFuses_lad (x : Fuses) : (s.setFuses x).lad = s.lad := by simp only [State.setFuses]
@[simp] theorem State.setEdge_lad (d e v : Nat) : (s.setEdge d e v).lad = s.lad := by simp only [State.setEdge, State.p_lad]
@[simp] theorem State.setClk_lad (d : Nat) (c : ClkSt) : (s.setClk d c).lad = s.lad := by simp only [State.setClk]
@[simp] theorem State.setBankSt_lad (B : Nat) (x : BankSt) : (s.setBankSt B x).lad = s.lad := by simp only [State.setBankSt]
@[simp] theorem State.setDynMark_lad (d fa : Nat) (v : Bool) : (s.setDynMark d fa v).lad = s.lad := by simp only [State.setDynMark]
@[simp] theorem State.setPins_lad (d : Nat) (x : PinMode) : (s.setPins d x).lad = s.lad := by simp only [State.setPins]
@[simp] theorem State.setSnap_lad (d : Nat) (x : Snap) : (s.setSnap d x).lad = s.lad := by simp only [State.setSnap]
@[simp] theorem State.setEng_lad (d i : Nat) (e : SEng) : (s.setEng d i e).lad = s.lad := by simp only [State.setEng, State.p_lad]
@[simp] theorem State.setPen_lad (x : PenSt) : (s.setPen x).lad = s.lad := by simp only [State.setPen]
@[simp] theorem State.setDeficit_lad (d e q x : Nat) : (s.setDeficit d e q x).lad = s.lad := by simp only [State.setDeficit, State.setPen]
@[simp] theorem State.setDir_lad (line : Nat) (x : Option DirEnt) : (s.setDir line x).lad = s.lad := by simp only [State.setDir]
@[simp] theorem State.setLinkRx_lad (d e m : Nat) (x : LinkRx) : (s.setLinkRx d e m x).lad = s.lad := by simp only [State.setLinkRx]

/-! ## The updates that leave `thm` alone -/

@[simp] theorem State.setCell_thm (k : Nat) (v : DWord) : (s.setCell k v).thm = s.thm := by simp only [State.setCell]
@[simp] theorem State.p_thm (d : Nat) (f : Fld) (v : Nat) : (s.p d f v).thm = s.thm := by simp only [State.p, State.setCell_thm]
@[simp] theorem State.setMbox_thm (d : Nat) (c : MboxSt) : (s.setMbox d c).thm = s.thm := by simp only [State.setMbox]
@[simp] theorem State.setDsub_thm (k : Nat) (x : DSub) : (s.setDsub k x).thm = s.thm := by simp only [State.setDsub]
@[simp] theorem State.setWarm_thm (d : Nat) (x : WarmSt) : (s.setWarm d x).thm = s.thm := by simp only [State.setWarm]
@[simp] theorem State.setLut_thm (d k : Nat) (v : DWord) : (s.setLut d k v).thm = s.thm := by simp only [State.setLut]
@[simp] theorem State.setFifo_thm (d n : Nat) (x : Pfifo) : (s.setFifo d n x).thm = s.thm := by simp only [State.setFifo, State.p_thm]
@[simp] theorem State.setDmWord_thm (d i w : Nat) (x : BWord) : (s.setDmWord d i w x).thm = s.thm := by simp only [State.setDmWord]
@[simp] theorem State.setL2_thm (t i : Nat) (x : Option L2Ent) : (s.setL2 t i x).thm = s.thm := by simp only [State.setL2, State.setPen]
@[simp] theorem State.setHello_thm (d p : Nat) (x : HelloSt) : (s.setHello d p x).thm = s.thm :=
  by simp only [State.setHello, State.setPen]
@[simp] theorem State.setHart_thm (k : Nat) (x : HartSt) : (s.setHart k x).thm = s.thm := by simp only [State.setHart]
@[simp] theorem State.setRawRx_thm (d : Nat) (l : List (List Byte)) : (s.setRawRx d l).thm = s.thm := by simp only [State.setRawRx]
@[simp] theorem State.setBit_thm (d : Nat) (f : Fld) (n : Nat) : (s.setBit d f n).thm = s.thm := by simp only [State.setBit, State.p_thm]
@[simp] theorem State.setMon_thm (d m : Nat) (c : MonWin) : (s.setMon d m c).thm = s.thm := by simp only [State.setMon]
@[simp] theorem State.setMee_thm (ch : Nat) (x : MeeSt) : (s.setMee ch x).thm = s.thm := by simp only [State.setMee]
@[simp] theorem State.setParse_thm (p : ParseSt) : (s.setParse p).thm = s.thm := by simp only [State.setParse]
@[simp] theorem State.setIo_thm (d p : Nat) (x : IoCell) : (s.setIo d p x).thm = s.thm := by simp only [State.setIo]
@[simp] theorem State.setNport_thm (d p : Nat) (x : Nport) : (s.setNport d p x).thm = s.thm := by simp only [State.setNport]
@[simp] theorem State.setLane_thm (d n : Nat) (x : LaneSt) : (s.setLane d n x).thm = s.thm := by simp only [State.setLane]
@[simp] theorem State.setVlanWord_thm (d v w : Nat) (x : Word) : (s.setVlanWord d v w x).thm = s.thm :=
  by simp only [State.setVlanWord, State.setPen]
@[simp] theorem State.setAir_thm (d e : Nat) (x : List TrunkFrame) : (s.setAir d e x).thm = s.thm :=
  by simp only [State.setAir, State.setPen]
@[simp] theorem State.setFuses_thm (x : Fuses) : (s.setFuses x).thm = s.thm := by simp only [State.setFuses]
@[simp] theorem State.setEdge_thm (d e v : Nat) : (s.setEdge d e v).thm = s.thm := by simp only [State.setEdge, State.p_thm]
@[simp] theorem State.setClk_thm (d : Nat) (c : ClkSt) : (s.setClk d c).thm = s.thm := by simp only [State.setClk]
@[simp] theorem State.setBankWord_thm (B w : Nat) (x : BWord) : (s.setBankWord B w x).thm = s.thm := by simp only [State.setBankWord]
@[simp] theorem State.setSig_thm (d fa : Nat) (v : Word) : (s.setSig d fa v).thm = s.thm := by simp only [State.setSig]
@[simp] theorem State.setDesign_thm (d : Nat) (x : DieDesign) : (s.setDesign d x).thm = s.thm := by simp only [State.setDesign]
@[simp] theorem State.setArith_thm (d k : Nat) (x : Arith) : (s.setArith d k x).thm = s.thm := by simp only [State.setArith]
@[simp] theorem State.setSeu_thm (d : Nat) (x : List SeuEnt) : (s.setSeu d x).thm = s.thm := by simp only [State.setSeu, State.p_thm]
@[simp] theorem State.setQclk_thm (d q hz : Nat) : (s.setQclk d q hz).thm = s.thm := by simp only [State.setQclk]
@[simp] theorem State.setPaused_thm (d e q : Nat) (x : Bool) : (s.setPaused d e q x).thm = s.thm :=
  by simp only [State.setPaused, State.setPen]
@[simp] theorem State.setCopy_thm (q line : Nat) (x : Option CLine) : (s.setCopy q line x).thm = s.thm := by simp only [State.setCopy]
@[simp] theorem State.setLinkTx_thm (d e m : Nat) (x : LinkTx) : (s.setLinkTx d e m x).thm = s.thm := by simp only [State.setLinkTx]
@[simp] theorem State.setCore_thm (d c v : Nat) : (s.setCore d c v).thm = s.thm := by simp only [State.setCore, State.p_thm]
@[simp] theorem State.setLad_thm (d : Nat) (c : LadSt) : (s.setLad d c).thm = s.thm := by simp only [State.setLad]
@[simp] theorem State.setDcell_thm (ch w : Nat) (x : DCell) : (s.setDcell ch w x).thm = s.thm := by simp only [State.setDcell]
@[simp] theorem State.setCfg_thm (c : CfgSt) : (s.setCfg c).thm = s.thm := by simp only [State.setCfg]
@[simp] theorem State.setFf_thm (d k : Nat) (v : Bool) : (s.setFf d k v).thm = s.thm := by simp only [State.setFf]
@[simp] theorem State.setRb_thm (d : Nat) (x : Option RbSt) : (s.setRb d x).thm = s.thm := by simp only [State.setRb]
@[simp] theorem State.setSeLate_thm (d i : Nat) (l : List SeLate) : (s.setSeLate d i l).thm = s.thm := by simp only [State.setSeLate]
@[simp] theorem State.setPenDie_thm (d : Nat) (x : PenDie) : (s.setPenDie d x).thm = s.thm :=
  by simp only [State.setPenDie, State.setPen, State.p_thm]
@[simp] theorem State.setDrr_thm (d e : Nat) (x : DrrSt) : (s.setDrr d e x).thm = s.thm := by simp only [State.setDrr, State.setPen]
@[simp] theorem State.setNet_thm (rid tag : Nat) (x : Option NetReq) : (s.setNet rid tag x).thm = s.thm := by simp only [State.setNet]
@[simp] theorem State.setCapsIn_thm (d e : Nat) (x : CapsIn) : (s.setCapsIn d e x).thm = s.thm := by simp only [State.setCapsIn]
@[simp] theorem State.setCk_thm (d i : Nat) (c : CkMux2) : (s.setCk d i c).thm = s.thm := by simp only [State.setCk]
@[simp] theorem State.setTrainCopy_thm (ch : Nat) (x : Bool) : (s.setTrainCopy ch x).thm = s.thm := by simp only [State.setTrainCopy]
@[simp] theorem State.setHeld_thm (d : Nat) (x : List (Nat × Word)) : (s.setHeld d x).thm = s.thm := by simp only [State.setHeld]
@[simp] theorem State.setChain_thm (d k : Nat) (x : ChainSt) : (s.setChain d k x).thm = s.thm := by simp only [State.setChain]
@[simp] theorem State.setKslot_thm (d k : Nat) (x : Kslot) : (s.setKslot d k x).thm = s.thm := by simp only [State.setKslot, State.p_thm]
@[simp] theorem State.setPmWord_thm (d i n : Nat) (x : BitVec 39) : (s.setPmWord d i n x).thm = s.thm := by simp only [State.setPmWord]
@[simp] theorem State.setWindow_thm (t i : Nat) (x : Bool) : (s.setWindow t i x).thm = s.thm :=
  by simp only [State.setWindow, State.setPen]
@[simp] theorem State.setRingAck_thm (d r : Nat) (x : Option Resp) : (s.setRingAck d r x).thm = s.thm :=
  by simp only [State.setRingAck, State.setPen]
@[simp] theorem State.setSec_thm (x : SecSt) : (s.setSec x).thm = s.thm := by simp only [State.setSec]
@[simp] theorem State.setTestLeft_thm (d n : Nat) : (s.setTestLeft d n).thm = s.thm := by simp only [State.setTestLeft]
@[simp] theorem State.clrBit_thm (d : Nat) (f : Fld) (n : Nat) : (s.clrBit d f n).thm = s.thm := by simp only [State.clrBit, State.p_thm]
@[simp] theorem State.setEv_thm (r n : Nat) (c : EvSrc) : (s.setEv r n c).thm = s.thm := by simp only [State.setEv]
@[simp] theorem State.setFrameWord_thm (d fa w : Nat) (v : DWord) : (s.setFrameWord d fa w v).thm = s.thm :=
  by simp only [State.setFrameWord]
@[simp] theorem State.setFlash_thm (f : FlashSt) : (s.setFlash f).thm = s.thm := by simp only [State.setFlash]
@[simp] theorem State.setBmem_thm (d k : Nat) (x : Bmem) : (s.setBmem d k x).thm = s.thm := by simp only [State.setBmem]
@[simp] theorem State.setPr_thm (d r : Nat) (x : PrSt) : (s.setPr d r x).thm = s.thm := by simp only [State.setPr]
@[simp] theorem State.setPair_thm (d k : Nat) (x : PairSt) : (s.setPair d k x).thm = s.thm := by simp only [State.setPair]
@[simp] theorem State.setNhop_thm (d i : Nat) (x : Word) : (s.setNhop d i x).thm = s.thm := by simp only [State.setNhop, State.setPen]
@[simp] theorem State.setYout_thm (d : Nat) (x : List Frame) : (s.setYout d x).thm = s.thm := by simp only [State.setYout, State.setPen]
@[simp] theorem State.setXing_thm (k : Nat) (v : XingSt) : (s.setXing k v).thm = s.thm := by simp only [State.setXing]
@[simp] theorem State.setSeState_thm (d i v : Nat) : (s.setSeState d i v).thm = s.thm := by simp only [State.setSeState, State.p_thm]
@[simp] theorem State.setSnt_thm (d : Nat) (c : SntSt) : (s.setSnt d c).thm = s.thm := by simp only [State.setSnt]
@[simp] theorem State.setBankSt_thm (B : Nat) (x : BankSt) : (s.setBankSt B x).thm = s.thm := by simp only [State.setBankSt]
@[simp] theorem State.setDynMark_thm (d fa : Nat) (v : Bool) : (s.setDynMark d fa v).thm = s.thm := by simp only [State.setDynMark]
@[simp] theorem State.setPins_thm (d : Nat) (x : PinMode) : (s.setPins d x).thm = s.thm := by simp only [State.setPins]
@[simp] theorem State.setSnap_thm (d : Nat) (x : Snap) : (s.setSnap d x).thm = s.thm := by simp only [State.setSnap]
@[simp] theorem State.setEng_thm (d i : Nat) (e : SEng) : (s.setEng d i e).thm = s.thm := by simp only [State.setEng, State.p_thm]
@[simp] theorem State.setPen_thm (x : PenSt) : (s.setPen x).thm = s.thm := by simp only [State.setPen]
@[simp] theorem State.setDeficit_thm (d e q x : Nat) : (s.setDeficit d e q x).thm = s.thm := by simp only [State.setDeficit, State.setPen]
@[simp] theorem State.setDir_thm (line : Nat) (x : Option DirEnt) : (s.setDir line x).thm = s.thm := by simp only [State.setDir]
@[simp] theorem State.setLinkRx_thm (d e m : Nat) (x : LinkRx) : (s.setLinkRx d e m x).thm = s.thm := by simp only [State.setLinkRx]

/-! ## The updates that leave `mon` alone -/

@[simp] theorem State.setCell_mon (k : Nat) (v : DWord) : (s.setCell k v).mon = s.mon := by simp only [State.setCell]
@[simp] theorem State.p_mon (d : Nat) (f : Fld) (v : Nat) : (s.p d f v).mon = s.mon := by simp only [State.p, State.setCell_mon]
@[simp] theorem State.setMbox_mon (d : Nat) (c : MboxSt) : (s.setMbox d c).mon = s.mon := by simp only [State.setMbox]
@[simp] theorem State.setTrainCopy_mon (ch : Nat) (x : Bool) : (s.setTrainCopy ch x).mon = s.mon := by simp only [State.setTrainCopy]
@[simp] theorem State.setHeld_mon (d : Nat) (x : List (Nat × Word)) : (s.setHeld d x).mon = s.mon := by simp only [State.setHeld]
@[simp] theorem State.setChain_mon (d k : Nat) (x : ChainSt) : (s.setChain d k x).mon = s.mon := by simp only [State.setChain]
@[simp] theorem State.setKslot_mon (d k : Nat) (x : Kslot) : (s.setKslot d k x).mon = s.mon := by simp only [State.setKslot, State.p_mon]
@[simp] theorem State.setPmWord_mon (d i n : Nat) (x : BitVec 39) : (s.setPmWord d i n x).mon = s.mon := by simp only [State.setPmWord]
@[simp] theorem State.setWindow_mon (t i : Nat) (x : Bool) : (s.setWindow t i x).mon = s.mon :=
  by simp only [State.setWindow, State.setPen]
@[simp] theorem State.setRingAck_mon (d r : Nat) (x : Option Resp) : (s.setRingAck d r x).mon = s.mon :=
  by simp only [State.setRingAck, State.setPen]
@[simp] theorem State.setSec_mon (x : SecSt) : (s.setSec x).mon = s.mon := by simp only [State.setSec]
@[simp] theorem State.setTestLeft_mon (d n : Nat) : (s.setTestLeft d n).mon = s.mon := by simp only [State.setTestLeft]
@[simp] theorem State.clrBit_mon (d : Nat) (f : Fld) (n : Nat) : (s.clrBit d f n).mon = s.mon := by simp only [State.clrBit, State.p_mon]
@[simp] theorem State.setBankWord_mon (B w : Nat) (x : BWord) : (s.setBankWord B w x).mon = s.mon := by simp only [State.setBankWord]
@[simp] theorem State.setSig_mon (d fa : Nat) (v : Word) : (s.setSig d fa v).mon = s.mon := by simp only [State.setSig]
@[simp] theorem State.setDesign_mon (d : Nat) (x : DieDesign) : (s.setDesign d x).mon = s.mon := by simp only [State.setDesign]
@[simp] theorem State.setArith_mon (d k : Nat) (x : Arith) : (s.setArith d k x).mon = s.mon := by simp only [State.setArith]
@[simp] theorem State.setSeu_mon (d : Nat) (x : List SeuEnt) : (s.setSeu d x).mon = s.mon := by simp only [State.setSeu, State.p_mon]
@[simp] theorem State.setQclk_mon (d q hz : Nat) : (s.setQclk d q hz).mon = s.mon := by simp only [State.setQclk]
@[simp] theorem State.setPaused_mon (d e q : Nat) (x : Bool) : (s.setPaused d e q x).mon = s.mon :=
  by simp only [State.setPaused, State.setPen]
@[simp] theorem State.setCopy_mon (q line : Nat) (x : Option CLine) : (s.setCopy q line x).mon = s.mon := by simp only [State.setCopy]
@[simp] theorem State.setLinkTx_mon (d e m : Nat) (x : LinkTx) : (s.setLinkTx d e m x).mon = s.mon := by simp only [State.setLinkTx]
@[simp] theorem State.setCore_mon (d c v : Nat) : (s.setCore d c v).mon = s.mon := by simp only [State.setCore, State.p_mon]
@[simp] theorem State.setLad_mon (d : Nat) (c : LadSt) : (s.setLad d c).mon = s.mon := by simp only [State.setLad]
@[simp] theorem State.setDsub_mon (k : Nat) (x : DSub) : (s.setDsub k x).mon = s.mon := by simp only [State.setDsub]
@[simp] theorem State.setWarm_mon (d : Nat) (x : WarmSt) : (s.setWarm d x).mon = s.mon := by simp only [State.setWarm]
@[simp] theorem State.setLut_mon (d k : Nat) (v : DWord) : (s.setLut d k v).mon = s.mon := by simp only [State.setLut]
@[simp] theorem State.setFifo_mon (d n : Nat) (x : Pfifo) : (s.setFifo d n x).mon = s.mon := by simp only [State.setFifo, State.p_mon]
@[simp] theorem State.setDmWord_mon (d i w : Nat) (x : BWord) : (s.setDmWord d i w x).mon = s.mon := by simp only [State.setDmWord]
@[simp] theorem State.setL2_mon (t i : Nat) (x : Option L2Ent) : (s.setL2 t i x).mon = s.mon := by simp only [State.setL2, State.setPen]
@[simp] theorem State.setHello_mon (d p : Nat) (x : HelloSt) : (s.setHello d p x).mon = s.mon :=
  by simp only [State.setHello, State.setPen]
@[simp] theorem State.setHart_mon (k : Nat) (x : HartSt) : (s.setHart k x).mon = s.mon := by simp only [State.setHart]
@[simp] theorem State.setRawRx_mon (d : Nat) (l : List (List Byte)) : (s.setRawRx d l).mon = s.mon := by simp only [State.setRawRx]
@[simp] theorem State.setBit_mon (d : Nat) (f : Fld) (n : Nat) : (s.setBit d f n).mon = s.mon := by simp only [State.setBit, State.p_mon]
@[simp] theorem State.setEv_mon (r n : Nat) (c : EvSrc) : (s.setEv r n c).mon = s.mon := by simp only [State.setEv]
@[simp] theorem State.setFrameWord_mon (d fa w : Nat) (v : DWord) : (s.setFrameWord d fa w v).mon = s.mon :=
  by simp only [State.setFrameWord]
@[simp] theorem State.setFlash_mon (f : FlashSt) : (s.setFlash f).mon = s.mon := by simp only [State.setFlash]
@[simp] theorem State.setBmem_mon (d k : Nat) (x : Bmem) : (s.setBmem d k x).mon = s.mon := by simp only [State.setBmem]
@[simp] theorem State.setPr_mon (d r : Nat) (x : PrSt) : (s.setPr d r x).mon = s.mon := by simp only [State.setPr]
@[simp] theorem State.setPair_mon (d k : Nat) (x : PairSt) : (s.setPair d k x).mon = s.mon := by simp only [State.setPair]
@[simp] theorem State.setNhop_mon (d i : Nat) (x : Word) : (s.setNhop d i x).mon = s.mon := by simp only [State.setNhop, State.setPen]
@[simp] theorem State.setYout_mon (d : Nat) (x : List Frame) : (s.setYout d x).mon = s.mon := by simp only [State.setYout, State.setPen]
@[simp] theorem State.setXing_mon (k : Nat) (v : XingSt) : (s.setXing k v).mon = s.mon := by simp only [State.setXing]
@[simp] theorem State.setSeState_mon (d i v : Nat) : (s.setSeState d i v).mon = s.mon := by simp only [State.setSeState, State.p_mon]
@[simp] theorem State.setSnt_mon (d : Nat) (c : SntSt) : (s.setSnt d c).mon = s.mon := by simp only [State.setSnt]
@[simp] theorem State.setDcell_mon (ch w : Nat) (x : DCell) : (s.setDcell ch w x).mon = s.mon := by simp only [State.setDcell]
@[simp] theorem State.setCfg_mon (c : CfgSt) : (s.setCfg c).mon = s.mon := by simp only [State.setCfg]
@[simp] theorem State.setFf_mon (d k : Nat) (v : Bool) : (s.setFf d k v).mon = s.mon := by simp only [State.setFf]
@[simp] theorem State.setRb_mon (d : Nat) (x : Option RbSt) : (s.setRb d x).mon = s.mon := by simp only [State.setRb]
@[simp] theorem State.setSeLate_mon (d i : Nat) (l : List SeLate) : (s.setSeLate d i l).mon = s.mon := by simp only [State.setSeLate]
@[simp] theorem State.setPenDie_mon (d : Nat) (x : PenDie) : (s.setPenDie d x).mon = s.mon :=
  by simp only [State.setPenDie, State.setPen, State.p_mon]
@[simp] theorem State.setDrr_mon (d e : Nat) (x : DrrSt) : (s.setDrr d e x).mon = s.mon := by simp only [State.setDrr, State.setPen]
@[simp] theorem State.setNet_mon (rid tag : Nat) (x : Option NetReq) : (s.setNet rid tag x).mon = s.mon := by simp only [State.setNet]
@[simp] theorem State.setCapsIn_mon (d e : Nat) (x : CapsIn) : (s.setCapsIn d e x).mon = s.mon := by simp only [State.setCapsIn]
@[simp] theorem State.setCk_mon (d i : Nat) (c : CkMux2) : (s.setCk d i c).mon = s.mon := by simp only [State.setCk]
@[simp] theorem State.setMee_mon (ch : Nat) (x : MeeSt) : (s.setMee ch x).mon = s.mon := by simp only [State.setMee]
@[simp] theorem State.setParse_mon (p : ParseSt) : (s.setParse p).mon = s.mon := by simp only [State.setParse]
@[simp] theorem State.setIo_mon (d p : Nat) (x : IoCell) : (s.setIo d p x).mon = s.mon := by simp only [State.setIo]
@[simp] theorem State.setNport_mon (d p : Nat) (x : Nport) : (s.setNport d p x).mon = s.mon := by simp only [State.setNport]
@[simp] theorem State.setLane_mon (d n : Nat) (x : LaneSt) : (s.setLane d n x).mon = s.mon := by simp only [State.setLane]
@[simp] theorem State.setVlanWord_mon (d v w : Nat) (x : Word) : (s.setVlanWord d v w x).mon = s.mon :=
  by simp only [State.setVlanWord, State.setPen]
@[simp] theorem State.setAir_mon (d e : Nat) (x : List TrunkFrame) : (s.setAir d e x).mon = s.mon :=
  by simp only [State.setAir, State.setPen]
@[simp] theorem State.setFuses_mon (x : Fuses) : (s.setFuses x).mon = s.mon := by simp only [State.setFuses]
@[simp] theorem State.setEdge_mon (d e v : Nat) : (s.setEdge d e v).mon = s.mon := by simp only [State.setEdge, State.p_mon]
@[simp] theorem State.setClk_mon (d : Nat) (c : ClkSt) : (s.setClk d c).mon = s.mon := by simp only [State.setClk]
@[simp] theorem State.setBankSt_mon (B : Nat) (x : BankSt) : (s.setBankSt B x).mon = s.mon := by simp only [State.setBankSt]
@[simp] theorem State.setDynMark_mon (d fa : Nat) (v : Bool) : (s.setDynMark d fa v).mon = s.mon := by simp only [State.setDynMark]
@[simp] theorem State.setPins_mon (d : Nat) (x : PinMode) : (s.setPins d x).mon = s.mon := by simp only [State.setPins]
@[simp] theorem State.setSnap_mon (d : Nat) (x : Snap) : (s.setSnap d x).mon = s.mon := by simp only [State.setSnap]
@[simp] theorem State.setEng_mon (d i : Nat) (e : SEng) : (s.setEng d i e).mon = s.mon := by simp only [State.setEng, State.p_mon]
@[simp] theorem State.setPen_mon (x : PenSt) : (s.setPen x).mon = s.mon := by simp only [State.setPen]
@[simp] theorem State.setDeficit_mon (d e q x : Nat) : (s.setDeficit d e q x).mon = s.mon := by simp only [State.setDeficit, State.setPen]
@[simp] theorem State.setDir_mon (line : Nat) (x : Option DirEnt) : (s.setDir line x).mon = s.mon := by simp only [State.setDir]
@[simp] theorem State.setLinkRx_mon (d e m : Nat) (x : LinkRx) : (s.setLinkRx d e m x).mon = s.mon := by simp only [State.setLinkRx]

/-! ## The updates that leave `cfg` alone -/

@[simp] theorem State.setCell_cfg (k : Nat) (v : DWord) : (s.setCell k v).cfg = s.cfg := by simp only [State.setCell]
@[simp] theorem State.p_cfg (d : Nat) (f : Fld) (v : Nat) : (s.p d f v).cfg = s.cfg := by simp only [State.p, State.setCell_cfg]
@[simp] theorem State.setMbox_cfg (d : Nat) (c : MboxSt) : (s.setMbox d c).cfg = s.cfg := by simp only [State.setMbox]
@[simp] theorem State.setDsub_cfg (k : Nat) (x : DSub) : (s.setDsub k x).cfg = s.cfg := by simp only [State.setDsub]
@[simp] theorem State.setChain_cfg (d k : Nat) (x : ChainSt) : (s.setChain d k x).cfg = s.cfg := by simp only [State.setChain]
@[simp] theorem State.setKslot_cfg (d k : Nat) (x : Kslot) : (s.setKslot d k x).cfg = s.cfg := by simp only [State.setKslot, State.p_cfg]
@[simp] theorem State.setPmWord_cfg (d i n : Nat) (x : BitVec 39) : (s.setPmWord d i n x).cfg = s.cfg := by simp only [State.setPmWord]
@[simp] theorem State.setWindow_cfg (t i : Nat) (x : Bool) : (s.setWindow t i x).cfg = s.cfg :=
  by simp only [State.setWindow, State.setPen]
@[simp] theorem State.setRingAck_cfg (d r : Nat) (x : Option Resp) : (s.setRingAck d r x).cfg = s.cfg :=
  by simp only [State.setRingAck, State.setPen]
@[simp] theorem State.setSec_cfg (x : SecSt) : (s.setSec x).cfg = s.cfg := by simp only [State.setSec]
@[simp] theorem State.setTestLeft_cfg (d n : Nat) : (s.setTestLeft d n).cfg = s.cfg := by simp only [State.setTestLeft]
@[simp] theorem State.clrBit_cfg (d : Nat) (f : Fld) (n : Nat) : (s.clrBit d f n).cfg = s.cfg := by simp only [State.clrBit, State.p_cfg]
@[simp] theorem State.setEv_cfg (r n : Nat) (c : EvSrc) : (s.setEv r n c).cfg = s.cfg := by simp only [State.setEv]
@[simp] theorem State.setDesign_cfg (d : Nat) (x : DieDesign) : (s.setDesign d x).cfg = s.cfg := by simp only [State.setDesign]
@[simp] theorem State.setArith_cfg (d k : Nat) (x : Arith) : (s.setArith d k x).cfg = s.cfg := by simp only [State.setArith]
@[simp] theorem State.setSeu_cfg (d : Nat) (x : List SeuEnt) : (s.setSeu d x).cfg = s.cfg := by simp only [State.setSeu, State.p_cfg]
@[simp] theorem State.setQclk_cfg (d q hz : Nat) : (s.setQclk d q hz).cfg = s.cfg := by simp only [State.setQclk]
@[simp] theorem State.setPaused_cfg (d e q : Nat) (x : Bool) : (s.setPaused d e q x).cfg = s.cfg :=
  by simp only [State.setPaused, State.setPen]
@[simp] theorem State.setCopy_cfg (q line : Nat) (x : Option CLine) : (s.setCopy q line x).cfg = s.cfg := by simp only [State.setCopy]
@[simp] theorem State.setLinkTx_cfg (d e m : Nat) (x : LinkTx) : (s.setLinkTx d e m x).cfg = s.cfg := by simp only [State.setLinkTx]
@[simp] theorem State.setCore_cfg (d c v : Nat) : (s.setCore d c v).cfg = s.cfg := by simp only [State.setCore, State.p_cfg]
@[simp] theorem State.setLad_cfg (d : Nat) (c : LadSt) : (s.setLad d c).cfg = s.cfg := by simp only [State.setLad]
@[simp] theorem State.setDcell_cfg (ch w : Nat) (x : DCell) : (s.setDcell ch w x).cfg = s.cfg := by simp only [State.setDcell]
@[simp] theorem State.setLut_cfg (d k : Nat) (v : DWord) : (s.setLut d k v).cfg = s.cfg := by simp only [State.setLut]
@[simp] theorem State.setFifo_cfg (d n : Nat) (x : Pfifo) : (s.setFifo d n x).cfg = s.cfg := by simp only [State.setFifo, State.p_cfg]
@[simp] theorem State.setDmWord_cfg (d i w : Nat) (x : BWord) : (s.setDmWord d i w x).cfg = s.cfg := by simp only [State.setDmWord]
@[simp] theorem State.setL2_cfg (t i : Nat) (x : Option L2Ent) : (s.setL2 t i x).cfg = s.cfg := by simp only [State.setL2, State.setPen]
@[simp] theorem State.setHello_cfg (d p : Nat) (x : HelloSt) : (s.setHello d p x).cfg = s.cfg :=
  by simp only [State.setHello, State.setPen]
@[simp] theorem State.setHart_cfg (k : Nat) (x : HartSt) : (s.setHart k x).cfg = s.cfg := by simp only [State.setHart]
@[simp] theorem State.setRawRx_cfg (d : Nat) (l : List (List Byte)) : (s.setRawRx d l).cfg = s.cfg := by simp only [State.setRawRx]
@[simp] theorem State.setBit_cfg (d : Nat) (f : Fld) (n : Nat) : (s.setBit d f n).cfg = s.cfg := by simp only [State.setBit, State.p_cfg]
@[simp] theorem State.setMon_cfg (d m : Nat) (c : MonWin) : (s.setMon d m c).cfg = s.cfg := by simp only [State.setMon]
@[simp] theorem State.setMee_cfg (ch : Nat) (x : MeeSt) : (s.setMee ch x).cfg = s.cfg := by simp only [State.setMee]
@[simp] theorem State.setBmem_cfg (d k : Nat) (x : Bmem) : (s.setBmem d k x).cfg = s.cfg := by simp only [State.setBmem]
@[simp] theorem State.setPr_cfg (d r : Nat) (x : PrSt) : (s.setPr d r x).cfg = s.cfg := by simp only [State.setPr]
@[simp] theorem State.setPair_cfg (d k : Nat) (x : PairSt) : (s.setPair d k x).cfg = s.cfg := by simp only [State.setPair]
@[simp] theorem State.setNhop_cfg (d i : Nat) (x : Word) : (s.setNhop d i x).cfg = s.cfg := by simp only [State.setNhop, State.setPen]
@[simp] theorem State.setYout_cfg (d : Nat) (x : List Frame) : (s.setYout d x).cfg = s.cfg := by simp only [State.setYout, State.setPen]
@[simp] theorem State.setXing_cfg (k : Nat) (v : XingSt) : (s.setXing k v).cfg = s.cfg := by simp only [State.setXing]
@[simp] theorem State.setSeState_cfg (d i v : Nat) : (s.setSeState d i v).cfg = s.cfg := by simp only [State.setSeState, State.p_cfg]
@[simp] theorem State.setSnt_cfg (d : Nat) (c : SntSt) : (s.setSnt d c).cfg = s.cfg := by simp only [State.setSnt]
@[simp] theorem State.setBankSt_cfg (B : Nat) (x : BankSt) : (s.setBankSt B x).cfg = s.cfg := by simp only [State.setBankSt]
@[simp] theorem State.setFf_cfg (d k : Nat) (v : Bool) : (s.setFf d k v).cfg = s.cfg := by simp only [State.setFf]
@[simp] theorem State.setRb_cfg (d : Nat) (x : Option RbSt) : (s.setRb d x).cfg = s.cfg := by simp only [State.setRb]
@[simp] theorem State.setSeLate_cfg (d i : Nat) (l : List SeLate) : (s.setSeLate d i l).cfg = s.cfg := by simp only [State.setSeLate]
@[simp] theorem State.setPenDie_cfg (d : Nat) (x : PenDie) : (s.setPenDie d x).cfg = s.cfg :=
  by simp only [State.setPenDie, State.setPen, State.p_cfg]
@[simp] theorem State.setDrr_cfg (d e : Nat) (x : DrrSt) : (s.setDrr d e x).cfg = s.cfg := by simp only [State.setDrr, State.setPen]
@[simp] theorem State.setNet_cfg (rid tag : Nat) (x : Option NetReq) : (s.setNet rid tag x).cfg = s.cfg := by simp only [State.setNet]
@[simp] theorem State.setCapsIn_cfg (d e : Nat) (x : CapsIn) : (s.setCapsIn d e x).cfg = s.cfg := by simp only [State.setCapsIn]
@[simp] theorem State.setCk_cfg (d i : Nat) (c : CkMux2) : (s.setCk d i c).cfg = s.cfg := by simp only [State.setCk]
@[simp] theorem State.setTrainCopy_cfg (ch : Nat) (x : Bool) : (s.setTrainCopy ch x).cfg = s.cfg := by simp only [State.setTrainCopy]
@[simp] theorem State.setIo_cfg (d p : Nat) (x : IoCell) : (s.setIo d p x).cfg = s.cfg := by simp only [State.setIo]
@[simp] theorem State.setNport_cfg (d p : Nat) (x : Nport) : (s.setNport d p x).cfg = s.cfg := by simp only [State.setNport]
@[simp] theorem State.setLane_cfg (d n : Nat) (x : LaneSt) : (s.setLane d n x).cfg = s.cfg := by simp only [State.setLane]
@[simp] theorem State.setVlanWord_cfg (d v w : Nat) (x : Word) : (s.setVlanWord d v w x).cfg = s.cfg :=
  by simp only [State.setVlanWord, State.setPen]
@[simp] theorem State.setAir_cfg (d e : Nat) (x : List TrunkFrame) : (s.setAir d e x).cfg = s.cfg :=
  by simp only [State.setAir, State.setPen]
@[simp] theorem State.setFuses_cfg (x : Fuses) : (s.setFuses x).cfg = s.cfg := by simp only [State.setFuses]
@[simp] theorem State.setEdge_cfg (d e v : Nat) : (s.setEdge d e v).cfg = s.cfg := by simp only [State.setEdge, State.p_cfg]
@[simp] theorem State.setClk_cfg (d : Nat) (c : ClkSt) : (s.setClk d c).cfg = s.cfg := by simp only [State.setClk]
@[simp] theorem State.setBankWord_cfg (B w : Nat) (x : BWord) : (s.setBankWord B w x).cfg = s.cfg := by simp only [State.setBankWord]
@[simp] theorem State.setPins_cfg (d : Nat) (x : PinMode) : (s.setPins d x).cfg = s.cfg := by simp only [State.setPins]
@[simp] theorem State.setSnap_cfg (d : Nat) (x : Snap) : (s.setSnap d x).cfg = s.cfg := by simp only [State.setSnap]
@[simp] theorem State.setEng_cfg (d i : Nat) (e : SEng) : (s.setEng d i e).cfg = s.cfg := by simp only [State.setEng, State.p_cfg]
@[simp] theorem State.setPen_cfg (x : PenSt) : (s.setPen x).cfg = s.cfg := by simp only [State.setPen]
@[simp] theorem State.setDeficit_cfg (d e q x : Nat) : (s.setDeficit d e q x).cfg = s.cfg := by simp only [State.setDeficit, State.setPen]
@[simp] theorem State.setDir_cfg (line : Nat) (x : Option DirEnt) : (s.setDir line x).cfg = s.cfg := by simp only [State.setDir]
@[simp] theorem State.setLinkRx_cfg (d e m : Nat) (x : LinkRx) : (s.setLinkRx d e m x).cfg = s.cfg := by simp only [State.setLinkRx]

/-! ## The updates that leave `fab` alone -/

@[simp] theorem State.setCell_fab (k : Nat) (v : DWord) : (s.setCell k v).fab = s.fab := by simp only [State.setCell]
@[simp] theorem State.p_fab (d : Nat) (f : Fld) (v : Nat) : (s.p d f v).fab = s.fab := by simp only [State.p, State.setCell_fab]
@[simp] theorem State.setMbox_fab (d : Nat) (c : MboxSt) : (s.setMbox d c).fab = s.fab := by simp only [State.setMbox]
@[simp] theorem State.setDsub_fab (k : Nat) (x : DSub) : (s.setDsub k x).fab = s.fab := by simp only [State.setDsub]
@[simp] theorem State.setWarm_fab (d : Nat) (x : WarmSt) : (s.setWarm d x).fab = s.fab := by simp only [State.setWarm]
@[simp] theorem State.setPmWord_fab (d i n : Nat) (x : BitVec 39) : (s.setPmWord d i n x).fab = s.fab := by simp only [State.setPmWord]
@[simp] theorem State.setWindow_fab (t i : Nat) (x : Bool) : (s.setWindow t i x).fab = s.fab :=
  by simp only [State.setWindow, State.setPen]
@[simp] theorem State.setRingAck_fab (d r : Nat) (x : Option Resp) : (s.setRingAck d r x).fab = s.fab :=
  by simp only [State.setRingAck, State.setPen]
@[simp] theorem State.setSec_fab (x : SecSt) : (s.setSec x).fab = s.fab := by simp only [State.setSec]
@[simp] theorem State.setEdge_fab (d e v : Nat) : (s.setEdge d e v).fab = s.fab := by simp only [State.setEdge, State.p_fab]
@[simp] theorem State.setClk_fab (d : Nat) (c : ClkSt) : (s.setClk d c).fab = s.fab := by simp only [State.setClk]
@[simp] theorem State.setBankWord_fab (B w : Nat) (x : BWord) : (s.setBankWord B w x).fab = s.fab := by simp only [State.setBankWord]
@[simp] theorem State.setSig_fab (d fa : Nat) (v : Word) : (s.setSig d fa v).fab = s.fab := by simp only [State.setSig]
@[simp] theorem State.setEng_fab (d i : Nat) (e : SEng) : (s.setEng d i e).fab = s.fab := by simp only [State.setEng, State.p_fab]
@[simp] theorem State.setPen_fab (x : PenSt) : (s.setPen x).fab = s.fab := by simp only [State.setPen]
@[simp] theorem State.setDeficit_fab (d e q x : Nat) : (s.setDeficit d e q x).fab = s.fab := by simp only [State.setDeficit, State.setPen]
@[simp] theorem State.setDir_fab (line : Nat) (x : Option DirEnt) : (s.setDir line x).fab = s.fab := by simp only [State.setDir]
@[simp] theorem State.setCapsIn_fab (d e : Nat) (x : CapsIn) : (s.setCapsIn d e x).fab = s.fab := by simp only [State.setCapsIn]
@[simp] theorem State.setCk_fab (d i : Nat) (c : CkMux2) : (s.setCk d i c).fab = s.fab := by simp only [State.setCk]
@[simp] theorem State.setTrainCopy_fab (ch : Nat) (x : Bool) : (s.setTrainCopy ch x).fab = s.fab := by simp only [State.setTrainCopy]
@[simp] theorem State.setHeld_fab (d : Nat) (x : List (Nat × Word)) : (s.setHeld d x).fab = s.fab := by simp only [State.setHeld]
@[simp] theorem State.setLane_fab (d n : Nat) (x : LaneSt) : (s.setLane d n x).fab = s.fab := by simp only [State.setLane]
@[simp] theorem State.setVlanWord_fab (d v w : Nat) (x : Word) : (s.setVlanWord d v w x).fab = s.fab :=
  by simp only [State.setVlanWord, State.setPen]
@[simp] theorem State.setAir_fab (d e : Nat) (x : List TrunkFrame) : (s.setAir d e x).fab = s.fab :=
  by simp only [State.setAir, State.setPen]
@[simp] theorem State.setFuses_fab (x : Fuses) : (s.setFuses x).fab = s.fab := by simp only [State.setFuses]
@[simp] theorem State.setSeState_fab (d i v : Nat) : (s.setSeState d i v).fab = s.fab := by simp only [State.setSeState, State.p_fab]
@[simp] theorem State.setSnt_fab (d : Nat) (c : SntSt) : (s.setSnt d c).fab = s.fab := by simp only [State.setSnt]
@[simp] theorem State.setBankSt_fab (B : Nat) (x : BankSt) : (s.setBankSt B x).fab = s.fab := by simp only [State.setBankSt]
@[simp] theorem State.setDynMark_fab (d fa : Nat) (v : Bool) : (s.setDynMark d fa v).fab = s.fab := by simp only [State.setDynMark]
@[simp] theorem State.setSeLate_fab (d i : Nat) (l : List SeLate) : (s.setSeLate d i l).fab = s.fab := by simp only [State.setSeLate]
@[simp] theorem State.setPenDie_fab (d : Nat) (x : PenDie) : (s.setPenDie d x).fab = s.fab :=
  by simp only [State.setPenDie, State.setPen, State.p_fab]
@[simp] theorem State.setDrr_fab (d e : Nat) (x : DrrSt) : (s.setDrr d e x).fab = s.fab := by simp only [State.setDrr, State.setPen]
@[simp] theorem State.setNet_fab (rid tag : Nat) (x : Option NetReq) : (s.setNet rid tag x).fab = s.fab := by simp only [State.setNet]
@[simp] theorem State.setRawRx_fab (d : Nat) (l : List (List Byte)) : (s.setRawRx d l).fab = s.fab := by simp only [State.setRawRx]
@[simp] theorem State.setBit_fab (d : Nat) (f : Fld) (n : Nat) : (s.setBit d f n).fab = s.fab := by simp only [State.setBit, State.p_fab]
@[simp] theorem State.setMon_fab (d m : Nat) (c : MonWin) : (s.setMon d m c).fab = s.fab := by simp only [State.setMon]
@[simp] theorem State.setMee_fab (ch : Nat) (x : MeeSt) : (s.setMee ch x).fab = s.fab := by simp only [State.setMee]
@[simp] theorem State.setParse_fab (p : ParseSt) : (s.setParse p).fab = s.fab := by simp only [State.setParse]
@[simp] theorem State.setPair_fab (d k : Nat) (x : PairSt) : (s.setPair d k x).fab = s.fab := by simp only [State.setPair]
@[simp] theorem State.setNhop_fab (d i : Nat) (x : Word) : (s.setNhop d i x).fab = s.fab := by simp only [State.setNhop, State.setPen]
@[simp] theorem State.setYout_fab (d : Nat) (x : List Frame) : (s.setYout d x).fab = s.fab := by simp only [State.setYout, State.setPen]
@[simp] theorem State.setLinkTx_fab (d e m : Nat) (x : LinkTx) : (s.setLinkTx d e m x).fab = s.fab := by simp only [State.setLinkTx]
@[simp] theorem State.setCore_fab (d c v : Nat) : (s.setCore d c v).fab = s.fab := by simp only [State.setCore, State.p_fab]
@[simp] theorem State.setLad_fab (d : Nat) (c : LadSt) : (s.setLad d c).fab = s.fab := by simp only [State.setLad]
@[simp] theorem State.setDcell_fab (ch w : Nat) (x : DCell) : (s.setDcell ch w x).fab = s.fab := by simp only [State.setDcell]
@[simp] theorem State.setCfg_fab (c : CfgSt) : (s.setCfg c).fab = s.fab := by simp only [State.setCfg]
@[simp] theorem State.setDmWord_fab (d i w : Nat) (x : BWord) : (s.setDmWord d i w x).fab = s.fab := by simp only [State.setDmWord]
@[simp] theorem State.setL2_fab (t i : Nat) (x : Option L2Ent) : (s.setL2 t i x).fab = s.fab := by simp only [State.setL2, State.setPen]
@[simp] theorem State.setHello_fab (d p : Nat) (x : HelloSt) : (s.setHello d p x).fab = s.fab :=
  by simp only [State.setHello, State.setPen]
@[simp] theorem State.setHart_fab (k : Nat) (x : HartSt) : (s.setHart k x).fab = s.fab := by simp only [State.setHart]
@[simp] theorem State.setTestLeft_fab (d n : Nat) : (s.setTestLeft d n).fab = s.fab := by simp only [State.setTestLeft]
@[simp] theorem State.clrBit_fab (d : Nat) (f : Fld) (n : Nat) : (s.clrBit d f n).fab = s.fab := by simp only [State.clrBit, State.p_fab]
@[simp] theorem State.setEv_fab (r n : Nat) (c : EvSrc) : (s.setEv r n c).fab = s.fab := by simp only [State.setEv]
@[simp] theorem State.setFrameWord_fab (d fa w : Nat) (v : DWord) : (s.setFrameWord d fa w v).fab = s.fab :=
  by simp only [State.setFrameWord]
@[simp] theorem State.setFlash_fab (f : FlashSt) : (s.setFlash f).fab = s.fab := by simp only [State.setFlash]
@[simp] theorem State.setQclk_fab (d q hz : Nat) : (s.setQclk d q hz).fab = s.fab := by simp only [State.setQclk]
@[simp] theorem State.setPaused_fab (d e q : Nat) (x : Bool) : (s.setPaused d e q x).fab = s.fab :=
  by simp only [State.setPaused, State.setPen]
@[simp] theorem State.setCopy_fab (q line : Nat) (x : Option CLine) : (s.setCopy q line x).fab = s.fab := by simp only [State.setCopy]
@[simp] theorem State.setLinkRx_fab (d e m : Nat) (x : LinkRx) : (s.setLinkRx d e m x).fab = s.fab := by simp only [State.setLinkRx]

/-! ## The updates that leave `se` alone -/

@[simp] theorem State.setCell_se (k : Nat) (v : DWord) : (s.setCell k v).se = s.se := by simp only [State.setCell]
@[simp] theorem State.p_se (d : Nat) (f : Fld) (v : Nat) : (s.p d f v).se = s.se := by simp only [State.p, State.setCell_se]
@[simp] theorem State.setMbox_se (d : Nat) (c : MboxSt) : (s.setMbox d c).se = s.se := by simp only [State.setMbox]
@[simp] theorem State.setDsub_se (k : Nat) (x : DSub) : (s.setDsub k x).se = s.se := by simp only [State.setDsub]
@[simp] theorem State.setWarm_se (d : Nat) (x : WarmSt) : (s.setWarm d x).se = s.se := by simp only [State.setWarm]
@[simp] theorem State.setLut_se (d k : Nat) (v : DWord) : (s.setLut d k v).se = s.se := by simp only [State.setLut]
@[simp] theorem State.setFifo_se (d n : Nat) (x : Pfifo) : (s.setFifo d n x).se = s.se := by simp only [State.setFifo, State.p_se]
@[simp] theorem State.setQclk_se (d q hz : Nat) : (s.setQclk d q hz).se = s.se := by simp only [State.setQclk]
@[simp] theorem State.setPaused_se (d e q : Nat) (x : Bool) : (s.setPaused d e q x).se = s.se :=
  by simp only [State.setPaused, State.setPen]
@[simp] theorem State.setCopy_se (q line : Nat) (x : Option CLine) : (s.setCopy q line x).se = s.se := by simp only [State.setCopy]
@[simp] theorem State.setLinkTx_se (d e m : Nat) (x : LinkTx) : (s.setLinkTx d e m x).se = s.se := by simp only [State.setLinkTx]
@[simp] theorem State.setCore_se (d c v : Nat) : (s.setCore d c v).se = s.se := by simp only [State.setCore, State.p_se]
@[simp] theorem State.setLad_se (d : Nat) (c : LadSt) : (s.setLad d c).se = s.se := by simp only [State.setLad]
@[simp] theorem State.setDcell_se (ch w : Nat) (x : DCell) : (s.setDcell ch w x).se = s.se := by simp only [State.setDcell]
@[simp] theorem State.setCfg_se (c : CfgSt) : (s.setCfg c).se = s.se := by simp only [State.setCfg]
@[simp] theorem State.setFf_se (d k : Nat) (v : Bool) : (s.setFf d k v).se = s.se := by simp only [State.setFf]
@[simp] theorem State.setRb_se (d : Nat) (x : Option RbSt) : (s.setRb d x).se = s.se := by simp only [State.setRb]
@[simp] theorem State.setPair_se (d k : Nat) (x : PairSt) : (s.setPair d k x).se = s.se := by simp only [State.setPair]
@[simp] theorem State.setNhop_se (d i : Nat) (x : Word) : (s.setNhop d i x).se = s.se := by simp only [State.setNhop, State.setPen]
@[simp] theorem State.setYout_se (d : Nat) (x : List Frame) : (s.setYout d x).se = s.se := by simp only [State.setYout, State.setPen]
@[simp] theorem State.setXing_se (k : Nat) (v : XingSt) : (s.setXing k v).se = s.se := by simp only [State.setXing]
@[simp] theorem State.setSeState_se (d i v : Nat) : (s.setSeState d i v).se = s.se := by simp only [State.setSeState, State.p_se]
@[simp] theorem State.setSnt_se (d : Nat) (c : SntSt) : (s.setSnt d c).se = s.se := by simp only [State.setSnt]
@[simp] theorem State.setBankSt_se (B : Nat) (x : BankSt) : (s.setBankSt B x).se = s.se := by simp only [State.setBankSt]
@[simp] theorem State.setDynMark_se (d fa : Nat) (v : Bool) : (s.setDynMark d fa v).se = s.se := by simp only [State.setDynMark]
@[simp] theorem State.setPins_se (d : Nat) (x : PinMode) : (s.setPins d x).se = s.se := by simp only [State.setPins]
@[simp] theorem State.setSnap_se (d : Nat) (x : Snap) : (s.setSnap d x).se = s.se := by simp only [State.setSnap]
@[simp] theorem State.setLane_se (d n : Nat) (x : LaneSt) : (s.setLane d n x).se = s.se := by simp only [State.setLane]
@[simp] theorem State.setVlanWord_se (d v w : Nat) (x : Word) : (s.setVlanWord d v w x).se = s.se :=
  by simp only [State.setVlanWord, State.setPen]
@[simp] theorem State.setAir_se (d e : Nat) (x : List TrunkFrame) : (s.setAir d e x).se = s.se := by simp only [State.setAir, State.setPen]
@[simp] theorem State.setFuses_se (x : Fuses) : (s.setFuses x).se = s.se := by simp only [State.setFuses]
@[simp] theorem State.setEdge_se (d e v : Nat) : (s.setEdge d e v).se = s.se := by simp only [State.setEdge, State.p_se]
@[simp] theorem State.setClk_se (d : Nat) (c : ClkSt) : (s.setClk d c).se = s.se := by simp only [State.setClk]
@[simp] theorem State.setBankWord_se (B w : Nat) (x : BWord) : (s.setBankWord B w x).se = s.se := by simp only [State.setBankWord]
@[simp] theorem State.setSig_se (d fa : Nat) (v : Word) : (s.setSig d fa v).se = s.se := by simp only [State.setSig]
@[simp] theorem State.setDesign_se (d : Nat) (x : DieDesign) : (s.setDesign d x).se = s.se := by simp only [State.setDesign]
@[simp] theorem State.setArith_se (d k : Nat) (x : Arith) : (s.setArith d k x).se = s.se := by simp only [State.setArith]
@[simp] theorem State.setSeu_se (d : Nat) (x : List SeuEnt) : (s.setSeu d x).se = s.se := by simp only [State.setSeu, State.p_se]
@[simp] theorem State.setWindow_se (t i : Nat) (x : Bool) : (s.setWindow t i x).se = s.se := by simp only [State.setWindow, State.setPen]
@[simp] theorem State.setRingAck_se (d r : Nat) (x : Option Resp) : (s.setRingAck d r x).se = s.se :=
  by simp only [State.setRingAck, State.setPen]
@[simp] theorem State.setSec_se (x : SecSt) : (s.setSec x).se = s.se := by simp only [State.setSec]
@[simp] theorem State.setTestLeft_se (d n : Nat) : (s.setTestLeft d n).se = s.se := by simp only [State.setTestLeft]
@[simp] theorem State.clrBit_se (d : Nat) (f : Fld) (n : Nat) : (s.clrBit d f n).se = s.se := by simp only [State.clrBit, State.p_se]
@[simp] theorem State.setEv_se (r n : Nat) (c : EvSrc) : (s.setEv r n c).se = s.se := by simp only [State.setEv]
@[simp] theorem State.setFrameWord_se (d fa w : Nat) (v : DWord) : (s.setFrameWord d fa w v).se = s.se := by simp only [State.setFrameWord]
@[simp] theorem State.setFlash_se (f : FlashSt) : (s.setFlash f).se = s.se := by simp only [State.setFlash]
@[simp] theorem State.setBmem_se (d k : Nat) (x : Bmem) : (s.setBmem d k x).se = s.se := by simp only [State.setBmem]
@[simp] theorem State.setPr_se (d r : Nat) (x : PrSt) : (s.setPr d r x).se = s.se := by simp only [State.setPr]
@[simp] theorem State.setL2_se (t i : Nat) (x : Option L2Ent) : (s.setL2 t i x).se = s.se := by simp only [State.setL2, State.setPen]
@[simp] theorem State.setHello_se (d p : Nat) (x : HelloSt) : (s.setHello d p x).se = s.se := by simp only [State.setHello, State.setPen]
@[simp] theorem State.setHart_se (k : Nat) (x : HartSt) : (s.setHart k x).se = s.se := by simp only [State.setHart]
@[simp] theorem State.setRawRx_se (d : Nat) (l : List (List Byte)) : (s.setRawRx d l).se = s.se := by simp only [State.setRawRx]
@[simp] theorem State.setBit_se (d : Nat) (f : Fld) (n : Nat) : (s.setBit d f n).se = s.se := by simp only [State.setBit, State.p_se]
@[simp] theorem State.setMon_se (d m : Nat) (c : MonWin) : (s.setMon d m c).se = s.se := by simp only [State.setMon]
@[simp] theorem State.setMee_se (ch : Nat) (x : MeeSt) : (s.setMee ch x).se = s.se := by simp only [State.setMee]
@[simp] theorem State.setParse_se (p : ParseSt) : (s.setParse p).se = s.se := by simp only [State.setParse]
@[simp] theorem State.setIo_se (d p : Nat) (x : IoCell) : (s.setIo d p x).se = s.se := by simp only [State.setIo]
@[simp] theorem State.setNport_se (d p : Nat) (x : Nport) : (s.setNport d p x).se = s.se := by simp only [State.setNport]
@[simp] theorem State.setPenDie_se (d : Nat) (x : PenDie) : (s.setPenDie d x).se = s.se :=
  by simp only [State.setPenDie, State.setPen, State.p_se]
@[simp] theorem State.setDrr_se (d e : Nat) (x : DrrSt) : (s.setDrr d e x).se = s.se := by simp only [State.setDrr, State.setPen]
@[simp] theorem State.setNet_se (rid tag : Nat) (x : Option NetReq) : (s.setNet rid tag x).se = s.se := by simp only [State.setNet]
@[simp] theorem State.setCapsIn_se (d e : Nat) (x : CapsIn) : (s.setCapsIn d e x).se = s.se := by simp only [State.setCapsIn]
@[simp] theorem State.setCk_se (d i : Nat) (c : CkMux2) : (s.setCk d i c).se = s.se := by simp only [State.setCk]
@[simp] theorem State.setTrainCopy_se (ch : Nat) (x : Bool) : (s.setTrainCopy ch x).se = s.se := by simp only [State.setTrainCopy]
@[simp] theorem State.setHeld_se (d : Nat) (x : List (Nat × Word)) : (s.setHeld d x).se = s.se := by simp only [State.setHeld]
@[simp] theorem State.setChain_se (d k : Nat) (x : ChainSt) : (s.setChain d k x).se = s.se := by simp only [State.setChain]
@[simp] theorem State.setKslot_se (d k : Nat) (x : Kslot) : (s.setKslot d k x).se = s.se := by simp only [State.setKslot, State.p_se]
@[simp] theorem State.setPen_se (x : PenSt) : (s.setPen x).se = s.se := by simp only [State.setPen]
@[simp] theorem State.setDeficit_se (d e q x : Nat) : (s.setDeficit d e q x).se = s.se := by simp only [State.setDeficit, State.setPen]
@[simp] theorem State.setDir_se (line : Nat) (x : Option DirEnt) : (s.setDir line x).se = s.se := by simp only [State.setDir]
@[simp] theorem State.setLinkRx_se (d e m : Nat) (x : LinkRx) : (s.setLinkRx d e m x).se = s.se := by simp only [State.setLinkRx]

/-! ## The updates that leave `dfd` alone -/

@[simp] theorem State.setCell_dfd (k : Nat) (v : DWord) : (s.setCell k v).dfd = s.dfd := by simp only [State.setCell]
@[simp] theorem State.p_dfd (d : Nat) (f : Fld) (v : Nat) : (s.p d f v).dfd = s.dfd := by simp only [State.p, State.setCell_dfd]
@[simp] theorem State.setMbox_dfd (d : Nat) (c : MboxSt) : (s.setMbox d c).dfd = s.dfd := by simp only [State.setMbox]
@[simp] theorem State.setDsub_dfd (k : Nat) (x : DSub) : (s.setDsub k x).dfd = s.dfd := by simp only [State.setDsub]
@[simp] theorem State.setWarm_dfd (d : Nat) (x : WarmSt) : (s.setWarm d x).dfd = s.dfd := by simp only [State.setWarm]
@[simp] theorem State.setLut_dfd (d k : Nat) (v : DWord) : (s.setLut d k v).dfd = s.dfd := by simp only [State.setLut]
@[simp] theorem State.setFifo_dfd (d n : Nat) (x : Pfifo) : (s.setFifo d n x).dfd = s.dfd := by simp only [State.setFifo, State.p_dfd]
@[simp] theorem State.setDmWord_dfd (d i w : Nat) (x : BWord) : (s.setDmWord d i w x).dfd = s.dfd := by simp only [State.setDmWord]
@[simp] theorem State.setL2_dfd (t i : Nat) (x : Option L2Ent) : (s.setL2 t i x).dfd = s.dfd := by simp only [State.setL2, State.setPen]
@[simp] theorem State.setHello_dfd (d p : Nat) (x : HelloSt) : (s.setHello d p x).dfd = s.dfd :=
  by simp only [State.setHello, State.setPen]
@[simp] theorem State.setHart_dfd (k : Nat) (x : HartSt) : (s.setHart k x).dfd = s.dfd := by simp only [State.setHart]
@[simp] theorem State.setRawRx_dfd (d : Nat) (l : List (List Byte)) : (s.setRawRx d l).dfd = s.dfd := by simp only [State.setRawRx]
@[simp] theorem State.setBit_dfd (d : Nat) (f : Fld) (n : Nat) : (s.setBit d f n).dfd = s.dfd := by simp only [State.setBit, State.p_dfd]
@[simp] theorem State.setMon_dfd (d m : Nat) (c : MonWin) : (s.setMon d m c).dfd = s.dfd := by simp only [State.setMon]
@[simp] theorem State.setMee_dfd (ch : Nat) (x : MeeSt) : (s.setMee ch x).dfd = s.dfd := by simp only [State.setMee]
@[simp] theorem State.setParse_dfd (p : ParseSt) : (s.setParse p).dfd = s.dfd := by simp only [State.setParse]
@[simp] theorem State.setIo_dfd (d p : Nat) (x : IoCell) : (s.setIo d p x).dfd = s.dfd := by simp only [State.setIo]
@[simp] theorem State.setNport_dfd (d p : Nat) (x : Nport) : (s.setNport d p x).dfd = s.dfd := by simp only [State.setNport]
@[simp] theorem State.setLane_dfd (d n : Nat) (x : LaneSt) : (s.setLane d n x).dfd = s.dfd := by simp only [State.setLane]
@[simp] theorem State.setVlanWord_dfd (d v w : Nat) (x : Word) : (s.setVlanWord d v w x).dfd = s.dfd :=
  by simp only [State.setVlanWord, State.setPen]
@[simp] theorem State.setAir_dfd (d e : Nat) (x : List TrunkFrame) : (s.setAir d e x).dfd = s.dfd :=
  by simp only [State.setAir, State.setPen]
@[simp] theorem State.setFuses_dfd (x : Fuses) : (s.setFuses x).dfd = s.dfd := by simp only [State.setFuses]
@[simp] theorem State.setEdge_dfd (d e v : Nat) : (s.setEdge d e v).dfd = s.dfd := by simp only [State.setEdge, State.p_dfd]
@[simp] theorem State.setClk_dfd (d : Nat) (c : ClkSt) : (s.setClk d c).dfd = s.dfd := by simp only [State.setClk]
@[simp] theorem State.setBankWord_dfd (B w : Nat) (x : BWord) : (s.setBankWord B w x).dfd = s.dfd := by simp only [State.setBankWord]
@[simp] theorem State.setSig_dfd (d fa : Nat) (v : Word) : (s.setSig d fa v).dfd = s.dfd := by simp only [State.setSig]
@[simp] theorem State.setDesign_dfd (d : Nat) (x : DieDesign) : (s.setDesign d x).dfd = s.dfd := by simp only [State.setDesign]
@[simp] theorem State.setArith_dfd (d k : Nat) (x : Arith) : (s.setArith d k x).dfd = s.dfd := by simp only [State.setArith]
@[simp] theorem State.setSeu_dfd (d : Nat) (x : List SeuEnt) : (s.setSeu d x).dfd = s.dfd := by simp only [State.setSeu, State.p_dfd]
@[simp] theorem State.setQclk_dfd (d q hz : Nat) : (s.setQclk d q hz).dfd = s.dfd := by simp only [State.setQclk]
@[simp] theorem State.setPaused_dfd (d e q : Nat) (x : Bool) : (s.setPaused d e q x).dfd = s.dfd :=
  by simp only [State.setPaused, State.setPen]
@[simp] theorem State.setCopy_dfd (q line : Nat) (x : Option CLine) : (s.setCopy q line x).dfd = s.dfd := by simp only [State.setCopy]
@[simp] theorem State.setLinkTx_dfd (d e m : Nat) (x : LinkTx) : (s.setLinkTx d e m x).dfd = s.dfd := by simp only [State.setLinkTx]
@[simp] theorem State.setCore_dfd (d c v : Nat) : (s.setCore d c v).dfd = s.dfd := by simp only [State.setCore, State.p_dfd]
@[simp] theorem State.setLad_dfd (d : Nat) (c : LadSt) : (s.setLad d c).dfd = s.dfd := by simp only [State.setLad]
@[simp] theorem State.setDcell_dfd (ch w : Nat) (x : DCell) : (s.setDcell ch w x).dfd = s.dfd := by simp only [State.setDcell]
@[simp] theorem State.setCfg_dfd (c : CfgSt) : (s.setCfg c).dfd = s.dfd := by simp only [State.setCfg]
@[simp] theorem State.setFf_dfd (d k : Nat) (v : Bool) : (s.setFf d k v).dfd = s.dfd := by simp only [State.setFf]
@[simp] theorem State.setRb_dfd (d : Nat) (x : Option RbSt) : (s.setRb d x).dfd = s.dfd := by simp only [State.setRb]
@[simp] theorem State.setSeLate_dfd (d i : Nat) (l : List SeLate) : (s.setSeLate d i l).dfd = s.dfd := by simp only [State.setSeLate]
@[simp] theorem State.setPenDie_dfd (d : Nat) (x : PenDie) : (s.setPenDie d x).dfd = s.dfd :=
  by simp only [State.setPenDie, State.setPen, State.p_dfd]
@[simp] theorem State.setDrr_dfd (d e : Nat) (x : DrrSt) : (s.setDrr d e x).dfd = s.dfd := by simp only [State.setDrr, State.setPen]
@[simp] theorem State.setNet_dfd (rid tag : Nat) (x : Option NetReq) : (s.setNet rid tag x).dfd = s.dfd := by simp only [State.setNet]
@[simp] theorem State.setCapsIn_dfd (d e : Nat) (x : CapsIn) : (s.setCapsIn d e x).dfd = s.dfd := by simp only [State.setCapsIn]
@[simp] theorem State.setCk_dfd (d i : Nat) (c : CkMux2) : (s.setCk d i c).dfd = s.dfd := by simp only [State.setCk]
@[simp] theorem State.setTrainCopy_dfd (ch : Nat) (x : Bool) : (s.setTrainCopy ch x).dfd = s.dfd := by simp only [State.setTrainCopy]
@[simp] theorem State.setHeld_dfd (d : Nat) (x : List (Nat × Word)) : (s.setHeld d x).dfd = s.dfd := by simp only [State.setHeld]
@[simp] theorem State.setChain_dfd (d k : Nat) (x : ChainSt) : (s.setChain d k x).dfd = s.dfd := by simp only [State.setChain]
@[simp] theorem State.setKslot_dfd (d k : Nat) (x : Kslot) : (s.setKslot d k x).dfd = s.dfd := by simp only [State.setKslot, State.p_dfd]
@[simp] theorem State.setPmWord_dfd (d i n : Nat) (x : BitVec 39) : (s.setPmWord d i n x).dfd = s.dfd := by simp only [State.setPmWord]
@[simp] theorem State.setWindow_dfd (t i : Nat) (x : Bool) : (s.setWindow t i x).dfd = s.dfd :=
  by simp only [State.setWindow, State.setPen]
@[simp] theorem State.setRingAck_dfd (d r : Nat) (x : Option Resp) : (s.setRingAck d r x).dfd = s.dfd :=
  by simp only [State.setRingAck, State.setPen]
@[simp] theorem State.setSec_dfd (x : SecSt) : (s.setSec x).dfd = s.dfd := by simp only [State.setSec]
@[simp] theorem State.setTestLeft_dfd (d n : Nat) : (s.setTestLeft d n).dfd = s.dfd := by simp only [State.setTestLeft]
@[simp] theorem State.clrBit_dfd (d : Nat) (f : Fld) (n : Nat) : (s.clrBit d f n).dfd = s.dfd := by simp only [State.clrBit, State.p_dfd]
@[simp] theorem State.setEv_dfd (r n : Nat) (c : EvSrc) : (s.setEv r n c).dfd = s.dfd := by simp only [State.setEv]
@[simp] theorem State.setFrameWord_dfd (d fa w : Nat) (v : DWord) : (s.setFrameWord d fa w v).dfd = s.dfd :=
  by simp only [State.setFrameWord]
@[simp] theorem State.setFlash_dfd (f : FlashSt) : (s.setFlash f).dfd = s.dfd := by simp only [State.setFlash]
@[simp] theorem State.setBmem_dfd (d k : Nat) (x : Bmem) : (s.setBmem d k x).dfd = s.dfd := by simp only [State.setBmem]
@[simp] theorem State.setPr_dfd (d r : Nat) (x : PrSt) : (s.setPr d r x).dfd = s.dfd := by simp only [State.setPr]
@[simp] theorem State.setPair_dfd (d k : Nat) (x : PairSt) : (s.setPair d k x).dfd = s.dfd := by simp only [State.setPair]
@[simp] theorem State.setNhop_dfd (d i : Nat) (x : Word) : (s.setNhop d i x).dfd = s.dfd := by simp only [State.setNhop, State.setPen]
@[simp] theorem State.setYout_dfd (d : Nat) (x : List Frame) : (s.setYout d x).dfd = s.dfd := by simp only [State.setYout, State.setPen]
@[simp] theorem State.setXing_dfd (k : Nat) (v : XingSt) : (s.setXing k v).dfd = s.dfd := by simp only [State.setXing]
@[simp] theorem State.setSeState_dfd (d i v : Nat) : (s.setSeState d i v).dfd = s.dfd := by simp only [State.setSeState, State.p_dfd]
@[simp] theorem State.setSnt_dfd (d : Nat) (c : SntSt) : (s.setSnt d c).dfd = s.dfd := by simp only [State.setSnt]
@[simp] theorem State.setBankSt_dfd (B : Nat) (x : BankSt) : (s.setBankSt B x).dfd = s.dfd := by simp only [State.setBankSt]
@[simp] theorem State.setDynMark_dfd (d fa : Nat) (v : Bool) : (s.setDynMark d fa v).dfd = s.dfd := by simp only [State.setDynMark]
@[simp] theorem State.setPins_dfd (d : Nat) (x : PinMode) : (s.setPins d x).dfd = s.dfd := by simp only [State.setPins]
@[simp] theorem State.setSnap_dfd (d : Nat) (x : Snap) : (s.setSnap d x).dfd = s.dfd := by simp only [State.setSnap]
@[simp] theorem State.setEng_dfd (d i : Nat) (e : SEng) : (s.setEng d i e).dfd = s.dfd := by simp only [State.setEng, State.p_dfd]
@[simp] theorem State.setPen_dfd (x : PenSt) : (s.setPen x).dfd = s.dfd := by simp only [State.setPen]
@[simp] theorem State.setDeficit_dfd (d e q x : Nat) : (s.setDeficit d e q x).dfd = s.dfd := by simp only [State.setDeficit, State.setPen]
@[simp] theorem State.setDir_dfd (line : Nat) (x : Option DirEnt) : (s.setDir line x).dfd = s.dfd := by simp only [State.setDir]
@[simp] theorem State.setLinkRx_dfd (d e m : Nat) (x : LinkRx) : (s.setLinkRx d e m x).dfd = s.dfd := by simp only [State.setLinkRx]

/-! ## The updates that leave `bnk` alone -/

@[simp] theorem State.setCell_bnk (k : Nat) (v : DWord) : (s.setCell k v).bnk = s.bnk := by simp only [State.setCell]
@[simp] theorem State.p_bnk (d : Nat) (f : Fld) (v : Nat) : (s.p d f v).bnk = s.bnk := by simp only [State.p, State.setCell_bnk]
@[simp] theorem State.setMbox_bnk (d : Nat) (c : MboxSt) : (s.setMbox d c).bnk = s.bnk := by simp only [State.setMbox]
@[simp] theorem State.setMee_bnk (ch : Nat) (x : MeeSt) : (s.setMee ch x).bnk = s.bnk := by simp only [State.setMee]
@[simp] theorem State.setParse_bnk (p : ParseSt) : (s.setParse p).bnk = s.bnk := by simp only [State.setParse]
@[simp] theorem State.setIo_bnk (d p : Nat) (x : IoCell) : (s.setIo d p x).bnk = s.bnk := by simp only [State.setIo]
@[simp] theorem State.setNport_bnk (d p : Nat) (x : Nport) : (s.setNport d p x).bnk = s.bnk := by simp only [State.setNport]
@[simp] theorem State.setLane_bnk (d n : Nat) (x : LaneSt) : (s.setLane d n x).bnk = s.bnk := by simp only [State.setLane]
@[simp] theorem State.setVlanWord_bnk (d v w : Nat) (x : Word) : (s.setVlanWord d v w x).bnk = s.bnk :=
  by simp only [State.setVlanWord, State.setPen]
@[simp] theorem State.setAir_bnk (d e : Nat) (x : List TrunkFrame) : (s.setAir d e x).bnk = s.bnk :=
  by simp only [State.setAir, State.setPen]
@[simp] theorem State.setFuses_bnk (x : Fuses) : (s.setFuses x).bnk = s.bnk := by simp only [State.setFuses]
@[simp] theorem State.setEdge_bnk (d e v : Nat) : (s.setEdge d e v).bnk = s.bnk := by simp only [State.setEdge, State.p_bnk]
@[simp] theorem State.setClk_bnk (d : Nat) (c : ClkSt) : (s.setClk d c).bnk = s.bnk := by simp only [State.setClk]
@[simp] theorem State.setDcell_bnk (ch w : Nat) (x : DCell) : (s.setDcell ch w x).bnk = s.bnk := by simp only [State.setDcell]
@[simp] theorem State.setCfg_bnk (c : CfgSt) : (s.setCfg c).bnk = s.bnk := by simp only [State.setCfg]
@[simp] theorem State.setFf_bnk (d k : Nat) (v : Bool) : (s.setFf d k v).bnk = s.bnk := by simp only [State.setFf]
@[simp] theorem State.setRb_bnk (d : Nat) (x : Option RbSt) : (s.setRb d x).bnk = s.bnk := by simp only [State.setRb]
@[simp] theorem State.setSeLate_bnk (d i : Nat) (l : List SeLate) : (s.setSeLate d i l).bnk = s.bnk := by simp only [State.setSeLate]
@[simp] theorem State.setPenDie_bnk (d : Nat) (x : PenDie) : (s.setPenDie d x).bnk = s.bnk :=
  by simp only [State.setPenDie, State.setPen, State.p_bnk]
@[simp] theorem State.setDrr_bnk (d e : Nat) (x : DrrSt) : (s.setDrr d e x).bnk = s.bnk := by simp only [State.setDrr, State.setPen]
@[simp] theorem State.setNet_bnk (rid tag : Nat) (x : Option NetReq) : (s.setNet rid tag x).bnk = s.bnk := by simp only [State.setNet]
@[simp] theorem State.setCapsIn_bnk (d e : Nat) (x : CapsIn) : (s.setCapsIn d e x).bnk = s.bnk := by simp only [State.setCapsIn]
@[simp] theorem State.setCk_bnk (d i : Nat) (c : CkMux2) : (s.setCk d i c).bnk = s.bnk := by simp only [State.setCk]
@[simp] theorem State.setFrameWord_bnk (d fa w : Nat) (v : DWord) : (s.setFrameWord d fa w v).bnk = s.bnk :=
  by simp only [State.setFrameWord]
@[simp] theorem State.setFlash_bnk (f : FlashSt) : (s.setFlash f).bnk = s.bnk := by simp only [State.setFlash]
@[simp] theorem State.setBmem_bnk (d k : Nat) (x : Bmem) : (s.setBmem d k x).bnk = s.bnk := by simp only [State.setBmem]
@[simp] theorem State.setPr_bnk (d r : Nat) (x : PrSt) : (s.setPr d r x).bnk = s.bnk := by simp only [State.setPr]
@[simp] theorem State.setPair_bnk (d k : Nat) (x : PairSt) : (s.setPair d k x).bnk = s.bnk := by simp only [State.setPair]
@[simp] theorem State.setNhop_bnk (d i : Nat) (x : Word) : (s.setNhop d i x).bnk = s.bnk := by simp only [State.setNhop, State.setPen]
@[simp] theorem State.setYout_bnk (d : Nat) (x : List Frame) : (s.setYout d x).bnk = s.bnk := by simp only [State.setYout, State.setPen]
@[simp] theorem State.setXing_bnk (k : Nat) (v : XingSt) : (s.setXing k v).bnk = s.bnk := by simp only [State.setXing]
@[simp] theorem State.setSeState_bnk (d i v : Nat) : (s.setSeState d i v).bnk = s.bnk := by simp only [State.setSeState, State.p_bnk]
@[simp] theorem State.setSnt_bnk (d : Nat) (c : SntSt) : (s.setSnt d c).bnk = s.bnk := by simp only [State.setSnt]
@[simp] theorem State.setDsub_bnk (k : Nat) (x : DSub) : (s.setDsub k x).bnk = s.bnk := by simp only [State.setDsub]
@[simp] theorem State.setWarm_bnk (d : Nat) (x : WarmSt) : (s.setWarm d x).bnk = s.bnk := by simp only [State.setWarm]
@[simp] theorem State.setLut_bnk (d k : Nat) (v : DWord) : (s.setLut d k v).bnk = s.bnk := by simp only [State.setLut]
@[simp] theorem State.setFifo_bnk (d n : Nat) (x : Pfifo) : (s.setFifo d n x).bnk = s.bnk := by simp only [State.setFifo, State.p_bnk]
@[simp] theorem State.setDmWord_bnk (d i w : Nat) (x : BWord) : (s.setDmWord d i w x).bnk = s.bnk := by simp only [State.setDmWord]
@[simp] theorem State.setL2_bnk (t i : Nat) (x : Option L2Ent) : (s.setL2 t i x).bnk = s.bnk := by simp only [State.setL2, State.setPen]
@[simp] theorem State.setHello_bnk (d p : Nat) (x : HelloSt) : (s.setHello d p x).bnk = s.bnk :=
  by simp only [State.setHello, State.setPen]
@[simp] theorem State.setHart_bnk (k : Nat) (x : HartSt) : (s.setHart k x).bnk = s.bnk := by simp only [State.setHart]
@[simp] theorem State.setRawRx_bnk (d : Nat) (l : List (List Byte)) : (s.setRawRx d l).bnk = s.bnk := by simp only [State.setRawRx]
@[simp] theorem State.setBit_bnk (d : Nat) (f : Fld) (n : Nat) : (s.setBit d f n).bnk = s.bnk := by simp only [State.setBit, State.p_bnk]
@[simp] theorem State.setMon_bnk (d m : Nat) (c : MonWin) : (s.setMon d m c).bnk = s.bnk := by simp only [State.setMon]
@[simp] theorem State.setSig_bnk (d fa : Nat) (v : Word) : (s.setSig d fa v).bnk = s.bnk := by simp only [State.setSig]
@[simp] theorem State.setDesign_bnk (d : Nat) (x : DieDesign) : (s.setDesign d x).bnk = s.bnk := by simp only [State.setDesign]
@[simp] theorem State.setArith_bnk (d k : Nat) (x : Arith) : (s.setArith d k x).bnk = s.bnk := by simp only [State.setArith]
@[simp] theorem State.setSeu_bnk (d : Nat) (x : List SeuEnt) : (s.setSeu d x).bnk = s.bnk := by simp only [State.setSeu, State.p_bnk]
@[simp] theorem State.setQclk_bnk (d q hz : Nat) : (s.setQclk d q hz).bnk = s.bnk := by simp only [State.setQclk]
@[simp] theorem State.setPaused_bnk (d e q : Nat) (x : Bool) : (s.setPaused d e q x).bnk = s.bnk :=
  by simp only [State.setPaused, State.setPen]
@[simp] theorem State.setCopy_bnk (q line : Nat) (x : Option CLine) : (s.setCopy q line x).bnk = s.bnk := by simp only [State.setCopy]
@[simp] theorem State.setLinkTx_bnk (d e m : Nat) (x : LinkTx) : (s.setLinkTx d e m x).bnk = s.bnk := by simp only [State.setLinkTx]
@[simp] theorem State.setCore_bnk (d c v : Nat) : (s.setCore d c v).bnk = s.bnk := by simp only [State.setCore, State.p_bnk]
@[simp] theorem State.setLad_bnk (d : Nat) (c : LadSt) : (s.setLad d c).bnk = s.bnk := by simp only [State.setLad]
@[simp] theorem State.setTrainCopy_bnk (ch : Nat) (x : Bool) : (s.setTrainCopy ch x).bnk = s.bnk := by simp only [State.setTrainCopy]
@[simp] theorem State.setHeld_bnk (d : Nat) (x : List (Nat × Word)) : (s.setHeld d x).bnk = s.bnk := by simp only [State.setHeld]
@[simp] theorem State.setChain_bnk (d k : Nat) (x : ChainSt) : (s.setChain d k x).bnk = s.bnk := by simp only [State.setChain]
@[simp] theorem State.setKslot_bnk (d k : Nat) (x : Kslot) : (s.setKslot d k x).bnk = s.bnk := by simp only [State.setKslot, State.p_bnk]
@[simp] theorem State.setPmWord_bnk (d i n : Nat) (x : BitVec 39) : (s.setPmWord d i n x).bnk = s.bnk := by simp only [State.setPmWord]
@[simp] theorem State.setWindow_bnk (t i : Nat) (x : Bool) : (s.setWindow t i x).bnk = s.bnk :=
  by simp only [State.setWindow, State.setPen]
@[simp] theorem State.setRingAck_bnk (d r : Nat) (x : Option Resp) : (s.setRingAck d r x).bnk = s.bnk :=
  by simp only [State.setRingAck, State.setPen]
@[simp] theorem State.setSec_bnk (x : SecSt) : (s.setSec x).bnk = s.bnk := by simp only [State.setSec]
@[simp] theorem State.setTestLeft_bnk (d n : Nat) : (s.setTestLeft d n).bnk = s.bnk := by simp only [State.setTestLeft]
@[simp] theorem State.clrBit_bnk (d : Nat) (f : Fld) (n : Nat) : (s.clrBit d f n).bnk = s.bnk := by simp only [State.clrBit, State.p_bnk]
@[simp] theorem State.setEv_bnk (r n : Nat) (c : EvSrc) : (s.setEv r n c).bnk = s.bnk := by simp only [State.setEv]
@[simp] theorem State.setDynMark_bnk (d fa : Nat) (v : Bool) : (s.setDynMark d fa v).bnk = s.bnk := by simp only [State.setDynMark]
@[simp] theorem State.setPins_bnk (d : Nat) (x : PinMode) : (s.setPins d x).bnk = s.bnk := by simp only [State.setPins]
@[simp] theorem State.setSnap_bnk (d : Nat) (x : Snap) : (s.setSnap d x).bnk = s.bnk := by simp only [State.setSnap]
@[simp] theorem State.setEng_bnk (d i : Nat) (e : SEng) : (s.setEng d i e).bnk = s.bnk := by simp only [State.setEng, State.p_bnk]
@[simp] theorem State.setPen_bnk (x : PenSt) : (s.setPen x).bnk = s.bnk := by simp only [State.setPen]
@[simp] theorem State.setDeficit_bnk (d e q x : Nat) : (s.setDeficit d e q x).bnk = s.bnk := by simp only [State.setDeficit, State.setPen]
@[simp] theorem State.setDir_bnk (line : Nat) (x : Option DirEnt) : (s.setDir line x).bnk = s.bnk := by simp only [State.setDir]
@[simp] theorem State.setLinkRx_bnk (d e m : Nat) (x : LinkRx) : (s.setLinkRx d e m x).bnk = s.bnk := by simp only [State.setLinkRx]

/-! ## The updates that leave `coh` alone -/

@[simp] theorem State.setCell_coh (k : Nat) (v : DWord) : (s.setCell k v).coh = s.coh := by simp only [State.setCell]
@[simp] theorem State.p_coh (d : Nat) (f : Fld) (v : Nat) : (s.p d f v).coh = s.coh := by simp only [State.p, State.setCell_coh]
@[simp] theorem State.setMbox_coh (d : Nat) (c : MboxSt) : (s.setMbox d c).coh = s.coh := by simp only [State.setMbox]
@[simp] theorem State.setDsub_coh (k : Nat) (x : DSub) : (s.setDsub k x).coh = s.coh := by simp only [State.setDsub]
@[simp] theorem State.setWarm_coh (d : Nat) (x : WarmSt) : (s.setWarm d x).coh = s.coh := by simp only [State.setWarm]
@[simp] theorem State.setLut_coh (d k : Nat) (v : DWord) : (s.setLut d k v).coh = s.coh := by simp only [State.setLut]
@[simp] theorem State.setFifo_coh (d n : Nat) (x : Pfifo) : (s.setFifo d n x).coh = s.coh := by simp only [State.setFifo, State.p_coh]
@[simp] theorem State.setDmWord_coh (d i w : Nat) (x : BWord) : (s.setDmWord d i w x).coh = s.coh := by simp only [State.setDmWord]
@[simp] theorem State.setL2_coh (t i : Nat) (x : Option L2Ent) : (s.setL2 t i x).coh = s.coh := by simp only [State.setL2, State.setPen]
@[simp] theorem State.setHello_coh (d p : Nat) (x : HelloSt) : (s.setHello d p x).coh = s.coh :=
  by simp only [State.setHello, State.setPen]
@[simp] theorem State.setXing_coh (k : Nat) (v : XingSt) : (s.setXing k v).coh = s.coh := by simp only [State.setXing]
@[simp] theorem State.setSeState_coh (d i v : Nat) : (s.setSeState d i v).coh = s.coh := by simp only [State.setSeState, State.p_coh]
@[simp] theorem State.setSnt_coh (d : Nat) (c : SntSt) : (s.setSnt d c).coh = s.coh := by simp only [State.setSnt]
@[simp] theorem State.setBankSt_coh (B : Nat) (x : BankSt) : (s.setBankSt B x).coh = s.coh := by simp only [State.setBankSt]
@[simp] theorem State.setDynMark_coh (d fa : Nat) (v : Bool) : (s.setDynMark d fa v).coh = s.coh := by simp only [State.setDynMark]
@[simp] theorem State.setPins_coh (d : Nat) (x : PinMode) : (s.setPins d x).coh = s.coh := by simp only [State.setPins]
@[simp] theorem State.setSnap_coh (d : Nat) (x : Snap) : (s.setSnap d x).coh = s.coh := by simp only [State.setSnap]
@[simp] theorem State.setEng_coh (d i : Nat) (e : SEng) : (s.setEng d i e).coh = s.coh := by simp only [State.setEng, State.p_coh]
@[simp] theorem State.setPen_coh (x : PenSt) : (s.setPen x).coh = s.coh := by simp only [State.setPen]
@[simp] theorem State.setDeficit_coh (d e q x : Nat) : (s.setDeficit d e q x).coh = s.coh := by simp only [State.setDeficit, State.setPen]
@[simp] theorem State.setSec_coh (x : SecSt) : (s.setSec x).coh = s.coh := by simp only [State.setSec]
@[simp] theorem State.setTestLeft_coh (d n : Nat) : (s.setTestLeft d n).coh = s.coh := by simp only [State.setTestLeft]
@[simp] theorem State.clrBit_coh (d : Nat) (f : Fld) (n : Nat) : (s.clrBit d f n).coh = s.coh := by simp only [State.clrBit, State.p_coh]
@[simp] theorem State.setEv_coh (r n : Nat) (c : EvSrc) : (s.setEv r n c).coh = s.coh := by simp only [State.setEv]
@[simp] theorem State.setFrameWord_coh (d fa w : Nat) (v : DWord) : (s.setFrameWord d fa w v).coh = s.coh :=
  by simp only [State.setFrameWord]
@[simp] theorem State.setFlash_coh (f : FlashSt) : (s.setFlash f).coh = s.coh := by simp only [State.setFlash]
@[simp] theorem State.setBmem_coh (d k : Nat) (x : Bmem) : (s.setBmem d k x).coh = s.coh := by simp only [State.setBmem]
@[simp] theorem State.setPr_coh (d r : Nat) (x : PrSt) : (s.setPr d r x).coh = s.coh := by simp only [State.setPr]
@[simp] theorem State.setPair_coh (d k : Nat) (x : PairSt) : (s.setPair d k x).coh = s.coh := by simp only [State.setPair]
@[simp] theorem State.setNhop_coh (d i : Nat) (x : Word) : (s.setNhop d i x).coh = s.coh := by simp only [State.setNhop, State.setPen]
@[simp] theorem State.setYout_coh (d : Nat) (x : List Frame) : (s.setYout d x).coh = s.coh := by simp only [State.setYout, State.setPen]
@[simp] theorem State.setCapsIn_coh (d e : Nat) (x : CapsIn) : (s.setCapsIn d e x).coh = s.coh := by simp only [State.setCapsIn]
@[simp] theorem State.setCk_coh (d i : Nat) (c : CkMux2) : (s.setCk d i c).coh = s.coh := by simp only [State.setCk]
@[simp] theorem State.setTrainCopy_coh (ch : Nat) (x : Bool) : (s.setTrainCopy ch x).coh = s.coh := by simp only [State.setTrainCopy]
@[simp] theorem State.setHeld_coh (d : Nat) (x : List (Nat × Word)) : (s.setHeld d x).coh = s.coh := by simp only [State.setHeld]
@[simp] theorem State.setChain_coh (d k : Nat) (x : ChainSt) : (s.setChain d k x).coh = s.coh := by simp only [State.setChain]
@[simp] theorem State.setKslot_coh (d k : Nat) (x : Kslot) : (s.setKslot d k x).coh = s.coh := by simp only [State.setKslot, State.p_coh]
@[simp] theorem State.setPmWord_coh (d i n : Nat) (x : BitVec 39) : (s.setPmWord d i n x).coh = s.coh := by simp only [State.setPmWord]
@[simp] theorem State.setWindow_coh (t i : Nat) (x : Bool) : (s.setWindow t i x).coh = s.coh :=
  by simp only [State.setWindow, State.setPen]
@[simp] theorem State.setRingAck_coh (d r : Nat) (x : Option Resp) : (s.setRingAck d r x).coh = s.coh :=
  by simp only [State.setRingAck, State.setPen]
@[simp] theorem State.setLinkTx_coh (d e m : Nat) (x : LinkTx) : (s.setLinkTx d e m x).coh = s.coh := by simp only [State.setLinkTx]
@[simp] theorem State.setCore_coh (d c v : Nat) : (s.setCore d c v).coh = s.coh := by simp only [State.setCore, State.p_coh]
@[simp] theorem State.setLad_coh (d : Nat) (c : LadSt) : (s.setLad d c).coh = s.coh := by simp only [State.setLad]
@[simp] theorem State.setDcell_coh (ch w : Nat) (x : DCell) : (s.setDcell ch w x).coh = s.coh := by simp only [State.setDcell]
@[simp] theorem State.setCfg_coh (c : CfgSt) : (s.setCfg c).coh = s.coh := by simp only [State.setCfg]
@[simp] theorem State.setFf_coh (d k : Nat) (v : Bool) : (s.setFf d k v).coh = s.coh := by simp only [State.setFf]
@[simp] theorem State.setRb_coh (d : Nat) (x : Option RbSt) : (s.setRb d x).coh = s.coh := by simp only [State.setRb]
@[simp] theorem State.setSeLate_coh (d i : Nat) (l : List SeLate) : (s.setSeLate d i l).coh = s.coh := by simp only [State.setSeLate]
@[simp] theorem State.setPenDie_coh (d : Nat) (x : PenDie) : (s.setPenDie d x).coh = s.coh :=
  by simp only [State.setPenDie, State.setPen, State.p_coh]
@[simp] theorem State.setDrr_coh (d e : Nat) (x : DrrSt) : (s.setDrr d e x).coh = s.coh := by simp only [State.setDrr, State.setPen]
@[simp] theorem State.setFuses_coh (x : Fuses) : (s.setFuses x).coh = s.coh := by simp only [State.setFuses]
@[simp] theorem State.setEdge_coh (d e v : Nat) : (s.setEdge d e v).coh = s.coh := by simp only [State.setEdge, State.p_coh]
@[simp] theorem State.setClk_coh (d : Nat) (c : ClkSt) : (s.setClk d c).coh = s.coh := by simp only [State.setClk]
@[simp] theorem State.setBankWord_coh (B w : Nat) (x : BWord) : (s.setBankWord B w x).coh = s.coh := by simp only [State.setBankWord]
@[simp] theorem State.setSig_coh (d fa : Nat) (v : Word) : (s.setSig d fa v).coh = s.coh := by simp only [State.setSig]
@[simp] theorem State.setDesign_coh (d : Nat) (x : DieDesign) : (s.setDesign d x).coh = s.coh := by simp only [State.setDesign]
@[simp] theorem State.setArith_coh (d k : Nat) (x : Arith) : (s.setArith d k x).coh = s.coh := by simp only [State.setArith]
@[simp] theorem State.setSeu_coh (d : Nat) (x : List SeuEnt) : (s.setSeu d x).coh = s.coh := by simp only [State.setSeu, State.p_coh]
@[simp] theorem State.setQclk_coh (d q hz : Nat) : (s.setQclk d q hz).coh = s.coh := by simp only [State.setQclk]
@[simp] theorem State.setPaused_coh (d e q : Nat) (x : Bool) : (s.setPaused d e q x).coh = s.coh :=
  by simp only [State.setPaused, State.setPen]
@[simp] theorem State.setHart_coh (k : Nat) (x : HartSt) : (s.setHart k x).coh = s.coh := by simp only [State.setHart]
@[simp] theorem State.setRawRx_coh (d : Nat) (l : List (List Byte)) : (s.setRawRx d l).coh = s.coh := by simp only [State.setRawRx]
@[simp] theorem State.setBit_coh (d : Nat) (f : Fld) (n : Nat) : (s.setBit d f n).coh = s.coh := by simp only [State.setBit, State.p_coh]
@[simp] theorem State.setMon_coh (d m : Nat) (c : MonWin) : (s.setMon d m c).coh = s.coh := by simp only [State.setMon]
@[simp] theorem State.setMee_coh (ch : Nat) (x : MeeSt) : (s.setMee ch x).coh = s.coh := by simp only [State.setMee]
@[simp] theorem State.setParse_coh (p : ParseSt) : (s.setParse p).coh = s.coh := by simp only [State.setParse]
@[simp] theorem State.setIo_coh (d p : Nat) (x : IoCell) : (s.setIo d p x).coh = s.coh := by simp only [State.setIo]
@[simp] theorem State.setNport_coh (d p : Nat) (x : Nport) : (s.setNport d p x).coh = s.coh := by simp only [State.setNport]
@[simp] theorem State.setLane_coh (d n : Nat) (x : LaneSt) : (s.setLane d n x).coh = s.coh := by simp only [State.setLane]
@[simp] theorem State.setVlanWord_coh (d v w : Nat) (x : Word) : (s.setVlanWord d v w x).coh = s.coh :=
  by simp only [State.setVlanWord, State.setPen]
@[simp] theorem State.setAir_coh (d e : Nat) (x : List TrunkFrame) : (s.setAir d e x).coh = s.coh :=
  by simp only [State.setAir, State.setPen]
@[simp] theorem State.setLinkRx_coh (d e m : Nat) (x : LinkRx) : (s.setLinkRx d e m x).coh = s.coh := by simp only [State.setLinkRx]

/-! ## The updates that leave `bdl` alone -/

@[simp] theorem State.setCell_bdl (k : Nat) (v : DWord) : (s.setCell k v).bdl = s.bdl := by simp only [State.setCell]
@[simp] theorem State.p_bdl (d : Nat) (f : Fld) (v : Nat) : (s.p d f v).bdl = s.bdl := by simp only [State.p, State.setCell_bdl]
@[simp] theorem State.setMon_bdl (d m : Nat) (c : MonWin) : (s.setMon d m c).bdl = s.bdl := by simp only [State.setMon]
@[simp] theorem State.setSig_bdl (d fa : Nat) (v : Word) : (s.setSig d fa v).bdl = s.bdl := by simp only [State.setSig]
@[simp] theorem State.setFf_bdl (d k : Nat) (v : Bool) : (s.setFf d k v).bdl = s.bdl := by simp only [State.setFf]
@[simp] theorem State.setKslot_bdl (d k : Nat) (x : Kslot) : (s.setKslot d k x).bdl = s.bdl := by simp only [State.setKslot, State.p_bdl]
@[simp] theorem State.setPair_bdl (d k : Nat) (x : PairSt) : (s.setPair d k x).bdl = s.bdl := by simp only [State.setPair]
@[simp] theorem State.setDeficit_bdl (d e q x : Nat) : (s.setDeficit d e q x).bdl = s.bdl := by simp only [State.setDeficit, State.setPen]
@[simp] theorem State.setHart_bdl (k : Nat) (x : HartSt) : (s.setHart k x).bdl = s.bdl := by simp only [State.setHart]
@[simp] theorem State.setBit_bdl (d : Nat) (f : Fld) (n : Nat) : (s.setBit d f n).bdl = s.bdl := by simp only [State.setBit, State.p_bdl]
@[simp] theorem State.setBankWord_bdl (B w : Nat) (x : BWord) : (s.setBankWord B w x).bdl = s.bdl := by simp only [State.setBankWord]
@[simp] theorem State.setCfg_bdl (c : CfgSt) : (s.setCfg c).bdl = s.bdl := by simp only [State.setCfg]
@[simp] theorem State.setChain_bdl (d k : Nat) (x : ChainSt) : (s.setChain d k x).bdl = s.bdl := by simp only [State.setChain]
@[simp] theorem State.setPr_bdl (d r : Nat) (x : PrSt) : (s.setPr d r x).bdl = s.bdl := by simp only [State.setPr]
@[simp] theorem State.setPen_bdl (x : PenSt) : (s.setPen x).bdl = s.bdl := by simp only [State.setPen]
@[simp] theorem State.setHello_bdl (d p : Nat) (x : HelloSt) : (s.setHello d p x).bdl = s.bdl :=
  by simp only [State.setHello, State.setPen]
@[simp] theorem State.setFuses_bdl (x : Fuses) : (s.setFuses x).bdl = s.bdl := by simp only [State.setFuses]
@[simp] theorem State.setClk_bdl (d : Nat) (c : ClkSt) : (s.setClk d c).bdl = s.bdl := by simp only [State.setClk]
@[simp] theorem State.setDcell_bdl (ch w : Nat) (x : DCell) : (s.setDcell ch w x).bdl = s.bdl := by simp only [State.setDcell]
@[simp] theorem State.setHeld_bdl (d : Nat) (x : List (Nat × Word)) : (s.setHeld d x).bdl = s.bdl := by simp only [State.setHeld]
@[simp] theorem State.setBmem_bdl (d k : Nat) (x : Bmem) : (s.setBmem d k x).bdl = s.bdl := by simp only [State.setBmem]
@[simp] theorem State.setEng_bdl (d i : Nat) (e : SEng) : (s.setEng d i e).bdl = s.bdl := by simp only [State.setEng, State.p_bdl]
@[simp] theorem State.setL2_bdl (t i : Nat) (x : Option L2Ent) : (s.setL2 t i x).bdl = s.bdl := by simp only [State.setL2, State.setPen]
@[simp] theorem State.setAir_bdl (d e : Nat) (x : List TrunkFrame) : (s.setAir d e x).bdl = s.bdl :=
  by simp only [State.setAir, State.setPen]
@[simp] theorem State.setEdge_bdl (d e v : Nat) : (s.setEdge d e v).bdl = s.bdl := by simp only [State.setEdge, State.p_bdl]
@[simp] theorem State.setLad_bdl (d : Nat) (c : LadSt) : (s.setLad d c).bdl = s.bdl := by simp only [State.setLad]
@[simp] theorem State.setTrainCopy_bdl (ch : Nat) (x : Bool) : (s.setTrainCopy ch x).bdl = s.bdl := by simp only [State.setTrainCopy]
@[simp] theorem State.setFlash_bdl (f : FlashSt) : (s.setFlash f).bdl = s.bdl := by simp only [State.setFlash]
@[simp] theorem State.setSnap_bdl (d : Nat) (x : Snap) : (s.setSnap d x).bdl = s.bdl := by simp only [State.setSnap]
@[simp] theorem State.setDmWord_bdl (d i w : Nat) (x : BWord) : (s.setDmWord d i w x).bdl = s.bdl := by simp only [State.setDmWord]
@[simp] theorem State.setVlanWord_bdl (d v w : Nat) (x : Word) : (s.setVlanWord d v w x).bdl = s.bdl :=
  by simp only [State.setVlanWord, State.setPen]
@[simp] theorem State.setCopy_bdl (q line : Nat) (x : Option CLine) : (s.setCopy q line x).bdl = s.bdl := by simp only [State.setCopy]
@[simp] theorem State.setCore_bdl (d c v : Nat) : (s.setCore d c v).bdl = s.bdl := by simp only [State.setCore, State.p_bdl]
@[simp] theorem State.setCk_bdl (d i : Nat) (c : CkMux2) : (s.setCk d i c).bdl = s.bdl := by simp only [State.setCk]
@[simp] theorem State.setFrameWord_bdl (d fa w : Nat) (v : DWord) : (s.setFrameWord d fa w v).bdl = s.bdl :=
  by simp only [State.setFrameWord]
@[simp] theorem State.setPins_bdl (d : Nat) (x : PinMode) : (s.setPins d x).bdl = s.bdl := by simp only [State.setPins]
@[simp] theorem State.setFifo_bdl (d n : Nat) (x : Pfifo) : (s.setFifo d n x).bdl = s.bdl := by simp only [State.setFifo, State.p_bdl]
@[simp] theorem State.setLane_bdl (d n : Nat) (x : LaneSt) : (s.setLane d n x).bdl = s.bdl := by simp only [State.setLane]
@[simp] theorem State.setPaused_bdl (d e q : Nat) (x : Bool) : (s.setPaused d e q x).bdl = s.bdl :=
  by simp only [State.setPaused, State.setPen]
@[simp] theorem State.setNet_bdl (rid tag : Nat) (x : Option NetReq) : (s.setNet rid tag x).bdl = s.bdl := by simp only [State.setNet]
@[simp] theorem State.setEv_bdl (r n : Nat) (c : EvSrc) : (s.setEv r n c).bdl = s.bdl := by simp only [State.setEv]
@[simp] theorem State.setDynMark_bdl (d fa : Nat) (v : Bool) : (s.setDynMark d fa v).bdl = s.bdl := by simp only [State.setDynMark]
@[simp] theorem State.setLut_bdl (d k : Nat) (v : DWord) : (s.setLut d k v).bdl = s.bdl := by simp only [State.setLut]
@[simp] theorem State.setNport_bdl (d p : Nat) (x : Nport) : (s.setNport d p x).bdl = s.bdl := by simp only [State.setNport]
@[simp] theorem State.setQclk_bdl (d q hz : Nat) : (s.setQclk d q hz).bdl = s.bdl := by simp only [State.setQclk]
@[simp] theorem State.setDrr_bdl (d e : Nat) (x : DrrSt) : (s.setDrr d e x).bdl = s.bdl := by simp only [State.setDrr, State.setPen]
@[simp] theorem State.setSec_bdl (x : SecSt) : (s.setSec x).bdl = s.bdl := by simp only [State.setSec]
@[simp] theorem State.clrBit_bdl (d : Nat) (f : Fld) (n : Nat) : (s.clrBit d f n).bdl = s.bdl := by simp only [State.clrBit, State.p_bdl]
@[simp] theorem State.setBankSt_bdl (B : Nat) (x : BankSt) : (s.setBankSt B x).bdl = s.bdl := by simp only [State.setBankSt]
@[simp] theorem State.setWarm_bdl (d : Nat) (x : WarmSt) : (s.setWarm d x).bdl = s.bdl := by simp only [State.setWarm]
@[simp] theorem State.setIo_bdl (d p : Nat) (x : IoCell) : (s.setIo d p x).bdl = s.bdl := by simp only [State.setIo]
@[simp] theorem State.setSeu_bdl (d : Nat) (x : List SeuEnt) : (s.setSeu d x).bdl = s.bdl := by simp only [State.setSeu, State.p_bdl]
@[simp] theorem State.setPenDie_bdl (d : Nat) (x : PenDie) : (s.setPenDie d x).bdl = s.bdl :=
  by simp only [State.setPenDie, State.setPen, State.p_bdl]
@[simp] theorem State.setRingAck_bdl (d r : Nat) (x : Option Resp) : (s.setRingAck d r x).bdl = s.bdl :=
  by simp only [State.setRingAck, State.setPen]
@[simp] theorem State.setXing_bdl (k : Nat) (v : XingSt) : (s.setXing k v).bdl = s.bdl := by simp only [State.setXing]
@[simp] theorem State.setSnt_bdl (d : Nat) (c : SntSt) : (s.setSnt d c).bdl = s.bdl := by simp only [State.setSnt]
@[simp] theorem State.setDsub_bdl (k : Nat) (x : DSub) : (s.setDsub k x).bdl = s.bdl := by simp only [State.setDsub]
@[simp] theorem State.setParse_bdl (p : ParseSt) : (s.setParse p).bdl = s.bdl := by simp only [State.setParse]
@[simp] theorem State.setArith_bdl (d k : Nat) (x : Arith) : (s.setArith d k x).bdl = s.bdl := by simp only [State.setArith]
@[simp] theorem State.setSeLate_bdl (d i : Nat) (l : List SeLate) : (s.setSeLate d i l).bdl = s.bdl := by simp only [State.setSeLate]
@[simp] theorem State.setWindow_bdl (t i : Nat) (x : Bool) : (s.setWindow t i x).bdl = s.bdl :=
  by simp only [State.setWindow, State.setPen]
@[simp] theorem State.setYout_bdl (d : Nat) (x : List Frame) : (s.setYout d x).bdl = s.bdl := by simp only [State.setYout, State.setPen]
@[simp] theorem State.setSeState_bdl (d i v : Nat) : (s.setSeState d i v).bdl = s.bdl := by simp only [State.setSeState, State.p_bdl]
@[simp] theorem State.setMbox_bdl (d : Nat) (c : MboxSt) : (s.setMbox d c).bdl = s.bdl := by simp only [State.setMbox]
@[simp] theorem State.setMee_bdl (ch : Nat) (x : MeeSt) : (s.setMee ch x).bdl = s.bdl := by simp only [State.setMee]
@[simp] theorem State.setDesign_bdl (d : Nat) (x : DieDesign) : (s.setDesign d x).bdl = s.bdl := by simp only [State.setDesign]
@[simp] theorem State.setRb_bdl (d : Nat) (x : Option RbSt) : (s.setRb d x).bdl = s.bdl := by simp only [State.setRb]
@[simp] theorem State.setPmWord_bdl (d i n : Nat) (x : BitVec 39) : (s.setPmWord d i n x).bdl = s.bdl := by simp only [State.setPmWord]
@[simp] theorem State.setNhop_bdl (d i : Nat) (x : Word) : (s.setNhop d i x).bdl = s.bdl := by simp only [State.setNhop, State.setPen]
@[simp] theorem State.setDir_bdl (line : Nat) (x : Option DirEnt) : (s.setDir line x).bdl = s.bdl := by simp only [State.setDir]

/-! ## The updates that leave `drm` alone -/

@[simp] theorem State.setCell_drm (k : Nat) (v : DWord) : (s.setCell k v).drm = s.drm := by simp only [State.setCell]
@[simp] theorem State.p_drm (d : Nat) (f : Fld) (v : Nat) : (s.p d f v).drm = s.drm := by simp only [State.p, State.setCell_drm]
@[simp] theorem State.setMbox_drm (d : Nat) (c : MboxSt) : (s.setMbox d c).drm = s.drm := by simp only [State.setMbox]
@[simp] theorem State.setSig_drm (d fa : Nat) (v : Word) : (s.setSig d fa v).drm = s.drm := by simp only [State.setSig]
@[simp] theorem State.setDesign_drm (d : Nat) (x : DieDesign) : (s.setDesign d x).drm = s.drm := by simp only [State.setDesign]
@[simp] theorem State.setArith_drm (d k : Nat) (x : Arith) : (s.setArith d k x).drm = s.drm := by simp only [State.setArith]
@[simp] theorem State.setSeu_drm (d : Nat) (x : List SeuEnt) : (s.setSeu d x).drm = s.drm := by simp only [State.setSeu, State.p_drm]
@[simp] theorem State.setQclk_drm (d q hz : Nat) : (s.setQclk d q hz).drm = s.drm := by simp only [State.setQclk]
@[simp] theorem State.setPaused_drm (d e q : Nat) (x : Bool) : (s.setPaused d e q x).drm = s.drm :=
  by simp only [State.setPaused, State.setPen]
@[simp] theorem State.setCopy_drm (q line : Nat) (x : Option CLine) : (s.setCopy q line x).drm = s.drm := by simp only [State.setCopy]
@[simp] theorem State.setLinkTx_drm (d e m : Nat) (x : LinkTx) : (s.setLinkTx d e m x).drm = s.drm := by simp only [State.setLinkTx]
@[simp] theorem State.setCore_drm (d c v : Nat) : (s.setCore d c v).drm = s.drm := by simp only [State.setCore, State.p_drm]
@[simp] theorem State.setLad_drm (d : Nat) (c : LadSt) : (s.setLad d c).drm = s.drm := by simp only [State.setLad]
@[simp] theorem State.setFrameWord_drm (d fa w : Nat) (v : DWord) : (s.setFrameWord d fa w v).drm = s.drm :=
  by simp only [State.setFrameWord]
@[simp] theorem State.setFlash_drm (f : FlashSt) : (s.setFlash f).drm = s.drm := by simp only [State.setFlash]
@[simp] theorem State.setBmem_drm (d k : Nat) (x : Bmem) : (s.setBmem d k x).drm = s.drm := by simp only [State.setBmem]
@[simp] theorem State.setPr_drm (d r : Nat) (x : PrSt) : (s.setPr d r x).drm = s.drm := by simp only [State.setPr]
@[simp] theorem State.setPair_drm (d k : Nat) (x : PairSt) : (s.setPair d k x).drm = s.drm := by simp only [State.setPair]
@[simp] theorem State.setNhop_drm (d i : Nat) (x : Word) : (s.setNhop d i x).drm = s.drm := by simp only [State.setNhop, State.setPen]
@[simp] theorem State.setYout_drm (d : Nat) (x : List Frame) : (s.setYout d x).drm = s.drm := by simp only [State.setYout, State.setPen]
@[simp] theorem State.setXing_drm (k : Nat) (v : XingSt) : (s.setXing k v).drm = s.drm := by simp only [State.setXing]
@[simp] theorem State.setSeState_drm (d i v : Nat) : (s.setSeState d i v).drm = s.drm := by simp only [State.setSeState, State.p_drm]
@[simp] theorem State.setSnt_drm (d : Nat) (c : SntSt) : (s.setSnt d c).drm = s.drm := by simp only [State.setSnt]
@[simp] theorem State.setBankSt_drm (B : Nat) (x : BankSt) : (s.setBankSt B x).drm = s.drm := by simp only [State.setBankSt]
@[simp] theorem State.setParse_drm (p : ParseSt) : (s.setParse p).drm = s.drm := by simp only [State.setParse]
@[simp] theorem State.setIo_drm (d p : Nat) (x : IoCell) : (s.setIo d p x).drm = s.drm := by simp only [State.setIo]
@[simp] theorem State.setNport_drm (d p : Nat) (x : Nport) : (s.setNport d p x).drm = s.drm := by simp only [State.setNport]
@[simp] theorem State.setLane_drm (d n : Nat) (x : LaneSt) : (s.setLane d n x).drm = s.drm := by simp only [State.setLane]
@[simp] theorem State.setVlanWord_drm (d v w : Nat) (x : Word) : (s.setVlanWord d v w x).drm = s.drm :=
  by simp only [State.setVlanWord, State.setPen]
@[simp] theorem State.setAir_drm (d e : Nat) (x : List TrunkFrame) : (s.setAir d e x).drm = s.drm :=
  by simp only [State.setAir, State.setPen]
@[simp] theorem State.setFuses_drm (x : Fuses) : (s.setFuses x).drm = s.drm := by simp only [State.setFuses]
@[simp] theorem State.setEdge_drm (d e v : Nat) : (s.setEdge d e v).drm = s.drm := by simp only [State.setEdge, State.p_drm]
@[simp] theorem State.setClk_drm (d : Nat) (c : ClkSt) : (s.setClk d c).drm = s.drm := by simp only [State.setClk]
@[simp] theorem State.setBankWord_drm (B w : Nat) (x : BWord) : (s.setBankWord B w x).drm = s.drm := by simp only [State.setBankWord]
@[simp] theorem State.setHeld_drm (d : Nat) (x : List (Nat × Word)) : (s.setHeld d x).drm = s.drm := by simp only [State.setHeld]
@[simp] theorem State.setChain_drm (d k : Nat) (x : ChainSt) : (s.setChain d k x).drm = s.drm := by simp only [State.setChain]
@[simp] theorem State.setKslot_drm (d k : Nat) (x : Kslot) : (s.setKslot d k x).drm = s.drm := by simp only [State.setKslot, State.p_drm]
@[simp] theorem State.setPmWord_drm (d i n : Nat) (x : BitVec 39) : (s.setPmWord d i n x).drm = s.drm := by simp only [State.setPmWord]
@[simp] theorem State.setWindow_drm (t i : Nat) (x : Bool) : (s.setWindow t i x).drm = s.drm :=
  by simp only [State.setWindow, State.setPen]
@[simp] theorem State.setRingAck_drm (d r : Nat) (x : Option Resp) : (s.setRingAck d r x).drm = s.drm :=
  by simp only [State.setRingAck, State.setPen]
@[simp] theorem State.setSec_drm (x : SecSt) : (s.setSec x).drm = s.drm := by simp only [State.setSec]
@[simp] theorem State.setTestLeft_drm (d n : Nat) : (s.setTestLeft d n).drm = s.drm := by simp only [State.setTestLeft]
@[simp] theorem State.clrBit_drm (d : Nat) (f : Fld) (n : Nat) : (s.clrBit d f n).drm = s.drm := by simp only [State.clrBit, State.p_drm]
@[simp] theorem State.setEv_drm (r n : Nat) (c : EvSrc) : (s.setEv r n c).drm = s.drm := by simp only [State.setEv]
@[simp] theorem State.setWarm_drm (d : Nat) (x : WarmSt) : (s.setWarm d x).drm = s.drm := by simp only [State.setWarm]
@[simp] theorem State.setLut_drm (d k : Nat) (v : DWord) : (s.setLut d k v).drm = s.drm := by simp only [State.setLut]
@[simp] theorem State.setFifo_drm (d n : Nat) (x : Pfifo) : (s.setFifo d n x).drm = s.drm := by simp only [State.setFifo, State.p_drm]
@[simp] theorem State.setDmWord_drm (d i w : Nat) (x : BWord) : (s.setDmWord d i w x).drm = s.drm := by simp only [State.setDmWord]
@[simp] theorem State.setL2_drm (t i : Nat) (x : Option L2Ent) : (s.setL2 t i x).drm = s.drm := by simp only [State.setL2, State.setPen]
@[simp] theorem State.setHello_drm (d p : Nat) (x : HelloSt) : (s.setHello d p x).drm = s.drm :=
  by simp only [State.setHello, State.setPen]
@[simp] theorem State.setHart_drm (k : Nat) (x : HartSt) : (s.setHart k x).drm = s.drm := by simp only [State.setHart]
@[simp] theorem State.setRawRx_drm (d : Nat) (l : List (List Byte)) : (s.setRawRx d l).drm = s.drm := by simp only [State.setRawRx]
@[simp] theorem State.setBit_drm (d : Nat) (f : Fld) (n : Nat) : (s.setBit d f n).drm = s.drm := by simp only [State.setBit, State.p_drm]
@[simp] theorem State.setMon_drm (d m : Nat) (c : MonWin) : (s.setMon d m c).drm = s.drm := by simp only [State.setMon]
@[simp] theorem State.setCfg_drm (c : CfgSt) : (s.setCfg c).drm = s.drm := by simp only [State.setCfg]
@[simp] theorem State.setFf_drm (d k : Nat) (v : Bool) : (s.setFf d k v).drm = s.drm := by simp only [State.setFf]
@[simp] theorem State.setRb_drm (d : Nat) (x : Option RbSt) : (s.setRb d x).drm = s.drm := by simp only [State.setRb]
@[simp] theorem State.setSeLate_drm (d i : Nat) (l : List SeLate) : (s.setSeLate d i l).drm = s.drm := by simp only [State.setSeLate]
@[simp] theorem State.setPenDie_drm (d : Nat) (x : PenDie) : (s.setPenDie d x).drm = s.drm :=
  by simp only [State.setPenDie, State.setPen, State.p_drm]
@[simp] theorem State.setDrr_drm (d e : Nat) (x : DrrSt) : (s.setDrr d e x).drm = s.drm := by simp only [State.setDrr, State.setPen]
@[simp] theorem State.setNet_drm (rid tag : Nat) (x : Option NetReq) : (s.setNet rid tag x).drm = s.drm := by simp only [State.setNet]
@[simp] theorem State.setCapsIn_drm (d e : Nat) (x : CapsIn) : (s.setCapsIn d e x).drm = s.drm := by simp only [State.setCapsIn]
@[simp] theorem State.setCk_drm (d i : Nat) (c : CkMux2) : (s.setCk d i c).drm = s.drm := by simp only [State.setCk]
@[simp] theorem State.setDynMark_drm (d fa : Nat) (v : Bool) : (s.setDynMark d fa v).drm = s.drm := by simp only [State.setDynMark]
@[simp] theorem State.setPins_drm (d : Nat) (x : PinMode) : (s.setPins d x).drm = s.drm := by simp only [State.setPins]
@[simp] theorem State.setSnap_drm (d : Nat) (x : Snap) : (s.setSnap d x).drm = s.drm := by simp only [State.setSnap]
@[simp] theorem State.setEng_drm (d i : Nat) (e : SEng) : (s.setEng d i e).drm = s.drm := by simp only [State.setEng, State.p_drm]
@[simp] theorem State.setPen_drm (x : PenSt) : (s.setPen x).drm = s.drm := by simp only [State.setPen]
@[simp] theorem State.setDeficit_drm (d e q x : Nat) : (s.setDeficit d e q x).drm = s.drm := by simp only [State.setDeficit, State.setPen]
@[simp] theorem State.setDir_drm (line : Nat) (x : Option DirEnt) : (s.setDir line x).drm = s.drm := by simp only [State.setDir]
@[simp] theorem State.setLinkRx_drm (d e m : Nat) (x : LinkRx) : (s.setLinkRx d e m x).drm = s.drm := by simp only [State.setLinkRx]

/-! ## The updates that leave `lan` alone -/

@[simp] theorem State.setCell_lan (k : Nat) (v : DWord) : (s.setCell k v).lan = s.lan := by simp only [State.setCell]
@[simp] theorem State.p_lan (d : Nat) (f : Fld) (v : Nat) : (s.p d f v).lan = s.lan := by simp only [State.p, State.setCell_lan]
@[simp] theorem State.setMbox_lan (d : Nat) (c : MboxSt) : (s.setMbox d c).lan = s.lan := by simp only [State.setMbox]
@[simp] theorem State.setDsub_lan (k : Nat) (x : DSub) : (s.setDsub k x).lan = s.lan := by simp only [State.setDsub]
@[simp] theorem State.setWarm_lan (d : Nat) (x : WarmSt) : (s.setWarm d x).lan = s.lan := by simp only [State.setWarm]
@[simp] theorem State.setLut_lan (d k : Nat) (v : DWord) : (s.setLut d k v).lan = s.lan := by simp only [State.setLut]
@[simp] theorem State.setFifo_lan (d n : Nat) (x : Pfifo) : (s.setFifo d n x).lan = s.lan := by simp only [State.setFifo, State.p_lan]
@[simp] theorem State.setDmWord_lan (d i w : Nat) (x : BWord) : (s.setDmWord d i w x).lan = s.lan := by simp only [State.setDmWord]
@[simp] theorem State.setNhop_lan (d i : Nat) (x : Word) : (s.setNhop d i x).lan = s.lan := by simp only [State.setNhop, State.setPen]
@[simp] theorem State.setYout_lan (d : Nat) (x : List Frame) : (s.setYout d x).lan = s.lan := by simp only [State.setYout, State.setPen]
@[simp] theorem State.setXing_lan (k : Nat) (v : XingSt) : (s.setXing k v).lan = s.lan := by simp only [State.setXing]
@[simp] theorem State.setSeState_lan (d i v : Nat) : (s.setSeState d i v).lan = s.lan := by simp only [State.setSeState, State.p_lan]
@[simp] theorem State.setSnt_lan (d : Nat) (c : SntSt) : (s.setSnt d c).lan = s.lan := by simp only [State.setSnt]
@[simp] theorem State.setBankSt_lan (B : Nat) (x : BankSt) : (s.setBankSt B x).lan = s.lan := by simp only [State.setBankSt]
@[simp] theorem State.setDynMark_lan (d fa : Nat) (v : Bool) : (s.setDynMark d fa v).lan = s.lan := by simp only [State.setDynMark]
@[simp] theorem State.setPins_lan (d : Nat) (x : PinMode) : (s.setPins d x).lan = s.lan := by simp only [State.setPins]
@[simp] theorem State.setSnap_lan (d : Nat) (x : Snap) : (s.setSnap d x).lan = s.lan := by simp only [State.setSnap]
@[simp] theorem State.setEng_lan (d i : Nat) (e : SEng) : (s.setEng d i e).lan = s.lan := by simp only [State.setEng, State.p_lan]
@[simp] theorem State.setWindow_lan (t i : Nat) (x : Bool) : (s.setWindow t i x).lan = s.lan :=
  by simp only [State.setWindow, State.setPen]
@[simp] theorem State.setRingAck_lan (d r : Nat) (x : Option Resp) : (s.setRingAck d r x).lan = s.lan :=
  by simp only [State.setRingAck, State.setPen]
@[simp] theorem State.setSec_lan (x : SecSt) : (s.setSec x).lan = s.lan := by simp only [State.setSec]
@[simp] theorem State.setTestLeft_lan (d n : Nat) : (s.setTestLeft d n).lan = s.lan := by simp only [State.setTestLeft]
@[simp] theorem State.clrBit_lan (d : Nat) (f : Fld) (n : Nat) : (s.clrBit d f n).lan = s.lan := by simp only [State.clrBit, State.p_lan]
@[simp] theorem State.setEv_lan (r n : Nat) (c : EvSrc) : (s.setEv r n c).lan = s.lan := by simp only [State.setEv]
@[simp] theorem State.setFrameWord_lan (d fa w : Nat) (v : DWord) : (s.setFrameWord d fa w v).lan = s.lan :=
  by simp only [State.setFrameWord]
@[simp] theorem State.setFlash_lan (f : FlashSt) : (s.setFlash f).lan = s.lan := by simp only [State.setFlash]
@[simp] theorem State.setBmem_lan (d k : Nat) (x : Bmem) : (s.setBmem d k x).lan = s.lan := by simp only [State.setBmem]
@[simp] theorem State.setPr_lan (d r : Nat) (x : PrSt) : (s.setPr d r x).lan = s.lan := by simp only [State.setPr]
@[simp] theorem State.setPenDie_lan (d : Nat) (x : PenDie) : (s.setPenDie d x).lan = s.lan :=
  by simp only [State.setPenDie, State.setPen, State.p_lan]
@[simp] theorem State.setDrr_lan (d e : Nat) (x : DrrSt) : (s.setDrr d e x).lan = s.lan := by simp only [State.setDrr, State.setPen]
@[simp] theorem State.setNet_lan (rid tag : Nat) (x : Option NetReq) : (s.setNet rid tag x).lan = s.lan := by simp only [State.setNet]
@[simp] theorem State.setCapsIn_lan (d e : Nat) (x : CapsIn) : (s.setCapsIn d e x).lan = s.lan := by simp only [State.setCapsIn]
@[simp] theorem State.setCk_lan (d i : Nat) (c : CkMux2) : (s.setCk d i c).lan = s.lan := by simp only [State.setCk]
@[simp] theorem State.setTrainCopy_lan (ch : Nat) (x : Bool) : (s.setTrainCopy ch x).lan = s.lan := by simp only [State.setTrainCopy]
@[simp] theorem State.setHeld_lan (d : Nat) (x : List (Nat × Word)) : (s.setHeld d x).lan = s.lan := by simp only [State.setHeld]
@[simp] theorem State.setChain_lan (d k : Nat) (x : ChainSt) : (s.setChain d k x).lan = s.lan := by simp only [State.setChain]
@[simp] theorem State.setKslot_lan (d k : Nat) (x : Kslot) : (s.setKslot d k x).lan = s.lan := by simp only [State.setKslot, State.p_lan]
@[simp] theorem State.setPmWord_lan (d i n : Nat) (x : BitVec 39) : (s.setPmWord d i n x).lan = s.lan := by simp only [State.setPmWord]
@[simp] theorem State.setPaused_lan (d e q : Nat) (x : Bool) : (s.setPaused d e q x).lan = s.lan :=
  by simp only [State.setPaused, State.setPen]
@[simp] theorem State.setCopy_lan (q line : Nat) (x : Option CLine) : (s.setCopy q line x).lan = s.lan := by simp only [State.setCopy]
@[simp] theorem State.setLinkTx_lan (d e m : Nat) (x : LinkTx) : (s.setLinkTx d e m x).lan = s.lan := by simp only [State.setLinkTx]
@[simp] theorem State.setCore_lan (d c v : Nat) : (s.setCore d c v).lan = s.lan := by simp only [State.setCore, State.p_lan]
@[simp] theorem State.setLad_lan (d : Nat) (c : LadSt) : (s.setLad d c).lan = s.lan := by simp only [State.setLad]
@[simp] theorem State.setDcell_lan (ch w : Nat) (x : DCell) : (s.setDcell ch w x).lan = s.lan := by simp only [State.setDcell]
@[simp] theorem State.setCfg_lan (c : CfgSt) : (s.setCfg c).lan = s.lan := by simp only [State.setCfg]
@[simp] theorem State.setFf_lan (d k : Nat) (v : Bool) : (s.setFf d k v).lan = s.lan := by simp only [State.setFf]
@[simp] theorem State.setRb_lan (d : Nat) (x : Option RbSt) : (s.setRb d x).lan = s.lan := by simp only [State.setRb]
@[simp] theorem State.setSeLate_lan (d i : Nat) (l : List SeLate) : (s.setSeLate d i l).lan = s.lan := by simp only [State.setSeLate]
@[simp] theorem State.setVlanWord_lan (d v w : Nat) (x : Word) : (s.setVlanWord d v w x).lan = s.lan :=
  by simp only [State.setVlanWord, State.setPen]
@[simp] theorem State.setAir_lan (d e : Nat) (x : List TrunkFrame) : (s.setAir d e x).lan = s.lan :=
  by simp only [State.setAir, State.setPen]
@[simp] theorem State.setFuses_lan (x : Fuses) : (s.setFuses x).lan = s.lan := by simp only [State.setFuses]
@[simp] theorem State.setEdge_lan (d e v : Nat) : (s.setEdge d e v).lan = s.lan := by simp only [State.setEdge, State.p_lan]
@[simp] theorem State.setClk_lan (d : Nat) (c : ClkSt) : (s.setClk d c).lan = s.lan := by simp only [State.setClk]
@[simp] theorem State.setBankWord_lan (B w : Nat) (x : BWord) : (s.setBankWord B w x).lan = s.lan := by simp only [State.setBankWord]
@[simp] theorem State.setSig_lan (d fa : Nat) (v : Word) : (s.setSig d fa v).lan = s.lan := by simp only [State.setSig]
@[simp] theorem State.setDesign_lan (d : Nat) (x : DieDesign) : (s.setDesign d x).lan = s.lan := by simp only [State.setDesign]
@[simp] theorem State.setArith_lan (d k : Nat) (x : Arith) : (s.setArith d k x).lan = s.lan := by simp only [State.setArith]
@[simp] theorem State.setSeu_lan (d : Nat) (x : List SeuEnt) : (s.setSeu d x).lan = s.lan := by simp only [State.setSeu, State.p_lan]
@[simp] theorem State.setL2_lan (t i : Nat) (x : Option L2Ent) : (s.setL2 t i x).lan = s.lan := by simp only [State.setL2, State.setPen]
@[simp] theorem State.setHello_lan (d p : Nat) (x : HelloSt) : (s.setHello d p x).lan = s.lan :=
  by simp only [State.setHello, State.setPen]
@[simp] theorem State.setHart_lan (k : Nat) (x : HartSt) : (s.setHart k x).lan = s.lan := by simp only [State.setHart]
@[simp] theorem State.setRawRx_lan (d : Nat) (l : List (List Byte)) : (s.setRawRx d l).lan = s.lan := by simp only [State.setRawRx]
@[simp] theorem State.setBit_lan (d : Nat) (f : Fld) (n : Nat) : (s.setBit d f n).lan = s.lan := by simp only [State.setBit, State.p_lan]
@[simp] theorem State.setMon_lan (d m : Nat) (c : MonWin) : (s.setMon d m c).lan = s.lan := by simp only [State.setMon]
@[simp] theorem State.setMee_lan (ch : Nat) (x : MeeSt) : (s.setMee ch x).lan = s.lan := by simp only [State.setMee]
@[simp] theorem State.setParse_lan (p : ParseSt) : (s.setParse p).lan = s.lan := by simp only [State.setParse]
@[simp] theorem State.setIo_lan (d p : Nat) (x : IoCell) : (s.setIo d p x).lan = s.lan := by simp only [State.setIo]
@[simp] theorem State.setNport_lan (d p : Nat) (x : Nport) : (s.setNport d p x).lan = s.lan := by simp only [State.setNport]
@[simp] theorem State.setPen_lan (x : PenSt) : (s.setPen x).lan = s.lan := by simp only [State.setPen]
@[simp] theorem State.setDeficit_lan (d e q x : Nat) : (s.setDeficit d e q x).lan = s.lan := by simp only [State.setDeficit, State.setPen]
@[simp] theorem State.setDir_lan (line : Nat) (x : Option DirEnt) : (s.setDir line x).lan = s.lan := by simp only [State.setDir]
@[simp] theorem State.setLinkRx_lan (d e m : Nat) (x : LinkRx) : (s.setLinkRx d e m x).lan = s.lan := by simp only [State.setLinkRx]

/-! ## The updates that leave `pen` alone -/

@[simp] theorem State.setCell_pen (k : Nat) (v : DWord) : (s.setCell k v).pen = s.pen := by simp only [State.setCell]
@[simp] theorem State.p_pen (d : Nat) (f : Fld) (v : Nat) : (s.p d f v).pen = s.pen := by simp only [State.p, State.setCell_pen]
@[simp] theorem State.setMbox_pen (d : Nat) (c : MboxSt) : (s.setMbox d c).pen = s.pen := by simp only [State.setMbox]
@[simp] theorem State.setDsub_pen (k : Nat) (x : DSub) : (s.setDsub k x).pen = s.pen := by simp only [State.setDsub]
@[simp] theorem State.setWarm_pen (d : Nat) (x : WarmSt) : (s.setWarm d x).pen = s.pen := by simp only [State.setWarm]
@[simp] theorem State.setLut_pen (d k : Nat) (v : DWord) : (s.setLut d k v).pen = s.pen := by simp only [State.setLut]
@[simp] theorem State.setFifo_pen (d n : Nat) (x : Pfifo) : (s.setFifo d n x).pen = s.pen := by simp only [State.setFifo, State.p_pen]
@[simp] theorem State.setDmWord_pen (d i w : Nat) (x : BWord) : (s.setDmWord d i w x).pen = s.pen := by simp only [State.setDmWord]
@[simp] theorem State.setNet_pen (rid tag : Nat) (x : Option NetReq) : (s.setNet rid tag x).pen = s.pen := by simp only [State.setNet]
@[simp] theorem State.setCapsIn_pen (d e : Nat) (x : CapsIn) : (s.setCapsIn d e x).pen = s.pen := by simp only [State.setCapsIn]
@[simp] theorem State.setCk_pen (d i : Nat) (c : CkMux2) : (s.setCk d i c).pen = s.pen := by simp only [State.setCk]
@[simp] theorem State.setTrainCopy_pen (ch : Nat) (x : Bool) : (s.setTrainCopy ch x).pen = s.pen := by simp only [State.setTrainCopy]
@[simp] theorem State.setHeld_pen (d : Nat) (x : List (Nat × Word)) : (s.setHeld d x).pen = s.pen := by simp only [State.setHeld]
@[simp] theorem State.setChain_pen (d k : Nat) (x : ChainSt) : (s.setChain d k x).pen = s.pen := by simp only [State.setChain]
@[simp] theorem State.setKslot_pen (d k : Nat) (x : Kslot) : (s.setKslot d k x).pen = s.pen := by simp only [State.setKslot, State.p_pen]
@[simp] theorem State.setPmWord_pen (d i n : Nat) (x : BitVec 39) : (s.setPmWord d i n x).pen = s.pen := by simp only [State.setPmWord]
@[simp] theorem State.setHart_pen (k : Nat) (x : HartSt) : (s.setHart k x).pen = s.pen := by simp only [State.setHart]
@[simp] theorem State.setRawRx_pen (d : Nat) (l : List (List Byte)) : (s.setRawRx d l).pen = s.pen := by simp only [State.setRawRx]
@[simp] theorem State.setBit_pen (d : Nat) (f : Fld) (n : Nat) : (s.setBit d f n).pen = s.pen := by simp only [State.setBit, State.p_pen]
@[simp] theorem State.setMon_pen (d m : Nat) (c : MonWin) : (s.setMon d m c).pen = s.pen := by simp only [State.setMon]
@[simp] theorem State.setMee_pen (ch : Nat) (x : MeeSt) : (s.setMee ch x).pen = s.pen := by simp only [State.setMee]
@[simp] theorem State.setParse_pen (p : ParseSt) : (s.setParse p).pen = s.pen := by simp only [State.setParse]
@[simp] theorem State.setIo_pen (d p : Nat) (x : IoCell) : (s.setIo d p x).pen = s.pen := by simp only [State.setIo]
@[simp] theorem State.setNport_pen (d p : Nat) (x : Nport) : (s.setNport d p x).pen = s.pen := by simp only [State.setNport]
@[simp] theorem State.setLane_pen (d n : Nat) (x : LaneSt) : (s.setLane d n x).pen = s.pen := by simp only [State.setLane]
@[simp] theorem State.setSec_pen (x : SecSt) : (s.setSec x).pen = s.pen := by simp only [State.setSec]
@[simp] theorem State.setTestLeft_pen (d n : Nat) : (s.setTestLeft d n).pen = s.pen := by simp only [State.setTestLeft]
@[simp] theorem State.clrBit_pen (d : Nat) (f : Fld) (n : Nat) : (s.clrBit d f n).pen = s.pen := by simp only [State.clrBit, State.p_pen]
@[simp] theorem State.setEv_pen (r n : Nat) (c : EvSrc) : (s.setEv r n c).pen = s.pen := by simp only [State.setEv]
@[simp] theorem State.setFrameWord_pen (d fa w : Nat) (v : DWord) : (s.setFrameWord d fa w v).pen = s.pen :=
  by simp only [State.setFrameWord]
@[simp] theorem State.setFlash_pen (f : FlashSt) : (s.setFlash f).pen = s.pen := by simp only [State.setFlash]
@[simp] theorem State.setBmem_pen (d k : Nat) (x : Bmem) : (s.setBmem d k x).pen = s.pen := by simp only [State.setBmem]
@[simp] theorem State.setPr_pen (d r : Nat) (x : PrSt) : (s.setPr d r x).pen = s.pen := by simp only [State.setPr]
@[simp] theorem State.setPair_pen (d k : Nat) (x : PairSt) : (s.setPair d k x).pen = s.pen := by simp only [State.setPair]
@[simp] theorem State.setFuses_pen (x : Fuses) : (s.setFuses x).pen = s.pen := by simp only [State.setFuses]
@[simp] theorem State.setEdge_pen (d e v : Nat) : (s.setEdge d e v).pen = s.pen := by simp only [State.setEdge, State.p_pen]
@[simp] theorem State.setClk_pen (d : Nat) (c : ClkSt) : (s.setClk d c).pen = s.pen := by simp only [State.setClk]
@[simp] theorem State.setBankWord_pen (B w : Nat) (x : BWord) : (s.setBankWord B w x).pen = s.pen := by simp only [State.setBankWord]
@[simp] theorem State.setSig_pen (d fa : Nat) (v : Word) : (s.setSig d fa v).pen = s.pen := by simp only [State.setSig]
@[simp] theorem State.setDesign_pen (d : Nat) (x : DieDesign) : (s.setDesign d x).pen = s.pen := by simp only [State.setDesign]
@[simp] theorem State.setArith_pen (d k : Nat) (x : Arith) : (s.setArith d k x).pen = s.pen := by simp only [State.setArith]
@[simp] theorem State.setSeu_pen (d : Nat) (x : List SeuEnt) : (s.setSeu d x).pen = s.pen := by simp only [State.setSeu, State.p_pen]
@[simp] theorem State.setQclk_pen (d q hz : Nat) : (s.setQclk d q hz).pen = s.pen := by simp only [State.setQclk]
@[simp] theorem State.setXing_pen (k : Nat) (v : XingSt) : (s.setXing k v).pen = s.pen := by simp only [State.setXing]
@[simp] theorem State.setSeState_pen (d i v : Nat) : (s.setSeState d i v).pen = s.pen := by simp only [State.setSeState, State.p_pen]
@[simp] theorem State.setSnt_pen (d : Nat) (c : SntSt) : (s.setSnt d c).pen = s.pen := by simp only [State.setSnt]
@[simp] theorem State.setBankSt_pen (B : Nat) (x : BankSt) : (s.setBankSt B x).pen = s.pen := by simp only [State.setBankSt]
@[simp] theorem State.setDynMark_pen (d fa : Nat) (v : Bool) : (s.setDynMark d fa v).pen = s.pen := by simp only [State.setDynMark]
@[simp] theorem State.setPins_pen (d : Nat) (x : PinMode) : (s.setPins d x).pen = s.pen := by simp only [State.setPins]
@[simp] theorem State.setSnap_pen (d : Nat) (x : Snap) : (s.setSnap d x).pen = s.pen := by simp only [State.setSnap]
@[simp] theorem State.setEng_pen (d i : Nat) (e : SEng) : (s.setEng d i e).pen = s.pen := by simp only [State.setEng, State.p_pen]
@[simp] theorem State.setCopy_pen (q line : Nat) (x : Option CLine) : (s.setCopy q line x).pen = s.pen := by simp only [State.setCopy]
@[simp] theorem State.setLinkTx_pen (d e m : Nat) (x : LinkTx) : (s.setLinkTx d e m x).pen = s.pen := by simp only [State.setLinkTx]
@[simp] theorem State.setCore_pen (d c v : Nat) : (s.setCore d c v).pen = s.pen := by simp only [State.setCore, State.p_pen]
@[simp] theorem State.setLad_pen (d : Nat) (c : LadSt) : (s.setLad d c).pen = s.pen := by simp only [State.setLad]
@[simp] theorem State.setDcell_pen (ch w : Nat) (x : DCell) : (s.setDcell ch w x).pen = s.pen := by simp only [State.setDcell]
@[simp] theorem State.setCfg_pen (c : CfgSt) : (s.setCfg c).pen = s.pen := by simp only [State.setCfg]
@[simp] theorem State.setFf_pen (d k : Nat) (v : Bool) : (s.setFf d k v).pen = s.pen := by simp only [State.setFf]
@[simp] theorem State.setRb_pen (d : Nat) (x : Option RbSt) : (s.setRb d x).pen = s.pen := by simp only [State.setRb]
@[simp] theorem State.setSeLate_pen (d i : Nat) (l : List SeLate) : (s.setSeLate d i l).pen = s.pen := by simp only [State.setSeLate]
@[simp] theorem State.setDir_pen (line : Nat) (x : Option DirEnt) : (s.setDir line x).pen = s.pen := by simp only [State.setDir]
@[simp] theorem State.setLinkRx_pen (d e m : Nat) (x : LinkRx) : (s.setLinkRx d e m x).pen = s.pen := by simp only [State.setLinkRx]

/-! ## The updates that leave `sec` alone -/

@[simp] theorem State.setCell_sec (k : Nat) (v : DWord) : (s.setCell k v).sec = s.sec := by simp only [State.setCell]
@[simp] theorem State.p_sec (d : Nat) (f : Fld) (v : Nat) : (s.p d f v).sec = s.sec := by simp only [State.p, State.setCell_sec]
@[simp] theorem State.setMbox_sec (d : Nat) (c : MboxSt) : (s.setMbox d c).sec = s.sec := by simp only [State.setMbox]
@[simp] theorem State.setDsub_sec (k : Nat) (x : DSub) : (s.setDsub k x).sec = s.sec := by simp only [State.setDsub]
@[simp] theorem State.setWarm_sec (d : Nat) (x : WarmSt) : (s.setWarm d x).sec = s.sec := by simp only [State.setWarm]
@[simp] theorem State.setLut_sec (d k : Nat) (v : DWord) : (s.setLut d k v).sec = s.sec := by simp only [State.setLut]
@[simp] theorem State.setFifo_sec (d n : Nat) (x : Pfifo) : (s.setFifo d n x).sec = s.sec := by simp only [State.setFifo, State.p_sec]
@[simp] theorem State.setDmWord_sec (d i w : Nat) (x : BWord) : (s.setDmWord d i w x).sec = s.sec := by simp only [State.setDmWord]
@[simp] theorem State.setL2_sec (t i : Nat) (x : Option L2Ent) : (s.setL2 t i x).sec = s.sec := by simp only [State.setL2, State.setPen]
@[simp] theorem State.setHello_sec (d p : Nat) (x : HelloSt) : (s.setHello d p x).sec = s.sec :=
  by simp only [State.setHello, State.setPen]
@[simp] theorem State.setHart_sec (k : Nat) (x : HartSt) : (s.setHart k x).sec = s.sec := by simp only [State.setHart]
@[simp] theorem State.setEdge_sec (d e v : Nat) : (s.setEdge d e v).sec = s.sec := by simp only [State.setEdge, State.p_sec]
@[simp] theorem State.setClk_sec (d : Nat) (c : ClkSt) : (s.setClk d c).sec = s.sec := by simp only [State.setClk]
@[simp] theorem State.setBankWord_sec (B w : Nat) (x : BWord) : (s.setBankWord B w x).sec = s.sec := by simp only [State.setBankWord]
@[simp] theorem State.setSig_sec (d fa : Nat) (v : Word) : (s.setSig d fa v).sec = s.sec := by simp only [State.setSig]
@[simp] theorem State.setDesign_sec (d : Nat) (x : DieDesign) : (s.setDesign d x).sec = s.sec := by simp only [State.setDesign]
@[simp] theorem State.setArith_sec (d k : Nat) (x : Arith) : (s.setArith d k x).sec = s.sec := by simp only [State.setArith]
@[simp] theorem State.setSeu_sec (d : Nat) (x : List SeuEnt) : (s.setSeu d x).sec = s.sec := by simp only [State.setSeu, State.p_sec]
@[simp] theorem State.setQclk_sec (d q hz : Nat) : (s.setQclk d q hz).sec = s.sec := by simp only [State.setQclk]
@[simp] theorem State.setPaused_sec (d e q : Nat) (x : Bool) : (s.setPaused d e q x).sec = s.sec :=
  by simp only [State.setPaused, State.setPen]
@[simp] theorem State.setCopy_sec (q line : Nat) (x : Option CLine) : (s.setCopy q line x).sec = s.sec := by simp only [State.setCopy]
@[simp] theorem State.setCapsIn_sec (d e : Nat) (x : CapsIn) : (s.setCapsIn d e x).sec = s.sec := by simp only [State.setCapsIn]
@[simp] theorem State.setCk_sec (d i : Nat) (c : CkMux2) : (s.setCk d i c).sec = s.sec := by simp only [State.setCk]
@[simp] theorem State.setTrainCopy_sec (ch : Nat) (x : Bool) : (s.setTrainCopy ch x).sec = s.sec := by simp only [State.setTrainCopy]
@[simp] theorem State.setHeld_sec (d : Nat) (x : List (Nat × Word)) : (s.setHeld d x).sec = s.sec := by simp only [State.setHeld]
@[simp] theorem State.setChain_sec (d k : Nat) (x : ChainSt) : (s.setChain d k x).sec = s.sec := by simp only [State.setChain]
@[simp] theorem State.setKslot_sec (d k : Nat) (x : Kslot) : (s.setKslot d k x).sec = s.sec := by simp only [State.setKslot, State.p_sec]
@[simp] theorem State.setPmWord_sec (d i n : Nat) (x : BitVec 39) : (s.setPmWord d i n x).sec = s.sec := by simp only [State.setPmWord]
@[simp] theorem State.setWindow_sec (t i : Nat) (x : Bool) : (s.setWindow t i x).sec = s.sec :=
  by simp only [State.setWindow, State.setPen]
@[simp] theorem State.setRingAck_sec (d r : Nat) (x : Option Resp) : (s.setRingAck d r x).sec = s.sec :=
  by simp only [State.setRingAck, State.setPen]
@[simp] theorem State.setXing_sec (k : Nat) (v : XingSt) : (s.setXing k v).sec = s.sec := by simp only [State.setXing]
@[simp] theorem State.setSeState_sec (d i v : Nat) : (s.setSeState d i v).sec = s.sec := by simp only [State.setSeState, State.p_sec]
@[simp] theorem State.setSnt_sec (d : Nat) (c : SntSt) : (s.setSnt d c).sec = s.sec := by simp only [State.setSnt]
@[simp] theorem State.setBankSt_sec (B : Nat) (x : BankSt) : (s.setBankSt B x).sec = s.sec := by simp only [State.setBankSt]
@[simp] theorem State.setDynMark_sec (d fa : Nat) (v : Bool) : (s.setDynMark d fa v).sec = s.sec := by simp only [State.setDynMark]
@[simp] theorem State.setPins_sec (d : Nat) (x : PinMode) : (s.setPins d x).sec = s.sec := by simp only [State.setPins]
@[simp] theorem State.setSnap_sec (d : Nat) (x : Snap) : (s.setSnap d x).sec = s.sec := by simp only [State.setSnap]
@[simp] theorem State.setEng_sec (d i : Nat) (e : SEng) : (s.setEng d i e).sec = s.sec := by simp only [State.setEng, State.p_sec]
@[simp] theorem State.setPen_sec (x : PenSt) : (s.setPen x).sec = s.sec := by simp only [State.setPen]
@[simp] theorem State.setDeficit_sec (d e q x : Nat) : (s.setDeficit d e q x).sec = s.sec := by simp only [State.setDeficit, State.setPen]
@[simp] theorem State.setDir_sec (line : Nat) (x : Option DirEnt) : (s.setDir line x).sec = s.sec := by simp only [State.setDir]
@[simp] theorem State.setRawRx_sec (d : Nat) (l : List (List Byte)) : (s.setRawRx d l).sec = s.sec := by simp only [State.setRawRx]
@[simp] theorem State.setBit_sec (d : Nat) (f : Fld) (n : Nat) : (s.setBit d f n).sec = s.sec := by simp only [State.setBit, State.p_sec]
@[simp] theorem State.setMon_sec (d m : Nat) (c : MonWin) : (s.setMon d m c).sec = s.sec := by simp only [State.setMon]
@[simp] theorem State.setMee_sec (ch : Nat) (x : MeeSt) : (s.setMee ch x).sec = s.sec := by simp only [State.setMee]
@[simp] theorem State.setParse_sec (p : ParseSt) : (s.setParse p).sec = s.sec := by simp only [State.setParse]
@[simp] theorem State.setIo_sec (d p : Nat) (x : IoCell) : (s.setIo d p x).sec = s.sec := by simp only [State.setIo]
@[simp] theorem State.setNport_sec (d p : Nat) (x : Nport) : (s.setNport d p x).sec = s.sec := by simp only [State.setNport]
@[simp] theorem State.setLane_sec (d n : Nat) (x : LaneSt) : (s.setLane d n x).sec = s.sec := by simp only [State.setLane]
@[simp] theorem State.setVlanWord_sec (d v w : Nat) (x : Word) : (s.setVlanWord d v w x).sec = s.sec :=
  by simp only [State.setVlanWord, State.setPen]
@[simp] theorem State.setAir_sec (d e : Nat) (x : List TrunkFrame) : (s.setAir d e x).sec = s.sec :=
  by simp only [State.setAir, State.setPen]
@[simp] theorem State.setLinkTx_sec (d e m : Nat) (x : LinkTx) : (s.setLinkTx d e m x).sec = s.sec := by simp only [State.setLinkTx]
@[simp] theorem State.setCore_sec (d c v : Nat) : (s.setCore d c v).sec = s.sec := by simp only [State.setCore, State.p_sec]
@[simp] theorem State.setLad_sec (d : Nat) (c : LadSt) : (s.setLad d c).sec = s.sec := by simp only [State.setLad]
@[simp] theorem State.setDcell_sec (ch w : Nat) (x : DCell) : (s.setDcell ch w x).sec = s.sec := by simp only [State.setDcell]
@[simp] theorem State.setCfg_sec (c : CfgSt) : (s.setCfg c).sec = s.sec := by simp only [State.setCfg]
@[simp] theorem State.setFf_sec (d k : Nat) (v : Bool) : (s.setFf d k v).sec = s.sec := by simp only [State.setFf]
@[simp] theorem State.setRb_sec (d : Nat) (x : Option RbSt) : (s.setRb d x).sec = s.sec := by simp only [State.setRb]
@[simp] theorem State.setSeLate_sec (d i : Nat) (l : List SeLate) : (s.setSeLate d i l).sec = s.sec := by simp only [State.setSeLate]
@[simp] theorem State.setPenDie_sec (d : Nat) (x : PenDie) : (s.setPenDie d x).sec = s.sec :=
  by simp only [State.setPenDie, State.setPen, State.p_sec]
@[simp] theorem State.setDrr_sec (d e : Nat) (x : DrrSt) : (s.setDrr d e x).sec = s.sec := by simp only [State.setDrr, State.setPen]
@[simp] theorem State.setNet_sec (rid tag : Nat) (x : Option NetReq) : (s.setNet rid tag x).sec = s.sec := by simp only [State.setNet]
@[simp] theorem State.setTestLeft_sec (d n : Nat) : (s.setTestLeft d n).sec = s.sec := by simp only [State.setTestLeft]
@[simp] theorem State.clrBit_sec (d : Nat) (f : Fld) (n : Nat) : (s.clrBit d f n).sec = s.sec := by simp only [State.clrBit, State.p_sec]
@[simp] theorem State.setEv_sec (r n : Nat) (c : EvSrc) : (s.setEv r n c).sec = s.sec := by simp only [State.setEv]
@[simp] theorem State.setFrameWord_sec (d fa w : Nat) (v : DWord) : (s.setFrameWord d fa w v).sec = s.sec :=
  by simp only [State.setFrameWord]
@[simp] theorem State.setFlash_sec (f : FlashSt) : (s.setFlash f).sec = s.sec := by simp only [State.setFlash]
@[simp] theorem State.setBmem_sec (d k : Nat) (x : Bmem) : (s.setBmem d k x).sec = s.sec := by simp only [State.setBmem]
@[simp] theorem State.setPr_sec (d r : Nat) (x : PrSt) : (s.setPr d r x).sec = s.sec := by simp only [State.setPr]
@[simp] theorem State.setPair_sec (d k : Nat) (x : PairSt) : (s.setPair d k x).sec = s.sec := by simp only [State.setPair]
@[simp] theorem State.setNhop_sec (d i : Nat) (x : Word) : (s.setNhop d i x).sec = s.sec := by simp only [State.setNhop, State.setPen]
@[simp] theorem State.setYout_sec (d : Nat) (x : List Frame) : (s.setYout d x).sec = s.sec := by simp only [State.setYout, State.setPen]
@[simp] theorem State.setLinkRx_sec (d e m : Nat) (x : LinkRx) : (s.setLinkRx d e m x).sec = s.sec := by simp only [State.setLinkRx]

/-! ## The updates that leave `harts` alone -/

@[simp] theorem State.setCell_harts (k : Nat) (v : DWord) : (s.setCell k v).harts = s.harts := by simp only [State.setCell]
@[simp] theorem State.p_harts (d : Nat) (f : Fld) (v : Nat) : (s.p d f v).harts = s.harts := by simp only [State.p, State.setCell_harts]
@[simp] theorem State.setMbox_harts (d : Nat) (c : MboxSt) : (s.setMbox d c).harts = s.harts := by simp only [State.setMbox]
@[simp] theorem State.setDsub_harts (k : Nat) (x : DSub) : (s.setDsub k x).harts = s.harts := by simp only [State.setDsub]
@[simp] theorem State.setWarm_harts (d : Nat) (x : WarmSt) : (s.setWarm d x).harts = s.harts := by simp only [State.setWarm]
@[simp] theorem State.setLut_harts (d k : Nat) (v : DWord) : (s.setLut d k v).harts = s.harts := by simp only [State.setLut]
@[simp] theorem State.setFifo_harts (d n : Nat) (x : Pfifo) : (s.setFifo d n x).harts = s.harts :=
  by simp only [State.setFifo, State.p_harts]
@[simp] theorem State.setDmWord_harts (d i w : Nat) (x : BWord) : (s.setDmWord d i w x).harts = s.harts := by simp only [State.setDmWord]
@[simp] theorem State.setL2_harts (t i : Nat) (x : Option L2Ent) : (s.setL2 t i x).harts = s.harts :=
  by simp only [State.setL2, State.setPen]
@[simp] theorem State.setHello_harts (d p : Nat) (x : HelloSt) : (s.setHello d p x).harts = s.harts :=
  by simp only [State.setHello, State.setPen]
@[simp] theorem State.setSec_harts (x : SecSt) : (s.setSec x).harts = s.harts := by simp only [State.setSec]
@[simp] theorem State.setTestLeft_harts (d n : Nat) : (s.setTestLeft d n).harts = s.harts := by simp only [State.setTestLeft]
@[simp] theorem State.clrBit_harts (d : Nat) (f : Fld) (n : Nat) : (s.clrBit d f n).harts = s.harts :=
  by simp only [State.clrBit, State.p_harts]
@[simp] theorem State.setEv_harts (r n : Nat) (c : EvSrc) : (s.setEv r n c).harts = s.harts := by simp only [State.setEv]
@[simp] theorem State.setFrameWord_harts (d fa w : Nat) (v : DWord) : (s.setFrameWord d fa w v).harts = s.harts :=
  by simp only [State.setFrameWord]
@[simp] theorem State.setFlash_harts (f : FlashSt) : (s.setFlash f).harts = s.harts := by simp only [State.setFlash]
@[simp] theorem State.setBmem_harts (d k : Nat) (x : Bmem) : (s.setBmem d k x).harts = s.harts := by simp only [State.setBmem]
@[simp] theorem State.setPr_harts (d r : Nat) (x : PrSt) : (s.setPr d r x).harts = s.harts := by simp only [State.setPr]
@[simp] theorem State.setPair_harts (d k : Nat) (x : PairSt) : (s.setPair d k x).harts = s.harts := by simp only [State.setPair]
@[simp] theorem State.setNhop_harts (d i : Nat) (x : Word) : (s.setNhop d i x).harts = s.harts :=
  by simp only [State.setNhop, State.setPen]
@[simp] theorem State.setYout_harts (d : Nat) (x : List Frame) : (s.setYout d x).harts = s.harts :=
  by simp only [State.setYout, State.setPen]
@[simp] theorem State.setLinkTx_harts (d e m : Nat) (x : LinkTx) : (s.setLinkTx d e m x).harts = s.harts := by simp only [State.setLinkTx]
@[simp] theorem State.setCore_harts (d c v : Nat) : (s.setCore d c v).harts = s.harts := by simp only [State.setCore, State.p_harts]
@[simp] theorem State.setLad_harts (d : Nat) (c : LadSt) : (s.setLad d c).harts = s.harts := by simp only [State.setLad]
@[simp] theorem State.setDcell_harts (ch w : Nat) (x : DCell) : (s.setDcell ch w x).harts = s.harts := by simp only [State.setDcell]
@[simp] theorem State.setCfg_harts (c : CfgSt) : (s.setCfg c).harts = s.harts := by simp only [State.setCfg]
@[simp] theorem State.setFf_harts (d k : Nat) (v : Bool) : (s.setFf d k v).harts = s.harts := by simp only [State.setFf]
@[simp] theorem State.setRb_harts (d : Nat) (x : Option RbSt) : (s.setRb d x).harts = s.harts := by simp only [State.setRb]
@[simp] theorem State.setSeLate_harts (d i : Nat) (l : List SeLate) : (s.setSeLate d i l).harts = s.harts := by simp only [State.setSeLate]
@[simp] theorem State.setPenDie_harts (d : Nat) (x : PenDie) : (s.setPenDie d x).harts = s.harts :=
  by simp only [State.setPenDie, State.setPen, State.p_harts]
@[simp] theorem State.setDrr_harts (d e : Nat) (x : DrrSt) : (s.setDrr d e x).harts = s.harts := by simp only [State.setDrr, State.setPen]
@[simp] theorem State.setNet_harts (rid tag : Nat) (x : Option NetReq) : (s.setNet rid tag x).harts = s.harts :=
  by simp only [State.setNet]
@[simp] theorem State.setRawRx_harts (d : Nat) (l : List (List Byte)) : (s.setRawRx d l).harts = s.harts := by simp only [State.setRawRx]
@[simp] theorem State.setBit_harts (d : Nat) (f : Fld) (n : Nat) : (s.setBit d f n).harts = s.harts :=
  by simp only [State.setBit, State.p_harts]
@[simp] theorem State.setMon_harts (d m : Nat) (c : MonWin) : (s.setMon d m c).harts = s.harts := by simp only [State.setMon]
@[simp] theorem State.setMee_harts (ch : Nat) (x : MeeSt) : (s.setMee ch x).harts = s.harts := by simp only [State.setMee]
@[simp] theorem State.setParse_harts (p : ParseSt) : (s.setParse p).harts = s.harts := by simp only [State.setParse]
@[simp] theorem State.setIo_harts (d p : Nat) (x : IoCell) : (s.setIo d p x).harts = s.harts := by simp only [State.setIo]
@[simp] theorem State.setNport_harts (d p : Nat) (x : Nport) : (s.setNport d p x).harts = s.harts := by simp only [State.setNport]
@[simp] theorem State.setLane_harts (d n : Nat) (x : LaneSt) : (s.setLane d n x).harts = s.harts := by simp only [State.setLane]
@[simp] theorem State.setVlanWord_harts (d v w : Nat) (x : Word) : (s.setVlanWord d v w x).harts = s.harts :=
  by simp only [State.setVlanWord, State.setPen]
@[simp] theorem State.setAir_harts (d e : Nat) (x : List TrunkFrame) : (s.setAir d e x).harts = s.harts :=
  by simp only [State.setAir, State.setPen]
@[simp] theorem State.setXing_harts (k : Nat) (v : XingSt) : (s.setXing k v).harts = s.harts := by simp only [State.setXing]
@[simp] theorem State.setSeState_harts (d i v : Nat) : (s.setSeState d i v).harts = s.harts :=
  by simp only [State.setSeState, State.p_harts]
@[simp] theorem State.setSnt_harts (d : Nat) (c : SntSt) : (s.setSnt d c).harts = s.harts := by simp only [State.setSnt]
@[simp] theorem State.setBankSt_harts (B : Nat) (x : BankSt) : (s.setBankSt B x).harts = s.harts := by simp only [State.setBankSt]
@[simp] theorem State.setDynMark_harts (d fa : Nat) (v : Bool) : (s.setDynMark d fa v).harts = s.harts := by simp only [State.setDynMark]
@[simp] theorem State.setPins_harts (d : Nat) (x : PinMode) : (s.setPins d x).harts = s.harts := by simp only [State.setPins]
@[simp] theorem State.setSnap_harts (d : Nat) (x : Snap) : (s.setSnap d x).harts = s.harts := by simp only [State.setSnap]
@[simp] theorem State.setEng_harts (d i : Nat) (e : SEng) : (s.setEng d i e).harts = s.harts := by simp only [State.setEng, State.p_harts]
@[simp] theorem State.setPen_harts (x : PenSt) : (s.setPen x).harts = s.harts := by simp only [State.setPen]
@[simp] theorem State.setDeficit_harts (d e q x : Nat) : (s.setDeficit d e q x).harts = s.harts :=
  by simp only [State.setDeficit, State.setPen]
@[simp] theorem State.setDir_harts (line : Nat) (x : Option DirEnt) : (s.setDir line x).harts = s.harts := by simp only [State.setDir]
@[simp] theorem State.setCapsIn_harts (d e : Nat) (x : CapsIn) : (s.setCapsIn d e x).harts = s.harts := by simp only [State.setCapsIn]
@[simp] theorem State.setCk_harts (d i : Nat) (c : CkMux2) : (s.setCk d i c).harts = s.harts := by simp only [State.setCk]
@[simp] theorem State.setTrainCopy_harts (ch : Nat) (x : Bool) : (s.setTrainCopy ch x).harts = s.harts := by simp only [State.setTrainCopy]
@[simp] theorem State.setHeld_harts (d : Nat) (x : List (Nat × Word)) : (s.setHeld d x).harts = s.harts := by simp only [State.setHeld]
@[simp] theorem State.setChain_harts (d k : Nat) (x : ChainSt) : (s.setChain d k x).harts = s.harts := by simp only [State.setChain]
@[simp] theorem State.setKslot_harts (d k : Nat) (x : Kslot) : (s.setKslot d k x).harts = s.harts :=
  by simp only [State.setKslot, State.p_harts]
@[simp] theorem State.setPmWord_harts (d i n : Nat) (x : BitVec 39) : (s.setPmWord d i n x).harts = s.harts :=
  by simp only [State.setPmWord]
@[simp] theorem State.setWindow_harts (t i : Nat) (x : Bool) : (s.setWindow t i x).harts = s.harts :=
  by simp only [State.setWindow, State.setPen]
@[simp] theorem State.setRingAck_harts (d r : Nat) (x : Option Resp) : (s.setRingAck d r x).harts = s.harts :=
  by simp only [State.setRingAck, State.setPen]
@[simp] theorem State.setFuses_harts (x : Fuses) : (s.setFuses x).harts = s.harts := by simp only [State.setFuses]
@[simp] theorem State.setEdge_harts (d e v : Nat) : (s.setEdge d e v).harts = s.harts := by simp only [State.setEdge, State.p_harts]
@[simp] theorem State.setClk_harts (d : Nat) (c : ClkSt) : (s.setClk d c).harts = s.harts := by simp only [State.setClk]
@[simp] theorem State.setBankWord_harts (B w : Nat) (x : BWord) : (s.setBankWord B w x).harts = s.harts := by simp only [State.setBankWord]
@[simp] theorem State.setSig_harts (d fa : Nat) (v : Word) : (s.setSig d fa v).harts = s.harts := by simp only [State.setSig]
@[simp] theorem State.setDesign_harts (d : Nat) (x : DieDesign) : (s.setDesign d x).harts = s.harts := by simp only [State.setDesign]
@[simp] theorem State.setArith_harts (d k : Nat) (x : Arith) : (s.setArith d k x).harts = s.harts := by simp only [State.setArith]
@[simp] theorem State.setSeu_harts (d : Nat) (x : List SeuEnt) : (s.setSeu d x).harts = s.harts :=
  by simp only [State.setSeu, State.p_harts]
@[simp] theorem State.setQclk_harts (d q hz : Nat) : (s.setQclk d q hz).harts = s.harts := by simp only [State.setQclk]
@[simp] theorem State.setPaused_harts (d e q : Nat) (x : Bool) : (s.setPaused d e q x).harts = s.harts :=
  by simp only [State.setPaused, State.setPen]
@[simp] theorem State.setCopy_harts (q line : Nat) (x : Option CLine) : (s.setCopy q line x).harts = s.harts :=
  by simp only [State.setCopy]
@[simp] theorem State.setLinkRx_harts (d e m : Nat) (x : LinkRx) : (s.setLinkRx d e m x).harts = s.harts := by simp only [State.setLinkRx]

end Sys2Proof.Machine
end

