-- ==== Sys2Proof/Laws/Access.lean ====
section
/-!
SUPPORT. What a register access does that reaches its register: the family of the register answers a write of exactly the bits
written; and how the fields of a written value stand.
-/

namespace Sys2Proof.Machine

/-- The way of an access to a die in RUN changes nothing. -/
theorem ctrlRoute_running (s : State) (m : Master) (d : Nat) (hm : s.debugShut m = false) (hp : s.present d = true)
    (hb : s.belowRun d = false) (hr : (routeTo s (s.dieOfRid m.rid) d).1 = none) : ctrlRoute s m d = (none, s) := by
  unfold ctrlRoute
  rw [hm, if_neg (by decide), if_pos hp]
  revert hr
  unfold routeTo
  dsimp only
  split
  · intro h; simp at h
  · split
    · intro h; simp at h
    · rw [hb]; intro _; rfl

/-- The control window of a die that is present is not the companion's. -/
theorem companionCtrl_present (s : State) (d off : Nat) (hp : s.present d = true) : companionCtrl s d off = false := by
  by_cases h7 : d = 7
  · have hx : s.dev.part ≠ .px8c := by
      rintro h
      subst h7
      simp [State.present, h] at hp
    have h0 : companionLog2 s 0 = 0 := by unfold companionLog2; simp [hx]
    simp [companionCtrl, companionOff, h0]
  · simp [companionCtrl, h7]

/-- A register array that ends below an offset does not hold the byte there. -/
theorem hit_beyond (r : RegInfo) (off : Nat) (h1 : r.n2 = 1) (h2 : r.n1 = 1 ∨ 0 < r.s1) (h3 : r.base + r.n1 * r.s1 + 8 ≤ off) :
    r.hit off = none := by
  have hs : (if r.pair then 8 else 4) ≤ 8 := by split <;> omega
  have hk : r.n1 ≠ 1 → ¬ (off - r.base) / r.s1 < r.n1 := by
    intro hn hlt
    have hp : 0 < r.s1 := h2.resolve_left hn
    have := (Nat.div_lt_iff_lt_mul hp).1 hlt
    omega
  unfold RegInfo.hit
  dsimp only
  rw [if_neg]
  rintro ⟨_, hi, _, hd⟩
  by_cases hn : r.n1 = 1
  · simp only [hn, h1, if_true, Nat.zero_mul, Nat.sub_zero] at hd
    omega
  · exact hk hn (by simpa [hn] using hi)

theorem findReg_beyond (off : Nat) : ∀ l : List RegId,
    (∀ r ∈ l, r.info.n2 = 1 ∧ (r.info.n1 = 1 ∨ 0 < r.info.s1) ∧ r.info.base + r.info.n1 * r.info.s1 + 8 ≤ off) → findReg off l = none
  | [], _ => rfl
  | r :: l, h => by
    obtain ⟨h1, h2, h3⟩ := h r (by simp)
    unfold findReg
    rw [hit_beyond r.info off h1 h2 h3]
    exact findReg_beyond off l (fun x hx => h x (by simp [hx]))

/-- No register lies in the flash aperture. -/
theorem regAt_aperture (off : Nat) (h : 0x0C0000 ≤ off) (h2 : off < 0x100000) : regAt off = none := by
  have hb : blockAt off = some .NVC := by
    unfold blockAt
    rw [if_neg (by omega), if_neg (by omega), if_neg (by omega), if_neg (by omega), if_neg (by omega), if_neg (by omega),
      if_neg (by omega), if_neg (by omega), if_pos (by omega)]
  unfold regAt
  rw [hb]
  refine findReg_beyond off _ (fun r hr => ?_)
  have hl : ∀ r ∈ Block.NVC.regs, r.info.n2 = 1 ∧ (r.info.n1 = 1 ∨ 0 < r.info.s1) ∧ r.info.base + r.info.n1 * r.info.s1 + 8 ≤ 0x0C0000 := by
    decide
  obtain ⟨a, b, c⟩ := hl r hr
  exact ⟨a, b, by omega⟩

/-- A register that an access reaches lies outside the flash aperture. -/
theorem inAperture_reg (s : State) (d off : Nat) (r : RegRef) (h : regOn s d off = some r) : inAperture s d off = false := by
  unfold inAperture
  by_contra hc
  simp only [Bool.not_eq_false, Bool.and_eq_true, decide_eq_true_eq] at hc
  have := regAt_aperture off hc.2.1 hc.2.2
  unfold regOn at h
  rw [this] at h
  exact absurd h (by simp)

/-- What a family answers to a 32-bit write that is not part of a sentence. -/
theorem writeReg_family (s : State) (m : Master) (d : Nat) (r : RegRef) (raw mask : Nat)
    (hh : r.id.info.head = true → d = s.head) (hi : r.id.imageSet = false) (hw : r.id.info.writable ≠ 0)
    (hs : sntState s d = Snt.idle) :
    writeReg s m d r raw mask = writeFamily s (mkWr s m d r (raw &&& mask) mask) := by
  unfold writeReg
  have h1 : ¬ (((r.id.info.head = true ∧ d ≠ s.head) ∨ r.id.imageSet = true ∨ r.id.info.writable = 0)) := by
    rintro (⟨a, b⟩ | a | a)
    · exact b (hh a)
    · rw [hi] at a; exact absurd a (by decide)
    · exact hw a
  have h2 : ¬ (mask &&& r.id.info.rws ≠ 0 ∧ sntState s d = Snt.opened) := by
    rintro ⟨_, b⟩
    rw [hs] at b
    exact absurd b (by decide)
  dsimp only
  rw [if_neg h1, if_neg h2]
  have h3 : ¬ ((writeFamily s (mkWr s m d r (raw &&& mask) mask)).reply.resp = .ok ∧ sntState s d = Snt.committing) := by
    rintro ⟨_, b⟩
    rw [hs] at b
    exact absurd b (by decide)
  rw [if_neg h3]

/-- A core sees nothing to trap on in an answer of OK without data. -/
@[simp] theorem coreSees_ok (t : State) (m : Master) (w : Bool) (a : Nat) : (t.ans .ok).coreSees m w a = t.ans .ok := by
  simp [State.coreSees, State.ans]

/-- Nor in an answer of OK whose data carry no poison. -/
@[simp] theorem coreSees_data (t : State) (m : Master) (w : Bool) (a : Nat) (l : List DWord) :
    (t.ansData .ok l).coreSees m w a = t.ansData .ok l := by
  simp [State.coreSees, State.ansData]

/-- A store that is refused is an access fault of the core that made it. -/
@[simp] theorem coreSees_refused (t : State) (m : Master) (a : Nat) :
    (t.ans .accessError).coreSees m true a = (t.ans .accessError).coreTrap m .storeFault a := by
  simp [State.coreSees, State.ans]

/-- A 32-bit write that reaches a 32-bit register is answered by the register's family. -/
theorem put32_reaches (s : State) (m : Master) (d v : Nat) (r : RegRef) (h : Reaches s m d r)
    (hi : r.id.imageSet = false) (hw : r.id.info.writable ≠ 0) (hc : r.id ≠ .SNT_COMMIT) (ha : r.off % 4 = 0) (hl : r.off + 4 ≤ 2 ^ 24) :
    put32 s m d r.off v =
      (writeFamily s (mkWr s m d r (v % 2 ^ 32) (2 ^ 32 - 1))).coreSees m true (d * 0x1000000 + r.off) := by
  obtain ⟨hm, hp, hb, hr, ho, hf, hh, hs⟩ := h
  have hband : v % 2 ^ 32 &&& (2 ^ 32 - 1) = v % 2 ^ 32 := by
    rw [Nat.and_two_pow_sub_one_eq_mod]; omega
  unfold put32 accessWrite writeOver
  rw [companionCtrl_present s d _ hp, if_neg (by decide), ctrlRoute_running s m d hm hp hb hr]
  unfold regWrite
  have hbd : bytesDefined s d r.off 4 = true := by
    unfold bytesDefined
    have e1 : r.off / 4 * 4 = r.off := by omega
    have e2 : (r.off % 4 + 4 + 3) / 4 = 1 := by omega
    simp only [e1, e2, List.range_one, List.all_cons, Nat.mul_zero, Nat.add_zero, ho, Option.isSome_some, List.all_nil,
      Bool.and_true, decide_eq_true_eq]
    exact hl
  have hform : ¬ ((4 ≠ 4 ∧ 4 ≠ 8) ∨ r.off % 4 ≠ 0) := by omega
  simp only [inAperture_reg s d r.off r ho, hbd, Bool.not_true, Bool.false_eq_true, if_false, hform, true_or, if_true]
  unfold writeWord
  simp only [ho, hf, Nat.sub_self, Nat.mul_zero, Nat.pow_zero, Nat.mul_one, hc, if_false]
  have key := writeReg_family s m d r (v % 2 ^ (8 * 4)) (2 ^ (8 * 4) - 1) hh hi hw hs
  rw [key]
  have e : v % 2 ^ (8 * 4) &&& (2 ^ (8 * 4) - 1) = v % 2 ^ 32 := hband
  rw [e]

/-- The bits of a register after a write (R4). -/
theorem merge_bit (i : RegInfo) (old raw mask j : Nat) (hj : j < 64) :
    (i.merge old raw mask).testBit j =
      ((old.testBit j && !(((i.rw.testBit j || i.rws.testBit j) && mask.testBit j) || (i.w1c.testBit j && raw.testBit j)))
        || (raw.testBit j && ((i.rw.testBit j || i.rws.testBit j) && mask.testBit j))
        || (i.w1s.testBit j && raw.testBit j && mask.testBit j)) := by
  have h64 : (2 ^ 64 - 1).testBit j = true := by rw [Nat.testBit_two_pow_sub_one]; simp [hj]
  unfold RegInfo.merge
  simp only [Nat.testBit_or, Nat.testBit_and, Nat.testBit_xor, h64, Bool.true_xor]

theorem of_bit (f : Fld) (v k : Nat) : (f.of v).testBit k = (decide (k < f.w) && v.testBit (f.lo + k)) := by
  simp [Fld.of, Nat.testBit_mod_two_pow, Nat.testBit_shiftRight]

/-- A field that a write may change, and does write, takes the bits written. -/
theorem merge_taken (i : RegInfo) (f : Fld) (old raw mask : Nat) (hf : f.lo + f.w ≤ 64)
    (h : ∀ k, k < f.w → ((i.rw.testBit (f.lo + k) || i.rws.testBit (f.lo + k)) && mask.testBit (f.lo + k)
      && !(i.w1c.testBit (f.lo + k)) && !(i.w1s.testBit (f.lo + k))) = true) :
    f.of (i.merge old raw mask) = f.of raw := by
  apply Nat.eq_of_testBit_eq
  intro k
  rw [of_bit, of_bit]
  by_cases hk : k < f.w
  · have hb := h k hk
    simp only [Bool.and_eq_true, Bool.not_eq_true'] at hb
    rw [merge_bit _ _ _ _ _ (by omega), hb.1.1.1, hb.1.1.2, hb.1.2, hb.2]
    simp
  · simp [hk]

/-- A field that the write does not touch keeps its value. -/
theorem merge_kept (i : RegInfo) (f : Fld) (old raw mask : Nat) (hf : f.lo + f.w ≤ 64)
    (h : ∀ k, k < f.w → (((i.rw.testBit (f.lo + k) || i.rws.testBit (f.lo + k)) && mask.testBit (f.lo + k))
      || i.w1c.testBit (f.lo + k) || i.w1s.testBit (f.lo + k)) = false) :
    f.of (i.merge old raw mask) = f.of old := by
  apply Nat.eq_of_testBit_eq
  intro k
  rw [of_bit, of_bit]
  by_cases hk : k < f.w
  · have hb := h k hk
    simp only [Bool.or_eq_false_iff] at hb
    rw [merge_bit _ _ _ _ _ (by omega), hb.1.1, hb.1.2, hb.2]
    simp
  · simp [hk]

/-- The field that a register value was built with. -/
theorem over_bit (f : Fld) (x v j : Nat) :
    (f.setIn x v).testBit j = if f.lo ≤ j ∧ j < f.lo + f.w then v.testBit (j - f.lo) else x.testBit j := by
  have hlow : f.of x * 2 ^ f.lo ≤ x := by
    have h1 : f.of x ≤ x / 2 ^ f.lo := by
      unfold Fld.of; rw [Nat.shiftRight_eq_div_pow]; exact Nat.mod_le _ _
    calc f.of x * 2 ^ f.lo ≤ x / 2 ^ f.lo * 2 ^ f.lo := Nat.mul_le_mul_right _ h1
      _ ≤ x := Nat.div_mul_le_self x _
  have hx : x = x / 2 ^ f.lo / 2 ^ f.w * 2 ^ (f.lo + f.w) + f.of x * 2 ^ f.lo + x % 2 ^ f.lo := by
    have a := Nat.div_add_mod x (2 ^ f.lo)
    have b := Nat.div_add_mod (x / 2 ^ f.lo) (2 ^ f.w)
    unfold Fld.of
    rw [Nat.shiftRight_eq_div_pow, Nat.pow_add]
    calc x = 2 ^ f.lo * (x / 2 ^ f.lo) + x % 2 ^ f.lo := a.symm
      _ = 2 ^ f.lo * (2 ^ f.w * (x / 2 ^ f.lo / 2 ^ f.w) + x / 2 ^ f.lo % 2 ^ f.w) + x % 2 ^ f.lo := by rw [b]
      _ = _ := by ring
  have hov : f.setIn x v = 2 ^ f.lo * (2 ^ f.w * (x / 2 ^ f.lo / 2 ^ f.w) + v % 2 ^ f.w) + x % 2 ^ f.lo := by
    have : x - f.of x * 2 ^ f.lo = x / 2 ^ f.lo / 2 ^ f.w * 2 ^ (f.lo + f.w) + x % 2 ^ f.lo := by omega
    unfold Fld.setIn
    rw [this, Nat.pow_add]
    ring
  have hr : x % 2 ^ f.lo < 2 ^ f.lo := Nat.mod_lt _ (Nat.two_pow_pos _)
  have hq : v % 2 ^ f.w < 2 ^ f.w := Nat.mod_lt _ (Nat.two_pow_pos _)
  rw [hov, Nat.testBit_two_pow_mul_add _ hr]
  by_cases h1 : j < f.lo
  · have : ¬ (f.lo ≤ j ∧ j < f.lo + f.w) := by omega
    simp [h1, this, Nat.testBit_mod_two_pow]
  · simp only [h1, if_false]
    rw [Nat.testBit_two_pow_mul_add _ hq]
    by_cases h2 : j - f.lo < f.w
    · have : f.lo ≤ j ∧ j < f.lo + f.w := by omega
      simp [h2, this, Nat.testBit_mod_two_pow]
    · have h3 : ¬ (f.lo ≤ j ∧ j < f.lo + f.w) := by omega
      simp only [h2, h3, if_false]
      rw [← Nat.shiftRight_eq_div_pow, ← Nat.shiftRight_eq_div_pow, Nat.testBit_shiftRight, Nat.testBit_shiftRight]
      congr 1
      omega

theorem of_over_same (f : Fld) (x v : Nat) : f.of (f.setIn x v) = v % 2 ^ f.w := by
  apply Nat.eq_of_testBit_eq
  intro k
  rw [of_bit, over_bit, Nat.testBit_mod_two_pow]
  by_cases hk : k < f.w
  · have : f.lo ≤ f.lo + k ∧ f.lo + k < f.lo + f.w := by omega
    simp [hk, this]
  · simp [hk]

theorem of_over_other (f g : Fld) (x v : Nat) (h : f.lo + f.w ≤ g.lo ∨ g.lo + g.w ≤ f.lo) : g.of (f.setIn x v) = g.of x := by
  apply Nat.eq_of_testBit_eq
  intro k
  rw [of_bit, of_bit, over_bit]
  by_cases hk : k < g.w
  · have : ¬ (f.lo ≤ g.lo + k ∧ g.lo + k < f.lo + f.w) := by omega
    simp [this]
  · simp [hk]

/-- A field of a register that is set whole. -/
theorem g_setReg (s : State) (d v : Nat) (r : RegRef) (f : Fld) (hw : SMap.wf cellRst s.rf = true) (ho : f.off = r.off)
    (ha : r.off % 8 = 0 ∨ (r.off % 8 = 4 ∧ r.id.info.pair = false)) (hf : f.lo + f.w ≤ if r.id.info.pair then 64 else 32) :
    (s.setReg d r v).g d f = f.of v := by
  unfold State.setReg State.p State.g
  have hc : cellKey d f.off = cellKey d r.off := by rw [ho]
  simp only [hc]
  rw [State.cell_setCell_same _ _ _ hw]
  apply Nat.eq_of_testBit_eq
  intro k
  rw [part_bit, of_bit]
  by_cases hk : k < f.w
  · simp only [hk, decide_true, Bool.true_and]
    have hsh : f.sh = f.lo + 8 * (r.off % 8) := by unfold Fld.sh; rw [ho]
    have h0 : (Fld.mk r.off 0 (if r.id.info.pair = true then 64 else 32)).sh = 8 * (r.off % 8) := by simp [Fld.sh]
    have hlt : f.sh + k < 64 := by
      rcases ha with ha | ⟨ha, hb⟩
      · split at hf <;> omega
      · rw [hb] at hf; simp at hf; omega
    rw [splice_bit _ _ _ _ _ hlt, h0]
    have hin : 8 * (r.off % 8) ≤ f.sh + k ∧ f.sh + k < 8 * (r.off % 8) + (if r.id.info.pair = true then 64 else 32) := by
      constructor
      · omega
      · split <;> simp_all
        omega
    rw [if_pos hin, Nat.testBit_mod_two_pow]
    have e : f.sh + k - 8 * (r.off % 8) = f.lo + k := by omega
    rw [e]
    have : f.lo + k < (if r.id.info.pair = true then 64 else 32) := by omega
    simp [this]
  · simp [hk]

end Sys2Proof.Machine
end

