-- ==== Sys2Proof/Laws/Dies.lean ====
section
/-!
SUPPORT. What is done on each die in turn: what every step keeps, the whole keeps; and a field set on every die.
-/

namespace Sys2Proof.Machine

/-- What each step over a list of dies keeps, the whole keeps. -/
theorem State.each_keeps (P : State → Prop) (f : State → Nat → State) (hf : ∀ s d, P s → P (f s d)) :
    ∀ (l : List Nat) (s : State), P s → P (s.each l f)
  | [], _, h => h
  | d :: l, s, h => State.each_keeps P f hf l (f s d) (hf s d h)

theorem State.onDies_keeps (P : State → Prop) (f : State → Nat → State) (hf : ∀ s d, P s → P (f s d)) (s : State) (h : P s) :
    P (s.onDies f) := State.each_keeps P f hf s.dies s h

/-- Setting a field on every die keeps the cells in canonical form. -/
theorem State.pAll_wf (s : State) (f : Fld) (v : Nat) (h : SMap.wf cellRst s.rf = true) :
    SMap.wf cellRst (s.pAll f v).rf = true :=
  State.onDies_keeps (fun s => SMap.wf cellRst s.rf = true) _ (fun s d h => State.p_wf s d f v h) s h

theorem State.p_eq (s : State) (d : Nat) (f : Fld) (v : Nat) : ∃ x, s.p d f v = { s with rf := x } :=
  ⟨SMap.set cellRst s.rf (cellKey d f.off) (splice (s.cell (cellKey d f.off)) f.sh f.w v), by unfold State.p State.setCell; rfl⟩

theorem State.each_p_eq (f : Fld) (v : Nat) :
    ∀ (l : List Nat) (s : State), ∃ x, s.each l (fun s d => s.p d f v) = { s with rf := x }
  | [], s => ⟨s.rf, rfl⟩
  | d :: l, s => by
    obtain ⟨x, hx⟩ := State.p_eq s d f v
    obtain ⟨y, hy⟩ := State.each_p_eq f v l (s.p d f v)
    refine ⟨y, ?_⟩
    simp only [State.each, List.foldl_cons] at hy ⊢
    rw [hy, hx]

/-- Setting a field on every die writes registers only. -/
theorem State.pAll_eq (s : State) (f : Fld) (v : Nat) : ∃ x, s.pAll f v = { s with rf := x } :=
  State.each_p_eq f v s.dies s

@[simp] theorem State.pAll_pending (s : State) (f : Fld) (v : Nat) : (s.pAll f v).pending = s.pending := by
  obtain ⟨x, h⟩ := s.pAll_eq f v; rw [h]
@[simp] theorem State.pAll_reply (s : State) (f : Fld) (v : Nat) : (s.pAll f v).reply = s.reply := by
  obtain ⟨x, h⟩ := s.pAll_eq f v; rw [h]
@[simp] theorem State.pAll_fresh (s : State) (f : Fld) (v : Nat) : (s.pAll f v).fresh = s.fresh := by
  obtain ⟨x, h⟩ := s.pAll_eq f v; rw [h]
@[simp] theorem State.pAll_dev (s : State) (f : Fld) (v : Nat) : (s.pAll f v).dev = s.dev := by
  obtain ⟨x, h⟩ := s.pAll_eq f v; rw [h]
@[simp] theorem State.pAll_boot (s : State) (f : Fld) (v : Nat) : (s.pAll f v).boot = s.boot := by
  obtain ⟨x, h⟩ := s.pAll_eq f v; rw [h]
@[simp] theorem State.pAll_holds (s : State) (f : Fld) (v : Nat) : (s.pAll f v).holds = s.holds := by
  obtain ⟨x, h⟩ := s.pAll_eq f v; rw [h]
@[simp] theorem State.pAll_clk (s : State) (f : Fld) (v : Nat) : (s.pAll f v).clk = s.clk := by
  obtain ⟨x, h⟩ := s.pAll_eq f v; rw [h]
@[simp] theorem State.pAll_ckmux (s : State) (f : Fld) (v : Nat) : (s.pAll f v).ckmux = s.ckmux := by
  obtain ⟨x, h⟩ := s.pAll_eq f v; rw [h]
@[simp] theorem State.pAll_evs (s : State) (f : Fld) (v : Nat) : (s.pAll f v).evs = s.evs := by
  obtain ⟨x, h⟩ := s.pAll_eq f v; rw [h]
@[simp] theorem State.pAll_pulses (s : State) (f : Fld) (v : Nat) : (s.pAll f v).pulses = s.pulses := by
  obtain ⟨x, h⟩ := s.pAll_eq f v; rw [h]
@[simp] theorem State.pAll_usr (s : State) (f : Fld) (v : Nat) : (s.pAll f v).usr = s.usr := by
  obtain ⟨x, h⟩ := s.pAll_eq f v; rw [h]
@[simp] theorem State.pAll_snt (s : State) (f : Fld) (v : Nat) : (s.pAll f v).snt = s.snt := by
  obtain ⟨x, h⟩ := s.pAll_eq f v; rw [h]
@[simp] theorem State.pAll_mbox (s : State) (f : Fld) (v : Nat) : (s.pAll f v).mbox = s.mbox := by
  obtain ⟨x, h⟩ := s.pAll_eq f v; rw [h]
@[simp] theorem State.pAll_mset (s : State) (f : Fld) (v : Nat) : (s.pAll f v).mset = s.mset := by
  obtain ⟨x, h⟩ := s.pAll_eq f v; rw [h]
@[simp] theorem State.pAll_smbPub (s : State) (f : Fld) (v : Nat) : (s.pAll f v).smbPub = s.smbPub := by
  obtain ⟨x, h⟩ := s.pAll_eq f v; rw [h]
@[simp] theorem State.pAll_smbHost (s : State) (f : Fld) (v : Nat) : (s.pAll f v).smbHost = s.smbHost := by
  obtain ⟨x, h⟩ := s.pAll_eq f v; rw [h]
@[simp] theorem State.pAll_lad (s : State) (f : Fld) (v : Nat) : (s.pAll f v).lad = s.lad := by
  obtain ⟨x, h⟩ := s.pAll_eq f v; rw [h]
@[simp] theorem State.pAll_thm (s : State) (f : Fld) (v : Nat) : (s.pAll f v).thm = s.thm := by
  obtain ⟨x, h⟩ := s.pAll_eq f v; rw [h]
@[simp] theorem State.pAll_mon (s : State) (f : Fld) (v : Nat) : (s.pAll f v).mon = s.mon := by
  obtain ⟨x, h⟩ := s.pAll_eq f v; rw [h]
@[simp] theorem State.pAll_cfg (s : State) (f : Fld) (v : Nat) : (s.pAll f v).cfg = s.cfg := by
  obtain ⟨x, h⟩ := s.pAll_eq f v; rw [h]
@[simp] theorem State.pAll_fab (s : State) (f : Fld) (v : Nat) : (s.pAll f v).fab = s.fab := by
  obtain ⟨x, h⟩ := s.pAll_eq f v; rw [h]
@[simp] theorem State.pAll_se (s : State) (f : Fld) (v : Nat) : (s.pAll f v).se = s.se := by
  obtain ⟨x, h⟩ := s.pAll_eq f v; rw [h]
@[simp] theorem State.pAll_dfd (s : State) (f : Fld) (v : Nat) : (s.pAll f v).dfd = s.dfd := by
  obtain ⟨x, h⟩ := s.pAll_eq f v; rw [h]
@[simp] theorem State.pAll_bnk (s : State) (f : Fld) (v : Nat) : (s.pAll f v).bnk = s.bnk := by
  obtain ⟨x, h⟩ := s.pAll_eq f v; rw [h]
@[simp] theorem State.pAll_coh (s : State) (f : Fld) (v : Nat) : (s.pAll f v).coh = s.coh := by
  obtain ⟨x, h⟩ := s.pAll_eq f v; rw [h]
@[simp] theorem State.pAll_bdl (s : State) (f : Fld) (v : Nat) : (s.pAll f v).bdl = s.bdl := by
  obtain ⟨x, h⟩ := s.pAll_eq f v; rw [h]
@[simp] theorem State.pAll_drm (s : State) (f : Fld) (v : Nat) : (s.pAll f v).drm = s.drm := by
  obtain ⟨x, h⟩ := s.pAll_eq f v; rw [h]
@[simp] theorem State.pAll_lan (s : State) (f : Fld) (v : Nat) : (s.pAll f v).lan = s.lan := by
  obtain ⟨x, h⟩ := s.pAll_eq f v; rw [h]
@[simp] theorem State.pAll_pen (s : State) (f : Fld) (v : Nat) : (s.pAll f v).pen = s.pen := by
  obtain ⟨x, h⟩ := s.pAll_eq f v; rw [h]
@[simp] theorem State.pAll_sec (s : State) (f : Fld) (v : Nat) : (s.pAll f v).sec = s.sec := by
  obtain ⟨x, h⟩ := s.pAll_eq f v; rw [h]
@[simp] theorem State.pAll_harts (s : State) (f : Fld) (v : Nat) : (s.pAll f v).harts = s.harts := by
  obtain ⟨x, h⟩ := s.pAll_eq f v; rw [h]

theorem State.each_p_other (f g : Fld) (v d' : Nat) (hf : f.off < 2 ^ 24) (hg : g.ok) (ha : f.apart g) :
    ∀ (l : List Nat) (s : State), SMap.wf cellRst s.rf = true → (s.each l (fun s d => s.p d f v)).g d' g = s.g d' g
  | [], _, _ => rfl
  | d :: l, s, h => by
    have := State.each_p_other f g v d' hf hg ha l (s.p d f v) (State.p_wf s d f v h)
    simp only [State.each, List.foldl_cons] at this ⊢
    rw [this]
    exact State.g_p_other s d d' f g v hf hg h (Or.inr ha)

/-- Setting a field on every die leaves alone every field that shares no bit with it. -/
theorem State.pAll_other (s : State) (f g : Fld) (v d' : Nat) (hf : f.off < 2 ^ 24) (hg : g.ok) (ha : f.apart g)
    (h : SMap.wf cellRst s.rf = true) : (s.pAll f v).g d' g = s.g d' g :=
  State.each_p_other f g v d' hf hg ha s.dies s h

theorem State.each_p_at (f : Fld) (v d' : Nat) (hf : f.ok) :
    ∀ (l : List Nat) (s : State), SMap.wf cellRst s.rf = true →
      (s.each l (fun s d => s.p d f v)).g d' f = if d' ∈ l then v % 2 ^ f.w else s.g d' f
  | [], s, _ => by simp [State.each]
  | d :: l, s, h => by
    have ih := State.each_p_at f v d' hf l (s.p d f v) (State.p_wf s d f v h)
    simp only [State.each, List.foldl_cons] at ih ⊢
    rw [ih]
    by_cases h1 : d' ∈ l
    · simp [h1]
    · by_cases h2 : d' = d
      · subst h2
        simp [h1, State.g_p_same s d' f v hf.1 h]
      · have : d' ∉ d :: l := by simp [h1, h2]
        simp only [h1, this, if_false]
        exact State.g_p_other s d d' f f v hf.2 hf h (Or.inl (Ne.symm h2))

/-- The field that was set on every die, on a die of the device. -/
theorem State.pAll_at (s : State) (f : Fld) (v d' : Nat) (hf : f.ok) (h : SMap.wf cellRst s.rf = true) (hd : d' ∈ s.dies) :
    (s.pAll f v).g d' f = v % 2 ^ f.w := by
  have := State.each_p_at f v d' hf s.dies s h
  unfold State.pAll State.onDies
  rw [this, if_pos hd]

/-- The dies of the device are those that are present. -/
theorem State.mem_dies (s : State) (d : Nat) : d ∈ s.dies ↔ d < 8 ∧ s.present d = true := by
  simp [State.dies]

end Sys2Proof.Machine
end

