-- ==== Sys2Proof/Laws/Memory.lean ====
section
/-!
SUPPORT. Every operation on an addressed memory keeps the canonical form, and a write is read back where it went and nowhere else.
-/

namespace Sys2Proof.Machine

variable (s : State)

/-! ## The canonical form -/

/-- The form depends on the value of an unlisted key only at the listed keys. -/
theorem SMap.wf_congr {α : Type} [DecidableEq α] (f g : Nat → α) (m : SMap α) (h : SMap.wf f m = true)
    (hfg : ∀ e ∈ m, f e.1 = g e.1) : SMap.wf g m = true := by
  induction m with
  | nil => rfl
  | cons e m ih =>
    obtain ⟨k, v⟩ := e
    simp only [SMap.wf, Bool.and_eq_true, decide_eq_true_eq] at h ⊢
    refine ⟨⟨h.1.1, ?_⟩, ih h.2 (fun e he => hfg e (List.mem_cons_of_mem _ he))⟩
    rw [← hfg (k, v) (List.mem_cons_self ..)]
    exact h.1.2

theorem memory_wf_reset : Memory.wf State.reset = true := by decide

theorem memory_wf_setBankWord (B w : Nat) (x : BWord) (h : Memory.wf s = true) : Memory.wf (s.setBankWord B w x) = true := by
  simp only [Memory.wf, Bool.and_eq_true] at h ⊢
  obtain ⟨⟨⟨⟨⟨h1, h2⟩, h3⟩, h4⟩, h5⟩, h6⟩ := h
  exact ⟨⟨⟨⟨⟨SMap.wf_set _ _ _ _ h1, h2⟩, h3⟩, h4⟩, h5⟩, h6⟩

/-- Forgetting a bank leaves the other banks' words listed as they were. -/
theorem bankUnlisted_other (junk : SMap Nat) (B e k : Nat) (hk : k / 2 ^ 19 ≠ B) :
    bankUnlisted (SMap.set (fun _ => 1) junk B e) k = bankUnlisted junk k := by
  unfold bankUnlisted
  rw [SMap.get_set_other _ _ _ _ _ hk]

theorem memory_wf_clearBank (B e : Nat) (h : Memory.wf s = true) : Memory.wf (s.clearBank B e) = true := by
  unfold State.clearBank
  simp only [Memory.wf, Bool.and_eq_true] at h ⊢
  obtain ⟨⟨⟨⟨⟨h1, h2⟩, h3⟩, h4⟩, h5⟩, h6⟩ := h
  refine ⟨⟨⟨⟨⟨?_, h2⟩, h3⟩, h4⟩, h5⟩, h6⟩
  refine SMap.wf_congr _ _ _ (SMap.wf_keep _ _ _ h1) ?_
  intro x hx
  simp only [SMap.keep, List.mem_filter, decide_eq_true_eq] at hx
  exact (bankUnlisted_other _ _ _ _ hx.2).symm

theorem memory_wf_zeroBank (B : Nat) (h : Memory.wf s = true) : Memory.wf (s.zeroBank B) = true :=
  memory_wf_clearBank s B 0 h

theorem memory_wf_loseBank (B : Nat) (h : Memory.wf s = true) : Memory.wf (s.loseBank B) = true :=
  memory_wf_clearBank s.newEpoch.2 B _ h

theorem memory_wf_setDcell (ch w : Nat) (x : DCell) (h : Memory.wf s = true) : Memory.wf (s.setDcell ch w x) = true := by
  unfold State.setDcell
  simp only [Memory.wf, Bool.and_eq_true] at h ⊢
  obtain ⟨⟨⟨⟨⟨h1, h2⟩, h3⟩, h4⟩, h5⟩, h6⟩ := h
  exact ⟨⟨⟨⟨⟨h1, SMap.wf_set _ _ _ _ h2⟩, h3⟩, h4⟩, h5⟩, h6⟩

theorem memory_wf_loseDram (ch : Nat) (h : Memory.wf s = true) : Memory.wf (s.loseDram ch) = true := by
  unfold State.loseDram State.newEpoch
  simp only [Memory.wf, Bool.and_eq_true] at h ⊢
  obtain ⟨⟨⟨⟨⟨h1, h2⟩, h3⟩, h4⟩, h5⟩, h6⟩ := h
  exact ⟨⟨⟨⟨⟨h1, SMap.wf_keep _ _ _ h2⟩, h3⟩, h4⟩, h5⟩, h6⟩

theorem memory_wf_setDmWord (d i w : Nat) (x : BWord) (h : Memory.wf s = true) : Memory.wf (s.setDmWord d i w x) = true := by
  simp only [Memory.wf, Bool.and_eq_true] at h ⊢
  obtain ⟨⟨⟨⟨⟨h1, h2⟩, h3⟩, h4⟩, h5⟩, h6⟩ := h
  exact ⟨⟨⟨⟨⟨h1, h2⟩, SMap.wf_set _ _ _ _ h3⟩, h4⟩, h5⟩, h6⟩

theorem memory_wf_setPmWord (d i n : Nat) (x : BitVec 39) (h : Memory.wf s = true) : Memory.wf (s.setPmWord d i n x) = true := by
  simp only [Memory.wf, Bool.and_eq_true] at h ⊢
  obtain ⟨⟨⟨⟨⟨h1, h2⟩, h3⟩, h4⟩, h5⟩, h6⟩ := h
  exact ⟨⟨⟨⟨⟨h1, h2⟩, h3⟩, SMap.wf_set _ _ _ _ h4⟩, h5⟩, h6⟩

theorem memory_wf_zeroSeMem (d i : Nat) (h : Memory.wf s = true) : Memory.wf (s.zeroSeMem d i) = true := by
  unfold State.zeroSeMem
  simp only [Memory.wf, Bool.and_eq_true] at h ⊢
  obtain ⟨⟨⟨⟨⟨h1, h2⟩, h3⟩, h4⟩, h5⟩, h6⟩ := h
  exact ⟨⟨⟨⟨⟨h1, h2⟩, SMap.wf_keep _ _ _ h3⟩, SMap.wf_keep _ _ _ h4⟩, h5⟩, h6⟩

theorem memory_wf_setFlashByte (a : Nat) (v : Byte) (h : Memory.wf s = true) : Memory.wf (s.setFlashByte a v) = true := by
  simp only [Memory.wf, Bool.and_eq_true] at h ⊢
  obtain ⟨⟨⟨⟨⟨h1, h2⟩, h3⟩, h4⟩, h5⟩, h6⟩ := h
  exact ⟨⟨⟨⟨⟨h1, h2⟩, h3⟩, h4⟩, SMap.wf_set _ _ _ _ h5⟩, h6⟩

theorem memory_wf_setFlashBytes (a : Nat) (l : List Byte) (h : Memory.wf s = true) : Memory.wf (s.setFlashBytes a l) = true := by
  unfold State.setFlashBytes
  generalize l.zipIdx = xs
  induction xs generalizing s with
  | nil => exact h
  | cons x xs ih => exact ih _ (memory_wf_setFlashByte _ _ _ h)

theorem memory_wf_loseFlash (a n : Nat) (h : Memory.wf s = true) : Memory.wf (s.loseFlash a n) = true := by
  unfold State.loseFlash State.newEpoch
  dsimp only
  have h0 : Memory.wf { s with fresh := s.fresh + 1 } = true := h
  generalize ({ s with fresh := s.fresh + 1 } : State) = t at h0 ⊢
  generalize List.range n = xs
  induction xs generalizing t with
  | nil => exact h0
  | cons x xs ih =>
    refine ih _ ?_
    simp only [Memory.wf, Bool.and_eq_true] at h0 ⊢
    exact h0

theorem memory_wf_setFrameWord (d fa w : Nat) (v : DWord) (h : Memory.wf s = true) :
    Memory.wf (s.setFrameWord d fa w v) = true := by
  simp only [Memory.wf, Bool.and_eq_true] at h ⊢
  exact ⟨h.1, SMap.wf_set _ _ _ _ h.2⟩

theorem memory_wf_setFrame (d fa : Nat) (ws : List DWord) (h : Memory.wf s = true) : Memory.wf (s.setFrame d fa ws) = true := by
  unfold State.setFrame
  generalize ws.zipIdx = xs
  induction xs generalizing s with
  | nil => exact h
  | cons x xs ih => exact ih _ (memory_wf_setFrameWord _ _ _ _ _ h)

/-! ## Reading back -/

theorem bankWord_setBankWord_same (B w : Nat) (x : BWord) (h : Memory.wf s = true) : (s.setBankWord B w x).bankWord B w = x := by
  simp only [Memory.wf, Bool.and_eq_true] at h
  unfold State.bankWord State.setBankWord
  rw [SMap.get_set_same _ _ _ _ h.1.1.1.1.1]

theorem bankWord_setBankWord_other (B w B₂ w₂ : Nat) (x : BWord) (hw : w < 2 ^ 19) (hw₂ : w₂ < 2 ^ 19)
    (hne : ¬ (B₂ = B ∧ w₂ = w)) : (s.setBankWord B w x).bankWord B₂ w₂ = s.bankWord B₂ w₂ := by
  unfold State.bankWord State.setBankWord
  rw [SMap.get_set_other _ _ _ _ _ (by omega)]
  rfl

theorem dmWord_setDmWord_same (d i w : Nat) (x : BWord) (h : Memory.wf s = true) : (s.setDmWord d i w x).dmWord d i w = x := by
  simp only [Memory.wf, Bool.and_eq_true] at h
  exact SMap.get_set_same _ _ _ _ h.1.1.1.2

theorem frameWord_setFrameWord_same (d fa w : Nat) (v : DWord) (h : Memory.wf s = true) :
    (s.setFrameWord d fa w v).frameWord d fa w = v := by
  simp only [Memory.wf, Bool.and_eq_true] at h
  exact SMap.get_set_same _ _ _ _ h.2

end Sys2Proof.Machine
end

