-- ==== Sys2Proof/WellFormed.lean ====
section
/-!
DEFINITION. Which commands are well formed: the operands that a command carries as lists or plain numbers have the lengths and
ranges that the spec gives the thing they stand for. An operand of a bounded type needs no check.
-/

namespace Sys2Proof

/-- A requester ID is 12 bits (R3). -/
def Master.wf (m : Master) : Bool := decide (m.rid < 4096)

/-- A register is accessed as 1, 2, 4 or 8 bytes (R4). -/
def accessSize (size : Nat) : Bool := size == 1 || size == 2 || size == 4 || size == 8

/-- A die's register window is 16 MB (R24). -/
def windowOff (off : Nat) : Bool := decide (off < 2 ^ 24)

/-- The 64-bit words that `size` bytes from `addr` touch. -/
def wordsOf (addr : DWord) (size : Nat) : Nat := (addr.toNat % 8 + size + 7) / 8

/-- A request carries 1 to 4,096 bytes (R194, R305). A write carries every word it touches and no byte enables or one byte for each
word; an atomic carries its operand, and CAS also its compare value; any other request carries no data. -/
def Req.wf (r : Req) : Bool :=
  r.m.wf && decide (1 ≤ r.size ∧ r.size ≤ 4096) &&
    (match r.op with
     | .write => r.data.length == wordsOf r.addr r.size && (r.be.isEmpty || r.be.length == r.data.length)
     | .atomicAdd | .atomicSwap => r.data.length == 1 && r.be.isEmpty
     | .atomicCas => r.data.length == 2 && r.be.isEmpty
     | .writeback => r.data.length == 8 && r.be.isEmpty
     | _ => r.data.isEmpty && r.be.isEmpty)

/-- A flit is 256 bytes (R327). -/
def flitWf (flit : List Byte) : Bool := flit.length == 256

/-- A cached line's name is bits [53:6] of an address (R22). -/
def lineWf (line : LineId) : Bool := decide (line < 2 ^ 48)

/-- A frame that arrives has bytes; one too short is counted and dropped by its meaning (R392). -/
def frameWf (frame : List Byte) : Bool := !frame.isEmpty

/-- A list gives each number once, in rising order. -/
def rising (l : List Nat) : Bool := (l.zip (l.drop 1)).all (fun p => decide (p.1 < p.2))

/-- What may drive a global track: anything but fabric logic (R149). -/
def ClkSrc.clock : ClkSrc → Bool
  | .logic => false
  | .tap _ => true
  | .pll _ _ => true
  | .mux _ => true
  | .pair _ => true

/-- A regional track reaches its clock region and the regions directly above and below (R149). -/
def regionalReach (r q : Nat) : Bool := r == q || r + 10 == q || r == q + 10

/-- The clock tracks of a die (R149): global ones by number, regional ones driven by a pair of the region or by a CKMUX2 placed in it,
and no region with more than 24 clocks. Which regions a pair of a bank belongs to is not said. -/
def tracksWf (x : DieDesign) : Bool :=
  rising (x.gtracks.map (·.1)) && x.gtracks.all (fun e => decide (e.1 < 24) && e.2.src.clock) &&
  rising (x.rtracks.map (·.1)) && x.rtracks.all (fun e => decide (e.1 < 960) &&
    match e.2 with
    | .pair _ => true
    | .mux k => x.muxes.any (fun m => m.1 == k && m.2.region == e.1 / 8)
    | .tap _ => false
    | .pll _ _ => false
    | .logic => false) &&
  rising (x.muxes.map (·.1)) && x.muxes.all (fun m => decide (m.1 < 65536 ∧ m.2.region < 120)) &&
  (List.range 120).all (fun q => decide ((x.gtracks.filter (fun e => e.2.regions.getLsbD q)).length
    + (x.rtracks.filter (fun e => regionalReach (e.1 / 8) q)).length ≤ 24))

/-- The bank voltage, in tenths of a volt, that a standard asks for; 0 where any will do (R154, R156). -/
def IoStd.vcc : IoStd → Nat
  | .lvcmos v => v
  | .lvttl => 33
  | .hstl v => v
  | .sstl v => v
  | .lvds _ => 18
  | .diff => 0

/-- The standards of an HSIO pin and of an HS3 pin (R154, R156). -/
def IoStd.hsio : IoStd → Bool
  | .lvcmos v => v == 10 || v == 12 || v == 15 || v == 18
  | .lvttl => false
  | .hstl v => v == 12 || v == 15 || v == 18
  | .sstl v => v == 15 || v == 18
  | .lvds _ => true
  | .diff => true
def IoStd.hs3 : IoStd → Bool
  | .lvcmos v => v == 18 || v == 25 || v == 33
  | .lvttl => true
  | .hstl _ => false
  | .sstl _ => false
  | .lvds _ => false
  | .diff => false

/-- An I/O cell keeps R154 or R156: its standard, its drive, its serialiser, and what only an HS3 pin has. -/
def IoCfg.wf (pin : Nat) (c : IoCfg) : Bool :=
  if pin < 96 then
    c.std.hsio && [2, 4, 8, 12].contains c.drive && [1, 2, 4, 8].contains c.ratio && !c.odrain && c.pull == .none
      && !(c.output && c.std == .diff)
  else c.std.hs3 && [4, 8, 12, 16].contains c.drive && c.ratio == 1 && c.inTap == 0 && c.outTap == 0 && !c.dyn
    && c.inReg != .ddr && c.outReg != .ddr && c.oeReg == .none

/-- The pins of a die: standards that need different voltages do not share a bank (R154). -/
def pinsWf (x : DieDesign) : Bool :=
  rising (x.pins.map (·.1)) && x.pins.all (fun e => decide (e.1 < 120) && e.2.wf e.1) &&
  x.pins.all (fun a => x.pins.all (fun b =>
    a.1 / 48 != b.1 / 48 || a.2.std.vcc == b.2.std.vcc || a.2.std.vcc == 0 || b.2.std.vcc == 0))

/-- A block memory keeps R171 and R174: ECC needs both ports 512x72; a chain has 2 to 16 blocks of one column, and more than 4 need the
output register. -/
def BmCfg.wf (k : Nat) (c : BmCfg) : Bool :=
  (!c.ecc || (c.a.logW == 6 && c.b.logW == 6)) && c.chain.val != 1
    && (c.chain.val == 0 || (decide (c.place.val < c.chain.val) && decide (c.place.val ≤ k % 128)
      && decide (k % 128 - c.place.val + c.chain.val ≤ 128) && (decide (c.chain.val ≤ 4) || (c.a.pipe && c.b.pipe))))
    && c.init.all (fun e => decide (e.1 < 4096))

/-- The numbers in what an image declares are in range, and what Grigo refuses is not declared (R138, R144, R149, R151, R167, R176, R178,
R181, R188, R192, R199). -/
def DieDesign.wf (x : DieDesign) : Bool :=
  rising (x.regions.map (·.1)) && x.regions.all (fun e => decide (e.1 < 32)) &&
  rising (x.kslots.map (·.1)) && x.kslots.all (fun e => decide (e.1 < 64)) &&
  rising (x.windows.map (·.1)) && x.windows.all (fun e => decide (e.1 < 32)) &&
  rising (x.bmems.map (·.1)) && x.bmems.all (fun e => decide (e.1 < 4096) && e.2.wf e.1) &&
  rising (x.slices.map (·.1)) && x.slices.all (fun e => decide (e.1 < 4608 ∧ 8 ≤ e.2.oWidth ∧ e.2.oWidth ≤ 48)) &&
  rising (x.ffs.map (·.1)) && x.ffs.all (fun e => decide (e.1 < 307200 * 16)) &&
  rising (x.halves.map (·.1)) && x.halves.all (fun e => decide (e.1 < 307200 * 2)) &&
  rising (x.cells.map (·.1)) && x.cells.all (fun e => decide (e.1 < 307200 * 8) && (e.2.mode != .mem || e.1 / 8 % 4 == 3)) &&
  rising (x.carry.map (·.1)) && x.carry.all (fun e => decide (e.1 < 307200)) &&
  rising (x.xings.map (·.1)) && x.xings.all (fun e => decide (e.1 < 4096 ∧ e.1 % 1024 < if e.1 < 2048 then 540 else 450)) &&
  rising (x.pclk.map (·.1)) && x.pclk.all (fun e => decide (e.1 < 8) && e.2.clock) &&
  rising (x.kclk.map (·.1)) && x.kclk.all (fun e => decide (e.1 < 64) && e.2.clock) &&
  rising (x.nclk.map (·.1)) && x.nclk.all (fun e => decide (e.1 < 32) && e.2.clock) &&
  tracksWf x && pinsWf x && x.irqs.all (fun e => decide (e.1 < 32))

/-- The command is well formed: what its operands must keep beside the bounds that their types give. -/
def Instr.wf : Instr → Bool
  | .registerWrite m _ off size _ _ | .readClear m _ off size => m.wf && windowOff off && accessSize size
  | .highHalfRead m _ off => m.wf && windowOff off && off % 8 == 4
  | .wdtKick m _ _ | .wdtEnable m _ _ | .softwareReset m _ _ _ | .rstBlockWrite m _ _ | .tamperLogClear m _ | .tamperCfgLock m _
  | .refSelWrite m _ _ _ | .refForce m _ _ _ | .gateWrite m _ _ _ | .altSwitch m _ _ _ | .altForce m _ _ _ | .upllEnable m _ _ _
  | .clkMonStart m _ _ | .confirm m _ | .verifySlot m _ | .verifyMem m | .loadMem m _ | .warmBuild m | .nvcErase m | .nvcProgram m
  | .nvcBlankCheck m | .nvcRead m | .nvcResetFlash m | .bbWrite m | .bbEraseOld m | .fuseKeyProgram m | .pkhProgram m _
  | .pkhRevoke m _ | .svnCommit m | .policyProgram m | .lcAdvance m _ | .lockdownCmd m | .rightsLock m | .captureArm m _ _
  | .captureAbort m _ | .readbackStart m _ _ | .fenceClose m _ _ _ _ | .fenceRelease m _ _ | .sweepEnable m _ _ | .doorbell m _ _
  | .seaStart m _ _ | .seaHalt m _ _ | .seaMode m _ _ _ | .tokenWrite m _ _ | .descriptorWrite m _ _ _ _ | .cqPop m _ _
  | .cqComplete m _ _ _ _ _ | .cqFlush m _ _ | .migrateOp m _ _ | .evacuateUnit m _ _ | .abortOp m _ _ | .abortUnit m _ _
  | .epochClose m _ | .epochAbort m _ | .dfdEnable m _ _ | .ownerChange m _ _ _ | .bankPowerRequest m _ _ _ | .bankWipe m _ _
  | .secureSet m _ | .eccChkRead m _ | .eccChkWrite m _ _ | .rlcFlush m _ | .rlcEccArm m _ _ | .bdlTest m _ _ _ _ _
  | .ddrEccFlip m _ _ _ | .mapSetEnable m _ _ _ | .loadCurrent m _ _ _ _ | .loadNext m _ _ _ _ | .abandon m _ _ _ _ | .rekey m _ _ _ _
  | .promote m _ _ _ _ | .meeClear m _ _ _ _ | .meeInit m _ _ _ _ _ | .qpllWrite m _ _ _ _ | .laneEnable m _ _ _ | .laneRestart m _ _
  | .readapt m _ _ | .eyeScanStart m _ _ _ | .pairBypassWrite m _ _ _ | .prbsWrite m _ _ _ | .l2Read m _ | .l2ReadIndex m _ _
  | .l2Write m _ | .l2Delete m _ | .flushPort m _ | .flushVlan m _ | .flushDynamic m _ | .vlanRead m _ _ | .vlanWrite m _ _
  | .nhRead m _ _ | .nhWrite m _ _ | .ringTailWrite m _ _ _ | .timeWrite m _ _ | .timeAdjWrite m _ _ | .timeStep m _ _
  | .portCfgWrite m _ _ _ | .releaseWrite m _ _ | .mtimeWrite m _ _ | .claim m _ _ | .claimComplete m _ _ _ | .version m _
  | .sensors m _ | .ladder m _ | .thermal m _ | .smbPublish m _ | .smbFetch m _ | .tamperInfo m _ | .sntBegin m _ _ | .sntCommit m _ _
  | .sntRollback m _ _ | .ladderRequest m _ _ _ | .fanRetry m _ | .monEnable m _ _ _ => m.wf
  | .endRecord design => design.all (fun e => decide (e.1 < 8) && e.2.wf)
  | .ckmux2Sel _ mux _ | .ckmux2Force _ mux _ | .ckmux2Stuck _ mux _ | .ckmux2SwitchComplete _ mux => decide (mux < 65536)
  | .xipRead m off size => m.wf && decide (1 ≤ size ∧ off.val + size ≤ 0x40000)
  | .nocTargetRequest _ _ _ req | .seNocAccess req | .bankAccess req | .packetInject req | .ddrRequest req => req.wf
  | .cmpstrmTx _ flit | .flitReceive _ _ _ flit => flitWf flit
  | .sweepSlot _ flips _ _ => flips.all (fun b => decide (b < 4096))
  | .bankAtomic req => req.wf && (req.op == .atomicAdd || req.op == .atomicSwap || req.op == .atomicCas)
  | .packetPark rid _ | .completionTimeout rid _ | .quarantineExpiry rid _ | .lateCompletion rid _ => decide (rid < 4096)
  | .nocRead req => req.wf && req.op == .read
  | .nocWrite req => req.wf && req.op == .write
  | .readShared m line | .readUnique m line | .upgrade m line | .cleanOp m line | .cleanInval m line => m.wf && lineWf line
  | .writeback _ line | .evict _ line | .snpShared _ line | .snpInval _ line | .snpRecall _ line => lineWf line
  | .backgroundScan _ _ eyes | .eyeScanDone _ _ _ eyes => decide (1 ≤ eyes.length ∧ eyes.length ≤ 3)
  | .frameReceive _ _ frame _ | .pauseReceive _ _ frame _ | .tnbDataReceive _ _ frame _ | .helloReceive _ _ frame _ => frameWf frame
  | .tsPop m _ size => m.wf && accessSize size
  | .stagedWrite m _ off _ => m.wf && windowOff off
  | .sensorUpdate _ _ mv => mv.length == 6
  | .thermalStep rpm => rpm.length == 2
  | .flipFlopEdge _ site ins late => match site with
    | .cell _ _ _ _ => true
    | .io _ _ | .send _ _ _ _ | .recv _ _ _ => ins.isEmpty && !late
  | .smbusHostWrite words => words.length == 8
  | _ => true

end Sys2Proof
end

