-- ==== Sys2Proof/Tests/Slice0.lean ====
section
/-!
SUPPORT. Tests. An ill-formed command for each check of WellFormed; the manual's worked examples; and, for each obligation with hypotheses,
a theorem `witness_<Name>` that shows for each of its clauses a concrete state and operands that meet the clause's hypotheses together.
-/

open Sys2Proof Sys2Proof.Machine

namespace Sys2Proof.Tests

set_option maxRecDepth 100000
set_option Elab.async false

/-- A PX2 with both dies, once power-on reset has ended. -/
def duo : State := { State.reset with boot := { State.reset.boot with inReset := none }, dev := { State.reset.dev with part := .px2 } }
/-- The same with die 1 blank. -/
def base : State := { duo with dev := { duo.dev with blank := 2 } }
/-- Die 0 with an image running. -/
def run : State := (base.p 0 R.SYS_BOOT_STATUS.PHASE Phase.running).p 0 R.CFG_WAKE_STATUS.DONE_STEPS 0x1FF
/-- A core of die 0 in machine mode. -/
def cm : Master := ⟨.coreM, 1032⟩

/-! ## Ill-formed commands are refused -/

def badM : Master := ⟨.coreM, 4096⟩
def goodReq : Req := ⟨cm, 0, .read, 0x10800040, 8, [], []⟩
def word0 : MWord := ⟨0, false⟩

theorem test_wf_accepts : (Instr.registerWrite cm 0 0x110 4 7 false).wf = true ∧ (Instr.packetInject goodReq).wf = true ∧
    (Instr.bankAccess { goodReq with op := .write, data := [word0] }).wf = true := by decide +kernel
theorem test_wf_master : (Instr.wdtKick badM 0 0).wf = false := by decide +kernel
theorem test_wf_offset : (Instr.registerWrite cm 0 0x1000000 4 7 false).wf = false ∧ (Instr.readClear cm 0 0x1000000 4).wf = false ∧
    (Instr.stagedWrite cm 0 0x1000000 7).wf = false := by decide +kernel
theorem test_wf_size : (Instr.registerWrite cm 0 0x110 3 7 false).wf = false ∧ (Instr.tsPop cm 0 16).wf = false ∧
    (Instr.xipRead cm 0 0).wf = false ∧ (Instr.xipRead cm 0x3FFFF 2).wf = false := by decide +kernel
theorem test_wf_high_half : (Instr.highHalfRead cm 0 0x110).wf = false := by decide +kernel
theorem test_wf_mux : (Instr.ckmux2Sel 0 65536 true).wf = false ∧ (Instr.ckmux2Force 0 65536 true).wf = false ∧
    (Instr.ckmux2Stuck 0 65536 true).wf = false ∧ (Instr.ckmux2SwitchComplete 0 65536).wf = false := by decide +kernel
theorem test_wf_design : (Instr.endRecord [(8, DieDesign.empty)]).wf = false := by decide +kernel
theorem test_wf_request : (Instr.packetInject { goodReq with size := 0 }).wf = false ∧
    (Instr.packetInject { goodReq with size := 4097 }).wf = false ∧ (Instr.packetInject { goodReq with data := [word0] }).wf = false ∧
    (Instr.bankAccess { goodReq with op := .write }).wf = false ∧
    (Instr.bankAccess { goodReq with op := .write, data := [word0], be := [1, 2] }).wf = false ∧
    (Instr.bankAtomic { goodReq with op := .atomicAdd }).wf = false ∧ (Instr.bankAtomic { goodReq with op := .atomicCas, data := [word0] }).wf = false ∧
    (Instr.nocRead { goodReq with op := .writeback, data := [word0] }).wf = false := by decide +kernel
theorem test_wf_request_kind : (Instr.bankAtomic goodReq).wf = false ∧ (Instr.nocWrite goodReq).wf = false ∧
    (Instr.nocRead { goodReq with op := .write, data := [word0] }).wf = false := by decide +kernel
theorem test_wf_rid : (Instr.packetPark 4096 0).wf = false ∧ (Instr.completionTimeout 4096 0).wf = false ∧
    (Instr.quarantineExpiry 4096 0).wf = false ∧ (Instr.lateCompletion 4096 0).wf = false := by decide +kernel
theorem test_wf_line : (Instr.readShared cm (2 ^ 48)).wf = false ∧ (Instr.evict 0 (2 ^ 48)).wf = false := by decide +kernel
theorem test_wf_flit : (Instr.cmpstrmTx 0 [1, 2]).wf = false ∧ (Instr.flitReceive 0 0 0 []).wf = false := by decide +kernel
theorem test_wf_frame : (Instr.frameReceive 0 8 [] [⟨0, 0, 0, 0, false, 32⟩]).wf = false := by decide +kernel
theorem test_wf_lengths : (Instr.thermalStep [3000]).wf = false ∧ (Instr.smbusHostWrite []).wf = false ∧
    (Instr.sensorUpdate 0 0 []).wf = false ∧ (Instr.eyeScanDone 0 9 0 []).wf = false ∧ (Instr.backgroundScan 0 9 []).wf = false ∧
    (Instr.sweepSlot 0 [4096] false 0).wf = false := by decide +kernel

def sstlPin : IoCfg := ⟨.sstl 15, true, 8, false, false, .none, .single, .single, .none, 1, 0, 0, false, .global 0, .highZ, .highZ⟩
def port512 : BmPort := ⟨6, .new, false, 0⟩
def bm512 : BmCfg := ⟨port512, port512, .global 0, .global 0, true, [], 0, 0⟩

theorem test_wf_design_numbers : { DieDesign.empty with irqs := [(32, none)] }.wf = false ∧
    { DieDesign.empty with kclk := [(64, .tap 0)] }.wf = false ∧ { DieDesign.empty with nclk := [(5, .logic)] }.wf = false ∧
    { DieDesign.empty with xings := [(2048 + 450, ⟨true, .tap 0, .zero⟩)] }.wf = false ∧
    { DieDesign.empty with cells := [(8, ⟨.mem, 0, false, false, .mem64⟩)] }.wf = false := by decide +kernel
theorem test_wf_design_tracks : { DieDesign.empty with gtracks := [(3, ⟨.logic, 1⟩)] }.wf = false ∧
    { DieDesign.empty with rtracks := [(40, .tap 0)] }.wf = false ∧ { DieDesign.empty with muxes := [(7, ⟨120, .tap 0, .tap 1⟩)] }.wf = false ∧
    { DieDesign.empty with gtracks := (List.range 25).map (fun k => (k, ⟨.tap 0, 1⟩)) }.wf = false := by decide +kernel
theorem test_wf_design_pins : { DieDesign.empty with pins := [(5, sstlPin)] }.wf = true ∧
    { DieDesign.empty with pins := [(5, sstlPin), (6, { sstlPin with std := .lvcmos 12 })] }.wf = false ∧
    { DieDesign.empty with pins := [(5, { sstlPin with drive := 16 })] }.wf = false ∧
    { DieDesign.empty with pins := [(100, sstlPin)] }.wf = false := by decide +kernel
theorem test_wf_design_memories : { DieDesign.empty with bmems := [(9, bm512)] }.wf = true ∧
    { DieDesign.empty with bmems := [(9, { bm512 with a := { port512 with logW := 5 } })] }.wf = false ∧
    { DieDesign.empty with bmems := [(9, { bm512 with chain := 1 })] }.wf = false ∧
    { DieDesign.empty with bmems := [(9, { bm512 with chain := 5 })] }.wf = false := by decide +kernel

/-! ## Worked examples of the manual -/

/-- A PX8 with every die. -/
def px8 : State := { run with dev := { run.dev with part := .px8, blank := 0 } }

/-- 00_scope: the master on port 3 of router (2, 3) of D5 is 0x0B43. R302: NP6 of D4 is 0x0A12. -/
theorem test_requester_id : px8.rid 5 2 3 3 = 0x0B43 ∧ px8.node 5 2 3 = 360 ∧ px8.rid 4 2 2 2 = 0x0A12 := by decide +kernel

/-- 01_architecture, the example after R26: engine 17 of D3, bank 7 of D6, the control window of D3, and a KeyID on bank memory. -/
theorem test_system_address :
    decodeAddr px8 cm 0 0x250C0000 = .se 3 17 0x40000 ∧ decodeAddr px8 cm 0 0x03722000 = .ctrl 3 0x722000 ∧
    decodeAddr px8 cm 0 0x1DC00000 = .bank 6 7 0 ∧ decodeAddr px8 cm 0 0x000500001DC00000 = .none := by decide +kernel

/-- 14_dram_and_encryption, the example of one interleave set: channel 5, local address 0x0123_4000. -/
def mapped8 : State := (List.range 16).foldl (fun s ch => s.p (ch / 2) (R.DDR_STATUS.STATE (ch % 2)) DdrState.ready)
  (((((px8.p 0 (R.DDR_MAP_CTL.EN 0) 1).p 0 (R.DDR_MAP_CTL.CHMASK 0) 0xFFFF).p 0 (R.DDR_MAP_CTL.GRAIN_LOG2 0) 12).p 0
    (R.DDR_MAP_RNG.SIZE 0) 1024).p 0 R.CFG_WAKE_STATUS.DONE_STEPS 0x1FF)
theorem test_interleave : mapSet mapped8 0 0 0x12345000 = some (5, 0x01234000) := by decide +kernel
theorem test_line_place : subKey 5 0x01234000 = 10 ∧ bankOf mapped8 5 298240 % 32 = 1 * 8 + 5 ∧ rowOf mapped8 5 298240 = 36 := by decide +kernel
theorem test_metadata :
    metaWord ((mapped8.p 2 (R.MEE_PROT.EN 1 0) 1).p 2 (R.MEE_PROT.SIZE 1 0) 4096 |>.p 2 (R.MEE_PROT.META 1 0) 4096) 5 0x01234000 * 8
      = 0x100048D000 := by decide +kernel

/-- 07_fabric_memory_and_arithmetic, the example after R180: O is −923,872 in 24 bits and LSC is 19. -/
theorem test_narrow : (narrow 24 false (BitVec.ofInt 64 (-15500000000000)) 24).toInt = -923872 ∧
    narOvf 24 (BitVec.ofInt 64 (-15500000000000)) 24 = false ∧ redundantSign (BitVec.ofInt 64 (-15500000000000)) = 19 := by decide +kernel

/-- 15_serial_lanes, the worked example: PLL A at 13.28125 GHz, PLL B at 12.890625 GHz, and a partner with 10GBASE-KR and 25GBASE-KR. -/
def backplane : State := ((((((((run.p 0 (R.LAN_QPLLA.EN 2) 1).p 0 (R.LAN_QPLLA.INT 2) 85).p 0 (R.LAN_QPLLA.FRAC 2) 0).p 0
  (R.LAN_QSTATUS.LOCK_A 2) 1).p 0 (R.LAN_QPLLB.EN 2) 1).p 0 (R.LAN_QPLLB.INT 2) 82).p 0 (R.LAN_QPLLB.FRAC 2) 0x800000).p 0
  (R.LAN_QSTATUS.LOCK_B 2) 1)
theorem test_negotiation : (ethAvail backplane 0 8).map PhyType.code = [2, 3, 6, 9] ∧ tnbAvail backplane 0 8 = [2, 4, 5, 6] ∧
    anResolve backplane 0 8 3 = some (2, 25781250000, false, 1, 0) ∧
    modeFor backplane 0 8 25781250000 false 1 0 = some (modeWord 1 2 0 1 0) := by decide +kernel

/-- 12_network and 13_die_links, R305, R306 and R328: fields written out at their places, and a record read back from bytes. -/
theorem test_packets : (ReqFlit.bits ⟨360, 3, 0x0B43, 17, 4, 2, 0, 1, 1, 5, 0x1DC00000⟩).toNat =
      360 * 2 ^ 119 + 3 * 2 ^ 116 + 0x0B43 * 2 ^ 104 + 17 * 2 ^ 95 + 4 * 2 ^ 91 + 2 * 2 ^ 88 + 2 ^ 81 + 2 ^ 80 + 5 * 2 ^ 48 + 0x1DC00000 ∧
    (RspFlit.bits ⟨9, 1, 8, 7, 3, 2, 1, 2⟩).toNat =
      9 * 2 ^ 55 + 2 ^ 52 + 8 * 2 ^ 43 + 7 * 2 ^ 40 + 3 * 2 ^ 36 + 2 * 2 ^ 27 + 2 ^ 24 + 2 ∧
    takeRecords true 40 ([0, 0x20] ++ bytesLE 8 (RspFlit.bits ⟨9, 1, 8, 7, 3, 2, 1, 2⟩).toNat ++ [0, 0x20]) =
      some ([.rsp ⟨9, 1, 8, 7, 3, 2, 1, 2⟩], [0, 0x20]) := by decide +kernel
/-! ## Witnesses of the obligations' hypotheses -/

/-- A check of `Issues` that can be evaluated. -/
def issuesB (s : State) (d i : Nat) (e : SEng) (op w : Nat) : Bool :=
  seIssues s d i && decide (e = s.eng d i) && decide (pmSee (s.pmWord d i e.pc) = some (BitVec.ofNat 32 w, false)) &&
    decide (w < 2 ^ 32) && decide (w / 2 ^ 26 = op) && (seUses op).any (fun u => w % 2 ^ 26 &&& (2 ^ 26 - 1 - u) == 0) &&
    (!e.br.isSome || !seNoDelay op) && (!e.outer.isSome || !seNoBlock op)

theorem issues_of {s : State} {d i : Nat} {e : SEng} {op w : Nat} (h : issuesB s d i e op w = true) : Issues s d i e op w := by
  simp only [issuesB, Bool.and_eq_true, decide_eq_true_eq, Bool.or_eq_true, Bool.not_eq_true'] at h
  obtain ⟨⟨⟨⟨⟨⟨⟨h1, h2⟩, h3⟩, h4⟩, h5⟩, h6⟩, h7⟩, h8⟩ := h
  refine ⟨h1, h2, ⟨_, h3, ?_⟩, h5, ?_, fun hb => ?_, fun hb => ?_⟩
  · rw [BitVec.toNat_ofNat, Nat.mod_eq_of_lt h4]
  · cases hu : seUses op with
    | none => simp [hu] at h6
    | some u => exact ⟨u, rfl, by simpa [hu] using h6⟩
  · rcases h7 with h7 | h7
    · rw [hb] at h7; cases h7
    · exact h7
  · rcases h8 with h8 | h8
    · rw [hb] at h8; cases h8
    · exact h8

def clocked : State := base.setClk 0 { base.clkOf 0 with everLocked := true }
theorem witness_IdleStepTicks :
    (base.pending = [] ∧ hardClocks base base.head = false ∧ Canonical base) ∧
    (clocked.pending = [] ∧ Canonical clocked ∧ hardClocks clocked clocked.head = true ∧ 0 ∈ clocked.dies ∧ clocked.mset = none) :=
  ⟨by unfold Canonical; decide +kernel,
    by unfold Canonical; decide +kernel⟩

theorem witness_StepKeepsCanonical :
    (Canonical base) :=
  by unfold Canonical; decide +kernel

theorem witness_IdentityIsFixed :
    (base.pending = []) :=
  by decide +kernel

def dog : State := base.p 0 R.SYS_WDT_CTRL.EN 1
theorem witness_SysWritesComplete :
    ((Reaches base cm 0 ⟨.SYS_WDT_CTRL, 0, 0⟩ ∧ base.on 0 R.SYS_WDT_CTRL.EN = false ∧
      R.SYS_WDT_CTRL.TIMEOUT.of (written base 0 ⟨.SYS_WDT_CTRL, 0, 0⟩ 0x8000000F) ≠ 0) ∧
    (Reaches base cm 0 ⟨.SYS_WDT_KICK, 0, 0⟩)) ∧
    ((Reaches dog cm 0 ⟨.SYS_WDT_KICK, 0, 0⟩ ∧ (0 : Word) ≠ 0x4B1C4B1C ∧ dog.on 0 R.SYS_WDT_CTRL.EN = true) ∧
    (Reaches base cm 0 ⟨.SYS_RST_SW, 0, 0⟩)) ∧
    (Reaches base cm 0 ⟨.SYS_RST_BLOCK, 0, 0⟩) :=
  ⟨by unfold Reaches; decide +kernel,
    by unfold Reaches; decide +kernel,
    by unfold Reaches; decide +kernel⟩

def boxed : State := base.setMbox 0 (some 3)
theorem witness_MailboxComplete :
    ((Reaches base cm 0 ⟨.SYS_MBOX_CMD, 0, 0⟩ ∧ mboxMaster base cm = true ∧ base.on 0 R.SYS_MBOX_STATUS.BUSY = false) ∧
    (boxed.mboxOf 0 = some 3) ∧
    ({ base with sec := { base.sec with erasing := true } }.sec.erasing = true) ∧
    (base.sec.erasing = false ∧ base.head ≠ 1)) :=
  by unfold Reaches; decide +kernel

def core3 : State := base.setCore 0 3 Core.run
def dogRuns : State := run.p 0 R.SYS_WDT_CTRL.EN 1
def dbg : State := core3
def halted3 : State := base.setCore 0 3 Core.halted
theorem witness_CoresComplete :
    ((core3.present 0 = true ∧ core3.coreState 0 3 = Core.run) ∧
    (dogRuns.present 0 = true ∧ wdtRuns dogRuns 0 = true) ∧
    (debugOpen dbg 0 = true) ∧
    (debugOpen dbg 0 = true ∧ dbg.coreState 0 3 ≠ Core.reset) ∧
    (debugOpen halted3 0 = true ∧ halted3.coreState 0 3 = Core.halted) ∧
    (Reaches run cm 0 ⟨.APC_RELEASE, 0, 0⟩ ∧ (∀ c : Fin 4, (0xF : BitVec 4).getLsbD c = true ∨ run.coreState 0 c = Core.reset))) ∧
    (Reaches run cm 0 ⟨.APC_MTIME, 0, 0⟩ ∧ (0 : Nat) = run.head) :=
  ⟨by unfold Reaches; decide +kernel,
    by unfold Reaches; decide +kernel⟩

def pulsed : State := { base with pulses := [(0, 639)] }
theorem witness_EventsComplete :
    ((base.present 0 = true ∧ base.pathUp (evOwner base 639) 0 = true) ∧
    ((0, 639) ∈ pulsed.pulses) ∧
    (Reaches base cm 0 ⟨.EVT_CLAIM, 7, 0⟩) ∧
    ((⟨true, true, true, false⟩ : EvSrc).claimed = true ∧ (⟨true, false, false, false⟩ : EvSrc).claimed = false)) :=
  by unfold Reaches; decide +kernel

def oneEvent : State := ((base.setEv 0 5 (EvSrc.takePulse (base.evOf 0 5))).p 0 (R.EVT_PRIO.PRIO 5) 3).setBit 0 (R.EVT_EN.EN 0 0) 6
theorem witness_ClaimIsBest :
    (evBest oneEvent 0 0 = some 5 ∧ (evListed oneEvent 0).Pairwise (· < ·)) :=
  by decide +kernel

def locked : State := { base with boot := { base.boot with lockdown := true } }
def progLow : State := { base with boot := { base.boot with inReset := some .reconfig } }
def powered : State := { base with boot := { base.boot with inReset := some .power } }
def blocked : State := base.setLad 0 { base.ladOf 0 with blocks := 0x3FFF }
theorem witness_ResetEventsComplete :
    ((Rail.core ≠ .aux ∧ base.present 0 = true) ∧
    (base.boot.lockdown = false) ∧
    (locked.boot.lockdown = true) ∧
    (progLow.boot.inReset = some .reconfig) ∧
    (powered.boot.inReset = some .power ∧ Canonical powered ∧ powered.on powered.head R.SYS_BOOT_STATUS.PROG_N_PIN = true) ∧
    ((blocked.ladOf 0).blocks ≠ 0)) ∧
    (progLow.boot.inReset = some .reconfig ∧ Scope.reconfig.rank ≤ Scope.reconfig.rank ∧ Scope.device.rank < Scope.reconfig.rank ∧
      base.boot.inReset = none) :=
  ⟨by unfold Canonical; decide +kernel,
    by decide +kernel⟩

theorem witness_FullResetLeaves :
    (Canonical base ∧ Scope.device ≠ .blocks ∧ 15 < 16 ∧ 7 < 8 ∧ 255 < 256 ∧ base.boot.lockdown = false ∧ 0 ∈ base.dies) ∧
    (Canonical run ∧ Scope.power ≠ .blocks) :=
  ⟨by unfold Canonical; decide +kernel,
    by unfold Canonical; decide +kernel⟩

def house : State := setRoot (base.p 0 R.SYS_BOOT_STATUS.PHASE Phase.housekeep) 0 Root.locked
def cold : State := { house with boot := { house.boot with cleared := true, judgeHeat := true } }
def held : State := { cold with boot := { cold.boot with modeHeld := true } }
def heating : State := base.p 0 R.SYS_BOOT_STATUS.PHASE Phase.heaterHold
def waits : State := base.p 0 R.SYS_BOOT_STATUS.PHASE Phase.initWait
def loading : State := { base.p 0 R.SYS_BOOT_STATUS.PHASE Phase.load with cfg := { base.cfg with flash := { base.cfg.flash with plan := some [1] } } }
def goodFlash : Sfdp := ⟨true, 1, 256, 65536, 16777216⟩
def empty : State := base.p 0 R.SYS_BOOT_STATUS.PHASE Phase.noImage
theorem witness_PhasesComplete :
    ((house.boot.inReset = none ∧ house.phase = Phase.housekeep ∧ house.present house.head = true ∧ (∀ d ∈ house.dies, rootRuns house d = true)) ∧
    (cold.boot.inReset = none ∧ cold.phase = Phase.housekeep ∧ cold.boot.cleared = true ∧ (∀ d ∈ cold.dies, rootRuns cold d = true) ∧
      cold.boot.judgeHeat = true ∧ -401 < tHold cold) ∧
    (tHold cold ≤ -400 ∧ cold.boot.modeHeld = false) ∧
    (held.boot.cleared = true ∧ (∀ d ∈ held.dies, rootRuns held d = true) ∧ tHold held ≤ -400 ∧ held.boot.modeHeld = true)) ∧
    ((heating.boot.inReset = none ∧ heating.phase = Phase.heaterHold ∧ tHold heating ≤ -400) ∧
    (waits.boot.inReset = none ∧ waits.phase = Phase.initWait) ∧
    (loading.boot.inReset = none ∧ loading.phase = Phase.load ∧ flashMode loading = true ∧ loading.cfg.flash.ready = false ∧
      loading.boot.warm = false ∧ flashOk loading.flashDual ⟨false, 0, 0, 0, 0⟩ goodFlash = false) ∧
    (loading.cfg.flash.plan = some [1] ∧ flashOk loading.flashDual goodFlash goodFlash = true) ∧
    (empty.boot.inReset = none ∧ jtagOpen empty = true ∧ empty.cfg.parse.kind = .idle ∧ empty.boot.warm = false ∧ empty.phase = Phase.noImage)) :=
  ⟨by decide +kernel,
    by decide +kernel⟩

def wakes (code : Nat) : State := setRoot ((base.p 0 R.CFG_WAKE_STATUS.ACTIVE 1).p 0 R.CFG_WAKE_SEQ.SLOT code) 0 Root.locked
def unlocked : State := setRoot (wakes WStep.lock) 0 Root.off
def trains : State := ((wakes WStep.ddrw).p 0 (R.DDR_CFG.EN 1) 1).p 0 (R.DDR_STATUS.STATE 1) DdrState.training
def slot7 : State := base.p 0 R.CFG_WAKE_STATUS.SLOT 7
theorem witness_WakeStepsComplete :
    ((wakeAt (wakes WStep.lock) WStep.lock = true ∧ wakeLocked (wakes WStep.lock) = true) ∧
    (wakeAt unlocked WStep.lock = true ∧ wakeLocked unlocked = false) ∧
    (wakeAt (wakes WStep.goe) WStep.goe = true) ∧
    (wakeAt (wakes WStep.gsr) WStep.gsr = true) ∧
    (wakeAt (wakes WStep.gwe) WStep.gwe = true) ∧
    (wakeAt (wakes WStep.ddrw) WStep.ddrw = true ∧ (wakes WStep.ddrw).channels.any (ddrTraining (wakes WStep.ddrw)) = false) ∧
    (wakeAt trains WStep.ddrw = true ∧ trains.channels.any (ddrTraining trains) = true) ∧
    (wakeAt (wakes WStep.core) WStep.core = true) ∧
    (wakeAt (wakes WStep.lane) WStep.lane = true) ∧
    (wakeAt (wakes WStep.done) WStep.done = true) ∧
    (wakeAt (wakes 0) 0 = true)) ∧
    (Canonical slot7 ∧ 8 < 9 ∧ 0 ∈ slot7.dies ∧ slot7.g 0 R.CFG_WAKE_STATUS.SLOT = 7) ∧
    (Canonical base ∧ 0 < 9 ∧ base.g 0 R.CFG_WAKE_STATUS.SLOT < 7) :=
  ⟨by decide +kernel,
    by unfold Canonical; decide +kernel,
    by unfold Canonical; decide +kernel⟩

def refs : State := setActive base 0 3 true
def onZero : State := refs.p 0 R.CLK_REF_CTRL.SEL 0
def holds : State := setRoot refs 0 Root.holdover
def oldLow : State := (setActive refs 0 (refCur refs 0) true).setClk 0 { (setActive refs 0 (refCur refs 0) true).clkOf 0 with ref := ⟨.oldLow, 3⟩ }
def newLow : State := refs.setClk 0 { refs.clkOf 0 with ref := ⟨.newLow, 3⟩ }
def pkg : State := setActive duo 1 4 true
def pkgGone : State := setActive (setRoot duo 0 Root.locked) 1 4 false
def pkgRan : State := (pkg.setClk 1 { pkg.clkOf 1 with everLocked := true }).p 1 R.CLK_ROOT_CFG.HOLD_ON_FREQ 0
def ppb5 : Vector Int 5 := ⟨#[0, 0, 0, 0, 250000], rfl⟩
def measured : State := [0, 1, 2, 3, 4].foldl (measureInput 1 (fmonPass pkgRan 1 ppb5)) pkgRan
def measuredV : State := measured.setClk 1 { measured.clkOf 1 with late := 0 }
theorem witness_ReferencesComplete :
    (Reaches onZero cm 0 ⟨.CLK_REF_CTRL, 0, 0⟩ ∧ (0 : Nat) = onZero.head ∧ (3 : Nat) ≠ onZero.g 0 R.CLK_REF_CTRL.SEL ∧
      inpActive onZero 0 3 = true ∧ onZero.on 0 R.CLK_REF_CTRL.AUTO = false ∧ onZero.on 0 R.CLK_REF_STATUS.SWITCHING = false) ∧
    (Reaches holds cm 0 ⟨.CLK_REF_CTRL, 0, 0⟩ ∧ (0 : Nat) = holds.head ∧ inpActive holds 0 3 = true ∧ rootState holds 0 = Root.holdover ∧
      holds.on 0 R.CLK_REF_CTRL.AUTO = false) ∧
    ((Reaches base cm 0 ⟨.CLK_REF_CTRL, 0, 0⟩ ∧ (0 : Nat) = base.head ∧ rootState base 0 ≠ Root.holdover) ∧
    ((oldLow.clkOf 0).ref.step = .oldLow ∧ inpActive oldLow 0 (refCur oldLow 0) = true ∧ oldLow.fullStopped 0 = false) ∧
    ((newLow.clkOf 0).ref.step = .newLow ∧ inpActive newLow 0 (newLow.clkOf 0).ref.dst = true ∧ newLow.fullStopped 0 = false)) ∧
    (((newLow.clkOf 0).ref.step ≠ .idle ∧ newLow.on 0 R.CLK_REF_STATUS.STUCK = false ∧ inpActive newLow 0 (newLow.clkOf 0).ref.dst = true ∧
      newLow.fullStopped 0 = false) ∧
    (inpHere refs 0 3 = true ∧ inpActive refs 0 3 = true) ∧
    (inpHere pkg 1 4 = true ∧ inpActive pkg 1 4 = true) ∧
    (inpEnabled pkgGone 1 4 = true ∧ inpSource pkgGone 4 = true ∧ inpActive pkgGone 1 4 = false) ∧
    (inpEnabled pkg 1 4 = true ∧ inpActive pkg 1 4 = true ∧ (pkg.clkOf 1).everLocked = false) ∧
    (inpEnabled pkgRan 1 4 = true ∧ inpActive pkgRan 1 4 = true ∧ (pkgRan.clkOf 1).everLocked = true ∧ (pkgRan.clkOf 1).measOk.getLsbD 4 = false)) ∧
    ((pkgRan.clkOf 1).everLocked = true ∧ pkgRan.on 1 R.CLK_ROOT_CFG.HOLD_ON_FREQ = false) :=
  ⟨by unfold Reaches; decide +kernel,
    by unfold Reaches; decide +kernel,
    by unfold Reaches; decide +kernel,
    by decide +kernel,
    by decide +kernel⟩

def root (v : Nat) : State := setRoot (setActive base 0 3 true) 0 v
def quiet : State := setRoot base 0 Root.acquire
def history : State := (root Root.locked).p 0 R.CLK_ROOT_STATUS.HIST_VALID 1
theorem witness_RootsComplete :
    ((rootState (root Root.acquire) 0 = Root.acquire ∧ refStopped (root Root.acquire) 0 = false) ∧
    (refStopped quiet 0 = true) ∧
    (rootState (root Root.locked) 0 = Root.locked) ∧
    (rootState (root Root.relock) 0 = Root.relock ∧ refStopped (root Root.relock) 0 = false) ∧
    (rootState (root Root.acquire) 0 ≠ Root.off) ∧
    (Canonical history ∧ rootState history 0 = Root.locked ∧ history.on 0 R.CLK_ROOT_STATUS.HIST_VALID = true ∧
      history.on 0 R.CLK_REF_CTRL.AUTO = false)) ∧
    ((Canonical (root Root.relock) ∧ rootState (root Root.relock) 0 = Root.relock ∧ (root Root.relock).on 0 R.CLK_REF_CTRL.AUTO = false) ∧
    (rootState (root Root.locked) 0 = Root.locked ∧ (root Root.locked).on 0 R.CLK_ROOT_STATUS.HIST_VALID = false) ∧
    (rootState quiet 0 = Root.acquire ∧ rootState base 0 = Root.off ∧ rootState (root Root.holdover) 0 = Root.holdover)) :=
  ⟨by unfold Canonical; decide +kernel,
    by unfold Canonical; decide +kernel⟩

def gr (k : Nat) : RegRef := ⟨[RegId.CLK_GATE_EN0, .CLK_GATE_EN1, .CLK_GATE_EN2, .CLK_GATE_EN3].getD k .CLK_GATE_EN4, 0, 0⟩
def gbits (s : State) (k : Nat) : Nat := (List.range 32).foldl (fun a j => if gateOpen s 0 (32 * k + j) then a + 2 ^ j else a) 0
def others (s : State) (k g : Nat) (v : Word) : Bool := (List.range 32).all (fun j => j == g % 32 || !(gateMask k).testBit j || v.getLsbD j == gateOpen s 0 (32 * k + j))
def openTry (s : State) (g : Nat) : Word := BitVec.ofNat 32 (gbits s (g / 32) ||| 2 ^ (g % 32))
def closeTry (s : State) (g : Nat) : Word := BitVec.ofNat 32 (gbits s (g / 32) &&& (2 ^ 32 - 1 - 2 ^ (g % 32)))
def tapOn : State := base.p 0 (R.CLK_FTAP.DIV 15) 4
def busyGate : State := base
theorem witness_GatesComplete :
    (Reaches tapOn cm 0 (gr 0) ∧ 23 ∈ gatesShallowFirst ∧ 23 / 32 = 0 ∧ others tapOn 0 23 (openTry tapOn 23) = true ∧
      (openTry tapOn 23).getLsbD (23 % 32) = true ∧ gateOpen tapOn 0 23 = false ∧ openBlocker tapOn 0 23 = none) ∧
    (Reaches base cm 0 (gr 0) ∧ 23 ∈ gatesShallowFirst ∧ 23 / 32 = 0 ∧ others base 0 23 (openTry base 23) = true ∧
      (openTry base 23).getLsbD (23 % 32) = true ∧ gateOpen base 0 23 = false ∧ openBlocker base 0 23 = some 23) ∧
    (Reaches base cm 0 (gr 4) ∧ 143 ∈ gatesShallowFirst ∧ 143 / 32 = 4 ∧ others base 4 143 (closeTry base 143) = true ∧
      (closeTry base 143).getLsbD (143 % 32) = false ∧ gateOpen base 0 143 = true ∧ closeBlocker base 0 143 = none) ∧
    (Reaches base cm 0 (gr 1) ∧ 36 ∈ gatesShallowFirst ∧ 36 / 32 = 1 ∧ others base 1 36 (closeTry base 36) = true ∧
      (closeTry base 36).getLsbD (36 % 32) = false ∧ gateOpen base 0 36 = true ∧ closeBlocker base 0 36 = some 36) ∧
    (Reaches base cm 0 (gr 4) ∧ 143 ∈ gatesShallowFirst ∧ 143 / 32 = 4 ∧ others base 4 143 (openTry base 143) = true ∧
      (openTry base 143).getLsbD (143 % 32) = gateOpen base 0 143) ∧
    ((Canonical base ∧ (writeGate base 0 4 0).reply.resp = .ok) ∧
    (Canonical busyGate ∧ (writeGate busyGate 0 0 0).reply.resp ≠ .ok)) :=
  ⟨by unfold Reaches; decide +kernel,
    by unfold Reaches; decide +kernel,
    by unfold Reaches; decide +kernel,
    by unfold Reaches; decide +kernel,
    by unfold Reaches; decide +kernel,
    by unfold Canonical; decide +kernel⟩

def stuckEvt : State := base.p 0 R.CLK_ALT_STATUS.EVT_STUCK 1
def switching : State := (base.p 0 R.CLK_ALT_CTRL.APC_SRC 2).p 0 R.CLK_ALT_STATUS.APC_SWITCHING 1
def counting : State := base.p 0 R.CLK_MON_STATUS.BUSY 1
def upll : State := ((base.p 0 (R.CLK_UPLL_CTRL.EN 7) 1).p 0 (R.CLK_UPLL_CTRL.REFDIV 7) 1).p 0 (R.CLK_UPLL_CTRL.FBDIV 7) 50
def upllMeas : State := setUpllGood upll 0 7 true
def upllRuns : State := upllMeas.p 0 (R.CLK_UPLL_STATUS.LOCK 7) 1
def ckBusy : State := base.setCk 0 5 { base.ckOf 0 5 with sel := true, sw := .oldLow }
theorem witness_PllsAndMuxesComplete :
    (Reaches base cm 0 ⟨.CLK_ALT_CTRL, 0, 0⟩ ∧ (2 : Nat) ≠ base.g 0 R.CLK_ALT_CTRL.APC_SRC ∧ base.g 0 R.CLK_ALT_CTRL.EVT_SRC ≠ 3 ∧
      base.on 0 R.CLK_ALT_STATUS.APC_SWITCHING = false ∧ (2 : Nat) ≠ 3 ∧ altRuns base 0 2 = true) ∧
    (Reaches stuckEvt cm 0 ⟨.CLK_ALT_CTRL, 0, 0⟩ ∧ stuckEvt.g 0 R.CLK_ALT_CTRL.APC_SRC ≠ 3 ∧
      stuckEvt.on 0 R.CLK_ALT_STATUS.EVT_STUCK = true ∧ (2 : Nat) ≠ 3 ∧ altRuns stuckEvt 0 2 = true) ∧
    ((Reaches base cm 0 ⟨.CLK_ALT_CTRL, 0, 0⟩ ∧ base.on 0 R.CLK_ALT_STATUS.EVT_STUCK = false) ∧
    (switching.on 0 (altSwitching .apc) = true ∧ altRuns switching 0 (switching.g 0 (altSrc .apc)) = true) ∧
    (switching.on 0 (altSwitching .apc) = true ∧ altRuns switching 0 (switching.g 0 (altSrc .apc)) = true ∧ switching.on 0 (altStuck .apc) = false)) ∧
    ((Reaches base cm 0 ⟨.CLK_MON_CTRL, 0, 0⟩ ∧ R.CLK_MON_CTRL.START.of (0x80000017 : Word).toNat = 1 ∧
      monSrcOk (R.CLK_MON_CTRL.SRC.of (0x80000017 : Word).toNat) = true ∧ base.on 0 R.CLK_MON_STATUS.BUSY = false) ∧
    (counting.on 0 R.CLK_MON_STATUS.BUSY = true)) ∧
    ((Reaches base cm 0 ⟨.CLK_UPLL_CTRL, 7, 0⟩ ∧ base.on 0 (R.CLK_UPLL_CTRL.EN 7) = false ∧
      upllCtrlOk 7 (written base 0 ⟨.CLK_UPLL_CTRL, 7, 0⟩ 0x80010010) = true ∧
      (R.CLK_UPLL_CTRL.EN 7).of (written base 0 ⟨.CLK_UPLL_CTRL, 7, 0⟩ 0x80010010) = 1) ∧
    (upll.on 0 (R.CLK_UPLL_CTRL.EN 7) = true ∧ (100000000 : Nat) ≠ 0 ∧ upllSource upll 0 7 = true ∧ upllLimitsOk upll 0 7 100000000 = true) ∧
    (upllMeas.on 0 (R.CLK_UPLL_CTRL.EN 7) = true ∧ upllGood upllMeas 0 7 = true) ∧
    (upllRuns.on 0 (R.CLK_UPLL_STATUS.LOCK 7) = true)) ∧
    ((ckBusy.ckOf 0 5).sw ≠ .idle) :=
  ⟨by unfold Reaches; decide +kernel,
    by unfold Reaches; decide +kernel,
    by unfold Reaches; decide +kernel,
    by unfold Reaches; decide +kernel,
    by unfold Reaches; decide +kernel,
    by decide +kernel⟩

def cmdR : RegRef := ⟨.CFG_CMD, 0, 0⟩
def taken (s : State) (l : List (Fld × Nat)) : State := (((s.setReg s.head cmdR (written s s.head cmdR (named s s.head cmdR l))).p s.head R.CFG_CMD.OWNER cm.rid).p s.head R.CFG_CMD_STATUS.BUSY 1).p s.head R.CFG_CMD_STATUS.ERROR 0
def takenV : State := taken base [(R.CFG_CMD.OP, 1), (R.CFG_CMD.SLOT, 2)]
def takenM : State := taken base [(R.CFG_CMD.OP, 2)]
def done : State := base.p 0 R.SYS_BOOT_STATUS.DONE_PIN 1
def takenL : State := taken done [(R.CFG_CMD.OP, 3)]
def slotted : State := (base.p 0 R.CFG_BOOT_STATUS.RUN_SLOT 2).p 0 R.CFG_WARM_BASE.BASE 0x20000000
def takenB : State := taken slotted [(R.CFG_CMD.OP, 4)]
def confBusy : State := base.p 0 R.CFG_BOOT_STATUS.CONF_BUSY 1
def fdev : Sfdp := ⟨true, 1, 256, 512, 16777216⟩
def trial : State := (base.p 0 R.CFG_BOOT_STATUS.RUN_SLOT 0).setFlash { base.cfg.flash with dev0 := fdev, dev1 := fdev, ready := true, br := some ⟨1, 0, 1, true, 3, 0, 0, 0, 0, 0, 0, 0⟩ }
def fullLog : State := trial.setFlash { trial.cfg.flash with dev0 := { fdev with sector := 0 } }
theorem witness_CfgCommandsComplete :
    ((Reaches base cm base.head cmdR ∧ base.on base.head R.CFG_CMD_STATUS.BUSY = false ∧ base.cfg.parse.kind = .idle ∧ (2 : Nat) ≠ 3) ∧
    (base.g base.head R.CFG_CMD.SLOT ≠ 3)) ∧
    (done.on done.head R.SYS_BOOT_STATUS.DONE_PIN = true ∧ Reaches done cm done.head cmdR ∧ done.on done.head R.CFG_CMD_STATUS.BUSY = false ∧
      done.cfg.parse.kind = .idle ∧ done.g done.head R.CFG_CMD.SLOT ≠ 3) ∧
    (base.on base.head R.SYS_BOOT_STATUS.DONE_PIN = false ∧ Reaches base cm base.head cmdR) ∧
    (slotted.runSlot = some 2 ∧ Reaches slotted cm slotted.head cmdR ∧ slotted.on slotted.head R.CFG_CMD_STATUS.BUSY = false ∧
      slotted.cfg.parse.kind = .idle ∧ slotted.g slotted.head R.CFG_CMD.SLOT ≠ 3) ∧
    ((Reaches base cm base.head ⟨.CFG_CONFIRM, 0, 0⟩ ∧ (0 : Word) ≠ 0x5A3CC3A5) ∧
    (Reaches confBusy cm 0 ⟨.CFG_CONFIRM, 0, 0⟩ ∧ confBusy.on confBusy.head R.CFG_BOOT_STATUS.CONF_BUSY = true)) ∧
    (Reaches trial cm 0 ⟨.CFG_CONFIRM, 0, 0⟩ ∧ trial.on trial.head R.CFG_BOOT_STATUS.CONF_BUSY = false ∧ trial.confirmable = true ∧
      trial.blankPage.isSome = true) ∧
    ((Reaches fullLog cm 0 ⟨.CFG_CONFIRM, 0, 0⟩ ∧ fullLog.confirmable = true ∧ fullLog.blankPage.isSome = false) ∧
    (base.on base.head R.CFG_BOOT_STATUS.CONF_BUSY = false ∧ base.confirmable = false)) :=
  ⟨by unfold Reaches; decide +kernel,
    by unfold Reaches; decide +kernel,
    by unfold Reaches; decide +kernel,
    by unfold Reaches; decide +kernel,
    by unfold Reaches; decide +kernel,
    by unfold Reaches; decide +kernel,
    by unfold Reaches; decide +kernel⟩

def rec (k : LoadKind) (t addr count : Nat) (pay : List Byte) : State := base.setParse { ParseSt.reset with kind := k, hdrDone := true, buf := [0, 0, 1, BitVec.ofNat 8 t] ++ bytesLE 4 addr ++ bytesLE 4 count ++ pay }
def zeros (n : Nat) : List Byte := List.replicate n 0
def frames2 : State := rec .verify Rec.frames 5 2 (zeros 512)
def copies : State := (rec .full Rec.copy 1 1 (zeros 4)).setParse { (rec .full Rec.copy 1 1 (zeros 4)).cfg.parse with written := [(frameKey 0 0, true)] }
def regs : State := rec .full Rec.reg 0 1 (bytesLE 4 0x030040 ++ zeros 4)
def ends : State := (rec .verify Rec.end_ 0 0 []).setParse { (rec .verify Rec.end_ 0 0 []).cfg.parse with wake := some (0x08764321, 0x3F) }
def frameIn (seen : Bool) : State := (rec .full Rec.frames 5 1 []).setParse { (rec .full Rec.frames 5 1 []).cfg.parse with sigSeen := if seen then [(frameKey 0 5, true)] else [] }
def dynFrame : State := (frameIn false).setDynMark 0 5 true
theorem witness_RecordsComplete :
    ((recIs frames2 Rec.frames = true) ∧
    (recIs (rec .full Rec.fill 0 368640 (zeros 4)) Rec.fill = true) ∧
    (recIs (rec .full Rec.fill 0 1 (zeros 4)) Rec.fill = true) ∧
    (recIs (rec .full Rec.sigs 368639 1 (zeros 4)) Rec.sigs = true) ∧
    (recIs copies Rec.copy = true ∧ copies.cfg.parse.kind = .full ∧ 0 + 1 ≤ frameCount ∧ ((1 : Nat) + 1 ≤ 0 ∨ (0 : Nat) + 1 ≤ 1) ∧
      findFrame [0] 0 1 (fun d fa => !wasWritten copies d fa) = none) ∧
    (recIs (rec .verify Rec.sparse 0 1 (zeros 8)) Rec.sparse = true) ∧
    (recIs (rec .full Rec.sigmap 0 1 [0xFF, 0, 0, 0x80]) Rec.sigmap = true) ∧
    (recIs (rec .full Rec.wake 0 2 [1, 2, 3, 4, 5, 6, 7, 8]) Rec.wake = true) ∧
    (recIs regs Rec.reg = true ∧ regs.cfg.parse.kind = .full ∧ maskDies regs 1 = [0] ∧ (putRegs regs 0 (regPairs regs.cfg.parse.buf)).1 = none) ∧
    (Rec.optional 0xFE = true ∧ recIs (rec .full 0xFE 0 0 []) 0xFE = true)) ∧
    ((recIs ends Rec.end_ = true ∧ endErr ends [] = none ∧ Rec.pay ends.cfg.parse.buf = []) ∧
    ((frameIn false).cfg.parse.kind = .full ∧ isCaptureFrame 5 = false ∧ (List.replicate 64 (0 : DWord)).length = 64 ∧
      (frameIn false).dynMark 0 5 = false ∧ SMap.get (fun _ => false) (frameIn false).cfg.parse.sigSeen (frameKey 0 5) = false) ∧
    (dynFrame.cfg.parse.kind = .full ∧ dynFrame.dynMark 0 5 = true) ∧
    (SMap.get (fun _ => false) (frameIn true).cfg.parse.sigSeen (frameKey 0 5) = true ∧ frameCrc (List.replicate 64 1) ≠ (frameIn true).sig 0 5)) :=
  ⟨by decide +kernel,
    by decide +kernel⟩

def jtagPass : State := { base.setParse { ParseSt.reset with kind := .verify, src := .jtag } with boot := { base.boot with jtag := some [1] } }
def jtagRead : Option (List Byte) × State := srcRead (bbCheck (srcSuspends (touchNamed jtagPass 0))) 0 4096
def hdrOf (segs : Byte) : List Byte := List.replicate 0x19 0 ++ [1] ++ List.replicate 6 0 ++ [segs] ++ List.replicate 4063 0
def segPass (segs : Byte) : State := { base.setParse { ParseSt.reset with kind := .verify, src := .mem 0, hdrDone := true, hdr := hdrOf segs, pos := 4096 } with boot := base.boot }
def hdr1 : List Byte := List.replicate 24 0 ++ [64] ++ List.replicate 7 0 ++ [1] ++ List.replicate 4063 0
def seg8 : List Byte := [8] ++ List.replicate 63 0
def segIn : State := { base.setParse { ParseSt.reset with kind := .verify, src := .jtag, hdrDone := true, hdr := hdr1, pos := 4096 } with boot := { base.boot with jtag := some (List.replicate 4096 0 ++ seg8) } }
def segRead : Option (List Byte) × State := srcRead (srcSuspends segIn) 4096 8
theorem witness_ImageReadingComplete :
    ((passing jtagPass = true ∧ jtagPass.cfg.parse.hdrDone = false ∧ srcWaits jtagPass 0 4096 = false ∧
      srcReady (touchNamed jtagPass 0) = true ∧ jtagRead.1 = some [1] ∧
      (if Hdr.keySrc [1] = 1 then noteFuseFail jtagRead.2 else jtagRead.2).cfg.parse.kind ≠ .warmBuild) ∧
    (passing (segPass 0) = true ∧ wantsSegment (segPass 0) = true ∧ srcWaits (segPass 0) 4096 8 = false ∧
      Hdr.segCount (hdrOf 0) ≤ (segPass 0).cfg.parse.seg)) ∧
    (passing segIn = true ∧ wantsSegment segIn = true ∧ srcWaits segIn 4096 8 = false ∧ segIn.cfg.parse.seg < Hdr.segCount hdr1 ∧
      4096 - 4096 + 64 ≤ Hdr.bodyLen hdr1 ∧ srcRoom segIn = some 4160 ∧ 4096 - 4096 + 8 ≤ Hdr.bodyLen hdr1 ∧
      (srcRead (srcSuspends segIn) 4096 8).1 = some (seg8.take 8) ∧ srcRoom segRead.2 = some 4160 ∧ leAt (seg8.take 8) 0 4 = 8 ∧
      (64 : Nat) = 56 + leAt (seg8.take 8) 0 4 + (if Hdr.enc hdr1 then 16 else 0) ∧ srcWaits segRead.2 4096 64 = false ∧
      (srcRead segRead.2 4096 64).1 = some seg8) :=
  ⟨by decide +kernel,
    by decide +kernel⟩

theorem witness_HeaderChecksInOrder :
    (leAt [0] 0 4 ≠ 0x54595850 ∧ Hdr.svn [] < ({ base.sec.fuses with svn := 1 } : Fuses).svn ∧ base.sec.fuses.svn ≤ Hdr.svn []) :=
  by decide +kernel

def finished : State := (base.setCfg { base.cfg with cmd := some (1, 2) }).setParse { ParseSt.reset with kind := .finished, finErr := some 5 }
def trialBusy : State := trial.p 0 R.CFG_BOOT_STATUS.CONF_BUSY 1
def built : State := base.setParse { ParseSt.reset with kind := .warmBuild, ended := true, lastSeg := true }
def refreshing : State := base.setWarm 0 { base.warmOf 0 with refresh := true }
def warming : State := { base.p 0 R.SYS_BOOT_STATUS.PHASE Phase.load with boot := { base.boot with warm := true } }
def readied : State := { warming with boot := { warming.boot with warmReady := true } }
def noDies : State := { warming with dev := { warming.dev with blank := 3 } }
def noDiesR : State := { noDies with boot := { noDies.boot with warmReady := true } }
theorem witness_CfgEndsComplete :
    ((finished.cfg.cmd = some (1, 2) ∧ finished.cfg.parse.kind = .finished) ∧
    (confBusy.on confBusy.head R.CFG_BOOT_STATUS.CONF_BUSY = true) ∧
    (trialBusy.on trialBusy.head R.CFG_BOOT_STATUS.CONF_BUSY = true ∧ trialBusy.cfg.flash.br = some ⟨1, 0, 1, true, 3, 0, 0, 0, 0, 0, 0, 0⟩ ∧
      ((trialBusy.p 0 R.CFG_BOOT_STATUS.CONF_BUSY 0).addTrial 1 Trial.confirm).isSome = true) ∧
    (built.cfg.parse.kind = .warmBuild ∧ built.cfg.parse.ended = true ∧ built.cfg.parse.lastSeg = true ∧ (buildDigests built).1 = true) ∧
    (refreshing.present 0 = true ∧ (refreshing.warmOf 0).refresh = true ∧ refreshing.cfg.parse.kind ≠ .partialLoad ∧
      (regionRead refreshing 0).1 = none)) ∧
    ((warming.phase = Phase.load ∧ warming.boot.inReset = none ∧ warming.boot.warm = true ∧ warming.boot.warmReady = false ∧
      (∀ ch ∈ mapChannels warming, warming.g (chDie ch) (R.DDR_STATUS.STATE (chCtl ch)) ≠ DdrState.training) ∧
      warmWrong (warmReads readied).2 (warmReads readied).1 = [0]) ∧
    (noDies.phase = Phase.load ∧ noDies.boot.inReset = none ∧ noDies.boot.warm = true ∧ noDies.boot.warmReady = false ∧
      mapChannels noDies = [] ∧ warmWrong (warmReads noDiesR).2 (warmReads noDiesR).1 = [])) :=
  ⟨by decide +kernel,
    by decide +kernel⟩

def flashed : State := base.setFlash { base.cfg.flash with dev0 := fdev, dev1 := fdev, ready := true }
def um : Master := ⟨.coreSU, 1032⟩
def nvcR : RegRef := ⟨.NVC_CMD, 0, 0⟩
def rights (s : State) : State := s.p 0 R.SEC_NVC_RIGHTS.CLASSES 0x7F
def nvTaken (s : State) (op : Nat) : State := (s.setReg s.head nvcR (written s s.head nvcR (named s s.head nvcR [(R.NVC_CMD.OP, op)]))).p s.head R.NVC_CMD.OWNER cm.rid
def nvStart (s : State) (op : Nat) : State := (((nvTaken s op).p s.head R.NVC_STATUS.STATE NvcState.busy).setFlash { s.cfg.flash with op := op, addr := s.g s.head R.NVC_ADDR.ADDR, len := s.g s.head R.NVC_LEN.LEN, mem := s.g s.head R.NVC_MEM.MEM, done := 0 }).ans .ok
def nvEnd (s : State) (op res : Nat) : State := (nvcEnd (nvTaken s op) res (s.g s.head R.NVC_ADDR.ADDR)).ans .ok
def erasable (a l : Nat) : State := ((rights flashed).p 0 R.NVC_ADDR.ADDR a).p 0 R.NVC_LEN.LEN l
def nvc (op addr len : Nat) : State := (flashed.p 0 R.NVC_STATUS.STATE NvcState.busy).setFlash { flashed.cfg.flash with op := op, addr := addr, len := len }
def dirty : State := (nvc 3 0 1024).setFlashBytes 600 [0]
def prog0 : State := nvc 2 0 0
def progDirty : State := (nvc 2 0 1024).setFlashBytes 600 [0]
def progMem : State := (((((nvc 2 0 512).p 0 R.SYS_BOOT_STATUS.PHASE Phase.running).p 0 R.CFG_WAKE_STATUS.DONE_STEPS 0x1FF).zeroBank 0).p 0 (R.BNK_CTRL.OWNER 0) (run.parserRid 0)).setFlash { (nvc 2 0 512).cfg.flash with mem := 0x10000000 }
def progRead : Resp × List MWord × State := readWords progMem (progMem.parserMaster 0) 0x10000000 (nvcUnit progMem / 8)
theorem witness_FlashComplete :
    (Reaches base um base.head nvcR ∧ base.nvcRight um = false) ∧
    (Reaches (rights base) cm base.head nvcR ∧ (rights base).nvcRight cm = true ∧ (rights base).nvcState = NvcState.idle ∧
      (rights base).cfg.flash.ready = false) ∧
    ((Reaches (erasable 0x10000 1024) cm 0 nvcR ∧ (erasable 0x10000 1024).nvcRight cm = true ∧
      (erasable 0x10000 1024).nvcState = NvcState.idle ∧ (erasable 0x10000 1024).cfg.flash.ready = true ∧
      nvcAligned (erasable 0x10000 1024) 1 0x10000 1024 = true ∧ nvcGuarded (erasable 0x10000 1024) 0x10000 1024 = false) ∧
    (nvcAligned (erasable 0x10000 512) 2 0x10000 512 = true ∧ nvcGuarded (erasable 0x10000 512) 0x10000 512 = false ∧
      nvcAligned (erasable 0x10000 512) 3 0x10000 512 = true ∧ nvcAligned (erasable 0x10000 512) 4 0x10000 512 = true)) ∧
    ((nvcAligned (erasable 0 1024) 1 0 1024 = true ∧ nvcAligned (erasable 0 1024) 2 0 1024 = true ∧ nvcGuarded (erasable 0 1024) 0 1024 = true) ∧
    (nvcAligned (erasable 8 8) 1 8 8 = false ∧ nvcAligned (erasable 4 4) 4 4 4 = false) ∧
    ((nvc 1 0x400 0x400).nvcState = NvcState.busy ∧ (nvc 1 0x400 0x400).cfg.flash.op = NvcOp.erase ∧
      (nvc 1 0x400 0x400).cfg.flash.done < nvcUnits (nvc 1 0x400 0x400)) ∧
    ((nvc 3 0 512).cfg.flash.op = NvcOp.blankCheck ∧ notBlank (nvc 3 0 512) 0 512 = none) ∧
    (dirty.nvcState = NvcState.busy ∧ dirty.cfg.flash.op = NvcOp.blankCheck ∧ notBlank dirty 0 1024 = some 512) ∧
    (dirty.nvcState = NvcState.busy ∧ dirty.cfg.flash.op = NvcOp.blankCheck) ∧
    (prog0.nvcState = NvcState.busy ∧ prog0.cfg.flash.op = NvcOp.program ∧
      (nvcSteps prog0 (nvcUnits prog0 - prog0.cfg.flash.done)).nvcState = NvcState.busy)) ∧
    ((progDirty.nvcState = NvcState.busy ∧ progDirty.cfg.flash.op = NvcOp.program ∧ progDirty.cfg.flash.done = 0 ∧ 0 < nvcUnits progDirty ∧
      notBlank progDirty 0 1024 = some 512) ∧
    (progMem.nvcState = NvcState.busy ∧ progMem.cfg.flash.op = NvcOp.program ∧ progMem.cfg.flash.done < nvcUnits progMem ∧
      notBlank progMem 0 512 = none ∧ progRead.1 = .ok ∧ (∀ w ∈ progRead.2.1, w.p = false))) :=
  ⟨by unfold Reaches; decide +kernel,
    by unfold Reaches; decide +kernel,
    by unfold Reaches; decide +kernel,
    by decide +kernel,
    by decide +kernel⟩

def fused (lc : Nat) : State := base.setFuses { base.sec.fuses with lc := BitVec.ofNat 8 (4 ^ lc - 1), pk0 := ⟨7, some (pkCheck 7)⟩, pk3 := ⟨9, some (pkCheck 9)⟩ }
def prov : State := (fused Lc.provisioned).p 0 R.SEC_KEY_VERSION.VERSION 1
theorem witness_SecCommandsStart :
    (Canonical prov ∧ Reaches prov cm prov.head ⟨.SEC_CMD, 0, 0⟩ ∧ cm.rid < 4096 ∧ prov.on prov.head R.SEC_CMD_STATUS.BUSY = false ∧
      secJudge prov 1 0 = SecRes.ok ∧ secJudge prov 2 0 = SecRes.ok ∧ secJudge prov 3 0 = SecRes.ok ∧ secJudge prov 6 0 = SecRes.ok ∧
      secJudge prov 7 0 = SecRes.ok ∧ secJudge prov 4 1 = SecRes.ok ∧ secJudge prov 5 0 = SecRes.ok ∧ secJudge prov 8 4 = SecRes.ok) ∧
    (secJudge base 1 0 ≠ SecRes.ok ∧ secJudge base 2 0 ≠ SecRes.ok ∧ secJudge base 3 0 ≠ SecRes.ok ∧ secJudge base 6 0 ≠ SecRes.ok ∧
      secJudge prov 4 4 ≠ SecRes.ok ∧ secJudge prov 5 3 ≠ SecRes.ok ∧ secJudge prov 8 0 ≠ SecRes.ok ∧
      secJudge (fused Lc.deployed) 7 0 ≠ SecRes.ok ∧ Reaches base cm base.head ⟨.SEC_CMD, 0, 0⟩) ∧
    ((Reaches base cm 0 ⟨.SEC_CMD, 0, 0⟩) ∧
    (secJudge prov 5 0 = SecRes.ok ∧ secJudge prov 8 4 = SecRes.ok ∧ (fused Lc.scrapped).lc = Lc.scrapped ∧ (8 : Nat) ≤ 8)) :=
  ⟨by unfold Canonical Reaches; decide +kernel,
    by unfold Reaches; decide +kernel,
    by unfold Reaches; decide +kernel⟩

def ending (op arg : Nat) : State := prov.setSec { prov.sec with cmd := some (op, arg) }
theorem witness_SecCommandsEnd :
    (((ending 1 0).sec.cmd = some (1, 0)) ∧
    ((ending 2 0).sec.cmd = some (2, 0)) ∧
    ((ending 3 0).sec.cmd = some (3, 0)) ∧
    ((ending 4 1).sec.cmd = some (4, 1)) ∧
    ((ending 5 0).sec.cmd = some (5, 0)) ∧
    ((ending 6 0).sec.cmd = some (6, 0)) ∧
    ((ending 7 0).sec.cmd = some (7, 0)) ∧
    ((ending 8 4).sec.cmd = some (8, 4)) ∧
    ((ending 5 0).sec.cmd ≠ some (8, 0))) :=
  by decide +kernel

def nonced : State := base.setSec { base.sec with nonce := some 5 }
def answered : State := base.setSec { base.sec with resp := some 1 }
def vaulted : State := { powered.setSec { powered.sec with vault := true } with pending := [] }
theorem witness_UnlockComplete :
    ((unlockOpen base = true) ∧
    (unlockOpen nonced = true ∧ nonced.on nonced.head R.SEC_LC.DBG_LOCKOUT = false ∧ nonced.sec.nonce.isSome = true ∧ nonced.sec.used = false) ∧
    (base.on base.head R.SEC_LC.DBG_LOCKOUT = false ∧ base.sec.nonce = none) ∧
    (answered.sec.resp = some 1)) ∧
    (Canonical vaulted ∧ vaulted.boot.inReset = some .power ∧ vaulted.sec.vault = true ∧ (949 : Nat) < 950 ∧ 1100 ≤ (1100 : Nat)) :=
  ⟨by decide +kernel,
    by unfold Canonical; decide +kernel⟩

def jtagArmed : State := (fused Lc.deployed).setBit (fused Lc.deployed).head R.SEC_TAMPER_CFG.EN Tsrc.jtag
def jtagOff : State := (fused Lc.deployed).clrBit (fused Lc.deployed).head R.SEC_TAMPER_CFG.EN Tsrc.jtag
theorem witness_LockedJtag :
    ((JtagInstr.other = .other ∧ jtagArmed.lc = Lc.deployed ∧ jtagArmed.dbgLevel = 0 ∧ tamperOn jtagArmed Tsrc.jtag = true) ∧
    (jtagOff.lc = Lc.deployed ∧ jtagOff.dbgLevel = 0 ∧ tamperOn jtagOff Tsrc.jtag = false) ∧
    (base.lc ≠ Lc.deployed)) :=
  by decide +kernel

def logged : State := base.p 0 R.SEC_TAMPER_LOG.SOURCES 3
def unlogged : State := logged.setReg 0 ⟨.SEC_TAMPER_LOG, 0, 0⟩ (written logged 0 ⟨.SEC_TAMPER_LOG, 0, 0⟩ 0xFF0000)
def tcfg : Nat := written base 0 ⟨.SEC_TAMPER_CFG, 0, 0⟩ 0x1F
def lockedCfg : State := base.p 0 R.SEC_TAMPER_CFG.LOCK 1
def heard (s : State) (k : Nat) (also : BitVec 8) : List Nat := (List.range 8).filter (fun i => (i == k || also.getLsbD i) && tamperHeard s i)
def responds (lk : Bool) : State := { (run.p 0 ⟨R.SEC_TAMPER_RESP.ZEROISE.off, 0, 4⟩ (if lk then 8 else 0)).p 0 (R.BNK_STATUS.WIPING 3) 1 with sec := { run.sec with respond := true } }
def asleep : State := run.p 0 R.PWR_STATUS.STATE Ladder.comma
def floored : State := run.p 0 ⟨R.SEC_TAMPER_RESP.ZEROISE.off, 0, 4⟩ 8
def many : State := (logged.p 0 R.SEC_TAMPER_LOG.COUNT 255)
theorem witness_TamperComplete :
    ((base.on base.head R.SEC_TAMPER_CFG.POL0 = true ∧ base.on base.head R.SEC_TAMPER_CFG.POL1 = true) ∧
    (base.present 0 = true) ∧
    (base.present 0 = true ∧ 10 * sext 8 (base.g base.head R.SEC_TEMP_LIMITS.TEMP_HI) < 1271) ∧
    (-1281 < 10 * sext 8 (base.g base.head R.SEC_TEMP_LIMITS.TEMP_LO) ∧ base.phase ≠ Phase.heaterHold) ∧
    (Reaches logged cm logged.head ⟨.SEC_TAMPER_LOG, 0, 0⟩ ∧ logged.boot.lockdown = false ∧
      (logged.setReg 0 ⟨.SEC_TAMPER_LOG, 0, 0⟩ (written logged 0 ⟨.SEC_TAMPER_LOG, 0, 0⟩ 0x10000)).g logged.head R.SEC_TAMPER_LOG.SOURCES ≠ 0) ∧
    (unlogged.g unlogged.head R.SEC_TAMPER_LOG.SOURCES = 0)) ∧
    (Reaches base cm base.head ⟨.SEC_TAMPER_CFG, 0, 0⟩ ∧ tamperLocked base = false ∧
      R.SEC_TAMPER_CFG.EN.of tcfg &&& base.startEn = base.startEn ∧ ((R.SEC_TAMPER_CFG.EN.of tcfg).testBit 5 = true → base.hasMesh = true)) ∧
    ((Reaches lockedCfg cm lockedCfg.head ⟨.SEC_TAMPER_CFG, 0, 0⟩ ∧ tamperLocked lockedCfg = true) ∧
    (Reaches base cm base.head ⟨.SEC_RIGHTS_LOCK, 0, 0⟩) ∧
    (heard base 0 0 = [])) ∧
    ((heard locked 7 0 ≠ [] ∧ inVault locked = false ∧ locked.boot.lockdown = true) ∧
    (heard (responds true) 7 0 ≠ [] ∧ inVault (responds true) = false ∧ (responds true).boot.lockdown = false ∧
      respRuns (responds true) = true ∧ tamperResp (tamperLog (responds true) (heard (responds true) 7 0)) 3 = true) ∧
    (heard (responds false) 7 0 ≠ [] ∧ inVault (responds false) = false ∧ (responds false).boot.lockdown = false ∧
      respRuns (responds false) = true ∧ tamperResp (tamperLog (responds false) (heard (responds false) 7 0)) 3 = false) ∧
    (heard base 7 0 ≠ [] ∧ inVault base = false ∧ base.boot.lockdown = false ∧ respRuns base = false ∧ base.phase ≠ Phase.running)) ∧
    ((heard asleep 7 0 ≠ [] ∧ inVault asleep = false ∧ asleep.boot.lockdown = false ∧ respRuns asleep = false ∧
      asleep.phase = Phase.running ∧ onLadder asleep = true) ∧
    (heard run 7 0 ≠ [] ∧ inVault run = false ∧ run.boot.lockdown = false ∧ respRuns run = false ∧ run.phase = Phase.running ∧ onLadder run = false) ∧
    (tamperResp floored 3 = true)) ∧
    (Canonical many ∧ many.g many.head R.SEC_TAMPER_LOG.SOURCES ≠ 0) :=
  ⟨by unfold Reaches; decide +kernel,
    by unfold Reaches; decide +kernel,
    by unfold Reaches; decide +kernel,
    by decide +kernel,
    by decide +kernel,
    by unfold Canonical; decide +kernel⟩

def capR : RegRef := ⟨.CFG_CAP_CTRL, 0, 0⟩
def rbR : RegRef := ⟨.CFG_RB_CTRL, 0, 0⟩
def allRegions : BitVec 120 := BitVec.allOnes 120
def halfPlain : HalfCfg := ⟨.global 0, false, false, false, false⟩
def tap0 (s : State) (d : Nat) : State := (s.p d (R.CLK_FTAP.DIV 0) 1).setBit d (gateReg 0) 8
def capX : Nat := written run 0 capR 0x80000005
def armed : State := ((tap0 run 0).p 0 R.CFG_CAP_STATUS.STATE Cap.armed).p 0 R.CFG_CAP_CTRL.ARM 1
def abortX : Nat := written armed 0 capR (named armed 0 capR [(R.CFG_CAP_CTRL.ARM, 0), (R.CFG_CAP_CTRL.ABORT, 1)])
def armed9 : State := armed.p 0 R.CFG_CAP_CTRL.DELAY 9
def delaying (n : Nat) : State := (armed.p 0 R.CFG_CAP_STATUS.STATE Cap.delaying).p 0 R.CFG_CAP_STATUS.REMAIN n
def snapped : State := takeSnap ((delaying 0).setFf 0 77 true) 0
def armedStill : State := armed.p 0 (R.CLK_FTAP.DIV 0) 0
def rbIn (s : State) (n : Nat) : State := s.p 0 R.CFG_RB_COUNT.COUNT n
def rbSet (s : State) (n v : Nat) : State := (rbIn s n).setReg 0 rbR (written (rbIn s n) 0 rbR v)
def rbFits (u : State) : Bool := u.on 0 R.CFG_RB_CTRL.CAPTURE || (u.g 0 R.CFG_RB_COUNT.COUNT != 0 && decide (u.g 0 R.CFG_RB_CTRL.FA + u.g 0 R.CFG_RB_COUNT.COUNT ≤ frameCount))
def deployedRun : State := run.setFuses { run.sec.fuses with lc := BitVec.ofNat 8 (4 ^ Lc.deployed - 1) }
def loadsNow : State := run.setParse { ParseSt.reset with kind := .partialLoad, src := .jtag, touched := 1, written := [(frameKey 0 5, true)] }
def reading : State := (run.setRb 0 (some ⟨7, 1, 0, false, 0, 0⟩)).p 0 R.CFG_RB_STATUS.BUSY 1
def region0 : State := (((((((run.p 0 (R.FAB_PR_STATUS.STATE 3) Pr.active).p 0 (R.FAB_PR_GEOM.VALID 3) 1).p 0 (R.FAB_PR_GEOM.FC_HI 3) 2).p 0 (R.FAB_PR_KSLOT.SLOTS 3) 6).p 0 (R.FAB_PR_NOCP.PORTS 3) 1).p 0 (R.FAB_PR_PFIFO.PAIRS 3) 2).p 0 (R.FAB_KSLOT_STATUS.STATE 1) Slot.online).p 0 (R.FAB_KSLOT_CFG.DECLARED 1) 1
def prC : RegRef := ⟨.FAB_PR_CTRL, 3, 0⟩
def fencedPr : State := (setPrState region0 0 3 Pr.fenced).p 0 (R.FAB_PR_CTRL.FENCE 3) 1
def draining : State := (startClose ((region0.p 0 (R.FAB_PR_CTRL.TMO 3) 9).p 0 (R.FAB_PR_CTRL.MODE 3) 0) 0 3)
def off3 : State := (setSlot draining 0 1 Slot.offline).p 0 (R.FAB_KSLOT_STATUS.IDLE 1) 1
def drained3 : State := off3.setPr 0 3 { off3.prOf 0 3 with drained := true }
def forcing : State := draining.setPr 0 3 { draining.prOf 0 3 with mode := 2 }
def releasing : State := setPrState region0 0 3 Pr.releasing
def swOff : State := run.p 0 R.CFG_SWEEP_CTRL.EN 0
def sweepV : Nat := 2 ^ R.CFG_SWEEP_CTRL.EN.lo + 2 ^ R.CFG_SWEEP_CTRL.DIV.lo
def sweepX : Nat := written swOff 0 ⟨.CFG_SWEEP_CTRL, 0, 0⟩ sweepV
def sweeping : State := (run.p 0 R.CFG_SWEEP_CTRL.EN 1).p 0 R.CFG_SWEEP_STATUS.POS 5
def crc0 : Word := frameCrc (List.replicate 64 0)
def sound : State := sweeping.setSig 0 5 crc0
def dynSweep : State := sweeping.setDynMark 0 5 true
def flipped : State := (flipFrame sound 0 5 [9, 4000]).p 0 R.CFG_SWEEP_STATUS.POS 6
def coldSeu : State := run.setSeu 0 [⟨5, false, false, false⟩]
def warmSeu : State := ((((run.zeroBank 0).p 0 R.CFG_WARM_STATUS.VALID 1).p 0 R.CFG_WARM_BASE.BASE 0x10000000).setSeu 0 [⟨5, false, false, false⟩]).setSig 0 5 crc0
def warmRead : Resp × List MWord × State := memRead 70 warmSeu (warmSeu.parserMaster 0) (warmSeu.g 0 R.CFG_WARM_BASE.BASE + 5 * 512) 64
def flashSeu : State := ((run.setSeu 0 [⟨5, false, true, false⟩]).setSig 0 5 crc0).setCfg { run.cfg with run := { RunImg.reset with src := .slot 0 }, sigs := ((run.setSig 0 5 crc0).cfg.sigs) }
def jtagSeu : State := flashSeu.setCfg { flashSeu.cfg with run := { RunImg.reset with src := .jtag } }
def passAt (ws : List DWord) : State := (flashSeu.setSeu 0 [⟨5, false, true, true⟩]).setParse { ParseSt.reset with kind := .flashPass, hdrDone := true, passed := [(frameKey 0 5, ws)] }
def zeros64 : List DWord := List.replicate 64 0
theorem witness_CaptureAndRegionsComplete :
    (Reaches run cm 0 capR ∧ (0x80000005#32).getLsbD 31 = true ∧ R.CFG_CAP_CTRL.TRIG.of capX < 2 ∧ R.CFG_CAP_CTRL.CLKSEL.of capX < 48 ∧
      debugBelow run cm = false ∧ capWaits run 0 = false ∧ (run.on 0 R.CFG_RB_STATUS.BUSY && rbCovers run 0) = false) ∧
    ((Reaches armed cm 0 capR ∧ R.CFG_CAP_CTRL.TRIG.of abortX < 2 ∧ R.CFG_CAP_CTRL.CLKSEL.of abortX < 48) ∧
    (capClocked armed 0 = true ∧ capState armed 0 = Cap.armed ∧ armed.g 0 R.CFG_CAP_CTRL.DELAY = 0) ∧
    (capClocked armed9 0 = true ∧ capState armed9 0 = Cap.armed ∧ armed9.g 0 R.CFG_CAP_CTRL.DELAY = 9)) ∧
    ((capClocked (delaying 1) 0 = true ∧ capState (delaying 1) 0 = Cap.delaying ∧ ((delaying 1).snapOf 0).taken = false ∧
      (delaying 1).g 0 R.CFG_CAP_STATUS.REMAIN = 1) ∧
    (capClocked (delaying 9) 0 = true ∧ capState (delaying 9) 0 = Cap.delaying ∧ ((delaying 9).snapOf 0).taken = false ∧
      (delaying 9).g 0 R.CFG_CAP_STATUS.REMAIN = 9) ∧
    (capState snapped 0 = Cap.delaying ∧ (snapped.snapOf 0).taken = true) ∧
    (capWaits armedStill 0 = true ∧ capClocked armedStill 0 = false)) ∧
    (Reaches (rbIn run 2) cm 0 rbR ∧ (0x80000007#32).getLsbD 31 = true ∧ (rbIn run 2).on 0 R.CFG_RB_STATUS.BUSY = false ∧
      rbFits (rbSet run 2 0x80000007) = true ∧ rbDenied (rbSet run 2 0x80000007) cm 0 = false ∧
      loadWrites (rbSet run 2 0x80000007) 0 = false) ∧
    (Reaches (rbIn deployedRun 2) cm 0 rbR ∧ rbFits (rbSet deployedRun 2 0x80000007) = true ∧ rbDenied (rbSet deployedRun 2 0x80000007) cm 0 = true) ∧
    (Reaches (rbIn loadsNow 2) cm 0 rbR ∧ rbFits (rbSet loadsNow 2 0x80000007) = true ∧ rbDenied (rbSet loadsNow 2 0x80000007) cm 0 = false ∧
      loadWrites (rbSet loadsNow 2 0x80000007) 0 = true) ∧
    ((Reaches (rbIn run 0) cm 0 rbR ∧ (rbIn run 0).on 0 R.CFG_RB_STATUS.BUSY = false ∧ rbFits (rbSet run 0 0x80000007) = false) ∧
    (reading.present 0 = true ∧ reading.on 0 R.CFG_RB_STATUS.BUSY = true ∧ reading.rbOf 0 = some ⟨7, 1, 0, false, 0, 0⟩)) ∧
    (Reaches region0 cm 0 prC ∧ region0.on 0 (R.FAB_PR_GEOM.VALID 3) = true ∧ (1 : Fin 4) ≠ 3 ∧ region0.prState 0 3 = Pr.active) ∧
    ((Reaches fencedPr cm 0 prC ∧ fencedPr.on 0 (R.FAB_PR_GEOM.VALID 3) = true ∧ fencedPr.g 0 (R.FAB_PR_CTRL.MODE 3) ≠ 3 ∧
      fencedPr.prState 0 3 = Pr.fenced) ∧
    (draining.prState 0 3 = Pr.draining) ∧
    (off3.prState 0 3 = Pr.draining ∧ slotsOffline off3 0 3 = true ∧ (∀ p ∈ regionPorts off3 0 3, portOutst off3 0 p = 0) ∧
      (off3.prOf 0 3).drained = false)) ∧
    ((drained3.prState 0 3 = Pr.draining ∧ (drained3.prOf 0 3).drained = true ∧ drained3.on 0 (R.FAB_PR_STATUS.PENDING 3) = false) ∧
    (draining.prState 0 3 = Pr.draining ∧ slotsOffline draining 0 3 = false ∧ (draining.prOf 0 3).tmo ≠ 0 ∧ (draining.prOf 0 3).mode ≠ 2) ∧
    (forcing.prState 0 3 = Pr.draining ∧ slotsOffline forcing 0 3 = false ∧ (forcing.prOf 0 3).tmo ≠ 0 ∧ (forcing.prOf 0 3).mode = 2) ∧
    (releasing.prState 0 3 = Pr.releasing ∧ releasing.on 0 (R.FAB_PR_STATUS.PENDING 3) = false)) ∧
    (Reaches swOff cm 0 ⟨.CFG_SWEEP_CTRL, 0, 0⟩ ∧ R.CFG_SWEEP_CTRL.DIV.of sweepX ≠ 0 ∧ R.CFG_SWEEP_CTRL.EN.of sweepX = 1 ∧
      swOff.on 0 R.CFG_SWEEP_CTRL.EN = false ∧ Canonical swOff) ∧
    ((sweepReady sweeping 0 = true ∧ sweepPaused sweeping 0 = false ∧ sweeping.g 0 R.CFG_SWEEP_STATUS.POS + 1 < frameCount ∧
      swept (sweeping.p 0 R.CFG_SWEEP_STATUS.POS 6) 0 5 = true ∧ (0 : Fin 3) ≠ 2 ∧ frameCrc (sweeping.frame 0 5) ≠ sweeping.sig 0 5) ∧
    (sweepReady sound 0 = true ∧ sweepPaused sound 0 = false ∧ swept (sound.p 0 R.CFG_SWEEP_STATUS.POS 6) 0 5 = true ∧
      frameCrc (sound.frame 0 5) = sound.sig 0 5) ∧
    (sweepReady sound 0 = true) ∧
    (sweepReady dynSweep 0 = true ∧ sweepPaused dynSweep 0 = false ∧ swept (dynSweep.p 0 R.CFG_SWEEP_STATUS.POS 6) 0 5 = false) ∧
    (swept flipped 0 5 = true ∧ frameCrc (flipped.frame 0 5) ≠ flipped.sig 0 5) ∧
    (swept flipped 0 5 = true)) ∧
    ((coldSeu.present 0 = true ∧ coldSeu.running 0 = true ∧ loadWrites coldSeu 0 = false ∧
      (coldSeu.seuOf 0).find? (fun e => !e.flash) = some ⟨5, false, false, false⟩ ∧ coldSeu.on 0 R.CFG_WARM_STATUS.VALID = false) ∧
    (warmSeu.present 0 = true ∧ warmSeu.running 0 = true ∧ loadWrites warmSeu 0 = false ∧
      (warmSeu.seuOf 0).find? (fun e => !e.flash) = some ⟨5, false, false, false⟩ ∧ warmSeu.on 0 R.CFG_WARM_STATUS.VALID = true ∧
      warmRead.1 = .ok ∧ (∀ x ∈ warmRead.2.1, x.p = false) ∧ frameCrc (warmRead.2.1.map (fun x => x.v)) = warmRead.2.2.sig 0 5) ∧
    (flashSeu.dies.any (fun d => (flashSeu.seuOf d).any (fun e => e.flash)) = true ∧ flashSeu.cfg.parse.kind = .idle ∧
      flashSeu.phase = Phase.running ∧ flashSource flashSeu = true)) ∧
    ((jtagSeu.dies.any (fun d => (jtagSeu.seuOf d).any (fun e => e.flash)) = true ∧ jtagSeu.cfg.parse.kind = .idle ∧
      jtagSeu.phase = Phase.running ∧ flashSource jtagSeu = false) ∧
    (((passAt zeros64).seuOf 0).find? (fun e => e.fa == 5 && e.flash && e.due) = some ⟨5, false, true, true⟩ ∧
      (passAt zeros64).cfg.parse.kind = .flashPass ∧ (passAt zeros64).cfg.parse.hdrDone = true ∧
      SMap.get (fun _ => []) (passAt zeros64).cfg.parse.passed (frameKey 0 5) = zeros64 ∧
      frameCrc zeros64 = ((passAt zeros64).setSeu 0 []).sig 0 5) ∧
    (((passAt [7]).seuOf 0).find? (fun e => e.fa == 5 && e.flash && e.due) = some ⟨5, false, true, true⟩ ∧
      (passAt [7]).cfg.parse.hdrDone = true ∧ frameCrc [7] ≠ ((passAt [7]).setSeu 0 []).sig 0 5)) :=
  ⟨by unfold Reaches; decide +kernel,
    by unfold Reaches; decide +kernel,
    by decide +kernel,
    by unfold Reaches; decide +kernel,
    by unfold Reaches; decide +kernel,
    by unfold Reaches; decide +kernel,
    by unfold Reaches; decide +kernel,
    by unfold Reaches; decide +kernel,
    by unfold Reaches; decide +kernel,
    by decide +kernel,
    by unfold Canonical Reaches; decide +kernel,
    by decide +kernel,
    by decide +kernel,
    by decide +kernel⟩

def tile0 : Tile := ⟨3, 2⟩
def tileB : Tile := ⟨0, 0⟩
def ins0 : TileIn := ⟨Vector.replicate 8 0x3F, 0xFF, 0xFF⟩
def memCell : CellCfg := ⟨.mem, 0, false, false, .mem64⟩
def shiftCell : CellCfg := ⟨.shift, 0, false, true, .mem64⟩
def pinOut0 : IoCfg := ⟨.lvcmos 18, true, 8, false, false, .none, .single, .single, .single, 1, 0, 0, false, .global 0, .keep, .low⟩
def bport : BmPort := ⟨3, .old, false, 0⟩
def acfg : ArithCfg := ⟨0, 0, 0, 0, 0, false, true, true, false, 48, false, false, false, .global 0⟩
def fabDesign : DieDesign := { DieDesign.empty with regions := [(3, ⟨0, 2, 0, 0, 6, 1, 2, [7], [9], [], [], []⟩)], pfifos := 0xFF, gtracks := [(0, ⟨.tap 0, allRegions⟩)], halves := [(tileNum tile0 * 2, halfPlain), (tileNum tileB * 2, { halfPlain with srSync := true }), (tileNum tileB * 2 + 1, halfPlain)], ffs := [(tileNum tile0 * 16 + 2, ⟨true, true, .bypass⟩)], cells := (List.range 8).map (fun c => (tileNum tile0 * 8 + c, memCell)) ++ (List.range 8).map (fun c => (tileNum tileB * 8 + c, shiftCell)), bmems := [(1, ⟨bport, bport, .global 0, .global 0, false, [], 0, 0⟩)], slices := [(12, acfg), (13, { acfg with aLink := true })], pins := [(95, pinOut0)], xings := [(5, ⟨true, .tap 0, .zero⟩), (539, ⟨false, .tap 0, .zero⟩), (1024 + 5, ⟨true, .tap 0, .zero⟩), (1024 + 539, ⟨false, .tap 0, .zero⟩)], irqs := [(4, none)] }
def fabRun : State := (tap0 run 0).setDesign 0 fabDesign
def ff2 (sr : Bool) : FfSite := .cell tile0 2 true sr
def k2 : Nat := tileNum tile0 * 16 + 2
def out2 (s : State) : List DWord := cellReply s 0 tile0 1 [ins0]
def noHalf : State := fabRun.setDesign 0 { fabDesign with halves := [] }
def fenced3 : State := setPrState (((((fabRun.p 0 (R.FAB_PR_GEOM.VALID 3) 1).p 0 (R.FAB_PR_GEOM.FC_HI 3) 2)).p 0 (R.FAB_PR_NOCP.PORTS 3) 1).p 0 (R.FAB_PR_PFIFO.PAIRS 3) 2) 0 3 Pr.fenced
def gsrHeld : State := fabRun.setBit 0 R.SYS_RST_BLOCK.HOLD Blk.gsr
def pinDrive : IoDrive := ⟨false, true, true, true, 0, 0, 0, 0⟩
def shifting : State := fabRun.setLut 0 (tileNum tileB * 8) (1#64 <<< 63)
def adrive : ArithDrive := ⟨1, 2, 3, 4, 5, 2, 7, 0x1F, false⟩
def aw (s : State) (k : Nat) (l : ArithLink) : ArithWires := arithWires (arithCfg s 0 k) (s.arithOf 0 k) adrive l
def an (s : State) (k : Nat) (l : ArithLink) : Arith := arithNext (arithCfg s 0 k) (s.arithOf 0 k) adrive l
def ao (s : State) (k : Nat) (l : ArithLink) : List DWord := arithOut (arithCfg s 0 k) (s.arithOf 0 k) (aw s k l)
def al (s : State) : ArithLink := arithLinkOut (arithCfg s 0 12) (s.arithOf 0 12) (aw s 12 (arithBelow s 0 12))
def bdrive : BmDrive := ⟨true, 1, 9, 0x5A, false, false, false, false, 0⟩
def bmAfter : State := (fabRun.free 256).2.setBmem 0 1 { fabRun.bmem 0 1 with cells := (bmPuts (bmCfg fabRun 0 1) bport bdrive).foldl bmPut (fabRun.bmem 0 1).cells, latchA := BitVec.ofNat 72 (bmWord bport 9 (fun j => SMap.get (fun _ => 0#9) (fabRun.bmem 0 1).cells j)), flagA := 0 }
def link0 : ArithLink := ⟨0, 0, 0⟩
theorem witness_PrimitivesComplete :
    ((halfRuns noHalf 0 tile0 0 = false) ∧
    (tileFenced fenced3 0 tile0.x tile0.y = true) ∧
    (halfRuns gsrHeld 0 tile0 0 = true ∧ tileFenced gsrHeld 0 tile0.x tile0.y = false ∧ gsrHeld.held 0 Blk.gsr = true) ∧
    (halfRuns fabRun 0 tile0 0 = true ∧ tileFenced fabRun 0 tile0.x tile0.y = false ∧ fabRun.held 0 Blk.gsr = false ∧
      fabRun.stepDone 0 WStep.gwe = true) ∧
    (halfRuns fabRun 0 tile0 0 = true ∧ fabRun.held 0 Blk.gsr = false ∧ halfAsync fabRun 0 tile0 0 = true) ∧
    (halfRuns fabRun 0 tileB 0 = true ∧ halfAsync fabRun 0 tileB 0 = false ∧ fabRun.stepDone 0 WStep.gwe = true)) ∧
    ((pinCfg fabRun 0 95 = some pinOut0 ∧ fabClocked fabRun 0 = true ∧ trackRuns fabRun 0 pinOut0.clk = true ∧ pinFence fabRun 0 95 = none ∧
      fabRun.held 0 Blk.gsr = false) ∧
    (fabClocked fabRun 0 = true ∧ tileFenced fabRun 0 tile0.x tile0.y = false ∧ fabRun.held 0 Blk.gsr = false ∧ halfAsync fabRun 0 tile0 0 = true) ∧
    ((List.range 8).filter (fun c => (if c < 4 then true else true) && cellWrites shifting 0 tileB (c / 4) && halfCe shifting 0 tileB (c / 4) ((1#2).getLsbD (c / 4)) && (cellCfg shifting 0 (tileNum tileB * 8 + c)).mode == .shift) = [0, 1, 2, 3]) ∧
    (cellWrites fabRun 0 tile0 0 = true ∧ halfCe fabRun 0 tile0 0 true = true ∧ tile0.x.val % 4 = 3 ∧
      (cellCfg fabRun 0 (tileNum tile0 * 8 + 2)).mem = .mem64 ∧
      (∀ c ∈ ramGroup .mem64 2, (cellCfg fabRun 0 (tileNum tile0 * 8 + c)).mode = .mem) ∧ ramAddr .mem64 2 ins0 = 63)) ∧
    ((fabClocked fabRun 0 = true ∧ trackRuns fabRun 0 (arithCfg fabRun 0 12).clk = true ∧ siteFenced fabRun 0 12 RegionDecl.slices = false ∧
      fabRun.held 0 Blk.gsr = false) ∧
    (12 % 128 < 127 ∧ trackRuns fabRun 0 (arithCfg fabRun 0 13).clk = true ∧ siteFenced fabRun 0 13 RegionDecl.slices = false) ∧
    (fabClocked gsrHeld 0 = true ∧ trackRuns gsrHeld 0 (arithCfg gsrHeld 0 12).clk = true ∧
      siteFenced gsrHeld 0 12 RegionDecl.slices = false ∧ gsrHeld.held 0 Blk.gsr = true)) ∧
    (fabClocked fabRun 0 = true ∧ (bmCfg fabRun 0 1).ecc = false ∧ (bmCfg fabRun 0 1).chain = 0 ∧ (bmCfg fabRun 0 1).a.latch = .old ∧
      (bmCfg fabRun 0 1).a.pipe = false ∧ trackRuns fabRun 0 (bmCfg fabRun 0 1).clkA = true ∧ bdrive.en = true ∧ fabWrites fabRun 0 = true ∧
      siteFenced fabRun 0 1 RegionDecl.bmems = false ∧ fabRun.held 0 Blk.gsr = false) ∧
    (adrive.rst = false ∧ acfg.accReg = true ∧ acfg.mulReg = true ∧ acfg.cDepth = 0 ∧ adrive.ce.getLsbD 3 = true ∧ 1 ≤ 8 ∧ 8 ≤ 48 ∧
      narOvf 8 5 0 = false ∧ narOvf 8 500 0 = true) :=
  ⟨by decide +kernel,
    by decide +kernel,
    by decide +kernel,
    by decide +kernel,
    by decide +kernel⟩

def ncfg : ArithCfg := { acfg with narReg := true, oWidth := 24 }
def accum : Arith := { Arith.reset with p := BitVec.ofInt 64 (-15500000000000), sh4 := 24 }
theorem witness_LscNormalises :
    (adrive.rst = false ∧ ncfg.narReg = true ∧ ncfg.accReg = true ∧ adrive.ce.getLsbD 4 = true ∧ 19 = redundantSign accum.p ∧ 19 < 63) :=
  by decide +kernel

def duoRun : State := (tap0 (tap0 (((duo.p 0 R.SYS_BOOT_STATUS.PHASE Phase.running).p 0 R.CFG_WAKE_STATUS.DONE_STEPS 0x1FF).p 1 R.CFG_WAKE_STATUS.DONE_STEPS 0x1FF) 0) 1).setDesign 0 fabDesign
def xup : State := (duoRun.setBit 0 R.FAB_XING_STATUS.LINK_UP 0).setBit 1 R.FAB_XING_STATUS.LINK_UP (farEdge 0)
def xin : State := xup.setXing (xingKey 0 0 5) ⟨1, [2, 3], false⟩
def xstop : State := xup.setXing (xingKey 0 0 5) ⟨3, [], true⟩
def xkey (g : Nat) : Nat := xingKey 1 (farEdge 0) g
def sopEop : FWord := ⟨0x1234, 3 + 2 ^ 16⟩
def fifoIn : State := fabRun.setFifo 0 2 ⟨[⟨7, 1⟩, ⟨8, 2⟩, sopEop], false⟩
def openOut : State := fabRun.setFifo 0 10 ⟨[sopEop, ⟨5, 1⟩], true⟩
def online : State := fabRun.p 0 (R.FAB_KSLOT_STATUS.STATE 1) Slot.online
def descd : State := online.setKslot 0 1 ⟨[([1, 2], 5)], [5], [], []⟩
def waitCpl : State := online.setKslot 0 1 ⟨[], [5], [], [5]⟩
def badOnce : State := waitCpl.p 0 (R.FAB_KSLOT_STATUS.BAD_CPL 1) 1
def heldCpl : State := online.setKslot 0 1 ⟨[], [5], [(⟨5, 0, 1, [9]⟩, [])], []⟩
def npAsk (s : State) (p tag i : Nat) (op : NocOp) (addr : DWord) (bytes beats : Nat) : NpReq := ⟨tag, i, ⟨portMaster s 0 p, ⟨i % 512, Nat.mod_lt _ (by decide)⟩, op, addr, bytes, [], []⟩, beats, false, false⟩
def mapped : State := (((((fabRun.p 0 (R.DDR_CFG.EN 0) 1).p 0 (R.DDR_STATUS.STATE 0) DdrState.ready).p 0 (R.DDR_MAP_CTL.EN 0) 1).p 0 (R.DDR_MAP_CTL.CHMASK 0) 1).p 0 (R.DDR_MAP_RNG.SIZE 0) 1)
def beatWait : State := fabRun.setNport 0 20 ⟨[npAsk fabRun 20 3 0 .write 64 64 1], []⟩
def beatDone : NpReq := ⟨3, 0, ⟨portMaster fabRun 0 20, 0, .write, 64, 64, beatWords 77 0, (List.range 8).map (fun _ => 0xFF)⟩, 0, false, false⟩
def winRun : State := ((fabRun.p 0 (R.FAB_NOCP_WIN.TARGET 17) 1).p 0 (R.FAB_NOCP_WIN.SIZE_LOG2 17) 16).p 0 (R.FAB_NOCP_WIN.BASE 17) 1
def winReq : Req := ⟨cm, 3, .read, 0x40010040, 8, [], []⟩
def winHeld : State := winRun.setBit 0 R.SYS_RST_BLOCK.HOLD Blk.gsr
def winWait (q : Bool) : State := let s := (winRun.setNport 0 17 ⟨[], [(9, winReq)]⟩).sendNet winReq 3 (.flying 0); s.putNet winReq.m.rid 3 ((s.netOf winReq.m.rid 3).map (fun r => { r with quar := q }))
def winCut (q : Bool) : State := (winWait q).setNport 0 17 ⟨[], []⟩
def handing : State := run.p 0 (R.BNK_STATUS.HANDOVER_PENDING 2) 1
theorem witness_FabricPortsComplete :
    ((crossingTo duoRun 0 0 = some 1 ∧ pastGsr duoRun 0 = true ∧ pastGsr duoRun 1 = true ∧ duoRun.bit 0 R.FAB_XING_STATUS.LINK_UP 0 = false) ∧
    (xingSync xin 0 0 5 = true ∧ xingFarFenced xin 0 0 5 = false) ∧
    (xingSync xstop 0 0 5 = true ∧ xingFarFenced xstop 0 0 5 = false) ∧
    (crossingTo xup 0 0 = some 1 ∧ xingDecl xup 0 0 5 = some ⟨true, .tap 0, .zero⟩ ∧ (xup.xing (xkey 5)).stopped = false ∧
      (xup.xing (xkey 5)).fifo.length < 4 ∧ fabClocked xup 0 = true ∧ clkRuns xup 0 (.tap 0) = true ∧ xingUp xup 0 0 = true ∧
      xup.present 1 = true ∧ 5 < xingGroups 0 ∧ xingFenced xup 0 0 5 = false)) ∧
    ((xingDecl xup 0 0 539 = some ⟨false, .tap 0, .zero⟩ ∧ (xup.xing (xkey 539)).fifo.length < 8 ∧ 539 < xingGroups 0 ∧
      xingFenced xup 0 0 539 = false) ∧
    (xingDecl fabRun 0 0 5 = some ⟨true, .tap 0, .zero⟩ ∧ xingUp fabRun 0 0 = false ∧ fabClocked fabRun 0 = true ∧ clkRuns fabRun 0 (.tap 0) = true) ∧
    (xingUp xin 0 0 = true ∧ (xin.xing (xingKey 0 0 5)).fifo = [2, 3] ∧ xingDecl xin 0 0 5 = some ⟨true, .tap 0, .zero⟩ ∧
      fabClocked xin 0 = true ∧ clkRuns xin 0 (.tap 0) = true ∧ (xin.xing (xingKey 0 0 5)).stopped = false) ∧
    (xingUp xstop 0 0 = true ∧ (xstop.xing (xingKey 0 0 5)).fifo = [] ∧ xingDecl xstop 0 0 5 = some ⟨true, .tap 0, .zero⟩ ∧
      clkRuns xstop 0 (.tap 0) = true)) ∧
    ((fabRun.dies.any (fun d => (fabRun.designOf d).irqs.any (fun x => x.1 == 4)) = true) ∧
    (pairRuns fifoIn 0 2 = true ∧ (fifoIn.fifo 0 2).words = [⟨7, 1⟩, ⟨8, 2⟩, sopEop]) ∧
    (pairRuns fifoIn 0 2 = true) ∧
    (pairRuns fabRun 0 2 = true ∧ (fabRun.fifo 0 10).words.length < 512 ∧ isSop ⟨5, 1⟩ = !(fabRun.fifo 0 10).open_ ∧
      (⟨5, 1⟩ : FWord).sb.getLsbD 9 = false) ∧
    ((fabRun.fifo 0 10).open_ = false ∧ isSop ⟨5, 0⟩ = false ∧ (fabRun.fifo 0 10).words.length < 512) ∧
    (pairRuns openOut 0 2 = true ∧ (openOut.fifo 0 10).open_ = true) ∧
    (slotRuns descd 0 1 = true ∧ slotState descd 0 1 = Slot.online ∧ (descd.kslot 0 1).descs = [([1, 2], 5)])) ∧
    ((slotRuns waitCpl 0 1 = true ∧ (waitCpl.kslot 0 1).held = [] ∧ (5#16) ∈ (waitCpl.kslot 0 1).outst ∧
      (∀ e ∈ (waitCpl.kslot 0 1).descs, e.2 ≠ 5#16)) ∧
    (slotRuns badOnce 0 1 = true ∧ ¬ (6#16) ∈ (badOnce.kslot 0 1).outst ∧ badOnce.g 0 (R.FAB_KSLOT_STATUS.BAD_CPL 1) ≠ 0) ∧
    (heldCpl.present 0 = true ∧ heldCpl.held 0 Blk.dfd = false ∧ (heldCpl.kslot 0 1).held = [(⟨5, 0, 1, [9]⟩, [])] ∧
      heldReady heldCpl 0 [] = true ∧ heldCpl.cplRoom 0 = true) ∧
    (portRuns fabRun 0 20 = true ∧ (∀ q ∈ (fabRun.nport 0 20).reqs, q.ready = false) ∧ portFenced fabRun 0 20 = false ∧
      (∀ q ∈ (fabRun.nport 0 20).reqs, q.ftag ≠ 3) ∧ freeItag fabRun 0 20 = some 0)) ∧
    (((0x1000#64).toNat % 64 = 0 ∧ (0x1000#64).toNat / 4096 = ((0x1000#64).toNat + 64 * (63 + 1) - 1) / 4096) ∧
    (portRuns fabRun 0 20 = true) ∧
    (0 < 1) ∧
    (portRuns fabRun 0 20 = true ∧ 16 ≤ 20) ∧
    (portRuns mapped 0 2 = true ∧ (∀ q ∈ (mapped.nport 0 2).reqs, q.ready = false) ∧ portFenced mapped 0 2 = false ∧
      (∀ q ∈ (mapped.nport 0 2).reqs, q.ftag ≠ 3) ∧ freeItag mapped 0 2 = some 0 ∧
      decodeAddr mapped (portMaster mapped 0 2) 0 0x020000000000 = .dram 0 0 0) ∧
    (portRuns beatWait 0 20 = true ∧ (∀ q ∈ (beatWait.nport 0 20).reqs, q.ready = false) ∧
      (beatWait.nport 0 20).reqs.find? (fun q => decide (0 < q.beats)) = some (npAsk fabRun 20 3 0 .write 64 64 1))) ∧
    ((targetPort winRun winReq = some (0, 17, 64) ∧ winRun.netOf winReq.m.rid winReq.tag = none ∧
      uncachedWaits winRun winReq winReq.tag = false ∧ (routeTo winRun (winRun.dieOfRid winReq.m.rid) 0).1 = none ∧
      ((routeTo winRun (winRun.dieOfRid winReq.m.rid) 0).2.held 0 Blk.gsr || portFenced (routeTo winRun (winRun.dieOfRid winReq.m.rid) 0).2 0 17) = false ∧
      ((routeTo winRun (winRun.dieOfRid winReq.m.rid) 0).2.nport 0 17).tgt = []) ∧
    (targetPort winHeld winReq = some (0, 17, 64) ∧ uncachedWaits winHeld winReq winReq.tag = false ∧
      (routeTo winHeld (winHeld.dieOfRid winReq.m.rid) 0).1 = none ∧
      ((routeTo winHeld (winHeld.dieOfRid winReq.m.rid) 0).2.held 0 Blk.gsr || portFenced winHeld 0 17) = true) ∧
    (portRuns (winWait false) 0 17 = true ∧ ((winWait false).nport 0 17).tgt.find? (fun t => t.1 == 9) = some (9, winReq) ∧
      ((winWait false).netOf winReq.m.rid winReq.tag).map (fun r => (r.req, r.quar)) = some (winReq, false) ∧ winReq.op = .read ∧
      [(⟨5, false⟩ : MWord)].length = reqWords winReq) ∧
    (portRuns (winWait true) 0 17 = true ∧ ((winWait true).nport 0 17).tgt.find? (fun t => t.1 == 9) = some (9, winReq) ∧
      ((winWait true).netOf winReq.m.rid winReq.tag).map (fun r => (r.req, r.quar)) = some (winReq, true))) ∧
    (handing.present 0 = true ∧ handing.on 0 (R.BNK_STATUS.HANDOVER_PENDING 2) = true ∧ handing.on 0 (R.BNK_STATUS.WIPING 2) = false) :=
  ⟨by decide +kernel,
    by decide +kernel,
    by decide +kernel,
    by decide +kernel,
    by decide +kernel,
    by decide +kernel,
    by decide +kernel⟩

def seGate (s : State) : State := ((s.setBit 0 (gateReg 3) 5).setBit 0 (gateReg 2) 0).setBit 0 (gateReg 1) 6
def eng0 : SEng := { SEng.reset with pc := 100, s := [(1, ⟨40, false⟩), (2, ⟨7, false⟩), (3, ⟨0xFFFFFFF0, false⟩)], p := [(2, 640)], v := [(8, ⟨0x0001000200030004, false⟩), (16, ⟨0x7FFF800000050006, false⟩)], chain := [(3, 9)], acc := [(3, 9)] }
def seIs (e : SEng) (w : Nat) : State := ((seGate run).setPmWord 0 5 e.pc (pmPack (BitVec.ofNat 32 w) (pmCheck (BitVec.ofNat 32 w)))).setEng 0 5 e |>.setSeState 0 5 SeState.run
def ins (op d a b low : Nat) : Nat := op * 2 ^ 26 + d * 2 ^ 21 + a * 2 ^ 16 + b * 2 ^ 11 + low
def eng1 : SEng := { eng0 with outer := some ⟨90, 120⟩, lc0 := 4 }
def okDesc : List MWord := [⟨0x10000000, false⟩, ⟨64 + 64 * 2 ^ 32, false⟩, ⟨1 + 8 * 2 ^ 32, false⟩, ⟨8 + 2 ^ 32, false⟩]
def dmaIs : State := dmWrite (seIs { eng0 with s := [(1, ⟨64, false⟩)] } (ins 11 0 1 0 1)) 0 5 8 (okDesc.map (fun x => (x, 0xFF)))
theorem witness_SeControlComplete :
    (Issues (seIs eng0 (ins 0 0 0 0 0)) 0 5 eng0 0x00 (ins 0 0 0 0 0)) ∧
    (Issues (seIs eng0 (ins 1 0 0 0 16382)) 0 5 eng0 0x01 (ins 1 0 0 0 16382)) ∧
    (Issues (seIs eng0 (ins 2 2 4 0 10)) 0 5 eng0 0x02 (ins 2 2 4 0 10) ∧ fld (ins 2 2 4 0 10) 18 3 ≤ 5 ∧
      (eng0.sreg (fld (ins 2 2 4 0 10) 21 5)).p = false) ∧
    (Issues (seIs eng0 (ins 2 2 0 0 10)) 0 5 eng0 0x02 (ins 2 2 0 0 10) ∧ fld (ins 2 2 0 0 10) 18 3 ≤ 5) ∧
    (Issues (seIs eng0 (ins 3 0 0 0 10)) 0 5 eng0 0x03 (ins 3 0 0 0 10)) ∧
    (Issues (seIs eng0 (ins 4 1 0 0 0)) 0 5 eng0 0x04 (ins 4 1 0 0 0) ∧ (eng0.sreg (fld (ins 4 1 0 0 0) 21 5)).p = false) ∧
    (Issues (seIs eng0 (ins 5 0 0 0 0)) 0 5 eng0 0x05 (ins 5 0 0 0 0)) ∧
    (Issues (seIs eng0 (ins 6 0 0 0 (2 * 2 ^ 14 + 3))) 0 5 eng0 0x06 (ins 6 0 0 0 (2 * 2 ^ 14 + 3)) ∧ eng0.inner = none ∧ eng0.outer = none ∧
      eng0.pc + fld (ins 6 0 0 0 (2 * 2 ^ 14 + 3)) 14 6 + 1 ≤ 16383 ∧ fld (ins 6 0 0 0 (2 * 2 ^ 14 + 3)) 25 1 = 0 ∧
      fld (ins 6 0 0 0 (2 * 2 ^ 14 + 3)) 0 12 ≠ 0) ∧
    (Issues (seIs eng0 (ins 6 0 0 0 (2 * 2 ^ 14))) 0 5 eng0 0x06 (ins 6 0 0 0 (2 * 2 ^ 14)) ∧ eng0.inner = none ∧ eng0.outer = none ∧
      eng0.pc + fld (ins 6 0 0 0 (2 * 2 ^ 14)) 14 6 + 1 ≤ 16383 ∧ fld (ins 6 0 0 0 (2 * 2 ^ 14)) 25 1 = 0 ∧
      fld (ins 6 0 0 0 (2 * 2 ^ 14)) 0 12 = 0) ∧
    (Issues (seIs eng1 (ins 6 0 0 0 (2 * 2 ^ 14 + 3))) 0 5 eng1 0x06 (ins 6 0 0 0 (2 * 2 ^ 14 + 3)) ∧ eng1.inner = none ∧
      eng1.outer = some ⟨90, 120⟩ ∧ eng1.pc + fld (ins 6 0 0 0 (2 * 2 ^ 14 + 3)) 14 6 + 1 ≤ 16383 ∧
      eng1.pc + fld (ins 6 0 0 0 (2 * 2 ^ 14 + 3)) 14 6 + 1 ≤ 120 ∧ fld (ins 6 0 0 0 (2 * 2 ^ 14 + 3)) 25 1 = 0 ∧
      fld (ins 6 0 0 0 (2 * 2 ^ 14 + 3)) 0 12 ≠ 0) ∧
    (Issues (seIs eng1 (ins 6 16 16 0 (2 * 2 ^ 14))) 0 5 eng1 0x06 (ins 6 16 16 0 (2 * 2 ^ 14)) ∧ eng1.inner = none ∧
      eng1.outer = some ⟨90, 120⟩ ∧ eng1.pc + fld (ins 6 16 16 0 (2 * 2 ^ 14)) 14 6 + 1 ≤ 16383 ∧
      eng1.pc + fld (ins 6 16 16 0 (2 * 2 ^ 14)) 14 6 + 1 ≤ 120 ∧ fld (ins 6 16 16 0 (2 * 2 ^ 14)) 25 1 = 1 ∧
      (eng1.sreg (fld (ins 6 16 16 0 (2 * 2 ^ 14)) 20 5)).p = false ∧ (eng1.sreg (fld (ins 6 16 16 0 (2 * 2 ^ 14)) 20 5)).v = 40) ∧
    (Issues (seIs eng1 (ins 6 0 0 0 (2 * 2 ^ 14))) 0 5 eng1 0x06 (ins 6 0 0 0 (2 * 2 ^ 14)) ∧ eng1.inner = none ∧
      eng1.outer = some ⟨90, 120⟩ ∧ eng1.pc + fld (ins 6 0 0 0 (2 * 2 ^ 14)) 14 6 + 1 ≤ 16383 ∧
      eng1.pc + fld (ins 6 0 0 0 (2 * 2 ^ 14)) 14 6 + 1 ≤ 120 ∧ fld (ins 6 0 0 0 (2 * 2 ^ 14)) 25 1 = 0 ∧
      fld (ins 6 0 0 0 (2 * 2 ^ 14)) 0 12 = 0) ∧
    (Issues (seIs eng0 (ins 7 4 0 0 0)) 0 5 eng0 0x07 (ins 7 4 0 0 0) ∧ fld (ins 7 4 0 0 0) 23 3 ≤ 4 ∧
      (∀ k, k < 2 * fld (ins 7 4 0 0 0) 23 3 → (eng0.sreg (24 + k)).p = false) ∧ seDmaErr eng0 [0, 1] = none) ∧
    (Issues (seIs eng0 (ins 8 0 0 0 1)) 0 5 eng0 0x08 (ins 8 0 0 0 1)) ∧
    (Issues (seIs eng0 (ins 9 4 18 0 0)) 0 5 eng0 0x09 (ins 9 4 18 0 0) ∧ fld (ins 9 4 18 0 0) 0 1 = 0 ∧
      ctlRead (seIs eng0 (ins 9 4 18 0 0)) 0 5 eng0 (fld (ins 9 4 18 0 0) 16 5) = some 5) ∧
    (Issues (seIs eng0 (ins 9 2 0 0 1)) 0 5 eng0 0x09 (ins 9 2 0 0 1) ∧ fld (ins 9 2 0 0 1) 0 1 = 1 ∧ fld (ins 9 2 0 0 1) 16 5 = 0 ∧
      (eng0.sreg (fld (ins 9 2 0 0 1) 21 5)).p = false) ∧
    (Issues (seIs eng0 (ins 9 2 1 0 1)) 0 5 eng0 0x09 (ins 9 2 1 0 1) ∧ fld (ins 9 2 1 0 1) 0 1 = 1 ∧ fld (ins 9 2 1 0 1) 16 5 = 1 ∧
      (eng0.sreg (fld (ins 9 2 1 0 1) 21 5)).p = false) ∧
    (Issues (seIs eng0 (ins 9 2 2 0 1)) 0 5 eng0 0x09 (ins 9 2 2 0 1) ∧ fld (ins 9 2 2 0 1) 0 1 = 1 ∧ fld (ins 9 2 2 0 1) 16 5 = 2 ∧
      (eng0.sreg (fld (ins 9 2 2 0 1) 21 5)).p = false) ∧
    (Issues (seIs eng0 (ins 9 2 3 0 1)) 0 5 eng0 0x09 (ins 9 2 3 0 1) ∧ fld (ins 9 2 3 0 1) 0 1 = 1 ∧ fld (ins 9 2 3 0 1) 16 5 = 3 ∧
      (eng0.sreg (fld (ins 9 2 3 0 1) 21 5)).p = false) ∧
    (Issues (seIs eng0 (ins 9 2 4 0 1)) 0 5 eng0 0x09 (ins 9 2 4 0 1) ∧ fld (ins 9 2 4 0 1) 0 1 = 1 ∧ fld (ins 9 2 4 0 1) 16 5 = 4 ∧
      (eng0.sreg (fld (ins 9 2 4 0 1) 21 5)).p = false) ∧
    (Issues (seIs eng0 (ins 10 0 0 0 1)) 0 5 eng0 0x0A (ins 10 0 0 0 1) ∧ fld (ins 10 0 0 0 1) 0 3 ≠ 0 ∧
      waitReady eng0 (fld (ins 10 0 0 0 1) 0 3) = true ∧ seDmaErr eng0 (waitChs (fld (ins 10 0 0 0 1) 0 3)) = none) ∧
    (Issues (seIs eng0 (ins 10 0 0 0 4)) 0 5 eng0 0x0A (ins 10 0 0 0 4) ∧ fld (ins 10 0 0 0 4) 0 3 ≠ 0 ∧
      waitReady eng0 (fld (ins 10 0 0 0 4) 0 3) = false) ∧
    (Issues dmaIs 0 5 (dmaIs.eng 0 5) 0x0B (ins 11 0 1 0 1) ∧ ((dmaIs.eng 0 5).ch (fld (ins 11 0 1 0 1) 0 1)).busy = false ∧
      ((dmaIs.eng 0 5).sreg (fld (ins 11 0 1 0 1) 16 5)) = ⟨64, false⟩ ∧ (dmRead dmaIs 0 5 (64 / 8) 4).1 = okDesc ∧ marked okDesc = false ∧
      dmaOk okDesc = true) ∧
    (Issues (seIs eng0 (ins 12 0 0 0 9)) 0 5 eng0 0x0C (ins 12 0 0 0 9) ∧ fld (ins 12 0 0 0 9) 0 6 ≤ 47) :=
  ⟨issues_of (by decide +kernel),
    issues_of (by decide +kernel),
    ⟨issues_of (by decide +kernel), by decide +kernel⟩,
    ⟨issues_of (by decide +kernel), by decide +kernel⟩,
    issues_of (by decide +kernel),
    ⟨issues_of (by decide +kernel), by decide +kernel⟩,
    issues_of (by decide +kernel),
    ⟨issues_of (by decide +kernel), by decide +kernel⟩,
    ⟨issues_of (by decide +kernel), by decide +kernel⟩,
    ⟨issues_of (by decide +kernel), by decide +kernel⟩,
    ⟨issues_of (by decide +kernel), by decide +kernel⟩,
    ⟨issues_of (by decide +kernel), by decide +kernel⟩,
    ⟨issues_of (by decide +kernel), by decide +kernel⟩,
    issues_of (by decide +kernel),
    ⟨issues_of (by decide +kernel), by decide +kernel⟩,
    ⟨issues_of (by decide +kernel), by decide +kernel⟩,
    ⟨issues_of (by decide +kernel), by decide +kernel⟩,
    ⟨issues_of (by decide +kernel), by decide +kernel⟩,
    ⟨issues_of (by decide +kernel), by decide +kernel⟩,
    ⟨issues_of (by decide +kernel), by decide +kernel⟩,
    ⟨issues_of (by decide +kernel), by decide +kernel⟩,
    ⟨issues_of (by decide +kernel), by decide +kernel⟩,
    ⟨issues_of (by decide +kernel), by decide +kernel⟩,
    ⟨issues_of (by decide +kernel), by decide +kernel⟩⟩

theorem witness_SeScalarComplete :
    (Issues (seIs eng0 (ins 16 4 1 2 13)) 0 5 eng0 0x10 (ins 16 4 1 2 13) ∧ fld (ins 16 4 1 2 13) 0 5 ≤ 17 ∧
      (eng0.sreg (fld (ins 16 4 1 2 13) 16 5)).p = false ∧ (eng0.sreg (fld (ins 16 4 1 2 13) 11 5)).p = false) ∧
    (Issues (seIs eng0 (ins 17 4 1 0 65531)) 0 5 eng0 0x11 (ins 17 4 1 0 65531) ∧ (eng0.sreg (fld (ins 17 4 1 0 65531) 16 5)).p = false) ∧
    (Issues (seIs eng0 (ins 18 4 1 0 65531)) 0 5 eng0 0x12 (ins 18 4 1 0 65531) ∧ (eng0.sreg (fld (ins 18 4 1 0 65531) 16 5)).p = false) ∧
    (Issues (seIs eng0 (ins 19 4 1 0 65531)) 0 5 eng0 0x13 (ins 19 4 1 0 65531) ∧ (eng0.sreg (fld (ins 19 4 1 0 65531) 16 5)).p = false) ∧
    (Issues (seIs eng0 (ins 20 4 1 0 65531)) 0 5 eng0 0x14 (ins 20 4 1 0 65531) ∧ (eng0.sreg (fld (ins 20 4 1 0 65531) 16 5)).p = false) ∧
    (Issues (seIs eng0 (ins 23 4 1 0 65531)) 0 5 eng0 0x17 (ins 23 4 1 0 65531) ∧ (eng0.sreg (fld (ins 23 4 1 0 65531) 16 5)).p = false) ∧
    (Issues (seIs eng0 (ins 21 4 0 0 65531)) 0 5 eng0 0x15 (ins 21 4 0 0 65531) ∧ (eng0.sreg (fld (ins 21 4 0 0 65531) 16 5)).p = false) ∧
    (Issues (seIs eng0 (ins 22 4 1 0 (2 * 64 + 3))) 0 5 eng0 0x16 (ins 22 4 1 0 (2 * 64 + 3)) ∧ fld (ins 22 4 1 0 (2 * 64 + 3)) 6 2 ≠ 3 ∧
      (eng0.sreg (fld (ins 22 4 1 0 (2 * 64 + 3)) 16 5)).p = false) ∧
    (Issues (seIs eng0 (ins 24 4 2 0 0)) 0 5 eng0 0x18 (ins 24 4 2 0 0) ∧ fld (ins 24 4 2 0 0) 0 1 = 0 ∧ fld (ins 24 4 2 0 0) 19 2 = 0) ∧
    (Issues (seIs eng0 (ins 24 1 2 0 1)) 0 5 eng0 0x18 (ins 24 1 2 0 1) ∧ fld (ins 24 1 2 0 1) 0 1 = 1 ∧
      (eng0.sreg (fld (ins 24 1 2 0 1) 21 5)).p = false ∧ fld (ins 24 1 2 0 1) 19 2 = 0) ∧
    (Issues (seIs eng0 (ins 24 4 10 0 0)) 0 5 eng0 0x18 (ins 24 4 10 0 0) ∧ fld (ins 24 4 10 0 0) 0 1 = 0 ∧ fld (ins 24 4 10 0 0) 19 2 = 1) ∧
    (Issues (seIs eng0 (ins 24 4 18 0 0)) 0 5 eng0 0x18 (ins 24 4 18 0 0) ∧ fld (ins 24 4 18 0 0) 0 1 = 0 ∧ fld (ins 24 4 18 0 0) 19 2 = 2) ∧
    (Issues (seIs eng0 (ins 24 1 10 0 1)) 0 5 eng0 0x18 (ins 24 1 10 0 1) ∧ fld (ins 24 1 10 0 1) 0 1 = 1 ∧ fld (ins 24 1 10 0 1) 19 2 = 1 ∧
      (eng0.sreg (fld (ins 24 1 10 0 1) 21 5)).p = false) ∧
    (Issues (seIs eng0 (ins 24 1 18 0 1)) 0 5 eng0 0x18 (ins 24 1 18 0 1) ∧ fld (ins 24 1 18 0 1) 0 1 = 1 ∧ fld (ins 24 1 18 0 1) 19 2 = 2 ∧
      (eng0.sreg (fld (ins 24 1 18 0 1) 21 5)).p = false) ∧
    (Issues (seIs eng0 (ins 25 0 8 0 0xFFFF)) 0 5 eng0 0x19 (ins 25 0 8 0 0xFFFF)) ∧
    (Issues (seIs eng0 (ins 32 1 8 0 3)) 0 5 eng0 0x20 (ins 32 1 8 0 3) ∧ (seAddr eng0 (ins 32 1 8 0 3) 4).toOption = some (652, eng0)) ∧
    (Issues (seGuard (seIs eng0 (ins 32 1 8 0 3)) 0 5 true) 0 5 eng0 0x20 (ins 32 1 8 0 3) ∧
      (seAddr eng0 (ins 32 1 8 0 3) 4).toOption = some (652, eng0)) ∧
    (Issues (seIs eng0 (ins 33 1 8 0 3)) 0 5 eng0 0x21 (ins 33 1 8 0 3) ∧ (seAddr eng0 (ins 33 1 8 0 3) 4).toOption = some (652, eng0)) ∧
    (Issues (seIs eng0 (ins 34 1 8 0 3)) 0 5 eng0 0x22 (ins 34 1 8 0 3) ∧ (seAddr eng0 (ins 34 1 8 0 3) 64).toOption = some (832, eng0)) ∧
    (Issues (seIs eng0 (ins 35 1 8 0 3)) 0 5 eng0 0x23 (ins 35 1 8 0 3) ∧ (seAddr eng0 (ins 35 1 8 0 3) 64).toOption = some (832, eng0)) ∧
    (Issues (seIs eng0 (ins 36 1 8 0 3)) 0 5 eng0 0x24 (ins 36 1 8 0 3) ∧ (seAddr eng0 (ins 36 1 8 0 3) 2).toOption = some (646, eng0)) :=
  ⟨⟨issues_of (by decide +kernel), by decide +kernel⟩,
    ⟨issues_of (by decide +kernel), by decide +kernel⟩,
    ⟨issues_of (by decide +kernel), by decide +kernel⟩,
    ⟨issues_of (by decide +kernel), by decide +kernel⟩,
    ⟨issues_of (by decide +kernel), by decide +kernel⟩,
    ⟨issues_of (by decide +kernel), by decide +kernel⟩,
    ⟨issues_of (by decide +kernel), by decide +kernel⟩,
    ⟨issues_of (by decide +kernel), by decide +kernel⟩,
    ⟨issues_of (by decide +kernel), by decide +kernel⟩,
    ⟨issues_of (by decide +kernel), by decide +kernel⟩,
    ⟨issues_of (by decide +kernel), by decide +kernel⟩,
    ⟨issues_of (by decide +kernel), by decide +kernel⟩,
    ⟨issues_of (by decide +kernel), by decide +kernel⟩,
    ⟨issues_of (by decide +kernel), by decide +kernel⟩,
    issues_of (by decide +kernel),
    ⟨issues_of (by decide +kernel), by decide +kernel⟩,
    ⟨issues_of (by decide +kernel), by decide +kernel⟩,
    ⟨issues_of (by decide +kernel), by decide +kernel⟩,
    ⟨issues_of (by decide +kernel), by decide +kernel⟩,
    ⟨issues_of (by decide +kernel), by decide +kernel⟩,
    ⟨issues_of (by decide +kernel), by decide +kernel⟩⟩

theorem witness_SeVectorComplete :
    (Issues (seIs eng0 (ins 40 4 1 2 (2 ^ 9 + 2 ^ 8))) 0 5 eng0 0x28 (ins 40 4 1 2 (2 ^ 9 + 2 ^ 8)) ∧
      fld (ins 40 4 1 2 (2 ^ 9 + 2 ^ 8)) 0 5 ≤ 12 ∧ fld (ins 40 4 1 2 (2 ^ 9 + 2 ^ 8)) 9 2 ≠ 3 ∧ fld (ins 40 4 1 2 (2 ^ 9 + 2 ^ 8)) 0 5 ≠ 10 ∧
      marked (eng0.vreg (fld (ins 40 4 1 2 (2 ^ 9 + 2 ^ 8)) 16 5)) = false ∧
      marked (eng0.vreg (fld (ins 40 4 1 2 (2 ^ 9 + 2 ^ 8)) 11 5)) = false) ∧
    (Issues (seIs eng0 (ins 40 4 1 0 10)) 0 5 eng0 0x28 (ins 40 4 1 0 10) ∧ fld (ins 40 4 1 0 10) 0 5 = 10 ∧ fld (ins 40 4 1 0 10) 9 2 ≠ 3) ∧
    (Issues (seIs eng0 (ins 41 4 1 2 (2 ^ 9 + 2))) 0 5 eng0 0x29 (ins 41 4 1 2 (2 ^ 9 + 2)) ∧ fld (ins 41 4 1 2 (2 ^ 9 + 2)) 0 2 ≠ 3 ∧
      fld (ins 41 4 1 2 (2 ^ 9 + 2)) 9 2 ≠ 3 ∧ marked (eng0.vreg (fld (ins 41 4 1 2 (2 ^ 9 + 2)) 16 5)) = false ∧
      (eng0.sreg (fld (ins 41 4 1 2 (2 ^ 9 + 2)) 11 5)).p = false) ∧
    (Issues (seIs eng0 (ins 42 4 1 0 (2 ^ 10))) 0 5 eng0 0x2A (ins 42 4 1 0 (2 ^ 10)) ∧ fld (ins 42 4 1 0 (2 ^ 10)) 9 2 ≠ 3 ∧
      (eng0.sreg (fld (ins 42 4 1 0 (2 ^ 10)) 16 5)).p = false) ∧
    (Issues (seIs eng0 (ins 43 4 1 0 (2 ^ 9 + 2))) 0 5 eng0 0x2B (ins 43 4 1 0 (2 ^ 9 + 2)) ∧ fld (ins 43 4 1 0 (2 ^ 9 + 2)) 9 2 ≠ 3 ∧
      fld (ins 43 4 1 0 (2 ^ 9 + 2)) 0 6 < 512 / szBits (fld (ins 43 4 1 0 (2 ^ 9 + 2)) 9 2) ∧
      ((eng0.vreg (fld (ins 43 4 1 0 (2 ^ 9 + 2)) 16 5)).getD (szBits (fld (ins 43 4 1 0 (2 ^ 9 + 2)) 9 2) * fld (ins 43 4 1 0 (2 ^ 9 + 2)) 0 6 / 64) ⟨0, false⟩).p = false) ∧
    (Issues (seIs eng0 (ins 44 3 1 2 (2 ^ 9))) 0 5 eng0 0x2C (ins 44 3 1 2 (2 ^ 9)) ∧ fld (ins 44 3 1 2 (2 ^ 9)) 9 2 ≠ 3 ∧
      marked (eng0.vreg (fld (ins 44 3 1 2 (2 ^ 9)) 16 5)) = false ∧ marked (eng0.vreg (fld (ins 44 3 1 2 (2 ^ 9)) 11 5)) = false) ∧
    (Issues (seIs eng0 (ins 45 3 1 0 (2 ^ 10 + 32))) 0 5 eng0 0x2D (ins 45 3 1 0 (2 ^ 10 + 32)) ∧ fld (ins 45 3 1 0 (2 ^ 10 + 32)) 9 2 ≠ 3 ∧
      marked (eng0.vreg (fld (ins 45 3 1 0 (2 ^ 10 + 32)) 16 5)) = false ∧ fld (ins 45 3 1 0 (2 ^ 10 + 32)) 0 6 ≤ 32) ∧
    (Issues (seIs eng0 (ins 46 4 3 2 (2 ^ 10 + 2 ^ 9))) 0 5 eng0 0x2E (ins 46 4 3 2 (2 ^ 10 + 2 ^ 9)) ∧
      (fld (ins 46 4 3 2 (2 ^ 10 + 2 ^ 9)) 10 1 = 0 → fld (ins 46 4 3 2 (2 ^ 10 + 2 ^ 9)) 0 6 ≤ 32) ∧
      (fld (ins 46 4 3 2 (2 ^ 10 + 2 ^ 9)) 10 1 = 1 → (eng0.sreg (fld (ins 46 4 3 2 (2 ^ 10 + 2 ^ 9)) 11 5)).p = false)) ∧
    (Issues (seIs eng0 (ins 47 0 3 1 0)) 0 5 eng0 0x2F (ins 47 0 3 1 0) ∧ fld (ins 47 0 3 1 0) 9 2 ≠ 3 ∧ fld (ins 47 0 3 1 0) 11 1 = 1 ∧
      fld (ins 47 0 3 1 0) 16 5 < 4) ∧
    (Issues (seIs eng0 (ins 47 0 1 0 (2 ^ 9))) 0 5 eng0 0x2F (ins 47 0 1 0 (2 ^ 9)) ∧ fld (ins 47 0 1 0 (2 ^ 9)) 9 2 ≠ 3 ∧
      fld (ins 47 0 1 0 (2 ^ 9)) 11 1 = 0 ∧ marked (eng0.vreg (fld (ins 47 0 1 0 (2 ^ 9)) 16 5)) = false) :=
  ⟨⟨issues_of (by decide +kernel), by decide +kernel⟩,
    ⟨issues_of (by decide +kernel), by decide +kernel⟩,
    ⟨issues_of (by decide +kernel), by decide +kernel⟩,
    ⟨issues_of (by decide +kernel), by decide +kernel⟩,
    ⟨issues_of (by decide +kernel), by decide +kernel⟩,
    ⟨issues_of (by decide +kernel), by decide +kernel⟩,
    ⟨issues_of (by decide +kernel), by decide +kernel⟩,
    ⟨issues_of (by decide +kernel), by decide +kernel⟩,
    ⟨issues_of (by decide +kernel), by decide +kernel⟩,
    ⟨issues_of (by decide +kernel), by decide +kernel⟩⟩

theorem witness_SeArithmetic :
    (1#32 ≠ 0 ∧ (1 : Nat) ≤ 2 ∧ (-(2 ^ 47) : Int) ≤ 3 ∧ (3 : Int) < 2 ^ 47 ∧ (16 = 8 ∨ 16 = 16 ∨ 16 = 32) ∧ 5 < 512 / 16) :=
  by decide +kernel

theorem witness_ProgramMemoryCode :
    (5 < 39 ∧ 38 < 39 ∧ 5 < 38) :=
  by decide +kernel

def waiting : State := ((seIs { eng0 with pend := 1, dma0 := { DmaCh.reset with run := some ⟨0, 0, 8, 1, 0, 0, false⟩ } } (ins 10 0 0 0 4))).setSeState 0 5 SeState.wait
def wEng : SEng := (waiting.eng 0 5).passMany 7
def ended : State := seIs { eng0 with fin := some [3], ticket := 77 } 0
def ended2 : State := (ended.setEng 0 5 { (ended.eng 0 5).drain.noFlow with pc := ((ended.eng 0 5).drain.noFlow.pc + 1) % 16384 }).setSeState 0 5 SeState.idle
def alone : State := ended.p 0 (R.SEA_CTRL.MODE 5) 1
def due : State := seIs { eng0 with ie := true, pend := 1, mask := 1, ivec := 900 } 0
def dueW : State := due.setSeState 0 5 SeState.wait
def aborting : State := (seIs eng0 0).setSeState 0 5 SeState.aborting
def halting : State := (seIs eng0 0).setSeState 0 5 SeState.halting
def solo (v : Nat) : State := ((seIs eng0 0).p 0 (R.SEA_CTRL.MODE 5) 1).setSeState 0 5 v
def mvDesc : DmaDesc := ⟨0x20000000, 64, 16, 1, 0, 0, false⟩
def moving (c : Nat) : State := seIs (eng0.setCh c ⟨some mvDesc, 0, 0, false⟩) 0
def mParts : List DmaPart := dmaRest (moving 1) 0 5 1 mvDesc
def seReq (op : NocOp) : Req := ⟨cm, 0, op, 0x20280040, 8, if op = .write then [⟨99, false⟩] else [], []⟩
def pmReq (op : NocOp) : Req := ⟨cm, 0, op, 0x202C0040, 8, if op = .write then [⟨99, false⟩] else [], []⟩
theorem witness_SeEventsComplete :
    ((waiting.seState 0 5 = SeState.wait ∧ seClocked waiting 0 5 = true ∧ seFetch waiting 0 5 wEng = some (ins 10 0 0 0 4) ∧
      waitReady wEng (ins 10 0 0 0 4 % 8) = true ∧ wEng.irqDue = false) ∧
    ((ended.eng 0 5).fin = some [3] ∧ ended.seState 0 5 = SeState.run ∧ seClocked ended 0 5 = true ∧ (ended.eng 0 5).dma0.busy = false ∧
      (ended.eng 0 5).dma1.busy = false ∧ seDmaErr (ended.eng 0 5) [0, 1] = none ∧ ended.standalone 0 5 = false ∧
      ended2.standalone 0 5 = false ∧ ended.cplRoom 0 = true) ∧
    (alone.standalone 0 5 = true ∧ (alone.eng 0 5).fin = some [3] ∧ seClocked alone 0 5 = true)) ∧
    ((due.seState 0 5 = SeState.run ∧ seClocked due 0 5 = true ∧ (due.eng 0 5).irqDue = true) ∧
    (dueW.seState 0 5 = SeState.wait ∧ seClocked dueW 0 5 = true ∧ (dueW.eng 0 5).toIrq.irqDue = true) ∧
    (aborting.seState 0 5 = SeState.aborting ∧ aborting.seLate 0 5 = [] ∧
      (((aborting.setEng 0 5 (aborting.eng 0 5)).setSeState 0 5 SeState.idle).eng 0 5).owed = false) ∧
    (halting.seState 0 5 = SeState.halting ∧ seClocked halting 0 5 = true ∧ (halting.eng 0 5).gap = true ∧
      (halting.eng 0 5).dma0.busy = false ∧ (halting.eng 0 5).dma1.busy = false ∧
      ((halting.setEng 0 5 (halting.eng 0 5).drain.noFlow).setSeState 0 5 SeState.halted).on 0 (R.SEA_STATUS.PEND_START 5) = false)) ∧
    (Reaches (solo 0) cm 0 ⟨.SEA_CTRL, 5, 0⟩ ∧ (solo 0).standalone 0 5 = true ∧ seStopped ((solo 0).seState 0 5) = true) ∧
    ((Reaches (solo 3) cm 0 ⟨.SEA_CTRL, 5, 0⟩ ∧ (solo 3).seState 0 5 = SeState.halting) ∧
    (Reaches (solo 1) cm 0 ⟨.SEA_CTRL, 5, 0⟩ ∧ ((solo 1).seState 0 5 = SeState.run ∨ (solo 1).seState 0 5 = SeState.wait))) ∧
    ((Reaches (solo 4) cm 0 ⟨.SEA_CTRL, 5, 0⟩ ∧ seStopped ((solo 4).seState 0 5) = true) ∧
    (Reaches (solo 1) cm 0 ⟨.SEA_DOORBELL, 5, 0⟩) ∧
    (dmaLive (moving 0) 0 5 0 = some mvDesc)) ∧
    ((dmaLive (moving 1) 0 5 1 = some mvDesc ∧ mParts = [⟨0x20000000, 64, 16⟩] ∧ Resp.decodeError ≠ .ok ∧ Resp.decodeError ≠ .timeout) ∧
    (dmaLive (moving 1) 0 5 1 = some mvDesc ∧ mParts = [⟨0x20000000, 64, 16⟩]) ∧
    ((solo 1).debugShut (seReq .read).m = false ∧ coreStops (solo 1) (seReq .read) = none ∧
      decodeAddr (solo 1) (seReq .read).m ((solo 1).dieOfRid cm.rid) (seReq .read).addr.toNat = .se 0 5 64 ∧
      (routeTo (solo 1) ((solo 1).dieOfRid cm.rid) 0).1 = none ∧ (routeTo (solo 1) ((solo 1).dieOfRid cm.rid) 0).2.held 0 Blk.sea = false ∧
      seGatesOpen (routeTo (solo 1) ((solo 1).dieOfRid cm.rid) 0).2 0 5 = true ∧ seFormOk (seReq .read) = true)) ∧
    (((solo 1).debugShut (seReq .write).m = false ∧ coreStops (solo 1) (seReq .write) = none ∧
      decodeAddr (solo 1) (seReq .write).m ((solo 1).dieOfRid cm.rid) (seReq .write).addr.toNat = .se 0 5 64 ∧
      (routeTo (solo 1) ((solo 1).dieOfRid cm.rid) 0).1 = none ∧ (routeTo (solo 1) ((solo 1).dieOfRid cm.rid) 0).2.held 0 Blk.sea = false ∧
      seGatesOpen (routeTo (solo 1) ((solo 1).dieOfRid cm.rid) 0).2 0 5 = true ∧ seFormOk (seReq .write) = true) ∧
    ((solo 1).debugShut (pmReq .read).m = false ∧ coreStops (solo 1) (pmReq .read) = none ∧
      decodeAddr (solo 1) (pmReq .read).m ((solo 1).dieOfRid cm.rid) (pmReq .read).addr.toNat = .se 0 5 262208 ∧
      (routeTo (solo 1) ((solo 1).dieOfRid cm.rid) 0).1 = none ∧ (routeTo (solo 1) ((solo 1).dieOfRid cm.rid) 0).2.held 0 Blk.sea = false ∧
      seGatesOpen (routeTo (solo 1) ((solo 1).dieOfRid cm.rid) 0).2 0 5 = true ∧ seFormOk (pmReq .read) = true)) ∧
    ((solo 0).debugShut (pmReq .write).m = false ∧ coreStops (solo 0) (pmReq .write) = none ∧
      decodeAddr (solo 0) (pmReq .write).m ((solo 0).dieOfRid cm.rid) (pmReq .write).addr.toNat = .se 0 5 262208 ∧
      (routeTo (solo 0) ((solo 0).dieOfRid cm.rid) 0).1 = none ∧ (routeTo (solo 0) ((solo 0).dieOfRid cm.rid) 0).2.held 0 Blk.sea = false ∧
      seGatesOpen (routeTo (solo 0) ((solo 0).dieOfRid cm.rid) 0).2 0 5 = true ∧ seFormOk (pmReq .write) = true ∧
      seProgBusy (routeTo (solo 0) ((solo 0).dieOfRid cm.rid) 0).2 0 5 = false) :=
  ⟨by decide +kernel,
    by decide +kernel,
    by unfold Reaches; decide +kernel,
    by unfold Reaches; decide +kernel,
    by unfold Reaches; decide +kernel,
    by decide +kernel,
    by decide +kernel,
    by decide +kernel⟩

def desc0 (cls val : Nat) : Nat := 2 ^ 31 + 2 ^ 30 + cls * 2 ^ 28 + 3 * 2 ^ 25 + 1 * 2 ^ 23 + val * 2 ^ 13 + 9
def dfd0 : State := (((((((run.setBit 0 (gateReg 1) 7).p 0 (R.DFD_OPDESC.WORD 9 0) (desc0 0 2)).p 0 R.DFD_CTRL.ENABLE 1).p 0 R.DFD_STATUS.STATE Dstate.running).setBit 0 R.DFD_UNIT_EN_SE.EN 5).setBit 0 (gateReg 3) 5).setBit 0 (gateReg 2) 0).setBit 0 (gateReg 1) 6
def tok : DWord := BitVec.ofNat 64 (dfd0.g 0 R.DFD_EPOCH.EPOCH % 256 * 2 ^ 24 + 2 ^ 16 + 9)
def queued : State := dfd0.setDfd 0 { DfdSt.reset with tickets := [⟨4, true, 9, 0, 0, 130⟩], cq := [(2, [⟨4, 9, false, none⟩])] }
def popped : State := (cqPop queued 0 2).2
def cplDone : CqEnt := ⟨4, 9, true, some (cm.rid, ⟨130, 4, 0, [BitVec.ofNat 64 (popped.g 0 (R.DFD_CQ_TOK.TOKEN 2 0))]⟩)⟩
def live : State := dfd0.setDfd 0 { DfdSt.reset with tickets := [⟨4, true, 9, 0, 0, 5⟩] }
def closingS : State := live.p 0 R.DFD_EPOCH_STATUS.STATE 1
def stopped : State := (live.p 0 R.DFD_STATUS.STATE Dstate.stopped).p 0 R.DFD_CTRL.ENABLE 0
def stopping : State := (live.p 0 R.DFD_STATUS.STATE Dstate.stopping).p 0 R.DFD_CTRL.ENABLE 0
theorem witness_DfdCommandsComplete :
    (Reaches dfd0 cm 0 ⟨.DFD_TOKEN, 0, 0⟩ ∧ cm.cls ≠ .dfd ∧ tokenOk dfd0 0 tok.toNat = true) ∧
    ((Reaches dfd0 cm 0 ⟨.DFD_TOKEN, 0, 0⟩ ∧ tokenOk dfd0 0 8 = false) ∧
    (Reaches dfd0 cm 0 ⟨.DFD_OPDESC, 8, 3⟩ ∧ opValid dfd0 0 8 = false)) ∧
    (Reaches dfd0 cm 0 ⟨.DFD_OPDESC, 8, 0⟩ ∧ opValid dfd0 0 8 = false ∧ descOk (desc0 0 2) (opWord dfd0 0 8 1) = true) ∧
    (Reaches dfd0 cm 0 ⟨.DFD_OPDESC, 8, 0⟩ ∧ opValid dfd0 0 8 = false ∧ (BitVec.ofNat 32 (desc0 0 0)).getLsbD 31 = true ∧
      descOk (desc0 0 0) (opWord dfd0 0 8 1) = false) ∧
    (Reaches queued cm 0 ⟨.DFD_CQ_POP, 2, 0⟩) ∧
    (Reaches popped cm 0 ⟨.DFD_CQ_CPL, 2, 0⟩ ∧ ((popped.dfdOf 0).queue 2).any (fun e => e.popped && e.cpl.isNone && e.t == 4) = true ∧
      (0 : Fin 4) ≠ 3 ∧ (1 : Fin 8) ≤ 4) ∧
    (Reaches queued cm 0 ⟨.DFD_CQ_CFG, 2, 0⟩ ∧ 1 ≤ queued.g 0 (R.DFD_CQ_CFG.QDEPTH 2) ∧ queued.g 0 (R.DFD_CQ_CFG.QDEPTH 2) ≤ 16) ∧
    (Reaches live cm 0 ⟨.DFD_CMD, 0, 0⟩ ∧ opValid live 0 9 = true ∧ liveTickets live 0 (fun t => t.op == 9) = [⟨4, true, 9, 0, 0, 5⟩]) ∧
    ((Reaches live cm 0 ⟨.DFD_CMD, 0, 0⟩ ∧ opValid live 0 9 = true) ∧
    (Reaches live cm 0 ⟨.DFD_CMD, 0, 0⟩ ∧ unitOk 5 = true)) ∧
    (Reaches live cm 0 ⟨.DFD_CMD, 0, 0⟩ ∧ 8192 ≤ (8192#16).toNat) ∧
    (Reaches live cm 0 ⟨.DFD_CMD, 0, 0⟩ ∧ live.on 0 R.DFD_EPOCH_CTRL.SCOPE = false ∧ closing live 0 = false) ∧
    (Reaches closingS cm 0 ⟨.DFD_CMD, 0, 0⟩ ∧ closingS.on 0 R.DFD_EPOCH_CTRL.SCOPE = false ∧ closing closingS 0 = true) ∧
    ((Reaches live cm 0 ⟨.DFD_CMD, 0, 0⟩ ∧ live.on 0 R.DFD_EPOCH_CTRL.SCOPE = false) ∧
    (Reaches stopped cm 0 ⟨.DFD_CTRL, 0, 0⟩ ∧ dfdState stopped 0 = Dstate.stopped)) ∧
    ((Reaches live cm 0 ⟨.DFD_CTRL, 0, 0⟩ ∧ dfdState live 0 = Dstate.running) ∧
    (Reaches stopping cm 0 ⟨.DFD_CTRL, 0, 0⟩ ∧ dfdState stopping 0 = Dstate.stopping)) :=
  ⟨by unfold Reaches; decide +kernel,
    by unfold Reaches; decide +kernel,
    by unfold Reaches; decide +kernel,
    by unfold Reaches; decide +kernel,
    by unfold Reaches; decide +kernel,
    by unfold Reaches; decide +kernel,
    by unfold Reaches; decide +kernel,
    by unfold Reaches; decide +kernel,
    by unfold Reaches; decide +kernel,
    by unfold Reaches; decide +kernel,
    by unfold Reaches; decide +kernel,
    by unfold Reaches; decide +kernel,
    by unfold Reaches; decide +kernel,
    by unfold Reaches; decide +kernel⟩

def deferred : State := dfd0.p 0 (R.DFD_OPSTATE.DEFER 9) 2
def gathered : State := dfd0.setDfd 0 (DfdSt.reset.setGat 3 [⟨9, 0, 0, none⟩])
def readyS : State := dfd0.setDfd 0 (DfdSt.reset.setList 3 [⟨9, 0, 0, none⟩])
def cplS : State := live.sendCpl 0 ⟨5, 4, 0, [tok]⟩
def spilling : State := ((((((dfd0.zeroBank 0).p 0 R.DFD_SPILL_CFG.EN 1).p 0 R.DFD_SPILL_CFG.SIZE_LOG2 16).p 0 R.DFD_SPILL_BASE.BASE 0x10000000).p 0 (R.DFD_SPILL_FILL.FILL 3) 1)).setDfd 0 { DfdSt.reset.setGat 3 [⟨9, 0, 0, none⟩, ⟨9, 0, 1, none⟩] with wr := [(3, 1)], sub := [(3, [9])] }
def spillW : Resp × State := memWrite 2 spilling (spilling.dfdMaster 0) (ringAddr spilling 0 3 1) ((spillLine spilling 0 3).map (fun e => (⟨spillWord spilling 0 e, false⟩, 0xFF#8)))
def ringed : State := (spillW.2.setDfd 0 { (spillW.2.dfdOf 0).setGat 3 [] with wr := [(3, 3)], sub := [(3, [9, 9])], rd := [(3, 1)] }).p 0 (R.DFD_SPILL_FILL.FILL 3) 2
def refR : Resp × List MWord × State := memRead 2 ringed (ringed.dfdMaster 0) (ringAddr ringed 0 3 1) 2
def away : State := dfd0.putDfd 0 { DfdSt.reset with fwd := [tok] }
def gone : DWord := tok + 2 ^ 13
def duoDfd : State := (((duo.p 0 R.SYS_BOOT_STATUS.PHASE Phase.running).p 0 R.CFG_WAKE_STATUS.DONE_STEPS 0x1FF).p 1 R.CFG_WAKE_STATUS.DONE_STEPS 0x1FF).p 1 (R.DFD_OPDESC.WORD 9 0) (desc0 0 2)
def duoUp : State := ((duoDfd.p 0 (R.BDL_STATUS.STATE 0) Edge.up).p 1 (R.BDL_STATUS.STATE 1) Edge.up)
def awayDuo : State := duoUp.putDfd 0 { DfdSt.reset with fwd := [gone] }
def landed : State := tokenWrite (awayDuo.putDfd 0 { DfdSt.reset with fwd := [] }) 1 (awayDuo.dfdMaster 0) gone.toNat
def revoked : State := dfd0.setDfd 0 { DfdSt.reset with tickets := [⟨4, false, 9, 0, 0, 5⟩] }
def revokedK : State := (dfd0.setDfd 0 { DfdSt.reset with tickets := [⟨4, false, 9, 0, 0, 66⟩] }).setKslot 0 2 { dfd0.kslot 0 2 with outst := [4], descs := [([], 4)] }
def releasedK : State := revokedK.setKslot 0 2 { revokedK.kslot 0 2 with outst := [], descs := [] }
def devClosing : State := (live.putDfd 0 { live.dfdOf 0 with device := true, clean := 2 }).p 0 R.DFD_EPOCH_STATUS.STATE 1
def dieClosing : State := dfd0.p 0 R.DFD_EPOCH_STATUS.STATE 1
def slowS : State := dieClosing.p 0 R.DFD_EPOCH_CTRL.TMO 5
def stopEnd : State := dfd0.p 0 R.DFD_STATUS.STATE Dstate.stopping
theorem witness_DfdEventsComplete :
    ((dfdRuns deferred 0 = true ∧
      (List.range 8).find? (fun p => spillOff deferred 0 && !((deferred.dfdOf 0).gat p).isEmpty && deferred.g 0 (R.DFD_SPILL_FILL.FILL p) == 0 && (deferred.dfdOf 0).room p) = none ∧
      (activeOps deferred 0).find? (fun n => deferred.g 0 (R.DFD_OPSTATE.DEFER n) != 0 && placeOf deferred 0 (opPrio deferred 0 n) != .defer) = some 9) ∧
    (dfdRuns gathered 0 = true ∧
      (List.range 8).find? (fun p => spillOff gathered 0 && !((gathered.dfdOf 0).gat p).isEmpty && gathered.g 0 (R.DFD_SPILL_FILL.FILL p) == 0 && (gathered.dfdOf 0).room p) = some 3) ∧
    (dfdRuns readyS 0 = true ∧ dfdState readyS 0 = Dstate.running ∧ (readyS.dfdOf 0).tickets.length < 512 ∧
      (classTurn (readyS.dfdOf 0).lastCls).findSome? (fun c => (pick readyS 0 c).map (fun p => (c, p))) = some (0, false, ⟨9, 0, 0, none⟩, 0, false)) ∧
    (dfdRuns cplS 0 = true ∧ (cplS.dfdOf 0).cpls = [⟨5, 4, 0, [tok]⟩]) ∧
    (spillReady spilling 0 3 = true ∧ (spillLine spilling 0 3).length = 2 ∧ spillW.1 = .ok ∧ spillW.2.g 0 (R.DFD_SPILL_FILL.FILL 3) ≠ 0) ∧
    (spillReady spilling 0 3 = true)) ∧
    ((refillFrom ringed 0 = some 3 ∧ refillCount ringed 0 3 = 2 ∧ refR.1 = .ok) ∧
    (refillFrom ringed 0 = some 3 ∧ refillCount ringed 0 3 = 2) ∧
    ((away.dfdOf 0).fwd = [tok] ∧ Resp.timeout ≠ .ok) ∧
    ((awayDuo.dfdOf 0).fwd = [gone] ∧ awayDuo.present (fld gone.toNat 13 3) = true ∧
      (routeTo (awayDuo.putDfd 0 { awayDuo.dfdOf 0 with fwd := [] }) 0 1).1 = none ∧ awayDuo.held 1 Blk.dfd = false ∧
      landed.reply.resp = .ok) ∧
    ((revoked.dfdOf 0).tickets.find? (fun t => t.t == 4 && !t.live) = some ⟨4, false, 9, 0, 0, 5⟩ ∧ unitCls 5 ≠ 1 ∧
      unitLetGo revoked 0 ⟨4, false, 9, 0, 0, 5⟩ = true ∧ (revoked.dfdOf 0).cpls = [])) ∧
    (((revokedK.dfdOf 0).tickets.find? (fun t => t.t == 4 && !t.live) = some ⟨4, false, 9, 0, 0, 66⟩ ∧ unitCls 66 = 1 ∧
      unitLetGo revokedK 0 ⟨4, false, 9, 0, 0, 66⟩ = true ∧ (∀ c ∈ (revokedK.dfdOf 0).cpls, c.ticket ≠ 4)) ∧
    ((revoked.dfdOf 0).tickets.find? (fun t => t.t == 4 && t.unit_ == 5) = some ⟨4, false, 9, 0, 0, 5⟩) ∧
    ((live.dfdOf 0).tickets.find? (fun t => t.t == 4 && t.unit_ == 5) = some ⟨4, true, 9, 0, 0, 5⟩) ∧
    (deviceClosing devClosing = true ∧ (∃ d ∈ devClosing.dies, quiescent devClosing d = false)) ∧
    (deviceClosing devClosing = true ∧ (0 : Fin 8).val = devClosing.head ∧ 2 ≤ (devClosing.dfdOf devClosing.head).clean) ∧
    (deviceClosing dieClosing = false ∧ dieClosing.present 0 = true ∧ closing dieClosing 0 = true ∧ quiescent dieClosing 0 = true) ∧
    (closing slowS 0 = true ∧ slowS.g 0 R.DFD_EPOCH_CTRL.TMO ≠ 0 ∧ (slowS.dfdOf 0).device = false)) ∧
    (dfdState stopEnd 0 = Dstate.stopping ∧ liveTickets stopEnd 0 (fun _ => true) = []) :=
  ⟨by decide +kernel,
    by decide +kernel,
    by decide +kernel,
    by decide +kernel⟩

theorem witness_DispatcherRules :
    (Canonical dfd0 ∧ 0 < 8 ∧ 9 < 8192 ∧ opValency dfd0 0 9 ≠ 0 ∧ ([] : List Ticket).length ≤ 512 ∧ 1 ≤ 65535) :=
  by unfold Canonical; decide +kernel

def bk : State := run.zeroBank 2
def bkt : State := (bk.p 0 R.BNK_ECC_TEST.BANK 2).p 0 R.BNK_ECC_ADDR.OFFSET 7
def bankMoves : State := bk.p 0 (R.BNK_STATUS.PSTATE 2) Pst.toOff
def wiping : State := run.p 0 (R.BNK_STATUS.WIPING 2) 1
def bReq (op : NocOp) (n : Nat) (data : List MWord) : Req := ⟨cm, 0, op, 0x10800040, n, data, []⟩
def bAdd : Req := bReq .atomicAdd 4 [⟨0xFFFFFFFF, false⟩]
def bkAt : State := recallLine (bankJudge bk cm 0 2 8 (atomicOk bAdd)).2 (0x10800040 / 64)
theorem witness_BanksComplete :
    (Canonical bk ∧ Reaches bk cm 0 ⟨.BNK_CTRL, 2, 0⟩ ∧ (5#13).toNat ≠ bk.bankOwner 0 2 ∧ bk.on 0 (R.BNK_STATUS.HANDOVER_PENDING 2) = false ∧
      mayChangeOwner bk cm 0 2 5 = true) ∧
    (Reaches bk cm 0 ⟨.BNK_CTRL, 2, 0⟩ ∧ ownsBank bk cm 0 2 = true ∧ (1 : Fin 4).val ≠ bk.g 0 (R.BNK_CTRL.POWER 2) ∧
      powerOk bk 0 2 1 = true ∧ bk.pstate 0 2 = Pst.on ∧ (1 : Fin 4) ≠ 0) ∧
    (Reaches bk cm 0 ⟨.BNK_CTRL, 2, 0⟩ ∧ ownsBank bk cm 0 2 = true ∧ bk.pstate 0 2 = Pst.on ∧
      bk.on 0 (R.BNK_STATUS.HANDOVER_PENDING 2) = false ∧ bk.on 0 (R.BNK_STATUS.WIPING 2) = false) ∧
    ((Reaches bk cm 0 ⟨.BNK_CTRL, 7, 0⟩ ∧ bk.supervisor cm = true) ∧
    (Reaches bkt cm 0 ⟨.BNK_ECC_CHK, 0, 0⟩ ∧ bkt.pstate 0 (testBank bkt 0) = Pst.on)) ∧
    ((Reaches bkt cm 0 ⟨.BNK_ECC_CHK, 0, 0⟩ ∧ ownsBankAny bkt cm 0 (testBank bkt 0) = true ∧ bkt.pstate 0 (testBank bkt 0) = Pst.on) ∧
    (bankMoves.pstate 0 2 ≠ pstAfter (bankMoves.pstate 0 2)) ∧
    (wiping.on 0 (R.BNK_STATUS.WIPING 2) = true ∧ wiping.pstate 0 2 = Pst.on ∧ wiping.on 0 (R.BNK_STATUS.HANDOVER_PENDING 2) = false)) ∧
    ((bk.debugShut (bReq .read 16 []).m = false ∧ coreStops bk (bReq .read 16 []) = none ∧
      decodeAddr bk (bReq .read 16 []).m (bk.dieOfRid cm.rid) (bReq .read 16 []).addr.toNat = .bank 0 2 64 ∧
      reqFormOk (bReq .read 16 []) = true ∧ (memRead 65 bk cm 0x10800040 2).1 = .ok) ∧
    (bk.debugShut (bReq .write 8 [⟨5, false⟩]).m = false ∧ coreStops bk (bReq .write 8 [⟨5, false⟩]) = none ∧
      decodeAddr bk (bReq .write 8 [⟨5, false⟩]).m (bk.dieOfRid cm.rid) (bReq .write 8 [⟨5, false⟩]).addr.toNat = .bank 0 2 64 ∧
      reqFormOk (bReq .write 8 [⟨5, false⟩]) = true ∧ (memWrite 65 bk cm 0x10800040 (reqWwords (bReq .write 8 [⟨5, false⟩]))).1 = .ok) ∧
    (bk.debugShut (bAdd).m = false ∧ coreStops bk (bAdd) = none ∧
      decodeAddr bk (bAdd).m (bk.dieOfRid cm.rid) (bAdd).addr.toNat = .bank 0 2 64 ∧ (routeTo bk (bk.dieOfRid cm.rid) 0).1 = none ∧
      (bankJudge bk cm 0 2 8 (atomicOk bAdd)).1 = none ∧ (bankSees bkAt 0 2 8).p = false)) :=
  ⟨by unfold Canonical Reaches; decide +kernel,
    by unfold Reaches; decide +kernel,
    by unfold Reaches; decide +kernel,
    by unfold Reaches; decide +kernel,
    by unfold Reaches; decide +kernel,
    by decide +kernel⟩

def l0 : Nat := 0x10800040 / 64
def withSt (st : Nat) : State := (bk.setCopy 0 l0 (some ⟨st, List.replicate 8 ⟨3, false⟩, List.replicate 8 0, cm, 0⟩)).setDir l0 (some ⟨if st = 1 then none else some 0, 1, 4⟩)
def heldSt : State := (withSt 3).p 0 (R.BNK_STATUS.PSTATE 2) Pst.off
def rlcBusy : State := (withSt 3).p 0 R.RLC_STATUS.FLUSHING 1
theorem witness_CoherenceComplete :
    ((bk.copyOf (bk.dieOfRid cm.rid) l0 = none) ∧
    (bk.copyOf (bk.dieOfRid cm.rid) l0 = none ∧ cachedHere bk cm l0 = true) ∧
    ((withSt 1).copyOf 0 l0 = some ⟨1, List.replicate 8 ⟨3, false⟩, List.replicate 8 0, cm, 0⟩) ∧
    ((withSt 3).copyOf 0 l0 = some ⟨3, List.replicate 8 ⟨3, false⟩, List.replicate 8 0, cm, 0⟩ ∧
      (writeHome (withSt 3) 0 l0 ⟨3, List.replicate 8 ⟨3, false⟩, List.replicate 8 0, cm, 0⟩).1 = true) ∧
    ((heldSt.copyOf 0 l0) = some ⟨3, List.replicate 8 ⟨3, false⟩, List.replicate 8 0, cm, 0⟩ ∧
      (writeHome heldSt 0 l0 ⟨3, List.replicate 8 ⟨3, false⟩, List.replicate 8 0, cm, 0⟩).1 = false) ∧
    ((withSt 2).copyOf 0 l0 = some ⟨2, List.replicate 8 ⟨3, false⟩, List.replicate 8 0, cm, 0⟩) ∧
    ((lineTarget (withSt 3) cm 0 l0).cacheable = true) ∧
    ((withSt 3).copyOf 0 l0 = some ⟨3, List.replicate 8 ⟨3, false⟩, List.replicate 8 0, cm, 0⟩) ∧
    ((withSt 1).dirOf l0 = some ⟨none, 1, 4⟩) ∧
    ((withSt 3).dirOf l0 = some ⟨some 0, 1, 4⟩)) ∧
    ((Reaches (withSt 3) cm 0 ⟨.RLC_CTRL, 0, 0⟩ ∧ (withSt 3).on 0 R.RLC_STATUS.FLUSHING = false) ∧
    (rlcBusy.on 0 R.RLC_STATUS.FLUSHING = true)) ∧
    (Canonical bk ∧ Reaches bk cm 0 ⟨.RLC_ECC_FLIP, 0, 0⟩) :=
  ⟨by decide +kernel,
    by unfold Reaches; decide +kernel,
    by unfold Canonical Reaches; decide +kernel⟩

def fly (pl : NetPlace) (qu : Bool) (s : State) : State := s.setNet cm.rid 0 (some ⟨bReq .read 8 [], pl, qu, 0⟩)
def below : State := bk.p 0 R.PWR_STATUS.STATE Ladder.comma
def wReq : Req := bReq .write 8 [⟨1, false⟩]
def flyW : State := bk.setNet cm.rid 0 (some ⟨wReq, .parked, false, 0⟩)
def winW : Req := { winReq with op := .write, data := List.replicate (reqWords winReq) ⟨5, false⟩ }
def xipS : State := flashed.p 0 R.SYS_BOOT_STATUS.PHASE Phase.running
def xipW : State := (xipS.p 0 R.NVC_STATUS.STATE NvcState.busy).setFlash { xipS.cfg.flash with op := NvcOp.erase, addr := 0x100000, len := 0x10000 }
def suspended : State := xipS.p 0 R.NVC_STATUS.STATE NvcState.suspended
theorem witness_NetworkComplete :
    ((bk.present (bk.dieOfRid cm.rid) = true ∧ bk.netOf cm.rid 0 = none ∧ coreStops bk ⟨cm, 0, .read, 0x7000000, 8, [], []⟩ = none ∧
      reqDie bk ⟨cm, 0, .read, 0x7000000, 8, [], []⟩ = none) ∧
    (bk.present (bk.dieOfRid cm.rid) = true ∧ bk.netOf cm.rid 0 = none ∧ coreStops bk (bReq .read 8 []) = none ∧
      reqDie bk (bReq .read 8 []) = some 0 ∧ (routeTo bk (bk.dieOfRid cm.rid) 0).1 = none) ∧
    ((fly (.flying 0) false below).netOf cm.rid 0 = some ⟨bReq .read 8 [], .flying 0, false, 0⟩ ∧
      reqDie (fly (.flying 0) false below) (bReq .read 8 []) = some 0 ∧ (fly (.flying 0) false below).fullStopped 0 = false ∧
      (fly (.flying 0) false below).running 0 = false) ∧
    ((fly .parked false bk).coh.net = [(cm.rid * 512 + 0, some ⟨bReq .read 8 [], .parked, false, 0⟩)] ∧
      (fly .parked false bk).present 0 = true ∧ (fly .parked false bk).running 0 = true ∧
      reqDie (fly .parked false bk) (bReq .read 8 []) = some 0 ∧ uncachedWaits (fly .parked false bk) (bReq .read 8 []) 0 = false)) ∧
    ((coreStops bk (bReq .read 8 []) = none ∧ uncachedWaits bk (bReq .read 8 []) 0 = false ∧ targetPort bk (bReq .read 8 []) = none ∧
      bk.netOf cm.rid 0 = none ∧ (bReq .read 8 []).op = .read) ∧
    (coreStops bk (bReq .write 8 [⟨1, false⟩]) = none ∧ uncachedWaits bk (bReq .write 8 [⟨1, false⟩]) 0 = false ∧
      targetPort bk (bReq .write 8 [⟨1, false⟩]) = none ∧ bk.netOf cm.rid 0 = none ∧ (bReq .write 8 [⟨1, false⟩]).op = .write) ∧
    (coreStops (fly .parked false bk) (bReq .read 8 []) = none ∧ uncachedWaits (fly .parked false bk) (bReq .read 8 []) 0 = false ∧
      targetPort (fly .parked false bk) (bReq .read 8 []) = none ∧
      (fly .parked false bk).netOf cm.rid 0 = some ⟨bReq .read 8 [], .parked, false, 0⟩ ∧ NetPlace.parked ≠ .done ∧
      reqDie (fly .parked false bk) (bReq .read 8 []) = some 0 ∧ (fly .parked false bk).running 0 = true)) ∧
    ((coreStops flyW wReq = none ∧ uncachedWaits flyW wReq 0 = false ∧ targetPort flyW wReq = none ∧
      flyW.netOf cm.rid 0 = some ⟨wReq, .parked, false, 0⟩ ∧ NetPlace.parked ≠ .done ∧ reqDie flyW wReq = some 0 ∧ flyW.running 0 = true) ∧
    (coreStops winRun winReq = none ∧ uncachedWaits winRun winReq winReq.tag = false ∧ targetPort winRun winReq = some (0, 17, 64) ∧
      winRun.netOf winReq.m.rid winReq.tag = none ∧
      (winRun.nport 0 17).tgt.any (fun t => t.2.m.rid == winReq.m.rid && t.2.tag == winReq.tag) = false ∧ winReq.op = .read)) ∧
    ((coreStops winRun winW = none ∧ uncachedWaits winRun winW winW.tag = false ∧ targetPort winRun winW = some (0, 17, 64) ∧
      winRun.netOf winW.m.rid winW.tag = none ∧ (winRun.nport 0 17).tgt.any (fun t => t.2.m.rid == winW.m.rid && t.2.tag == winW.tag) = false ∧
      winW.op = .write) ∧
    ((fly .parked false bk).netOf cm.rid 0 = some ⟨bReq .read 8 [], .parked, false, 0⟩ ∧ NetPlace.parked ≠ .done) ∧
    ((fly .done true bk).netOf cm.rid 0 = some ⟨bReq .read 8 [], .done, true, 0⟩) ∧
    ((fly .parked true bk).netOf cm.rid 0 = some ⟨bReq .read 8 [], .parked, true, 0⟩ ∧ NetPlace.parked ≠ .done ∧
      reqDie (fly .parked true bk) (bReq .read 8 []) = some 0 ∧ (fly .parked true bk).running 0 = true) ∧
    ((ctrlRoute bk cm bk.head).1 = none ∧ bk.boot.inReset = none ∧ 4 ∈ [1, 2, 4, 8, 16, 32, 64] ∧ 64 % 4 = 0 ∧ bk.cfg.flash.ready = false)) ∧
    (((ctrlRoute xipS cm xipS.head).1 = none ∧ xipS.boot.inReset = none ∧ xipS.cfg.flash.ready = true ∧
      flashBusy xipS (xipS.g 0 R.NVC_XIP_BASE.BASE * 2 ^ 18 + 64) 4 = false ∧
      flashWorks (flashWords xipS ((xipS.g 0 R.NVC_XIP_BASE.BASE * 2 ^ 18 + 64) / 8 * 8) 1).2 = false) ∧
    (xipW.cfg.flash.ready = true ∧ (ctrlRoute xipW cm xipW.head).1 = none ∧ xipW.boot.inReset = none ∧
      flashBusy xipW (xipW.g 0 R.NVC_XIP_BASE.BASE * 2 ^ 18 + 64) 4 = false ∧
      flashWorks (flashWords xipW ((xipW.g 0 R.NVC_XIP_BASE.BASE * 2 ^ 18 + 64) / 8 * 8) 1).2 = true) ∧
    (suspended.nvcState = NvcState.suspended)) :=
  ⟨by decide +kernel,
    by decide +kernel,
    by decide +kernel,
    by decide +kernel,
    by decide +kernel⟩

def lk (v : Nat) : State := (setRoot (setRoot duoDfd 0 Root.locked) 1 Root.locked).p 0 (R.BDL_STATUS.STATE 0) v |>.p 1 (R.BDL_STATUS.STATE 1) v
def flitOf (h : Nat) (p : List Byte) : List Byte := (fun b => b ++ bytesLE 4 (crc32c b).toNat) (bytesLE 8 h ++ p ++ List.replicate (244 - p.length) 0)
def snpPad : List Byte := bytesLE 2 0x4000 ++ bytesLE 12 (SnpFlit.bits ⟨9, 1, 8, 0, 5, 1, 0, 77⟩).toNat ++ bytesLE 2 0xE000
def unacked (n : Nat) : State := (lk Edge.up).setLinkTx 0 0 2 { LinkTx.reset with un := [(5, n)] }
def atCaps : State := lk Edge.caps
def own1 : List Byte := capsBlock atCaps 1 1
def farDone : State := atCaps.setCapsIn 1 1 (.block (capsBlock atCaps 0 0))
def px8c : State := ({ duoDfd with dev := { duoDfd.dev with part := .px8c } }.p 6 (R.BDL_STATUS.STATE 0) Edge.raw).p 6 R.CFG_WAKE_STATUS.DONE_STEPS 0x1FF
def rawIn : State := px8c.setRawRx 6 [List.replicate 256 7, []]
theorem witness_LinksComplete :
    (((lk Edge.up).edgeState 0 0 = Edge.up) ∧
    (flitOk (List.replicate 256 0) = false ∧ SMap.wf (fun _ => LinkRx.reset) (lk Edge.up).bdl.rx = true) ∧
    (flitOk (flitOf 1 snpPad) = true ∧ leAt (flitOf 1 snpPad) 0 8 % 16 ≠ 0 ∧
      fld (leAt (flitOf 1 snpPad) 0 8) 4 10 = ((lk Edge.up).linkRx 0 0 2).expect ∧
      payloadRest 0 2 ((lk Edge.up).linkRx 0 0 2) (flitOf 1 snpPad) = some []) ∧
    (flitOk (flitOf 0x11 snpPad) = true ∧ fld (leAt (flitOf 0x11 snpPad) 0 8) 4 10 ≠ ((lk Edge.up).linkRx 0 0 2).expect) ∧
    (flitOk (flitOf 1 [0, 0xA0]) = true ∧ payloadRest 0 2 ((lk Edge.up).linkRx 0 0 2) (flitOf 1 [0, 0xA0]) = none) ∧
    (flitOk (flitOf 1 []) = true ∧ payloadRest 0 2 ((lk Edge.up).linkRx 0 0 2) (flitOf 1 []) = some (List.replicate 10 0)) ∧
    (((unacked 8).linkTx 0 0 2).un = [(5, 8)] ∧ (unacked 8).edgeState 0 0 = Edge.up) ∧
    (((unacked 3).linkTx 0 0 2).un = [(5, 3)] ∧ 3 < 8)) ∧
    (((lk Edge.fatal).edgeState 0 0 = Edge.fatal ∧ (lk Edge.fatal).coh.net = []) ∧
    ((lk Edge.training).edgeState 0 0 = Edge.training ∧ rootLocked (lk Edge.training) 0 = true ∧ (lk Edge.training).neighbour 0 0 = some 1 ∧
      rootLocked (lk Edge.training) 1 = true) ∧
    ((lk Edge.training).bit 0 (R.BDL_CAPS.MODULES 0) 2 = false ∧ companionEdge (lk Edge.training) 0 0 = false) ∧
    (atCaps.edgeState 0 0 = Edge.caps) ∧
    (atCaps.edgeState 0 0 = Edge.caps ∧ atCaps.capsIn 0 0 = .waiting ∧ companionEdge atCaps 0 0 = false) ∧
    (capsValid (capsBlock atCaps 0 0) = true ∧ capsRefuse atCaps 0 0 (capsBlock atCaps 0 0) = some Reason.identMismatch) ∧
    (capsValid own1 = true ∧ capsRefuse atCaps 0 0 own1 = none ∧ (capsTake (atCaps.setCapsIn 0 0 (.block own1)) 0 0 own1).neighbour 0 0 = some 1)) ∧
    ((farDone.capsIn 1 1 ≠ .waiting ∧ capsRefuse farDone 0 0 own1 = none ∧ farDone.edgeState 1 1 = Edge.caps) ∧
    (px8c.present 6 = true ∧ rawEdge px8c 6 = some 0) ∧
    (rawEdge rawIn 6 = some 0 ∧ rawIn.rawRx 6 = [List.replicate 256 7, []])) ∧
    (Reaches (lk Edge.up) cm 0 ⟨.BDL_TEST, 0, 0⟩ ∧ cm.cls = .coreM ∧ (lk Edge.up).on 0 R.BDL_TEST.ARM = false ∧ (3 : Fin 16) ≠ 0 ∧
      (2 : Fin 8) < 6 ∧ (lk Edge.up).edgeState 0 0 ≠ Edge.absent ∧ Canonical (lk Edge.up)) :=
  ⟨by decide +kernel,
    by decide +kernel,
    by decide +kernel,
    by unfold Canonical Reaches; decide +kernel⟩

theorem witness_BankCode :
    (48 ≤ 55 ∧ 55 ≤ 55 ∧ 55 + 56 = 111 ∧ 5 < 64 ∧ 3 < 8 ∧ 63 < 64) :=
  by decide +kernel

def flipV : Nat := 2 ^ (R.DDR_ECC_FLIP.DEV0 0).lo * 9 + 2 ^ (R.DDR_ECC_FLIP.DEV1 0).lo * 3 + 2 ^ (R.DDR_ECC_FLIP.ARM 0).lo
def flipX : Nat := written run 0 ⟨.DDR_ECC_FLIP, 1, 0⟩ (BitVec.ofNat 32 flipV).toNat
def sized : State := run.p 0 (R.DDR_MAP_RNG.SIZE 3) 8
def mapV : Word := BitVec.ofNat 32 (2 ^ 31 + 12 * 2 ^ 16 + 3)
def mapX : Nat := written sized 0 ⟨.DDR_MAP_CTL, 3, 0⟩ mapV.toNat
def keyed (v : Nat) : State := (setKstate run 1 9 v).p 0 (R.MEE_KEY_DATA.DATA 1 3) 0x1234
def keyCmd (v : Nat) : State := (keyed v).p 0 (R.MEE_KEY_CMD.OWNER 1) cm.rid
def keyFails (s : State) (l : List Nat) (op : Nat) : Option Nat := l.find? (fun c => meeCheck s c op 9 != 0)
def keyDone (s : State) (i op w : Nat) (l : List Nat) : State := l.foldl (fun s c => meeApply s c op 9 w (meeKeyData s 0 i) (s.g 0 (R.MEE_RK_START.LINE i)) (s.g 0 (R.MEE_RK_END.LINE i))) s
def keyOff (i : Nat) : Nat := RegRef.off ⟨.MEE_KEY_CMD, i, 0⟩
def devCmd : State := run.p 0 (R.MEE_KEY_CMD.OWNER 0) cm.rid
theorem witness_DramCommandsComplete :
    (Reaches run cm 0 ⟨.DDR_ECC_FLIP, 1, 0⟩ ∧ run.supervisor cm = true ∧ (R.DDR_ECC_FLIP.DEV0 0).of flipX ≤ 9 ∧
      (R.DDR_ECC_FLIP.DEV1 0).of flipX ≤ 9) ∧
    (Reaches sized cm 0 ⟨.DDR_MAP_CTL, 3, 0⟩ ∧ sized.on 0 (R.DDR_MAP_CTL.EN 3) = false ∧ (R.DDR_MAP_CTL.EN 0).of mapX = 1 ∧
      grainOk mapX = true ∧ mapEnableOk sized 0 3 mapX = true) ∧
    (Reaches run cm 0 ⟨.DDR_MAP_CTL, 3, 0⟩ ∧ run.on 0 (R.DDR_MAP_CTL.EN 3) = false ∧
      (R.DDR_MAP_CTL.EN 0).of (written run 0 ⟨.DDR_MAP_CTL, 3, 0⟩ mapV.toNat) = 1 ∧
      mapEnableOk run 0 3 (written run 0 ⟨.DDR_MAP_CTL, 3, 0⟩ mapV.toNat) = false) ∧
    (Reaches (keyed 0) cm 0 ⟨.MEE_KEY_CMD, 1, 0⟩ ∧ cm.cls = .coreM ∧ (keyed 0).on 0 (R.MEE_KEY_STATUS.BUSY 1) = false ∧
      keyFails (keyCmd 0) [1] 1 = none) ∧
    (Reaches (keyed 3) cm 0 ⟨.MEE_KEY_CMD, 1, 0⟩ ∧ cm.cls = .coreM ∧ (keyed 3).on 0 (R.MEE_KEY_STATUS.BUSY 1) = false ∧
      keyFails (keyCmd 3) [1] 1 = some 1) ∧
    (Reaches (keyed 1) cm 0 ⟨.MEE_KEY_CMD, 1, 0⟩ ∧ cm.cls = .coreM ∧ (keyed 1).on 0 (R.MEE_KEY_STATUS.BUSY 1) = false ∧
      keyFails (keyCmd 1) [1] 2 = none) ∧
    (Reaches (keyed 3) cm 0 ⟨.MEE_KEY_CMD, 1, 0⟩ ∧ cm.cls = .coreM ∧ (keyed 3).on 0 (R.MEE_KEY_STATUS.BUSY 1) = false ∧
      keyFails (keyCmd 3) [1] 2 = some 1) ∧
    (Reaches (keyed 2) cm 0 ⟨.MEE_KEY_CMD, 1, 0⟩ ∧ cm.cls = .coreM ∧ (keyed 2).on 0 (R.MEE_KEY_STATUS.BUSY 1) = false ∧
      keyFails (keyCmd 2) [1] 3 = none) ∧
    (Reaches (keyed 3) cm 0 ⟨.MEE_KEY_CMD, 1, 0⟩ ∧ cm.cls = .coreM ∧ (keyed 3).on 0 (R.MEE_KEY_STATUS.BUSY 1) = false ∧
      keyFails (keyCmd 3) [1] 3 = some 1) ∧
    (Reaches (keyed 2) cm 0 ⟨.MEE_KEY_CMD, 1, 0⟩ ∧ cm.cls = .coreM ∧ (keyed 2).on 0 (R.MEE_KEY_STATUS.BUSY 1) = false ∧
      keyFails (keyCmd 2) [1] 4 = none) ∧
    (Reaches (keyed 3) cm 0 ⟨.MEE_KEY_CMD, 1, 0⟩ ∧ cm.cls = .coreM ∧ (keyed 3).on 0 (R.MEE_KEY_STATUS.BUSY 1) = false ∧
      keyFails (keyCmd 3) [1] 4 = some 1) ∧
    (Reaches (keyed 4) cm 0 ⟨.MEE_KEY_CMD, 1, 0⟩ ∧ cm.cls = .coreM ∧ (keyed 4).on 0 (R.MEE_KEY_STATUS.BUSY 1) = false ∧
      keyFails (keyCmd 4) [1] 5 = none) ∧
    (Reaches (keyed 3) cm 0 ⟨.MEE_KEY_CMD, 1, 0⟩ ∧ cm.cls = .coreM ∧ (keyed 3).on 0 (R.MEE_KEY_STATUS.BUSY 1) = false ∧
      keyFails (keyCmd 3) [1] 5 = some 1) ∧
    (Reaches (keyed 4) cm 0 ⟨.MEE_KEY_CMD, 1, 0⟩ ∧ cm.cls = .coreM ∧ (keyed 4).on 0 (R.MEE_KEY_STATUS.BUSY 1) = false ∧
      keyFails (keyCmd 4) [1] 6 = none) ∧
    (Reaches (keyed 3) cm 0 ⟨.MEE_KEY_CMD, 1, 0⟩ ∧ cm.cls = .coreM ∧ (keyed 3).on 0 (R.MEE_KEY_STATUS.BUSY 1) = false ∧
      [1].find? (fun c => meeCheck (keyCmd 3) c 6 0 != 0) = some 1) ∧
    (Reaches (keyed 1) cm 0 ⟨.MEE_KEY_CMD, 1, 0⟩ ∧ cm.cls = .coreM ∧ (keyed 1).on 0 (R.MEE_KEY_STATUS.BUSY 1) = false ∧
      keyFails (keyCmd 1) [1] 7 = none) ∧
    (Reaches run cm 0 ⟨.MEE_KEY_CMD, 0, 0⟩ ∧ cm.cls = .coreM ∧ run.on 0 (R.MEE_KEY_STATUS.BUSY 0) = false ∧ (true = true → 0 = run.head ∧
      (0 : Fin 2) = 0) ∧ devCmd.channels = [0, 1] ∧ keyFails devCmd [0, 1] 1 = none) ∧
    (Reaches run cm 0 ⟨.MEE_KEY_CMD, 0, 0⟩ ∧ cm.cls = .coreM ∧ run.on 0 (R.MEE_KEY_STATUS.BUSY 0) = false ∧ keyFails devCmd [0, 1] 2 = some 0) :=
  ⟨by unfold Reaches; decide +kernel,
    by unfold Reaches; decide +kernel,
    by unfold Reaches; decide +kernel,
    by unfold Reaches; decide +kernel,
    by unfold Reaches; decide +kernel,
    by unfold Reaches; decide +kernel,
    by unfold Reaches; decide +kernel,
    by unfold Reaches; decide +kernel,
    by unfold Reaches; decide +kernel,
    by unfold Reaches; decide +kernel,
    by unfold Reaches; decide +kernel,
    by unfold Reaches; decide +kernel,
    by unfold Reaches; decide +kernel,
    by unfold Reaches; decide +kernel,
    by unfold Reaches; decide +kernel,
    by unfold Reaches; decide +kernel,
    by unfold Reaches; decide +kernel,
    by unfold Reaches; decide +kernel⟩

theorem witness_KeyStates :
    ((Canonical (keyed 1) ∧ 1 < 16 ∧ 9 < 64 ∧ meeCheck (keyed 0) 1 1 9 = 0 ∧ meeCheck (keyed 1) 1 2 9 = 0 ∧ meeCheck (keyed 2) 1 3 9 = 0 ∧
      meeCheck (keyed 2) 1 4 9 = 0 ∧ meeCheck (keyed 4) 1 5 9 = 0 ∧ meeCheck (keyed 4) 1 6 9 = 0 ∧ kstate (keyed 0) 1 9 ≠ Ks.active) ∧
    (kstate (keyed 2) 1 9 = Ks.staged)) :=
  by unfold Canonical; decide +kernel

def dram : State := ((((run.p 0 (R.DDR_CFG.EN 0) 1).p 0 (R.DDR_STATUS.STATE 0) DdrState.ready).p 0 (R.DDR_MAP_CTL.EN 0) 1).p 0 (R.DDR_MAP_CTL.CHMASK 0) 1).p 0 (R.DDR_MAP_RNG.SIZE 0) 1
def dReq (op : NocOp) (n : Nat) (data : List MWord) : Req := ⟨cm, 0, op, 0x020000000078, n, data, []⟩
def guarded : State := ((dram.p 0 (R.MEE_PROT.EN 0 0) 1).p 0 (R.MEE_PROT.SIZE 0 0) 4).p 0 (R.MEE_PROT.META 0 0) 8
def oneRead : DReq := ⟨dReq .read 8 [], 1, 2, false, 40⟩
def oneWrite : DReq := ⟨{ dReq .write 8 [] with data := List.replicate 8 ⟨5, false⟩, be := List.replicate 8 0xFF }, 1, 2, false, 39⟩
def readQ : State := dram.setDsub 1 { DSub.reset with reads := [oneRead] }
def writeQ (dr : Bool) : State := dram.setDsub 1 { DSub.reset with writes := [oneWrite], drain := dr }
def training : State := run.p 0 (R.DDR_STATUS.STATE 0) DdrState.training
def opened : State := dram.setDsub 1 { DSub.reset with rows := [(3, some 9)] }
def initing : State := (dram.setMee 0 { MeeSt.reset with init := some (2, 9) }).p 0 (R.MEE_KEY_STATUS.BUSY 0) 1
def inited : State := (initWindow initing 0 2 9).setMee 0 { (initWindow initing 0 2 9).mee 0 with init := none }
def rekeying : State := (((setKstate dram 0 9 Ks.rekeying).p 0 (R.MEE_RK_CFG.KEYID 0) 9).p 0 (R.MEE_RK_END.LINE 0) 6).p 0 (R.MEE_RK_BOUND.LINE 0) 3
def rkProt : State := ((rekeying.p 0 (R.MEE_PROT.EN 0 0) 1).p 0 (R.MEE_PROT.SIZE 0 0) 4).p 0 (R.MEE_PROT.META 0 0) 8
def rkRead : List MWord × Bool × Nat × State := encRead (ddrCnt (serveWrites rkProt 0 192) 0 0) ((serveWrites rkProt 0 192).parserMaster 0) 0 192 9
theorem witness_DramEventsComplete :
    ((dram.debugShut (dReq .read 8 []).m = false ∧ coreStops dram (dReq .read 8 []) = none ∧
      (dReq .read 8 []).addr.toNat % 64 + (dReq .read 8 []).size ≤ 64 ∧
      decodeAddr dram cm (dram.dieOfRid cm.rid) (dReq .read 8 []).addr.toNat = .dram 0 0x78 0 ∧ (meeJudge dram cm 0 0x78 0).1 = none ∧
      (dram.dsub (subKey 0 0x78)).reads.length < 64) ∧
    (dram.debugShut (dReq .write 8 [⟨5, false⟩]).m = false ∧ coreStops dram (dReq .write 8 [⟨5, false⟩]) = none ∧
      (dReq .write 8 [⟨5, false⟩]).addr.toNat % 64 + (dReq .write 8 [⟨5, false⟩]).size ≤ 64 ∧
      decodeAddr dram cm (dram.dieOfRid cm.rid) (dReq .write 8 [⟨5, false⟩]).addr.toNat = .dram 0 0x78 0 ∧
      (meeJudge dram cm 0 0x78 0).1 = none ∧ (dram.dsub (subKey 0 0x78)).writes.length < 64) ∧
    (guarded.debugShut (dReq .read 8 []).m = false ∧ coreStops guarded (dReq .read 8 []) = none ∧
      (dReq .read 8 []).addr.toNat % 64 + (dReq .read 8 []).size ≤ 64 ∧
      decodeAddr guarded cm (guarded.dieOfRid cm.rid) (dReq .read 8 []).addr.toNat = .dram 0 0x78 0 ∧
      (guarded.dsub (subKey 0 0x78)).reads.length < 64 ∧ (meeJudge guarded cm 0 0x78 0).1 = some .accessError)) ∧
    ((guarded.debugShut (dReq .write 8 [⟨5, false⟩]).m = false ∧ coreStops guarded (dReq .write 8 [⟨5, false⟩]) = none ∧
      (dReq .write 8 [⟨5, false⟩]).addr.toNat % 64 + (dReq .write 8 [⟨5, false⟩]).size ≤ 64 ∧
      decodeAddr guarded cm (guarded.dieOfRid cm.rid) (dReq .write 8 [⟨5, false⟩]).addr.toNat = .dram 0 0x78 0 ∧
      (guarded.dsub (subKey 0 0x78)).writes.length < 64 ∧ (meeJudge guarded cm 0 0x78 0).1 = some .accessError) ∧
    (chServes readQ 0 = true ∧ chClocked readQ 0 = true ∧ (readQ.dsub 1).drain = false ∧ readChoice readQ 0 (readQ.dsub 1) = some oneRead ∧
      (readQ.dsub 1).writes.any (fun y => y.seq == oneRead.seq) = false) ∧
    (chServes (writeQ true) 0 = true ∧ chClocked (writeQ true) 0 = true ∧ ((writeQ true).dsub 1).drain = true ∧
      writeChoice (writeQ true) 0 ((writeQ true).dsub 1) = some oneWrite ∧
      ((writeQ true).dsub 1).writes.any (fun y => y.seq == oneWrite.seq) = true) ∧
    (((writeQ false).dsub 1).writes ≠ [] ∧ ((writeQ false).dsub 1).reads = [])) ∧
    (((readQ.dsub 1).reads = [oneRead] ∧ (readQ.dsub 1).writes = [] ∧ oneRead.prom = false ∧
      (readQ.p 0 (R.DDR_AGE.AGE 0) 0x01010101).g 0 (R.DDR_AGE.AGE 0) / 256 ^ oneRead.cls % 256 ≠ 0) ∧
    (training.g 0 (R.DDR_STATUS.STATE 0) = DdrState.training) ∧
    (opened.g 0 (R.DDR_STATUS.STATE 0) = DdrState.ready) ∧
    (dram.g 0 (R.DDR_STATUS.STATE 0) = DdrState.ready ∧ 20 < ((60#8).toInt - (BitVec.ofNat 8 (dram.g 0 (R.DDR_STATUS.TRAIN_TEMP 0))).toInt).natAbs) ∧
    ((initing.mee 0).init = some (2, 9) ∧ (inited.mee (inited.head * 2)).device = false ∧ inited.on 0 (R.MEE_KEY_STATUS.BUSY 0) = true)) ∧
    ((kstate rekeying 0 9 = Ks.rekeying ∧ rekeying.g 0 (R.MEE_RK_CFG.KEYID 0) = 9 ∧ rekeying.g 0 (R.MEE_RK_BOUND.LINE 0) = 3 ∧
      3 < rekeying.g 0 (R.MEE_RK_END.LINE 0) ∧ chServes rekeying 0 = true ∧ chClocked rekeying 0 = true ∧ rekeying.held 0 Blk.ddr0 = false ∧
      rekeying.held 0 Blk.mee0 = false ∧ protWindow (serveWrites rekeying 0 192) 0 192 = none) ∧
    (kstate rkProt 0 9 = Ks.rekeying ∧ rkProt.g 0 (R.MEE_RK_CFG.KEYID 0) = 9 ∧ rkProt.g 0 (R.MEE_RK_BOUND.LINE 0) = 3 ∧
      3 < rkProt.g 0 (R.MEE_RK_END.LINE 0) ∧ chServes rkProt 0 = true ∧ chClocked rkProt 0 = true ∧ rkProt.held 0 Blk.ddr0 = false ∧
      rkProt.held 0 Blk.mee0 = false ∧ (protWindow (serveWrites rkProt 0 192) 0 192).isSome = true)) :=
  ⟨by decide +kernel,
    by decide +kernel,
    by decide +kernel,
    by decide +kernel⟩

def ln (n st : Nat) : State := ((run.p 0 (R.LAN_STATUS.STATE n) st).p 0 (R.LAN_CTRL.ENABLE n) (if st = 0 then 0 else 1)).p 0 (R.LAN_PAIR.ACTIVE (n / 2)) (if st = 2 then 1 else 0)
def pllOn : State := ((((ln 8 0).p 0 (R.LAN_CTRL.ENABLE 9) 0).p 0 (R.LAN_CTRL.ENABLE 10) 0).p 0 (R.LAN_STATUS.STATE 9) 0).p 0 (R.LAN_QSTATUS.LOCK_A 2) 1
def pllV : DWord := BitVec.ofNat 64 ((2 ^ (R.LAN_QPLLA.INT 0).lo * 70 + 2 ^ (R.LAN_QPLLA.EN 0).lo) )
def pllX : Nat := RegId.LAN_QPLLA.info.merge (pllOn.reg 0 ⟨.LAN_QPLLA, 2, 0⟩) pllV.toNat (2 ^ 64 - 1)
def noBypass : State := (List.range 4).foldl (fun s i => (s.p 0 (R.LAN_STATUS.STATE (8 + i)) 0).p 0 (R.LAN_CTRL.ENABLE (8 + i)) 0) pllOn
def lnX (s : State) (v : Nat) : Nat := written s 0 ⟨.LAN_CTRL, 9, 0⟩ v
def lnT (s : State) (v : Nat) : State := s.setReg 0 ⟨.LAN_CTRL, 9, 0⟩ (lnX s v)
def lnR : Nat := named (ln 9 6) 0 ⟨.LAN_CTRL, 9, 0⟩ [(R.LAN_CTRL.RESTART 9, 1)]
def adX : Nat := written (ln 9 6) 0 ⟨.LAN_ADAPT_CFG, 9, 0⟩ (named (ln 9 6) 0 ⟨.LAN_ADAPT_CFG, 9, 0⟩ [(R.LAN_ADAPT_CFG.READAPT 9, 1)])
def adT : State := (ln 9 6).setReg 0 ⟨.LAN_ADAPT_CFG, 9, 0⟩ adX
def eyeW : Word := BitVec.ofNat 32 (2 ^ (R.LAN_EYE_CTRL.DWELL_LOG2 0).lo * 24 + 2 ^ (R.LAN_EYE_CTRL.START 0).lo)
def eyeX : Nat := written (ln 9 6) 0 ⟨.LAN_EYE_CTRL, 9, 0⟩ eyeW.toNat
def eyeRe : State := (ln 9 6).setLane 0 9 { (ln 9 6).lane 0 9 with readapt := true }
def pairX (s : State) : Nat := written s 0 ⟨.LAN_PAIR, 4, 0⟩ 1
def pairT (s : State) : State := (s.p 0 (R.LAN_PAIR.SLEEP_BYPASS 4) ((R.LAN_PAIR.SLEEP_BYPASS 0).of (pairX s))).p 0 (R.LAN_PAIR.BYPASS 4) ((R.LAN_PAIR.BYPASS 0).of (pairX s))
def pairMoves : State := (ln 9 1).setPair 0 4 { PairSt.reset with idle := some false }
def prV : Word := 0x80020000
def prT : State := (ln 9 6).setReg 0 ⟨.LAN_PRBS, 9, 0⟩ (written (ln 9 6) 0 ⟨.LAN_PRBS, 9, 0⟩ prV.toNat)
def prZ : State := (ln 9 6).setReg 0 ⟨.LAN_PRBS, 9, 0⟩ (written (ln 9 6) 0 ⟨.LAN_PRBS, 9, 0⟩ 0)
theorem witness_LaneCommandsComplete :
    (Reaches noBypass cm 0 ⟨.LAN_QPLLA, 2, 0⟩ ∧ pllX ≠ noBypass.reg 0 ⟨.LAN_QPLLA, 2, 0⟩ ∧
      qpllOk (noBypass.qclk 0 2) ((R.LAN_QPLLA.INT 0).of pllX) ((R.LAN_QPLLA.FRAC 0).of pllX) = true ∧
      ∀ i : Fin 4, laneUsesPll noBypass 0 (4 * 2 + i) 0 = false) ∧
    (Reaches (ln 9 0) cm 0 ⟨.LAN_CTRL, 9, 0⟩ ∧ lanesOurs (lnT (ln 9 0) (2 ^ 31)) 0 = true ∧
      laneInBypass (lnT (ln 9 0) (2 ^ 31)) 0 9 = false ∧ ((lnT (ln 9 0) (2 ^ 31)).pair 0 4).idle = none ∧
      (R.LAN_CTRL.SLEEP 0).of (lnX (ln 9 0) (2 ^ 31)) ≠ 3 ∧ (R.LAN_CTRL.ENABLE 0).of (lnX (ln 9 0) (2 ^ 31)) = 1 ∧
      (ln 9 0).on 0 (R.LAN_CTRL.ENABLE 9) = false) ∧
    (Reaches (ln 9 6) cm 0 ⟨.LAN_CTRL, 9, 0⟩ ∧ lanesOurs (lnT (ln 9 6) 0) 0 = true ∧ laneInBypass (lnT (ln 9 6) 0) 0 9 = false ∧
      ((lnT (ln 9 6) 0).pair 0 4).idle = none ∧ (R.LAN_CTRL.ENABLE 0).of (lnX (ln 9 6) 0) = 0 ∧ (ln 9 6).on 0 (R.LAN_CTRL.ENABLE 9) = true) ∧
    (Reaches (ln 9 6) cm 0 ⟨.LAN_CTRL, 9, 0⟩ ∧ lanesOurs (lnT (ln 9 6) lnR) 0 = true ∧ laneInBypass (lnT (ln 9 6) lnR) 0 9 = false ∧
      (ln 9 6).g 0 (R.LAN_CTRL.SLEEP 9) ≠ 3 ∧ (ln 9 6).on 0 (R.LAN_CTRL.ENABLE 9) = true ∧ laneState (lnT (ln 9 6) lnR) 0 9 ≠ Ln.idle) ∧
    (Reaches (ln 9 6) cm 0 ⟨.LAN_ADAPT_CFG, 9, 0⟩ ∧ laneLive adT 0 9 = true ∧ (adT.lane 0 9).readapt = false ∧
      adT.on 0 (R.LAN_EYE_RESULT.BUSY 9) = false) ∧
    (Reaches (ln 9 6) cm 0 ⟨.LAN_EYE_CTRL, 9, 0⟩ ∧ 20 ≤ (R.LAN_EYE_CTRL.DWELL_LOG2 0).of eyeX ∧ (R.LAN_EYE_CTRL.DWELL_LOG2 0).of eyeX ≤ 40 ∧
      (R.LAN_EYE_CTRL.START 0).of eyeW.toNat = 1 ∧ (ln 9 6).on 0 (R.LAN_EYE_RESULT.BUSY 9) = false ∧ laneLive (ln 9 6) 0 9 = true) ∧
    (Reaches eyeRe cm 0 ⟨.LAN_EYE_CTRL, 9, 0⟩ ∧ 20 ≤ (R.LAN_EYE_CTRL.DWELL_LOG2 0).of eyeX ∧ (R.LAN_EYE_CTRL.DWELL_LOG2 0).of eyeX ≤ 40 ∧
      (R.LAN_EYE_CTRL.START 0).of eyeW.toNat = 1 ∧ eyeRe.on 0 (R.LAN_EYE_RESULT.BUSY 9) = false ∧ laneLive eyeRe 0 9 = true) ∧
    (Reaches pairMoves cm 0 ⟨.LAN_PAIR, 4, 0⟩ ∧ ((pairT pairMoves).pair 0 4).idle = some false) ∧
    (Reaches (ln 9 6) cm 0 ⟨.LAN_PAIR, 4, 0⟩ ∧ ((pairT (ln 9 6)).pair 0 4).idle = none ∧
      ((R.LAN_PAIR.BYPASS 0).of (pairX (ln 9 6)) == 1) ≠ (pairT (ln 9 6)).on 0 (R.LAN_PAIR.ACTIVE 4)) ∧
    (Reaches (ln 9 6) cm 0 ⟨.LAN_PRBS, 9, 0⟩ ∧ (R.LAN_PRBS.PATTERN 0).of (written (ln 9 6) 0 ⟨.LAN_PRBS, 9, 0⟩ prV.toNat) < 5 ∧
      laneState (ln 9 6) 0 9 ≠ Ln.bypass ∧ (R.LAN_PRBS.GEN 0).of (written (ln 9 6) 0 ⟨.LAN_PRBS, 9, 0⟩ prV.toNat) = 1) ∧
    (Reaches (ln 9 6) cm 0 ⟨.LAN_PRBS, 9, 0⟩ ∧ (R.LAN_PRBS.PATTERN 0).of (written (ln 9 6) 0 ⟨.LAN_PRBS, 9, 0⟩ (0 : Word).toNat) < 5 ∧
      laneState (ln 9 6) 0 9 ≠ Ln.bypass ∧ (R.LAN_PRBS.GEN 0).of (written (ln 9 6) 0 ⟨.LAN_PRBS, 9, 0⟩ (0 : Word).toNat) = 0) :=
  ⟨by unfold Reaches; decide +kernel,
    by unfold Reaches; decide +kernel,
    by unfold Reaches; decide +kernel,
    by unfold Reaches; decide +kernel,
    by unfold Reaches; decide +kernel,
    by unfold Reaches; decide +kernel,
    by unfold Reaches; decide +kernel,
    by unfold Reaches; decide +kernel,
    by unfold Reaches; decide +kernel,
    by unfold Reaches; decide +kernel,
    by unfold Reaches; decide +kernel⟩

def pllUp (n : Nat) : State := ((((run.p 0 (R.LAN_QPLLA.EN n) 1).p 0 (R.LAN_QPLLA.INT n) 66).p 0 (R.LAN_QPLLA.FRAC n) 0).p 0 (R.LAN_QSTATUS.LOCK_A n) 1)
def lossA (s : State) : State := ((s.p 0 (qpllLock 0 2) 0).p 0 (R.LAN_QSTATUS.UNLOCK 2) 1).p 0 (R.LAN_QSTATUS.REF_ACTIVE 2) 0
def quadOff (s : State) : State := (List.range 4).foldl (fun s i => (s.p 0 (R.LAN_STATUS.STATE (8 + i)) 0).p 0 (R.LAN_CTRL.ENABLE (8 + i)) 0) s
def quad9 : State := ((quadOff (pllUp 2)).p 0 (R.LAN_STATUS.STATE 9) 6).p 0 (R.LAN_CTRL.ENABLE 9) 1
def idling (an : Nat) : State := ((ln 9 1).setLane 0 9 { LaneSt.reset with idle := .start }).p 0 (R.LAN_CTRL.AN_EN 9) an
def idlingOff : State := (idling 0).p 0 (R.LAN_CTRL.ENABLE 9) 0
def idlingM (a : Nat) : State := (((((idling 1).p 0 (R.PEN_PORT_CFG.WIDTH 8) 1).p 0 (R.PEN_PORT_CFG.ENABLE 8) 1).p 0 (R.LAN_CTRL.AN_EN 8) 1).p 0 (R.LAN_AN_STATUS.ASTATE 8) a)
def anS : State := (((((ln 9 3).p 0 (R.LAN_AN_STATUS.ASTATE 9) 1).p 0 (R.LAN_AN_ADV.ETH 9) 1).p 0 (R.LAN_QPLLA.EN 2) 1).p 0 (R.LAN_QPLLA.INT 2) 66).p 0 (R.LAN_QSTATUS.LOCK_A 2) 1
def anT (pg : Nat) : State := anS.p 0 ⟨0x500028 + 4096 * 9, 0, 32⟩ pg
def anU : State := ((((anT 1).p 0 (R.LAN_AN_STATUS.RESULT 9) 1).p 0 (R.LAN_AN_STATUS.ASTATE 9) 2).p 0 (R.LAN_AN_STATUS.FEC 9) 0).p 0 (R.LAN_AN_STATUS.EEE 9) 0
def anF : State := (ln 9 3).p 0 (R.LAN_AN_STATUS.ASTATE 9) 3
def locked9 : State := ((((ln 9 5).p 0 (R.LAN_STATUS.BLOCK_LOCK 9) 1).p 0 (R.LAN_STATUS.CDR_LOCK 9) 1).p 0 (R.LAN_QPLLA.INT 2) 66).p 0 (R.LAN_QPLLA.FRAC 2) 0
def aligned9 : State := (locked9.p 0 (R.LAN_STATUS.DESKEW 9) 1).p 0 (R.LAN_STATUS.FEC_ALIGN 9) 0
def hiBer : State := (ln 9 6).p 0 (R.LAN_STATUS.HI_BER 9) 1
def adapting : State := (ln 9 6).setLane 0 9 { LaneSt.reset with readapt := true }
def scanning : State := (ln 9 6).p 0 (R.LAN_EYE_RESULT.BUSY 9) 1
def scanM : State := scanning.p 0 (R.LAN_EYE_CTRL.MODE 9) 1
def pairM (y : Bool) : State := (ln 9 1).setPair 0 4 { PairSt.reset with idle := some y }
def pairC : State := (pairM true).p 0 (R.LAN_QSTATUS.LOCK_A 2) 1
theorem witness_LaneEventsComplete :
    ((run.present 0 = true ∧ (pllUp 2).on 0 (qpll 0 2).1 = true ∧ 100000000 ≤ 156250000 ∧ 156250000 ≤ 400000000 ∧
      qpllOk 156250000 ((pllUp 2).g 0 (qpll 0 2).2.1) ((pllUp 2).g 0 (qpll 0 2).2.2) = true) ∧
    (Canonical (quadOff (pllUp 2)) ∧ (quadOff (pllUp 2)).on 0 (qpllLock 0 2) = true ∧
      ∀ i : Fin 4, laneUsesPll (lossA (quadOff (pllUp 2))) 0 (4 * 2 + i) 0 = false)) ∧
    ((Canonical quad9 ∧ quad9.on 0 (qpllLock 0 2) = true ∧
      ∀ i : Fin 4, laneUsesPll (lossA quad9) 0 (4 * 2 + i) 0 = decide (9 = 4 * 2 + i.val) ∧ laneState (lossA quad9) 0 9 ≠ Ln.off ∧
      laneState (lossA quad9) 0 9 ≠ Ln.bypass ∧ ((lossA quad9).pair 0 4).idle = none) ∧
    (idlingOff.held 0 Blk.lan = false ∧ laneState idlingOff 0 9 = Ln.idle ∧ (idlingOff.lane 0 9).idle ≠ .stay ∧
      idlingOff.on 0 (R.LAN_CTRL.ENABLE 9) = false)) ∧
    (((idling 0).held 0 Blk.lan = false ∧ laneState (idling 0) 0 9 = Ln.idle ∧ ((idling 0).lane 0 9).idle ≠ .stay ∧
      (idling 0).on 0 (R.LAN_CTRL.ENABLE 9) = true ∧ (idling 0).on 0 (R.LAN_CTRL.AN_EN (firstLane (idling 0) 0 9)) = false) ∧
    ((idling 1).held 0 Blk.lan = false ∧ laneState (idling 1) 0 9 = Ln.idle ∧ ((idling 1).lane 0 9).idle ≠ .stay ∧
      (idling 1).on 0 (R.LAN_CTRL.AN_EN 9) = true ∧ firstLane (idling 1) 0 9 = 9) ∧
    ((idlingM 2).held 0 Blk.lan = false ∧ laneState (idlingM 2) 0 9 = Ln.idle ∧ ((idlingM 2).lane 0 9).idle ≠ .stay ∧
      (idlingM 2).on 0 (R.LAN_CTRL.ENABLE 9) = true ∧ firstLane (idlingM 2) 0 9 = 8 ∧ (idlingM 2).on 0 (R.LAN_CTRL.AN_EN 8) = true ∧
      (idlingM 2).g 0 (R.LAN_AN_STATUS.ASTATE 8) = 2)) ∧
    (((idlingM 1).held 0 Blk.lan = false ∧ laneState (idlingM 1) 0 9 = Ln.idle ∧ ((idlingM 1).lane 0 9).idle ≠ .stay ∧
      (idlingM 1).on 0 (R.LAN_CTRL.ENABLE 9) = true ∧ firstLane (idlingM 1) 0 9 = 8 ∧ (idlingM 1).on 0 (R.LAN_CTRL.AN_EN 8) = true ∧
      (idlingM 1).g 0 (R.LAN_AN_STATUS.ASTATE 8) ≠ 2) ∧
    (anRuns anS 0 9 = true ∧ anResolve anS 0 9 ((2 : Word).toNat &&& partnerMask) = none) ∧
    (anRuns anS 0 9 = true ∧ anResolve anS 0 9 ((1 : Word).toNat &&& partnerMask) = some (1, 10312500000, false, 0, 0) ∧ portLanes anU 0 9 = [9]) ∧
    (laneState anF 0 9 = Ln.an ∧ anF.g 0 (R.LAN_AN_STATUS.ASTATE 9) = 3) ∧
    (laneState (ln 9 4) 0 9 = Ln.training) ∧
    (laneState (ln 9 5) 0 9 = Ln.align) ∧
    (laneState locked9 0 9 = Ln.align)) ∧
    ((Canonical locked9 ∧ laneState locked9 0 9 = Ln.align ∧ firstLane locked9 0 9 = 9 ∧ portLanes locked9 0 9 = [9] ∧
      locked9.on 0 (R.LAN_STATUS.BLOCK_LOCK 9) = true ∧ locked9.on 0 (R.LAN_STATUS.CDR_LOCK 9) = true ∧
      modeFec (locked9.lane 0 9).mode = 0) ∧
    (laneState (ln 9 6) 0 9 = Ln.up) ∧
    (hiBer.on 0 (R.LAN_STATUS.HI_BER 9) = true)) ∧
    ((laneLive (ln 9 6) 0 9 = true ∧ ((ln 9 6).lane 0 9).readapt = false ∧ [(0x20203030 : Word)] ≠ [] ∧
      (ln 9 6).g 0 (R.LAN_ADAPT_CFG.HTH 9) ≤ eyeH (worstEye [0x20203030]) ∧
      (ln 9 6).g 0 (R.LAN_ADAPT_CFG.VTH 9) ≤ eyeV (worstEye [0x20203030])) ∧
    (Canonical adapting ∧ (adapting.lane 0 9).readapt = true ∧ adapting.on 0 (R.LAN_EYE_RESULT.BUSY 9) = false) ∧
    (scanning.on 0 (R.LAN_EYE_RESULT.BUSY 9) = true ∧ scanning.g 0 (R.LAN_EYE_RESULT.STATUS 9) = 0 ∧ scanning.on 0 (R.LAN_EYE_CTRL.MODE 9) = false)) ∧
    ((scanM.on 0 (R.LAN_EYE_RESULT.BUSY 9) = true ∧ scanM.g 0 (R.LAN_EYE_RESULT.STATUS 9) = 0 ∧ scanM.on 0 (R.LAN_EYE_CTRL.MODE 9) = true) ∧
    (((pairM true).pair 0 4).latched = none ∧ ((pairM true).pair 0 4).idle = some true ∧ pairClocked (pairM true) 0 4 = false) ∧
    ((pairC.pair 0 4).latched = none ∧ (pairC.pair 0 4).idle = some true ∧ pairClocked pairC 0 4 = true) ∧
    (((pairM false).pair 0 4).latched = none ∧ ((pairM false).pair 0 4).idle = some false)) :=
  ⟨by unfold Canonical; decide +kernel,
    by unfold Canonical; decide +kernel,
    by decide +kernel,
    by decide +kernel,
    by unfold Canonical; decide +kernel,
    by unfold Canonical; decide +kernel,
    by decide +kernel⟩

def mac0 : Nat := 0x020304050607
def ent (st lk : Bool) : L2Ent := ⟨mac0, 5, st, lk, false, 1, 2, 8, 0⟩
def idx0 : Nat := l2Set mac0 5 * 16
def tabled : State := ((run.p 0 (R.PEN_L2_DATA.WORD 0) 0x04050607).p 0 (R.PEN_L2_DATA.WORD 1) 0x00050203).setL2 0 idx0 (some (ent false false))
def l2X (s : State) (op : Nat) : Nat := written s 0 ⟨.PEN_L2_CMD, 0, 0⟩ (named s 0 ⟨.PEN_L2_CMD, 0, 0⟩ [(R.PEN_L2_CMD.OP, op)])
def l2T (s : State) (op : Nat) : State := s.setReg 0 ⟨.PEN_L2_CMD, 0, 0⟩ (l2X s op)
def l2I : Nat := written tabled 0 ⟨.PEN_L2_CMD, 0, 0⟩ (named tabled 0 ⟨.PEN_L2_CMD, 0, 0⟩ [(R.PEN_L2_CMD.OP, 2), (R.PEN_L2_CMD.INDEX, 0x7FFFF)])
def vlans : State := (run.p 0 (R.PEN_VLAN_DATA.WORD 0) 0xFFFFFFFF).p 0 (R.PEN_VLAN_DATA.WORD 2) 0xFFFFFFFF
def stamped : State := run.setPenDie 0 { PenDie.reset with ts := [⟨8, 0x123, 77, 999⟩] }
def eth : State := ((run.p 0 (R.PEN_PORT_CFG.ENABLE 8) 1).p 0 (R.PEN_PORT_CFG.STATE 8) 2).p 0 (R.PEN_PORT_STATUS.LINK 8) 2
def pcV (en : Nat) : Word := BitVec.ofNat 32 (2 ^ (R.PEN_PORT_CFG.ENABLE 0).lo * en + 2 ^ (R.PEN_PORT_CFG.LPI_IDLE 0).lo * 5)
def pcT (en : Nat) : State := eth.setReg 0 ⟨.PEN_PORT_CFG, 8, 0⟩ (written eth 0 ⟨.PEN_PORT_CFG, 8, 0⟩ (pcV en).toNat)
theorem witness_PenCommandsComplete :
    (Reaches tabled cm 0 ⟨.PEN_L2_CMD, 0, 0⟩ ∧ tabled.on 0 R.PEN_L2_STATUS.BUSY = false ∧ wordsMac (l2Data (l2T tabled 1) 0) = mac0 ∧
      wordsVid (l2Data (l2T tabled 1) 0) = 5 ∧ l2Find (l2T tabled 1) 0 mac0 5 = some (idx0, ent false false)) ∧
    ((Reaches run cm 0 ⟨.PEN_L2_CMD, 0, 0⟩ ∧ l2Find (l2T run 1) 0 (wordsMac (l2Data (l2T run 1) 0)) (wordsVid (l2Data (l2T run 1) 0)) = none) ∧
    (Reaches tabled cm 0 ⟨.PEN_L2_CMD, 0, 0⟩ ∧ (0x7FFFF#20).toNat < 2 ^ 19)) ∧
    (((0 : Nat) = tabled.head ∧ Reaches tabled cm 0 ⟨.PEN_L2_CMD, 0, 0⟩ ∧ tabled.on 0 R.PEN_L2_STATUS.BUSY = false) ∧
    ((0 : Nat) = tabled.head)) ∧
    (Reaches vlans cm 0 ⟨.PEN_VLAN_CMD, 0, 0⟩ ∧ (4095#20).toNat < 4096) ∧
    ((SMap.wf (fun _ => 0) vlans.pen.vlan = true ∧ Reaches vlans cm 0 ⟨.PEN_VLAN_CMD, 0, 0⟩ ∧ (4095#20).toNat < 4096) ∧
    (Reaches run cm 0 ⟨.PEN_NH_CMD, 0, 0⟩)) ∧
    ((Reaches (run.p 0 R.PEN_NH_DATA.WORD 0xFFFFFFFF) cm 0 ⟨.PEN_NH_CMD, 0, 0⟩) ∧
    (Reaches run cm 0 ⟨.PEN_RING_TAIL, 15, 0⟩)) ∧
    (Reaches stamped cm 0 ⟨.PEN_TS_POP, 0, 0⟩ ∧ (stamped.penDie 0).ts = [⟨8, 0x123, 77, 999⟩] ∧ (stamped.penDie 0).lost = false) ∧
    (Reaches run cm 0 ⟨.PEN_TS_POP, 0, 0⟩ ∧ (run.penDie 0).ts = []) ∧
    (Reaches run cm 0 ⟨.PEN_TIME, 0, 0⟩ ∧ (0 : Nat) = run.head ∧ (0x53B9AC9FF#64).toNat % 2 ^ 32 < 1000000000) ∧
    ((Reaches run cm 0 ⟨.PEN_TIME_ADJ, 0, 0⟩ ∧ -500000 ≤ (BitVec.ofInt 32 (-500000)).toInt ∧ (BitVec.ofInt 32 (-500000)).toInt ≤ 500000) ∧
    (Reaches run cm 0 ⟨.PEN_TIME_STEP, 0, 0⟩)) ∧
    (Reaches eth cm 0 ⟨.PEN_PORT_CFG, 8, 0⟩ ∧ portCfgOk eth 0 8 (written eth 0 ⟨.PEN_PORT_CFG, 8, 0⟩ (pcV 1).toNat) = true ∧
      portOn (pcT 1) 0 8 = true) ∧
    (Reaches eth cm 0 ⟨.PEN_PORT_CFG, 8, 0⟩ ∧ portCfgOk eth 0 8 (written eth 0 ⟨.PEN_PORT_CFG, 8, 0⟩ (pcV 0).toNat) = true ∧
      portOn (pcT 0) 0 8 = false) :=
  ⟨by unfold Reaches; decide +kernel,
    by unfold Reaches; decide +kernel,
    by unfold Reaches; decide +kernel,
    by unfold Reaches; decide +kernel,
    by unfold Reaches; decide +kernel,
    by unfold Reaches; decide +kernel,
    by unfold Reaches; decide +kernel,
    by unfold Reaches; decide +kernel,
    by unfold Reaches; decide +kernel,
    by unfold Reaches; decide +kernel,
    by unfold Reaches; decide +kernel,
    by unfold Reaches; decide +kernel⟩

def owned : State := tabled.setL2 arbTable idx0 (some (ent false false))
def cmdS : State := owned.setPen { owned.pen with cmd := some (4, l2Data owned 0) }
def learns (lost : Nat) : State := (owned.setPenDie 0 { PenDie.reset with learn := [⟨.move, mac0, 5, 9⟩] }).p 0 R.PEN_STATUS.ARB_UNREACH lost
def upd : State := owned.setPenDie 0 { PenDie.reset with upd := [⟨3, idx0, none⟩] }
def lockedE : State := owned.setL2 arbTable idx0 (some (ent false true))
def idxF : Fin 524288 := ⟨idx0 % 524288, Nat.mod_lt _ (by decide)⟩
def inWindow : State := owned.setWindow 8 idxF true
def aging (a : Nat) : State := (owned.setL2 arbTable idx0 (some { ent false false with age := a })).p 0 R.PEN_AGE_CFG.EN 1
def resync : State := duo.p 1 R.PEN_STATUS.RESYNC 1
theorem witness_L2TableComplete :
    ((cmdS.pen.cmd = some (4, l2Data owned 0) ∧ penRuns cmdS cmdS.head = true ∧
      (l2Command (cmdS.setPen { cmdS.pen with cmd := none }) 4 (l2Data owned 0)).1 = 0) ∧
    (((learns 0).penDie 0).learn = [⟨.move, mac0, 5, 9⟩] ∧ penRuns (learns 0) 0 = true ∧ (learns 0).on 0 R.PEN_STATUS.ARB_UNREACH = false ∧
      penRuns (learns 0) (learns 0).head = true) ∧
    (((learns 1).penDie 0).learn = [⟨.move, mac0, 5, 9⟩] ∧ penRuns (learns 1) 0 = true ∧ (learns 1).on 0 R.PEN_STATUS.ARB_UNREACH = true) ∧
    ((upd.penDie 0).upd = [⟨3, idx0, none⟩]) ∧
    (lockedE.l2 8 idxF = some (ent false true) ∧ (ent false true).locked = true) ∧
    (inWindow.l2 8 idxF = some (ent false false) ∧ inWindow.window 8 idxF = true ∧ (ent false false).locked = false)) ∧
    (((aging 3).on (aging 3).head R.PEN_AGE_CFG.EN = true ∧ penRuns (aging 3) (aging 3).head = true ∧
      SMap.wf (fun _ => none) (aging 3).pen.l2 = true ∧ idx0 < 2 ^ 19 ∧
      (aging 3).l2 arbTable idx0 = some { ent false false with age := 3 }) ∧
    (resync.present 1 = true ∧ (1 : Nat) ≠ resync.head ∧ resync.on 1 R.PEN_STATUS.RESYNC = true ∧ resync.on 1 R.PEN_STATUS.ARB_UNREACH = false)) :=
  ⟨by decide +kernel,
    by decide +kernel⟩

def cod : Coding := ⟨1, 0, 2, 0, false, 32⟩
def rxV (s : State) : State := (takeCoding s 0 8 [cod]).2
def rxBad (s : State) : Bool := (takeCoding s 0 8 [cod]).1
def rxW (s : State) : State := deliverHeld (rxV s) 0 8
def rxM (s : State) (tnb : Bool) (f : List Byte) : Bool × State := macTake (rxW s) 0 8 tnb f (rxBad s)
def ethB (ty : Nat) : List Byte := bytesBE 6 0x0AAAAAAAAAAA ++ bytesBE 6 mac0 ++ bytesBE 2 ty ++ bytesBE 2 1 ++ bytesBE 2 100 ++ List.replicate 42 0
def ethW (ty : Nat) : List Byte := wireBytes (ethB ty) false
def badW : List Byte := ethB 0x800 ++ [1, 2, 3, 4]
def badF : Frame := laneFrame 0 8 (laneClass (rxM eth false badW).2 0 8 (ethB 0x800)).1 (laneClass (rxM eth false badW).2 0 8 (ethB 0x800)).2 false (ethB 0x800) (rxStamp (rxW eth) 0 8)
def lowS : State := eth.p 0 R.PWR_STATUS.STATE Ladder.comma
def tnbS : State := (eth.setLane 0 8 { LaneSt.reset with mode := modeWord 0 0 0 0 1 }).p 0 R.PEN_TNB_CFG.MYID 0x77
def tnbH : List Byte := [0x10, 0x60] ++ bytesBE 3 0x99 ++ bytesBE 3 0x55 ++ [9, 0] ++ bytesBE 2 4 ++ [0, 0]
def tnbB : List Byte := tnbH ++ bytesBE 2 (crc16 tnbH) ++ [1, 2, 3, 4]
def tnbT (b : List Byte) : State := (rxM tnbS true (wireBytes b false)).2
def lowT : State := tnbS.p 0 R.PWR_STATUS.STATE Ladder.comma
def helloB (id flags : Nat) : List Byte := let h : List Byte := [0x11, 0] ++ bytesBE 3 0 ++ bytesBE 3 id ++ [0, 0] ++ bytesBE 2 32 ++ [0, 0]; let pay := bytesBE 4 0x544E4248 ++ bytesBE 2 0x0100 ++ [1] ++ bytesBE 1 flags ++ bytesBE 4 3 ++ bytesBE 4 id ++ bytesBE 2 8 ++ List.replicate 10 0; h ++ bytesBE 2 (crc16 h) ++ pay ++ bytesBE 4 (crc32c pay).toNat
def greeting : State := tnbS.p 0 (R.PEN_PORT_STATUS.LINK 8) 1
def bufDrains : State := run.setBit 0 R.PEN_BUF_STATUS.DRAINING 7
def lpiS : State := tnbS.p 0 (R.LAN_CTRL.SLEEP 8) 1
def fr (dest : Nat) : Frame := ⟨ethB 0x800, 9, dest, 3, 5, 0, false, false, false, false, false, false, 0, 0, none⟩
def egressQ : State := eth.setQueue 0 8 3 [fr 8]
def airs (n : Nat) : State := eth.setAir 0 0 [⟨fr 8, n⟩]
def quadS : State := ({ run with dev := { run.dev with part := .px4, blank := 0 } }).setYout 0 [fr 256]
def txS : State := (((((((eth.zeroBank 2).setBankWord 2 8 ⟨0x000800000010, secdedCheck 0x000800000010⟩).p 0 (R.PEN_RING_BASE.ADDR 9) 0x10800040).p 0 (R.PEN_RING_CFG.EN 9) 1).p 0 (R.PEN_RING_CFG.SIZE_LOG2 9) 6).p 0 (R.PEN_RING_CFG.SLOT_LOG2 9) 11).p 0 (R.PEN_RING_TAIL.INDEX 9) 1).p 0 (R.BNK_CTRL.OWNER 2) 0x1000
def txH : Resp × List MWord × State := readMany txS (txS.penMaster 0) 0x10800040 4
def txB : Resp × List MWord × State := readMany txH.2.2 (txS.penMaster 0) 0x10800060 2
def leB (l : List MWord) : List Byte := l.flatMap (fun w => bytesLE 8 w.v.toNat)
theorem witness_PenTrafficComplete :
    (((rxV eth).belowRun 0 = false ∧ portTakes eth 0 8 false = true ∧ (rxM eth false (ethW 0x8808)).1 = true ∧
      frameType (ethB 0x8808) = 0x8808 ∧ (ethW 0x8808).take 60 = ethB 0x8808) ∧
    ((rxV eth).belowRun 0 = false ∧ portTakes eth 0 8 false = true ∧ (rxM eth false (ethW 0x800)).1 = true ∧
      (ethW 0x800).take 60 = ethB 0x800 ∧ frameType (ethB 0x800) ≠ 0x8808) ∧
    ((rxV eth).belowRun 0 = false ∧ portTakes eth 0 8 false = true ∧ (rxM eth false badW).1 = false) ∧
    ((rxV lowS).belowRun 0 = true ∧ kindTaken lowS 0 8 .eth = true) ∧
    ((rxV lowS).belowRun 0 = true ∧ kindTaken lowS 0 8 .pause = true ∧ frameType (ethW 0x8808) = 0x8808)) ∧
    (((rxV eth).belowRun 0 = false ∧ eth.present 0 = true ∧ eth.held 0 Blk.pen = false ∧ portUp eth 0 8 = true ∧
      frameType (ethW 0x8808) = 0x8808 ∧ (rxM eth (portTnb (rxW eth) 0 8) (ethW 0x8808)).1 = true) ∧
    ((rxV tnbS).belowRun 0 = false ∧ portTakes tnbS 0 8 true = true ∧ fld (beAt (wireBytes (tnbB ++ [5]) false) 0 1) 0 4 ≠ 1 ∧
      (rxM tnbS true (wireBytes (tnbB ++ [5]) false)).1 = true ∧ (wireBytes (tnbB ++ [5]) false).take (tnbB ++ [5]).length = tnbB ++ [5] ∧
      tnbCheck (tnbB ++ [5]) = some 3)) ∧
    (((rxV tnbS).belowRun 0 = false ∧ portTakes tnbS 0 8 true = true ∧ fld (beAt (wireBytes (tnbB) false) 0 1) 0 4 ≠ 1 ∧
      (rxM tnbS true (wireBytes (tnbB) false)).1 = true ∧ (wireBytes (tnbB) false).take (tnbB).length = tnbB ∧ tnbCheck tnbB = none ∧
      fld (beAt tnbB 0 1) 0 4 = 0 ∧ (tnbT tnbB).g 0 (R.PEN_PORT_CFG.STATE 8) = 2) ∧
    ((rxV lowT).belowRun 0 = true ∧ kindTaken lowT 0 8 .data = true ∧ fld (beAt (wireBytes tnbB false) 0 1) 0 4 ≠ 1) ∧
    ((rxV tnbS).belowRun 0 = false ∧ (wireBytes (helloB 0x77 0) false).take 48 = helloB 0x77 0 ∧ helloPort tnbS 0 8 = true ∧
      (rxM tnbS true (wireBytes (helloB 0x77 0) false)).1 = true ∧ helloValid (helloB 0x77 0) = true ∧
      beAt (helloB 0x77 0) 28 4 % 2 ^ 20 = (tnbT (helloB 0x77 0)).g 0 R.PEN_TNB_CFG.MYID)) ∧
    (((rxV tnbS).belowRun 0 = false ∧ (wireBytes (helloB 0x78 1) false).take 48 = helloB 0x78 1 ∧ helloPort tnbS 0 8 = true ∧
      (rxM tnbS true (wireBytes (helloB 0x78 1) false)).1 = true ∧ helloValid (helloB 0x78 1) = true ∧
      beAt (helloB 0x78 1) 28 4 % 2 ^ 20 ≠ (tnbT (helloB 0x78 1)).g 0 R.PEN_TNB_CFG.MYID ∧ 1 ≤ beAt (helloB 0x78 1) 20 1 ∧
      beAt (helloB 0x78 1) 22 1 ≤ 1) ∧
    ((rxV tnbS).belowRun 0 = false ∧ helloPort tnbS 0 8 = true ∧ (rxM tnbS true (wireBytes (helloB 0x78 0) false)).1 = true ∧
      helloValid (helloB 0x78 0) = true ∧ (wireBytes (helloB 0x78 0) false).take 48 = helloB 0x78 0 ∧
      beAt (helloB 0x78 0) 28 4 % 2 ^ 20 ≠ (tnbT (helloB 0x78 0)).g 0 R.PEN_TNB_CFG.MYID ∧ 1 ≤ beAt (helloB 0x78 0) 20 1 ∧
      beAt (helloB 0x78 0) 22 1 ≤ 1) ∧
    ((rxV lowT).belowRun 0 = true ∧ kindTaken lowT 0 8 .hello = true)) ∧
    ((helloPort tnbS 0 8 = true) ∧
    (run.present 0 = true) ∧
    (helloPort greeting 0 8 = true ∧ greeting.g 0 (R.PEN_PORT_STATUS.LINK 8) = 1) ∧
    (helloPort tnbS 0 8 = true ∧ tnbS.g 0 (R.PEN_PORT_STATUS.LINK 8) = 2 ∧ (tnbS.hello 0 8).missed < 2) ∧
    (helloPort (tnbS.setHello 0 8 ⟨true, 2⟩) 0 8 = true ∧ 2 ≤ ((tnbS.setHello 0 8 ⟨true, 2⟩).hello 0 8).missed) ∧
    (bufDrains.bit 0 R.PEN_BUF_STATUS.DRAINING 7 = true ∧ cellsIn bufDrains 0 (some 7) = 0) ∧
    (bufDrains.bit 0 R.PEN_BUF_STATUS.DRAINING 7 = true) ∧
    (lpiS.held 0 Blk.pen = false ∧ portUp lpiS 0 8 = true ∧ laneLpiAgreed lpiS 0 8 = true ∧ lpiS.g 0 (R.LAN_CTRL.SLEEP 8) = 1 ∧
      ∀ q : Fin 8, lpiS.queue 0 8 q = [])) ∧
    ((penRuns egressQ 0 = true ∧ (pickQueue egressQ 0 8).1 = some 3 ∧ (pickQueue egressQ 0 8).2.queue 0 8 3 = [fr 8] ∧
      (sendOut ((pickQueue egressQ 0 8).2.setQueue 0 8 3 []) 0 8 (fr 8)).isSome = true) ∧
    (penRuns (airs 2) 0 = true ∧ (airs 2).air 0 0 = [⟨fr 8, 2⟩]) ∧
    (penRuns (airs 1) 0 = true ∧ (airs 1).air 0 0 = [⟨fr 8, 1⟩] ∧ (trunkArrive ((airs 1).setAir 0 0 []) 0 (fr 8)).isSome = true) ∧
    (quadS.yout 0 = [fr 256] ∧ (quadS.neighbour 0 (trunkEdge quadS 0 Dst.y)).isSome = true ∧ (quadS.air 2 (5 - trunkEdge quadS 0 Dst.y)).length ≤ 0) ∧
    (quadS.yout 0 = [fr 256] ∧ quadS.neighbour 0 (trunkEdge quadS 0 Dst.y) = some 2 ∧ Resp.decodeError ≠ Resp.ok) ∧
    ((run.setRingAck 0 7 (some .ok)).ringAck 0 7 = some .ok) ∧
    ((run.setRingAck 0 7 (some .accessError)).ringAck 0 7 = some .accessError)) ∧
    ((penRuns txS 0 = true ∧ 8 ≤ 9 ∧ ringRuns txS 0 9 = true ∧ txS.ringAck 0 9 = none ∧ ringHead txS 0 9 ≠ ringTail txS 0 9 ∧
      slotAddr txS 0 9 = 0x10800040 ∧ txH.1 = .ok ∧ leAt (leB txH.2.1) 0 2 = 16 ∧ txB.1 = .ok) ∧
    (penRuns run run.head = true) ∧
    ((run.p 0 R.PEN_PPS_CFG.EN 1).on run.head R.PEN_PPS_CFG.EN = true ∧ (run.p 0 R.PEN_PPS_CFG.EN 1).pen.pps = !true)) :=
  ⟨by decide +kernel,
    by decide +kernel,
    by decide +kernel,
    by decide +kernel,
    by decide +kernel,
    by decide +kernel,
    by decide +kernel⟩

def scr : RegRef := ⟨.SYS_MBOX_DATA, 1, 0⟩
def scrS : State := run.setReg 0 scr 0xDEADBEEF
def cntR : RegRef := ⟨.LAN_CNT, 9, 2⟩
def cntS : State := (run.p 0 (R.LAN_CNT.COUNT 9 2) 0x0000000300000007)
def held7 : State := { cntS with holds := SMap.put cntS.holds (cellKey 0 cntR.off) ⟨cm.rid, 0x42⟩ }
theorem witness_RegisterAccess :
    (Reaches run cm 0 scr ∧ scr.off % 4 = 0 ∧ scr.off + 8 ≤ 2 ^ 24 ∧ scr.id.imageSet = false ∧ scr.id.info.writable ≠ 0 ∧ scr.id ≠ .SNT_COMMIT) ∧
    (Reaches run cm 0 ⟨.PWR_BLOCK_VERSION, 0, 0⟩ ∧ RegId.PWR_BLOCK_VERSION.info.writable = 0 ∧ (⟨.PWR_BLOCK_VERSION, 0, 0⟩ : RegRef).off % 4 = 0) ∧
    (Reaches run cm 0 scr ∧ scr.off % 4 = 0) ∧
    (Reaches run cm 0 scr ∧ 2 ≠ 4 ∧ 2 ≠ 8 ∧ bytesDefined run 0 scr.off 2 = true) ∧
    (Reaches run cm 0 scr ∧ bytesDefined run 0 0xFFF000 4 = false ∧ inAperture run 0 0xFFF000 = false) ∧
    (Reaches run cm 0 scr ∧ bytesDefined run 0 0xFFFFFF 3 = false ∧ inAperture run 0 0xFFFFFF = false) ∧
    (Reaches scrS cm 0 scr ∧ scr.id.isCounter = false ∧ scr.id.isPop = false ∧ scr.id.info.rc &&& (2 ^ 32 - 1) = 0) ∧
    (Reaches cntS cm 0 cntR ∧ cntR.id.isCounter = true ∧ cntR.id.isPop = false ∧ cntR.id.info.rc = 0 ∧ cntR.off % 8 = 0) ∧
    (Reaches held7 cm 0 cntR ∧ regOn held7 0 (cntR.off + 4) = some cntR ∧ SMap.look held7.holds (cellKey 0 cntR.off) = some ⟨cm.rid, 0x42⟩) ∧
    (Reaches cntS cm 0 cntR ∧ regOn cntS 0 (cntR.off + 4) = some cntR ∧ SMap.look cntS.holds (cellKey 0 cntR.off) = none) :=
  ⟨by unfold Reaches; decide +kernel,
    by unfold Reaches; decide +kernel,
    by unfold Reaches; decide +kernel,
    by unfold Reaches; decide +kernel,
    by unfold Reaches; decide +kernel,
    by unfold Reaches; decide +kernel,
    by unfold Reaches; decide +kernel,
    by unfold Reaches; decide +kernel,
    by unfold Reaches; decide +kernel,
    by unfold Reaches; decide +kernel⟩

def open0 : State := sntOpen run cm false 0
def tapR : RegRef := ⟨.CLK_FTAP, 3, 0⟩
def tapX : Nat := tapR.id.info.merge (stagedOver open0 0 tapR (open0.reg 0 tapR)) 20 (2 ^ 32 - 1 &&& tapR.id.info.rws)
def stagedS : State := (sntStage open0 cm 0 tapR tapX).getD run
def prepOf (s : State) : State := match prepare s 0 with | .ok u => u | .error _ => run
def clashS : State := stagedS.setReg 0 tapR 0x10
def commits : State := stagedS.p 0 R.SNT_STATUS.STATE Snt.committing
def rolled (s : State) (r : Nat) : State := sntFail (sntClose s 0 r) 0 0 0
def timed : State := open0.p 0 R.SNT_CFG.TMO 5
theorem witness_SentencesComplete :
    ((Reaches run cm 0 ⟨.SNT_BEGIN, 0, 0⟩) ∧
    (Reaches duo cm 0 ⟨.SNT_BEGIN, 0, 0⟩ ∧ (0 : Nat) = duo.head ∧ ∀ d ∈ duo.dies, sntState duo d = Snt.idle)) ∧
    (Open open0 cm 0 tapR ∧ tapR.id.imageSet = false ∧ tapR.id.info.rws ≠ 0 ∧ tapR.id.info.writable = tapR.id.info.rws ∧ tapR.off % 4 = 0 ∧
      tapR.off / 8 ≠ R.SNT_STATUS.STATE.off / 8 ∧ sntStage open0 cm 0 tapR tapX = some stagedS) ∧
    (Open stagedS cm 0 ⟨.SNT_COMMIT, 0, 0⟩ ∧ sntOwns stagedS cm 0 = true ∧ sntDevice stagedS 0 = false ∧ stagedS.running 0 = true ∧
      stagedS.fullStopped 0 = false ∧ (prepare stagedS 0).toOption = some (prepOf stagedS)) ∧
    ((Open clashS cm 0 ⟨.SNT_COMMIT, 0, 0⟩ ∧ sntOwns clashS cm 0 = true ∧ sntDevice clashS 0 = false ∧ clashS.running 0 = true ∧
      clashS.fullStopped 0 = false ∧
      (match prepare clashS 0 with | .ok _ => none | .error x => some x) = some ⟨0, SntRes.conflict, tapR.off, none⟩) ∧
    (commits.present 0 = true ∧ sntState commits 0 = Snt.committing ∧ sntDevice commits 0 = false ∧ commits.running 0 = true ∧
      (prepare commits 0).toOption = some (prepOf commits))) ∧
    ((Open open0 cm 0 ⟨.SNT_ROLLBACK, 0, 0⟩ ∧ sntOwns open0 cm 0 = true ∧ sntDevice open0 0 = false) ∧
    (timed.present 0 = true ∧ sntState timed 0 = Snt.opened ∧ timed.g 0 R.SNT_CFG.TMO ≠ 0 ∧ sntDevice timed 0 = false)) :=
  ⟨by unfold Reaches; decide +kernel,
    by unfold Open; decide +kernel,
    by unfold Open; decide +kernel,
    by unfold Open; decide +kernel,
    by unfold Open; decide +kernel⟩

def enters (g : Nat) (dr : Bool) : State := (run.setLad 0 { run.ladOf 0 with goal := g, drained := dr }).p 0 R.PWR_STATUS.PHASE 1
def entryBlocked : State := (enters 2 false).p 0 R.NVC_STATUS.STATE 2
def slept (g : Nat) : State := run.p 0 R.PWR_STATUS.STATE g
def hears : State := (slept 2).p 0 (R.LAN_STATUS.STATE 9) 7
def timerS : State := ((slept 2).setLad 0 { run.ladOf 0 with timer := true }).p 0 R.PWR_CFG.WAKE_TIMER 1
def leaves (g : Nat) : State := (slept g).p 0 R.PWR_STATUS.PHASE 2
def colonAt (k st ph : Nat) : State := ((slept st).setLad 0 { run.ladOf 0 with colon := k }).p 0 R.PWR_STATUS.PHASE ph
theorem witness_LadderComplete :
    (Canonical run ∧ Reaches run cm 0 ⟨.PWR_CTRL, 0, 0⟩ ∧ run.on 0 R.PWR_STATUS.PEND = false ∧ ladPhase run 0 = LPhase.steady ∧
      ladState run 0 < 3 ∧ (3 : Nat) ≤ 3) ∧
    (Reaches run cm 0 ⟨.PWR_CTRL, 0, 0⟩ ∧ run.on 0 R.PWR_STATUS.PEND = false ∧ ladPhase run 0 = LPhase.steady ∧ Canonical run ∧ (4 : Fin 8) = 4) ∧
    (Reaches run cm 0 ⟨.PWR_CTRL, 0, 0⟩ ∧ run.on 0 R.PWR_STATUS.PEND = false ∧ ladPhase run 0 = LPhase.steady ∧ Canonical run ∧ (5 : Fin 8) ≤ 7) ∧
    (Canonical duo ∧ Reaches duo cm 0 ⟨.PWR_CTRL, 0, 0⟩ ∧ ladPhase duo 0 = LPhase.steady ∧ (0 : Nat) = duo.head ∧
      (∀ d ∈ duo.dies, duo.on d R.PWR_STATUS.PEND = false) ∧ (4 : Fin 8) = 4) ∧
    ((ladPhase (enters 2 false) 0 = LPhase.entering ∧ ((enters 2 false).ladOf 0).drained = false ∧ ((enters 2 false).ladOf 0).trip = false ∧
      ((enters 2 false).ladOf 0).goal = 2 ∧ blockerOf (enters 2 false) 0 2 = 0) ∧
    (ladPhase (enters 3 false) 0 = LPhase.entering ∧ ((enters 3 false).ladOf 0).drained = false ∧ ((enters 3 false).ladOf 0).goal = 3 ∧
      blockerOf (enters 3 false) 0 3 = 0 ∧ netWaits (enters 3 false) 0 = false) ∧
    (ladPhase entryBlocked 0 = LPhase.entering ∧ (entryBlocked.ladOf 0).drained = false ∧ (entryBlocked.ladOf 0).trip = false ∧
      blockerOf entryBlocked 0 (entryBlocked.ladOf 0).goal = Blocker.flash ∧ (entryBlocked.ladOf 0).goal ≠ Ladder.fullStop)) ∧
    ((ladPhase (enters 2 true) 0 = LPhase.entering ∧ ((enters 2 true).ladOf 0).drained = true ∧
      ((enters 2 true).ladOf 0).goal ≠ Ladder.fullStop ∧ (((enters 2 true).ladOf 0).trip = true ∨ blockerOf (enters 2 true) 0 2 = 0)) ∧
    (wakeThere hears 0 .frame = true) ∧
    (timerS.dies.filter (fun d => (timerS.ladOf d).timer && timerS.belowRun d) = [0] ∧ timerS.on 0 R.PWR_CFG.WAKE_TIMER = true) ∧
    (((slept 2).p 0 R.PWR_CFG.WAKE_SMBUS 1).on run.head R.PWR_CFG.WAKE_SMBUS = true) ∧
    (ladPhase (leaves 1) 0 = LPhase.exiting ∧ (leaves 1).boot.inReset = none ∧ ladState (leaves 1) 0 = Ladder.comma) ∧
    (ladPhase (leaves 2) 0 = LPhase.exiting ∧ (leaves 2).boot.inReset = none ∧ ladState (leaves 2) 0 = Ladder.semicolon) ∧
    (ladPhase (leaves 3) 0 = LPhase.exiting ∧ ladState (leaves 3) 0 = Ladder.colon ∧ ((leaves 3).ladOf 0).colon = 0)) ∧
    ((ladPhase (leaves 4) 0 = LPhase.exiting ∧ (leaves 4).boot.inReset = none ∧ ladState (leaves 4) 0 = Ladder.fullStop ∧
      (leaves 4).phase ≠ Phase.housekeep ∧ ∀ d ∈ (leaves 4).dies, ladState (leaves 4) d = Ladder.fullStop ∧
      ladPhase (leaves 4) d = LPhase.exiting ∧ rootState (leaves 4) d = Root.off) ∧
    (((colonAt 1 3 2).ladOf 0).colon = 1 ∧ ladPhase (colonAt 1 3 2) 0 = LPhase.exiting) ∧
    (((colonAt 2 0 0).ladOf 0).colon = 2 ∧ ladState (colonAt 2 0 0) 0 < Ladder.colon)) :=
  ⟨by unfold Canonical Reaches; decide +kernel,
    by unfold Canonical Reaches; decide +kernel,
    by unfold Canonical Reaches; decide +kernel,
    by unfold Canonical Reaches; decide +kernel,
    by decide +kernel,
    by decide +kernel,
    by decide +kernel⟩

def warm (t : Nat) : State := run.p 0 R.THM_TEMP.TEMP t
def plantMid (s : State) (r : List (BitVec 16)) : State := heaterStep (critStep { fanSpeeds s r with thm := thmTick s.thm } (plantT s)) (plantT s)
def plantD (s : State) (r : List (BitVec 16)) : Int × State := loopStep (plantMid s r) (plantT s)
def rpm2 : List (BitVec 16) := [3000, 0]
def coldS : State := { warm 0xFF00 with thm := ⟨40000, 50000, ⟨0, 0⟩, ⟨0, 0⟩, 100000⟩ }
def fanS (st tr : Nat) : State := { run with thm := { run.thm with fan1 := ⟨0, tr⟩ } }.p 0 (R.THM_FAN_STATUS.STATE 1) st
def fanR (s : State) (rpm : Nat) : State := s.p 0 (R.THM_FAN_STATUS.RPM 1) rpm
def spinX : Nat := written (fanS 3 0) 0 ⟨.THM_SPIN_CFG, 0, 0⟩ (named (fanS 3 0) 0 ⟨.THM_SPIN_CFG, 0, 0⟩ [(R.THM_SPIN_CFG.FAN_RETRY, 1)])
def rails : List (BitVec 16) := [750, 900, 1100, 1200, 1800, 3300]
def monX : Nat := written run 0 ⟨.MON_CTRL, 15, 0⟩ 0x80000000
def monS : State := (run.p 0 (R.MON_CTRL.EN 15) 1).p 0 (R.MON_SRC.SRC 15) 3
def winEnd : State := monStart ((monFreeze monS 0 15).p 0 (R.MON_CTRL.DONE 15) 1) 0 15
theorem witness_PlantComplete :
    ((plantRuns (warm 900) = true ∧ plantT (warm 900) = 900) ∧
    (plantRuns coldS = true ∧ (plantMid coldS rpm2).on (plantMid coldS rpm2).head R.THM_STATUS.HEATER = true) ∧
    (plantRuns (fanS 1 0) = true ∧ Canonical (fanS 1 0) ∧ fanState (fanS 1 0) 1 = FanState.spinup ∧
      (fanS 1 0).g 0 R.THM_SPIN_CFG.SPIN_RPM ≤ (0xFFFF#16).toNat)) ∧
    (plantRuns (fanS 1 2) = true ∧ Canonical (fanS 1 2) ∧ fanState (fanS 1 2) 1 = FanState.spinup ∧
      (0#16).toNat < (fanS 1 2).g 0 R.THM_SPIN_CFG.SPIN_RPM ∧ 2 ≤ ((fanS 1 2).thm.fan 1).tries) ∧
    ((plantRuns (fanS 1 1) = true ∧ Canonical (fanS 1 1) ∧ ((fanS 1 1).thm.fan 1).tries < 2 ∧ fanState (fanS 1 1) 1 = FanState.spinup ∧
      (0#16).toNat < (fanS 1 1).g 0 R.THM_SPIN_CFG.SPIN_RPM) ∧
    (plantRuns (fanS 2 0) = true ∧ fanState (fanS 2 0) 1 = FanState.run ∧ 2 * (1#16).toNat < (fanS 2 0).g 0 R.THM_SPIN_CFG.SPIN_RPM)) ∧
    ((Reaches (fanS 3 0) cm 0 ⟨.THM_SPIN_CFG, 0, 0⟩ ∧ (fanS 3 0).g 0 R.THM_SPIN_CFG.PPR ≠ 0 ∧ (fanS 3 0).g 0 R.THM_SPIN_CFG.SPIN_TIME ≠ 0) ∧
    (run.present 0 = true ∧ (warm 1200).boot.inReset ≠ some .power ∧ 1200 ≤ dieTemp (warm 1200) 0 ∧ (warm 1200).boot.lockdown = false) ∧
    (run.present 0 = true ∧ run.boot.inReset ≠ some .power ∧ rails.length = 6)) ∧
    ((run.present 0 = true ∧ run.boot.inReset ≠ some .power) ∧
    (Reaches run cm 0 ⟨.MON_CTRL, 15, 0⟩ ∧ (R.MON_CTRL.EN 0).of monX = 1) ∧
    (monS.present 0 = true ∧ monS.on 0 (R.MON_CTRL.EN 15) = true ∧ monS.g 0 (R.MON_SRC.SRC 15) ≠ 0 ∧ monS.belowRun 0 = false) ∧
    (monS.present 0 = true ∧ monS.on 0 (R.MON_CTRL.EN 15) = true ∧ winEnd.on 0 (R.MON_CTRL.CONT 15) = false)) :=
  ⟨by unfold Canonical; decide +kernel,
    by unfold Canonical; decide +kernel,
    by unfold Canonical; decide +kernel,
    by unfold Reaches; decide +kernel,
    by unfold Reaches; decide +kernel⟩

end Sys2Proof.Tests
end

/-! # What every command keeps: the identity of the device, the queue and the form of the register cells -/

section
-- The proofs are many and short: one after the other they need one thread's stack, and no proof waits for another.
set_option Elab.async false
namespace Sys2Proof.Machine

/-- State `s` has what the device is made with and the queue of `o`, and its register cells are canonical if those of `o` are. Each lemma
`Kept.f` below says that the operation `f` keeps this, so the proof of a meaning is the chain of the operations it is made of. -/
structure Kept (o s : State) : Prop where
  dev : s.dev = o.dev
  pending : s.pending = o.pending
  cells : Canonical o → Canonical s

section
variable {o s t u : State}

theorem Kept.refl (s : State) : Kept s s := ⟨rfl, rfl, id⟩

/-- A state that differs in other fields only. -/
theorem Kept.congr (h : Kept o s) (hd : t.dev = s.dev := by rfl) (hq : t.pending = s.pending := by rfl)
    (hr : t.rf = s.rf := by rfl) : Kept o t :=
  ⟨hd.trans h.dev, hq.trans h.pending, fun c => by unfold Canonical; rw [hr]; exact h.cells c⟩

/-! ## The ways in which a meaning is put together -/

theorem Kept.ite {c : Prop} [Decidable c] (ht : Kept o t) (hu : Kept o u) : Kept o (if c then t else u) := by
  split
  · exact ht
  · exact hu

/-- A state that goes on from `s` only if a condition holds. -/
theorem Kept.when {c : Prop} [Decidable c] (ht : Kept o s → Kept o t) (h : Kept o s) : Kept o (if c then t else s) :=
  .ite (ht h) h

theorem Kept.unless {c : Prop} [Decidable c] (ht : Kept o s → Kept o t) (h : Kept o s) : Kept o (if c then s else t) :=
  .ite h (ht h)

/-- A state that goes on from `s` either way. -/
theorem Kept.both {c : Prop} [Decidable c] (ht : Kept o s → Kept o t) (hu : Kept o s → Kept o u) (h : Kept o s) :
    Kept o (if c then t else u) := .ite (ht h) (hu h)

theorem Kept.foldl {α : Type} {f : State → α → State} {l : List α} (hf : ∀ t x, Kept o t → Kept o (f t x)) (h : Kept o s) :
    Kept o (l.foldl f s) := by
  induction l generalizing s with
  | nil => exact h
  | cons x l ih => exact ih (hf s x h)

/-- A fold over a value that holds a state, whose steps keep it for the members of the list. -/
theorem Kept.foldlMem {α β : Type} (g : β → State) {f : β → α → β} {l : List α} {b : β}
    (hf : ∀ b, ∀ x ∈ l, Kept o (g b) → Kept o (g (f b x))) (h : Kept o (g b)) : Kept o (g (l.foldl f b)) := by
  induction l generalizing b with
  | nil => exact h
  | cons x l ih => exact ih (fun b y hy => hf b y (List.mem_cons_of_mem x hy)) (hf b x List.mem_cons_self h)

theorem Kept.foldlOf {α β : Type} (g : β → State) {f : β → α → β} {l : List α} {b : β}
    (hf : ∀ b x, Kept o (g b) → Kept o (g (f b x))) (h : Kept o (g b)) : Kept o (g (l.foldl f b)) :=
  .foldlMem g (fun b x _ => hf b x) h

theorem Kept.second {α : Type} {a : α} (h : Kept o t) : Kept o (a, t).2 := h

theorem Kept.snd {α : Type} {x : α × State} {a : α} (h : Kept o x.2) (e : x = (a, t)) : Kept o t := by
  subst e; exact h

theorem Kept.fst {α : Type} {x : State × α} {a : α} (h : Kept o x.1) (e : x = (t, a)) : Kept o t := by
  subst e; exact h

theorem Kept.snd2 {α β : Type} {x : α × β × State} {a : α} {b : β} (h : Kept o x.2.2) (e : x = (a, b, t)) : Kept o t := by
  subst e; exact h

/-- A command's answer is a next state that is kept. -/
inductive NextKept (o : State) : Host.Outcome State Fault Refusal → Prop where
  | next {t : State} (h : Kept o t) : NextKept o (.next t)

theorem NextKept.ite {c : Prop} [Decidable c] {x y : Host.Outcome State Fault Refusal} (hx : NextKept o x) (hy : NextKept o y) :
    NextKept o (if c then x else y) := by
  split
  · exact hx
  · exact hy

/-- The state that an operation answers, if it answers one, is kept. -/
inductive OptKept (o : State) : Option State → Prop where
  | none : OptKept o .none
  | some {t : State} (h : Kept o t) : OptKept o (.some t)

theorem OptKept.ite {c : Prop} [Decidable c] {x y : Option State} (hx : OptKept o x) (hy : OptKept o y) :
    OptKept o (if c then x else y) := by
  split
  · exact hx
  · exact hy

theorem OptKept.get {x : Option State} (h : OptKept o x) (e : x = .some t) : Kept o t := by
  subst e
  cases h with
  | some h => exact h

theorem OptKept.getD {x : Option State} (h : OptKept o x) (ht : Kept o t) : Kept o (x.getD t) := by
  cases h with
  | none => exact ht
  | some h => exact h

/-- The state of a trial that does not fail is kept. -/
inductive TryKept {ε : Type} (o : State) : Except ε State → Prop where
  | error {e : ε} : TryKept o (.error e)
  | ok {t : State} (h : Kept o t) : TryKept o (.ok t)

theorem TryKept.ite {ε : Type} {c : Prop} [Decidable c] {x y : Except ε State} (hx : TryKept o x) (hy : TryKept o y) :
    TryKept o (if c then x else y) := by
  split
  · exact hx
  · exact hy

theorem TryKept.get {ε : Type} {x : Except ε State} (h : TryKept o x) (e : x = .ok t) : Kept o t := by
  subst e
  cases h with
  | ok h => exact h

/-- The state that an engine's instruction leaves, if it raises no error, is kept. -/
inductive SeKept (o : State) : SeRes → Prop where
  | err {code resp ch : Nat} : SeKept o (.err code resp ch)
  | ok {t : State} {e : SEng} {npc : Option Nat} (h : Kept o t) : SeKept o (.ok t e npc)

theorem SeKept.ite {c : Prop} [Decidable c] {x y : SeRes} (hx : SeKept o x) (hy : SeKept o y) : SeKept o (if c then x else y) := by
  split
  · exact hx
  · exact hy

theorem SeKept.get {x : SeRes} {e : SEng} {npc : Option Nat} (h : SeKept o x) (hx : x = .ok t e npc) : Kept o t := by
  subst hx
  cases h with
  | ok h => exact h

/-! ## The fields of the state but the three -/

theorem Kept.withReply {x} (h : Kept o s) : Kept o { s with reply := x } := .congr h
theorem Kept.withFresh {x} (h : Kept o s) : Kept o { s with fresh := x } := .congr h
theorem Kept.withBoot {x} (h : Kept o s) : Kept o { s with boot := x } := .congr h
theorem Kept.withHolds {x} (h : Kept o s) : Kept o { s with holds := x } := .congr h
theorem Kept.withClk {x} (h : Kept o s) : Kept o { s with clk := x } := .congr h
theorem Kept.withCkmux {x} (h : Kept o s) : Kept o { s with ckmux := x } := .congr h
theorem Kept.withEvs {x} (h : Kept o s) : Kept o { s with evs := x } := .congr h
theorem Kept.withPulses {x} (h : Kept o s) : Kept o { s with pulses := x } := .congr h
theorem Kept.withUsr {x} (h : Kept o s) : Kept o { s with usr := x } := .congr h
theorem Kept.withSnt {x} (h : Kept o s) : Kept o { s with snt := x } := .congr h
theorem Kept.withMbox {x} (h : Kept o s) : Kept o { s with mbox := x } := .congr h
theorem Kept.withMset {x} (h : Kept o s) : Kept o { s with mset := x } := .congr h
theorem Kept.withSmbPub {x} (h : Kept o s) : Kept o { s with smbPub := x } := .congr h
theorem Kept.withSmbHost {x} (h : Kept o s) : Kept o { s with smbHost := x } := .congr h
theorem Kept.withLad {x} (h : Kept o s) : Kept o { s with lad := x } := .congr h
theorem Kept.withThm {x} (h : Kept o s) : Kept o { s with thm := x } := .congr h
theorem Kept.withMon {x} (h : Kept o s) : Kept o { s with mon := x } := .congr h
theorem Kept.withCfg {x} (h : Kept o s) : Kept o { s with cfg := x } := .congr h
theorem Kept.withFab {x} (h : Kept o s) : Kept o { s with fab := x } := .congr h
theorem Kept.withSe {x} (h : Kept o s) : Kept o { s with se := x } := .congr h
theorem Kept.withDfd {x} (h : Kept o s) : Kept o { s with dfd := x } := .congr h
theorem Kept.withBnk {x} (h : Kept o s) : Kept o { s with bnk := x } := .congr h
theorem Kept.withCoh {x} (h : Kept o s) : Kept o { s with coh := x } := .congr h
theorem Kept.withBdl {x} (h : Kept o s) : Kept o { s with bdl := x } := .congr h
theorem Kept.withDrm {x} (h : Kept o s) : Kept o { s with drm := x } := .congr h
theorem Kept.withLan {x} (h : Kept o s) : Kept o { s with lan := x } := .congr h
theorem Kept.withPen {x} (h : Kept o s) : Kept o { s with pen := x } := .congr h
theorem Kept.withSec {x} (h : Kept o s) : Kept o { s with sec := x } := .congr h
theorem Kept.withHarts {x} (h : Kept o s) : Kept o { s with harts := x } := .congr h

/-! ## Cells -/

theorem Kept.setCell {k v} (h : Kept o s) : Kept o (s.setCell k v) :=
  ⟨h.dev, h.pending, fun c => SMap.wf_set cellRst s.rf k v (h.cells c)⟩

theorem Kept.resetCells {p} (h : Kept o s) : Kept o (s.resetCells p) :=
  ⟨h.dev, h.pending, fun c => SMap.wf_keep cellRst s.rf (fun k => !(p k)) (h.cells c)⟩

/-! ## Machine/Ops.lean -/

theorem Kept.p {s d f v} (h : Kept o s) : Kept o (s.p d f v) :=
  .setCell h

theorem Kept.setBit {s d f n} (h : Kept o s) : Kept o (s.setBit d f n) :=
  .p h

theorem Kept.clrBit {s d f n} (h : Kept o s) : Kept o (s.clrBit d f n) :=
  .p h

theorem Kept.inc {s d f n} (h : Kept o s) : Kept o (s.inc d f n) :=
  .p h

theorem Kept.incSat {s d f} (h : Kept o s) : Kept o (s.incSat d f) :=
  .p h

theorem Kept.ans {s r} (h : Kept o s) : Kept o (s.ans r) :=
  .withReply h

theorem Kept.noAnswer {s} (h : Kept o s) : Kept o (s.noAnswer) :=
  .ans h

theorem Kept.ansData {s r v} (h : Kept o s) : Kept o (s.ansData r v) :=
  .withReply h

theorem Kept.free {s w} (h : Kept o s) : Kept o (s.free w).2 :=
  .withFresh h

theorem Kept.each {s l f} (hf : ∀ t x, Kept o t → Kept o (f t x)) (h : Kept o s) : Kept o (s.each l f) :=
  .foldl hf h

theorem Kept.onDies {s f} (hf : ∀ t x, Kept o t → Kept o (f t x)) (h : Kept o s) : Kept o (s.onDies f) :=
  .each hf h

theorem Kept.pAll {s f v} (h : Kept o s) : Kept o (s.pAll f v) :=
  .onDies (fun _ _ => .p) h

theorem Kept.setClk {s d c} (h : Kept o s) : Kept o (s.setClk d c) :=
  .withClk h

theorem Kept.setSnt {s d c} (h : Kept o s) : Kept o (s.setSnt d c) :=
  .withSnt h

theorem Kept.setLad {s d c} (h : Kept o s) : Kept o (s.setLad d c) :=
  .withLad h

theorem Kept.setMbox {s d c} (h : Kept o s) : Kept o (s.setMbox d c) :=
  .withMbox h

theorem Kept.setCk {s d i c} (h : Kept o s) : Kept o (s.setCk d i c) :=
  .withCkmux h

theorem Kept.setMon {s d m c} (h : Kept o s) : Kept o (s.setMon d m c) :=
  .withMon h

theorem Kept.setEv {s r n c} (h : Kept o s) : Kept o (s.setEv r n c) :=
  .withEvs h

theorem Kept.setPhase {s v} (h : Kept o s) : Kept o (s.setPhase v) :=
  .pAll h

theorem Kept.pulseTo {s l n} (h : Kept o s) : Kept o (s.pulseTo l n) :=
  .withPulses h

/-! ## Machine/Access.lean -/

theorem Kept.setReg {s d r v} (h : Kept o s) : Kept o (s.setReg d r v) :=
  .p h

theorem Kept.store {s w} (h : Kept o s) : Kept o (s.store w) :=
  .ans (.setReg h)

theorem Kept.storeIf {s w c} (h : Kept o s) : Kept o (s.storeIf w c) :=
  .ite (.store h) (.ans h)

/-! ## Machine/Store.lean -/

theorem Kept.newEpoch {s} (h : Kept o s) : Kept o (s.newEpoch).2 :=
  .withFresh h

theorem Kept.setBankWord {s B w x} (h : Kept o s) : Kept o (s.setBankWord B w x) :=
  .withBnk h

theorem Kept.clearBank {s B e} (h : Kept o s) : Kept o (s.clearBank B e) :=
  .withBnk h

theorem Kept.zeroBank {s B} (h : Kept o s) : Kept o (s.zeroBank B) :=
  .clearBank h

theorem Kept.loseBank {s B} (h : Kept o s) : Kept o (s.loseBank B) :=
  .clearBank (.newEpoch h)

theorem Kept.setBankSt {s B x} (h : Kept o s) : Kept o (s.setBankSt B x) :=
  .withBnk h

theorem Kept.setDcell {s ch w x} (h : Kept o s) : Kept o (s.setDcell ch w x) :=
  .withDrm h

theorem Kept.loseDram {s ch} (h : Kept o s) : Kept o (s.loseDram ch) :=
  .withDrm (.newEpoch h)

theorem Kept.setDsub {s k x} (h : Kept o s) : Kept o (s.setDsub k x) :=
  .withDrm h

theorem Kept.setTrainCopy {s ch x} (h : Kept o s) : Kept o (s.setTrainCopy ch x) :=
  .withDrm h

theorem Kept.setMee {s ch x} (h : Kept o s) : Kept o (s.setMee ch x) :=
  .withDrm h

theorem Kept.setFrameWord {s d fa w v} (h : Kept o s) : Kept o (s.setFrameWord d fa w v) :=
  .withCfg h

theorem Kept.setFrame {s d fa ws} (h : Kept o s) : Kept o (s.setFrame d fa ws) :=
  .foldl (fun _ _ => .setFrameWord) h

theorem Kept.setSig {s d fa v} (h : Kept o s) : Kept o (s.setSig d fa v) :=
  .withCfg h

theorem Kept.setDynMark {s d fa v} (h : Kept o s) : Kept o (s.setDynMark d fa v) :=
  .withCfg h

theorem Kept.setCfg {s c} (h : Kept o s) : Kept o (s.setCfg c) :=
  .withCfg h

theorem Kept.setWarm {s d x} (h : Kept o s) : Kept o (s.setWarm d x) :=
  .withCfg h

theorem Kept.setHeld {s d x} (h : Kept o s) : Kept o (s.setHeld d x) :=
  .withCfg h

theorem Kept.setParse {s p} (h : Kept o s) : Kept o (s.setParse p) :=
  .withCfg h

theorem Kept.setFlash {s f} (h : Kept o s) : Kept o (s.setFlash f) :=
  .withCfg h

theorem Kept.setFlashByte {s a v} (h : Kept o s) : Kept o (s.setFlashByte a v) :=
  .withCfg h

theorem Kept.setFlashBytes {s a l} (h : Kept o s) : Kept o (s.setFlashBytes a l) :=
  .foldl (fun _ _ => .setFlashByte) h

theorem Kept.loseFlash {s a n} (h : Kept o s) : Kept o (s.loseFlash a n) :=
  .foldl (fun _ _ => .withCfg) (.newEpoch h)

theorem Kept.setDesign {s d x} (h : Kept o s) : Kept o (s.setDesign d x) :=
  .withFab h

theorem Kept.setPins {s d x} (h : Kept o s) : Kept o (s.setPins d x) :=
  .withFab h

theorem Kept.setFf {s d k v} (h : Kept o s) : Kept o (s.setFf d k v) :=
  .withFab h

theorem Kept.setLut {s d k v} (h : Kept o s) : Kept o (s.setLut d k v) :=
  .withFab h

theorem Kept.setChain {s d k x} (h : Kept o s) : Kept o (s.setChain d k x) :=
  .withFab h

theorem Kept.setIo {s d p x} (h : Kept o s) : Kept o (s.setIo d p x) :=
  .withFab h

theorem Kept.setBmem {s d k x} (h : Kept o s) : Kept o (s.setBmem d k x) :=
  .withFab h

theorem Kept.setArith {s d k x} (h : Kept o s) : Kept o (s.setArith d k x) :=
  .withFab h

theorem Kept.setSnap {s d x} (h : Kept o s) : Kept o (s.setSnap d x) :=
  .withFab h

theorem Kept.setRb {s d x} (h : Kept o s) : Kept o (s.setRb d x) :=
  .withFab h

theorem Kept.setFifo {s d n x} (h : Kept o s) : Kept o (s.setFifo d n x) :=
  .p (.withFab h)

theorem Kept.setKslot {s d k x} (h : Kept o s) : Kept o (s.setKslot d k x) :=
  .p (.withFab h)

theorem Kept.setNport {s d p x} (h : Kept o s) : Kept o (s.setNport d p x) :=
  .withFab h

theorem Kept.setPr {s d r x} (h : Kept o s) : Kept o (s.setPr d r x) :=
  .withFab h

theorem Kept.setSeu {s d x} (h : Kept o s) : Kept o (s.setSeu d x) :=
  .p (.p (.withFab h))

theorem Kept.setEng {s d i e} (h : Kept o s) : Kept o (s.setEng d i e) :=
  .p (.p (.p (.withSe h)))

theorem Kept.setSeLate {s d i l} (h : Kept o s) : Kept o (s.setSeLate d i l) :=
  .withSe h

theorem Kept.setDmWord {s d i w x} (h : Kept o s) : Kept o (s.setDmWord d i w x) :=
  .withSe h

theorem Kept.setPmWord {s d i n x} (h : Kept o s) : Kept o (s.setPmWord d i n x) :=
  .withSe h

theorem Kept.zeroSeMem {s d i} (h : Kept o s) : Kept o (s.zeroSeMem d i) :=
  .withSe h

theorem Kept.putDfd {s d x} (h : Kept o s) : Kept o (s.putDfd d x) :=
  .withDfd h

theorem Kept.sendCpl {s d c} (h : Kept o s) : Kept o (s.sendCpl d c) :=
  .putDfd h

theorem Kept.setLane {s d n x} (h : Kept o s) : Kept o (s.setLane d n x) :=
  .withLan h

theorem Kept.setPair {s d k x} (h : Kept o s) : Kept o (s.setPair d k x) :=
  .withLan h

theorem Kept.setQclk {s d q hz} (h : Kept o s) : Kept o (s.setQclk d q hz) :=
  .withLan h

theorem Kept.setPen {s x} (h : Kept o s) : Kept o (s.setPen x) :=
  .withPen h

theorem Kept.setPenDie {s d x} (h : Kept o s) : Kept o (s.setPenDie d x) :=
  .p (.setPen h)

theorem Kept.setL2 {s t i x} (h : Kept o s) : Kept o (s.setL2 t i x) :=
  .setPen h

theorem Kept.setWindow {s t i x} (h : Kept o s) : Kept o (s.setWindow t i x) :=
  .setPen h

theorem Kept.setVlanWord {s d v w x} (h : Kept o s) : Kept o (s.setVlanWord d v w x) :=
  .setPen h

theorem Kept.setNhop {s d i x} (h : Kept o s) : Kept o (s.setNhop d i x) :=
  .setPen h

theorem Kept.setPaused {s d e q x} (h : Kept o s) : Kept o (s.setPaused d e q x) :=
  .setPen h

theorem Kept.setDeficit {s d e q x} (h : Kept o s) : Kept o (s.setDeficit d e q x) :=
  .setPen h

theorem Kept.setDrr {s d e x} (h : Kept o s) : Kept o (s.setDrr d e x) :=
  .setPen h

theorem Kept.setHello {s d p x} (h : Kept o s) : Kept o (s.setHello d p x) :=
  .setPen h

theorem Kept.setRingAck {s d r x} (h : Kept o s) : Kept o (s.setRingAck d r x) :=
  .setPen h

theorem Kept.setAir {s d e x} (h : Kept o s) : Kept o (s.setAir d e x) :=
  .setPen h

theorem Kept.setYout {s d x} (h : Kept o s) : Kept o (s.setYout d x) :=
  .setPen h

theorem Kept.setCopy {s q line x} (h : Kept o s) : Kept o (s.setCopy q line x) :=
  .withCoh h

theorem Kept.setDir {s line x} (h : Kept o s) : Kept o (s.setDir line x) :=
  .withCoh h

theorem Kept.setNet {s rid tag x} (h : Kept o s) : Kept o (s.setNet rid tag x) :=
  .withCoh h

theorem Kept.sendNet {s q tag place} (h : Kept o s) : Kept o (s.sendNet q tag place) :=
  .setNet (.withCoh h)

theorem Kept.setHart {s k x} (h : Kept o s) : Kept o (s.setHart k x) :=
  .withHarts h

/-! ## Machine/Boot.lean -/

theorem OptKept.addTrial {s seq kind} (h : Kept o s) : OptKept o (s.addTrial seq kind) := by
  unfold State.addTrial
  cases s.blankPage with
  | none => exact .none
  | some a => exact .some (.setFlashBytes h)

theorem Kept.cutTrial {s} (h : Kept o s) : Kept o (s.cutTrial) := by
  unfold State.cutTrial
  split
  · exact h
  · exact .setFlashBytes (.withFresh h)

theorem Kept.makePlan {s attempt} (h : Kept o s) : Kept o (makePlan s attempt) := by
  unfold Machine.makePlan
  dsimp only
  split
  · exact .setFlash (.p (.setFlash h))
  · refine .setFlash ?_
    refine .p ?_
    split
    · split
      · exact .p (.p (.setFlash h))
      · split
        · split
          · next e => exact ((OptKept.addTrial (.p (.p (.setFlash h)))).get e)
          · exact .p (.p (.setFlash h))
        · exact .cutTrial (.p (.p (.setFlash h)))
    · exact .p (.p (.setFlash h))

/-! ## Machine/Operands.lean -/

theorem Kept.pulse {s d n} (h : Kept o s) : Kept o (s.pulse d n) :=
  .pulseTo h

/-! ## Machine/Rights.lean -/

theorem Kept.wakeDie {s d src} (h : Kept o s) : Kept o (wakeDie s d src) :=
  .ite (.p (.setLad h)) (.ite (.p (.p h)) h)

/-! ## Machine/Reset.lean -/

theorem Kept.resetRegs {s sc} (h : Kept o s) : Kept o (resetRegs s sc) :=
  .foldl (fun _ _ => .setCell) h

theorem Kept.secAbort {s} (h : Kept o s) : Kept o (secAbort s) := by
  unfold Machine.secAbort
  split
  · exact h
  · exact .withSec (.withFresh h)

theorem Kept.nvcAbort {s} (h : Kept o s) : Kept o (nvcAbort s) :=
  .setFlash (.ite (.loseFlash h) (.ite (.loseFlash h) h))

theorem Kept.lanePins {s d} (h : Kept o s) : Kept o (lanePins s d) :=
  .foldl (fun _ _ h => .p (.p h)) (.foldl (fun _ _ => .p) (.foldl (fun _ _ h => .p (.p h)) h))

theorem Kept.blankLanes {s} (h : Kept o s) : Kept o (blankLanes s) :=
  .each (fun _ _ => .lanePins) h

theorem Kept.edgesTrain {s d} (h : Kept o s) : Kept o (edgesTrain s d) :=
  .foldl (fun _ _ h => .ite (.p h) h) h

theorem Kept.showRepair {s d} (h : Kept o s) : Kept o (showRepair s d) :=
  .foldl (fun _ _ => .p) h

theorem Kept.showIdent {s d} (h : Kept o s) : Kept o (showIdent s d) :=
  .showRepair (.p (.p (.p (.p (.p (.foldl (fun _ _ => .p) (.foldl (fun _ _ => .p) h)))))))

theorem Kept.showGrade {s d} (h : Kept o s) : Kept o (showGrade s d) :=
  .p (.p (.p h))

theorem Kept.dieShow {s d} (h : Kept o s) : Kept o (dieShow s d) :=
  .showIdent (.edgesTrain (.lanePins h))

theorem Kept.rootStart {s d} (h : Kept o s) : Kept o (rootStart s d) :=
  .ite (.p h) h

theorem Kept.resetBanks {s d} (h : Kept o s) : Kept o (resetBanks s d) :=
  .foldl (fun _ _ h => .ite (.zeroBank h) (.loseBank h)) h

theorem Kept.resetDram {s sc d} (h : Kept o s) : Kept o (resetDram s sc d) :=
  .foldl (fun _ _ h => .ite (.setTrainCopy (.setDsub (.setDsub h))) (.setMee (.setTrainCopy (.loseDram (.setDsub (.setDsub h)))))) h

theorem Kept.noteFuseFail {s} (h : Kept o s) : Kept o (noteFuseFail s) :=
  .ite (.p (.p h)) h

/-- A state with the cells that a reset leaves of those of `s`. -/
theorem Kept.ofResetRegs {sc} (h : Kept o s) (hd : t.dev = s.dev := by rfl) (hq : t.pending = s.pending := by rfl)
    (hr : t.rf = (Machine.resetRegs s sc).rf := by rfl) : Kept o t :=
  ⟨hd.trans h.dev, hq.trans h.pending, fun c => by unfold Canonical; rw [hr]; exact (Kept.resetRegs h).cells c⟩

theorem Kept.clearDevice {s sc} (h : Kept o s) : Kept o (clearDevice s sc) :=
  .both (fun h' => .p (.p (.p h'))) (fun h' => .p (.p h')) <| .when .noteFuseFail <| .when (fun h' => .p (.p h')) <|
    .onDies
      (fun _ _ h =>
         .when (fun h' => .p (.p h')) <|
           .both .rootStart (fun h' => .ite h' (.p (.p h'))) (.p (.p (.p (.p (.p (.p (.p (.p (.ite h (.dieShow h))))))))))) <|
    .when .congr <| .unless .blankLanes <| .unless .withClk <|
    .ofResetRegs (.nvcAbort (.secAbort (.when .cutTrial (.onDies (fun _ _ h => .resetDram (.resetBanks h)) h))))

theorem Kept.readStraps {s} (h : Kept o s) : Kept o (readStraps s) :=
  .ite (.withBoot (.withFresh h)) h

theorem Kept.fullReset {s sc cause origin detail} (h : Kept o s) : Kept o (fullReset s sc cause origin detail) :=
  .setPhase (.when .p (.withBoot (.onDies (fun _ _ h => .p (.p (.p h))) (.clearDevice (.ite h (.readStraps h))))))

theorem Kept.raiseReset {s sc cause origin detail} (h : Kept o s) : Kept o (raiseReset s sc cause origin detail) := by
  unfold Machine.raiseReset
  split
  · exact .ite (.fullReset h) h
  · exact .fullReset h

theorem Kept.internalReset {s} (h : Kept o s) : Kept o (internalReset s) :=
  .setPhase <| .setFlash <|
    .withBoot (.onDies (fun _ _ h => .p (.p h)) (.pAll (.pAll (.foldl (fun _ _ => .setCell) (.clearDevice (.readStraps h))))))

/-! ## Machine/Clock.lean -/

theorem Kept.setBitTo {s d f n v} (h : Kept o s) : Kept o (setBitTo s d f n v) :=
  .ite (.setBit h) (.clrBit h)

theorem Kept.setActive {s d n v} (h : Kept o s) : Kept o (setActive s d n v) :=
  .ite (.setClk h) (.setBitTo h)

theorem Kept.setQual {s d n v} (h : Kept o s) : Kept o (setQual s d n v) :=
  .ite (.setClk h) (.setBitTo h)

theorem Kept.setMarks {s d n timed meas} (h : Kept o s) : Kept o (setMarks s d n timed meas) :=
  .setClk h

theorem Kept.setRoot {s d v} (h : Kept o s) : Kept o (setRoot s d v) :=
  .p h

theorem Kept.fofsRest {s d} (h : Kept o s) : Kept o (fofsRest s d) :=
  .ite h (.p h)

theorem Kept.relockIfQualified {s d} (h : Kept o s) : Kept o (relockIfQualified s d) :=
  .ite (.setRoot h) h

theorem Kept.muxForce {s d n} (h : Kept o s) : Kept o (muxForce s d n) :=
  .relockIfQualified (.fofsRest (.setClk (.p (.p (.p (.p h))))))

theorem Kept.autoSwitch {s d} (h : Kept o s) : Kept o (autoSwitch s d) := by
  unfold Machine.autoSwitch
  split
  · split
    · exact .muxForce h
    · exact h
  · exact h

theorem Kept.clockFailure {s d} (h : Kept o s) : Kept o (clockFailure s d) :=
  .raiseReset h

theorem Kept.enterHoldover {s d} (h : Kept o s) : Kept o (enterHoldover s d) :=
  .setClk (.p (.setRoot h))

theorem Kept.rootLoss {s d} (h : Kept o s) : Kept o (rootLoss s d) :=
  .ite (.setRoot h) (.both (fun h' => .ite h' (.clockFailure h)) (fun h' => .ite h' h) (.autoSwitch (.enterHoldover h)))

theorem Kept.startAcquire {s d} (h : Kept o s) : Kept o (startAcquire s d) :=
  .ite (.setRoot h) h

theorem Kept.edgeLoss {s d n} (h : Kept o s) : Kept o (edgeLoss s d n) :=
  .both .p .setBit (.fofsRest (.setMarks (.setQual (.setActive h))))

theorem Kept.setAuto {s d v} (h : Kept o s) : Kept o (setAuto s d v) :=
  .when .setClk (.p h)

theorem Kept.writeRefCtrl {s w} (h : Kept o s) : Kept o (writeRefCtrl s w) :=
  .unless
    (fun h' =>
       .ite h' <| .ite h' <| .ite (.ite (.ans (.muxForce (.setAuto h))) h') <|
         .ite (.ite h' (.ans (.setClk (.p (.setAuto (.p h)))))) (.ans (.setAuto h))) <| .ans h

theorem Kept.writeRefPrio {s w} (h : Kept o s) : Kept o (writeRefPrio s w) :=
  .ite (.ans (.autoSwitch (.setReg h))) (.ans h)

theorem Kept.writeRefRatio {s w} (h : Kept o s) : Kept o (writeRefRatio s w) :=
  .ite (.ans (.ite (.edgeLoss (.setReg h)) (.fofsRest (.setReg h)))) (.ans h)

theorem Kept.writeRcvCtrl {s w} (h : Kept o s) : Kept o (writeRcvCtrl s w) :=
  .ite (.ans (.when .edgeLoss (.setReg h))) (.ans h)

theorem Kept.writeRootCfg {s w} (h : Kept o s) : Kept o (writeRootCfg s w) :=
  .storeIf h

theorem Kept.applyClosures {s d want} (h : Kept o s) : Kept o (applyClosures s d want).1 := by
  refine .foldlOf Prod.fst (fun a g ha => ?_) h
  split
  · exact ha
  · split
    · split
      · exact ha
      · exact .clrBit ha
    · exact ha

theorem Kept.applyOpenings {s d want} (h : Kept o s) : Kept o (applyOpenings s d want).1 := by
  refine .foldlOf Prod.fst (fun a g ha => ?_) h
  split
  · exact ha
  · split
    · split
      · exact ha
      · exact .setBit ha
    · exact ha

theorem Kept.gateRefused {s d b} (h : Kept o s) : Kept o (gateRefused s d b) :=
  .p (.p h)

theorem Kept.writeGate {s d k v} (h : Kept o s) : Kept o (writeGate s d k v) := by
  unfold Machine.writeGate
  dsimp only
  split
  · next e => exact .ans (.gateRefused h)
  · next e =>
      split
      · next e1 => exact .ans (.gateRefused h)
      · next e1 => exact .ans ((Kept.applyOpenings ((Kept.applyClosures h).fst e)).fst e1)

theorem Kept.writeFtap {s w} (h : Kept o s) : Kept o (writeFtap s w) :=
  .storeIf h

theorem Kept.altDone {s d x src} (h : Kept o s) : Kept o (altDone s d x src) :=
  .p (.p (.p h))

theorem Kept.altApply {s w x} (h : Kept o s) : Kept o (altApply s w x) :=
  .ite (.altDone (.p h)) (.ite h (.p (.p h)))

theorem Kept.writeAltCtrl {s w} (h : Kept o s) : Kept o (writeAltCtrl s w) :=
  .ite (.ans (.altApply (.altApply h))) (.ans h)

theorem Kept.setUpllGood {s d n v} (h : Kept o s) : Kept o (setUpllGood s d n v) :=
  .setClk h

theorem Kept.writeUpllCtrl {s w} (h : Kept o s) : Kept o (writeUpllCtrl s w) :=
  .ite (.ans (.unless (fun h' => .setUpllGood (.p (.p (.p h')))) (.setReg h))) (.ans h)

theorem Kept.writeUpllOut {s w} (h : Kept o s) : Kept o (writeUpllOut s w) :=
  .storeIf h

theorem Kept.upllLost {s d n} (h : Kept o s) : Kept o (upllLost s d n) :=
  .setBit (.p (.p h))

theorem Kept.writeClkMon {s w} (h : Kept o s) : Kept o (writeClkMon s w) :=
  .ite (.ans (.when .p (.setReg h))) (.ans h)

theorem Kept.writeClk {s w} (h : Kept o s) : Kept o (writeClk s w) := by
  unfold Machine.writeClk
  split
  · exact .writeRefCtrl h
  · exact .writeRefPrio h
  · exact .writeRefRatio h
  · exact .writeRcvCtrl h
  · exact .writeRootCfg h
  · exact .writeFtap h
  · exact .writeGate h
  · exact .writeGate h
  · exact .writeGate h
  · exact .writeGate h
  · exact .writeGate h
  · exact .writeAltCtrl h
  · exact .writeUpllCtrl h
  · exact .writeUpllOut h
  · exact .writeClkMon h
  · exact .store h

theorem NextKept.execRefMuxOldLow {die s} (h : Kept o s) : NextKept o (execRefMuxOldLow die s) :=
  .next (.ite (.setClk h) h)

theorem NextKept.execRefMuxNewLow {die s} (h : Kept o s) : NextKept o (execRefMuxNewLow die s) :=
  .next (.ite (.muxForce h) h)

theorem NextKept.execRefmuxStuck {die s} (h : Kept o s) : NextKept o (execRefmuxStuck die s) :=
  .next (.ite (.p (.p h)) h)

theorem NextKept.execRefEdgeLoss {die inp s} (h : Kept o s) : NextKept o (execRefEdgeLoss die inp s) :=
  .next (.ite (.edgeLoss h) h)

theorem Kept.markLate {s d n} (h : Kept o s) : Kept o (markLate s d n) :=
  .setClk h

theorem NextKept.execRefEdgeReturn {die inp s} (h : Kept o s) : NextKept o (execRefEdgeReturn die inp s) :=
  .next (.ite (.startAcquire (.markLate (.setActive h))) h)

theorem NextKept.execRefQualified {die inp s} (h : Kept o s) : NextKept o (execRefQualified die inp s) :=
  .next (.ite (.unless (fun h' => .autoSwitch (.relockIfQualified (.setQual h'))) (.setMarks h)) h)

theorem Kept.measureInput {d pass s n} (h : Kept o s) : Kept o (measureInput d pass s n) :=
  .ite (.ite (.when .setQual (.setMarks h)) (.setQual (.setMarks h))) h

theorem NextKept.execFreqMeasurement {die ppb fofs s} (h : Kept o s) : NextKept o (execFreqMeasurement die ppb fofs s) :=
  .next (.ite (.autoSwitch (.relockIfQualified (.when .rootLoss (.p (.setClk (.foldl (fun _ _ => .measureInput) h)))))) h)

theorem NextKept.execRootLock {die s} (h : Kept o s) : NextKept o (execRootLock die s) :=
  .next (.ite (.setClk (.setRoot h)) h)

theorem NextKept.execRootRefLoss {die s} (h : Kept o s) : NextKept o (execRootRefLoss die s) :=
  .next (.ite (.rootLoss h) h)

theorem NextKept.execRootPhaseLoss {die s} (h : Kept o s) : NextKept o (execRootPhaseLoss die s) :=
  .next (.ite (.relockIfQualified (.rootLoss h)) h)

theorem NextKept.execRootRelocked {die s} (h : Kept o s) : NextKept o (execRootRelocked die s) :=
  .next (.ite (.p (.setRoot h)) h)

theorem NextKept.execAnalogueUnlock {die s} (h : Kept o s) : NextKept o (execAnalogueUnlock die s) :=
  .next (.ite (.clockFailure h) h)

theorem NextKept.execHistValidSet {die s} (h : Kept o s) : NextKept o (execHistValidSet die s) :=
  .next (.ite (.p h) h)

theorem NextKept.execAltSwitchComplete {die mux s} (h : Kept o s) : NextKept o (execAltSwitchComplete die mux s) :=
  .next (.ite (.altDone h) h)

theorem NextKept.execAltStuck {die mux s} (h : Kept o s) : NextKept o (execAltStuck die mux s) :=
  .next (.ite (.p (.p h)) h)

theorem NextKept.execUpllMeasure {die n edges hz s} (h : Kept o s) : NextKept o (execUpllMeasure die n edges hz s) :=
  .next (.ite (.when .upllLost (.setUpllGood (.p (.p h)))) h)

theorem NextKept.execUpllLock {die n s} (h : Kept o s) : NextKept o (execUpllLock die n s) :=
  .next (.ite (.p h) h)

theorem NextKept.execUpllUnlock {die n s} (h : Kept o s) : NextKept o (execUpllUnlock die n s) :=
  .next (.ite (.upllLost h) h)

theorem NextKept.execCkmux2Sel {die mux sel s} (h : Kept o s) : NextKept o (execCkmux2Sel die mux sel s) :=
  .next (.setCk h)

theorem NextKept.execCkmux2Force {die mux force s} (h : Kept o s) : NextKept o (execCkmux2Force die mux force s) :=
  .next (.setCk h)

theorem NextKept.execCkmux2Stuck {die mux s atNew} (h : Kept o s) : NextKept o (execCkmux2Stuck die mux s atNew) :=
  .next (.ite (.setCk h) h)

theorem NextKept.execCkmux2SwitchComplete {die mux s} (h : Kept o s) : NextKept o (execCkmux2SwitchComplete die mux s) :=
  .next (.ite (.setCk h) h)

theorem NextKept.execClkMonDone {die count s} (h : Kept o s) : NextKept o (execClkMonDone die count s) :=
  .next (.ite (.p (.p (.p (.p h)))) h)

/-! ## Machine/Bank.lean -/

theorem Kept.bankCe {s d b} (h : Kept o s) : Kept o (bankCe s d b) :=
  .p (.incSat h)

theorem Kept.bankUe {s d b w syn} (h : Kept o s) : Kept o (bankUe s d b w syn) :=
  .unless (fun h' => .p (.p (.p (.p h')))) (.p (.incSat h))

theorem Kept.bankNote {s d b w} (h : Kept o s) : Kept o (bankNote s d b w) :=
  .when .bankUe (.ite (.bankCe h) h)

theorem Kept.bankPutWord {s d b w v} (h : Kept o s) : Kept o (bankPutWord s d b w v) :=
  .setBankWord h

theorem Kept.bankWriteWord {s d b w v be} (h : Kept o s) : Kept o (bankWriteWord s d b w v be) :=
  .ite (.bankPutWord h) (.ite h (.setBankWord (.when .incSat (.bankNote h))))

theorem Kept.rlcCnt {s q k} (h : Kept o s) : Kept o (rlcCnt s q k) :=
  .inc h

theorem Kept.cacheNote {s q c i} (h : Kept o s) : Kept o (cacheNote s q c i) :=
  .ite h (.when (fun h' => .p (.incSat h')) (.ite (.p (.incSat h)) h))

theorem Kept.wbLost {s q line r} (h : Kept o s) : Kept o (wbLost s q line r) :=
  .unless (fun h' => .p (.p (.p (.p h')))) (.p (.rlcCnt h))

theorem Kept.snoopAll {s line except f} (hf : ∀ t x, Kept o t → Kept o (f t x)) (h : Kept o s) : Kept o (snoopAll s line except f) := by
  unfold Machine.snoopAll
  split
  · exact .foldl (fun _ _ h => hf _ _ (.rlcCnt h)) h
  · exact h

theorem Kept.bankRecallLine {s d b line} (h : Kept o s) : Kept o (bankRecallLine s d b line) := by
  unfold Machine.bankRecallLine
  refine .setDir ?_
  refine .snoopAll ?_ h
  intro _ _ h
  split
  · exact .setCopy (.rlcCnt (.ite (.ite (.foldl (fun _ _ h => .bankPutWord (.cacheNote h)) h) (.wbLost h)) h))
  · exact h

theorem Kept.bankRecall {s d b} (h : Kept o s) : Kept o (bankRecall s d b) :=
  .foldl (fun _ _ => .bankRecallLine) h

theorem Kept.bankPowerStart {s d b req} (h : Kept o s) : Kept o (bankPowerStart s d b req) :=
  .ite (.p (.bankRecall (.p h))) (.ite (.p (.bankRecall (.p h))) (.ite (.p (.p h)) (.ite (.p (.p h)) (.when .p (.p h)))))

theorem Kept.bankPowerArrive {s d b} (h : Kept o s) : Kept o (bankPowerArrive s d b) :=
  .p (.p (.ite (.loseBank h) (.ite (.p (.zeroBank h)) h)))

theorem Kept.bankPowerNext {s d b} (h : Kept o s) : Kept o (bankPowerNext s d b) := by
  unfold Machine.bankPowerNext
  split
  · exact .bankPowerStart (.p (.setBankSt h))
  · exact h

theorem Kept.bankBringOn {s d b} (h : Kept o s) : Kept o (bankBringOn s d b) :=
  .unless (fun h' => .p (.bankPowerArrive h')) (.when .bankPowerStart (.ite (.bankPowerArrive h) h))

theorem Kept.bankCutSupply {s d b} (h : Kept o s) : Kept o (bankCutSupply s d b) :=
  .p (.p (.p (.zeroBank h)))

theorem Kept.dropBankLines {s d b} (h : Kept o s) : Kept o (dropBankLines s d b) :=
  .withCoh h

theorem Kept.bankWipe {s d b} (h : Kept o s) : Kept o (bankWipe s d b) :=
  .unless (fun h' => .ite (.p h') (.ite (.bankCutSupply h') (.p (.setBankSt h')))) (.dropBankLines h)

theorem Kept.wipeSecure {s} (h : Kept o s) : Kept o (wipeSecure s) :=
  .onDies (fun _ _ h => .ite (.bankWipe h) h) h

theorem Kept.bankTransitionEnd {s d b} (h : Kept o s) : Kept o (bankTransitionEnd s d b) :=
  .bankPowerNext (.when (fun h' => .bankWipe (.p (.setBankSt h'))) (.bankPowerArrive h))

theorem Kept.bankLog {s m d b w kind} (h : Kept o s) : Kept o (bankLog s m d b w kind) :=
  .ite h (.p (.p (.p (.p (.p (.p (.p h)))))))

theorem Kept.bankJudge {s m d b w formOk} (h : Kept o s) : Kept o (bankJudge s m d b w formOk).2 := by
  unfold Machine.bankJudge
  split
  · exact .ite h (.bankLog h)
  · exact .inc (.ite h (.bankBringOn h))

theorem Kept.bankGuard {s m d b w} (h : Kept o s) : Kept o (bankGuard s m d b w).2 := by
  unfold Machine.bankGuard
  split
  · split
    · exact h
    · exact .bankLog h
  · exact h

theorem Kept.bankAfter {s d b} (h : Kept o s) : Kept o (bankAfter s d b) :=
  .ite (.bankPowerNext h) h

/-! ## Machine/Dram.lean -/

theorem Kept.dramNote {s ch w r} (h : Kept o s) : Kept o (dramNote s ch w r) := by
  unfold Machine.dramNote
  dsimp only
  split
  · exact .ite (.p (.incSat h)) h
  · exact .unless (fun h' => .p (.p (.p (.p h')))) (.p (.incSat (.ite (.p (.incSat h)) h)))

theorem Kept.dramReadWords {s ch w n} (h : Kept o s) : Kept o (dramReadWords s ch w n).2 :=
  .foldl (fun _ _ => .dramNote) h

theorem Kept.dramWriteWords {s ch w ws} (h : Kept o s) : Kept o (dramWriteWords s ch w ws) :=
  .foldl (fun _ _ => .setDcell) (.ite (.p h) h)

theorem Kept.meeLog {s m ch a k kind r} (h : Kept o s) : Kept o (meeLog s m ch a k kind r) :=
  .ite h (.p (.p (.p (.p (.p (.p h))))))

theorem Kept.meeCnt {s ch k} (h : Kept o s) : Kept o (meeCnt s ch k) :=
  .inc h

theorem Kept.meeJudge {s m ch a k} (h : Kept o s) : Kept o (meeJudge s m ch a k).2 := by
  unfold Machine.meeJudge
  split
  · exact h
  · split
    · exact .meeLog (.meeCnt h)
    · exact h

theorem Kept.ctLookup {s ch} (h : Kept o s) : Kept o (ctLookup s ch) :=
  .meeCnt (.withFresh h)

theorem Kept.encRead {s m ch a k} (h : Kept o s) : Kept o (encRead s m ch a k).2.2.2 := by
  unfold Machine.encRead
  extract_lets s0
  split
  next md s1 e1 =>
  split
  next ct s2 e2 =>
  have h2 := (Kept.dramReadWords ((Kept.dramReadWords (.ctLookup h)).snd e1)).snd e2
  extract_lets
  split
  · exact h2
  · exact .meeLog (.p (.meeCnt h2))

theorem Kept.encStore {s ch a k n key ws} (h : Kept o s) : Kept o (encStore s ch a k n key ws) :=
  .dramWriteWords (.dramWriteWords h)

theorem Kept.ddrCnt {s ch k} (h : Kept o s) : Kept o (ddrCnt s ch k) :=
  .inc h

theorem Kept.dramReadLine {s m ch a k} (h : Kept o s) : Kept o (dramReadLine s m ch a k).2 := by
  unfold Machine.dramReadLine
  dsimp only
  split
  · exact .dramReadWords (.ddrCnt h)
  · exact .encRead (.ddrCnt h)

theorem Kept.dramWriteLine {s m ch a k new} (h : Kept o s) : Kept o (dramWriteLine s m ch a k new).2 := by
  unfold Machine.dramWriteLine
  dsimp only
  split
  · refine .dramWriteWords (.ddrCnt ?_)
    split
    · exact h
    · exact .dramReadWords h
  · split
    · exact .p (.setBit (.meeLog h))
    · split
      · exact .encStore (.ddrCnt (.ctLookup h))
      · exact .encStore (.ddrCnt (.encRead h))

/-! ## Machine/Coherence.lean -/

theorem Kept.packetWake {s d} (h : Kept o s) : Kept o (packetWake s d) :=
  .when .inc (.wakeDie h)

theorem Kept.routeTo {s r d} (h : Kept o s) : Kept o (routeTo s r d).2 := by
  unfold Machine.routeTo
  dsimp only
  split
  · exact h
  · split
    · exact .inc h
    · split
      · exact .packetWake h
      · exact h

theorem Kept.serveWrites {s ch a} (h : Kept o s) : Kept o (serveWrites s ch a) :=
  .foldl (fun _ _ => .dramWriteLine) (.setDsub h)

theorem Kept.unserved {s m} (h : Kept o s) : Kept o (unserved s m).2 :=
  .p (.inc h)

theorem Kept.freeWords {s n} (h : Kept o s) : Kept o (freeWords s n).2 :=
  .foldlOf Prod.snd (fun _ _ h => .withFresh h) h

theorem Kept.homeJudge {s m t} (h : Kept o s) : Kept o (homeJudge s m t).2 := by
  unfold Machine.homeJudge
  split
  · exact .bankJudge h
  · split
    · exact .meeJudge h
    · exact .unserved h
  · exact h
  · exact h
  · exact h
  · exact .withFresh h
  · exact h

theorem Kept.homeFetch {s m t w n} (h : Kept o s) : Kept o (homeFetch s m t w n).2 := by
  unfold Machine.homeFetch
  split
  · exact .foldl (fun _ _ => .bankNote) h
  · exact .dramReadLine (.serveWrites h)
  · exact h
  · exact h
  · exact h
  · exact .freeWords h
  · exact h

theorem Kept.homeStore {s m t new} (h : Kept o s) : Kept o (homeStore s m t new).2 := by
  unfold Machine.homeStore
  split
  · exact .foldl (fun _ _ => .bankWriteWord) h
  · exact .dramWriteLine (.serveWrites h)
  · exact h
  · exact h
  · exact h
  · exact h
  · exact h

theorem Kept.homeAfter {s t} (h : Kept o s) : Kept o (homeAfter s t) := by
  unfold Machine.homeAfter
  split
  · exact .bankAfter h
  · exact h
  · exact h
  · exact h
  · exact h
  · exact h
  · exact h

theorem Kept.cachePut {s q line remote st by_ near ws wrote old} (h : Kept o s) :
    Kept o (cachePut s q line remote st by_ near ws wrote old) :=
  .setCopy (.ite (.p h) h)

theorem Kept.writeHome {s q line c} (h : Kept o s) : Kept o (writeHome s q line c).2 := by
  unfold Machine.writeHome
  dsimp only
  split
  · next e => exact .wbLost (.when .homeStore (.withFresh ((Kept.homeJudge (.foldl (fun _ _ => .cacheNote) h)).snd e)))
  · next e => exact .wbLost ((Kept.homeJudge (.foldl (fun _ _ => .cacheNote) h)).snd e)
  · next e =>
      have h1 := (Kept.homeJudge (.foldl (fun _ _ => .cacheNote) h)).snd e
      split
      · next e1 => exact .homeAfter ((Kept.homeStore h1).snd e1)
      · next e1 => exact .wbLost ((Kept.homeStore h1).snd e1)

theorem Kept.dirDrop {s q line} (h : Kept o s) : Kept o (dirDrop s q line) := by
  unfold Machine.dirDrop
  split
  · exact .setDir h
  · exact h

theorem Kept.dropCopy {s q line} (h : Kept o s) : Kept o (dropCopy s q line) := by
  unfold Machine.dropCopy
  split
  · exact .setCopy (.ite (.writeHome h) h)
  · exact h

theorem Kept.cleanCopy {s q line st} (h : Kept o s) : Kept o (cleanCopy s q line st) := by
  unfold Machine.cleanCopy
  split
  · split
    · split
      · next e => exact .setCopy ((Kept.writeHome h).snd e)
      · next e => exact .dirDrop (.setCopy ((Kept.writeHome h).snd e))
    · exact .setCopy h
  · exact h

theorem Kept.shareCopy {s q line} (h : Kept o s) : Kept o (shareCopy s q line) :=
  .cleanCopy h

theorem Kept.recallLine {s line} (h : Kept o s) : Kept o (recallLine s line) :=
  .setDir (.snoopAll (fun _ _ h => .dropCopy (.rlcCnt h)) h)

theorem Kept.makeRoom {s m r line} (h : Kept o s) : Kept o (makeRoom s m r line) := by
  refine .ite h (.ite h ?_)
  split
  · exact .recallLine (.rlcCnt h)
  · exact h

theorem Kept.grant {s q line owner} (h : Kept o s) : Kept o (grant s q line owner) :=
  .setDir (.withCoh h)

theorem Kept.evictCopy {s q line} (h : Kept o s) : Kept o (evictCopy s q line) := by
  unfold Machine.evictCopy
  split
  · dsimp only
    split
    · exact .setDir (.dropCopy (.ite (.rlcCnt h) h))
    · exact .dropCopy (.ite (.rlcCnt h) h)
  · exact h

theorem Kept.leaveNear {s q c line} (h : Kept o s) : Kept o (leaveNear s q c line) := by
  unfold Machine.leaveNear
  split
  · exact .when .evictCopy (.setCopy h)
  · exact h

theorem Kept.makeWay {s q c line} (h : Kept o s) : Kept o (makeWay s q c line) :=
  .ite h (.ite (.leaveNear (.withFresh h)) (.evictCopy (.withFresh h)))

theorem Kept.nearTake {s q m line write} (h : Kept o s) : Kept o (nearTake s q m line write) := by
  unfold Machine.nearTake
  split
  · exact .makeWay (.setCopy h)
  · exact .ite (.setCopy h) h
  · exact h

theorem Kept.fill {s q m line unique} (h : Kept o s) : Kept o (fill s q m line unique).2 := by
  unfold Machine.fill
  extract_lets
  split
  · exact h
  · split
    · exact h
    · split
      · next e => exact ((Kept.routeTo h).snd e)
      · next e =>
          have h1 := (Kept.routeTo h).snd e
          split
          · next e1 => exact ((Kept.homeJudge h1).snd e1)
          · next e1 =>
              have h2 := (Kept.homeJudge h1).snd e1
              extract_lets s1 s2 s3 s4
              have k1 : Kept o s1 := .ite h2 (.rlcCnt h2)
              have k2 : Kept o s2 := .makeRoom k1
              have k3 : Kept o s3 := by
                refine .ite (.snoopAll (fun _ _ => .dropCopy) k2) ?_
                split
                · split
                  · exact .shareCopy (.rlcCnt k2)
                  · exact k2
                · exact k2
              have k4 : Kept o s4 := .ite (.setDir k3) k3
              exact .homeAfter (.nearTake (.grant (.cachePut (.unless .makeWay (.homeFetch k4)))))

theorem Kept.upgrade {s q m line} (h : Kept o s) : Kept o (upgrade s q m line).2 := by
  unfold Machine.upgrade
  dsimp only
  split
  · exact h
  · split
    · next e => exact ((Kept.routeTo h).snd e)
    · next e =>
        have h1 := (Kept.routeTo h).snd e
        split
        · next e1 => exact ((Kept.homeJudge h1).snd e1)
        · next e1 =>
            have h2 := (Kept.homeJudge h1).snd e1
            split
            · exact .homeAfter (.grant (.setCopy (.setDir (.snoopAll (fun _ _ => .dropCopy) h2))))
            · exact .homeAfter (.setDir (.snoopAll (fun _ _ => .dropCopy) h2))

theorem Kept.hitJudge {s q m line} (h : Kept o s) : Kept o (hitJudge s q m line).2 := by
  unfold Machine.hitJudge
  split
  · exact .bankGuard h
  · exact h

theorem Kept.hitTake {s q m line c write} (h : Kept o s) : Kept o (hitTake s q m line c write) :=
  .nearTake (.ite (.rlcCnt h) h)

theorem Kept.cohRead {s q m line w n} (h : Kept o s) : Kept o (cohRead s q m line w n).2.2 := by
  unfold Machine.cohRead
  dsimp only
  split
  · split
    · next e => exact ((Kept.hitJudge h).snd e)
    · next e =>
        have h1 := (Kept.hitJudge h).snd e
        split
        · exact .foldl (fun _ _ => .cacheNote) (.hitTake h1)
        · exact .hitTake h1
  · split
    · next e =>
        have h1 := (Kept.fill h).snd e
        split
        · exact .foldl (fun _ _ => .cacheNote) h1
        · exact h1
    · next e => exact ((Kept.fill h).snd e)

theorem Kept.copyWrite {s q m line new} (h : Kept o s) : Kept o (copyWrite s q m line new) := by
  unfold Machine.copyWrite
  split
  · exact .cachePut h
  · exact h

theorem Kept.cohWrite {s q m line new} (h : Kept o s) : Kept o (cohWrite s q m line new).2 := by
  unfold Machine.cohWrite
  split
  · next c _ =>
      split
      · next e => exact (Kept.hitJudge h).snd e
      · next t e =>
          have h1 := (Kept.hitJudge h).snd e
          have h2 : Kept o (if c.st = 1 then Machine.upgrade t q m line else (.ok, t)).2 := by
            split
            · exact .upgrade h1
            · exact h1
          split
          · next e1 => exact .copyWrite (.hitTake (h2.snd e1))
          · next e1 => exact h2.snd e1
  · split
    · next e => exact .copyWrite ((Kept.fill h).snd e)
    · next e => exact (Kept.fill h).snd e

theorem Kept.ncRead {s r m line w n} (h : Kept o s) : Kept o (ncRead s r m line w n).2.2 := by
  unfold Machine.ncRead
  dsimp only
  split
  · exact h
  · split
    · next e => exact ((Kept.routeTo h).snd e)
    · next e =>
        have h1 := (Kept.routeTo h).snd e
        split
        · next e1 => exact ((Kept.homeJudge h1).snd e1)
        · next e1 =>
            have h2 := (Kept.homeJudge h1).snd e1
            refine .homeAfter ?_
            refine .homeFetch ?_
            split
            · split
              · exact .setDir (.shareCopy (.rlcCnt h2))
              · exact h2
            · exact h2

theorem Kept.ncWrite {s r m line new} (h : Kept o s) : Kept o (ncWrite s r m line new).2 := by
  unfold Machine.ncWrite
  dsimp only
  split
  · exact h
  · split
    · next e => exact ((Kept.routeTo h).snd e)
    · next e =>
        have h1 := (Kept.routeTo h).snd e
        split
        · next e1 => exact ((Kept.homeJudge h1).snd e1)
        · next e1 => exact .homeAfter (.homeStore (.setDir (.snoopAll (fun _ _ => .dropCopy) ((Kept.homeJudge h1).snd e1))))

theorem Kept.lineRead {s m addr n} (h : Kept o s) : Kept o (lineRead s m addr n).2.2 := by
  unfold Machine.lineRead
  dsimp only
  split
  · exact .cohRead h
  · exact .ncRead h

theorem Kept.lineWrite {s m addr ws} (h : Kept o s) : Kept o (lineWrite s m addr ws).2 := by
  unfold Machine.lineWrite
  dsimp only
  split
  · exact .cohWrite h
  · exact .ncWrite h

theorem Kept.memRead {fuel s m addr n} (h : Kept o s) : Kept o (memRead fuel s m addr n).2.2 := by
  induction fuel generalizing s addr n with
  | zero => exact h
  | succ fuel ih =>
    unfold Machine.memRead
    split
    · exact h
    · dsimp only
      split
      · next e =>
          have h1 := (Kept.lineRead h).snd2 e
          split
          · next e1 => exact (ih h1).snd2 e1
          · next e1 => exact (ih h1).snd2 e1
      · next e => exact (Kept.lineRead h).snd2 e

theorem Kept.memWrite {fuel s m addr ws} (h : Kept o s) : Kept o (memWrite fuel s m addr ws).2 := by
  induction fuel generalizing s addr ws with
  | zero => exact h
  | succ fuel ih =>
    unfold Machine.memWrite
    split
    · exact h
    · dsimp only
      split
      · next e => exact ih ((Kept.lineWrite h).snd e)
      · next e => exact (Kept.lineWrite h).snd e

/-! ## Machine/Hart.lean -/

theorem Kept.setCore {s d c v} (h : Kept o s) : Kept o (s.setCore d c v) :=
  .p h

theorem Kept.hartStart {s d c} (h : Kept o s) : Kept o (hartStart s d c) :=
  .setHart (.withFresh (.withFresh (.withFresh (.withFresh (.withFresh h)))))

theorem Kept.startCore {s d c} (h : Kept o s) : Kept o (startCore s d c) :=
  .ite (.hartStart (.setCore h)) h

theorem Kept.startCores {s d} (h : Kept o s) : Kept o (startCores s d) :=
  .foldl (fun _ _ => .startCore) h

theorem Kept.stopCores {s d} (h : Kept o s) : Kept o (stopCores s d) :=
  .foldl (fun _ _ => .setCore) h

theorem Kept.takeTrap {s m d c t addr} (h : Kept o s) : Kept o (takeTrap s m d c t addr) :=
  .ite (.setHart (.setCore (.withFresh h))) (.setHart (.setCore (.withFresh h)))

theorem Kept.coreTrap {s m t addr} (h : Kept o s) : Kept o (s.coreTrap m t addr) := by
  unfold State.coreTrap
  split
  · exact .ite (.takeTrap h) h
  · exact h

theorem Kept.coreSees {s m store addr} (h : Kept o s) : Kept o (s.coreSees m store addr) :=
  .ite (.coreTrap h) (.ite (.coreTrap h) h)

theorem Kept.ifIssued {s q f} (hf : ∀ t, Kept o t → Kept o (f t)) (h : Kept o s) : Kept o (s.ifIssued q f) := by
  unfold State.ifIssued
  split
  · exact .coreTrap h
  · exact hf _ h

/-! ## Machine/PenBuf.lean -/

theorem Kept.penCnt {s d k} (h : Kept o s) : Kept o (s.penCnt d k) :=
  .inc h

theorem Kept.portCnt {s d i k n} (h : Kept o s) : Kept o (s.portCnt d i k n) :=
  .inc h

theorem Kept.showBuf {s d} (h : Kept o s) : Kept o (showBuf s d) :=
  .p (.p h)

theorem Kept.setQueue {s d e q l} (h : Kept o s) : Kept o (s.setQueue d e q l) :=
  .showBuf (.setPen h)

theorem OptKept.enqueue {s d e q f transit} (h : Kept o s) : OptKept o (enqueue s d e q f transit) := by
  unfold Machine.enqueue
  split
  · split
    · exact .some (.setQueue h)
    · exact .none
  · exact .none

theorem Kept.dropFrames {s d k p} (h : Kept o s) : Kept o (dropFrames s d k p) :=
  .foldl (fun _ _ h => .setQueue (.inc h)) h

theorem Kept.penBankCheck {s d b} (h : Kept o s) : Kept o (penBankCheck s d b) :=
  .ite (.showBuf h) (.clrBit (.dropFrames h))

theorem Kept.loseLearn {s d} (h : Kept o s) : Kept o (loseLearn s d) :=
  .setPenDie (.inc h)

theorem Kept.penReach {s} (h : Kept o s) : Kept o (penReach s) :=
  .onDies (fun _ _ h => .ite h (.ite (.unless .loseLearn (.setPenDie (.p (.p h)))) (.p h))) h

theorem Kept.cutTrunk {s} (h : Kept o s) : Kept o (cutTrunk s) :=
  .penReach (.onDies (fun _ _ h => .foldl (fun _ _ h => .ite (.when .setYout (.setAir (.inc h))) h) (.dropFrames h)) h)

/-! ## Machine/BankEvents.lean -/

theorem Kept.badForm {s q} (h : Kept o s) : Kept o (badForm s q) := by
  unfold Machine.badForm
  split
  · split
    · next e => exact .ans ((Kept.bankJudge h).snd e)
    · next e => exact .ans ((Kept.bankJudge h).snd e)
  · exact .ans h
  · exact .ans h
  · exact .ans h
  · exact .ans h
  · exact .ans h
  · exact .ans h

theorem Kept.memReadReq {s q} (h : Kept o s) : Kept o (memReadReq s q) := by
  unfold Machine.memReadReq
  split
  · split
    · next e => exact .withReply ((Kept.memRead h).snd2 e)
    · next e => exact .ans ((Kept.memRead h).snd2 e)
  · exact .badForm h

theorem Kept.memWriteReq {s q} (h : Kept o s) : Kept o (memWriteReq s q) := by
  unfold Machine.memWriteReq
  split
  · split
    next e => exact .ans ((Kept.memWrite h).snd e)
  · exact .badForm h

theorem Kept.bankAtomic {s q} (h : Kept o s) : Kept o (bankAtomic s q) := by
  unfold Machine.bankAtomic
  dsimp only
  split
  · split
    · next e => exact .ans ((Kept.routeTo h).snd e)
    · next e =>
        have h1 := (Kept.routeTo h).snd e
        split
        · next e1 => exact .ans ((Kept.bankJudge h1).snd e1)
        · next e1 => exact .both (fun h' => .ans (.ite (.bankUe h') h')) (fun h' => .ansData (.bankAfter (.setBankWord h'))) <|
                         .bankNote (.recallLine ((Kept.bankJudge h1).snd e1))
  · split
    · next e => exact .ans ((Kept.routeTo h).snd e)
    · next e =>
        have h1 := (Kept.routeTo h).snd e
        exact .ite (.both .ansData .ans (.withFresh (.withFresh (.recallLine h1)))) (.ans h1)
  · exact .ans h
  · exact .ans h
  · exact .ans h
  · exact .ans h
  · exact .ans h

theorem Kept.powerTake {s d b req} (h : Kept o s) : Kept o (powerTake s d b req) :=
  .ite (.bankPowerStart h) (.p (.setBankSt h))

theorem Kept.handoverStart {s d b owner} (h : Kept o s) : Kept o (handoverStart s d b owner) :=
  .when .bankWipe (.bankRecall (.p (.p h)))

theorem Kept.writeBnkCtrl {s w} (h : Kept o s) : Kept o (writeBnkCtrl s w) :=
  .ite (.ans h) (.ans (.penBankCheck (.when .handoverStart (.when .powerTake (.when .bankWipe (.when .p (.p (.p h))))))))

theorem Kept.writeBnk {s w} (h : Kept o s) : Kept o (writeBnk s w) := by
  unfold Machine.writeBnk
  split
  · exact .writeBnkCtrl h
  · exact .storeIf h
  · exact .storeIf h
  · exact .ite (.ans (.setBankWord h)) (.ans h)
  · exact .store h

theorem Kept.bankTake {s q} (h : Kept o s) : Kept o (bankTake s q) := by
  unfold Machine.bankTake
  dsimp only
  split
  · exact .ans h
  · split
    · exact .coreSees (.ite (.memWriteReq h) (.memReadReq h))
    · exact .coreSees (.ans h)
    · exact h
    · exact h
    · exact h
    · exact .ite (.coreSees (.ite (.memWriteReq h) (.memReadReq h))) h
    · exact h

theorem NextKept.execBankAccess {req s} (h : Kept o s) : NextKept o (execBankAccess req s) :=
  .next (.ifIssued (fun _ => .bankTake) h)

theorem NextKept.execBankAtomic {req s} (h : Kept o s) : NextKept o (execBankAtomic req s) :=
  .next (.ifIssued (fun _ h => .ite (.ans h) (.coreSees (.bankAtomic h))) h)

theorem Kept.handoverEnd {s d b} (h : Kept o s) : Kept o (handoverEnd s d b) :=
  .p (.p (.p (.p h)))

theorem NextKept.execBankPowerReached {die bank s} (h : Kept o s) : NextKept o (execBankPowerReached die bank s) :=
  .next (.ite (.bankTransitionEnd h) h)

theorem Kept.restRespond {s} (h : Kept o s) : Kept o (restRespond s) :=
  .ite h (.withSec h)

theorem NextKept.execWipeDone {die bank s} (h : Kept o s) : NextKept o (execWipeDone die bank s) :=
  .next (.ite (.restRespond (.p (.p (.zeroBank h)))) h)

/-! ## Machine/CohEvents.lean -/

theorem Kept.answered {x} (h : Kept o x.2) : Kept o (answered x) :=
  .ans h

theorem NextKept.execReadShared {m line s} (h : Kept o s) : NextKept o (execReadShared m line s) :=
  .next (.ite (.answered (.fill h)) h)

theorem NextKept.execReadUnique {m line s} (h : Kept o s) : NextKept o (execReadUnique m line s) :=
  .next (.ite (.answered (.fill h)) h)

theorem NextKept.execUpgrade {m line s} (h : Kept o s) : NextKept o (execUpgrade m line s) :=
  .next (.ite (.answered (.upgrade h)) h)

theorem NextKept.execWriteback {die line s} (h : Kept o s) : NextKept o (execWriteback die line s) :=
  .next (.ite (.evictCopy h) h)

theorem NextKept.execEvict {die line s} (h : Kept o s) : NextKept o (execEvict die line s) :=
  .next (.ite (.evictCopy h) h)

theorem NextKept.execCleanOp {m line s} (h : Kept o s) : NextKept o (execCleanOp m line s) :=
  .next (.ans (.cleanCopy h))

theorem NextKept.execCleanInval {m line s} (h : Kept o s) : NextKept o (execCleanInval m line s) := by
  unfold Machine.execCleanInval
  refine .next ?_
  split
  · exact .ans h
  · exact .ans (.recallLine h)
  · exact .ans (.recallLine h)
  · exact .ans h
  · exact .ans h
  · exact .ans h
  · exact .ite (.ans (.recallLine h)) (.ans h)

theorem NextKept.execSnpShared {die line s} (h : Kept o s) : NextKept o (execSnpShared die line s) := by
  unfold Machine.execSnpShared
  refine .next ?_
  split
  · exact .when .setDir (.shareCopy (.rlcCnt h))
  · exact .rlcCnt h

theorem NextKept.execSnpInval {die line s} (h : Kept o s) : NextKept o (execSnpInval die line s) :=
  .next (.dirDrop (.dropCopy (.rlcCnt h)))

theorem NextKept.execSnpRecall {die line s} (h : Kept o s) : NextKept o (execSnpRecall die line s) :=
  .next (.dirDrop (.dropCopy (.rlcCnt (.rlcCnt h))))

theorem Kept.flushNear {s q c} (h : Kept o s) : Kept o (flushNear s q c) :=
  .foldl (fun _ _ => .leaveNear) h

theorem Kept.flushRemote {s q} (h : Kept o s) : Kept o (flushRemote s q) :=
  .foldl (fun _ _ => .evictCopy) h

theorem Kept.flushAll {s q} (h : Kept o s) : Kept o (flushAll s q) :=
  .foldl (fun _ _ => .evictCopy) h

theorem Kept.recallHomed {s d} (h : Kept o s) : Kept o (recallHomed s d) :=
  .foldl (fun _ _ => .recallLine) h

theorem NextKept.execRlcFlushDone {die s} (h : Kept o s) : NextKept o (execRlcFlushDone die s) :=
  .next (.ite (.p (.p (.flushRemote h))) h)

theorem Kept.writeRlc {s w} (h : Kept o s) : Kept o (writeRlc s w) := by
  unfold Machine.writeRlc
  split
  · exact .ite (.ans h) (.ans (.ite (.p h) h))
  · exact .store h

theorem Kept.writeNoc {s w} (h : Kept o s) : Kept o (writeNoc s w) := by
  unfold Machine.writeNoc
  split
  · exact .storeIf h
  · exact .store h

theorem Kept.poisonLine {s t} (h : Kept o s) : Kept o (poisonLine s t) := by
  unfold Machine.poisonLine
  split
  · exact .foldl (fun _ _ => .setBankWord) h
  · exact .foldl (fun _ _ => .setDcell) h
  · exact h
  · exact h
  · exact h
  · exact h
  · exact h

theorem Kept.cutLine {s line} (h : Kept o s) : Kept o (cutLine s line) := by
  unfold Machine.cutLine
  split
  · dsimp only
    split
    · exact .setDir (.ite (.p (.inc (.poisonLine h))) h)
    · exact h
  · exact h

theorem Kept.cutDirectory {s} (h : Kept o s) : Kept o (cutDirectory s) :=
  .foldl (fun _ _ => .cutLine) h

theorem Kept.dirUpset {s d} (h : Kept o s) : Kept o (dirUpset s d) :=
  .ite h (.when (fun h' => .p (.recallLine h')) (.withFresh h))

theorem Kept.tagUpset {s q} (h : Kept o s) : Kept o (tagUpset s q) := by
  refine .ite h (.ite (.dirDrop (.setCopy ?_)) (.withFresh h))
  split
  · exact .when (fun h' => .p (.inc (.poisonLine h'))) (.foldl (fun _ _ => .evictCopy) (.withFresh h))
  · exact .foldl (fun _ _ => .evictCopy) (.withFresh h)

theorem Kept.cachesPass {s d} (h : Kept o s) : Kept o (cachesPass s d) :=
  .tagUpset (.dirUpset h)

/-! ## Machine/Event.lean -/

theorem Kept.claimRead {s r x} (h : Kept o s) : Kept o (claimRead s r x).2 := by
  unfold Machine.claimRead
  split
  · exact .setEv h
  · exact h

theorem Kept.claimComplete {s r x id} (h : Kept o s) : Kept o (claimComplete s r x id) :=
  .ite (.setEv h) h

theorem Kept.updateLost {s} (h : Kept o s) : Kept o (updateLost s) :=
  .onDies (fun _ _ => .p) h

theorem NextKept.execEventLevel {die n s} (h : Kept o s) : NextKept o (execEventLevel die n s) :=
  .next (.ite (.setEv h) h)

theorem NextKept.execEventPulse {die n s} (h : Kept o s) : NextKept o (execEventPulse die n s) :=
  .next (.ite (.setEv (.withPulses h)) h)

/-! ## Machine/DieLink.lean -/

theorem Kept.setLinkTx {s d e m x} (h : Kept o s) : Kept o (s.setLinkTx d e m x) :=
  .withBdl h

theorem Kept.setLinkRx {s d e m x} (h : Kept o s) : Kept o (s.setLinkRx d e m x) :=
  .withBdl h

theorem Kept.setCapsIn {s d e x} (h : Kept o s) : Kept o (s.setCapsIn d e x) :=
  .withBdl h

theorem Kept.setRawRx {s d l} (h : Kept o s) : Kept o (s.setRawRx d l) :=
  .withBdl h

theorem Kept.setTestLeft {s d n} (h : Kept o s) : Kept o (s.setTestLeft d n) :=
  .withBdl h

theorem Kept.setEdge {s d e v} (h : Kept o s) : Kept o (s.setEdge d e v) :=
  .p h

theorem Kept.linkRestart {s d e} (h : Kept o s) : Kept o (linkRestart s d e) :=
  .foldl (fun _ _ h => .setLinkRx (.setLinkTx h)) h

theorem Kept.edgeDown {s d e reason m} (h : Kept o s) : Kept o (edgeDown s d e reason m) :=
  .cutTrunk (.updateLost (.p (.p (.p (.setEdge h)))))

theorem Kept.capsTake {s d e b} (h : Kept o s) : Kept o (capsTake s d e b) :=
  .p (.p (.p (.p (.p (.p (.p h))))))

theorem Kept.edgeUp {s d e} (h : Kept o s) : Kept o (edgeUp s d e) :=
  .penReach (.setEdge (.linkRestart h))

theorem Kept.companionDecide {s} (h : Kept o s) : Kept o (companionDecide s) := by
  unfold Machine.companionDecide
  dsimp only
  split
  · exact h
  · refine .updateLost ?_
    refine .p ?_
    refine .p ?_
    refine .foldl ?_ h
    intro _ _ h
    split
    · exact .p (.p (.p (.edgeUp (.capsTake h))))
    · exact .ite h (.setEdge h)

theorem NextKept.execModuleTrained {die edge module s} (h : Kept o s) : NextKept o (execModuleTrained die edge module s) :=
  .next (.ite (.when .setEdge (.setBit h)) h)

theorem NextKept.execTrainFail {die edge module s} (h : Kept o s) : NextKept o (execTrainFail die edge module s) :=
  .next (.ite (.when (fun h' => .companionDecide (.setCapsIn h')) (.edgeDown h)) h)

theorem NextKept.execCapsSend {die edge s} (h : Kept o s) : NextKept o (execCapsSend die edge s) :=
  .next (.ite (.ansData h) h)

theorem NextKept.execCapsReceive {die edge block s} (h : Kept o s) : NextKept o (execCapsReceive die edge block s) := by
  unfold Machine.execCapsReceive
  refine .next ?_
  split
  · split
    · exact .companionDecide (.setCapsIn h)
    · split
      · exact .edgeDown h
      · dsimp only
        split
        · exact .when (fun h' => .updateLost (.edgeUp (.edgeUp h'))) (.capsTake (.setCapsIn h))
        · exact .capsTake (.setCapsIn h)
  · exact h

theorem NextKept.execNoCaps {die edge s} (h : Kept o s) : NextKept o (execNoCaps die edge s) :=
  .next (.ite (.ite (.companionDecide (.setCapsIn h)) (.edgeDown h)) h)

theorem Kept.showQuar {s d} (h : Kept o s) : Kept o (showQuar s d) :=
  .p h

theorem Kept.portSync {s rid} (h : Kept o s) : Kept o (portSync s rid) := by
  unfold Machine.portSync
  dsimp only
  split
  · exact h
  · exact .setNport h

theorem Kept.putNet {s rid tag x} (h : Kept o s) : Kept o (s.putNet rid tag x) :=
  .showQuar (.portSync (.setNet h))

theorem Kept.quarantine {s rid tag r} (h : Kept o s) : Kept o (quarantine s rid tag r) :=
  .putNet h

theorem Kept.edgeFatal {s d e m} (h : Kept o s) : Kept o (edgeFatal s d e m) := by
  unfold Machine.edgeFatal
  dsimp only
  split
  · exact .ite (.p (.p (.p (.setEdge (.ite (.p (.p (.p (.setEdge h)))) h))))) (.ite (.p (.p (.p (.setEdge h)))) h)
  · exact .ite (.p (.p (.p (.setEdge h)))) h

theorem NextKept.execFatalKnown {die edge s} (h : Kept o s) : NextKept o (execFatalKnown die edge s) := by
  unfold Machine.execFatalKnown
  refine .next ?_
  split
  · refine .cutTrunk ?_
    refine .updateLost ?_
    refine .cutDirectory ?_
    refine .foldl ?_ h
    intro _ _ h
    split
    · exact .ite (.quarantine (.ans h)) h
    · exact h
  · exact h

theorem Kept.replay {s d e m} (h : Kept o s) : Kept o (replay s d e m) := by
  unfold Machine.replay
  dsimp only
  split
  · exact h
  · exact .ite (.edgeFatal h) (.inc (.setLinkTx h))

theorem Kept.takeHeader {s d e m h'} (h : Kept o s) : Kept o (takeHeader s d e m h') :=
  .ite (.setLinkTx h) (.ite (.replay (.setLinkTx h)) (.setLinkTx h))

theorem Kept.flitSent {s d e m q} (h : Kept o s) : Kept o (flitSent s d e m q) :=
  .ite (.setLinkTx h) h

theorem Kept.testCorrupts {s d e m} (h : Kept o s) : Kept o (testCorrupts s d e m).2 := by
  unfold Machine.testCorrupts
  split
  · exact .when .p (.setTestLeft h)
  · exact h

theorem Kept.flitArrive {s d e m f} (h : Kept o s) : Kept o (flitArrive s d e m f) := by
  unfold Machine.flitArrive
  extract_lets
  split
  next bad t e1 =>
  have h1 : Kept o t := by
    refine Kept.snd ?_ e1
    split
    · split
      · exact .unless .flitSent (.testCorrupts h)
      · exact h
    · exact h
  refine .ite (.inc (.setLinkRx h1)) (.ite (.takeHeader h1) (.ite (.inc (.setLinkRx h1)) ?_))
  split
  · exact .inc (.setLinkRx h1)
  · exact .takeHeader (.when .inc (.setLinkRx h1))

theorem NextKept.execFlitReceive {die edge module flit s} (h : Kept o s) : NextKept o (execFlitReceive die edge module flit s) :=
  .next (.ite h (.ite (.flitArrive h) (.ite (.setRawRx h) h)))

theorem NextKept.execReplayTimeout {die edge module s} (h : Kept o s) : NextKept o (execReplayTimeout die edge module s) :=
  .next (.ite (.replay h) h)

theorem NextKept.execCmpstrmTx {die flit s} (h : Kept o s) : NextKept o (execCmpstrmTx die flit s) :=
  .next (.ite (.ansData h) h)

theorem NextKept.execCmpstrmRx {die s} (h : Kept o s) : NextKept o (execCmpstrmRx die s) := by
  unfold Machine.execCmpstrmRx
  refine .next ?_
  split
  · exact .ansData (.setRawRx h)
  · exact h

theorem Kept.writeBdlTest {s w} (h : Kept o s) : Kept o (writeBdlTest s w) :=
  .ite (.when .setTestLeft (.store h)) (.ans h)

theorem Kept.writeBdl {s w} (h : Kept o s) : Kept o (writeBdl s w) := by
  unfold Machine.writeBdl
  split
  · exact .writeBdlTest h
  · exact .store h

/-! ## Machine/DramEvents.lean -/

theorem Kept.queueRead {s ch line q} (h : Kept o s) : Kept o (queueRead s ch line q) :=
  .setDsub (.when .ddrCnt (.withDrm h))

theorem Kept.queueWrite {s ch line q} (h : Kept o s) : Kept o (queueWrite s ch line q) :=
  .setDsub (.withDrm h)

theorem Kept.ddrRequest {s q} (h : Kept o s) : Kept o (ddrRequest s q) := by
  unfold Machine.ddrRequest
  extract_lets
  split
  · extract_lets
    refine .ite (.coreSees (.ans h)) (.ite h ?_)
    split
    · next e => exact .coreSees (.ans ((Kept.meeJudge h).snd e))
    · next e =>
        have h1 := (Kept.meeJudge h).snd e
        exact .ite (.ite (.coreSees (.answered (.dramWriteLine h1))) (.ans (.queueWrite h1))) (.queueRead h1)
  · exact .coreSees (.ans h)
  all_goals exact h

theorem NextKept.execDdrRequest {req s} (h : Kept o s) : NextKept o (execDdrRequest req s) :=
  .next (.ifIssued (fun _ h => .ite (.ans h) (.ddrRequest h)) h)

theorem Kept.openRow {s ch k r} (h : Kept o s) : Kept o (openRow s ch k r) :=
  .setDsub (.ite (.ddrCnt h) h)

theorem Kept.serveRead {s ch k r} (h : Kept o s) : Kept o (serveRead s ch k r) :=
  .coreSees (.withReply (.dramReadLine (.setDsub (.openRow h))))

theorem Kept.serveWrite {s ch k r} (h : Kept o s) : Kept o (serveWrite s ch k r) :=
  .dramWriteLine (.setDsub (.openRow h))

theorem NextKept.execDdrServe {die ctl sub s} (h : Kept o s) : NextKept o (execDdrServe die ctl sub s) := by
  unfold Machine.execDdrServe
  refine .next ?_
  split
  · split
    · exact .ite (.serveWrite h) (.serveRead h)
    · exact h
  · exact h

theorem NextKept.execWriteDrainStart {die ctl sub s} (h : Kept o s) : NextKept o (execWriteDrainStart die ctl sub s) :=
  .next (.ite (.setDsub h) h)

theorem NextKept.execAgePromote {die ctl sub seq s} (h : Kept o s) : NextKept o (execAgePromote die ctl sub seq s) :=
  .next (.ite (.ddrCnt (.setDsub h)) h)

theorem Kept.trainStart {s d c} (h : Kept o s) : Kept o (trainStart s d c) :=
  .ite (.p h) h

theorem NextKept.execTrainingDone {die ctl temp s} (h : Kept o s) : NextKept o (execTrainingDone die ctl temp s) :=
  .next (.ite (.p (.p h)) h)

theorem NextKept.execTrainingFail {die ctl s} (h : Kept o s) : NextKept o (execTrainingFail die ctl s) :=
  .next (.ite (.p (.p h)) h)

theorem NextKept.execRefresh {die ctl s} (h : Kept o s) : NextKept o (execRefresh die ctl s) :=
  .next (.ite (.setDsub (.setDsub h)) h)

theorem NextKept.execTempRetrain {die ctl temp s} (h : Kept o s) : NextKept o (execTempRetrain die ctl temp s) :=
  .next (.ite (.p (.ddrCnt (.p h))) h)

theorem Kept.writeMapCtl {s w} (h : Kept o s) : Kept o (writeMapCtl s w) :=
  .ite (.ans (.p (.setReg h))) (.ans h)

theorem Kept.writeMapRng {s w} (h : Kept o s) : Kept o (writeMapRng s w) :=
  .ite (.ans (.p (.setReg h))) (.ans h)

theorem Kept.writeDdr {s w} (h : Kept o s) : Kept o (writeDdr s w) := by
  unfold Machine.writeDdr
  split
  · exact .storeIf h
  · exact .storeIf h
  · exact .writeMapCtl h
  · exact .writeMapRng h
  · exact .store h

theorem Kept.setKstate {s ch k v} (h : Kept o s) : Kept o (setKstate s ch k v) :=
  .p h

theorem Kept.setCurKey {s ch k v} (h : Kept o s) : Kept o (setCurKey s ch k v) :=
  .setMee h

theorem Kept.setNextKey {s ch k v} (h : Kept o s) : Kept o (setNextKey s ch k v) :=
  .setMee h

theorem Kept.rekeyEnd {s ch k} (h : Kept o s) : Kept o (rekeyEnd s ch k) :=
  .ite (.p (.setKstate h)) h

theorem Kept.meeApply {s ch op k arg key start stop} (h : Kept o s) : Kept o (meeApply s ch op k arg key start stop) :=
  .ite (.setKstate (.setCurKey h)) <| .ite (.setKstate (.setNextKey h)) <| .ite (.setKstate (.setNextKey h)) <|
    .ite (.rekeyEnd (.setKstate (.p (.p (.p (.p h)))))) <|
    .ite (.setKstate (.setNextKey (.setCurKey h))) (.ite (.setKstate (.setNextKey (.setCurKey h))) (.setMee h))

theorem Kept.meeEnd {s d i res inst} (h : Kept o s) : Kept o (meeEnd s d i res inst) :=
  .p (.foldl (fun _ _ => .p) (.p (.p (.p (.p h)))))

theorem Kept.writeKeyCmd {s w} (h : Kept o s) : Kept o (writeKeyCmd s w) := by
  unfold Machine.writeKeyCmd
  dsimp only
  split
  · exact .ans h
  · refine .ans ?_
    split
    · exact .meeEnd (.p h)
    · exact .both (fun h' => .p (.setMee h')) .meeEnd (.foldl (fun _ _ => .meeApply) (.p h))

theorem Kept.writeProt {s w} (h : Kept o s) : Kept o (writeProt s w) :=
  .storeIf h

theorem Kept.writeMee {s w} (h : Kept o s) : Kept o (writeMee s w) := by
  unfold Machine.writeMee
  split
  · exact .writeProt h
  · exact .storeIf h
  · exact .writeKeyCmd h
  · exact .storeIf h
  · exact .storeIf h
  · exact .store h

theorem Kept.initWindow {s ch w k} (h : Kept o s) : Kept o (initWindow s ch w k) :=
  .ite (.foldl (fun _ _ => .encStore) h) h

theorem NextKept.execMeeInitDone {die inst s} (h : Kept o s) : NextKept o (execMeeInitDone die inst s) := by
  unfold Machine.execMeeInitDone
  refine .next ?_
  split
  · exact .ite (.when (fun h' => .meeEnd (.setMee h')) (.setMee (.initWindow h))) (.when .meeEnd (.setMee (.initWindow h)))
  · exact h

theorem NextKept.execRekeyLine {die inst s} (h : Kept o s) : NextKept o (execRekeyLine die inst s) :=
  .next (.ite (.rekeyEnd (.meeCnt (.p (.when (fun h' => .encStore (.ddrCnt (.encRead (.ddrCnt h')))) (.serveWrites h))))) h)

theorem Kept.zeroiseKeys {s} (h : Kept o s) : Kept o (zeroiseKeys s) :=
  .foldl (fun _ _ h => .both .meeEnd (fun h' => .foldl (fun _ _ => .p) h') (.foldl (fun _ _ => .p) (.setMee h))) h

/-! ## Machine/Fabric.lean -/

theorem Kept.initFfs {s d p} (h : Kept o s) : Kept o (initFfs s d p) :=
  .foldl (fun _ _ => .setFf) (.withFab h)

theorem Kept.cellEdge {s d t ff ins ce sr late} (h : Kept o s) : Kept o (cellEdge s d t ff ins ce sr late) :=
  .ansData (.ite h (.ite (.setFf h) (.ite (.setFf (.withFresh h)) (.ite (.setFf (.withFresh h)) (.setFf h)))))

theorem Kept.ioEdge {s d p x} (h : Kept o s) : Kept o (ioEdge s d p x) := by
  unfold Machine.ioEdge
  refine .ansData ?_
  split
  · exact .ite (.setIo h) h
  · exact h

theorem Kept.setXing {s k v} (h : Kept o s) : Kept o (s.setXing k v) :=
  .withFab h

theorem Kept.xingSend {s d e g word valid} (h : Kept o s) : Kept o (xingSend s d e g word valid) := by
  unfold Machine.xingSend
  split
  · exact .ite (.ite (.ite h (.setXing h)) (.ite (.ansData (.setXing h)) (.ansData h))) h
  · exact h

theorem Kept.xingRecv {s d e g ready} (h : Kept o s) : Kept o (xingRecv s d e g ready) := by
  unfold Machine.xingRecv
  split
  · dsimp only
    split
    · split
      · exact .ansData h
      · split
        · exact .ite (.ite (.ansData h) (.ansData (.setXing h))) (.ansData (.ite (.setXing h) h))
        · exact .ansData h
    · exact h
  · exact h

theorem Kept.xingClear {s d e} (h : Kept o s) : Kept o (xingClear s d e) :=
  .withFab h

theorem NextKept.execXingGroupUp {die edge s} (h : Kept o s) : NextKept o (execXingGroupUp die edge s) := by
  unfold Machine.execXingGroupUp
  refine .next ?_
  split
  · exact .ite (.when (fun h' => .setBit (.xingClear h')) (.setBit (.xingClear h))) h
  · exact h

theorem NextKept.execXingUnderrun {die edge group s} (h : Kept o s) : NextKept o (execXingUnderrun die edge group s) :=
  .next (.ite (.setXing (.setBit h)) h)

theorem NextKept.execXingRecentre {die edge group s} (h : Kept o s) : NextKept o (execXingRecentre die edge group s) :=
  .next (.ite (.setXing h) h)

theorem NextKept.execFlipFlopEdge {die site ins late s} (h : Kept o s) : NextKept o (execFlipFlopEdge die site ins late s) := by
  unfold Machine.execFlipFlopEdge
  refine .next ?_
  split
  · exact .cellEdge h
  · exact .ioEdge h
  · exact .xingSend h
  · exact .xingRecv h

theorem NextKept.execAsyncSetReset {die tile ff s} (h : Kept o s) : NextKept o (execAsyncSetReset die tile ff s) :=
  .next (.ite h (.setFf h))

theorem NextKept.execShiftRegisterEdge {die tile lower upper ce xa s} (h : Kept o s) :
    NextKept o (execShiftRegisterEdge die tile lower upper ce xa s) :=
  .next (.foldl (fun _ _ => .setLut) h)

theorem NextKept.execDistributedRamWrite {die tile cell i xa xb ce s} (h : Kept o s) :
    NextKept o (execDistributedRamWrite die tile cell i xa xb ce s) :=
  .next (.ansData (.ite (.foldl (fun _ _ => .setLut) h) h))

theorem Kept.bmStep {s d k a b} (h : Kept o s) : Kept o (bmStep s d k a b) :=
  .setBmem (.withFresh h)

theorem NextKept.execBmemPortOp {die site a b s} (h : Kept o s) : NextKept o (execBmemPortOp die site a b s) :=
  .next (.ite h (.both .ansData .ansData (.unless .setChain (.foldl (fun _ _ => .bmStep) h))))

theorem Kept.resetBmOuts {s d} (h : Kept o s) : Kept o (resetBmOuts s d) :=
  .foldl (fun _ _ => .setBmem) h

theorem Kept.arithEdge {s0 d l k c a} (h : Kept o a.1) : Kept o (arithEdge s0 d l k c a).1 := by
  induction l generalizing k c a with
  | nil => exact h
  | cons x xs ih => exact ih (.ite h (.ite (.setArith h) (.setArith h)))

theorem NextKept.execArithSliceEdge {die site drives s} (h : Kept o s) : NextKept o (execArithSliceEdge die site drives s) :=
  .next (.ite h (.ansData (.arithEdge h)))

theorem NextKept.execEvtirqLevel {line level s} (h : Kept o s) : NextKept o (execEvtirqLevel line level s) :=
  .next (.ite (.withUsr h) h)

/-! ## Machine/Lanes.lean -/

theorem Kept.phyCode {s d n w m} (h : Kept o s) : Kept o (phyCode s d n w m).2 := by
  unfold Machine.phyCode
  split
  · split
    · exact h
    · exact .withFresh h
  · split
    · exact h
    · exact h

theorem Kept.portRefresh {s d n} (h : Kept o s) : Kept o (portRefresh s d n) :=
  .ite (.ite (.ite (.p (.p h)) (.p (.p h))) (.p (.p (.setHello (.p h))))) h

theorem Kept.laneClockStop {s d n} (h : Kept o s) : Kept o (laneClockStop s d n) :=
  .foldl (fun _ _ h => .ite (.edgeLoss h) h) h

theorem Kept.laneEndScan {s d n} (h : Kept o s) : Kept o (laneEndScan s d n) :=
  .when (fun h' => .p (.p (.p (.p h')))) (.setLane h)

theorem Kept.laneDown {s d n} (h : Kept o s) : Kept o (laneDown s d n) :=
  .inc (.p h)

theorem Kept.laneGo {s d n st why} (h : Kept o s) : Kept o (laneGo s d n st why) :=
  .portRefresh <| .setLane <|
    .p (.unless (fun h' => .p (.p (.p (.p (.p (.p h')))))) (.when .laneClockStop (.when .laneEndScan (.ite (.laneDown h) h))))

theorem Kept.laneRestart {s d n} (h : Kept o s) : Kept o (laneRestart s d n) :=
  .laneGo (.ite (.p h) h)

theorem Kept.laneTrain {s d n m} (h : Kept o s) : Kept o (laneTrain s d n m) :=
  .laneGo (.setLane h)

theorem Kept.laneBegin {s d n} (h : Kept o s) : Kept o (laneBegin s d n) :=
  .ite (.laneGo h) (.ite (.ite (.p (.laneGo h)) (.ite (.laneTrain h) (.laneGo h))) (.laneTrain h))

theorem Kept.pairIdle {s d k byp} (h : Kept o s) : Kept o (pairIdle s d k byp) :=
  .p (.setPair (.laneGo (.laneGo h)))

theorem Kept.pairRequest {s d k want} (h : Kept o s) : Kept o (pairRequest s d k want) :=
  .ite (.setPair (.p h)) (.unless .pairIdle (.p h))

theorem Kept.pairIdleEnd {s d k} (h : Kept o s) : Kept o (pairIdleEnd s d k) := by
  unfold Machine.pairIdleEnd
  extract_lets x s1
  split
  · exact h
  · split
    · exact h
    · extract_lets s2
      have h1 : Kept o s1 := .setPair h
      have h2 : Kept o s2 := .ite (.p (.laneGo (.laneGo h1))) (.laneBegin (.laneBegin h1))
      split
      · exact .unless .pairIdle h2
      · exact h2

theorem Kept.lanesHandOver {s d} (h : Kept o s) : Kept o (lanesHandOver s d) :=
  .foldl (fun _ _ h => .ite (.pairRequest h) (.ite (.pairRequest h) (.pairIdle (.p h)))) h

theorem Kept.lanesHold {s d} (h : Kept o s) : Kept o (lanesHold s d) :=
  .foldl (fun _ _ h => .setLane (.unless (fun h' => .p (.p (.p h'))) (.p (.p (.p (.foldl (fun _ _ => .p) (.ite h (.laneGo h)))))))) h

theorem Kept.lanesRelease {s d} (h : Kept o s) : Kept o (lanesRelease s d) :=
  .foldl (fun _ _ h => .ite h (.ite (.laneRestart h) (.laneGo h))) h

theorem Kept.lanesSemicolon {s d} (h : Kept o s) : Kept o (lanesSemicolon s d) :=
  .foldl (fun _ _ h => .ite (.ite (.laneGo h) (.ite (.laneGo h) h)) h) h

theorem Kept.lanesStop {s d} (h : Kept o s) : Kept o (lanesStop s d) :=
  .foldl (fun _ _ h => .ite (.ite h (.pairIdle h)) (.setPair (.laneGo (.laneGo h)))) h

theorem Kept.lanesFromSemicolon {s d} (h : Kept o s) : Kept o (lanesFromSemicolon s d) :=
  .foldl (fun _ _ h => .ite (.laneGo h) (.ite (.laneRestart h) h)) h

theorem Kept.lanesFromColon {s d} (h : Kept o s) : Kept o (lanesFromColon s d) :=
  .foldl (fun _ _ h => .ite (.ite h (.pairIdle h)) (.pairIdle (.setPair h))) h

/-! ## Machine/LaneEvents.lean -/

theorem NextKept.execQpllLock {die quad pll hz s} (h : Kept o s) : NextKept o (execQpllLock die quad pll hz s) :=
  .next (.ite (.p (.p (.setQclk h))) h)

theorem NextKept.execQpllUnlock {die quad pll edges s} (h : Kept o s) : NextKept o (execQpllUnlock die quad pll edges s) :=
  .next (.ite (.foldl (fun _ _ h => .ite (.ite (.pairIdle h) (.ite h (.laneRestart h))) h) (.p (.p (.p h)))) h)

theorem NextKept.execAnResolved {die lane partner s} (h : Kept o s) : NextKept o (execAnResolved die lane partner s) := by
  unfold Machine.execAnResolved
  refine .next ?_
  split
  · exact .foldl (fun _ _ h => .ite (.laneTrain h) (.unless .laneTrain (.setLane h))) (.p (.p (.p (.p (.p h)))))
  · exact h

theorem NextKept.execAnFail {die lane partner s} (h : Kept o s) : NextKept o (execAnFail die lane partner s) :=
  .next (.ite (.p (.p (.p h))) h)

theorem NextKept.execAnRestart {die lane s} (h : Kept o s) : NextKept o (execAnRestart die lane s) :=
  .next (.ite (.p h) h)

theorem NextKept.execLaneIdleEnd {die lane s} (h : Kept o s) : NextKept o (execLaneIdleEnd die lane s) :=
  .next (.ite (.laneBegin h) h)

theorem NextKept.execTrainingReady {die lane taps s} (h : Kept o s) : NextKept o (execTrainingReady die lane taps s) :=
  .next (.ite (.laneGo (.p h)) h)

theorem NextKept.execTrainingTimeout {die lane s} (h : Kept o s) : NextKept o (execTrainingTimeout die lane s) :=
  .next (.ite (.p (.laneGo h)) h)

theorem NextKept.execBlockLock {die lane gained s} (h : Kept o s) : NextKept o (execBlockLock die lane gained s) :=
  .next (.ite (.ite (.p (.p (.p h))) (.p (.p h))) h)

theorem NextKept.execAlignComplete {die lane s} (h : Kept o s) : NextKept o (execAlignComplete die lane s) :=
  .next (.ite (.foldl (fun _ _ h => .when (fun h' => .p (.laneGo (.p (.phyCode h')))) (.p (.p h))) h) h)

theorem NextKept.execLinkLoss {die lane cdr s} (h : Kept o s) : NextKept o (execLinkLoss die lane cdr s) :=
  .next (.ite (.laneRestart (.ite h (.p h))) h)

theorem NextKept.execHiBerSet {die lane s} (h : Kept o s) : NextKept o (execHiBerSet die lane s) :=
  .next (.ite (.portRefresh (.p h)) h)

theorem NextKept.execHiBerClear {die lane s} (h : Kept o s) : NextKept o (execHiBerClear die lane s) :=
  .next (.ite (.portRefresh (.p h)) h)

theorem NextKept.execEbOverflow {die lane tx s} (h : Kept o s) : NextKept o (execEbOverflow die lane tx s) :=
  .next (.ite (.p (.setLane h)) h)

theorem Kept.startReadapt {s d n} (h : Kept o s) : Kept o (startReadapt s d n) :=
  .ite (.when .p (.setLane h)) h

theorem NextKept.execBackgroundScan {die lane eyes s} (h : Kept o s) : NextKept o (execBackgroundScan die lane eyes s) :=
  .next (.ite (.when .startReadapt (.when .p (.setLane (.p h)))) h)

theorem NextKept.execReadaptComplete {die lane s} (h : Kept o s) : NextKept o (execReadaptComplete die lane s) :=
  .next (.ite (.when .p (.inc (.setLane h))) h)

theorem NextKept.execEyeScanDone {die lane errors eyes s} (h : Kept o s) : NextKept o (execEyeScanDone die lane errors eyes s) :=
  .next (.ite (.p (.p (.p (.ite (.p h) (.p h))))) h)

theorem NextKept.execPairIdleEnd {die pair s} (h : Kept o s) : NextKept o (execPairIdleEnd die pair s) :=
  .next (.ite (.pairIdleEnd h) h)

theorem Kept.prbsPass {s d} (h : Kept o s) : Kept o (prbsPass s d) :=
  .foldl (fun _ _ h => .ite (.ite (.inc (.withFresh h)) (.p (.withFresh h))) h) h

theorem Kept.writeLanCtrl {s w} (h : Kept o s) : Kept o (writeLanCtrl s w) :=
  .ite (.ans h) (.ans (.unless (fun h' => .ite (.laneGo h') (.unless (fun h1 => .ite h1 h') (.laneRestart h'))) (.setReg h)))

theorem Kept.writeLanMode {s w} (h : Kept o s) : Kept o (writeLanMode s w) :=
  .ite (.ans (.portRefresh (.setReg h))) (.ans h)

theorem Kept.writeLanPair {s w} (h : Kept o s) : Kept o (writeLanPair s w) :=
  .ite (.ans (.pairRequest (.p h))) (.ans (.p h))

theorem Kept.writeEyeCtrl {s w} (h : Kept o s) : Kept o (writeEyeCtrl s w) :=
  .ite (.ans h) (.ans (.when (fun h' => .p (.p h')) (.setReg h)))

theorem Kept.writePrbs {s w} (h : Kept o s) : Kept o (writePrbs s w) :=
  .ite (.ans h) (.ans (.ite (.laneRestart (.when .p (.setReg h))) (.portRefresh (.when .p (.setReg h)))))

theorem Kept.writeQpll {s w pll} (h : Kept o s) : Kept o (writeQpll s w pll) :=
  .ite (.ans (.unless .p (.setReg h))) (.ans h)

theorem Kept.writeLan {s w} (h : Kept o s) : Kept o (writeLan s w) := by
  unfold Machine.writeLan
  split
  · exact .writeLanCtrl h
  · exact .writeLanMode h
  · exact .writeLanPair h
  · exact .storeIf h
  · exact .storeIf h
  · exact .ans (.when .startReadapt (.setReg h))
  · exact .writeEyeCtrl h
  · exact .writePrbs h
  · exact .writeQpll h
  · exact .writeQpll h
  · exact .store h

/-! ## Machine/PenL2.lean -/

theorem Kept.replicaTake {s d i x} (h : Kept o s) : Kept o (replicaTake s d i x) :=
  .setL2 h

theorem Kept.l2Change {s t i x} (h : Kept o s) : Kept o (l2Change s t i x) :=
  .ite (.onDies (fun _ _ h => .ite h (.setPenDie h)) (.setPen (.setL2 h))) (.replicaTake h)

theorem Kept.l2Move {s t i e port} (h : Kept o s) : Kept o (l2Move s t i e port) :=
  .ite (.penCnt h) (.ite (.l2Change (.setWindow h)) (.p (.penCnt (.l2Change h))))

theorem Kept.l2Apply {s t v} (h : Kept o s) : Kept o (l2Apply s t v) := by
  unfold Machine.l2Apply
  split
  · exact .ite (.l2Change h) (.l2Move h)
  · split
    · exact h
    · split
      · exact .l2Change h
      · exact .p (.penCnt h)

theorem Kept.raiseLearn {s d v} (h : Kept o s) : Kept o (raiseLearn s d v) :=
  .ite (.penCnt h) (.ite (.p (.penCnt h)) (.setPenDie h))

theorem Kept.learnFrom {s d mac vid port} (h : Kept o s) : Kept o (learnFrom s d mac vid port).2 := by
  unfold Machine.learnFrom
  split
  · exact .raiseLearn h
  · split
    · split
      · exact h
      · exact .raiseLearn (.setL2 h)
    · split
      · exact .penCnt h
      · exact .raiseLearn h

theorem Kept.l2Flush {s p} (h : Kept o s) : Kept o (l2Flush s p) :=
  .foldl (fun _ _ h => .l2Change (.setWindow h)) h

theorem Kept.l2Command {s op w} (h : Kept o s) : Kept o (l2Command s op w).2 := by
  unfold Machine.l2Command
  extract_lets
  split
  · split
    · split
      · exact .penCnt h
      · exact .second (.l2Change (.setWindow h))
    · split
      · exact .second (.l2Change (.setWindow h))
      · exact .p (.penCnt h)
    · exact .second (.l2Change (.setWindow h))
    · exact h
  · split
    · exact .second (.l2Change (.setWindow h))
    · exact h
  · exact .second (.l2Flush h)
  · exact .second (.l2Flush h)
  · exact .second (.l2Flush h)
  · exact h

theorem Kept.setL2Data {s d w} (h : Kept o s) : Kept o (setL2Data s d w) :=
  .foldl (fun _ _ => .p) h

theorem Kept.l2Read {s d} (h : Kept o s) : Kept o (l2Read s d) := by
  unfold Machine.l2Read
  split
  · exact .p (.setL2Data h)
  · exact .p h

theorem Kept.l2ReadIndex {s d i} (h : Kept o s) : Kept o (l2ReadIndex s d i) :=
  .p (.setL2Data h)

theorem Kept.writeL2Cmd {s w} (h : Kept o s) : Kept o (writeL2Cmd s w) :=
  .ite (.ans h) (.ans (.ite (.l2Read (.setReg h)) (.ite (.l2ReadIndex (.setReg h)) (.setPen (.p (.setReg h))))))

theorem Kept.writeVlanCmd {s w} (h : Kept o s) : Kept o (writeVlanCmd s w) :=
  .ite (.ans h) (.ite (.ans (.foldl (fun _ _ => .setVlanWord) h)) (.ans (.foldl (fun _ _ => .p) h)))

theorem Kept.writeNhCmd {s w} (h : Kept o s) : Kept o (writeNhCmd s w) :=
  .ite (.ans (.setNhop h)) (.ans (.p h))

theorem NextKept.execArbiterApply {src command s} (h : Kept o s) : NextKept o (execArbiterApply src command s) := by
  unfold Machine.execArbiterApply
  refine .next ?_
  split
  · split
    · exact .ite (.p (.p (.l2Command (.setPen h)))) h
    · exact h
  · split
    · exact .ite (.ite (.l2Apply (.setPenDie h)) (.ite (.l2Apply (.setPenDie h)) h)) h
    · exact h

theorem NextKept.execReplicaUpdate {die s} (h : Kept o s) : NextKept o (execReplicaUpdate die s) := by
  unfold Machine.execReplicaUpdate
  refine .next ?_
  split
  · exact .replicaTake (.setPenDie h)
  · exact h

theorem NextKept.execLockExpiry {table index s} (h : Kept o s) : NextKept o (execLockExpiry table index s) := by
  unfold Machine.execLockExpiry
  refine .next ?_
  split
  · exact .ite (.l2Change (.setWindow h)) h
  · exact h

theorem NextKept.execMoveWindowEnd {table index s} (h : Kept o s) : NextKept o (execMoveWindowEnd table index s) := by
  unfold Machine.execMoveWindowEnd
  refine .next ?_
  split
  · dsimp only
    split
    · exact .unless .l2Change (.setWindow h)
    · exact .setWindow h
  · exact h

theorem NextKept.execAgeTick {s} (h : Kept o s) : NextKept o (execAgeTick s) :=
  .next <|
    .ite
      (.foldl (fun _ _ h => .l2Change (.setWindow h)) <|
         .foldl (fun _ _ => .setL2) (.onDies (fun _ _ h => .ite h (.foldl (fun _ _ => .setL2) h)) h))
      h

theorem Kept.copyReplica {s d} (h : Kept o s) : Kept o (copyReplica s d) :=
  .foldl (fun _ _ => .setL2) (.setPen h)

theorem NextKept.execResyncDone {die s} (h : Kept o s) : NextKept o (execResyncDone die s) :=
  .next (.ite (.p (.p (.setPenDie (.copyReplica h)))) h)

/-! ## Machine/PenTime.lean -/

theorem Kept.setTime {s d t} (h : Kept o s) : Kept o (setTime s d t) :=
  .setPenDie (.p (.p h))

theorem Kept.timePass {s ns} (h : Kept o s) : Kept o (timePass s ns) := by
  unfold Machine.timePass
  refine .each (fun _ _ => .setTime) ?_
  split
  · exact .each (fun _ _ => .p) (.setPen h)
  · exact .setPen h

theorem Kept.writeTime {s w} (h : Kept o s) : Kept o (writeTime s w) :=
  .ite (.ans h) (.ans (.setPen h))

theorem Kept.writeTimeAdj {s w} (h : Kept o s) : Kept o (writeTimeAdj s w) :=
  .ite (.ans h) (.ans (.setPen h))

theorem Kept.writeTimeStep {s w} (h : Kept o s) : Kept o (writeTimeStep s w) :=
  .ite (.ans h) (.ans (.setPen h))

theorem NextKept.execPpsInEdge {s} (h : Kept o s) : NextKept o (execPpsInEdge s) :=
  .next (.ite (.p (.p h)) h)

theorem NextKept.execPpsOut {rise s} (h : Kept o s) : NextKept o (execPpsOut rise s) :=
  .next (.ite (.setPen h) h)

theorem Kept.tsRecord {s d port tag t} (h : Kept o s) : Kept o (tsRecord s d port tag t) :=
  .ite (.p (.penCnt (.setPenDie h))) (.setPenDie h)

theorem Kept.tsPop {s d} (h : Kept o s) : Kept o (tsPop s d).2 := by
  unfold Machine.tsPop
  dsimp only
  split
  · exact .p (.setPenDie h)
  · exact .setPenDie h

/-! ## Machine/Capture.lean -/

theorem Kept.capIdle {s d} (h : Kept o s) : Kept o (capIdle s d) :=
  .setSnap (.p (.p (.p h)))

theorem Kept.capCancel {s d} (h : Kept o s) : Kept o (capCancel s d) :=
  .ite (.p (.capIdle h)) h

theorem Kept.writeCap {s w} (h : Kept o s) : Kept o (writeCap s w) :=
  .unless (fun h' => .ite h' (.ans (.when (fun h1 => .p (.p h1)) (.when .capIdle (.p (.setReg h)))))) (.ans h)

theorem Kept.takeSnap {s d} (h : Kept o s) : Kept o (takeSnap s d) :=
  .setSnap (.unless .p (.newEpoch h))

theorem NextKept.execCaptureTrigger {die s} (h : Kept o s) : NextKept o (execCaptureTrigger die s) :=
  .next (.ite (.when .takeSnap (.p (.p h))) h)

theorem NextKept.execCaptureEdge {die s} (h : Kept o s) : NextKept o (execCaptureEdge die s) :=
  .next (.ite (.when .takeSnap (.p h)) h)

theorem NextKept.execCaptureDone {die s} (h : Kept o s) : NextKept o (execCaptureDone die s) :=
  .next (.ite (.pulse (.p (.p (.p (.capIdle h))))) h)

theorem NextKept.execCaptureClkStopped {die s} (h : Kept o s) : NextKept o (execCaptureClkStopped die s) :=
  .next (.ite (.p h) h)

theorem Kept.rbEnd {s d result} (h : Kept o s) : Kept o (rbEnd s d result) :=
  .p (.p (.p (.setRb h)))

theorem Kept.writeRbCtrl {s w} (h : Kept o s) : Kept o (writeRbCtrl s w) :=
  .ite
    (.ite (.ans h) <| .ite (.ans (.rbEnd (.setReg h))) <|
       .ite (.ans (.rbEnd (.setReg h))) (.ite (.ans (.rbEnd (.setReg h))) (.ans (.p (.setRb (.newEpoch (.setReg h))))))) <|
    .store h

theorem Kept.rbAbort {s d} (h : Kept o s) : Kept o (rbAbort s d) :=
  .ite (.rbEnd h) h

/-! ## Machine/SeCore.lean -/

theorem Kept.setSeState {s d i v} (h : Kept o s) : Kept o (s.setSeState d i v) :=
  .p h

theorem Kept.dmNote {s d i w} (h : Kept o s) : Kept o (dmNote s d i w) :=
  .ite (.incSat h) h

theorem Kept.seFlip {s d i pm} (h : Kept o s) : Kept o (seFlip s d i pm).2 := by
  unfold Machine.seFlip
  split
  · exact .p h
  · exact h

theorem Kept.dmPut {s d i flip w v be} (h : Kept o s) : Kept o (dmPut s d i flip w v be) :=
  .ite h (.setDmWord (.ite h (.dmNote h)))

theorem Kept.dmWrite {s d i w ws} (h : Kept o s) : Kept o (dmWrite s d i w ws) :=
  .foldl (fun _ _ => .dmPut) (.seFlip h)

theorem Kept.dmRead {s d i w n} (h : Kept o s) : Kept o (dmRead s d i w n).2 :=
  .foldl (fun _ _ => .dmNote) h

theorem Kept.pmPut {s d i flip n w poison} (h : Kept o s) : Kept o (pmPut s d i flip n w poison) :=
  .setPmWord h

theorem Kept.pmWrite {s d i w ws} (h : Kept o s) : Kept o (pmWrite s d i w ws) := by
  unfold Machine.pmWrite
  refine .foldl ?_ (.seFlip h)
  intro _ _ h
  refine .foldl ?_ h
  intro _ _ h
  dsimp only
  split
  · exact h
  · refine .pmPut ?_
    split
    · exact .ite h (.incSat h)
    · exact h

theorem Kept.pmNote {s d i n} (h : Kept o s) : Kept o (pmNote s d i n) := by
  unfold Machine.pmNote
  split
  · exact .incSat h
  · exact h
  · exact h

theorem Kept.seStopCh {s d i c} (h : Kept o s) : Kept o (seStopCh s d i c) := by
  unfold Machine.seStopCh
  split
  · exact h
  · exact .foldl (fun _ _ h => .ite (.setSeLate (.dmRead h)) (.setSeLate h)) (.withFresh h)

theorem Kept.seStopDma {s d i} (h : Kept o s) : Kept o (seStopDma s d i) :=
  .setEng (.seStopCh (.seStopCh h))

theorem Kept.seOwed {s d i} (h : Kept o s) : Kept o (seOwed s d i) :=
  .ite (.sendCpl (.setEng h)) h

theorem Kept.seError {s d i code resp ch pc} (h : Kept o s) : Kept o (seError s d i code resp ch pc) :=
  .when (fun h' => .seOwed (.setEng h')) (.setBit (.p (.p (.p (.p (.setSeState (.seStopDma (.setEng h))))))))

theorem Kept.seStart {s d i entry ticket desc} (h : Kept o s) : Kept o (seStart s d i entry ticket desc) :=
  .p (.p (.p (.p (.p (.setSeState (.setEng h))))))

theorem Kept.seStop {s d i} (h : Kept o s) : Kept o (seStop s d i) :=
  .ite (.setSeState (.seStopDma (.setEng h))) h

theorem Kept.seAbort {s d i ticket} (h : Kept o s) : Kept o (seAbort s d i ticket) :=
  .ite (.seStop h) h

theorem Kept.seRetire {s d i e npc br0} (h : Kept o s) : Kept o (seRetire s d i e npc br0) :=
  .inc (.inc (.setEng h))

theorem Kept.seIssue {s d i op f} (hf : ∀ t x y, Kept o t → SeKept o (f t x y)) (h : Kept o s) : Kept o (seIssue s d i op f) := by
  refine .ite ?_ h
  extract_lets
  split
  · exact .seError h
  · extract_lets
    split
    · exact .seError (.pmNote h)
    · refine .ite h (.ite (.seError (.pmNote h)) ?_)
      split
      · exact .seError (.pmNote h)
      · next e => exact .seRetire ((hf _ _ _ (.pmNote h)).get e)

/-! ## Machine/SeOps.lean -/

theorem SeKept.seOk {s e} (h : Kept o s) : SeKept o (seOk s e) :=
  .ok h

theorem SeKept.seIll  : SeKept o (seIll) :=
  .err

theorem SeKept.sePoison  : SeKept o (sePoison) :=
  .err

theorem SeKept.seJump {s e t} (h : Kept o s) : SeKept o (seJump s e t) :=
  .seOk h

theorem SeKept.seNop {s e zw} (h : Kept o s) : SeKept o (seNop s e zw) :=
  .seOk h

theorem SeKept.seBr {s e w} (h : Kept o s) : SeKept o (seBr s e w) :=
  .seJump h

theorem SeKept.seBrc {s e w} (h : Kept o s) : SeKept o (seBrc s e w) :=
  .ite .seIll (.ite .sePoison (.seJump h))

theorem SeKept.seCall {s e w} (h : Kept o s) : SeKept o (seCall s e w) :=
  .seJump h

theorem SeKept.seJr {s e w} (h : Kept o s) : SeKept o (seJr s e w) :=
  .ite .sePoison (.seJump h)

theorem SeKept.seReti {s e zw} (h : Kept o s) : SeKept o (seReti s e zw) :=
  .seJump h

theorem SeKept.seRep {s e w} (h : Kept o s) : SeKept o (seRep s e w) :=
  .ite .seIll (.ite .sePoison (.ite .seIll (.ite (.ite (.ok h) (.seOk h)) (.ite (.ok h) (.seOk h)))))

theorem SeKept.seDone {s e w} (h : Kept o s) : SeKept o (seDone s e w) := by
  unfold Machine.seDone
  dsimp only
  split
  · exact .seIll
  · split
    · exact .sePoison
    · split
      · exact .err
      · exact .ok h

theorem SeKept.seInt {s e w} (h : Kept o s) : SeKept o (seInt s e w) :=
  .seOk h

theorem SeKept.seWait {s e w} (h : Kept o s) : SeKept o (seWait s e w) := by
  unfold Machine.seWait
  split
  · exact .seIll
  · split
    · exact .err
    · exact .seOk h

theorem SeKept.seMovc {d i s e w} (h : Kept o s) : SeKept o (seMovc d i s e w) := by
  unfold Machine.seMovc
  dsimp only
  split
  · split
    · exact .seOk h
    · exact .seIll
  · exact .ite .seIll (.ite .sePoison (.ite (.seOk h) (.ite (.seOk h) (.ite (.seOk h) (.ite (.seOk h) (.seOk h))))))

theorem SeKept.seBxset {s e w} (h : Kept o s) : SeKept o (seBxset s e w) :=
  .ite .seIll (.seOk h)

theorem SeKept.seBexp {s e w} (h : Kept o s) : SeKept o (seBexp s e w) :=
  .ite .seIll (.ite (.seOk h) (.ite .sePoison (.seOk h)))

theorem SeKept.seSalu {s e w} (h : Kept o s) : SeKept o (seSalu s e w) :=
  .ite .seIll (.ite .sePoison (.seOk h))

theorem SeKept.seImm {g s e w} (h : Kept o s) : SeKept o (seImm g s e w) :=
  .ite .sePoison (.seOk h)

theorem SeKept.seAddi {s e w} (h : Kept o s) : SeKept o (seAddi s e w) := .seImm h

theorem SeKept.seAndi {s e w} (h : Kept o s) : SeKept o (seAndi s e w) := .seImm h

theorem SeKept.seOri {s e w} (h : Kept o s) : SeKept o (seOri s e w) := .seImm h

theorem SeKept.seXori {s e w} (h : Kept o s) : SeKept o (seXori s e w) := .seImm h

theorem SeKept.seSlti {s e w} (h : Kept o s) : SeKept o (seSlti s e w) := .seImm h

theorem SeKept.seLui {s e w} (h : Kept o s) : SeKept o (seLui s e w) :=
  .seOk h

theorem SeKept.seShi {s e w} (h : Kept o s) : SeKept o (seShi s e w) :=
  .ite .seIll (.ite .sePoison (.seOk h))

theorem SeKept.sePmov {s e w} (h : Kept o s) : SeKept o (sePmov s e w) :=
  .ite .seIll (.ite (.seOk h) (.ite .sePoison (.seOk h)))

theorem SeKept.sePadd {s e w} (h : Kept o s) : SeKept o (sePadd s e w) :=
  .seOk h

theorem SeKept.seLds {d i s e w} (h : Kept o s) : SeKept o (seLds d i s e w) := by
  unfold Machine.seLds
  split
  · exact .err
  · exact .seOk (.dmNote h)

theorem SeKept.seSts {d i s e w} (h : Kept o s) : SeKept o (seSts d i s e w) := by
  unfold Machine.seSts
  split
  · exact .err
  · exact .seOk (.dmWrite h)

theorem SeKept.seLdv {d i s e w} (h : Kept o s) : SeKept o (seLdv d i s e w) := by
  unfold Machine.seLdv
  split
  · exact .err
  · split
    next ed => exact .seOk ((Kept.dmRead h).snd ed)

theorem SeKept.seStv {d i s e w} (h : Kept o s) : SeKept o (seStv d i s e w) := by
  unfold Machine.seStv
  split
  · exact .err
  · exact .seOk (.dmWrite h)

theorem SeKept.seLdvb {d i s e w} (h : Kept o s) : SeKept o (seLdvb d i s e w) := by
  unfold Machine.seLdvb
  split
  · exact .err
  · exact .seOk (.dmNote h)

theorem SeKept.seValu {s e w} (h : Kept o s) : SeKept o (seValu s e w) :=
  .ite .seIll (.ite (.seOk h) (.ite .sePoison (.seOk h)))

theorem SeKept.seVsh {s e w} (h : Kept o s) : SeKept o (seVsh s e w) :=
  .ite .seIll (.ite .sePoison (.seOk h))

theorem SeKept.seVbrd {s e w} (h : Kept o s) : SeKept o (seVbrd s e w) :=
  .ite .seIll (.ite .sePoison (.seOk h))

theorem SeKept.seVext {s e w} (h : Kept o s) : SeKept o (seVext s e w) :=
  .ite .seIll (.ite .sePoison (.seOk h))

theorem SeKept.seAcc {s e k op v} (h : Kept o s) : SeKept o (seAcc s e k op v) :=
  .seOk h

theorem SeKept.seVmac {s e w} (h : Kept o s) : SeKept o (seVmac s e w) :=
  .ite .seIll (.ite .sePoison (.seAcc h))

theorem SeKept.seVacc {s e w} (h : Kept o s) : SeKept o (seVacc s e w) :=
  .ite .seIll (.ite .sePoison (.seAcc h))

theorem SeKept.seVnar {s e w} (h : Kept o s) : SeKept o (seVnar s e w) :=
  .ite .seIll (.ite .sePoison (.seOk h))

theorem SeKept.seDma {d i s e w} (h : Kept o s) : SeKept o (seDma d i s e w) := by
  refine .ite .sePoison (.ite .err ?_)
  split
  next ed => exact .ite .sePoison (.ite .err (.seOk ((Kept.dmRead h).snd ed)))

theorem NextKept.execNop {die eng s} (h : Kept o s) : NextKept o (execNop die eng s) :=
  .next (.seIssue (fun _ _ _ => .seNop) h)

theorem NextKept.execBr {die eng s} (h : Kept o s) : NextKept o (execBr die eng s) :=
  .next (.seIssue (fun _ _ _ => .seBr) h)

theorem NextKept.execBrc {die eng s} (h : Kept o s) : NextKept o (execBrc die eng s) :=
  .next (.seIssue (fun _ _ _ => .seBrc) h)

theorem NextKept.execCall {die eng s} (h : Kept o s) : NextKept o (execCall die eng s) :=
  .next (.seIssue (fun _ _ _ => .seCall) h)

theorem NextKept.execJr {die eng s} (h : Kept o s) : NextKept o (execJr die eng s) :=
  .next (.seIssue (fun _ _ _ => .seJr) h)

theorem NextKept.execReti {die eng s} (h : Kept o s) : NextKept o (execReti die eng s) :=
  .next (.seIssue (fun _ _ _ h => .seReti (.p h)) h)

theorem NextKept.execRep {die eng s} (h : Kept o s) : NextKept o (execRep die eng s) :=
  .next (.seIssue (fun _ _ _ => .seRep) h)

theorem NextKept.execDoneOp {die eng s} (h : Kept o s) : NextKept o (execDoneOp die eng s) :=
  .next (.seIssue (fun _ _ _ => .seDone) h)

theorem NextKept.execIntOp {die eng s} (h : Kept o s) : NextKept o (execIntOp die eng s) :=
  .next (.seIssue (fun _ _ _ => .seInt) h)

theorem NextKept.execMovc {die eng s} (h : Kept o s) : NextKept o (execMovc die eng s) :=
  .next (.seIssue (fun _ _ _ => .seMovc) h)

theorem NextKept.execWait {die eng s} (h : Kept o s) : NextKept o (execWait die eng s) :=
  .next (.ite (.setSeState h) (.seIssue (fun _ _ _ => .seWait) h))

theorem NextKept.execDma {die eng s} (h : Kept o s) : NextKept o (execDma die eng s) :=
  .next (.ite (.inc (.inc h)) (.seIssue (fun _ _ _ => .seDma) h))

theorem NextKept.execBxset {die eng s} (h : Kept o s) : NextKept o (execBxset die eng s) :=
  .next (.seIssue (fun _ _ _ => .seBxset) h)

theorem NextKept.execSalu {die eng s} (h : Kept o s) : NextKept o (execSalu die eng s) :=
  .next (.seIssue (fun _ _ _ => .seSalu) h)

theorem NextKept.execAddi {die eng s} (h : Kept o s) : NextKept o (execAddi die eng s) :=
  .next (.seIssue (fun _ _ _ => .seAddi) h)

theorem NextKept.execAndi {die eng s} (h : Kept o s) : NextKept o (execAndi die eng s) :=
  .next (.seIssue (fun _ _ _ => .seAndi) h)

theorem NextKept.execOri {die eng s} (h : Kept o s) : NextKept o (execOri die eng s) :=
  .next (.seIssue (fun _ _ _ => .seOri) h)

theorem NextKept.execXori {die eng s} (h : Kept o s) : NextKept o (execXori die eng s) :=
  .next (.seIssue (fun _ _ _ => .seXori) h)

theorem NextKept.execLui {die eng s} (h : Kept o s) : NextKept o (execLui die eng s) :=
  .next (.seIssue (fun _ _ _ => .seLui) h)

theorem NextKept.execShi {die eng s} (h : Kept o s) : NextKept o (execShi die eng s) :=
  .next (.seIssue (fun _ _ _ => .seShi) h)

theorem NextKept.execSlti {die eng s} (h : Kept o s) : NextKept o (execSlti die eng s) :=
  .next (.seIssue (fun _ _ _ => .seSlti) h)

theorem NextKept.execPmov {die eng s} (h : Kept o s) : NextKept o (execPmov die eng s) :=
  .next (.seIssue (fun _ _ _ => .sePmov) h)

theorem NextKept.execPadd {die eng s} (h : Kept o s) : NextKept o (execPadd die eng s) :=
  .next (.seIssue (fun _ _ _ => .sePadd) h)

theorem Kept.seGuard {s d i guard} (h : Kept o s) : Kept o (seGuard s d i guard) :=
  .ite (.inc (.inc h)) h

theorem NextKept.execLds {die eng s guard} (h : Kept o s) : NextKept o (execLds die eng s guard) :=
  .next (.seIssue (fun _ _ _ => .seLds) (.seGuard h))

theorem NextKept.execSts {die eng s guard} (h : Kept o s) : NextKept o (execSts die eng s guard) :=
  .next (.seIssue (fun _ _ _ => .seSts) (.seGuard h))

theorem NextKept.execLdv {die eng s guard} (h : Kept o s) : NextKept o (execLdv die eng s guard) :=
  .next (.seIssue (fun _ _ _ => .seLdv) (.seGuard h))

theorem NextKept.execStv {die eng s guard} (h : Kept o s) : NextKept o (execStv die eng s guard) :=
  .next (.seIssue (fun _ _ _ => .seStv) (.seGuard h))

theorem NextKept.execLdvb {die eng s guard} (h : Kept o s) : NextKept o (execLdvb die eng s guard) :=
  .next (.seIssue (fun _ _ _ => .seLdvb) (.seGuard h))

theorem NextKept.execValu {die eng s} (h : Kept o s) : NextKept o (execValu die eng s) :=
  .next (.seIssue (fun _ _ _ => .seValu) h)

theorem NextKept.execVsh {die eng s} (h : Kept o s) : NextKept o (execVsh die eng s) :=
  .next (.seIssue (fun _ _ _ => .seVsh) h)

theorem NextKept.execVbrd {die eng s} (h : Kept o s) : NextKept o (execVbrd die eng s) :=
  .next (.seIssue (fun _ _ _ => .seVbrd) h)

theorem NextKept.execVext {die eng s} (h : Kept o s) : NextKept o (execVext die eng s) :=
  .next (.seIssue (fun _ _ _ => .seVext) h)

theorem NextKept.execVmac {die eng s} (h : Kept o s) : NextKept o (execVmac die eng s) :=
  .next (.seIssue (fun _ _ _ => .seVmac) h)

theorem NextKept.execVacc {die eng s} (h : Kept o s) : NextKept o (execVacc die eng s) :=
  .next (.seIssue (fun _ _ _ => .seVacc) h)

theorem NextKept.execVnar {die eng s} (h : Kept o s) : NextKept o (execVnar die eng s) :=
  .next (.seIssue (fun _ _ _ => .seVnar) h)

theorem NextKept.execBexp {die eng s} (h : Kept o s) : NextKept o (execBexp die eng s) :=
  .next (.seIssue (fun _ _ _ => .seBexp) h)

/-! ## Machine/SeEvents.lean -/

theorem Kept.waitPass {s d i} (h : Kept o s) : Kept o (waitPass s d i) :=
  .ite (.setEng (.withFresh h)) h

theorem NextKept.execWaitRelease {die eng held s} (h : Kept o s) : NextKept o (execWaitRelease die eng held s) :=
  .next (.ite (.seIssue (fun _ _ _ => .seWait) (.setSeState (.inc (.inc (.setEng h))))) h)

theorem NextKept.execDoneCompletion {die eng s} (h : Kept o s) : NextKept o (execDoneCompletion die eng s) := by
  refine .next ?_
  extract_lets e
  split
  · refine .ite ?_ h
    split
    · exact .seError h
    · exact .ite (.setBit (.setSeState (.setEng h))) (.sendCpl (.setSeState (.setEng h)))
  · exact h

theorem NextKept.execInterruptTaken {die eng s} (h : Kept o s) : NextKept o (execInterruptTaken die eng s) :=
  .next (.ite (.p (.setSeState (.setEng h))) h)

theorem Kept.seBegin {s d i} (h : Kept o s) : Kept o (seBegin s d i) :=
  .p (.seStart h)

theorem NextKept.execHaltComplete {die eng s} (h : Kept o s) : NextKept o (execHaltComplete die eng s) :=
  .next (.ite (.when .seBegin (.setSeState (.setEng h))) h)

theorem Kept.writeSeaCtrl {s d i mode start halt} (h : Kept o s) : Kept o (writeSeaCtrl s d i mode start halt) :=
  .ite (.ans h) (.ans (.ite (.setSeState (.p h)) (.when (fun h' => .ite (.p h') (.seBegin h')) (.p h))))

theorem Kept.seRing {s d i} (h : Kept o s) : Kept o (seRing s d i) :=
  .setEng (.waitPass h)

theorem Kept.writeSea {s w} (h : Kept o s) : Kept o (writeSea s w) := by
  unfold Machine.writeSea
  split
  · exact .writeSeaCtrl h
  · exact .ans (.ite (.seRing h) h)
  · exact .store h

theorem Kept.seAccess {s q d i off} (h : Kept o s) : Kept o (seAccess s q d i off) :=
  .unless
    (fun h' =>
       .ite (.ans h) <| .ite h' <| .ite (.ite (.withReply (.dmRead h)) (.ans (.dmWrite h))) <|
         .ite (.withReply (.foldl (fun _ _ => .pmNote) h)) (.ite (.ans h) (.ans (.pmWrite h)))) <| .ans h

theorem Kept.seMemReq {s q d i off} (h : Kept o s) : Kept o (seMemReq s q d i off) := by
  unfold Machine.seMemReq
  split
  · next e => exact .ans ((Kept.routeTo h).snd e)
  · next e => exact .seAccess ((Kept.routeTo h).snd e)

theorem Kept.seTake {s q} (h : Kept o s) : Kept o (seTake s q) := by
  unfold Machine.seTake
  dsimp only
  split
  · exact .ans h
  · split
    · exact .coreSees (.seMemReq h)
    · exact .coreSees (.ans h)
    · exact h
    · exact h
    · exact h
    · exact h
    · exact h

theorem NextKept.execSeNocAccess {req s} (h : Kept o s) : NextKept o (execSeNocAccess req s) :=
  .next (.ifIssued (fun _ => .seTake) h)

/-! ## Machine/Dispatcher.lean -/

theorem Kept.dfdCnt {s d k n} (h : Kept o s) : Kept o (dfdCnt s d k n) :=
  .inc h

theorem Kept.setDfd {s d x} (h : Kept o s) : Kept o (s.setDfd d x) :=
  .foldl (fun _ _ h => .p (.p h)) (.p (.p (.p (.p (.p (.putDfd h))))))

theorem Kept.showOutst {s d n} (h : Kept o s) : Kept o (showOutst s d n) :=
  .p h

theorem Kept.writeDesc {s d n w v} (h : Kept o s) : Kept o (writeDesc s d n w v) :=
  .ite (.ite (.ans h) (.ans (.p (.p (.putDfd h))))) (.ite (.ite (.ans h) (.ans (.p h))) (.ans (.p h)))

theorem Kept.joinList {s d k e} (h : Kept o s) : Kept o (joinList s d k e) := by
  unfold Machine.joinList
  exact .setDfd h

theorem Kept.placeFiring {s d n pl} (h : Kept o s) : Kept o (placeFiring s d n pl) := by
  unfold Machine.placeFiring
  dsimp only
  split
  · exact .joinList h
  · exact .setDfd h
  · exact h

theorem Kept.fireOp {fuel s d n} (h : Kept o s) : Kept o (fireOp fuel s d n) := by
  induction fuel generalizing s with
  | zero => exact h
  | succ fuel ih =>
    exact .ite h (.ite h (ih (.both (fun h' => .dfdCnt (.p h')) .placeFiring (.dfdCnt (.p h)))))

theorem Kept.countToken {s d w} (h : Kept o s) : Kept o (countToken s d w) :=
  .ite (.dfdCnt h) (.ite (.p (.dfdCnt h)) (.ite h (.fireOp (.p (.dfdCnt h)))))

theorem Kept.tokenWrite {s d m w} (h : Kept o s) : Kept o (tokenWrite s d m w) :=
  .ite (.ans (.countToken (.ite (.dfdCnt h) h))) (.ans h)

theorem Kept.deliver {s d l} (h : Kept o s) : Kept o (deliver s d l) :=
  .foldl (fun _ _ h => .ite (.dfdCnt (.putDfd h)) (.ite (.countToken h) (.p (.dfdCnt h)))) h

theorem Kept.issueTo {s d cls re e u aff} (h : Kept o s) : Kept o (issueTo s d cls re e u aff) :=
  .both .seStart (fun h' => .ite (.setKslot h') (.ite (.p h') h')) (.when .dfdCnt (.showOutst (.dfdCnt (.setDfd h))))

theorem Kept.dropTicket {s d t} (h : Kept o s) : Kept o (dropTicket s d t) := by
  unfold Machine.dropTicket
  dsimp only
  split
  · exact .showOutst (.setDfd h)
  · exact .setDfd h

theorem Kept.requeue {s d e} (h : Kept o s) : Kept o (requeue s d e) := by
  unfold Machine.requeue
  exact .setDfd h

theorem Kept.firingFailed {s d t kind} (h : Kept o s) : Kept o (firingFailed s d t kind) :=
  .ite (.dfdCnt (.requeue (.ite (.clrBit h) h))) (.unless (fun h' => .p (.p (.p (.p (.p h'))))) (.p (.dfdCnt (.ite (.clrBit h) h))))

theorem Kept.staleCpl {s d n} (h : Kept o s) : Kept o (staleCpl s d n) :=
  .p h

theorem Kept.complete {s d c} (h : Kept o s) : Kept o (complete s d c) := by
  unfold Machine.complete
  split
  · exact .ite (.both (fun h' => .deliver (.dfdCnt h')) .firingFailed (.when .pulse (.dropTicket h))) (.staleCpl (.dropTicket h))
  · exact h

theorem Kept.cqRevoke {s d c t} (h : Kept o s) : Kept o (cqRevoke s d c t) := by
  unfold Machine.cqRevoke
  dsimp only
  split
  · exact .ite (.p (.p (.p h))) (.dropTicket (.setDfd h))
  · exact h

theorem Kept.kslotAbort {s d k t} (h : Kept o s) : Kept o (kslotAbort s d k t) :=
  .setKslot h

theorem Kept.revoke {s d t} (h : Kept o s) : Kept o (revoke s d t) :=
  .ite (.seAbort (.showOutst (.setDfd h))) (.ite (.cqRevoke (.showOutst (.setDfd h))) (.kslotAbort (.showOutst (.setDfd h))))

theorem Kept.migrate {s d t} (h : Kept o s) : Kept o (migrate s d t) :=
  .ite (.dfdCnt (.requeue (.revoke h))) (.putDfd h)

theorem Kept.migrateAll {s d l} (h : Kept o s) : Kept o (migrateAll s d l).1 :=
  .foldl (fun _ _ => .migrate) h

theorem Kept.evacuateUnit {s d u} (h : Kept o s) : Kept o (evacuateUnit s d u).1 :=
  .migrateAll (.clrBit h)

theorem Kept.abortUnit {s d u} (h : Kept o s) : Kept o (abortUnit s d u) :=
  .foldl (fun _ _ h => .dfdCnt (.revoke h)) h

theorem Kept.unitLost {s d u} (h : Kept o s) : Kept o (unitLost s d u) :=
  .foldl (fun _ _ h => .ite (.migrate h) (.firingFailed (.revoke h))) h

theorem Kept.abortOp {s d n} (h : Kept o s) : Kept o (abortOp s d n) :=
  .p (.p (.dfdCnt (.setDfd (.foldl (fun _ _ h => .dfdCnt (.revoke h)) h))))

theorem Kept.zeroCounts {s d} (h : Kept o s) : Kept o (zeroCounts s d) :=
  .foldl (fun _ _ => .p) h

theorem Kept.restartReport {s d} (h : Kept o s) : Kept o (restartReport s d) :=
  .putDfd h

theorem Kept.nextEpoch {s d} (h : Kept o s) : Kept o (nextEpoch s d) :=
  .p (.p (.inc (.restartReport h)))

theorem Kept.boundary {s d} (h : Kept o s) : Kept o (boundary s d) :=
  .nextEpoch (.zeroCounts (.p h))

theorem Kept.emptyLists {s d} (h : Kept o s) : Kept o (emptyLists s d) :=
  .foldl (fun _ _ => .p) (.setDfd h)

theorem Kept.epochAbort {s d} (h : Kept o s) : Kept o (epochAbort s d) :=
  .nextEpoch (.zeroCounts (.foldl (fun _ _ => .p) (.emptyLists (.foldl (fun _ _ => .revoke) h))))

theorem Kept.cmdBad {s d} (h : Kept o s) : Kept o (cmdBad s d) :=
  .ans (.p h)

theorem Kept.cmdOk {s d m deferred} (h : Kept o s) : Kept o (cmdOk s d m deferred) :=
  .ans (.p (.p h))

theorem Kept.dfdCmd {s d m op arg} (h : Kept o s) : Kept o (dfdCmd s d m op arg) := by
  unfold Machine.dfdCmd
  dsimp only
  split
  · exact .ite (.cmdBad h) (.cmdOk (.migrateAll h))
  · exact .ite (.cmdOk (.evacuateUnit h)) (.cmdBad h)
  · exact .ite (.cmdBad h) (.cmdOk (.abortOp h))
  · exact .ite (.cmdOk (.abortUnit h)) (.cmdBad h)
  · exact .ite (.cmdBad h) (.cmdOk (.foldl (fun _ _ h => .p (.putDfd h)) h))
  · exact .ite (.cmdBad h) (.cmdOk (.foldl (fun _ _ => .epochAbort) h))
  · exact .cmdBad h

theorem Kept.writeEnable {s d en} (h : Kept o s) : Kept o (writeEnable s d en) :=
  .ite (.ans h) (.ans (.ite (.p (.p h)) (.when .p (.p h))))

theorem Kept.cqPop {s d c} (h : Kept o s) : Kept o (cqPop s d c).2 := by
  unfold Machine.cqPop
  dsimp only
  split
  · exact .foldl (fun _ _ => .p) (.setDfd h)
  · exact h

theorem Kept.cqRelease {s d c} (h : Kept o s) : Kept o (cqRelease s d c) := by
  unfold Machine.cqRelease
  extract_lets
  split
  · extract_lets s1
    have h1 : Kept o s1 := .setDfd h
    split
    · exact .sendCpl h1
    · exact h1
  · exact h

theorem Kept.cqComplete {s d c rid status ntok t} (h : Kept o s) : Kept o (cqComplete s d c rid status ntok t) :=
  .ite (.ans (.cqRelease (.setDfd h))) (.ans h)

theorem Kept.cqFlush {s d c} (h : Kept o s) : Kept o (cqFlush s d c) := by
  unfold Machine.cqFlush
  exact .setDfd (.foldl (fun _ _ => .dropTicket) (.unitLost h))

theorem Kept.writeCqCfg {s w} (h : Kept o s) : Kept o (writeCqCfg s w) :=
  .ite (.ans h) (.when (fun h' => .ans (.cqFlush h')) (.store h))

theorem Kept.writeDfd {s w} (h : Kept o s) : Kept o (writeDfd s w) := by
  unfold Machine.writeDfd
  dsimp only
  split
  · exact .writeDesc h
  · exact .tokenWrite h
  · exact .dfdCmd h
  · exact .writeEnable h
  · exact .storeIf h
  · exact .storeIf h
  · exact .store (.putDfd h)
  · exact .writeCqCfg h
  · exact .cqComplete h
  · exact .store h

/-! ## Machine/PenFrames.lean -/

theorem Kept.replyBytes {s b} (h : Kept o s) : Kept o (replyBytes s b) :=
  .ansData h

theorem Kept.matchRate {s d n fill} (h : Kept o s) : Kept o (matchRate s d n fill).2 := by
  unfold Machine.matchRate
  split
  · exact .inc h
  · split
    · exact .inc h
    · exact h

theorem Kept.txCoding {s d p} (h : Kept o s) : Kept o (txCoding s d p).2 :=
  .foldlOf Prod.snd (fun _ _ h => .setLane (.matchRate (.withFresh h))) h

theorem Kept.laneTx {s d p f} (h : Kept o s) : Kept o (laneTx s d p f) :=
  .replyBytes (.p (.when .tsRecord (.when .portCnt (.portCnt (.portCnt (.txCoding h))))))

theorem Kept.queueOrDrop {s d e f} (h : Kept o s) : Kept o (queueOrDrop s d e f) := by
  unfold Machine.queueOrDrop
  split
  · next e => exact ((OptKept.enqueue h).get e)
  · exact .portCnt h

theorem Kept.localSend {s d f code} (h : Kept o s) : Kept o (localSend s d f code) := by
  unfold Machine.localSend
  dsimp only
  split
  · exact .ite (.penCnt h) (.ite (.penCnt h) (.ite (.portCnt h) (.ite (.laneTx h) (.queueOrDrop h))))
  · exact .ite (.penCnt h) (.ite (.queueOrDrop h) (.penCnt h))
  · exact .ite (.queueOrDrop h) (.penCnt h)
  · exact .ite h (.penCnt h)

theorem Kept.trunkSend {s d t f} (h : Kept o s) : Kept o (trunkSend s d t f) := by
  unfold Machine.trunkSend
  split
  · exact .penCnt h
  · split
    · next e => exact ((OptKept.enqueue h).get e)
    · exact .penCnt h

theorem Kept.sendTo {s d f code} (h : Kept o s) : Kept o (sendTo s d f code) :=
  .ite (.localSend h) (.ite (.trunkSend h) (.penCnt h))

theorem Kept.floodLocal {s d f} (h : Kept o s) : Kept o (floodLocal s d f) :=
  .foldl (fun _ _ h => .localSend (.penCnt h)) h

theorem Kept.flood {s d f} (h : Kept o s) : Kept o (flood s d f) :=
  .foldl (fun _ _ h => .trunkSend (.penCnt h)) (.floodLocal h)

theorem Kept.ethForward {s d f} (h : Kept o s) : Kept o (ethForward s d f) := by
  unfold Machine.ethForward
  dsimp only
  split
  · exact .flood h
  · split
    · exact .flood h
    · exact .unless (fun h' => .ite (.flood h') (.sendTo h')) (.setL2 h)

theorem Kept.tnbDrop {s d reason} (h : Kept o s) : Kept o (tnbDrop s d reason) :=
  .p (.penCnt h)

theorem Kept.tnbForward {s d f} (h : Kept o s) : Kept o (tnbForward s d f) := by
  unfold Machine.tnbForward
  split
  · exact .tnbDrop h
  · exact .ite (.tnbDrop h) (.sendTo h)

theorem Kept.laneCoding {s d n c} (h : Kept o s) : Kept o (laneCoding s d n c).2 :=
  .setLane (.matchRate (.inc (.inc (.inc (.inc h)))))

theorem Kept.takeCoding {s d p cs} (h : Kept o s) : Kept o (takeCoding s d p cs).2 :=
  .foldlOf Prod.snd (fun _ _ => .laneCoding) h

theorem Kept.holdFrame {s d p k b bad} (h : Kept o s) : Kept o (holdFrame s d p k b bad) :=
  .ite (.setLane (.wakeDie h)) (.inc (.setLane (.wakeDie h)))

theorem Kept.macTake {s d p tnb b bad} (h : Kept o s) : Kept o (macTake s d p tnb b bad).2 := by
  unfold Machine.macTake
  split
  · exact .portCnt (.portCnt h)
  · exact .portCnt h

theorem Kept.receiveBad {s d p f} (h : Kept o s) : Kept o (receiveBad s d p f) := by
  unfold Machine.receiveBad
  split
  · exact .laneTx h
  · exact h

theorem Kept.takePause {s d p b} (h : Kept o s) : Kept o (takePause s d p b) :=
  .ite (.foldl (fun _ _ => .setPaused) h) (.ite (.foldl (fun _ _ h => .ite (.setPaused h) h) h) h)

theorem Kept.learnStep {s d p f} (h : Kept o s) : Kept o (learnStep s d p f).2 := by
  unfold Machine.learnStep
  split
  · exact .learnFrom h
  · exact h

theorem Kept.trapOrDrop {s d p f} (h : Kept o s) : Kept o (trapOrDrop s d p f) :=
  .ite (.foldl (fun _ _ => .localSend) h) (.portCnt h)

theorem Kept.ethReceived {s d p b t} (h : Kept o s) : Kept o (ethReceived s d p b t) := by
  unfold Machine.ethReceived
  split
  · dsimp only
    split
    · exact .penCnt h
    · split
      · next e => exact ((Kept.learnStep h).snd e)
      · next e =>
          have h1 := (Kept.learnStep h).snd e
          exact .ite (.ethForward h1) (.trapOrDrop h1)

theorem Kept.takeEth {s d p frame bad t} (h : Kept o s) : Kept o (takeEth s d p frame bad t) := by
  unfold Machine.takeEth
  dsimp only
  split
  · next e => exact .receiveBad ((Kept.macTake h).snd e)
  · next e =>
      have h1 := (Kept.macTake h).snd e
      exact .ite (.takePause h1) (.ethReceived h1)

theorem Kept.takePauseFrame {s d p frame bad} (h : Kept o s) : Kept o (takePauseFrame s d p frame bad) := by
  unfold Machine.takePauseFrame
  split
  · next e => exact ((Kept.macTake h).snd e)
  · next e => exact .takePause ((Kept.macTake h).snd e)

theorem Kept.takeData {s d p frame bad t} (h : Kept o s) : Kept o (takeData s d p frame bad t) := by
  unfold Machine.takeData
  dsimp only
  split
  · next e => exact .receiveBad ((Kept.macTake h).snd e)
  · next e =>
      have h1 := (Kept.macTake h).snd e
      split
      · exact .tnbDrop h1
      · exact .ite h1 (.ite (.portCnt h1) (.tnbForward h1))

theorem Kept.takeHello {s d p frame bad} (h : Kept o s) : Kept o (takeHello s d p frame bad) := by
  unfold Machine.takeHello
  dsimp only
  split
  · next e => exact ((Kept.macTake h).snd e)
  · next e =>
      have h1 := (Kept.macTake h).snd e
      exact .ite h1 (.ite (.p (.p h1)) (.ite (.p h1) (.when .p (.p (.p (.setHello h1))))))

theorem Kept.takeFrame {s d p k b bad t} (h : Kept o s) : Kept o (takeFrame s d p k b bad t) := by
  unfold Machine.takeFrame
  split
  · exact .takeEth h
  · exact .takePauseFrame h
  · exact .takeData h
  · exact .takeHello h

theorem Kept.deliverHeld {s d p} (h : Kept o s) : Kept o (deliverHeld s d p) :=
  .ite (.foldl (fun _ _ h => .ite (.takeFrame h) h) (.setLane h)) h

theorem Kept.receiveFrame {s d p k b cs} (h : Kept o s) : Kept o (receiveFrame s d p k b cs) :=
  .ite (.ite (.holdFrame (.takeCoding h)) (.takeFrame (.deliverHeld (.takeCoding h)))) h

theorem NextKept.execFrameReceive {die lane frame codings s} (h : Kept o s) : NextKept o (execFrameReceive die lane frame codings s) :=
  .next (.receiveFrame h)

theorem NextKept.execPauseReceive {die lane frame codings s} (h : Kept o s) : NextKept o (execPauseReceive die lane frame codings s) :=
  .next (.ite (.receiveFrame h) h)

theorem NextKept.execPauseExpiry {die lane queue s} (h : Kept o s) : NextKept o (execPauseExpiry die lane queue s) :=
  .next (.setPaused h)

theorem NextKept.execTnbDataReceive {die lane frame codings s} (h : Kept o s) : NextKept o (execTnbDataReceive die lane frame codings s) :=
  .next (.ite (.receiveFrame h) h)

/-! ## Machine/Fifos.lean -/

theorem Kept.notePoison {s d n w} (h : Kept o s) : Kept o (notePoison s d n w) :=
  .ite (.p h) h

theorem NextKept.execPfifoIngressTransfer {die fifo s} (h : Kept o s) : NextKept o (execPfifoIngressTransfer die fifo s) := by
  unfold Machine.execPfifoIngressTransfer
  refine .next ?_
  split
  · split
    · exact h
    · exact .ansData (.setFifo (.notePoison h))
  · exact h

theorem NextKept.execPfifoIngressDrop {die fifo s} (h : Kept o s) : NextKept o (execPfifoIngressDrop die fifo s) :=
  .next (.ite (.inc (.setFifo h)) h)

theorem Kept.lookupSend {s d f tnb pvid member} (h : Kept o s) : Kept o (lookupSend s d f tnb pvid member) := by
  unfold Machine.lookupSend
  split
  · split
    · exact .tnbDrop h
    · exact .tnbForward h
  · exact .ite (.penCnt h) (.ethForward h)

theorem Kept.fabSend {s d n f port} (h : Kept o s) : Kept o (fabSend s d n f port) :=
  .ite (.lookupSend h) (.ite (.localSend h) (.penCnt h))

theorem Kept.takeOut {fuel s d n} (h : Kept o s) : Kept o (takeOut fuel s d n) := by
  induction fuel generalizing s with
  | zero => exact h
  | succ fuel ih =>
    unfold Machine.takeOut
    extract_lets
    split
    · exact h
    · exact .ite h (ih (.fabSend (.setFifo h)))

theorem Kept.abortOpen {s d n} (h : Kept o s) : Kept o (abortOpen s d n) :=
  .ite (.inc (.setFifo h)) h

theorem Kept.egressFlags {s d n} (h : Kept o s) : Kept o (egressFlags s d n) :=
  .ansData h

theorem NextKept.execPfifoEgressTransfer {die fifo word s} (h : Kept o s) : NextKept o (execPfifoEgressTransfer die fifo word s) := by
  refine .next (.ite h (.egressFlags (.ite h (.ite (.p h) ?_))))
  exact .takeOut (.setFifo (.notePoison (.ite (.p (.abortOpen h)) h)))

theorem NextKept.execPfifoEgressDrop {die fifo s} (h : Kept o s) : NextKept o (execPfifoEgressDrop die fifo s) :=
  .next (.ite (.abortOpen h) h)

theorem Kept.writeAfull {s w} (h : Kept o s) : Kept o (writeAfull s w) :=
  .storeIf h

theorem Kept.flushPair {s d n count} (h : Kept o s) : Kept o (flushPair s d n count) :=
  .setFifo (.setFifo (.ite (.inc h) h))

theorem Kept.showIdle {s d k idle} (h : Kept o s) : Kept o (showIdle s d k idle) :=
  .p h

theorem NextKept.execKslotDescTransfer {die slot s idle} (h : Kept o s) : NextKept o (execKslotDescTransfer die slot s idle) := by
  unfold Machine.execKslotDescTransfer
  refine .next ?_
  split
  · split
    · exact h
    · exact .ansData (.showIdle (.setKslot h))
  · exact h

theorem NextKept.execKslotCompletion {die slot cpl s idle} (h : Kept o s) : NextKept o (execKslotCompletion die slot cpl s idle) :=
  .next (.ite h (.showIdle (.ite (.setKslot h) (.when .pulse (.incSat h)))))

theorem NextKept.execKslotCompletionRelease {die slot s} (h : Kept o s) : NextKept o (execKslotCompletionRelease die slot s) := by
  unfold Machine.execKslotCompletionRelease
  refine .next ?_
  split
  · exact h
  · split
    · exact h
    · exact .ite (.sendCpl (.setKslot h)) h

/-! ## Machine/Regions.lean -/

theorem Kept.setPrState {s d r v} (h : Kept o s) : Kept o (setPrState s d r v) :=
  .p h

theorem Kept.setSlot {s d k v} (h : Kept o s) : Kept o (setSlot s d k v) :=
  .p h

theorem Kept.slotRest {s d k} (h : Kept o s) : Kept o (slotRest s d k) :=
  .ite (.setSlot h) (.ite (.setSlot h) (.when .p (.setSlot h)))

theorem Kept.unmark {s d r k} (h : Kept o s) : Kept o (unmark s d r k) :=
  .ite (.setBit (.putDfd h)) h

theorem Kept.evacuateSlot {s d r k} (h : Kept o s) : Kept o (evacuateSlot s d r k) :=
  .evacuateUnit (.ite (.putDfd h) h)

theorem Kept.startClose {s d r} (h : Kept o s) : Kept o (startClose s d r) :=
  .foldl (fun _ _ h => .when .evacuateSlot (.ite (.setSlot h) h)) (.setPr (.setPrState h))

theorem Kept.startRelease {s d r} (h : Kept o s) : Kept o (startRelease s d r) :=
  .initFfs (.setPrState h)

theorem Kept.takePending {s d r go} (hf : ∀ t, Kept o t → Kept o (go t)) (h : Kept o s) : Kept o (takePending s d r go) :=
  .ite (hf _ (.p h)) h

theorem Kept.writePrCtrl {s w} (h : Kept o s) : Kept o (writePrCtrl s w) :=
  .unless
    (fun h' =>
       .ite (.ite (.ans (.startClose (.setReg h))) (.ite (.ans (.p (.setReg h))) (.ans h))) <|
         .ite h' (.ite (.ans (.startRelease (.setReg h))) (.ite (.ans (.p (.setReg h))) (.ans (.setReg h))))) <| .ans h

theorem Kept.showIdles {s d r idle} (h : Kept o s) : Kept o (showIdles s d r idle) :=
  .foldl (fun _ _ => .showIdle) h

theorem NextKept.execPrSlotsOffline {die region idle s} (h : Kept o s) : NextKept o (execPrSlotsOffline die region idle s) :=
  .next (.ite (.foldl (fun _ _ h => .ite (.setSlot h) h) (.showIdles h)) h)

theorem Kept.flushPort {s d p} (h : Kept o s) : Kept o (flushPort s d p) :=
  .flushNear h

theorem NextKept.execPrPortsDrained {die region s} (h : Kept o s) : NextKept o (execPrPortsDrained die region s) :=
  .next (.ite (.setPr (.foldl (fun _ _ h => .abortOpen (.setFifo h)) (.foldl (fun _ _ => .flushPort) h))) h)

theorem Kept.cancelRepairs {s d r} (h : Kept o s) : Kept o (cancelRepairs s d r) :=
  .foldl (fun _ _ h => .p (.p h)) (.setSeu h)

theorem NextKept.execPrFenced {die region s outs pins} (h : Kept o s) : NextKept o (execPrFenced die region s outs pins) :=
  .next (.ite (.takePending (fun _ => .startRelease) (.ansData (.setPr (.pulse (.cancelRepairs (.setPrState h)))))) h)

theorem NextKept.execPrCloseTimeout {die region s} (h : Kept o s) : NextKept o (execPrCloseTimeout die region s) :=
  .next <|
    .ite
      (.ite (.foldl (fun _ _ h => .ite (.setSlot (.abortUnit h)) h) h) <|
         .foldl (fun _ _ h => .slotRest (.unmark h)) (.p (.p (.setPrState h))))
      h

theorem NextKept.execPrActive {die region s} (h : Kept o s) : NextKept o (execPrActive die region s) :=
  .next (.ite (.takePending (fun _ => .startClose) (.pulse (.foldl (fun _ _ h => .slotRest (.ite (.unmark h) h)) (.setPrState h)))) h)

theorem Kept.showSlot {s d x k} (h : Kept o s) : Kept o (showSlot s d x k) := by
  unfold Machine.showSlot
  split
  · exact .p (.p (.p h))
  · exact .p (.p (.p h))

theorem Kept.showRegion {s d e} (h : Kept o s) : Kept o (showRegion s d e) :=
  .setPrState (.p (.p (.p (.p (.p (.p (.p (.p h))))))))

theorem Kept.fillFabric {s d x} (h : Kept o s) : Kept o (fillFabric s d x) :=
  .foldl (fun _ _ => .setBmem) (.foldl (fun _ _ => .setLut) h)

theorem Kept.applyDesign {s d x} (h : Kept o s) : Kept o (applyDesign s d x) :=
  .resetBmOuts <| .initFfs <| .fillFabric <| .foldl (fun _ _ => .p) <|
    .foldl (fun _ _ h => .p (.p (.p h))) (.foldl (fun _ _ => .showSlot) (.foldl (fun _ _ => .showRegion) (.setDesign h)))

theorem Kept.applyPartial {s d rs new} (h : Kept o s) : Kept o (applyPartial s d rs new) :=
  .fillFabric (.foldl (fun _ _ h => .foldl (fun _ _ => .showSlot) h) (.setDesign h))

/-! ## Machine/Sweep.lean -/

theorem Kept.seuLast {s d result fa} (h : Kept o s) : Kept o (seuLast s d result fa) :=
  .p (.p h)

theorem Kept.unrepairable {s d fa} (h : Kept o s) : Kept o (unrepairable s d fa) :=
  .when .raiseReset (.pulse (.inc (.seuLast h)))

theorem Kept.repaired {s d result fa} (h : Kept o s) : Kept o (repaired s d result fa) :=
  .pulse (.inc (.seuLast h))

theorem Kept.flipFrame {s d fa flips} (h : Kept o s) : Kept o (flipFrame s d fa flips) :=
  .foldl (fun _ _ => .setFrameWord) h

theorem Kept.upset {s d fa sigUe} (h : Kept o s) : Kept o (upset s d fa sigUe) :=
  .unless (fun h' => .ite (.unrepairable h') (.setSeu h')) (.inc h)

theorem NextKept.execSweepSlot {die flips glitch sigErr s} (h : Kept o s) : NextKept o (execSweepSlot die flips glitch sigErr s) :=
  .next <|
    .ite
      (.unless (fun h' => .ite (.upset h') (.ite (.upset h') (.ite (.seuLast h') h'))) <|
         .ite (.inc (.p (.flipFrame h))) (.p (.flipFrame h)))
      h

theorem Kept.writeSweep {s w} (h : Kept o s) : Kept o (writeSweep s w) :=
  .ite (.ans h) (.when .p (.store h))

theorem Kept.repairFromFlash {s d e} (h : Kept o s) : Kept o (repairFromFlash s d e) :=
  .ite (.setSeu h) (.unrepairable (.setSeu h))

theorem NextKept.execRepairFromWarm {die s wrong} (h : Kept o s) : NextKept o (execRepairFromWarm die s wrong) := by
  refine .next (.ite h ?_)
  split
  · exact h
  · next x _ =>
      refine .ite ?_ (.repairFromFlash h)
      extract_lets base m rep
      split
      next ws t e1 =>
      have h1 := (Kept.memRead h).snd2 e1
      split
      next sg u e2 =>
      have h2 : Kept o u := by
        refine Kept.snd2 ?_ e2
        split
        · exact .memRead h1
        · exact h1
      exact .ite (.both .unrepairable .repaired (.setSeu (.setSig (.setFrame (.withReply h2))))) (.repairFromFlash (.withReply h2))

theorem Kept.failFlashPass {s} (h : Kept o s) : Kept o (failFlashPass s) :=
  .onDies (fun _ _ h => .foldl (fun _ _ => .unrepairable) (.setSeu h)) h

theorem NextKept.execFlashPassStart {s} (h : Kept o s) : NextKept o (execFlashPassStart s) :=
  .next (.ite (.ite (.setParse h) (.failFlashPass h)) h)

theorem Kept.passRepair {s d fa wrong} (h : Kept o s) : Kept o (passRepair s d fa wrong) := by
  unfold Machine.passRepair
  split
  · exact h
  · exact .ite (.both .unrepairable .repaired (.setSig (.setFrame (.setSeu h)))) (.unrepairable (.setSeu h))

theorem Kept.passRepairs {s} (h : Kept o s) : Kept o (passRepairs s) :=
  .onDies (fun _ _ h => .foldl (fun _ _ => .passRepair) h) h

theorem NextKept.execFlashPassFrame {die fa wrong s} (h : Kept o s) : NextKept o (execFlashPassFrame die fa wrong s) :=
  .next (.ite (.passRepair h) h)

/-! ## Machine/CfgRegs.lean -/

theorem Kept.writeConfirm {s key} (h : Kept o s) : Kept o (writeConfirm s key) :=
  .ite (.ans h) (.ite (.ans h) (.ite (.ite (.ans (.p h)) (.ans (.p h))) (.ans (.p h))))

theorem Kept.warmClear {s d} (h : Kept o s) : Kept o (warmClear s d) :=
  .p (.setWarm h)

theorem Kept.startCmd {s} (h : Kept o s) : Kept o (startCmd s) := by
  unfold Machine.startCmd
  split
  · exact h
  · split
    · exact h
    · dsimp only
      split
      · exact .setParse h
      · split
        · exact .setParse h
        · split
          · exact .onDies (fun _ _ h => .p (.p (.p h))) (.setParse h)
          · split
            · exact .setParse h
            · exact .setParse h

theorem Kept.warmBuildMarks {s} (h : Kept o s) : Kept o (warmBuildMarks s) :=
  .each (fun _ _ h => .p (.warmClear h)) h

theorem Kept.passEnd {s forCmd err} (h : Kept o s) : Kept o (passEnd s forCmd err) :=
  .ite (.setParse h) (.startCmd (.setParse h))

theorem Kept.warmFail {s err} (h : Kept o s) : Kept o (warmFail s err) :=
  .passEnd (.pulse (.pAll h))

theorem Kept.warmFailOpen {s} (h : Kept o s) : Kept o (warmFailOpen s) :=
  .warmFail (.withFresh h)

theorem Kept.writeWarmBase {s w} (h : Kept o s) : Kept o (writeWarmBase s w) :=
  .when (fun h' => .withReply (.warmFailOpen h')) (.store (.warmClear h))

theorem Kept.writeCfgCmd {s w} (h : Kept o s) : Kept o (writeCfgCmd s w) :=
  .unless (fun h' => .ite h' (.ans (.startCmd (.when .warmBuildMarks (.setCfg (.p (.p (.p (.setReg h))))))))) (.ans h)

theorem Kept.writeCfg {s w} (h : Kept o s) : Kept o (writeCfg s w) := by
  unfold Machine.writeCfg
  split
  · exact .writeConfirm h
  · exact .writeCfgCmd h
  · exact .storeIf h
  · exact .ite (.writeWarmBase h) (.ans h)
  · exact .writeCap h
  · exact .writeRbCtrl h
  · exact .storeIf h
  · exact .writeSweep h
  · exact .store h

theorem Kept.warmCheck {s d off} (h : Kept o s) : Kept o (warmCheck s d off) :=
  .ite (.warmClear h) h

theorem Kept.accessBlank {s d} (h : Kept o s) : Kept o (accessBlank s d) :=
  .resetCells h

/-! ## Machine/SecRegs.lean -/

theorem Kept.setSec {s x} (h : Kept o s) : Kept o (s.setSec x) :=
  .withSec h

theorem Kept.setFuses {s x} (h : Kept o s) : Kept o (s.setFuses x) :=
  .withSec h

theorem Kept.bbCheck {s} (h : Kept o s) : Kept o (bbCheck s) :=
  .ite (.unless .pulse (.setSec h)) h

theorem Kept.zeroKeyRegs {s} (h : Kept o s) : Kept o (zeroKeyRegs s) :=
  .p (.foldl (fun _ _ => .p) h)

theorem Kept.secEnd {s res} (h : Kept o s) : Kept o (secEnd s res) :=
  .p (.p (.p (.zeroKeyRegs (.setSec h))))

theorem Kept.bbErase {s} (h : Kept o s) : Kept o (bbErase s) :=
  .setSec h

theorem Kept.writeSecCmd {s w} (h : Kept o s) : Kept o (writeSecCmd s w) :=
  .ite (.ans h) (.ans (.both (fun h' => .ite (.bbErase h') h') .secEnd (.setSec (.p (.p (.setReg h))))))

theorem Kept.writeTamperLog {s w} (h : Kept o s) : Kept o (writeTamperLog s w) :=
  .ite (.ans h) (.when (fun h' => .p (.p (.p h'))) (.store h))

theorem Kept.writeSec {s w} (h : Kept o s) : Kept o (writeSec s w) := by
  unfold Machine.writeSec
  split
  · exact .writeSecCmd h
  · exact .ans (.setReg h)
  · exact .ans (.setReg h)
  · exact .ite (.ans h) (.p (.store h))
  · exact .storeIf h
  · exact .writeTamperLog h
  · exact .storeIf h
  · exact .storeIf h
  · exact .storeIf h
  · exact .store h

/-! ## Machine/NvcRegs.lean -/

theorem Kept.nvcEnd {s res failAddr} (h : Kept o s) : Kept o (nvcEnd s res failAddr) :=
  .p (.p (.p (.unless .p (.p (.p (.p (.setFlash h)))))))

theorem Kept.writeNvcCmd {s w} (h : Kept o s) : Kept o (writeNvcCmd s w) := by
  refine .ite (.ans h) ?_
  split
  · exact .ans (.nvcEnd (.p (.setReg h)))
  · exact .ans (.setFlash (.p (.p (.setReg h))))

theorem Kept.writeNvc {s w} (h : Kept o s) : Kept o (writeNvc s w) := by
  unfold Machine.writeNvc
  split
  · exact .writeNvcCmd h
  · exact .storeIf h
  · exact .storeIf h
  · exact .store h

theorem Kept.flashWords {s a n} (h : Kept o s) : Kept o (flashWords s a n).2 := by
  refine .foldlOf Prod.snd (fun x i hx => ?_) h
  extract_lets
  split
  · exact hx
  · exact .withFresh hx

theorem Kept.xipRead {s off size} (h : Kept o s) : Kept o (xipRead s off size) :=
  .ite (.ans h) (.ite (.ans h) (.ite (.foldl (fun _ _ h => .withReply (.withFresh h)) (.ans h)) (.withReply (.when .p (.flashWords h)))))

theorem Kept.apertureRead {s off size} (h : Kept o s) : Kept o (apertureRead s off size) :=
  .ite (.ans h) (.xipRead h)

/-! ## Machine/DispatchEvents.lean -/

theorem Kept.ungather {s d p} (h : Kept o s) : Kept o (ungather s d p) := by
  unfold Machine.ungather
  dsimp only
  split
  · exact h
  · exact .joinList (.setDfd h)

theorem NextKept.execDeferredPlace {die s} (h : Kept o s) : NextKept o (execDeferredPlace die s) := by
  unfold Machine.execDeferredPlace
  refine .next ?_
  split
  · split
    · exact .p (.ungather h)
    · split
      · exact .p (.p (.placeFiring h))
      · exact h
  · exact h

theorem Kept.spillFailed {s d p} (h : Kept o s) : Kept o (spillFailed s d p) := by
  unfold Machine.spillFailed
  refine .p (.p (.setDfd (.foldlOf Prod.fst (fun a e ha => ?_) (.setDfd h))))
  extract_lets
  split
  · exact .dfdCnt (.p ha)
  · exact ha

theorem NextKept.execSpillLineWrite {die prio s} (h : Kept o s) : NextKept o (execSpillLineWrite die prio s) := by
  unfold Machine.execSpillLineWrite
  refine .next ?_
  split
  · dsimp only
    split
    · next e => exact .when .p (.p (.dfdCnt (.setDfd ((Kept.memWrite h).snd e))))
    · next e => exact .spillFailed ((Kept.memWrite h).snd e)
  · exact h

theorem NextKept.execSpillWriteError {die prio s} (h : Kept o s) : NextKept o (execSpillWriteError die prio s) :=
  .next (.ite (.spillFailed h) h)

theorem Kept.refillOne {s d p place w} (h : Kept o s) : Kept o (refillOne s d p place w) :=
  .ite (.ite (.dfdCnt h) (.dfdCnt (.joinList h))) (.p (.dfdCnt h))

theorem Kept.refillPass {s d p n} (h : Kept o s) : Kept o (refillPass s d p n) :=
  .p (.putDfd h)

theorem Kept.refillLost {s d p n} (h : Kept o s) : Kept o (refillLost s d p n) :=
  .refillPass (.p (.dfdCnt h))

theorem NextKept.execRefill {die s} (h : Kept o s) : NextKept o (execRefill die s) := by
  unfold Machine.execRefill
  refine .next ?_
  split
  · dsimp only
    split
    · next e => exact .refillPass (.foldl (fun _ _ => .refillOne) ((Kept.memRead h).snd2 e))
    · next e => exact .refillLost ((Kept.memRead h).snd2 e)
  · exact h

theorem NextKept.execRefillError {die s} (h : Kept o s) : NextKept o (execRefillError die s) := by
  unfold Machine.execRefillError
  refine .next ?_
  split
  · exact .refillLost h
  · exact h

theorem NextKept.execIssue {die s} (h : Kept o s) : NextKept o (execIssue die s) := by
  unfold Machine.execIssue
  refine .next ?_
  split
  · split
    · exact .issueTo h
    · exact h
  · exact h

theorem Kept.cqReleaseAll {s d} (h : Kept o s) : Kept o (cqReleaseAll s d) :=
  .foldl (fun _ _ => .cqRelease) h

theorem NextKept.execCompletion {die s} (h : Kept o s) : NextKept o (execCompletion die s) := by
  unfold Machine.execCompletion
  refine .next ?_
  split
  · dsimp only
    split
    · exact .cqReleaseAll (.complete (.putDfd h))
    · exact .cqReleaseAll h
  · exact h

theorem NextKept.execRemoteTokenResponse {die net s} (h : Kept o s) : NextKept o (execRemoteTokenResponse die net s) := by
  refine .next ?_
  extract_lets
  split
  · extract_lets r s1 rep
    have h1 : Kept o s1 := .putDfd h
    split
    next resp u e =>
    have h2 : Kept o u := by
      refine Kept.snd ?_ e
      split
      · exact h1
      · split
        · exact h1
        · split
          · next e1 => exact (Kept.routeTo h1).snd e1
          · next e1 =>
              have h2 := (Kept.routeTo h1).snd e1
              split
              · exact h2
              · exact .second (.tokenWrite h2)
    exact .unless (fun h' => .p (.dfdCnt h')) (.withReply h2)
  · exact h

theorem NextKept.execTicketRelease {die ticket s} (h : Kept o s) : NextKept o (execTicketRelease die ticket s) := by
  unfold Machine.execTicketRelease
  refine .next ?_
  split
  · exact .ite (.dropTicket (.ite (.when .p (.setKslot h)) h)) h
  · exact h

theorem NextKept.execSeAbort {die eng ticket s} (h : Kept o s) : NextKept o (execSeAbort die eng ticket s) := by
  unfold Machine.execSeAbort
  refine .next ?_
  split
  · exact .ite (.revoke h) (.seAbort h)
  · exact h

theorem NextKept.execEpochRound {s} (h : Kept o s) : NextKept o (execEpochRound s) :=
  .next (.ite (.putDfd (.foldl (fun _ _ => .putDfd) h)) h)

theorem NextKept.execEpochBoundary {die s} (h : Kept o s) : NextKept o (execEpochBoundary die s) :=
  .next (.ite (.ite (.foldl (fun _ _ => .boundary) h) h) (.ite (.boundary h) h))

theorem Kept.markSlow {s d} (h : Kept o s) : Kept o (markSlow s d) :=
  .ite (.p (.p h)) h

theorem NextKept.execEpochSlow {die s} (h : Kept o s) : NextKept o (execEpochSlow die s) :=
  .next (.ite h (.when (fun h' => .ite (.foldl (fun _ _ => .markSlow) h) (.ite h h')) (.markSlow h)))

theorem NextKept.execDfdStopped {die s} (h : Kept o s) : NextKept o (execDfdStopped die s) :=
  .next (.ite (.p (.p h)) h)

/-! ## Machine/PenPorts.lean -/

theorem NextKept.execHelloSend {die lane s} (h : Kept o s) : NextKept o (execHelloSend die lane s) :=
  .next (.ite (.replyBytes (.txCoding (.withFresh h))) h)

theorem NextKept.execHelloReceive {die lane frame codings s} (h : Kept o s) : NextKept o (execHelloReceive die lane frame codings s) :=
  .next (.receiveFrame h)

theorem NextKept.execHelloTimeout {die lane s} (h : Kept o s) : NextKept o (execHelloTimeout die lane s) :=
  .next (.ite (.p (.p h)) h)

theorem NextKept.execKeepaliveMiss {die lane s} (h : Kept o s) : NextKept o (execKeepaliveMiss die lane s) :=
  .next (.ite (.ite (.p (.p (.setHello h))) (.setHello h)) h)

theorem NextKept.execLpiEntry {die lane s} (h : Kept o s) : NextKept o (execLpiEntry die lane s) :=
  .next (.ite (.p h) h)

theorem Kept.drained {s d b} (h : Kept o s) : Kept o (drained s d b) :=
  .p (.clrBit h)

theorem NextKept.execBankDrained {die bank s} (h : Kept o s) : NextKept o (execBankDrained die bank s) :=
  .next (.ite (.drained h) h)

theorem NextKept.execBankDrainTimeout {die bank s} (h : Kept o s) : NextKept o (execBankDrainTimeout die bank s) :=
  .next (.ite (.drained (.dropFrames h)) h)

theorem Kept.writeBufCfg {s w} (h : Kept o s) : Kept o (writeBufCfg s w) :=
  .ans (.showBuf (.foldl (fun _ _ h => .ite (.setBit h) (.ite (.clrBit h) h)) (.setReg h)))

theorem Kept.writePortCfg {s w} (h : Kept o s) : Kept o (writePortCfg s w) :=
  .ite (.ite (.ans (.portRefresh (.setReg h))) (.ans (.p (.setHello (.dropFrames (.setReg h)))))) (.ans h)

theorem Kept.writeRingCfg {s w} (h : Kept o s) : Kept o (writeRingCfg s w) :=
  .storeIf h

theorem Kept.writeRingStatus {s w} (h : Kept o s) : Kept o (writeRingStatus s w) :=
  .when .setRingAck (.ans (.setReg h))

theorem Kept.writePen {s w} (h : Kept o s) : Kept o (writePen s w) := by
  unfold Machine.writePen
  split
  · exact .ite (.ans h) (.ans (.when .loseLearn (.setReg h)))
  · exact .storeIf h
  · exact .storeIf h
  · exact .writeBufCfg h
  · exact .storeIf h
  · exact .writeL2Cmd h
  · exact .writeVlanCmd h
  · exact .writeNhCmd h
  · exact .writeTime h
  · exact .writeTimeAdj h
  · exact .writeTimeStep h
  · exact .storeIf h
  · exact .writePortCfg h
  · exact .storeIf h
  · exact .storeIf h
  · exact .storeIf h
  · exact .storeIf h
  · exact .storeIf h
  · exact .writeRingCfg h
  · exact .writeRingStatus h
  · exact .store h

theorem Kept.penEmpty {s d} (h : Kept o s) : Kept o (penEmpty s d) :=
  .showBuf (.setPenDie (.setPen h))

theorem Kept.penTables {s d} (h : Kept o s) : Kept o (penTables s d) :=
  .setPenDie (.setPen h)

theorem Kept.penStop {s d} (h : Kept o s) : Kept o (penStop s d) :=
  .penTables (.penEmpty (.dropFrames h))

theorem Kept.penExit {s d} (h : Kept o s) : Kept o (penExit s d) :=
  .ite h (.p h)

/-! ## Machine/BlockReset.lean -/

theorem Kept.resetRange {s d lo hi} (h : Kept o s) : Kept o (resetRange s d lo hi) :=
  .resetCells (.withHolds h)

theorem Kept.flushL2 {s d} (h : Kept o s) : Kept o (flushL2 s d) :=
  .flushNear h

theorem Kept.revokeEngines {s d} (h : Kept o s) : Kept o (revokeEngines s d) :=
  .foldl (fun _ _ => .unitLost) h

theorem Kept.clearEngines {s d} (h : Kept o s) : Kept o (clearEngines s d) :=
  .resetRange (.withSe (.foldl (fun _ _ h => .ite (.seStopDma h) h) h))

theorem Kept.clearSeMem {s d} (h : Kept o s) : Kept o (clearSeMem s d) :=
  .foldl (fun _ _ => .zeroSeMem) h

theorem Kept.restSlots {s d} (h : Kept o s) : Kept o (restSlots s d) :=
  .foldl (fun _ _ h => .when .unitLost (.slotRest h)) h

theorem Kept.revokeAll {s d} (h : Kept o s) : Kept o (revokeAll s d) :=
  .foldl (fun _ _ => .revoke) h

theorem Kept.clearDfd {s d} (h : Kept o s) : Kept o (clearDfd s d) :=
  .resetRange (.foldl (fun _ _ => .setKslot) (.putDfd h))

theorem Kept.holdBanks {s d} (h : Kept o s) : Kept o (holdBanks s d) :=
  .showRepair (.resetRange (.foldl (fun _ _ h => .ite (.zeroBank (.dropBankLines (.withBnk h))) (.when .zeroBank (.withBnk h))) h))

theorem Kept.drainSub {s ch k} (h : Kept o s) : Kept o (drainSub s ch k) :=
  .setDsub (.foldl (fun _ _ => .serveRead) (.foldl (fun _ _ => .serveWrite) h))

theorem Kept.holdDdr {s d c} (h : Kept o s) : Kept o (holdDdr s d c) :=
  .p (.withReply (.drainSub (.drainSub h)))

theorem Kept.dropReads {s k} (h : Kept o s) : Kept o (dropReads s k) :=
  .setDsub (.foldl (fun _ _ => .putNet) h)

theorem Kept.holdMee {s d i} (h : Kept o s) : Kept o (holdMee s d i) :=
  .setMee (.resetCells (.dropReads (.dropReads h)))

theorem Kept.releaseDdr {s d c} (h : Kept o s) : Kept o (releaseDdr s d c) :=
  .ite h (.trainStart (.p h))

theorem Kept.holdPen {s d} (h : Kept o s) : Kept o (holdPen s d) :=
  .penReach (.showBuf (.resetRange (.when .setPen (.foldl (fun _ _ => .flushPair) (.penEmpty h)))))

theorem Kept.stopMon {s d m} (h : Kept o s) : Kept o (stopMon s d m) :=
  .foldl (fun _ _ => .p) (.p (.p (.p (.p (.p (.setMon h))))))

theorem Kept.holdMons {s d} (h : Kept o s) : Kept o (holdMons s d) :=
  .resetRange (.foldl (fun _ _ => .setMon) h)

theorem Kept.stopMons {s d} (h : Kept o s) : Kept o (stopMons s d) :=
  .foldl (fun _ _ => .stopMon) h

theorem Kept.clearEvt {s d} (h : Kept o s) : Kept o (clearEvt s d) :=
  .resetRange (.withEvs h)

theorem Kept.sampleLevels {s d} (h : Kept o s) : Kept o (sampleLevels s d) :=
  .updateLost (.foldl (fun _ _ h => .ite (.setEv h) h) h)

theorem Kept.flushPorts {s d} (h : Kept o s) : Kept o (flushPorts s d) :=
  .foldl (fun _ _ => .flushPort) h

theorem Kept.restIo {s d} (h : Kept o s) : Kept o (restIo s d) :=
  .foldl (fun _ _ => .setIo) h

theorem Kept.setReset {s d} (h : Kept o s) : Kept o (setReset s d) :=
  .withFab (.restIo (.resetBmOuts (.initFfs h)))

theorem Kept.dropTargets {s d} (h : Kept o s) : Kept o (dropTargets s d) :=
  .foldl (fun _ _ h => .ite h (.setNport (.foldl (fun _ _ => .putNet) h))) h

theorem Kept.holdGsr {s d} (h : Kept o s) : Kept o (holdGsr s d) :=
  .restSlots (.foldl (fun _ _ h => .abortOpen (.setFifo h)) (.setRawRx (.setReset (.dropTargets h))))

theorem Kept.beforeHold {s d b} (h : Kept o s) : Kept o (beforeHold s d b) :=
  .ite (.flushL2 h) (.ite (.revokeEngines h) (.ite (.revokeAll h) (.ite (.holdDdr h) (.ite (.flushRemote h) (.ite (.flushPorts h) h)))))

theorem Kept.onHold {s d b} (h : Kept o s) : Kept o (onHold s d b) :=
  .ite (.stopCores h) <| .ite (.clearEngines h) <| .ite (.restSlots (.clearDfd h)) <| .ite (.holdPen h) <|
    .ite (.lanesHold h) (.ite (.holdBanks h) (.ite (.holdMee h) (.ite (.holdMons h) (.ite (.clearEvt h) (.ite (.holdGsr h) h)))))

theorem Kept.holdBlock {s d b} (h : Kept o s) : Kept o (holdBlock s d b) :=
  .onHold (.setBit (.beforeHold h))

theorem Kept.leaveReset {s d b} (h : Kept o s) : Kept o (leaveReset s d b) :=
  .ite h (.ite (.startCores h) (.ite (.restSlots h) (.ite (.lanesRelease h) (.ite (.releaseDdr h) (.ite (.sampleLevels h) h)))))

theorem Kept.releaseBlock {s d b} (h : Kept o s) : Kept o (releaseBlock s d b) :=
  .ite (.leaveReset (.clrBit h)) (.setLad (.clrBit h))

theorem Kept.leaveGated {s d} (h : Kept o s) : Kept o (leaveGated s d) :=
  .foldl (fun _ _ h => .ite (.leaveReset (.setLad h)) h) h

theorem Kept.setHolds {s d v} (h : Kept o s) : Kept o (setHolds s d v) :=
  .foldl (fun _ _ h => .ite (.holdBlock (.setLad h)) (.ite (.releaseBlock h) h)) h

theorem Kept.holdMask {s d mask} (h : Kept o s) : Kept o (holdMask s d mask) :=
  .setLad (.setHolds h)

theorem Kept.raiseBlocks {s d cause detail mask} (h : Kept o s) : Kept o (raiseBlocks s d cause detail mask) :=
  .ite h (.ite (.setLad (.p (.p (.p h)))) (.holdMask (.p (.p (.p h)))))

theorem Kept.raiseReach {s d c detail} (h : Kept o s) : Kept o (raiseReach s d c detail) :=
  .ite (.raiseReset h) (.raiseBlocks h)

theorem NextKept.execBlocksResetRelease {die s} (h : Kept o s) : NextKept o (execBlocksResetRelease die s) :=
  .next (.ite h (.setHolds (.setLad h)))

/-! ## Machine/Control.lean -/

theorem Kept.writeWdt {s w} (h : Kept o s) : Kept o (writeWdt s w) :=
  .storeIf h

theorem Kept.writeKick {s d key} (h : Kept o s) : Kept o (writeKick s d key) :=
  .ans (.ite h (.raiseReach h))

theorem Kept.writeRstSw {s w} (h : Kept o s) : Kept o (writeRstSw s w) :=
  .ite (.ans h) (.ans (.ite (.raiseReach h) h))

theorem Kept.writeMboxCmd {s w} (h : Kept o s) : Kept o (writeMboxCmd s w) :=
  .ite (.ans (.setMbox (.p (.p h)))) (.ans h)

theorem Kept.writeSys {s w} (h : Kept o s) : Kept o (writeSys s w) := by
  unfold Machine.writeSys
  split
  · exact .ans (.setHolds h)
  · exact .writeRstSw h
  · exact .writeWdt h
  · exact .writeKick h
  · exact .writeMboxCmd h
  · exact .storeIf h
  · exact .store h

theorem Kept.writeRelease {s w} (h : Kept o s) : Kept o (writeRelease s w) :=
  .ite (.ans (.startCores (.setReg h))) (.ans h)

theorem Kept.writeApc {s w} (h : Kept o s) : Kept o (writeApc s w) := by
  unfold Machine.writeApc
  split
  · exact .storeIf h
  · exact .writeRelease h
  · exact .ite (.ans (.withMset h)) (.ans h)
  · exact .store h

theorem Kept.writeEvt {s w} (h : Kept o s) : Kept o (writeEvt s w) := by
  unfold Machine.writeEvt
  split
  · exact .ans (.claimComplete h)
  · exact .store h

theorem NextKept.execLockUp {die core s} (h : Kept o s) : NextKept o (execLockUp die core s) :=
  .next (.ite (.raiseReach h) h)

theorem NextKept.execWatchdogExpiry {die s} (h : Kept o s) : NextKept o (execWatchdogExpiry die s) :=
  .next (.ite (.raiseReach h) h)

theorem NextKept.execDebugReset {die s} (h : Kept o s) : NextKept o (execDebugReset die s) :=
  .next (.ite (.raiseReach h) h)

theorem NextKept.execHartHalt {die core s} (h : Kept o s) : NextKept o (execHartHalt die core s) :=
  .next (.ite (.setCore h) h)

theorem NextKept.execHartResume {die core s} (h : Kept o s) : NextKept o (execHartResume die core s) :=
  .next (.ite (.setCore h) h)

theorem NextKept.execMtimeCompare {die core s} (h : Kept o s) : NextKept o (execMtimeCompare die core s) :=
  .next (.ansData h)

theorem NextKept.execSmbusHostWrite {words s} (h : Kept o s) : NextKept o (execSmbusHostWrite words s) :=
  .next (.withSmbHost h)

theorem Kept.firstFetch {s d c} (h : Kept o s) : Kept o (firstFetch s d c) :=
  .ite (.unless .raiseReach (.setHart h)) h

theorem Kept.coreCaches {s d} (h : Kept o s) : Kept o (coreCaches s d) :=
  .ite (.when (fun h' => .p (.incSat h')) (.when (fun h' => .p (.incSat h')) (.withFresh h))) h

theorem Kept.coresPass {s d} (h : Kept o s) : Kept o (coresPass s d) :=
  .coreCaches (.foldl (fun _ _ => .firstFetch) h)

/-! ## Machine/Sentence.lean -/

theorem Kept.sntClose {s d res} (h : Kept o s) : Kept o (sntClose s d res) :=
  .p (.p (.p (.p (.setSnt h))))

theorem Kept.sntPulse {s d device} (h : Kept o s) : Kept o (sntPulse s d device) :=
  .ite (.pulse h) (.pulse h)

theorem Kept.sntFail {s d die off} (h : Kept o s) : Kept o (sntFail s d die off) :=
  .p (.p h)

theorem Kept.sntRollback {s d res} (h : Kept o s) : Kept o (sntRollback s d res) :=
  .ite h (.unless .sntPulse (.foldl (fun _ _ h => .sntFail (.sntClose h)) h))

theorem Kept.sntOpen {s m device d} (h : Kept o s) : Kept o (sntOpen s m device d) :=
  .sntFail (.p (.p (.p (.p (.p (.p (.setSnt h)))))))

theorem Kept.writeSntBegin {s w} (h : Kept o s) : Kept o (writeSntBegin s w) :=
  .ite (.ans h) (.ans (.foldl (fun _ _ => .sntOpen) h))

theorem Kept.writeSntRollback {s w} (h : Kept o s) : Kept o (writeSntRollback s w) :=
  .ite (.ans (.sntRollback h)) (.ans h)

theorem NextKept.execSentenceTimeout {die s} (h : Kept o s) : NextKept o (execSentenceTimeout die s) :=
  .next (.ite (.sntRollback h) h)

theorem OptKept.sntStage {s m d r v} (h : Kept o s) : OptKept o (sntStage s m d r v) :=
  .ite .none (.some (.when .p (.p (.setSnt h))))

/-! ## Machine/Ladder.lean -/

theorem Kept.ladEnter {s d t trip} (h : Kept o s) : Kept o (ladEnter s d t trip) :=
  .p (.p (.setLad h))

theorem Kept.ladLatch {s d t} (h : Kept o s) : Kept o (ladLatch s d t) :=
  .p (.setLad h)

theorem Kept.ladTake {s d t trip} (h : Kept o s) : Kept o (ladTake s d t trip) :=
  .unless (fun h' => .ite (.ite h (.ladLatch h)) (.ite h (.ite (.ladEnter h) (.wakeDie h')))) (.ite h (.ladLatch h))

theorem Kept.ladRequest {s d t scope} (h : Kept o s) : Kept o (ladRequest s d t scope) :=
  .foldl (fun _ _ => .ladTake) h

theorem Kept.writePwr {s w} (h : Kept o s) : Kept o (writePwr s w) := by
  unfold Machine.writePwr
  split
  · exact .ite (.ans (.ladRequest (.p h))) (.ans h)
  · exact .storeIf h
  · exact .storeIf h
  · exact .store h

theorem Kept.drainDie {s d} (h : Kept o s) : Kept o (drainDie s d) :=
  .recallHomed (.flushAll (.flushPorts (.foldl (fun _ _ => .seStop) (.rbAbort (.revokeAll (.capCancel (.sntRollback h)))))))

theorem NextKept.execLadderEntryProceed {die s} (h : Kept o s) : NextKept o (execLadderEntryProceed die s) :=
  .next (.ite (.setLad (.ite (.drainDie h) h)) h)

theorem Kept.ladSettle {s d} (h : Kept o s) : Kept o (ladSettle s d) := by
  unfold Machine.ladSettle
  dsimp only
  split
  · exact .ite (.unless .wakeDie (.p (.setLad h))) (.ladTake (.p (.setLad h)))
  · exact h

theorem Kept.ladAbandon {s b d} (h : Kept o s) : Kept o (ladAbandon s b d) :=
  .ladSettle (.p (.p (.p (.setLad h))))

theorem NextKept.execEntryTimeout {die s} (h : Kept o s) : NextKept o (execEntryTimeout die s) :=
  .next (.ite (.ite (.foldl (fun _ _ => .ladAbandon) h) (.ladAbandon h)) h)

theorem Kept.ddrSleep {s d} (h : Kept o s) : Kept o (ddrSleep s d) :=
  .foldl (fun _ _ h => .ite (.p h) h) h

theorem Kept.ddrReturn {s d} (h : Kept o s) : Kept o (ddrReturn s d) :=
  .foldl (fun _ _ h => .ite (.p h) h) h

theorem Kept.banksColon {s d} (h : Kept o s) : Kept o (banksColon s d) :=
  .foldl (fun _ _ h => .unless (fun h' => .when .p (.zeroBank h')) (.ite h (.bankTransitionEnd h))) h

theorem Kept.loseLatches {s d} (h : Kept o s) : Kept o (loseLatches s d) :=
  .foldl (fun _ _ h => .setBmem (.withFresh h)) (.withFab h)

theorem Kept.loseDfd {s d} (h : Kept o s) : Kept o (loseDfd s d) :=
  .resetRange (.clearDfd h)

theorem Kept.deepLoss {s d} (h : Kept o s) : Kept o (deepLoss s d) :=
  .setPins <| .loseLatches <| .banksColon <|
    .stopMons (.stopCores (.loseDfd (.clearSeMem (.clearEngines (.lanesStop (.penStop (.foldl (fun _ _ => .flushPair) h)))))))

theorem Kept.rootStop {s d} (h : Kept o s) : Kept o (rootStop s d) :=
  .setClk (.p (.setRoot h))

theorem Kept.ladArriveDown {s d goal} (h : Kept o s) : Kept o (ladArriveDown s d goal) :=
  .ite (.lanesSemicolon (.ddrSleep h)) (.ite (.deepLoss (.ddrSleep h)) (.ite (.rootStop (.deepLoss (.ddrSleep h))) (.ddrSleep h)))

theorem NextKept.execStateEntered {die s} (h : Kept o s) : NextKept o (execStateEntered die s) :=
  .next (.ite (.ladSettle (.p (.p (.p (.ladArriveDown h))))) h)

theorem NextKept.execWakeEvent {die src s} (h : Kept o s) : NextKept o (execWakeEvent die src s) :=
  .next (.ite (.wakeDie h) h)

theorem Kept.wakeAll {s row} (h : Kept o s) : Kept o (wakeAll s row) :=
  .ite h (.onDies (fun _ _ => .wakeDie) h)

theorem NextKept.execWakeTimerExpiry {s} (h : Kept o s) : NextKept o (execWakeTimerExpiry s) :=
  .next (.ite h (.when .wakeAll (.foldl (fun _ _ => .setLad) h)))

theorem NextKept.execSmbusWake {data s} (h : Kept o s) : NextKept o (execSmbusWake data s) :=
  .next (.ite (.wakeAll h) h)

/-! ## Machine/Thermal.lean -/

theorem Kept.fanTo {s n st tries} (h : Kept o s) : Kept o (fanTo s n st tries) :=
  .p (.withThm h)

theorem Kept.heaterTo {s on} (h : Kept o s) : Kept o (heaterTo s on) :=
  .p (.p (.withThm h))

theorem Kept.heaterStep {s t} (h : Kept o s) : Kept o (heaterStep s t) :=
  .ite (.ite (.heaterTo h) h) (.ite (.heaterTo h) h)

theorem Kept.loopStep {s t} (h : Kept o s) : Kept o (loopStep s t).2 :=
  .withThm h

theorem Kept.fanStep {d s n} (h : Kept o s) : Kept o (fanStep d s n) :=
  .ite (.fanTo h) (.ite (.fanTo h) h)

theorem Kept.fanShow {s} (h : Kept o s) : Kept o (fanShow s) :=
  .foldl (fun _ _ => .p) h

theorem Kept.critStep {s t} (h : Kept o s) : Kept o (critStep s t) :=
  .when .p (.p (.p h))

theorem Kept.fanSpeeds {s rpm} (h : Kept o s) : Kept o (fanSpeeds s rpm) :=
  .foldl (fun _ _ => .p) h

theorem NextKept.execThermalStep {s rpm} (h : Kept o s) : NextKept o (execThermalStep s rpm) :=
  .next (.ite (.fanShow (.fanStep (.fanStep (.loopStep (.heaterStep (.critStep (.withThm (.fanSpeeds h)))))))) h)

theorem NextKept.execFanSpinupEnd {fan rpm s} (h : Kept o s) : NextKept o (execFanSpinupEnd fan rpm s) :=
  .next (.ite (.fanShow (.ite (.fanTo (.p h)) (.ite (.p (.fanTo (.p h))) (.fanTo (.p h))))) h)

theorem NextKept.execFanStall {fan rpm s} (h : Kept o s) : NextKept o (execFanStall fan rpm s) :=
  .next (.ite (.fanShow (.fanTo (.p h))) h)

theorem NextKept.execThermalTrip {die s} (h : Kept o s) : NextKept o (execThermalTrip die s) :=
  .next (.ite (.onDies (fun _ _ => .ladTake) (.p (.pAll h))) h)

theorem NextKept.execSensorUpdate {die temp mv s} (h : Kept o s) : NextKept o (execSensorUpdate die temp mv s) := by
  unfold Machine.execSensorUpdate
  refine .next ?_
  split
  · refine .foldl ?_ (.when .p (.p h))
    intro _ _ h
    split
    · exact .p h
    · exact h
  · exact h

theorem NextKept.execRailOutOfRange {die rail s} (h : Kept o s) : NextKept o (execRailOutOfRange die rail s) :=
  .next (.ite (.setBit h) h)

theorem Kept.fanRetry {s} (h : Kept o s) : Kept o (fanRetry s) :=
  .fanShow (.foldl (fun _ _ h => .ite (.fanTo h) h) h)

theorem Kept.writeThm {s w} (h : Kept o s) : Kept o (writeThm s w) := by
  unfold Machine.writeThm
  split
  · exact .storeIf h
  · exact .ite (.ans h) (.ans (.when .fanRetry (.setReg h)))
  · exact .storeIf h
  · exact .store h

/-! ## Machine/Monitor.lean -/

theorem Kept.monStart {s d m} (h : Kept o s) : Kept o (monStart s d m) :=
  .setMon h

theorem Kept.writeMon {s w} (h : Kept o s) : Kept o (writeMon s w) := by
  unfold Machine.writeMon
  dsimp only
  split
  · exact .ite (.ans (.monStart (.setReg (.stopMon h)))) (.store h)
  · exact .storeIf h
  · exact .storeIf h
  · exact .storeIf h
  · exact .store h

theorem NextKept.execMonSample {die mon sample s} (h : Kept o s) : NextKept o (execMonSample die mon sample s) :=
  .next (.ite (.setMon h) h)

theorem Kept.monFreeze {s d m} (h : Kept o s) : Kept o (monFreeze s d m) :=
  .foldl (fun _ _ => .p) (.p (.p (.p (.p h))))

theorem NextKept.execMonWindowEnd {die mon s} (h : Kept o s) : NextKept o (execMonWindowEnd die mon s) :=
  .next (.ite (.unless .p (.monStart (.p (.monFreeze h)))) h)

/-! ## Machine/FabRegs.lean -/

theorem Kept.writeFab {s w} (h : Kept o s) : Kept o (writeFab s w) := by
  unfold Machine.writeFab
  split
  · exact .writePrCtrl h
  · exact .writeAfull h
  · exact .store h

/-! ## Machine/Tamper.lean -/

theorem Kept.tamperLog {s srcs} (h : Kept o s) : Kept o (tamperLog s srcs) :=
  .incSat (.foldl (fun _ _ => .setBit) (.ite (.p (.p (.p h))) h))

theorem Kept.zeroise {s} (h : Kept o s) : Kept o (zeroise s) :=
  .bbCheck (.zeroKeyRegs (.zeroiseKeys (.setSec h)))

theorem Kept.tamperSecCmd {s} (h : Kept o s) : Kept o (tamperSecCmd s) := by
  unfold Machine.tamperSecCmd
  split
  · exact .zeroKeyRegs h
  · exact .bbCheck (.secEnd (.when .setSec (.secAbort h)))

theorem Kept.tamperEnds {s} (h : Kept o s) : Kept o (tamperEnds s) :=
  .onDies (fun _ _ => .warmClear) <|
    .onDies (fun _ _ => .rbAbort) (.unless (fun h' => .nvcEnd (.nvcAbort (.withFresh h'))) (.tamperSecCmd (.p (.setSec h))))

theorem Kept.showEnded {s0 s} (h : Kept o s) : Kept o (showEnded s0 s) :=
  .unless (fun h' => .p (.p h')) (.onDies (fun _ _ h => .ite (.p (.p h)) h) h)

theorem Kept.tamperLoads {s} (h : Kept o s) : Kept o (tamperLoads s) := by
  unfold Machine.tamperLoads
  dsimp only
  split
  · exact .p (.when .p (.ite (.pAll h) h))
  · exact .when .p (.ite (.pAll h) h)

theorem Kept.enterLockdown {s} (h : Kept o s) : Kept o (enterLockdown s) :=
  .setPhase <| .p <| .setSec <| .withBoot <| .foldl (fun _ _ => .pairIdle) <| .each (fun _ _ h => .setTrainCopy (.loseDram h)) <|
    .p <| .p <| .p <| .onDies (fun _ _ h => .warmClear (.p (.p (.p (.p (.p h)))))) <|
    .foldl (fun _ _ => .setCell) (.clearDevice (.wipeSecure (.tamperLoads h)))

theorem Kept.tamperStartup {s} (h : Kept o s) : Kept o (tamperStartup s) :=
  .when .pAll (.enterLockdown (.ite (.zeroise h) h))

theorem Kept.tamperRun {s} (h : Kept o s) : Kept o (tamperRun s) :=
  .both .enterLockdown (fun h' => .setSec (.ite (.raiseReset h') (.pulse h'))) (.when .wipeSecure (.ite (.zeroise h) h))

theorem Kept.tamper {s k also} (h : Kept o s) : Kept o (tamper s k also) :=
  .ite h <| .ite (.when .setSec (.tamperLog h)) <|
    .unless
      (fun h' =>
         .ite (.ite (.enterLockdown h') h') <| .showEnded <| .ite (.tamperStartup (.tamperEnds h')) <|
           .ite (.enterLockdown (.when .zeroise (.tamperEnds h'))) (.tamperRun (.tamperEnds h'))) <| .tamperLog h

theorem NextKept.execTamperPin {pin level s also} (h : Kept o s) : NextKept o (execTamperPin pin level s also) :=
  .next (.ite (.tamper h) h)

theorem NextKept.execVglitch {die rail s also} (h : Kept o s) : NextKept o (execVglitch die rail s also) :=
  .next (.ite (.tamper h) h)

theorem NextKept.execCkglitch {die s also} (h : Kept o s) : NextKept o (execCkglitch die s also) :=
  .next (.ite (.tamper h) h)

theorem NextKept.execTamperTemp {die temp s also} (h : Kept o s) : NextKept o (execTamperTemp die temp s also) :=
  .next (.ite (.tamper h) h)

theorem NextKept.execMeshCheck {fault s also} (h : Kept o s) : NextKept o (execMeshCheck fault s also) :=
  .next (.ite (.tamper h) h)

theorem NextKept.execLockdownEraseDone {s} (h : Kept o s) : NextKept o (execLockdownEraseDone s) :=
  .next (.setSec h)

theorem Kept.writeSecFull {s w} (h : Kept o s) : Kept o (writeSecFull s w) :=
  .when (fun h' => .withReply (.tamper h')) (.writeSec h)

/-! ## Machine/RegAccess.lean -/

theorem Kept.writeSnt {s w} (h : Kept o s) : Kept o (writeSnt s w) := by
  unfold Machine.writeSnt
  split
  · exact .writeSntBegin h
  · exact .writeSntRollback h
  · exact .storeIf h
  · exact .store h

theorem Kept.gatesSettle {t d} (h : Kept o t) : Kept o (gatesSettle t d) :=
  .withReply (.leaveGated h)

theorem Kept.writeFamily {s w} (h : Kept o s) : Kept o (writeFamily s w) := by
  unfold Machine.writeFamily
  split
  · exact .writeSys h
  · exact .gatesSettle (.writeClk h)
  · exact .writePwr h
  · exact .writeThm h
  · exact .writeMon h
  · exact .writeEvt h
  · exact .writeCfg h
  · exact .writeSecFull h
  · exact .writeNvc h
  · exact .writeBnk h
  · exact .writeNoc h
  · exact .writeRlc h
  · exact .writeBdl h
  · exact .warmCheck (.writeDdr h)
  · exact .warmCheck (.writeMee h)
  · exact .writeLan h
  · exact .writePen h
  · exact .writeSea h
  · exact .writeDfd h
  · exact .writeApc h
  · exact .writeFab h
  · exact .writeSnt h
  · exact .ans h

theorem Kept.writeStaged {s m d r raw mask} (h : Kept o s) : Kept o (writeStaged s m d r raw mask) := by
  unfold Machine.writeStaged
  dsimp only
  split
  · exact .ans h
  · next e =>
      have h1 := (OptKept.sntStage h).get e
      exact .ite (.ans h1) (.ite (.writeFamily h1) (.ans h))

theorem Kept.noteClash {s d r mask} (h : Kept o s) : Kept o (noteClash s d r mask) :=
  .ite (.setSnt h) h

theorem Kept.writeReg {s m d r raw mask} (h : Kept o s) : Kept o (writeReg s m d r raw mask) :=
  .ite (.ans h) (.ite (.writeStaged h) (.when .noteClash (.writeFamily h)))

theorem Kept.writeWord {commit s m d off n v} (hf : ∀ t x, Kept o t → Kept o (commit t x)) (h : Kept o s) :
    Kept o (writeWord commit s m d off n v) := by
  unfold Machine.writeWord
  split
  · exact .ans h
  · split
    · exact .ans h
    · exact .ite (hf _ _ h) (.writeReg h)

theorem Kept.regWrite {commit s m d off size v poison} (hf : ∀ t x, Kept o t → Kept o (commit t x)) (h : Kept o s) :
    Kept o (regWrite commit s m d off size v poison) :=
  .ite (.ans h) (.ite (.ans h) (.ite (.ans h) (.ite (.ans h) (.ite (.writeWord hf h) (.ans (.writeWord hf (.writeWord hf h)))))))

theorem Kept.readReg {s d r mask} (h : Kept o s) : Kept o (readReg s d r mask).2 := by
  unfold Machine.readReg
  split
  · exact .claimRead h
  · exact .tsPop h
  · exact .cqPop h
  · exact .p h
  · exact .ite h (.setReg h)

theorem Kept.readHigh {s m d r} (h : Kept o s) : Kept o (readHigh s m d r).2 := by
  unfold Machine.readHigh
  dsimp only
  split
  · split
    · exact .withHolds h
    · exact h
  · exact h

theorem Kept.readHalf {s m d off r} (h : Kept o s) : Kept o (readHalf s m d off r).2 := by
  unfold Machine.readHalf
  split
  · split
    · exact .withHolds (.readReg h)
    · exact .readHigh h
  · exact .readReg h

theorem Kept.readWord {s m d off} (h : Kept o s) : Kept o (readWord s m d off).2.2 := by
  unfold Machine.readWord
  split
  · exact h
  · split
    · exact h
    · split
      · split
        · exact h
        · exact h
      · exact .readHalf h

theorem Kept.regRead {s m d off size} (h : Kept o s) : Kept o (regRead s m d off size).2.2 := by
  unfold Machine.regRead
  split
  · exact h
  · split
    · exact h
    · split
      · split
        next e => exact (Kept.readWord h).snd2 e
      · split
        · exact h
        · split
          · split
            · exact h
            · split
              next e => exact (Kept.readReg h).snd e
          · split
            next e =>
            split
            next e1 => exact (Kept.readWord ((Kept.readWord h).snd2 e)).snd2 e1

theorem Kept.ctrlRoute {s m d} (h : Kept o s) : Kept o (ctrlRoute s m d).2 := by
  unfold Machine.ctrlRoute
  split
  · exact h
  · split
    · exact .routeTo h
    · exact h

theorem Kept.companionAns {s m n} (h : Kept o s) : Kept o (companionAns s m n) := by
  unfold Machine.companionAns
  split
  · exact .ans h
  · split
    · next e => exact .ans ((Kept.routeTo h).snd e)
    · next e => exact .withReply (.freeWords (.withFresh ((Kept.routeTo h).snd e)))

theorem Kept.readOver {s m d off size} (h : Kept o s) : Kept o (readOver s m d off size) := by
  unfold Machine.readOver
  split
  · exact .companionAns h
  · split
    · next e => exact .ans ((Kept.ctrlRoute h).snd e)
    · next e =>
        have h1 := (Kept.ctrlRoute h).snd e
        split
        · exact .apertureRead h1
        · split
          · next e1 => exact .ansData ((Kept.regRead h1).snd2 e1)
          · next e1 => exact .ans ((Kept.regRead h1).snd2 e1)

theorem Kept.accessRead {s m d off size} (h : Kept o s) : Kept o (accessRead s m d off size) :=
  .coreSees (.readOver h)

/-! ## Machine/Commit.lean -/

theorem TryKept.trialClose {s d es} (h : Kept o s) : TryKept o (trialClose s d es) := by
  unfold Machine.trialClose
  extract_lets
  split
  · next e => exact .ok ((Kept.applyClosures h).fst e)
  · exact .error

theorem TryKept.trialOpen {s d es} (h : Kept o s) : TryKept o (trialOpen s d es) := by
  unfold Machine.trialOpen
  extract_lets
  split
  · next e => exact .ok ((Kept.applyOpenings h).fst e)
  · exact .error

theorem TryKept.trialRest {m d s es} (h : Kept o s) : TryKept o (trialRest m d s es) := by
  induction es generalizing s with
  | nil => exact .ok h
  | cons e es ih =>
    unfold Machine.trialRest
    split
    · exact .error
    · exact .ite (ih (.writeFamily h)) .error

theorem TryKept.trial {s d} (h : Kept o s) : TryKept o (trial s d) := by
  unfold Machine.trial
  extract_lets
  split
  · exact .error
  · next e1 =>
      have h1 := (TryKept.trialClose h).get e1
      split
      · exact .error
      · next e2 => exact .trialOpen ((TryKept.trialRest h1).get e2)

theorem TryKept.prepare {s d} (h : Kept o s) : TryKept o (prepare s d) := by
  unfold Machine.prepare
  split
  · exact .error
  · split
    · exact .ok h
    · refine .ite .error ?_
      split
      · next e => exact .ok ((TryKept.trial h).get e)
      · exact .error

theorem TryKept.prepareAll {device s l} (h : Kept o s) : TryKept o (prepareAll device s l) := by
  induction l generalizing s with
  | nil => exact .ok h
  | cons d l ih =>
    refine .ite .error ?_
    split
    · exact .error
    · next e => exact ih ((TryKept.prepare h).get e)

theorem Kept.sntFinish {s d res bad} (h : Kept o s) : Kept o (sntFinish s d res bad) := by
  unfold Machine.sntFinish
  refine .sntPulse ?_
  refine .foldl ?_ h
  intro _ _ h
  dsimp only
  split
  · exact .ite (.sntFail (.sntClose h)) (.sntFail (.sntClose h))
  · exact .sntFail (.sntClose h)

theorem Kept.sntRefuse {s d x} (h : Kept o s) : Kept o (sntRefuse s d x) := by
  unfold Machine.sntRefuse
  refine .ans ?_
  refine .sntFinish ?_
  split
  · exact .gateRefused h
  · exact h

theorem Kept.writeSntCommit {s w} (h : Kept o s) : Kept o (writeSntCommit s w) := by
  refine .ite ?_ (.ans h)
  extract_lets s1 go
  split
  · exact .ite (.sntRefuse h) (.sntRefuse h)
  · have h1 : Kept o s1 := .foldl (fun _ _ h => .ite (.packetWake h) h) h
    have hg : Kept o go := .noAnswer (.foldl (fun _ _ => .p) h1)
    refine .ite ?_ hg
    split
    · exact .sntRefuse h1
    · exact hg

theorem NextKept.execApplyTick {die s} (h : Kept o s) : NextKept o (execApplyTick die s) := by
  unfold Machine.execApplyTick
  refine .next ?_
  split
  · split
    · exact .coreSees (.sntRefuse h)
    · next e => exact .ans (.sntFinish (.each (fun _ _ => .leaveGated) ((TryKept.prepareAll h).get e)))
  · exact h

theorem Kept.writeOver {s m d off size v poison} (h : Kept o s) : Kept o (writeOver s m d off size v poison) := by
  unfold Machine.writeOver
  split
  · exact .companionAns h
  · split
    · next e => exact .ans ((Kept.ctrlRoute h).snd e)
    · next e => exact .regWrite (fun _ _ => .writeSntCommit) ((Kept.ctrlRoute h).snd e)

theorem Kept.accessWrite {s m d off size v poison} (h : Kept o s) : Kept o (accessWrite s m d off size v poison) :=
  .coreSees (.writeOver h)

theorem Kept.put32 {s m d off v} (h : Kept o s) : Kept o (put32 s m d off v) :=
  .accessWrite h

theorem Kept.put64 {s m d off v} (h : Kept o s) : Kept o (put64 s m d off v) :=
  .accessWrite h

/-! ## Machine/RegCommands.lean -/

theorem Kept.poke {s m d l} (h : Kept o s) : Kept o (poke s m d l) :=
  .put32 h

theorem Kept.secPoke {s m op arg} (h : Kept o s) : Kept o (secPoke s m op arg) :=
  .poke h

theorem Kept.dfdPoke {s m d op arg} (h : Kept o s) : Kept o (dfdPoke s m d op arg) :=
  .poke h

theorem Kept.meePoke {s m d i op keyid arg device} (h : Kept o s) : Kept o (meePoke s m d i op keyid arg device) :=
  .poke h

theorem Kept.l2Poke {s m d op} (h : Kept o s) : Kept o (l2Poke s m d op) :=
  .poke h

theorem Kept.mboxPoke {s m d cmd} (h : Kept o s) : Kept o (mboxPoke s m d cmd) :=
  .poke h

theorem NextKept.execRegisterWrite {m die off size data poison s} (h : Kept o s) :
    NextKept o (execRegisterWrite m die off size data poison s) :=
  .next (.accessWrite h)

theorem NextKept.execReadClear {m die off size s} (h : Kept o s) : NextKept o (execReadClear m die off size s) :=
  .next (.accessRead h)

theorem NextKept.execHighHalfRead {m die off s} (h : Kept o s) : NextKept o (execHighHalfRead m die off s) :=
  .next (.accessRead h)

theorem NextKept.execWdtKick {m die key s} (h : Kept o s) : NextKept o (execWdtKick m die key s) :=
  .next (.put32 h)

theorem NextKept.execWdtEnable {m die v s} (h : Kept o s) : NextKept o (execWdtEnable m die v s) :=
  .next (.put32 h)

theorem NextKept.execSoftwareReset {m die key go s} (h : Kept o s) : NextKept o (execSoftwareReset m die key go s) :=
  .next (.poke h)

theorem NextKept.execRstBlockWrite {m die hold s} (h : Kept o s) : NextKept o (execRstBlockWrite m die hold s) :=
  .next (.poke h)

theorem NextKept.execTamperLogClear {m v s} (h : Kept o s) : NextKept o (execTamperLogClear m v s) :=
  .next (.put32 h)

theorem NextKept.execTamperCfgLock {m v s} (h : Kept o s) : NextKept o (execTamperCfgLock m v s) :=
  .next (.put32 h)

theorem NextKept.execRefSelWrite {m die sel auto s} (h : Kept o s) : NextKept o (execRefSelWrite m die sel auto s) :=
  .next (.poke h)

theorem NextKept.execRefForce {m die sel auto s} (h : Kept o s) : NextKept o (execRefForce m die sel auto s) :=
  .next (.poke h)

theorem NextKept.execGateWrite {m die k v s} (h : Kept o s) : NextKept o (execGateWrite m die k v s) :=
  .next (.put32 h)

theorem NextKept.execAltSwitch {m die mux src s} (h : Kept o s) : NextKept o (execAltSwitch m die mux src s) :=
  .next (.poke h)

theorem NextKept.execAltForce {m die mux src s} (h : Kept o s) : NextKept o (execAltForce m die mux src s) :=
  .next (.poke h)

theorem NextKept.execUpllEnable {m die n v s} (h : Kept o s) : NextKept o (execUpllEnable m die n v s) :=
  .next (.put32 h)

theorem NextKept.execClkMonStart {m die v s} (h : Kept o s) : NextKept o (execClkMonStart m die v s) :=
  .next (.put32 h)

theorem NextKept.execConfirm {m key s} (h : Kept o s) : NextKept o (execConfirm m key s) :=
  .next (.put32 h)

theorem NextKept.execVerifySlot {m slot s} (h : Kept o s) : NextKept o (execVerifySlot m slot s) :=
  .next (.poke h)

theorem NextKept.execVerifyMem {m s} (h : Kept o s) : NextKept o (execVerifyMem m s) :=
  .next (.poke h)

theorem NextKept.execWarmBuild {m s} (h : Kept o s) : NextKept o (execWarmBuild m s) :=
  .next (.poke h)

theorem NextKept.execNvcErase {m s} (h : Kept o s) : NextKept o (execNvcErase m s) :=
  .next (.poke h)

theorem NextKept.execNvcProgram {m s} (h : Kept o s) : NextKept o (execNvcProgram m s) :=
  .next (.poke h)

theorem NextKept.execNvcBlankCheck {m s} (h : Kept o s) : NextKept o (execNvcBlankCheck m s) :=
  .next (.poke h)

theorem NextKept.execNvcRead {m s} (h : Kept o s) : NextKept o (execNvcRead m s) :=
  .next (.poke h)

theorem NextKept.execNvcResetFlash {m s} (h : Kept o s) : NextKept o (execNvcResetFlash m s) :=
  .next (.poke h)

theorem NextKept.execBbWrite {m s} (h : Kept o s) : NextKept o (execBbWrite m s) :=
  .next (.secPoke h)

theorem NextKept.execBbEraseOld {m s} (h : Kept o s) : NextKept o (execBbEraseOld m s) :=
  .next (.secPoke h)

theorem NextKept.execFuseKeyProgram {m s} (h : Kept o s) : NextKept o (execFuseKeyProgram m s) :=
  .next (.secPoke h)

theorem NextKept.execPkhProgram {m arg s} (h : Kept o s) : NextKept o (execPkhProgram m arg s) :=
  .next (.secPoke h)

theorem NextKept.execPkhRevoke {m arg s} (h : Kept o s) : NextKept o (execPkhRevoke m arg s) :=
  .next (.secPoke h)

theorem NextKept.execSvnCommit {m s} (h : Kept o s) : NextKept o (execSvnCommit m s) :=
  .next (.secPoke h)

theorem NextKept.execPolicyProgram {m s} (h : Kept o s) : NextKept o (execPolicyProgram m s) :=
  .next (.secPoke h)

theorem NextKept.execLcAdvance {m arg s} (h : Kept o s) : NextKept o (execLcAdvance m arg s) :=
  .next (.secPoke h)

theorem NextKept.execLockdownCmd {m s} (h : Kept o s) : NextKept o (execLockdownCmd m s) :=
  .next (.secPoke h)

theorem NextKept.execRightsLock {m s} (h : Kept o s) : NextKept o (execRightsLock m s) :=
  .next (.poke h)

theorem NextKept.execCaptureArm {m die v s} (h : Kept o s) : NextKept o (execCaptureArm m die v s) :=
  .next (.put32 h)

theorem NextKept.execCaptureAbort {m die s} (h : Kept o s) : NextKept o (execCaptureAbort m die s) :=
  .next (.poke h)

theorem NextKept.execReadbackStart {m die v s} (h : Kept o s) : NextKept o (execReadbackStart m die v s) :=
  .next (.put32 h)

theorem NextKept.execFenceClose {m die region mode tmo s} (h : Kept o s) : NextKept o (execFenceClose m die region mode tmo s) :=
  .next (.poke h)

theorem NextKept.execFenceRelease {m die region s} (h : Kept o s) : NextKept o (execFenceRelease m die region s) :=
  .next (.poke h)

theorem NextKept.execSweepEnable {m die v s} (h : Kept o s) : NextKept o (execSweepEnable m die v s) :=
  .next (.put32 h)

theorem NextKept.execDoorbell {m die eng s} (h : Kept o s) : NextKept o (execDoorbell m die eng s) :=
  .next (.poke h)

theorem NextKept.execSeaStart {m die eng s} (h : Kept o s) : NextKept o (execSeaStart m die eng s) :=
  .next (.poke h)

theorem NextKept.execSeaHalt {m die eng s} (h : Kept o s) : NextKept o (execSeaHalt m die eng s) :=
  .next (.poke h)

theorem NextKept.execSeaMode {m die eng mode s} (h : Kept o s) : NextKept o (execSeaMode m die eng mode s) :=
  .next (.poke h)

theorem NextKept.execTokenWrite {m die token s} (h : Kept o s) : NextKept o (execTokenWrite m die token s) :=
  .next (.put64 h)

theorem NextKept.execDescriptorWrite {m die op w value s} (h : Kept o s) : NextKept o (execDescriptorWrite m die op w value s) :=
  .next (.put32 h)

theorem NextKept.execCqPop {m die queue s} (h : Kept o s) : NextKept o (execCqPop m die queue s) :=
  .next (.accessRead h)

theorem NextKept.execCqComplete {m die queue status ntok ticket s} (h : Kept o s) :
    NextKept o (execCqComplete m die queue status ntok ticket s) :=
  .next (.poke h)

theorem NextKept.execCqFlush {m die queue s} (h : Kept o s) : NextKept o (execCqFlush m die queue s) :=
  .next (.poke h)

theorem NextKept.execMigrateOp {m die op s} (h : Kept o s) : NextKept o (execMigrateOp m die op s) :=
  .next (.dfdPoke h)

theorem NextKept.execEvacuateUnit {m die unit s} (h : Kept o s) : NextKept o (execEvacuateUnit m die unit s) :=
  .next (.dfdPoke h)

theorem NextKept.execAbortOp {m die op s} (h : Kept o s) : NextKept o (execAbortOp m die op s) :=
  .next (.dfdPoke h)

theorem NextKept.execAbortUnit {m die unit s} (h : Kept o s) : NextKept o (execAbortUnit m die unit s) :=
  .next (.dfdPoke h)

theorem NextKept.execEpochClose {m die s} (h : Kept o s) : NextKept o (execEpochClose m die s) :=
  .next (.dfdPoke h)

theorem NextKept.execEpochAbort {m die s} (h : Kept o s) : NextKept o (execEpochAbort m die s) :=
  .next (.dfdPoke h)

theorem NextKept.execDfdEnable {m die enable s} (h : Kept o s) : NextKept o (execDfdEnable m die enable s) :=
  .next (.poke h)

theorem NextKept.execOwnerChange {m die bank owner s} (h : Kept o s) : NextKept o (execOwnerChange m die bank owner s) :=
  .next (.poke h)

theorem NextKept.execBankPowerRequest {m die bank power s} (h : Kept o s) : NextKept o (execBankPowerRequest m die bank power s) :=
  .next (.poke h)

theorem NextKept.execBankWipe {m die bank s} (h : Kept o s) : NextKept o (execBankWipe m die bank s) :=
  .next (.poke h)

theorem NextKept.execSecureSet {m die s} (h : Kept o s) : NextKept o (execSecureSet m die s) :=
  .next (.poke h)

theorem NextKept.execEccChkRead {m die s} (h : Kept o s) : NextKept o (execEccChkRead m die s) :=
  .next (.accessRead h)

theorem NextKept.execEccChkWrite {m die check s} (h : Kept o s) : NextKept o (execEccChkWrite m die check s) :=
  .next (.poke h)

theorem NextKept.execRlcFlush {m die s} (h : Kept o s) : NextKept o (execRlcFlush m die s) :=
  .next (.poke h)

theorem NextKept.execRlcEccArm {m die flip s} (h : Kept o s) : NextKept o (execRlcEccArm m die flip s) :=
  .next (.poke h)

theorem NextKept.execBdlTest {m die arm edge module count s} (h : Kept o s) : NextKept o (execBdlTest m die arm edge module count s) :=
  .next (.poke h)

theorem NextKept.execDdrEccFlip {m die ctl v s} (h : Kept o s) : NextKept o (execDdrEccFlip m die ctl v s) :=
  .next (.put32 h)

theorem NextKept.execMapSetEnable {m die set v s} (h : Kept o s) : NextKept o (execMapSetEnable m die set v s) :=
  .next (.put32 h)

theorem NextKept.execLoadCurrent {m die inst keyid device s} (h : Kept o s) : NextKept o (execLoadCurrent m die inst keyid device s) :=
  .next (.meePoke h)

theorem NextKept.execLoadNext {m die inst keyid device s} (h : Kept o s) : NextKept o (execLoadNext m die inst keyid device s) :=
  .next (.meePoke h)

theorem NextKept.execAbandon {m die inst keyid device s} (h : Kept o s) : NextKept o (execAbandon m die inst keyid device s) :=
  .next (.meePoke h)

theorem NextKept.execRekey {m die inst keyid device s} (h : Kept o s) : NextKept o (execRekey m die inst keyid device s) :=
  .next (.meePoke h)

theorem NextKept.execPromote {m die inst keyid device s} (h : Kept o s) : NextKept o (execPromote m die inst keyid device s) :=
  .next (.meePoke h)

theorem NextKept.execMeeClear {m die inst keyid device s} (h : Kept o s) : NextKept o (execMeeClear m die inst keyid device s) :=
  .next (.meePoke h)

theorem NextKept.execMeeInit {m die inst keyid window device s} (h : Kept o s) :
    NextKept o (execMeeInit m die inst keyid window device s) :=
  .next (.meePoke h)

theorem NextKept.execQpllWrite {m die quad pll v s} (h : Kept o s) : NextKept o (execQpllWrite m die quad pll v s) :=
  .next (.put64 h)

theorem NextKept.execLaneEnable {m die lane v s} (h : Kept o s) : NextKept o (execLaneEnable m die lane v s) :=
  .next (.put32 h)

theorem NextKept.execLaneRestart {m die lane s} (h : Kept o s) : NextKept o (execLaneRestart m die lane s) :=
  .next (.poke h)

theorem NextKept.execReadapt {m die lane s} (h : Kept o s) : NextKept o (execReadapt m die lane s) :=
  .next (.poke h)

theorem NextKept.execEyeScanStart {m die lane v s} (h : Kept o s) : NextKept o (execEyeScanStart m die lane v s) :=
  .next (.put32 h)

theorem NextKept.execPairBypassWrite {m die pair v s} (h : Kept o s) : NextKept o (execPairBypassWrite m die pair v s) :=
  .next (.put32 h)

theorem NextKept.execPrbsWrite {m die lane v s} (h : Kept o s) : NextKept o (execPrbsWrite m die lane v s) :=
  .next (.put32 h)

theorem NextKept.execL2Read {m die s} (h : Kept o s) : NextKept o (execL2Read m die s) :=
  .next (.l2Poke h)

theorem NextKept.execL2ReadIndex {m die index s} (h : Kept o s) : NextKept o (execL2ReadIndex m die index s) :=
  .next (.poke h)

theorem NextKept.execL2Write {m die s} (h : Kept o s) : NextKept o (execL2Write m die s) :=
  .next (.l2Poke h)

theorem NextKept.execL2Delete {m die s} (h : Kept o s) : NextKept o (execL2Delete m die s) :=
  .next (.l2Poke h)

theorem NextKept.execFlushPort {m die s} (h : Kept o s) : NextKept o (execFlushPort m die s) :=
  .next (.l2Poke h)

theorem NextKept.execFlushVlan {m die s} (h : Kept o s) : NextKept o (execFlushVlan m die s) :=
  .next (.l2Poke h)

theorem NextKept.execFlushDynamic {m die s} (h : Kept o s) : NextKept o (execFlushDynamic m die s) :=
  .next (.l2Poke h)

theorem NextKept.execVlanRead {m die index s} (h : Kept o s) : NextKept o (execVlanRead m die index s) :=
  .next (.poke h)

theorem NextKept.execVlanWrite {m die index s} (h : Kept o s) : NextKept o (execVlanWrite m die index s) :=
  .next (.poke h)

theorem NextKept.execNhRead {m die index s} (h : Kept o s) : NextKept o (execNhRead m die index s) :=
  .next (.poke h)

theorem NextKept.execNhWrite {m die index s} (h : Kept o s) : NextKept o (execNhWrite m die index s) :=
  .next (.poke h)

theorem NextKept.execRingTailWrite {m die ring index s} (h : Kept o s) : NextKept o (execRingTailWrite m die ring index s) :=
  .next (.put32 h)

theorem NextKept.execTsPop {m die size s} (h : Kept o s) : NextKept o (execTsPop m die size s) :=
  .next (.accessRead h)

theorem NextKept.execTimeWrite {m die v s} (h : Kept o s) : NextKept o (execTimeWrite m die v s) :=
  .next (.put64 h)

theorem NextKept.execTimeAdjWrite {m die v s} (h : Kept o s) : NextKept o (execTimeAdjWrite m die v s) :=
  .next (.put32 h)

theorem NextKept.execTimeStep {m die v s} (h : Kept o s) : NextKept o (execTimeStep m die v s) :=
  .next (.put32 h)

theorem NextKept.execPortCfgWrite {m die lane v s} (h : Kept o s) : NextKept o (execPortCfgWrite m die lane v s) :=
  .next (.put32 h)

theorem NextKept.execReleaseWrite {m die cores s} (h : Kept o s) : NextKept o (execReleaseWrite m die cores s) :=
  .next (.poke h)

theorem NextKept.execMtimeWrite {m die v s} (h : Kept o s) : NextKept o (execMtimeWrite m die v s) :=
  .next (.put64 h)

theorem NextKept.execClaim {m die ctx s} (h : Kept o s) : NextKept o (execClaim m die ctx s) :=
  .next (.accessRead h)

theorem NextKept.execClaimComplete {m die ctx id s} (h : Kept o s) : NextKept o (execClaimComplete m die ctx id s) :=
  .next (.poke h)

theorem NextKept.execVersion {m die s} (h : Kept o s) : NextKept o (execVersion m die s) :=
  .next (.mboxPoke h)

theorem NextKept.execSensors {m die s} (h : Kept o s) : NextKept o (execSensors m die s) :=
  .next (.mboxPoke h)

theorem NextKept.execLadder {m die s} (h : Kept o s) : NextKept o (execLadder m die s) :=
  .next (.mboxPoke h)

theorem NextKept.execThermal {m die s} (h : Kept o s) : NextKept o (execThermal m die s) :=
  .next (.mboxPoke h)

theorem NextKept.execSmbPublish {m die s} (h : Kept o s) : NextKept o (execSmbPublish m die s) :=
  .next (.mboxPoke h)

theorem NextKept.execSmbFetch {m die s} (h : Kept o s) : NextKept o (execSmbFetch m die s) :=
  .next (.mboxPoke h)

theorem NextKept.execTamperInfo {m die s} (h : Kept o s) : NextKept o (execTamperInfo m die s) :=
  .next (.mboxPoke h)

theorem NextKept.execSntBegin {m die scope s} (h : Kept o s) : NextKept o (execSntBegin m die scope s) :=
  .next (.poke h)

theorem NextKept.execStagedWrite {m die off v s} (h : Kept o s) : NextKept o (execStagedWrite m die off v s) :=
  .next (.put32 h)

theorem NextKept.execSntCommit {m die go s} (h : Kept o s) : NextKept o (execSntCommit m die go s) :=
  .next (.poke h)

theorem NextKept.execSntRollback {m die go s} (h : Kept o s) : NextKept o (execSntRollback m die go s) :=
  .next (.poke h)

theorem NextKept.execLadderRequest {m die target scope s} (h : Kept o s) : NextKept o (execLadderRequest m die target scope s) :=
  .next (.poke h)

theorem NextKept.execFanRetry {m die s} (h : Kept o s) : NextKept o (execFanRetry m die s) :=
  .next (.poke h)

theorem NextKept.execMonEnable {m die mon v s} (h : Kept o s) : NextKept o (execMonEnable m die mon v s) :=
  .next (.put32 h)

/-! ## Machine/Noc.lean -/

theorem Kept.ctrlReq {s q d off} (h : Kept o s) : Kept o (ctrlReq s q d off) := by
  unfold Machine.ctrlReq
  split
  · next e => exact .ans ((Kept.ctrlRoute h).snd e)
  · next e =>
      have h1 := (Kept.ctrlRoute h).snd e
      dsimp only
      split
      · exact .ite (.apertureRead h1) (.ans h1)
      · split
        · split
          · next e1 => exact .ansData ((Kept.regRead h1).snd2 e1)
          · next e1 => exact .ans ((Kept.regRead h1).snd2 e1)
        · exact .ite (.ite (.ans h1) (.regWrite (fun _ _ => .writeSntCommit) h1)) (.ans h1)

theorem Kept.fabricReq {s q d p} (h : Kept o s) : Kept o (fabricReq s q d p) := by
  unfold Machine.fabricReq
  split
  · next e => exact .ans ((Kept.routeTo h).snd e)
  · next e =>
      have h1 := (Kept.routeTo h).snd e
      exact .ite (.ans h1) (.ite (.ans (.withFresh h1)) (.withReply (.freeWords (.withFresh h1))))

theorem Kept.fillReq {s q unique} (h : Kept o s) : Kept o (fillReq s q unique) := by
  unfold Machine.fillReq
  extract_lets d line x
  have hx : Kept o x.2 := by
    unfold x
    split
    · exact .fill h
    · split
      · exact .upgrade h
      · exact h
  clear_value x
  split
  · split
    · next e => exact .withReply ((Kept.cohRead hx).snd2 e)
    · next e => exact .ans ((Kept.cohRead hx).snd2 e)
  · exact .ans hx

theorem Kept.lineReq {s q} (h : Kept o s) : Kept o (lineReq s q) := by
  unfold Machine.lineReq
  dsimp only
  split
  · exact .ite (.answered (.upgrade h)) (.ans h)
  · exact .ans (.ite (.evictCopy h) h)
  · exact .ans (.ite (.evictCopy h) h)
  · exact .ans (.cleanCopy h)
  · exact .ans (.recallLine h)

theorem Kept.cacheReq {s q} (h : Kept o s) : Kept o (cacheReq s q) := by
  unfold Machine.cacheReq
  split
  · exact .memReadReq h
  · exact .memWriteReq h
  · exact .bankAtomic h
  · exact .bankAtomic h
  · exact .bankAtomic h
  · exact .fillReq h
  · exact .fillReq h
  · exact .ans h
  · exact .lineReq h

theorem Kept.served {s q} (h : Kept o s) : Kept o (served s q) := by
  unfold Machine.served
  split
  · exact .ans h
  · split
    · exact .ans h
    · exact .ctrlReq h
    · exact .ite (.seMemReq h) (.ans h)
    · exact .ite (.fabricReq h) (.ans h)
    · exact .ite (.cacheReq h) (.ite (.companionAns h) (.ans h))
    · exact .cacheReq h
    · exact .cacheReq h

theorem Kept.perform {s q} (h : Kept o s) : Kept o (perform s q) :=
  .coreSees (.served h)

theorem Kept.sendWrite {s m addr ws} (h : Kept o s) : Kept o (sendWrite s m addr ws).2 :=
  .perform h

theorem Kept.sendRead {s m addr n} (h : Kept o s) : Kept o (sendRead s m addr n).2.2 :=
  .perform h

theorem NextKept.execPacketInject {req s} (h : Kept o s) : NextKept o (execPacketInject req s) := by
  unfold Machine.execPacketInject
  refine .next ?_
  split
  · refine .ifIssued ?_ h
    intro _ h
    split
    · exact .coreSees (.ans h)
    · split
      · next e => exact .coreSees (.ans ((Kept.routeTo h).snd e))
      · next e => exact .sendNet h
  · exact h

theorem NextKept.execPacketPark {rid tag s} (h : Kept o s) : NextKept o (execPacketPark rid tag s) := by
  unfold Machine.execPacketPark
  refine .next ?_
  split
  · exact h
  · split
    · exact .ite (.ans (.inc (.putNet h))) (.ite h (.setNet (.packetWake h)))
    · exact h

theorem Kept.lateOne {s rid tag} (h : Kept o s) : Kept o (lateOne s rid tag) :=
  .p (.inc (.putNet h))

theorem Kept.completeReq {s rid tag r} (h : Kept o s) : Kept o (completeReq s rid tag r) :=
  .ite (.withReply (.lateOne (.perform h))) (.putNet (.perform h))

theorem NextKept.execParkedDelivery {die s} (h : Kept o s) : NextKept o (execParkedDelivery die s) :=
  .next (.ite (.foldl (fun _ _ h => .ite h (.completeReq h)) h) h)

theorem Kept.showTarget {s q d p off g} (h : Kept o s) : Kept o (showTarget s q d p off g) := by
  unfold Machine.showTarget
  split
  · next e => exact .ans ((Kept.routeTo h).snd e)
  · next e =>
      have h1 := (Kept.routeTo h).snd e
      exact .ite (.ans h1) (.ite h1 (.ansData (.when .sendNet (.setNport h1))))

theorem Kept.serveReq {s q} (h : Kept o s) : Kept o (serveReq s q) := by
  unfold Machine.serveReq
  split
  · exact .ite (.sendNet h) h
  · split
    · split
      · exact h
      · split
        · exact .ite (.showTarget h) h
        · exact .showTarget h
    · split
      · exact .ite (.completeReq h) h
      · exact .perform h

theorem NextKept.execNocRead {req s} (h : Kept o s) : NextKept o (execNocRead req s) :=
  .next (.ite (.ifIssued (fun _ => .serveReq) h) h)

theorem NextKept.execNocWrite {req s} (h : Kept o s) : NextKept o (execNocWrite req s) :=
  .next (.ite (.ifIssued (fun _ => .serveReq) h) h)

theorem Kept.timeoutReq {s rid tag r} (h : Kept o s) : Kept o (timeoutReq s rid tag r) :=
  .putNet (.unless (fun h' => .p (.p (.p (.p (.p h'))))) (.p (.inc h)))

theorem NextKept.execCompletionTimeout {rid tag s} (h : Kept o s) : NextKept o (execCompletionTimeout rid tag s) := by
  unfold Machine.execCompletionTimeout
  refine .next ?_
  split
  · exact .ite (.coreSees (.ans (.timeoutReq h))) h
  · exact h

theorem NextKept.execLateCompletion {rid tag s} (h : Kept o s) : NextKept o (execLateCompletion rid tag s) := by
  unfold Machine.execLateCompletion
  refine .next ?_
  split
  · exact .ite h (.ite (.lateOne h) (.ite (.completeReq h) h))
  · exact h

theorem NextKept.execQuarantineExpiry {rid tag s} (h : Kept o s) : NextKept o (execQuarantineExpiry rid tag s) := by
  unfold Machine.execQuarantineExpiry
  refine .next ?_
  split
  · exact .ite (.putNet (.when (fun h' => .withReply (.perform h')) (.withFresh h))) h
  · exact h

theorem NextKept.execXipRead {m off size s} (h : Kept o s) : NextKept o (execXipRead m off size s) := by
  unfold Machine.execXipRead
  refine .next ?_
  split
  · next e => exact .ans ((Kept.ctrlRoute h).snd e)
  · next e =>
      have h1 := (Kept.ctrlRoute h).snd e
      exact .ite (.ans h1) (.xipRead h1)

theorem NextKept.execNvcResume {s} (h : Kept o s) : NextKept o (execNvcResume s) :=
  .next (.ite (.p h) h)

/-! ## Machine/FabricPorts.lean -/

theorem Kept.portDeliver {s d p} (h : Kept o s) : Kept o (portDeliver s d p) :=
  .ite (.setNport h) h

theorem Kept.portAnswer {s x} (h : Kept o s) : Kept o (portAnswer s x) :=
  .withReply h

theorem Kept.portSend {s d p x} (h : Kept o s) : Kept o (portSend s d p x) := by
  unfold Machine.portSend
  dsimp only
  split
  · exact .portAnswer (.ans (.setNport h))
  · split
    · next e => exact .portAnswer (.ans ((Kept.routeTo (.setNport h)).snd e))
    · next e => exact .ite (.sendNet (.setNport ((Kept.routeTo (.setNport h)).snd e))) <|
                    .ite (.sendNet (.setNport (.setNport h))) (.portAnswer (.perform (.setNport h)))

theorem NextKept.execNocPortRequest {die port op addr len size tag s} (h : Kept o s) :
    NextKept o (execNocPortRequest die port op addr len size tag s) := by
  unfold Machine.execNocPortRequest
  extract_lets s1
  have h1 : Kept o s1 := .ite (.portDeliver h) h
  refine .next (.ite ?_ h1)
  split
  · exact h1
  · exact .ite (.portAnswer (.ans h1)) (.ite (.portAnswer (.ans h1)) (.ite (.setNport h1) (.portSend h1)))

theorem NextKept.execNocPortWriteBeat {die port data be poison last s} (h : Kept o s) :
    NextKept o (execNocPortWriteBeat die port data be poison last s) := by
  unfold Machine.execNocPortWriteBeat
  extract_lets s1
  have h1 : Kept o s1 := .ite (.portDeliver h) h
  refine .next (.ite ?_ h1)
  split
  · exact h1
  · exact .ite (.setNport h1) (.portSend h1)

theorem NextKept.execNocTargetRequest {die port tag req s} (h : Kept o s) : NextKept o (execNocTargetRequest die port tag req s) := by
  unfold Machine.execNocTargetRequest
  refine .next ?_
  split
  · exact .ite (.showTarget h) h
  · exact h

theorem NextKept.execNocTargetResponse {die port tag resp data s} (h : Kept o s) :
    NextKept o (execNocTargetResponse die port tag resp data s) := by
  refine .next (.ite ?_ h)
  extract_lets n s1
  split
  · exact h
  · have h1 : Kept o s1 := .setNport h
    extract_lets answer
    split
    · exact .ite h1 (.ite (.lateOne h1) (.withReply (.putNet h1)))
    · exact h1

theorem NextKept.execHandoverComplete {die bank s} (h : Kept o s) : NextKept o (execHandoverComplete die bank s) :=
  .next (.ite (.handoverEnd h) h)

/-! ## Machine/Startup.lean -/

theorem NextKept.execPowerOnReset {rail s} (h : Kept o s) : NextKept o (execPowerOnReset rail s) :=
  .next (.ite (.setSec (.raiseReset h)) h)

theorem Kept.killAtPowerOn {s} (h : Kept o s) : Kept o (killAtPowerOn s) :=
  .ite (.setSec h) h

theorem NextKept.execPorRelease {straps s} (h : Kept o s) : NextKept o (execPorRelease straps s) :=
  .next <|
    .ite
      (.unless .raiseReset <| .setPhase <| .onDies (fun _ _ => .startAcquire) <| .noteFuseFail <| .bbCheck <| .killAtPowerOn <|
         .blankLanes (.onDies (fun _ _ h => .unless (fun h' => .p (.p h')) (.showGrade (.dieShow h))) (.setSec (.withBoot h))))
      h

theorem NextKept.execBrownOut {rail s die} (h : Kept o s) : NextKept o (execBrownOut rail s die) :=
  .next (.ite h (.raiseReset h))

theorem NextKept.execProgNLow {s} (h : Kept o s) : NextKept o (execProgNLow s) :=
  .next (.unless .raiseReset (.pAll h))

theorem NextKept.execProgNRise {s} (h : Kept o s) : NextKept o (execProgNRise s) :=
  .next (.when .withBoot (.pAll h))

theorem Kept.arrive {s d} (h : Kept o s) : Kept o (arrive s d) :=
  .ladSettle (.unless .holdMask (.setLad (.p (.p (.p h)))))

theorem Kept.arriveFullStop {s} (h : Kept o s) : Kept o (arriveFullStop s) :=
  .foldl (fun _ _ => .arrive) h

theorem Kept.noImage {s} (h : Kept o s) : Kept o (noImage s) :=
  .arriveFullStop (.pAll (.pAll (.setPhase (.setParse h))))

theorem Kept.beginImage {s src code} (h : Kept o s) : Kept o (beginImage s src code) :=
  .pAll (.withBoot (.onDies (fun _ _ h => .p (.p (.p (.p h)))) (.setPhase (.setParse h))))

theorem Kept.nextSlot {s} (h : Kept o s) : Kept o (nextSlot s) := by
  unfold Machine.nextSlot
  split
  · exact .beginImage (.setFlash h)
  · exact .noImage h
  · exact h

theorem Kept.bootLog {s n err} (h : Kept o s) : Kept o (bootLog s n err) :=
  .p h

theorem Kept.noteLoad {s err seg at_} (h : Kept o s) : Kept o (noteLoad s err seg at_) :=
  .onDies (fun _ _ h => .p (.p (.p (.p h)))) h

theorem Kept.loadFail {s src err seg at_} (h : Kept o s) : Kept o (loadFail s src err seg at_) := by
  unfold Machine.loadFail
  refine .internalReset ?_
  split
  · exact .bootLog (.when .pAll (.pAll (.noteLoad h)))
  · exact .when .pAll (.pAll (.noteLoad h))

theorem Kept.restoreAccess {s d} (h : Kept o s) : Kept o (restoreAccess s d) :=
  .p (.foldl (fun _ _ => .p) h)

theorem Kept.resumeChannel {s ch} (h : Kept o s) : Kept o (resumeChannel s ch) :=
  .p h

theorem Kept.warmStart {s} (h : Kept o s) : Kept o (warmStart s) :=
  .each (fun _ _ => .resumeChannel) (.onDies (fun _ _ => .restoreAccess) (.onDies (fun _ _ h => .p (.p (.p h))) h))

theorem Kept.enterLoad {s} (h : Kept o s) : Kept o (enterLoad s) :=
  .ite (.warmStart (.setPhase h)) (.when .noImage (.setPhase h))

theorem Kept.releaseInit {s} (h : Kept o s) : Kept o (releaseInit s) :=
  .ite (.enterLoad (.ite h (.pAll h))) (.setPhase h)

theorem NextKept.execConfigClearDone {s} (h : Kept o s) : NextKept o (execConfigClearDone s) :=
  .next (.ite (.congr h) h)

theorem Kept.plantReset {s} (h : Kept o s) : Kept o (plantReset s) :=
  .p (.p (.p (.showGrade (.resetRange (.withThm h)))))

theorem Kept.heaterHold {s} (h : Kept o s) : Kept o (heaterHold s) :=
  .p (.plantReset (.pAll (.setPhase h)))

theorem NextKept.execHousekeepEnd {temp s} (h : Kept o s) : NextKept o (execHousekeepEnd temp s) :=
  .next (.ite (.ite (.heaterHold h) (.releaseInit h)) h)

theorem NextKept.execHeaterHoldEnd {temp s} (h : Kept o s) : NextKept o (execHeaterHoldEnd temp s) :=
  .next (.ite (.releaseInit (.plantReset (.pAll h))) h)

theorem NextKept.execInitNHigh {mode s} (h : Kept o s) : NextKept o (execInitNHigh mode s) :=
  .next (.ite (.enterLoad (.pAll (.pAll (.pAll h)))) h)

theorem Kept.flashTake {s a b} (h : Kept o s) : Kept o (flashTake s a b) :=
  .p (.p (.p (.p (.setFlash h))))

theorem Kept.flashClock {s} (h : Kept o s) : Kept o (flashClock s) :=
  .p h

theorem Kept.readRecord {s} (h : Kept o s) : Kept o (readRecord s) := by
  unfold Machine.readRecord
  split
  · exact h
  · exact .p (.p (.setFlash h))

theorem NextKept.execFlashSetup {dev0 dev1 s attempt} (h : Kept o s) : NextKept o (execFlashSetup dev0 dev1 s attempt) :=
  .next <|
    .ite
      (.ite (.ite (.flashClock (.readRecord (.flashTake h))) h) <|
         .ite (.nextSlot (.flashClock (.unless .makePlan (.flashTake h)))) (.noImage (.pAll h))) <|
    .ite (.ite (.flashClock (.flashTake h)) (.setFlash h)) h

theorem NextKept.execJtagProgram {image s} (h : Kept o s) : NextKept o (execJtagProgram image s) :=
  .next (.ite (.beginImage (.withBoot h)) h)

theorem Kept.wakeBegin {s} (h : Kept o s) : Kept o (wakeBegin s) :=
  .onDies (fun _ _ h => .p (.p h)) (.setPhase h)

theorem Kept.wakeStep {s code} (h : Kept o s) : Kept o (wakeStep s code) :=
  .onDies (fun _ _ h => .ite (.p (.setBit h)) (.p (.setBit h))) h

theorem NextKept.execWakeLock {s} (h : Kept o s) : NextKept o (execWakeLock s) :=
  .next (.ite (.wakeStep h) h)

theorem NextKept.execLockTimeout {s} (h : Kept o s) : NextKept o (execLockTimeout s) :=
  .next (.ite (.loadFail (.pAll h)) h)

theorem NextKept.execWakeGoe {s} (h : Kept o s) : NextKept o (execWakeGoe s) :=
  .next (.ite (.onDies (fun _ _ => .setPins) (.wakeStep h)) h)

theorem Kept.imageWrite {s d off v} (h : Kept o s) : Kept o (imageWrite s d off v) := by
  unfold Machine.imageWrite
  split
  · exact .ans h
  · exact .writeReg h

theorem Kept.applyHeld {s d} (h : Kept o s) : Kept o (applyHeld s d) :=
  .withReply (.ite (.p (.foldl (fun _ _ => .p) (.foldl (fun _ _ => .imageWrite) (.accessBlank h)))) (.foldl (fun _ _ => .imageWrite) h))

theorem NextKept.execWakeGsr {s} (h : Kept o s) : NextKept o (execWakeGsr s) :=
  .next (.ite (.onDies (fun _ _ h => .trainStart (.trainStart (.restSlots h))) (.wakeStep (.onDies (fun _ _ => .applyHeld) h))) h)

theorem NextKept.execWakeGwe {s} (h : Kept o s) : NextKept o (execWakeGwe s) :=
  .next (.ite (.wakeStep h) h)

theorem NextKept.execWakeDdrw {s} (h : Kept o s) : NextKept o (execWakeDdrw s) :=
  .next (.ite (.wakeStep h) h)

theorem NextKept.execDdrwTimeout {s} (h : Kept o s) : NextKept o (execDdrwTimeout s) :=
  .next (.ite (.wakeStep (.pAll (.each (fun _ _ => .p) h))) h)

theorem NextKept.execWakeCore {s} (h : Kept o s) : NextKept o (execWakeCore s) :=
  .next (.ite (.onDies (fun _ _ => .startCores) (.wakeStep h)) h)

theorem NextKept.execWakeLane {s} (h : Kept o s) : NextKept o (execWakeLane s) :=
  .next (.ite (.onDies (fun _ _ => .lanesHandOver) (.wakeStep h)) h)

theorem Kept.autoBuild {s} (h : Kept o s) : Kept o (autoBuild s) := by
  unfold Machine.autoBuild
  split
  · exact .ite (.setParse (.warmBuildMarks h)) h
  · exact h

theorem NextKept.execWakeDone {s} (h : Kept o s) : NextKept o (execWakeDone s) :=
  .next (.ite (.autoBuild (.arriveFullStop (.onDies (fun _ _ => .pulse) (.setPhase (.pAll (.wakeStep h)))))) h)

theorem NextKept.execWakeEnd {s} (h : Kept o s) : NextKept o (execWakeEnd s) :=
  .next (.ite (.onDies (fun _ _ h => .p (.setBit h)) h) h)

/-! ## Machine/Wakeup.lean -/

theorem Kept.colonGsr {s d} (h : Kept o s) : Kept o (colonGsr s d) :=
  .setLad (.setPins (.penExit (.lanesFromColon (.restSlots (.applyHeld (.setReset (.ddrReturn h)))))))

theorem Kept.fullStopExit {s} (h : Kept o s) : Kept o (fullStopExit s) :=
  .setPhase (.withBoot (.foldl (fun _ _ h => .startAcquire (.setPins (.p (.p (.p (.p (.p (.p h)))))))) (.withLad (.clearDevice h))))

theorem NextKept.execExitComplete {die s} (h : Kept o s) : NextKept o (execExitComplete die s) :=
  .next <|
    .ite
      (.ite (.arrive (.ddrReturn h)) <|
         .ite (.arrive (.lanesFromSemicolon (.ddrReturn h))) (.ite (.ite (.colonGsr h) h) (.ite (.fullStopExit h) h)))
      h

theorem NextKept.execColonGweStep {die s} (h : Kept o s) : NextKept o (execColonGweStep die s) :=
  .next (.ite (.arrive (.setLad h)) h)

theorem NextKept.execColonCoreStep {die s} (h : Kept o s) : NextKept o (execColonCoreStep die s) :=
  .next (.ite (.when .startCores (.setLad h)) h)

/-! ## Machine/Mailbox.lean -/

theorem Kept.mboxWords {s d ws} (h : Kept o s) : Kept o (mboxWords s d ws) :=
  .foldl (fun _ _ => .p) h

theorem Kept.svcSensors {s d} (h : Kept o s) : Kept o (svcSensors s d) :=
  .mboxWords h

theorem Kept.svcLadder {s d} (h : Kept o s) : Kept o (svcLadder s d).2 := by
  unfold Machine.svcLadder
  dsimp only
  split
  · exact h
  · split
    · exact h
    · exact .mboxWords (.ladRequest h)

theorem Kept.svcThermal {s d} (h : Kept o s) : Kept o (svcThermal s d) :=
  .mboxWords h

theorem Kept.svcPublish {s d} (h : Kept o s) : Kept o (svcPublish s d) :=
  .withSmbPub h

theorem Kept.svcFetch {s d} (h : Kept o s) : Kept o (svcFetch s d) :=
  .mboxWords h

theorem Kept.svcTamper {s d} (h : Kept o s) : Kept o (svcTamper s d).2 := by
  unfold Machine.svcTamper
  split
  · exact .mboxWords (.withFresh h)
  · exact h

theorem Kept.service {s d cmd} (h : Kept o s) : Kept o (service s d cmd).2 := by
  unfold Machine.service
  split
  · exact h
  · split
    · exact .mboxWords h
    · exact .svcSensors h
    · exact .svcLadder h
    · exact .svcThermal h
    · exact .svcPublish h
    · exact .svcFetch h
    · exact .svcTamper h
    · exact h

theorem NextKept.execMailboxDone {die s} (h : Kept o s) : NextKept o (execMailboxDone die s) := by
  unfold Machine.execMailboxDone
  refine .next ?_
  split
  · exact h
  · exact .pulse (.p (.p (.setMbox (.service h))))

/-! ## Machine/PenSend.lean -/

theorem Kept.drrPick {k s d e n} (h : Kept o s) : Kept o (drrPick k s d e n).2 := by
  induction k generalizing s with
  | zero => exact h
  | succ k ih =>
      unfold Machine.drrPick
      extract_lets x q next w s1 len
      split
      · exact ih (.setDrr (.ite (.setDeficit h) h))
      · have h1 : Kept o s1 := .ite h (.setDrr (.setDeficit h))
        split
        · exact .setDeficit h1
        · exact ih (.setDrr h1)

theorem Kept.pickQueue {s d e} (h : Kept o s) : Kept o (pickQueue s d e).2 := by
  unfold Machine.pickQueue
  dsimp only
  split
  · exact h
  · split
    · exact .drrPick h
    · exact h

theorem Kept.sendMany {s m addr ws} (h : Kept o s) : Kept o (sendMany s m addr ws).2 :=
  .foldlOf Prod.snd (fun _ _ => .sendWrite) h

theorem Kept.readBeats {m k s addr n} (h : Kept o s) : Kept o (readBeats m k s addr n).2.2 := by
  induction k generalizing s addr n with
  | zero => exact h
  | succ k ih =>
      unfold Machine.readBeats
      split
      · next e => exact ih ((Kept.sendRead h).snd2 e)
      · exact .sendRead h

theorem Kept.readMany {s m addr n} (h : Kept o s) : Kept o (readMany s m addr n).2.2 :=
  .readBeats h

theorem OptKept.fabricTx {s d n f} (h : Kept o s) : OptKept o (fabricTx s d n f) :=
  .ite (.some (.penCnt h)) (.ite .none (.some (.setFifo h)))

theorem OptKept.ringTx {s d r f} (h : Kept o s) : OptKept o (ringTx s d r f) := by
  refine .ite .none (.ite (.some (.penCnt h)) ?_)
  split
  next e => exact .some (.setRingAck (.withReply ((Kept.sendMany h).snd e)))

theorem Kept.ringAdvance {s d r} (h : Kept o s) : Kept o (ringAdvance s d r) :=
  .p (.p h)

theorem OptKept.trunkTx {s d e f} (h : Kept o s) : OptKept o (trunkTx s d e f) := by
  unfold Machine.trunkTx
  dsimp only
  split
  · exact .none
  · exact .ite (.some (.when .setYout (.setAir h))) .none

theorem OptKept.sendOut {s d e f} (h : Kept o s) : OptKept o (sendOut s d e f) :=
  .ite (.ite (.some (.laneTx h)) .none) (.ite (.fabricTx h) (.ite (.ringTx h) (.ite (.trunkTx h) .none)))

theorem Kept.retryOut {s d} (h : Kept o s) : Kept o (retryOut s d) :=
  .foldl (fun _ _ => .takeOut) h

theorem NextKept.execEgressSend {die dest s} (h : Kept o s) : NextKept o (execEgressSend die dest s) := by
  unfold Machine.execEgressSend
  refine .next ?_
  split
  · split
    · next e => exact h
    · next e =>
        split
        · exact h
        · split
          · next e1 => exact .retryOut ((OptKept.sendOut (.setQueue ((Kept.pickQueue h).snd e))).get e1)
          · exact h
  · exact h

theorem OptKept.trunkArrive {s d f} (h : Kept o s) : OptKept o (trunkArrive s d f) :=
  .ite (.some (.ite (.floodLocal h) (.localSend h))) (.ite (.some (.penCnt h)) (.enqueue h))

theorem NextKept.execTrunkCell {die edge s} (h : Kept o s) : NextKept o (execTrunkCell die edge s) := by
  unfold Machine.execTrunkCell
  refine .next (.ite ?_ h)
  split
  · exact h
  · exact .ite (.setAir h) ((OptKept.trunkArrive (.setAir h)).getD h)

theorem NextKept.execYWriteResponse {die resp s} (h : Kept o s) : NextKept o (execYWriteResponse die resp s) := by
  unfold Machine.execYWriteResponse
  refine .next ?_
  split
  · exact .ite (.ite h (.setYout h)) (.when .setAir (.penCnt (.setYout h)))
  · exact h

theorem NextKept.execRingHeadAdvance {die ring s} (h : Kept o s) : NextKept o (execRingHeadAdvance die ring s) :=
  .next (.ite (.ringAdvance (.setRingAck h)) h)

theorem NextKept.execRingError {die ring s} (h : Kept o s) : NextKept o (execRingError die ring s) := by
  unfold Machine.execRingError
  refine .next ?_
  split
  · exact .ite h (.p (.p (.p (.setRingAck h))))
  · exact h

theorem Kept.txForward {s d f lookup} (h : Kept o s) : Kept o (txForward s d f lookup) :=
  .ite (.lookupSend h) (.sendTo h)

theorem NextKept.execTxRingSend {die ring s} (h : Kept o s) : NextKept o (execTxRingSend die ring s) := by
  unfold Machine.execTxRingSend
  extract_lets d r m rep wordsOf
  refine .next (.ite ?_ h)
  split
  · next e =>
      have h1 := (Kept.readMany h).snd2 e
      extract_lets len
      split
      · next e1 => exact .withReply (.txForward (.ringAdvance ((Kept.readMany h1).snd2 e1)))
      · next e1 => exact .setRingAck (.withReply ((Kept.readMany h1).snd2 e1))
  · next e => exact .setRingAck (.withReply ((Kept.readMany h).snd2 e))

/-! ## Machine/Nvc.lean -/

theorem Kept.readWords {s m addr n} (h : Kept o s) : Kept o (readWords s m addr n).2.2 := by
  unfold Machine.readWords
  dsimp only
  split
  · exact .readMany h
  · split
    · next e => exact .readMany ((Kept.sendRead h).snd2 e)
    · next e => exact ((Kept.sendRead h).snd2 e)

theorem Kept.flashErase {s a n} (h : Kept o s) : Kept o (flashErase s a n) :=
  .setFlashBytes h

theorem Kept.loseRest {s} (h : Kept o s) : Kept o (loseRest s) :=
  .loseFlash h

theorem Kept.nvcStep {s} (h : Kept o s) : Kept o (nvcStep s) := by
  unfold Machine.nvcStep
  dsimp only
  split
  · exact h
  · split
    · exact .setFlash (.flashErase h)
    · split
      · split
        · exact .nvcEnd h
        · split
          · next e =>
              have h1 := (Kept.readWords h).snd2 e
              exact .ite (.nvcEnd (.loseRest h1)) (.setFlash (.setFlashBytes h1))
          · next e => exact .nvcEnd (.loseRest ((Kept.readWords h).snd2 e))
      · exact h

theorem Kept.nvcSteps {s n} (h : Kept o s) : Kept o (nvcSteps s n) :=
  .foldl (fun _ _ => .nvcStep) h

theorem Kept.flashFails {s x} (h : Kept o s) : Kept o (flashFails s x) := by
  unfold Machine.flashFails
  extract_lets f s1 s2
  refine .ite ?_ (.ite (.nvcEnd (.setFlash h)) (.nvcEnd h))
  have h1 : Kept o s1 := by
    refine .ite ?_ h
    split
    · exact .nvcEnd h
    · exact h
  have h2 : Kept o s2 := .nvcSteps h1
  exact .ite h2 (.nvcEnd (.loseRest h2))

theorem Kept.flashRead {s} (h : Kept o s) : Kept o (flashRead s) := by
  unfold Machine.flashRead
  extract_lets f m k first parts
  split
  next bad s1 e =>
    have h1 : Kept o s1 := by
      refine .snd (.foldlOf Prod.snd (fun x p hx => ?_) h) e
      split
      · exact hx
      · split
        next ew =>
          have h2 := (Kept.flashWords hx).snd ew
          split
          · next e1 => exact (Kept.sendWrite h2).snd e1
          · next e1 => exact (Kept.sendWrite h2).snd e1
    split
    · exact .nvcEnd h1
    · exact .nvcEnd h1

theorem NextKept.execNvcComplete {fail s} (h : Kept o s) : NextKept o (execNvcComplete fail s) := by
  unfold Machine.execNvcComplete
  refine .next ?_
  refine .withReply ?_
  split
  · exact h
  · split
    · exact .flashFails h
    · split
      · exact .unless .nvcEnd (.nvcSteps h)
      · split
        · split
          · exact .nvcEnd h
          · exact .nvcEnd h
        · exact .ite (.flashRead h) (.ite (.nvcEnd h) (.nvcEnd h))

theorem Kept.rbStep {s d} (h : Kept o s) : Kept o (rbStep s d) := by
  unfold Machine.rbStep
  split
  · exact h
  · split
    · exact h
    · split
      · next e => exact .setRb ((Kept.sendMany h).snd e)
      · next e => exact .rbEnd ((Kept.sendMany h).snd e)

theorem NextKept.execReadbackDone {die s} (h : Kept o s) : NextKept o (execReadbackDone die s) := by
  unfold Machine.execReadbackDone
  refine .next ?_
  split
  · exact .ite (.withReply (.when .rbEnd (.foldl (fun _ _ => .rbStep) h))) h
  · exact h

/-! ## Machine/Security.lean -/

theorem Kept.bbWriteEnd {s} (h : Kept o s) : Kept o (bbWriteEnd s) :=
  .setSec h

theorem Kept.bbEraseEnd {s} (h : Kept o s) : Kept o (bbEraseEnd s) :=
  .bbCheck (.setSec h)

theorem Kept.fuseKeyEnd {s} (h : Kept o s) : Kept o (fuseKeyEnd s) :=
  .setFuses h

theorem Kept.pkhEnd {s k} (h : Kept o s) : Kept o (pkhEnd s k) :=
  .setFuses h

theorem Kept.svnEnd {s} (h : Kept o s) : Kept o (svnEnd s) :=
  .setFuses h

theorem Kept.policyEnd {s} (h : Kept o s) : Kept o (policyEnd s) :=
  .setFuses h

theorem Kept.lcEnd {s target} (h : Kept o s) : Kept o (lcEnd s target) :=
  .raiseReset (.secEnd (.when (fun h' => .zeroiseKeys (.setSec h')) (.onDies (fun _ _ => .warmClear) (.wipeSecure (.setFuses h)))))

theorem NextKept.execSecCmdComplete {ok s} (h : Kept o s) : NextKept o (execSecCmdComplete ok s) := by
  unfold Machine.execSecCmdComplete
  refine .next ?_
  split
  · exact h
  · split
    · exact .secEnd (.bbEraseEnd h)
    · split
      · exact .secEnd (.secAbort h)
      · split
        · exact .secEnd (.bbWriteEnd h)
        · exact .secEnd (.fuseKeyEnd h)
        · exact .secEnd (.pkhEnd h)
        · exact .secEnd (.setFuses h)
        · exact .secEnd (.svnEnd h)
        · exact .secEnd (.policyEnd h)
        · exact .lcEnd h
        · exact .secEnd h

theorem Kept.unlockFail {s} (h : Kept o s) : Kept o (unlockFail s) :=
  .when .p (.p h)

theorem NextKept.execSecChal {s} (h : Kept o s) : NextKept o (execSecChal s) :=
  .next (.ite (.ansData (.setSec (.withFresh h))) h)

theorem NextKept.execSecResp {v s} (h : Kept o s) : NextKept o (execSecResp v s) :=
  .next (.ite (.ite (.unlockFail h) (.setSec h)) h)

theorem NextKept.execUnlockVerified {s} (h : Kept o s) : NextKept o (execUnlockVerified s) := by
  unfold Machine.execUnlockVerified
  refine .next ?_
  split
  · exact h
  · exact .ite (.p (.setSec h)) (.unlockFail (.setSec h))

theorem NextKept.execJtagInstruction {instr s} (h : Kept o s) : NextKept o (execJtagInstruction instr s) :=
  .next (.ite (.tamper h) h)

theorem NextKept.execVbatLoss {s mv} (h : Kept o s) : NextKept o (execVbatLoss s mv) :=
  .next (.ite (.p (.p (.resetCells (.setSec (.withFresh (.withFresh h)))))) h)

/-! ## Machine/Image.lean -/

theorem Kept.srcRead {s off n} (h : Kept o s) : Kept o (srcRead s off n).2 := by
  unfold Machine.srcRead
  split
  · split
    · exact h
    · exact h
  · exact h
  · split
    · next e => exact .withReply ((Kept.readWords h).snd2 e)
    · next e => exact .withReply ((Kept.readWords h).snd2 e)
  · exact h
  · exact h

theorem Kept.srcSuspends {s} (h : Kept o s) : Kept o (srcSuspends s) := by
  unfold Machine.srcSuspends
  split
  · exact .ite (.p h) h
  · exact h

theorem Kept.partialFail {s err seg at_} (h : Kept o s) : Kept o (partialFail s err seg at_) :=
  .passEnd <| .pulse <|
    .onDies (fun _ _ h => .when .setWarm (.foldl (fun _ _ h => .p (.setPrState h)) (.foldl (fun _ _ => .setFrame) (.newEpoch h)))) <|
    .pAll (.noteLoad h)

theorem Kept.passFail {s err seg at_} (h : Kept o s) : Kept o (passFail s err seg at_) := by
  unfold Machine.passFail
  split
  · exact .loadFail h
  · exact .partialFail h
  · exact .passEnd h
  · exact .warmFail h
  · exact .startCmd (.failFlashPass (.setParse (.passRepairs h)))
  · exact h
  · exact h

theorem Kept.recFail {s err at_} (h : Kept o s) : Kept o (recFail s err at_) :=
  .passFail h

theorem Kept.touchDie {s d} (h : Kept o s) : Kept o (touchDie s d) :=
  .ite h (.p (.setWarm (.setParse h)))

theorem Kept.touchNamed {s names} (h : Kept o s) : Kept o (touchNamed s names) :=
  .foldl (fun _ _ => .touchDie) h

theorem NextKept.execLoadMem {m s names} (h : Kept o s) : NextKept o (execLoadMem m s names) :=
  .next (.when .touchNamed (.poke h))

theorem NextKept.execImageHeader {s names} (h : Kept o s) : NextKept o (execImageHeader s names) :=
  .next <| .ite h <| .ite (.passFail (.touchNamed h)) <| .both .passFail (fun h' => .ite (.passFail h') (.setParse h')) <|
    .when .noteFuseFail (.srcRead (.bbCheck (.srcSuspends (.touchNamed h))))

theorem Kept.settle {s} (h : Kept o s) : Kept o (settle s) := by
  unfold Machine.settle
  dsimp only
  split
  · exact h
  · split
    · exact .ite (.recFail h) h
    · split
      · exact .recFail h
      · exact .ite (.recFail h) h

/-! ## Machine/Records.lean -/

theorem Kept.warmWords {s d off ws} (h : Kept o s) : Kept o (warmWords s d off ws).2 :=
  .withReply (.sendMany h)

theorem Kept.warmWord32 {s d off v} (h : Kept o s) : Kept o (warmWord32 s d off v).2 :=
  .withReply (.perform h)

theorem Kept.refreshWrite {s d f} (hf : ∀ t, Kept o t → Kept o (f t).2) (h : Kept o s) : Kept o (refreshWrite s d f) := by
  refine .ite ?_ h
  split
  · next e => exact (hf _ h).snd e
  · next e => exact .setWarm ((hf _ h).snd e)

theorem Kept.netRes {x} (h : Kept o x.2) : Kept o (netRes x).2 :=
  h

theorem Kept.regionLoads {s d fa} (h : Kept o s) : Kept o (regionLoads s d fa) := by
  unfold Machine.regionLoads
  split
  · exact h
  · split
    · exact .setPrState h
    · exact h

theorem Kept.markWritten {s d fa} (h : Kept o s) : Kept o (markWritten s d fa) :=
  .setParse h

theorem Kept.passFrame {s d fa ws} (h : Kept o s) : Kept o (passFrame s d fa ws) :=
  .when .setSeu (.setParse h)

theorem Kept.putFrame {wrong s d fa ws} (h : Kept o s) : Kept o (putFrame wrong s d fa ws).2 := by
  unfold Machine.putFrame
  split
  · exact .netRes (.warmWords (.markWritten h))
  · split
    · exact .second (.passFrame (.markWritten h))
    · split
      · exact .second (.markWritten h)
      · split
        · exact h
        · extract_lets s1 s2
          have h1 : Kept o s1 := .touchDie h
          have h2 : Kept o s2 := .markWritten (.setFrame (.regionLoads h1))
          split
          · exact .second (.refreshWrite (fun _ => .warmWords) (.markWritten h1))
          · split
            · exact h1
            · split
              · exact h2
              · exact .second (.refreshWrite (fun _ => .warmWords) h2)

theorem Kept.putSig {s d fa v} (h : Kept o s) : Kept o (putSig s d fa v).2 := by
  unfold Machine.putSig
  split
  · exact .netRes (.warmWord32 h)
  · split
    · exact h
    · exact .refreshWrite (fun _ => .warmWord32) (.setParse (.setSig (.touchDie h)))

theorem Kept.putMap {s d fa v} (h : Kept o s) : Kept o (putMap s d fa v).2 := by
  unfold Machine.putMap
  split
  · exact .netRes (.warmWord32 h)
  · split
    · exact h
    · exact .refreshWrite (fun _ => .warmWord32) (.foldl (fun _ _ => .setDynMark) (.touchDie h))

/-- A list of writes keeps the state if each of them does. -/
theorem Kept.putAll {s l} (hl : ∀ e ∈ l, ∀ t, Kept o t → Kept o (e.2.2 t).2) (h : Kept o s) : Kept o (putAll s l).2.2 := by
  refine .foldlMem (fun x : PutRes × Option (Nat × Nat) × State => x.2.2) (fun x e he hx => ?_) h
  dsimp only
  split
  · exact hl e he _ hx
  · exact hx

/-- The same write to some dies. -/
theorem Kept.putAllDies {s a} {ds : List Nat} {f : Nat → State → PutRes × State} (hf : ∀ d t, Kept o t → Kept o (f d t).2) (h : Kept o s) :
    Kept o (Machine.putAll s (ds.map (fun d => (d, a, f d)))).2.2 := by
  refine Kept.putAll (fun e he => ?_) h
  obtain ⟨d, -, rfl⟩ := List.mem_map.1 he
  exact hf d

/-- A run of writes to some dies. -/
theorem Kept.putAllItems {s} {l ds : List Nat} {a : Nat → Nat} {f : Nat → Nat → State → PutRes × State}
    (hf : ∀ i d t, Kept o t → Kept o (f i d t).2) (h : Kept o s) :
    Kept o (Machine.putAll s (l.flatMap (fun i => ds.map (fun d => (d, a i, f i d))))).2.2 := by
  refine Kept.putAll (fun e he => ?_) h
  obtain ⟨i, -, hi⟩ := List.mem_flatMap.1 he
  obtain ⟨d, -, rfl⟩ := List.mem_map.1 hi
  exact hf i d

theorem Kept.recTake {s rest} (h : Kept o s) : Kept o (recTake s rest) :=
  .settle (.setParse h)

theorem Kept.recDone {x rest} (h : Kept o x.2.2) : Kept o (recDone x rest) := by
  unfold Machine.recDone
  split
  · exact .recTake h
  · exact .recFail h
  · exact .warmFailOpen h

theorem NextKept.execFrames {s wrong} (h : Kept o s) : NextKept o (execFrames s wrong) :=
  .next (.ite (.recDone (.putAllItems (fun _ _ _ => .putFrame) h)) h)

theorem NextKept.execSparse {s wrong} (h : Kept o s) : NextKept o (execSparse s wrong) :=
  .next (.ite (.recDone (.putAllDies (fun _ _ => .putFrame) h)) h)

theorem NextKept.execFill {s wrong} (h : Kept o s) : NextKept o (execFill s wrong) :=
  .next (.ite (.recDone (.putAllItems (fun _ _ _ => .putFrame) h)) h)

theorem Kept.copySource {s d fa} (h : Kept o s) : Kept o (copySource s d fa).2 := by
  unfold Machine.copySource
  split
  · exact .withReply (.readMany h)
  · split
    · exact h
    · exact h

theorem NextKept.execCopy {s wrong} (h : Kept o s) : NextKept o (execCopy s wrong) := by
  unfold Machine.execCopy
  refine .next (.ite ?_ h)
  extract_lets b src n a ds
  refine .ite (.recFail h) ?_
  split
  · exact .recFail h
  · refine .recDone (.putAllItems (fun i d t ht => ?_) h)
    split
    · next e => exact .putFrame ((Kept.copySource ht).snd e)
    · next e => exact (Kept.copySource ht).snd e

theorem NextKept.execSigs {s} (h : Kept o s) : NextKept o (execSigs s) :=
  .next (.ite (.recDone (.putAllItems (fun _ _ _ => .putSig) h)) h)

theorem NextKept.execSigmap {s} (h : Kept o s) : NextKept o (execSigmap s) :=
  .next (.ite (.recDone (.putAllItems (fun _ _ _ => .putMap) h)) h)

theorem Kept.putReg {x d pr} (h : Kept o x.2.1) : Kept o (putReg x d pr).2.1 := by
  unfold Machine.putReg
  split
  · exact h
  · extract_lets t1 u
    split
    · exact h
    · split
      · exact .withReply (.imageWrite h)
      · exact h
    · split
      · exact h
      · split
        · exact h
        · exact .setHeld h

theorem Kept.putRegs {s d prs} (h : Kept o s) : Kept o (putRegs s d prs).2 :=
  .foldlOf (fun x : Option Nat × State × State => x.2.1) (fun _ _ => .putReg) h

theorem Kept.keepRecord {s b bytes} (h : Kept o s) : Kept o (keepRecord s b bytes) :=
  .foldl (fun _ _ => .setParse) h

theorem NextKept.execReg {s} (h : Kept o s) : NextKept o (execReg s) := by
  unfold Machine.execReg
  refine .next (.ite ?_ h)
  extract_lets b rest
  refine .ite ?_ (.ite (.recTake (.keepRecord h)) (.recTake h))
  split
  next e s1 he =>
    have h1 : Kept o s1 := by
      refine .snd (.foldlOf Prod.snd (fun x d hx => ?_) h) he
      split
      · exact hx
      · exact .second (.putRegs hx)
    split
    · exact .recFail h1
    · exact .recTake h1

theorem NextKept.execWake {s} (h : Kept o s) : NextKept o (execWake s) :=
  .next (.ite (.recTake (.setParse (.ite (.keepRecord h) h))) h)

theorem NextKept.execOptionalRecord {s} (h : Kept o s) : NextKept o (execOptionalRecord s) :=
  .next (.ite (.recTake h) h)

/-! ## Machine/Load.lean -/

theorem Kept.showRun {s slot} (h : Kept o s) : Kept o (showRun s slot) := by
  unfold Machine.showRun
  extract_lets d
  split
  · exact .p (.p (.p h))
  · extract_lets s1
    have h1 : Kept o s1 := .p h
    split
    · exact .p (.p h1)
    · exact .p (.p h1)

theorem Kept.setRun {s x} (h : Kept o s) : Kept o (setRun s x) :=
  .p (.p (.setCfg h))

theorem Kept.showLoaded {s version wake} (h : Kept o s) : Kept o (showLoaded s version wake) :=
  .onDies (fun _ _ h => .p (.p (.p (.p (.p (.p (.p (.p h)))))))) h

theorem Kept.fullDone {s} (h : Kept o s) : Kept o (fullDone s) := by
  unfold Machine.fullDone
  refine .wakeBegin ?_
  refine .setParse ?_
  refine .withBoot ?_
  refine .onDies (fun _ _ => .applyDesign) ?_
  refine .setRun ?_
  refine .onDies (fun _ _ h => .ite h (.warmClear h)) ?_
  refine .showRun ?_
  split
  · exact .bootLog (.showLoaded h)
  · exact .showLoaded h

theorem Kept.partialDone {s} (h : Kept o s) : Kept o (partialDone s) :=
  .passEnd <|
    .onDies
      (fun _ _ h =>
         .foldl (fun _ _ h => .takePending (fun _ => .startRelease) (.p (.setPrState h))) (.applyPartial (.ite (.setWarm h) h))) <|
    .pAll (.pAll (.pAll h))

theorem Kept.writeRecs {s} (h : Kept o s) : Kept o (writeRecs s).2 :=
  .foldlOf Prod.snd (fun _ _ => .warmWords) h

theorem Kept.passDone {s} (h : Kept o s) : Kept o (passDone s) := by
  unfold Machine.passDone
  dsimp only
  split
  · exact h
  · split
    · exact .recFail h
    · split
      · exact .fullDone h
      · exact .partialDone h
      · exact .passEnd h
      · exact .passEnd (.passRepairs h)
      · exact .unless .warmFailOpen (.writeRecs h)
      · exact h
      · exact h

theorem NextKept.execEndRecord {design s} (h : Kept o s) : NextKept o (execEndRecord design s) := by
  unfold Machine.execEndRecord
  refine .next ?_
  split
  · split
    · exact .recFail h
    · exact .ite (.recFail h) (.passDone (.setParse h))
  · exact h

theorem Kept.takeSegment {s l len n} (h : Kept o s) : Kept o (takeSegment s l len n) := by
  unfold Machine.takeSegment
  dsimp only
  split
  · exact .passFail h
  · split
    · exact .passFail h
    · split
      · exact .passFail h
      · exact .ite (.ite (.recFail (.setParse h)) (.passDone (.setParse h))) (.settle (.setParse h))

theorem NextKept.execSegmentRead {disturbed s} (h : Kept o s) : NextKept o (execSegmentRead disturbed s) := by
  unfold Machine.execSegmentRead
  extract_lets p past
  refine .next (.ite h (.ite (.passFail h) ?_))
  split
  · next e => exact .passFail ((Kept.srcRead (.srcSuspends h)).snd e)
  · next e =>
      have h1 := (Kept.srcRead (.srcSuspends h)).snd e
      extract_lets len n
      refine .ite (.passFail h1) (.ite h1 ?_)
      split
      · next e1 => exact .passFail ((Kept.srcRead h1).snd e1)
      · next e1 =>
          have h2 := (Kept.srcRead h1).snd e1
          exact .ite (.passFail h2) (.takeSegment (.bbCheck h2))

theorem Kept.regionRead {s d} (h : Kept o s) : Kept o (regionRead s d).2 := by
  unfold Machine.regionRead
  split
  next e => exact .second (.withReply ((Kept.readMany h).snd2 e))

theorem Kept.warmValid {s d digest} (h : Kept o s) : Kept o (warmValid s d digest) :=
  .pulse (.p (.setWarm h))

theorem Kept.buildDigests {s} (h : Kept o s) : Kept o (buildDigests s).2 := by
  refine .foldlOf Prod.snd (fun x d hx => ?_) h
  split
  · next e => exact .second (.setWarm ((Kept.regionRead hx).snd e))
  · next e => exact (Kept.regionRead hx).snd e

theorem NextKept.execWarmBuildDone {s} (h : Kept o s) : NextKept o (execWarmBuildDone s) :=
  .next <|
    .ite
      (.ite (.passEnd (.each (fun _ _ h => .p (.warmValid h)) (.buildDigests h))) <|
         .warmFailOpen (.each (fun _ _ => .warmClear) (.buildDigests h)))
      h

theorem NextKept.execWarmDigestRecomputed {die s} (h : Kept o s) : NextKept o (execWarmDigestRecomputed die s) := by
  unfold Machine.execWarmDigestRecomputed
  refine .next ?_
  split
  · split
    · next e => exact .warmValid ((Kept.regionRead h).snd e)
    · next e => exact .setWarm ((Kept.regionRead h).snd e)
  · exact h

theorem NextKept.execCfgCmdComplete {s} (h : Kept o s) : NextKept o (execCfgCmdComplete s) := by
  unfold Machine.execCfgCmdComplete
  refine .next ?_
  split
  · exact .p (.p (.p (.setParse (.setCfg h))))
  · exact h

theorem NextKept.execConfirmProgrammed {ok s} (h : Kept o s) : NextKept o (execConfirmProgrammed ok s) := by
  unfold Machine.execConfirmProgrammed
  extract_lets d s1
  refine .next (.ite ?_ h)
  have h1 : Kept o s1 := .p h
  refine .ite (.p (.cutTrial h1)) ?_
  split
  · next e =>
      obtain ⟨b, -, hb⟩ := Option.bind_eq_some_iff.1 e
      exact .p ((OptKept.addTrial h1).get hb)
  · exact .p h1

theorem Kept.warmTake {s d ws} (h : Kept o s) : Kept o (warmTake s d ws) :=
  .when .setParse <| .when .setParse <| .putRegs <| .foldl (fun _ _ h => .foldl (fun _ _ => .setDynMark) h) <|
    .foldl (fun _ _ h => .setSig (.setSig h)) (.foldl (fun _ _ h => .ite h (.setFrame h)) h)

theorem Kept.warmFallback {s bad attempt} (h : Kept o s) : Kept o (warmFallback s bad attempt) :=
  .when (fun h' => .nextSlot (.makePlan h')) <| .withBoot <|
    .setCfg (.onDies (fun _ _ h => .foldl (fun _ _ => .p) (.p (.warmClear (.p (.accessBlank h))))) (.foldl (fun _ _ => .p) h))

theorem Kept.warmDone {s} (h : Kept o s) : Kept o (warmDone s) :=
  .wakeBegin (.setParse (.onDies (fun _ _ h => .foldl (fun _ _ => .p) (.applyDesign h)) (.setRun (.showRun (.showLoaded h)))))

theorem Kept.warmReads {s} (h : Kept o s) : Kept o (warmReads s).2 :=
  .foldlOf Prod.snd (fun _ _ => .regionRead) h

theorem Kept.warmEnd {s reads bad attempt} (h : Kept o s) : Kept o (warmEnd s reads bad attempt) :=
  .ite (.both .warmFallback .warmDone (.foldl (fun _ _ => .warmTake) h)) (.warmFallback h)

theorem NextKept.execWarmParserStart {s attempt} (h : Kept o s) : NextKept o (execWarmParserStart s attempt) :=
  .next (.ite (.warmEnd (.warmReads (.withBoot h))) h)

/-! ## Machine/SeDma.lean -/

theorem Kept.dmaOne {s d i x p} (h : Kept o s) : Kept o (dmaOne s d i x p).2 := by
  unfold Machine.dmaOne
  dsimp only
  split
  · exact .sendWrite (.dmRead h)
  · split
    · next e => exact .dmWrite ((Kept.sendRead h).snd2 e)
    · next e => exact ((Kept.sendRead h).snd2 e)

theorem Kept.dmaLate {s d i x p} (h : Kept o s) : Kept o (dmaLate s d i x p) :=
  .ite (.dmaOne h) (.sendRead h)

theorem Kept.dmaBytes {s d i n} (h : Kept o s) : Kept o (dmaBytes s d i n) :=
  .inc h

theorem Kept.dmaEnd {s d i c err} (h : Kept o s) : Kept o (dmaEnd s d i c err) :=
  .setEng (.waitPass h)

theorem Kept.dmaFail {s d i c x rest r} (h : Kept o s) : Kept o (dmaFail s d i c x rest r) := by
  unfold Machine.dmaFail
  exact .dmaEnd (.foldl (fun _ _ => .dmaLate) (.withFresh h))

theorem Kept.dmaRun {d i c x l} (h : Kept o s) : Kept o (dmaRun d i c x s l) := by
  induction l generalizing s with
  | nil => exact .dmaEnd h
  | cons p l ih =>
      unfold Machine.dmaRun
      split
      · next e => exact ih (.dmaBytes ((Kept.dmaOne h).snd e))
      · next e => exact .dmaFail ((Kept.dmaOne h).snd e)

theorem Kept.dmaUpTo {d i c x f l n} (hf : ∀ t p rest, Kept o t → Kept o (f t p rest)) (h : Kept o s) :
    Kept o (dmaUpTo d i c x f s l n) := by
  induction l generalizing s n with
  | nil => exact h
  | cons p l ih =>
      cases n with
      | zero => exact hf s p l h
      | succ n =>
          unfold Machine.dmaUpTo
          split
          · next e => exact ih (.dmaBytes ((Kept.dmaOne h).snd e))
          · next e => exact .dmaFail ((Kept.dmaOne h).snd e)

theorem NextKept.execDmaChannelDone {die eng ch s} (h : Kept o s) : NextKept o (execDmaChannelDone die eng ch s) := by
  unfold Machine.execDmaChannelDone
  refine .next ?_
  split
  · exact .withReply (.dmaRun h)
  · exact h

theorem Kept.dmaTimeout {s d i x p} (h : Kept o s) : Kept o (dmaTimeout s d i x p) :=
  .timeoutReq (.when .dmaOne (.withFresh h))

theorem NextKept.execDmaResponseError {die eng ch after resp s} (h : Kept o s) :
    NextKept o (execDmaResponseError die eng ch after resp s) := by
  unfold Machine.execDmaResponseError
  refine .next ?_
  split
  · exact .ite h (.withReply (.dmaUpTo (fun _ _ _ h => .dmaFail (.ite (.dmaTimeout h) h)) h))
  · exact h

theorem Kept.lateStep {s d i} (h : Kept o s) : Kept o (lateStep s d i) := by
  unfold Machine.lateStep
  split
  · exact h
  · dsimp only
    split
    · exact .sendWrite (.setSeLate h)
    · exact .sendRead (.setSeLate h)

theorem Kept.lateEnd {s d i} (h : Kept o s) : Kept o (lateEnd s d i) :=
  .ite (.seOwed (.when .setSeState (.setEng h))) h

theorem NextKept.execAbortingEnd {die eng s} (h : Kept o s) : NextKept o (execAbortingEnd die eng s) :=
  .next (.ite (.withReply (.lateEnd (.foldl (fun _ _ => .lateStep) h))) h)

theorem Kept.dmaStep {s d i c} (h : Kept o s) : Kept o (dmaStep s d i c) := by
  unfold Machine.dmaStep
  split
  · refine .ite ?_ h
    split
    · exact .dmaEnd h
    · split
      · next e =>
          have h1 := (Kept.dmaOne h).snd e
          exact .ite (.dmaEnd (.dmaBytes h1)) (.setEng (.dmaBytes h1))
      · next e => exact .dmaFail ((Kept.dmaOne h).snd e)
  · exact h

theorem Kept.seStep {s d i} (h : Kept o s) : Kept o (seStep s d i) :=
  .both (fun h' => .ite (.seOwed h') h') (fun h' => .lateEnd (.lateStep h')) (.dmaStep (.dmaStep (.ite (.setEng h) h)))

theorem Kept.seTime {s} (h : Kept o s) : Kept o (seTime s) :=
  .foldl (fun _ _ => .seStep) h

/-! ## Machine/Dispatch.lean -/

/-- Every command keeps the state it starts from: by its meaning. -/
theorem NextKept.exec {i s} (h : Kept o s) : NextKept o (exec i s) := by
  cases i with
  | registerWrite => exact .execRegisterWrite h
  | readClear => exact .execReadClear h
  | highHalfRead => exact .execHighHalfRead h
  | powerOnReset => exact .execPowerOnReset h
  | porRelease => exact .execPorRelease h
  | brownOut => exact .execBrownOut h
  | lockUp => exact .execLockUp h
  | watchdogExpiry => exact .execWatchdogExpiry h
  | wdtKick => exact .execWdtKick h
  | wdtEnable => exact .execWdtEnable h
  | progNLow => exact .execProgNLow h
  | progNRise => exact .execProgNRise h
  | debugReset => exact .execDebugReset h
  | softwareReset => exact .execSoftwareReset h
  | blocksResetRelease => exact .execBlocksResetRelease h
  | rstBlockWrite => exact .execRstBlockWrite h
  | configClearDone => exact .execConfigClearDone h
  | housekeepEnd => exact .execHousekeepEnd h
  | heaterHoldEnd => exact .execHeaterHoldEnd h
  | initNHigh => exact .execInitNHigh h
  | flashSetup => exact .execFlashSetup h
  | jtagProgram => exact .execJtagProgram h
  | imageHeader => exact .execImageHeader h
  | segmentRead => exact .execSegmentRead h
  | frames => exact .execFrames h
  | sparse => exact .execSparse h
  | fill => exact .execFill h
  | copy => exact .execCopy h
  | sigs => exact .execSigs h
  | sigmap => exact .execSigmap h
  | reg => exact .execReg h
  | wake => exact .execWake h
  | endRecord => exact .execEndRecord h
  | optionalRecord => exact .execOptionalRecord h
  | wakeLock => exact .execWakeLock h
  | lockTimeout => exact .execLockTimeout h
  | wakeGoe => exact .execWakeGoe h
  | wakeGsr => exact .execWakeGsr h
  | wakeGwe => exact .execWakeGwe h
  | wakeDdrw => exact .execWakeDdrw h
  | ddrwTimeout => exact .execDdrwTimeout h
  | wakeCore => exact .execWakeCore h
  | wakeLane => exact .execWakeLane h
  | wakeDone => exact .execWakeDone h
  | wakeEnd => exact .execWakeEnd h
  | tamperPin => exact .execTamperPin h
  | vglitch => exact .execVglitch h
  | ckglitch => exact .execCkglitch h
  | tamperTemp => exact .execTamperTemp h
  | meshCheck => exact .execMeshCheck h
  | lockdownEraseDone => exact .execLockdownEraseDone h
  | tamperLogClear => exact .execTamperLogClear h
  | tamperCfgLock => exact .execTamperCfgLock h
  | refSelWrite => exact .execRefSelWrite h
  | refMuxOldLow => exact .execRefMuxOldLow h
  | refMuxNewLow => exact .execRefMuxNewLow h
  | refmuxStuck => exact .execRefmuxStuck h
  | refForce => exact .execRefForce h
  | refEdgeLoss => exact .execRefEdgeLoss h
  | refEdgeReturn => exact .execRefEdgeReturn h
  | refQualified => exact .execRefQualified h
  | freqMeasurement => exact .execFreqMeasurement h
  | rootLock => exact .execRootLock h
  | rootRefLoss => exact .execRootRefLoss h
  | rootPhaseLoss => exact .execRootPhaseLoss h
  | rootRelocked => exact .execRootRelocked h
  | analogueUnlock => exact .execAnalogueUnlock h
  | histValidSet => exact .execHistValidSet h
  | gateWrite => exact .execGateWrite h
  | altSwitch => exact .execAltSwitch h
  | altSwitchComplete => exact .execAltSwitchComplete h
  | altStuck => exact .execAltStuck h
  | altForce => exact .execAltForce h
  | upllEnable => exact .execUpllEnable h
  | upllMeasure => exact .execUpllMeasure h
  | upllLock => exact .execUpllLock h
  | upllUnlock => exact .execUpllUnlock h
  | ckmux2Sel => exact .execCkmux2Sel h
  | ckmux2Force => exact .execCkmux2Force h
  | ckmux2Stuck => exact .execCkmux2Stuck h
  | clkMonStart => exact .execClkMonStart h
  | clkMonDone => exact .execClkMonDone h
  | confirm => exact .execConfirm h
  | confirmProgrammed => exact .execConfirmProgrammed h
  | verifySlot => exact .execVerifySlot h
  | verifyMem => exact .execVerifyMem h
  | loadMem => exact .execLoadMem h
  | warmBuild => exact .execWarmBuild h
  | warmBuildDone => exact .execWarmBuildDone h
  | cfgCmdComplete => exact .execCfgCmdComplete h
  | warmDigestRecomputed => exact .execWarmDigestRecomputed h
  | warmParserStart => exact .execWarmParserStart h
  | nvcErase => exact .execNvcErase h
  | nvcProgram => exact .execNvcProgram h
  | nvcBlankCheck => exact .execNvcBlankCheck h
  | nvcRead => exact .execNvcRead h
  | nvcResetFlash => exact .execNvcResetFlash h
  | nvcComplete => exact .execNvcComplete h
  | xipRead => exact .execXipRead h
  | nvcResume => exact .execNvcResume h
  | bbWrite => exact .execBbWrite h
  | bbEraseOld => exact .execBbEraseOld h
  | fuseKeyProgram => exact .execFuseKeyProgram h
  | pkhProgram => exact .execPkhProgram h
  | pkhRevoke => exact .execPkhRevoke h
  | svnCommit => exact .execSvnCommit h
  | policyProgram => exact .execPolicyProgram h
  | lcAdvance => exact .execLcAdvance h
  | lockdownCmd => exact .execLockdownCmd h
  | secCmdComplete => exact .execSecCmdComplete h
  | secChal => exact .execSecChal h
  | secResp => exact .execSecResp h
  | unlockVerified => exact .execUnlockVerified h
  | jtagInstruction => exact .execJtagInstruction h
  | rightsLock => exact .execRightsLock h
  | captureArm => exact .execCaptureArm h
  | captureAbort => exact .execCaptureAbort h
  | captureTrigger => exact .execCaptureTrigger h
  | captureEdge => exact .execCaptureEdge h
  | captureDone => exact .execCaptureDone h
  | captureClkStopped => exact .execCaptureClkStopped h
  | readbackStart => exact .execReadbackStart h
  | readbackDone => exact .execReadbackDone h
  | xingGroupUp => exact .execXingGroupUp h
  | xingUnderrun => exact .execXingUnderrun h
  | xingRecentre => exact .execXingRecentre h
  | bmemPortOp => exact .execBmemPortOp h
  | pfifoIngressTransfer => exact .execPfifoIngressTransfer h
  | pfifoIngressDrop => exact .execPfifoIngressDrop h
  | pfifoEgressTransfer => exact .execPfifoEgressTransfer h
  | pfifoEgressDrop => exact .execPfifoEgressDrop h
  | kslotDescTransfer => exact .execKslotDescTransfer h
  | kslotCompletion => exact .execKslotCompletion h
  | kslotCompletionRelease => exact .execKslotCompletionRelease h
  | nocPortRequest =>
      unfold Machine.exec
      exact .execNocPortRequest h
  | nocPortWriteBeat => exact .execNocPortWriteBeat h
  | nocTargetRequest => exact .execNocTargetRequest h
  | nocTargetResponse => exact .execNocTargetResponse h
  | cmpstrmTx => exact .execCmpstrmTx h
  | cmpstrmRx => exact .execCmpstrmRx h
  | evtirqLevel => exact .execEvtirqLevel h
  | fenceClose => exact .execFenceClose h
  | prSlotsOffline => exact .execPrSlotsOffline h
  | prPortsDrained => exact .execPrPortsDrained h
  | prFenced => exact .execPrFenced h
  | prCloseTimeout => exact .execPrCloseTimeout h
  | fenceRelease => exact .execFenceRelease h
  | prActive => exact .execPrActive h
  | sweepSlot => exact .execSweepSlot h
  | sweepEnable => exact .execSweepEnable h
  | repairFromWarm => exact .execRepairFromWarm h
  | flashPassStart => exact .execFlashPassStart h
  | flashPassFrame => exact .execFlashPassFrame h
  | nop => exact .execNop h
  | br => exact .execBr h
  | brc => exact .execBrc h
  | call => exact .execCall h
  | jr => exact .execJr h
  | reti => exact .execReti h
  | rep => exact .execRep h
  | doneOp => exact .execDoneOp h
  | intOp => exact .execIntOp h
  | movc => exact .execMovc h
  | wait => exact .execWait h
  | dma => exact .execDma h
  | bxset => exact .execBxset h
  | salu => exact .execSalu h
  | addi => exact .execAddi h
  | andi => exact .execAndi h
  | ori => exact .execOri h
  | xori => exact .execXori h
  | lui => exact .execLui h
  | shi => exact .execShi h
  | slti => exact .execSlti h
  | pmov => exact .execPmov h
  | padd => exact .execPadd h
  | lds => exact .execLds h
  | sts => exact .execSts h
  | ldv => exact .execLdv h
  | stv => exact .execStv h
  | ldvb => exact .execLdvb h
  | valu => exact .execValu h
  | vsh => exact .execVsh h
  | vbrd => exact .execVbrd h
  | vext => exact .execVext h
  | vmac => exact .execVmac h
  | vacc => exact .execVacc h
  | vnar => exact .execVnar h
  | bexp => exact .execBexp h
  | waitRelease => exact .execWaitRelease h
  | doneCompletion => exact .execDoneCompletion h
  | interruptTaken => exact .execInterruptTaken h
  | doorbell => exact .execDoorbell h
  | dmaChannelDone => exact .execDmaChannelDone h
  | dmaResponseError => exact .execDmaResponseError h
  | seNocAccess => exact .execSeNocAccess h
  | seAbort => exact .execSeAbort h
  | abortingEnd => exact .execAbortingEnd h
  | seaStart => exact .execSeaStart h
  | seaHalt => exact .execSeaHalt h
  | haltComplete => exact .execHaltComplete h
  | seaMode => exact .execSeaMode h
  | tokenWrite => exact .execTokenWrite h
  | deferredPlace => exact .execDeferredPlace h
  | spillLineWrite => exact .execSpillLineWrite h
  | spillWriteError => exact .execSpillWriteError h
  | refill => exact .execRefill h
  | refillError => exact .execRefillError h
  | issue => exact .execIssue h
  | completion => exact .execCompletion h
  | remoteTokenResponse => exact .execRemoteTokenResponse h
  | ticketRelease => exact .execTicketRelease h
  | descriptorWrite => exact .execDescriptorWrite h
  | cqPop => exact .execCqPop h
  | cqComplete => exact .execCqComplete h
  | cqFlush => exact .execCqFlush h
  | migrateOp => exact .execMigrateOp h
  | evacuateUnit => exact .execEvacuateUnit h
  | abortOp => exact .execAbortOp h
  | abortUnit => exact .execAbortUnit h
  | epochClose => exact .execEpochClose h
  | epochAbort => exact .execEpochAbort h
  | epochRound => exact .execEpochRound h
  | epochBoundary => exact .execEpochBoundary h
  | epochSlow => exact .execEpochSlow h
  | dfdEnable => exact .execDfdEnable h
  | dfdStopped => exact .execDfdStopped h
  | bankAccess => exact .execBankAccess h
  | bankAtomic => exact .execBankAtomic h
  | ownerChange => exact .execOwnerChange h
  | handoverComplete => exact .execHandoverComplete h
  | bankPowerRequest => exact .execBankPowerRequest h
  | bankPowerReached => exact .execBankPowerReached h
  | bankWipe => exact .execBankWipe h
  | wipeDone => exact .execWipeDone h
  | secureSet => exact .execSecureSet h
  | eccChkRead => exact .execEccChkRead h
  | eccChkWrite => exact .execEccChkWrite h
  | packetInject => exact .execPacketInject h
  | packetPark => exact .execPacketPark h
  | parkedDelivery => exact .execParkedDelivery h
  | completionTimeout => exact .execCompletionTimeout h
  | quarantineExpiry => exact .execQuarantineExpiry h
  | lateCompletion => exact .execLateCompletion h
  | nocRead => exact .execNocRead h
  | nocWrite => exact .execNocWrite h
  | readShared => exact .execReadShared h
  | readUnique => exact .execReadUnique h
  | upgrade => exact .execUpgrade h
  | writeback => exact .execWriteback h
  | evict => exact .execEvict h
  | cleanOp => exact .execCleanOp h
  | cleanInval => exact .execCleanInval h
  | snpShared => exact .execSnpShared h
  | snpInval => exact .execSnpInval h
  | snpRecall => exact .execSnpRecall h
  | rlcFlush => exact .execRlcFlush h
  | rlcFlushDone => exact .execRlcFlushDone h
  | rlcEccArm => exact .execRlcEccArm h
  | flitReceive => exact .execFlitReceive h
  | replayTimeout => exact .execReplayTimeout h
  | fatalKnown => exact .execFatalKnown h
  | moduleTrained => exact .execModuleTrained h
  | trainFail => exact .execTrainFail h
  | capsSend => exact .execCapsSend h
  | capsReceive => exact .execCapsReceive h
  | noCaps => exact .execNoCaps h
  | bdlTest => exact .execBdlTest h
  | ddrRequest => exact .execDdrRequest h
  | ddrServe => exact .execDdrServe h
  | writeDrainStart => exact .execWriteDrainStart h
  | agePromote => exact .execAgePromote h
  | trainingDone => exact .execTrainingDone h
  | trainingFail => exact .execTrainingFail h
  | refresh => exact .execRefresh h
  | tempRetrain => exact .execTempRetrain h
  | ddrEccFlip => exact .execDdrEccFlip h
  | mapSetEnable => exact .execMapSetEnable h
  | loadCurrent => exact .execLoadCurrent h
  | loadNext => exact .execLoadNext h
  | abandon => exact .execAbandon h
  | rekey => exact .execRekey h
  | promote => exact .execPromote h
  | meeClear => exact .execMeeClear h
  | meeInit => exact .execMeeInit h
  | meeInitDone => exact .execMeeInitDone h
  | rekeyLine => exact .execRekeyLine h
  | qpllWrite => exact .execQpllWrite h
  | qpllLock => exact .execQpllLock h
  | qpllUnlock => exact .execQpllUnlock h
  | laneEnable => exact .execLaneEnable h
  | laneRestart => exact .execLaneRestart h
  | laneIdleEnd => exact .execLaneIdleEnd h
  | anResolved => exact .execAnResolved h
  | anFail => exact .execAnFail h
  | anRestart => exact .execAnRestart h
  | trainingReady => exact .execTrainingReady h
  | trainingTimeout => exact .execTrainingTimeout h
  | blockLock => exact .execBlockLock h
  | alignComplete => exact .execAlignComplete h
  | linkLoss => exact .execLinkLoss h
  | hiBerSet => exact .execHiBerSet h
  | ebOverflow => exact .execEbOverflow h
  | backgroundScan => exact .execBackgroundScan h
  | readapt => exact .execReadapt h
  | eyeScanStart => exact .execEyeScanStart h
  | eyeScanDone => exact .execEyeScanDone h
  | pairBypassWrite => exact .execPairBypassWrite h
  | pairIdleEnd => exact .execPairIdleEnd h
  | prbsWrite => exact .execPrbsWrite h
  | frameReceive => exact .execFrameReceive h
  | pauseReceive => exact .execPauseReceive h
  | pauseExpiry => exact .execPauseExpiry h
  | arbiterApply => exact .execArbiterApply h
  | replicaUpdate => exact .execReplicaUpdate h
  | lockExpiry => exact .execLockExpiry h
  | moveWindowEnd => exact .execMoveWindowEnd h
  | ageTick => exact .execAgeTick h
  | l2Read => exact .execL2Read h
  | l2ReadIndex => exact .execL2ReadIndex h
  | l2Write => exact .execL2Write h
  | l2Delete => exact .execL2Delete h
  | flushPort => exact .execFlushPort h
  | flushVlan => exact .execFlushVlan h
  | flushDynamic => exact .execFlushDynamic h
  | vlanRead => exact .execVlanRead h
  | vlanWrite => exact .execVlanWrite h
  | nhRead => exact .execNhRead h
  | nhWrite => exact .execNhWrite h
  | tnbDataReceive => exact .execTnbDataReceive h
  | helloSend => exact .execHelloSend h
  | helloReceive => exact .execHelloReceive h
  | helloTimeout => exact .execHelloTimeout h
  | keepaliveMiss => exact .execKeepaliveMiss h
  | egressSend => exact .execEgressSend h
  | trunkCell => exact .execTrunkCell h
  | yWriteResponse => exact .execYWriteResponse h
  | ringHeadAdvance => exact .execRingHeadAdvance h
  | txRingSend => exact .execTxRingSend h
  | ringTailWrite => exact .execRingTailWrite h
  | ringError => exact .execRingError h
  | tsPop => exact .execTsPop h
  | ppsInEdge => exact .execPpsInEdge h
  | ppsOut => exact .execPpsOut h
  | timeWrite => exact .execTimeWrite h
  | timeAdjWrite => exact .execTimeAdjWrite h
  | timeStep => exact .execTimeStep h
  | bankDrained => exact .execBankDrained h
  | bankDrainTimeout => exact .execBankDrainTimeout h
  | lpiEntry => exact .execLpiEntry h
  | portCfgWrite => exact .execPortCfgWrite h
  | resyncDone => exact .execResyncDone h
  | releaseWrite => exact .execReleaseWrite h
  | mtimeWrite => exact .execMtimeWrite h
  | mtimeCompare => exact .execMtimeCompare h
  | eventLevel => exact .execEventLevel h
  | eventPulse => exact .execEventPulse h
  | claim => exact .execClaim h
  | claimComplete => exact .execClaimComplete h
  | version => exact .execVersion h
  | sensors => exact .execSensors h
  | ladder => exact .execLadder h
  | thermal => exact .execThermal h
  | smbPublish => exact .execSmbPublish h
  | smbFetch => exact .execSmbFetch h
  | tamperInfo => exact .execTamperInfo h
  | mailboxDone => exact .execMailboxDone h
  | sntBegin => exact .execSntBegin h
  | stagedWrite => exact .execStagedWrite h
  | sntCommit => exact .execSntCommit h
  | applyTick => exact .execApplyTick h
  | sntRollback => exact .execSntRollback h
  | sentenceTimeout => exact .execSentenceTimeout h
  | ladderRequest => exact .execLadderRequest h
  | ladderEntryProceed => exact .execLadderEntryProceed h
  | entryTimeout => exact .execEntryTimeout h
  | stateEntered => exact .execStateEntered h
  | wakeEvent => exact .execWakeEvent h
  | wakeTimerExpiry => exact .execWakeTimerExpiry h
  | smbusWake => exact .execSmbusWake h
  | exitComplete => exact .execExitComplete h
  | colonGweStep => exact .execColonGweStep h
  | colonCoreStep => exact .execColonCoreStep h
  | thermalStep => exact .execThermalStep h
  | fanSpinupEnd => exact .execFanSpinupEnd h
  | fanStall => exact .execFanStall h
  | fanRetry => exact .execFanRetry h
  | thermalTrip => exact .execThermalTrip h
  | sensorUpdate => exact .execSensorUpdate h
  | railOutOfRange => exact .execRailOutOfRange h
  | monEnable => exact .execMonEnable h
  | monSample => exact .execMonSample h
  | monWindowEnd => exact .execMonWindowEnd h
  | ckmux2SwitchComplete => exact .execCkmux2SwitchComplete h
  | hiBerClear => exact .execHiBerClear h
  | readaptComplete => exact .execReadaptComplete h
  | vbatLoss => exact .execVbatLoss h
  | smbusHostWrite => exact .execSmbusHostWrite h
  | hartHalt => exact .execHartHalt h
  | hartResume => exact .execHartResume h
  | flipFlopEdge => exact .execFlipFlopEdge h
  | asyncSetReset => exact .execAsyncSetReset h
  | shiftRegisterEdge => exact .execShiftRegisterEdge h
  | distributedRamWrite => exact .execDistributedRamWrite h
  | arithSliceEdge => exact .execArithSliceEdge h

/-! ## Machine/Tick.lean -/

theorem Kept.mtimePass {s ns} (h : Kept o s) : Kept o (mtimePass s ns) :=
  .each (fun _ _ => .p) (.withMset h)

theorem Kept.lanesPass {s d} (h : Kept o s) : Kept o (lanesPass s d) :=
  .foldl (fun _ _ => .deliverHeld) (.prbsPass h)

theorem Kept.unitsPass {s} (h : Kept o s) : Kept o (unitsPass s) :=
  .withReply (.seTime (.foldl (fun _ _ h => .cachesPass (.coresPass (.lanesPass (.cqReleaseAll (.rbStep h))))) (.nvcStep h)))

theorem Kept.tick {s} (h : Kept o s) : Kept o (tick s) :=
  .ite (.unitsPass (.timePass (.mtimePass h))) h

/-! ## Machine/Step.lean -/

/-- A step with a command at the front of the queue takes it off and answers a state that is kept. -/
theorem NextKept.step {c q} (h : s.pending = c :: q) : NextKept { s with pending := q } (step s) := by
  unfold Machine.step
  rw [h]
  exact .exec (.refl _)

/-- A step with an empty queue answers a state that is kept. -/
theorem NextKept.idle (h : s.pending = []) : NextKept s (Machine.step s) := by
  unfold Machine.step
  rw [h]
  exact .next (.tick (.refl s))

theorem NextKept.exists_next {x : Host.Outcome State Fault Refusal} (h : NextKept o x) : ∃ t, x = .next t := by
  cases h with
  | next _ => exact ⟨_, rfl⟩

theorem NextKept.get {x : Host.Outcome State Fault Refusal} (h : NextKept o x) (e : x = .next t) : Kept o t := by
  subst e
  cases h with
  | next h => exact h

/-- A step keeps what its state is once the front of the queue, if there is one, is taken off. -/
theorem step_keeps (h : step s = .next t) : Kept { s with pending := s.pending.drop 1 } t := by
  cases hq : s.pending with
  | nil =>
      obtain ⟨hdev, hpend, hcells⟩ := (NextKept.idle hq).get h
      exact ⟨hdev, hpend.trans hq, hcells⟩
  | cons c q => exact (NextKept.step hq).get h

/-- Settles O5: every meaning keeps the state it starts from, and what is kept is a next state. -/
theorem everyCommandAnswers : Obligations.EveryCommandAnswers :=
  fun _ s => (NextKept.exec (.refl s)).exists_next

/-- Settles O6. -/
theorem identityIsFixed : Obligations.IdentityIsFixed :=
  fun _ _ h => ⟨(step_keeps h).dev, (step_keeps h).pending⟩

/-- Settles O4: cells change by `State.setCell` and `State.resetCells` alone, and both keep the canonical form. -/
theorem stepKeepsCanonical : Obligations.StepKeepsCanonical :=
  fun _ _ hs h => (step_keeps h).cells hs

end
end Sys2Proof.Machine
end

/-! # Register accesses (R4, R5, R28, R432, R433) -/

section
set_option Elab.async false
namespace Sys2Proof.Machine

/-! ## Where an access that reaches its die goes -/

theorem Reaches.regOn_eq {s : State} {m : Master} {d : Nat} {r : RegRef} (h : Reaches s m d r) : regOn s d r.off = some r := by
  obtain ⟨-, -, -, -, ho, -⟩ := h
  exact ho

theorem Reaches.regRefusal_eq {s : State} {m : Master} {d : Nat} {r : RegRef} (h : Reaches s m d r) : regRefusal s m d r = none := by
  obtain ⟨-, -, -, -, -, hf, -⟩ := h
  exact hf

/-- One aligned word of the window is defined if a register holds it. -/
theorem bytesDefined_word {s : State} {d off : Nat} {r : RegRef} (ho : regOn s d off = some r) (ha : off % 4 = 0)
    (hl : off + 4 ≤ 2 ^ 24) : bytesDefined s d off 4 = true := by
  have hstart : off / 4 * 4 = off := by omega
  have hone : (off % 4 + 4 + 3) / 4 = 1 := by omega
  have hend : off ≤ 2 ^ 24 - 4 := by omega
  simpa [bytesDefined, hone, hstart, ho] using hend

/-- No companion and no fault of the network answers an access that reaches a register: the die does. -/
theorem writeOver_reaches {s : State} {m : Master} {d off size v : Nat} {poison : Bool} {r : RegRef} (h : Reaches s m d r) :
    writeOver s m d off size v poison = regWrite writeSntCommit s m d off size v poison := by
  obtain ⟨hm, hp, hb, hr, -⟩ := h
  unfold writeOver
  rw [companionCtrl_present s d off hp, ctrlRoute_running s m d hm hp hb hr]
  rfl

theorem readOver_reaches_ok {s t : State} {m : Master} {d off size v : Nat} {r : RegRef} (h : Reaches s m d r)
    (ha : inAperture s d off = false) (hread : regRead s m d off size = (.ok, v, t)) :
    readOver s m d off size = t.ansData .ok [BitVec.ofNat 64 v] := by
  obtain ⟨hm, hp, hb, hr, -⟩ := h
  unfold readOver
  rw [companionCtrl_present s d off hp, ctrlRoute_running s m d hm hp hb hr]
  simp [ha, hread]

theorem readOver_reaches_decodeError {s : State} {m : Master} {d off size : Nat} {r : RegRef} (h : Reaches s m d r)
    (ha : inAperture s d off = false) (hd : bytesDefined s d off size = false) : readOver s m d off size = s.ans .decodeError := by
  obtain ⟨hm, hp, hb, hr, -⟩ := h
  unfold readOver
  rw [companionCtrl_present s d off hp, ctrlRoute_running s m d hm hp hb hr]
  simp [ha, regRead, hd]

/-- The trap of a core whose access a die refuses (R421). -/
theorem coreSees_ans {s : State} {m : Master} {x : Resp} {store : Bool} {addr : Nat} (hx : x ≠ .ok) :
    (s.ans x).coreSees m store addr = (s.ans x).coreTrap m (if store then .storeFault else .loadFault) addr := by
  unfold State.coreSees
  exact if_pos hx

/-! ## What refuses a write, in the order of notes/assumptions/17.md -/

section
variable {commit : State → Wr → State} {s : State} {m : Master} {d off size v : Nat} {poison : Bool} {r : RegRef}

theorem regWrite_undefined (ha : inAperture s d off = false) (hd : bytesDefined s d off size = false) :
    regWrite commit s m d off size v poison = s.ans .decodeError := by
  simp [regWrite, ha, hd]

theorem regWrite_badSize (ha : inAperture s d off = false) (hd : bytesDefined s d off size = true) (h4 : size ≠ 4) (h8 : size ≠ 8) :
    regWrite commit s m d off size v poison = s.ans .accessError := by
  simp [regWrite, ha, hd, h4, h8]

theorem regWrite_poisoned (ho : regOn s d off = some r) (ha : off % 4 = 0) (hl : off + 4 ≤ 2 ^ 24) :
    regWrite commit s m d off 4 v true = s.ans .targetError := by
  simp [regWrite, inAperture_reg s d off r ho, bytesDefined_word ho ha hl, ha]

theorem regWrite_word (ho : regOn s d off = some r) (ha : off % 4 = 0) (hl : off + 4 ≤ 2 ^ 24) :
    regWrite commit s m d off 4 v false = writeWord commit s m d off 4 v := by
  simp [regWrite, inAperture_reg s d off r ho, bytesDefined_word ho ha hl, ha]

/-- SNT_COMMIT, whose writes go another way, can be written. -/
theorem ne_sntCommit_of_readOnly {id : RegId} (hw : id.info.writable = 0) : id ≠ .SNT_COMMIT := by
  rintro rfl
  exact absurd hw (by decide)

theorem writeReg_readOnly {raw mask : Nat} (hw : r.id.info.writable = 0) : writeReg s m d r raw mask = s.ans .accessError := by
  simp [writeReg, hw]

theorem writeWord_readOnly {n : Nat} (ho : regOn s d off = some r) (hf : regRefusal s m d r = none) (hw : r.id.info.writable = 0) :
    writeWord commit s m d off n v = s.ans .accessError := by
  simp [writeWord, ho, hf, ne_sntCommit_of_readOnly hw, writeReg_readOnly hw]

end

/-! ## What a read answers and clears -/

section
variable {s t : State} {m : Master} {d off v : Nat} {r : RegRef}

/-- A register whose read is no command of its block shows its value but its WO fields, and its RC fields read clear (R4). -/
theorem readReg_plain {mask : Nat} (hclaim : r.id ≠ .EVT_CLAIM) (hts : r.id ≠ .PEN_TS_POP) (hcq : r.id ≠ .DFD_CQ_POP)
    (htemp : r.id ≠ .THM_TEMP) :
    readReg s d r mask = (viewReg s d r &&& (2 ^ 64 - 1 - r.id.info.wo),
      if r.id.info.rc &&& mask = 0 then s else s.setReg d r (s.reg d r &&& (2 ^ 64 - 1 - (r.id.info.rc &&& mask)))) := by
  unfold readReg
  split
  · contradiction
  · contradiction
  · contradiction
  · contradiction
  · rfl

theorem readHalf_plain (hc : r.id.isCounter = false) (hp : r.id.isPop = false) (hread : readReg s d r (2 ^ 32 - 1) = (v, t)) :
    readHalf s m d r.off r = (v % 2 ^ 32, t) := by
  simp only [readHalf, hc, hp, Bool.or_self, Bool.false_eq_true, if_false, Nat.sub_self, Nat.mul_zero, Nat.pow_zero, Nat.mul_one,
    Nat.div_one, hread]

/-- The low half of a counter holds the high half for the master that reads it (R433). -/
theorem readHalf_low (hc : r.id.isCounter = true) (hread : readReg s d r (2 ^ 64 - 1) = (v, t)) :
    readHalf s m d r.off r =
      (v % 2 ^ 32, { t with holds := SMap.put t.holds (cellKey d r.off) ⟨m.rid, BitVec.ofNat 32 (v / 2 ^ 32)⟩ }) := by
  simp only [readHalf, hc, Bool.true_or, if_true, hread]

theorem readHalf_high (hc : r.id.isCounter = true) : readHalf s m d (r.off + 4) r = readHigh s m d r := by
  simp [readHalf, hc]

/-- The master that read the low half gets what is held for it, once. -/
theorem readHigh_held {h : Hold} (hk : SMap.look s.holds (cellKey d r.off) = some h) (hm : h.rid = m.rid) :
    readHigh s m d r = (h.hi.toNat, { s with holds := SMap.del s.holds (cellKey d r.off) }) := by
  simp [readHigh, hk, hm]

theorem readHigh_live (hk : ∀ h, SMap.look s.holds (cellKey d r.off) = some h → h.rid ≠ m.rid) (hp : r.id.isPop = false) :
    readHigh s m d r = (viewReg s d r / 2 ^ 32, s) := by
  unfold readHigh
  dsimp only
  split
  · next h e => simp [hk h e, hp]
  · simp [hp]

/-- A read of one aligned word of a register that the access reaches. -/
theorem accessRead_word (h : Reaches s m d r) (ho : regOn s d off = some r) (ha : off % 4 = 0) (hl : off + 4 ≤ 2 ^ 24)
    (hecc : r.id ≠ .BNK_ECC_CHK) (hread : readHalf s m d off r = (v, t)) :
    accessRead s m d off 4 = t.ansData .ok [BitVec.ofNat 64 (v % 2 ^ 32)] := by
  have hstart : off / 4 * 4 = off := by omega
  have hword : regRead s m d off 4 = (.ok, v % 2 ^ 32, t) := by
    simp [regRead, bytesDefined_word ho ha hl, ha, hstart, readWord, ho, h.regRefusal_eq, hecc, hread]
  unfold accessRead
  rw [readOver_reaches_ok h (inAperture_reg s d off r ho) hword, coreSees_data]

end

/-! ## The commands -/

section
variable {s : State} {m : Master} {die : Die} {r : RegRef}

theorem exec_registerWrite_word (h : Reaches s m die r) (ha : r.off % 4 = 0) (hl : r.off + 8 ≤ 2 ^ 24) (v : DWord)
    (hi : r.id.imageSet = false) (hw : r.id.info.writable ≠ 0) (hc : r.id ≠ .SNT_COMMIT) :
    exec (.registerWrite m die r.off 4 v false) s =
      .next ((writeFamily s (mkWr s m die r (v.toNat % 2 ^ 32) (2 ^ 32 - 1))).coreSees m true (die * 0x1000000 + r.off)) :=
  congrArg _ (put32_reaches s m die v.toNat r h hi hw hc ha (by omega))

/-- A write that its die refuses. -/
theorem exec_registerWrite_refused {off size : Nat} {v : DWord} {poison : Bool} {x : Resp} (h : Reaches s m die r) (hx : x ≠ .ok)
    (hw : regWrite writeSntCommit s m die off size v.toNat poison = s.ans x) :
    exec (.registerWrite m die off size v poison) s = .next ((s.ans x).coreTrap m .storeFault (die * 0x1000000 + off)) := by
  have hsees := coreSees_ans (s := s) (m := m) (store := true) (addr := die * 0x1000000 + off) hx
  calc exec (.registerWrite m die off size v poison) s
      = .next ((writeOver s m die off size v.toNat poison).coreSees m true (die * 0x1000000 + off)) := rfl
    _ = _ := by rw [writeOver_reaches h, hw, hsees]; rfl

theorem exec_readClear_decodeError {off size : Nat} (h : Reaches s m die r) (ha : inAperture s die off = false)
    (hd : bytesDefined s die off size = false) :
    exec (.readClear m die off size) s = .next ((s.ans .decodeError).coreTrap m .loadFault (die * 0x1000000 + off)) := by
  have hsees := coreSees_ans (s := s) (m := m) (store := false) (addr := die * 0x1000000 + off) (x := .decodeError) (by decide)
  calc exec (.readClear m die off size) s
      = .next ((readOver s m die off size).coreSees m false (die * 0x1000000 + off)) := rfl
    _ = _ := by rw [readOver_reaches_decodeError h ha hd, hsees]; rfl

theorem exec_readClear_word {v : Nat} {t : State} (h : Reaches s m die r) (ha : r.off % 4 = 0) (hl : r.off + 8 ≤ 2 ^ 24)
    (hecc : r.id ≠ .BNK_ECC_CHK) (hread : readHalf s m die r.off r = (v % 2 ^ 32, t)) :
    exec (.readClear m die r.off 4) s = .next (t.ansData .ok [BitVec.ofNat 64 (v % 2 ^ 32)]) := by
  have hword := accessRead_word h h.regOn_eq ha (by omega) hecc hread
  rw [Nat.mod_mod] at hword
  exact congrArg _ hword

theorem isCounter_ne_eccChk {id : RegId} (hc : id.isCounter = true) : id ≠ .BNK_ECC_CHK := by
  rintro rfl
  exact absurd hc (by decide)

theorem exec_highHalfRead {v : Nat} {t : State} (h : Reaches s m die r) (ha : r.off % 4 = 0) (hl : r.off + 8 ≤ 2 ^ 24)
    (hc : r.id.isCounter = true) (ho : regOn s die (r.off + 4) = some r) (hread : readHigh s m die r = (v, t)) :
    exec (.highHalfRead m die (r.off + 4)) s = .next (t.ansData .ok [BitVec.ofNat 64 (v % 2 ^ 32)]) :=
  congrArg _ (accessRead_word h ho (by omega) (by omega) (isCounter_ne_eccChk hc) ((readHalf_high hc).trans hread))

end

/-- Settles O57: each clause is the case of the access that its hypotheses select. -/
theorem registerAccess : Obligations.RegisterAccess := by
  intro s m die r h ha hl
  have ho := h.regOn_eq
  refine ⟨fun v => ⟨?_, ?_, ?_, ?_, ?_⟩, ?_, ?_⟩
  · exact exec_registerWrite_word h ha hl v
  · intro hw
    exact exec_registerWrite_refused h (by decide) ((regWrite_word ho ha (by omega)).trans (writeWord_readOnly ho h.regRefusal_eq hw))
  · exact exec_registerWrite_refused h (by decide) (regWrite_poisoned ho ha (by omega))
  · intro size h4 h8 hd poison
    exact exec_registerWrite_refused h (by decide) (regWrite_badSize (inAperture_reg s die r.off r ho) hd h4 h8)
  · intro off size poison hd hap
    exact ⟨exec_registerWrite_refused h (by decide) (regWrite_undefined hap hd), exec_readClear_decodeError h hap hd⟩
  · rintro hclaim hts hcq htemp hecc v rc t rfl
    have hplain := fun mask => readReg_plain (s := s) (d := die) (mask := mask) hclaim hts hcq htemp
    refine ⟨?_, ?_⟩
    · rintro hc hp rfl rfl
      exact exec_readClear_word h ha hl hecc (readHalf_plain hc hp (hplain _))
    · rintro hc - hrc - rfl
      have hread := hplain (2 ^ 64 - 1)
      rw [hrc, Nat.zero_and, if_pos rfl] at hread
      exact exec_readClear_word h ha hl hecc (readHalf_low hc hread)
  · intro hc hp _ hhigh
    refine ⟨?_, ?_⟩
    · intro held hk hm
      rw [exec_highHalfRead h ha hl hc hhigh (readHigh_held hk hm), Nat.mod_eq_of_lt held.hi.isLt]
    · intro hk
      exact exec_highHalfRead h ha hl hc hhigh (readHigh_live hk hp)

end Sys2Proof.Machine
end

/-! # The idle step (R425, notes/assumptions/9.md) -/

section
set_option Elab.async false
namespace Sys2Proof.Machine

/-! ## A field stepped on each die of a list -/

/-- Where each die of a list has a field stepped by `F`, the field has moved by one `F` on the dies of the list and nowhere else. -/
theorem State.each_p_step_at (f : Fld) (F : Nat → Nat) (d' : Nat) (hf : f.ok) :
    ∀ (l : List Nat) (s : State), l.Nodup → SMap.wf cellRst s.rf = true →
      (s.each l (fun s d => s.p d f (F (s.g d f)))).g d' f = if d' ∈ l then F (s.g d' f) % 2 ^ f.w else s.g d' f
  | [], s, _, _ => by simp [State.each]
  | d :: l, s, hl, h => by
    obtain ⟨hd, hl⟩ := List.nodup_cons.mp hl
    have ih := State.each_p_step_at f F d' hf l (s.p d f (F (s.g d f))) hl (State.p_wf s d f _ h)
    simp only [State.each, List.foldl_cons] at ih ⊢
    rw [ih]
    by_cases he : d' = d
    · subst he
      rw [if_neg hd, if_pos List.mem_cons_self, State.g_p_same s d' f _ hf.1 h]
    · rw [State.g_p_other s d d' f f _ hf.2 hf h (Or.inl (Ne.symm he))]
      simp only [List.mem_cons, he, false_or]

theorem State.nodup_dies (s : State) : s.dies.Nodup := List.nodup_range.filter _

/-! ## MTIME -/

/-- The timers step on the dies whose clocks run: from what was written, if anything was, and else from their own count. -/
theorem mtimePass_eq (s : State) (ns : Nat) :
    mtimePass s ns = ({ s with mset := none } : State).each (s.dies.filter (hardClocks s)) (fun t d =>
      t.p d R.APC_MTIME.TIME (s.mset.elim (t.g d R.APC_MTIME.TIME) BitVec.toNat + ns / 10)) := by
  unfold mtimePass
  cases s.mset <;> rfl

theorem mtimePass_time {s : State} {d : Nat} (ns : Nat) (hs : Canonical s) (hd : d ∈ s.dies) (hk : hardClocks s d = true) :
    (mtimePass s ns).g d R.APC_MTIME.TIME = (s.mset.elim (s.g d R.APC_MTIME.TIME) BitVec.toNat + ns / 10) % 2 ^ 64 := by
  have hok : R.APC_MTIME.TIME.ok := ⟨by decide, by decide⟩
  have hat := State.each_p_step_at R.APC_MTIME.TIME (fun n => s.mset.elim n BitVec.toNat + ns / 10) d hok
    (s.dies.filter (hardClocks s)) { s with mset := none } (s.nodup_dies.filter _) hs
  rw [if_pos (List.mem_filter.mpr ⟨hd, hk⟩)] at hat
  rw [mtimePass_eq]
  exact hat

/-! ## The step -/

theorem step_idle {s : State} (h : s.pending = []) : step s = .next (tick s) := by
  unfold step
  rw [h]

theorem tick_unclocked {s : State} (h : hardClocks s s.head = false) : tick s = s := by
  unfold tick
  rw [h]
  rfl

theorem tick_clocked {s : State} (h : hardClocks s s.head = true) :
    tick s = unitsPass (timePass (mtimePass s tickNs) tickNs) := if_pos h

/-- Settles O2: a tick is nothing or the passes, as the head die's clocks say, and a SYNC tick takes the written MTIME, then counts. -/
theorem idleStepTicks : Obligations.IdleStepTicks := by
  intro s hq
  have hstep := step_idle hq
  refine ⟨hstep, fun hk => ?_, fun hk => ?_, fun d hs hd hk => ⟨fun hm => ?_, fun v hm => ?_⟩⟩
  · rw [hstep, tick_unclocked hk]
  · rw [hstep, tick_clocked hk]
  · rw [mtimePass_time tickNs hs hd hk, hm]
    rfl
  · rw [mtimePass_time tickNs hs hd hk, hm]
    rfl

end Sys2Proof.Machine
end

/-! # The clocks (R32 to R54) -/

section
set_option Elab.async false
namespace Sys2Proof.Machine

/-! ## Fields of a register's value, and of the value that a command writes -/

theorem Fld.of_mod {f : Fld} {n : Nat} (v : Nat) (hf : f.lo + f.w ≤ n) : f.of (v % 2 ^ n) = f.of v := by
  apply Nat.eq_of_testBit_eq
  intro k
  rw [of_bit, of_bit, Nat.testBit_mod_two_pow]
  by_cases hk : k < f.w
  · have hlt : f.lo + k < n := by omega
    simp [hlt]
  · simp [hk]

theorem Fld.of_and (f : Fld) (v m : Nat) : f.of (v &&& m) = f.of v &&& f.of m := by
  apply Nat.eq_of_testBit_eq
  intro k
  rw [Nat.testBit_and, of_bit, of_bit, of_bit, Nat.testBit_and]
  cases decide (k < f.w) <;> rfl

theorem State.of_reg (s : State) (d : Nat) {r : RegRef} {f : Fld} (ho : f.off = r.off) (hf : f.lo + f.w ≤ 32) :
    f.of (s.reg d r) = s.g d f := by
  have hw : f.lo + f.w ≤ if r.id.info.pair then 64 else 32 := by split <;> omega
  unfold State.reg State.g
  rw [Fld.of_mod _ hw]
  apply Nat.eq_of_testBit_eq
  intro k
  rw [of_bit, part_bit, Nat.testBit_shiftRight, BitVec.testBit_toNat]
  simp only [Fld.sh, ho, Nat.zero_add]
  congr 2
  omega

@[simp] theorem State.p_clkOf (s : State) (d d' v : Nat) (f : Fld) : (s.p d f v).clkOf d' = s.clkOf d' := by
  simp only [State.clkOf, State.p_clk]

theorem regAt_of_regOn {s : State} {d off : Nat} {r : RegRef} (h : regOn s d off = some r) : regAt off = some r := by
  unfold regOn at h
  split at h
  · next x hx =>
      split at h
      · exact absurd h (by simp)
      · exact hx.trans h
  · exact absurd h (by simp)

theorem Reaches.keptFields_eq {s : State} {m : Master} {d : Nat} {r : RegRef} (h : Reaches s m d r) :
    keptFields s d r.off = s.reg d r &&& (r.id.info.rw ||| r.id.info.rws) := by
  unfold keptFields
  rw [regAt_of_regOn h.regOn_eq]

section
variable {s : State} {m : Master} {d : Nat} {r : RegRef} {f : Fld}

/-- A command leaves a field that it does not name as it stands, if a write of the register takes the field. -/
theorem Reaches.of_keptFields (h : Reaches s m d r) (ho : f.off = r.off) (hf : f.lo + f.w ≤ 32)
    (hm : f.of (r.id.info.rw ||| r.id.info.rws) = 2 ^ f.w - 1) : f.of (keptFields s d r.off) = s.g d f := by
  rw [h.keptFields_eq, Fld.of_and, s.of_reg d ho hf, hm, Nat.and_two_pow_sub_one_eq_mod]
  exact Nat.mod_mod _ _

/-- A command that does not name a field that only a write of 1 acts on writes it 0. -/
theorem Reaches.of_keptFields_zero (h : Reaches s m d r) (hm : f.of (r.id.info.rw ||| r.id.info.rws) = 0) :
    f.of (keptFields s d r.off) = 0 := by
  rw [h.keptFields_eq, Fld.of_and, hm, Nat.and_zero]

theorem of_named (l : List (Fld × Nat)) (hf : f.lo + f.w ≤ 32) :
    f.of (named s d r l) = f.of (l.foldl (fun x p => p.1.setIn x p.2) (keptFields s d r.off)) := Fld.of_mod _ hf

end

/-! ## Writes that reach a register of the CLK block -/

section
variable {s t : State} {m : Master} {d : Nat} {r : RegRef}

/-- What makes a register of the CLK block one that a 32-bit write can reach; closed facts of the register map. -/
structure ClkWritable (r : RegRef) : Prop where
  block : r.block = some .CLK
  imageSet : r.id.imageSet = false
  writable : r.id.info.writable ≠ 0
  commit : r.id ≠ .SNT_COMMIT
  aligned : r.off % 4 = 0
  inWindow : r.off + 4 ≤ 2 ^ 24

theorem put32_clk (h : Reaches s m d r) (hr : ClkWritable r) (v : Nat) :
    put32 s m d r.off v =
      (gatesSettle (writeClk s (mkWr s m d r (v % 2 ^ 32) (2 ^ 32 - 1))) d).coreSees m true (d * 0x1000000 + r.off) := by
  obtain ⟨hb, hi, hw, hc, ha, hl⟩ := hr
  rw [put32_reaches s m d v r h hi hw hc ha hl]
  unfold writeFamily
  simp only [mkWr, hb]

/-- A write that the block accepts: the core that made it sees nothing to trap on. -/
theorem put32_clk_ok (h : Reaches s m d r) (hr : ClkWritable r) {v : Nat}
    (hw : writeClk s (mkWr s m d r (v % 2 ^ 32) (2 ^ 32 - 1)) = t.ans .ok) : put32 s m d r.off v = gatesSettle (t.ans .ok) d := by
  rw [put32_clk h hr, hw]
  simp [State.coreSees, gatesSettle, State.ans]

/-- A write that the block refuses is an access fault of the core that made it. -/
theorem put32_clk_refused (h : Reaches s m d r) (hr : ClkWritable r) {v : Nat}
    (hw : writeClk s (mkWr s m d r (v % 2 ^ 32) (2 ^ 32 - 1)) = t.ans .accessError) :
    put32 s m d r.off v = (gatesSettle (t.ans .accessError) d).coreTrap m .storeFault (d * 0x1000000 + r.off) := by
  rw [put32_clk h hr, hw]
  simp [State.coreSees, gatesSettle, State.ans]

/-- A command that names fields of a register is a write of its value with those fields replaced. -/
theorem poke_eq {f : Fld} (hf : f.off = r.off) (x : Nat) (l : List (Fld × Nat)) :
    poke s m d ((f, x) :: l) = put32 s m d r.off (((f, x) :: l).foldl (fun x p => p.1.setIn x p.2) (keptFields s d r.off)) := by
  simp only [poke, List.head?_cons, Option.map_some, Option.getD_some, hf]

end

/-! ## The reference mux (R35, R36, R38) -/

theorem refCtrl_clkWritable : ClkWritable ⟨.CLK_REF_CTRL, 0, 0⟩ := by constructor <;> decide

section
variable {s : State} {w : Wr} {sel : Nat}

/-- A selection of another input, which runs, starts a switch (R35). -/
theorem writeRefCtrl_switch (hd : w.d = s.head) (hsel : R.CLK_REF_CTRL.SEL.of w.new = sel) (h4 : sel < 4)
    (hforce : R.CLK_REF_CTRL.FORCE.of w.raw = 0) (hne : sel ≠ s.g w.d R.CLK_REF_CTRL.SEL) (hact : inpActive s w.d sel = true)
    (hauto : s.on w.d R.CLK_REF_CTRL.AUTO = false) (hsw : s.on w.d R.CLK_REF_STATUS.SWITCHING = false) {u : State}
    (hu : u = setAuto (s.p w.d R.CLK_REF_CTRL.SEL sel) w.d (R.CLK_REF_CTRL.AUTO.of w.new)) :
    writeRefCtrl s w = ((u.p w.d R.CLK_REF_STATUS.SWITCHING 1).setClk w.d { u.clkOf w.d with ref := ⟨.oldLow, sel⟩ }).ans .ok := by
  have h4' : ¬ 4 ≤ sel := by omega
  subst hu
  unfold writeRefCtrl
  dsimp only
  rw [if_neg (not_not.mpr hd)]
  simp [hsel, h4', hforce, hne, hact, hauto, hsw]

/-- In HOLDOVER a write with FORCE switches at once to an input that runs (R38). -/
theorem writeRefCtrl_force (hd : w.d = s.head) (hsel : R.CLK_REF_CTRL.SEL.of w.new = sel) (h4 : sel < 4)
    (hforce : R.CLK_REF_CTRL.FORCE.of w.raw = 1) (hact : inpActive s w.d sel = true) (hroot : rootState s w.d = Root.holdover)
    (hauto : s.on w.d R.CLK_REF_CTRL.AUTO = false) :
    writeRefCtrl s w = (muxForce (setAuto s w.d (R.CLK_REF_CTRL.AUTO.of w.new)) w.d sel).ans .ok := by
  have h4' : ¬ 4 ≤ sel := by omega
  unfold writeRefCtrl
  dsimp only
  rw [if_neg (not_not.mpr hd)]
  simp [hsel, h4', hforce, hact, hroot, hauto]

/-- A write with FORCE outside HOLDOVER is refused, whatever it selects (R38). -/
theorem writeRefCtrl_force_refused (hforce : R.CLK_REF_CTRL.FORCE.of w.raw = 1) (hroot : rootState s w.d ≠ Root.holdover) :
    writeRefCtrl s w = s.ans .accessError := by
  unfold writeRefCtrl
  simp [hforce, hroot]

end

section
variable {s : State} {m : Master} {die : Die} {sel : Fin 8}

/-- Of a command's write to CLK_REF_CTRL, the input and AUTO are what the command names. -/
theorem refCtrl_named_fields (auto : Nat) (l : List (Fld × Nat)) (hl : l = [] ∨ l = [(R.CLK_REF_CTRL.FORCE, 1)]) {v : Nat}
    (hv : v = named s die ⟨.CLK_REF_CTRL, 0, 0⟩ ((R.CLK_REF_CTRL.SEL, sel.val) :: (R.CLK_REF_CTRL.AUTO, auto) :: l)) :
    R.CLK_REF_CTRL.SEL.of (mkWr s m die ⟨.CLK_REF_CTRL, 0, 0⟩ v (2 ^ 32 - 1)).new = sel ∧
      R.CLK_REF_CTRL.AUTO.of (mkWr s m die ⟨.CLK_REF_CTRL, 0, 0⟩ v (2 ^ 32 - 1)).new = auto % 2 := by
  have hsel : sel.val % 8 = sel := Nat.mod_eq_of_lt sel.isLt
  unfold mkWr
  dsimp only
  rw [merge_taken _ _ _ _ _ (by decide) (by decide), merge_taken _ _ _ _ _ (by decide) (by decide), hv, of_named _ (by decide),
    of_named _ (by decide)]
  obtain rfl | rfl := hl
  · simp (disch := decide) only [List.foldl, of_over_other, of_over_same]
    exact ⟨hsel, rfl⟩
  · simp (disch := decide) only [List.foldl, of_over_other, of_over_same]
    exact ⟨hsel, rfl⟩

/-- A command that selects an input writes FORCE 0. -/
theorem refCtrl_select_force (h : Reaches s m die ⟨.CLK_REF_CTRL, 0, 0⟩) (auto : Nat) :
    R.CLK_REF_CTRL.FORCE.of (named s die ⟨.CLK_REF_CTRL, 0, 0⟩ [(R.CLK_REF_CTRL.SEL, sel), (R.CLK_REF_CTRL.AUTO, auto)]) = 0 := by
  rw [of_named _ (by decide)]
  simp (disch := decide) only [List.foldl, of_over_other]
  exact h.of_keptFields_zero (by decide)

theorem refCtrl_force_force (auto : Nat) :
    R.CLK_REF_CTRL.FORCE.of (named s die ⟨.CLK_REF_CTRL, 0, 0⟩
      [(R.CLK_REF_CTRL.SEL, sel), (R.CLK_REF_CTRL.AUTO, auto), (R.CLK_REF_CTRL.FORCE, 1)]) = 1 := by
  rw [of_named _ (by decide)]
  simp (disch := decide) only [List.foldl, of_over_same]
  rfl

theorem exec_refSelWrite_switch (h : Reaches s m die ⟨.CLK_REF_CTRL, 0, 0⟩) (hd : die.val = s.head) (h4 : sel.val < 4)
    (hne : sel.val ≠ s.g die R.CLK_REF_CTRL.SEL) (hact : inpActive s die sel = true) (hauto : s.on die R.CLK_REF_CTRL.AUTO = false)
    (hsw : s.on die R.CLK_REF_STATUS.SWITCHING = false) {auto : Bool} {u : State}
    (hu : u = setAuto (s.p die R.CLK_REF_CTRL.SEL sel) die auto.toNat) :
    exec (.refSelWrite m die sel auto) s = .next (gatesSettle (((u.p die R.CLK_REF_STATUS.SWITCHING 1).setClk die
      { u.clkOf die with ref := ⟨.oldLow, sel⟩ }).ans .ok) die) := by
  obtain ⟨hselNew, hautoNew⟩ := refCtrl_named_fields (s := s) (m := m) (die := die) (sel := sel) auto.toNat [] (.inl rfl) rfl
  rw [Nat.mod_eq_of_lt auto.toNat_lt] at hautoNew
  have hwrite := writeRefCtrl_switch (w := mkWr s m die _ _ _) hd hselNew h4 (refCtrl_select_force h auto.toNat) hne hact hauto hsw
    (hautoNew.symm ▸ hu)
  exact congrArg _ ((poke_eq rfl _ _).trans (put32_clk_ok h refCtrl_clkWritable hwrite))

theorem exec_refForce_holdover (h : Reaches s m die ⟨.CLK_REF_CTRL, 0, 0⟩) (hd : die.val = s.head) (h4 : sel.val < 4)
    (hact : inpActive s die sel = true) (hroot : rootState s die = Root.holdover) (hauto : s.on die R.CLK_REF_CTRL.AUTO = false) :
    exec (.refForce m die sel false) s = .next (gatesSettle ((muxForce (setAuto s die 0) die sel).ans .ok) die) := by
  obtain ⟨hselNew, hautoNew⟩ := refCtrl_named_fields (s := s) (m := m) (die := die) (sel := sel) 0 [(R.CLK_REF_CTRL.FORCE, 1)]
    (.inr rfl) rfl
  have hwrite := writeRefCtrl_force (w := mkWr s m die _ _ _) hd hselNew h4 (refCtrl_force_force 0) hact hroot hauto
  rw [hautoNew] at hwrite
  exact congrArg _ ((poke_eq rfl _ _).trans (put32_clk_ok h refCtrl_clkWritable hwrite))

theorem exec_refForce_refused (h : Reaches s m die ⟨.CLK_REF_CTRL, 0, 0⟩) (hroot : rootState s die ≠ Root.holdover) :
    exec (.refForce m die sel false) s = .next ((gatesSettle (s.ans .accessError) die).coreTrap m .storeFault
      (die * 0x1000000 + RegRef.off ⟨.CLK_REF_CTRL, 0, 0⟩)) :=
  congrArg _ ((poke_eq rfl _ _).trans (put32_clk_refused h refCtrl_clkWritable
    (writeRefCtrl_force_refused (w := mkWr s m die _ _ _) (refCtrl_force_force 0) hroot)))

/-- No loss is declared at a measurement while HOLD_ON_FREQ is 0 (R34, R37). -/
theorem exec_freqMeasurement_noHold {ppb : Vector Int 5} {fofs : Word} {u v : State} (hlock : (s.clkOf die).everLocked = true)
    (hhold : s.on die R.CLK_ROOT_CFG.HOLD_ON_FREQ = false)
    (hu : u = [0, 1, 2, 3, 4].foldl (measureInput die (fmonPass s die ppb)) s) (hv : v = u.setClk die { u.clkOf die with late := 0 }) :
    exec (.freqMeasurement die ppb fofs) s = .next (autoSwitch (relockIfQualified
      (v.p die R.CLK_ROOT_FOFS.FOFS (if fofsLive v die then fofs.toNat else 0)) die) die) := by
  subst hv hu
  calc exec (.freqMeasurement die ppb fofs) s = execFreqMeasurement die ppb fofs s := rfl
    _ = _ := by
      unfold execFreqMeasurement
      simp only [hlock, hhold, if_true, Bool.and_false, Bool.false_eq_true, if_false]

/-- An input that has been active for QUAL_TIME, before the root first locks (R34). -/
theorem exec_refQualified_early {inp : Fin 5} (hen : inpEnabled s die inp = true) (hact : inpActive s die inp = true)
    (hlock : (s.clkOf die).everLocked = false) :
    exec (.refQualified die inp) s = .next (autoSwitch (relockIfQualified (setQual (setMarks s die inp true
      ((s.clkOf die).measOk.getLsbD inp)) die inp true) die) die) := by
  calc exec (.refQualified die inp) s = execRefQualified die inp s := rfl
    _ = _ := by simp only [execRefQualified, hen, hact, hlock, Bool.false_eq_true, false_and, and_self, if_true, if_false]

/-- Once the root has locked, an input that no measurement has passed does not qualify (R34). -/
theorem exec_refQualified_unmeasured {inp : Fin 5} (hen : inpEnabled s die inp = true) (hact : inpActive s die inp = true)
    (hlock : (s.clkOf die).everLocked = true) (hmeas : (s.clkOf die).measOk.getLsbD inp = false) :
    exec (.refQualified die inp) s = .next (setMarks s die inp true false) := by
  calc exec (.refQualified die inp) s = execRefQualified die inp s := rfl
    _ = _ := by simp only [execRefQualified, hen, hact, hlock, hmeas, Bool.not_false, and_self, if_true]

end

/-- Settles O16: a write of CLK_REF_CTRL is judged by its fields, and each event has the effect of the branch that its hypotheses select. -/
theorem referencesComplete : Obligations.ReferencesComplete := by
  refine ⟨fun s m die => ⟨?_, ?_, ?_, ?_, ?_, ?_⟩, fun s die inp => ⟨?_, ?_, ?_, ?_, ?_⟩⟩
  · intro sel auto u h hd h4 hne hact hauto hsw hu
    exact exec_refSelWrite_switch h hd h4 hne hact hauto hsw hu
  · intro sel h hd h4 hact hroot hauto
    exact exec_refForce_holdover h hd h4 hact hroot hauto
  · intro sel h _ hroot
    exact exec_refForce_refused h hroot
  · intro hstep hact hrun
    exact congrArg _ (if_pos ⟨hstep, hact, hrun⟩)
  · intro hstep hact hrun
    exact congrArg _ (if_pos ⟨hstep, hact, hrun⟩)
  · intro hstep hstuck hact hrun
    exact congrArg _ (if_pos ⟨hstep, hstuck, hact, hrun⟩)
  · intro hhere hact
    exact congrArg _ (if_pos ⟨hhere, hact⟩)
  · intro hen hsrc hact
    exact congrArg _ (if_pos ⟨hen, hsrc, hact⟩)
  · exact exec_refQualified_early
  · exact exec_refQualified_unmeasured
  · intro ppb fofs u v hlock hhold hu hv
    exact exec_freqMeasurement_noHold hlock hhold hu hv

/-! ## The gate tree (R46 to R48) -/

@[simp] theorem State.g_ans (s : State) (d : Nat) (f : Fld) (x : Resp) : (s.ans x).g d f = s.g d f := rfl

theorem gateReg_ok {k : Nat} (hk : k < 5) : (gateReg k).ok := by
  unfold Fld.ok Fld.sh gateReg
  dsimp only
  omega

theorem gateReg_apart {k j : Nat} (h : k ≠ j) : (gateReg k).apart (gateReg j) := by
  unfold Fld.apart Fld.sh gateReg
  dsimp only
  omega

theorem gateReg_p_other {s : State} {d k j v : Nat} (hs : Canonical s) (hk : k < 5) (hj : j < 5) (h : k ≠ j) :
    (s.p d (gateReg k) v).g d (gateReg j) = s.g d (gateReg j) :=
  State.g_p_other s d d _ _ v (gateReg_ok hk).2 (gateReg_ok hj) hs (.inr (gateReg_apart h))

theorem gateReg_p_same {s : State} {d k v : Nat} (hs : Canonical s) (hk : k < 5) :
    (s.p d (gateReg k) v).g d (gateReg k) = v % 2 ^ 32 := State.g_p_same s d _ v (gateReg_ok hk).1 hs

/-- Open a gate, and close one. -/
def openGate (d : Nat) (s : State) (g : Nat) : State := s.setBit d (gateReg (g / 32)) (g % 32)
def closeGate (d : Nat) (s : State) (g : Nat) : State := s.clrBit d (gateReg (g / 32)) (g % 32)

section
variable {s : State} {d g : Nat}

theorem gateOpen_p {k v : Nat} (hs : Canonical s) (hk : k < 5) (hg : g < 160) :
    gateOpen (s.p d (gateReg k) v) d g = if g / 32 = k then v.testBit (g % 32) else gateOpen s d g := by
  have hlt : g % 32 < 32 := Nat.mod_lt _ (by decide)
  unfold gateOpen State.bit
  split
  · next h => rw [h, gateReg_p_same hs hk, Nat.testBit_mod_two_pow, decide_eq_true hlt, Bool.true_and]
  · next h => rw [gateReg_p_other hs hk (by omega) (Ne.symm h)]

theorem gateOpen_openGate {g' : Nat} (hs : Canonical s) (hg : g < 160) (hg' : g' < 160) :
    gateOpen (openGate d s g) d g' = (gateOpen s d g' || decide (g' = g)) := by
  unfold openGate State.setBit
  rw [gateOpen_p hs (by omega) hg']
  split
  · next h =>
      have hbit : decide (g % 32 = g' % 32) = decide (g' = g) := decide_eq_decide.mpr (by omega)
      rw [Nat.testBit_or, Nat.testBit_two_pow, hbit, ← h]
      rfl
  · next h => rw [decide_eq_false (by rintro rfl; exact h rfl), Bool.or_false]

theorem gateOpen_closeGate {g' : Nat} (hs : Canonical s) (hg : g < 160) (hg' : g' < 160) :
    gateOpen (closeGate d s g) d g' = (gateOpen s d g' && !decide (g' = g)) := by
  unfold closeGate State.clrBit
  rw [gateOpen_p hs (by omega) hg']
  split
  · next h =>
      have hbit : decide (g % 32 = g' % 32) = decide (g' = g) := decide_eq_decide.mpr (by omega)
      have hlt : g' % 32 < 32 := Nat.mod_lt _ (by decide)
      have hle : 2 ^ (g % 32) < 2 ^ 32 := Nat.pow_lt_pow_right (by decide) (Nat.mod_lt _ (by decide))
      have hmask : (2 ^ 32 - 1 - 2 ^ (g % 32)).testBit (g' % 32) = !decide (g' = g) := by
        rw [Nat.sub_sub, Nat.add_comm, Nat.testBit_two_pow_sub_succ hle, Nat.testBit_two_pow, hbit, decide_eq_true hlt, Bool.true_and]
      rw [Nat.testBit_and, ← h]
      exact congrArg _ hmask
  · next h => rw [decide_eq_false (by rintro rfl; exact h rfl), Bool.not_false, Bool.and_true]

end

/-! ### A pass over the gates: the changes that are due, one after the other, until one is refused -/

/-- One gate of a pass: what is due at it is done, unless it is refused or a refusal stands. -/
def gateStep (due : State → Nat → Bool) (blocker : State → Nat → Option Nat) (flip : State → Nat → State)
    (a : State × Option Nat) (g : Nat) : State × Option Nat :=
  match a.2 with
  | some _ => a
  | none =>
    if due a.1 g then
      match blocker a.1 g with
      | some b => (a.1, some b)
      | none => (flip a.1 g, none)
    else a

def closeDue (d : Nat) (want : Nat → Bool) (s : State) (g : Nat) : Bool := gateOpen s d g && !want g
def openDue (d : Nat) (want : Nat → Bool) (s : State) (g : Nat) : Bool := !gateOpen s d g && want g

theorem applyClosures_eq (s : State) (d : Nat) (want : Nat → Bool) : applyClosures s d want =
    gatesDeepFirst.foldl (gateStep (closeDue d want) (fun t => closeBlocker t d) (closeGate d)) (s, none) := rfl

theorem applyOpenings_eq (s : State) (d : Nat) (want : Nat → Bool) : applyOpenings s d want =
    gatesShallowFirst.foldl (gateStep (openDue d want) (fun t => openBlocker t d) (openGate d)) (s, none) := rfl

section
variable {due : State → Nat → Bool} {blocker : State → Nat → Option Nat} {flip : State → Nat → State} {s t : State} {g b : Nat}
  {l : List Nat}

theorem gateStep_idle (h : due s g = false) : gateStep due blocker flip (s, none) g = (s, none) := by
  simp [gateStep, h]

theorem gateStep_done (h : due s g = true) (hb : blocker s g = none) : gateStep due blocker flip (s, none) g = (flip s g, none) := by
  simp [gateStep, h, hb]

theorem gateStep_refused (h : due s g = true) (hb : blocker s g = some b) :
    gateStep due blocker flip (s, none) g = (s, some b) := by
  simp [gateStep, h, hb]

theorem gatePass_refused : l.foldl (gateStep due blocker flip) (s, some b) = (s, some b) := by
  induction l with
  | nil => rfl
  | cons x l ih => exact ih

theorem gatePass_idle (h : ∀ x ∈ l, due s x = false) : l.foldl (gateStep due blocker flip) (s, none) = (s, none) := by
  induction l with
  | nil => rfl
  | cons x l ih =>
      rw [List.foldl_cons, gateStep_idle (h x List.mem_cons_self)]
      exact ih fun y hy => h y (List.mem_cons_of_mem x hy)

/-- With one change due in a pass, the pass is that change. -/
theorem gatePass_one (hg : g ∈ l) (hdue : due s g = true) (honly : ∀ x ∈ l, x ≠ g → due s x = false)
    (hafter : ∀ x ∈ l, due (flip s g) x = false) :
    l.foldl (gateStep due blocker flip) (s, none) =
      match blocker s g with
      | some b => (s, some b)
      | none => (flip s g, none) := by
  induction l with
  | nil => exact absurd hg List.not_mem_nil
  | cons x l ih =>
      rw [List.foldl_cons]
      by_cases hx : x = g
      · subst hx
        cases hb : blocker s x with
        | some b => rw [gateStep_refused hdue hb, gatePass_refused]
        | none => rw [gateStep_done hdue hb, gatePass_idle fun y hy => hafter y (List.mem_cons_of_mem x hy)]
      · rw [gateStep_idle (honly x List.mem_cons_self hx)]
        exact ih ((List.mem_cons.mp hg).resolve_left (Ne.symm hx)) (fun y hy => honly y (List.mem_cons_of_mem x hy))
          (fun y hy => hafter y (List.mem_cons_of_mem x hy))

/-- What each change keeps, a pass keeps. -/
theorem gatePass_keeps {P : State → Prop} (hflip : ∀ t, P t → ∀ x ∈ l, due t x = true → P (flip t x)) (hs : P s) :
    P (l.foldl (gateStep due blocker flip) (s, none)).1 := by
  induction l generalizing s with
  | nil => exact hs
  | cons x l ih =>
      have hrest := fun t ht y hy => hflip t ht y (List.mem_cons_of_mem x hy)
      rw [List.foldl_cons]
      cases hx : due s x with
      | false =>
          rw [gateStep_idle hx]
          exact ih hrest hs
      | true =>
          cases hb : blocker s x with
          | some b =>
              rw [gateStep_refused hx hb, gatePass_refused]
              exact hs
          | none =>
              rw [gateStep_done hx hb]
              exact ih hrest (hflip s hs x List.mem_cons_self hx)

/-- After a pass that nothing refuses, no change of the pass is due any more, if a change ends its own being due and makes no other due. -/
theorem gatePass_settled {P : State → Prop} (hflip : ∀ t, P t → ∀ x ∈ l, due t x = true → P (flip t x)) (hs : P s)
    (hends : ∀ t, P t → ∀ x ∈ l, ∀ y ∈ l, due (flip t x) y = true → due t y = true ∧ y ≠ x)
    (hpass : l.foldl (gateStep due blocker flip) (s, none) = (t, none)) : ∀ x ∈ l, due t x = false := by
  induction l generalizing s with
  | nil => exact fun x hx => absurd hx List.not_mem_nil
  | cons x l ih =>
      have hrest := fun t ht y hy => hflip t ht y (List.mem_cons_of_mem x hy)
      have hendsRest := fun t ht y hy z hz => hends t ht y (List.mem_cons_of_mem x hy) z (List.mem_cons_of_mem x hz)
      -- From a state in which `x` has had its turn, the rest of the pass leaves `x` not due.
      have hfrom : ∀ u, P u → due u x = false → l.foldl (gateStep due blocker flip) (u, none) = (t, none) →
          ∀ y ∈ x :: l, due t y = false := by
        intro u hu hdue hu'
        have hx := gatePass_keeps (blocker := blocker) (P := fun w => P w ∧ due w x = false) (fun w hw y hy hy' =>
          ⟨hrest w hw.1 y hy hy', Bool.eq_false_iff.mpr fun hd => absurd (hends w hw.1 y (List.mem_cons_of_mem x hy) x
            List.mem_cons_self hd).1 (by simp [hw.2])⟩) ⟨hu, hdue⟩
        rw [hu'] at hx
        intro y hy
        obtain rfl | hy := List.mem_cons.mp hy
        · exact hx.2
        · exact ih hrest hu hendsRest hu' y hy
      rw [List.foldl_cons] at hpass
      cases hx : due s x with
      | false =>
          rw [gateStep_idle hx] at hpass
          exact hfrom s hs hx hpass
      | true =>
          cases hb : blocker s x with
          | some b =>
              rw [gateStep_refused hx hb, gatePass_refused] at hpass
              simp at hpass
          | none =>
              rw [gateStep_done hx hb] at hpass
              exact hfrom _ (hflip s hs x List.mem_cons_self hx) (Bool.eq_false_iff.mpr fun hd =>
                (hends s hs x List.mem_cons_self x List.mem_cons_self hd).2 rfl) hpass

end

/-! ### A write of CLK_GATE_ENk -/

theorem gate_bound {g : Nat} (h : g ∈ gatesShallowFirst) : g < 160 :=
  (by decide +kernel : ∀ g ∈ gatesShallowFirst, g < 160) g h

/-- The gates of a register are its assigned bits. -/
theorem gateMask_gate {g : Nat} (h : g ∈ gatesShallowFirst) : (gateMask (g / 32)).testBit (g % 32) = true :=
  (by decide +kernel : ∀ g ∈ gatesShallowFirst, (gateMask (g / 32)).testBit (g % 32) = true) g h

theorem gate_of_gateMask {k i : Nat} (hk : k < 5) (hi : i < 32) (h : (gateMask k).testBit i = true) : 32 * k + i ∈ gatesShallowFirst :=
  (by decide +kernel : ∀ k < 5, ∀ i < 32, (gateMask k).testBit i = true → 32 * k + i ∈ gatesShallowFirst) k hk i hi h

theorem gateMask_lt {k : Nat} (hk : k < 5) : gateMask k < 2 ^ 32 := (by decide : ∀ k < 5, gateMask k < 2 ^ 32) k hk

theorem mem_gatesDeepFirst {g : Nat} : g ∈ gatesDeepFirst ↔ g ∈ gatesShallowFirst :=
  ((by decide +kernel : gatesDeepFirst.Perm gatesShallowFirst)).mem_iff

/-- What a write of `v` to CLK_GATE_ENk asks of a gate. -/
def gateAsked (s : State) (d k v g : Nat) : Bool := if g / 32 = k then (v &&& gateMask k).testBit (g % 32) else gateOpen s d g

section
variable {s t : State} {d k v g b : Nat}

theorem gateAsked_other (h : g / 32 ≠ k) : gateAsked s d k v g = gateOpen s d g := if_neg h

theorem gateAsked_of_mem (hg : g ∈ gatesShallowFirst) (h : g / 32 = k) : gateAsked s d k v g = v.testBit (g % 32) := by
  rw [gateAsked, if_pos h, Nat.testBit_and, ← h, gateMask_gate hg, Bool.and_true]

theorem writeGate_closureRefused (h : applyClosures s d (gateAsked s d k v) = (t, some b)) :
    writeGate s d k v = (gateRefused s d b).ans .accessError := by
  unfold gateAsked at h
  unfold writeGate
  dsimp only
  rw [h]

theorem writeGate_openingRefused {u : State} (h : applyClosures s d (gateAsked s d k v) = (t, none))
    (h' : applyOpenings t d (gateAsked s d k v) = (u, some b)) : writeGate s d k v = (gateRefused s d b).ans .accessError := by
  unfold gateAsked at h h'
  unfold writeGate
  dsimp only
  rw [h]
  dsimp only
  rw [h']

theorem writeGate_accepted {u : State} (h : applyClosures s d (gateAsked s d k v) = (t, none))
    (h' : applyOpenings t d (gateAsked s d k v) = (u, none)) : writeGate s d k v = u.ans .ok := by
  unfold gateAsked at h h'
  unfold writeGate
  dsimp only
  rw [h]
  dsimp only
  rw [h']

/-- A write changes no register of gates but its own. -/
def OtherGatesKept (s : State) (d k : Nat) (t : State) : Prop :=
  Canonical t ∧ ∀ j, j < 5 → j ≠ k → t.g d (gateReg j) = s.g d (gateReg j)

theorem OtherGatesKept.gateOpen_eq (h : OtherGatesKept s d k t) (hg : g < 160) (hk : g / 32 ≠ k) : gateOpen t d g = gateOpen s d g := by
  unfold gateOpen State.bit
  rw [h.2 (g / 32) (by omega) hk]

theorem OtherGatesKept.p (h : OtherGatesKept s d k t) (hk : k < 5) (x : Nat) : OtherGatesKept s d k (t.p d (gateReg k) x) :=
  ⟨State.p_wf t d _ x h.1, fun j hj hne => (gateReg_p_other h.1 hk hj (Ne.symm hne)).trans (h.2 j hj hne)⟩

theorem OtherGatesKept.closeGate (h : OtherGatesKept s d k t) (hk : k < 5) (hg : g < 160)
    (hdue : closeDue d (gateAsked s d k v) t g = true) : OtherGatesKept s d k (closeGate d t g) := by
  have hgk : g / 32 = k := by
    by_contra hne
    simp [closeDue, gateAsked_other hne, h.gateOpen_eq hg hne] at hdue
  unfold Machine.closeGate State.clrBit
  rw [hgk]
  exact h.p hk _

theorem OtherGatesKept.openGate (h : OtherGatesKept s d k t) (hk : k < 5) (hg : g < 160)
    (hdue : openDue d (gateAsked s d k v) t g = true) : OtherGatesKept s d k (openGate d t g) := by
  have hgk : g / 32 = k := by
    by_contra hne
    simp [openDue, gateAsked_other hne, h.gateOpen_eq hg hne] at hdue
  unfold Machine.openGate State.setBit
  rw [hgk]
  exact h.p hk _

/-- No gate is open that a write does not ask for. -/
def NoneSpare (s : State) (d k v : Nat) (t : State) : Prop :=
  OtherGatesKept s d k t ∧ ∀ g ∈ gatesShallowFirst, gateOpen t d g = true → gateAsked s d k v g = true

theorem noneSpare_of_applyClosures (hs : Canonical s) (hk : k < 5)
    (h : applyClosures s d (gateAsked s d k v) = (t, none)) : NoneSpare s d k v t := by
  rw [applyClosures_eq] at h
  have hflip : ∀ u, OtherGatesKept s d k u → ∀ x ∈ gatesDeepFirst, closeDue d (gateAsked s d k v) u x = true →
      OtherGatesKept s d k (closeGate d u x) :=
    fun u hu x hx hdue => hu.closeGate hk (gate_bound (mem_gatesDeepFirst.mp hx)) hdue
  have hstart : OtherGatesKept s d k s := ⟨hs, fun _ _ _ => rfl⟩
  have hkept := gatePass_keeps (blocker := fun t => closeBlocker t d) hflip hstart
  rw [h] at hkept
  refine ⟨hkept, fun g hg hopen => ?_⟩
  have hends := gatePass_settled hflip hstart (fun u hu x hx y hy hdue => by
    have hx' := gate_bound (mem_gatesDeepFirst.mp hx)
    have hy' := gate_bound (mem_gatesDeepFirst.mp hy)
    simpa [closeDue, gateOpen_closeGate hu.1 hx' hy', and_right_comm] using hdue) h g (mem_gatesDeepFirst.mpr hg)
  simpa [closeDue, hopen] using hends

theorem gates_of_applyOpenings (hk : k < 5) (ht : NoneSpare s d k v t) {u : State}
    (h : applyOpenings t d (gateAsked s d k v) = (u, none)) :
    OtherGatesKept s d k u ∧ ∀ g ∈ gatesShallowFirst, gateOpen u d g = gateAsked s d k v g := by
  rw [applyOpenings_eq] at h
  have hflip : ∀ w, NoneSpare s d k v w → ∀ x ∈ gatesShallowFirst, openDue d (gateAsked s d k v) w x = true →
      NoneSpare s d k v (openGate d w x) := by
    intro w hw x hx hdue
    refine ⟨hw.1.openGate hk (gate_bound hx) hdue, fun g hg hopen => ?_⟩
    rw [gateOpen_openGate hw.1.1 (gate_bound hx) (gate_bound hg), Bool.or_eq_true, decide_eq_true_eq] at hopen
    obtain hopen | rfl := hopen
    · exact hw.2 g hg hopen
    · exact (Bool.and_eq_true_iff.mp hdue).2
  have hkept := gatePass_keeps (blocker := fun t => openBlocker t d) hflip ht
  rw [h] at hkept
  refine ⟨hkept.1, fun g hg => Bool.eq_iff_iff.mpr ⟨hkept.2 g hg, fun hask => ?_⟩⟩
  have hends := gatePass_settled hflip ht (fun w hw x hx y hy hdue => by
    simpa [openDue, gateOpen_openGate hw.1.1 (gate_bound hx) (gate_bound hy), and_right_comm] using hdue) h g hg
  simpa [openDue, hask] using hends

theorem gateRefused_gateReg (hs : Canonical s) {j : Nat} (hj : j < 5) :
    ((gateRefused s d b).ans .accessError).g d (gateReg j) = s.g d (gateReg j) := by
  have hap : ∀ j < 5, R.CLK_GATE_STATUS.BLOCKER.apart (gateReg j) ∧ R.CLK_GATE_STATUS.REFUSED.apart (gateReg j) := by
    unfold Fld.apart
    decide
  unfold gateRefused
  rw [State.g_ans, State.g_p_other _ d d _ _ _ (by decide) (gateReg_ok hj) (State.p_wf s d _ _ hs) (.inr (hap j hj).2),
    State.g_p_other _ d d _ _ _ (by decide) (gateReg_ok hj) hs (.inr (hap j hj).1)]

theorem gateRefused_refused (hs : Canonical s) : ((gateRefused s d b).ans .accessError).g d R.CLK_GATE_STATUS.REFUSED = 1 :=
  (State.g_ans _ d _ _).trans <| State.g_p_same _ d _ 1 (by decide) (State.p_wf s d _ _ hs)

/-- Where every gate stands as a write asks, the assigned bits of its register are those written. -/
theorem gateReg_of_gates (hk : k < 5) (h : ∀ g ∈ gatesShallowFirst, gateOpen t d g = gateAsked s d k v g) :
    t.g d (gateReg k) &&& gateMask k = v &&& gateMask k := by
  apply Nat.eq_of_testBit_eq
  intro i
  rw [Nat.testBit_and, Nat.testBit_and]
  cases hi : (gateMask k).testBit i with
  | false => simp
  | true =>
      have hlt : i < 32 := by
        by_contra hge
        rw [Nat.testBit_lt_two_pow ((gateMask_lt hk).trans_le (Nat.pow_le_pow_right (by decide) (not_lt.mp hge)))] at hi
        exact absurd hi (by decide)
      have hdiv : (32 * k + i) / 32 = k := by omega
      have hmod : (32 * k + i) % 32 = i := by omega
      have hg := gate_of_gateMask hk hlt hi
      have hbit := h _ hg
      rw [gateAsked_of_mem hg hdiv, gateOpen, State.bit, hdiv, hmod] at hbit
      rw [hbit]

/-- A write makes all of its changes or none (R48). -/
theorem writeGate_all_or_none (hs : Canonical s) (hk : k < 5) :
    ((writeGate s d k v).reply.resp = .ok ∧ (writeGate s d k v).g d (gateReg k) &&& gateMask k = v &&& gateMask k ∧
      ∀ j, j < 5 → j ≠ k → (writeGate s d k v).g d (gateReg j) = s.g d (gateReg j)) ∨
    ((writeGate s d k v).reply.resp = .accessError ∧ (∀ j, j < 5 → (writeGate s d k v).g d (gateReg j) = s.g d (gateReg j)) ∧
      (writeGate s d k v).g d R.CLK_GATE_STATUS.REFUSED = 1) := by
  rcases hclose : applyClosures s d (gateAsked s d k v) with ⟨t, _ | b⟩
  · rcases hopen : applyOpenings t d (gateAsked s d k v) with ⟨u, _ | b⟩
    · obtain ⟨hkept, hgates⟩ := gates_of_applyOpenings hk (noneSpare_of_applyClosures hs hk hclose) hopen
      rw [writeGate_accepted hclose hopen]
      exact .inl ⟨rfl, gateReg_of_gates hk hgates, hkept.2⟩
    · rw [writeGate_openingRefused hclose hopen]
      exact .inr ⟨rfl, fun j hj => gateRefused_gateReg hs hj, gateRefused_refused hs⟩
  · rw [writeGate_closureRefused hclose]
    exact .inr ⟨rfl, fun j hj => gateRefused_gateReg hs hj, gateRefused_refused hs⟩

end

/-! ### The command -/

/-- CLK_GATE_ENk as a register. -/
def gateRef (k : Fin 5) : RegRef :=
  ⟨[RegId.CLK_GATE_EN0, .CLK_GATE_EN1, .CLK_GATE_EN2, .CLK_GATE_EN3].getD k .CLK_GATE_EN4, 0, 0⟩

theorem gateRef_off : ∀ k : Fin 5, (gateRef k).off = (gateReg k).off := by decide

theorem gateRef_clkWritable (k : Fin 5) : ClkWritable (gateRef k) := by
  have hclosed : ∀ k : Fin 5, (gateRef k).block = some .CLK ∧ (gateRef k).id.imageSet = false ∧ (gateRef k).id.info.writable ≠ 0 ∧
      (gateRef k).id ≠ .SNT_COMMIT ∧ (gateRef k).off % 4 = 0 ∧ (gateRef k).off + 4 ≤ 2 ^ 24 := by decide
  obtain ⟨hb, hi, hw, hc, ha, hl⟩ := hclosed k
  exact ⟨hb, hi, hw, hc, ha, hl⟩

section
variable {s : State} {m : Master} {die : Die} {k : Fin 5} {v : Word} {g : Nat}

theorem writeClk_gateRef (raw mask : Nat) :
    writeClk s (mkWr s m die (gateRef k) raw mask) = writeGate s die k (mkWr s m die (gateRef k) raw mask).new := by
  fin_cases k <;> rfl

/-- The assigned bits of a gate register take what is written. -/
theorem gateRef_new_bit {raw j : Nat} (hj : j < 32) (h : (gateMask k).testBit j = true) :
    (mkWr s m die (gateRef k) raw (2 ^ 32 - 1)).new.testBit j = raw.testBit j := by
  have hinfo : ∀ k : Fin 5, (gateRef k).id.info.rw = 0 ∧ (gateRef k).id.info.rws = gateMask k ∧ (gateRef k).id.info.w1c = 0 ∧
      (gateRef k).id.info.w1s = 0 := by decide
  obtain ⟨hrw, hrws, hw1c, hw1s⟩ := hinfo k
  have hmask : (2 ^ 32 - 1).testBit j = true := by rw [Nat.testBit_two_pow_sub_one, decide_eq_true hj]
  unfold mkWr
  dsimp only
  rw [merge_bit _ _ _ _ _ (by omega), hrw, hrws, hw1c, hw1s, h, hmask]
  simp

/-- What a command that changes at most gate `g` asks of the gates. -/
theorem gateAsked_single (hg : g ∈ gatesShallowFirst) (hk : g / 32 = k)
    (hothers : ∀ j, j < 32 → j ≠ g % 32 → (gateMask k).testBit j = true → v.getLsbD j = gateOpen s die (32 * k + j)) {x : Nat}
    (hx : x ∈ gatesShallowFirst) :
    gateAsked s die k (mkWr s m die (gateRef k) (v.toNat % 2 ^ 32) (2 ^ 32 - 1)).new x =
      if x = g then v.getLsbD (g % 32) else gateOpen s die x := by
  have hv : v.toNat % 2 ^ 32 = v.toNat := Nat.mod_eq_of_lt v.isLt
  by_cases hxk : x / 32 = k
  · have hlt : x % 32 < 32 := Nat.mod_lt _ (by decide)
    have hmask : (gateMask k).testBit (x % 32) = true := hxk ▸ gateMask_gate hx
    have hsplit : 32 * k + x % 32 = x := by omega
    rw [gateAsked_of_mem hx hxk, gateRef_new_bit hlt hmask, hv, BitVec.testBit_toNat]
    split
    · next h => rw [h]
    · next h => rw [hothers _ hlt (by omega) hmask, hsplit]
  · rw [gateAsked_other hxk, if_neg (by rintro rfl; exact hxk hk)]

end

/-! ### A write that changes at most one gate (R47) -/

section
variable {s : State} {d k v g : Nat} {y : Bool}

section
variable (hs : Canonical s) (hg : g ∈ gatesShallowFirst)
  (hask : ∀ x ∈ gatesShallowFirst, gateAsked s d k v x = if x = g then y else gateOpen s d x)
include hs hg hask

theorem applyClosures_single (hy : y = false) (hopen : gateOpen s d g = true) :
    applyClosures s d (gateAsked s d k v) =
      match closeBlocker s d g with
      | some b => (s, some b)
      | none => (closeGate d s g, none) := by
  rw [applyClosures_eq]
  refine gatePass_one (mem_gatesDeepFirst.mpr hg) ?_ (fun x hx hne => ?_) (fun x hx => ?_)
  · simp [closeDue, hask g hg, hopen, hy]
  · simp [closeDue, hask x (mem_gatesDeepFirst.mp hx), hne]
  · rw [closeDue, hask x (mem_gatesDeepFirst.mp hx), gateOpen_closeGate hs (gate_bound hg) (gate_bound (mem_gatesDeepFirst.mp hx))]
    by_cases hxg : x = g <;> simp [hxg]

theorem applyOpenings_single (hy : y = true) (hopen : gateOpen s d g = false) :
    applyOpenings s d (gateAsked s d k v) =
      match openBlocker s d g with
      | some b => (s, some b)
      | none => (openGate d s g, none) := by
  rw [applyOpenings_eq]
  refine gatePass_one hg ?_ (fun x hx hne => ?_) (fun x hx => ?_)
  · simp [openDue, hask g hg, hopen, hy]
  · simp [openDue, hask x hx, hne]
  · rw [openDue, hask x hx, gateOpen_openGate hs (gate_bound hg) (gate_bound hx)]
    by_cases hxg : x = g <;> simp [hxg]

/-- Nothing is left to open once gate `g` is closed. -/
theorem applyOpenings_closed (hy : y = false) : applyOpenings (closeGate d s g) d (gateAsked s d k v) = (closeGate d s g, none) := by
  rw [applyOpenings_eq]
  refine gatePass_idle fun x hx => ?_
  rw [openDue, hask x hx, gateOpen_closeGate hs (gate_bound hg) (gate_bound hx)]
  by_cases hxg : x = g <;> simp [hxg, hy]

end

section
variable (hask : ∀ x ∈ gatesShallowFirst, gateAsked s d k v x = if x = g then y else gateOpen s d x)
include hask

theorem applyClosures_idle (hy : y = false → gateOpen s d g = false) : applyClosures s d (gateAsked s d k v) = (s, none) := by
  rw [applyClosures_eq]
  refine gatePass_idle fun x hx => ?_
  rw [closeDue, hask x (mem_gatesDeepFirst.mp hx)]
  by_cases hxg : x = g
  · cases y <;> simp_all
  · simp [hxg]

theorem applyOpenings_idle (hy : y = true → gateOpen s d g = true) : applyOpenings s d (gateAsked s d k v) = (s, none) := by
  rw [applyOpenings_eq]
  refine gatePass_idle fun x hx => ?_
  rw [openDue, hask x hx]
  by_cases hxg : x = g
  · cases y <;> simp_all
  · simp [hxg]

end

end

/-! What a command answers that changes at most gate `g`, where the cells are canonical. -/

/-- Where a change of one gate ends: with the gate changed, or with the refusal recorded and the fault of the core that asked for it. -/
def gateOutcome (s : State) (m : Master) (d off : Nat) (blocker : Option Nat) (changed : State) : State :=
  match blocker with
  | some b => (gatesSettle ((gateRefused s d b).ans .accessError) d).coreTrap m .storeFault (d * 0x1000000 + off)
  | none => gatesSettle (changed.ans .ok) d

section
variable {s : State} {m : Master} {die : Die} {k : Fin 5} {v : Word} {g : Nat}

theorem exec_gateWrite_accepted (h : Reaches s m die (gateRef k)) {t : State}
    (hw : writeGate s die k (mkWr s m die (gateRef k) (v.toNat % 2 ^ 32) (2 ^ 32 - 1)).new = t.ans .ok) :
    exec (.gateWrite m die k v) s = .next (gatesSettle (t.ans .ok) die) := by
  have hput := put32_clk_ok h (gateRef_clkWritable k) ((writeClk_gateRef _ _).trans hw)
  rw [gateRef_off] at hput
  exact congrArg _ hput

theorem exec_gateWrite_refused (h : Reaches s m die (gateRef k)) {t : State}
    (hw : writeGate s die k (mkWr s m die (gateRef k) (v.toNat % 2 ^ 32) (2 ^ 32 - 1)).new = t.ans .accessError) :
    exec (.gateWrite m die k v) s =
      .next ((gatesSettle (t.ans .accessError) die).coreTrap m .storeFault (die * 0x1000000 + (gateRef k).off)) := by
  have hput : put32 s m die (gateReg k).off v.toNat = _ :=
    gateRef_off k ▸ put32_clk_refused h (gateRef_clkWritable k) ((writeClk_gateRef _ _).trans hw)
  rw [gateRef_off]
  exact congrArg _ hput

variable (hs : Canonical s) (h : Reaches s m die (gateRef k)) (hg : g ∈ gatesShallowFirst) (hk : g / 32 = k)
  (hothers : ∀ j, j < 32 → j ≠ g % 32 → (gateMask k).testBit j = true → v.getLsbD j = gateOpen s die (32 * k + j))
include h hg hk hothers

theorem exec_gateWrite_same (hv : v.getLsbD (g % 32) = gateOpen s die g) :
    exec (.gateWrite m die k v) s = .next (gatesSettle (s.ans .ok) die) := by
  have hask := fun x hx => gateAsked_single (s := s) (m := m) hg hk hothers (x := x) hx
  exact exec_gateWrite_accepted h (writeGate_accepted (applyClosures_idle hask fun hy => hv ▸ hy)
    (applyOpenings_idle hask fun hy => hv ▸ hy))

include hs

theorem exec_gateWrite_opens (hv : v.getLsbD (g % 32) = true) (hopen : gateOpen s die g = false) :
    exec (.gateWrite m die k v) s = .next (gateOutcome s m die (gateRef k).off (openBlocker s die g) (openGate die s g)) := by
  have hask := fun x hx => gateAsked_single (s := s) (m := m) hg hk hothers (x := x) hx
  have hclose := applyClosures_idle hask fun hy => hopen
  have hpass := applyOpenings_single hs hg hask hv hopen
  cases hb : openBlocker s die g with
  | none => exact exec_gateWrite_accepted h (writeGate_accepted hclose (by rw [hpass, hb]))
  | some b => exact exec_gateWrite_refused h (writeGate_openingRefused (u := s) hclose (by rw [hpass, hb]))

theorem exec_gateWrite_closes (hv : v.getLsbD (g % 32) = false) (hopen : gateOpen s die g = true) :
    exec (.gateWrite m die k v) s = .next (gateOutcome s m die (gateRef k).off (closeBlocker s die g) (closeGate die s g)) := by
  have hask := fun x hx => gateAsked_single (s := s) (m := m) hg hk hothers (x := x) hx
  have hpass := applyClosures_single hs hg hask hv hopen
  cases hb : closeBlocker s die g with
  | none => exact exec_gateWrite_accepted h (writeGate_accepted (by rw [hpass, hb]) (applyOpenings_closed hs hg hask hv))
  | some b => exact exec_gateWrite_refused h (writeGate_closureRefused (t := s) (by rw [hpass, hb]))

end

/-! ### A cell that is listed twice -/

/-- A device out of reset that lists the given register cells. -/
def withCells (cells : SMap DWord) : State := { State.reset with boot := { State.reset.boot with inReset := none }, rf := cells }

/-- The cell of CLK_GATE_EN0 and CLK_GATE_EN1 of die 0 is listed twice: with gate 33 closed, and behind it with all of CLK_GATE_EN1
closed. To open gate 33 gives the first entry its reset value, so it is unlisted, and the second is read from then on. -/
def gatesListedTwice : State := withCells [(0x2020, 0x3FFD0000001F#64), (0x2020, 0x1F#64)]

/-- A core of die 0. -/
def core0 : Master := ⟨.coreM, 1032⟩

/-- Refutes O18: its first part asks nothing of the cells. Where a cell is listed twice, a write that opens gate 33 brings the second
listing to light, with gate 34 closed, and opens that too. What the statement says does hold where the cells are canonical:
`exec_gateWrite_opens`, `exec_gateWrite_closes`, `exec_gateWrite_same`, and `writeGate_all_or_none`, which is its second part. -/
theorem not_gatesComplete : ¬ Obligations.GatesComplete := by
  rintro ⟨hsingle, -⟩
  obtain ⟨hopens, -, -⟩ := hsingle gatesListedTwice core0 0 1 0x3FFF 33 (gateRef 1) rfl (by unfold Reaches; decide +kernel) (by decide)
    (by decide) (by decide +kernel)
  have hnext := (hopens (by decide) (by decide +kernel)).1 (by decide +kernel)
  have hput : put32 gatesListedTwice core0 0 (gateReg 1).off 0x3FFF = _ := Host.Outcome.next.inj hnext
  have hgate := congrArg (gateOpen · 0 34) hput
  exact absurd hgate (by decide +kernel)

/-! ## The root PLL's loss of its reference (R37, R40) -/

section
variable {s : State} {d : Nat}

@[simp] theorem State.g_setClk (s : State) (d d' : Nat) (f : Fld) (c : ClkSt) : (s.setClk d c).g d' f = s.g d' f := rfl

theorem State.clkOf_setClk (hc : SMap.wf (fun _ => ClkSt.reset) s.clk = true) (c : ClkSt) : (s.setClk d c).clkOf d = c :=
  SMap.get_set_same _ s.clk d c hc

theorem rootState_setRoot (hs : Canonical s) (v : Nat) : rootState (setRoot s d v) d = v % 8 :=
  State.g_p_same s d R.CLK_ROOT_STATUS.STATE v (by decide) hs

theorem rootState_enterHoldover (hs : Canonical s) : rootState (enterHoldover s d) d = Root.holdover := by
  have hev := State.g_p_other (setRoot s d Root.holdover) d d R.CLK_EVT.HOLDOVER R.CLK_ROOT_STATUS.STATE 1 (by decide)
    ⟨by decide, by decide⟩ (State.p_wf s d _ _ hs) (.inr (.inl (by decide)))
  unfold rootState enterHoldover
  rw [State.g_setClk, hev]
  exact rootState_setRoot hs Root.holdover

/-- The clocks' state of a die is listed once, so AUTO, as it stands when HOLDOVER is entered, is what is noted of it (R39). -/
theorem autoPend_enterHoldover (hc : SMap.wf (fun _ => ClkSt.reset) s.clk = true) :
    ((enterHoldover s d).clkOf d).autoPend = s.on d R.CLK_REF_CTRL.AUTO := by
  have hwf : SMap.wf (fun _ => ClkSt.reset) ((setRoot s d Root.holdover).p d R.CLK_EVT.HOLDOVER 1).clk = true := by
    unfold setRoot
    rw [State.p_clk, State.p_clk]
    exact hc
  unfold enterHoldover
  rw [State.clkOf_setClk hwf]

theorem autoSwitch_notPending (h : (s.clkOf d).autoPend = false) : autoSwitch s d = s := by
  simp [autoSwitch, h]

/-- Without AUTO the PLL stays in the HOLDOVER that it enters. -/
theorem rootState_autoSwitch_enterHoldover (hs : Canonical s) (hc : SMap.wf (fun _ => ClkSt.reset) s.clk = true)
    (hauto : s.on d R.CLK_REF_CTRL.AUTO = false) : rootState (autoSwitch (enterHoldover s d) d) d = Root.holdover := by
  rw [autoSwitch_notPending ((autoPend_enterHoldover hc).trans hauto), rootState_enterHoldover hs]

theorem rootLoss_locked_noHistory (h : rootState s d = Root.locked) (hh : s.on d R.CLK_ROOT_STATUS.HIST_VALID = false) :
    rootLoss s d = clockFailure s d := by
  simp [rootLoss, h, hh, Root.locked, Root.acquire]

theorem rootState_rootLoss_acquire (hs : Canonical s) (h : rootState s d = Root.acquire) : rootState (rootLoss s d) d = Root.off := by
  rw [rootLoss, if_pos h]
  exact rootState_setRoot hs Root.off

theorem rootLoss_rest (h : rootState s d = Root.off ∨ rootState s d = Root.holdover) : rootLoss s d = s := by
  obtain h | h := h <;> simp [rootLoss, h, Root.off, Root.holdover, Root.acquire, Root.locked, Root.relock]

/-- The way to HOLDOVER, where the register cells and the clocks' states are canonical (R37). -/
theorem rootLoss_locked_history (hs : Canonical s) (hc : SMap.wf (fun _ => ClkSt.reset) s.clk = true)
    (h : rootState s d = Root.locked) (hh : s.on d R.CLK_ROOT_STATUS.HIST_VALID = true) (hauto : s.on d R.CLK_REF_CTRL.AUTO = false) :
    rootState (rootLoss s d) d = Root.holdover := by
  have hloss : rootLoss s d = autoSwitch (enterHoldover s d) d := by simp [rootLoss, h, hh, Root.locked, Root.acquire]
  rw [hloss, rootState_autoSwitch_enterHoldover hs hc hauto]

theorem rootLoss_relock (hs : Canonical s) (hc : SMap.wf (fun _ => ClkSt.reset) s.clk = true) (h : rootState s d = Root.relock)
    (hauto : s.on d R.CLK_REF_CTRL.AUTO = false) : rootState (rootLoss s d) d = Root.holdover := by
  have hloss : rootLoss s d = autoSwitch (enterHoldover s d) d := by
    simp [rootLoss, h, Root.locked, Root.acquire, Root.relock]
  rw [hloss, rootState_autoSwitch_enterHoldover hs hc hauto]

end

/-- Die 0's clocks are listed twice, behind an entry at rest one that waits for an automatic choice. Its root is LOCKED with history, on
input 0, which shows no edges; LREF is active, qualified and first in CLK_REF_PRIO. -/
def clocksListedTwice : State :=
  (((({ State.reset with clk := [(0, ClkSt.reset), (0, { ClkSt.reset with autoPend := true })] }.p 0 R.CLK_REF_STATUS.CUR 0).p 0
    R.CLK_REF_STATUS.ACTIVE 8).p 0 R.CLK_REF_STATUS.QUAL 8).p 0 R.CLK_ROOT_STATUS.STATE Root.locked).p 0 R.CLK_ROOT_STATUS.HIST_VALID 1

/-- Refutes O17: `Canonical` speaks of the register cells, not of the clocks' states. With AUTO 0 a die's entry at rest is unlisted when
HOLDOVER is entered, the second listing notes a choice still to be made, and the hardware switches to LREF and enters RELOCK. Where the
clocks' states are canonical too, the clauses on HOLDOVER hold: `rootLoss_locked_history` and `rootLoss_relock`. -/
theorem not_rootsComplete : ¬ Obligations.RootsComplete := by
  rintro ⟨-, hloss⟩
  have hheld := (hloss clocksListedTwice 0 (by unfold Canonical; decide +kernel)).1 (by decide +kernel) (by decide +kernel)
    (by decide +kernel)
  have hrelock : rootState (rootLoss clocksListedTwice 0) 0 = Root.relock := by decide +kernel
  exact absurd (hrelock.symm.trans hheld) (by decide)

/-! ## Alternate sources (R36, R50) -/

/-- The other of the two muxes. -/
def otherMux : AltMux → AltMux
  | .apc => .evt
  | .evt => .apc

theorem altCtrl_clkWritable : ClkWritable ⟨.CLK_ALT_CTRL, 0, 0⟩ := by constructor <;> decide

/-- The fields of the two muxes lie in their registers and share no bit. -/
theorem alt_fields (x y : AltMux) : (altSrc x).ok ∧ (altSrc x).off < 2 ^ 24 ∧ (altSwitching x).off < 2 ^ 24 ∧ (altStuck x).off < 2 ^ 24 ∧
    (altCur x).off < 2 ^ 24 ∧ (altSwitching x).apart (altSrc y) ∧ (altStuck x).apart (altSrc y) ∧ (altCur x).apart (altSrc y) ∧
    (altSrc x).apart (altSrc (otherMux x)) := by
  unfold Fld.ok Fld.apart
  cases x <;> cases y <;> decide

section
variable {s : State} {w : Wr} {src : Nat} {x : AltMux}

/-- A mux whose fields are written as they stand does nothing. -/
theorem altApply_idle (hforce : (altForceBit x).of w.raw = 0) (hsrc : (altSrc x).of w.new = s.g w.d (altSrc x)) : altApply s w x = s := by
  simp [altApply, hforce, hsrc]

theorem altOk_idle (hforce : (altForceBit x).of w.raw = 0) (hsrc : (altSrc x).of w.new = s.g w.d (altSrc x))
    (h3 : s.g w.d (altSrc x) ≠ 3) : altOk s w x = true := by
  simp [altOk, hforce, hsrc, h3]

theorem altStart (hforce : (altForceBit x).of w.raw = 0) (hsrc : (altSrc x).of w.new = src) (h3 : src ≠ 3)
    (hsw : s.on w.d (altSwitching x) = false) (hrun : altRuns s w.d src = true) (hne : src ≠ s.g w.d (altSrc x)) :
    altOk s w x = true ∧ altApply s w x = (s.p w.d (altSrc x) src).p w.d (altSwitching x) 1 := by
  simp [altOk, altApply, hforce, hsrc, h3, hsw, hrun, hne]

theorem altForced (hforce : (altForceBit x).of w.raw = 1) (hsrc : (altSrc x).of w.new = src) (h3 : src ≠ 3)
    (hstuck : s.on w.d (altStuck x) = true) (hrun : altRuns s w.d src = true) :
    altOk s w x = true ∧ altApply s w x = altDone (s.p w.d (altSrc x) src) w.d x src := by
  simp [altOk, altApply, hforce, hsrc, h3, hstuck, hrun]

/-- The other mux's source is left alone by a change of one mux, where the cells are canonical. -/
theorem altSrc_p {d : Nat} {f : Fld} {v : Nat} (hs : Canonical s) (hf : f.off < 2 ^ 24) (ha : f.apart (altSrc x)) :
    (s.p d f v).g d (altSrc x) = s.g d (altSrc x) :=
  State.g_p_other s d d f _ v hf (alt_fields x x).1 hs (.inr ha)

theorem altSrc_altApply (hs : Canonical s) : (altApply s w x).g w.d (altSrc (otherMux x)) = s.g w.d (altSrc (otherMux x)) := by
  obtain ⟨-, hsrc, hsw, hst, hcur, hsw', hst', hcur', ho⟩ := alt_fields x (otherMux x)
  have h1 := State.p_wf s w.d (altSrc x) ((altSrc x).of w.new) hs
  have h2 := State.p_wf _ w.d (altCur x) ((altSrc x).of w.new) h1
  have h3 := State.p_wf _ w.d (altStuck x) 0 h2
  unfold altApply altDone
  dsimp only
  split
  · rw [altSrc_p h3 hsw hsw', altSrc_p h2 hst hst', altSrc_p h1 hcur hcur', altSrc_p hs hsrc ho]
  · split
    · rfl
    · rw [altSrc_p h1 hsw hsw', altSrc_p hs hsrc ho]

/-- A write that leaves the other mux's fields as they stand does what it asks of its own mux. -/
theorem writeAltCtrl_one (hs : Canonical s) (hok : altOk s w x = true) (hforce : (altForceBit (otherMux x)).of w.raw = 0)
    (hsrc : (altSrc (otherMux x)).of w.new = s.g w.d (altSrc (otherMux x))) (h3 : s.g w.d (altSrc (otherMux x)) ≠ 3) :
    writeAltCtrl s w = (altApply s w x).ans .ok := by
  have hother := altOk_idle hforce hsrc h3
  have hidle := altApply_idle hforce (hsrc.trans (altSrc_altApply (w := w) (x := x) hs).symm)
  have hfirst := altApply_idle hforce hsrc
  cases x with
  | apc =>
      unfold writeAltCtrl
      rw [hok, show altOk s w .evt = true from hother, show altApply (altApply s w .apc) w .evt = _ from hidle]
      rfl
  | evt =>
      unfold writeAltCtrl
      rw [hok, show altOk s w .apc = true from hother, show altApply s w .apc = s from hfirst]
      rfl

end

section
variable {s : State} {m : Master} {die : Die} {x : AltMux} {src : Fin 4}

/-- What a command that names the source of one mux, and perhaps its FORCE, writes to the fields of both. -/
theorem altCtrl_named_fields (h : Reaches s m die ⟨.CLK_ALT_CTRL, 0, 0⟩) (l : List (Fld × Nat)) (hl : l = [] ∨ l = [(altForceBit x, 1)])
    {w : Wr} (hw : w = mkWr s m die ⟨.CLK_ALT_CTRL, 0, 0⟩ (named s die ⟨.CLK_ALT_CTRL, 0, 0⟩ ((altSrc x, src.val) :: l)) (2 ^ 32 - 1)) :
    (altSrc x).of w.new = src ∧ (altForceBit x).of w.raw = l.length ∧ (altSrc (otherMux x)).of w.new = s.g die (altSrc (otherMux x)) ∧
      (altForceBit (otherMux x)).of w.raw = 0 := by
  have hsrc : src.val % 4 = src := Nat.mod_eq_of_lt src.isLt
  have hkept : ∀ y, (altSrc y).of (keptFields s die (RegRef.off ⟨.CLK_ALT_CTRL, 0, 0⟩)) = s.g die (altSrc y) ∧
      (altForceBit y).of (keptFields s die (RegRef.off ⟨.CLK_ALT_CTRL, 0, 0⟩)) = 0 := by
    rintro (_ | _)
    · exact ⟨h.of_keptFields rfl (by decide) (by decide), h.of_keptFields_zero (by decide)⟩
    · exact ⟨h.of_keptFields rfl (by decide) (by decide), h.of_keptFields_zero (by decide)⟩
  have htaken : ∀ y, (altSrc y).of w.new = (altSrc y).of w.raw := by
    subst hw
    rintro (_ | _)
    · exact merge_taken _ _ _ _ _ (by decide) (by decide)
    · exact merge_taken _ _ _ _ _ (by decide) (by decide)
  have hraw : w.raw = named s die ⟨.CLK_ALT_CTRL, 0, 0⟩ ((altSrc x, src.val) :: l) := hw ▸ rfl
  rw [htaken, htaken, hraw, of_named _ (by cases x <;> decide), of_named _ (by cases x <;> decide), of_named _ (by cases x <;> decide),
    of_named _ (by cases x <;> decide)]
  obtain rfl | rfl := hl
  · cases x
    · simp (disch := decide) only [List.foldl, altSrc, altForceBit, otherMux, of_over_other, of_over_same]
      exact ⟨hsrc, (hkept .apc).2, (hkept .evt).1, (hkept .evt).2⟩
    · simp (disch := decide) only [List.foldl, altSrc, altForceBit, otherMux, of_over_other, of_over_same]
      exact ⟨hsrc, (hkept .evt).2, (hkept .apc).1, (hkept .apc).2⟩
  · cases x
    · simp (disch := decide) only [List.foldl, altSrc, altForceBit, otherMux, of_over_other, of_over_same]
      exact ⟨hsrc, rfl, (hkept .evt).1, (hkept .evt).2⟩
    · simp (disch := decide) only [List.foldl, altSrc, altForceBit, otherMux, of_over_other, of_over_same]
      exact ⟨hsrc, rfl, (hkept .apc).1, (hkept .apc).2⟩

/-- A source that runs is switched to, where the cells are canonical (R50). -/
theorem exec_altSwitch_starts (hs : Canonical s) (h : Reaches s m die ⟨.CLK_ALT_CTRL, 0, 0⟩) (h3 : src.val ≠ 3)
    (hrun : altRuns s die src = true) (hsw : s.on die (altSwitching x) = false) (hother : s.g die (altSrc (otherMux x)) ≠ 3)
    (hne : src.val ≠ s.g die (altSrc x)) :
    exec (.altSwitch m die x src) s =
      .next (gatesSettle (((s.p die (altSrc x) src).p die (altSwitching x) 1).ans .ok) die) := by
  obtain ⟨hsrcNew, hforce, hotherNew, hotherForce⟩ := altCtrl_named_fields h [] (.inl rfl) (x := x) (src := src) rfl
  obtain ⟨hok, happly⟩ := altStart (s := s) (w := mkWr s m die _ _ _) hforce hsrcNew h3 hsw hrun hne
  have hwrite := writeAltCtrl_one hs hok hotherForce hotherNew hother
  rw [happly] at hwrite
  exact congrArg _ ((poke_eq (by cases x <;> rfl) _ _).trans (put32_clk_ok h altCtrl_clkWritable hwrite))

/-- A mux that is stuck is switched by force to a source that runs, where the cells are canonical (R50). -/
theorem exec_altForce_done (hs : Canonical s) (h : Reaches s m die ⟨.CLK_ALT_CTRL, 0, 0⟩) (h3 : src.val ≠ 3)
    (hrun : altRuns s die src = true) (hstuck : s.on die (altStuck x) = true) (hother : s.g die (altSrc (otherMux x)) ≠ 3) :
    exec (.altForce m die x src) s = .next (gatesSettle ((altDone (s.p die (altSrc x) src) die x src).ans .ok) die) := by
  obtain ⟨hsrcNew, hforce, hotherNew, hotherForce⟩ := altCtrl_named_fields h [(altForceBit x, 1)] (.inr rfl) (x := x) (src := src) rfl
  obtain ⟨hok, happly⟩ := altForced (s := s) (w := mkWr s m die _ _ _) hforce hsrcNew h3 hstuck hrun
  have hwrite := writeAltCtrl_one hs hok hotherForce hotherNew hother
  rw [happly] at hwrite
  exact congrArg _ ((poke_eq (by cases x <;> rfl) _ _).trans (put32_clk_ok h altCtrl_clkWritable hwrite))

end

/-- The root of die 0 is LOCKED, and the cell of CLK_ALT_CTRL is listed twice: with APC_SRC 1, and behind it with EVT_SRC 2. To write
APC_SRC 0 gives the first entry its reset value, so it is unlisted, and the second is read from then on. -/
def sourcesListedTwice : State :=
  setRoot (withCells [(0x200A, 0x6411417#64), (0x2024, 0x1#64), (0x2024, 0x200#64)]) 0 Root.locked

/-- Refutes O19: its first clause asks nothing of the cells. Where the cell of CLK_ALT_CTRL is listed twice, a write of APC_SRC brings
another EVT_SRC to light than the one the write kept, so the event controllers' mux starts a switch as well. Where the cells are canonical,
`exec_altSwitch_starts` and `exec_altForce_done` say of either mux what the statement does. -/
theorem not_pllsAndMuxesComplete : ¬ Obligations.PllsAndMuxesComplete := by
  intro h
  have hnext := (h sourcesListedTwice core0 0).1 0 (by unfold Reaches; decide +kernel) (by decide) (by decide +kernel)
    (by decide +kernel) (by decide +kernel) (by decide +kernel)
  have hpoke : poke sourcesListedTwice core0 0 [(altSrc .apc, 0)] = _ := Host.Outcome.next.inj hnext
  have hsw := congrArg (fun t => t.on 0 R.CLK_ALT_STATUS.EVT_SWITCHING) hpoke
  exact absurd hsw (by decide +kernel)

end Sys2Proof.Machine
end


/-! # Reset and start-up (R56 to R77), and the writes of the control plane that go with them (R58, R63, R64, R422, R425) -/

section
set_option Elab.async false
namespace Sys2Proof.Machine

/-! ## Writes that reach a register and are accepted -/

section
variable {s t : State} {m : Master} {d v : Nat} {r : RegRef}

/-- What makes a register one that a write can reach; closed facts of the register map. -/
structure Writable (r : RegRef) : Prop where
  imageSet : r.id.imageSet = false
  writable : r.id.info.writable ≠ 0
  commit : r.id ≠ .SNT_COMMIT
  aligned : r.off % 4 = 0
  inWindow : r.off + 8 ≤ 2 ^ 24

/-- A 32-bit write that the register's family accepts: the core that made it sees nothing to trap on. -/
theorem put32_ok (h : Reaches s m d r) (hr : Writable r)
    (hw : writeFamily s (mkWr s m d r (v % 2 ^ 32) (2 ^ 32 - 1)) = t.ans .ok) : put32 s m d r.off v = t.ans .ok := by
  obtain ⟨hi, hw', hc, ha, hl⟩ := hr
  rw [put32_reaches s m d v r h hi hw' hc ha (by omega), hw, coreSees_ok]

/-- Outside the blocks of the head die, a register stands on every die (R27). -/
theorem regOn_of_regAt {off : Nat} (h : regAt off = some r) (hsec : r.block ≠ some .SEC) (hnvc : r.block ≠ some .NVC) :
    regOn s d off = some r := by
  unfold regOn
  rw [h]
  exact if_neg (by rintro ⟨hb | hb, -⟩ <;> contradiction)

/-- Both words of an aligned pair are defined if a register holds each. -/
theorem bytesDefined_pair {off : Nat} {r₂ : RegRef} (ho : regOn s d off = some r) (ho₂ : regOn s d (off + 4) = some r₂)
    (ha : off % 4 = 0) (hl : off + 8 ≤ 2 ^ 24) : bytesDefined s d off 8 = true := by
  have hstart : off / 4 * 4 = off := by omega
  have htwo : (off % 4 + 8 + 3) / 4 = 2 := by omega
  have hend : off ≤ 2 ^ 24 - 8 := by omega
  simpa [bytesDefined, htwo, hstart, List.range_succ, ho, ho₂] using hend

/-- A 64-bit write of a pair that the register's family accepts. -/
theorem put64_ok (h : Reaches s m d r) (hr : Writable r) (hp : r.id.info.pair = true) (ha : r.off % 8 = 0)
    (ho₂ : regOn s d (r.off + 4) = some r) (hw : writeFamily s (mkWr s m d r (v % 2 ^ 64) (2 ^ 64 - 1)) = t.ans .ok) :
    put64 s m d r.off v = t.ans .ok := by
  obtain ⟨hi, hw', hc, ha4, hl⟩ := hr
  have ho := h.regOn_eq
  have hband : v % 2 ^ 64 &&& (2 ^ 64 - 1) = v % 2 ^ 64 := by rw [Nat.and_two_pow_sub_one_eq_mod, Nat.mod_mod]
  have hover := writeOver_reaches (off := r.off) (size := 8) (v := v) (poison := false) h
  have hb := bytesDefined_pair ho ho₂ ha4 hl
  have hpair : pairAt s d r.off = true := by simp [pairAt, ho, hp]
  have hf := h.regRefusal_eq
  obtain ⟨-, -, -, -, -, -, hh, hs⟩ := h
  have hreg := writeReg_family s m d r (v % 2 ^ 64) (2 ^ 64 - 1) hh hi hw' hs
  rw [hband, hw] at hreg
  have hword : regWrite writeSntCommit s m d r.off 8 v false = t.ans .ok := by
    simpa [regWrite, inAperture_reg s d r.off r ho, hb, ha, hpair, writeWord, ho, hf, hc] using hreg
  unfold put64 accessWrite
  rw [hover, hword, coreSees_ok]

/-- A command that names one field of a register, which a write of the register takes whole, sets it to what it names. -/
theorem of_mkWr_named {f : Fld} {x : Nat} (hf : f.lo + f.w ≤ 32) (hx : x < 2 ^ f.w)
    (hm : ∀ k, k < f.w → ((r.id.info.rw.testBit (f.lo + k) || r.id.info.rws.testBit (f.lo + k)) && (2 ^ 32 - 1).testBit (f.lo + k)
      && !(r.id.info.w1c.testBit (f.lo + k)) && !(r.id.info.w1s.testBit (f.lo + k))) = true) :
    f.of (mkWr s m d r (named s d r [(f, x)]) (2 ^ 32 - 1)).new = x := by
  unfold mkWr
  rw [merge_taken _ _ _ _ _ (by omega) hm, of_named _ hf, List.foldl_cons, List.foldl_nil, of_over_same, Nat.mod_eq_of_lt hx]

end

/-! ## What an operation writes: registers only, and of these only cells of a kind -/

/-- Of `o`, state `s` differs only in register cells whose keys are in `K`. -/
structure Writes (K : Nat → Prop) (o s : State) : Prop where
  rest : s = { o with rf := s.rf }
  cells : ∀ k, ¬ K k → s.cell k = o.cell k

/-- The cells of die `d` from offset `lo` up. -/
def dieCells (d lo k : Nat) : Prop := k / 2 ^ 21 = d ∧ lo / 8 ≤ k % 2 ^ 21

/-- The cells of every die from offset `lo` up. -/
def cellsFrom (lo k : Nat) : Prop := lo / 8 ≤ k % 2 ^ 21

theorem cellKey_die {d off : Nat} (h : off < 2 ^ 24) : cellKey d off / 2 ^ 21 = d := by
  unfold cellKey
  omega

theorem cellKey_offset {d off : Nat} (h : off < 2 ^ 24) : cellKey d off % 2 ^ 21 = off / 8 := by
  unfold cellKey
  omega

theorem dieCells_cellKey {d lo off : Nat} (h : lo ≤ off ∧ off < 2 ^ 24) : dieCells d lo (cellKey d off) := by
  refine ⟨cellKey_die h.2, ?_⟩
  rw [cellKey_offset h.2]
  omega

theorem cellsFrom_cellKey {d lo off : Nat} (h : lo ≤ off ∧ off < 2 ^ 24) : cellsFrom lo (cellKey d off) :=
  (dieCells_cellKey (d := d) h).2

theorem not_cellsFrom_cellKey {d lo off : Nat} (hl : off / 8 < lo / 8) (h : off < 2 ^ 24) : ¬ cellsFrom lo (cellKey d off) := by
  unfold cellsFrom
  rw [cellKey_offset h]
  omega

/-- A field reads the same in states that agree on its cell. -/
theorem State.g_congr {s t : State} {d : Nat} {f : Fld} (h : s.cell (cellKey d f.off) = t.cell (cellKey d f.off)) :
    s.g d f = t.g d f := by
  unfold State.g
  rw [h]

section
variable {K L : Nat → Prop} {o s t : State}

theorem Writes.refl (s : State) : Writes K s s := ⟨rfl, fun _ _ => rfl⟩

theorem Writes.trans (h : Writes K o s) (h' : Writes K s t) : Writes K o t :=
  ⟨h'.rest.trans (congrArg (fun u => { u with rf := t.rf }) h.rest), fun k hk => (h'.cells k hk).trans (h.cells k hk)⟩

theorem Writes.mono (h : Writes K o s) (hKL : ∀ k, K k → L k) : Writes L o s :=
  ⟨h.rest, fun k hk => h.cells k (fun hK => hk (hKL k hK))⟩

theorem Writes.p {d v : Nat} {f : Fld} (hk : K (cellKey d f.off)) (h : Writes K o s) : Writes K o (s.p d f v) :=
  h.trans ⟨rfl, fun _ hk' => State.cell_p_other s d f v _ (fun e => hk' (e ▸ hk))⟩

/-- What is written on one die from an offset up is written on some die from any lower offset up. -/
theorem Writes.onDie {d lo lo' : Nat} (h : Writes (dieCells d lo) o s) (hl : lo' ≤ lo := by decide) : Writes (cellsFrom lo') o s :=
  h.mono (fun _ hk => (Nat.div_le_div_right hl).trans hk.2)

theorem Writes.lower {lo lo' : Nat} (h : Writes (cellsFrom lo) o s) (hl : lo' ≤ lo := by decide) : Writes (cellsFrom lo') o s :=
  h.mono (fun _ hk => (Nat.div_le_div_right hl).trans hk)

theorem Writes.ite {c : Prop} [Decidable c] (ht : Writes K o s) (hu : Writes K o t) : Writes K o (if c then s else t) := by
  split
  · exact ht
  · exact hu

/-- A state that goes on from `s` only if a condition holds. -/
theorem Writes.when {c : Prop} [Decidable c] (ht : Writes K o s → Writes K o t) (h : Writes K o s) :
    Writes K o (if c then t else s) := .ite (ht h) h

/-- A state that goes on from `s` either way. -/
theorem Writes.both {u : State} {c : Prop} [Decidable c] (ht : Writes K o s → Writes K o t) (hu : Writes K o s → Writes K o u)
    (h : Writes K o s) : Writes K o (if c then t else u) := .ite (ht h) (hu h)

theorem Writes.foldl {α : Type} {f : State → α → State} {l : List α} (hf : ∀ t, ∀ x ∈ l, Writes K t (f t x)) (h : Writes K o s) :
    Writes K o (l.foldl f s) := by
  induction l generalizing s with
  | nil => exact h
  | cons x l ih => exact ih (fun t y hy => hf t y (List.mem_cons_of_mem x hy)) (h.trans (hf s x List.mem_cons_self))

theorem Writes.dev (h : Writes K o s) : s.dev = o.dev := by rw [h.rest]
theorem Writes.boot (h : Writes K o s) : s.boot = o.boot := by rw [h.rest]
theorem Writes.sec (h : Writes K o s) : s.sec = o.sec := by rw [h.rest]
theorem Writes.reply (h : Writes K o s) : s.reply = o.reply := by rw [h.rest]

/-- A field whose cell is not written reads as before. -/
theorem Writes.g_eq (h : Writes K o s) {d : Nat} {f : Fld} (hk : ¬ K (cellKey d f.off)) : s.g d f = o.g d f :=
  State.g_congr (h.cells _ hk)

theorem Writes.onlyRegs (h : Writes K o s) : OnlyRegs o s := by
  unfold OnlyRegs
  rw [h.reply]
  exact h.rest

theorem State.head_of_dev (h : s.dev = o.dev) : s.head = o.head := by
  unfold State.head
  rw [h]

theorem State.dies_of_dev (h : s.dev = o.dev) : s.dies = o.dies := by
  unfold State.dies State.present
  rw [h]

end

/-- A register of die `d` reads as before a write of other dies. -/
theorem Writes.g_die {s t : State} {d : Nat} {f : Fld} (h : Writes (fun k => k / 2 ^ 21 ≠ d) s t) (hf : f.off < 2 ^ 24 := by decide) :
    t.g d f = s.g d f := h.g_eq (not_not.mpr (cellKey_die hf))

/-- Where what is done on a die writes cells of that die only, what a whole pass leaves on die `d` is what its step on `d` does, from a
state that agrees with the first on that die. -/
theorem State.each_at {f : State → Nat → State} {d : Nat} (hw : ∀ t x, Writes (fun k => k / 2 ^ 21 = x) t (f t x))
    (hc : ∀ t x, Canonical t → Canonical (f t x)) {l : List Nat} {s : State} (hl : l.Nodup) (hd : d ∈ l) (hs : Canonical s) :
    ∃ t, Canonical t ∧ Writes (fun k => k / 2 ^ 21 ≠ d) s t ∧ Writes (fun k => k / 2 ^ 21 ≠ d) (f t d) (s.each l f) := by
  have hstep : ∀ x, x ≠ d → ∀ t, Writes (fun k => k / 2 ^ 21 ≠ d) t (f t x) := fun x hx t =>
    (hw t x).mono (fun k hk => hk ▸ hx)
  induction l generalizing s with
  | nil => exact absurd hd List.not_mem_nil
  | cons x l ih =>
    obtain ⟨hx, hl⟩ := List.nodup_cons.mp hl
    by_cases he : x = d
    · subst he
      have hrest : Writes (fun k => k / 2 ^ 21 ≠ x) (f s x) (l.foldl f (f s x)) :=
        .foldl (fun t y hy => hstep y (fun e => hx (e ▸ hy)) t) (.refl _)
      exact ⟨s, hs, .refl s, hrest⟩
    · have hmem : d ∈ l := (List.mem_cons.mp hd).resolve_left (Ne.symm he)
      obtain ⟨t, ht, hst, hlast⟩ := ih hl hmem (hc s x hs)
      exact ⟨t, ht, (hstep x he s).trans hst, hlast⟩

/-! ## The watchdog, the software reset and the block resets (R58, R63, R64) -/

theorem wdtCtrl_writable : Writable ⟨.SYS_WDT_CTRL, 0, 0⟩ := by constructor <;> decide
theorem wdtKick_writable : Writable ⟨.SYS_WDT_KICK, 0, 0⟩ := by constructor <;> decide
theorem rstSw_writable : Writable ⟨.SYS_RST_SW, 0, 0⟩ := by constructor <;> decide
theorem rstBlock_writable : Writable ⟨.SYS_RST_BLOCK, 0, 0⟩ := by constructor <;> decide

section
variable {s : State} {w : Wr} {d key : Nat}

/-- A watchdog that is not enabled takes a write whose TIMEOUT is not 0 (R63). -/
theorem writeWdt_taken (hen : s.on w.d R.SYS_WDT_CTRL.EN = false) (ht : R.SYS_WDT_CTRL.TIMEOUT.of w.new ≠ 0) :
    writeWdt s w = (s.setReg w.d w.r w.new).ans .ok := by
  simp [writeWdt, State.storeIf, State.store, hen, ht]

theorem writeKick_key : writeKick s d 0x4B1C4B1C = s.ans .ok := by
  simp [writeKick]

/-- Anything but the key expires a watchdog that runs (R58). -/
theorem writeKick_wrong (hkey : key ≠ 0x4B1C4B1C) (hen : s.on d R.SYS_WDT_CTRL.EN = true) :
    writeKick s d key = (raiseReach s d 1 0).ans .ok := by
  simp [writeKick, hkey, hen]

theorem writeRstSw_go (hkey : R.SYS_RST_SW.KEY.of w.raw = 0xA5C3) (hgo : R.SYS_RST_SW.GO.of w.raw = 1) :
    writeRstSw s w = (raiseReach s w.d 3 0).ans .ok := by
  simp [writeRstSw, hkey, hgo]

end

section
variable {s : State} {m : Master} {die : Die}

theorem exec_wdtEnable_taken {v : Word} (h : Reaches s m die ⟨.SYS_WDT_CTRL, 0, 0⟩) (hen : s.on die R.SYS_WDT_CTRL.EN = false)
    (ht : R.SYS_WDT_CTRL.TIMEOUT.of (written s die ⟨.SYS_WDT_CTRL, 0, 0⟩ v.toNat) ≠ 0) :
    exec (.wdtEnable m die v) s =
      .next ((s.setReg die ⟨.SYS_WDT_CTRL, 0, 0⟩ (written s die ⟨.SYS_WDT_CTRL, 0, 0⟩ v.toNat)).ans .ok) := by
  have hv : v.toNat % 2 ^ 32 = v.toNat := Nat.mod_eq_of_lt v.isLt
  have hwrite := writeWdt_taken (w := mkWr s m die ⟨.SYS_WDT_CTRL, 0, 0⟩ v.toNat (2 ^ 32 - 1)) hen ht
  exact congrArg _ (put32_ok h wdtCtrl_writable (hv.symm ▸ hwrite))

theorem exec_wdtKick {key : Word} {t : State} (h : Reaches s m die ⟨.SYS_WDT_KICK, 0, 0⟩)
    (hw : writeKick s die key.toNat = t.ans .ok) : exec (.wdtKick m die key) s = .next (t.ans .ok) := by
  have hv : key.toNat % 2 ^ 32 % 2 ^ 32 = key.toNat := by rw [Nat.mod_mod, Nat.mod_eq_of_lt key.isLt]
  have hwrite : writeKick s die (key.toNat % 2 ^ 32 % 2 ^ 32) = t.ans .ok := hv.symm ▸ hw
  exact congrArg _ (put32_ok h wdtKick_writable hwrite)

/-- The fields of SYS_RST_SW as the command with the key and GO writes them. -/
theorem rstSw_named_fields {v : Nat} (hv : v = named s die ⟨.SYS_RST_SW, 0, 0⟩ [(R.SYS_RST_SW.KEY, 0xA5C3), (R.SYS_RST_SW.GO, 1)]) :
    R.SYS_RST_SW.KEY.of v = 0xA5C3 ∧ R.SYS_RST_SW.GO.of v = 1 := by
  rw [hv, of_named _ (by decide), of_named _ (by decide)]
  simp (disch := decide) only [List.foldl, of_over_other, of_over_same]
  exact ⟨rfl, rfl⟩

theorem exec_softwareReset_go (h : Reaches s m die ⟨.SYS_RST_SW, 0, 0⟩) :
    exec (.softwareReset m die 0xA5C3 true) s = .next ((raiseReach s die 3 0).ans .ok) := by
  obtain ⟨hkey, hgo⟩ := rstSw_named_fields (s := s) (die := die) rfl
  exact congrArg _ ((poke_eq rfl _ _).trans (put32_ok h rstSw_writable (writeRstSw_go (w := mkWr s m die _ _ _) hkey hgo)))

theorem exec_rstBlockWrite {hold : BitVec 14} (h : Reaches s m die ⟨.SYS_RST_BLOCK, 0, 0⟩) :
    exec (.rstBlockWrite m die hold) s = .next ((setHolds s die hold.toNat).ans .ok) := by
  have hnew := of_mkWr_named (s := s) (m := m) (d := die) (r := ⟨.SYS_RST_BLOCK, 0, 0⟩) (f := R.SYS_RST_BLOCK.HOLD) (x := hold.toNat)
    (by decide) hold.isLt (by decide)
  have hwrite := congrArg (fun v => (setHolds s die v).ans .ok) hnew
  exact congrArg _ ((poke_eq rfl _ _).trans (put32_ok h rstBlock_writable hwrite))

end

/-- Settles O7: each command is a write of one register, and the register's own rule says what the write does. -/
theorem sysWritesComplete : Obligations.SysWritesComplete := by
  intro s m die
  refine ⟨fun v h hen ht => ?_, fun h => ?_, fun key h hkey hen => ?_, fun h => ?_, fun hold h => ?_⟩
  · exact exec_wdtEnable_taken h hen ht
  · exact exec_wdtKick h writeKick_key
  · exact exec_wdtKick h (writeKick_wrong (fun e => hkey (BitVec.eq_of_toNat_eq e)) hen)
  · exact exec_softwareReset_go h
  · exact exec_rstBlockWrite h

/-! ## Cores, debug modules and timers (R58, R422, R423, R425) -/

theorem release_writable : Writable ⟨.APC_RELEASE, 0, 0⟩ := by constructor <;> decide
theorem mtime_writable : Writable ⟨.APC_MTIME, 0, 0⟩ := by constructor <;> decide

/-- A write of APC_RELEASE that leaves no running core's bit clear starts the released cores (R422). -/
theorem writeRelease_starts {s : State} {w : Wr} {v : Nat} (hv : R.APC_RELEASE.CORES.of w.new = v)
    (hc : ∀ c, c < 4 → v.testBit c = true ∨ s.coreState w.d c = Core.reset) :
    writeRelease s w = (startCores (s.setReg w.d w.r w.new) w.d).ans .ok := by
  refine if_pos ?_
  rw [hv, List.all_eq_true]
  intro c hmem
  simpa using hc c (List.mem_range.mp hmem)

/-- The timer interrupt of a core is pending once MTIME has come to its compare value (R425). -/
theorem mtip_iff {s : State} {d c : Nat} : mtip s d c = true ↔ s.g d (R.APC_MTIMECMP.CMP c) ≤ s.g d R.APC_MTIME.TIME :=
  decide_eq_true_iff

section
variable {s : State} {m : Master} {die : Die}

theorem exec_releaseWrite {cores : BitVec 4} (h : Reaches s m die ⟨.APC_RELEASE, 0, 0⟩)
    (hc : ∀ c : Fin 4, cores.getLsbD c = true ∨ s.coreState die c = Core.reset) :
    ∃ v, R.APC_RELEASE.CORES.of v = cores.toNat ∧
      exec (.releaseWrite m die cores) s = .next ((startCores (s.setReg die ⟨.APC_RELEASE, 0, 0⟩ v) die).ans .ok) := by
  have hnew := of_mkWr_named (s := s) (m := m) (d := die) (r := ⟨.APC_RELEASE, 0, 0⟩) (f := R.APC_RELEASE.CORES) (x := cores.toNat)
    (by decide) cores.isLt (by decide)
  have hwrite := writeRelease_starts (s := s) hnew (fun c hlt => hc ⟨c, hlt⟩)
  exact ⟨_, hnew, congrArg _ ((poke_eq rfl _ _).trans (put32_ok h release_writable hwrite))⟩

/-- A write of the head die's MTIME waits for the tick that sets every die's (R425). -/
theorem exec_mtimeWrite {v : DWord} (h : Reaches s m die ⟨.APC_MTIME, 0, 0⟩) (hd : die.val = s.head) :
    exec (.mtimeWrite m die v) s = .next ({ s with mset := some v }.ans .ok) := by
  have hnew : (mkWr s m die ⟨.APC_MTIME, 0, 0⟩ (v.toNat % 2 ^ 64) (2 ^ 64 - 1)).new % 2 ^ 64 = v.toNat % 2 ^ 64 % 2 ^ 64 :=
    merge_taken _ R.APC_MTIME.TIME _ _ _ (by decide) (by decide)
  have hword : BitVec.ofNat 64 (mkWr s m die ⟨.APC_MTIME, 0, 0⟩ (v.toNat % 2 ^ 64) (2 ^ 64 - 1)).new = v := by
    apply BitVec.eq_of_toNat_eq
    rw [BitVec.toNat_ofNat, hnew, Nat.mod_mod, Nat.mod_eq_of_lt v.isLt]
  have hwrite : writeApc s (mkWr s m die ⟨.APC_MTIME, 0, 0⟩ (v.toNat % 2 ^ 64) (2 ^ 64 - 1)) = _ := if_pos hd
  rw [hword] at hwrite
  have hhigh := regOn_of_regAt (s := s) (d := die) (off := RegRef.off ⟨.APC_MTIME, 0, 0⟩ + 4) (r := ⟨.APC_MTIME, 0, 0⟩) (by decide)
    (by decide) (by decide)
  exact congrArg _ (put64_ok h mtime_writable rfl (by decide) hhigh hwrite)

end

/-- Settles O9: each event has the effect of the branch that its hypotheses select, and each write is judged by its register. -/
theorem coresComplete : Obligations.CoresComplete := by
  intro s m die core
  refine ⟨?_, ?_, ?_, ?_, ?_, ?_, ?_, ?_⟩
  · intro hp hrun
    exact congrArg _ (if_pos ⟨hp, hrun⟩)
  · intro hp hrun
    exact congrArg _ (if_pos ⟨hp, hrun⟩)
  · intro hopen
    exact congrArg _ (if_pos hopen)
  · intro hopen hreset
    exact congrArg _ (if_pos ⟨hopen, hreset⟩)
  · intro hopen hhalt
    exact congrArg _ (if_pos ⟨hopen, hhalt⟩)
  · exact congrArg (fun x => Host.Outcome.next (s.ansData .ok [x])) (if_congr mtip_iff rfl rfl)
  · intro cores
    exact exec_releaseWrite
  · intro v
    exact exec_mtimeWrite

/-! ## The state after reset (R56, R66, R441) -/

theorem canonical_reset : Canonical State.reset := by
  unfold Canonical
  decide +kernel

/-- Settles O3: the state after reset is one closed term. -/
theorem resetState : Obligations.ResetState := by
  refine ⟨canonical_reset, ?_, ?_, ?_, ?_⟩
  · decide +kernel
  · rfl
  · rfl
  · decide +kernel

/-! ## The phases (R66 to R71) -/

section
variable {s : State}

theorem exec_housekeepEnd {temp : Int} (hp : s.phase = Phase.housekeep) (hc : s.boot.cleared = true) (hr : s.boot.inReset = none)
    (hroots : ∀ d ∈ s.dies, rootRuns s d = true) :
    exec (.housekeepEnd temp) s = .next (if s.boot.judgeHeat ∧ temp < tHold s then heaterHold s else releaseInit s) :=
  congrArg _ (if_pos ⟨hp, hc, hr, List.all_eq_true.mpr hroots⟩)

/-- A head die that is warm enough is not held (R69). -/
theorem exec_housekeepEnd_warm {temp : Int} (hp : s.phase = Phase.housekeep) (hc : s.boot.cleared = true) (hr : s.boot.inReset = none)
    (hroots : ∀ d ∈ s.dies, rootRuns s d = true) (ht : tHold s ≤ temp) : exec (.housekeepEnd temp) s = .next (releaseInit s) := by
  rw [exec_housekeepEnd hp hc hr hroots, if_neg fun h => absurd h.2 (Int.not_lt.mpr ht)]

theorem releaseInit_waits (h : s.boot.modeHeld = false) : releaseInit s = s.setPhase Phase.initWait := by
  simp [releaseInit, h]

theorem releaseInit_modeHeld (h : s.boot.modeHeld = true) :
    releaseInit s = enterLoad (if s.boot.failed then s else s.pAll R.SYS_BOOT_STATUS.INIT_N_PIN 1) := if_pos h

/-- The set-up of the flash devices in LOAD (R80, R81). -/
theorem exec_flashSetup {a b : Sfdp} {attempt : Bool} (hr : s.boot.inReset = none) (hp : s.phase = Phase.load)
    (hm : flashMode s = true) (hready : s.cfg.flash.ready = false) (hw : s.boot.warm = false) :
    exec (.flashSetup a b attempt) s = .next (if flashOk s.flashDual a b then
      nextSlot (flashClock (if (flashTake s a b).cfg.flash.plan.isSome then flashTake s a b else makePlan (flashTake s a b) attempt))
    else noImage (s.pAll R.CFG_LOAD_STATUS.ERROR Lerr.flash)) := by
  refine congrArg _ ((if_pos ⟨hp, hr, hm, hready⟩).trans (if_neg ?_))
  simp [hw]

end

/-- Settles O14: in each phase the event that ends it has the effect of the branch that its hypotheses select. -/
theorem phasesComplete : Obligations.PhasesComplete := by
  intro s hr
  refine ⟨?_, ?_, ?_, ?_, ?_, ?_⟩
  · intro hp hhead hroots
    exact congrArg _ (if_pos ⟨hp, hr, hhead, List.all_eq_true.mpr hroots⟩)
  · intro temp hp hc hroots
    refine ⟨fun hjudge hcold => ?_, fun hwarm hm => ?_, fun hwarm hm => ?_⟩
    · rw [exec_housekeepEnd hp hc hr hroots, if_pos ⟨hjudge, hcold⟩]
    · rw [exec_housekeepEnd_warm hp hc hr hroots hwarm, releaseInit_waits hm]
    · rw [exec_housekeepEnd_warm hp hc hr hroots hwarm, releaseInit_modeHeld hm]
  · intro temp hp hwarm
    exact congrArg _ (if_pos ⟨hp, hr, hwarm⟩)
  · intro mode hp
    exact congrArg _ (if_pos ⟨hp, hr⟩)
  · intro a b attempt hp hm hready hw
    have hsetup := exec_flashSetup (a := a) (b := b) (attempt := attempt) hr hp hm hready hw
    exact ⟨fun hbad => by rw [hsetup, hbad]; rfl, fun hgood => by rw [hsetup, hgood]; rfl⟩
  · intro image hopen hkind hw hp
    exact congrArg _ (if_pos ⟨hopen, hr, hkind, hw, .inr hp⟩)

/-! ## The wake-up sequence (R74 to R77) -/

/-- A step of the wake-up sequence on one die. -/
def wakeStepOn (code : Nat) (s : State) (d : Nat) : State :=
  let s := s.setBit d R.CFG_WAKE_STATUS.DONE_STEPS code
  let k := s.g d R.CFG_WAKE_STATUS.SLOT
  if k = 7 then s.p d R.CFG_WAKE_STATUS.ACTIVE 0 else s.p d R.CFG_WAKE_STATUS.SLOT (k + 1)

theorem wakeStep_eq (s : State) (code : Nat) : wakeStep s code = s.each s.dies (wakeStepOn code) := rfl

section
variable {s t : State} {d code : Nat}

theorem wakeStepOn_writes : Writes (fun k => k = cellKey d R.CFG_WAKE_STATUS.SLOT.off) s (wakeStepOn code s d) := by
  have hdone : Writes (fun k => k = cellKey d R.CFG_WAKE_STATUS.SLOT.off) s (s.setBit d R.CFG_WAKE_STATUS.DONE_STEPS code) :=
    .p rfl (.refl s)
  exact .ite (.p rfl hdone) (.p rfl hdone)

theorem wakeStepOn_canonical (hs : Canonical s) : Canonical (wakeStepOn code s d) := by
  have hdone : Canonical (s.setBit d R.CFG_WAKE_STATUS.DONE_STEPS code) := State.p_wf s _ _ _ hs
  unfold wakeStepOn
  dsimp only
  split
  · exact State.p_wf _ _ _ _ hdone
  · exact State.p_wf _ _ _ _ hdone

/-- The fields of CFG_WAKE_STATUS share no bit. -/
theorem wakeStatus_apart : R.CFG_WAKE_STATUS.DONE_STEPS.apart R.CFG_WAKE_STATUS.SLOT ∧
    R.CFG_WAKE_STATUS.DONE_STEPS.apart R.CFG_WAKE_STATUS.ACTIVE ∧ R.CFG_WAKE_STATUS.SLOT.apart R.CFG_WAKE_STATUS.DONE_STEPS ∧
    R.CFG_WAKE_STATUS.SLOT.apart R.CFG_WAKE_STATUS.ACTIVE ∧ R.CFG_WAKE_STATUS.ACTIVE.apart R.CFG_WAKE_STATUS.DONE_STEPS ∧
    R.CFG_WAKE_STATUS.ACTIVE.apart R.CFG_WAKE_STATUS.SLOT := by
  unfold Fld.apart
  decide

theorem wakeStatus_ok : R.CFG_WAKE_STATUS.DONE_STEPS.ok ∧ R.CFG_WAKE_STATUS.SLOT.ok ∧ R.CFG_WAKE_STATUS.ACTIVE.ok := by
  unfold Fld.ok
  decide

/-- The step of the last slot ends the sequence (R74). -/
theorem wakeStepOn_last (hs : Canonical s) (h : s.g d R.CFG_WAKE_STATUS.SLOT = 7) :
    wakeStepOn code s d = (s.setBit d R.CFG_WAKE_STATUS.DONE_STEPS code).p d R.CFG_WAKE_STATUS.ACTIVE 0 := by
  obtain ⟨hds, -⟩ := wakeStatus_apart
  have hslot : (s.setBit d R.CFG_WAKE_STATUS.DONE_STEPS code).g d R.CFG_WAKE_STATUS.SLOT = 7 :=
    (State.g_p_other s d d _ _ _ wakeStatus_ok.1.2 wakeStatus_ok.2.1 hs (.inr hds)).trans h
  exact if_pos hslot

theorem wakeStepOn_next (hs : Canonical s) (h : s.g d R.CFG_WAKE_STATUS.SLOT < 7) :
    wakeStepOn code s d =
      (s.setBit d R.CFG_WAKE_STATUS.DONE_STEPS code).p d R.CFG_WAKE_STATUS.SLOT (s.g d R.CFG_WAKE_STATUS.SLOT + 1) := by
  obtain ⟨hds, -⟩ := wakeStatus_apart
  have hslot : (s.setBit d R.CFG_WAKE_STATUS.DONE_STEPS code).g d R.CFG_WAKE_STATUS.SLOT = s.g d R.CFG_WAKE_STATUS.SLOT :=
    State.g_p_other s d d _ _ _ wakeStatus_ok.1.2 wakeStatus_ok.2.1 hs (.inr hds)
  unfold wakeStepOn
  dsimp only
  rw [hslot, if_neg (Nat.ne_of_lt h)]

theorem wakeStepOn_doneSteps (hs : Canonical s) (hc : code < 9) :
    (wakeStepOn code s d).g d R.CFG_WAKE_STATUS.DONE_STEPS = s.g d R.CFG_WAKE_STATUS.DONE_STEPS ||| 2 ^ code := by
  obtain ⟨-, -, hsd, -, had, -⟩ := wakeStatus_apart
  obtain ⟨hdone, hslot, hact⟩ := wakeStatus_ok
  have hold : s.g d R.CFG_WAKE_STATUS.DONE_STEPS < 2 ^ 9 := Nat.mod_lt _ (Nat.two_pow_pos _)
  have hfits : s.g d R.CFG_WAKE_STATUS.DONE_STEPS ||| 2 ^ code < 2 ^ 9 :=
    Nat.or_lt_two_pow hold (Nat.pow_lt_pow_right (by decide) hc)
  have hset : (s.setBit d R.CFG_WAKE_STATUS.DONE_STEPS code).g d R.CFG_WAKE_STATUS.DONE_STEPS =
      s.g d R.CFG_WAKE_STATUS.DONE_STEPS ||| 2 ^ code :=
    (State.g_p_same s d _ _ hdone.1 hs).trans (Nat.mod_eq_of_lt hfits)
  have hs' : Canonical (s.setBit d R.CFG_WAKE_STATUS.DONE_STEPS code) := State.p_wf s _ _ _ hs
  unfold wakeStepOn
  dsimp only
  split
  · rw [State.g_p_other _ d d _ _ _ hact.2 hdone hs' (.inr had), hset]
  · rw [State.g_p_other _ d d _ _ _ hslot.2 hdone hs' (.inr hsd), hset]

theorem wakeStepOn_ends (hs : Canonical s) (h : s.g d R.CFG_WAKE_STATUS.SLOT = 7) :
    (wakeStepOn code s d).g d R.CFG_WAKE_STATUS.ACTIVE = 0 ∧ (wakeStepOn code s d).g d R.CFG_WAKE_STATUS.SLOT = 7 := by
  obtain ⟨hds, -, -, -, -, has⟩ := wakeStatus_apart
  obtain ⟨hdone, hslot, hact⟩ := wakeStatus_ok
  have hs' : Canonical (s.setBit d R.CFG_WAKE_STATUS.DONE_STEPS code) := State.p_wf s _ _ _ hs
  rw [wakeStepOn_last hs h, State.g_p_same _ d _ _ hact.1 hs', State.g_p_other _ d d _ _ _ hact.2 hslot hs' (.inr has)]
  exact ⟨rfl, (State.g_p_other s d d _ _ _ hdone.2 hslot hs (.inr hds)).trans h⟩

theorem wakeStepOn_goesOn (hs : Canonical s) (h : s.g d R.CFG_WAKE_STATUS.SLOT < 7) :
    (wakeStepOn code s d).g d R.CFG_WAKE_STATUS.SLOT = s.g d R.CFG_WAKE_STATUS.SLOT + 1 ∧
      (wakeStepOn code s d).g d R.CFG_WAKE_STATUS.ACTIVE = s.g d R.CFG_WAKE_STATUS.ACTIVE := by
  obtain ⟨-, hda, -, hsa, -⟩ := wakeStatus_apart
  obtain ⟨hdone, hslot, hact⟩ := wakeStatus_ok
  have hs' : Canonical (s.setBit d R.CFG_WAKE_STATUS.DONE_STEPS code) := State.p_wf s _ _ _ hs
  have hfits : s.g d R.CFG_WAKE_STATUS.SLOT + 1 < 2 ^ 3 := by omega
  rw [wakeStepOn_next hs h, State.g_p_same _ d _ _ hslot.1 hs', State.g_p_other _ d d _ _ _ hslot.2 hact hs' (.inr hsa)]
  exact ⟨Nat.mod_eq_of_lt hfits, State.g_p_other s d d _ _ _ hdone.2 hact hs (.inr hda)⟩

theorem wakeStep_writes : Writes (fun k => ∃ d, k = cellKey d R.CFG_WAKE_STATUS.SLOT.off) s (wakeStep s code) :=
  .foldl (fun _ x _ => wakeStepOn_writes.mono (fun _ hk => ⟨x, hk⟩)) (.refl s)

/-- What a step of the sequence leaves on a die is what the step on that die leaves, from a state that shows the same there. -/
theorem wakeStep_at (hs : Canonical s) (hd : d ∈ s.dies) :
    ∃ t, Canonical t ∧ (∀ f : Fld, f.off < 2 ^ 24 → t.g d f = s.g d f ∧ (wakeStep s code).g d f = (wakeStepOn code t d).g d f) := by
  obtain ⟨t, ht, hst, hlast⟩ := State.each_at (f := wakeStepOn code) (d := d)
    (fun _ x => wakeStepOn_writes.mono (fun _ hk => hk ▸ cellKey_die (d := x) (by decide)))
    (fun _ _ => wakeStepOn_canonical) s.nodup_dies hd hs
  rw [wakeStep_eq]
  exact ⟨t, ht, fun f hf => ⟨hst.g_die hf, hlast.g_die hf⟩⟩

/-- A step leaves one cell of each die changed at most: that of CFG_WAKE_STATUS. -/
theorem wakeStep_cell {k : Nat} (hk : k ≠ cellKey d R.CFG_WAKE_STATUS.SLOT.off) (hd : k / 2 ^ 21 = d) :
    (wakeStep s code).cell k = s.cell k := by
  refine wakeStep_writes.cells k ?_
  rintro ⟨x, rfl⟩
  rw [cellKey_die (by decide)] at hd
  exact hk (hd ▸ rfl)

/-- What a completed step leaves (R74). -/
theorem wakeStep_leaves (hs : Canonical s) (hc : code < 9) (hd : d ∈ s.dies) :
    (wakeStep s code).g d R.CFG_WAKE_STATUS.DONE_STEPS = s.g d R.CFG_WAKE_STATUS.DONE_STEPS ||| 2 ^ code ∧
    (s.g d R.CFG_WAKE_STATUS.SLOT = 7 → (wakeStep s code).g d R.CFG_WAKE_STATUS.ACTIVE = 0 ∧
      (wakeStep s code).g d R.CFG_WAKE_STATUS.SLOT = 7) ∧
    (s.g d R.CFG_WAKE_STATUS.SLOT < 7 → (wakeStep s code).g d R.CFG_WAKE_STATUS.SLOT = s.g d R.CFG_WAKE_STATUS.SLOT + 1 ∧
      (wakeStep s code).g d R.CFG_WAKE_STATUS.ACTIVE = s.g d R.CFG_WAKE_STATUS.ACTIVE) := by
  obtain ⟨hdone, hslot, hact⟩ := wakeStatus_ok
  obtain ⟨t, ht, hat⟩ := wakeStep_at (code := code) hs hd
  obtain ⟨hdone, hdone'⟩ := hat _ hdone.2
  obtain ⟨hslot, hslot'⟩ := hat _ hslot.2
  obtain ⟨hact, hact'⟩ := hat _ hact.2
  rw [hdone', hslot', hact', ← hdone, ← hslot, ← hact]
  exact ⟨wakeStepOn_doneSteps ht hc, wakeStepOn_ends ht, wakeStepOn_goesOn ht⟩

end

/-- Settles O15: each step's command takes the branch that its hypotheses select, and what a completed step leaves is found die by die. -/
theorem wakeStepsComplete : Obligations.WakeStepsComplete := by
  refine ⟨fun s => ⟨?_, ?_, ?_, ?_, ?_, ?_, ?_, ?_, ?_, ?_, ?_⟩, fun s code hs hc => ⟨wakeStep_writes.onlyRegs, fun d hd => ?_⟩⟩
  · intro h hlocked
    exact congrArg _ (if_pos (by rw [h, hlocked]; rfl))
  · intro h hlocked
    exact congrArg _ (if_pos (by rw [h, hlocked]; rfl))
  · intro h
    exact congrArg _ (if_pos h)
  · intro h
    exact congrArg _ (if_pos h)
  · intro h
    exact congrArg _ (if_pos h)
  · intro h htrained
    exact congrArg _ (if_pos (by rw [h, htrained]; rfl))
  · intro h htraining
    exact congrArg _ (if_pos (by rw [h, htraining]; rfl))
  · intro h
    exact congrArg _ (if_pos h)
  · intro h
    exact congrArg _ (if_pos h)
  · intro h
    exact congrArg _ (if_pos h)
  · intro h
    exact congrArg _ (if_pos h)
  · obtain ⟨hdone, hend, hnext⟩ := wakeStep_leaves hs hc hd
    exact ⟨hdone, hend, hnext, fun k hk hdie => wakeStep_cell hk hdie⟩

/-! ## What a die's pins, edges and fuses show (R29 to R31, R299, R333, R336) -/

section
variable {s : State} {d : Nat}

theorem lanePins_writes : Writes (dieCells d 0x030000) s (lanePins s d) := by
  refine .foldl (fun t q hq => ?_) (.foldl (fun t n hn => ?_) (.foldl (fun t k hk => ?_) (.refl s)))
  · have hlt := List.mem_range.mp hq
    exact .p (dieCells_cellKey (by simp only [R.LAN_QPLLA.FRAC]; omega))
      (.p (dieCells_cellKey (by simp only [R.LAN_QPLLA.INT]; omega)) (.refl t))
  · have hlt := List.mem_range.mp hn
    exact .p (dieCells_cellKey (by simp only [R.LAN_STATUS.STATE]; omega)) (.refl t)
  · have hlt := List.mem_range.mp hk
    exact .p (dieCells_cellKey (by simp only [R.LAN_PAIR.ACTIVE]; omega))
      (.p (dieCells_cellKey (by simp only [R.LAN_PAIR.BYPASS]; omega)) (.refl t))

theorem edgesTrain_writes : Writes (dieCells d 0x030000) s (edgesTrain s d) := by
  refine .foldl (fun t e he => .ite (.p ?_ (.refl t)) (.refl t)) (.refl s)
  have hlt := List.mem_range.mp he
  exact dieCells_cellKey (by simp only [R.BDL_STATUS.STATE]; omega)

theorem showRepair_writes : Writes (dieCells d 0x030000) s (showRepair s d) := by
  refine .foldl (fun t b hb => .p ?_ (.refl t)) (.refl s)
  have hlt := List.mem_range.mp hb
  exact dieCells_cellKey (by simp only [R.BNK_REPAIR.USED]; omega)

theorem showIdent_writes : Writes (dieCells d 0x030000) s (showIdent s d) := by
  refine .trans ?_ showRepair_writes
  refine .p (dieCells_cellKey (by decide)) <| .p (dieCells_cellKey (by decide)) <|
    .p (dieCells_cellKey (by decide)) <| .p (dieCells_cellKey (by decide)) <|
    .p (dieCells_cellKey (by decide)) <|
    .foldl (fun t c hc => .p ?_ (.refl t)) (.foldl (fun t p hp => .p ?_ (.refl t)) (.refl s))
  · have hlt := List.mem_range.mp hc
    exact dieCells_cellKey (by simp only [R.APC_BOOT.ADDR]; omega)
  · have hlt := List.mem_range.mp hp
    exact dieCells_cellKey (by simp only [R.FAB_NOCP_STATUS.RID]; omega)

theorem dieShow_writes : Writes (dieCells d 0x030000) s (dieShow s d) :=
  lanePins_writes.trans (edgesTrain_writes.trans showIdent_writes)

theorem showGrade_writes : Writes (dieCells d 0x030000) s (showGrade s d) :=
  .p (dieCells_cellKey (by decide)) <| .p (dieCells_cellKey (by decide)) <|
    .p (dieCells_cellKey (by decide)) (.refl s)

theorem blankLanes_writes : Writes (cellsFrom 0x030000) s (blankLanes s) :=
  .foldl (fun _ _ _ => lanePins_writes.mono (fun _ hk => hk.2)) (.refl s)

theorem noteFuseFail_writes : Writes (cellsFrom 0x030000) s (noteFuseFail s) :=
  .ite (.p (cellsFrom_cellKey (by decide)) (.p (cellsFrom_cellKey (by decide)) (.refl s))) (.refl s)

theorem startAcquire_writes : Writes (dieCells d 0x010000) s (startAcquire s d) :=
  .ite (.p (dieCells_cellKey (by decide)) (.refl s)) (.refl s)

theorem rootStart_writes : Writes (dieCells d 0x010000) s (rootStart s d) :=
  .ite (.p (dieCells_cellKey (by decide)) (.refl s)) (.refl s)

end

/-! ## Power-on release (R56, R66) -/

/-- Of `o`, state `s` keeps what power-on release goes by: the device, the boot state, Vault, and the registers of the SYS block. -/
structure SysKept (o s : State) : Prop where
  dev : s.dev = o.dev
  boot : s.boot = o.boot
  vault : s.sec.vault = o.sec.vault
  cells : ∀ d off, off < 0x010000 → s.cell (cellKey d off) = o.cell (cellKey d off)

section
variable {o s t : State}

theorem SysKept.refl (s : State) : SysKept s s := ⟨rfl, rfl, rfl, fun _ _ _ => rfl⟩

theorem SysKept.writes (hw : Writes (cellsFrom 0x010000) s t) (h : SysKept o s) : SysKept o t :=
  ⟨hw.dev.trans h.dev, hw.boot.trans h.boot, (congrArg SecSt.vault hw.sec).trans h.vault, fun d off hoff =>
    (hw.cells _ (not_cellsFrom_cellKey (by omega) (by omega))).trans (h.cells d off hoff)⟩

theorem SysKept.setSec {x : SecSt} (hx : x.vault = s.sec.vault) (h : SysKept o s) : SysKept o (s.setSec x) :=
  ⟨h.dev, h.boot, hx.trans h.vault, h.cells⟩

theorem SysKept.killAtPowerOn (h : SysKept o s) : SysKept o (killAtPowerOn s) := by
  unfold Machine.killAtPowerOn
  split
  · exact .setSec rfl h
  · exact h

theorem SysKept.bbCheck (h : SysKept o s) : SysKept o (bbCheck s) := by
  unfold Machine.bbCheck
  split
  · have hlost : SysKept o (s.setSec { s.sec with bb0 := .zero, bb1 := .zero, lostTold := true }) := .setSec rfl h
    dsimp only
    split
    · exact hlost
    · exact ⟨hlost.dev, hlost.boot, hlost.vault, hlost.cells⟩
  · exact h

end

/-- What power-on release does before HOUSEKEEP begins: the fuses and pins show, and the roots begin to acquire. -/
def porShown (straps : Straps) (s : State) : State :=
  let s := { s with boot := { s.boot with inReset := none, straps := straps } }
  let s := s.setSec { s.sec with vault := false, lostTold := false }
  let s := s.onDies (fun s d =>
    let s := showGrade (dieShow s d) d
    if d = s.head then s else (s.p d R.CLK_REF_CTRL.SEL 4).p d R.CLK_REF_STATUS.CUR 4)
  (noteFuseFail (bbCheck (killAtPowerOn (blankLanes s)))).onDies startAcquire

section
variable {s : State} {st : Straps} {d : Nat}

theorem porShown_sysKept : SysKept
    ({ s with boot := { s.boot with inReset := none, straps := st } }.setSec { s.sec with vault := false, lostTold := false })
    (porShown st s) := by
  refine .writes (.foldl (fun t d _ => startAcquire_writes.onDie) (.refl _)) <| .writes noteFuseFail_writes.lower <|
    .bbCheck <| .killAtPowerOn <| .writes blankLanes_writes.lower <| .writes (.foldl (fun t d _ => ?_) (.refl _)) (.refl _)
  have hshow : Writes (cellsFrom 0x010000) t (showGrade (dieShow t d) d) := (dieShow_writes.trans showGrade_writes).onDie
  exact .ite hshow (.p (cellsFrom_cellKey (by decide)) (.p (cellsFrom_cellKey (by decide)) hshow))

theorem porShown_kept : Kept s (porShown st s) :=
  .onDies (fun _ _ => .startAcquire) <| .noteFuseFail <| .bbCheck <| .killAtPowerOn <| .blankLanes <|
    .onDies (fun _ _ h => .unless (fun h' => .p (.p h')) (.showGrade (.dieShow h))) (.setSec (.withBoot (.refl s)))

theorem sysBoot_fields : R.SYS_BOOT_STATUS.PHASE.ok ∧ R.SYS_BOOT_STATUS.PROG_N_PIN.ok ∧ R.SYS_BOOT_STATUS.DONE_PIN.ok ∧
    R.SYS_BOOT_STATUS.PHASE.apart R.SYS_BOOT_STATUS.PROG_N_PIN ∧ R.SYS_BOOT_STATUS.PHASE.apart R.SYS_BOOT_STATUS.DONE_PIN := by
  unfold Fld.ok Fld.apart
  decide

theorem setPhase_g {f : Fld} {v : Nat} (hs : Canonical s) (hf : f.ok) (ha : R.SYS_BOOT_STATUS.PHASE.apart f) :
    (s.setPhase v).g d f = s.g d f := State.pAll_other _ _ _ _ _ sysBoot_fields.1.2 hf ha hs

theorem setPhase_phase {v : Nat} (hs : Canonical s) (hd : d ∈ s.dies) (hv : v < 2 ^ 4) :
    (s.setPhase v).g d R.SYS_BOOT_STATUS.PHASE = v :=
  (State.pAll_at _ _ _ _ sysBoot_fields.1 hs hd).trans (Nat.mod_eq_of_lt hv)

/-- While PROG_N is high, power-on release ends with HOUSEKEEP and no pin reset (R56, R66). -/
theorem exec_porRelease_high (hr : s.boot.inReset = some .power) (hs : Canonical s)
    (hpin : s.on s.head R.SYS_BOOT_STATUS.PROG_N_PIN = true) :
    exec (.porRelease st) s = .next ((porShown st s).setPhase Phase.housekeep) := by
  obtain ⟨-, hprog, -, hapart, -⟩ := sysBoot_fields
  have hhead : ((porShown st s).setPhase Phase.housekeep).head = s.head :=
    State.head_of_dev ((State.pAll_dev _ _ _).trans porShown_sysKept.dev)
  have hsame : ((porShown st s).setPhase Phase.housekeep).g s.head R.SYS_BOOT_STATUS.PROG_N_PIN =
      s.g s.head R.SYS_BOOT_STATUS.PROG_N_PIN :=
    (setPhase_g (porShown_kept.cells hs) hprog hapart).trans (State.g_congr (porShown_sysKept.cells s.head _ (by decide)))
  have hhigh : ((porShown st s).setPhase Phase.housekeep).on ((porShown st s).setPhase Phase.housekeep).head
      R.SYS_BOOT_STATUS.PROG_N_PIN = true := by
    unfold State.on at hpin ⊢
    rw [hhead, hsame]
    exact hpin
  exact congrArg _ ((if_pos hr).trans (if_pos hhigh))

/-- What power-on release leaves while PROG_N is high. -/
theorem porRelease_leaves (hr : s.boot.inReset = some .power) (hs : Canonical s)
    (hpin : s.on s.head R.SYS_BOOT_STATUS.PROG_N_PIN = true) :
    ∃ t, exec (.porRelease st) s = .next t ∧ t.boot.inReset = none ∧ t.boot.straps = st ∧ t.sec.vault = false ∧
      ∀ d ∈ s.dies, t.g d R.SYS_BOOT_STATUS.PHASE = Phase.housekeep := by
  have hk := porShown_sysKept (s := s) (st := st)
  have hboot : ((porShown st s).setPhase Phase.housekeep).boot = _ := (State.pAll_boot _ _ _).trans hk.boot
  have hsec : ((porShown st s).setPhase Phase.housekeep).sec = _ := State.pAll_sec _ _ _
  refine ⟨_, exec_porRelease_high hr hs hpin, ?_, ?_, ?_, fun d hd => ?_⟩
  · rw [hboot]
    rfl
  · rw [hboot]
    rfl
  · rw [hsec, hk.vault]
    rfl
  · exact setPhase_phase (porShown_kept.cells hs) (State.dies_of_dev hk.dev ▸ hd) (by decide)

end

/-! ## Power, brown-out, PROG_N and causes during a reset (R56 to R58, R62, R65, R72) -/

section
variable {s : State}

/-- A low PROG_N is a pin reset, except in Lockdown (R72). -/
theorem exec_progNLow_resets (h : s.boot.lockdown = false) :
    exec .progNLow s = .next (raiseReset (s.pAll R.SYS_BOOT_STATUS.PROG_N_PIN 0) .reconfig 6 s.head 0) := by
  have hlock : ¬ (s.pAll R.SYS_BOOT_STATUS.PROG_N_PIN 0).boot.lockdown = true := by simp [h]
  rw [← State.head_of_dev (s.pAll_dev R.SYS_BOOT_STATUS.PROG_N_PIN 0)]
  exact congrArg _ (if_neg hlock)

theorem exec_progNLow_lockdown (h : s.boot.lockdown = true) :
    exec .progNLow s = .next (s.pAll R.SYS_BOOT_STATUS.PROG_N_PIN 0) := by
  have hlock : (s.pAll R.SYS_BOOT_STATUS.PROG_N_PIN 0).boot.lockdown = true := by simp [h]
  exact congrArg _ (if_pos hlock)

theorem exec_progNRise_ends (h : s.boot.inReset = some .reconfig) :
    exec .progNRise s = .next { s.pAll R.SYS_BOOT_STATUS.PROG_N_PIN 1 with boot := { s.boot with inReset := none } } := by
  have hreset : (s.pAll R.SYS_BOOT_STATUS.PROG_N_PIN 1).boot.inReset = some .reconfig := by simp [h]
  rw [← s.pAll_boot R.SYS_BOOT_STATUS.PROG_N_PIN 1]
  exact congrArg _ (if_pos hreset)

end

section
variable {s : State} {sc r : Scope} {cause origin detail : Nat}

/-- A cause during a reset takes over if it is wider (R62). -/
theorem raiseReset_during (h : s.boot.inReset = some r) : raiseReset s sc cause origin detail =
    if sc.rank < r.rank then fullReset s sc cause origin detail else s := by
  unfold raiseReset
  rw [h]

theorem raiseReset_first (h : s.boot.inReset = none) : raiseReset s sc cause origin detail = fullReset s sc cause origin detail := by
  unfold raiseReset
  rw [h]

end

/-- Settles O12: each event takes the branch that its hypotheses select, and a cause is judged by the reset that is in progress. -/
theorem resetEventsComplete : Obligations.ResetEventsComplete := by
  refine ⟨fun s => ⟨rfl, ?_, ?_, ?_, ?_, ?_, ?_, ?_⟩, fun s sc r cause origin detail => ⟨?_, ?_, ?_⟩⟩
  · intro rail hrail
    exact congrArg _ (if_neg hrail)
  · intro die rail hrail hp
    exact congrArg _ (if_neg (by rw [hp]; simp [hrail]))
  · exact exec_progNLow_resets
  · exact exec_progNLow_lockdown
  · rintro u rfl h
    exact exec_progNRise_ends h
  · intro st hr hs hpin
    exact porRelease_leaves hr hs hpin
  · intro die hb
    exact congrArg _ (if_neg hb)
  · intro h hle
    exact (raiseReset_during h).trans (if_neg (Nat.not_lt.mpr hle))
  · intro h hlt
    exact (raiseReset_during h).trans (if_pos hlt)
  · intro h
    exact raiseReset_first h

/-! ## What a reset of RECONFIG scope or wider leaves (R59, R60, R64, R66) -/

/-- State `s` also has the boot state of `o`: no store, memory or register that a reset clears is part of it. -/
structure BootKept (o s : State) : Prop extends Kept o s where
  boot : s.boot = o.boot

section
variable {o s t : State} {d : Nat} {sc : Scope} {α : Type}

theorem BootKept.refl (s : State) : BootKept s s := ⟨.refl s, rfl⟩

/-- A state that differs in other fields only. -/
theorem BootKept.congr (h : BootKept o s) (hk : Kept o t) (hb : t.boot = s.boot := by rfl) : BootKept o t := ⟨hk, hb.trans h.boot⟩

/-- A state with the cells that a reset leaves of those of `s`. -/
theorem BootKept.ofResetRegs (h : BootKept o s) (hd : t.dev = s.dev := by rfl) (hq : t.pending = s.pending := by rfl)
    (hr : t.rf = (resetRegs s sc).rf := by rfl) (hb : t.boot = s.boot := by rfl) : BootKept o t :=
  .congr h (.ofResetRegs h.toKept hd hq hr) hb

theorem BootKept.ite {c : Prop} [Decidable c] (ht : BootKept o s) (hu : BootKept o t) : BootKept o (if c then s else t) := by
  split
  · exact ht
  · exact hu

/-- A state that goes on from `s` only if a condition holds. -/
theorem BootKept.when {c : Prop} [Decidable c] (ht : BootKept o s → BootKept o t) (h : BootKept o s) :
    BootKept o (if c then t else s) := .ite (ht h) h

theorem BootKept.unless {c : Prop} [Decidable c] (ht : BootKept o s → BootKept o t) (h : BootKept o s) :
    BootKept o (if c then s else t) := .ite h (ht h)

theorem BootKept.foldl {f : State → α → State} {l : List α} (hf : ∀ t x, BootKept o t → BootKept o (f t x)) (h : BootKept o s) :
    BootKept o (l.foldl f s) := by
  induction l generalizing s with
  | nil => exact h
  | cons x l ih => exact ih (hf s x h)

theorem BootKept.resetBanks (h : BootKept o s) : BootKept o (resetBanks s d) :=
  .foldl (fun _ _ h => .ite (.congr h (.zeroBank h.toKept)) (.congr h (.loseBank h.toKept))) h

theorem BootKept.resetDram (h : BootKept o s) : BootKept o (resetDram s sc d) :=
  .foldl (fun _ _ h => .ite (.congr h (.setTrainCopy (.setDsub (.setDsub h.toKept))))
    (.congr h (.setMee (.setTrainCopy (.loseDram (.setDsub (.setDsub h.toKept))))))) h

theorem BootKept.loseFlash {a n : Nat} (h : BootKept o s) : BootKept o (s.loseFlash a n) :=
  .foldl (fun _ _ h => .congr h (.withCfg h.toKept)) (.congr h (.withFresh h.toKept))

theorem BootKept.setFlashBytes {a : Nat} {l : List Byte} (h : BootKept o s) : BootKept o (s.setFlashBytes a l) :=
  .foldl (fun _ _ h => .congr h (.setFlashByte h.toKept)) h

theorem BootKept.free {w : Nat} (h : BootKept o s) : BootKept o (s.free w).2 := .congr h (.free h.toKept)

theorem BootKept.cutTrial (h : BootKept o s) : BootKept o s.cutTrial := by
  unfold State.cutTrial
  split
  · exact h
  · exact .setFlashBytes (.free (w := 96) h)

theorem BootKept.secAbort (h : BootKept o s) : BootKept o (secAbort s) := by
  refine .congr h (.secAbort h.toKept) ?_
  unfold Machine.secAbort
  split
  · rfl
  · rfl

theorem BootKept.setFlash {x : FlashSt} (h : BootKept o s) : BootKept o (s.setFlash x) := .congr h (.setFlash h.toKept)

theorem BootKept.nvcAbort (h : BootKept o s) : BootKept o (nvcAbort s) :=
  .setFlash (.ite (.loseFlash h) (.ite (.loseFlash h) h))

theorem BootKept.blankLanes (h : BootKept o s) : BootKept o (blankLanes s) :=
  .congr h (.blankLanes h.toKept) blankLanes_writes.boot

end

/-! ### A die after a reset -/

/-- What die `d` shows after a reset, where PROG_N stood at `prog` and the readbacks of the dies `rbRan` were cut short. -/
def dieAfterReset (sc : Scope) (prog : Nat) (rbRan : List Nat) (s : State) (d : Nat) : State :=
  let s := if sc = Scope.power then s else dieShow s d
  let s := ((s.p d R.SYS_BOOT_STATUS.PROG_N_PIN prog).p d R.SYS_BOOT_STATUS.DONE_PIN 0).p d R.SYS_BOOT_STATUS.INIT_N_PIN 0
  let s := (((s.p d R.PWR_STATUS.STATE 0).p d R.PWR_STATUS.PHASE 0).p d R.PWR_STATUS.PEND 0).p d R.SYS_WDT_CTRL.EN 0
  let s := s.p d R.CFG_WARM_STATUS.BUILDING 0
  let s := if sc = Scope.reconfig then rootStart s d
    else if d = s.head then s else (s.p d R.CLK_REF_CTRL.SEL 4).p d R.CLK_REF_STATUS.CUR 4
  if rbRan.contains d then (s.p d R.CFG_RB_STATUS.RESULT 5).p d R.CFG_RB_STATUS.DONE 1 else s

section
variable {o s t : State} {d prog : Nat} {sc : Scope} {rbRan : List Nat}

theorem dieAfterReset_writes : Writes (fun k => k / 2 ^ 21 = d) s (dieAfterReset sc prog rbRan s d) := by
  have hp : ∀ {t : State} {f : Fld} {v : Nat}, Writes (fun k => k / 2 ^ 21 = d) s t → f.off < 2 ^ 24 →
      Writes (fun k => k / 2 ^ 21 = d) s (t.p d f v) := fun h hf => .p (cellKey_die hf) h
  have hshow : Writes (fun k => k / 2 ^ 21 = d) s (if sc = Scope.power then s else dieShow s d) :=
    .ite (.refl s) (dieShow_writes.mono (fun _ hk => hk.1))
  refine .when (fun h => hp (hp h (by decide)) (by decide)) <|
    .both (fun h => h.trans (rootStart_writes.mono (fun _ hk => hk.1))) (fun h => .ite h (hp (hp h (by decide)) (by decide))) ?_
  exact hp (hp (hp (hp (hp (hp (hp (hp hshow (by decide)) (by decide)) (by decide)) (by decide)) (by decide)) (by decide)) (by decide))
    (by decide)

theorem Kept.dieAfterReset (h : Kept o s) : Kept o (dieAfterReset sc prog rbRan s d) :=
  .when (fun h => .p (.p h)) <| .both .rootStart (fun h => .ite h (.p (.p h))) <|
    .p (.p (.p (.p (.p (.p (.p (.p (.ite h (.dieShow h)))))))))

end

/-- In state `s`, which comes from `o` by a reset, die `d` shows DONE low and RUN. -/
structure ResetShown (o : State) (d : Nat) (s : State) : Prop extends BootKept o s where
  canonical : Canonical s
  done : s.g d R.SYS_BOOT_STATUS.DONE_PIN = 0
  ladder : s.g d R.PWR_STATUS.STATE = Ladder.run

theorem resetShown_fields : R.SYS_BOOT_STATUS.DONE_PIN.ok ∧ R.PWR_STATUS.STATE.ok := by
  unfold Fld.ok
  decide

section
variable {o s t u : State} {d prog : Nat} {sc : Scope} {rbRan : List Nat}

/-- A write of another field. -/
theorem ResetShown.p {x v : Nat} {f : Fld} (h : ResetShown o d s) (hf : f.off < 2 ^ 24 := by decide)
    (hd : f.apart R.SYS_BOOT_STATUS.DONE_PIN := by unfold Fld.apart; decide)
    (hl : f.apart R.PWR_STATUS.STATE := by unfold Fld.apart; decide) : ResetShown o d (s.p x f v) :=
  ⟨⟨.p h.toKept, (State.p_boot s x f v).trans h.boot⟩, State.p_wf s x f v h.canonical,
    (State.g_p_other s x d f _ v hf resetShown_fields.1 h.canonical (.inr hd)).trans h.done,
    (State.g_p_other s x d f _ v hf resetShown_fields.2 h.canonical (.inr hl)).trans h.ladder⟩

theorem ResetShown.when {c : Prop} [Decidable c] (ht : ResetShown o d s → ResetShown o d t) (h : ResetShown o d s) :
    ResetShown o d (if c then t else s) := by
  split
  · exact ht h
  · exact h

theorem ResetShown.unless {c : Prop} [Decidable c] (ht : ResetShown o d s → ResetShown o d t) (h : ResetShown o d s) :
    ResetShown o d (if c then s else t) := by
  split
  · exact h
  · exact ht h

theorem ResetShown.both {c : Prop} [Decidable c] (ht : ResetShown o d s → ResetShown o d t) (hu : ResetShown o d s → ResetShown o d u)
    (h : ResetShown o d s) : ResetShown o d (if c then t else u) := by
  split
  · exact ht h
  · exact hu h

theorem ResetShown.noteFuseFail (h : ResetShown o d s) : ResetShown o d (noteFuseFail s) := .when (fun h => h.p.p) h

theorem ResetShown.rootStart {x : Nat} (h : ResetShown o d s) : ResetShown o d (rootStart s x) := .when (fun h => h.p) h

/-- The writes of the two fields, each with one of the other fields of its cell. -/
theorem resetShown_of_writes {prog : Nat} (hb : BootKept o u) (hu : Canonical u) : ResetShown o d
    ((((u.p d R.SYS_BOOT_STATUS.PROG_N_PIN prog).p d R.SYS_BOOT_STATUS.DONE_PIN 0).p d R.SYS_BOOT_STATUS.INIT_N_PIN 0).p d
      R.PWR_STATUS.STATE 0) := by
  obtain ⟨hdone, hladder⟩ := resetShown_fields
  have h1 : Canonical (u.p d R.SYS_BOOT_STATUS.PROG_N_PIN prog) := State.p_wf _ _ _ _ hu
  have h2 : Canonical ((u.p d R.SYS_BOOT_STATUS.PROG_N_PIN prog).p d R.SYS_BOOT_STATUS.DONE_PIN 0) := State.p_wf _ _ _ _ h1
  have h3 : Canonical (((u.p d R.SYS_BOOT_STATUS.PROG_N_PIN prog).p d R.SYS_BOOT_STATUS.DONE_PIN 0).p d
      R.SYS_BOOT_STATUS.INIT_N_PIN 0) := State.p_wf _ _ _ _ h2
  refine ⟨⟨.p (.p (.p (.p hb.toKept))), ?_⟩, State.p_wf _ _ _ _ h3, ?_, ?_⟩
  · simp only [State.p_boot, hb.boot]
  · rw [State.g_p_other _ d d _ _ _ hladder.2 hdone h3 (.inr (.inl (by decide))),
      State.g_p_other _ d d _ _ _ (by decide) hdone h2 (.inr (.inr (.inl (by decide)))), State.g_p_same _ _ _ _ hdone.1 h1]
    rfl
  · rw [State.g_p_same _ _ _ _ hladder.1 h3]
    rfl

theorem dieAfterReset_shown (hs : Canonical s) : ResetShown s d (dieAfterReset sc prog rbRan s d) := by
  have hk : Kept s (if sc = Scope.power then s else dieShow s d) := .unless .dieShow (.refl s)
  have hshow : BootKept s (if sc = Scope.power then s else dieShow s d) :=
    ⟨hk, (Writes.ite (.refl s) dieShow_writes).boot⟩
  exact .when (fun h => h.p.p) <| .both .rootStart (fun h => .unless (fun h => h.p.p) h) <| .p <| .p <| .p <| .p <|
    resetShown_of_writes hshow (hk.cells hs)

/-- A pass over the dies shows it on each of them. -/
theorem ResetShown.onDies (ho : Canonical o) (hdo : d ∈ o.dies) (h : BootKept o s) :
    ResetShown o d (s.onDies (dieAfterReset sc prog rbRan)) := by
  have hs : Canonical s := h.cells ho
  have hd : d ∈ s.dies := State.dies_of_dev h.dev ▸ hdo
  obtain ⟨t, ht, hst, hlast⟩ := State.each_at (f := dieAfterReset sc prog rbRan) (fun _ _ => dieAfterReset_writes)
    (fun t _ => (Kept.dieAfterReset (.refl t)).cells) s.nodup_dies hd hs
  have hat : ResetShown t d (dieAfterReset sc prog rbRan t d) := dieAfterReset_shown ht
  have hk : Kept o (s.onDies (dieAfterReset sc prog rbRan)) := .onDies (fun _ _ => .dieAfterReset) h.toKept
  have hcanon : Canonical (s.onDies (dieAfterReset sc prog rbRan)) :=
    (Kept.onDies (fun _ _ => .dieAfterReset) (.refl s)).cells hs
  refine ⟨⟨hk, ?_⟩, hcanon, ?_, ?_⟩
  · exact hlast.boot.trans (hat.boot.trans (hst.boot.trans h.boot))
  · exact hlast.g_die.trans hat.done
  · exact hlast.g_die.trans hat.ladder

theorem ResetShown.clearDevice (hs : Canonical s) (hd : d ∈ s.dies) : ResetShown s d (clearDevice s sc) :=
  .both (fun h => h.p.p.p) (fun h => h.p.p) <| .when .noteFuseFail <| .when (fun h => h.p.p) <| .onDies hs hd <|
    .when (fun h => .congr h (.congr h.toKept)) <| .unless .blankLanes <| .unless (fun h => .congr h (.withClk h.toKept)) <|
    .ofResetRegs (.nvcAbort (.secAbort (.when .cutTrial (.foldl (fun _ _ h => .resetDram (.resetBanks h)) (.refl s)))))

end

/-! ### The cause and the phase -/

/-- Die `d` records a reset's cause. -/
def recordCause (cause origin detail : Nat) (s : State) (d : Nat) : State :=
  ((s.p d R.SYS_RST_CAUSE.CAUSE cause).p d R.SYS_RST_CAUSE.ORIGIN origin).p d R.SYS_RST_CAUSE.DETAIL detail

section
variable {o s t : State} {sc : Scope} {d cause origin detail : Nat}

theorem recordCause_writes : Writes (fun k => k = cellKey d R.SYS_RST_CAUSE.CAUSE.off) s (recordCause cause origin detail s d) :=
  .p rfl (.p rfl (.p rfl (.refl s)))

theorem recordCause_canonical (hs : Canonical s) : Canonical (recordCause cause origin detail s d) :=
  State.p_wf _ _ _ _ (State.p_wf _ _ _ _ (State.p_wf _ _ _ _ hs))

theorem rstCause_fields : R.SYS_RST_CAUSE.CAUSE.ok ∧ R.SYS_RST_CAUSE.ORIGIN.ok ∧ R.SYS_RST_CAUSE.DETAIL.ok ∧
    R.SYS_RST_CAUSE.ORIGIN.apart R.SYS_RST_CAUSE.CAUSE ∧ R.SYS_RST_CAUSE.DETAIL.apart R.SYS_RST_CAUSE.CAUSE ∧
    R.SYS_RST_CAUSE.DETAIL.apart R.SYS_RST_CAUSE.ORIGIN := by
  unfold Fld.ok Fld.apart
  decide

theorem recordCause_shows (hs : Canonical s) (hc : cause < 16) (ho : origin < 8) :
    (recordCause cause origin detail s d).g d R.SYS_RST_CAUSE.CAUSE = cause ∧
      (recordCause cause origin detail s d).g d R.SYS_RST_CAUSE.ORIGIN = origin := by
  obtain ⟨hcause, horigin, hdetail, hoc, hdc, hdo⟩ := rstCause_fields
  have h1 : Canonical (s.p d R.SYS_RST_CAUSE.CAUSE cause) := State.p_wf _ _ _ _ hs
  have h2 : Canonical ((s.p d R.SYS_RST_CAUSE.CAUSE cause).p d R.SYS_RST_CAUSE.ORIGIN origin) := State.p_wf _ _ _ _ h1
  unfold recordCause
  rw [State.g_p_other _ d d _ _ _ hdetail.2 hcause h2 (.inr hdc), State.g_p_other _ d d _ _ _ horigin.2 hcause h1 (.inr hoc),
    State.g_p_same _ _ _ _ hcause.1 hs, State.g_p_other _ d d _ _ _ hdetail.2 horigin h2 (.inr hdo),
    State.g_p_same _ _ _ _ horigin.1 h1]
  exact ⟨Nat.mod_eq_of_lt hc, Nat.mod_eq_of_lt ho⟩

theorem onDies_recordCause_writes : Writes (fun k => ∃ d, k = cellKey d R.SYS_RST_CAUSE.CAUSE.off) s
    (s.onDies (recordCause cause origin detail)) :=
  .foldl (fun _ x _ => recordCause_writes.mono (fun _ hk => ⟨x, hk⟩)) (.refl s)

/-- Every die of the device records the cause with its origin (R59). -/
theorem onDies_recordCause_shows (hs : Canonical s) (hd : d ∈ s.dies) (hc : cause < 16) (ho : origin < 8) :
    (s.onDies (recordCause cause origin detail)).g d R.SYS_RST_CAUSE.CAUSE = cause ∧
      (s.onDies (recordCause cause origin detail)).g d R.SYS_RST_CAUSE.ORIGIN = origin := by
  obtain ⟨t, ht, -, hlast⟩ := State.each_at (f := recordCause cause origin detail)
    (fun _ x => recordCause_writes.mono (fun _ hk => hk ▸ cellKey_die (d := x) (by decide)))
    (fun _ _ => recordCause_canonical) s.nodup_dies hd hs
  obtain ⟨hcause, horigin⟩ := recordCause_shows (detail := detail) (d := d) ht hc ho
  exact ⟨hlast.g_die.trans hcause, hlast.g_die.trans horigin⟩

theorem readStraps_lockdown : (readStraps s).boot.lockdown = s.boot.lockdown := by
  unfold readStraps
  split
  · rfl
  · rfl

/-- The state that a reset of a scope clears: the straps are read again unless power is lost (R30). -/
def strapsRead (s : State) (sc : Scope) : State := if sc = Scope.power then s else readStraps s

theorem strapsRead_kept : Kept s (strapsRead s sc) := .unless .readStraps (.refl s)

theorem strapsRead_lockdown : (strapsRead s sc).boot.lockdown = s.boot.lockdown := by
  unfold strapsRead
  split
  · rfl
  · exact readStraps_lockdown

/-- The end of a reset outside Lockdown: the phase where start-up resumes. -/
theorem setPhase_unlocked (h : s.boot.lockdown = false) :
    (let t := if s.boot.lockdown then s.p s.head R.SEC_LC.LOCKDOWN 1 else s
    t.setPhase (if sc = Scope.power then Phase.por else if t.boot.lockdown then Phase.lockdown else Phase.housekeep)) =
      s.setPhase (if sc = Scope.power then Phase.por else Phase.housekeep) := by
  simp [h]

/-- Outside Lockdown a reset clears the device, records its cause and leaves the phase where start-up resumes. -/
theorem fullReset_unlocked {c : State} (hc : clearDevice (strapsRead s sc) sc = c) (hl : c.boot.lockdown = false) :
    ∃ t : State, t.rf = (c.onDies (recordCause cause origin detail)).rf ∧ t.dev = c.dev ∧
      fullReset s sc cause origin detail = t.setPhase (if sc = Scope.power then Phase.por else Phase.housekeep) := by
  subst hc
  have hw : Writes _ _ ((clearDevice (strapsRead s sc) sc).onDies (recordCause cause origin detail)) := onDies_recordCause_writes
  have hlock := (congrArg BootSt.lockdown hw.boot).trans hl
  refine ⟨_, ?_, ?_, setPhase_unlocked (congrArg (· && sc != Scope.power) hlock)⟩
  · rfl
  · exact hw.dev

/-- The record of the cause leaves every register alone whose cell is not that of SYS_RST_CAUSE. -/
theorem onDies_recordCause_g {f : Fld} (hf : f.off < 2 ^ 24) (hne : f.off / 8 ≠ R.SYS_RST_CAUSE.CAUSE.off / 8) :
    (s.onDies (recordCause cause origin detail)).g d f = s.g d f :=
  onDies_recordCause_writes.g_eq (by rintro ⟨x, hx⟩; exact cellKey_ne d x _ _ hf (by decide) (.inr hne) hx)

/-- What a reset of RECONFIG scope or wider leaves on a die, outside Lockdown (R59, R60, R64, R66). -/
theorem fullReset_leaves (hs : Canonical s) (hc : cause < 16) (ho : origin < 8) (hl : s.boot.lockdown = false) (hd : d ∈ s.dies) :
    (fullReset s sc cause origin detail).g d R.SYS_RST_CAUSE.CAUSE = cause ∧
      (fullReset s sc cause origin detail).g d R.SYS_RST_CAUSE.ORIGIN = origin ∧
      (fullReset s sc cause origin detail).g d R.SYS_BOOT_STATUS.PHASE = (if sc = .power then Phase.por else Phase.housekeep) ∧
      (fullReset s sc cause origin detail).g d R.SYS_BOOT_STATUS.DONE_PIN = 0 ∧
      (fullReset s sc cause origin detail).g d R.PWR_STATUS.STATE = Ladder.run := by
  obtain ⟨-, -, hdone, -, hpd⟩ := sysBoot_fields
  obtain ⟨hcause, horigin, -⟩ := rstCause_fields
  have hk : Kept s (strapsRead s sc) := strapsRead_kept
  have hdies : d ∈ (strapsRead s sc).dies := State.dies_of_dev hk.dev ▸ hd
  obtain ⟨c, hclearEq⟩ : ∃ c, clearDevice (strapsRead s sc) sc = c := ⟨_, rfl⟩
  have hclear : ResetShown (strapsRead s sc) d c := hclearEq ▸ .clearDevice (hk.cells hs) hdies
  obtain ⟨t, hrf, hdev, hreset⟩ := fullReset_unlocked (cause := cause) (origin := origin) (detail := detail) hclearEq
    ((congrArg BootSt.lockdown hclear.boot).trans (strapsRead_lockdown.trans hl))
  have hdies' : d ∈ c.dies := State.dies_of_dev hclear.dev ▸ hdies
  have ht : Canonical t := by
    unfold Canonical
    rw [hrf]
    exact State.onDies_keeps Canonical _ (fun _ _ => recordCause_canonical) c hclear.canonical
  have hg : ∀ f : Fld, t.g d f = (c.onDies (recordCause cause origin detail)).g d f := fun f =>
    State.g_congr (congrArg (fun m => SMap.get cellRst m (cellKey d f.off)) hrf)
  obtain ⟨hshowsCause, hshowsOrigin⟩ := onDies_recordCause_shows (detail := detail) hclear.canonical hdies' hc ho
  rw [hreset]
  refine ⟨?_, ?_, ?_, ?_, ?_⟩
  · rw [setPhase_g ht hcause (.inl (by decide)), hg, hshowsCause]
  · rw [setPhase_g ht horigin (.inl (by decide)), hg, hshowsOrigin]
  · exact setPhase_phase ht (State.dies_of_dev hdev ▸ hdies') (by split <;> decide)
  · rw [setPhase_g ht hdone hpd, hg, onDies_recordCause_g (by decide) (by decide), hclear.done]
  · rw [setPhase_g ht resetShown_fields.2 (.inl (by decide)), hg, onDies_recordCause_g (by decide) (by decide), hclear.ladder]

end

/-- Settles O13: the dies show it when the stores are cleared, and neither the record of the cause nor the phase touches it. -/
theorem fullResetLeaves : Obligations.FullResetLeaves := by
  intro s sc cause origin detail hs _ hc ho _ hl d hd
  exact fullReset_leaves hs hc ho hl hd

end Sys2Proof.Machine
end

/-! # Rules that the proofs of the configuration share -/

section
set_option Elab.async false
namespace Sys2Proof.Machine

section
variable {s t u : State} {m : Master} {d v : Nat} {r : RegRef}

/-- A 32-bit write that the register's family refuses is an access fault of the core that made it. -/
theorem put32_refused (h : Reaches s m d r) (hr : Writable r)
    (hw : writeFamily s (mkWr s m d r (v % 2 ^ 32) (2 ^ 32 - 1)) = t.ans .accessError) :
    put32 s m d r.off v = (t.ans .accessError).coreTrap m .storeFault (d * 0x1000000 + r.off) := by
  obtain ⟨hi, hw', hc, ha, hl⟩ := hr
  rw [put32_reaches s m d v r h hi hw' hc ha (by omega), hw, coreSees_refused]

@[simp] theorem State.head_p (f : Fld) : (s.p d f v).head = s.head := State.head_of_dev (s.p_dev d f v)
@[simp] theorem State.head_setReg : (s.setReg d r v).head = s.head := State.head_p _

theorem Writes.cfg {K : Nat → Prop} {o s : State} (h : Writes K o s) : s.cfg = o.cfg := by rw [h.rest]

theorem State.runSlot_congr (hd : u.dev = s.dev)
    (hc : u.cell (cellKey s.head R.CFG_BOOT_STATUS.RUN_SLOT.off) = s.cell (cellKey s.head R.CFG_BOOT_STATUS.RUN_SLOT.off)) :
    u.runSlot = s.runSlot := by
  unfold State.runSlot
  rw [State.head_of_dev hd, State.g_congr hc]

/-- A trap changes nothing of the configuration. -/
@[simp] theorem State.coreTrap_cfg (s : State) (m : Master) (t : Trap) (addr : Nat) : (s.coreTrap m t addr).cfg = s.cfg := by
  unfold State.coreTrap
  split
  · split
    · unfold takeTrap
      dsimp only
      split <;> simp [State.free]
    · rfl
  · rfl

end

end Sys2Proof.Machine
end

/-! # The image header's checks (R88) -/

section
set_option Elab.async false
namespace Sys2Proof.Machine

section
variable {s : State} {h : List Byte}

/-- The length and the hash are checked first, and no later check has their code. -/
theorem hdrCheck_eq_hdrHash_iff :
    hdrCheck s h = Lerr.hdrHash ↔ h.length ≠ 4096 ∨ Config.sha384 (h.take 0xFD0) ≠ Hdr.hash h := by
  unfold hdrCheck
  split
  · next hbad => exact iff_of_true rfl hbad
  · next hgood => exact iff_of_false (by dsimp only; split_ifs <;> decide) hgood

/-- The form is checked next. -/
theorem hdrCheck_badMagic (hmagic : leAt h 0 4 ≠ 0x54595850) : hdrCheck s h = Lerr.hdrHash ∨ hdrCheck s h = Lerr.hdrFormat := by
  unfold hdrCheck
  split
  · exact .inl rfl
  · exact .inr (if_pos (.inl hmagic))

/-- The checks of R88 that a header has met whose code is NONE. -/
structure HdrMeets (s : State) (h : List Byte) : Prop where
  part : leAt h 8 2 = s.dev.part.code
  stepping : leAt h 0x0A 2 ≤ s.dev.stepping.code
  key : pkhChecked s = true → Hdr.pkIndex h ≤ 3 ∧ s.sec.fuses.pkUsable (Hdr.pkIndex h) = true ∧
    Config.sha384 (Hdr.pubKey h) = (s.sec.fuses.pk (Hdr.pkIndex h)).hash
  signature : Config.ecdsaOk (Hdr.pubKey h) (Config.sha384 (h.take 0x200)) (Hdr.sig h) = true
  svn : s.sec.fuses.svn ≤ Hdr.svn h

/-- A check whose code is not the answer has been met. -/
theorem check_met {c : Prop} [Decidable c] {code rest e : Nat} (h : (if c then code else rest) = e) (hcode : code ≠ e := by decide) :
    ¬ c ∧ rest = e := by
  by_cases hc : c
  · exact absurd ((if_pos hc).symm.trans h) hcode
  · exact ⟨hc, (if_neg hc).symm.trans h⟩

theorem hdrMeets_of_hdrCheck (hnone : hdrCheck s h = Lerr.none) : HdrMeets s h := by
  unfold hdrCheck at hnone
  obtain ⟨-, hnone⟩ := check_met hnone
  obtain ⟨-, hnone⟩ := check_met hnone
  obtain ⟨hpart, hnone⟩ := check_met hnone
  obtain ⟨hstep, hnone⟩ := check_met hnone
  obtain ⟨hkey, hnone⟩ := check_met hnone
  obtain ⟨hsig, hnone⟩ := check_met hnone
  obtain ⟨hsvn, -⟩ := check_met hnone
  exact ⟨not_not.mp hpart, Nat.le_of_not_lt hstep, fun hc => not_not.mp (not_and.mp hkey hc), by simpa using hsig,
    Nat.le_of_not_lt hsvn⟩

/-- Every check but that of the SVN has another code. -/
theorem hdrCheck_ne_svn (hle : s.sec.fuses.svn ≤ Hdr.svn h) : hdrCheck s h ≠ Lerr.svn := by
  unfold hdrCheck
  dsimp only
  rw [if_neg (Nat.not_lt_of_le hle)]
  split_ifs <;> decide

end

/-- Settles O23: a header that breaks a check of `HdrMeets` has not met them all. -/
theorem headerChecksInOrder : Obligations.HeaderChecksInOrder := by
  intro s h
  refine ⟨hdrCheck_eq_hdrHash_iff, hdrCheck_badMagic, fun hbad hnone => ?_, hdrCheck_ne_svn⟩
  obtain ⟨hpart, hstep, hkey, hsig, hsvn⟩ := hdrMeets_of_hdrCheck hnone
  obtain hb | hb | hb | hb | ⟨hc, hb⟩ := hbad
  · exact absurd hsvn (Nat.not_le_of_lt hb)
  · exact hb hpart
  · exact absurd hstep (Nat.not_le_of_lt hb)
  · exact absurd hsig (by simp [hb])
  · obtain ⟨hindex, husable, hhash⟩ := hkey hc
    obtain hb | hb | hb := hb
    · exact absurd hindex (Nat.not_le_of_lt hb)
    · exact absurd husable (by simp [hb])
    · exact hb hhash

end Sys2Proof.Machine
end

/-! # Reading an image: its header and its segments (R86 to R88) -/

section
set_option Elab.async false
namespace Sys2Proof.Machine

section
variable {s u v t : State} {names : BitVec 8} {h l a : List Byte} {n : Nat}

/-- A header that has been read is judged by `hdrCheck`. -/
theorem execImageHeader_read (hp : passing s = true) (hdone : s.cfg.parse.hdrDone = false) (hw : srcWaits s 0 4096 = false)
    (hready : srcReady (touchNamed s names) = true)
    (hread : srcRead (bbCheck (srcSuspends (touchNamed s names))) 0 4096 = (some h, u))
    (hv : v = if Hdr.keySrc h = 1 then noteFuseFail u else u) (hk : v.cfg.parse.kind ≠ .warmBuild) :
    execImageHeader s names = .next (if hdrCheck v h = Lerr.none then
      v.setParse { v.cfg.parse with hdrDone := true, hdr := h, pos := 4096, seg := 0, next := BitVec.ofNat 384 (beAt h 0x40 48)
                                    pk := if pkhChecked v then some (Hdr.pkIndex h) else none }
      else passFail v (hdrCheck v h) 0 none) := by
  have hbuild : ¬ (v.cfg.parse.kind = .warmBuild ∧ Hdr.hash h ≠ v.cfg.run.hdrHash) := fun hc => hk hc.1
  unfold execImageHeader
  dsimp only
  rw [if_neg (by simp [hp, hdone, hw]), if_neg (by simp [hready]), hread, Option.getD_some, ← hv, ite_not, if_neg hbuild]

/-- `n` bytes from the pass's place on go past the body or the source. -/
def segPast (s : State) (p : ParseSt) (n : Nat) : Bool :=
  decide (Hdr.bodyLen p.hdr < p.pos - 4096 + n) || (match srcRoom s with
    | some r => decide (r < p.pos + n)
    | none => false)

theorem segPast_within {p : ParseSt} (hbody : p.pos - 4096 + n ≤ Hdr.bodyLen p.hdr) (hroom : ∀ r, srcRoom s = some r → p.pos + n ≤ r) :
    segPast s p n = false := by
  unfold segPast
  cases hr : srcRoom s with
  | none => simp [hbody]
  | some r => simp [hbody, hroom r hr]

theorem execSegmentRead_beyond {k : Fin 4} (hwants : wantsSegment s = true) (hw : srcWaits s s.cfg.parse.pos 8 = false)
    (hseg : Hdr.segCount s.cfg.parse.hdr ≤ s.cfg.parse.seg) :
    execSegmentRead k s = .next (passFail s Lerr.length s.cfg.parse.seg none) :=
  congrArg _ ((if_neg (by simp [hwants, hw])).trans (if_pos (.inl hseg)))

/-- A segment that lies within the image and its source is taken, if its last reading was not disturbed. -/
theorem execSegmentRead_whole {k : Fin 4} (hwants : wantsSegment s = true) (hw : srcWaits s s.cfg.parse.pos 8 = false)
    (hseg : s.cfg.parse.seg < Hdr.segCount s.cfg.parse.hdr) (hpast : segPast s s.cfg.parse 8 = false)
    (hhead : srcRead (srcSuspends s) s.cfg.parse.pos 8 = (some a, u)) (h8 : leAt a 0 4 % 8 = 0) (hmin : 8 ≤ leAt a 0 4)
    (hmax : leAt a 0 4 ≤ 65536) (hn : n = 56 + leAt a 0 4 + (if Hdr.enc s.cfg.parse.hdr then 16 else 0))
    (hpast' : segPast u s.cfg.parse n = false) (hw' : srcWaits u s.cfg.parse.pos n = false)
    (hread : srcRead u s.cfg.parse.pos n = (some l, t)) :
    execSegmentRead k s = .next (if k = 3 then passFail t Lerr.chain s.cfg.parse.seg none
      else takeSegment (bbCheck t) l (leAt a 0 4) n) := by
  subst hn
  have hplace : ¬ (Hdr.segCount s.cfg.parse.hdr ≤ s.cfg.parse.seg ∨ segPast s s.cfg.parse 8 = true) := by
    simp [hseg, hpast]
  have hlen : ¬ (leAt a 0 4 % 8 ≠ 0 ∨ leAt a 0 4 < 8 ∨ 65536 < leAt a 0 4 ∨
      segPast u s.cfg.parse (56 + leAt a 0 4 + (if Hdr.enc s.cfg.parse.hdr then 16 else 0)) = true) := by
    simp [h8, hmin, hmax, hpast']
  refine congrArg _ ((if_neg (by simp [hwants, hw])).trans ((if_neg hplace).trans ?_))
  rw [hhead]
  refine (if_neg hlen).trans ((if_neg (by simp [hw'])).trans ?_)
  rw [hread]

end

/-- Settles O22: the header's code decides, and a segment is judged by its place, its length and its last reading. -/
theorem imageReadingComplete : Obligations.ImageReadingComplete := by
  intro s hp
  refine ⟨?_, ?_⟩
  · intro names h u v hdone hw hready hread hv hk
    exact execImageHeader_read hp hdone hw hready hread hv hk
  · rintro h rfl hwants hw
    refine ⟨?_, ?_⟩
    · intro hseg k
      exact execSegmentRead_beyond hwants hw hseg
    · intro a u l t n hseg hbody hroom hroom' hhead h8 hmin hmax hn hbody' hw' hread
      have hwhole := fun k => execSegmentRead_whole (k := k) hwants hw hseg (segPast_within hbody hroom) hhead h8 hmin hmax hn
        (segPast_within hbody' hroom') hw' hread
      refine ⟨hwhole 3, fun k hk => (hwhole k).trans (congrArg _ (if_neg ?_))⟩
      rintro rfl
      exact absurd hk (by decide)

end Sys2Proof.Machine
end

/-! # Records of the stream, and how a load writes a frame (R90 to R94) -/

section
set_option Elab.async false
namespace Sys2Proof.Machine

section
variable {s u : State} {wrong : Option FrameWrong} {b : List Byte} {d fa : Nat} {ws : List DWord}

/-! ## The records whose meaning judges more than that they can be used -/

/-- COPY of frames that the pass has written, to a range apart from theirs. -/
theorem execCopy_apart (hb : s.cfg.parse.buf = b) (h : recIs s Rec.copy = true)
    (hrange : leAt b 12 4 + Rec.count b ≤ frameCount)
    (hapart : Rec.addr b + Rec.count b ≤ leAt b 12 4 ∨ leAt b 12 4 + Rec.count b ≤ Rec.addr b)
    (hwritten : findFrame (maskDies s (Rec.mask b)) (leAt b 12 4) (Rec.count b) (fun d fa => !wasWritten s d fa) = none) :
    execCopy s wrong = .next (recDone (putAll s ((List.range (Rec.count b)).flatMap (fun i => (maskDies s (Rec.mask b)).map (fun d =>
      (d, Rec.addr b + i, fun s => match copySource s d (leAt b 12 4 + i) with
        | (some ws, s) => putFrame wrong s d (Rec.addr b + i) ws
        | (none, s) => (PutRes.net, s)))))) (b.drop 16)) := by
  subst hb
  have hgood : ¬ (frameCount < leAt s.cfg.parse.buf 12 4 + Rec.count s.cfg.parse.buf ∨
      (leAt s.cfg.parse.buf 12 4 < Rec.addr s.cfg.parse.buf + Rec.count s.cfg.parse.buf ∧
        Rec.addr s.cfg.parse.buf < leAt s.cfg.parse.buf 12 4 + Rec.count s.cfg.parse.buf)) := by omega
  unfold execCopy
  dsimp only
  rw [if_pos h, if_neg hgood, hwritten] <;> rfl

/-- A full load's WAKE is kept for END (R91). -/
theorem execWake_full (hb : s.cfg.parse.buf = b) (h : recIs s Rec.wake = true) (hk : s.cfg.parse.kind = .full) :
    execWake s = .next (recTake (s.setParse { s.cfg.parse with wake := some (leAt b 12 4, leAt b 16 4) }) (b.drop 20)) := by
  subst hb
  have hnot : ¬ s.cfg.parse.kind = .warmBuild := by rw [hk]; decide
  unfold execWake
  dsimp only
  rw [if_pos h, if_neg hnot]

/-- The pairs of a full load's REG record are written on the die that it names (R92). -/
theorem execReg_one (hb : s.cfg.parse.buf = b) (h : recIs s Rec.reg = true) (hk : s.cfg.parse.kind = .full)
    (hdie : maskDies s (Rec.mask b) = [d]) (hput : putRegs s d (regPairs b) = (none, u)) :
    execReg s = .next (recTake u (b.drop (12 + 8 * Rec.count b))) := by
  subst hb
  unfold execReg
  dsimp only
  rw [if_pos h, if_pos hk, hdie, List.foldl_cons, List.foldl_nil]
  dsimp only
  rw [hput]
  rfl

theorem execOptionalRecord_ready (hb : s.cfg.parse.buf = b) (ho : Rec.optional (Rec.type b) = true) (h : recIs s (Rec.type b) = true) :
    execOptionalRecord s = .next (recTake s (recRest b (min (Rec.count b) ((Rec.pay b).length / 4 * 4)) 0
      (min (Rec.count b) ((Rec.pay b).length / 4 * 4)))) := by
  subst hb
  exact congrArg _ (if_pos (Bool.and_eq_true_iff.mpr ⟨h, ho⟩))

/-- END with nothing wrong and nothing after it ends the pass (R91). -/
theorem execEndRecord_good {design : List (Nat × DieDesign)} (hb : s.cfg.parse.buf = b) (h : recIs s Rec.end_ = true)
    (herr : endErr s design = none) (hpay : Rec.pay b = []) : execEndRecord design s =
      .next (passDone (s.setParse { s.cfg.parse with buf := [], ended := true, design := design })) := by
  subst hb
  unfold execEndRecord
  rw [if_pos h, herr]
  dsimp only
  rw [hpay, List.any_nil, if_neg Bool.false_ne_true]

/-! ## A frame of a full load (R94) -/

/-- Of the state, only configuration memory differs. -/
def OnlyFrames (o t : State) : Prop := t = { o with cfg := { o.cfg with frames := t.cfg.frames } }

theorem setFrame_onlyFrames : OnlyFrames s (s.setFrame d fa ws) := by
  unfold State.setFrame
  refine List.foldlRecOn _ _ (motive := OnlyFrames s) rfl fun t ht x _ => ?_
  exact congrArg (fun u => { u with cfg := { u.cfg with frames := (t.setFrameWord d fa x.2 x.1).cfg.frames } }) ht

/-- What a frame's check reads stands as it did before the frame was written. -/
theorem markWritten_setFrame_keeps : (markWritten (s.setFrame d fa ws) d fa).dynMark d fa = s.dynMark d fa ∧
    (markWritten (s.setFrame d fa ws) d fa).sig d fa = s.sig d fa ∧
    (markWritten (s.setFrame d fa ws) d fa).cfg.parse.kind = s.cfg.parse.kind := by
  have hrest : s.setFrame d fa ws = _ := setFrame_onlyFrames
  rw [hrest]
  exact ⟨rfl, rfl, rfl⟩

theorem refreshWrite_full {f : State → Resp × State} (hk : s.cfg.parse.kind = .full) : refreshWrite s d f = s :=
  if_neg (by rw [hk]; rintro ⟨h, -⟩; exact absurd h (by decide))

/-- Where a reading back comes back wrong twice. -/
def readsWrong (wrong : Option FrameWrong) (d fa : Nat) : Bool :=
  wrong.any (fun x => x.die.val == d && x.fa.val == fa && x.twice)

/-- A full load writes a frame that no capture owns once its signature has come or it is dynamic, and then checks it (R94). -/
theorem putFrame_full (hk : s.cfg.parse.kind = .full) (hc : isCaptureFrame fa = false) :
    putFrame wrong s d fa ws =
      if !s.dynMark d fa && !SMap.get (fun _ => false) s.cfg.parse.sigSeen (frameKey d fa) then (.bad Lerr.sigOrder, s)
      else if !s.dynMark d fa && (frameCrc ws != s.sig d fa || readsWrong wrong d fa) then
        (.bad Lerr.frameCheck, markWritten (s.setFrame d fa ws) d fa)
      else (.ok, markWritten (s.setFrame d fa ws) d fa) := by
  obtain ⟨hdyn, hsig, hkind⟩ := markWritten_setFrame_keeps (s := s) (d := d) (fa := fa) (ws := ws)
  have hbuild : ¬ builds s d = true := by simp [builds, hk]
  have hflash : ¬ s.cfg.parse.kind = .flashPass := by rw [hk]; decide
  have hload : ¬ (!loads s) = true := by simp [loads, hk]
  have hpartial : ¬ (s.cfg.parse.kind = .partialLoad ∧ partialMay s d fa = false) := by simp [hk]
  have htouch : touchDie s d = s := if_pos (.inl (by rw [hk]; decide))
  have hregion : regionLoads s d fa = s := if_pos (by rw [hk]; decide)
  have hrefresh := fun f => refreshWrite_full (s := markWritten (s.setFrame d fa ws) d fa) (d := d) (f := f) (hkind.trans hk)
  unfold putFrame readsWrong
  rw [if_neg hbuild, if_neg hflash, if_neg hload, if_neg hpartial, htouch]
  dsimp only
  rw [if_neg (by simp [hc]), hregion, hdyn, hsig, hrefresh]

theorem putFrame_unsigned (hk : s.cfg.parse.kind = .full) (hc : isCaptureFrame fa = false) (hdyn : s.dynMark d fa = false)
    (hseen : SMap.get (fun _ => false) s.cfg.parse.sigSeen (frameKey d fa) = false) :
    putFrame wrong s d fa ws = (.bad Lerr.sigOrder, s) :=
  (putFrame_full hk hc).trans (if_pos (by simp [hdyn, hseen]))

theorem putFrame_good (hk : s.cfg.parse.kind = .full) (hc : isCaptureFrame fa = false)
    (h : s.dynMark d fa = true ∨ (SMap.get (fun _ => false) s.cfg.parse.sigSeen (frameKey d fa) = true ∧ frameCrc ws = s.sig d fa ∧
      readsWrong wrong d fa = false)) :
    putFrame wrong s d fa ws = (.ok, markWritten (s.setFrame d fa ws) d fa) := by
  rw [putFrame_full hk hc]
  obtain hdyn | ⟨hseen, hcrc, hread⟩ := h
  · simp [hdyn]
  · simp [hseen, hcrc, hread]

theorem putFrame_failed (hk : s.cfg.parse.kind = .full) (hc : isCaptureFrame fa = false) (hdyn : s.dynMark d fa = false)
    (hseen : SMap.get (fun _ => false) s.cfg.parse.sigSeen (frameKey d fa) = true)
    (h : frameCrc ws ≠ s.sig d fa ∨ readsWrong wrong d fa = true) :
    putFrame wrong s d fa ws = (.bad Lerr.frameCheck, markWritten (s.setFrame d fa ws) d fa) := by
  rw [putFrame_full hk hc]
  obtain hcrc | hread := h
  · simp [hdyn, hseen, hcrc]
  · simp [hdyn, hseen, hread]

end

/-- Settles O21: a record that can be used takes the branch of its own command, and a frame is judged as `putFrame_full` says. -/
theorem recordsComplete : Obligations.RecordsComplete := by
  refine ⟨?_, ?_⟩
  · rintro s b wrong rfl
    refine ⟨⟨?_, ?_, ?_, ?_⟩, ?_, ?_, ?_, ?_, ?_, ?_⟩
    · rintro n h rfl
      exact congrArg _ (if_pos h)
    · rintro ws h rfl
      exact congrArg _ (if_pos h)
    · rintro n h rfl
      exact congrArg _ (if_pos h)
    · intro h _ hrange hapart hwritten
      exact execCopy_apart rfl h hrange hapart hwritten
    · rintro ws h rfl
      exact congrArg _ (if_pos h)
    · rintro n h rfl
      exact congrArg _ (if_pos h)
    · intro h hk
      exact execWake_full rfl h hk
    · intro d u h hk hdie hput
      exact execReg_one rfl h hk hdie hput
    · rintro n ho h rfl
      exact execOptionalRecord_ready rfl ho h
    · intro design h herr hpay
      exact execEndRecord_good rfl h herr hpay
  · rintro s d fa ws wrong twice hk hc - rfl
    exact ⟨putFrame_unsigned hk hc, putFrame_good hk hc, putFrame_failed hk hc⟩

end Sys2Proof.Machine
end

/-! # Configuration commands and confirmation (R88, R101, R104, R106, R203) -/

section
set_option Elab.async false
namespace Sys2Proof.Machine

theorem cfgCmd_writable : Writable ⟨.CFG_CMD, 0, 0⟩ := by constructor <;> decide
theorem cfgConfirm_writable : Writable ⟨.CFG_CONFIRM, 0, 0⟩ := by constructor <;> decide

/-- Only a partial load touches dies (R206). -/
theorem touchNamed_notPartial {s : State} {names : BitVec 8} (h : s.cfg.parse.kind ≠ .partialLoad) : touchNamed s names = s := by
  have hdie : ∀ d, touchDie s d = s := fun d => if_pos (.inl h)
  exact List.foldlRecOn _ _ (motive := (· = s)) rfl fun t ht d _ => by rw [ht, hdie]

/-! ## CFG_CMD (R104) -/

/-- The cells that the command port's own registers are in. -/
def cfgPort (k : Nat) : Prop := ∃ d, k = cellKey d R.CFG_CMD.OP.off ∨ k = cellKey d R.CFG_CMD_STATUS.BUSY.off

/-- What the command register and its status show once a command has been taken. -/
def cfgTaken (s : State) (w : Wr) : State :=
  (((s.setReg w.d w.r w.new).p w.d R.CFG_CMD.OWNER w.m.rid).p s.head R.CFG_CMD_STATUS.BUSY 1).p s.head R.CFG_CMD_STATUS.ERROR 0

/-- A command is the one that runs. -/
def cfgRuns (s : State) (op slot : Nat) : State := s.setCfg { s.cfg with cmd := some (op, slot) }

section
variable {s u : State} {w : Wr} {op slot n : Nat}

theorem cfgTaken_writes (hr : w.r = ⟨.CFG_CMD, 0, 0⟩) : Writes cfgPort s (cfgTaken s w) := by
  have hcmd : ∀ f : Fld, f.off = R.CFG_CMD.OP.off → cfgPort (cellKey w.d f.off) := fun f hf => ⟨w.d, .inl (by rw [hf])⟩
  have hreg : Writes cfgPort s (s.setReg w.d w.r w.new) := .p (hcmd _ (by rw [hr]; rfl)) (.refl s)
  exact .p ⟨s.head, .inr rfl⟩ (.p ⟨s.head, .inr rfl⟩ (.p (hcmd _ rfl) hreg))

theorem cfgPort_apart {d off : Nat} (hl : off < 2 ^ 24) (h : off / 8 ≠ R.CFG_CMD.OP.off / 8)
    (h' : off / 8 ≠ R.CFG_CMD_STATUS.BUSY.off / 8) : ¬ cfgPort (cellKey d off) := by
  rintro ⟨x, hx | hx⟩
  · exact cellKey_ne d x _ _ hl (by decide) (.inr h) hx
  · exact cellKey_ne d x _ _ hl (by decide) (.inr h') hx

/-- A command that the port takes runs, and starts its pass if the Parsers are free (R104). -/
theorem writeCfgCmd_taken (hop : R.CFG_CMD.OP.of w.raw = op) (hslot : R.CFG_CMD.SLOT.of w.new = slot) (h0 : op ≠ 0) (h4 : op ≤ 4)
    (h3 : slot ≠ 3) (hbusy : s.on s.head R.CFG_CMD_STATUS.BUSY = false)
    (hdone : op = CfgOp.loadMem → s.on s.head R.SYS_BOOT_STATUS.DONE_PIN = true) :
    writeCfgCmd s w = (startCmd (if op = CfgOp.warmBuild ∧ (cfgRuns (cfgTaken s w) op slot).runSlot.isSome
      then warmBuildMarks (cfgRuns (cfgTaken s w) op slot) else cfgRuns (cfgTaken s w) op slot)).ans .ok := by
  have hfree : ¬ (s.on s.head R.CFG_CMD_STATUS.BUSY = true ∨ slot = 3 ∨ op = 0 ∨ 4 < op) := by
    rw [hbusy]
    rintro (h | h | h | h)
    · exact absurd h (by decide)
    · exact h3 h
    · exact h0 h
    · omega
  have hpin : ¬ (op = CfgOp.loadMem ∧ (!s.on s.head R.SYS_BOOT_STATUS.DONE_PIN) = true) := by
    rintro ⟨h, h'⟩
    rw [hdone h] at h'
    exact absurd h' (by decide)
  unfold writeCfgCmd
  dsimp only
  rw [hop, hslot, if_neg hfree, if_neg hpin, State.head_p, State.head_setReg]
  rfl

/-- LOAD_MEM is refused before DONE (R203). -/
theorem writeCfgCmd_beforeDone (hop : R.CFG_CMD.OP.of w.raw = CfgOp.loadMem)
    (hdone : s.on s.head R.SYS_BOOT_STATUS.DONE_PIN = false) : writeCfgCmd s w = s.ans .accessError := by
  unfold writeCfgCmd
  dsimp only
  rw [hop, hdone]
  exact ite_eq_left_iff.mpr fun _ => rfl

/-! ### The pass that a command starts -/

theorem startCmd_verifySlot (hp : u.cfg.parse.kind = .idle) : startCmd (cfgRuns u CfgOp.verifySlot slot) = u.setCfg { u.cfg with
    cmd := some (CfgOp.verifySlot, slot), parse := { ParseSt.reset with kind := .verify, src := .slot slot } } :=
  (if_neg (not_not.mpr hp)).trans (if_pos rfl)

theorem startCmd_verifyMem (hp : u.cfg.parse.kind = .idle) : startCmd (cfgRuns u CfgOp.verifyMem slot) = u.setCfg { u.cfg with
    cmd := some (CfgOp.verifyMem, slot)
    parse := { ParseSt.reset with kind := .verify, src := .mem (u.g u.head R.CFG_CMD_ADDR.ADDR) } } :=
  (if_neg (not_not.mpr hp)).trans ((if_neg (by decide)).trans (if_pos rfl))

theorem startCmd_loadMem (hp : u.cfg.parse.kind = .idle) : startCmd (cfgRuns u CfgOp.loadMem slot) = (u.setCfg { u.cfg with
    cmd := some (CfgOp.loadMem, slot)
    parse := { ParseSt.reset with kind := .partialLoad, src := .mem (u.g u.head R.CFG_CMD_ADDR.ADDR) } }).onDies (fun v d =>
      ((v.p d R.CFG_LOAD_STATUS.BUSY 1).p d R.CFG_LOAD_STATUS.SOURCE 6).p d R.CFG_LOAD_STATUS.ERROR 0) :=
  (if_neg (not_not.mpr hp)).trans ((if_neg (by decide)).trans ((if_neg (by decide)).trans (if_pos rfl)))

theorem startCmd_warmBuild (hc : u.cfg.cmd = some (CfgOp.warmBuild, slot)) (hp : u.cfg.parse.kind = .idle) (hn : u.runSlot = some n) :
    startCmd u = u.setParse { ParseSt.reset with kind := .warmBuild, src := .slot n } := by
  unfold startCmd
  rw [hc]
  dsimp only
  rw [if_neg (not_not.mpr hp), if_neg (by decide), if_neg (by decide), if_neg (by decide), hn]

/-- What a build's marks leave as it was: the running command, the pass, and every cell but those of CFG_WARM_STATUS. -/
structure BuildMarked (o t : State) : Prop where
  dev : t.dev = o.dev
  cmd : t.cfg.cmd = o.cfg.cmd
  parse : t.cfg.parse = o.cfg.parse
  cells : ∀ k, (∀ d, k ≠ cellKey d R.CFG_WARM_STATUS.BUILDING.off) → t.cell k = o.cell k

theorem buildMarked_mark {d : Nat} (h : BuildMarked s u) : BuildMarked s ((warmClear u d).p d R.CFG_WARM_STATUS.BUILDING 1) := by
  obtain ⟨hdev, hcmd, hparse, hcells⟩ := h
  refine ⟨?_, ?_, ?_, fun k hk => ?_⟩
  · simpa [warmClear] using hdev
  · simpa [warmClear, State.setWarm] using hcmd
  · simpa [warmClear, State.setWarm] using hparse
  · have hvalid : k ≠ cellKey d R.CFG_WARM_STATUS.VALID.off := hk d
    unfold warmClear
    rw [State.cell_p_other _ _ _ _ _ (hk d), State.cell_p_other _ _ _ _ _ hvalid]
    exact hcells k hk

theorem warmBuildMarks_marked : BuildMarked s (warmBuildMarks s) :=
  State.each_keeps (BuildMarked s) _ (fun _ _ => buildMarked_mark) s.warmDies s ⟨rfl, rfl, rfl, fun _ _ => rfl⟩

theorem BuildMarked.runSlot (h : BuildMarked s u) : u.runSlot = s.runSlot :=
  State.runSlot_congr h.dev (h.cells _ fun d => cellKey_ne _ d _ _ (by decide) (by decide) (.inr (by decide)))

theorem runSlot_cfgTaken (hr : w.r = ⟨.CFG_CMD, 0, 0⟩) : (cfgTaken s w).runSlot = s.runSlot :=
  State.runSlot_congr (cfgTaken_writes hr).dev ((cfgTaken_writes hr).cells _ (cfgPort_apart (by decide) (by decide) (by decide)))

theorem addr_cfgTaken (hr : w.r = ⟨.CFG_CMD, 0, 0⟩) :
    (cfgTaken s w).g (cfgTaken s w).head R.CFG_CMD_ADDR.ADDR = s.g s.head R.CFG_CMD_ADDR.ADDR := by
  have hw : Writes cfgPort s (cfgTaken s w) := cfgTaken_writes hr
  rw [State.head_of_dev hw.dev]
  exact hw.g_eq (cfgPort_apart (by decide) (by decide) (by decide))

end

/-! ### The commands -/

section
variable {s : State} {m : Master} {op slot n : Nat} {l : List (Fld × Nat)}

/-- The write of CFG_CMD that a command makes. -/
def cfgWr (s : State) (m : Master) (l : List (Fld × Nat)) : Wr :=
  mkWr s m s.head ⟨.CFG_CMD, 0, 0⟩ (named s s.head ⟨.CFG_CMD, 0, 0⟩ l) (2 ^ 32 - 1)

theorem cfgWr_op (h16 : op < 16) : R.CFG_CMD.OP.of (cfgWr s m [(R.CFG_CMD.OP, op)]).raw = op := by
  refine (of_named _ (by decide)).trans ?_
  rw [List.foldl_cons, List.foldl_nil, of_over_same]
  exact Nat.mod_eq_of_lt h16

/-- A command that does not name the slot leaves it as it stands. -/
theorem cfgWr_slot (h : Reaches s m s.head ⟨.CFG_CMD, 0, 0⟩) :
    R.CFG_CMD.SLOT.of (cfgWr s m [(R.CFG_CMD.OP, op)]).new = s.g s.head R.CFG_CMD.SLOT := by
  unfold cfgWr mkWr
  dsimp only
  rw [merge_taken _ _ _ _ _ (by decide) (by decide), of_named _ (by decide)]
  simp (disch := decide) only [List.foldl, of_over_other]
  exact h.of_keptFields rfl (by decide) (by decide)

theorem cfgWr_verifySlot {slot : Fin 4} :
    R.CFG_CMD.OP.of (cfgWr s m [(R.CFG_CMD.OP, CfgOp.verifySlot), (R.CFG_CMD.SLOT, slot)]).raw = CfgOp.verifySlot ∧
      R.CFG_CMD.SLOT.of (cfgWr s m [(R.CFG_CMD.OP, CfgOp.verifySlot), (R.CFG_CMD.SLOT, slot)]).new = slot := by
  have hslot : slot.val % 4 = slot := Nat.mod_eq_of_lt slot.isLt
  unfold cfgWr mkWr
  dsimp only
  rw [merge_taken _ _ _ _ _ (by decide) (by decide), of_named _ (by decide), of_named _ (by decide)]
  simp (disch := decide) only [List.foldl, of_over_other, of_over_same]
  exact ⟨rfl, hslot⟩

theorem poke_cfgCmd {t : State} {x : Nat} (h : Reaches s m s.head ⟨.CFG_CMD, 0, 0⟩)
    (hw : writeCfgCmd s (cfgWr s m ((R.CFG_CMD.OP, x) :: l)) = t.ans .ok) :
    poke s m s.head ((R.CFG_CMD.OP, x) :: l) = t.ans .ok :=
  (poke_eq (r := ⟨.CFG_CMD, 0, 0⟩) rfl _ _).trans (put32_ok h cfgCmd_writable hw)

theorem exec_verifySlot {slot : Fin 4} (h : Reaches s m s.head ⟨.CFG_CMD, 0, 0⟩) (h3 : slot.val ≠ 3)
    (hbusy : s.on s.head R.CFG_CMD_STATUS.BUSY = false) (hp : s.cfg.parse.kind = .idle) {u : State}
    (hu : u = cfgTaken s (cfgWr s m [(R.CFG_CMD.OP, CfgOp.verifySlot), (R.CFG_CMD.SLOT, slot)])) :
    exec (.verifySlot m slot) s = .next ((u.setCfg { u.cfg with
      cmd := some (1, slot.val), parse := { ParseSt.reset with kind := .verify, src := .slot slot.val } }).ans .ok) := by
  obtain ⟨hop, hslot⟩ := cfgWr_verifySlot (s := s) (m := m) (slot := slot)
  have hwrite := writeCfgCmd_taken hop hslot (by decide) (by decide) h3 hbusy (fun e => absurd e (by decide))
  have hidle : u.cfg.parse.kind = .idle := by rw [hu, (cfgTaken_writes rfl).cfg, hp]
  rw [if_neg (by rintro ⟨e, -⟩; exact absurd e (by decide)), ← hu, startCmd_verifySlot hidle] at hwrite
  exact congrArg _ (poke_cfgCmd h hwrite)

theorem exec_verifyMem (h : Reaches s m s.head ⟨.CFG_CMD, 0, 0⟩) (h3 : s.g s.head R.CFG_CMD.SLOT ≠ 3)
    (hbusy : s.on s.head R.CFG_CMD_STATUS.BUSY = false) (hp : s.cfg.parse.kind = .idle) {u : State}
    (hu : u = cfgTaken s (cfgWr s m [(R.CFG_CMD.OP, CfgOp.verifyMem)])) :
    exec (.verifyMem m) s = .next ((u.setCfg { u.cfg with
      cmd := some (2, s.g s.head R.CFG_CMD.SLOT)
      parse := { ParseSt.reset with kind := .verify, src := .mem (s.g s.head R.CFG_CMD_ADDR.ADDR) } }).ans .ok) := by
  have hwrite := writeCfgCmd_taken (op := CfgOp.verifyMem) (cfgWr_op (s := s) (m := m) (by decide)) (cfgWr_slot h) (by decide)
    (by decide) h3 hbusy (fun e => absurd e (by decide))
  have hidle : u.cfg.parse.kind = .idle := by rw [hu, (cfgTaken_writes rfl).cfg, hp]
  have haddr : u.g u.head R.CFG_CMD_ADDR.ADDR = s.g s.head R.CFG_CMD_ADDR.ADDR := hu ▸ addr_cfgTaken rfl
  rw [if_neg (by rintro ⟨e, -⟩; exact absurd e (by decide)), ← hu, startCmd_verifyMem hidle, haddr] at hwrite
  exact congrArg _ (poke_cfgCmd h hwrite)

theorem exec_loadMem {names : BitVec 8} (h : Reaches s m s.head ⟨.CFG_CMD, 0, 0⟩) (h3 : s.g s.head R.CFG_CMD.SLOT ≠ 3)
    (hbusy : s.on s.head R.CFG_CMD_STATUS.BUSY = false) (hp : s.cfg.parse.kind = .idle)
    (hdone : s.on s.head R.SYS_BOOT_STATUS.DONE_PIN = true) {u : State} (hu : u = cfgTaken s (cfgWr s m [(R.CFG_CMD.OP, CfgOp.loadMem)])) :
    exec (.loadMem m names) s = .next (touchNamed (((u.setCfg { u.cfg with
      cmd := some (3, s.g s.head R.CFG_CMD.SLOT)
      parse := { ParseSt.reset with kind := .partialLoad, src := .mem (s.g s.head R.CFG_CMD_ADDR.ADDR) } }).onDies (fun v d =>
        ((v.p d R.CFG_LOAD_STATUS.BUSY 1).p d R.CFG_LOAD_STATUS.SOURCE 6).p d R.CFG_LOAD_STATUS.ERROR 0)).ans .ok) names) := by
  have hwrite := writeCfgCmd_taken (op := CfgOp.loadMem) (cfgWr_op (s := s) (m := m) (by decide)) (cfgWr_slot h) (by decide)
    (by decide) h3 hbusy (fun _ => hdone)
  have hidle : u.cfg.parse.kind = .idle := by rw [hu, (cfgTaken_writes rfl).cfg, hp]
  have haddr : u.g u.head R.CFG_CMD_ADDR.ADDR = s.g s.head R.CFG_CMD_ADDR.ADDR := hu ▸ addr_cfgTaken rfl
  rw [if_neg (by rintro ⟨e, -⟩; exact absurd e (by decide)), ← hu, startCmd_loadMem hidle, haddr] at hwrite
  exact congrArg _ ((if_pos hp).trans (congrArg (touchNamed · names) (poke_cfgCmd h hwrite)))

/-- The refusal of a LOAD_MEM ends there: touching dies is for a load that has started. -/
theorem exec_loadMem_beforeDone {names : BitVec 8} (h : Reaches s m s.head ⟨.CFG_CMD, 0, 0⟩) (hp : s.cfg.parse.kind = .idle)
    (hdone : s.on s.head R.SYS_BOOT_STATUS.DONE_PIN = false) :
    exec (.loadMem m names) s = .next ((s.ans .accessError).coreTrap m .storeFault
      (s.head * 0x1000000 + RegRef.off ⟨.CFG_CMD, 0, 0⟩)) := by
  have hwrite := writeCfgCmd_beforeDone (w := cfgWr s m [(R.CFG_CMD.OP, CfgOp.loadMem)]) (cfgWr_op (by decide)) hdone
  have hpoke : poke s m s.head [(R.CFG_CMD.OP, CfgOp.loadMem)] = _ :=
    (poke_eq (r := ⟨.CFG_CMD, 0, 0⟩) rfl _ _).trans (put32_refused h cfgCmd_writable hwrite)
  have hkind : ((s.ans .accessError).coreTrap m .storeFault (s.head * 0x1000000 + RegRef.off ⟨.CFG_CMD, 0, 0⟩)).cfg.parse.kind ≠
      .partialLoad := by
    rw [State.coreTrap_cfg]
    exact hp.symm ▸ (by decide)
  exact congrArg _ ((if_pos hp).trans ((congrArg (touchNamed · names) hpoke).trans (touchNamed_notPartial hkind)))

theorem exec_warmBuild (h : Reaches s m s.head ⟨.CFG_CMD, 0, 0⟩) (h3 : s.g s.head R.CFG_CMD.SLOT ≠ 3)
    (hbusy : s.on s.head R.CFG_CMD_STATUS.BUSY = false) (hp : s.cfg.parse.kind = .idle) (hn : s.runSlot = some n) {u : State}
    (hu : u = cfgTaken s (cfgWr s m [(R.CFG_CMD.OP, CfgOp.warmBuild)])) :
    exec (.warmBuild m) s = .next (((warmBuildMarks (cfgRuns u CfgOp.warmBuild (s.g s.head R.CFG_CMD.SLOT))).setParse
      { ParseSt.reset with kind := .warmBuild, src := .slot n }).ans .ok) := by
  have hwrite := writeCfgCmd_taken (op := CfgOp.warmBuild) (cfgWr_op (s := s) (m := m) (by decide)) (cfgWr_slot h) (by decide)
    (by decide) h3 hbusy (fun e => absurd e (by decide))
  have hidle : u.cfg.parse.kind = .idle := by rw [hu, (cfgTaken_writes rfl).cfg, hp]
  have hslot : (cfgRuns u CfgOp.warmBuild (s.g s.head R.CFG_CMD.SLOT)).runSlot = some n := by
    rw [← hn, ← runSlot_cfgTaken (s := s) (w := cfgWr s m [(R.CFG_CMD.OP, CfgOp.warmBuild)]) rfl, ← hu]
    rfl
  have hmarked : BuildMarked (cfgRuns u CfgOp.warmBuild (s.g s.head R.CFG_CMD.SLOT)) _ := warmBuildMarks_marked
  have hstart := startCmd_warmBuild (hmarked.cmd.trans rfl) ((congrArg ParseSt.kind hmarked.parse).trans hidle)
    (hmarked.runSlot.trans hslot)
  rw [← hu, if_pos ⟨rfl, Option.isSome_iff_exists.mpr ⟨n, hslot⟩⟩] at hwrite
  exact congrArg _ ((poke_cfgCmd h hwrite).trans (congrArg (State.ans · .ok) hstart))

end

/-! ## CFG_CONFIRM (R101) -/

section
variable {s t : State} {m : Master} {key : Nat}

theorem writeConfirm_wrong (hkey : key ≠ 0x5A3CC3A5) : writeConfirm s key = s.ans .accessError := if_pos hkey

theorem writeConfirm_busy (hbusy : s.on s.head R.CFG_BOOT_STATUS.CONF_BUSY = true) : writeConfirm s 0x5A3CC3A5 = s.ans .ok :=
  (if_neg (by decide)).trans (if_pos hbusy)

theorem writeConfirm_free (hbusy : s.on s.head R.CFG_BOOT_STATUS.CONF_BUSY = false) : writeConfirm s 0x5A3CC3A5 =
    if s.confirmable then
      if s.blankPage.isSome then (s.p s.head R.CFG_BOOT_STATUS.CONF_BUSY 1).ans .ok
      else (s.p s.head R.CFG_BOOT_STATUS.CONF 3).ans .ok
    else (s.p s.head R.CFG_BOOT_STATUS.CONF 0).ans .ok :=
  (if_neg (by decide)).trans (if_neg (by simp [hbusy]))

theorem exec_confirm_key (h : Reaches s m s.head ⟨.CFG_CONFIRM, 0, 0⟩) (hw : writeConfirm s 0x5A3CC3A5 = t.ans .ok) :
    exec (.confirm m 0x5A3CC3A5) s = .next (t.ans .ok) :=
  congrArg _ (put32_ok (v := (0x5A3CC3A5 : Word).toNat) h cfgConfirm_writable hw)

theorem exec_confirm_wrong {key : Word} (h : Reaches s m s.head ⟨.CFG_CONFIRM, 0, 0⟩) (hkey : key ≠ 0x5A3CC3A5) :
    exec (.confirm m key) s = .next ((s.ans .accessError).coreTrap m .storeFault
      (s.head * 0x1000000 + RegRef.off ⟨.CFG_CONFIRM, 0, 0⟩)) := by
  have hne : key.toNat % 2 ^ 32 ≠ 0x5A3CC3A5 := by
    rw [Nat.mod_eq_of_lt key.isLt]
    exact fun e => hkey (BitVec.eq_of_toNat_eq e)
  exact congrArg _ (put32_refused h cfgConfirm_writable (writeConfirm_wrong hne))

end

/-- Settles O20: each command is a write of its register, judged by the register's rule, and starts the pass of its operation. -/
theorem cfgCommandsComplete : Obligations.CfgCommandsComplete := by
  refine ⟨?_, ?_⟩
  · rintro s m r taken rfl h hbusy hp htaken
    refine ⟨?_, ?_, ?_, ?_, ?_⟩
    · intro slot u h3 hu
      exact exec_verifySlot h h3 hbusy hp (hu.trans (htaken _))
    · intro u h3 hu
      exact exec_verifyMem h h3 hbusy hp (hu.trans (htaken _))
    · intro names u h3 hdone hu
      exact exec_loadMem h h3 hbusy hp hdone (hu.trans (htaken _))
    · intro names hdone
      exact exec_loadMem_beforeDone h hp hdone
    · intro n u h3 hn hu
      exact exec_warmBuild h h3 hbusy hp hn (hu.trans (htaken _))
  · rintro s m r rfl h
    refine ⟨?_, ?_, ?_, ?_, ?_⟩
    · intro key hkey
      exact exec_confirm_wrong h hkey
    · intro hbusy
      exact exec_confirm_key h (writeConfirm_busy hbusy)
    · intro hbusy hconf hpage
      exact exec_confirm_key h ((writeConfirm_free hbusy).trans ((if_pos hconf).trans (if_pos hpage)))
    · intro hbusy hconf hpage
      exact exec_confirm_key h ((writeConfirm_free hbusy).trans ((if_pos hconf).trans (if_neg (by simp [hpage]))))
    · intro hbusy hconf
      exact exec_confirm_key h ((writeConfirm_free hbusy).trans (if_neg (by simp [hconf])))

end Sys2Proof.Machine
end

/-! # Ends of configuration operations, warm builds and warm loads (R101, R104, R106, R109, R206) -/

section
set_option Elab.async false
namespace Sys2Proof.Machine

section
variable {s t : State} {die : Die}

theorem execCfgCmdComplete_finished {c : Nat × Nat} (hc : s.cfg.cmd = some c) (hk : s.cfg.parse.kind = .finished) :
    execCfgCmdComplete s = .next (((((s.setCfg { s.cfg with cmd := none }).setParse .reset).p s.head R.CFG_CMD_STATUS.ERROR
      (s.cfg.parse.finErr.getD Lerr.none)).p s.head R.CFG_CMD_STATUS.BUSY 0).p s.head R.CFG_CMD_STATUS.DONE 1) := by
  unfold execCfgCmdComplete
  rw [hc, hk]
  rfl

/-! ## The CONFIRM entry (R101) -/

theorem execConfirmProgrammed_failed (hb : s.on s.head R.CFG_BOOT_STATUS.CONF_BUSY = true) :
    execConfirmProgrammed false s =
      .next (((s.p s.head R.CFG_BOOT_STATUS.CONF_BUSY 0).cutTrial).p s.head R.CFG_BOOT_STATUS.CONF 3) :=
  congrArg _ ((if_pos hb).trans (if_pos rfl))

theorem execConfirmProgrammed_entered {b : BootRec} (hb : s.on s.head R.CFG_BOOT_STATUS.CONF_BUSY = true)
    (hbr : s.cfg.flash.br = some b) (ht : (s.p s.head R.CFG_BOOT_STATUS.CONF_BUSY 0).addTrial b.seq Trial.confirm = some t) :
    execConfirmProgrammed true s = .next (t.p s.head R.CFG_BOOT_STATUS.CONF 2) := by
  refine congrArg _ ((if_pos hb).trans ((if_neg (by decide)).trans ?_))
  rw [State.p_cfg, hbr, Option.bind_some, ht]

/-! ## Warm builds and refreshes (R106, R206) -/

theorem execWarmBuildDone_built (hk : s.cfg.parse.kind = .warmBuild) (he : s.cfg.parse.ended = true) (hl : s.cfg.parse.lastSeg = true)
    (hd : buildDigests s = (true, t)) {u : State} (hu : u = t.each (s.warmDies.filter (builds s)) (fun s d =>
      (warmValid s d (s.warmOf d).digest).p d R.CFG_WARM_STATUS.BUILDING 0)) :
    execWarmBuildDone s = .next (passEnd u (buildCmd u) Lerr.none) := by
  subst hu
  refine congrArg _ ((if_pos ⟨hk, he, hl⟩).trans ?_)
  rw [hd]
  rfl

/-- A refresh that is due reads the die's region again. -/
theorem execWarmDigestRecomputed_due (hp : s.present die = true) (hr : (s.warmOf die).refresh = true)
    (hk : ¬ (s.cfg.parse.kind = .partialLoad ∧ s.cfg.parse.touched.getLsbD die = true)) :
    execWarmDigestRecomputed die s = .next (match regionRead s die with
      | (some ws, t) => warmValid t die (wordsDigest ws)
      | (none, t) => t.setWarm die { t.warmOf die with refresh := false }) :=
  congrArg _ (if_pos ⟨hp, hr, hk⟩)

/-! ## Warm loads (R109) -/

section
variable {attempt : Bool} {reads : List (Nat × Option (List DWord))}

/-- The channels of the map that have failed. -/
def failedChannels (s : State) : List Nat :=
  (mapChannels s).filter (fun ch => s.g (chDie ch) (R.DDR_STATUS.STATE (chCtl ch)) == DdrState.failed)

theorem failedChannels_eq_nil (h : ∀ ch ∈ mapChannels s, s.g (chDie ch) (R.DDR_STATUS.STATE (chCtl ch)) ≠ DdrState.failed) :
    failedChannels s = [] :=
  List.filter_eq_nil_iff.mpr fun ch hch => by simpa using h ch hch

/-- Once training has ended the regions are read, and the dies judged by their channels and digests. -/
theorem execWarmParserStart_trained (hp : s.phase = Phase.load) (hr : s.boot.inReset = none) (hw : s.boot.warm = true)
    (hready : s.boot.warmReady = false)
    (htrained : ∀ ch ∈ mapChannels s, s.g (chDie ch) (R.DDR_STATUS.STATE (chCtl ch)) ≠ DdrState.training)
    (hreads : warmReads { s with boot := { s.boot with warmReady := true } } = (reads, t)) :
    execWarmParserStart s attempt = .next (warmEnd t reads ((failedChannels s).map chDie ++ warmWrong t reads) attempt) := by
  have hall : (mapChannels s).all (fun ch => s.g (chDie ch) (R.DDR_STATUS.STATE (chCtl ch)) != DdrState.training) = true :=
    List.all_eq_true.mpr fun ch hch => bne_iff_ne.mpr (htrained ch hch)
  refine congrArg _ ((if_pos ⟨hp, hr, hw, hready, hall⟩).trans ?_)
  rw [hreads]
  rfl

theorem warmEnd_good {u : State} (hu : u = reads.foldl (fun v x => warmTake v x.1 (x.2.getD [])) t) :
    warmEnd t reads [] attempt = if u.cfg.parse.finErr = none then warmDone u else warmFallback u u.dies attempt := by
  subst hu
  refine (if_pos rfl).trans ?_
  simp only [Option.isSome_iff_ne_none, ne_eq, ite_not]

theorem warmEnd_bad {bad : List Nat} (h : bad ≠ []) : warmEnd t reads bad attempt = warmFallback t bad attempt :=
  if_neg (by simpa using h)

end

end

/-- Settles O24: each end has one occasion, and what it finds there decides what it leaves. -/
theorem cfgEndsComplete : Obligations.CfgEndsComplete := by
  intro s
  refine ⟨?_, ?_, ?_, ?_, ?_⟩
  · intro c hc hk
    exact execCfgCmdComplete_finished hc hk
  · intro hb
    exact ⟨execConfirmProgrammed_failed hb, fun b t hbr ht => execConfirmProgrammed_entered hb hbr ht⟩
  · intro t hk he hl hd u hu
    exact execWarmBuildDone_built hk he hl hd hu
  · intro die hp hr hk
    have hdue := execWarmDigestRecomputed_due hp hr hk
    refine ⟨fun ws t hread => ?_, fun t hread => ?_⟩
    · rw [hread] at hdue
      exact hdue
    · rw [hread] at hdue
      exact hdue
  · intro attempt reads t hp hr hw hready htrained hreads
    have hstart := execWarmParserStart_trained (attempt := attempt) hp hr hw hready htrained hreads
    refine ⟨fun hgood hwrong u hu => ?_, ?_⟩
    · rw [failedChannels_eq_nil hgood, hwrong, List.map_nil, List.append_nil, warmEnd_good hu] at hstart
      exact hstart
    · rintro bad rfl hbad
      exact hstart.trans (congrArg _ (warmEnd_bad hbad))

end Sys2Proof.Machine
end

/-! # Flash commands and their ends (R110 to R112) -/

section
set_option Elab.async false
namespace Sys2Proof.Machine

/-! ## A write of NVC_CMD -/

theorem nvcCmd_writable : Writable ⟨.NVC_CMD, 0, 0⟩ := by constructor <;> decide

/-- The write of NVC_CMD that a command makes. -/
def nvcWr (s : State) (m : Master) (op : Nat) : Wr :=
  mkWr s m s.head ⟨.NVC_CMD, 0, 0⟩ (named s s.head ⟨.NVC_CMD, 0, 0⟩ [(R.NVC_CMD.OP, op)]) (2 ^ 32 - 1)

/-- What the command register shows once a command has been taken. -/
def nvcTaken (s : State) (m : Master) (op : Nat) : State :=
  (s.setReg s.head ⟨.NVC_CMD, 0, 0⟩ (nvcWr s m op).new).p s.head R.NVC_CMD.OWNER m.rid

/-- What the operands of an operation break, if anything. -/
def nvcRefusal (s : State) (op addr len : Nat) : Option Nat :=
  if op = NvcOp.resetFlash then none
  else if !s.cfg.flash.ready then some NvcRes.flashError
  else if !nvcAligned s op addr len then some NvcRes.align
  else if op ≤ 2 && nvcGuarded s addr len then some NvcRes.prot
  else none

/-- The operation runs. -/
def nvcStarted (s : State) (m : Master) (op : Nat) : State :=
  ((nvcTaken s m op).p s.head R.NVC_STATUS.STATE NvcState.busy).setFlash { s.cfg.flash with
    op := op, addr := s.g s.head R.NVC_ADDR.ADDR, len := s.g s.head R.NVC_LEN.LEN, mem := s.g s.head R.NVC_MEM.MEM, done := 0 }

section
variable {s t : State} {m : Master} {op addr len x : Nat}

theorem nvcTaken_writes : Writes (fun k => k = cellKey s.head R.NVC_CMD.OP.off) s (nvcTaken s m op) := .p rfl (.p rfl (.refl s))

/-- A field of another cell reads as before the command was taken. -/
theorem nvcTaken_g {d : Nat} {f : Fld} (hf : f.off < 2 ^ 24) (hne : f.off / 8 ≠ R.NVC_CMD.OP.off / 8) :
    (nvcTaken s m op).g d f = s.g d f := nvcTaken_writes.g_eq (cellKey_ne d s.head _ _ hf (by decide) (.inr hne))

@[simp] theorem nvcTaken_head : (nvcTaken s m op).head = s.head := State.head_of_dev nvcTaken_writes.dev

@[simp] theorem nvcTaken_cfg : (nvcTaken s m op).cfg = s.cfg := nvcTaken_writes.cfg

theorem nvcTaken_flashDual : (nvcTaken s m op).flashDual = s.flashDual := by
  unfold State.flashDual
  rw [nvcTaken_head, nvcTaken_g (by decide) (by decide)]

theorem nvcTaken_flashSize : (nvcTaken s m op).flashSize = s.flashSize := by
  unfold State.flashSize
  rw [nvcTaken_flashDual, nvcTaken_cfg]

theorem nvcTaken_aligned : nvcAligned (nvcTaken s m x) op addr len = nvcAligned s op addr len := by
  unfold nvcAligned State.flashSector State.flashPage
  rw [nvcTaken_flashSize, nvcTaken_flashDual, nvcTaken_cfg]

theorem nvcTaken_slotAt {n : Nat} : (nvcTaken s m op).slotAt n = s.slotAt n := by
  unfold State.slotAt
  rw [nvcTaken_flashSize, nvcTaken_cfg]

theorem nvcTaken_runSlot : (nvcTaken s m op).runSlot = s.runSlot :=
  State.runSlot_congr nvcTaken_writes.dev
    (nvcTaken_writes.cells _ (cellKey_ne s.head s.head _ _ (by decide) (by decide) (.inr (by decide))))

/-- A lock bit of NVC_PROTECT reads as before. -/
theorem nvcTaken_unlock {f : Fld} (hf : f.off = R.NVC_PROTECT.RUN_UNLOCK.off) : (nvcTaken s m op).on s.head f = s.on s.head f := by
  unfold State.on
  rw [nvcTaken_g (by rw [hf]; decide) (by rw [hf]; decide)]

theorem nvcTaken_guarded : nvcGuarded (nvcTaken s m op) addr len = nvcGuarded s addr len := by
  unfold nvcGuarded State.flashSector
  simp only [nvcTaken_head, nvcTaken_cfg, nvcTaken_flashDual, nvcTaken_slotAt, nvcTaken_runSlot,
    nvcTaken_unlock (f := R.NVC_PROTECT.BOOT_UNLOCK) rfl, nvcTaken_unlock (f := R.NVC_PROTECT.G_UNLOCK) rfl,
    nvcTaken_unlock (f := R.NVC_PROTECT.RUN_UNLOCK) rfl]

theorem nvcTaken_refusal : nvcRefusal (nvcTaken s m x) op addr len = nvcRefusal s op addr len := by
  unfold nvcRefusal
  rw [nvcTaken_cfg, nvcTaken_aligned, nvcTaken_guarded]

theorem nvcWr_op (h16 : op < 16) : R.NVC_CMD.OP.of (nvcWr s m op).raw = op := by
  refine (of_named _ (by decide)).trans ?_
  rw [List.foldl_cons, List.foldl_nil, of_over_same]
  exact Nat.mod_eq_of_lt h16

/-- An operation that its master may start, with the flash idle, is taken, and then judged by its operands. -/
theorem writeNvcCmd_taken (hr : s.nvcRight m = true) (hi : s.nvcState = NvcState.idle) (h0 : 0 < op) (h5 : op ≤ 5) :
    writeNvcCmd s (nvcWr s m op) =
      match nvcRefusal (nvcTaken s m op) op ((nvcTaken s m op).g s.head R.NVC_ADDR.ADDR) ((nvcTaken s m op).g s.head R.NVC_LEN.LEN) with
      | some r => (nvcEnd (nvcTaken s m op) r ((nvcTaken s m op).g s.head R.NVC_ADDR.ADDR)).ans .ok
      | none => (((nvcTaken s m op).p s.head R.NVC_STATUS.STATE NvcState.busy).setFlash { (nvcTaken s m op).cfg.flash with
          op := op, addr := (nvcTaken s m op).g s.head R.NVC_ADDR.ADDR, len := (nvcTaken s m op).g s.head R.NVC_LEN.LEN
          mem := (nvcTaken s m op).g s.head R.NVC_MEM.MEM, done := 0 }).ans .ok := by
  have hop : R.NVC_CMD.OP.of (nvcWr s m op).raw = op := nvcWr_op (by omega)
  have hmaster : s.nvcRight (nvcWr s m op).m = true := hr
  have hform : ¬ ((!s.nvcRight (nvcWr s m op).m || s.nvcState != NvcState.idle || op == 0 || decide (5 < op)) = true) := by
    simp [hmaster, hi]
    omega
  unfold writeNvcCmd
  dsimp only
  rw [hop, if_neg hform]
  rfl

/-- What the taking of a command writes has no part in the judgement. -/
theorem writeNvcCmd_judged (hr : s.nvcRight m = true) (hi : s.nvcState = NvcState.idle) (h0 : 0 < op) (h5 : op ≤ 5) :
    writeNvcCmd s (nvcWr s m op) = match nvcRefusal s op (s.g s.head R.NVC_ADDR.ADDR) (s.g s.head R.NVC_LEN.LEN) with
      | some r => (nvcEnd (nvcTaken s m op) r (s.g s.head R.NVC_ADDR.ADDR)).ans .ok
      | none => (nvcStarted s m op).ans .ok := by
  have haddr : (nvcTaken s m op).g s.head R.NVC_ADDR.ADDR = s.g s.head R.NVC_ADDR.ADDR := nvcTaken_g (by decide) (by decide)
  have hlen : (nvcTaken s m op).g s.head R.NVC_LEN.LEN = s.g s.head R.NVC_LEN.LEN := nvcTaken_g (by decide) (by decide)
  have hmem : (nvcTaken s m op).g s.head R.NVC_MEM.MEM = s.g s.head R.NVC_MEM.MEM := nvcTaken_g (by decide) (by decide)
  rw [writeNvcCmd_taken hr hi h0 h5, nvcTaken_refusal, haddr, hlen, hmem, nvcTaken_cfg]
  rfl

/-- A master without the right, or an operation that runs, has the write refused (R130). -/
theorem writeNvcCmd_shut {w : Wr} (h : s.nvcRight w.m = false ∨ s.nvcState ≠ NvcState.idle) :
    writeNvcCmd s w = s.ans .accessError := by
  refine if_pos ?_
  obtain hr | hi := h
  · simp [hr]
  · simp [hi]

/-- The command of an operation is the write of its code. -/
theorem poke_nvcCmd (h : Reaches s m s.head ⟨.NVC_CMD, 0, 0⟩) (hw : writeNvcCmd s (nvcWr s m op) = t.ans .ok) :
    poke s m s.head [(R.NVC_CMD.OP, op)] = t.ans .ok :=
  (poke_eq (r := ⟨.NVC_CMD, 0, 0⟩) rfl _ _).trans (put32_ok h nvcCmd_writable hw)

theorem poke_nvcCmd_started (h : Reaches s m s.head ⟨.NVC_CMD, 0, 0⟩) (hr : s.nvcRight m = true) (hi : s.nvcState = NvcState.idle)
    (hn : nvcRefusal s op (s.g s.head R.NVC_ADDR.ADDR) (s.g s.head R.NVC_LEN.LEN) = none) (h0 : 0 < op := by decide)
    (h5 : op ≤ 5 := by decide) : poke s m s.head [(R.NVC_CMD.OP, op)] = (nvcStarted s m op).ans .ok := by
  have hwrite := writeNvcCmd_judged hr hi h0 h5
  rw [hn] at hwrite
  exact poke_nvcCmd h hwrite

theorem poke_nvcCmd_ended {r : Nat} (h : Reaches s m s.head ⟨.NVC_CMD, 0, 0⟩) (hr : s.nvcRight m = true)
    (hi : s.nvcState = NvcState.idle)
    (hn : nvcRefusal s op (s.g s.head R.NVC_ADDR.ADDR) (s.g s.head R.NVC_LEN.LEN) = some r) (h0 : 0 < op := by decide)
    (h5 : op ≤ 5 := by decide) :
    poke s m s.head [(R.NVC_CMD.OP, op)] = (nvcEnd (nvcTaken s m op) r (s.g s.head R.NVC_ADDR.ADDR)).ans .ok := by
  have hwrite := writeNvcCmd_judged hr hi h0 h5
  rw [hn] at hwrite
  exact poke_nvcCmd h hwrite

theorem poke_nvcCmd_shut (h : Reaches s m s.head ⟨.NVC_CMD, 0, 0⟩) (hshut : s.nvcRight m = false ∨ s.nvcState ≠ NvcState.idle) :
    poke s m s.head [(R.NVC_CMD.OP, op)] = (s.ans .accessError).coreTrap m .storeFault
      (s.head * 0x1000000 + RegRef.off ⟨.NVC_CMD, 0, 0⟩) :=
  (poke_eq (r := ⟨.NVC_CMD, 0, 0⟩) rfl _ _).trans (put32_refused h nvcCmd_writable (writeNvcCmd_shut (w := nvcWr s m op) hshut))

/-! ### What the operands break, in order -/

theorem nvcRefusal_none (ho : op ≠ NvcOp.resetFlash) (hready : s.cfg.flash.ready = true) (ha : nvcAligned s op addr len = true)
    (hg : op ≤ 2 → nvcGuarded s addr len = false) : nvcRefusal s op addr len = none := by
  unfold nvcRefusal
  rw [if_neg ho, if_neg (by simp [hready]), if_neg (by simp [ha]), if_neg (by simpa using hg)]

theorem nvcRefusal_prot (ho : op ≤ 2) (hready : s.cfg.flash.ready = true) (ha : nvcAligned s op addr len = true)
    (hg : nvcGuarded s addr len = true) : nvcRefusal s op addr len = some NvcRes.prot := by
  have hreset : op ≠ NvcOp.resetFlash := by unfold NvcOp.resetFlash; omega
  unfold nvcRefusal
  rw [if_neg hreset, if_neg (by simp [hready]), if_neg (by simp [ha]), if_pos (by simp [ho, hg])]

theorem nvcRefusal_align (ho : op ≠ NvcOp.resetFlash) (hready : s.cfg.flash.ready = true) (ha : nvcAligned s op addr len = false) :
    nvcRefusal s op addr len = some NvcRes.align := by
  unfold nvcRefusal
  rw [if_neg ho, if_neg (by simp [hready]), if_pos (by simp [ha])]

theorem nvcRefusal_noFlash (ho : op ≠ NvcOp.resetFlash) (hready : s.cfg.flash.ready = false) :
    nvcRefusal s op addr len = some NvcRes.flashError := by
  unfold nvcRefusal
  rw [if_neg ho, if_pos (by simp [hready])]

end

/-! ## What a running operation does at a time -/

section
variable {s t o : State} {p a n : Nat}

theorem nvcState_congr (hd : t.dev = s.dev) (hr : t.rf = s.rf) : t.nvcState = s.nvcState := by
  unfold State.nvcState
  rw [State.head_of_dev hd, State.g_congr (congrArg (fun m => SMap.get cellRst m (cellKey s.head R.NVC_STATUS.STATE.off)) hr)]

/-- Bytes of the flash change no register and not the device. -/
theorem setFlashBytes_regs {l : List Byte} : (s.setFlashBytes a l).rf = s.rf ∧ (s.setFlashBytes a l).dev = s.dev := by
  unfold State.setFlashBytes
  exact List.foldlRecOn _ _ (motive := fun t : State => t.rf = s.rf ∧ t.dev = s.dev) ⟨rfl, rfl⟩ fun _ h _ _ => h

theorem nvcStep_over (h : s.nvcState ≠ NvcState.busy ∨ nvcUnits s ≤ s.cfg.flash.done) : nvcStep s = s := if_pos h

theorem nvcStep_erase (hb : s.nvcState = NvcState.busy) (hop : s.cfg.flash.op = NvcOp.erase) (hlt : s.cfg.flash.done < nvcUnits s) :
    nvcStep s = (flashErase s (s.cfg.flash.addr + s.cfg.flash.done * nvcUnit s) (nvcUnit s)).setFlash
      { s.cfg.flash with done := s.cfg.flash.done + 1 } :=
  (if_neg (by simp [hb, hlt])).trans (if_pos hop)

/-- A program that finds a page of its range not blank writes nothing. -/
theorem nvcStep_notErased (hb : s.nvcState = NvcState.busy) (hop : s.cfg.flash.op = NvcOp.program) (hdone : s.cfg.flash.done = 0)
    (hlt : 0 < nvcUnits s) (hp : notBlank s s.cfg.flash.addr s.cfg.flash.len = some p) : nvcStep s = nvcEnd s NvcRes.notErased p := by
  have hover : ¬ (s.nvcState ≠ NvcState.busy ∨ nvcUnits s ≤ s.cfg.flash.done) := by
    rw [hdone, not_or, not_not]
    exact ⟨hb, Nat.not_le_of_lt hlt⟩
  refine (if_neg hover).trans ((if_neg (by rw [hop]; decide)).trans ((if_pos hop).trans ?_))
  rw [if_pos hdone, hp]

theorem nvcStep_page {ws : List MWord} (hb : s.nvcState = NvcState.busy) (hop : s.cfg.flash.op = NvcOp.program)
    (hlt : s.cfg.flash.done < nvcUnits s) (hblank : s.cfg.flash.done = 0 → notBlank s s.cfg.flash.addr s.cfg.flash.len = none)
    (hread : readWords s (s.parserMaster s.head) (s.cfg.flash.mem + s.cfg.flash.done * nvcUnit s) (nvcUnit s / 8) = (.ok, ws, t))
    (hclean : ∀ w ∈ ws, w.p = false) :
    nvcStep s = (t.setFlashBytes (s.cfg.flash.addr + s.cfg.flash.done * nvcUnit s)
      (ws.flatMap (fun w => bytesLE 8 w.v.toNat))).setFlash { s.cfg.flash with done := s.cfg.flash.done + 1 } := by
  have hfirst : (if s.cfg.flash.done = 0 then notBlank s s.cfg.flash.addr s.cfg.flash.len else none) = none := by
    simpa using hblank
  refine (if_neg (by simp [hb, hlt])).trans ((if_neg (by rw [hop]; decide)).trans ((if_pos hop).trans ?_))
  rw [hfirst, hread]
  exact if_neg (by simpa using hclean)

/-- Of an erase, its registers, the device and the operation stay as they are. -/
structure Erasing (o s : State) : Prop where
  rf : s.rf = o.rf
  dev : s.dev = o.dev
  op : s.cfg.flash.op = NvcOp.erase

theorem Erasing.nvcStep (h : Erasing o s) : Erasing o (nvcStep s) := by
  by_cases hover : s.nvcState ≠ NvcState.busy ∨ nvcUnits s ≤ s.cfg.flash.done
  · rw [nvcStep_over hover]
    exact h
  · obtain ⟨hb, hlt⟩ := not_or.mp hover
    obtain ⟨hrf, hdev⟩ := setFlashBytes_regs (s := s) (a := s.cfg.flash.addr + s.cfg.flash.done * nvcUnit s)
      (l := List.replicate (nvcUnit s) 0xFF#8)
    rw [nvcStep_erase (not_not.mp hb) h.op (Nat.lt_of_not_le hlt)]
    exact ⟨hrf.trans h.rf, hdev.trans h.dev, h.op⟩

theorem Erasing.nvcSteps (h : Erasing o s) : Erasing o (nvcSteps s n) :=
  List.foldlRecOn _ _ (motive := Erasing o) h fun _ ht _ _ => ht.nvcStep

theorem nvcSteps_erase_busy (hb : s.nvcState = NvcState.busy) (hop : s.cfg.flash.op = NvcOp.erase) :
    (nvcSteps s n).nvcState = NvcState.busy := by
  have h : Erasing s (Machine.nvcSteps s n) := Erasing.nvcSteps ⟨rfl, rfl, hop⟩
  exact (nvcState_congr h.dev h.rf).trans hb

/-! ## The end of an operation -/

theorem execNvcComplete_works (hb : s.nvcState = NvcState.busy) (hop : s.cfg.flash.op = NvcOp.erase ∨ s.cfg.flash.op = NvcOp.program)
    (hend : (nvcSteps s (nvcUnits s - s.cfg.flash.done)).nvcState = NvcState.busy) :
    execNvcComplete none s =
      .next { nvcEnd (nvcSteps s (nvcUnits s - s.cfg.flash.done)) NvcRes.ok 0 with reply := s.reply } := by
  unfold execNvcComplete
  dsimp only
  rw [if_neg (not_not.mpr hb), if_pos hop, if_neg (not_not.mpr hend)]

/-- A blank check ends with the first page that is not blank, if there is one (R110). -/
theorem execNvcComplete_blankCheck (hb : s.nvcState = NvcState.busy) (hop : s.cfg.flash.op = NvcOp.blankCheck) :
    execNvcComplete none s = .next { (match notBlank s s.cfg.flash.addr s.cfg.flash.len with
      | some p => nvcEnd s NvcRes.notErased p
      | none => nvcEnd s NvcRes.ok 0) with reply := s.reply } := by
  have hwork : ¬ (s.cfg.flash.op = NvcOp.erase ∨ s.cfg.flash.op = NvcOp.program) := by rw [hop]; decide
  unfold execNvcComplete
  dsimp only
  rw [if_neg (not_not.mpr hb), if_neg hwork, if_pos hop] <;> rfl

/-- A flash that fails at a blank check or a read ends it with the address. -/
theorem execNvcComplete_fails {x : FlashFail} (hb : s.nvcState = NvcState.busy)
    (hop : s.cfg.flash.op = NvcOp.blankCheck ∨ s.cfg.flash.op = NvcOp.read) :
    execNvcComplete (some x) s = .next { nvcEnd s NvcRes.flashError x.addr with reply := s.reply } := by
  have hwork : ¬ (s.cfg.flash.op = NvcOp.erase ∨ s.cfg.flash.op = NvcOp.program) := by
    obtain hop | hop := hop <;> rw [hop] <;> decide
  have hreset : ¬ s.cfg.flash.op = NvcOp.resetFlash := by
    obtain hop | hop := hop <;> rw [hop] <;> decide
  have hfails : flashFails s x = nvcEnd s NvcRes.flashError x.addr := (if_neg hwork).trans (if_neg hreset)
  unfold execNvcComplete
  dsimp only
  rw [if_neg (not_not.mpr hb), hfails]

end

/-- Settles O25: a command is judged by `nvcRefusal` once it is taken, and an operation's end by `nvcStep` and what it finds blank. -/
theorem flashComplete : Obligations.FlashComplete := by
  refine ⟨?_, ?_⟩
  · rintro s m r taken addr len rfl h rfl rfl htaken started ended hstarted hended
    obtain rfl : taken = nvcTaken s m := funext htaken
    obtain rfl : started = fun op => (nvcStarted s m op).ans .ok := funext hstarted
    obtain rfl : ended = fun op => (nvcEnd (nvcTaken s m op) NvcRes.flashError (s.g s.head R.NVC_ADDR.ADDR)).ans .ok := funext hended
    refine ⟨fun hr hi hready => ⟨?_, ?_, ?_, ?_, ?_, ?_, ?_, ?_⟩, fun hr hi => ?_, fun hr hi hready => ?_, ?_⟩
    · intro ha hg
      exact congrArg _ (poke_nvcCmd_started h hr hi (nvcRefusal_none (by decide) hready ha fun _ => hg))
    · intro ha hg
      exact congrArg _ (poke_nvcCmd_started h hr hi (nvcRefusal_none (by decide) hready ha fun _ => hg))
    · intro ha
      exact congrArg _ (poke_nvcCmd_started h hr hi (nvcRefusal_none (by decide) hready ha fun hle => absurd hle (by decide)))
    · intro ha
      exact congrArg _ (poke_nvcCmd_started h hr hi (nvcRefusal_none (by decide) hready ha fun hle => absurd hle (by decide)))
    · intro ha hg
      exact congrArg Host.Outcome.next (poke_nvcCmd_ended (op := 1) h hr hi (nvcRefusal_prot (by decide) hready ha hg))
    · intro ha hg
      exact congrArg Host.Outcome.next (poke_nvcCmd_ended (op := 2) h hr hi (nvcRefusal_prot (by decide) hready ha hg))
    · intro ha
      exact congrArg Host.Outcome.next (poke_nvcCmd_ended (op := 1) h hr hi (nvcRefusal_align (by decide) hready ha))
    · intro ha
      exact congrArg Host.Outcome.next (poke_nvcCmd_ended (op := 4) h hr hi (nvcRefusal_align (by decide) hready ha))
    · exact congrArg _ (poke_nvcCmd_started h hr hi (if_pos rfl))
    · have hends : ∀ op, 0 < op → op < 5 → poke s m s.head [(R.NVC_CMD.OP, op)] =
          (nvcEnd (nvcTaken s m op) NvcRes.flashError (s.g s.head R.NVC_ADDR.ADDR)).ans .ok := fun op h0 h5 =>
        poke_nvcCmd_ended h hr hi (nvcRefusal_noFlash (Nat.ne_of_lt h5) hready) h0 (Nat.le_of_lt h5)
      exact ⟨congrArg Host.Outcome.next (hends 1 (by decide) (by decide)), congrArg Host.Outcome.next (hends 2 (by decide) (by decide)),
        congrArg Host.Outcome.next (hends 3 (by decide) (by decide)), congrArg Host.Outcome.next (hends 4 (by decide) (by decide))⟩
    · rintro hshut t rfl
      have hrefused := fun op => poke_nvcCmd_shut (op := op) h hshut
      exact ⟨congrArg _ (hrefused 1), congrArg _ (hrefused 2), congrArg _ (hrefused 3), congrArg _ (hrefused 4),
        congrArg _ (hrefused 5)⟩
  · rintro s f rfl hb
    refine ⟨?_, ?_, ?_, ?_, ?_, ?_, ?_, ?_⟩
    · intro hop
      exact execNvcComplete_works hb (.inl hop) (nvcSteps_erase_busy hb hop)
    · exact nvcStep_erase hb
    · intro hop hblank
      have hend := execNvcComplete_blankCheck hb hop
      rw [hblank] at hend
      exact hend
    · intro p hop hfound
      have hend := execNvcComplete_blankCheck hb hop
      rw [hfound] at hend
      exact hend
    · intro hop hend
      exact execNvcComplete_works hb (.inr hop) hend
    · intro p
      exact nvcStep_notErased hb
    · intro ws t
      exact nvcStep_page hb
    · intro x hop
      exact execNvcComplete_fails hb hop

end Sys2Proof.Machine
end

/-! # The network: packets, timeouts and the flash aperture (R114, R115, R309, R312 to R315) -/

section
set_option Elab.async false
namespace Sys2Proof.Machine

section
variable {s t : State} {q : Req} {r : NetReq} {rid d : Nat} {tag : Fin 512}

theorem ifIssued_none {f : State → State} (h : coreStops s q = none) : s.ifIssued q f = f s := by
  unfold State.ifIssued
  rw [h]

/-! ## Injection and parking (R309, R312) -/

theorem execPacketInject_nowhere (hp : s.present (s.dieOfRid q.m.rid) = true) (hn : s.netOf q.m.rid q.tag = none)
    (hc : coreStops s q = none) (hd : reqDie s q = none) :
    execPacketInject q s = .next ((s.ans .decodeError).coreSees q.m (opStores q.op) q.addr.toNat) := by
  refine congrArg _ ((if_pos ⟨hp, by rw [hn]; rfl⟩).trans ((ifIssued_none hc).trans ?_))
  rw [hd]

theorem execPacketInject_sent (hp : s.present (s.dieOfRid q.m.rid) = true) (hn : s.netOf q.m.rid q.tag = none)
    (hc : coreStops s q = none) (hd : reqDie s q = some d) (hr : routeTo s (s.dieOfRid q.m.rid) d = (none, t)) :
    execPacketInject q s = .next (s.sendNet q q.tag (.flying (if s.belowRun d then 1 else 0))) := by
  refine congrArg _ ((if_pos ⟨hp, by rw [hn]; rfl⟩).trans ((ifIssued_none hc).trans ?_))
  rw [hd]
  dsimp only
  rw [hr]

theorem execPacketPark_parks {c : Nat} (hn : s.netOf rid tag = some r) (hplace : r.place = .flying c) (hd : reqDie s r.req = some d)
    (hstop : s.fullStopped d = false) (hrun : s.running d = false) :
    execPacketPark rid tag s = .next ((packetWake s d).setNet rid tag (some { r with place := .parked })) := by
  unfold execPacketPark
  rw [hn]
  dsimp only
  rw [hplace, hd]
  dsimp only
  rw [if_neg (by simp [hstop]), if_neg (by simp [hrun])]

/-- What is parked for a die, when one packet is in the network, and it is parked for that die. -/
theorem parkedList_one {k : Nat} (hnet : s.coh.net = [(k, some r)]) (hplace : r.place = .parked) (hd : reqDie s r.req = some d) :
    parkedList s d = [(k, r)] := by
  unfold parkedList
  rw [hnet]
  exact if_pos ⟨hplace, hd⟩

theorem execParkedDelivery_one {die : Die} (hnet : s.coh.net = [(rid * 512 + tag, some r)]) (hp : s.present die = true)
    (hrun : s.running die = true) (hplace : r.place = .parked) (hd : reqDie s r.req = some die.val)
    (hwaits : uncachedWaits s r.req tag = false) : execParkedDelivery die s = .next (completeReq s rid tag r) := by
  have hrid : (rid * 512 + tag.val) / 512 = rid := by omega
  have htag : (rid * 512 + tag.val) % 512 = tag := by omega
  refine congrArg _ ((if_pos ⟨hp, hrun⟩).trans ?_)
  rw [parkedList_one hnet hplace hd, List.foldl_cons, List.foldl_nil]
  dsimp only
  rw [hrid, htag, if_neg (by simp [hwaits])]

/-! ## Serving a request (R309, R310) -/

theorem completeReq_served (hq : r.quar = false) : completeReq s rid tag r = (perform s r.req).putNet rid tag none :=
  if_neg (by simp [hq])

theorem completeReq_quarantined (hq : r.quar = true) :
    completeReq s rid tag r = { lateOne (perform s r.req) rid tag with reply := s.reply } := if_pos hq

theorem serveReq_atOnce (hw : uncachedWaits s q q.tag = false) (ht : targetPort s q = none) (hn : s.netOf q.m.rid q.tag = none) :
    serveReq s q = perform s q := by
  refine (if_neg (by simp [hw])).trans ?_
  rw [ht]
  dsimp only
  rw [hn]

theorem serveReq_arrived (hw : uncachedWaits s q q.tag = false) (ht : targetPort s q = none) (hn : s.netOf q.m.rid q.tag = some r)
    (hr : r.req = q) (hplace : r.place ≠ .done) (hq : r.quar = false) (hd : reqDie s q = some d) (hrun : s.running d = true) :
    serveReq s q = (perform s q).putNet q.m.rid q.tag none := by
  refine (if_neg (by simp [hw])).trans ?_
  rw [ht]
  dsimp only
  rw [hn, hd]
  refine (if_pos ⟨hr, hplace, hq, hrun⟩).trans ((completeReq_served hq).trans ?_)
  rw [hr]

/-- A request to a window of fabric user space that the fabric has not been shown is shown to it (R196). -/
theorem serveReq_shown {p o : Nat} (hw : uncachedWaits s q q.tag = false) (ht : targetPort s q = some (d, p, o))
    (hn : s.netOf q.m.rid q.tag = none)
    (hany : (s.nport d p).tgt.any (fun t => t.2.m.rid == q.m.rid && t.2.tag == q.tag) = false) :
    serveReq s q = showTarget s q d p o (freeTarget s d p) := by
  refine (if_neg (by simp [hw])).trans ?_
  rw [ht]
  dsimp only
  rw [if_neg (by rw [hany]; decide), hn]

theorem execNocRead_served (hc : coreStops s q = none) (hop : q.op = .read) (hs : serveReq s q = t) : execNocRead q s = .next t :=
  congrArg _ ((if_pos hop).trans ((ifIssued_none hc).trans hs))

theorem execNocWrite_served (hc : coreStops s q = none) (hop : q.op = .write) (hs : serveReq s q = t) : execNocWrite q s = .next t :=
  congrArg _ ((if_pos hop).trans ((ifIssued_none hc).trans hs))

/-- Reads and writes are served alike. -/
theorem exec_noc_served (hc : coreStops s q = none) (hs : serveReq s q = t) :
    (q.op = .read → exec (.nocRead q) s = .next t) ∧ (q.op = .write → exec (.nocWrite q) s = .next t) :=
  ⟨fun hop => execNocRead_served hc hop hs, fun hop => execNocWrite_served hc hop hs⟩

/-! ## Timeouts and quarantine (R314, R315) -/

theorem execCompletionTimeout_open (hn : s.netOf rid tag = some r) (hplace : r.place ≠ .done) (hq : r.quar = false) :
    execCompletionTimeout rid tag s =
      .next (((timeoutReq s rid tag r).ans .timeout).coreSees r.req.m (opStores r.req.op) r.req.addr.toNat) := by
  unfold execCompletionTimeout
  rw [hn]
  exact congrArg _ (if_pos ⟨hplace, hq⟩)

theorem execLateCompletion_done (hn : s.netOf rid tag = some r) (hplace : r.place = .done) (hq : r.quar = true) :
    execLateCompletion rid tag s = .next (lateOne s rid tag) := by
  unfold execLateCompletion
  rw [hn]
  exact congrArg _ ((if_neg (by simp [hq])).trans (if_pos hplace))

/-- A quarantined request whose domain runs is performed, and its completion reaches nobody. -/
theorem execLateCompletion_performed (hn : s.netOf rid tag = some r) (hplace : r.place ≠ .done) (hq : r.quar = true)
    (hd : reqDie s r.req = some d) (hrun : s.running d = true) :
    execLateCompletion rid tag s = .next { lateOne (perform s r.req) rid tag with reply := s.reply } := by
  unfold execLateCompletion
  rw [hn]
  dsimp only
  rw [hd]
  exact congrArg _ ((if_neg (by simp [hq])).trans ((if_neg hplace).trans ((if_pos hrun).trans (completeReq_quarantined hq))))

theorem execQuarantineExpiry_done (hn : s.netOf rid tag = some r) (hplace : r.place = .done) (hq : r.quar = true) :
    execQuarantineExpiry rid tag s = .next ((s.free 1).2.putNet rid tag none) := by
  unfold execQuarantineExpiry
  rw [hn]
  dsimp only
  rw [if_pos hq, if_neg (fun h => h.1 hplace)]

end

/-! ## The flash aperture (R114, R115) -/

section
variable {s u t : State} {m : Master} {off n : Nat} {ws : List MWord}

/-- A read of the aperture that is well formed finds the flash set up or not. -/
theorem xipRead_noFlash (hn : n ∈ [1, 2, 4, 8, 16, 32, 64]) (ha : off % n = 0) (hready : u.cfg.flash.ready = false) :
    xipRead u off n = u.ans .targetError := by
  have hform : [1, 2, 4, 8, 16, 32, 64].contains n = true := List.contains_iff_mem.mpr hn
  exact (if_neg (by rw [hform, ha]; decide)).trans (if_pos (by simp [hready]))

/-- A read beside no busy sector answers the words of the flash, and suspends an operation that works on another sector. -/
theorem xipRead_words (hn : n ∈ [1, 2, 4, 8, 16, 32, 64]) (ha : off % n = 0) (hoff : off < 2 ^ 18) (hready : u.cfg.flash.ready = true)
    (hbusy : flashBusy u (u.g u.head R.NVC_XIP_BASE.BASE * 2 ^ 18 + off) n = false)
    (hws : flashWords u ((u.g u.head R.NVC_XIP_BASE.BASE * 2 ^ 18 + off) / 8 * 8) ((n + 7) / 8) = (ws, t)) :
    xipRead u off n =
      { (if flashWorks t then t.p t.head R.NVC_STATUS.STATE NvcState.suspended else t) with reply := ⟨.ok, ws⟩ } := by
  have hform : [1, 2, 4, 8, 16, 32, 64].contains n = true := List.contains_iff_mem.mpr hn
  have hmod : off % 2 ^ 18 = off := Nat.mod_eq_of_lt hoff
  unfold xipRead
  dsimp only
  rw [hform, ha, hmod, if_neg (by decide), if_neg (by simp [hready]), if_neg (by rw [hbusy]; decide), hws]

theorem execXipRead_open {o : Fin 0x40000} (hroute : ctrlRoute s m s.head = (none, u)) (hreset : u.boot.inReset = none) :
    execXipRead m o n s = .next (xipRead u o n) := by
  unfold execXipRead
  rw [hroute]
  dsimp only
  rw [if_neg (by simp [hreset])]

end

/-- Settles O47: each event finds its packet as the clause says, and a read of the aperture is judged by `xipRead`. -/
theorem networkComplete : Obligations.NetworkComplete := by
  intro s m die q rid tag
  refine ⟨?_, ?_, ?_, ?_, ?_, ?_, ?_⟩
  · intro hp hn hc
    exact ⟨execPacketInject_nowhere hp hn hc, fun d t => execPacketInject_sent hp hn hc⟩
  · intro r d c hn hplace hd hstop hrun
    exact execPacketPark_parks hn hplace hd hstop hrun
  · intro r hnet hp hrun hplace hd hwaits
    exact execParkedDelivery_one hnet hp hrun hplace hd hwaits
  · intro hc hw
    refine ⟨?_, ?_, ?_⟩
    · intro ht hn
      exact exec_noc_served hc (serveReq_atOnce hw ht hn)
    · intro r d ht hn hr hplace hq hd hrun
      exact exec_noc_served hc (serveReq_arrived hw ht hn hr hplace hq hd hrun)
    · intro d p o ht hn hany
      exact exec_noc_served hc (serveReq_shown hw ht hn hany)
  · intro r hn
    refine ⟨?_, ?_, ?_⟩
    · intro hplace hq
      exact execCompletionTimeout_open hn hplace hq
    · intro hplace hq
      exact ⟨execLateCompletion_done hn hplace hq, execQuarantineExpiry_done hn hplace hq⟩
    · intro d hplace hq hd hrun
      exact execLateCompletion_performed hn hplace hq hd hrun
  · intro off n u hroute hreset hn ha
    have hread := execXipRead_open (n := n) (o := off) hroute hreset
    refine ⟨fun hready => ?_, ?_⟩
    · exact hread.trans (congrArg _ (xipRead_noFlash hn ha hready))
    · rintro a ws t hready rfl hbusy hws
      have hwords := xipRead_words hn ha off.isLt hready hbusy hws
      refine ⟨fun hworks => ?_, fun hworks => ?_⟩
      · rw [if_neg (by simp [hworks])] at hwords
        exact hread.trans (congrArg _ hwords)
      · rw [if_pos hworks] at hwords
        exact hread.trans (congrArg _ hwords)
  · intro hsusp
    exact congrArg _ (if_pos hsusp)

end Sys2Proof.Machine
end

/-! # Fabric primitives on a clock edge (R141, R143, R144, R154, R169, R176, R178, R180, R201) -/

section
set_option Elab.async false
namespace Sys2Proof.Machine

/-! ## Flip-flops (R141, R201) -/

section
variable {s : State} {d : Nat} {t : Tile} {ff : Fin 16} {ins : List TileIn} {ce sr late : Bool}

/-- A flip-flop without edges, or in a fenced region, holds its value. -/
theorem cellEdge_holds (h : halfRuns s d t (ffHalf ff) = false ∨ tileFenced s d t.x t.y = true) :
    cellEdge s d t ff ins ce sr late = s.ansData .ok (cellReply s d t (ff.val / 2) ins) := by
  obtain h | h := h <;> simp [cellEdge, h]

variable (hrun : halfRuns s d t (ffHalf ff) = true) (hfence : tileFenced s d t.x t.y = false)
include hrun hfence

theorem cellEdge_gsr (hgsr : s.held d Blk.gsr = true) : cellEdge s d t ff ins ce sr late =
    (s.setFf d (tileNum t * 16 + ff) (ffCfg s d (tileNum t * 16 + ff)).init).ansData .ok (cellReply s d t (ff.val / 2) ins) := by
  simp [cellEdge, hrun, hfence, hgsr]

theorem cellEdge_next (hgsr : s.held d Blk.gsr = false) (hlate : late = false ∨ halfAsync s d t (ffHalf ff) = false)
    (hgwe : s.stepDone d WStep.gwe = true) : cellEdge s d t ff ins ce sr late =
      (s.setFf d (tileNum t * 16 + ff) (ffNext (ffCfg s d (tileNum t * 16 + ff)) (s.ff d (tileNum t * 16 + ff))
        (halfSr s d t (ffHalf ff) sr) (halfCe s d t (ffHalf ff) ce) (ffD s d t ff ins))).ansData .ok
        (cellReply s d t (ff.val / 2) ins) := by
  obtain hlate | hlate := hlate <;> simp [cellEdge, hrun, hfence, hgsr, hlate, hgwe]

/-- An SR that comes too late leaves a free value (notes/assumptions/3.md). -/
theorem cellEdge_late (hgsr : s.held d Blk.gsr = false) (hlate : late = true) (hasync : halfAsync s d t (ffHalf ff) = true) :
    cellEdge s d t ff ins ce sr late =
      ((s.free 1).2.setFf d (tileNum t * 16 + ff) ((s.free 1).1.getLsbD 0)).ansData .ok (cellReply s d t (ff.val / 2) ins) := by
  simp [cellEdge, hrun, hfence, hgsr, hlate, hasync]

end

section
variable {s : State} {die : Die} {t : Tile}

theorem execAsyncSetReset_sets {ff : Fin 16} (hclk : fabClocked s die = true) (hfence : tileFenced s die t.x t.y = false)
    (hgsr : s.held die Blk.gsr = false) (hasync : halfAsync s die t (ffHalf ff) = true) :
    execAsyncSetReset die t ff s =
      .next (s.setFf die (tileNum t * 16 + ff) (ffCfg s die (tileNum t * 16 + ff)).srval) := by
  simp [execAsyncSetReset, hclk, hfence, hgsr, hasync]

/-! ## I/O cells (R154) -/

theorem ioEdge_loads {d p : Nat} {x : IoDrive} {c : IoCfg} (hc : pinCfg s d p = some c) (hclk : fabClocked s d = true)
    (htrack : trackRuns s d c.clk = true) (hfence : pinFence s d p = none) (hgsr : s.held d Blk.gsr = false) :
    ioEdge s d p x = (s.setIo d p (ioNext c (s.ioOf d p) x)).ansData .ok [(pinOut (s.setIo d p (ioNext c (s.ioOf d p) x)) d p).code] := by
  simp [ioEdge, hc, hclk, htrack, hfence, hgsr]

/-! ## Distributed RAM (R144) -/

theorem execDistributedRamWrite_writes {cell : Fin 8} {ins : TileIn} {mode : MemMode} (hwrites : cellWrites s die t (cell.val / 4) = true)
    (hce : halfCe s die t (cell.val / 4) true = true) (hcol : t.x.val % 4 = 3) (hmode : mode = (cellCfg s die (tileNum t * 8 + cell)).mem)
    (hgroup : ∀ c ∈ ramGroup mode cell, (cellCfg s die (tileNum t * 8 + c)).mode = .mem) {u : State}
    (hu : u = (ramCells mode cell (ramAddr mode cell ins)).foldl (fun s c => s.setLut die (tileNum t * 8 + c)
      (putBit (s.lut die (tileNum t * 8 + c)) (ramAddr mode cell ins % 64) (ins.xa.getLsbD cell))) s) :
    execDistributedRamWrite die t cell ins.i ins.xa ins.xb true s = .next (u.ansData .ok
      [if fout s die (tileNum t * 8) cell ins then 1 else 0, if fout u die (tileNum t * 8) cell ins then 1 else 0]) := by
  subst hmode hu
  have hall : (ramGroup (cellCfg s die (tileNum t * 8 + cell)).mem cell).all
      (fun c => (cellCfg s die (tileNum t * 8 + c)).mode == .mem) = true :=
    List.all_eq_true.mpr fun c hc => beq_iff_eq.mpr (hgroup c hc)
  simp [execDistributedRamWrite, hwrites, hce, hcol, hall]

end

/-! ## Arithmetic slices (R176, R180) -/

section
variable {s t : State} {d k : Nat} {x : ArithDrive} {xs : List ArithDrive} {l : ArithLink} {out : List DWord} {g : ArithCfg} {r : Arith}

/-- A slice that sees the edge takes its next values, or its reset under GSR, and the slices above it follow. -/
theorem arithEdge_cons (hg : g = arithCfg s d k) (hr : r = s.arithOf d k) (htrack : trackRuns s d g.clk = true)
    (hfence : siteFenced s d k RegionDecl.slices = false) :
    arithEdge s d (x :: xs) k l (t, out) = arithEdge s d xs (k + 1) (arithLinkOut g r (arithWires g r x l))
      (t.setArith d k (if s.held d Blk.gsr then .reset else arithNext g r x l), out ++ arithOut g r (arithWires g r x l)) := by
  subst hg hr
  rw [arithEdge]
  simp only [htrack, hfence, Bool.not_true, Bool.or_self, Bool.false_eq_true, if_false, apply_ite]

theorem execArithSliceEdge_inColumn {die : Die} {site : Fin 4608} (hclk : fabClocked s die = true) (hlen : site.val % 128 + xs.length ≤ 128)
    {a : State × List DWord} (ha : arithEdge s die xs site (arithBelow s die site) (s, []) = a) :
    execArithSliceEdge die site xs s = .next (a.1.ansData .ok a.2) := by
  subst ha
  unfold execArithSliceEdge
  rw [List.take_of_length_le (by omega), hclk]
  rfl

end

/-! ## Block memories (R169) -/

section
variable {s : State} {d k : Nat} {x : BmDrive} {c : BmCfg} {m : Bmem}

/-- The latch of a port that writes in OLD mode, or only reads, takes what the byte cells held. -/
theorem bmLatch_old {p : BmPort} {act : BmAct} {old new : SMap (BitVec 9)} {cur : BitVec 72 × BitVec 3} {free : BitVec 75}
    (hecc : c.ecc = false) (hlatch : p.latch = .old) (hon : act.on = true) : bmLatch c p (some x) act old new cur false free =
      (BitVec.ofNat 72 (bmWord p x.addr.toNat (fun j => SMap.get (fun _ => 0#9) old j)), 0) := by
  simp [bmLatch, bmDecode, hecc, hlatch, hon]

theorem bmLatch_none {p : BmPort} {act : BmAct} {old new : SMap (BitVec 9)} {cur : BitVec 72 × BitVec 3} {hit : Bool} {free : BitVec 75} :
    bmLatch c p none act old new cur hit free = cur := rfl

/-- A port without an output register never loads one. -/
theorem bmOut_unpiped {p : BmPort} {y : Option BmDrive} {cur latch : BitVec 72 × BitVec 3} {free : BitVec 3} (hpipe : p.pipe = false) :
    bmOut p y cur latch free = cur := by
  cases y <;> simp [bmOut, hpipe]

theorem bmOut_none {p : BmPort} {cur latch : BitVec 72 × BitVec 3} {free : BitVec 3} : bmOut p none cur latch free = cur := rfl

theorem bmAct_chosen {p : BmPort} (hchain : c.chain = 0) (hen : x.en = true) :
    bmAct c p (some x) true = ⟨true, bmSpan p x.addr.toNat, bmPuts c p x⟩ := by
  simp [bmAct, bmChosen, hchain, hen]

theorem bmAct_none {p : BmPort} {writes : Bool} : bmAct c p none writes = ⟨false, [], []⟩ := rfl

/-- An access meets nothing where the other port writes nothing. -/
theorem bmMeet_nil (l : List (Nat × Nat)) : bmMeet l [] = false := by
  simp [bmMeet]

/-- An edge of port A alone, of a block without ECC that stands in no chain, with OLD latches and no output register: what is written goes
to the byte cells, and the latch takes what they held. -/
theorem bmStep_portA (hc : c = bmCfg s d k) (hm : m = s.bmem d k) (hecc : c.ecc = false) (hchain : c.chain = 0) (hlatch : c.a.latch = .old)
    (hpipe : c.a.pipe = false) (hen : x.en = true) (hwrites : fabWrites s d = true) (hfence : siteFenced s d k RegionDecl.bmems = false)
    (hgsr : s.held d Blk.gsr = false) :
    bmStep s d k (some x) none = (s.free 256).2.setBmem d k { m with
      cells := (bmPuts c c.a x).foldl bmPut m.cells
      latchA := BitVec.ofNat 72 (bmWord c.a x.addr.toNat (fun j => SMap.get (fun _ => 0#9) m.cells j))
      flagA := 0 } := by
  subst hc hm
  have hclash : ∀ l : List ((Nat × Nat × Nat) × Nat), l.flatMap (fun _ => ([] : List (Nat × Nat × Nat))) = [] := fun l => by simp
  unfold bmStep
  simp only [hwrites, hfence, Bool.not_false, Bool.and_self, bmAct_chosen hchain hen, bmAct_none, BmAct.marks, List.map_nil, bmMeet_nil,
    Bool.and_false, bmLatch_old hecc hlatch, bmLatch_none, bmOut_unpiped hpipe, bmOut_none, List.nil_append, List.filterMap_nil, hclash,
    ite_self, List.foldl_nil, hgsr, Bool.false_and, Bool.false_eq_true, if_false]

/-- The edge of port A of a block in no chain is a step of that block alone. -/
theorem execBmemPortOp_portA {die : Die} {site : Fin 4096} (hc : c = bmCfg s die site) (hclk : fabClocked s die = true) (hchain : c.chain = 0)
    (htrack : trackRuns s die c.clkA = true) {u : State} (hu : bmStep s die site (some x) none = u) :
    execBmemPortOp die site (some x) none s =
      .next (u.ansData .ok (doReply (bmDoA c (u.bmem die site)) ++ doReply (bmDoB c (u.bmem die site)))) := by
  subst hu hc
  simp [execBmemPortOp, hclk, hchain, htrack, chainBase, chainLen]

end

/-! ## The accumulator and the narrowing of an arithmetic slice (R176, R178) -/

section
variable {g : ArithCfg} {r : Arith} {x : ArithDrive} {l : ArithLink}

/-- The accumulator's register takes the sum of what the registers before it hold, modulo 2^64, and beside it whether the sum fits. -/
theorem arithNext_accumulates (hrst : x.rst = false) (hacc : g.accReg = true) (hmul : g.mulReg = true) (hc : g.cDepth = 0)
    (hce : x.ce.getLsbD 3 = true) {sum : Int} (hsum : sum = accExact r.acc3 r.m.toInt r.p.toInt x.c.toInt l.p.toInt) :
    (arithNext g r x l).p = BitVec.ofInt 64 sum ∧ (arithNext g r x l).ovf = !fits64 sum := by
  subst hsum
  simp [arithNext, arithWires, hrst, hacc, hmul, hc, hce]

/-- A 64-bit register holds a value up to a multiple of 2^64. -/
theorem toInt_ofInt64 (x : Int) : ∃ k : Int, (BitVec.ofInt 64 x).toInt = x + k * 2 ^ 64 := by
  obtain ⟨k, hk⟩ := Int.dvd_bmod_sub_self (x := x) (m := 2 ^ 64)
  refine ⟨k, ?_⟩
  rw [BitVec.toInt_ofInt, ← sub_eq_iff_eq_add', hk]
  exact mul_comm _ k

/-- The flag is down exactly where the register holds the value itself. -/
theorem fits64_iff (x : Int) : fits64 x = true ↔ (BitVec.ofInt 64 x).toInt = x := by
  unfold fits64
  rw [decide_eq_true_iff]
  refine ⟨fun ⟨hlo, hhi⟩ => BitVec.toInt_ofInt_eq_self (by decide) hlo hhi, fun h => ?_⟩
  rw [← h]
  exact ⟨BitVec.le_toInt _, BitVec.toInt_lt⟩

end

section
variable {w : Nat} {p : BitVec 64} {sh : BitVec 6} {x : Int}

theorem satInt_mem (w : Nat) (x : Int) : -(2 ^ (w - 1) : Int) ≤ satInt w x ∧ satInt w x < (2 ^ (w - 1) : Int) := by
  have hpos : (0 : Int) < 2 ^ (w - 1) := by positivity
  unfold satInt
  omega

theorem satInt_of_ne (h : x ≠ satInt w x) : satInt w x = if x < 0 then -(2 ^ (w - 1) : Int) else 2 ^ (w - 1) - 1 := by
  have hpos : (0 : Int) < 2 ^ (w - 1) := by positivity
  unfold satInt at h ⊢
  split <;> omega

/-- A value that lies in a window of `w` bits is the one that the window's bits, sign-extended, give. -/
theorem sext_wrapNat (hw : 1 ≤ w) (h : x = satInt w x) : sext w (wrapNat w x) = x := by
  obtain ⟨hlo, hhi⟩ := satInt_mem w x
  rw [← h] at hlo hhi
  have hcast : sext w (wrapNat w x) = (BitVec.ofInt w x).toInt := by
    have hnonneg : 0 ≤ x % (2 ^ w : Int) := Int.emod_nonneg _ (by positivity)
    rw [BitVec.toInt_ofInt]
    unfold sext wrapNat
    rw [BitVec.toInt_ofNat', Int.toNat_of_nonneg hnonneg]
    exact_mod_cast Int.emod_bmod x (2 ^ w)
  exact hcast.trans (BitVec.toInt_ofInt_eq_self hw hlo hhi)

/-- A value in a window of up to 48 bits is held exactly by the output. -/
theorem toInt_ofInt48 (h48 : w ≤ 48) (hlo : -(2 ^ (w - 1) : Int) ≤ x) (hhi : x < (2 ^ (w - 1) : Int)) : (BitVec.ofInt 48 x).toInt = x := by
  have hle : (2 ^ (w - 1) : Int) ≤ 2 ^ 47 := pow_le_pow_right₀ (by decide) (by omega)
  exact BitVec.toInt_ofInt_eq_self (by decide) (by omega) (by omega)

theorem toInt_narrow_sat (h48 : w ≤ 48) : (narrow w true p sh).toInt = satInt w (narShift p sh) :=
  toInt_ofInt48 h48 (satInt_mem w _).1 (satInt_mem w _).2

/-- Where P fits the window, the output is P shifted down, with or without SAT. -/
theorem toInt_narrow_fits (hw : 1 ≤ w) (h48 : w ≤ 48) (h : narOvf w p sh = false) (sat : Bool) :
    (narrow w sat p sh).toInt = narShift p sh := by
  have hfit : narShift p sh = satInt w (narShift p sh) := by simpa [narOvf] using h
  cases sat with
  | true => exact (toInt_narrow_sat h48).trans hfit.symm
  | false =>
    obtain ⟨hlo, hhi⟩ := satInt_mem w (narShift p sh)
    rw [← hfit] at hlo hhi
    refine (congrArg (fun v => (BitVec.ofInt 48 v).toInt) (sext_wrapNat hw hfit)).trans (toInt_ofInt48 h48 hlo hhi)

/-- Shifting down keeps the sign. -/
theorem narShift_neg : narShift p sh < 0 ↔ p.toInt < 0 := by
  have hpos : (0 : Int) < ((2 ^ sh.toNat : Nat) : Int) := by positivity
  have hnonneg := Int.ediv_nonneg_iff_of_pos (a := p.toInt) hpos
  unfold narShift
  rw [BitVec.toInt_sshiftRight, Int.shiftRight_eq_div_pow]
  omega

theorem toInt_narrow_overflow (h48 : w ≤ 48) (h : narOvf w p sh = true) :
    (narrow w true p sh).toInt = if p.toInt < 0 then -(2 ^ (w - 1) : Int) else 2 ^ (w - 1) - 1 := by
  have hne : narShift p sh ≠ satInt w (narShift p sh) := by simpa [narOvf] using h
  rw [toInt_narrow_sat h48, satInt_of_ne hne]
  simp only [narShift_neg]

end
/-- Settles O32: a primitive that the edge reaches takes the branch of its rule that the hypotheses select, and the accumulator and the
narrowing are exact where the value fits. -/
theorem primitivesComplete : Obligations.PrimitivesComplete := by
  refine ⟨?_, ?_⟩
  · intro s die t
    refine ⟨?_, ?_, ?_, ?_, ?_, ?_, ?_⟩
    · rintro ff ins ce sr late k h c q out rfl rfl rfl rfl rfl
      refine ⟨fun hstill => congrArg _ (cellEdge_holds hstill), fun hrun hfence => ⟨fun hgsr => ?_, fun hgsr hlate hgwe => ?_,
        fun hgsr hlate hasync => ?_⟩⟩
      · exact congrArg _ (cellEdge_gsr hrun hfence hgsr)
      · exact congrArg _ (cellEdge_next hrun hfence hgsr hlate hgwe)
      · exact congrArg _ (cellEdge_late hrun hfence hgsr hlate hasync)
    · rintro p x c u hc hclk htrack hfence hgsr rfl
      exact congrArg _ (ioEdge_loads hc hclk htrack hfence hgsr)
    · intro ff hclk hfence hgsr hasync
      exact execAsyncSetReset_sets hclk hfence hgsr hasync
    · rintro lower upper ce xa ls rfl
      rfl
    · rintro cell ins mode addr u hwrites hce hcol hmode hgroup rfl hu
      exact execDistributedRamWrite_writes hwrites hce hcol hmode hgroup hu
    · rintro k x g r l w hclk hg hr rfl rfl htrack hfence
      have hfirst := fun xs => arithEdge_cons (t := s) (x := x) (xs := xs) (l := arithBelow s die k) (out := []) hg hr htrack hfence
      refine ⟨fun hgsr => ?_, fun hgsr => ⟨?_, ?_⟩⟩
      · have hedge := hfirst []
        rw [hgsr, if_pos rfl] at hedge
        exact execArithSliceEdge_inColumn hclk (by simp; omega) hedge
      · have hedge := hfirst []
        rw [hgsr, if_neg (by decide)] at hedge
        exact execArithSliceEdge_inColumn hclk (by simp; omega) hedge
      · rintro y g2 r2 l2 hplace hg2 hr2 rfl htrack2 hfence2
        have hedge := hfirst [y]
        rw [arithEdge_cons hg2 hr2 htrack2 hfence2, hgsr, if_neg (by decide), if_neg (by decide)] at hedge
        exact execArithSliceEdge_inColumn hclk (by simp; omega) hedge
    · rintro k x c m u hclk hc hm hecc hchain hlatch hpipe htrack hen hwrites hfence hgsr rfl
      exact execBmemPortOp_portA hc hclk hchain htrack (bmStep_portA hc hm hecc hchain hlatch hpipe hen hwrites hfence hgsr)
  · intro c r x l hrst
    refine ⟨?_, ?_⟩
    · intro hacc hmul hdepth hce sum hsum
      obtain ⟨hp, hovf⟩ := arithNext_accumulates hrst hacc hmul hdepth hce hsum
      rw [hp, hovf, Bool.not_eq_false', fits64_iff]
      exact ⟨toInt_ofInt64 sum, Iff.rfl⟩
    · intro w p sh hw h48
      obtain ⟨hlo, hhi⟩ := satInt_mem w (narShift p sh)
      rw [← toInt_narrow_sat h48] at hlo hhi
      exact ⟨hlo, hhi, toInt_narrow_fits hw h48, toInt_narrow_overflow h48⟩

end Sys2Proof.Machine
end

/-! # Capture (R162) -/

section
set_option Elab.async false
namespace Sys2Proof.Machine

/-! ## Aborting a capture (R162) -/

theorem capCtrl_writable : Writable ⟨.CFG_CAP_CTRL, 0, 0⟩ := by constructor <;> decide

section
variable {s : State} {m : Master} {die : Die}

/-- CFG_CAP_CTRL and CFG_CAP_STATUS share a cell, so that a write of the first leaves the second alone only where the cells are
canonical. -/
theorem capWaits_writeCtrl (hs : Canonical s) (x arm : Nat) :
    capWaits ((s.setReg die ⟨.CFG_CAP_CTRL, 0, 0⟩ x).p die R.CFG_CAP_CTRL.ARM arm) die = capWaits s die := by
  have hstate : R.CFG_CAP_STATUS.STATE.ok := ⟨by decide, by decide⟩
  have harm := State.g_p_other (s.setReg die ⟨.CFG_CAP_CTRL, 0, 0⟩ x) die die R.CFG_CAP_CTRL.ARM R.CFG_CAP_STATUS.STATE arm (by decide)
    hstate (State.p_wf s die _ x hs) (.inr (.inr (.inl (by decide))))
  have hreg : (s.setReg die ⟨.CFG_CAP_CTRL, 0, 0⟩ x).g die R.CFG_CAP_STATUS.STATE = s.g die R.CFG_CAP_STATUS.STATE :=
    State.g_p_other s die die _ R.CFG_CAP_STATUS.STATE x (by decide) hstate hs (.inr (.inr (.inl (by decide))))
  unfold capWaits capState
  rw [harm, hreg]

/-- A write of ABORT without ARM stores the register's fields, ARM as it stands, and ends a capture that waits. -/
theorem writeCap_abort {w : Wr} (harm : R.CFG_CAP_CTRL.ARM.of w.raw = 0) (habort : R.CFG_CAP_CTRL.ABORT.of w.raw = 1)
    (htrig : R.CFG_CAP_CTRL.TRIG.of w.new < 2) (hclk : R.CFG_CAP_CTRL.CLKSEL.of w.new < 48) {u : State}
    (hu : u = (s.setReg w.d w.r w.new).p w.d R.CFG_CAP_CTRL.ARM (if s.on w.d R.CFG_CAP_CTRL.ARM then 1 else 0)) :
    writeCap s w = (if capWaits u w.d then capIdle u w.d else u).ans .ok := by
  have h31 : w.raw.testBit 31 = false := (of_bit R.CFG_CAP_CTRL.ARM w.raw 0).symm.trans (by rw [harm]; rfl)
  have h30 : w.raw.testBit 30 = true := (of_bit R.CFG_CAP_CTRL.ABORT w.raw 0).symm.trans (by rw [habort]; rfl)
  subst hu
  simp [writeCap, h31, h30, htrig, hclk]

/-- Where the cells are canonical, an abort ends a capture that waits, and only such a one (R162). -/
theorem exec_captureAbort_canonical (hs : Canonical s) {r : RegRef} (hr : r = ⟨.CFG_CAP_CTRL, 0, 0⟩) (h : Reaches s m die r) {x : Nat}
    (hx : x = written s die r (named s die r [(R.CFG_CAP_CTRL.ARM, 0), (R.CFG_CAP_CTRL.ABORT, 1)]))
    (htrig : R.CFG_CAP_CTRL.TRIG.of x < 2) (hclk : R.CFG_CAP_CTRL.CLKSEL.of x < 48) {u : State}
    (hu : u = (s.setReg die r x).p die R.CFG_CAP_CTRL.ARM (if s.on die R.CFG_CAP_CTRL.ARM then 1 else 0)) :
    exec (.captureAbort m die) s = .next ((if capWaits s die then capIdle u die else u).ans .ok) := by
  subst hr hx
  have harm : R.CFG_CAP_CTRL.ARM.of (named s die ⟨.CFG_CAP_CTRL, 0, 0⟩ [(R.CFG_CAP_CTRL.ARM, 0), (R.CFG_CAP_CTRL.ABORT, 1)]) = 0 := by
    rw [of_named _ (by decide), List.foldl_cons, List.foldl_cons, List.foldl_nil, of_over_other _ _ _ _ (by decide), of_over_same,
      Nat.zero_mod]
  have habort : R.CFG_CAP_CTRL.ABORT.of (named s die ⟨.CFG_CAP_CTRL, 0, 0⟩ [(R.CFG_CAP_CTRL.ARM, 0), (R.CFG_CAP_CTRL.ABORT, 1)]) = 1 := by
    rw [of_named _ (by decide), List.foldl_cons, List.foldl_cons, List.foldl_nil, of_over_same]
    rfl
  have hwaits : capWaits u die = capWaits s die := (congrArg (capWaits · die) hu).trans (capWaits_writeCtrl hs _ _)
  have hwrite := writeCap_abort (s := s) (w := mkWr s m die ⟨.CFG_CAP_CTRL, 0, 0⟩ (named s die ⟨.CFG_CAP_CTRL, 0, 0⟩
    [(R.CFG_CAP_CTRL.ARM, 0), (R.CFG_CAP_CTRL.ABORT, 1)]) (2 ^ 32 - 1)) harm habort htrig hclk hu
  rw [← hwaits]
  exact congrArg _ ((poke_eq (r := ⟨.CFG_CAP_CTRL, 0, 0⟩) rfl _ _).trans (put32_ok h capCtrl_writable hwrite))

end

/-- The cell of CFG_CAP_CTRL and CFG_CAP_STATUS of die 0 is listed twice: at rest, and behind that with a capture ARMED. To write
CFG_CAP_CTRL as it stands gives the first entry its reset value, so it is unlisted, and the second is read from then on. -/
def capturesListedTwice : State := withCells [(0xC020, 0#64), (0xC020, 0x100000000#64)]

/-- Refutes O31: its clause on CAPTURE_ABORT asks nothing of the cells. Where the cell of CFG_CAP_CTRL is listed twice, the write of the
register brings an armed capture to light, which the abort then ends, though none waited before. Where the cells are canonical the clause
holds: `exec_captureAbort_canonical`. -/
theorem not_captureAndRegionsComplete : ¬ Obligations.CaptureAndRegionsComplete := by
  rintro ⟨hcapture, -⟩
  obtain ⟨-, habort, -⟩ := hcapture capturesListedTwice core0 0 ⟨.CFG_CAP_CTRL, 0, 0⟩ ⟨.CFG_RB_CTRL, 0, 0⟩ rfl rfl
  have hnext := habort _ _ (by unfold Reaches; decide +kernel) rfl (by decide +kernel) (by decide +kernel) rfl
  have hpoke : poke capturesListedTwice core0 0 [(R.CFG_CAP_CTRL.ARM, 0), (R.CFG_CAP_CTRL.ABORT, 1)] = _ := Host.Outcome.next.inj hnext
  have hstate := congrArg (capState · 0) hpoke
  exact absurd hstate (by decide +kernel)

end Sys2Proof.Machine
end

/-! # Crossing lines, port FIFOs, kernel slots and NoC ports of the fabric (R151 to R153, R183 to R196), and a bank's handover (R285) -/

section
set_option Elab.async false
namespace Sys2Proof.Machine

/-! ## Crossing lines (R151 to R153) -/

section
variable {s : State} {die : Die} {e : Fin 4} {g : Fin 540}

theorem execXingGroupUp_rises {o : Nat} (ho : crossingTo s die e = some o) (hd : pastGsr s die = true) (hn : pastGsr s o = true)
    (hdown : s.bit die R.FAB_XING_STATUS.LINK_UP e = false) {u : State}
    (hu : u = (xingClear s die e).setBit die R.FAB_XING_STATUS.LINK_UP e) :
    execXingGroupUp die e s =
      .next (if s.present o then (xingClear u o (farEdge e)).setBit o R.FAB_XING_STATUS.LINK_UP (farEdge e) else u) := by
  have hdev : u.dev = s.dev := by rw [hu, State.setBit_dev]; rfl
  have hpresent : u.present o = s.present o := by unfold State.present; rw [hdev]
  unfold execXingGroupUp
  rw [ho]
  simp only [hd, hn, hdown, and_self, if_true, ← hu, hpresent]

theorem execXingUnderrun_stops (hsync : xingSync s die e g = true) (hfence : xingFarFenced s die e g = false) :
    execXingUnderrun die e g s = .next ((s.setBit die R.FAB_XING_STATUS.UNDERRUN e).setXing (xingKey die e g)
      { s.xing (xingKey die e g) with word := (s.xing (xingKey die e g)).last, fifo := [], stopped := true }) := by
  simp [execXingUnderrun, hsync, hfence]

theorem execXingRecentre_restarts (hsync : xingSync s die e g = true) (hfence : xingFarFenced s die e g = false) :
    execXingRecentre die e g s =
      .next (s.setXing (xingKey die e g) { s.xing (xingKey die e g) with fifo := [], stopped := false }) := by
  simp [execXingRecentre, hsync, hfence]

end

section
variable {s : State} {d e g o key : Nat} {c : XingDecl} {x : XingSt} {word : Word} {ready : Bool}

/-- A group that is up, sent from a region whose fence is open, puts a word in the far side's FIFO while there is room. -/
theorem xingSend_stores (ho : crossingTo s d e = some o) (hc : xingDecl s d e g = some c) (hkey : key = xingKey o (farEdge e) g)
    (hx : x = s.xing key) (hclk : fabClocked s d = true) (hrun : clkRuns s d c.clk = true) (hup : xingUp s d e = true)
    (hp : s.present o = true) (hg : g < xingGroups e) (hfence : xingFenced s d e g = false) :
    (c.sync = true → x.stopped = false → x.fifo.length < 4 →
      xingSend s d e g word true = s.setXing key { x with fifo := x.fifo ++ [word] }) ∧
    (c.sync = false → x.fifo.length < 8 → xingSend s d e g word true =
      (s.setXing key { x with fifo := x.fifo ++ [word &&& 0x7FFFFFFF#32] }).ansData .ok [1]) := by
  subst hx hkey
  refine ⟨fun hsync hstop hroom => ?_, fun hsync hroom => ?_⟩
  · simp [xingSend, ho, hc, hclk, hrun, hup, hp, hg, hfence, hsync, hstop, Nat.not_le.mpr hroom]
  · simp [xingSend, ho, hc, hclk, hrun, hup, hp, hg, hfence, hsync, hroom]

variable (hc : xingDecl s d e g = some c) (hkey : key = xingKey d e g) (hx : x = s.xing key) (hclk : fabClocked s d = true)
  (hrun : clkRuns s d c.clk = true) (hg : g < xingGroups e)
include hc hclk hrun hg

theorem xingRecv_down (hup : xingUp s d e = false) : xingRecv s d e g ready = s.ansData .ok [0, 0] := by
  simp [xingRecv, hc, hclk, hrun, hg, hup]

include hkey hx

theorem xingRecv_syncWord {w : Word} {l : List Word} (hup : xingUp s d e = true) (hw : x.fifo = w :: l) (hsync : c.sync = true)
    (hstop : x.stopped = false) :
    xingRecv s d e g ready = (s.setXing key { x with word := w, fifo := l }).ansData .ok [w.zeroExtend 64, 1] := by
  subst hx hkey
  simp [xingRecv, hc, hclk, hrun, hg, hup, hw, hsync, hstop]

/-- A SYNC group with no new word presents its last one. -/
theorem xingRecv_syncEmpty (hup : xingUp s d e = true) (hw : x.fifo = []) (hsync : c.sync = true) :
    xingRecv s d e g ready = s.ansData .ok [x.word.zeroExtend 64, 1] := by
  subst hx hkey
  simp [xingRecv, hc, hclk, hrun, hg, hup, hw, hsync]

end

/-! ## User event lines (R429) -/

theorem execEvtirqLevel_drives {s : State} {line : Fin 32} (level : Bool)
    (h : s.dies.any (fun d => (s.designOf d).irqs.any (fun x => x.1 == line.val)) = true) :
    execEvtirqLevel line level s =
      .next { s with usr := if level then s.usr ||| (1#32 <<< line.val) else s.usr &&& ~~~ (1#32 <<< line.val) } :=
  congrArg _ (if_pos h)

/-! ## Port FIFOs (R183 to R186) -/

section
variable {s : State} {die : Die} {n : Fin 8} {w : FWord} {l : List FWord}

theorem notePoison_clean {d k : Nat} (h : w.sb.getLsbD 9 = false) : notePoison s d k w = s := if_neg (by rw [h]; decide)

theorem abortOpen_open {d k : Nat} (h : (s.fifo d (8 + k)).open_ = true) : abortOpen s d k =
    (s.setFifo d (8 + k) ⟨beforeOpen (s.fifo d (8 + k)).words, false⟩).inc d (R.FAB_PFIFO_DROP.FRAMES (8 + k)) 1 := if_pos h

variable (hrun : pairRuns s die n = true)
include hrun

theorem execPfifoIngressTransfer_word (hw : (s.fifo die n).words = w :: l) : execPfifoIngressTransfer die n s =
    .next (((notePoison s die n w).setFifo die n { s.fifo die n with words := l }).ansData .ok (fwordReply w)) := by
  simp [execPfifoIngressTransfer, hrun, hw]

theorem execPfifoIngressDrop_word (hw : (s.fifo die n).words = w :: l) : execPfifoIngressDrop die n s =
    .next ((s.setFifo die n { s.fifo die n with words := afterEop (w :: l) }).inc die (R.FAB_PFIFO_DROP.FRAMES n) 1) := by
  simp [execPfifoIngressDrop, hrun, hw]

/-- A word that is a frame's first exactly where no frame is open is stored, and the port engine then looks at what stands in front. -/
theorem execPfifoEgressTransfer_stores (hroom : (s.fifo die (8 + n)).words.length < 512) (hsop : isSop w = !(s.fifo die (8 + n)).open_)
    (hpoison : w.sb.getLsbD 9 = false) : execPfifoEgressTransfer die n w s = .next (egressFlags (takeOut 512
      (s.setFifo die (8 + n) ⟨(s.fifo die (8 + n)).words ++ [w], !isEop w⟩) die n) die n) := by
  simp [execPfifoEgressTransfer, hrun, Nat.not_le.mpr hroom, hsop, notePoison_clean hpoison]

theorem execPfifoEgressTransfer_framing (hroom : (s.fifo die (8 + n)).words.length < 512) (hsop : isSop w = false)
    (hopen : (s.fifo die (8 + n)).open_ = false) :
    execPfifoEgressTransfer die n w s = .next (egressFlags (s.p die (R.FAB_PFIFO_STATUS.FRAMING (8 + n)) 1) die n) := by
  simp [execPfifoEgressTransfer, hrun, Nat.not_le.mpr hroom, hsop, hopen]

end

/-! ## Kernel slots (R188 to R190) -/

section
variable {s : State} {die : Die} {k : Fin 64} {x : Kslot} {c : KCpl} {idle : Bool}

theorem execKslotDescTransfer_front {ws : List Word} {t : BitVec 16} {l : List (List Word × BitVec 16)} (hx : x = s.kslot die k)
    (hrun : slotRuns s die k = true) (hon : slotState s die k = Slot.online) (hd : x.descs = (ws, t) :: l) :
    execKslotDescTransfer die k s idle = .next ((showIdle (s.setKslot die k { x with descs := l }) die k idle).ansData .ok
      (ws.map (fun w => w.zeroExtend 64) ++ [t.zeroExtend 64])) := by
  subst hx
  simp [execKslotDescTransfer, hrun, hon, hd]

theorem execKslotCompletion_held (hx : x = s.kslot die k) (hrun : slotRuns s die k = true) (hheld : x.held = []) (hout : c.ticket ∈ x.outst)
    (hsent : ∀ e ∈ x.descs, e.2 ≠ c.ticket) : execKslotCompletion die k c s idle = .next (showIdle (s.setKslot die k { x with
      held := [(c, portWrites s die (s.g die (R.FAB_KSLOT_CFG.PORTMASK k)))], abort := x.abort.erase c.ticket }) die k idle) := by
  subst hx
  have hnone : ((s.kslot die k).descs.any (fun e => e.2 == c.ticket)) = false :=
    List.any_eq_false.mpr fun e he => by simpa using hsent e he
  simp [execKslotCompletion, hrun, hheld, hout, hnone]

/-- A completion of a ticket that is not outstanding is counted; only the first raises the event. -/
theorem execKslotCompletion_bad (hx : x = s.kslot die k) (hrun : slotRuns s die k = true) (hheld : x.held = []) (hout : c.ticket ∉ x.outst)
    (hcount : s.g die (R.FAB_KSLOT_STATUS.BAD_CPL k) ≠ 0) :
    execKslotCompletion die k c s idle = .next (showIdle (s.incSat die (R.FAB_KSLOT_STATUS.BAD_CPL k)) die k idle) := by
  subst hx
  simp [execKslotCompletion, hrun, hheld, hout, hcount]

theorem execKslotCompletionRelease_passes {w : List (Nat × Nat)} {l : List (KCpl × List (Nat × Nat))} (hx : x = s.kslot die k)
    (hp : s.present die = true) (hdfd : s.held die Blk.dfd = false) (hheld : x.held = (c, w) :: l) (hready : heldReady s die w = true)
    (hroom : s.cplRoom die = true) : execKslotCompletionRelease die k s =
      .next ((s.setKslot die k { x with held := l, outst := x.outst.erase c.ticket }).sendCpl die (kslotCpl k c)) := by
  subst hx
  simp [execKslotCompletionRelease, hp, hdfd, hheld, hready, hroom]

end

/-! ## NoC ports of the fabric, the master side (R193, R194) -/

section
variable {s : State} {die : Die} {p : Fin 32}

/-- A port in which no response waits for its clock delivers none. -/
theorem portDeliver_idle (h : ∀ q ∈ (s.nport die p).reqs, q.ready = false) : portDeliver s die p = s := by
  have hany : (s.nport die p).reqs.any (fun q => q.ready) = false := List.any_eq_false.mpr fun q hq => by simp [h q hq]
  exact if_neg (by simp [hany])

/-- A request that a port asks the network for under internal tag `i`. -/
def portAsk (s : State) (die : Die) (p : Fin 32) (tag : Fin 256) (i : Nat) (addr : DWord) (op : NocOp) (bytes beats : Nat) : NpReq :=
  ⟨tag, i, ⟨portMaster s die p, ⟨i % 512, Nat.mod_lt _ (by decide)⟩, op, addr, bytes, [], []⟩, beats, false, false⟩

/-- What R194 asks of a burst is kept by one beat, and by an aligned burst within a page that is no atomic. -/
theorem burstBad_kept {x : NpReq} {op n : Nat} (h : n = 0 ∨ (¬ (2 ≤ op ∧ op ≤ 4) ∧ x.req.addr.toNat % 64 = 0 ∧
    x.req.addr.toNat / 4096 = (x.req.addr.toNat + 64 * (n + 1) - 1) / 4096)) : burstBad x op (n + 1) = false := by
  obtain rfl | ⟨hop, halign, hpage⟩ := h
  · rfl
  · unfold burstBad
    dsimp only
    rw [decide_eq_false hop, halign, ← hpage]
    simp

theorem burstBad_atomic {x : NpReq} {op n : Nat} (hop : 2 ≤ op ∧ op ≤ 4) (hn : 0 < n) : burstBad x op (n + 1) = true := by
  unfold burstBad
  rw [decide_eq_true hop, decide_eq_true (by omega : 2 ≤ n + 1)]
  rfl

variable {tag : Fin 256} {i : Nat} {addr : DWord} {len : Fin 64} {size : Bool} (hrun : portRuns s die p = true)
  (hready : ∀ q ∈ (s.nport die p).reqs, q.ready = false)
include hrun hready

/-- The last beat completes the oldest request that waits for one, and the request goes out. -/
theorem execNocPortWriteBeat_last {data : BitVec 512} {be : DWord} {poison : Byte} {x y : NpReq}
    (hx : (s.nport die p).reqs.find? (fun q => decide (0 < q.beats)) = some x)
    (hy : y = { x with
      req := { x.req with
        data := x.req.data ++ beatWords data poison
        be := x.req.be ++ (List.range 8).map (fun i => (be >>> (8 * i)).truncate 8) }
      beats := 0 }) :
    execNocPortWriteBeat die p data be poison true s = .next (portSend s die p (finishBeat s die y data be)) := by
  subst hy
  simp [execNocPortWriteBeat, hrun, portDeliver_idle hready, hx]

/-- A port that runs takes a request under a tag that it has not in use. -/
theorem portRequest_taken (hfence : portFenced s die p = false) (htag : ∀ q ∈ (s.nport die p).reqs, q.ftag ≠ tag.val) :
    (if portRuns s die p then portDeliver s die p else s) = s ∧ (portRuns s die p = true ∧ portFenced s die p = false ∧
      (s.nport die p).reqs.all (fun q => q.ftag != tag.val || q.quar) = true) := by
  have hall : (s.nport die p).reqs.all (fun q => q.ftag != tag.val || q.quar) = true :=
    List.all_eq_true.mpr fun q hq => by simp [htag q hq]
  exact ⟨(if_pos hrun).trans (portDeliver_idle hready), hrun, hfence, hall⟩

variable (hfence : portFenced s die p = false) (htag : ∀ q ∈ (s.nport die p).reqs, q.ftag ≠ tag.val) (hi : freeItag s die p = some i)
include hfence htag hi

/-- A write whose beats keep to R194 waits for them under its internal tag. -/
theorem exec_nocPortRequest_write
    (hburst : len.val = 0 ∨ (addr.toNat % 64 = 0 ∧ addr.toNat / 4096 = (addr.toNat + 64 * (len.val + 1) - 1) / 4096)) :
    exec (.nocPortRequest die p 1 addr len size tag) s = .next (s.setNport die p { s.nport die p with
      reqs := (s.nport die p).reqs ++ [portAsk s die p tag i addr .write (64 * (len.val + 1)) (len.val + 1)] }) := by
  obtain ⟨hdeliver, htake⟩ := portRequest_taken hrun hready hfence htag
  have hgood : ∀ x : NpReq, x.req.addr = addr → burstBad x 1 (len.val + 1) = false :=
    fun x hx => burstBad_kept (hx ▸ hburst.imp_right fun h => ⟨by decide, h⟩)
  change execNocPortRequest die p 1 addr len size tag s = _
  unfold execNocPortRequest
  simp only [hdeliver]
  rw [if_pos htake, hi]
  simp [hgood, portOp, portAsk]

/-- An atomic of one beat waits for its operand. -/
theorem exec_nocPortRequest_atomicAdd : exec (.nocPortRequest die p 2 addr 0 size tag) s = .next (s.setNport die p { s.nport die p with
    reqs := (s.nport die p).reqs ++ [portAsk s die p tag i addr .atomicAdd (if size then 8 else 4) 1] }) := by
  obtain ⟨hdeliver, htake⟩ := portRequest_taken hrun hready hfence htag
  have hgood : ∀ x : NpReq, burstBad x 2 1 = false := fun x => burstBad_kept (.inl rfl)
  change execNocPortRequest die p 2 addr 0 size tag s = _
  unfold execNocPortRequest
  simp only [hdeliver]
  rw [if_pos htake, hi]
  simp [hgood, portOp, portAsk]

theorem exec_nocPortRequest_atomicBurst (hlen : 0 < len.val) : exec (.nocPortRequest die p 2 addr len size tag) s =
    .next { s with reply := ⟨.targetError, [⟨BitVec.ofNat 64 tag, false⟩]⟩ } := by
  obtain ⟨hdeliver, htake⟩ := portRequest_taken hrun hready hfence htag
  have hbad : ∀ x : NpReq, burstBad x 2 (len.val + 1) = true := fun x => burstBad_atomic (by decide) hlen
  change execNocPortRequest die p 2 addr len size tag s = _
  unfold execNocPortRequest
  simp only [hdeliver]
  rw [if_pos htake, hi]
  simp [hbad, portAnswer, State.ans]

/-- A port without a cache may not ask for one's operations. -/
theorem exec_nocPortRequest_uncached (hp : 16 ≤ p.val) : exec (.nocPortRequest die p 5 addr len size tag) s =
    .next { s with reply := ⟨.accessError, [⟨BitVec.ofNat 64 tag, false⟩]⟩ } := by
  obtain ⟨hdeliver, htake⟩ := portRequest_taken hrun hready hfence htag
  change execNocPortRequest die p 5 addr len size tag s = _
  unfold execNocPortRequest
  simp only [hdeliver]
  rw [if_pos htake, hi]
  simp [hp, portAnswer, State.ans]

/-- A read of DRAM goes out at once, for the bytes to the end of its line. -/
theorem exec_nocPortRequest_readDram {ch a k : Nat} (hdram : decodeAddr s (portMaster s die p) die addr.toNat = .dram ch a k) :
    exec (.nocPortRequest die p 0 addr 0 size tag) s =
      .next (portSend s die p (portAsk s die p tag i addr .read (64 - addr.toNat % 64) 0)) := by
  obtain ⟨hdeliver, htake⟩ := portRequest_taken hrun hready hfence htag
  have hgood : ∀ x : NpReq, burstBad x 0 1 = false := fun x => burstBad_kept (.inl rfl)
  change execNocPortRequest die p 0 addr 0 size tag s = _
  unfold execNocPortRequest
  simp only [hdeliver]
  rw [if_pos htake, hi]
  simp [hgood, hdram, portOp, portAsk]

end

/-! ## NoC ports of the fabric, the target side (R196) -/

section
variable {s u : State} {die : Die} {p : Fin 32} {tag : Fin 64} {q : Req} {off : Nat}

section
variable (hport : targetPort s q = some (die.val, p.val, off)) (hnet : s.netOf q.m.rid q.tag = none)
  (hwaits : uncachedWaits s q q.tag = false) (hroute : routeTo s (s.dieOfRid q.m.rid) die = (none, u))
include hport hnet hwaits hroute

/-- A request to a port's window that nothing holds back is shown to the fabric. -/
theorem execNocTargetRequest_shows : execNocTargetRequest die p tag q s = .next (
    if u.held die Blk.gsr || portFenced u die p then u.ans .targetError
    else if (u.nport die p).tgt.any (fun t => t.1 == tag.val) then u
    else
      let v := u.setNport die p { u.nport die p with tgt := (u.nport die p).tgt ++ [(tag.val, q)] }
      (if (v.netOf q.m.rid q.tag).isNone then v.sendNet q q.tag (.flying 0) else v).ansData .ok [BitVec.ofNat 64 off]) := by
  simp [execNocTargetRequest, hport, hnet, hwaits, showTarget, hroute]

theorem execNocTargetRequest_shut (hshut : (u.held die Blk.gsr || portFenced u die p) = true) :
    execNocTargetRequest die p tag q s = .next (u.ans .targetError) := by
  rw [execNocTargetRequest_shows hport hnet hwaits hroute, if_pos hshut]

theorem execNocTargetRequest_open (hopen : (u.held die Blk.gsr || portFenced u die p) = false)
    (hfree : ∀ t ∈ (u.nport die p).tgt, t.1 ≠ tag.val) {v : State}
    (hv : v = u.setNport die p { u.nport die p with tgt := (u.nport die p).tgt ++ [(tag.val, q)] }) :
    execNocTargetRequest die p tag q s = .next ((if (v.netOf q.m.rid q.tag).isNone then v.sendNet q q.tag (.flying 0) else v).ansData
      .ok [BitVec.ofNat 64 off]) := by
  have hany : (u.nport die p).tgt.any (fun t => t.1 == tag.val) = false := List.any_eq_false.mpr fun t ht => by simpa using hfree t ht
  rw [execNocTargetRequest_shows hport hnet hwaits hroute, if_neg (by simp [hopen]), if_neg (by simp [hany]), hv]

end

section
variable {ws : List MWord} {r : NetReq} (hrun : portRuns s die p = true)
  (hfind : (s.nport die p).tgt.find? (fun t => t.1 == tag.val) = some (tag.val, q)) (hnet : s.netOf q.m.rid q.tag = some r) (hreq : r.req = q)
  (hu : u = s.setNport die p { s.nport die p with tgt := (s.nport die p).tgt.filter (fun t => t.1 != tag.val) })
include hrun hfind hnet hreq hu

/-- The answer to a read that its requester still waits for goes back. -/
theorem execNocTargetResponse_read (hquar : r.quar = false) (hop : q.op = .read) (hlen : ws.length = reqWords q) :
    execNocTargetResponse die p tag .ok ws s = .next { u.putNet q.m.rid q.tag none with reply := ⟨.ok, ws⟩ } := by
  have hwords : (List.range (reqWords q)).map (fun k => ws.getD k ⟨0, false⟩) = ws := by
    refine List.ext_getElem (by simp [hlen]) fun k h1 h2 => ?_
    rw [List.getElem_map, List.getElem_range, List.getD_eq_getElem _ _ h2]
  have hstays : u.netOf q.m.rid q.tag = some r := hu ▸ hnet
  unfold execNocTargetResponse
  simp only [hrun, if_true, hfind, ← hu, hstays, hreq, hquar, hop, hwords, ne_eq, not_true_eq_false, if_false, Bool.false_eq_true, and_self]

/-- An answer that comes after the requester's timeout is discarded. -/
theorem execNocTargetResponse_late (hquar : r.quar = true) :
    execNocTargetResponse die p tag .ok ws s = .next (lateOne u q.m.rid q.tag) := by
  have hstays : u.netOf q.m.rid q.tag = some r := hu ▸ hnet
  unfold execNocTargetResponse
  simp only [hrun, if_true, hfind, ← hu, hstays, hreq, hquar, ne_eq, not_true_eq_false, if_false]

end

end

/-! ## A bank's handover (R285) -/

theorem execHandoverComplete_pending {s : State} {die : Die} {b : Fin 8} (hp : s.present die = true)
    (hpend : s.on die (R.BNK_STATUS.HANDOVER_PENDING b) = true) (hwipe : s.on die (R.BNK_STATUS.WIPING b) = false) :
    execHandoverComplete die b s = .next (handoverEnd s die b) :=
  congrArg _ (if_pos ⟨hp, hpend, hwipe⟩)

/-- Settles O34: each transfer has the effect of the branch that its hypotheses select, and a request of a port is judged by its operation
and its beats. -/
theorem fabricPortsComplete : Obligations.FabricPortsComplete := by
  refine ⟨?_, ?_, ?_⟩
  · intro s die n k e g
    refine ⟨?_, ?_, ?_, ?_, ?_, ?_, ?_⟩
    · intro o u ho hd hn hdown hu
      exact execXingGroupUp_rises ho hd hn hdown hu
    · rintro x key rfl rfl hsync hfence
      exact ⟨execXingUnderrun_stops hsync hfence, execXingRecentre_restarts hsync hfence⟩
    · intro o key c x word ho hc hkey hx hclk hrun hup hp hg hfence
      obtain ⟨hsyncs, hasyncs⟩ := xingSend_stores (word := word) ho hc hkey hx hclk hrun hup hp hg hfence
      exact ⟨fun hsync hstop hroom => congrArg _ (hsyncs hsync hstop hroom), fun hsync hroom => congrArg _ (hasyncs hsync hroom)⟩
    · intro key c x ready hc hkey hx hclk hrun hg
      refine ⟨fun hup => ?_, fun w l hup hw hsync hstop => ?_, fun hup hw hsync => ?_⟩
      · exact congrArg _ (xingRecv_down hc hclk hrun hg hup)
      · exact congrArg _ (xingRecv_syncWord hc hkey hx hclk hrun hg hup hw hsync hstop)
      · exact congrArg _ (xingRecv_syncEmpty hc hkey hx hclk hrun hg hup hw hsync)
    · intro line hdriven
      exact ⟨execEvtirqLevel_drives true hdriven, execEvtirqLevel_drives false hdriven⟩
    · intro hrun
      refine ⟨fun w l hw => ⟨?_, ?_⟩, fun w hroom hsop hpoison => ?_, fun w hroom hsop hopen => ?_, fun hopen => ?_⟩
      · exact execPfifoIngressTransfer_word hrun hw
      · exact execPfifoIngressDrop_word hrun hw
      · exact execPfifoEgressTransfer_stores hrun hroom hsop hpoison
      · exact execPfifoEgressTransfer_framing hrun hroom hsop hopen
      · exact congrArg _ ((if_pos hrun).trans (abortOpen_open hopen))
    · intro x hx
      refine ⟨?_, fun c idle hrun hheld => ⟨?_, ?_⟩, ?_⟩
      · intro ws t l idle hrun hon hd
        exact execKslotDescTransfer_front hx hrun hon hd
      · intro hout hsent
        exact execKslotCompletion_held hx hrun hheld hout hsent
      · intro hout hcount
        exact execKslotCompletion_bad hx hrun hheld hout hcount
      · intro c w l hp hdfd hheld hready hroom
        exact execKslotCompletionRelease_passes hx hp hdfd hheld hready hroom
  · intro s die p hrun hready
    refine ⟨?_, ?_⟩
    · intro addr tag i len size ask hfence htag hi hask
      obtain rfl : ask = portAsk s die p tag i addr := funext fun op => funext fun bytes => funext fun beats => hask op bytes beats
      refine ⟨?_, ?_, ?_, ?_, ?_⟩
      · intro hburst
        exact exec_nocPortRequest_write hrun hready hfence htag hi hburst
      · exact exec_nocPortRequest_atomicAdd hrun hready hfence htag hi
      · intro hlen
        exact exec_nocPortRequest_atomicBurst hrun hready hfence htag hi hlen
      · intro hp
        exact exec_nocPortRequest_uncached hrun hready hfence htag hi hp
      · rintro ⟨ch, a, k, hdram⟩
        exact exec_nocPortRequest_readDram hrun hready hfence htag hi hdram
    · intro data be poison x hx y hy
      exact execNocPortWriteBeat_last hrun hready hx hy
  · intro s die p
    refine ⟨?_, ?_, ?_⟩
    · intro tag q off hport hnet hwaits u hroute
      refine ⟨?_, ?_⟩
      · intro hshut
        exact execNocTargetRequest_shut hport hnet hwaits hroute hshut
      · intro v hopen hfree hv
        exact execNocTargetRequest_open hport hnet hwaits hroute hopen hfree hv
    · intro tag q ws r u hrun hfind hnet hreq hu
      refine ⟨?_, ?_⟩
      · intro hquar hop hlen
        exact execNocTargetResponse_read hrun hfind hnet hreq hu hquar hop hlen
      · intro hquar
        exact execNocTargetResponse_late hrun hfind hnet hreq hu hquar
    · intro b hp hpend hwipe
      exact execHandoverComplete_pending hp hpend hwipe

end Sys2Proof.Machine
end

/-! # The leading-sign count of an arithmetic slice (R179) -/

section
set_option Elab.async false
namespace Sys2Proof.Machine

/-! ## Redundant sign bits -/

section
variable {w : Nat} (x : BitVec w)

/-- The count stops at the first bit below the top one, from the top down, that differs from it. -/
theorem redundantSign_eq_findIdx :
    redundantSign x = (List.range (w - 1)).findIdx (fun i => !(x.getLsbD (w - 2 - i) == x.getLsbD (w - 1))) := by
  rw [redundantSign, List.takeWhile_eq_take_findIdx_not, List.length_take_of_le List.findIdx_le_length]

theorem redundantSign_le : redundantSign x ≤ w - 1 := by
  rw [redundantSign_eq_findIdx]
  exact List.findIdx_le_length.trans_eq List.length_range

variable {x}

/-- Every bit that is counted is a copy of the sign. -/
theorem getLsbD_of_lt_redundantSign {i : Nat} (hi : i < redundantSign x) : x.getLsbD (w - 2 - i) = x.getLsbD (w - 1) := by
  rw [redundantSign_eq_findIdx] at hi
  simpa using List.not_of_lt_findIdx hi

/-- The bit after the last one counted is not. -/
theorem getLsbD_redundantSign_ne (h : redundantSign x < w - 1) : x.getLsbD (w - 2 - redundantSign x) ≠ x.getLsbD (w - 1) := by
  rw [redundantSign_eq_findIdx] at h ⊢
  simpa using List.findIdx_getElem (w := h.trans_eq List.length_range.symm)

theorem getLsbD_shiftLeft_of_le {i n : Nat} (hi : i < w) (hn : n ≤ i) : (x <<< n).getLsbD i = x.getLsbD (i - n) := by
  rw [BitVec.getLsbD_shiftLeft, decide_eq_true hi, decide_eq_false hn.not_gt]
  rfl

/-- The shift by the count keeps the sign: what it brings to the top is the sign bit, or the last of its copies. -/
theorem getLsbD_shiftLeft_redundantSign_top (h : redundantSign x < w - 1) :
    (x <<< redundantSign x).getLsbD (w - 1) = x.getLsbD (w - 1) := by
  rw [getLsbD_shiftLeft_of_le (by omega) h.le]
  rcases Nat.eq_zero_or_pos (redundantSign x) with hzero | hpos
  · rw [hzero, Nat.sub_zero]
  · have hlast := getLsbD_of_lt_redundantSign (Nat.sub_lt hpos Nat.one_pos)
    rwa [show w - 2 - (redundantSign x - 1) = w - 1 - redundantSign x by omega] at hlast

/-- Shifted left by the count, a value is normalised: the bit below its sign differs from it. -/
theorem shiftLeft_redundantSign_normalised (h : redundantSign x < w - 1) :
    (x <<< redundantSign x).getLsbD (w - 2) ≠ (x <<< redundantSign x).getLsbD (w - 1) := by
  rw [getLsbD_shiftLeft_of_le (by omega) (by omega), getLsbD_shiftLeft_redundantSign_top h]
  exact getLsbD_redundantSign_ne h

end

/-! ## The narrow stage -/

section
variable {g : ArithCfg} {r : Arith} {x : ArithDrive} {l : ArithLink}

/-- An edge loads O and LSC together, both of the P on the wires before it. -/
theorem arithNext_narrows (hrst : x.rst = false) (hnar : g.narReg = true) (hce : x.ce.getLsbD 4 = true) :
    (arithNext g r x l).o = narrow g.oWidth g.sat (arithWires g r x l).p (arithWires g r x l).sh4 ∧
      (arithNext g r x l).lsc = BitVec.ofNat 6 (redundantSign (arithWires g r x l).p) := by
  simp [arithNext, arithWires, hrst, hnar, hce]

/-- With ACC_REG the narrow stage sees the accumulator's register, and the SHIFT kept beside it. -/
theorem arithWires_accReg (hacc : g.accReg = true) : (arithWires g r x l).p = r.p ∧ (arithWires g r x l).sh4 = r.sh4 := by
  simp [arithWires, hacc]

/-- Six bits hold the count of a 64-bit value. -/
theorem toNat_ofNat_redundantSign (p : BitVec 64) : (BitVec.ofNat 6 (redundantSign p)).toNat = redundantSign p :=
  Nat.mod_eq_of_lt (Nat.lt_succ_of_le (redundantSign_le p))

end

/-- Settles O33: the count is the place of the first bit that differs from the sign, and the narrow stage takes O and LSC from the same
wires. -/
theorem lscNormalises : Obligations.LscNormalises := by
  refine ⟨?_, ?_⟩
  · rintro p n rfl
    exact ⟨redundantSign_le p, fun i hi => getLsbD_of_lt_redundantSign hi,
      fun h => ⟨getLsbD_redundantSign_ne h, shiftLeft_redundantSign_normalised h⟩⟩
  · intro c r x l hrst hnar hce
    obtain ⟨ho, hlsc⟩ := arithNext_narrows (r := r) (l := l) hrst hnar hce
    refine ⟨(arithWires c r x l).p, (arithWires c r x l).sh4, arithWires_accReg, ho, ?_⟩
    rw [hlsc]
    exact toNat_ofNat_redundantSign _

end Sys2Proof.Machine
end

/-! # Program memory's code (R248) -/

section
set_option Elab.async false
namespace Sys2Proof.Machine

/-! ## The weight of a value, and a code's check bits as a linear map -/

theorem xor_mod_two (a b : Nat) : (a ^^^ b) % 2 = a % 2 ^^^ b % 2 := Nat.xor_mod_two_pow (n := 1)

theorem xor_div_two (a b : Nat) : (a ^^^ b) / 2 = a / 2 ^^^ b / 2 := Nat.xor_div_two_pow (n := 1)

/-- The weight of a sum of bits is even or odd as the two weights together are. -/
theorem popcount_xor_mod_two (n a b : Nat) : popcount n (a ^^^ b) % 2 = (popcount n a + popcount n b) % 2 := by
  induction n generalizing a b with
  | zero => rfl
  | succ n ih =>
    have hrest := ih (a / 2) (b / 2)
    simp only [popcount, xor_div_two, xor_mod_two]
    rcases Nat.mod_two_eq_zero_or_one a with ha | ha <;> rcases Nat.mod_two_eq_zero_or_one b with hb | hb <;>
      simp only [ha, hb, Nat.xor_self, Nat.xor_zero, Nat.zero_xor] <;> omega

/-- The XOR of columns is linear in the word that selects them. -/
theorem secdedXor_xor (l : List Nat) (u v : Nat) : secdedXor l (u ^^^ v) = secdedXor l u ^^^ secdedXor l v := by
  induction l generalizing u v with
  | nil => simp [secdedXor]
  | cons h l ih =>
    have hcol : (if (u ^^^ v) % 2 = 1 then h else 0) = (if u % 2 = 1 then h else 0) ^^^ (if v % 2 = 1 then h else 0) := by
      rw [xor_mod_two]
      rcases Nat.mod_two_eq_zero_or_one u with hu | hu <;> rcases Nat.mod_two_eq_zero_or_one v with hv | hv <;> simp [hu, hv]
    simp only [secdedXor, xor_div_two, ih, hcol]
    ac_rfl

/-! ## The (39,32) code (R248) -/

theorem pmCheck_xor (u v : Word) : pmCheck (u ^^^ v) = pmCheck u ^^^ pmCheck v := by
  simp only [pmCheck, BitVec.toNat_xor, secdedXor_xor, BitVec.ofNat_xor]

/-- The instruction of a stored word, and the syndrome: what the check bits differ by from those of the instruction. -/
def pmData (x : BitVec 39) : Word := x.extractLsb' 0 32
def pmSyn (x : BitVec 39) : BitVec 7 := x.extractLsb' 32 7 ^^^ pmCheck (pmData x)

theorem pmData_xor (x y : BitVec 39) : pmData (x ^^^ y) = pmData x ^^^ pmData y := BitVec.extractLsb'_xor

theorem pmSyn_xor (x y : BitVec 39) : pmSyn (x ^^^ y) = pmSyn x ^^^ pmSyn y := by
  simp only [pmSyn, pmData_xor, pmCheck_xor, BitVec.extractLsb'_xor]
  ac_rfl

theorem pmData_pmPack (w : Word) (c : BitVec 7) : pmData (pmPack w c) = w := by
  unfold pmData pmPack
  exact BitVec.extractLsb'_append_eq_right 

/-- A stored instruction's syndrome is 0. -/
theorem pmSyn_pmPack (w : Word) : pmSyn (pmPack w (pmCheck w)) = 0 := by
  have hc : (pmPack w (pmCheck w)).extractLsb' 32 7 = pmCheck w := BitVec.extractLsb'_append_eq_left
  rw [pmSyn, pmData_pmPack, hc, BitVec.xor_self]
  rfl

/-- What the syndrome says of a fetched word: which bits of the instruction to flip, and whether that corrects an error; none where it is
uncorrectable. -/
def pmFlips (y : Nat) : Option (Word × Bool) :=
  if y = 0 then some (0, false)
  else if popcount 7 y = 1 then some (0, true)
  else (pmCols.findIdx? (fun g => g == y)).map (fun j => (1#32 <<< j, true))

theorem pmSee_eq (x : BitVec 39) : pmSee x = (pmFlips (pmSyn x).toNat).map (fun f => (pmData x ^^^ f.1, f.2)) := by
  unfold pmSee pmFlips
  extract_lets w y
  have hw : pmData x = w := rfl
  have hy : (pmSyn x).toNat = y := rfl
  rw [hw, hy]
  split
  · simp
  · split
    · simp
    · cases pmCols.findIdx? (fun g => g == y) <;> rfl

/-- A fetch finds in a stored instruction with flipped bits what it finds in the flipped bits alone, added to the instruction. -/
theorem pmSee_pmPack_xor (w : Word) (e : BitVec 39) :
    pmSee (pmPack w (pmCheck w) ^^^ e) = (pmSee e).map (fun f => (w ^^^ f.1, f.2)) := by
  have hsyn : pmSyn (pmPack w (pmCheck w) ^^^ e) = pmSyn e := by rw [pmSyn_xor, pmSyn_pmPack]; exact BitVec.zero_xor
  rw [pmSee_eq, pmSee_eq, hsyn, pmData_xor, pmData_pmPack, Option.map_map]
  simp only [Function.comp_def, BitVec.xor_assoc]

/-- The column of bit `i` of a stored word: an instruction bit's of R248, or a check bit's own. -/
def pmColumn (i : Nat) : Nat := (pmCols ++ [1, 2, 4, 8, 16, 32, 64]).getD i 0

/-- One flipped bit has its column as syndrome. -/
theorem pmSyn_flip : ∀ i < 39, (pmSyn (1#39 <<< i)).toNat = pmColumn i := by decide +kernel

theorem pmColumn_odd : ∀ i < 39, popcount 7 (pmColumn i) % 2 = 1 := by decide +kernel

theorem pmColumn_inj : ∀ i < 39, ∀ j < 39, pmColumn i = pmColumn j → i = j := by decide +kernel

theorem pmSee_zero : pmSee 0#39 = some (0, false) := by decide +kernel
theorem pmSee_flip : ∀ i < 39, pmSee (1#39 <<< i) = some (0, true) := by decide +kernel

theorem pmCols_odd : ∀ g ∈ pmCols, popcount 7 g % 2 = 1 := by decide +kernel

/-- A syndrome of even weight, other than 0, is uncorrectable. -/
theorem pmFlips_even {y : Nat} (h0 : y ≠ 0) (heven : popcount 7 y % 2 = 0) : pmFlips y = none := by
  have h1 : popcount 7 y ≠ 1 := by omega
  have hnone : pmCols.findIdx? (fun g => g == y) = none := by
    simp only [List.findIdx?_eq_none_iff, beq_eq_false_iff_ne]
    rintro g hg rfl
    have := pmCols_odd g hg
    omega
  simp [pmFlips, h0, h1, hnone]

theorem pmSee_flip_flip {i j : Nat} (hij : i < j) (hj : j < 39) : pmSee (1#39 <<< i ^^^ 1#39 <<< j) = none := by
  have hi : i < 39 := by omega
  have hsyn : (pmSyn (1#39 <<< i ^^^ 1#39 <<< j)).toNat = pmColumn i ^^^ pmColumn j := by
    rw [pmSyn_xor, BitVec.toNat_xor, pmSyn_flip i hi, pmSyn_flip j hj]
  have hdiff : pmColumn i ^^^ pmColumn j ≠ 0 := by
    intro h
    have := pmColumn_inj i hi j hj (Nat.xor_eq_zero_iff.mp h)
    omega
  have heven : popcount 7 (pmColumn i ^^^ pmColumn j) % 2 = 0 := by
    have := pmColumn_odd i hi
    have := pmColumn_odd j hj
    rw [popcount_xor_mod_two]
    omega
  rw [pmSee_eq, hsyn, pmFlips_even hdiff heven]
  rfl

/-- Settles O39: by linearity a fetch finds the flipped bits alone; one flipped bit's syndrome is its column, and two differing columns of
odd weight add up to an even one. -/
theorem programMemoryCode : Obligations.ProgramMemoryCode := by
  intro w
  refine ⟨?_, fun i hi => ?_, fun i j hij hj => ?_⟩
  · simpa [pmSee_zero] using pmSee_pmPack_xor w 0
  · simp [pmSee_pmPack_xor, pmSee_flip i hi]
  · rw [BitVec.xor_assoc, pmSee_pmPack_xor, pmSee_flip_flip hij hj, Option.map_none]

end Sys2Proof.Machine
end

/-! # What signal engines compute (R226 to R231) -/

section
set_option Elab.async false
namespace Sys2Proof.Machine

/-! ## Values held to a width -/

section
variable {w : Nat} {x : Int}

/-- A value fits in a width exactly when the width holds it unchanged. -/
theorem fits_iff (hw : 1 ≤ w) : fits w x = true ↔ (BitVec.ofInt w x).toInt = x := by
  unfold fits
  rw [decide_eq_true_eq]
  refine ⟨fun ⟨hlo, hhi⟩ => BitVec.toInt_ofInt_eq_self hw hlo hhi, fun h => ?_⟩
  have hlo := BitVec.le_toInt (BitVec.ofInt w x)
  have hhi := BitVec.toInt_lt (x := BitVec.ofInt w x)
  rw [h] at hlo hhi
  exact ⟨hlo, hhi⟩

/-- Saturation shows in SATF exactly where the exact value does not fit. -/
theorem satOr_satf : (satOr w true x).2 = Sticky.satf ↔ fits w x = false := by
  unfold satOr
  cases fits w x <;> simp [Sticky.satf, Sticky.none]

theorem shiftLeft_ovf {n : Nat} : (shiftLeft w false x n).2 = Sticky.ovf ↔ fits w (x * 2 ^ n) = false := by
  unfold shiftLeft
  cases h : fits w (x * 2 ^ n) <;> simp [h, Sticky.ovf, Sticky.none]

theorem shiftLeft_fst (n : Nat) : (shiftLeft w false x n).1 = x * 2 ^ n := by
  unfold shiftLeft
  cases h : fits w (x * 2 ^ n) <;> simp [h]

/-- AOV is clear exactly where the accumulator's lane holds the exact result. -/
theorem accOp_none {op : Nat} {old : BitVec 48} {v : Int} : (accOp op old v).2 = Sticky.none ↔
    (accOp op old v).1.toInt = if op = 0 then v else if op = 1 then old.toInt + v else old.toInt - v := by
  unfold accOp
  extract_lets r
  rw [← fits_iff (by decide)]
  cases fits 48 r <;> simp [Sticky.aov, Sticky.none]

end

/-! ## Shifts -/

section
variable {w : Nat} (a : BitVec w) (n : Nat)

theorem ofInt_toInt_mul_two_pow : BitVec.ofInt w (a.toInt * 2 ^ n) = a <<< n := by
  have hpow : BitVec.ofInt w (2 ^ n) = BitVec.twoPow w n := by
    apply BitVec.eq_of_toNat_eq
    rw [BitVec.toNat_ofInt, BitVec.toNat_twoPow]
    norm_cast
  rw [BitVec.ofInt_mul, BitVec.ofInt_toInt, hpow, BitVec.shiftLeft_eq_mul_twoPow]

theorem ofInt_toNat_div_two_pow : BitVec.ofInt w (a.toNat / 2 ^ n : Nat) = a >>> n := by
  rw [BitVec.ofInt_natCast, ← Nat.shiftRight_eq_div_pow, ← BitVec.toNat_ushiftRight, BitVec.ofNat_toNat, BitVec.setWidth_eq]

theorem ofInt_toInt_div_two_pow : BitVec.ofInt w (a.toInt / 2 ^ n) = a.sshiftRight n := by
  rw [BitVec.sshiftRight_eq, Int.shiftRight_eq_div_pow]
  norm_cast

/-- A left shift of at most the width is exact where the shift back brings the value again. -/
theorem fits_mul_two_pow (hw : 1 ≤ w) (hn : n ≤ w) : fits w (a.toInt * 2 ^ n) = true ↔ (a <<< n).sshiftRight n = a := by
  have hpos : (2 ^ n : Int) ≠ 0 := by positivity
  have hcast : ((2 ^ n : Nat) : Int) = 2 ^ n := by norm_cast
  have hdvd : (2 ^ n : Int) ∣ (a <<< n).toInt := by
    have hw2 : (2 ^ n : Int) ∣ ((2 ^ w : Nat) : Int) := by
      push_cast
      exact pow_dvd_pow 2 hn
    rw [← ofInt_toInt_mul_two_pow, BitVec.toInt_ofInt, Int.bmod_eq_self_sub_mul_bdiv]
    exact dvd_sub (dvd_mul_left _ _) (hw2.mul_right _)
  rw [fits_iff hw, ofInt_toInt_mul_two_pow, ← BitVec.toInt_inj, BitVec.toInt_sshiftRight, Int.shiftRight_eq_div_pow, hcast,
    Int.ediv_eq_iff_eq_mul_left hpos hdvd]

end

/-! ## Saturation and NORM -/

section
variable {w : Nat} {a b : BitVec w}

theorem fits_add_eq_false : fits w (a.toInt + b.toInt) = false ↔ a.saddOverflow b = true := by
  rw [fits, BitVec.saddOverflow, decide_eq_false_iff_not, Bool.or_eq_true, decide_eq_true_eq, decide_eq_true_eq]
  omega

/-- A value all of whose bits are copies of its sign is 0 or has every bit set. -/
theorem getLsbD_of_redundantSign_eq (h : redundantSign a = w - 1) {i : Nat} (hi : i < w) :
    a.getLsbD i = a.getLsbD (w - 1) := by
  rcases Nat.eq_or_lt_of_le (Nat.le_sub_one_of_lt hi) with rfl | hlt
  · rfl
  · have hcopy := getLsbD_of_lt_redundantSign (x := a) (i := w - 2 - i) (by omega)
    rwa [show w - 2 - (w - 2 - i) = i by omega] at hcopy

/-- Shifted left by its redundant sign bits, a value other than 0 has two unlike bits at the top. -/
theorem normalised (hw : 2 ≤ w) (ha : a ≠ 0) :
    (a <<< redundantSign a).getLsbD (w - 1) ≠ (a <<< redundantSign a).getLsbD (w - 2) := by
  rcases Nat.eq_or_lt_of_le (redundantSign_le a) with h | h
  · have hsign : a.getLsbD (w - 1) = true := by
      by_contra hclear
      refine ha (BitVec.eq_of_getLsbD_eq fun i hi => ?_)
      rw [getLsbD_of_redundantSign_eq h hi, Bool.eq_false_of_not_eq_true hclear, BitVec.ofNat_eq_ofNat, BitVec.getLsbD_zero]
    have htop : (a <<< redundantSign a).getLsbD (w - 1) = true := by
      rw [getLsbD_shiftLeft_of_le (by omega) h.le, getLsbD_of_redundantSign_eq h (by omega), hsign]
    have hbelow : (a <<< redundantSign a).getLsbD (w - 2) = false := by
      rw [BitVec.getLsbD_shiftLeft, decide_eq_true (show w - 2 < redundantSign a by omega)]
      simp
    rw [htop, hbelow]
    decide
  · exact (shiftLeft_redundantSign_normalised h).symm

end

/-! ## Lanes -/

/-- The low bits of a number are those that a word of that width holds of it. -/
theorem wrapNat_eq (w : Nat) (x : Int) : wrapNat w x = (BitVec.ofInt w x).toNat := by
  rw [BitVec.toNat_ofInt, wrapNat]
  norm_cast

theorem sext_of_wrapNat (w : Nat) (x : Int) : sext w (wrapNat w x) = (BitVec.ofInt w x).toInt := by
  rw [sext, wrapNat_eq, BitVec.ofNat_toNat, BitVec.setWidth_eq]

/-- The number whose digits to the base `2 ^ w` are the low bits of `ls`, the lowest digit first. -/
def packNat (w : Nat) (ls : List Int) : Nat := ls.foldr (fun x (a : Nat) => wrapNat w x + a * 2 ^ w) 0

theorem packNat_cons (w : Nat) (x : Int) (ls : List Int) : packNat w (x :: ls) = wrapNat w x + packNat w ls * 2 ^ w := rfl

theorem packNat_lt (w : Nat) (ls : List Int) : packNat w ls < 2 ^ (w * ls.length) := by
  induction ls with
  | nil => simp [packNat]
  | cons x ls ih =>
    have hx : wrapNat w x < 2 ^ w := by rw [wrapNat_eq]; exact (BitVec.ofInt w x).isLt
    calc wrapNat w x + packNat w ls * 2 ^ w
        < (packNat w ls + 1) * 2 ^ w := by rw [Nat.succ_mul]; omega
      _ ≤ 2 ^ (w * ls.length) * 2 ^ w := Nat.mul_le_mul_right _ ih
      _ = 2 ^ (w * (x :: ls).length) := by rw [List.length_cons, Nat.mul_succ, Nat.pow_add]

/-- Each digit stands in its own place. -/
theorem fld_packNat (w : Nat) (ls : List Int) {i : Nat} (hi : i < ls.length) : fld (packNat w ls) (w * i) w = wrapNat w ls[i] := by
  induction ls generalizing i with
  | nil => exact absurd hi (Nat.not_lt_zero i)
  | cons x ls ih =>
    have hx : wrapNat w x < 2 ^ w := by rw [wrapNat_eq]; exact (BitVec.ofInt w x).isLt
    cases i with
    | zero => simp [fld, packNat_cons, Nat.mod_eq_of_lt hx]
    | succ i =>
      have hrest : packNat w (x :: ls) / 2 ^ w = packNat w ls := by
        rw [packNat_cons, Nat.add_mul_div_right _ _ (Nat.two_pow_pos w), Nat.div_eq_of_lt hx, Nat.zero_add]
      rw [List.getElem_cons_succ, ← ih (Nat.lt_of_succ_lt_succ hi), fld, fld, Nat.mul_succ, Nat.add_comm, Nat.pow_add,
        ← Nat.div_div_eq_div_mul, hrest]

/-- A lane read from a vector made of lanes, where whole lanes fill a word. -/
theorem lane_packLanes {w n j : Nat} (hw : w * n = 64) (f : Nat → Int) (hj : j < 8 * n) :
    lane (packLanes w f) w j = (BitVec.ofInt w (f j)).toInt := by
  have hn : 0 < n := Nat.pos_of_ne_zero (by rintro rfl; simp at hw)
  have hwpos : 0 < w := Nat.pos_of_ne_zero (by rintro rfl; simp at hw)
  have hperWord : 64 / w = n := by rw [← hw, Nat.mul_div_cancel_left _ hwpos]
  have hword : w * j / 64 = j / n := by rw [← hw, Nat.mul_div_mul_left _ _ hwpos]
  have hplace : w * j % 64 = w * (j % n) := by rw [← hw, Nat.mul_mod_mul_left]
  have hk : j / n < 8 := Nat.div_lt_of_lt_mul (by omega)
  let ls := (List.range n).map (fun i => f (j / n * n + i))
  have hlen : ls.length = n := by simp [ls]
  have hval : (packWord w ls).toNat = packNat w ls := by
    refine Nat.mod_eq_of_lt ?_
    rw [← hw, ← hlen]
    exact packNat_lt w ls
  have hget : (packLanes w f).getD (j / n) ⟨0, false⟩ = ⟨packWord w ls, false⟩ := by
    simp [packLanes, hperWord, hk, ls]
  have hdigit := fld_packNat w ls (i := j % n) (by rw [hlen]; exact Nat.mod_lt j hn)
  rw [lane, laneNat, hword, hplace, hget, hval, hdigit, sext_of_wrapNat]
  simp [ls, Nat.div_add_mod']

/-! ## The functions of SALU (R226) -/

theorem saluFn_shl (a b : Word) : BitVec.ofInt 32 (saluFn 5 a b).1 = a <<< (b.toNat % 32) := by
  rw [← ofInt_toInt_mul_two_pow]
  exact congrArg _ (shiftLeft_fst _)

theorem saluFn_shl_ovf (a b : Word) :
    (saluFn 5 a b).2 = Sticky.ovf ↔ (a <<< (b.toNat % 32)).sshiftRight (b.toNat % 32) ≠ a := by
  have hn : b.toNat % 32 ≤ 32 := by omega
  rw [Ne, ← fits_mul_two_pow a _ (by decide) hn, Bool.not_eq_true]
  exact shiftLeft_ovf

theorem saluFn_adds_satf (a b : Word) : (saluFn 16 a b).2 = Sticky.satf ↔ a.saddOverflow b = true :=
  satOr_satf.trans fits_add_eq_false

theorem saluFn_norm (a b : Word) : BitVec.ofInt 32 (saluFn 15 a b).1 = a <<< redundantSign a := by
  have hred : redSign 32 a.toInt = redundantSign a := by rw [redSign, BitVec.ofInt_toInt]
  rw [← ofInt_toInt_mul_two_pow, ← hred]
  rfl

/-- Settles O38: each function's exact result is held to its width, which changes it exactly where it does not fit. -/
theorem seArithmetic : Obligations.SeArithmetic := by
  intro a b
  refine ⟨⟨?_, ?_, ?_, ?_, ?_⟩, ⟨saluFn_shl a b, saluFn_shl_ovf a b⟩, saluFn_adds_satf a b, ?_, fun op old v _ _ _ => accOp_none,
    fun w f j hw hj => ?_⟩
  · exact (BitVec.ofInt_add _ _).trans (by simp only [BitVec.ofInt_toInt])
  · have hneg : BitVec.ofInt 32 (a.toInt + -b.toInt) = a - b := by
      rw [BitVec.ofInt_add, BitVec.ofInt_neg, BitVec.ofInt_toInt, BitVec.ofInt_toInt, ← BitVec.sub_eq_add_neg]
    exact hneg
  · exact (BitVec.ofInt_mul _ _).trans (by simp only [BitVec.ofInt_toInt])
  · exact ofInt_toNat_div_two_pow a _
  · exact ofInt_toInt_div_two_pow a _
  · rw [saluFn_norm]
    exact normalised (by decide)
  · rcases hw with rfl | rfl | rfl
    · exact lane_packLanes (n := 8) rfl f (by omega)
    · exact lane_packLanes (n := 4) rfl f (by omega)
    · exact lane_packLanes (n := 2) rfl f (by omega)

end Sys2Proof.Machine
end

/-! # Control instructions of a signal engine (R225, R232 to R235, R239, R243) -/

section
set_option Elab.async false
namespace Sys2Proof.Machine

/-! ## Issue (R218, R224, R225) -/

/-- What becomes of engine `i`, which was in state `e`, when its instruction has answered. -/
def SeRes.settle (d i : Nat) (e : SEng) : SeRes → State → State
  | .err c r ch, s => seError s d i c r ch e.pc
  | .ok t e' npc, _ => seRetire t d i e' npc e.br

section
variable {s t : State} {d i op w : Nat} {e e' : SEng} {f : State → SEng → Nat → SeRes} {npc : Option Nat}

/-- An engine that issues a word asks the function of its opcode, and nothing before that changes the state. -/
theorem Issues.seIssue_eq (h : Issues s d i e op w) : seIssue s d i op f = (f s e w).settle d i e s := by
  obtain ⟨hissues, rfl, ⟨x, hfetch, rfl⟩, hop, ⟨u, huses, hunused⟩, hdelay, hblock⟩ := h
  have hnote : pmNote s d i (s.eng d i).pc = s := by simp [pmNote, hfetch]
  have hplace : ¬ ((s.eng d i).br.isSome ∧ seNoDelay op) := fun ⟨hb, hn⟩ => by simp [hdelay hb] at hn
  have hrepeat : ¬ ((s.eng d i).outer.isSome ∧ seNoBlock op) := fun ⟨hb, hn⟩ => by simp [hblock hb] at hn
  simp only [seIssue, hissues, hfetch, hop, huses, hnote, hunused, hplace, hrepeat, ne_eq, not_true_eq_false, if_true, if_false, or_false]
  cases f s (s.eng d i) x.toNat <;> rfl

/-- The instruction takes effect and leaves its slot behind. -/
theorem Issues.seIssue_ok (h : Issues s d i e op w) (hf : f s e w = .ok t e' npc) :
    seIssue s d i op f = seRetire t d i e' npc e.br := by
  rw [h.seIssue_eq, hf]
  rfl

/-- The instruction raises an error. -/
theorem Issues.seIssue_err {c r ch : Nat} (h : Issues s d i e op w) (hf : f s e w = .err c r ch) :
    seIssue s d i op f = seError s d i c r ch e.pc := by
  rw [h.seIssue_eq, hf]
  rfl

theorem Issues.seIssues_eq (h : Issues s d i e op w) : seIssues s d i = true := by
  obtain ⟨hissues, -⟩ := h
  exact hissues

/-- What cannot stand in a delay slot issues in none, and what cannot stand in a repeat block in none. -/
theorem Issues.br_eq (h : Issues s d i e op w) (hop : seNoDelay op = true) : e.br = none := by
  obtain ⟨-, -, -, -, -, hdelay, -⟩ := h
  exact Option.not_isSome_iff_eq_none.mp fun hb => by simp [hdelay hb] at hop

theorem Issues.outer_eq (h : Issues s d i e op w) (hop : seNoBlock op = true) : e.outer = none := by
  obtain ⟨-, -, -, -, -, -, hblock⟩ := h
  exact Option.not_isSome_iff_eq_none.mp fun hb => by simp [hblock hb] at hop

/-- An instruction that issues outside any delay slot. -/
theorem Issues.seIssue_ok_noDelay (h : Issues s d i e op w) (hop : seNoDelay op = true) (hf : f s e w = .ok t e' npc) :
    seIssue s d i op f = seRetire t d i e' npc none := by
  rw [h.seIssue_ok hf, h.br_eq hop]

/-- An engine at a word that it issues fetches that word. -/
theorem Issues.seFetch_eq (h : Issues s d i e op w) : seFetch s d i e = some w := by
  obtain ⟨-, -, ⟨x, hfetch, rfl⟩, -⟩ := h
  simp [seFetch, hfetch]

/-- The bits that an instruction's format does not use are 0. -/
theorem Issues.and_unused {u : Nat} (h : Issues s d i e op w) (hu : seUses op = some u) : w % 2 ^ 26 &&& (2 ^ 26 - 1 - u) = 0 := by
  obtain ⟨-, -, -, -, ⟨u', hu', hunused⟩, -⟩ := h
  rwa [Option.some.inj (hu.symm.trans hu')]

end

/-! ## Results in flight (R220) -/

/-- A scalar result that sets no sticky bit. -/
theorem SEng.sendS_plain (e : SEng) (lat r : Nat) (x : Int) : e.sendS lat r (x, 0) = e.send lat (.s r ⟨BitVec.ofInt 32 x, false⟩) := rfl

theorem SEng.sendS_nat (e : SEng) (lat r n : Nat) : e.sendS lat r ((n : Int), 0) = e.send lat (.s r ⟨BitVec.ofNat 32 n, false⟩) := by
  rw [sendS_plain, BitVec.ofInt_natCast]

/-! ## What each control instruction answers (R225, R232 to R235, R239, R243) -/

section
variable {s : State} {d i w : Nat} {e : SEng}

theorem seBrc_taken (hc : fld w 18 3 ≤ 5) (hp : (e.sreg (fld w 21 5)).p = false) : seBrc s e w =
    .ok s { e with br := some (2, if brcMeets (fld w 18 3) (e.sreg (fld w 21 5)).v.toInt then some (seRel e w) else none) } none := by
  simp [seBrc, hc, hp, seJump, seOk]

theorem seCall_eq : seCall s e w =
    .ok s { e.send 2 (.s 31 ⟨BitVec.ofNat 32 ((e.pc + 3) % 16384), false⟩) with br := some (2, some (seRel e w)) } none := by
  rw [seCall, SEng.sendS_nat]
  rfl

theorem seJr_eq (hp : (e.sreg (fld w 21 5)).p = false) : seJr s e w =
    .ok s { e with br := some (2, some ((e.sreg (fld w 21 5)).v.toNat % 16384)) } none := by
  simp [seJr, hp, seJump, seOk]

theorem seDone_eq (hn : fld w 23 3 ≤ 4) (hp : ∀ k, k < 2 * fld w 23 3 → (e.sreg (24 + k)).p = false) (he : seDmaErr e [0, 1] = none) :
    seDone s e w = .ok s { e with fin := some (seTokens e (fld w 23 3)) } (some e.pc) := by
  have hclean : (List.range (2 * fld w 23 3)).any (fun k => (e.sreg (24 + k)).p) = false := by
    simpa [List.any_eq_false] using hp
  simp [seDone, hn, hclean, he]

section
variable {n last : Nat} {b : Rep} (hn : n = (if fld w 25 1 = 1 then (e.sreg (fld w 20 5)).v.toNat else fld w 0 12))
  (hlast : last = e.pc + fld w 14 6 + 1) (hin : e.inner = none) (hfit : last ≤ 16383) (hcount : n ≤ 4095)
  (hp : fld w 25 1 = 1 → (e.sreg (fld w 20 5)).p = false)
include hn hlast hin hfit hcount hp

/-- REP outside any block, with a count and a block that it accepts. -/
theorem seRep_outer (hout : e.outer = none) : seRep s e w =
    if n = 0 then .ok s { e with lc0 := 0 } (some (last + 1))
    else .ok s { e with lc0 := n, outer := some ⟨e.pc + 1, last⟩ } none := by
  have hmark : ¬ (fld w 25 1 = 1 ∧ (e.sreg (fld w 20 5)).p = true) := fun ⟨h1, h2⟩ => by simp [hp h1] at h2
  have hlow : ¬ 4095 < n := by omega
  have hshort : ¬ 16383 < last := by omega
  simp only [seRep, ← hn, ← hlast, hin, hout, hmark, hlow, hshort, seOk]
  split <;> simp_all

/-- REP in an outer block that reaches as far. A block whose count is 0 is skipped. -/
theorem seRep_inner (hout : e.outer = some b) (hb : last ≤ b.last) : seRep s e w =
    if n = 0 then .ok s ({ e with lc1 := 0 }.outerEnd last).1 (some ({ e with lc1 := 0 }.outerEnd last).2)
    else .ok s { e with lc1 := n, inner := some ⟨e.pc + 1, last⟩ } none := by
  have hmark : ¬ (fld w 25 1 = 1 ∧ (e.sreg (fld w 20 5)).p = true) := fun ⟨h1, h2⟩ => by simp [hp h1] at h2
  have hlow : ¬ 4095 < n := by omega
  have hshort : ¬ 16383 < last := by omega
  have hinside : ¬ b.last < last := by omega
  simp only [seRep, ← hn, ← hlast, hin, hout, hmark, hlow, hshort, hinside, seOk]
  split <;> simp_all

end

theorem seMovc_read {d v : Nat} (hdir : fld w 0 1 = 0) (hc : ctlRead s d i e (fld w 16 5) = some v) : seMovc d i s e w =
    .ok s (e.send 2 (.s (fld w 21 5) ⟨BitVec.ofNat 32 v, false⟩)) none := by
  simp only [seMovc, hdir, hc, seOk, SEng.sendS_nat, if_true]

theorem seMovc_write {x : SeDst} {v : Word} {c : Nat} (hdir : fld w 0 1 = 1) (hc : c = fld w 16 5) (h4 : c ≤ 4)
    (hv : v = (e.sreg (fld w 21 5)).v) (hp : (e.sreg (fld w 21 5)).p = false)
    (hx : x = (if c = 0 then .stat v else if c = 1 then .bx (v.toNat % 64) else if c = 2 then .ipc v else if c = 3 then .istat v
      else .ivec v)) :
    seMovc d i s e w = .ok s (e.send 2 x) none := by
  have hlisted : ¬ 4 < c := by omega
  simp only [seMovc, hdir, ← hc, ← hv, hp, hlisted, hx, seOk]
  simp only [Nat.one_ne_zero, if_false, Bool.false_eq_true]
  split_ifs <;> rfl

theorem seWait_eq (hmask : fld w 0 3 ≠ 0) (he : seDmaErr e (waitChs (fld w 0 3)) = none) : seWait s e w = .ok s e none := by
  simp [seWait, hmask, he, seOk]

theorem seBxset_eq (hn : fld w 0 6 ≤ 47) : seBxset s e w = .ok s (e.send 2 (.bx (fld w 0 6))) none :=
  if_neg (Nat.not_lt.mpr hn)

theorem seDma_eq {ws : List MWord} {t : State} {a : Nat} (hp : (e.sreg (fld w 16 5)).p = false)
    (ha : a = (e.sreg (fld w 16 5)).v.toNat % 2 ^ 18) (halign : a % 32 = 0) (hread : dmRead s d i (a / 8) 4 = (ws, t))
    (hmarked : marked ws = false) (hok : dmaOk ws = true) : seDma d i s e w =
      .ok t (e.setCh (fld w 0 1) { e.ch (fld w 0 1) with run := some (dmaParse ws), done := 0 }) none := by
  simp only [seDma, hp, ← ha, halign, hread, hmarked, hok, seOk]
  simp

end

/-! ## WAIT and DMA, which can hold the engine (R220, R222) -/

section
variable {s : State} {die : Die} {g : Fin 48} {e : SEng} {w : Nat}

/-- A value with no bit above its lowest three. -/
theorem lt_eight_of_and {n : Nat} (hn : n < 2 ^ 26) (h : n &&& (2 ^ 26 - 1 - 7) = 0) : n < 8 := by
  have hshift : n >>> 3 &&& (2 ^ 23 - 1) = 0 := by
    have := congrArg (· >>> 3) h
    simpa [Nat.shiftRight_and_distrib] using this
  rw [Nat.and_two_pow_sub_one_eq_mod, Nat.shiftRight_eq_div_pow] at hshift
  omega

theorem Issues.waitHolds_eq (h : Issues s die g e 0x0A w) (hmask : fld w 0 3 ≠ 0) :
    waitHolds s die g = !waitReady e (fld w 0 3) := by
  have hsmall := lt_eight_of_and (Nat.mod_lt w (Nat.two_pow_pos 26)) (h.and_unused (u := 7) rfl)
  have hfld : w % 8 = fld w 0 3 := by simp [fld]
  have hbr := h.br_eq rfl
  have hout := h.outer_eq rfl
  have hfetch := h.seFetch_eq
  obtain ⟨-, he, -, hop, -⟩ := h
  simp only [waitHolds, ← he, hfetch, hop, hsmall, hbr, hout, hfld]
  simp [hmask]

theorem exec_wait_ready (h : Issues s die g e 0x0A w) (hmask : fld w 0 3 ≠ 0) (hr : waitReady e (fld w 0 3) = true)
    (he : seDmaErr e (waitChs (fld w 0 3)) = none) : exec (.wait die g) s = .next (seRetire s die g e none none) := by
  have hgo : ¬ (seIssues s die g = true ∧ waitHolds s die g = true) := by simp [h.waitHolds_eq hmask, hr]
  exact congrArg _ ((if_neg hgo).trans (h.seIssue_ok_noDelay rfl (seWait_eq hmask he)))

theorem exec_wait_holds (h : Issues s die g e 0x0A w) (hmask : fld w 0 3 ≠ 0) (hr : waitReady e (fld w 0 3) = false) :
    exec (.wait die g) s = .next (s.setSeState die g SeState.wait) := by
  have hstay : waitHolds s die g = true := by simp [h.waitHolds_eq hmask, hr]
  exact congrArg _ (if_pos ⟨h.seIssues_eq, hstay⟩)

theorem exec_dma {t : State} {f : SEng} (h : Issues s die g e 0x0B w) (hidle : (e.ch (fld w 0 1)).busy = false)
    (hf : seDma die g s e w = .ok t f none) : exec (.dma die g) s = .next (seRetire t die g f none e.br) := by
  have hgo : ¬ (seIssues s die g = true ∧ dmaStalls s die g = true) := by
    have hfetch := h.seFetch_eq
    obtain ⟨-, he, -⟩ := h
    simp [dmaStalls, ← he, hfetch, hidle]
  exact congrArg _ ((if_neg hgo).trans (h.seIssue_ok hf))

end

/-- Settles O35: an engine that issues a word asks the function of its opcode, and each clause is what that function answers. -/
theorem seControlComplete : Obligations.SeControlComplete := by
  intro s die g e w
  refine ⟨fun h => ?_, fun h => ?_, fun h hc hp => ?_, fun h => ?_, fun h hp => ?_, fun h => ?_,
    fun n last hn hlast h hin hfit hcount hp => ?_, fun h hn hp he => ?_, fun h => ?_,
    fun h => ⟨fun v hdir hc => ?_, fun c v x hdir hc h4 hv hp hx => ?_⟩,
    fun h hmask => ⟨exec_wait_ready h hmask, exec_wait_holds h hmask⟩,
    fun a ws u h hidle hp ha halign hread hmarked hok => exec_dma h hidle (seDma_eq hp ha halign hread hmarked hok), fun h hn => ?_⟩
  · exact congrArg _ (h.seIssue_ok rfl)
  · exact congrArg _ (h.seIssue_ok_noDelay rfl rfl)
  · exact congrArg _ (h.seIssue_ok_noDelay rfl (seBrc_taken hc hp))
  · exact congrArg _ (h.seIssue_ok_noDelay rfl seCall_eq)
  · exact congrArg _ (h.seIssue_ok_noDelay rfl (seJr_eq hp))
  · exact congrArg _ (h.seIssue_ok_noDelay rfl rfl)
  · have houter := seRep_outer (s := s) hn hlast hin hfit hcount hp
    have hinner := fun b => seRep_inner (s := s) (b := b) hn hlast hin hfit hcount hp
    refine ⟨fun hout hne => ?_, fun hout hz => ?_, fun b hout hb hne => ?_, fun b hout hb hz => ?_⟩
    · exact congrArg _ (h.seIssue_ok_noDelay rfl ((houter hout).trans (if_neg hne)))
    · exact congrArg _ (h.seIssue_ok_noDelay rfl ((houter hout).trans (if_pos hz)))
    · exact congrArg _ (h.seIssue_ok_noDelay rfl ((hinner b hout hb).trans (if_neg hne)))
    · exact congrArg _ (h.seIssue_ok_noDelay rfl ((hinner b hout hb).trans (if_pos hz)))
  · exact congrArg _ (h.seIssue_ok_noDelay rfl (seDone_eq hn hp he))
  · exact congrArg _ (h.seIssue_ok rfl)
  · exact congrArg _ (h.seIssue_ok (seMovc_read hdir hc))
  · exact congrArg _ (h.seIssue_ok (seMovc_write hdir hc h4 hv hp hx))
  · exact congrArg _ (h.seIssue_ok (seBxset_eq hn))

end Sys2Proof.Machine
end

/-! # Scalar and memory instructions of a signal engine (R223, R225, R226, R247) -/

section
set_option Elab.async false
namespace Sys2Proof.Machine

/-! ## Immediates (R224) -/

/-- The 16-bit immediate of an instruction, as its bits. -/
theorem fld_imm16 (w : Nat) : fld w 0 16 = (BitVec.ofNat 16 w).toNat := by simp [fld]

theorem sext_imm16 (w : Nat) : sext 16 (fld w 0 16) = (BitVec.ofNat 16 w).toInt := by
  rw [fld_imm16, sext, BitVec.ofNat_toNat, BitVec.setWidth_eq]

/-! ## What each scalar instruction answers (R225, R226) -/

section
variable {s : State} {d i w : Nat} {e : SEng}

theorem seSalu_eq {a b : SReg} (ha : a = e.sreg (fld w 16 5)) (hb : b = e.sreg (fld w 11 5)) (hfn : fld w 0 5 ≤ 17)
    (hpa : a.p = false) (hpb : b.p = false) : seSalu s e w =
      .ok s (e.sendS (if fld w 0 5 = 12 ∨ fld w 0 5 = 13 then 3 else 2) (fld w 21 5) (saluFn (fld w 0 5) a.v b.v)) none := by
  have hlisted : ¬ 17 < fld w 0 5 := by omega
  simp [seSalu, ← ha, ← hb, hpa, hpb, hlisted, seOk]

/-- An instruction of format I whose result, exact in `g`, is `x` in 32 bits. -/
theorem seImm_eq {g : Word → Nat → Int} {x : Word} (hp : (e.sreg (fld w 16 5)).p = false)
    (hx : BitVec.ofInt 32 (g (e.sreg (fld w 16 5)).v (fld w 0 16)) = x) : seImm g s e w =
      .ok s (e.send 2 (.s (fld w 21 5) ⟨x, false⟩)) none := by
  subst hx
  exact if_neg (by simp [hp])

theorem addi_result (a : Word) (w : Nat) : BitVec.ofInt 32 (a.toInt + sext 16 (fld w 0 16)) = a + (BitVec.ofNat 16 w).signExtend 32 := by
  rw [BitVec.ofInt_add, BitVec.ofInt_toInt, sext_imm16]
  rfl

theorem andi_result (a : Word) (w : Nat) :
    BitVec.ofInt 32 (a.toNat &&& fld w 0 16 : Nat) = a &&& (BitVec.ofNat 16 w).zeroExtend 32 := by
  rw [BitVec.ofInt_natCast, BitVec.ofNat_and, BitVec.ofNat_toNat, fld_imm16, BitVec.ofNat_toNat, BitVec.setWidth_eq]

theorem slti_result (a : Word) (w : Nat) : BitVec.ofInt 32 (if a.toInt < sext 16 (fld w 0 16) then 1 else 0) =
    if a.slt ((BitVec.ofNat 16 w).signExtend 32) then 1 else 0 := by
  rw [BitVec.slt, BitVec.toInt_signExtend_of_le (by decide), sext_imm16]
  simp only [decide_eq_true_eq]
  split <;> rfl

theorem ori_result (a : Word) (w : Nat) :
    BitVec.ofInt 32 (a.toNat ||| fld w 0 16 : Nat) = a ||| (BitVec.ofNat 16 w).zeroExtend 32 := by
  rw [BitVec.ofInt_natCast, BitVec.ofNat_or, BitVec.ofNat_toNat, fld_imm16, BitVec.ofNat_toNat, BitVec.setWidth_eq]

theorem xori_result (a : Word) (w : Nat) :
    BitVec.ofInt 32 (a.toNat ^^^ fld w 0 16 : Nat) = a ^^^ (BitVec.ofNat 16 w).zeroExtend 32 := by
  rw [BitVec.ofInt_natCast, BitVec.ofNat_xor, BitVec.ofNat_toNat, fld_imm16, BitVec.ofNat_toNat, BitVec.setWidth_eq]

theorem seLui_eq : seLui s e w = .ok s (e.send 2 (.s (fld w 21 5) ⟨BitVec.ofNat 32 (w % 2 ^ 16 * 2 ^ 16), false⟩)) none := by
  have himm : fld w 0 16 * 65536 = w % 2 ^ 16 * 2 ^ 16 := by simp [fld]
  rw [seLui, himm, SEng.sendS_nat]
  rfl

theorem seShi_eq (hk : fld w 6 2 ≠ 3) (hp : (e.sreg (fld w 16 5)).p = false) : seShi s e w =
    .ok s (e.sendS 2 (fld w 21 5) (shiFn (fld w 6 2) (e.sreg (fld w 16 5)).v (fld w 0 5))) none := by
  simp [seShi, hk, hp, seOk]

section
variable {k n : Nat} (hk : k = fld w 19 2) (hn : n = fld w 16 3) (h3 : k ≠ 3)
include hk hn h3

theorem sePmov_read (hdir : fld w 0 1 = 0) : sePmov s e w =
    .ok s (e.send 2 (.s (fld w 21 5) ⟨if k = 0 then (e.preg n).zeroExtend 32
      else if k = 1 then (e.mreg n).signExtend 32 else (e.lreg n).zeroExtend 32, false⟩)) none := by
  have hnat (x : BitVec 18) : BitVec.ofInt 32 (x.toNat : Int) = x.zeroExtend 32 := by rw [BitVec.ofInt_natCast, BitVec.ofNat_toNat]
  simp only [sePmov, ← hk, ← hn, if_neg h3, hdir, if_true, seOk, SEng.sendS_plain, apply_ite (BitVec.ofInt 32), hnat]
  rfl

theorem sePmov_write (hdir : fld w 0 1 = 1) (hp : (e.sreg (fld w 21 5)).p = false) : sePmov s e w =
    .ok s (if k = 0 then e.setP n ((e.sreg (fld w 21 5)).v.truncate 18) else if k = 1 then e.setM n ((e.sreg (fld w 21 5)).v.truncate 18)
      else e.setL n ((e.sreg (fld w 21 5)).v.truncate 18)) none := by
  simp [sePmov, ← hk, ← hn, h3, hdir, hp, seOk]

end

/-! ## What each memory instruction answers (R223, R247) -/

section
variable {n : Nat} {f : SEng}

theorem seLds_eq (ha : seAddr e w 4 = .ok (n, f)) : seLds d i s e w = .ok (dmNote s d i (n / 8))
    (f.send 4 (.s (fld w 21 5) ⟨((dmSees s d i (n / 8)).v >>> (8 * (n % 8))).truncate 32, (dmSees s d i (n / 8)).p⟩)) none := by
  rw [seLds, ha]
  rfl

theorem seSts_eq (ha : seAddr e w 4 = .ok (n, f)) : seSts d i s e w = .ok (dmWrite s d i (n / 8)
    [(⟨(e.sreg (fld w 21 5)).v.zeroExtend 64 <<< (8 * (n % 8)), (e.sreg (fld w 21 5)).p⟩, if n % 8 = 0 then 0x0F else 0xF0)]) f none := by
  rw [seSts, ha]
  rfl

theorem seLdv_eq (ha : seAddr e w 64 = .ok (n, f)) : seLdv d i s e w =
    .ok (dmRead s d i (n / 8) 8).2 (f.send 4 (.v (fld w 21 5) (dmRead s d i (n / 8) 8).1)) none := by
  rw [seLdv, ha]
  rfl

theorem seStv_eq (ha : seAddr e w 64 = .ok (n, f)) : seStv d i s e w =
    .ok (dmWrite s d i (n / 8) ((e.vreg (fld w 21 5)).map (fun x => (x, 0xFF)))) f none := by
  rw [seStv, ha]
  rfl

theorem seLdvb_eq {v : Nat} (ha : seAddr e w 2 = .ok (n, f)) (hv : v = fld (dmSees s d i (n / 8)).v.toNat (8 * (n % 8)) 16) :
    seLdvb d i s e w = .ok (dmNote s d i (n / 8))
      (f.send 4 (.v (fld w 21 5) (List.replicate 8 ⟨packWord 16 [v, v, v, v], (dmSees s d i (n / 8)).p⟩))) none := by
  subst hv
  rw [seLdvb, ha]
  rfl

end

end

/-- Settles O36: an engine that issues a word asks the function of its opcode, and each clause is what that function answers. -/
theorem seScalarComplete : Obligations.SeScalarComplete := by
  rintro s die g e w d a b rfl rfl rfl
  refine ⟨fun h hfn hpa hpb => ?_, fun h hp => ?_, fun h hp => ?_, fun h hp => ?_, fun h hp => ?_, fun h hp => ?_, fun h => ?_,
    fun h hk hp => ?_, fun k n h hk hn h3 => ⟨fun hdir => ?_, fun hdir hp => ?_⟩, fun h => ?_, ?_⟩
  · exact congrArg _ (h.seIssue_ok (seSalu_eq rfl rfl hfn hpa hpb))
  · exact congrArg _ (h.seIssue_ok (seImm_eq hp (addi_result _ _)))
  · exact congrArg _ (h.seIssue_ok (seImm_eq hp (andi_result _ _)))
  · exact congrArg _ (h.seIssue_ok (seImm_eq hp (ori_result _ _)))
  · exact congrArg _ (h.seIssue_ok (seImm_eq hp (xori_result _ _)))
  · exact congrArg _ (h.seIssue_ok (seImm_eq hp (slti_result _ _)))
  · exact congrArg _ (h.seIssue_ok seLui_eq)
  · exact congrArg _ (h.seIssue_ok (seShi_eq hk hp))
  · exact congrArg _ (h.seIssue_ok (sePmov_read hk hn h3 hdir))
  · exact congrArg _ (h.seIssue_ok (sePmov_write hk hn h3 hdir hp))
  · exact congrArg _ (h.seIssue_ok rfl)
  · rintro n f guard u rfl
    refine ⟨fun h ha => ?_, fun h ha => ?_, fun h ha => ?_, fun h ha => ?_, fun v h ha hv => ?_⟩
    · exact congrArg Host.Outcome.next (h.seIssue_ok (f := seLds die g) (seLds_eq ha))
    · exact congrArg Host.Outcome.next (h.seIssue_ok (f := seSts die g) (seSts_eq ha))
    · exact congrArg Host.Outcome.next (h.seIssue_ok (f := seLdv die g) (seLdv_eq ha))
    · exact congrArg Host.Outcome.next (h.seIssue_ok (f := seStv die g) (seStv_eq ha))
    · exact congrArg Host.Outcome.next (h.seIssue_ok (f := seLdvb die g) (seLdvb_eq ha hv))

end Sys2Proof.Machine
end

/-! # Vector instructions of a signal engine (R225, R230) -/

section
set_option Elab.async false
namespace Sys2Proof.Machine

/-! ## VNAR with a reserved shift (R225, R230) -/

/-- SH above 32 is reserved in VNAR, whichever of SH and SB gives the shift. -/
theorem seVnar_reserved {s : State} {e : SEng} {w : Nat} (h : 32 < fld w 0 6) : seVnar s e w = seIll := if_pos h

/-- VNAR V0, ACC0, S0 with the shift from S0, and 33 in SH. -/
def vnarWord : Word := 0xB8000421

/-- Engine 0 of die 0 runs, at that word: its gates are open and an image has been loaded. -/
def atVnar : State :=
  (((((((({ State.reset with boot := { State.reset.boot with inReset := none } }.p 0 R.SYS_BOOT_STATUS.PHASE Phase.running).p 0
    R.CFG_WAKE_STATUS.DONE_STEPS 0x1FF).setBit 0 (gateReg 3) 0).setBit 0 (gateReg 2) 0).setBit 0 (gateReg 1) 6).setPmWord 0 0 0
    (pmPack vnarWord (pmCheck vnarWord))).setEng 0 0 SEng.reset).setSeState 0 0 SeState.run)

theorem issues_atVnar : Issues atVnar 0 0 SEng.reset 0x2E vnarWord.toNat := by
  refine ⟨by decide +kernel, by decide +kernel, ⟨vnarWord, by decide +kernel, rfl⟩, by decide, ⟨0x03E3FE3F, rfl, by decide⟩, ?_, ?_⟩
  · intro hb
    exact absurd hb (by decide)
  · intro hb
    exact absurd hb (by decide)

/-- Refutes O37: its clause on VNAR bounds SH only where SH gives the shift. With the shift from a register and 33 in SH the word is
reserved all the same, so the engine goes to ERROR where the clause has it retire the instruction and run on. -/
theorem not_seVectorComplete : ¬ Obligations.SeVectorComplete := by
  intro h
  obtain ⟨-, -, -, -, -, -, hvnar, -⟩ := h atVnar 0 0 SEng.reset vnarWord.toNat _ _ _ _ _ _ rfl rfl rfl rfl rfl rfl
  have hretires := Host.Outcome.next.inj (hvnar issues_atVnar (by decide) (by decide))
  have hraises := issues_atVnar.seIssue_err (f := seVnar) (seVnar_reserved (by decide))
  have hstate := congrArg (State.seState · 0 0) (hraises.symm.trans hretires)
  exact absurd hstate (by decide +kernel)

end Sys2Proof.Machine
end

/-! # A signal engine apart from its instructions (R217, R218, R235, R240 to R245) -/

section
set_option Elab.async false
namespace Sys2Proof.Machine

/-! ## Writes of an engine's registers (R235, R245) -/

theorem seaCtrl_off (g : Nat) : RegRef.off ⟨.SEA_CTRL, g, 0⟩ = 0x700010 + 8192 * g :=
  congrArg (0x700010 + ·) (Nat.mul_comm g 8192)

theorem seaDoorbell_off (g : Nat) : RegRef.off ⟨.SEA_DOORBELL, g, 0⟩ = 0x700020 + 8192 * g :=
  congrArg (0x700020 + ·) (Nat.mul_comm g 8192)

theorem seaCtrl_writable (g : Fin 48) : Writable ⟨.SEA_CTRL, g, 0⟩ := by
  have hwritable : RegId.SEA_CTRL.info.writable ≠ 0 := by decide
  have hoff := seaCtrl_off g
  exact ⟨rfl, hwritable, RegId.noConfusion, by omega, by omega⟩

theorem seaDoorbell_writable (g : Fin 48) : Writable ⟨.SEA_DOORBELL, g, 0⟩ := by
  have hwritable : RegId.SEA_DOORBELL.info.writable ≠ 0 := by decide
  have hoff := seaDoorbell_off g
  exact ⟨rfl, hwritable, RegId.noConfusion, by omega, by omega⟩

theorem seaCtrl_block : ∀ g : Fin 48, RegRef.block ⟨.SEA_CTRL, g, 0⟩ = some .SEA := by decide
theorem seaDoorbell_block : ∀ g : Fin 48, RegRef.block ⟨.SEA_DOORBELL, g, 0⟩ = some .SEA := by decide

/-- A write of a register of the SEA block. -/
theorem writeFamily_sea {s : State} {m : Master} {d raw mask : Nat} {r : RegRef} (hb : r.block = some .SEA) :
    writeFamily s (mkWr s m d r raw mask) = writeSea s (mkWr s m d r raw mask) := by
  unfold writeFamily
  simp only [mkWr, hb]

section
variable {s t : State} {m : Master} {die : Die} {g : Fin 48}

/-- The fields of SEA_CTRLi in what a command keeps of it. -/
theorem Reaches.seaCtrl_kept {v : Nat} (h : Reaches s m die ⟨.SEA_CTRL, g, 0⟩)
    (hv : v = keptFields s die (RegRef.off ⟨.SEA_CTRL, g, 0⟩)) :
    (R.SEA_CTRL.MODE 0).of v = s.g die (R.SEA_CTRL.MODE g) ∧ (R.SEA_CTRL.START 0).of v = 0 ∧ (R.SEA_CTRL.HALT 0).of v = 0 := by
  have htaken : (R.SEA_CTRL.MODE 0).of (RegId.SEA_CTRL.info.rw ||| RegId.SEA_CTRL.info.rws) = 1 := by decide
  have hstart : (R.SEA_CTRL.START 0).of (RegId.SEA_CTRL.info.rw ||| RegId.SEA_CTRL.info.rws) = 0 := by decide
  have hhalt : (R.SEA_CTRL.HALT 0).of (RegId.SEA_CTRL.info.rw ||| RegId.SEA_CTRL.info.rws) = 0 := by decide
  rw [hv]
  exact ⟨h.of_keptFields (f := R.SEA_CTRL.MODE g) (seaCtrl_off g).symm (Nat.le_of_ble_eq_true rfl) htaken,
    h.of_keptFields_zero hstart, h.of_keptFields_zero hhalt⟩

/-- What a command means that names a field of SEA_CTRLi: a write of the register takes MODE, START and HALT as the command gives them. -/
theorem poke_seaCtrl {f : Fld} {x v : Nat} (h : Reaches s m die ⟨.SEA_CTRL, g, 0⟩) (hf : f.off = RegRef.off ⟨.SEA_CTRL, g, 0⟩)
    (hv : v = named s die ⟨.SEA_CTRL, g, 0⟩ [(f, x)])
    (hw : writeSeaCtrl s die g ((R.SEA_CTRL.MODE 0).of v == 1) ((R.SEA_CTRL.START 0).of v == 1) ((R.SEA_CTRL.HALT 0).of v == 1) =
      t.ans .ok) : poke s m die [(f, x)] = t.ans .ok := by
  have htaken : (R.SEA_CTRL.MODE 0).of (mkWr s m die ⟨.SEA_CTRL, g, 0⟩ v (2 ^ 32 - 1)).new = (R.SEA_CTRL.MODE 0).of v :=
    merge_taken RegId.SEA_CTRL.info _ _ _ _ (by decide) (by decide)
  subst hv
  refine (poke_eq hf x []).trans (put32_ok h (seaCtrl_writable g) ?_)
  rw [writeFamily_sea (seaCtrl_block g), ← hw, ← htaken]
  simp only [writeSea, mkWr, named]

/-- A command that names one field writes it, and writes every other as what it keeps. Only the place in the register matters, not where
the register is. -/
theorem of_named_same {r : RegRef} {f f' : Fld} {x : Nat} (hf : f.lo + f.w ≤ 32) (hlo : f'.lo = f.lo) (hw : f'.w = f.w)
    (hx : x < 2 ^ f.w) : f'.of (named s die r [(f, x)]) = x := by
  have hsame : f'.of = f.of := by funext v; rw [Fld.of, Fld.of, hlo, hw]
  rw [hsame, of_named _ hf, List.foldl_cons, List.foldl_nil, of_over_same, Nat.mod_eq_of_lt hx]

theorem of_named_other {r : RegRef} {f f' : Fld} {x : Nat} (hf : f'.lo + f'.w ≤ 32)
    (ha : f.lo + f.w ≤ f'.lo ∨ f'.lo + f'.w ≤ f.lo) : f'.of (named s die r [(f, x)]) = f'.of (keptFields s die r.off) := by
  rw [of_named _ hf]
  exact of_over_other _ _ _ _ ha

section
variable {v : Nat} (h : Reaches s m die ⟨.SEA_CTRL, g, 0⟩)
include h

theorem seaCtrl_start_fields (hv : v = named s die ⟨.SEA_CTRL, g, 0⟩ [(R.SEA_CTRL.START g, 1)]) :
    (R.SEA_CTRL.MODE 0).of v = s.g die (R.SEA_CTRL.MODE g) ∧ (R.SEA_CTRL.START 0).of v = 1 ∧ (R.SEA_CTRL.HALT 0).of v = 0 := by
  obtain ⟨hmode, -, hhalt⟩ := h.seaCtrl_kept rfl
  rw [hv]
  exact ⟨(of_named_other (by decide) (.inr (by simp [R.SEA_CTRL.MODE, R.SEA_CTRL.START]))).trans hmode,
    of_named_same (by simp [R.SEA_CTRL.START]) rfl rfl (by simp [R.SEA_CTRL.START]),
    (of_named_other (by decide) (.inr (by simp [R.SEA_CTRL.HALT, R.SEA_CTRL.START]))).trans hhalt⟩

theorem seaCtrl_halt_fields (hv : v = named s die ⟨.SEA_CTRL, g, 0⟩ [(R.SEA_CTRL.HALT g, 1)]) :
    (R.SEA_CTRL.MODE 0).of v = s.g die (R.SEA_CTRL.MODE g) ∧ (R.SEA_CTRL.START 0).of v = 0 ∧ (R.SEA_CTRL.HALT 0).of v = 1 := by
  obtain ⟨hmode, hstart, -⟩ := h.seaCtrl_kept rfl
  rw [hv]
  exact ⟨(of_named_other (by decide) (.inr (by simp [R.SEA_CTRL.MODE, R.SEA_CTRL.HALT]))).trans hmode,
    (of_named_other (by decide) (.inl (by simp [R.SEA_CTRL.START, R.SEA_CTRL.HALT]))).trans hstart,
    of_named_same (by simp [R.SEA_CTRL.HALT]) rfl rfl (by simp [R.SEA_CTRL.HALT])⟩

theorem seaCtrl_mode_fields {mode : Bool} (hv : v = named s die ⟨.SEA_CTRL, g, 0⟩ [(R.SEA_CTRL.MODE g, mode.toNat)]) :
    (R.SEA_CTRL.MODE 0).of v = mode.toNat ∧ (R.SEA_CTRL.START 0).of v = 0 ∧ (R.SEA_CTRL.HALT 0).of v = 0 := by
  obtain ⟨-, hstart, hhalt⟩ := h.seaCtrl_kept rfl
  rw [hv]
  exact ⟨of_named_same (by simp [R.SEA_CTRL.MODE]) rfl rfl (by simpa [R.SEA_CTRL.MODE] using mode.toNat_lt),
    (of_named_other (by decide) (.inl (by simp [R.SEA_CTRL.START, R.SEA_CTRL.MODE]))).trans hstart,
    (of_named_other (by decide) (.inl (by simp [R.SEA_CTRL.HALT, R.SEA_CTRL.MODE]))).trans hhalt⟩

end

/-! ### START, HALT and MODE -/

/-- START of a stopped engine in stand-alone mode. -/
theorem writeSeaCtrl_start (hm : s.standalone die g = true) (hst : seStopped (s.seState die g) = true) :
    writeSeaCtrl s die g true true false = (seBegin (s.p die (R.SEA_CTRL.MODE g) 1) die g).ans .ok := by
  have hidle : ¬ (s.seState die g = SeState.run ∨ s.seState die g = SeState.wait) := by
    rintro (h | h) <;> simp [h, seStopped, SeState.run, SeState.wait, SeState.idle, SeState.halted, SeState.error] at hst
  have hnot : s.seState die g ≠ SeState.halting := by
    rintro h
    simp [h, seStopped, SeState.halting, SeState.idle, SeState.halted, SeState.error] at hst
  simp [writeSeaCtrl, hm, hst, hidle, hnot]

theorem writeSeaCtrl_start_halting (hm : s.standalone die g = true) (hst : s.seState die g = SeState.halting) :
    writeSeaCtrl s die g true true false =
      ((s.p die (R.SEA_CTRL.MODE g) 1).p die (R.SEA_STATUS.PEND_START g) 1).ans .ok := by
  simp [writeSeaCtrl, hm, hst, SeState.halting, SeState.run, SeState.wait]

theorem writeSeaCtrl_halt (hm : s.standalone die g = true) (hst : s.seState die g = SeState.run ∨ s.seState die g = SeState.wait) :
    writeSeaCtrl s die g true false true = ((s.p die (R.SEA_CTRL.MODE g) 1).setSeState die g SeState.halting).ans .ok := by
  have hruns : (s.seState die g == SeState.run || s.seState die g == SeState.wait) = true := by simpa using hst
  simp [writeSeaCtrl, hm, hruns]

theorem writeSeaCtrl_mode (mode : Bool) (hst : seStopped (s.seState die g) = true) :
    writeSeaCtrl s die g mode false false = (s.p die (R.SEA_CTRL.MODE g) (if mode then 1 else 0)).ans .ok := by
  simp [writeSeaCtrl, hst]

/-- A command that starts or halts an engine in stand-alone mode writes MODE as it stands. -/
theorem exec_seaStart (h : Reaches s m die ⟨.SEA_CTRL, g, 0⟩) (hm : s.standalone die g = true)
    (hw : writeSeaCtrl s die g true true false = t.ans .ok) : exec (.seaStart m die g) s = .next (t.ans .ok) := by
  obtain ⟨hmode, hstart, hhalt⟩ := seaCtrl_start_fields h rfl
  have hon : (s.g die (R.SEA_CTRL.MODE g) == 1) = true := hm
  refine congrArg _ (poke_seaCtrl h (seaCtrl_off g).symm rfl ?_)
  rw [hmode, hstart, hhalt, hon]
  exact hw

theorem exec_seaHalt (h : Reaches s m die ⟨.SEA_CTRL, g, 0⟩) (hm : s.standalone die g = true)
    (hw : writeSeaCtrl s die g true false true = t.ans .ok) : exec (.seaHalt m die g) s = .next (t.ans .ok) := by
  obtain ⟨hmode, hstart, hhalt⟩ := seaCtrl_halt_fields h rfl
  have hon : (s.g die (R.SEA_CTRL.MODE g) == 1) = true := hm
  refine congrArg _ (poke_seaCtrl h (seaCtrl_off g).symm rfl ?_)
  rw [hmode, hstart, hhalt, hon]
  exact hw

theorem exec_seaMode {mode : Bool} (h : Reaches s m die ⟨.SEA_CTRL, g, 0⟩) (hw : writeSeaCtrl s die g mode false false = t.ans .ok) :
    exec (.seaMode m die g mode) s = .next (t.ans .ok) := by
  obtain ⟨hmode, hstart, hhalt⟩ := seaCtrl_mode_fields h rfl
  refine congrArg _ (poke_seaCtrl h (seaCtrl_off g).symm rfl ?_)
  rw [hmode, hstart, hhalt]
  cases mode <;> exact hw

/-- A write of 1 to RING rings the doorbell. -/
theorem exec_doorbell (h : Reaches s m die ⟨.SEA_DOORBELL, g, 0⟩) : exec (.doorbell m die g) s = .next ((seRing s die g).ans .ok) := by
  have hring : (R.SEA_DOORBELL.RING 0).of (named s die ⟨.SEA_DOORBELL, g, 0⟩ [(R.SEA_DOORBELL.RING g, 1)]) = 1 :=
    of_named_same (by simp [R.SEA_DOORBELL.RING]) rfl rfl (by simp [R.SEA_DOORBELL.RING])
  refine congrArg _ ((poke_eq (seaDoorbell_off g).symm 1 []).trans (put32_ok h (seaDoorbell_writable g) ?_))
  rw [writeFamily_sea (seaDoorbell_block g)]
  exact congrArg (State.ans · .ok) (if_pos hring)

end

/-! ## Waits, ends and interrupts (R235, R240, R243 to R245) -/

section
variable {s u : State} {die : Die} {g : Fin 48} {e f : SEng}

theorem execWaitRelease_ready {held w : Nat} (hf : f = (s.eng die g).passMany held) (hst : s.seState die g = SeState.wait)
    (hclk : seClocked s die g = true) (hw : seFetch s die g f = some w) (hready : waitReady f (w % 8) = true) (hirq : f.irqDue = false)
    (hu : u = ((s.setEng die g f).inc die (R.SEA_CNT_WAIT.COUNT g) held).inc die (R.SEA_CNT_CYCLE.COUNT g) held) :
    execWaitRelease die g held s = .next (seIssue (u.setSeState die g SeState.run) die g 0x0A seWait) := by
  simp only [execWaitRelease, ← hf, ← hu, hst, hclk, hw, hready, hirq, and_self, if_true]

section
variable {toks : List DWord} (he : e = s.eng die g) (hfin : e.fin = some toks) (hst : s.seState die g = SeState.run)
  (hclk : seClocked s die g = true) (h0 : e.dma0.busy = false) (h1 : e.dma1.busy = false) (herr : seDmaErr e [0, 1] = none)
  (hu : u = (s.setEng die g { e.drain.noFlow with pc := (e.drain.noFlow.pc + 1) % 16384 }).setSeState die g SeState.idle)
include he hfin hst hclk h0 h1 herr hu

theorem execDoneCompletion_standalone (hs : s.standalone die g = true) (hus : u.standalone die g = true) :
    execDoneCompletion die g s = .next (u.setBit die R.SEA_EVT_DONE.DONE g) := by
  simp only [execDoneCompletion, ← he, hfin, hst, hclk, h0, h1, herr, ← hu, hs, hus, true_or, and_self, if_true]

theorem execDoneCompletion_dispatched (hs : s.standalone die g = false) (hus : u.standalone die g = false) (hroom : s.cplRoom die = true) :
    execDoneCompletion die g s = .next (u.sendCpl die ⟨g.val, e.drain.noFlow.ticket, 0, toks⟩) := by
  simp only [execDoneCompletion, ← he, hfin, hst, hclk, h0, h1, herr, ← hu, hs, hus, hroom, seUnit, or_true, and_self, if_true,
    Bool.false_eq_true, if_false]

end

theorem execInterruptTaken_due (hf : f = if s.seState die g = SeState.wait then (s.eng die g).toIrq else s.eng die g)
    (hst : s.seState die g = SeState.run ∨ s.seState die g = SeState.wait) (hclk : seClocked s die g = true) (hirq : f.irqDue = true) :
    execInterruptTaken die g s =
      .next (((s.setEng die g { f.drain with ipc := f.drain.pc, ie := false, pc := f.drain.ivec }).setSeState die g SeState.run).p die
        (R.SEA_STATUS.IN_ISR g) 1) := by
  simp only [execInterruptTaken, ← hf, hst, hclk, hirq, and_self, if_true]

theorem execHaltComplete_halted (he : e = s.eng die g) (hst : s.seState die g = SeState.halting) (hclk : seClocked s die g = true)
    (hgap : e.gap = true ∨ e.fin.isSome = true) (h0 : e.dma0.busy = false) (h1 : e.dma1.busy = false)
    (hu : u = (s.setEng die g e.drain.noFlow).setSeState die g SeState.halted)
    (hpend : u.on die (R.SEA_STATUS.PEND_START g) = false) : execHaltComplete die g s = .next u := by
  simp only [execHaltComplete, ← he, ← hu, hst, hclk, hgap, h0, h1, hpend, and_self, if_true, Bool.false_eq_true, if_false]

/-! ### The end of ABORTING -/

/-- A value unlike what an unlisted key reads as is read back. -/
theorem SMap.get_set_listed {α : Type} [DecidableEq α] (f : Nat → α) (l : SMap α) (k : Nat) {v : α} (hv : v ≠ f k) :
    SMap.get f (SMap.set f l k v) k = v := by
  rw [SMap.set, if_neg hv, SMap.get, SMap.look_put_same]
  rfl

/-- A field that reads otherwise than at reset keeps its value when a field apart from it is written, in whatever form the cells are. -/
theorem State.g_p_apart {d v : Nat} {p q : Fld} (ha : p.apart q) (hp : p.off < 2 ^ 24) (hq : q.ok)
    (hne : s.g d q ≠ ((cellRst (cellKey d q.off)).toNat >>> q.sh) % 2 ^ q.w) : (s.p d p v).g d q = s.g d q := by
  unfold State.g State.p
  by_cases hk : p.off / 8 = q.off / 8
  · have hkey : cellKey d p.off = cellKey d q.off := by rw [cellKey, hk, cellKey]
    have hpart : p.sh + p.w ≤ q.sh ∨ q.sh + q.w ≤ p.sh := ha.resolve_left (not_not_intro hk)
    have hkeeps := splice_other (s.cell (cellKey d q.off)) p.sh p.w v q.sh q.w hq.1 hpart
    have hlisted : splice (s.cell (cellKey d q.off)) p.sh p.w v ≠ cellRst (cellKey d q.off) := by
      intro hrst
      rw [hrst] at hkeeps
      exact hne hkeeps.symm
    have hread : ((s.setCell (cellKey d q.off) (splice (s.cell (cellKey d q.off)) p.sh p.w v)).cell (cellKey d q.off)) = _ :=
      SMap.get_set_listed cellRst s.rf _ hlisted
    rw [hkey, hread, hkeeps]
  · rw [State.cell_setCell_other]
    exact cellKey_ne d d q.off p.off hq.2 hp (.inr (Ne.symm hk))

/-- What a cell holds at reset depends on its place in the window alone. -/
theorem cellRst_congr {k k' : Nat} (h : k % 2 ^ 21 = k' % 2 ^ 21) : cellRst k = cellRst k' := by
  unfold cellRst
  rw [h]

theorem cellRst_die {d off : Nat} (hoff : off < 2 ^ 24) : cellRst (cellKey d off) = cellRst (cellKey 0 off) :=
  cellRst_congr ((cellKey_offset hoff).trans (cellKey_offset hoff).symm)

/-- STATE of an engine is 0 at reset. -/
theorem seState_rst : ∀ g : Fin 48, ((cellRst (cellKey 0 (R.SEA_STATUS.STATE g).off)).toNat >>> (R.SEA_STATUS.STATE g).sh) %
    2 ^ (R.SEA_STATUS.STATE g).w = 0 := by decide +kernel

theorem seStatus_apart : ∀ g : Fin 48, (R.SEA_STATUS.PC g).apart (R.SEA_STATUS.STATE g) ∧
    (R.SEA_STATUS.DMA_BUSY g).apart (R.SEA_STATUS.STATE g) ∧ (R.SEA_DOORBELL.RING g).apart (R.SEA_STATUS.STATE g) := by
  unfold Fld.apart
  decide +kernel

theorem seStatus_off : ∀ g : Fin 48, (R.SEA_STATUS.PC g).off < 2 ^ 24 ∧ (R.SEA_STATUS.DMA_BUSY g).off < 2 ^ 24 ∧
    (R.SEA_DOORBELL.RING g).off < 2 ^ 24 ∧ (R.SEA_STATUS.STATE g).ok := by
  unfold Fld.ok
  decide +kernel

section
variable {x : Nat} (hx : x ≠ 0) (h : s.seState die g = x)
include hx h

theorem seState_p {f : Fld} {v : Nat} (ha : f.apart (R.SEA_STATUS.STATE g)) (hf : f.off < 2 ^ 24) : (s.p die f v).seState die g = x := by
  obtain ⟨-, -, -, hok⟩ := seStatus_off g
  refine (State.g_p_apart ha hf hok ?_).trans h
  rw [cellRst_die hok.2, seState_rst g]
  exact h.trans_ne hx

/-- To store an engine leaves its STATE alone, unless that is IDLE. -/
theorem seState_setEng : (s.setEng die g e).seState die g = x := by
  obtain ⟨hpc, hdma, hring⟩ := seStatus_apart g
  obtain ⟨hpc', hdma', hring', -⟩ := seStatus_off g
  exact seState_p hx (seState_p hx (seState_p hx h hpc hpc') hdma hdma') hring hring'

end

theorem setEng_reply (s : State) (d i : Nat) (e : SEng) : (s.setEng d i e).reply = s.reply := by
  simp only [State.setEng, State.p_reply]

theorem execAbortingEnd_idle (hst : s.seState die g = SeState.aborting)
    (hu : u = (s.setEng die g (s.eng die g)).setSeState die g SeState.idle) (hlate : s.seLate die g = [])
    (howed : (u.eng die g).owed = false) : execAbortingEnd die g s = .next u := by
  have hstill := seState_setEng (e := s.eng die g) (by decide) hst
  have hend : lateEnd s die g = u := by
    simp only [lateEnd, hlate, List.isEmpty_nil, if_true, hstill, ← hu, seOwed, howed, Bool.false_eq_true, false_and, if_false]
  have hreply : u.reply = s.reply := by rw [hu, State.setSeState, State.p_reply, setEng_reply]
  simp only [execAbortingEnd, hst, if_true, hlate, List.foldl_nil, hend, ← hreply]

end

/-! ## DMA channels (R240, R241) -/

section
variable {s : State} {die : Die} {g : Fin 48} {c : Fin 2} {x : DmaDesc}

theorem execDmaChannelDone_live (hx : dmaLive s die g c = some x) :
    execDmaChannelDone die g c s = .next { dmaRun die g c x s (dmaRest s die g c x) with reply := s.reply } := by
  simp only [execDmaChannelDone, hx]

/-- The next request of a channel gets a response that is not OK. -/
theorem execDmaResponseError_first {p : DmaPart} {rest : List DmaPart} {r : Resp} (hx : dmaLive s die g c = some x)
    (hl : dmaRest s die g c x = p :: rest) (hr : r ≠ .ok) : execDmaResponseError die g c 0 r s =
      .next { dmaFail (if r = .timeout then dmaTimeout s die g x p else s) die g c x rest r with reply := s.reply } := by
  simp [execDmaResponseError, hx, hl, hr, dmaUpTo]

end

/-! ## Accesses from the network (R217, R218) -/

section
variable {s u : State} {q : Req} {die : Die} {g : Fin 48} {off : Nat}

/-- An access that gets to an engine's port. -/
theorem execSeNocAccess_arrives (hshut : s.debugShut q.m = false) (hstops : coreStops s q = none)
    (haddr : decodeAddr s q.m (s.dieOfRid q.m.rid) q.addr.toNat = .se die g off)
    (hroute : routeTo s (s.dieOfRid q.m.rid) die = (none, u)) :
    execSeNocAccess q s = .next ((seAccess u q die g off).coreSees q.m (opStores q.op) q.addr.toNat) := by
  simp only [execSeNocAccess, State.ifIssued, hstops, seTake, hshut, haddr, seMemReq, hroute, Bool.false_eq_true, if_false]

section
variable (hheld : u.held die Blk.sea = false) (hgates : seGatesOpen u die g = true) (hform : seFormOk q = true)
include hheld hgates hform

theorem seAccess_readData (hop : q.op = .read) (hoff : off < 0x40000) : seAccess u q die g off =
    { (dmRead u die g (off / 8) (reqWords q)).2 with reply := ⟨.ok, (dmRead u die g (off / 8) (reqWords q)).1⟩ } := by
  simp [seAccess, hheld, hgates, hform, hop, hoff]

theorem seAccess_writeData (hop : q.op = .write) (hoff : off < 0x40000) :
    seAccess u q die g off = (dmWrite u die g (off / 8) (reqWwords q)).ans .ok := by
  simp [seAccess, hheld, hgates, hform, hop, hoff]

section
variable {w : Nat} (hw : w = off / 8 - 0x8000) (hoff : 0x40000 ≤ off)
include hw hoff

theorem seAccess_readProg {t : State} (hop : q.op = .read)
    (ht : t = (List.range (2 * reqWords q)).foldl (fun s k => pmNote s die g (2 * w + k)) u) :
    seAccess u q die g off = { t with reply := ⟨.ok, (List.range (reqWords q)).map (fun k => pmSees t die g (w + k))⟩ } := by
  have hprog : ¬ off < 0x40000 := by omega
  simp [seAccess, hheld, hgates, hform, hop, hprog, ← hw, ← ht]

theorem seAccess_writeProg (hop : q.op = .write) (hbusy : seProgBusy u die g = false) :
    seAccess u q die g off = (pmWrite u die g w (reqWwords q)).ans .ok := by
  have hprog : ¬ off < 0x40000 := by omega
  simp [seAccess, hheld, hgates, hform, hop, hprog, ← hw, hbusy]

end

end

end

/-- Settles O40: each event has the effect of the branch that its hypotheses select, and each write is judged by its register. -/
theorem seEventsComplete : Obligations.SeEventsComplete := by
  rintro s m die g e rfl
  refine ⟨fun held f w u hf hst hclk hw hready hirq hu => ?_, fun toks u hfin hst hclk h0 h1 herr hu => ⟨?_, ?_⟩,
    fun f hf hst hclk hirq => ?_, fun u hst hu hlate howed => ?_, fun hst hclk hgap h0 h1 u hu hpend => ?_,
    fun h hm => ?_, fun mode h hst => ?_, fun h => ?_, fun c x l hx hl => ⟨?_, fun r p rest hrest hr => ?_⟩, ?_⟩
  · exact execWaitRelease_ready hf hst hclk hw hready hirq hu
  · exact execDoneCompletion_standalone rfl hfin hst hclk h0 h1 herr hu
  · exact execDoneCompletion_dispatched rfl hfin hst hclk h0 h1 herr hu
  · exact execInterruptTaken_due hf hst hclk hirq
  · exact execAbortingEnd_idle hst hu hlate howed
  · exact execHaltComplete_halted rfl hst hclk hgap h0 h1 hu hpend
  · rintro u rfl
    exact ⟨fun hst => exec_seaStart h hm (writeSeaCtrl_start hm hst), fun hst => exec_seaStart h hm (writeSeaCtrl_start_halting hm hst),
      fun hst => exec_seaHalt h hm (writeSeaCtrl_halt hm hst)⟩
  · exact exec_seaMode h (writeSeaCtrl_mode mode hst)
  · exact exec_doorbell h
  · rw [hl]
    exact execDmaChannelDone_live hx
  · exact execDmaResponseError_first hx (hl.symm.trans hrest) hr
  · rintro q off u w n hshut hstops haddr hroute hheld hgates hform rfl
    have harrives := execSeNocAccess_arrives hshut hstops haddr hroute
    refine ⟨fun hop hoff => ?_, fun hop hoff => ?_, fun hop hw hoff => ?_, fun hop hw hoff hbusy => ?_⟩
    · rw [seAccess_readData hheld hgates hform hop hoff, hop] at harrives
      exact harrives
    · rw [seAccess_writeData hheld hgates hform hop hoff, coreSees_ok] at harrives
      exact harrives
    · rw [seAccess_readProg hheld hgates hform hw hoff hop rfl, hop] at harrives
      exact harrives
    · rw [seAccess_writeProg hheld hgates hform hw hoff hop hbusy, coreSees_ok] at harrives
      exact harrives

end Sys2Proof.Machine
end

/-! # Firing, and fresh tickets (R255, R263) -/

section
set_option Elab.async false
namespace Sys2Proof.Machine

/-! ## What firing writes, and what it leaves -/

/-- The state after one firing of operation `n`, which has a place or is deferred (R255, R257). -/
def fired (s : State) (d n : Nat) : State :=
  let t := dfdCnt (s.p d (R.DFD_OPSTATE.COUNT n) (s.g d (R.DFD_OPSTATE.COUNT n) - opValency s d n)) d Cnt.fires 1
  if placeOf s d (opPrio s d n) = .defer then
    dfdCnt (t.p d (R.DFD_OPSTATE.DEFER n) (s.g d (R.DFD_OPSTATE.DEFER n) + 1)) d Cnt.deferred 1
  else placeFiring t d n (placeOf s d (opPrio s d n))

/-- The firings of operation `n` are stopped: one more would be deferred, and no more are counted (R255). -/
def firingStops (s : State) (d n : Nat) : Prop :=
  placeOf s d (opPrio s d n) = .defer ∧ 255 ≤ s.g d (R.DFD_OPSTATE.DEFER n)

section
variable {s t : State} {d n : Nat}

theorem fireOp_ends {fuel : Nat} (h : opValency s d n = 0 ∨ s.g d (R.DFD_OPSTATE.COUNT n) < opValency s d n) :
    fireOp (fuel + 1) s d n = s := if_pos h

theorem fireOp_stops {fuel : Nat} (h : firingStops s d n) : fireOp (fuel + 1) s d n = s := by
  by_cases hc : opValency s d n = 0 ∨ s.g d (R.DFD_OPSTATE.COUNT n) < opValency s d n
  · exact fireOp_ends hc
  · exact (if_neg hc).trans (if_pos h)

theorem fireOp_fires {fuel : Nat} (hv : opValency s d n ≠ 0) (hc : opValency s d n ≤ s.g d (R.DFD_OPSTATE.COUNT n))
    (hs : ¬ firingStops s d n) : fireOp (fuel + 1) s d n = fireOp fuel (fired s d n) d n :=
  (if_neg (not_or.mpr ⟨hv, Nat.not_lt.mpr hc⟩)).trans (if_neg hs)

theorem fired_canonical (h : Canonical s) : Canonical (fired s d n) := by
  have hkept : Kept s (fired s d n) := .both (fun h => .dfdCnt (.p h)) .placeFiring (.dfdCnt (.p (.refl s)))
  exact hkept.cells h

/-- Of the registers, the lists of a dispatcher show only in those below its operations' states. -/
theorem setDfd_writes (s : State) (d : Nat) (x : DfdSt) :
    Writes (fun k => k < cellKey d 0x810000) (s.putDfd d x) (s.setDfd d x) := by
  have hbelow {off : Nat} (h : off < 0x810000) : cellKey d off < cellKey d 0x810000 := by
    unfold cellKey
    omega
  have hqueues (t : State) (c : Nat) (hc : c ∈ List.range 4) (v w : Nat) :
      Writes (fun k => k < cellKey d 0x810000) t ((t.p d (R.DFD_CQ_STATUS.HELD c) v).p d (R.DFD_CQ_STATUS.WAITING c) w) := by
    have hoff : 0x801004 + 256 * c < 0x810000 := by
      have := List.mem_range.mp hc
      omega
    exact .p (hbelow hoff) (.p (hbelow hoff) (.refl t))
  exact .foldl (fun t c hc => hqueues t c hc _ _) (.p (hbelow (by decide)) (.p (hbelow (by decide)) (.p (hbelow (by decide))
    (.p (hbelow (by decide)) (.p (hbelow (by decide)) (.refl _))))))

/-- A field at an operation's state or descriptor. -/
def ofOperation (f : Fld) : Prop := 0x810000 ≤ f.off

theorem g_setDfd {f : Fld} {x : DfdSt} (hf : ofOperation f) : (s.setDfd d x).g d f = s.g d f := by
  have hcell : ¬ cellKey d f.off < cellKey d 0x810000 := by
    unfold cellKey
    unfold ofOperation at hf
    omega
  exact (setDfd_writes s d x).g_eq hcell

theorem g_dfdCnt {f : Fld} {k v : Nat} (hf : ofOperation f) (hk : k < 20) : (dfdCnt s d k v).g d f = s.g d f := by
  have hcell : cellKey d f.off ≠ cellKey d (R.DFD_CNT.COUNT k).off := by
    unfold ofOperation at hf
    simp only [R.DFD_CNT.COUNT, cellKey]
    omega
  exact State.g_congr (State.cell_p_other s d _ _ _ hcell)

theorem g_placeFiring {f : Fld} {pl : Place} (hf : ofOperation f) : (placeFiring s d n pl).g d f = s.g d f := by
  unfold placeFiring
  cases pl with
  | chip =>
    dsimp only
    unfold joinList
    exact g_setDfd hf
  | spill => exact g_setDfd hf
  | defer => rfl

/-- A firing changes of an operation's fields only the count and the count of deferred firings. -/
theorem g_fired {f : Fld} (hn : n < 8192) (h : Canonical s) (hf : ofOperation f) (hok : f.ok)
    (hd : (R.DFD_OPSTATE.DEFER n).apart f) :
    (fired s d n).g d f =
      (s.p d (R.DFD_OPSTATE.COUNT n) (s.g d (R.DFD_OPSTATE.COUNT n) - opValency s d n)).g d f := by
  have hoff : (R.DFD_OPSTATE.DEFER n).off < 2 ^ 24 := by
    simp only [R.DFD_OPSTATE.DEFER]
    omega
  have hcounted : Canonical (dfdCnt (s.p d (R.DFD_OPSTATE.COUNT n) (s.g d (R.DFD_OPSTATE.COUNT n) - opValency s d n)) d Cnt.fires 1) :=
    (Kept.dfdCnt (.p (.refl s))).cells h
  unfold fired
  dsimp only
  split
  · rw [g_dfdCnt hf (by decide), State.g_p_other _ d d _ f _ hoff hok hcounted (.inr hd), g_dfdCnt hf (by decide)]
  · rw [g_placeFiring hf, g_dfdCnt hf (by decide)]

theorem opValency_fired (hn : n < 8192) (h : Canonical s) : opValency (fired s d n) d n = opValency s d n := by
  have hword : (R.DFD_OPDESC.WORD n 0).ok := by
    simp only [Fld.ok, Fld.sh, R.DFD_OPDESC.WORD]
    omega
  have hplace : ofOperation (R.DFD_OPDESC.WORD n 0) := by
    simp only [ofOperation, R.DFD_OPDESC.WORD]
    omega
  have hcell : (R.DFD_OPSTATE.COUNT n).off / 8 ≠ (R.DFD_OPDESC.WORD n 0).off / 8 := by
    simp only [R.DFD_OPSTATE.COUNT, R.DFD_OPDESC.WORD]
    omega
  have hoff : (R.DFD_OPSTATE.COUNT n).off < 2 ^ 24 := by
    simp only [R.DFD_OPSTATE.COUNT]
    omega
  unfold opValency opWord
  rw [g_fired hn h hplace hword (.inl hcell), State.g_p_other s d d _ _ _ hoff hword h (.inr (.inl hcell))]

theorem count_lt : s.g d (R.DFD_OPSTATE.COUNT n) < 65536 := Nat.mod_lt _ (Nat.two_pow_pos 16)

theorem count_fired (hn : n < 8192) (h : Canonical s) :
    (fired s d n).g d (R.DFD_OPSTATE.COUNT n) = s.g d (R.DFD_OPSTATE.COUNT n) - opValency s d n := by
  have hok : (R.DFD_OPSTATE.COUNT n).ok := by
    simp only [Fld.ok, Fld.sh, R.DFD_OPSTATE.COUNT]
    omega
  have hplace : ofOperation (R.DFD_OPSTATE.COUNT n) := Nat.le_add_right _ _
  have hbits : (R.DFD_OPSTATE.COUNT n).sh + (R.DFD_OPSTATE.COUNT n).w ≤ (R.DFD_OPSTATE.DEFER n).sh := by
    simp only [Fld.sh, R.DFD_OPSTATE.COUNT, R.DFD_OPSTATE.DEFER]
    omega
  have hcount : s.g d (R.DFD_OPSTATE.COUNT n) < 65536 := count_lt
  rw [g_fired hn h hplace hok (.inr (.inr hbits)), State.g_p_same _ _ _ _ hok.1 h]
  exact Nat.mod_eq_of_lt (by simp only [R.DFD_OPSTATE.COUNT] at hcount ⊢; omega)

/-! ## Firing while the count reaches the valency -/

/-- What every firing of an operation keeps, firing while the count reaches the valency keeps. -/
theorem fireOp_induct {P : State → Prop} (hP : ∀ t, P t → opValency t d n ≤ t.g d (R.DFD_OPSTATE.COUNT n) → P (fired t d n))
    (fuel : Nat) (h : P s) : P (fireOp fuel s d n) := by
  induction fuel generalizing s with
  | zero => exact h
  | succ fuel ih =>
    by_cases hc : opValency s d n = 0 ∨ s.g d (R.DFD_OPSTATE.COUNT n) < opValency s d n
    · rwa [fireOp_ends hc]
    obtain ⟨hv, hle⟩ := not_or.mp hc
    by_cases hs : firingStops s d n
    · rwa [fireOp_stops hs]
    · rw [fireOp_fires hv (Nat.not_lt.mp hle) hs]
      exact ih (hP s h (Nat.not_lt.mp hle))

/-- The form of the cells, the valency, and the count but for whole valencies. -/
theorem fireOp_keeps (fuel : Nat) (hn : n < 8192) (h : Canonical s) :
    Canonical (fireOp fuel s d n) ∧ opValency (fireOp fuel s d n) d n = opValency s d n ∧
      (fireOp fuel s d n).g d (R.DFD_OPSTATE.COUNT n) % opValency s d n = s.g d (R.DFD_OPSTATE.COUNT n) % opValency s d n := by
  refine fireOp_induct (P := fun t => Canonical t ∧ opValency t d n = opValency s d n ∧
    t.g d (R.DFD_OPSTATE.COUNT n) % opValency s d n = s.g d (R.DFD_OPSTATE.COUNT n) % opValency s d n) ?_ fuel ⟨h, rfl, rfl⟩
  rintro t ⟨ht, hv, hmod⟩ hle
  refine ⟨fired_canonical ht, (opValency_fired hn ht).trans hv, ?_⟩
  rw [count_fired hn ht, ← hmod, hv, ← Nat.mod_eq_sub_mod (hv ▸ hle)]

/-- Each firing takes a valency off the count, so that as many as the count are enough. -/
theorem fireOp_settles {fuel : Nat} (hn : n < 8192) (h : Canonical s) (hv : opValency s d n ≠ 0)
    (hfuel : s.g d (R.DFD_OPSTATE.COUNT n) < fuel) :
    (fireOp fuel s d n).g d (R.DFD_OPSTATE.COUNT n) < opValency s d n ∨ firingStops (fireOp fuel s d n) d n := by
  induction fuel generalizing s with
  | zero => exact absurd hfuel (Nat.not_lt_zero _)
  | succ fuel ih =>
    by_cases hlt : s.g d (R.DFD_OPSTATE.COUNT n) < opValency s d n
    · rw [fireOp_ends (.inr hlt)]
      exact .inl hlt
    by_cases hs : firingStops s d n
    · rw [fireOp_stops hs]
      exact .inr hs
    · have hvalency := opValency_fired (d := d) hn h
      have hless : (fired s d n).g d (R.DFD_OPSTATE.COUNT n) < fuel := by
        rw [count_fired hn h]
        omega
      rw [fireOp_fires hv (Nat.not_lt.mp hlt) hs, ← hvalency]
      exact ih (fired_canonical h) (hvalency ▸ hv) hless

theorem firingStops_iff : firingStops s d n ↔
    placeOf s d (opPrio s d n) = .defer ∧ s.g d (R.DFD_OPSTATE.DEFER n) = 255 := by
  have hlt : s.g d (R.DFD_OPSTATE.DEFER n) < 256 := Nat.mod_lt _ (Nat.two_pow_pos 8)
  exact and_congr_right' ⟨fun h => by omega, fun h => h.ge⟩

end

/-! ## Fresh tickets -/

/-- Ticket values run from 1 to 65535 and around (R263). -/
theorem ticketAfter_range (t : Nat) : 1 ≤ ticketAfter t ∧ ticketAfter t ≤ 65535 := by
  unfold ticketAfter
  omega

theorem ticketAfter_iterate {k : Nat} (h1 : 1 ≤ k) (h2 : k ≤ 65535) (i : Nat) : ticketAfter^[i] k = (k - 1 + i) % 65535 + 1 := by
  induction i with
  | zero =>
    show k = _
    omega
  | succ i ih =>
    rw [Function.iterate_succ_apply', ih]
    unfold ticketAfter
    omega

theorem freeTicket_range (fuel : Nat) (l : List Ticket) {k : Nat} (h1 : 1 ≤ k) (h2 : k ≤ 65535) :
    1 ≤ freeTicket fuel l k ∧ freeTicket fuel l k ≤ 65535 := by
  induction fuel generalizing k with
  | zero => exact ⟨h1, h2⟩
  | succ fuel ih =>
    unfold freeTicket
    split
    · exact ih (ticketAfter_range k).1 (ticketAfter_range k).2
    · exact ⟨h1, h2⟩

/-- The search ends at a value that is not held, or every value that it has tried is. -/
theorem freeTicket_free_or (fuel : Nat) (l : List Ticket) (k : Nat) :
    (∀ x ∈ l, x.t ≠ freeTicket fuel l k) ∨ ∀ i < fuel, ticketAfter^[i] k ∈ l.map (·.t) := by
  induction fuel generalizing k with
  | zero => exact .inr (fun i hi => absurd hi (Nat.not_lt_zero i))
  | succ fuel ih =>
    by_cases hheld : l.any (fun x => x.t == k) = true
    · have hnext : freeTicket (fuel + 1) l k = freeTicket fuel l (ticketAfter k) := if_pos hheld
      have hk : k ∈ l.map (·.t) := by simpa using hheld
      rw [hnext]
      refine (ih (ticketAfter k)).imp_right (fun hall i hi => ?_)
      cases i with
      | zero => exact hk
      | succ i => exact hall i (Nat.lt_of_succ_lt_succ hi)
    · have hthis : freeTicket (fuel + 1) l k = k := if_neg hheld
      rw [hthis]
      exact .inl (by simpa using hheld)

/-- More values are tried than are held, and no value twice. -/
theorem freeTicket_free {fuel k : Nat} {l : List Ticket} (hl : l.length < fuel) (hfuel : fuel ≤ 65535) (h1 : 1 ≤ k) (h2 : k ≤ 65535) :
    ∀ x ∈ l, x.t ≠ freeTicket fuel l k := by
  refine (freeTicket_free_or fuel l k).resolve_right (fun hall => ?_)
  have htried : ((List.range fuel).map (fun i => ticketAfter^[i] k)).Nodup := by
    refine List.Nodup.map_on (fun i hi j hj he => ?_) List.nodup_range
    rw [List.mem_range] at hi hj
    rw [ticketAfter_iterate h1 h2, ticketAfter_iterate h1 h2] at he
    omega
  have hheld : (List.range fuel).map (fun i => ticketAfter^[i] k) ⊆ l.map (·.t) := by
    intro v hv
    obtain ⟨i, hi, rfl⟩ := List.mem_map.mp hv
    exact hall i (List.mem_range.mp hi)
  have hle := (htried.subperm hheld).length_le
  simp only [List.length_map, List.length_range] at hle
  omega

/-- Settles O43: each firing takes the valency off the count until it is below or the firings stop, and of 513 ticket values tried one is
not held. -/
theorem dispatcherRules : Obligations.DispatcherRules := by
  refine ⟨?_, fun l k hl h1 h2 => ?_⟩
  · rintro s d n h - hn hv t rfl
    obtain ⟨-, hvalency, hmod⟩ := fireOp_keeps (d := d) 65536 hn h
    exact ⟨hvalency, (fireOp_settles hn h hv count_lt).imp_right firingStops_iff.mp, hmod⟩
  · have hfree := freeTicket_free (fuel := 513) (Nat.lt_succ_of_le hl) (by decide) h1 h2
    have hrange := freeTicket_range 513 l h1 h2
    exact ⟨hfree, hrange⟩

end Sys2Proof.Machine
end

/-! # Register accesses to the dispatcher (R252, R254, R267, R268, R273, R275, R276) -/

section
set_option Elab.async false
namespace Sys2Proof.Machine

/-! ## Accesses that reach a register of the DFD block -/

theorem block_dfd {r : RegRef} (hlo : 0x800000 ≤ r.off) (hhi : r.off < 0x900000) : r.block = some .DFD := by
  unfold RegRef.block blockAt
  iterate 18 rw [if_neg (by omega)]
  exact if_pos hhi

/-- What makes a register of the DFD block one that a write can reach; closed facts of the register map. -/
structure DfdWritable (r : RegRef) : Prop extends Writable r where
  block : r.block = some .DFD

theorem dfdToken_writable : DfdWritable ⟨.DFD_TOKEN, 0, 0⟩ := ⟨by constructor <;> decide, by decide⟩
theorem dfdCmd_writable : DfdWritable ⟨.DFD_CMD, 0, 0⟩ := ⟨by constructor <;> decide, by decide⟩
theorem dfdCtrl_writable : DfdWritable ⟨.DFD_CTRL, 0, 0⟩ := ⟨by constructor <;> decide, by decide⟩

theorem cqCpl_off (q : Nat) : (R.DFD_CQ_CPL.STATUS q).off = RegRef.off ⟨.DFD_CQ_CPL, q, 0⟩ :=
  congrArg (0x801010 + ·) (Nat.mul_comm 256 q)

theorem cqCfg_off (q : Nat) : (R.DFD_CQ_CFG.FLUSH q).off = RegRef.off ⟨.DFD_CQ_CFG, q, 0⟩ :=
  congrArg (0x801000 + ·) (Nat.mul_comm 256 q)

theorem cqPop_off (q : Nat) : (R.DFD_CQ_POP.VALID q).off = RegRef.off ⟨.DFD_CQ_POP, q, 0⟩ :=
  congrArg (0x801008 + ·) (Nat.mul_comm 256 q)

theorem opDesc_off (n k : Nat) : (R.DFD_OPDESC.WORD n k).off = RegRef.off ⟨.DFD_OPDESC, n, k⟩ :=
  congrArg₂ (0x840000 + · + ·) (Nat.mul_comm 32 n) (Nat.mul_comm 4 k)

theorem cqCpl_writable (q : Fin 4) : DfdWritable ⟨.DFD_CQ_CPL, q, 0⟩ := by
  have hwritable : RegId.DFD_CQ_CPL.info.writable ≠ 0 := by decide
  have hoff : RegRef.off ⟨.DFD_CQ_CPL, q, 0⟩ = 0x801010 + 256 * q := (cqCpl_off q).symm
  exact ⟨⟨rfl, hwritable, RegId.noConfusion, by omega, by omega⟩, block_dfd (by omega) (by omega)⟩

theorem cqCfg_writable (q : Fin 4) : DfdWritable ⟨.DFD_CQ_CFG, q, 0⟩ := by
  have hwritable : RegId.DFD_CQ_CFG.info.writable ≠ 0 := by decide
  have hoff : RegRef.off ⟨.DFD_CQ_CFG, q, 0⟩ = 0x801000 + 256 * q := (cqCfg_off q).symm
  exact ⟨⟨rfl, hwritable, RegId.noConfusion, by omega, by omega⟩, block_dfd (by omega) (by omega)⟩

theorem opDesc_writable (n : Fin 8192) (k : Fin 8) : DfdWritable ⟨.DFD_OPDESC, n, k⟩ := by
  have hwritable : RegId.DFD_OPDESC.info.writable ≠ 0 := by decide
  have hoff : RegRef.off ⟨.DFD_OPDESC, n, k⟩ = 0x840000 + 32 * n + 4 * k := (opDesc_off n k).symm
  exact ⟨⟨rfl, hwritable, RegId.noConfusion, by omega, by omega⟩, block_dfd (by omega) (by omega)⟩

section
variable {s t : State} {m : Master} {d v : Nat} {r : RegRef}

theorem writeFamily_dfd {raw mask : Nat} (hb : r.block = some .DFD) :
    writeFamily s (mkWr s m d r raw mask) = writeDfd s (mkWr s m d r raw mask) := by
  unfold writeFamily
  simp only [mkWr, hb]

theorem put32_dfd_ok (h : Reaches s m d r) (hr : DfdWritable r)
    (hw : writeDfd s (mkWr s m d r (v % 2 ^ 32) (2 ^ 32 - 1)) = t.ans .ok) : put32 s m d r.off v = t.ans .ok :=
  put32_ok h hr.toWritable ((writeFamily_dfd hr.block).trans hw)

theorem put32_dfd_refused (h : Reaches s m d r) (hr : DfdWritable r)
    (hw : writeDfd s (mkWr s m d r (v % 2 ^ 32) (2 ^ 32 - 1)) = t.ans .accessError) :
    put32 s m d r.off v = (t.ans .accessError).coreTrap m .storeFault (d * 0x1000000 + r.off) :=
  put32_refused h hr.toWritable ((writeFamily_dfd hr.block).trans hw)

theorem Reaches.onHead (h : Reaches s m d r) : r.id.info.head = true → d = s.head := by
  obtain ⟨-, -, -, -, -, -, hhead, -⟩ := h
  exact hhead

theorem Reaches.sntIdle (h : Reaches s m d r) : sntState s d = Snt.idle := by
  obtain ⟨-, -, -, -, -, -, -, hidle⟩ := h
  exact hidle

/-- A 64-bit write of a pair that the register's family refuses is an access fault of the core that made it. -/
theorem put64_refused (h : Reaches s m d r) (hr : Writable r) (hp : r.id.info.pair = true) (ha : r.off % 8 = 0)
    (ho₂ : regOn s d (r.off + 4) = some r)
    (hw : writeFamily s (mkWr s m d r (v % 2 ^ 64) (2 ^ 64 - 1)) = t.ans .accessError) :
    put64 s m d r.off v = (t.ans .accessError).coreTrap m .storeFault (d * 0x1000000 + r.off) := by
  have ho := h.regOn_eq
  have hpair : pairAt s d r.off = true := by simp [pairAt, ho, hp]
  have hwhole : v % 2 ^ 64 &&& (2 ^ 64 - 1) = v % 2 ^ 64 := by rw [Nat.and_two_pow_sub_one_eq_mod, Nat.mod_mod]
  have hdefined := bytesDefined_pair ho ho₂ (by omega) hr.inWindow
  have hreg := writeReg_family s m d r (v % 2 ^ 64) (2 ^ 64 - 1) h.onHead hr.imageSet hr.writable h.sntIdle
  rw [hwhole, hw] at hreg
  have hpassed : regWrite writeSntCommit s m d r.off 8 v false = t.ans .accessError := by
    simpa [regWrite, inAperture_reg s d r.off r ho, hdefined, ha, hpair, writeWord, ho, h.regRefusal_eq, hr.commit] using hreg
  unfold put64 accessWrite
  rw [writeOver_reaches h, hpassed, coreSees_refused]

/-- A 64-bit read of a pair (R432). -/
theorem accessRead_pair (h : Reaches s m d r) (hp : r.id.info.pair = true) (ha : r.off % 8 = 0) (hl : r.off + 8 ≤ 2 ^ 24)
    (ho₂ : regOn s d (r.off + 4) = some r) (hread : readReg s d r (2 ^ 64 - 1) = (v, t)) :
    accessRead s m d r.off 8 = t.ansData .ok [BitVec.ofNat 64 v] := by
  have ho := h.regOn_eq
  have hdefined := bytesDefined_pair ho ho₂ (by omega) hl
  have hwhole : regRead s m d r.off 8 = (.ok, v, t) := by
    simpa [regRead, hdefined, ha, ho, hp, h.regRefusal_eq] using hread
  unfold accessRead
  rw [readOver_reaches_ok h (inAperture_reg s d r.off r ho) hwhole, coreSees_data]

end

/-! ## DFD_TOKEN (R254) -/

section
variable {s t : State} {m : Master} {die : Die} {w : DWord}

theorem tokenWrite_counted {n : Nat} (hm : m.cls ≠ .dfd ∨ s.dieOfRid m.rid = die) (hw : tokenOk s die n = true) :
    tokenWrite s die m n = (countToken s die n).ans .ok := by
  have hhome : ¬ (m.cls = .dfd ∧ s.dieOfRid m.rid ≠ die) := fun ⟨hc, hd⟩ => hm.elim (· hc) hd
  unfold tokenWrite
  rw [if_pos hw, if_neg hhome]

theorem tokenWrite_refused {n : Nat} (hw : tokenOk s die n = false) : tokenWrite s die m n = s.ans .accessError :=
  if_neg (by simp [hw])

theorem regOn_tokenHigh : regOn s die (RegRef.off ⟨.DFD_TOKEN, 0, 0⟩ + 4) = some ⟨.DFD_TOKEN, 0, 0⟩ :=
  regOn_of_regAt (by decide) (by decide) (by decide)

/-- The dispatcher gets the whole token word. -/
theorem writeFamily_token : writeFamily s (mkWr s m die ⟨.DFD_TOKEN, 0, 0⟩ (w.toNat % 2 ^ 64) (2 ^ 64 - 1)) =
    tokenWrite s die m w.toNat := by
  rw [writeFamily_dfd dfdToken_writable.block, Nat.mod_eq_of_lt w.isLt]
  rfl

theorem exec_tokenWrite_ok (h : Reaches s m die ⟨.DFD_TOKEN, 0, 0⟩) (hw : tokenWrite s die m w.toNat = t.ans .ok) :
    exec (.tokenWrite m die w) s = .next (t.ans .ok) :=
  congrArg _ (put64_ok h dfdToken_writable.toWritable rfl (by decide) regOn_tokenHigh (writeFamily_token.trans hw))

theorem exec_tokenWrite_refused (h : Reaches s m die ⟨.DFD_TOKEN, 0, 0⟩) (hw : tokenWrite s die m w.toNat = t.ans .accessError) :
    exec (.tokenWrite m die w) s =
      .next ((t.ans .accessError).coreTrap m .storeFault (die * 0x1000000 + RegRef.off ⟨.DFD_TOKEN, 0, 0⟩)) :=
  congrArg _ (put64_refused h dfdToken_writable.toWritable rfl (by decide) regOn_tokenHigh (writeFamily_token.trans hw))

end

/-! ## Descriptors (R251, R252) -/

section
variable {s t : State} {m : Master} {die : Die} {d n w v : Nat}

theorem writeDesc_word (hv : opValid s d n = false) (hw : w ≠ 0) : writeDesc s d n w v = (s.p d (R.DFD_OPDESC.WORD n w) v).ans .ok := by
  simp [writeDesc, hv, hw]

theorem writeDesc_first (hv : opValid s d n = false) (hok : v.testBit 31 = true → descOk v (opWord s d n 1) = true) :
    writeDesc s d n 0 v = (s.p d (R.DFD_OPDESC.WORD n 0) (v / 8192 * 8192 + n)).ans .ok := by
  have htaken : ¬ ((v.testBit 31 && !descOk v (opWord s d n 1)) = true) := by simpa using hok
  simp [writeDesc, hv, htaken]

theorem writeDesc_refused (hv : opValid s d n = false) (hvalid : v.testBit 31 = true) (hbad : descOk v (opWord s d n 1) = false) :
    writeDesc s d n 0 v = s.ans .accessError := by
  simp [writeDesc, hv, hvalid, hbad]

/-- A write leaves no bit in a register above those of what it held and what is written. -/
theorem merge_lt {i : RegInfo} {old raw mask b : Nat} (hold : old < 2 ^ b) (hraw : raw < 2 ^ b) : i.merge old raw mask < 2 ^ b := by
  have hand {x y : Nat} (hx : x < 2 ^ b) : x &&& y < 2 ^ b := Nat.and_le_left.trans_lt hx
  have hset : i.w1s &&& raw < 2 ^ b := Nat.and_le_right.trans_lt hraw
  exact Nat.or_lt_two_pow (Nat.or_lt_two_pow (hand hold) (hand hraw)) (hand hset)

/-- A write takes the whole of a descriptor word. -/
theorem opDesc_new (hv : v < 2 ^ 32) : (mkWr s m d ⟨.DFD_OPDESC, n, w⟩ v (2 ^ 32 - 1)).new = v := by
  have hold : s.reg d ⟨.DFD_OPDESC, n, w⟩ < 2 ^ 32 := Nat.mod_lt _ (Nat.two_pow_pos 32)
  have htaken := merge_taken RegId.DFD_OPDESC.info (R.DFD_OPDESC.WORD 0 0) (s.reg d ⟨.DFD_OPDESC, n, w⟩) v (2 ^ 32 - 1)
    (by decide) (by decide)
  have hlt : (mkWr s m d ⟨.DFD_OPDESC, n, w⟩ v (2 ^ 32 - 1)).new < 2 ^ 32 := merge_lt hold hv
  calc (mkWr s m d ⟨.DFD_OPDESC, n, w⟩ v (2 ^ 32 - 1)).new
      = (mkWr s m d ⟨.DFD_OPDESC, n, w⟩ v (2 ^ 32 - 1)).new % 2 ^ 32 := (Nat.mod_eq_of_lt hlt).symm
    _ = v % 2 ^ 32 := htaken
    _ = v := Nat.mod_eq_of_lt hv

theorem writeDfd_opDesc {x : Word} : writeDfd s (mkWr s m d ⟨.DFD_OPDESC, n, w⟩ (x.toNat % 2 ^ 32) (2 ^ 32 - 1)) =
    writeDesc s d n w x.toNat := by
  have hnew := opDesc_new (s := s) (m := m) (d := d) (n := n) (w := w) x.isLt
  rw [Nat.mod_eq_of_lt x.isLt]
  exact congrArg (writeDesc s d n w) hnew

theorem exec_descriptorWrite_ok {op : Fin 8192} {k : Fin 8} {x : Word} (h : Reaches s m die ⟨.DFD_OPDESC, op, k⟩)
    (hw : writeDesc s die op k x.toNat = t.ans .ok) : exec (.descriptorWrite m die op k x) s = .next (t.ans .ok) := by
  have hput := put32_dfd_ok h (opDesc_writable op k) (writeDfd_opDesc.trans hw)
  rw [← opDesc_off] at hput
  exact congrArg _ hput

theorem exec_descriptorWrite_refused {op : Fin 8192} {k : Fin 8} {x : Word} (h : Reaches s m die ⟨.DFD_OPDESC, op, k⟩)
    (hw : writeDesc s die op k x.toNat = t.ans .accessError) : exec (.descriptorWrite m die op k x) s =
      .next ((t.ans .accessError).coreTrap m .storeFault (die * 0x1000000 + RegRef.off ⟨.DFD_OPDESC, op, k⟩)) := by
  have hput := put32_dfd_refused h (opDesc_writable op k) (writeDfd_opDesc.trans hw)
  rw [← opDesc_off] at hput ⊢
  exact congrArg _ hput

end

/-! ## Core queues (R267) -/

section
variable {s t : State} {m : Master} {die : Die} {q : Fin 4}

theorem regOn_cqPopHigh : regOn s die (RegRef.off ⟨.DFD_CQ_POP, q, 0⟩ + 4) = some ⟨.DFD_CQ_POP, q, 0⟩ := by
  have hat : ∀ q : Fin 4, regAt (RegRef.off ⟨.DFD_CQ_POP, q, 0⟩ + 4) = some ⟨.DFD_CQ_POP, q, 0⟩ := by decide
  have hblock : ∀ q : Fin 4, RegRef.block ⟨.DFD_CQ_POP, q, 0⟩ = some .DFD := by decide
  exact regOn_of_regAt (hat q) (by rw [hblock]; decide) (by rw [hblock]; decide)

theorem exec_cqPop (h : Reaches s m die ⟨.DFD_CQ_POP, q, 0⟩) :
    exec (.cqPop m die q) s = .next ((cqPop s die q).2.ansData .ok [BitVec.ofNat 64 (cqPop s die q).1]) := by
  have hoff := cqPop_off q
  simp only [R.DFD_CQ_POP.VALID] at hoff
  have hread := accessRead_pair h rfl (by omega) (by omega) regOn_cqPopHigh rfl
  rw [← cqPop_off] at hread
  exact congrArg _ hread

/-- The fields of DFD_CQ_CPLc as a completion writes them. -/
theorem cqCpl_fields {v st n k : Nat} (hst : st < 4) (hn : n < 8) (hk : k < 65536)
    (hv : v = named s die ⟨.DFD_CQ_CPL, q, 0⟩ [(R.DFD_CQ_CPL.STATUS q, st), (R.DFD_CQ_CPL.NTOK q, n), (R.DFD_CQ_CPL.TICKET q, k)]) :
    (R.DFD_CQ_CPL.STATUS 0).of v = st ∧ (R.DFD_CQ_CPL.NTOK 0).of v = n ∧ (R.DFD_CQ_CPL.TICKET 0).of v = k := by
  have hticket : ∀ x y, (R.DFD_CQ_CPL.STATUS 0).of ((R.DFD_CQ_CPL.TICKET q).setIn x y) = (R.DFD_CQ_CPL.STATUS 0).of x ∧
      (R.DFD_CQ_CPL.NTOK 0).of ((R.DFD_CQ_CPL.TICKET q).setIn x y) = (R.DFD_CQ_CPL.NTOK 0).of x := fun x y =>
    ⟨of_over_other _ _ x y (.inl (Nat.le_of_ble_eq_true rfl)), of_over_other _ _ x y (.inl (Nat.le_of_ble_eq_true rfl))⟩
  have hntok : ∀ x y, (R.DFD_CQ_CPL.STATUS 0).of ((R.DFD_CQ_CPL.NTOK q).setIn x y) = (R.DFD_CQ_CPL.STATUS 0).of x := fun x y =>
    of_over_other _ _ x y (.inl (Nat.le_of_ble_eq_true rfl))
  rw [hv, of_named _ (by decide), of_named _ (by decide), of_named _ (by decide)]
  simp only [List.foldl_cons, List.foldl_nil]
  refine ⟨?_, ?_, ?_⟩
  · rw [(hticket _ _).1, hntok]
    exact (of_over_same (R.DFD_CQ_CPL.STATUS q) _ _).trans (Nat.mod_eq_of_lt hst)
  · rw [(hticket _ _).2]
    exact (of_over_same (R.DFD_CQ_CPL.NTOK q) _ _).trans (Nat.mod_eq_of_lt hn)
  · exact (of_over_same (R.DFD_CQ_CPL.TICKET q) _ _).trans (Nat.mod_eq_of_lt hk)

theorem writeDfd_cqCpl {d i raw mask : Nat} : writeDfd s (mkWr s m d ⟨.DFD_CQ_CPL, i, 0⟩ raw mask) =
    cqComplete s d i m.rid ((R.DFD_CQ_CPL.STATUS 0).of raw) ((R.DFD_CQ_CPL.NTOK 0).of raw) ((R.DFD_CQ_CPL.TICKET 0).of raw) := rfl

/-- A popped ticket that is not completed yet is completed, with the tokens that stand in the queue's registers. -/
theorem cqComplete_popped {d c rid status ntok k : Nat} {x : DCpl} {l : List CqEnt} (hst : status ≠ 3) (hn : ntok ≤ 4)
    (hk : ((s.dfdOf d).queue c).any (fun e => e.popped && e.cpl.isNone && e.t == k) = true)
    (hx : x = ⟨128 + c, k, status, (List.range ntok).map (fun j => BitVec.ofNat 64 (s.g d (R.DFD_CQ_TOK.TOKEN c j)))⟩)
    (hl : l = ((s.dfdOf d).queue c).map (fun e => if e.t = k then { e with cpl := some (rid, x) } else e)) :
    cqComplete s d c rid status ntok k =
      (cqRelease (s.setDfd d { s.dfdOf d with cq := SMap.set (fun _ => []) (s.dfdOf d).cq c l }) d c).ans .ok := by
  subst hx hl
  unfold cqComplete
  exact if_pos ⟨hk, hst, hn⟩

theorem exec_cqComplete {st : Fin 4} {n : Fin 8} {k : BitVec 16} (h : Reaches s m die ⟨.DFD_CQ_CPL, q, 0⟩)
    (hw : cqComplete s die q m.rid st n k.toNat = t.ans .ok) : exec (.cqComplete m die q st n k) s = .next (t.ans .ok) := by
  obtain ⟨hstatus, hntok, hticket⟩ := cqCpl_fields (s := s) (die := die) (q := q) st.isLt n.isLt k.isLt rfl
  have hwrite : writeDfd s (mkWr s m die ⟨.DFD_CQ_CPL, q, 0⟩ (named s die ⟨.DFD_CQ_CPL, q, 0⟩
      [(R.DFD_CQ_CPL.STATUS q, st), (R.DFD_CQ_CPL.NTOK q, n), (R.DFD_CQ_CPL.TICKET q, k.toNat)]) (2 ^ 32 - 1)) = t.ans .ok := by
    rw [writeDfd_cqCpl, hstatus, hntok, hticket, hw]
  exact congrArg _ ((poke_eq (cqCpl_off q) _ _).trans (put32_dfd_ok h (cqCpl_writable q) hwrite))

theorem writeDfd_cqCfg {d i raw mask : Nat} : writeDfd s (mkWr s m d ⟨.DFD_CQ_CFG, i, 0⟩ raw mask) =
    writeCqCfg s (mkWr s m d ⟨.DFD_CQ_CFG, i, 0⟩ raw mask) := rfl

/-- FLUSH with a QDEPTH that stands as it is. -/
theorem writeCqCfg_flush {w : Wr} (hq : (R.DFD_CQ_CFG.QDEPTH 0).of w.new = s.g w.d (R.DFD_CQ_CFG.QDEPTH w.r.i))
    (h1 : 1 ≤ s.g w.d (R.DFD_CQ_CFG.QDEPTH w.r.i)) (h16 : s.g w.d (R.DFD_CQ_CFG.QDEPTH w.r.i) ≤ 16)
    (hf : (R.DFD_CQ_CFG.FLUSH 0).of w.raw = 1) :
    writeCqCfg s w = (cqFlush ((s.setReg w.d w.r w.new).ans .ok) w.d w.r.i).ans .ok := by
  unfold writeCqCfg
  dsimp only
  rw [hq, if_neg (by simp; omega), if_pos hf]
  rfl

/-- The fields of DFD_CQ_CFGc as a flush writes them: QDEPTH as it stands. -/
theorem cqFlush_fields {v : Nat} (h : Reaches s m die ⟨.DFD_CQ_CFG, q, 0⟩)
    (hv : v = named s die ⟨.DFD_CQ_CFG, q, 0⟩ [(R.DFD_CQ_CFG.FLUSH q, 1)]) :
    (R.DFD_CQ_CFG.QDEPTH 0).of v = s.g die (R.DFD_CQ_CFG.QDEPTH q) ∧ (R.DFD_CQ_CFG.FLUSH 0).of v = 1 := by
  have htaken : (R.DFD_CQ_CFG.QDEPTH 0).of (RegId.DFD_CQ_CFG.info.rw ||| RegId.DFD_CQ_CFG.info.rws) = 31 := by decide
  have hkept := h.of_keptFields (f := R.DFD_CQ_CFG.QDEPTH q) (cqCfg_off q) (Nat.le_of_ble_eq_true rfl) htaken
  rw [hv]
  exact ⟨(of_named_other (by decide) (.inr (by simp [R.DFD_CQ_CFG.QDEPTH, R.DFD_CQ_CFG.FLUSH]))).trans hkept,
    of_named_same (by simp [R.DFD_CQ_CFG.FLUSH]) rfl rfl (by simp [R.DFD_CQ_CFG.FLUSH])⟩

/-- The write of DFD_CQ_CFGc that a flush makes. -/
def cqFlushWr (s : State) (m : Master) (d q : Nat) : Wr :=
  mkWr s m d ⟨.DFD_CQ_CFG, q, 0⟩ (named s d ⟨.DFD_CQ_CFG, q, 0⟩ [(R.DFD_CQ_CFG.FLUSH q, 1)]) (2 ^ 32 - 1)

theorem exec_cqFlush (h : Reaches s m die ⟨.DFD_CQ_CFG, q, 0⟩) (hw : writeCqCfg s (cqFlushWr s m die q) = t.ans .ok) :
    exec (.cqFlush m die q) s = .next (t.ans .ok) :=
  congrArg _ ((poke_eq (cqCfg_off q) _ _).trans (put32_dfd_ok h (cqCfg_writable q) (writeDfd_cqCfg.trans hw)))

theorem writeCqCfg_cqFlushWr (h : Reaches s m die ⟨.DFD_CQ_CFG, q, 0⟩) (h1 : 1 ≤ s.g die (R.DFD_CQ_CFG.QDEPTH q))
    (h16 : s.g die (R.DFD_CQ_CFG.QDEPTH q) ≤ 16) : writeCqCfg s (cqFlushWr s m die q) =
      (cqFlush ((s.setReg die ⟨.DFD_CQ_CFG, q, 0⟩ (cqFlushWr s m die q).new).ans .ok) die q).ans .ok := by
  obtain ⟨hdepth, hflush⟩ := cqFlush_fields h rfl
  have htaken : (R.DFD_CQ_CFG.QDEPTH 0).of (cqFlushWr s m die q).new = _ :=
    merge_taken RegId.DFD_CQ_CFG.info _ _ _ _ (by decide) (by decide)
  exact writeCqCfg_flush (w := cqFlushWr s m die q) (htaken.trans hdepth) h1 h16 hflush

end

/-! ## DFD_CMD (R268, R269, R273, R275) -/

section
variable {s t : State} {m : Master} {die : Die} {d op arg : Nat} {df : Bool}

/-- The fields of DFD_CMD as a command writes them. -/
theorem dfdCmd_fields {v : Nat} (hop : op < 16) (harg : arg < 65536)
    (hv : v = named s die ⟨.DFD_CMD, 0, 0⟩ [(R.DFD_CMD.OP, op), (R.DFD_CMD.ARG, arg)]) :
    R.DFD_CMD.OP.of v = op ∧ R.DFD_CMD.ARG.of v = arg := by
  rw [hv, of_named _ (by decide), of_named _ (by decide)]
  simp (disch := decide) only [List.foldl, of_over_other, of_over_same]
  exact ⟨Nat.mod_eq_of_lt hop, Nat.mod_eq_of_lt harg⟩

theorem writeDfd_dfdCmd (hop : op < 16) (harg : arg < 65536) :
    writeDfd s (mkWr s m die ⟨.DFD_CMD, 0, 0⟩ (named s die ⟨.DFD_CMD, 0, 0⟩ [(R.DFD_CMD.OP, op), (R.DFD_CMD.ARG, arg)]) (2 ^ 32 - 1)) =
      dfdCmd s die m op arg := by
  obtain ⟨h1, h2⟩ := dfdCmd_fields (s := s) (die := die) hop harg rfl
  exact congrArg₂ (dfdCmd s die m) h1 h2

/-- A command is the write of its code and its argument. -/
theorem dfdPoke_ok (h : Reaches s m die ⟨.DFD_CMD, 0, 0⟩) (hw : dfdCmd s die m op arg = cmdOk t die m df)
    (harg : arg < 65536) (hop : op < 16 := by decide) : dfdPoke s m die op arg = cmdOk t die m df :=
  (poke_eq (r := ⟨.DFD_CMD, 0, 0⟩) rfl _ _).trans (put32_dfd_ok h dfdCmd_writable ((writeDfd_dfdCmd hop harg).trans hw))

theorem dfdPoke_refused (h : Reaches s m die ⟨.DFD_CMD, 0, 0⟩) (hw : dfdCmd s die m op arg = cmdBad s die)
    (harg : arg < 65536) (hop : op < 16 := by decide) : dfdPoke s m die op arg =
      (cmdBad s die).coreTrap m .storeFault (die * 0x1000000 + RegRef.off ⟨.DFD_CMD, 0, 0⟩) :=
  (poke_eq (r := ⟨.DFD_CMD, 0, 0⟩) rfl _ _).trans (put32_dfd_refused h dfdCmd_writable ((writeDfd_dfdCmd hop harg).trans hw))

theorem dfdCmd_migrateOp (harg : arg < 8192) (hv : opValid s d arg = true) : dfdCmd s d m 1 arg =
    cmdOk (migrateAll s d (liveTickets s d (fun t => t.op == arg))).1 d m
      (migrateAll s d (liveTickets s d (fun t => t.op == arg))).2 :=
  if_neg (by simp [hv, harg])

theorem dfdCmd_evacuateUnit (hu : unitOk arg = true) :
    dfdCmd s d m 2 arg = cmdOk (evacuateUnit s d arg).1 d m (evacuateUnit s d arg).2 := if_pos hu

theorem dfdCmd_abortOp (harg : arg < 8192) (hv : opValid s d arg = true) :
    dfdCmd s d m 3 arg = cmdOk (abortOp s d arg) d m false := if_neg (by simp [hv, harg])

theorem dfdCmd_abortUnit (hu : unitOk arg = true) : dfdCmd s d m 4 arg = cmdOk (abortUnit s d arg) d m false := if_pos hu

/-- An operation that does not exist is a bad argument. -/
theorem dfdCmd_noOperation (hop : op = 1 ∨ op = 3) (harg : 8192 ≤ arg) : dfdCmd s d m op arg = cmdBad s d := by
  obtain rfl | rfl := hop
  · exact if_pos (.inl harg)
  · exact if_pos (.inl harg)

section
variable (hscope : s.on d R.DFD_EPOCH_CTRL.SCOPE = false)
include hscope

theorem dfdCmd_epochClose (hc : closing s d = false) : dfdCmd s d m 5 arg =
    cmdOk ((s.putDfd d { s.dfdOf d with device := false, report := none, clean := 0 }).p d R.DFD_EPOCH_STATUS.STATE 1) d m false := by
  simp [dfdCmd, hscope, hc]

theorem dfdCmd_epochClose_closing (hc : closing s d = true) : dfdCmd s d m 5 arg = cmdBad s d := by
  simp [dfdCmd, hscope, hc]

theorem dfdCmd_epochAbort : dfdCmd s d m 6 arg = cmdOk (epochAbort s d) d m false := by
  simp [dfdCmd, hscope]

end

end

/-! ## DFD_CTRL (R276, R435) -/

section
variable {s t : State} {m : Master} {die : Die} {d : Nat}

theorem writeEnable_stopped (hst : dfdState s d = Dstate.stopped) :
    writeEnable s d 1 = ((s.p d R.DFD_CTRL.ENABLE 1).p d R.DFD_STATUS.STATE Dstate.running).ans .ok := by
  simp [writeEnable, hst]

theorem writeEnable_running (hst : dfdState s d = Dstate.running) :
    writeEnable s d 0 = ((s.p d R.DFD_CTRL.ENABLE 0).p d R.DFD_STATUS.STATE Dstate.stopping).ans .ok := by
  simp [writeEnable, hst, Dstate.running, Dstate.stopping]

theorem writeEnable_stopping (hst : dfdState s d = Dstate.stopping) : writeEnable s d 1 = (s.p d R.DFD_CTRL.ENABLE 1).ans .ok := by
  simp [writeEnable, hst, Dstate.stopped, Dstate.stopping]

theorem exec_dfdEnable {enable : Bool} (h : Reaches s m die ⟨.DFD_CTRL, 0, 0⟩) (hw : writeEnable s die enable.toNat = t.ans .ok) :
    exec (.dfdEnable m die enable) s = .next (t.ans .ok) := by
  have hnew := of_mkWr_named (s := s) (m := m) (d := die) (r := ⟨.DFD_CTRL, 0, 0⟩) (f := R.DFD_CTRL.ENABLE) (x := enable.toNat)
    (by decide) enable.toNat_lt (by decide)
  have hwrite := (congrArg (writeEnable s die) hnew).trans hw
  exact congrArg _ ((poke_eq (r := ⟨.DFD_CTRL, 0, 0⟩) rfl _ _).trans (put32_dfd_ok h dfdCtrl_writable hwrite))

end

/-- Settles O41: each command is an access to one register, judged by the register's rule. -/
theorem dfdCommandsComplete : Obligations.DfdCommandsComplete := by
  intro s m die
  refine ⟨?_, ?_, ?_, ?_, ?_, ?_, ?_⟩
  · rintro w r rfl h hm
    exact ⟨fun hok => exec_tokenWrite_ok h (tokenWrite_counted hm hok), fun hbad => exec_tokenWrite_refused h (tokenWrite_refused hbad)⟩
  · rintro op k v r rfl h hv
    refine ⟨fun hk => ?_, ?_, ?_⟩
    · exact exec_descriptorWrite_ok h (writeDesc_word hv (fun e => hk (Fin.ext e)))
    · rintro rfl hok
      exact exec_descriptorWrite_ok h (writeDesc_first hv hok)
    · rintro rfl hvalid hbad
      exact exec_descriptorWrite_refused h (writeDesc_refused hv hvalid hbad)
  · exact fun q => exec_cqPop
  · rintro q st n k c l h hst hn hpopped rfl rfl
    have hstatus : (st : Nat) ≠ 3 := fun e => hst (Fin.ext e)
    exact exec_cqComplete h (cqComplete_popped hstatus hn hpopped rfl rfl)
  · rintro q r v rfl rfl h h1 h16
    exact exec_cqFlush h (writeCqCfg_cqFlushWr h h1 h16)
  · rintro r bad rfl h rfl
    refine ⟨fun op hlt hv => ⟨?_, ?_⟩, fun u hu => ⟨?_, ?_⟩, fun op hge => ⟨?_, ?_⟩, fun hscope => ⟨?_, ?_, ?_⟩⟩
    · rintro l rfl
      exact congrArg Host.Outcome.next (dfdPoke_ok h (dfdCmd_migrateOp hlt hv) op.isLt)
    · exact congrArg Host.Outcome.next (dfdPoke_ok h (dfdCmd_abortOp hlt hv) op.isLt)
    · exact congrArg Host.Outcome.next (dfdPoke_ok h (dfdCmd_evacuateUnit hu) u.isLt)
    · exact congrArg Host.Outcome.next (dfdPoke_ok h (dfdCmd_abortUnit hu) u.isLt)
    · exact congrArg Host.Outcome.next (dfdPoke_refused h (dfdCmd_noOperation (.inl rfl) hge) op.isLt)
    · exact congrArg Host.Outcome.next (dfdPoke_refused h (dfdCmd_noOperation (.inr rfl) hge) op.isLt)
    · exact fun hc => congrArg Host.Outcome.next (dfdPoke_ok h (dfdCmd_epochClose hscope hc) (by decide))
    · exact fun hc => congrArg Host.Outcome.next (dfdPoke_refused h (dfdCmd_epochClose_closing hscope hc) (by decide))
    · exact congrArg Host.Outcome.next (dfdPoke_ok h (dfdCmd_epochAbort hscope) (by decide))
  · exact fun h => ⟨fun hst => exec_dfdEnable h (writeEnable_stopped hst), fun hst => exec_dfdEnable h (writeEnable_running hst),
      fun hst => exec_dfdEnable h (writeEnable_stopping hst)⟩

end Sys2Proof.Machine
end

/-! # A dispatcher at work (R255, R257, R259, R261, R263, R264, R271, R273, R274, R276) -/

section
set_option Elab.async false
namespace Sys2Proof.Machine

section
variable {s t u v w : State} {die : Die} {x y : DfdSt}

/-! ## Deferred firings and issue (R255, R261, R263, R264) -/

section
variable (hruns : dfdRuns s die = true)
include hruns

theorem execDeferredPlace_gathered {p : Nat} (hp : (List.range 8).find? (fun p => spillOff s die && !((s.dfdOf die).gat p).isEmpty
    && s.g die (R.DFD_SPILL_FILL.FILL p) == 0 && (s.dfdOf die).room p) = some p) :
    execDeferredPlace die s = .next ((ungather s die p).p die R.DFD_STATUS.ORDER_LOST 1) := by
  unfold execDeferredPlace
  rw [if_pos hruns, hp]

theorem execDeferredPlace_deferred {n : Nat} (hp : (List.range 8).find? (fun p => spillOff s die && !((s.dfdOf die).gat p).isEmpty
    && s.g die (R.DFD_SPILL_FILL.FILL p) == 0 && (s.dfdOf die).room p) = none)
    (hn : (activeOps s die).find? (fun n => s.g die (R.DFD_OPSTATE.DEFER n) != 0 && placeOf s die (opPrio s die n) != .defer) = some n)
    (hu : u = placeFiring s die n (placeOf s die (opPrio s die n))) :
    execDeferredPlace die s =
      .next ((u.p die (R.DFD_OPSTATE.DEFER n) (u.g die (R.DFD_OPSTATE.DEFER n) - 1)).p die R.DFD_STATUS.ORDER_LOST 1) := by
  subst hu
  unfold execDeferredPlace
  rw [if_pos hruns, hp, hn]

theorem execIssue_picked {c unit : Nat} {re aff : Bool} {e : DEntry} (hst : dfdState s die = Dstate.running)
    (hroom : (s.dfdOf die).tickets.length < 512)
    (hpick : (classTurn (s.dfdOf die).lastCls).findSome? (fun c => (pick s die c).map (fun p => (c, p))) = some (c, re, e, unit, aff)) :
    execIssue die s = .next (issueTo s die c re e unit aff) := by
  unfold execIssue
  rw [if_pos ⟨hruns, hst, hroom⟩, hpick]

theorem execCompletion_next {c : DCpl} {l : List DCpl} (hc : (s.dfdOf die).cpls = c :: l) :
    execCompletion die s = .next (cqReleaseAll (complete (s.putDfd die { s.dfdOf die with cpls := l }) die c) die) := by
  unfold execCompletion
  rw [if_pos hruns]
  simp only [hc]

end

/-! ## Spill and refill (R257, R259) -/

section
variable {p : Fin 8} (hready : spillReady s die p = true)
include hready

/-- A line that is written, into a sub-ring that is not empty. -/
theorem execSpillLineWrite_written {l : List DEntry} {wr : Nat} (hl : l = spillLine s die p) (hwr : wr = DfdSt.num (s.dfdOf die).wr p)
    (hmem : memWrite 2 s (s.dfdMaster die) (ringAddr s die p wr) (l.map (fun e => (⟨spillWord s die e, false⟩, 0xFF#8))) = (.ok, u))
    (hy : y = u.dfdOf die) (hfill : u.g die (R.DFD_SPILL_FILL.FILL p) ≠ 0) :
    execSpillLineWrite die p s = .next ((dfdCnt (u.setDfd die { y.setGat p ((y.gat p).drop l.length) with
      wr := SMap.set (fun _ => 0) y.wr p (wr + l.length)
      sub := SMap.set (fun _ => []) y.sub p (y.subOps p ++ l.map (fun e => e.op)) }) die Cnt.spilled l.length).p die
        (R.DFD_SPILL_FILL.FILL p) (u.g die (R.DFD_SPILL_FILL.FILL p) + l.length)) := by
  subst hl hwr hy
  unfold execSpillLineWrite
  rw [if_pos hready]
  dsimp only
  rw [hmem]
  exact congrArg Host.Outcome.next (if_neg hfill)

theorem execSpillWriteError_ready : execSpillWriteError die p s = .next (spillFailed s die p) :=
  congrArg Host.Outcome.next (if_pos hready)

end

section
variable {p n rd : Nat} (hp : refillFrom s die = some p) (hn : n = refillCount s die p)
include hp hn

theorem execRefill_read {ws : List MWord} (hrd : rd = DfdSt.num (s.dfdOf die).rd p)
    (hmem : memRead 2 s (s.dfdMaster die) (ringAddr s die p rd) n = (.ok, ws, u)) :
    execRefill die s = .next (refillPass (ws.zipIdx.foldl (fun s w => refillOne s die p (rd + w.2) w.1) u) die p n) := by
  subst hn hrd
  unfold execRefill
  rw [hp]
  dsimp only
  rw [hmem]

theorem execRefillError_lost : execRefillError die s = .next (refillLost s die p n) := by
  subst hn
  unfold execRefillError
  rw [hp]

end

/-! ## Responses to forwarded tokens (R271) -/

section
variable {tok : DWord} {l : List DWord} (hfwd : (s.dfdOf die).fwd = tok :: l) (hu : u = s.putDfd die { s.dfdOf die with fwd := l })
include hfwd hu

theorem execRemoteTokenResponse_failed {r : Resp} (hr : r ≠ .ok) :
    execRemoteTokenResponse die r s = .next ((dfdCnt u die Cnt.fwdErr 1).p die R.DFD_EVT.FWD_ERR 1) := by
  subst hu
  unfold execRemoteTokenResponse
  simp only [hfwd, hr, ne_eq, not_false_eq_true, if_true, if_false]

theorem execRemoteTokenResponse_accepted (hpres : u.present (fld tok.toNat 13 3) = true)
    (hroute : routeTo u die (fld tok.toNat 13 3) = (none, v)) (hheld : v.held (fld tok.toNat 13 3) Blk.dfd = false)
    (hw : w = tokenWrite v (fld tok.toNat 13 3) (v.dfdMaster die) tok.toNat) (hok : w.reply.resp = .ok) :
    execRemoteTokenResponse die .ok s = .next { w with reply := s.reply } := by
  have hreply : u.reply = s.reply := by
    rw [hu]
    rfl
  unfold execRemoteTokenResponse
  simp [hfwd, ← hu, hpres, hroute, hheld, ← hw, hok, hreply]

end

/-! ## Tickets (R263) -/

section
variable {k : BitVec 16} {t : Ticket} (ht : (s.dfdOf die).tickets.find? (fun t => t.t == k.toNat && !t.live) = some t)
  (hgo : unitLetGo s die t = true) (hcpls : ∀ c ∈ (s.dfdOf die).cpls, c.ticket ≠ t.t)
include ht hgo hcpls

/-- A revoked ticket that its unit has let go, and no completion of which waits at the dispatcher. -/
theorem execTicketRelease_released : execTicketRelease die k s =
    .next (dropTicket (if unitCls t.unit_ = 1 then
        let y := { s.kslot die (unitIdx t.unit_) with
          outst := (s.kslot die (unitIdx t.unit_)).outst.erase k
          descs := (s.kslot die (unitIdx t.unit_)).descs.filter (fun e => e.2 != k) }
        let w := s.setKslot die (unitIdx t.unit_) y
        if y.outst.isEmpty then w.p die (R.FAB_KSLOT_STATUS.IDLE (unitIdx t.unit_)) 1 else w
      else s) die t.t) := by
  have hall : (s.dfdOf die).cpls.all (fun c => c.ticket != t.t) = true := by simpa using hcpls
  unfold execTicketRelease
  rw [ht]
  exact congrArg Host.Outcome.next (if_pos ⟨hgo, hall⟩)

theorem execTicketRelease_unit (hcls : unitCls t.unit_ ≠ 1) : execTicketRelease die k s = .next (dropTicket s die t.t) := by
  rw [execTicketRelease_released ht hgo hcpls, if_neg hcls]

/-- A kernel slot forgets the ticket, and is idle once it holds none. -/
theorem execTicketRelease_slot {y : Kslot} (hcls : unitCls t.unit_ = 1) (hy : y = { s.kslot die (unitIdx t.unit_) with
      outst := (s.kslot die (unitIdx t.unit_)).outst.erase k
      descs := (s.kslot die (unitIdx t.unit_)).descs.filter (fun e => e.2 != k) })
    (hw : w = s.setKslot die (unitIdx t.unit_) y) : execTicketRelease die k s =
      .next (dropTicket (if y.outst.isEmpty then w.p die (R.FAB_KSLOT_STATUS.IDLE (unitIdx t.unit_)) 1 else w) die t.t) := by
  subst hw hy
  rw [execTicketRelease_released ht hgo hcpls, if_pos hcls]

end

theorem execSeAbort_held {g : Fin 48} {k : BitVec 16} {t : Ticket}
    (ht : (s.dfdOf die).tickets.find? (fun t => t.t == k.toNat && t.unit_ == g.val) = some t) :
    execSeAbort die g k s = .next (if t.live then revoke s die t else seAbort s die g t.t) := by
  have hunit : (s.dfdOf die).tickets.find? (fun t => t.t == k.toNat && t.unit_ == seUnit g) = some t := ht
  unfold execSeAbort
  rw [hunit]

/-! ## Epochs and stopping (R273, R274, R276) -/

/-- A round in which some die is not quiescent reports nothing, and the clean rounds start again. -/
theorem execEpochRound_busy (hc : deviceClosing s = true) (hbusy : ∃ d ∈ s.dies, quiescent s d = false)
    (hu : u = s.dies.foldl (fun s d => s.putDfd d { s.dfdOf d with report := none }) s) :
    execEpochRound s = .next (u.putDfd u.head { u.dfdOf u.head with clean := 0 }) := by
  obtain ⟨d, hd, hq⟩ := hbusy
  have hnot : (s.dies.map (fun d => (d, dieReport s d))).all (fun x => x.2.quiet && s.roundTrip x.1 s.head) = false := by
    rw [List.all_eq_false]
    exact ⟨(d, dieReport s d), List.mem_map_of_mem hd, by simp [dieReport, hq]⟩
  subst hu
  unfold execEpochRound
  rw [if_pos hc]
  simp only [hnot, Bool.false_and, Bool.false_eq_true, if_false, List.foldl_map]

theorem execEpochBoundary_device (hc : deviceClosing s = true) (hhead : die.val = s.head) (hclean : 2 ≤ (s.dfdOf s.head).clean) :
    execEpochBoundary die s = .next (s.dies.foldl boundary s) :=
  congrArg Host.Outcome.next ((if_pos hc).trans (if_pos ⟨hhead, hclean⟩))

theorem execEpochBoundary_die (hdev : deviceClosing s = false) (hp : s.present die = true) (hc : closing s die = true)
    (hq : quiescent s die = true) : execEpochBoundary die s = .next (boundary s die) :=
  congrArg Host.Outcome.next ((if_neg (by simp [hdev])).trans (if_pos ⟨hp, hc, hq⟩))

theorem execEpochSlow_die (hc : closing s die = true) (htmo : s.g die R.DFD_EPOCH_CTRL.TMO ≠ 0) (hdev : (s.dfdOf die).device = false) :
    execEpochSlow die s = .next ((s.p die R.DFD_EPOCH_STATUS.SLOW 1).p die R.DFD_EVT.EPOCH_SLOW 1) := by
  have hruns : ¬ (closing s die = false ∨ s.g die R.DFD_EPOCH_CTRL.TMO = 0) := by simp [hc, htmo]
  have hscope : ¬ (s.dfdOf die).device = true := by simp [hdev]
  exact congrArg Host.Outcome.next ((if_neg hruns).trans ((if_neg hscope).trans (if_pos hc)))

theorem execDfdStopped_ends (hst : dfdState s die = Dstate.stopping) (hl : liveTickets s die (fun _ => true) = []) :
    execDfdStopped die s = .next ((s.p die R.DFD_STATUS.STATE
      (if s.on die R.DFD_CTRL.ENABLE then Dstate.running else Dstate.stopped)).p die R.DFD_EVT.STOPPED 1) :=
  congrArg Host.Outcome.next (if_pos ⟨hst, List.isEmpty_iff.mpr hl⟩)

end

/-- Settles O42: each event has the effect of the branch that its hypotheses select. -/
theorem dfdEventsComplete : Obligations.DfdEventsComplete := by
  rintro s die x rfl
  refine ⟨fun hruns => ⟨?_, ?_, ?_⟩, fun p hready l wr hl hwr => ⟨?_, ?_⟩, fun p n rd hp hn hrd => ⟨?_, ?_⟩,
    fun t l u hfwd hu => ⟨?_, ?_⟩, ?_, ?_, ?_, ?_, ?_, ?_, ?_, ?_⟩
  · rintro f rfl
    exact ⟨fun p hp => execDeferredPlace_gathered hruns hp, fun n u hp hn hu => execDeferredPlace_deferred hruns hp hn hu⟩
  · exact fun c re e unit aff => execIssue_picked hruns
  · exact fun c l => execCompletion_next hruns
  · exact fun u y => execSpillLineWrite_written hready hl hwr
  · exact execSpillWriteError_ready hready
  · exact fun ws u => execRefill_read hp hn hrd
  · exact execRefillError_lost hp hn
  · exact fun r => execRemoteTokenResponse_failed hfwd hu
  · exact fun v w => execRemoteTokenResponse_accepted hfwd hu
  · exact fun k t ht hcls hgo hcpls => execTicketRelease_unit ht hgo hcpls hcls
  · exact fun k t y w ht hcls hgo hcpls => execTicketRelease_slot ht hgo hcpls hcls
  · exact fun g k t => execSeAbort_held
  · exact fun hc hbusy u => execEpochRound_busy hc hbusy
  · exact execEpochBoundary_device
  · exact execEpochBoundary_die
  · exact execEpochSlow_die
  · exact execDfdStopped_ends

end Sys2Proof.Machine
end

/-! # The (72,64) code of the banks (R294, R295) -/

section
set_option Elab.async false
namespace Sys2Proof.Machine

/-! ## Syndromes -/

/-- The check bits are linear in the word. -/
theorem secdedCheck_xor (u v : DWord) : secdedCheck (u ^^^ v) = secdedCheck u ^^^ secdedCheck v := by
  simp only [secdedCheck, BitVec.toNat_xor, secdedXor_xor, BitVec.ofNat_xor]

/-- Flipped data bits leave the syndrome of the flips alone, whatever the word. -/
theorem secdedCheck_syndrome (v e : DWord) : secdedCheck v ^^^ secdedCheck (v ^^^ e) = secdedCheck e := by
  rw [secdedCheck_xor, ← BitVec.xor_assoc, BitVec.xor_self, BitVec.zero_xor]

/-- The column of data bit `i` (R294). -/
def secdedColumn (i : Nat) : Nat := secdedCols.getD i 0

theorem secdedCheck_flip : ∀ i < 64, (secdedCheck (1#64 <<< i)).toNat = secdedColumn i := by decide +kernel

theorem secdedColumn_odd : ∀ i < 64, popcount 8 (secdedColumn i) % 2 = 1 := by decide +kernel

theorem secdedColumn_inj : ∀ i < 64, ∀ j < 64, secdedColumn i = secdedColumn j → i = j := by decide +kernel

/-- The pairs of columns that add up to the poison pattern. -/
theorem secdedColumn_poison : ∀ i < 64, ∀ j < 64, i < j →
    (secdedColumn i ^^^ secdedColumn j = 0xFF ↔ 48 ≤ i ∧ i ≤ 55 ∧ i + j = 111) := by decide +kernel

theorem secdedCols_odd : ∀ h ∈ secdedCols, popcount 8 h % 2 = 1 := by decide +kernel

/-- A data bit's column names the bit. -/
theorem synOf_column : ∀ i < 64, synOf (secdedColumn i) = .data i := by decide +kernel

theorem synOf_checkBit : ∀ i < 8, synOf (1#8 <<< i).toNat = .check := by decide +kernel

/-- A syndrome of even weight, other than 0 and the poison pattern, is uncorrectable. -/
theorem synOf_even {y : Nat} (h0 : y ≠ 0) (hp : y ≠ 0xFF) (heven : popcount 8 y % 2 = 0) : synOf y = .bad := by
  have h1 : popcount 8 y ≠ 1 := by omega
  have hnone : secdedCols.findIdx? (fun h => h == y) = none := by
    simp only [List.findIdx?_eq_none_iff, beq_eq_false_iff_ne]
    rintro h hh rfl
    have := secdedCols_odd h hh
    omega
  simp [synOf, h0, h1, hp, hnone]

/-! ## Two flipped bits -/

/-- Two data bits: their columns differ and are of odd weight, so they add up to an even one. -/
theorem synOf_data_data {i j : Nat} (hij : i < j) (hj : j < 64) :
    synOf (secdedColumn i ^^^ secdedColumn j) = if 48 ≤ i ∧ i ≤ 55 ∧ i + j = 111 then .poison else .bad := by
  have hi : i < 64 := by omega
  have hpoison := secdedColumn_poison i hi j hj hij
  split
  · next h => rw [hpoison.mpr h]; decide
  · next h =>
    have hdiff : secdedColumn i ^^^ secdedColumn j ≠ 0 := by
      intro he
      have := secdedColumn_inj i hi j hj (Nat.xor_eq_zero_iff.mp he)
      omega
    refine synOf_even hdiff (fun he => h (hpoison.mp he)) ?_
    have := secdedColumn_odd i hi
    have := secdedColumn_odd j hj
    rw [popcount_xor_mod_two]
    omega

theorem synOf_check_data : ∀ i < 64, ∀ j < 8, synOf ((1#8 <<< j).toNat ^^^ secdedColumn i) = .bad := by decide +kernel

theorem synOf_check_check : ∀ i < 8, ∀ j < 8, i < j → synOf ((1#8 <<< i).toNat ^^^ (1#8 <<< j).toNat) = .bad := by decide +kernel

/-- Flips of the check bits alone are the syndrome. -/
theorem check_syndrome (c e : Byte) : c ^^^ e ^^^ c = e := by
  rw [BitVec.xor_comm, ← BitVec.xor_assoc, BitVec.xor_self, BitVec.zero_xor]

/-- The poison pattern differs from the code in every check bit (R295). -/
theorem storedCheck_poison_syndrome (v : DWord) : storedCheck v true ^^^ secdedCheck v = 0xFF#8 := by
  unfold storedCheck
  rw [if_pos rfl, ← BitVec.xor_allOnes, check_syndrome]
  rfl

/-- Settles O45: by linearity the syndrome is that of the flipped bits alone, a sum of columns. One column names its bit; a sum of two is of
even weight, so it is uncorrectable unless it is the poison pattern. -/
theorem bankCode : Obligations.BankCode := by
  intro v
  refine ⟨?_, fun i hi => ?_, fun i hi => ?_, fun i j hij hj => ?_, fun i j hi hj => ?_, fun i j hij hj => ?_, ?_⟩
  · rw [BitVec.xor_self]
    decide
  · rw [secdedCheck_syndrome, secdedCheck_flip i hi, synOf_column i hi, synWord, BitVec.xor_assoc, BitVec.xor_self, BitVec.xor_zero]
  · rw [check_syndrome, synOf_checkBit i hi]
  · have hi : i < 64 := by omega
    rw [BitVec.xor_assoc, secdedCheck_syndrome, secdedCheck_xor, BitVec.toNat_xor, secdedCheck_flip i hi, secdedCheck_flip j hj,
      synOf_data_data hij hj]
  · rw [secdedCheck_xor, ← BitVec.xor_assoc, check_syndrome, BitVec.toNat_xor, secdedCheck_flip i hi, synOf_check_data i hi j hj]
  · have hi : i < 8 := by omega
    rw [BitVec.xor_assoc (secdedCheck v), check_syndrome, BitVec.toNat_xor, synOf_check_check i hi j hj hij]
  · rw [storedCheck_poison_syndrome]
    decide

end Sys2Proof.Machine
end

/-! # Bank memory (R284, R287, R289 to R293, R298) -/

section
set_option Elab.async false
namespace Sys2Proof.Machine

/-! ## Writes of BNK_CTRLb (R284, R287, R289, R291) -/

theorem bnkCtrl_off (b : Nat) : RegRef.off ⟨.BNK_CTRL, b, 0⟩ = 0x100100 + 64 * b :=
  congrArg (0x100100 + ·) (Nat.mul_comm b 64)

theorem bnkCtrl_writable {b : Nat} (hb : b < 8) : Writable ⟨.BNK_CTRL, b, 0⟩ := by
  have hwritable : RegId.BNK_CTRL.info.writable ≠ 0 := by decide
  have hoff := bnkCtrl_off b
  exact ⟨rfl, hwritable, RegId.noConfusion, by omega, by omega⟩

theorem bnkCtrl_block : ∀ b < 8, RegRef.block ⟨.BNK_CTRL, b, 0⟩ = some .BNK := by decide

/-- A write of a register of the BNK block. -/
theorem writeFamily_bnk {s : State} {m : Master} {d raw mask : Nat} {r : RegRef} (hb : r.block = some .BNK) :
    writeFamily s (mkWr s m d r raw mask) = writeBnk s (mkWr s m d r raw mask) := by
  unfold writeFamily
  simp only [mkWr, hb]

/-- A value of BNK_CTRLb with these fields, which leaves KEEP and WAKE_ON_ACCESS of the bank as they stand. -/
structure BnkCtrlVal (s : State) (d b v owner power wipe secure : Nat) : Prop where
  owner : (R.BNK_CTRL.OWNER 0).of v = owner
  power : (R.BNK_CTRL.POWER 0).of v = power
  wipe : (R.BNK_CTRL.WIPE 0).of v = wipe
  secure : (R.BNK_CTRL.SECURE 0).of v = secure
  keep : (R.BNK_CTRL.KEEP 0).of v = s.g d (R.BNK_CTRL.KEEP b)
  wake : (R.BNK_CTRL.WAKE_ON_ACCESS 0).of v = s.g d (R.BNK_CTRL.WAKE_ON_ACCESS b)

section
variable {s : State} {m : Master} {d b v owner power wipe secure : Nat}

/-- What a command keeps of BNK_CTRLb: the owner and the power request as they stand, no wipe and no SECURE. -/
theorem Reaches.bnkCtrl_kept (h : Reaches s m d ⟨.BNK_CTRL, b, 0⟩) :
    BnkCtrlVal s d b (keptFields s d (RegRef.off ⟨.BNK_CTRL, b, 0⟩)) (s.bankOwner d b) (s.g d (R.BNK_CTRL.POWER b)) 0 0 := by
  have howner : (R.BNK_CTRL.OWNER 0).of (RegId.BNK_CTRL.info.rw ||| RegId.BNK_CTRL.info.rws) = 2 ^ 13 - 1 := by decide
  have hpower : (R.BNK_CTRL.POWER 0).of (RegId.BNK_CTRL.info.rw ||| RegId.BNK_CTRL.info.rws) = 3 := by decide
  have hwipe : (R.BNK_CTRL.WIPE 0).of (RegId.BNK_CTRL.info.rw ||| RegId.BNK_CTRL.info.rws) = 0 := by decide
  have hsecure : (R.BNK_CTRL.SECURE 0).of (RegId.BNK_CTRL.info.rw ||| RegId.BNK_CTRL.info.rws) = 0 := by decide
  have hkeep : (R.BNK_CTRL.KEEP 0).of (RegId.BNK_CTRL.info.rw ||| RegId.BNK_CTRL.info.rws) = 1 := by decide
  have hwake : (R.BNK_CTRL.WAKE_ON_ACCESS 0).of (RegId.BNK_CTRL.info.rw ||| RegId.BNK_CTRL.info.rws) = 1 := by decide
  have hoff := (bnkCtrl_off b).symm
  exact ⟨h.of_keptFields (f := R.BNK_CTRL.OWNER b) hoff (Nat.le_of_ble_eq_true rfl) howner,
    h.of_keptFields (f := R.BNK_CTRL.POWER b) hoff (Nat.le_of_ble_eq_true rfl) hpower,
    h.of_keptFields_zero hwipe, h.of_keptFields_zero hsecure,
    h.of_keptFields (f := R.BNK_CTRL.KEEP b) hoff (Nat.le_of_ble_eq_true rfl) hkeep,
    h.of_keptFields (f := R.BNK_CTRL.WAKE_ON_ACCESS b) hoff (Nat.le_of_ble_eq_true rfl) hwake⟩

/-- Of a 32-bit value only the fields matter that the register has. -/
theorem BnkCtrlVal.mod (h : BnkCtrlVal s d b v owner power wipe secure) : BnkCtrlVal s d b (v % 2 ^ 32) owner power wipe secure :=
  ⟨(Fld.of_mod v (by decide)).trans h.owner, (Fld.of_mod v (by decide)).trans h.power, (Fld.of_mod v (by decide)).trans h.wipe,
    (Fld.of_mod v (by decide)).trans h.secure, (Fld.of_mod v (by decide)).trans h.keep, (Fld.of_mod v (by decide)).trans h.wake⟩

section
variable (h : BnkCtrlVal s d b v owner power wipe secure)
include h

theorem BnkCtrlVal.setOwner (i : Nat) {o : Nat} (ho : o < 2 ^ 13) :
    BnkCtrlVal s d b ((R.BNK_CTRL.OWNER i).setIn v o) o power wipe secure := by
  obtain ⟨-, hpower, hwipe, hsecure, hkeep, hwake⟩ := h
  have hother := fun g => of_over_other (R.BNK_CTRL.OWNER 0) g v o
  exact ⟨(of_over_same _ _ _).trans (Nat.mod_eq_of_lt ho), (hother _ (by decide)).trans hpower, (hother _ (by decide)).trans hwipe,
    (hother _ (by decide)).trans hsecure, (hother _ (by decide)).trans hkeep, (hother _ (by decide)).trans hwake⟩

theorem BnkCtrlVal.setPower (i : Nat) {p : Nat} (hp : p < 2 ^ 2) :
    BnkCtrlVal s d b ((R.BNK_CTRL.POWER i).setIn v p) owner p wipe secure := by
  obtain ⟨howner, -, hwipe, hsecure, hkeep, hwake⟩ := h
  have hother := fun g => of_over_other (R.BNK_CTRL.POWER 0) g v p
  exact ⟨(hother _ (by decide)).trans howner, (of_over_same _ _ _).trans (Nat.mod_eq_of_lt hp), (hother _ (by decide)).trans hwipe,
    (hother _ (by decide)).trans hsecure, (hother _ (by decide)).trans hkeep, (hother _ (by decide)).trans hwake⟩

theorem BnkCtrlVal.setWipe (i : Nat) : BnkCtrlVal s d b ((R.BNK_CTRL.WIPE i).setIn v 1) owner power 1 secure := by
  obtain ⟨howner, hpower, -, hsecure, hkeep, hwake⟩ := h
  have hother := fun g => of_over_other (R.BNK_CTRL.WIPE 0) g v 1
  exact ⟨(hother _ (by decide)).trans howner, (hother _ (by decide)).trans hpower, of_over_same _ _ _,
    (hother _ (by decide)).trans hsecure, (hother _ (by decide)).trans hkeep, (hother _ (by decide)).trans hwake⟩

theorem BnkCtrlVal.setSecure (i : Nat) : BnkCtrlVal s d b ((R.BNK_CTRL.SECURE i).setIn v 1) owner power wipe 1 := by
  obtain ⟨howner, hpower, hwipe, -, hkeep, hwake⟩ := h
  have hother := fun g => of_over_other (R.BNK_CTRL.SECURE 0) g v 1
  exact ⟨(hother _ (by decide)).trans howner, (hother _ (by decide)).trans hpower, (hother _ (by decide)).trans hwipe,
    of_over_same _ _ _, (hother _ (by decide)).trans hkeep, (hother _ (by decide)).trans hwake⟩

end

/-! ### What a write does that leaves KEEP and WAKE_ON_ACCESS as they stand -/

/-- A write of a master to BNK_CTRLb with these fields, which leaves KEEP and WAKE_ON_ACCESS as they stand, as the block sees it. -/
structure BnkCtrlWr (s : State) (m : Master) (d b : Nat) (w : Wr) (owner power wipe secure : Nat) : Prop where
  master : w.m = m
  die : w.d = d
  bank : w.r.i = b
  owner : (R.BNK_CTRL.OWNER 0).of w.new = owner
  power : (R.BNK_CTRL.POWER 0).of w.new = power
  keep : (R.BNK_CTRL.KEEP 0).of w.new = s.g d (R.BNK_CTRL.KEEP b)
  wake : (R.BNK_CTRL.WAKE_ON_ACCESS 0).of w.new = s.g d (R.BNK_CTRL.WAKE_ON_ACCESS b)
  wipe : (R.BNK_CTRL.WIPE 0).of w.raw = wipe
  secure : (R.BNK_CTRL.SECURE 0).of w.raw = secure

theorem BnkCtrlVal.wr (h : BnkCtrlVal s d b v owner power wipe secure) :
    BnkCtrlWr s m d b (mkWr s m d ⟨.BNK_CTRL, b, 0⟩ v (2 ^ 32 - 1)) owner power wipe secure where
  master := rfl
  die := rfl
  bank := rfl
  owner := (merge_taken RegId.BNK_CTRL.info _ _ _ _ (by decide) (by decide)).trans h.owner
  power := (merge_taken RegId.BNK_CTRL.info _ _ _ _ (by decide) (by decide)).trans h.power
  keep := (merge_taken RegId.BNK_CTRL.info _ _ _ _ (by decide) (by decide)).trans h.keep
  wake := (merge_taken RegId.BNK_CTRL.info _ _ _ _ (by decide) (by decide)).trans h.wake
  wipe := h.wipe
  secure := h.secure

section
variable {w : Wr} (hs : Canonical s)
include hs

theorem writeBnkCtrl_owner (h : BnkCtrlWr s m d b w owner (s.g d (R.BNK_CTRL.POWER b)) 0 0) (hne : owner ≠ s.bankOwner d b)
    (hpend : s.on d (R.BNK_STATUS.HANDOVER_PENDING b) = false) (hmay : mayChangeOwner s m d b owner = true) :
    writeBnkCtrl s w = (penBankCheck (handoverStart s d b owner) d b).ans .ok := by
  obtain ⟨hm, hd, hb, howner, hpower, hkeep, hwake, hwipe, hsecure⟩ := h
  simp [writeBnkCtrl, hm, hd, hb, howner, hpower, hkeep, hwake, hwipe, hsecure, hne, hpend, hmay, s.p_same d _ hs]

theorem writeBnkCtrl_power (h : BnkCtrlWr s m d b w (s.bankOwner d b) power 0 0) (hne : power ≠ s.g d (R.BNK_CTRL.POWER b))
    (howns : ownsBank s m d b = true) (hok : powerOk s d b power = true) :
    writeBnkCtrl s w = (penBankCheck (powerTake s d b power) d b).ans .ok := by
  obtain ⟨hm, hd, hb, howner, hpower, hkeep, hwake, hwipe, hsecure⟩ := h
  simp [writeBnkCtrl, hm, hd, hb, howner, hpower, hkeep, hwake, hwipe, hsecure, hne, howns, hok, s.p_same d _ hs]

theorem writeBnkCtrl_wipe (h : BnkCtrlWr s m d b w (s.bankOwner d b) (s.g d (R.BNK_CTRL.POWER b)) 1 0)
    (howns : ownsBank s m d b = true) (hon : s.pstate d b = Pst.on)
    (hpend : s.on d (R.BNK_STATUS.HANDOVER_PENDING b) = false) (hwiping : s.on d (R.BNK_STATUS.WIPING b) = false) :
    writeBnkCtrl s w = (penBankCheck (bankWipe s d b) d b).ans .ok := by
  obtain ⟨hm, hd, hb, howner, hpower, hkeep, hwake, hwipe, hsecure⟩ := h
  simp [writeBnkCtrl, hm, hd, hb, howner, hpower, hkeep, hwake, hwipe, hsecure, howns, hon, hpend, hwiping, s.p_same d _ hs]

/-- SECURE of a bank 7 that is secure already is written as it stands. -/
theorem writeBnkCtrl_secure (h : BnkCtrlWr s m d 7 w (s.bankOwner d 7) (s.g d (R.BNK_CTRL.POWER 7)) 0 1)
    (hsuper : s.supervisor m = true) :
    writeBnkCtrl s w = (penBankCheck (s.p d (R.BNK_CTRL.SECURE 7) 1) d 7).ans .ok := by
  obtain ⟨hm, hd, hb, howner, hpower, hkeep, hwake, hwipe, hsecure⟩ := h
  have hstands : s.on d (R.BNK_CTRL.SECURE 7) = true → s.p d (R.BNK_CTRL.SECURE 7) 1 = s := by
    intro hon
    have hone : s.g d (R.BNK_CTRL.SECURE 7) = 1 := eq_of_beq hon
    exact hone ▸ s.p_same d _ hs
  cases hon : s.on d (R.BNK_CTRL.SECURE 7) <;>
    simp [writeBnkCtrl, State.bankSecure, hm, hd, hb, howner, hpower, hkeep, hwake, hwipe, hsecure, hsuper, hon, hstands,
      s.p_same d _ hs]

end

end

/-! ### The commands -/

section
variable {s t : State} {m : Master} {die : Die} {b : Fin 8}

/-- A command that names one field of BNK_CTRLb is a write of the register with that field in what the command keeps. -/
theorem poke_bnkCtrl {f : Fld} {b x owner power wipe secure : Nat} (hb : b < 8) (h : Reaches s m die ⟨.BNK_CTRL, b, 0⟩)
    (hf : f.off = RegRef.off ⟨.BNK_CTRL, b, 0⟩)
    (hv : BnkCtrlVal s die b (f.setIn (keptFields s die (RegRef.off ⟨.BNK_CTRL, b, 0⟩)) x) owner power wipe secure)
    (hw : ∀ w, BnkCtrlWr s m die b w owner power wipe secure → writeBnkCtrl s w = t.ans .ok) :
    poke s m die [(f, x)] = t.ans .ok := by
  refine (poke_eq hf x []).trans (put32_ok h (bnkCtrl_writable hb) ?_)
  rw [writeFamily_bnk (bnkCtrl_block b hb)]
  exact hw _ hv.mod.wr

theorem exec_ownerChange_taken {o : BitVec 13} (hs : Canonical s) (h : Reaches s m die ⟨.BNK_CTRL, b, 0⟩)
    (hne : o.toNat ≠ s.bankOwner die b) (hpend : s.on die (R.BNK_STATUS.HANDOVER_PENDING b) = false)
    (hmay : mayChangeOwner s m die b o.toNat = true) :
    exec (.ownerChange m die b o) s = .next ((penBankCheck (handoverStart s die b o.toNat) die b).ans .ok) :=
  congrArg _ (poke_bnkCtrl b.isLt h (bnkCtrl_off b).symm (h.bnkCtrl_kept.setOwner b o.isLt)
    (fun _ hw => writeBnkCtrl_owner hs hw hne hpend hmay))

theorem exec_bankPowerRequest_taken {p : Fin 4} (hs : Canonical s) (h : Reaches s m die ⟨.BNK_CTRL, b, 0⟩)
    (howns : ownsBank s m die b = true) (hne : p.val ≠ s.g die (R.BNK_CTRL.POWER b)) (hok : powerOk s die b p = true) :
    exec (.bankPowerRequest m die b p) s = .next ((penBankCheck (powerTake s die b p) die b).ans .ok) :=
  congrArg _ (poke_bnkCtrl b.isLt h (bnkCtrl_off b).symm (h.bnkCtrl_kept.setPower b p.isLt)
    (fun _ hw => writeBnkCtrl_power hs hw hne howns hok))

theorem exec_bankWipe_taken (hs : Canonical s) (h : Reaches s m die ⟨.BNK_CTRL, b, 0⟩) (howns : ownsBank s m die b = true)
    (hon : s.pstate die b = Pst.on) (hpend : s.on die (R.BNK_STATUS.HANDOVER_PENDING b) = false)
    (hwiping : s.on die (R.BNK_STATUS.WIPING b) = false) :
    exec (.bankWipe m die b) s = .next ((penBankCheck (bankWipe s die b) die b).ans .ok) :=
  congrArg _ (poke_bnkCtrl b.isLt h (bnkCtrl_off b).symm (h.bnkCtrl_kept.setWipe b)
    (fun _ hw => writeBnkCtrl_wipe hs hw howns hon hpend hwiping))

theorem exec_secureSet_taken (hs : Canonical s) (h : Reaches s m die ⟨.BNK_CTRL, 7, 0⟩) (hsuper : s.supervisor m = true) :
    exec (.secureSet m die) s = .next ((penBankCheck (s.p die (R.BNK_CTRL.SECURE 7) 1) die 7).ans .ok) := by
  have hwrite := h.bnkCtrl_kept.setSecure 7
  have hpoke := poke_bnkCtrl (by decide) h (bnkCtrl_off 7).symm hwrite (fun _ hw => writeBnkCtrl_secure hs hw hsuper)
  exact congrArg Host.Outcome.next hpoke

/-! ## Power requests and wipes of a bank that is on (R287, R290) -/

theorem bnkStatus_ok : ∀ b : Fin 8, (R.BNK_STATUS.PSTATE b).ok ∧ (R.BNK_STATUS.WIPING b).ok := by
  unfold Fld.ok
  decide

/-- A bank that is on leaves for the state requested. -/
theorem powerTake_on {p : Fin 4} (hs : Canonical s) (hon : s.pstate die b = Pst.on) (h0 : p ≠ 0) (hok : powerOk s die b p = true) :
    (powerTake s die b p).pstate die b = if p = 1 then Pst.toRet else Pst.toOff := by
  have hrecall : ∀ q, Canonical (bankRecall (s.p die (R.BNK_CTRL.POWER b) q) die b) :=
    fun q => (Kept.refl s).p.bankRecall.cells hs
  have hstate : ∀ q v, ((bankRecall (s.p die (R.BNK_CTRL.POWER b) q) die b).p die (R.BNK_STATUS.PSTATE b) v).pstate die b = v % 2 ^ 3 :=
    fun q v => State.g_p_same _ _ _ _ (bnkStatus_ok b).1.1 (hrecall q)
  have hsteady : s.pstate die b = pstAfter (s.pstate die b) := by rw [hon]; rfl
  have h3 : p ≠ 3 := by
    rintro rfl
    simp [powerOk] at hok
  have h12 : p = 1 ∨ p = 2 := by omega
  rw [powerTake, if_pos hsteady]
  obtain rfl | rfl := h12
  · simp [bankPowerStart, hon, hstate, Pst.toRet]
  · simp [bankPowerStart, hon, hstate, Pst.toOff]

theorem bankWipe_on (hs : Canonical s) (hon : s.pstate die b = Pst.on) (hwiping : s.on die (R.BNK_STATUS.WIPING b) = false) :
    (bankWipe s die b).on die (R.BNK_STATUS.WIPING b) = true := by
  have hwipe : bankWipe s die b = (dropBankLines s die b).p die (R.BNK_STATUS.WIPING b) 1 :=
    (if_neg (ne_true_of_eq_false hwiping)).trans (if_pos hon)
  have hcells : Canonical (dropBankLines s die b) := (Kept.refl s).dropBankLines.cells hs
  rw [hwipe, State.on, State.g_p_same _ _ _ _ (bnkStatus_ok b).2.1 hcells]
  rfl

/-! ## The check byte under test (R298) -/

theorem eccChk_writable : Writable ⟨.BNK_ECC_CHK, 0, 0⟩ := by constructor <;> decide

theorem bankSyn_lt (s : State) (d b w : Nat) : bankSyn s d b w < 256 := BitVec.isLt _

/-- What a read of BNK_ECC_CHK answers on a die that it reaches. -/
theorem regRead_eccChk {v : Nat} (h : Reaches s m die ⟨.BNK_ECC_CHK, 0, 0⟩) (hv : readEccChk s die = some v) :
    regRead s m die (RegRef.off ⟨.BNK_ECC_CHK, 0, 0⟩) 4 = (.ok, v % 2 ^ 32, s) := by
  have ho : regOn s die 0x100040 = some ⟨.BNK_ECC_CHK, 0, 0⟩ := h.regOn_eq
  have hword : readWord s m die 0x100040 = (.ok, v, s) := by
    simp only [readWord, ho, h.regRefusal_eq, if_true, hv]
  have hdef : bytesDefined s die 0x100040 4 = true := bytesDefined_word ho (by decide) (by decide)
  have hread : regRead s m die 0x100040 4 = (.ok, v % 2 ^ 32, s) := by
    simp [regRead, hdef, hword]
  exact hread

/-- A read of the check byte and the syndrome of the word under test. -/
theorem exec_eccChkRead_on {w : Nat} (h : Reaches s m die ⟨.BNK_ECC_CHK, 0, 0⟩) (hw : w = s.g die R.BNK_ECC_ADDR.OFFSET)
    (hon : s.pstate die (testBank s die) = Pst.on) :
    exec (.eccChkRead m die) s = .next (s.ansData .ok [BitVec.ofNat 64 (bankSyn s die (testBank s die) w * 256 +
      (s.bankWord (die * 8 + testBank s die) w).chk.toNat)]) := by
  subst hw
  have hread := regRead_eccChk h (if_pos hon)
  have hsyn := bankSyn_lt s die (testBank s die) (s.g die R.BNK_ECC_ADDR.OFFSET)
  have hchk := (s.bankWord (die * 8 + testBank s die) (s.g die R.BNK_ECC_ADDR.OFFSET)).chk.isLt
  rw [Nat.mod_eq_of_lt (by omega)] at hread
  have hover := readOver_reaches_ok h (inAperture_reg s die _ _ h.regOn_eq) hread
  have hans := congrArg (fun t => t.coreSees m false (die * 0x1000000 + RegRef.off ⟨.BNK_ECC_CHK, 0, 0⟩)) hover
  exact congrArg Host.Outcome.next (hans.trans (coreSees_data _ _ _ _ _))

/-- The block takes a write of the check byte from the owner of the bank under test, which is on. -/
theorem writeBnk_eccChk {w : Wr} {d : Nat} {v : Byte} (hr : w.r.id = .BNK_ECC_CHK) (hm : w.m = m) (hd : w.d = d)
    (hraw : R.BNK_ECC_CHK.CHECK.of w.raw = v.toNat) (hon : s.pstate d (testBank s d) = Pst.on)
    (howns : ownsBankAny s m d (testBank s d) = true) :
    writeBnk s w = (s.setBankWord (d * 8 + testBank s d) (s.g d R.BNK_ECC_ADDR.OFFSET)
      { s.bankWord (d * 8 + testBank s d) (s.g d R.BNK_ECC_ADDR.OFFSET) with chk := v }).ans .ok := by
  simp [writeBnk, hr, hm, hd, hraw, hon, howns]

/-- A write of the check byte of the word under test. -/
theorem exec_eccChkWrite_on {w : Nat} {v : Byte} (h : Reaches s m die ⟨.BNK_ECC_CHK, 0, 0⟩) (hw : w = s.g die R.BNK_ECC_ADDR.OFFSET)
    (hon : s.pstate die (testBank s die) = Pst.on) (howns : ownsBankAny s m die (testBank s die) = true) :
    exec (.eccChkWrite m die v) s =
      .next ((s.setBankWord (die * 8 + testBank s die) w { s.bankWord (die * 8 + testBank s die) w with chk := v }).ans .ok) := by
  subst hw
  have hraw := of_named_same (s := s) (die := die) (r := ⟨.BNK_ECC_CHK, 0, 0⟩) (f := R.BNK_ECC_CHK.CHECK) (f' := R.BNK_ECC_CHK.CHECK)
    (by decide) rfl rfl v.isLt
  refine congrArg _ ((poke_eq rfl _ _).trans (put32_ok h eccChk_writable ?_))
  rw [writeFamily_bnk (by decide)]
  exact writeBnk_eccChk rfl rfl rfl hraw hon howns

/-! ## Accesses and atomics (R283, R292, R293) -/

section
variable {q : Req} {off : Nat} {u v : State}

theorem exec_bankAccess_issued (hshut : s.debugShut q.m = false) (hstops : coreStops s q = none)
    (hbank : decodeAddr s q.m (s.dieOfRid q.m.rid) q.addr.toNat = .bank die b off) :
    exec (.bankAccess q) s =
      .next ((if q.op = .write then memWriteReq s q else memReadReq s q).coreSees q.m (opStores q.op) q.addr.toNat) := by
  calc exec (.bankAccess q) s = .next (s.ifIssued q (bankTake · q)) := rfl
    _ = _ := by simp [State.ifIssued, hstops, bankTake, hshut, hbank]

theorem memReadReq_ok {ws : List MWord} (hform : reqFormOk q = true)
    (hread : memRead 65 s q.m q.addr.toNat (reqWords q) = (.ok, ws, t)) : memReadReq s q = { t with reply := ⟨.ok, ws⟩ } := by
  simp [memReadReq, hform, hread]

theorem memWriteReq_ok (hform : reqFormOk q = true) (hwrite : memWrite 65 s q.m q.addr.toNat (reqWwords q) = (.ok, t)) :
    memWriteReq s q = t.ans .ok := by
  simp [memWriteReq, hform, hwrite]

/-- An atomic that its bank admits, on a word that is not poisoned (R292, R293). -/
theorem bankAtomic_ok {d b old new : Nat} {w : State} {x : MWord} {y : DWord}
    (hbank : decodeAddr s q.m (s.dieOfRid q.m.rid) q.addr.toNat = .bank d b off)
    (hroute : routeTo s (s.dieOfRid q.m.rid) d = (none, u)) (hjudge : bankJudge u q.m d b (off / 8) (atomicOk q) = (none, v))
    (hw : w = recallLine v (q.addr.toNat / 64)) (hx : x = bankSees w d b (off / 8)) (hp : x.p = false)
    (hold : old = (x.v.toNat >>> (8 * (off % 8))) % 2 ^ (8 * q.size))
    (hnew : new = atomicResult q.op (8 * q.size) old ((q.data.getD 0 ⟨0, false⟩).v.toNat % 2 ^ (8 * q.size))
      ((q.data.getD 1 ⟨0, false⟩).v.toNat % 2 ^ (8 * q.size)))
    (hy : y = splice x.v (8 * (off % 8)) (8 * q.size) new) :
    bankAtomic s q = (bankAfter ((bankNote w d b (off / 8)).setBankWord (d * 8 + b) (off / 8) ⟨y, secdedCheck y⟩)
      d b).ansData .ok [BitVec.ofNat 64 old] := by
  subst hw hx hold hnew hy
  simp [bankAtomic, hbank, hroute, hjudge, hp]

theorem exec_bankAtomic_issued {a : DWord} (hshut : s.debugShut q.m = false) (hstops : coreStops s q = none)
    (hat : bankAtomic s q = t.ansData .ok [a]) : exec (.bankAtomic q) s = .next (t.ansData .ok [a]) := by
  calc exec (.bankAtomic q) s = execBankAtomic q s := rfl
    _ = _ := by simp [execBankAtomic, State.ifIssued, hstops, hshut, hat]

end

end

/-- Settles O44: a write of BNK_CTRLb is judged by the fields that it changes, and every other event has the effect of the branch that its
hypotheses select. -/
theorem banksComplete : Obligations.BanksComplete := by
  intro s m die b hs
  refine ⟨fun h => ⟨?_, fun p howns hne hok => ⟨?_, ?_⟩, fun howns hon hpend hwiping => ⟨?_, ?_⟩⟩, ?_,
    fun h w hw hon => ⟨?_, ?_⟩, ?_, ?_, fun q off hshut hstops hbank => ⟨?_, ?_, ?_⟩⟩
  · exact fun o => exec_ownerChange_taken hs h
  · exact exec_bankPowerRequest_taken hs h howns hne hok
  · exact fun hon h0 => powerTake_on hs hon h0 hok
  · exact exec_bankWipe_taken hs h howns hon hpend hwiping
  · exact bankWipe_on hs hon hwiping
  · exact exec_secureSet_taken hs
  · exact exec_eccChkRead_on h hw hon
  · exact fun v => exec_eccChkWrite_on h hw hon
  · exact fun hmoves => congrArg _ (if_pos hmoves)
  · exact fun hwiping hon => congrArg _ (if_pos ⟨hwiping, hon⟩)
  · intro ws t hop hform hread
    have hexec := exec_bankAccess_issued hshut hstops hbank
    rw [hop, if_neg (by decide), memReadReq_ok hform hread] at hexec
    exact hexec
  · intro t hop hform hwrite
    have hexec := exec_bankAccess_issued hshut hstops hbank
    rw [hop, if_pos rfl, memWriteReq_ok hform hwrite, coreSees_ok] at hexec
    exact hexec
  · intro u v w x y old new hroute hjudge hw hx hp hold hnew hy
    exact exec_bankAtomic_issued hshut hstops (bankAtomic_ok hbank hroute hjudge hw hx hp hold hnew hy)

end Sys2Proof.Machine
end

/-! # The queue, event controllers and mailboxes (R426, R427, R431) -/

section
set_option Elab.async false
namespace Sys2Proof.Machine

/-- Settles O1: a step takes the queue's front by definition. -/
theorem stepRunsFront : Obligations.StepRunsFront := by
  intro c q s
  rfl

/-! ## Writes of a register whose block is known -/

/-- What makes a register one of a block that a write can reach; a closed fact of the register map for each register. -/
def WritableIn (b : Block) (r : RegRef) : Prop :=
  r.block = some b ∧ r.id.imageSet = false ∧ r.id.info.writable ≠ 0 ∧ r.id ≠ .SNT_COMMIT ∧ r.off % 4 = 0 ∧ r.off + 8 ≤ 2 ^ 24

section
variable {s t : State} {m : Master} {d v : Nat} {r : RegRef} {b : Block}

theorem WritableIn.block (h : WritableIn b r) : r.block = some b := h.left

theorem WritableIn.toWritable (h : WritableIn b r) : Writable r := by
  obtain ⟨-, himage, hwrite, hcommit, haligned, hwindow⟩ := h
  exact ⟨himage, hwrite, hcommit, haligned, hwindow⟩

/-- A command that writes a whole word, which the register's family accepts. -/
theorem put32_word_ok {x : Word} (h : Reaches s m d r) (hr : Writable r)
    (hw : writeFamily s (mkWr s m d r x.toNat (2 ^ 32 - 1)) = t.ans .ok) : put32 s m d r.off x.toNat = t.ans .ok :=
  put32_ok h hr (by rw [Nat.mod_eq_of_lt x.isLt]; exact hw)

theorem put32_word_refused {x : Word} (h : Reaches s m d r) (hr : Writable r)
    (hw : writeFamily s (mkWr s m d r x.toNat (2 ^ 32 - 1)) = t.ans .accessError) :
    put32 s m d r.off x.toNat = (t.ans .accessError).coreTrap m .storeFault (d * 0x1000000 + r.off) :=
  put32_refused h hr (by rw [Nat.mod_eq_of_lt x.isLt]; exact hw)

/-- A command that names fields of a register, which the register's family accepts. -/
theorem poke_ok {f : Fld} {x : Nat} {l : List (Fld × Nat)} (h : Reaches s m d r) (hr : Writable r) (hf : f.off = r.off)
    (hw : writeFamily s (mkWr s m d r (named s d r ((f, x) :: l)) (2 ^ 32 - 1)) = t.ans .ok) :
    poke s m d ((f, x) :: l) = t.ans .ok := (poke_eq hf x l).trans (put32_ok h hr hw)

theorem poke_refused {f : Fld} {x : Nat} {l : List (Fld × Nat)} (h : Reaches s m d r) (hr : Writable r) (hf : f.off = r.off)
    (hw : writeFamily s (mkWr s m d r (named s d r ((f, x) :: l)) (2 ^ 32 - 1)) = t.ans .accessError) :
    poke s m d ((f, x) :: l) = (t.ans .accessError).coreTrap m .storeFault (d * 0x1000000 + r.off) :=
  (poke_eq hf x l).trans (put32_refused h hr hw)

/-- Of the fields that a command names, only their places in the register matter, not where the register is. -/
theorem named_congr {l l' : List (Fld × Nat)}
    (h : l.map (fun p => (p.1.lo, p.1.w, p.2)) = l'.map (fun p => (p.1.lo, p.1.w, p.2))) : named s d r l = named s d r l' := by
  have hfold : ∀ (l l' : List (Fld × Nat)) (x : Nat),
      l.map (fun p => (p.1.lo, p.1.w, p.2)) = l'.map (fun p => (p.1.lo, p.1.w, p.2)) →
      l.foldl (fun x p => p.1.setIn x p.2) x = l'.foldl (fun x p => p.1.setIn x p.2) x := by
    intro l
    induction l with
    | nil => intro l' x h; rw [List.map_eq_nil_iff.mp h.symm]
    | cons p l ih =>
      intro l' x h
      cases l' with
      | nil => exact absurd h (by simp)
      | cons p' l' =>
        obtain ⟨hp, hl⟩ := List.cons.inj h
        simp only [Prod.mk.injEq] at hp
        obtain ⟨hlo, hw, hv⟩ := hp
        have hset : p.1.setIn x p.2 = p'.1.setIn x p'.2 := by rw [Fld.setIn, Fld.setIn, Fld.of, Fld.of, hlo, hw, hv]
        rw [List.foldl_cons, List.foldl_cons, hset]
        exact ih l' _ hl
  unfold named
  rw [hfold l l' _ h]

end

/-- The place of a register of an array. -/
theorem regOff_index {id : RegId} {base stride : Nat} (i : Nat) (hbase : id.info.base = base) (hstride : id.info.s1 = stride) :
    base + stride * i = RegRef.off ⟨id, i, 0⟩ := by
  simp only [RegRef.off, hbase, hstride, Nat.zero_mul, Nat.add_zero, Nat.mul_comm]

/-! ## The best source (R426) -/

section
variable {s : State} {r x : Nat}

/-- What the search for the best source keeps from one listed source to the next. -/
def evBetter (s : State) (r x : Nat) (b : Option Nat) (n : Nat) : Option Nat :=
  if evEligible s r x n then
    match b with
    | some c => if evPrio s r c < evPrio s r n then some n else b
    | none => some n
  else b

/-- Source `n` is a best one of a list: nothing eligible there has a higher priority, and nothing of the same priority a lower ID. -/
def BestOf (s : State) (r x : Nat) (l : List Nat) (n : Nat) : Prop :=
  n ∈ l ∧ evEligible s r x n = true ∧
    ∀ k ∈ l, evEligible s r x k = true → evPrio s r k < evPrio s r n ∨ (evPrio s r k = evPrio s r n ∧ n ≤ k)

theorem evBest_eq : evBest s r x = (evListed s r).foldl (evBetter s r x) none := rfl

theorem evBetter_ineligible {b : Option Nat} {n : Nat} (h : evEligible s r x n = false) : evBetter s r x b n = b := by
  simp [evBetter, h]

theorem evBetter_first {n : Nat} (h : evEligible s r x n = true) : evBetter s r x none n = some n := by
  simp [evBetter, h]

theorem evBetter_higher {c n : Nat} (h : evEligible s r x n = true) (hp : evPrio s r c < evPrio s r n) :
    evBetter s r x (some c) n = some n := by
  simp [evBetter, h, hp]

theorem evBetter_notHigher {c n : Nat} (hp : ¬ evPrio s r c < evPrio s r n) : evBetter s r x (some c) n = some c := by
  simp [evBetter, hp]

/-- The search of a rising list finds a best source of it, and nothing only if nothing is eligible. -/
theorem evSearch_best (l : List Nat) (hl : l.Pairwise (· < ·)) :
    match l.foldl (evBetter s r x) none with
    | some n => BestOf s r x l n
    | none => ∀ k ∈ l, evEligible s r x k = false := by
  induction l using List.reverseRecOn with
  | nil => simp
  | append_singleton l n ih =>
    obtain ⟨hl, -, hlt⟩ := List.pairwise_append.mp hl
    have hlt : ∀ k ∈ l, k < n := fun k hk => hlt k hk n (List.mem_singleton_self n)
    have ih := ih hl
    rw [List.foldl_append, List.foldl_cons, List.foldl_nil]
    generalize l.foldl (evBetter s r x) none = b at ih
    cases he : evEligible s r x n with
    | false =>
      rw [evBetter_ineligible he]
      cases b with
      | none =>
        intro k hk
        rcases List.mem_append.mp hk with hk | hk
        · exact ih k hk
        · rwa [List.mem_singleton.mp hk]
      | some c =>
        obtain ⟨hc, hec, hbest⟩ := ih
        refine ⟨List.mem_append_left _ hc, hec, fun k hk hek => ?_⟩
        rcases List.mem_append.mp hk with hk | hk
        · exact hbest k hk hek
        · rw [List.mem_singleton.mp hk, he] at hek
          exact absurd hek (by decide)
    | true =>
      have hn : n ∈ l ++ [n] := List.mem_append_right _ (List.mem_singleton_self n)
      cases b with
      | none =>
        rw [evBetter_first he]
        refine ⟨hn, he, fun k hk hek => ?_⟩
        rcases List.mem_append.mp hk with hk | hk
        · rw [ih k hk] at hek
          exact absurd hek (by decide)
        · rw [List.mem_singleton.mp hk]
          exact .inr ⟨rfl, le_rfl⟩
      | some c =>
        obtain ⟨hc, hec, hbest⟩ := ih
        by_cases hp : evPrio s r c < evPrio s r n
        · rw [evBetter_higher he hp]
          refine ⟨hn, he, fun k hk hek => ?_⟩
          rcases List.mem_append.mp hk with hk | hk
          · rcases hbest k hk hek with hb | ⟨hb, -⟩ <;> exact .inl (by omega)
          · rw [List.mem_singleton.mp hk]
            exact .inr ⟨rfl, le_rfl⟩
        · rw [evBetter_notHigher hp]
          refine ⟨List.mem_append_left _ hc, hec, fun k hk hek => ?_⟩
          rcases List.mem_append.mp hk with hk | hk
          · exact hbest k hk hek
          · have hcn := hlt c hc
            rw [List.mem_singleton.mp hk]
            omega

/-- The best source is one of those listed. -/
theorem evBest_mem {n : Nat} (h : evBest s r x = some n) : n ∈ evListed s r := by
  have hkeep : ∀ l : List Nat, l.foldl (evBetter s r x) none = some n → n ∈ l := by
    intro l
    induction l using List.reverseRecOn with
    | nil => simp
    | append_singleton l k ih =>
      rw [List.foldl_append, List.foldl_cons, List.foldl_nil, List.mem_append, List.mem_singleton]
      generalize l.foldl (evBetter s r x) none = b at ih
      intro hb
      have hor : evBetter s r x b k = b ∨ evBetter s r x b k = some k := by
        unfold evBetter
        cases b <;> grind
      rcases hor with hor | hor
      · exact .inl (ih (hor.symm.trans hb))
      · exact .inr (Option.some.inj (hb.symm.trans hor))
  exact hkeep _ h

end

/-- Settles O11, by the search of the list from its front: what it keeps is best among the sources seen. -/
theorem claimIsBest : Obligations.ClaimIsBest := by
  intro s r x n hb hl
  have hsearch := evSearch_best (s := s) (r := r) (x := x) (evListed s r) hl
  rw [← evBest_eq, hb] at hsearch
  obtain ⟨-, he, hbest⟩ := hsearch
  exact ⟨he, hbest⟩

/-! ## Event controllers (R426, R427) -/

theorem evtClaim_off (x : Nat) : (R.EVT_CLAIM.ID x).off = RegRef.off ⟨.EVT_CLAIM, x, 0⟩ := regOff_index _ rfl rfl

theorem evtClaim_writable : ∀ x : Fin 8, WritableIn .EVT ⟨.EVT_CLAIM, x, 0⟩ := by
  unfold WritableIn
  decide

theorem claimRead_lt (s : State) (r x : Nat) : (claimRead s r x).1 < 2 ^ 32 := by
  unfold claimRead
  split
  · next n hb =>
    obtain ⟨e, -, rfl⟩ := List.mem_map.mp (evBest_mem hb)
    dsimp only
    omega
  · exact Nat.two_pow_pos 32

section
variable {s : State} {m : Master} {die : Die} {x : Fin 8}

theorem exec_claim (h : Reaches s m die ⟨.EVT_CLAIM, x, 0⟩) :
    exec (.claim m die x) s = .next ((claimRead s die x).2.ansData .ok [BitVec.ofNat 64 (claimRead s die x).1]) := by
  have hw := (evtClaim_writable x).toWritable
  have hlt := claimRead_lt s die x
  have hhalf : readHalf s m die (RegRef.off ⟨.EVT_CLAIM, x, 0⟩) ⟨.EVT_CLAIM, x, 0⟩ =
      ((claimRead s die x).1, (claimRead s die x).2) := by
    simp only [readHalf, readReg, RegId.isCounter, RegId.isPop, Bool.or_self, Bool.false_eq_true, if_false, Nat.sub_self, Nat.mul_zero,
      Nat.pow_zero, Nat.div_one, Nat.mod_eq_of_lt hlt]
  have hread := accessRead_word h h.regOn_eq hw.aligned (by have := hw.inWindow; omega) RegId.noConfusion hhalf
  rw [← evtClaim_off, Nat.mod_eq_of_lt hlt] at hread
  exact congrArg _ hread

theorem exec_claimComplete {id : BitVec 10} (h : Reaches s m die ⟨.EVT_CLAIM, x, 0⟩) :
    exec (.claimComplete m die x id) s = .next ((claimComplete s die x id.toNat).ans .ok) := by
  have hid := of_named_same (s := s) (die := die) (r := ⟨.EVT_CLAIM, x, 0⟩) (f := R.EVT_CLAIM.ID x) (f' := R.EVT_CLAIM.ID 0)
    (Nat.le_of_ble_eq_true rfl) rfl rfl id.isLt
  refine congrArg _ (poke_ok h (evtClaim_writable x).toWritable (evtClaim_off x) ?_)
  unfold writeFamily
  simp only [mkWr, (evtClaim_writable x).block, writeEvt, hid]

end

theorem EvSrc.complete_claimed {e : EvSrc} (l : Bool) (h : e.claimed = true) :
    e.complete l = { e with claimed := false, held := false, level := l, pending := e.held || l } := if_pos h

/-- Settles O10: arrivals change one source, a claim and its completion are accesses of EVT_CLAIMx, and the life of a source is by its
claimed mark. -/
theorem eventsComplete : Obligations.EventsComplete := by
  refine ⟨fun s m die => ⟨?_, ?_, fun x => exec_claim, fun x id => exec_claimComplete⟩, fun e l => ⟨⟨rfl, rfl⟩, ?_, ?_, ?_, ?_⟩⟩
  · exact fun n hp hup => congrArg _ (if_pos ⟨hp, hup⟩)
  · exact fun n hpulse => congrArg _ (if_pos hpulse)
  · exact fun hc => if_pos hc
  · exact fun hc => if_neg (by simp [hc])
  · intro hc
    rw [EvSrc.complete_claimed l hc]
    exact ⟨rfl, rfl, rfl⟩
  · exact fun hc => if_neg (by simp [hc])

/-! ## Mailboxes (R431) -/

theorem mboxCmd_writable : WritableIn .SYS ⟨.SYS_MBOX_CMD, 0, 0⟩ := by
  unfold WritableIn
  decide

section
variable {s : State} {m : Master} {die : Die}

theorem mboxPoke_free {cmd : Nat} (h : Reaches s m die ⟨.SYS_MBOX_CMD, 0, 0⟩) (hm : mboxMaster s m = true)
    (hfree : s.on die R.SYS_MBOX_STATUS.BUSY = false) (hc : cmd < 2 ^ 8) : mboxPoke s m die cmd =
      (((s.p die R.SYS_MBOX_CMD.OWNER m.rid).p die R.SYS_MBOX_STATUS.BUSY 1).setMbox die (some cmd)).ans .ok := by
  have hcmd := of_named_same (s := s) (die := die) (r := ⟨.SYS_MBOX_CMD, 0, 0⟩) (f := R.SYS_MBOX_CMD.CMD) (f' := R.SYS_MBOX_CMD.CMD)
    (by decide) rfl rfl hc
  have htaken : writeMboxCmd s (mkWr s m die ⟨.SYS_MBOX_CMD, 0, 0⟩ (named s die ⟨.SYS_MBOX_CMD, 0, 0⟩ [(R.SYS_MBOX_CMD.CMD, cmd)])
      (2 ^ 32 - 1)) = (((s.p die R.SYS_MBOX_CMD.OWNER m.rid).p die R.SYS_MBOX_STATUS.BUSY 1).setMbox die (some cmd)).ans .ok := by
    simp [writeMboxCmd, mkWr, hm, hfree, hcmd]
  exact poke_ok h mboxCmd_writable.toWritable rfl htaken

theorem exec_mailboxDone {cmd : Nat} (h : s.mboxOf die = some cmd) :
    exec (.mailboxDone die) s = .next (((((service s die cmd).2.setMbox die none).p die R.SYS_MBOX_STATUS.RESULT
      (service s die cmd).1).p die R.SYS_MBOX_STATUS.BUSY 0).pulse die (die * 72 + 36)) := by
  calc exec (.mailboxDone die) s = execMailboxDone die s := rfl
    _ = _ := by simp [execMailboxDone, h]

theorem service_unknown {cmd : Nat} (he : s.sec.erasing = false) (hc : cmd = 0 ∨ 8 ≤ cmd) : service s die cmd = (Mres.badCmd, s) := by
  unfold service
  rw [he, if_neg (by decide)]
  split
  case h_8 => rfl
  all_goals omega

theorem service_tamperDenied (he : s.sec.erasing = false) (hd : s.head ≠ die) : service s die 7 = (Mres.denied, s) := by
  unfold service svcTamper
  rw [he, if_neg (by decide)]
  exact if_neg hd.symm

/-- The eight words of the SMBus host, word by word. -/
theorem eight_words {words : List Word} (h : words.length = 8) : (List.range 8).map (fun i => words.getD i 0) = words := by
  refine List.ext_getElem (by simp [h]) fun i hi hi' => ?_
  simp [List.getElem?_eq_getElem hi']

end

/-- Settles O8: each service command is a write of SYS_MBOX_CMD that a free mailbox takes, and a service that ends is judged by its code. -/
theorem mailboxComplete : Obligations.MailboxComplete := by
  refine ⟨fun s m die h hm hfree => ?_, fun s die => ⟨fun cmd => exec_mailboxDone, ?_, fun he cmd => service_unknown he,
    service_tamperDenied, ?_⟩⟩
  · have htaken : ∀ cmd, cmd < 2 ^ 8 → _ := fun cmd => mboxPoke_free (cmd := cmd) h hm hfree
    exact ⟨congrArg _ (htaken 1 (by decide)), congrArg _ (htaken 2 (by decide)), congrArg _ (htaken 3 (by decide)),
      congrArg _ (htaken 4 (by decide)), congrArg _ (htaken 5 (by decide)), congrArg _ (htaken 6 (by decide)),
      congrArg _ (htaken 7 (by decide))⟩
  · exact fun he cmd => if_pos he
  · intro words hw
    exact congrArg (fun l => Host.Outcome.next { s with smbHost := l }) (eight_words hw)

end Sys2Proof.Machine
end

/-! # Caches and home slices (R309, R319, R324, R325) -/

section
set_option Elab.async false
namespace Sys2Proof.Machine

/-! ## Copies and cleans -/

section
variable {s u : State} {m : Master} {q line st : Nat} {c : CLine}

theorem copySt_of_copy (hc : s.copyOf q line = some c) : copySt s q line = c.st := by
  simp [copySt, hc]

theorem cleanCopy_absent (hc : s.copyOf q line = none) : cleanCopy s q line st = s := by
  simp [cleanCopy, hc]

theorem cleanCopy_clean (hc : s.copyOf q line = some c) (hst : c.st ≠ 3) :
    cleanCopy s q line st = s.setCopy q line (some { c with st := min c.st st }) := by
  simp [cleanCopy, hc, hst]

theorem cleanCopy_written (hc : s.copyOf q line = some c) (hst : c.st = 3) (hw : writeHome s q line c = (true, u)) :
    cleanCopy s q line st = u.setCopy q line (some { c with st := st }) := by
  simp [cleanCopy, hc, hst, hw]

/-- A dirty copy whose home does not take it is lost, and the directory drops it (R322). -/
theorem cleanCopy_lost (hc : s.copyOf q line = some c) (hst : c.st = 3) (hw : writeHome s q line c = (false, u)) :
    cleanCopy s q line st = dirDrop (u.setCopy q line none) q line := by
  simp [cleanCopy, hc, hst, hw]

end

/-! ## The commands of masters (R309, R319) -/

section
variable {s t : State} {m : Master} {line : LineId} {q : Nat}

theorem exec_cleanOp (hq : q = s.dieOfRid m.rid) (ht : cleanCopy s q line 2 = t) : exec (.cleanOp m line) s = .next (t.ans .ok) := by
  subst hq ht
  rfl

theorem exec_read_miss (hq : q = s.dieOfRid m.rid) (hc : s.copyOf q line = none) (hh : cachedHere s m line = true) :
    exec (.readShared m line) s = .next ((fill s q m line false).2.ans (fill s q m line false).1) ∧
      exec (.readUnique m line) s = .next ((fill s q m line true).2.ans (fill s q m line true).1) := by
  subst hq
  have hmiss : (s.copyOf (s.dieOfRid m.rid) line).isNone = true ∧ cachedHere s m line = true := ⟨by rw [hc]; rfl, hh⟩
  exact ⟨congrArg _ (if_pos hmiss), congrArg _ (if_pos hmiss)⟩

theorem exec_upgrade_shared {c : CLine} (hq : q = s.dieOfRid m.rid) (hc : s.copyOf q line = some c) (hst : c.st = 1) :
    exec (.upgrade m line) s = .next ((upgrade s q m line).2.ans (upgrade s q m line).1) := by
  subst hq
  exact congrArg _ (if_pos ((copySt_of_copy hc).trans hst))

theorem exec_cleanInval_cacheable (hq : q = s.dieOfRid m.rid) (hc : (lineTarget s m q line).cacheable = true) :
    exec (.cleanInval m line) s = .next ((recallLine s line).ans .ok) := by
  subst hq
  have hexec : exec (.cleanInval m line) s = execCleanInval m line s := rfl
  rw [hexec]
  unfold execCleanInval
  dsimp only
  generalize lineTarget s m (s.dieOfRid m.rid) line = target at hc
  cases target with
  | bank | dram => rfl
  | comp w off => exact congrArg _ (if_pos (by simpa [Target.cacheable] using hc))
  | ctrl | se | fabric | none => exact absurd hc (by simp [Target.cacheable])

end

/-! ## Evictions and snoops (R319, R320) -/

section
variable {s u : State} {die : Die} {line : LineId} {e : DirEnt}

theorem exec_snpShared_listed (hd : s.dirOf line = some e) (hu : u = shareCopy (rlcCnt s die 3) die line) :
    exec (.snpShared die line) s = .next (if e.owner = some die.val then
      u.setDir line ((u.dirOf line).map (fun e => { e with owner := none })) else u) := by
  subst hu
  calc exec (.snpShared die line) s = execSnpShared die line s := rfl
    _ = _ := by simp [execSnpShared, hd]

end

/-! ## Registers of the block (R324, R325) -/

theorem rlcCtrl_writable : WritableIn .RLC ⟨.RLC_CTRL, 0, 0⟩ := by
  unfold WritableIn
  decide

theorem rlcEccFlip_writable : WritableIn .RLC ⟨.RLC_ECC_FLIP, 0, 0⟩ := by
  unfold WritableIn
  decide

section
variable {s : State} {m : Master} {die : Die}

theorem exec_rlcFlush_idle (h : Reaches s m die ⟨.RLC_CTRL, 0, 0⟩) (hidle : s.on die R.RLC_STATUS.FLUSHING = false) :
    exec (.rlcFlush m die) s = .next ((s.p die R.RLC_STATUS.FLUSHING 1).ans .ok) := by
  have hflush := of_named_same (s := s) (die := die) (r := ⟨.RLC_CTRL, 0, 0⟩) (f := R.RLC_CTRL.FLUSH) (f' := R.RLC_CTRL.FLUSH) (x := 1)
    (by decide) rfl rfl (by decide)
  have htaken : writeRlc s (mkWr s m die ⟨.RLC_CTRL, 0, 0⟩ (named s die ⟨.RLC_CTRL, 0, 0⟩ [(R.RLC_CTRL.FLUSH, 1)]) (2 ^ 32 - 1)) =
      (s.p die R.RLC_STATUS.FLUSHING 1).ans .ok := by
    simp [writeRlc, mkWr, hidle, hflush]
  exact congrArg _ (poke_ok h rlcCtrl_writable.toWritable rfl htaken)

end

/-- Settles O46: each message has the effect of the branch that the copy and the directory entry of its line select. -/
theorem coherenceComplete : Obligations.CoherenceComplete := by
  intro s m die line q hq
  refine ⟨?_, fun hc hh => exec_read_miss hq hc hh, fun c hc => ⟨exec_upgrade_shared hq hc, ?_, ?_, ?_⟩, ?_, fun c hc => ⟨?_, ?_⟩, ?_,
    ⟨rfl, rfl⟩, ?_, ?_, ?_⟩
  · exact fun hc => exec_cleanOp hq (cleanCopy_absent hc)
  · exact fun u hst hw => exec_cleanOp hq (cleanCopy_written hc hst hw)
  · exact fun u hst hw => exec_cleanOp hq (cleanCopy_lost hc hst hw)
  · exact fun hst => exec_cleanOp hq (cleanCopy_clean hc hst)
  · exact exec_cleanInval_cacheable hq
  · exact fun hst => congrArg _ (if_pos ((copySt_of_copy hc).trans hst))
  · exact fun hst => congrArg _ (if_pos (by rwa [copySt_of_copy hc]))
  · intro e u hd hu
    rw [exec_snpShared_listed hd hu]
    exact ⟨fun ho => congrArg _ (if_neg ho), fun ho => congrArg _ (if_pos ho)⟩
  · exact exec_rlcFlush_idle
  · exact fun hf => congrArg _ (if_pos hf)
  · rintro f r rfl h
    exact congrArg _ (poke_ok h rlcEccFlip_writable.toWritable rfl rfl)

end Sys2Proof.Machine
end

/-! # Die links (R327 to R331, R333, R334, R340, R343) -/

section
set_option Elab.async false
namespace Sys2Proof.Machine

/-! ## What a flit leaves at the receiving end (R327 to R329) -/

section
variable {s : State} {d e k : Nat}

theorem linkRx_of_rx {t : State} (h : t.bdl.rx = s.bdl.rx) : t.linkRx d e k = s.linkRx d e k := by
  unfold State.linkRx
  rw [h]

/-- A receiving end reads back what was set, if the ends are in canonical form. -/
theorem linkRx_setLinkRx {x : LinkRx} (hwf : SMap.wf (fun _ => LinkRx.reset) s.bdl.rx = true) : (s.setLinkRx d e k x).linkRx d e k = x :=
  SMap.get_set_same _ _ _ _ hwf

theorem edgeFatal_rx : (edgeFatal s d e k).bdl.rx = s.bdl.rx := by
  have hone : ∀ (t : State) (d e : Nat), (if t.present d then
      (((t.setEdge d e Edge.fatal).p d (R.BDL_STATUS.REASON e) Reason.retryExhausted).p d (R.BDL_STATUS.MODULE e) k).p d
        R.BDL_EVT.FATAL 1 else t).bdl.rx = t.bdl.rx := by
    intro t d e
    split <;> simp [State.setEdge]
  unfold edgeFatal
  dsimp only
  split <;> simp only [hone]

theorem replay_rx : (replay s d e k).bdl.rx = s.bdl.rx := by
  unfold replay
  dsimp only
  split
  · rfl
  · split
    · exact edgeFatal_rx
    · simp [State.inc, State.setLinkTx]

theorem takeHeader_rx {h : Nat} : (takeHeader s d e k h).bdl.rx = s.bdl.rx := by
  unfold takeHeader
  dsimp only
  split
  · rfl
  · split
    · exact replay_rx
    · rfl

theorem flitSent_rx {q : Nat} : (flitSent s d e k q).bdl.rx = s.bdl.rx := by
  unfold flitSent
  dsimp only
  split <;> rfl

theorem testCorrupts_rx : (testCorrupts s d e k).2.bdl.rx = s.bdl.rx := by
  unfold testCorrupts
  split
  · dsimp only
    split <;> simp [State.setTestLeft]
  · rfl

theorem testCorrupts_unarmed (h : s.on d R.BDL_TEST.ARM = false) : testCorrupts s d e k = (false, s) := by
  simp [testCorrupts, h]

/-- What the far end's transmission of a flit is: corrupted under test or not, and the far sender's state after it. -/
def flitSend (s : State) (d e k : Nat) (f : List Byte) : Bool × State :=
  match s.neighbour d e with
  | some n =>
    if s.present n then
      match testCorrupts s n (farEdge e) k with
      | (b, t) => (b, if flitOk f && leAt f 0 8 % 16 == 0 then t
          else flitSent t n (farEdge e) k (if flitOk f then fld (leAt f 0 8) 4 10 else (s.linkRx d e k).expect))
    else (false, s)
  | none => (false, s)

theorem flitSend_rx {f : List Byte} : (flitSend s d e k f).2.bdl.rx = s.bdl.rx := by
  unfold flitSend
  split
  · split
    · dsimp only
      split
      · exact testCorrupts_rx
      · rw [flitSent_rx, testCorrupts_rx]
    · rfl
  · rfl

theorem flitSend_unarmed {f : List Byte} (h : ∀ d, s.on d R.BDL_TEST.ARM = false) : (flitSend s d e k f).1 = false := by
  unfold flitSend
  split
  · split
    · simp [testCorrupts_unarmed (h _)]
    · rfl
  · rfl

/-- A flit is refused: the module counts it and sends a NAK (R329). -/
def flitRefused (s : State) (d e k : Nat) (x : LinkRx) : State :=
  (s.setLinkRx d e k { x with nak := true }).inc d (R.BDL_CNT_CRC.COUNT e) 1

/-- A flit is accepted: SEQ moves on, and its header is taken (R328, R329). -/
def flitAccepted (s : State) (d e k : Nat) (x : LinkRx) (part f : List Byte) : State :=
  let t := s.setLinkRx d e k ⟨(x.expect + 1) % 1024, false, part⟩
  takeHeader (if leAt f 0 8 % 16 = 1 then t.inc d (R.BDL_CNT_FLITS.COUNT e) 1 else t) d e k (leAt f 0 8)

theorem flitArrive_eq {f : List Byte} : flitArrive s d e k f =
    (let x := s.linkRx d e k
     let t := (flitSend s d e k f).2
     if !flitOk f || (flitSend s d e k f).1 then flitRefused t d e k x
     else if leAt f 0 8 % 16 = 0 then takeHeader t d e k (leAt f 0 8)
     else if fld (leAt f 0 8) 4 10 ≠ x.expect then flitRefused t d e k x
     else match payloadRest e k x f with
       | none => flitRefused t d e k x
       | some part => flitAccepted t d e k x part f) := rfl

section
variable {x : LinkRx} {f : List Byte}

theorem flitRefused_linkRx (hwf : SMap.wf (fun _ => LinkRx.reset) s.bdl.rx = true) :
    (flitRefused s d e k x).linkRx d e k = { x with nak := true } :=
  (linkRx_of_rx (by simp [flitRefused, State.inc])).trans (linkRx_setLinkRx hwf)

theorem flitAccepted_linkRx {part : List Byte} (hwf : SMap.wf (fun _ => LinkRx.reset) s.bdl.rx = true) :
    (flitAccepted s d e k x part f).linkRx d e k = ⟨(x.expect + 1) % 1024, false, part⟩ := by
  refine (linkRx_of_rx ?_).trans (linkRx_setLinkRx hwf)
  unfold flitAccepted
  rw [takeHeader_rx]
  split <;> simp [State.inc]

variable (hwf : SMap.wf (fun _ => LinkRx.reset) s.bdl.rx = true)
include hwf

theorem flitArrive_notOk (hok : flitOk f = false) : (flitArrive s d e k f).linkRx d e k = { s.linkRx d e k with nak := true } := by
  have hwf' : SMap.wf (fun _ => LinkRx.reset) (flitSend s d e k f).2.bdl.rx = true := by rwa [flitSend_rx]
  rw [flitArrive_eq, hok]
  exact flitRefused_linkRx hwf'

/-- A payload out of sequence, or one whose records break the format, is refused, as is any that was corrupted on the way. -/
theorem flitArrive_broken (hok : flitOk f = true) (htype : leAt f 0 8 % 16 ≠ 0)
    (hbad : fld (leAt f 0 8) 4 10 ≠ (s.linkRx d e k).expect ∨ payloadRest e k (s.linkRx d e k) f = none) :
    (flitArrive s d e k f).linkRx d e k = { s.linkRx d e k with nak := true } := by
  have hwf' : SMap.wf (fun _ => LinkRx.reset) (flitSend s d e k f).2.bdl.rx = true := by rwa [flitSend_rx]
  rw [flitArrive_eq, hok]
  dsimp only
  rw [if_neg htype]
  split
  · exact flitRefused_linkRx hwf'
  · split
    · exact flitRefused_linkRx hwf'
    · next hseq =>
      rw [hbad.resolve_left hseq]
      exact flitRefused_linkRx hwf'

theorem flitArrive_good {part : List Byte} (hok : flitOk f = true) (htype : leAt f 0 8 % 16 ≠ 0)
    (hseq : fld (leAt f 0 8) 4 10 = (s.linkRx d e k).expect) (hpart : payloadRest e k (s.linkRx d e k) f = some part)
    (harm : ∀ d, s.on d R.BDL_TEST.ARM = false) :
    (flitArrive s d e k f).linkRx d e k = ⟨((s.linkRx d e k).expect + 1) % 1024, false, part⟩ := by
  have hwf' : SMap.wf (fun _ => LinkRx.reset) (flitSend s d e k f).2.bdl.rx = true := by rwa [flitSend_rx]
  rw [flitArrive_eq, hok, flitSend_unarmed harm]
  dsimp only
  rw [if_neg (by decide), if_neg htype, if_neg (not_not.mpr hseq), hpart]
  exact flitAccepted_linkRx hwf'

end

/-! ## Replay (R329, R330) -/

theorem replay_exhausted {q : Nat} {l : List (Nat × Nat)} (h : (s.linkTx d e k).un = (q, 8) :: l) :
    replay s d e k = edgeFatal s d e k := by
  simp [replay, h]

theorem replay_again {q n : Nat} {l : List (Nat × Nat)} (h : (s.linkTx d e k).un = (q, n) :: l) (hn : n < 8) :
    replay s d e k = (s.setLinkTx d e k { s.linkTx d e k with un := (s.linkTx d e k).un.map (fun y => (y.1, min 8 (y.2 + 1))) }).inc d
      (R.BDL_CNT_REPLAY.COUNT e) 1 := by
  have hn : ¬ 8 ≤ n := by omega
  simp [replay, h, hn]

end

/-! ## Edges (R330, R331, R333, R334) -/

theorem companionEdge_of_dev {s t : State} {d e : Nat} (h : t.dev = s.dev) : companionEdge t d e = companionEdge s d e := by
  unfold companionEdge
  rw [h]

section
variable {s u : State} {die : Die} {e : Fin 4} {k : Fin 6} (hp : s.present die = true)
include hp

theorem exec_flitReceive_up {f : List Byte} (hup : s.edgeState die e = Edge.up) :
    exec (.flitReceive die e k f) s = .next (flitArrive s die e k f) := by
  calc exec (.flitReceive die e k f) s = execFlitReceive die e k f s := rfl
    _ = _ := by simp [execFlitReceive, hp, hup]

theorem exec_replayTimeout_up (hup : s.edgeState die e = Edge.up) : exec (.replayTimeout die e k) s = .next (replay s die e k) :=
  congrArg _ (if_pos ⟨hp, hup⟩)

/-- With no packet in flight, a Fatal edge costs no tag (R331). -/
theorem exec_fatalKnown_quiet (hf : s.edgeState die e = Edge.fatal) (hnet : s.coh.net = []) :
    exec (.fatalKnown die e) s = .next (cutTrunk (updateLost (cutDirectory s))) := by
  calc exec (.fatalKnown die e) s = execFatalKnown die e s := rfl
    _ = _ := by simp [execFatalKnown, hp, hf, hnet]

theorem exec_moduleTrained_locked {n : Nat} (ht : s.edgeState die e = Edge.training) (hl : rootLocked s die = true)
    (hn : s.neighbour die e = some n) (hpn : s.present n = true) (hln : rootLocked s n = true)
    (hu : u = s.setBit die (R.BDL_CAPS.MODULES e) k) :
    exec (.moduleTrained die e k) s = .next (if u.g die (R.BDL_CAPS.MODULES e) = 63 then u.setEdge die e Edge.caps else u) := by
  subst hu
  calc exec (.moduleTrained die e k) s = execModuleTrained die e k s := rfl
    _ = _ := by simp [execModuleTrained, hp, ht, hl, hn, hpn, hln]

theorem exec_trainFail_alone (ht : s.edgeState die e = Edge.training) (hm : s.bit die (R.BDL_CAPS.MODULES e) k = false)
    (hc : companionEdge s die e = false) :
    exec (.trainFail die e k) s = .next (edgeDown s die e Reason.trainFail k) := by
  have hdown : companionEdge (edgeDown s die e Reason.trainFail k) die e = false :=
    (companionEdge_of_dev (Kept.edgeDown (.refl s)).dev).trans hc
  calc exec (.trainFail die e k) s = execTrainFail die e k s := rfl
    _ = _ := by simp [execTrainFail, hp, ht, hm, hdown]

theorem exec_noCaps_alone (hcaps : s.edgeState die e = Edge.caps) (hw : s.capsIn die e = .waiting) (hc : companionEdge s die e = false) :
    exec (.noCaps die e) s = .next (edgeDown s die e Reason.noCaps 0) := by
  calc exec (.noCaps die e) s = execNoCaps die e s := rfl
    _ = _ := by simp [execNoCaps, hp, hcaps, hw, hc]

section
variable {b : List Byte} (hcaps : s.edgeState die e = Edge.caps) (hw : s.capsIn die e = .waiting) (hc : companionEdge s die e = false)
  (hb : capsValid b = true)
include hcaps hw hc hb

theorem exec_capsReceive_refused {r : Nat} (hr : capsRefuse s die e b = some r) :
    exec (.capsReceive die e b) s = .next (edgeDown s die e r 0) := by
  calc exec (.capsReceive die e b) s = execCapsReceive die e b s := rfl
    _ = _ := by simp [execCapsReceive, hp, hcaps, hw, hc, hb, hr]

/-- A block that passes: the edge comes up if the far end's block has come, too (R333). -/
theorem exec_capsReceive_passed {n : Nat} (hr : capsRefuse s die e b = none)
    (hu : u = capsTake (s.setCapsIn die e (.block b)) die e b) (hn : u.neighbour die e = some n) :
    exec (.capsReceive die e b) s = .next (if u.edgeState n (farEdge e) = Edge.caps ∧ u.capsIn n (farEdge e) ≠ .waiting then
      updateLost (edgeUp (edgeUp u die e) n (farEdge e)) else u) := by
  subst hu
  calc exec (.capsReceive die e b) s = execCapsReceive die e b s := rfl
    _ = _ := by simp [execCapsReceive, hp, hcaps, hw, hc, hb, hr, hn]

end

end

/-! ## Raw edges (R340), and the test of the code (R343) -/

theorem bdlTest_writable : WritableIn .BDL ⟨.BDL_TEST, 0, 0⟩ := by
  unfold WritableIn
  decide

section
variable {s : State} {m : Master} {die : Die}

theorem exec_cmpstrmRx_front {f : List Byte} {l : List (List Byte)} {x : Nat} (hr : rawEdge s die = some x)
    (hl : s.rawRx die = f :: l) : exec (.cmpstrmRx die) s = .next ((s.setRawRx die l).ansData .ok (flitWords f)) := by
  calc exec (.cmpstrmRx die) s = execCmpstrmRx die s := rfl
    _ = _ := by simp [execCmpstrmRx, hr, hl]

/-- The fields of BDL_TEST as a command that arms the test writes them. -/
theorem bdlTest_fields {e : Fin 4} {md : Fin 8} {n : Fin 16} {l : List (Fld × Nat)} {v : Nat}
    (hl : l = [(R.BDL_TEST.ARM, 1), (R.BDL_TEST.COUNT, n.val), (R.BDL_TEST.EDGE, e.val), (R.BDL_TEST.MODULE, md.val)])
    (hv : v = written s die ⟨.BDL_TEST, 0, 0⟩ (named s die ⟨.BDL_TEST, 0, 0⟩ l)) :
    R.BDL_TEST.ARM.of v = 1 ∧ R.BDL_TEST.COUNT.of v = n ∧ R.BDL_TEST.EDGE.of v = e ∧ R.BDL_TEST.MODULE.of v = md := by
  have hn : n.val % 2 ^ 4 = n := Nat.mod_eq_of_lt n.isLt
  have he : e.val % 2 ^ 2 = e := Nat.mod_eq_of_lt e.isLt
  have hmd : md.val % 2 ^ 3 = md := Nat.mod_eq_of_lt md.isLt
  subst hl hv
  unfold written
  refine ⟨?_, ?_, ?_, ?_⟩
  all_goals
    rw [merge_taken _ _ _ _ _ (by decide) (by decide), of_named _ (by decide)]
    simp (disch := decide) only [List.foldl, of_over_other, of_over_same]
  · decide
  · exact hn
  · exact he
  · exact hmd

theorem setTestLeft_ans {t : State} {d n : Nat} {r : Resp} : (t.ans r).setTestLeft d n = (t.setTestLeft d n).ans r := rfl

/-- A write that arms the test of a module (R343). -/
theorem writeBdlTest_armed {w : Wr} {d e n : Nat} (hd : w.d = d) (hm : w.m.cls = .coreM) (harm : s.on d R.BDL_TEST.ARM = false)
    (ha : R.BDL_TEST.ARM.of w.new = 1) (hcount : R.BDL_TEST.COUNT.of w.new = n) (hedge : R.BDL_TEST.EDGE.of w.new = e)
    (hmodule : R.BDL_TEST.MODULE.of w.new < 6) (hn : n ≠ 0) (he : s.edgeState d e ≠ Edge.absent) :
    writeBdlTest s w = ((s.setReg d w.r w.new).setTestLeft d n).ans .ok := by
  subst hd hcount hedge
  have htaken : ((w.m.cls == .coreM || (w.m.cls == .debug && decide (2 ≤ s.dbgLevel))) && !s.on w.d R.BDL_TEST.ARM
      && R.BDL_TEST.COUNT.of w.new != 0 && decide (R.BDL_TEST.MODULE.of w.new < 6)
      && s.edgeState w.d (R.BDL_TEST.EDGE.of w.new) != Edge.absent) = true := by
    simp [hm, harm, hmodule, hn, he]
  unfold writeBdlTest
  dsimp only
  rw [if_pos htaken, if_pos ha]
  exact setTestLeft_ans

theorem exec_bdlTest_armed {e : Fin 4} {md : Fin 8} {n : Fin 16} {l : List (Fld × Nat)} (h : Reaches s m die ⟨.BDL_TEST, 0, 0⟩)
    (hm : m.cls = .coreM) (harm : s.on die R.BDL_TEST.ARM = false) (hn : n ≠ 0) (hmd : md < 6) (he : s.edgeState die e ≠ Edge.absent)
    (hl : l = [(R.BDL_TEST.ARM, 1), (R.BDL_TEST.COUNT, n.val), (R.BDL_TEST.EDGE, e.val), (R.BDL_TEST.MODULE, md.val)]) :
    exec (.bdlTest m die true e md n) s = .next (((s.setReg die ⟨.BDL_TEST, 0, 0⟩
      (written s die ⟨.BDL_TEST, 0, 0⟩ (named s die ⟨.BDL_TEST, 0, 0⟩ l))).ans .ok).setTestLeft die n) := by
  obtain ⟨ha, hcount, hedge, hmodule⟩ := bdlTest_fields (s := s) (die := die) hl rfl
  have hn : n.val ≠ 0 := fun h0 => hn (Fin.ext h0)
  have hmd : R.BDL_TEST.MODULE.of (written s die ⟨.BDL_TEST, 0, 0⟩ (named s die ⟨.BDL_TEST, 0, 0⟩ l)) < 6 := by rw [hmodule]; exact hmd
  have htaken := writeBdlTest_armed (s := s) (w := mkWr s m die ⟨.BDL_TEST, 0, 0⟩ (named s die ⟨.BDL_TEST, 0, 0⟩ l) (2 ^ 32 - 1))
    rfl hm harm ha hcount hedge hmd hn he
  rw [setTestLeft_ans]
  subst hl
  exact congrArg _ (poke_ok h bdlTest_writable.toWritable rfl htaken)

end

/-- Settles O48: a flit is refused or accepted by its form and its SEQ, and every other event has the effect of the branch that its hypotheses
select. -/
theorem linksComplete : Obligations.LinksComplete := by
  intro s m die e k hp
  refine ⟨fun hup => ⟨fun f => ⟨exec_flitReceive_up hp hup, ?_⟩, ?_, ?_⟩, exec_fatalKnown_quiet hp, ?_, exec_trainFail_alone hp,
    fun hcaps => ⟨?_, fun hw hc => ⟨exec_noCaps_alone hp hcaps hw hc, fun b hb => ⟨?_, ?_⟩⟩⟩, ?_, ?_, ?_⟩
  · rintro x y rfl rfl hwf
    exact ⟨flitArrive_notOk hwf, flitArrive_broken hwf, fun part => flitArrive_good hwf⟩
  · intro q l hun
    rw [exec_replayTimeout_up hp hup, replay_exhausted hun]
  · intro q n l hun hn
    rw [exec_replayTimeout_up hp hup, replay_again hun hn]
  · exact fun n ht hl hn hpn hln u hu => exec_moduleTrained_locked hp ht hl hn hpn hln hu
  · exact congrArg _ (if_pos ⟨hp, hcaps⟩)
  · exact fun r => exec_capsReceive_refused hp hcaps hw hc hb
  · intro n u hr hu hn
    rw [exec_capsReceive_passed hp hcaps hw hc hb hr hu hn]
    exact ⟨fun hfar hblock => congrArg _ (if_pos ⟨hfar, hblock⟩), fun hfar => congrArg _ (if_neg (fun h => hfar h.left))⟩
  · exact fun f x hraw => congrArg _ (if_pos (by rw [hraw]; rfl))
  · exact fun f l x => exec_cmpstrmRx_front
  · rintro md n r l rfl h hm harm hn hmd he hl
    exact exec_bdlTest_armed h hm harm hn hmd he hl

end Sys2Proof.Machine
end

/-! # DRAM controllers and encryption engines as software drives them (R348, R350, R362, R364) -/

section
set_option Elab.async false
namespace Sys2Proof.Machine

/-! ## Writes that the warm image of a die is judged by (R107) -/

section
variable {s t : State} {m : Master} {d : Nat} {r : RegRef}

theorem warmCheck_reply {off : Nat} : (warmCheck s d off).reply = s.reply := by
  unfold warmCheck warmClear
  split
  · simp
  · rfl

/-- The judgement of the warm image stays out of the answer. -/
theorem coreSees_warmCheck {off addr : Nat} {store : Bool} :
    (warmCheck (t.ans .ok) d off).coreSees m store addr = warmCheck (t.ans .ok) d off := by
  simp [State.coreSees, warmCheck_reply, State.ans]

/-- A refused write leaves the warm image as it is. -/
theorem warmCheck_refused {off : Nat} : warmCheck (s.ans .accessError) d off = s.ans .accessError := by
  simp [warmCheck, State.ans]

/-- A 32-bit write that a DDR or MEE register accepts. -/
theorem put32_warm_ok {v : Nat} (h : Reaches s m d r) (hr : Writable r)
    (hw : writeFamily s (mkWr s m d r (v % 2 ^ 32) (2 ^ 32 - 1)) = warmCheck (t.ans .ok) d r.off) :
    put32 s m d r.off v = warmCheck (t.ans .ok) d r.off := by
  obtain ⟨himage, hwrite, hcommit, haligned, hwindow⟩ := hr
  rw [put32_reaches s m d v r h himage hwrite hcommit haligned (by omega), hw, coreSees_warmCheck]

theorem writeFamily_ddr {raw mask : Nat} (hb : r.block = some .DDR) :
    writeFamily s (mkWr s m d r raw mask) = warmCheck (writeDdr s (mkWr s m d r raw mask)) d r.off := by
  unfold writeFamily
  simp only [mkWr, hb]

theorem writeFamily_mee {raw mask : Nat} (hb : r.block = some .MEE) :
    writeFamily s (mkWr s m d r raw mask) = warmCheck (writeMee s (mkWr s m d r raw mask)) d r.off := by
  unfold writeFamily
  simp only [mkWr, hb]

end

/-! ## The code's test and map sets (R348, R350) -/

theorem ddrEccFlip_off (i : Nat) : (R.DDR_ECC_FLIP.ARM i).off = RegRef.off ⟨.DDR_ECC_FLIP, i, 0⟩ := regOff_index _ rfl rfl

theorem mapCtl_off (k : Nat) : (R.DDR_MAP_CTL.EN k).off = RegRef.off ⟨.DDR_MAP_CTL, k, 0⟩ := regOff_index _ rfl rfl

theorem ddrEccFlip_writable : ∀ i : Fin 2, WritableIn .DDR ⟨.DDR_ECC_FLIP, i, 0⟩ := by
  unfold WritableIn
  decide

theorem mapCtl_writable : ∀ k : Fin 8, WritableIn .DDR ⟨.DDR_MAP_CTL, k, 0⟩ := by
  unfold WritableIn
  decide

section
variable {s : State} {m : Master} {die : Die}

theorem exec_ddrEccFlip_taken {i : Fin 2} {v : Word} {x : Nat} (hx : x = written s die ⟨.DDR_ECC_FLIP, i, 0⟩ v.toNat)
    (h : Reaches s m die ⟨.DDR_ECC_FLIP, i, 0⟩) (hm : s.supervisor m = true) (h0 : (R.DDR_ECC_FLIP.DEV0 0).of x ≤ 9)
    (h1 : (R.DDR_ECC_FLIP.DEV1 0).of x ≤ 9) : exec (.ddrEccFlip m die i v) s =
      .next (warmCheck ((s.setReg die ⟨.DDR_ECC_FLIP, i, 0⟩ x).ans .ok) die (RegRef.off ⟨.DDR_ECC_FLIP, i, 0⟩)) := by
  subst hx
  have hw := ddrEccFlip_writable i
  have htaken : writeDdr s (mkWr s m die ⟨.DDR_ECC_FLIP, i, 0⟩ (v.toNat % 2 ^ 32) (2 ^ 32 - 1)) =
      (s.setReg die ⟨.DDR_ECC_FLIP, i, 0⟩ (written s die ⟨.DDR_ECC_FLIP, i, 0⟩ v.toNat)).ans .ok := by
    rw [Nat.mod_eq_of_lt v.isLt]
    refine if_pos ?_
    rw [Bool.and_eq_true, decide_eq_true_iff]
    exact ⟨hm, h0, h1⟩
  have hput := put32_warm_ok h hw.toWritable ((writeFamily_ddr hw.block).trans (congrArg (warmCheck · _ _) htaken))
  rw [← ddrEccFlip_off] at hput ⊢
  exact congrArg _ hput

/-- A set that is off and is written with EN is judged by its map word and its range (R350). -/
theorem writeMapCtl_enable {w : Wr} {x : Nat} (hx : w.new = x) (hold : ((R.DDR_MAP_CTL.EN 0).of w.old == 1) = false)
    (hen : (R.DDR_MAP_CTL.EN 0).of x = 1) :
    writeMapCtl s w = if grainOk x && mapEnableOk s w.d w.r.i x then (((s.setReg w.d w.r x).p w.d R.DDR_MAP_SUM.CRC
      (mapSum (s.setReg w.d w.r x) w.d)).ans .ok) else s.ans .accessError := by
  subst hx
  simp [writeMapCtl, hold, hen]

section
variable {k : Fin 8} {v : Word} {x : Nat} (hx : x = written s die ⟨.DDR_MAP_CTL, k, 0⟩ v.toNat)
  (hoff : s.on die (R.DDR_MAP_CTL.EN k) = false) (hen : (R.DDR_MAP_CTL.EN 0).of x = 1)
include hx hoff hen

theorem writeDdr_enable : writeDdr s (mkWr s m die ⟨.DDR_MAP_CTL, k, 0⟩ (v.toNat % 2 ^ 32) (2 ^ 32 - 1)) =
    if grainOk x && mapEnableOk s die k x then (((s.setReg die ⟨.DDR_MAP_CTL, k, 0⟩ x).p die R.DDR_MAP_SUM.CRC
      (mapSum (s.setReg die ⟨.DDR_MAP_CTL, k, 0⟩ x) die)).ans .ok) else s.ans .accessError := by
  have hold : (R.DDR_MAP_CTL.EN 0).of (s.reg die ⟨.DDR_MAP_CTL, k, 0⟩) = s.g die (R.DDR_MAP_CTL.EN k) :=
    s.of_reg die (mapCtl_off k) (Nat.le_of_ble_eq_true rfl)
  have hold : ((R.DDR_MAP_CTL.EN 0).of (s.reg die ⟨.DDR_MAP_CTL, k, 0⟩) == 1) = false := by rw [hold]; exact hoff
  rw [Nat.mod_eq_of_lt v.isLt]
  exact writeMapCtl_enable (w := mkWr s m die ⟨.DDR_MAP_CTL, k, 0⟩ v.toNat (2 ^ 32 - 1)) hx.symm hold hen

theorem exec_mapSetEnable_taken (h : Reaches s m die ⟨.DDR_MAP_CTL, k, 0⟩) (hgrain : grainOk x = true) (hok : mapEnableOk s die k x = true) :
    exec (.mapSetEnable m die k v) s = .next (warmCheck (((s.setReg die ⟨.DDR_MAP_CTL, k, 0⟩ x).p die R.DDR_MAP_SUM.CRC
      (mapSum (s.setReg die ⟨.DDR_MAP_CTL, k, 0⟩ x) die)).ans .ok) die (RegRef.off ⟨.DDR_MAP_CTL, k, 0⟩)) := by
  have hw := mapCtl_writable k
  have htaken := (writeDdr_enable (m := m) hx hoff hen).trans (if_pos (by rw [hgrain, hok]; rfl))
  have hput := put32_warm_ok h hw.toWritable ((writeFamily_ddr hw.block).trans (congrArg (warmCheck · _ _) htaken))
  rw [← mapCtl_off] at hput ⊢
  exact congrArg _ hput

theorem exec_mapSetEnable_refused (h : Reaches s m die ⟨.DDR_MAP_CTL, k, 0⟩) (hok : mapEnableOk s die k x = false) : exec (.mapSetEnable m die k v) s =
    .next ((s.ans .accessError).coreTrap m .storeFault (die * 0x1000000 + RegRef.off ⟨.DDR_MAP_CTL, k, 0⟩)) := by
  have hw := mapCtl_writable k
  have hrefused := (writeDdr_enable (m := m) hx hoff hen).trans (if_neg (by rw [hok, Bool.and_false]; decide))
  have hput := put32_refused h hw.toWritable
    (((writeFamily_ddr hw.block).trans (congrArg (warmCheck · _ _) hrefused)).trans warmCheck_refused)
  rw [← mapCtl_off] at hput ⊢
  exact congrArg _ hput

end

end

/-! ## Key commands (R362) -/

theorem keyCmd_off (i : Nat) : (R.MEE_KEY_CMD.OP i).off = RegRef.off ⟨.MEE_KEY_CMD, i, 0⟩ := regOff_index _ rfl rfl

theorem keyCmd_writable : ∀ i : Fin 2, WritableIn .MEE ⟨.MEE_KEY_CMD, i, 0⟩ := by
  unfold WritableIn
  decide

section
variable {s t u : State} {m : Master} {die : Die} {i : Fin 2} {k : Fin 64} {dev : Bool} {op arg : Nat} {l : List Nat}

/-- The fields of MEE_KEY_CMD as a key command writes them. -/
theorem keyCmd_fields {v : Nat} (hop : op < 8) (harg : arg < 4) (hv : v = named s die ⟨.MEE_KEY_CMD, i, 0⟩
      [(R.MEE_KEY_CMD.OP i, op), (R.MEE_KEY_CMD.KEYID i, k.val), (R.MEE_KEY_CMD.ARG i, arg), (R.MEE_KEY_CMD.SCOPE i, dev.toNat)]) :
    (R.MEE_KEY_CMD.SCOPE 0).of v = dev.toNat ∧ (R.MEE_KEY_CMD.OP 0).of v = op ∧ (R.MEE_KEY_CMD.KEYID 0).of v = k ∧
      (R.MEE_KEY_CMD.ARG 0).of v = arg := by
  have hplace : v = named s die ⟨.MEE_KEY_CMD, i, 0⟩
      [(R.MEE_KEY_CMD.OP 0, op), (R.MEE_KEY_CMD.KEYID 0, k.val), (R.MEE_KEY_CMD.ARG 0, arg), (R.MEE_KEY_CMD.SCOPE 0, dev.toNat)] :=
    hv.trans (named_congr (by simp only [List.map, R.MEE_KEY_CMD.OP, R.MEE_KEY_CMD.KEYID, R.MEE_KEY_CMD.ARG, R.MEE_KEY_CMD.SCOPE]))
  have hdev : dev.toNat % 2 ^ 1 = dev.toNat := Nat.mod_eq_of_lt dev.toNat_lt
  have hop : op % 2 ^ 3 = op := Nat.mod_eq_of_lt hop
  have hk : k.val % 2 ^ 6 = k := Nat.mod_eq_of_lt k.isLt
  have harg : arg % 2 ^ 2 = arg := Nat.mod_eq_of_lt harg
  rw [hplace]
  refine ⟨?_, ?_, ?_, ?_⟩
  all_goals
    rw [of_named _ (by decide), List.foldl_cons, List.foldl_cons, List.foldl_cons, List.foldl_cons, List.foldl_nil]
    simp (disch := decide) only [of_over_other, of_over_same]
  · exact hdev
  · exact hop
  · exact hk
  · exact harg

/-- What a key command that starts leaves, by the first engine of its list that refuses it (R362, R363). -/
def keyCmdRun (u : State) (d i : Nat) (dev : Bool) (op k arg : Nat) (l : List Nat) : State :=
  match l.find? (fun ch => meeCheck u ch op k != 0) with
  | some ch => meeEnd u d i (meeCheck u ch op k) (if dev then ch else 0)
  | none =>
    let t := l.foldl (fun s ch => meeApply s ch op k arg (meeKeyData u d i) (u.g d (R.MEE_RK_START.LINE i))
      (u.g d (R.MEE_RK_END.LINE i))) u
    if op = 7 then (t.setMee (d * 2 + i) { t.mee (d * 2 + i) with device := dev }).p d (R.MEE_KEY_STATUS.BUSY i) 1
    else meeEnd t d i 0 0

theorem writeKeyCmd_starts {w : Wr} {d i : Nat} (hd : w.d = d) (hi : w.r.i = i) (hm : w.m.cls = .coreM)
    (hfree : s.on d (R.MEE_KEY_STATUS.BUSY i) = false) (hdev : dev = true → d = s.head ∧ i = 0)
    (hscope : (R.MEE_KEY_CMD.SCOPE 0).of w.raw = dev.toNat) (hu : u = s.p d (R.MEE_KEY_CMD.OWNER i) w.m.rid)
    (hl : l = if dev then u.channels else [d * 2 + i]) :
    writeKeyCmd s w = (keyCmdRun u d i dev ((R.MEE_KEY_CMD.OP 0).of w.raw) ((R.MEE_KEY_CMD.KEYID 0).of w.raw)
      ((R.MEE_KEY_CMD.ARG 0).of w.raw) l).ans .ok := by
  have hscope' : ((R.MEE_KEY_CMD.SCOPE 0).of w.raw == 1) = dev := by rw [hscope]; cases dev <;> rfl
  have htaken : ¬ ((!(w.m.cls == .coreM || w.m.cls == .mgmt) || s.on d (R.MEE_KEY_STATUS.BUSY i) ||
      (dev && !(d == s.head && i == 0))) = true) := by
    rw [hm, hfree]
    cases dev with
    | false => simp
    | true =>
      obtain ⟨hhead, hzero⟩ := hdev rfl
      simp [hhead, hzero]
  subst hd hi hl hu
  unfold writeKeyCmd
  dsimp only
  rw [hscope', if_neg htaken]
  rfl

/-- A key command of one engine, or of every engine as the head die's first gives it, starts while that one is not busy. -/
theorem meePoke_starts (hop : op < 8) (harg : arg < 4) (h : Reaches s m die ⟨.MEE_KEY_CMD, i, 0⟩) (hm : m.cls = .coreM)
    (hfree : s.on die (R.MEE_KEY_STATUS.BUSY i) = false) (hdev : dev = true → die.val = s.head ∧ i = 0)
    (hu : u = s.p die (R.MEE_KEY_CMD.OWNER i) m.rid) (hl : l = if dev then u.channels else [die.val * 2 + i.val]) :
    meePoke s m die i op k arg dev =
      warmCheck ((keyCmdRun u die i dev op k arg l).ans .ok) die (RegRef.off ⟨.MEE_KEY_CMD, i, 0⟩) := by
  obtain ⟨hscope, hop', hk, harg'⟩ := keyCmd_fields (s := s) (die := die) (i := i) (k := k) (dev := dev) hop harg rfl
  have hdev' : dev = true → die.val = s.head ∧ i.val = 0 := fun hd => ⟨(hdev hd).left, congrArg Fin.val (hdev hd).right⟩
  have hw := keyCmd_writable i
  have hrun := writeKeyCmd_starts (w := mkWr s m die ⟨.MEE_KEY_CMD, i, 0⟩ (named s die ⟨.MEE_KEY_CMD, i, 0⟩
    [(R.MEE_KEY_CMD.OP i, op), (R.MEE_KEY_CMD.KEYID i, k.val), (R.MEE_KEY_CMD.ARG i, arg), (R.MEE_KEY_CMD.SCOPE i, dev.toNat)])
    (2 ^ 32 - 1)) rfl rfl hm hfree hdev' hscope hu hl
  simp only [mkWr, hop', hk, harg'] at hrun
  exact (poke_eq (keyCmd_off i) _ _).trans
    (put32_warm_ok h hw.toWritable ((writeFamily_mee hw.block).trans (congrArg (warmCheck · _ _) hrun)))

section
variable {d i k : Nat}

/-- The command ends with the code of the first engine that refuses it. -/
theorem keyCmdRun_refused {c : Nat} (hc : l.find? (fun c => meeCheck u c op k != 0) = some c) :
    keyCmdRun u d i dev op k arg l = meeEnd u d i (meeCheck u c op k) (if dev then c else 0) := by
  simp only [keyCmdRun, hc]

/-- A command that no engine refuses acts on each and ends with OK. -/
theorem keyCmdRun_done (hc : l.find? (fun c => meeCheck u c op k != 0) = none) (h7 : op ≠ 7) : keyCmdRun u d i dev op k arg l =
    meeEnd (l.foldl (fun s c => meeApply s c op k arg (meeKeyData u d i) (u.g d (R.MEE_RK_START.LINE i))
      (u.g d (R.MEE_RK_END.LINE i))) u) d i 0 0 := by
  simp only [keyCmdRun, hc, h7, if_false]

/-- INIT goes on after its command. -/
theorem keyCmdRun_init (hc : l.find? (fun c => meeCheck u c 7 k != 0) = none)
    (ht : t = l.foldl (fun s c => meeApply s c 7 k arg (meeKeyData u d i) (u.g d (R.MEE_RK_START.LINE i))
      (u.g d (R.MEE_RK_END.LINE i))) u) : keyCmdRun u d i dev 7 k arg l =
    (t.setMee (d * 2 + i) { t.mee (d * 2 + i) with device := dev }).p d (R.MEE_KEY_STATUS.BUSY i) 1 := by
  subst ht
  simp only [keyCmdRun, hc, if_true]

end

end

/-- Settles O49: each command is a write of one register, and a key command is judged by the first engine that refuses it. -/
theorem dramCommandsComplete : Obligations.DramCommandsComplete := by
  intro s m die i
  refine ⟨?_, ?_, ?_⟩
  · rintro v r x rfl hx h
    exact exec_ddrEccFlip_taken hx h
  · rintro k v r x u rfl hx rfl h hoff hen
    exact ⟨exec_mapSetEnable_taken hx hoff hen h, exec_mapSetEnable_refused hx hoff hen h⟩
  · rintro k dev r u l key a b fails done ends rfl h hm hfree hdev hu hl rfl rfl rfl rfl rfl rfl
    have hstart : ∀ op arg, op < 8 → arg < 4 → meePoke s m die i op k arg dev =
        warmCheck ((keyCmdRun u die i dev op k arg l).ans .ok) die (RegRef.off ⟨.MEE_KEY_CMD, i, 0⟩) :=
      fun op arg hop harg => meePoke_starts hop harg h hm hfree hdev hu hl
    have hdone : ∀ op, op < 7 → l.find? (fun c => meeCheck u c op k != 0) = none → _ := fun op hop hc =>
      congrArg (Host.Outcome.next (φ := Fault) (ρ := Refusal)) ((hstart op 0 (by omega) (by decide)).trans
        (congrArg (fun t => warmCheck (State.ans t .ok) _ _) (keyCmdRun_done hc (by omega))))
    have hends : ∀ op, op < 7 → ∀ c, l.find? (fun c => meeCheck u c op k != 0) = some c → _ := fun op hop c hc =>
      congrArg (Host.Outcome.next (φ := Fault) (ρ := Refusal)) ((hstart op 0 (by omega) (by decide)).trans
        (congrArg (fun t => warmCheck (State.ans t .ok) _ _) (keyCmdRun_refused hc)))
    refine ⟨hdone 1 (by decide), hends 1 (by decide), hdone 2 (by decide), hends 2 (by decide), hdone 3 (by decide), hends 3 (by decide),
      hdone 4 (by decide), hends 4 (by decide), hdone 5 (by decide), hends 5 (by decide), hdone 6 (by decide), hends 6 (by decide), ?_⟩
    rintro w t x hc ht rfl
    exact congrArg (Host.Outcome.next (φ := Fault) (ρ := Refusal)) ((hstart 7 w (by decide) w.isLt).trans
      (congrArg (fun t => warmCheck (State.ans t .ok) _ _) (keyCmdRun_init hc ht)))

/-! ## The states of KeyIDs (R362) -/

/-- Refutes O50: MEE_KSTATE4 stands at +0x0080, where MEE_RK_CFG stands, too (MEE_KSTATEj is at +0x0070 + 4j for j = 0 to 7), and so do
MEE_KSTATE6 and MEE_KSTATE7 with MEE_RK_START and MEE_RK_END. After reset every KeyID is EMPTY; REKEY of KeyID 9 writes MEE_RK_CFG.KEYID with
9, and KeyID 34, whose state is in bits 10 to 8 of the same word, reads as ACTIVE. -/
theorem not_keyStates : ¬ Obligations.KeyStates := by
  intro h
  have hbefore : kstate State.reset 0 34 = Ks.empty := by decide +kernel
  have hafter : kstate (meeApply State.reset 0 4 9 0 0 0 0) 0 34 = Ks.active := by decide +kernel
  obtain ⟨-, -, -, hother⟩ := h State.reset 0 4 9 0 0 0 0 canonical_reset (by decide) (by decide)
  have hkept := hother 34 (by decide) (by decide) (by decide)
  rw [hbefore, hafter] at hkept
  exact absurd hkept (by decide)

end Sys2Proof.Machine
end

/-! # DRAM at work (R347, R351 to R356, R358, R362, R364) -/

section
set_option Elab.async false
namespace Sys2Proof.Machine

/-! ## Requests (R347, R352) -/

section
variable {s u : State} {q : Req} {ch a j : Nat}

theorem exec_ddrRequest_issued (hshut : s.debugShut q.m = false) (hstops : coreStops s q = none) :
    exec (.ddrRequest q) s = .next (ddrRequest s q) := by
  calc exec (.ddrRequest q) s = .next (s.ifIssued q (fun s => if s.debugShut q.m then s.ans .accessError else ddrRequest s q)) := rfl
    _ = _ := by simp [State.ifIssued, hstops, hshut]

section
variable (hone : q.addr.toNat % 64 + q.size ≤ 64)
  (hdec : decodeAddr s q.m (s.dieOfRid q.m.rid) q.addr.toNat = .dram ch a j)
include hone hdec

theorem ddrRequest_read (hop : q.op = .read) (hroom : (s.dsub (subKey ch a)).reads.length < 64)
    (hjudge : meeJudge s q.m ch a j = (none, u)) : ddrRequest s q = queueRead u ch (a / 64) q := by
  have hfits : ¬ 64 < q.addr.toNat % 64 + q.size := by omega
  have hroom : ¬ 64 ≤ (s.dsub (subKey ch a)).reads.length := by omega
  simp [ddrRequest, hdec, hop, hfits, hroom, hjudge]

theorem ddrRequest_readRefused {r : Resp} (hop : q.op = .read) (hroom : (s.dsub (subKey ch a)).reads.length < 64)
    (hjudge : meeJudge s q.m ch a j = (some r, u)) :
    ddrRequest s q = State.coreSees (u.ans r) q.m (opStores q.op) q.addr.toNat := by
  have hfits : ¬ 64 < q.addr.toNat % 64 + q.size := by omega
  have hroom : ¬ 64 ≤ (s.dsub (subKey ch a)).reads.length := by omega
  simp [ddrRequest, hdec, hop, hfits, hroom, hjudge]

theorem ddrRequest_writeRefused {r : Resp} (hop : q.op = .write) (hroom : (s.dsub (subKey ch a)).writes.length < 64)
    (hjudge : meeJudge s q.m ch a j = (some r, u)) :
    ddrRequest s q = State.coreSees (u.ans r) q.m (opStores q.op) q.addr.toNat := by
  have hfits : ¬ 64 < q.addr.toNat % 64 + q.size := by omega
  have hroom : ¬ 64 ≤ (s.dsub (subKey ch a)).writes.length := by omega
  simp [ddrRequest, hdec, hop, hfits, hroom, hjudge]

/-- A write is queued with its words in their places in the line, unless the counter of its line is used up (R352, R360). -/
theorem ddrRequest_write {x y : List (MWord × Byte)} (hop : q.op = .write) (hroom : (s.dsub (subKey ch a)).writes.length < 64)
    (hx : x = List.replicate (a / 8 % 8) (⟨0, false⟩, 0#8) ++ reqWwords q)
    (hy : y = x ++ List.replicate (8 - x.length) (⟨0, false⟩, 0#8)) (hjudge : meeJudge s q.m ch a j = (none, u))
    (hcount : j = 0 ∨ (dramSees u ch (metaWord u ch a)).word.v.toNat ≠ 2 ^ 64 - 1) : ddrRequest s q =
      (queueWrite u ch (a / 64) { q with data := y.map (fun e => e.1), be := y.map (fun e => e.2) }).ans .ok := by
  have hfits : ¬ 64 < q.addr.toNat % 64 + q.size := by omega
  have hroom : ¬ 64 ≤ (s.dsub (subKey ch a)).writes.length := by omega
  have hcount : ¬ (j ≠ 0 ∧ (dramSees u ch (metaWord u ch a)).word.v.toNat = 2 ^ 64 - 1) := by tauto
  subst hx hy
  unfold ddrRequest
  dsimp only
  rw [hdec]
  dsimp only
  rw [hop, if_neg hfits, if_pos rfl, if_neg hroom, hjudge]
  dsimp only
  rw [if_pos rfl, if_neg hcount]

end

end

/-! ## Service and promotion (R351 to R353) -/

section
variable {s : State} {die : Die} {c sub : Fin 2} {k ch : Nat} {x : DSub} {r : DReq} (hch : ch = die.val * 2 + c) (hk : k = ch * 2 + sub)
  (hx : x = s.dsub k)
include hch hk hx

theorem exec_ddrServe_read (hs : chServes s ch = true) (hc : chClocked s ch = true) (hd : x.drain = false)
    (hr : readChoice s ch x = some r) (hw : x.writes.any (fun y => y.seq == r.seq) = false) :
    exec (.ddrServe die c sub) s = .next (serveRead s ch k r) := by
  subst hch hk hx
  calc exec (.ddrServe die c sub) s = execDdrServe die c sub s := rfl
    _ = _ := by simp only [execDdrServe, hs, hc, Bool.and_self, if_true, hd, Bool.false_eq_true, if_false, hr, hw]

theorem exec_ddrServe_write (hs : chServes s ch = true) (hc : chClocked s ch = true) (hd : x.drain = true)
    (hr : writeChoice s ch x = some r) (hw : x.writes.any (fun y => y.seq == r.seq) = true) :
    exec (.ddrServe die c sub) s = .next (serveWrite s ch k r) := by
  subst hch hk hx
  calc exec (.ddrServe die c sub) s = execDdrServe die c sub s := rfl
    _ = _ := by simp only [execDdrServe, hs, hc, Bool.and_self, if_true, hd, hr, hw]

theorem exec_writeDrainStart_ready (hw : x.writes ≠ []) (h : 48 ≤ x.writes.length ∨ x.reads = []) :
    exec (.writeDrainStart die c sub) s = .next (s.setDsub k { x with drain := true }) := by
  subst hch hk hx
  exact congrArg _ (if_pos ⟨h.imp_right List.isEmpty_iff.mpr, fun he => hw (List.isEmpty_iff.mp he)⟩)

/-- The only waiting request of a subchannel is promoted once it has waited longer than its class's AGE. -/
theorem exec_agePromote_only (hr : x.reads = [r]) (hw : x.writes = []) (hp : r.prom = false)
    (hage : s.g die (R.DDR_AGE.AGE c) / 256 ^ r.cls % 256 ≠ 0) :
    exec (.agePromote die c sub r.seq) s = .next (ddrCnt (s.setDsub k { x with reads := [{ r with prom := true }] }) ch 3) := by
  subst hch hk hx
  calc exec (.agePromote die c sub r.seq) s = execAgePromote die c sub r.seq s := rfl
    _ = _ := by simp [execAgePromote, hr, hw, hp, hage]

end

/-! ## The engines' long operations (R362, R364) -/

section
variable {s u v : State} {die : Die} {c : Fin 2} {ch j l : Nat} (hch : ch = die.val * 2 + c)
include hch

/-- The initialisation of one engine ends, which is the whole command. -/
theorem exec_meeInitDone_alone {w : Nat} (hi : (s.mee ch).init = some (w, j)) (hu : u = initWindow s ch w j)
    (hv : v = u.setMee ch { u.mee ch with init := none }) (hd : (v.mee (v.head * 2)).device = false)
    (hb : v.on die (R.MEE_KEY_STATUS.BUSY c) = true) : exec (.meeInitDone die c) s = .next (meeEnd v die c 0 0) := by
  subst hch hu hv
  calc exec (.meeInitDone die c) s = execMeeInitDone die c s := rfl
    _ = _ := by simp [execMeeInitDone, hi, hd, hb]

/-- What a re-keyed line is stored as: as it was outside every window, and else under the next key with counter 0. -/
theorem exec_rekeyLine_runs (hj : j = s.g die (R.MEE_RK_CFG.KEYID c)) (hl : l = s.g die (R.MEE_RK_BOUND.LINE c))
    (hst : kstate s ch j = Ks.rekeying) (hend : l < s.g die (R.MEE_RK_END.LINE c)) (hs : chServes s ch = true)
    (hc : chClocked s ch = true) (hddr : s.held die (Blk.ddr0 + c) = false) (hmee : s.held die (Blk.mee0 + c) = false)
    (hu : u = serveWrites s ch (l * 64))
    (hstored : (if (protWindow u ch (l * 64)).isSome then
        let (ws, _, _, t) := encRead (ddrCnt u ch 0) (u.parserMaster die) ch (l * 64) j
        encStore (ddrCnt t ch 1) ch (l * 64) j 0 (nextKey t ch j) ws
      else u) = v) :
    exec (.rekeyLine die c) s = .next (rekeyEnd (meeCnt (v.p die (R.MEE_RK_BOUND.LINE c) (l + 1)) ch 4) ch j) := by
  subst hch hj hl hu hstored
  exact congrArg _ (if_pos ⟨hst, hend, hs, hc, hddr, hmee⟩)

end

/-- Settles O51: each event has the effect of the branch that its hypotheses select. -/
theorem dramEventsComplete : Obligations.DramEventsComplete := by
  intro s die c sub k ch x hch hk hx
  refine ⟨?_, fun hs hc => ⟨?_, ?_⟩, exec_writeDrainStart_ready hch hk hx, fun r => exec_agePromote_only hch hk hx,
    fun hst => ⟨fun t => congrArg _ (if_pos hst), congrArg _ (if_pos hst)⟩, fun hst => ⟨?_, ?_⟩, ?_, ?_⟩
  · rintro q a j u sees hshut hstops hone hdec rfl
    rw [exec_ddrRequest_issued hshut hstops]
    refine ⟨fun hop hroom => ⟨fun hj => ?_, fun r hj => ?_⟩, fun x y hop hroom hx hy => ⟨fun hj hcount => ?_, fun r hj => ?_⟩⟩
    · exact congrArg _ (ddrRequest_read hone hdec hop hroom hj)
    · exact congrArg _ (ddrRequest_readRefused hone hdec hop hroom hj)
    · exact congrArg _ (ddrRequest_write hone hdec hop hroom hx hy hj hcount)
    · exact congrArg _ (ddrRequest_writeRefused hone hdec hop hroom hj)
  · exact fun r => exec_ddrServe_read hch hk hx hs hc
  · exact fun r => exec_ddrServe_write hch hk hx hs hc
  · rintro u rfl
    subst hch
    exact congrArg _ (if_pos hst)
  · intro t ht
    subst hch
    exact congrArg _ (if_pos ⟨hst, ht⟩)
  · exact fun w j u v => exec_meeInitDone_alone hch
  · intro j l u hj hl hst hend hs hc hddr hmee hu
    have hruns := fun v => exec_rekeyLine_runs (v := v) hch hj hl hst hend hs hc hddr hmee hu
    refine ⟨fun hwin => hruns u (by simp [hwin]), fun ws p q v hwin hread t ht => hruns t ?_⟩
    rw [if_pos hwin, hread]
    exact ht.symm

end Sys2Proof.Machine
end

/-! # Serial lanes as software drives them (R369, R377, R380 to R384, R386) -/

section
set_option Elab.async false
namespace Sys2Proof.Machine

section
variable {s t : State} {m : Master} {d : Nat} {r : RegRef}

theorem writeFamily_lan {raw mask : Nat} (hb : r.block = some .LAN) :
    writeFamily s (mkWr s m d r raw mask) = writeLan s (mkWr s m d r raw mask) := by
  unfold writeFamily
  simp only [mkWr, hb]

/-- A 32-bit write that the LAN block accepts. -/
theorem put32_lan {x : Word} (h : Reaches s m d r) (hr : WritableIn .LAN r)
    (hw : writeLan s (mkWr s m d r x.toNat (2 ^ 32 - 1)) = t.ans .ok) : put32 s m d r.off x.toNat = t.ans .ok :=
  put32_word_ok h hr.toWritable ((writeFamily_lan hr.block).trans hw)

/-- A command that names fields of a LAN register, which the LAN block accepts. -/
theorem poke_lan {f : Fld} {x : Nat} {l : List (Fld × Nat)} (h : Reaches s m d r) (hr : WritableIn .LAN r) (hf : f.off = r.off)
    (hw : writeLan s (mkWr s m d r (named s d r ((f, x) :: l)) (2 ^ 32 - 1)) = t.ans .ok) : poke s m d ((f, x) :: l) = t.ans .ok :=
  poke_ok h hr.toWritable hf ((writeFamily_lan hr.block).trans hw)

/-- A field of one bit is 0 where it is not 1. -/
theorem Fld.of_flag_zero {f : Fld} {x : Nat} (hw : f.w = 1) (h : (f.of x == 1) = false) : f.of x = 0 := by
  have hlt : f.of x < 2 ^ f.w := Nat.mod_lt _ (Nat.two_pow_pos _)
  have hne : f.of x ≠ 1 := by simpa using h
  rw [hw] at hlt
  omega

theorem Fld.of_flag_lt {f : Fld} {x : Nat} (hw : f.w = 1) : f.of x < 2 := by
  have hlt : f.of x < 2 ^ f.w := Nat.mod_lt _ (Nat.two_pow_pos _)
  rwa [hw] at hlt

/-- A field of one bit, written back from the truth it stands for. -/
theorem Fld.flag_ofBool {f : Fld} {x : Nat} (hw : f.w = 1) : (if (f.of x == 1) = true then 1 else 0) = f.of x := by
  cases h : f.of x == 1 with
  | true => exact (beq_iff_eq.mp h).symm
  | false => exact (Fld.of_flag_zero hw h).symm

end

/-! ## PLL settings (R369) -/

theorem qpllA_writable : ∀ q : Fin 8, WritableIn .LAN ⟨.LAN_QPLLA, q, 0⟩ := by
  unfold WritableIn
  decide

theorem qpllB_writable : ∀ q : Fin 8, WritableIn .LAN ⟨.LAN_QPLLB, q, 0⟩ := by
  unfold WritableIn
  decide

theorem qpllA_high : ∀ q : Fin 8, RegRef.off ⟨.LAN_QPLLA, q, 0⟩ % 8 = 0 ∧
    regAt (RegRef.off ⟨.LAN_QPLLA, q, 0⟩ + 4) = some ⟨.LAN_QPLLA, q, 0⟩ := by
  decide

theorem qpllB_high : ∀ q : Fin 8, RegRef.off ⟨.LAN_QPLLB, q, 0⟩ % 8 = 0 ∧
    regAt (RegRef.off ⟨.LAN_QPLLB, q, 0⟩ + 4) = some ⟨.LAN_QPLLB, q, 0⟩ := by
  decide

theorem qpllA_off (q : Nat) : (R.LAN_QPLLA.EN q).off = RegRef.off ⟨.LAN_QPLLA, q, 0⟩ := regOff_index _ rfl rfl

theorem qpllB_off (q : Nat) : (R.LAN_QPLLA.EN q).off + 8 = RegRef.off ⟨.LAN_QPLLB, q, 0⟩ := by
  rw [← regOff_index (base := 0x500808) (stride := 16384) q rfl rfl]
  simp only [R.LAN_QPLLA.EN]
  omega

section
variable {s : State} {m : Master} {die : Die} {q : Fin 8} {r : RegRef} {pll : Nat} {v : DWord}

/-- A PLL that no lane of its quad runs on takes settings within the limits; a change of them takes its lock away. -/
theorem writeQpll_free {w : Wr} (hok : qpllOk (s.qclk w.d w.r.i) ((R.LAN_QPLLA.INT 0).of w.new) ((R.LAN_QPLLA.FRAC 0).of w.new) = true)
    (hfree : ∀ i : Fin 4, laneUsesPll s w.d (4 * w.r.i + i) pll = false) : writeQpll s w pll =
      (if w.new = w.old then s.setReg w.d w.r w.new else (s.setReg w.d w.r w.new).p w.d (qpllLock pll w.r.i) 0).ans .ok := by
  have hused : (List.range 4).any (fun i => laneUsesPll s w.d (4 * w.r.i + i) pll) = false := by
    refine List.any_eq_false.mpr fun i hi => ?_
    simpa using hfree ⟨i, List.mem_range.mp hi⟩
  unfold writeQpll
  dsimp only
  rw [hused, hok, if_pos (by simp)]

theorem put64_qpll (h : Reaches s m die r) (hr : WritableIn .LAN r) (hp : r.id.info.pair = true)
    (hhigh : r.off % 8 = 0 ∧ regAt (r.off + 4) = some r)
    (hw : ∀ w, w.r = r → writeLan s w = writeQpll s w pll)
    (hok : qpllOk (s.qclk die r.i) ((R.LAN_QPLLA.INT 0).of (r.id.info.merge (s.reg die r) v.toNat (2 ^ 64 - 1)))
      ((R.LAN_QPLLA.FRAC 0).of (r.id.info.merge (s.reg die r) v.toNat (2 ^ 64 - 1))) = true)
    (hfree : ∀ i : Fin 4, laneUsesPll s die (4 * r.i + i) pll = false) : put64 s m die r.off v.toNat =
      (if r.id.info.merge (s.reg die r) v.toNat (2 ^ 64 - 1) = s.reg die r then
        s.setReg die r (r.id.info.merge (s.reg die r) v.toNat (2 ^ 64 - 1))
      else (s.setReg die r (r.id.info.merge (s.reg die r) v.toNat (2 ^ 64 - 1))).p die (qpllLock pll r.i) 0).ans .ok := by
  obtain ⟨haligned, hregAt⟩ := hhigh
  have hb := hr.block
  refine put64_ok h hr.toWritable hp haligned
    (regOn_of_regAt hregAt (by rw [hb]; exact fun h => Block.noConfusion (Option.some.inj h))
      (by rw [hb]; exact fun h => Block.noConfusion (Option.some.inj h))) ?_
  rw [writeFamily_lan hb, Nat.mod_eq_of_lt v.isLt]
  exact (hw _ rfl).trans (writeQpll_free (w := mkWr s m die r v.toNat (2 ^ 64 - 1)) hok hfree)

end

/-! ## Lanes on, off and restarted (R377) -/

theorem lanCtrl_writable : ∀ n : Fin 32, WritableIn .LAN ⟨.LAN_CTRL, n, 0⟩ := by
  unfold WritableIn
  decide

theorem lanCtrl_off (n : Nat) : (R.LAN_CTRL.ENABLE n).off = RegRef.off ⟨.LAN_CTRL, n, 0⟩ := regOff_index _ rfl rfl

section
variable {s t : State} {m : Master} {die : Die} {n : Fin 32} {x : Nat} {w : Wr}

/-- What a write of LAN_CTRLn does to a lane that is the port engine's and free to move. -/
theorem writeLanCtrl_free (hw : w.d = die ∧ w.r = ⟨.LAN_CTRL, n, 0⟩) (ht : t = s.setReg die ⟨.LAN_CTRL, n, 0⟩ w.new)
    (hours : lanesOurs t die = true) (hbyp : laneInBypass t die n = false) (hidle : (t.pair die (n / 2)).idle = none)
    (hsleep : (R.LAN_CTRL.SLEEP 0).of w.new ≠ 3) : writeLanCtrl s w =
      (if (R.LAN_CTRL.ENABLE 0).of w.new = 0 ∧ (R.LAN_CTRL.ENABLE 0).of w.old = 1 then laneGo t die n Ln.off .stay
      else if (R.LAN_CTRL.ENABLE 0).of w.new = 1 ∧ (R.LAN_CTRL.ENABLE 0).of w.old = 0 then laneRestart t die n
      else if ((R.LAN_CTRL.RESTART 0).of w.raw == 1) = true ∧ (R.LAN_CTRL.ENABLE 0).of w.new = 1 ∧
          (!(laneState t die n == Ln.idle && (t.lane die n).idle == .start)) = true then laneRestart t die n else t).ans .ok := by
  obtain ⟨hd, hr⟩ := hw
  subst ht
  unfold writeLanCtrl
  dsimp only
  rw [hd, hr, if_neg hsleep, hours, hbyp, hidle]
  rw [if_neg (by simp)]

theorem of_laneEnable : (R.LAN_CTRL.ENABLE 0).of (s.reg die ⟨.LAN_CTRL, n, 0⟩) = s.g die (R.LAN_CTRL.ENABLE n) :=
  s.of_reg die (lanCtrl_off n) (Nat.le_of_ble_eq_true rfl)

theorem laneEnable_kept : (R.LAN_CTRL.ENABLE 0).of (RegId.LAN_CTRL.info.rw ||| RegId.LAN_CTRL.info.rws) = 2 ^ (R.LAN_CTRL.ENABLE 0).w - 1 := by
  decide

theorem laneSleep_kept : (R.LAN_CTRL.SLEEP 0).of (RegId.LAN_CTRL.info.rw ||| RegId.LAN_CTRL.info.rws) = 2 ^ (R.LAN_CTRL.SLEEP 0).w - 1 := by
  decide

section
variable (h : Reaches s m die ⟨.LAN_CTRL, n, 0⟩) (ht : t = s.setReg die ⟨.LAN_CTRL, n, 0⟩ x) (hours : lanesOurs t die = true)
  (hbyp : laneInBypass t die n = false) (hidle : (t.pair die (n / 2)).idle = none)
include h ht hours hbyp hidle

theorem exec_laneEnable_on {v : Word} (hx : x = written s die ⟨.LAN_CTRL, n, 0⟩ v.toNat) (hsleep : (R.LAN_CTRL.SLEEP 0).of x ≠ 3)
    (hon : (R.LAN_CTRL.ENABLE 0).of x = 1) (hwas : s.on die (R.LAN_CTRL.ENABLE n) = false) :
    exec (.laneEnable m die n v) s = .next ((laneRestart t die n).ans .ok) := by
  subst hx
  have hold := Fld.of_flag_zero (f := R.LAN_CTRL.ENABLE 0) rfl (by rw [of_laneEnable]; exact hwas)
  have htaken := writeLanCtrl_free (w := mkWr s m die ⟨.LAN_CTRL, n, 0⟩ v.toNat (2 ^ 32 - 1)) ⟨rfl, rfl⟩ ht hours hbyp hidle hsleep
  rw [if_neg (fun hoff => by have := hoff.1.symm.trans hon; omega), if_pos ⟨hon, hold⟩] at htaken
  have hput := put32_lan h (lanCtrl_writable n) htaken
  rw [← lanCtrl_off] at hput
  exact congrArg _ hput

theorem exec_laneEnable_off {v : Word} (hx : x = written s die ⟨.LAN_CTRL, n, 0⟩ v.toNat) (hsleep : (R.LAN_CTRL.SLEEP 0).of x ≠ 3)
    (hoff : (R.LAN_CTRL.ENABLE 0).of x = 0) (hwas : s.on die (R.LAN_CTRL.ENABLE n) = true) :
    exec (.laneEnable m die n v) s = .next ((laneGo t die n Ln.off .stay).ans .ok) := by
  subst hx
  have hold : (R.LAN_CTRL.ENABLE 0).of (s.reg die ⟨.LAN_CTRL, n, 0⟩) = 1 := by
    rw [of_laneEnable]
    exact beq_iff_eq.mp hwas
  have htaken := writeLanCtrl_free (w := mkWr s m die ⟨.LAN_CTRL, n, 0⟩ v.toNat (2 ^ 32 - 1)) ⟨rfl, rfl⟩ ht hours hbyp hidle hsleep
  rw [if_pos ⟨hoff, hold⟩] at htaken
  have hput := put32_lan h (lanCtrl_writable n) htaken
  rw [← lanCtrl_off] at hput
  exact congrArg _ hput

theorem exec_laneRestart (hx : x = written s die ⟨.LAN_CTRL, n, 0⟩ (named s die ⟨.LAN_CTRL, n, 0⟩ [(R.LAN_CTRL.RESTART n, 1)]))
    (hsleep : s.g die (R.LAN_CTRL.SLEEP n) ≠ 3) (hon : s.on die (R.LAN_CTRL.ENABLE n) = true)
    (hmoved : laneState t die n ≠ Ln.idle ∨ (t.lane die n).idle ≠ .start) :
    exec (.laneRestart m die n) s = .next ((laneRestart t die n).ans .ok) := by
  have hnamed : named s die ⟨.LAN_CTRL, n, 0⟩ [(R.LAN_CTRL.RESTART n, 1)] = named s die ⟨.LAN_CTRL, n, 0⟩ [(R.LAN_CTRL.RESTART 0, 1)] :=
    named_congr (by simp only [List.map, R.LAN_CTRL.RESTART])
  have hrestart : (R.LAN_CTRL.RESTART 0).of (named s die ⟨.LAN_CTRL, n, 0⟩ [(R.LAN_CTRL.RESTART n, 1)]) = 1 := by
    rw [hnamed]
    exact of_named_same (Nat.le_of_ble_eq_true rfl) rfl rfl (by decide)
  have hnew : (R.LAN_CTRL.ENABLE 0).of x = 1 := by
    rw [hx, written, merge_taken RegId.LAN_CTRL.info _ _ _ _ (by decide) (by decide), hnamed, of_named_other (by decide) (by decide)]
    exact (h.of_keptFields (f := R.LAN_CTRL.ENABLE n) (lanCtrl_off n) (Nat.le_of_ble_eq_true rfl) laneEnable_kept).trans (beq_iff_eq.mp hon)
  have hsleepNew : (R.LAN_CTRL.SLEEP 0).of x ≠ 3 := by
    rw [hx, written, merge_taken RegId.LAN_CTRL.info _ _ _ _ (by decide) (by decide), hnamed, of_named_other (by decide) (by decide)]
    have hkept := h.of_keptFields (f := R.LAN_CTRL.SLEEP n) (lanCtrl_off n) (Nat.le_of_ble_eq_true rfl) laneSleep_kept
    exact fun h3 => hsleep (hkept.symm.trans h3)
  have hold : (R.LAN_CTRL.ENABLE 0).of (s.reg die ⟨.LAN_CTRL, n, 0⟩) = 1 := by
    rw [of_laneEnable]
    exact beq_iff_eq.mp hon
  have hgo : (!(laneState t die n == Ln.idle && (t.lane die n).idle == .start)) = true := by
    rw [Bool.not_eq_true', Bool.and_eq_false_iff, beq_eq_false_iff_ne, beq_eq_false_iff_ne]
    exact hmoved
  subst hx
  have htaken := writeLanCtrl_free
    (w := mkWr s m die ⟨.LAN_CTRL, n, 0⟩ (named s die ⟨.LAN_CTRL, n, 0⟩ [(R.LAN_CTRL.RESTART n, 1)]) (2 ^ 32 - 1)) ⟨rfl, rfl⟩ ht hours hbyp
    hidle hsleepNew
  rw [if_neg (fun hoff => by have := hoff.1.symm.trans hnew; omega), if_neg (fun hon => by have := hon.2.symm.trans hold; omega),
    if_pos ⟨beq_iff_eq.mpr hrestart, hnew, hgo⟩] at htaken
  exact congrArg _ (poke_lan (f := R.LAN_CTRL.RESTART n) h (lanCtrl_writable n) (lanCtrl_off n) htaken)

end

end

/-! ## Re-adaptation and eye scans (R380, R382) -/

theorem lanAdapt_writable : ∀ n : Fin 32, WritableIn .LAN ⟨.LAN_ADAPT_CFG, n, 0⟩ := by
  unfold WritableIn
  decide

theorem lanAdapt_off (n : Nat) : (R.LAN_ADAPT_CFG.READAPT n).off = RegRef.off ⟨.LAN_ADAPT_CFG, n, 0⟩ := regOff_index _ rfl rfl

theorem eyeCtrl_writable : ∀ n : Fin 32, WritableIn .LAN ⟨.LAN_EYE_CTRL, n, 0⟩ := by
  unfold WritableIn
  decide

theorem eyeCtrl_off (n : Nat) : (R.LAN_EYE_CTRL.START n).off = RegRef.off ⟨.LAN_EYE_CTRL, n, 0⟩ := regOff_index _ rfl rfl

section
variable {s t : State} {m : Master} {die : Die} {n : Fin 32} {x : Nat} {w : Wr}

/-- A re-adaptation starts at a lane that receives data, with no user scan to pause. -/
theorem startReadapt_idle {d k : Nat} (hlive : laneLive t d k = true) (hfree : (t.lane d k).readapt = false)
    (hbusy : t.on d (R.LAN_EYE_RESULT.BUSY k) = false) :
    startReadapt t d k = t.setLane d k { t.lane d k with readapt := true, low := 0 } := by
  have hbusy' : (t.setLane d k { t.lane d k with readapt := true, low := 0 }).on d (R.LAN_EYE_RESULT.BUSY k) = false := hbusy
  unfold startReadapt
  dsimp only
  rw [hlive, hfree, if_pos (by decide), hbusy']
  exact if_neg Bool.false_ne_true

theorem exec_readapt (h : Reaches s m die ⟨.LAN_ADAPT_CFG, n, 0⟩) (ht : t = s.setReg die ⟨.LAN_ADAPT_CFG, n, 0⟩ x)
    (hx : x = written s die ⟨.LAN_ADAPT_CFG, n, 0⟩ (named s die ⟨.LAN_ADAPT_CFG, n, 0⟩ [(R.LAN_ADAPT_CFG.READAPT n, 1)]))
    (hlive : laneLive t die n = true) (hfree : (t.lane die n).readapt = false) (hbusy : t.on die (R.LAN_EYE_RESULT.BUSY n) = false) :
    exec (.readapt m die n) s = .next ((t.setLane die n { t.lane die n with readapt := true, low := 0 }).ans .ok) := by
  have hread : (R.LAN_ADAPT_CFG.READAPT 0).of (named s die ⟨.LAN_ADAPT_CFG, n, 0⟩ [(R.LAN_ADAPT_CFG.READAPT n, 1)]) = 1 := by
    rw [named_congr (l' := [(R.LAN_ADAPT_CFG.READAPT 0, 1)]) (by simp only [List.map, R.LAN_ADAPT_CFG.READAPT])]
    exact of_named_same (Nat.le_of_ble_eq_true rfl) rfl rfl (by decide)
  have hstart := startReadapt_idle hlive hfree hbusy
  subst hx ht
  refine congrArg _ (poke_lan (f := R.LAN_ADAPT_CFG.READAPT n) h (lanAdapt_writable n) (lanAdapt_off n) ?_)
  refine Eq.trans (congrArg (State.ans · .ok) (if_pos hread)) ?_
  exact congrArg (State.ans · .ok) hstart

theorem exec_eyeScanStart {v : Word} (h : Reaches s m die ⟨.LAN_EYE_CTRL, n, 0⟩) (hx : x = written s die ⟨.LAN_EYE_CTRL, n, 0⟩ v.toNat)
    (ht : t = s.setReg die ⟨.LAN_EYE_CTRL, n, 0⟩ x) (hlo : 20 ≤ (R.LAN_EYE_CTRL.DWELL_LOG2 0).of x)
    (hhi : (R.LAN_EYE_CTRL.DWELL_LOG2 0).of x ≤ 40) (hstart : (R.LAN_EYE_CTRL.START 0).of v.toNat = 1)
    (hbusy : s.on die (R.LAN_EYE_RESULT.BUSY n) = false) (hlive : laneLive s die n = true) : exec (.eyeScanStart m die n v) s =
      .next (((t.p die (R.LAN_EYE_RESULT.BUSY n) 1).p die (R.LAN_EYE_RESULT.STATUS n) (if (t.lane die n).readapt then 1 else 0)).ans .ok) := by
  subst hx ht
  have htaken : writeEyeCtrl s (mkWr s m die ⟨.LAN_EYE_CTRL, n, 0⟩ v.toNat (2 ^ 32 - 1)) =
      ((((s.setReg die ⟨.LAN_EYE_CTRL, n, 0⟩ (written s die ⟨.LAN_EYE_CTRL, n, 0⟩ v.toNat)).p die (R.LAN_EYE_RESULT.BUSY n) 1).p die
        (R.LAN_EYE_RESULT.STATUS n) (if ((s.setReg die ⟨.LAN_EYE_CTRL, n, 0⟩ (written s die ⟨.LAN_EYE_CTRL, n, 0⟩ v.toNat)).lane die
          n).readapt then 1 else 0)).ans .ok) := by
    unfold writeEyeCtrl mkWr
    dsimp only
    rw [hstart, hbusy, hlive, if_neg]
    · rfl
    · rintro (h | h | ⟨-, h | h⟩)
      · exact absurd hlo (Nat.not_le.mpr h)
      · exact absurd hhi (Nat.not_le.mpr h)
      · exact Bool.false_ne_true h
      · exact Bool.false_ne_true h.symm
  have hput := put32_lan h (eyeCtrl_writable n) htaken
  rw [← eyeCtrl_off] at hput
  exact congrArg _ hput

end

/-! ## Bypass pairs (R384) -/

theorem lanPair_writable : ∀ k : Fin 16, WritableIn .LAN ⟨.LAN_PAIR, k, 0⟩ := by
  unfold WritableIn
  decide

theorem lanPair_off (k : Nat) : (R.LAN_PAIR.BYPASS k).off = RegRef.off ⟨.LAN_PAIR, k, 0⟩ := regOff_index _ rfl rfl

section
variable {s t : State} {m : Master} {die : Die} {k : Fin 16} {x : Nat} {v : Word}

/-- A write of LAN_PAIRk requests what its BYPASS says. -/
theorem exec_pairBypassWrite (h : Reaches s m die ⟨.LAN_PAIR, k, 0⟩) (hx : x = written s die ⟨.LAN_PAIR, k, 0⟩ v.toNat) :
    exec (.pairBypassWrite m die k v) s = .next ((pairRequest (s.p die (R.LAN_PAIR.SLEEP_BYPASS k)
      ((R.LAN_PAIR.SLEEP_BYPASS 0).of x)) die k ((R.LAN_PAIR.BYPASS 0).of x == 1)).ans .ok) := by
  subst hx
  have htaken : writeLanPair s (mkWr s m die ⟨.LAN_PAIR, k, 0⟩ v.toNat (2 ^ 32 - 1)) = (pairRequest (s.p die (R.LAN_PAIR.SLEEP_BYPASS k)
      ((R.LAN_PAIR.SLEEP_BYPASS 0).of (written s die ⟨.LAN_PAIR, k, 0⟩ v.toNat))) die k
      ((R.LAN_PAIR.BYPASS 0).of (written s die ⟨.LAN_PAIR, k, 0⟩ v.toNat) == 1)).ans .ok := if_pos (show (2 ^ 32 - 1) % 2 = 1 by decide)
  have hput := put32_lan h (lanPair_writable k) htaken
  rw [← lanPair_off] at hput
  exact congrArg _ hput

section
variable (ht : t = (s.p die (R.LAN_PAIR.SLEEP_BYPASS k) ((R.LAN_PAIR.SLEEP_BYPASS 0).of x)).p die (R.LAN_PAIR.BYPASS k)
  ((R.LAN_PAIR.BYPASS 0).of x))
include ht

theorem pairRequest_latched {y : Bool} (hidle : (t.pair die k).idle = some y) :
    pairRequest (s.p die (R.LAN_PAIR.SLEEP_BYPASS k) ((R.LAN_PAIR.SLEEP_BYPASS 0).of x)) die k ((R.LAN_PAIR.BYPASS 0).of x == 1) =
      t.setPair die k { t.pair die k with latched := some ((R.LAN_PAIR.BYPASS 0).of x == 1) } := by
  unfold pairRequest
  dsimp only
  rw [Fld.flag_ofBool rfl, ← ht, hidle]
  exact if_pos rfl

theorem pairRequest_change (hidle : (t.pair die k).idle = none)
    (hnew : ((R.LAN_PAIR.BYPASS 0).of x == 1) ≠ t.on die (R.LAN_PAIR.ACTIVE k)) :
    pairRequest (s.p die (R.LAN_PAIR.SLEEP_BYPASS k) ((R.LAN_PAIR.SLEEP_BYPASS 0).of x)) die k ((R.LAN_PAIR.BYPASS 0).of x == 1) =
      pairIdle t die k ((R.LAN_PAIR.BYPASS 0).of x == 1) := by
  unfold pairRequest
  dsimp only
  rw [Fld.flag_ofBool rfl, ← ht, hidle, if_neg (by decide), if_neg hnew]

end

end

/-! ## Test patterns (R386) -/

theorem lanPrbs_writable : ∀ n : Fin 32, WritableIn .LAN ⟨.LAN_PRBS, n, 0⟩ := by
  unfold WritableIn
  decide

theorem lanPrbs_off (n : Nat) : (R.LAN_PRBS.GEN n).off = RegRef.off ⟨.LAN_PRBS, n, 0⟩ := regOff_index _ rfl rfl

theorem exec_prbsWrite {s t u : State} {m : Master} {die : Die} {n : Fin 32} {x : Nat} {v : Word} (h : Reaches s m die ⟨.LAN_PRBS, n, 0⟩)
    (hx : x = written s die ⟨.LAN_PRBS, n, 0⟩ v.toNat) (ht : t = s.setReg die ⟨.LAN_PRBS, n, 0⟩ x) (hpat : (R.LAN_PRBS.PATTERN 0).of x < 5)
    (hbyp : laneState s die n ≠ Ln.bypass) (hu : u = (if (R.LAN_PRBS.CHK 0).of x = 0 then t.p die (R.LAN_PRBS.CHK_LOCK n) 0 else t)) :
    exec (.prbsWrite m die n v) s =
      .next ((if (R.LAN_PRBS.GEN 0).of x = 1 ∧ laneState u die n = Ln.up then laneRestart u die n else portRefresh u die n).ans .ok) := by
  subst hx ht hu
  have hput := put32_lan h (lanPrbs_writable n) (x := v) (if_neg (by
    rintro (h | h | ⟨h, -⟩)
    · exact absurd (h ▸ hpat : 7 < 5) (by decide)
    · exact hbyp h
    · exact absurd hpat (Nat.not_lt.mpr h)))
  rw [← lanPrbs_off] at hput
  exact congrArg _ hput

/-- Settles O52: each write of a LAN register is one that its family takes, with its one effect on the lane or the PLL. -/
theorem laneCommandsComplete : Obligations.LaneCommandsComplete := by
  refine fun s t m die n x => ⟨?_, ?_, fun h ht => exec_readapt h ht, fun v h hx ht => exec_eyeScanStart h hx ht, fun k v h hx ht => ⟨?_, ?_⟩,
    fun v u h hx ht => exec_prbsWrite h hx ht⟩
  · intro q pll v r hr h hx ht hok hfree
    match pll with
    | 0 =>
      obtain rfl : r = ⟨.LAN_QPLLA, q, 0⟩ := hr.trans (if_pos rfl)
      subst hx ht
      have hput := put64_qpll (v := v) h (qpllA_writable q) rfl (qpllA_high q) (fun w hw => by unfold writeLan; rw [hw]; rfl) hok hfree
      rw [← qpllA_off] at hput
      exact congrArg _ hput
    | 1 =>
      obtain rfl : r = ⟨.LAN_QPLLB, q, 0⟩ := hr.trans (if_neg (by decide))
      subst hx ht
      have hput := put64_qpll (v := v) h (qpllB_writable q) rfl (qpllB_high q) (fun w hw => by unfold writeLan; rw [hw]; rfl) hok hfree
      rw [← qpllB_off] at hput
      exact congrArg _ hput
  · intro h ht hours hbyp hidle
    exact ⟨fun v hx hsleep => ⟨exec_laneEnable_on h ht hours hbyp hidle hx hsleep, exec_laneEnable_off h ht hours hbyp hidle hx hsleep⟩,
      fun hx => exec_laneRestart h ht hours hbyp hidle hx⟩
  · intro y hidle
    rw [exec_pairBypassWrite h hx, pairRequest_latched ht hidle]
  · intro hidle hnew
    rw [exec_pairBypassWrite h hx, pairRequest_change ht hidle hnew]

end Sys2Proof.Machine
end

/-! # What happens at the serial lanes (R369, R373, R375 to R384) -/

section
set_option Elab.async false
namespace Sys2Proof.Machine

/-! ## What moving a lane leaves of the others (R377) -/

/-- The cell lies in the page of a lane of die `d` other than `n`. -/
def BesideLane (d n k : Nat) : Prop :=
  k / 2 ^ 21 = d ∧ 0x500 ≤ k % 2 ^ 21 / 512 ∧ k % 2 ^ 21 / 512 < 0x520 ∧ k % 2 ^ 21 / 512 ≠ 0x500 + n

theorem besideLane_cellKey {d n i c : Nat} (hi : i < 32) (hne : i ≠ n) (hc : c < 4096) :
    BesideLane d n (cellKey d (0x500000 + c + 4096 * i)) := by
  unfold BesideLane
  rw [cellKey_die (by omega), cellKey_offset (by omega)]
  omega

theorem not_besideLane_ownPage {d d' n off : Nat} (h : off / 4096 = 0x500 + n) (hn : n < 32) : ¬ BesideLane d n (cellKey d' off) := by
  rintro ⟨-, -, -, hpage⟩
  rw [cellKey_offset (by omega)] at hpage
  omega

theorem not_besideLane_otherBlock {d d' n off : Nat} (h : off < 0x500000 ∨ 0x520000 ≤ off) (ho : off < 2 ^ 24) :
    ¬ BesideLane d n (cellKey d' off) := by
  rintro ⟨-, hlo, hhi, -⟩
  rw [cellKey_offset ho] at hlo hhi
  omega

/-- State `s` leaves the lanes of die `d` other than `n` as they are in `o`. -/
structure OtherLanes (d n : Nat) (o s : State) : Prop where
  cells : ∀ k, BesideLane d n k → s.cell k = o.cell k
  lanes : ∀ i, i ≠ n → s.lane d i = o.lane d i

section
variable {o s t : State} {d n : Nat}

theorem State.lane_congr (h : s.lan = o.lan) (i : Nat) : s.lane d i = o.lane d i := by
  unfold State.lane
  rw [h]

theorem State.cell_congr (h : s.rf = o.rf) (k : Nat) : s.cell k = o.cell k := by
  unfold State.cell
  rw [h]

theorem OtherLanes.refl (s : State) : OtherLanes d n s s := ⟨fun _ _ => rfl, fun _ _ => rfl⟩

theorem OtherLanes.ite {c : Prop} [Decidable c] (ht : OtherLanes d n o t) (hs : OtherLanes d n o s) :
    OtherLanes d n o (if c then t else s) := by
  split
  · exact ht
  · exact hs

theorem OtherLanes.when {c : Prop} [Decidable c] (ht : OtherLanes d n o s → OtherLanes d n o t) (h : OtherLanes d n o s) :
    OtherLanes d n o (if c then t else s) := .ite (ht h) h

theorem OtherLanes.unless {c : Prop} [Decidable c] (ht : OtherLanes d n o s → OtherLanes d n o t) (h : OtherLanes d n o s) :
    OtherLanes d n o (if c then s else t) := .ite h (ht h)

theorem OtherLanes.foldl {α : Type} {f : State → α → State} (hf : ∀ t x, OtherLanes d n o t → OtherLanes d n o (f t x)) (l : List α)
    (h : OtherLanes d n o s) : OtherLanes d n o (l.foldl f s) := by
  induction l generalizing s with
  | nil => exact h
  | cons x l ih => exact ih (hf s x h)

theorem OtherLanes.p {d' v : Nat} {f : Fld} (hk : ¬ BesideLane d n (cellKey d' f.off)) (h : OtherLanes d n o s) :
    OtherLanes d n o (s.p d' f v) :=
  ⟨fun k hb => (State.cell_p_other s d' f v k (fun e => hk (e ▸ hb))).trans (h.cells k hb),
    fun i hi => (State.lane_congr (s.p_lan d' f v) i).trans (h.lanes i hi)⟩

/-- A field in the lane's own page. -/
theorem OtherLanes.p_own {v : Nat} {f : Fld} (hn : n < 32) (hf : f.off / 4096 = 0x500 + n) (h : OtherLanes d n o s) :
    OtherLanes d n o (s.p d f v) := h.p (not_besideLane_ownPage hf hn)

/-- A field of another block. -/
theorem OtherLanes.p_far {d' v : Nat} {f : Fld} (hf : f.off < 0x500000 ∨ 0x520000 ≤ f.off) (ho : f.off < 2 ^ 24)
    (h : OtherLanes d n o s) : OtherLanes d n o (s.p d' f v) := h.p (not_besideLane_otherBlock hf ho)

/-- A field of the clock block. -/
theorem OtherLanes.p_low {d' v : Nat} {f : Fld} (hf : f.off < 0x500000) (h : OtherLanes d n o s) : OtherLanes d n o (s.p d' f v) :=
  h.p_far (.inl hf) (by omega)

theorem OtherLanes.setLane {x : LaneSt} (h : OtherLanes d n o s) : OtherLanes d n o (s.setLane d n x) :=
  ⟨fun k hb => (State.cell_congr (s.setLane_rf d n x) k).trans (h.cells k hb), fun i hi => (SMap.get_set_other _ _ _ _ _ (by omega)).trans (h.lanes i hi)⟩

theorem OtherLanes.setClk {d' : Nat} {c : ClkSt} (h : OtherLanes d n o s) : OtherLanes d n o (s.setClk d' c) :=
  ⟨fun k hb => (State.cell_congr (s.setClk_rf d' c) k).trans (h.cells k hb),
    fun i hi => (State.lane_congr (s.setClk_lan d' c) i).trans (h.lanes i hi)⟩

theorem OtherLanes.setHello {d' p : Nat} {x : HelloSt} (h : OtherLanes d n o s) : OtherLanes d n o (s.setHello d' p x) :=
  ⟨fun k hb => (State.cell_congr (s.setHello_rf d' p x) k).trans (h.cells k hb),
    fun i hi => (State.lane_congr (s.setHello_lan d' p x) i).trans (h.lanes i hi)⟩

theorem OtherLanes.setBitTo {d' i : Nat} {f : Fld} {v : Bool} (hf : f.off < 0x500000) (h : OtherLanes d n o s) :
    OtherLanes d n o (setBitTo s d' f i v) := by
  unfold Machine.setBitTo
  cases v
  · exact h.p_low hf
  · exact h.p_low hf

theorem OtherLanes.setActive {d' i : Nat} {v : Bool} (h : OtherLanes d n o s) : OtherLanes d n o (setActive s d' i v) := by
  unfold Machine.setActive
  split
  · exact h.setClk
  · exact h.setBitTo (by decide)

theorem OtherLanes.setQual {d' i : Nat} {v : Bool} (h : OtherLanes d n o s) : OtherLanes d n o (setQual s d' i v) := by
  unfold Machine.setQual
  split
  · exact h.setClk
  · exact h.setBitTo (by decide)

theorem OtherLanes.fofsRest {d' : Nat} (h : OtherLanes d n o s) : OtherLanes d n o (fofsRest s d') :=
  .unless (.p_low (by decide)) h

theorem OtherLanes.edgeLoss {d' i : Nat} (h : OtherLanes d n o s) : OtherLanes d n o (edgeLoss s d' i) := by
  have hmarks : OtherLanes d n o (setMarks (Machine.setQual (Machine.setActive s d' i false) d' i false) d' i false false) :=
    h.setActive.setQual.setClk
  unfold Machine.edgeLoss
  dsimp only
  split
  · exact hmarks.fofsRest.p_low (by decide)
  · exact hmarks.fofsRest.p_low (by decide)

theorem OtherLanes.laneClockStop (h : OtherLanes d n o s) : OtherLanes d n o (laneClockStop s d n) :=
  .foldl (fun _ _ => .when .edgeLoss) _ h

theorem firstLane_le : firstLane s d n ≤ n := by
  unfold firstLane
  cases hf : (List.range (n + 1)).find? (fun p => portOn s d p && decide (n < p + portWidth s d p)) with
  | none => exact le_rfl
  | some p => exact Nat.le_of_lt_succ (List.mem_range.mp (List.mem_of_find?_eq_some hf))

/-- A field of the first lane's port status. -/
theorem OtherLanes.p_port {p v : Nat} {f : Fld} (hp : p < 32) (hf : f.off = 0x60010C + 16 * p) (h : OtherLanes d n o s) :
    OtherLanes d n o (s.p d f v) := h.p_far (.inr (by omega)) (by omega)

theorem lanStatus_page : (0x500018 + 4096 * n) / 4096 = 0x500 + n := by omega

section
variable (hn : n < 32)
include hn

theorem OtherLanes.portRefresh (h : OtherLanes d n o s) : OtherLanes d n o (portRefresh s d n) := by
  have hp : firstLane s d n < 32 := lt_of_le_of_lt firstLane_le hn
  unfold Machine.portRefresh
  refine .when (fun h => ?_) h
  have hmis := fun v => h.p_port (v := v) (f := R.PEN_PORT_STATUS.MISMATCH (firstLane s d n)) hp rfl
  exact .ite (.ite ((hmis _).p_port hp rfl) ((hmis _).p_port hp rfl)) (((hmis _).setHello.p_port hp rfl).p_port hp rfl)

theorem OtherLanes.laneDown (h : OtherLanes d n o s) : OtherLanes d n o (laneDown s d n) :=
  (h.p_own hn (by simp only [R.LAN_EVT.LINK_DOWN]; omega)).p_own hn (by simp only [R.LAN_CNT.COUNT]; omega)

theorem OtherLanes.laneEndScan (h : OtherLanes d n o s) : OtherLanes d n o (laneEndScan s d n) :=
  .when (fun h => (((h.p_own hn (by simp only [R.LAN_EYE_RESULT.BUSY]; omega)).p_own hn
    (by simp only [R.LAN_EYE_RESULT.STATUS]; omega)).p_own hn (by simp only [R.LAN_EYE_RESULT.DONE]; omega)).p_own hn
    (by simp only [R.LAN_EVT.EYE_DONE]; omega)) h.setLane

theorem OtherLanes.laneGo {st : Nat} {why : LaneIdle} (h : OtherLanes d n o s) : OtherLanes d n o (laneGo s d n st why) := by
  have hpage := lanStatus_page (n := n)
  unfold Machine.laneGo
  refine .portRefresh hn (.setLane (.p_own hn hpage ?_))
  refine .unless (fun h => ((((((h.p_own hn hpage).p_own hn hpage).p_own hn hpage).p_own hn hpage).p_own hn hpage).p_own hn hpage)) ?_
  exact .when .laneClockStop (.when (.laneEndScan hn) (.when (.laneDown hn) h))

theorem OtherLanes.laneRestart (h : OtherLanes d n o s) : OtherLanes d n o (laneRestart s d n) :=
  .laneGo hn (.when (.p_own hn (by simp only [R.LAN_AN_STATUS.ASTATE]; omega)) h)

end

/-- A field in the page of another lane. -/
theorem OtherLanes.g_eq {i c lo w : Nat} (h : OtherLanes d n o s) (hi : i < 32) (hne : i ≠ n) (hc : c < 4096) :
    s.g d ⟨0x500000 + c + 4096 * i, lo, w⟩ = o.g d ⟨0x500000 + c + 4096 * i, lo, w⟩ :=
  State.g_congr (h.cells _ (besideLane_cellKey hi hne hc))

/-- Which PLL another lane runs on stays the same. -/
theorem OtherLanes.laneUsesPll_eq {i pll : Nat} (h : OtherLanes d n o s) (hi : i < 32) (hne : i ≠ n) :
    laneUsesPll s d i pll = laneUsesPll o d i pll := by
  have hstate : laneState s d i = laneState o d i := h.g_eq (c := 0x18) hi hne (by decide)
  have hon : s.on d (R.LAN_CTRL.ENABLE i) = o.on d (R.LAN_CTRL.ENABLE i) :=
    congrArg (· == 1) (h.g_eq (c := 0x10) hi hne (by decide))
  have hmode : laneMode s d i = laneMode o d i := h.g_eq (c := 0x14) hi hne (by decide)
  unfold laneUsesPll
  rw [hstate, hon, hmode, h.lanes i hne]

end

/-! ## A PLL loses lock (R369) -/

/-- What the loss of a PLL's lock does to a lane of its quad. -/
def pllLost (d n pll : Nat) (s : State) : State :=
  if laneUsesPll s d n pll then
    if laneState s d n = Ln.bypass then pairIdle s d (n / 2) true
    else if laneState s d n = Ln.off ∨ (s.pair d (n / 2)).idle.isSome then s else laneRestart s d n
  else s

section
variable {s t : State} {die : Die} {q : Fin 8} {pll : Fin 2}

theorem execQpllUnlock_locked (hp : s.present die = true) {edges : Bool} (hlock : s.on die (qpllLock pll q) = true)
    (ht : t = ((s.p die (qpllLock pll q) 0).p die (R.LAN_QSTATUS.UNLOCK q) 1).p die (R.LAN_QSTATUS.REF_ACTIVE q) (if edges then 1 else 0)) :
    exec (.qpllUnlock die q pll edges) s = .next ((List.range 4).foldl (fun u i => pllLost die (4 * q + i) pll u) t) := by
  subst ht
  exact congrArg _ (if_pos ⟨hp, hlock⟩)

/-- Lanes that do not run on the PLL stay as they are. -/
theorem pllLost_unused {l : List Nat} (h : ∀ i ∈ l, laneUsesPll t die (4 * q + i) pll = false) :
    l.foldl (fun u i => pllLost die (4 * q + i) pll u) t = t := by
  induction l with
  | nil => rfl
  | cons i l ih =>
    have hi : pllLost die (4 * q + i) pll t = t := if_neg (by rw [h i List.mem_cons_self]; decide)
    rw [List.foldl_cons, hi]
    exact ih fun j hj => h j (List.mem_cons_of_mem i hj)

/-- One lane of the quad runs on the PLL: it restarts, and the others stay. -/
theorem pllLost_one {n : Fin 32} (hq : n.val / 4 = q) (huse : ∀ i : Fin 4, laneUsesPll t die (4 * q + i) pll = decide (n.val = 4 * q + i))
    (hoff : laneState t die n ≠ Ln.off) (hbyp : laneState t die n ≠ Ln.bypass) (hidle : (t.pair die (n / 2)).idle = none) :
    (List.range 4).foldl (fun u i => pllLost die (4 * q + i) pll u) t = laneRestart t die n := by
  have hmem : n.val % 4 ∈ List.range 4 := List.mem_range.mpr (Nat.mod_lt _ (by decide))
  have hn : 4 * q.val + n.val % 4 = n.val := by omega
  have hself : pllLost die (4 * q + n.val % 4) pll t = laneRestart t die n := by
    have hone := huse ⟨n.val % 4, List.mem_range.mp hmem⟩
    unfold pllLost
    dsimp only at hone
    rw [hone, hn, if_pos (by simp), if_neg hbyp, if_neg (by simp [hoff, hidle])]
  have hother : ∀ i ∈ List.range 4, i ≠ n.val % 4 → laneUsesPll t die (4 * q + i) pll = false := by
    intro i hi hne
    have hi := huse ⟨i, List.mem_range.mp hi⟩
    rw [hi]
    exact decide_eq_false (by dsimp only; omega)
  have hafter : ∀ i ∈ List.range 4, i ≠ n.val % 4 → laneUsesPll (laneRestart t die n) die (4 * q + i) pll = false := by
    intro i hi hne
    have hlt := List.mem_range.mp hi
    rw [((OtherLanes.refl t).laneRestart n.isLt).laneUsesPll_eq (by omega) (by omega)]
    exact hother i hi hne
  obtain ⟨l, l', hsplit⟩ := List.append_of_mem hmem
  have hnodup := List.nodup_range (n := 4)
  rw [hsplit] at hnodup hother hafter ⊢
  obtain ⟨-, hl', hdisj⟩ := List.nodup_append.mp hnodup
  have hnotin : n.val % 4 ∉ l' := (List.nodup_cons.mp hl').left
  rw [List.foldl_append, pllLost_unused (l := l), List.foldl_cons, hself, pllLost_unused]
  · exact fun i hi => hafter i (List.mem_append_right _ (List.mem_cons_of_mem _ hi)) (fun e => hnotin (e ▸ hi))
  · exact fun i hi => hother i (List.mem_append_left _ hi) (hdisj i hi _ List.mem_cons_self)

end

/-! ## Bring-up (R377 to R379) -/

section
variable {s t u v : State} {die : Die} {n : Fin 32}

theorem exec_laneIdleEnd (hp : s.present die = true) (hheld : s.held die Blk.lan = false) (hidle : laneState s die n = Ln.idle)
    (hwait : (s.lane die n).idle ≠ .stay) : exec (.laneIdleEnd die n) s = .next (laneBegin s die n) :=
  congrArg _ (if_pos ⟨hp, by rw [hheld]; rfl, hidle, hwait⟩)

theorem laneBegin_off (hon : s.on die (R.LAN_CTRL.ENABLE n) = false) : laneBegin s die n = laneGo s die n Ln.off .stay := if_pos hon

theorem laneBegin_train (hon : s.on die (R.LAN_CTRL.ENABLE n) = true) (han : s.on die (R.LAN_CTRL.AN_EN (firstLane s die n)) = false) :
    laneBegin s die n = laneTrain s die n (laneMode s die n) := by
  unfold laneBegin
  dsimp only
  rw [if_neg (by simp [hon]), if_neg (by simp [han])]

/-- Where the port negotiates, its first lane does so and the others follow its result. -/
theorem laneBegin_negotiate (hon : s.on die (R.LAN_CTRL.ENABLE n) = true) (han : s.on die (R.LAN_CTRL.AN_EN (firstLane s die n)) = true) :
    laneBegin s die n = if n = firstLane s die n then (laneGo s die n Ln.an .stay).p die (R.LAN_AN_STATUS.ASTATE n) 1
      else if s.g die (R.LAN_AN_STATUS.ASTATE (firstLane s die n)) = 2 then laneTrain s die n (s.lane die n).mode
      else laneGo s die n Ln.idle .stay := by
  unfold laneBegin
  dsimp only
  rw [if_neg (by simp [hon]), if_pos han]

theorem exec_anFail {w : Word} {pg : Nat} (hpg : pg = w.toNat &&& partnerMask) (hruns : anRuns s die n = true)
    (hnone : anResolve s die n pg = none) (ht : t = s.p die ⟨0x500028 + 4096 * n, 0, 32⟩ pg) :
    exec (.anFail die n w) s = .next ((t.p die (R.LAN_AN_STATUS.ASTATE n) 3).p die (R.LAN_EVT.AN_FAIL n) 1) := by
  subst hpg ht
  exact congrArg _ (if_pos ⟨hruns, hnone⟩)

theorem exec_anResolved {w : Word} {pg code hz fec pcs : Nat} {pam4 : Bool} (hpg : pg = w.toNat &&& partnerMask)
    (hruns : anRuns s die n = true) (ht : t = s.p die ⟨0x500028 + 4096 * n, 0, 32⟩ pg)
    (hsome : anResolve s die n pg = some (code, hz, pam4, fec, pcs))
    (hu : u = ((t.p die (R.LAN_AN_STATUS.RESULT n) code).p die (R.LAN_AN_STATUS.ASTATE n) 2).p die (R.LAN_AN_STATUS.FEC n)
      (if pcs = 1 ∧ fec = 2 then 1 else 0))
    (hv : v = u.p die (R.LAN_AN_STATUS.EEE n) (if u.on die (R.LAN_AN_ADV.EEE n) ∧ pg.testBit 29 then 1 else 0))
    (halone : portLanes v die n = [n.val]) :
    exec (.anResolved die n w) s = .next (laneTrain v die n ((modeFor v die n hz pam4 fec pcs).getD 0)) := by
  calc exec (.anResolved die n w) s = execAnResolved die n w s := rfl
    _ = _ := by
      unfold execAnResolved
      dsimp only
      rw [← hpg, hruns, hsome]
      dsimp only
      rw [← ht, ← hu, ← hv, halone, List.foldl_cons, List.foldl_nil, if_pos rfl]

theorem exec_trainingReady {taps : Word} (hp : s.present die = true) (hstate : laneState s die n = Ln.training) :
    exec (.trainingReady die n taps) s = .next (laneGo (s.p die ⟨0x500030 + 4096 * n, 0, 32⟩ taps.toNat) die n Ln.align .stay) :=
  congrArg _ (if_pos ⟨hp, hstate⟩)

theorem exec_trainingTimeout (hp : s.present die = true) (hstate : laneState s die n = Ln.training) :
    exec (.trainingTimeout die n) s = .next ((laneGo s die n Ln.idle .retry).p die (R.LAN_EVT.TRAIN_FAIL n) 1) :=
  congrArg _ (if_pos ⟨hp, hstate⟩)

theorem exec_blockLock {gained : Bool} (hp : s.present die = true) (hstate : laneState s die n = Ln.align) :
    exec (.blockLock die n gained) s = .next (if gained then
      ((s.p die (R.LAN_STATUS.BLOCK_LOCK n) 1).p die (R.LAN_STATUS.CDR_LOCK n) 1).p die (R.LAN_STATUS.SIGNAL n) 1
    else (s.p die (R.LAN_STATUS.BLOCK_LOCK n) 0).p die (R.LAN_STATUS.FEC_ALIGN n) 0) :=
  congrArg _ (if_pos ⟨hp, .inl hstate⟩)

/-- A field of LAN_STATUSn above STATE leaves the state as it is. -/
theorem laneState_p {f : Fld} {x : Nat} (hc : Canonical s) (hf : f.off = 0x500018 + 4096 * n) (hlo : 3 ≤ f.lo) :
    laneState (s.p die f x) die n = laneState s die n := by
  have hn := n.isLt
  refine State.g_p_other s die die f _ x (by omega) ⟨?_, ?_⟩ hc (.inr (.inr (.inr ?_)))
  all_goals simp only [R.LAN_STATUS.STATE, Fld.sh, hf]
  all_goals omega

theorem exec_alignComplete {md c : Nat} (hp : s.present die = true) (hstate : laneState s die n = Ln.align) (hfirst : firstLane s die n = n)
    (halone : portLanes s die n = [n.val]) (hlock : s.on die (R.LAN_STATUS.BLOCK_LOCK n) = true)
    (hcdr : s.on die (R.LAN_STATUS.CDR_LOCK n) = true) (hc : Canonical s) (hmd : md = (s.lane die n).mode)
    (ht : t = (s.p die (R.LAN_STATUS.DESKEW n) 1).p die (R.LAN_STATUS.FEC_ALIGN n) (if modeFec md = 0 then 0 else 1))
    (hphy : phyCode t die n 1 md = (c, u)) : exec (.alignComplete die n) s =
      .next ((laneGo (u.p die (R.LAN_STATUS.PHY n) c) die n Ln.up .stay).p die (R.LAN_EVT.LINK_UP n) 1) := by
  have halign : laneState t die n = Ln.align := by
    rw [ht, laneState_p (Kept.p (.refl s) |>.cells hc) rfl (by decide : 3 ≤ 9), laneState_p hc rfl (by decide : 3 ≤ 10), hstate]
  calc exec (.alignComplete die n) s = execAlignComplete die n s := rfl
    _ = _ := by
      unfold execAlignComplete
      dsimp only
      rw [hfirst, halone, if_pos (by simp [hp, hstate, hlock, hcdr]), List.foldl_cons, List.foldl_nil]
      dsimp only [List.length_singleton]
      rw [← hmd, ← ht, if_pos halign, hphy]

end

/-! ## An UP lane, adaptation and scans (R375, R376, R380 to R382) -/

section
variable {s t : State} {die : Die} {n : Fin 32}

theorem exec_linkLoss {cdr : Bool} (hp : s.present die = true) (hup : laneState s die n = Ln.up) :
    exec (.linkLoss die n cdr) s = .next (laneRestart (if cdr then s else s.p die (R.LAN_STATUS.SIGNAL n) 0) die n) :=
  congrArg _ (if_pos ⟨hp, .inl hup⟩)

theorem exec_ebOverflow {tx : Bool} (hp : s.present die = true) (hup : laneState s die n = Ln.up) :
    exec (.ebOverflow die n tx) s = .next ((s.setLane die n (if tx then { s.lane die n with txFill := 32, txBroken := true }
      else { s.lane die n with rxFill := 32, broken := true })).p die (R.LAN_EVT.EB_ERR n) 1) :=
  congrArg _ (if_pos ⟨hp, hup⟩)

theorem exec_backgroundScan_open {l : List Word} {e : Word} (hp : s.present die = true) (hlive : laneLive s die n = true)
    (hfree : (s.lane die n).readapt = false) (hl : l ≠ []) (he : e = worstEye l) (hh : s.g die (R.LAN_ADAPT_CFG.HTH n) ≤ eyeH e)
    (hv : s.g die (R.LAN_ADAPT_CFG.VTH n) ≤ eyeV e) : exec (.backgroundScan die n l) s =
      .next ((s.p die ⟨0x500054 + 4096 * n, 0, 32⟩ e.toNat).setLane die n { s.lane die n with low := 0, judge := false }) := by
  have hopen : ¬ (eyeH e < s.g die (R.LAN_ADAPT_CFG.HTH n) ∨ eyeV e < s.g die (R.LAN_ADAPT_CFG.VTH n)) := by omega
  calc exec (.backgroundScan die n l) s = execBackgroundScan die n l s := rfl
    _ = _ := by
      unfold execBackgroundScan
      dsimp only
      rw [← he, if_pos ⟨hp, hlive, hfree, hl⟩, if_neg hopen, if_neg (fun h => hopen h.1), if_neg (fun h => hopen h.1)]

theorem exec_readaptComplete (hp : s.present die = true) (hruns : (s.lane die n).readapt = true)
    (hbusy : s.on die (R.LAN_EYE_RESULT.BUSY n) = false) : exec (.readaptComplete die n) s =
      .next ((s.setLane die n { s.lane die n with readapt := false, judge := true }).inc die (R.LAN_CNT.COUNT n 7) 1) := by
  have hn := n.isLt
  have hkey : cellKey die (R.LAN_EYE_RESULT.BUSY n).off ≠ cellKey die (R.LAN_CNT.COUNT n 7).off :=
    cellKey_ne _ _ _ _ (by simp only [R.LAN_EYE_RESULT.BUSY]; omega) (by simp only [R.LAN_CNT.COUNT]; omega)
      (.inr (by simp only [R.LAN_EYE_RESULT.BUSY, R.LAN_CNT.COUNT]; omega))
  have hbusy' : ∀ x v, ((s.setLane die n x).p die (R.LAN_CNT.COUNT n 7) v).on die (R.LAN_EYE_RESULT.BUSY n) = false := by
    intro x v
    have hcell := ((s.setLane die n x).cell_p_other die _ v _ hkey).trans (State.cell_congr (s.setLane_rf die n x) _)
    exact (congrArg (· == 1) (State.g_congr hcell)).trans hbusy
  calc exec (.readaptComplete die n) s = execReadaptComplete die n s := rfl
    _ = _ := by
      unfold execReadaptComplete State.inc
      dsimp only
      rw [if_pos ⟨hp, hruns⟩, hbusy', if_neg (fun h => Bool.false_ne_true h.1)]

theorem exec_eyeScanDone {k : Nat} {l : List Word} (hp : s.present die = true) (hbusy : s.on die (R.LAN_EYE_RESULT.BUSY n) = true)
    (hruns : s.g die (R.LAN_EYE_RESULT.STATUS n) = 0)
    (ht : t = (if s.on die (R.LAN_EYE_CTRL.MODE n) then s.p die ⟨0x500050 + 4096 * n, 0, 32⟩ (worstEye l).toNat
      else s.p die (R.LAN_EYE_RESULT.ERRORS n) (min k (2 ^ 32 - 1)))) : exec (.eyeScanDone die n k l) s =
      .next (((t.p die (R.LAN_EYE_RESULT.BUSY n) 0).p die (R.LAN_EYE_RESULT.DONE n) 1).p die (R.LAN_EVT.EYE_DONE n) 1) := by
  subst ht
  exact congrArg _ (if_pos ⟨hp, hbusy, hruns⟩)

end

/-! ## Bypass pairs (R383, R384) -/

section
variable {s : State} {d k : Nat}

theorem pairIdleEnd_stays (hidle : (s.pair d k).idle = some true) (hclock : pairClocked s d k = false) : pairIdleEnd s d k = s := by
  unfold pairIdleEnd
  dsimp only
  rw [hidle]
  dsimp only
  rw [if_pos (by rw [hclock]; rfl)]

/-- The idle of a pair that may move ends, with no request to take up. -/
theorem pairIdleEnd_ends {byp : Bool} (hidle : (s.pair d k).idle = some byp) (hlatched : (s.pair d k).latched = none)
    (hmoves : (byp && !pairClocked s d k) = false) : pairIdleEnd s d k =
      if byp then (laneGo (laneGo (s.setPair d k .reset) d (2 * k) Ln.bypass .stay) d (2 * k + 1) Ln.bypass .stay).p d (R.LAN_PAIR.ACTIVE k) 1
      else laneBegin (laneBegin (s.setPair d k .reset) d (2 * k)) d (2 * k + 1) := by
  unfold pairIdleEnd
  dsimp only
  rw [hidle]
  dsimp only
  rw [if_neg (by rw [hmoves]; decide), hlatched]

end

/-- Settles O53: each event by the branch its conditions choose; a PLL that loses lock restarts the one lane that runs on it, as moving a
lane leaves the others as they are. -/
theorem laneEventsComplete : Obligations.LaneEventsComplete := by
  intro s die n hp
  refine ⟨fun q pll t => ⟨fun hz hon hlo hhi hok => congrArg _ (if_pos ⟨hp, hon, hlo, hhi, hok⟩), fun edges hlock _ ht => ⟨?_, ?_⟩⟩,
    fun hheld hidle hwait => ⟨?_, ?_, fun p hon hfirst han => ⟨?_, ?_, ?_⟩⟩,
    fun w pg t hpg hruns ht => ⟨fun hnone => exec_anFail hpg hruns hnone ht,
      fun code hz pam4 fec pcs u hsome hu v hv => exec_anResolved hpg hruns ht hsome hu hv⟩,
    fun hstate hfailed => congrArg _ (if_pos ⟨hp, hstate, hfailed⟩),
    fun hstate => ⟨fun taps => exec_trainingReady hp hstate, exec_trainingTimeout hp hstate⟩,
    fun hstate => ⟨exec_blockLock hp hstate, exec_blockLock hp hstate, fun hfirst halone hlock hcdr hc md t hmd ht c u =>
      exec_alignComplete hp hstate hfirst halone hlock hcdr hc hmd ht⟩,
    fun hup => ⟨exec_linkLoss hp hup, exec_linkLoss hp hup, congrArg _ (if_pos ⟨hp, hup⟩), exec_ebOverflow hp hup, exec_ebOverflow hp hup⟩,
    fun hber => congrArg _ (if_pos ⟨hp, hber⟩), fun l e hlive hfree hl he => exec_backgroundScan_open hp hlive hfree hl he,
    fun hruns hbusy _ => exec_readaptComplete hp hruns hbusy, fun k l t hbusy hruns => exec_eyeScanDone hp hbusy hruns,
    fun k t ht hlatched => ⟨?_, ?_, ?_⟩⟩
  · intro hfree
    rw [execQpllUnlock_locked hp hlock ht, pllLost_unused fun i hi => hfree ⟨i, List.mem_range.mp hi⟩]
  · intro hq huse hoff hbyp hnone
    rw [execQpllUnlock_locked hp hlock ht, pllLost_one hq huse hoff hbyp hnone]
  · intro hon
    rw [exec_laneIdleEnd hp hheld hidle hwait, laneBegin_off hon]
  · intro hon han
    rw [exec_laneIdleEnd hp hheld hidle hwait, laneBegin_train hon han]
  · intro he
    rw [exec_laneIdleEnd hp hheld hidle hwait, laneBegin_negotiate hon (hfirst ▸ han), if_pos (he.symm.trans hfirst)]
  · intro hne hstate
    rw [exec_laneIdleEnd hp hheld hidle hwait, laneBegin_negotiate hon (hfirst ▸ han), ← hfirst, if_neg (Ne.symm hne), if_pos hstate]
  · intro hne hstate
    rw [exec_laneIdleEnd hp hheld hidle hwait, laneBegin_negotiate hon (hfirst ▸ han), ← hfirst, if_neg (Ne.symm hne), if_neg hstate]
  · intro hidle hclock
    exact congrArg _ ((if_pos hp).trans (pairIdleEnd_stays hidle hclock))
  · intro hidle hclock
    subst ht
    exact congrArg _ ((if_pos hp).trans (pairIdleEnd_ends hidle hlatched (by rw [hclock]; rfl)))
  · intro hidle
    subst ht
    exact congrArg _ ((if_pos hp).trans (pairIdleEnd_ends hidle hlatched rfl))

end Sys2Proof.Machine
end

/-! # The port engine as software drives it (R389, R397, R403, R407, R415 to R417) -/

section
set_option Elab.async false
namespace Sys2Proof.Machine

section
variable {s t : State} {m : Master} {d : Nat} {r : RegRef}

theorem writeFamily_pen {raw mask : Nat} (hb : r.block = some .PEN) :
    writeFamily s (mkWr s m d r raw mask) = writePen s (mkWr s m d r raw mask) := by
  unfold writeFamily
  simp only [mkWr, hb]

/-- A 32-bit write that the PEN block accepts. -/
theorem put32_pen {x : Word} (h : Reaches s m d r) (hr : WritableIn .PEN r)
    (hw : writePen s (mkWr s m d r x.toNat (2 ^ 32 - 1)) = t.ans .ok) : put32 s m d r.off x.toNat = t.ans .ok :=
  put32_word_ok h hr.toWritable ((writeFamily_pen hr.block).trans hw)

/-- A command that names fields of a PEN register, which the PEN block accepts. -/
theorem poke_pen {f : Fld} {x : Nat} {l : List (Fld × Nat)} (h : Reaches s m d r) (hr : WritableIn .PEN r) (hf : f.off = r.off)
    (hw : writePen s (mkWr s m d r (named s d r ((f, x) :: l)) (2 ^ 32 - 1)) = t.ans .ok) : poke s m d ((f, x) :: l) = t.ans .ok :=
  poke_ok h hr.toWritable hf ((writeFamily_pen hr.block).trans hw)

end

/-! ## L2 commands (R403) -/

theorem l2Cmd_writable : WritableIn .PEN ⟨.PEN_L2_CMD, 0, 0⟩ := by
  unfold WritableIn
  decide

section
variable {s t : State} {m : Master} {die : Die} {raw op : Nat} {w : Wr}

/-- A command that a free die takes. -/
theorem writeL2Cmd_taken (hw : w = mkWr s m die ⟨.PEN_L2_CMD, 0, 0⟩ raw (2 ^ 32 - 1)) (hop : R.PEN_L2_CMD.OP.of raw = op)
    (hfree : s.on die R.PEN_L2_STATUS.BUSY = false) (h1 : 1 ≤ op) (h7 : op ≤ 7) (hhead : 3 ≤ op → die.val = s.head)
    (hindex : op = 2 → R.PEN_L2_CMD.INDEX.of w.new < 2 ^ 19) (ht : t = s.setReg die ⟨.PEN_L2_CMD, 0, 0⟩ w.new) :
    writePen s w = (if op = 1 then l2Read t die else if op = 2 then l2ReadIndex t die (R.PEN_L2_CMD.INDEX.of w.new)
      else (t.p die R.PEN_L2_STATUS.BUSY 1).setPen { t.pen with cmd := some (op, l2Data t die) }).ans .ok := by
  subst hw ht hop
  refine if_neg ?_
  rintro (h | h | h | ⟨h, hne⟩ | ⟨h, hge⟩)
  · exact Bool.false_ne_true (hfree.symm.trans h)
  · exact absurd (h1.trans_eq h) (by decide)
  · exact absurd h7 (Nat.not_le.mpr h)
  · exact hne (hhead h)
  · exact absurd (hindex h) (Nat.not_lt.mpr hge)

theorem of_l2Cmd_op (h : op < 16) : R.PEN_L2_CMD.OP.of (named s die ⟨.PEN_L2_CMD, 0, 0⟩ [(R.PEN_L2_CMD.OP, op)]) = op :=
  of_named_same (by decide) rfl rfl h

theorem l2Read_found {d i : Nat} {e : L2Ent} (h : l2Find t d (wordsMac (l2Data t d)) (wordsVid (l2Data t d)) = some (i, e)) :
    l2Read t d = (setL2Data t d (entWords e)).p d R.PEN_L2_STATUS.RESULT 0 := by
  unfold l2Read
  rw [h]

theorem l2Read_missing {d : Nat} (h : l2Find t d (wordsMac (l2Data t d)) (wordsVid (l2Data t d)) = none) :
    l2Read t d = t.p d R.PEN_L2_STATUS.RESULT 1 := by
  unfold l2Read
  rw [h]

theorem l2ReadIndex_eq {d i : Nat} (h : i < 2 ^ 19) :
    l2ReadIndex t d i = (setL2Data t d (((t.l2 d i).map entWords).getD [])).p d R.PEN_L2_STATUS.RESULT 0 := by
  unfold l2ReadIndex
  rw [Nat.mod_eq_of_lt h]
  cases t.l2 d i <;> rfl

section
variable (h : Reaches s m die ⟨.PEN_L2_CMD, 0, 0⟩) (hfree : s.on die R.PEN_L2_STATUS.BUSY = false)
include h hfree

theorem l2Poke_ok (hx : t = s.setReg die ⟨.PEN_L2_CMD, 0, 0⟩ (written s die ⟨.PEN_L2_CMD, 0, 0⟩
      (named s die ⟨.PEN_L2_CMD, 0, 0⟩ [(R.PEN_L2_CMD.OP, op)]))) (h1 : 1 ≤ op) (h7 : op ≤ 7) (h2 : op ≠ 2)
    (hhead : 3 ≤ op → die.val = s.head) : l2Poke s m die op = (if op = 1 then l2Read t die
      else (t.p die R.PEN_L2_STATUS.BUSY 1).setPen { t.pen with cmd := some (op, l2Data t die) }).ans .ok := by
  have htaken := writeL2Cmd_taken (m := m) rfl (of_l2Cmd_op (s := s) (die := die) (show op < 16 by omega)) hfree h1 h7 hhead
    (fun h => absurd h h2) hx
  rw [if_neg (c := op = 2) h2] at htaken
  exact poke_pen h l2Cmd_writable rfl htaken

theorem exec_l2ReadIndex {index : BitVec 20} (hindex : index.toNat < 2 ^ 19)
    (hx : t = s.setReg die ⟨.PEN_L2_CMD, 0, 0⟩ (written s die ⟨.PEN_L2_CMD, 0, 0⟩
      (named s die ⟨.PEN_L2_CMD, 0, 0⟩ [(R.PEN_L2_CMD.OP, 2), (R.PEN_L2_CMD.INDEX, index.toNat)]))) :
    exec (.l2ReadIndex m die index) s = .next (((setL2Data t die (((t.l2 die index.toNat).map entWords).getD [])).p die
      R.PEN_L2_STATUS.RESULT 0).ans .ok) := by
  have hop : R.PEN_L2_CMD.OP.of
      (named s die ⟨.PEN_L2_CMD, 0, 0⟩ [(R.PEN_L2_CMD.OP, 2), (R.PEN_L2_CMD.INDEX, index.toNat)]) = 2 := by
    rw [of_named _ (by decide), List.foldl_cons, List.foldl_cons, List.foldl_nil]
    simp (disch := decide) only [of_over_other, of_over_same]
    rfl
  have hnew : R.PEN_L2_CMD.INDEX.of (written s die ⟨.PEN_L2_CMD, 0, 0⟩
      (named s die ⟨.PEN_L2_CMD, 0, 0⟩ [(R.PEN_L2_CMD.OP, 2), (R.PEN_L2_CMD.INDEX, index.toNat)])) = index.toNat := by
    rw [written, merge_taken _ _ _ _ _ (by decide) (by decide), of_named _ (by decide), List.foldl_cons, List.foldl_cons, List.foldl_nil,
      of_over_same]
    exact Nat.mod_eq_of_lt index.isLt
  have htaken := writeL2Cmd_taken (m := m) rfl hop hfree (by decide) (by decide) (fun h => absurd h (by decide))
    (fun _ => hnew.trans_lt hindex) hx
  have hread : l2ReadIndex t die _ = _ := (congrArg (l2ReadIndex t die) hnew).trans (l2ReadIndex_eq hindex)
  rw [if_neg (by decide), if_pos rfl] at htaken
  exact congrArg _ (poke_pen h l2Cmd_writable rfl (htaken.trans (congrArg (State.ans · .ok) hread)))

end

end

/-! ## The VLAN and next-hop tables (R397, R407) -/

theorem vlanCmd_writable : WritableIn .PEN ⟨.PEN_VLAN_CMD, 0, 0⟩ := by
  unfold WritableIn
  decide

theorem nhCmd_writable : WritableIn .PEN ⟨.PEN_NH_CMD, 0, 0⟩ := by
  unfold WritableIn
  decide

/-- The part of a VLAN table word that a write stores. -/
def vlanMask (k : Nat) : Nat := if k = 2 then 0xFFFFFF03 else if k = 3 then 0 else 0xFFFFFFFF

/-- A die's VLAN data words go to an entry of its table. -/
def vlanStore (s : State) (d v : Nat) : State :=
  (List.range 4).foldl (fun s k => s.setVlanWord d v k (BitVec.ofNat 32 (s.g d (R.PEN_VLAN_DATA.WORD k) &&& vlanMask k))) s

section
variable {s : State} {m : Master} {die : Die} {index : BitVec 20} {x d v w : Nat}

theorem of_vlanCmd (hx : x < 2) :
    R.PEN_VLAN_CMD.WRITE.of (named s die ⟨.PEN_VLAN_CMD, 0, 0⟩ [(R.PEN_VLAN_CMD.WRITE, x), (R.PEN_VLAN_CMD.INDEX, index.toNat)]) = x ∧
      R.PEN_VLAN_CMD.INDEX.of (named s die ⟨.PEN_VLAN_CMD, 0, 0⟩ [(R.PEN_VLAN_CMD.WRITE, x), (R.PEN_VLAN_CMD.INDEX, index.toNat)]) =
        index.toNat := by
  rw [of_named _ (by decide), of_named _ (by decide), List.foldl_cons, List.foldl_cons, List.foldl_nil]
  simp (disch := decide) only [of_over_other, of_over_same]
  exact ⟨Nat.mod_eq_of_lt hx, Nat.mod_eq_of_lt index.isLt⟩

theorem of_nhCmd (hx : x < 2) :
    R.PEN_NH_CMD.WRITE.of (named s die ⟨.PEN_NH_CMD, 0, 0⟩ [(R.PEN_NH_CMD.WRITE, x), (R.PEN_NH_CMD.INDEX, index.toNat)]) = x ∧
      R.PEN_NH_CMD.INDEX.of (named s die ⟨.PEN_NH_CMD, 0, 0⟩ [(R.PEN_NH_CMD.WRITE, x), (R.PEN_NH_CMD.INDEX, index.toNat)]) =
        index.toNat := by
  rw [of_named _ (by decide), of_named _ (by decide), List.foldl_cons, List.foldl_cons, List.foldl_nil]
  simp (disch := decide) only [of_over_other, of_over_same]
  exact ⟨Nat.mod_eq_of_lt hx, Nat.mod_eq_of_lt index.isLt⟩

theorem State.vlanWord_p {d' y : Nat} {f : Fld} : (s.p d' f y).vlanWord d v w = s.vlanWord d v w := by
  unfold State.vlanWord
  rw [State.p_pen]

theorem vlanLoad_of_words {o u : State} {l : List Nat} (h : ∀ k, u.vlanWord d v k = o.vlanWord d v k) :
    l.foldl (fun u k => u.p d (R.PEN_VLAN_DATA.WORD k) (u.vlanWord d v k).toNat) u =
      l.foldl (fun u k => u.p d (R.PEN_VLAN_DATA.WORD k) (o.vlanWord d v k).toNat) u := by
  induction l generalizing u with
  | nil => rw [List.foldl_nil, List.foldl_nil]
  | cons k l ih =>
    have hnext : ∀ j, (u.p d (R.PEN_VLAN_DATA.WORD k) (o.vlanWord d v k).toNat).vlanWord d v j = o.vlanWord d v j := fun j =>
      State.vlanWord_p.trans (h j)
    simp only [List.foldl_cons, h k]
    exact ih hnext

/-- The words of an entry come to the data registers, which are no part of the table. -/
theorem vlanLoad_eq {l : List Nat} :
    l.foldl (fun u k => u.p d (R.PEN_VLAN_DATA.WORD k) (u.vlanWord d v k).toNat) s =
      l.foldl (fun u k => u.p d (R.PEN_VLAN_DATA.WORD k) (s.vlanWord d v k).toNat) s := vlanLoad_of_words fun _ => rfl

theorem exec_vlanRead (h : Reaches s m die ⟨.PEN_VLAN_CMD, 0, 0⟩) (hindex : index.toNat < 4096) : exec (.vlanRead m die index) s =
    .next (((List.range 4).foldl (fun u k => u.p die (R.PEN_VLAN_DATA.WORD k) (s.vlanWord die index.toNat k).toNat) s).ans .ok) := by
  obtain ⟨hwrite, hi⟩ := of_vlanCmd (s := s) (die := die) (index := index) (x := 0) (by decide)
  have htaken : writeVlanCmd s (mkWr s m die ⟨.PEN_VLAN_CMD, 0, 0⟩ (named s die ⟨.PEN_VLAN_CMD, 0, 0⟩
      [(R.PEN_VLAN_CMD.WRITE, 0), (R.PEN_VLAN_CMD.INDEX, index.toNat)]) (2 ^ 32 - 1)) =
      ((List.range 4).foldl (fun u k => u.p die (R.PEN_VLAN_DATA.WORD k) (s.vlanWord die index.toNat k).toNat) s).ans .ok := by
    unfold writeVlanCmd mkWr
    dsimp only
    rw [hwrite, hi, if_neg (Nat.not_le.mpr hindex), if_neg (by decide), vlanLoad_eq]
  exact congrArg _ (poke_pen h vlanCmd_writable rfl htaken)

theorem exec_vlanWrite (h : Reaches s m die ⟨.PEN_VLAN_CMD, 0, 0⟩) (hindex : index.toNat < 4096) :
    exec (.vlanWrite m die index) s = .next ((vlanStore s die index.toNat).ans .ok) := by
  obtain ⟨hwrite, hi⟩ := of_vlanCmd (s := s) (die := die) (index := index) (x := 1) (by decide)
  have htaken : writeVlanCmd s (mkWr s m die ⟨.PEN_VLAN_CMD, 0, 0⟩ (named s die ⟨.PEN_VLAN_CMD, 0, 0⟩
      [(R.PEN_VLAN_CMD.WRITE, 1), (R.PEN_VLAN_CMD.INDEX, index.toNat)]) (2 ^ 32 - 1)) = (vlanStore s die index.toNat).ans .ok := by
    unfold writeVlanCmd mkWr
    dsimp only
    rw [hwrite, hi, if_neg (Nat.not_le.mpr hindex), if_pos rfl]
    rfl
  exact congrArg _ (poke_pen h vlanCmd_writable rfl htaken)

theorem exec_nhRead (h : Reaches s m die ⟨.PEN_NH_CMD, 0, 0⟩) :
    exec (.nhRead m die index) s = .next ((s.p die R.PEN_NH_DATA.WORD (s.nhop die index.toNat).toNat).ans .ok) := by
  obtain ⟨hwrite, hi⟩ := of_nhCmd (s := s) (die := die) (index := index) (x := 0) (by decide)
  have htaken : writeNhCmd s (mkWr s m die ⟨.PEN_NH_CMD, 0, 0⟩ (named s die ⟨.PEN_NH_CMD, 0, 0⟩
      [(R.PEN_NH_CMD.WRITE, 0), (R.PEN_NH_CMD.INDEX, index.toNat)]) (2 ^ 32 - 1)) =
      (s.p die R.PEN_NH_DATA.WORD (s.nhop die index.toNat).toNat).ans .ok := by
    unfold writeNhCmd mkWr
    dsimp only
    rw [hwrite, hi, if_neg (by decide)]
  exact congrArg _ (poke_pen h nhCmd_writable rfl htaken)

theorem exec_nhWrite (h : Reaches s m die ⟨.PEN_NH_CMD, 0, 0⟩) : exec (.nhWrite m die index) s =
    .next ((s.setNhop die index.toNat (BitVec.ofNat 32 (s.g die R.PEN_NH_DATA.WORD &&& 0x800003FF))).ans .ok) := by
  obtain ⟨hwrite, hi⟩ := of_nhCmd (s := s) (die := die) (index := index) (x := 1) (by decide)
  have htaken : writeNhCmd s (mkWr s m die ⟨.PEN_NH_CMD, 0, 0⟩ (named s die ⟨.PEN_NH_CMD, 0, 0⟩
      [(R.PEN_NH_CMD.WRITE, 1), (R.PEN_NH_CMD.INDEX, index.toNat)]) (2 ^ 32 - 1)) =
      (s.setNhop die index.toNat (BitVec.ofNat 32 (s.g die R.PEN_NH_DATA.WORD &&& 0x800003FF))).ans .ok := by
    unfold writeNhCmd mkWr
    dsimp only
    rw [hwrite, hi, if_pos rfl]
  exact congrArg _ (poke_pen h nhCmd_writable rfl htaken)

/-! What a VLAN write leaves in the table. -/

theorem State.g_setVlanWord {k : Nat} {y : Word} {d' : Nat} {f : Fld} : (s.setVlanWord d v k y).g d' f = s.g d' f := rfl

theorem State.vlanWord_set_same {k : Nat} {y : Word} (h : SMap.wf (fun _ => 0) s.pen.vlan = true) :
    (s.setVlanWord d v k y).vlanWord d v k = y := SMap.get_set_same _ _ _ _ h

theorem State.vlanWord_set_other {k : Nat} {y : Word} {v' k' : Nat} (hk : k < 4) (hk' : k' < 4) (h : v' ≠ v ∨ k' ≠ k) :
    (s.setVlanWord d v k y).vlanWord d v' k' = s.vlanWord d v' k' := SMap.get_set_other _ _ _ _ _ (by omega)

theorem State.vlan_wf_set {k : Nat} {y : Word} (h : SMap.wf (fun _ => 0) s.pen.vlan = true) :
    SMap.wf (fun _ => 0) (s.setVlanWord d v k y).pen.vlan = true := SMap.wf_set _ _ _ _ h

/-- The four words of an entry, stored one after the other. -/
theorem vlanStore_eq : vlanStore s d v =
    (((s.setVlanWord d v 0 (BitVec.ofNat 32 (s.g d (R.PEN_VLAN_DATA.WORD 0) &&& vlanMask 0))).setVlanWord d v 1
      (BitVec.ofNat 32 (s.g d (R.PEN_VLAN_DATA.WORD 1) &&& vlanMask 1))).setVlanWord d v 2
      (BitVec.ofNat 32 (s.g d (R.PEN_VLAN_DATA.WORD 2) &&& vlanMask 2))).setVlanWord d v 3
      (BitVec.ofNat 32 (s.g d (R.PEN_VLAN_DATA.WORD 3) &&& vlanMask 3)) := by
  unfold vlanStore
  rw [show List.range 4 = [0, 1, 2, 3] from rfl]
  simp only [List.foldl_cons, List.foldl_nil, State.g_setVlanWord]

theorem State.setVlanWord_penOnly {o : State} {k : Nat} {y : Word} (h : s = { o with pen := s.pen }) :
    s.setVlanWord d v k y = { o with pen := (s.setVlanWord d v k y).pen } := by
  unfold State.setVlanWord State.setPen
  rw [h]

theorem vlanStore_frame : vlanStore s d v = { s with pen := (vlanStore s d v).pen } := by
  rw [vlanStore_eq]
  exact State.setVlanWord_penOnly (State.setVlanWord_penOnly (State.setVlanWord_penOnly (State.setVlanWord_penOnly rfl)))

theorem vlanStore_other {v' k : Nat} (hv : v' ≠ v) (hk : k < 4) : (vlanStore s d v).vlanWord d v' k = s.vlanWord d v' k := by
  rw [vlanStore_eq, State.vlanWord_set_other (by decide) hk (.inl hv), State.vlanWord_set_other (by decide) hk (.inl hv),
    State.vlanWord_set_other (by decide) hk (.inl hv), State.vlanWord_set_other (by decide) hk (.inl hv)]

theorem vlanStore_word {k : Nat} (hw : SMap.wf (fun _ => 0) s.pen.vlan = true) (hk : k < 4) :
    (vlanStore s d v).vlanWord d v k = BitVec.ofNat 32 (s.g d (R.PEN_VLAN_DATA.WORD k) &&& vlanMask k) := by
  have hw1 := fun y => State.vlan_wf_set (s := s) (d := d) (v := v) (k := 0) (y := y) hw
  have hw2 := fun y z => State.vlan_wf_set (d := d) (v := v) (k := 1) (y := z) (hw1 y)
  have hw3 := fun y z a => State.vlan_wf_set (d := d) (v := v) (k := 2) (y := a) (hw2 y z)
  rw [vlanStore_eq]
  match k, hk with
  | 0, _ => rw [State.vlanWord_set_other (by decide) (by decide) (.inr (by decide)), State.vlanWord_set_other (by decide) (by decide)
      (.inr (by decide)), State.vlanWord_set_other (by decide) (by decide) (.inr (by decide)), State.vlanWord_set_same hw]
  | 1, _ => rw [State.vlanWord_set_other (by decide) (by decide) (.inr (by decide)), State.vlanWord_set_other (by decide) (by decide)
      (.inr (by decide)), State.vlanWord_set_same (hw1 _)]
  | 2, _ => rw [State.vlanWord_set_other (by decide) (by decide) (.inr (by decide)), State.vlanWord_set_same (hw2 _ _)]
  | 3, _ => exact State.vlanWord_set_same (hw3 _ _ _)

/-- The first two words of an entry are stored whole. -/
theorem vlanMask_whole {k : Nat} (hk : k < 2) : s.g d (R.PEN_VLAN_DATA.WORD k) &&& vlanMask k = s.g d (R.PEN_VLAN_DATA.WORD k) := by
  have hlt : s.g d (R.PEN_VLAN_DATA.WORD k) < 2 ^ 32 := Nat.mod_lt _ (Nat.two_pow_pos 32)
  have hmask : vlanMask k = 2 ^ 32 - 1 := by
    unfold vlanMask
    rw [if_neg (by omega), if_neg (by omega)]
    rfl
  rw [hmask, Nat.and_two_pow_sub_one_eq_mod, Nat.mod_eq_of_lt hlt]

end

/-! ## Ring tails and port set-up (R389, R415) -/

theorem ringTail_writable : ∀ r : Fin 16, WritableIn .PEN ⟨.PEN_RING_TAIL, r, 0⟩ := by
  unfold WritableIn
  decide

theorem ringTail_off (r : Nat) : (R.PEN_RING_TAIL.INDEX r).off = RegRef.off ⟨.PEN_RING_TAIL, r, 0⟩ := regOff_index _ rfl rfl

theorem portCfg_writable : ∀ p : Fin 32, WritableIn .PEN ⟨.PEN_PORT_CFG, p, 0⟩ := by
  unfold WritableIn
  decide

theorem portCfg_off (p : Nat) : (R.PEN_PORT_CFG.ENABLE p).off = RegRef.off ⟨.PEN_PORT_CFG, p, 0⟩ := regOff_index _ rfl rfl

section
variable {s t : State} {m : Master} {die : Die} {x : Nat}

theorem exec_ringTailWrite {r : Fin 16} {index : Word} (h : Reaches s m die ⟨.PEN_RING_TAIL, r, 0⟩)
    (hx : x = written s die ⟨.PEN_RING_TAIL, r, 0⟩ index.toNat) :
    exec (.ringTailWrite m die r index) s = .next ((s.setReg die ⟨.PEN_RING_TAIL, r, 0⟩ x).ans .ok) := by
  subst hx
  have hput := put32_pen (x := index) (t := s.setReg die ⟨.PEN_RING_TAIL, r, 0⟩ (written s die ⟨.PEN_RING_TAIL, r, 0⟩ index.toNat)) h
    (ringTail_writable r) rfl
  rw [← ringTail_off] at hput
  exact congrArg _ hput

section
variable {p : Fin 32} {v : Word} (h : Reaches s m die ⟨.PEN_PORT_CFG, p, 0⟩) (hx : x = written s die ⟨.PEN_PORT_CFG, p, 0⟩ v.toNat)
  (ht : t = s.setReg die ⟨.PEN_PORT_CFG, p, 0⟩ x) (hok : portCfgOk s die p x = true)
include h hx ht hok

theorem exec_portCfgWrite_on (hon : portOn t die p = true) : exec (.portCfgWrite m die p v) s = .next ((portRefresh t die p).ans .ok) := by
  subst hx ht
  have htaken : writePen s (mkWr s m die ⟨.PEN_PORT_CFG, p, 0⟩ v.toNat (2 ^ 32 - 1)) = _ := (if_pos hok).trans (if_pos hon)
  have hput := put32_pen h (portCfg_writable p) htaken
  rw [← portCfg_off] at hput
  exact congrArg _ hput

theorem exec_portCfgWrite_off (hoff : portOn t die p = false) : exec (.portCfgWrite m die p v) s =
    .next ((((dropFrames t die 14 (fun e _ => e == p.val)).setHello die p .reset).p die (R.PEN_PORT_STATUS.LINK p) 0).ans .ok) := by
  subst hx ht
  have htaken : writePen s (mkWr s m die ⟨.PEN_PORT_CFG, p, 0⟩ v.toNat (2 ^ 32 - 1)) = _ :=
    (if_pos hok).trans (if_neg (fun hon => Bool.false_ne_true (hoff.symm.trans hon)))
  have hput := put32_pen h (portCfg_writable p) htaken
  rw [← portCfg_off] at hput
  exact congrArg _ hput

end

end

/-! ## Timestamps and device time (R416, R417) -/

theorem regAt_tsPop : regAt (RegRef.off ⟨.PEN_TS_POP, 0, 0⟩ + 4) = some ⟨.PEN_TS_POP, 0, 0⟩ := by decide

theorem penTime_writable : WritableIn .PEN ⟨.PEN_TIME, 0, 0⟩ := by
  unfold WritableIn
  decide

theorem regAt_penTime : regAt (RegRef.off ⟨.PEN_TIME, 0, 0⟩ + 4) = some ⟨.PEN_TIME, 0, 0⟩ := by decide

theorem penTimeAdj_writable : WritableIn .PEN ⟨.PEN_TIME_ADJ, 0, 0⟩ := by
  unfold WritableIn
  decide

theorem penTimeStep_writable : WritableIn .PEN ⟨.PEN_TIME_STEP, 0, 0⟩ := by
  unfold WritableIn
  decide

/-- The field that is a whole 64-bit register. -/
def wholeDWord : Fld := ⟨0, 0, 64⟩

section
variable {s t u : State} {m : Master} {die : Die}

theorem exec_tsPop (h : Reaches s m die ⟨.PEN_TS_POP, 0, 0⟩) {v : Nat} (hpop : tsPop s die = (v, t)) :
    exec (.tsPop m die 8) s = .next (t.ansData .ok [BitVec.ofNat 64 v]) :=
  congrArg _ (accessRead_pair h rfl (by decide) (by decide) (regOn_of_regAt regAt_tsPop (by decide) (by decide)) hpop)

theorem tsPop_cons {y : TsRec} {l : List TsRec} (hts : (s.penDie die).ts = y :: l) (hlost : (s.penDie die).lost = false)
    (hu : u = (s.setPenDie die { s.penDie die with ts := l, lost := false }).p die R.PEN_TS_SEC.SEC y.sec) :
    tsPop s die = (2 ^ 63 + y.port % 1024 * 2 ^ 48 + y.tag % 4096 * 2 ^ 32 + y.ns, u) := by
  subst hu
  unfold tsPop
  dsimp only
  rw [hts, hlost]
  rfl

theorem tsPop_lostWord : ∀ lost : Bool, BitVec.ofNat 64 (if lost then 2 ^ 62 else 0) = if lost then 2 ^ 62 else 0
  | true => by rw [if_pos rfl, if_pos rfl, BitVec.ofNat_pow]; rfl
  | false => rfl

theorem tsPop_nil (hts : (s.penDie die).ts = []) : tsPop s die =
    (if (s.penDie die).lost then 2 ^ 62 else 0, s.setPenDie die { s.penDie die with ts := [], lost := false }) := by
  unfold tsPop
  dsimp only
  rw [hts]
  rfl

/-- A time that is written whole is what the register would hold. -/
theorem penTime_new {old : Nat} (v : DWord) : RegId.PEN_TIME.info.merge old v.toNat (2 ^ 64 - 1) % 2 ^ 64 = v.toNat := by
  have htaken := merge_taken RegId.PEN_TIME.info wholeDWord old v.toNat (2 ^ 64 - 1) (by decide) (by decide)
  exact htaken.trans (Nat.mod_eq_of_lt v.isLt)

theorem exec_timeWrite {v : DWord} (h : Reaches s m die ⟨.PEN_TIME, 0, 0⟩) (hhead : die.val = s.head) (hns : v.toNat % 2 ^ 32 < 1000000000) :
    exec (.timeWrite m die v) s = .next ((s.setPen { s.pen with time := { s.pen.time with time := some v } }).ans .ok) := by
  have hnew := penTime_new (old := s.reg die ⟨.PEN_TIME, 0, 0⟩) v
  have hval : BitVec.ofNat 64 (mkWr s m die ⟨.PEN_TIME, 0, 0⟩ v.toNat (2 ^ 64 - 1)).new = v := BitVec.eq_of_toNat_eq hnew
  have hlow : (mkWr s m die ⟨.PEN_TIME, 0, 0⟩ v.toNat (2 ^ 64 - 1)).new % 2 ^ 32 = v.toNat % 2 ^ 32 := by
    rw [← Nat.mod_mod_of_dvd _ (show 2 ^ 32 ∣ 2 ^ 64 by decide)]
    exact congrArg (· % 2 ^ 32) hnew
  have htaken : writeTime s (mkWr s m die ⟨.PEN_TIME, 0, 0⟩ v.toNat (2 ^ 64 - 1)) =
      (s.setPen { s.pen with time := { s.pen.time with time := some v } }).ans .ok := by
    unfold writeTime
    dsimp only
    rw [hlow, hval, if_neg (by rintro (hne | hge); exacts [hne hhead, absurd hns (Nat.not_lt.mpr hge)])]
  have hw := penTime_writable
  refine congrArg _ (put64_ok h hw.toWritable rfl (by decide) (regOn_of_regAt regAt_penTime (by decide) (by decide)) ?_)
  rw [writeFamily_pen hw.block, Nat.mod_eq_of_lt v.isLt]
  exact htaken

theorem exec_timeAdjWrite {w : Word} (h : Reaches s m die ⟨.PEN_TIME_ADJ, 0, 0⟩) (hhead : die.val = s.head) (hlo : -500000 ≤ w.toInt)
    (hhi : w.toInt ≤ 500000) :
    exec (.timeAdjWrite m die w) s = .next ((s.setPen { s.pen with time := { s.pen.time with adj := some w } }).ans .ok) := by
  have hnew : (mkWr s m die ⟨.PEN_TIME_ADJ, 0, 0⟩ w.toNat (2 ^ 32 - 1)).new % 2 ^ 32 = w.toNat :=
    (merge_taken RegId.PEN_TIME_ADJ.info R.PEN_TIME_ADJ.VALUE (s.reg die ⟨.PEN_TIME_ADJ, 0, 0⟩) w.toNat (2 ^ 32 - 1) (by decide)
      (by decide)).trans (Nat.mod_eq_of_lt w.isLt)
  have hval : BitVec.ofNat 32 (mkWr s m die ⟨.PEN_TIME_ADJ, 0, 0⟩ w.toNat (2 ^ 32 - 1)).new = w := BitVec.eq_of_toNat_eq hnew
  have htaken : writeTimeAdj s (mkWr s m die ⟨.PEN_TIME_ADJ, 0, 0⟩ w.toNat (2 ^ 32 - 1)) =
      (s.setPen { s.pen with time := { s.pen.time with adj := some w } }).ans .ok := by
    unfold writeTimeAdj sext
    dsimp only
    rw [hval, if_neg (by
      rintro (hne | hlt | hgt)
      exacts [hne hhead, absurd hlo (Int.not_le.mpr hlt), absurd hhi (Int.not_le.mpr hgt)])]
  exact congrArg _ (put32_pen h penTimeAdj_writable htaken)

theorem exec_timeStep {w : Word} (h : Reaches s m die ⟨.PEN_TIME_STEP, 0, 0⟩) (hhead : die.val = s.head) : exec (.timeStep m die w) s =
    .next ((s.setPen { s.pen with time := { s.pen.time with step := some (s.pen.time.step.getD 0 + w.toInt) } }).ans .ok) := by
  have hval : sext 32 w.toNat = w.toInt := by
    unfold sext
    rw [BitVec.ofNat_toNat, BitVec.setWidth_eq]
  have htaken : writeTimeStep s (mkWr s m die ⟨.PEN_TIME_STEP, 0, 0⟩ w.toNat (2 ^ 32 - 1)) =
      (s.setPen { s.pen with time := { s.pen.time with step := some (s.pen.time.step.getD 0 + w.toInt) } }).ans .ok := by
    unfold writeTimeStep mkWr
    dsimp only
    rw [hval, if_neg (fun hne => hne hhead)]
  exact congrArg _ (put32_pen h penTimeStep_writable htaken)

end

/-- Settles O54: each command is a write that its register takes, with the effect of the command's own rule. -/
theorem penCommandsComplete : Obligations.PenCommandsComplete := by
  refine fun s t m die x => ⟨fun h hfree ht => ⟨fun hx mac vid hmac hvid => ⟨?_, ?_⟩, fun index hindex hx => ?_, fun f u hhead hf hu => ?_⟩,
    fun index => ⟨fun h hindex => ⟨exec_vlanRead h hindex, fun u hu => ?_⟩, fun h => ⟨exec_nhRead h, exec_nhWrite h⟩⟩,
    fun r index h hx => exec_ringTailWrite h hx, fun h => ⟨fun y l u hts hlost hu => exec_tsPop h (tsPop_cons hts hlost hu), fun hts => ?_⟩,
    fun v w hhead => ⟨fun h hns => exec_timeWrite h hhead hns, fun h hlo hhi => exec_timeAdjWrite h hhead hlo hhi,
      fun h => exec_timeStep h hhead⟩, fun p v h hx ht hok => ⟨exec_portCfgWrite_on h hx ht hok, exec_portCfgWrite_off h hx ht hok⟩⟩
  · subst hx hmac hvid
    intro i e hfind
    have hpoke := l2Poke_ok h hfree ht (by decide) (by decide) (by decide) (fun h => absurd h (by decide))
    rw [if_pos rfl, l2Read_found hfind] at hpoke
    exact congrArg _ hpoke
  · subst hx hmac hvid
    intro hfind
    have hpoke := l2Poke_ok h hfree ht (by decide) (by decide) (by decide) (fun h => absurd h (by decide))
    rw [if_pos rfl, l2Read_missing hfind] at hpoke
    exact congrArg _ hpoke
  · subst hx
    exact exec_l2ReadIndex h hfree hindex ht
  · subst hf hu
    have hpoke : ∀ op, 3 ≤ op → op ≤ 7 → x = written s die ⟨.PEN_L2_CMD, 0, 0⟩ (named s die ⟨.PEN_L2_CMD, 0, 0⟩ [(R.PEN_L2_CMD.OP, op)]) →
        l2Poke s m die op = ((t.p die R.PEN_L2_STATUS.BUSY 1).setPen { t.pen with cmd := some (op, l2Data t die) }).ans .ok := by
      intro op h3 h7 hx
      subst hx
      rw [l2Poke_ok h hfree ht (by omega) h7 (by omega) (fun _ => hhead), if_neg (by omega)]
    exact ⟨fun hx => congrArg _ (hpoke 3 (by decide) (by decide) hx), fun hx => congrArg _ (hpoke 4 (by decide) (by decide) hx),
      fun hx => congrArg _ (hpoke 5 (by decide) (by decide) hx), fun hx => congrArg _ (hpoke 6 (by decide) (by decide) hx),
      fun hx => congrArg _ (hpoke 7 (by decide) (by decide) hx)⟩
  · obtain rfl : u = vlanStore s die index.toNat := hu
    refine ⟨exec_vlanWrite h hindex, fun hw => ⟨vlanStore_frame, fun k hk => ?_, vlanStore_word hw (by decide),
      fun k hk v hv => vlanStore_other hv hk⟩⟩
    rw [vlanStore_word hw (by omega), vlanMask_whole hk]
  · rw [exec_tsPop h (tsPop_nil hts), tsPop_lostWord]

end Sys2Proof.Machine
end

/-! # The L2 table (R400 to R402, R404) -/

section
set_option Elab.async false
namespace Sys2Proof.Machine

/-! ## Tables as sparse maps -/

/-- The listed values of a canonical map are those that it reads as. -/
theorem SMap.mem_iff_look {α : Type} [DecidableEq α] {f : Nat → α} {m : SMap α} (h : SMap.wf f m = true) {k : Nat} {v : α} :
    (k, v) ∈ m ↔ SMap.look m k = some v := by
  induction m with
  | nil => simp
  | cons e m ih =>
    obtain ⟨k', v'⟩ := e
    simp only [SMap.wf, Bool.and_eq_true] at h
    obtain ⟨⟨habove, -⟩, hw⟩ := h
    by_cases hk : k' = k
    · subst hk
      have hnot : (k', v) ∉ m := fun hm => absurd (of_decide_eq_true (List.all_eq_true.mp habove _ hm)) (lt_irrefl k')
      simp [SMap.look, hnot, eq_comm]
    · have hne : (k, v) ≠ (k', v') := fun he => hk (congrArg Prod.fst he).symm
      simp [SMap.look, hk, hne, ih hw]

/-- The keys of a canonical map rise. -/
theorem SMap.keys_rise {α : Type} [DecidableEq α] {f : Nat → α} {m : SMap α} (h : SMap.wf f m = true) :
    m.Pairwise (fun x y => x.1 < y.1) := by
  induction m with
  | nil => exact .nil
  | cons e m ih =>
    obtain ⟨k, v⟩ := e
    simp only [SMap.wf, Bool.and_eq_true] at h
    obtain ⟨⟨habove, -⟩, hw⟩ := h
    exact .cons (fun y hy => of_decide_eq_true (List.all_eq_true.mp habove y hy)) (ih hw)

/-- Write a value at each entry of a list of entries of table `t`. -/
def l2SetAll (t : Nat) (val : L2Ent → Option L2Ent) (m : SMap (Option L2Ent)) (l : List (Nat × L2Ent)) : SMap (Option L2Ent) :=
  l.foldl (fun m x => SMap.set (fun _ => none) m (t * 2 ^ 19 + x.1) (val x.2)) m

section
variable {t : Nat} {val : L2Ent → Option L2Ent} {m : SMap (Option L2Ent)} {l : List (Nat × L2Ent)}

theorem l2SetAll_wf (h : SMap.wf (fun _ => none) m = true) : SMap.wf (fun _ => none) (l2SetAll t val m l) = true := by
  induction l generalizing m with
  | nil => exact h
  | cons x l ih => exact ih (SMap.wf_set _ _ _ _ h)

theorem l2SetAll_other {k : Nat} (h : ∀ x ∈ l, k ≠ t * 2 ^ 19 + x.1) :
    SMap.get (fun _ => none) (l2SetAll t val m l) k = SMap.get (fun _ => none) m k := by
  induction l generalizing m with
  | nil => rfl
  | cons x l ih =>
    exact (ih fun y hy => h y (List.mem_cons_of_mem x hy)).trans (SMap.get_set_other _ _ _ _ _ (h x List.mem_cons_self))

theorem l2SetAll_mem (hw : SMap.wf (fun _ => none) m = true) (hl : l.Pairwise (fun x y => x.1 < y.1)) {x : Nat × L2Ent} (hx : x ∈ l) :
    SMap.get (fun _ => none) (l2SetAll t val m l) (t * 2 ^ 19 + x.1) = val x.2 := by
  induction l generalizing m with
  | nil => exact absurd hx List.not_mem_nil
  | cons y l ih =>
    obtain ⟨hlt, hl⟩ := List.pairwise_cons.mp hl
    rcases List.mem_cons.mp hx with rfl | hx
    · refine (l2SetAll_other (l := l) fun z hz => ?_).trans (SMap.get_set_same _ _ _ _ hw)
      have := hlt z hz
      omega
    · exact ih (SMap.wf_set _ _ _ _ hw) hl hx

end

/-! ## What operations leave in the tables -/

section
variable {s : State} {d t i : Nat}

theorem State.l2_of_pen {u : State} (h : u.pen.l2 = s.pen.l2) : u.l2 t i = s.l2 t i := by
  unfold State.l2
  rw [h]

theorem State.setPenDie_l2 {x : PenDie} : (s.setPenDie d x).pen.l2 = s.pen.l2 := by
  unfold State.setPenDie
  rw [State.p_pen]
  rfl

theorem State.onDies_l2 {f : State → Nat → State} (h : ∀ u d, (f u d).pen.l2 = u.pen.l2) : (s.onDies f).pen.l2 = s.pen.l2 := by
  have hfold : ∀ (l : List Nat) (u : State), (l.foldl f u).pen.l2 = u.pen.l2 := by
    intro l
    induction l with
    | nil => exact fun u => rfl
    | cons d l ih => exact fun u => (ih _).trans (h u d)
  exact hfold _ _

/-- A change of the arbiter's table changes one place of it. -/
theorem l2Change_arb {x : Option L2Ent} :
    (l2Change s arbTable i x).pen.l2 = SMap.set (fun _ => none) s.pen.l2 (arbTable * 2 ^ 19 + i) x := by
  unfold l2Change
  rw [if_pos rfl]
  refine (State.onDies_l2 fun u d => ?_).trans rfl
  split
  · rfl
  · exact State.setPenDie_l2

/-- The entries listed are those that the table reads as. -/
theorem mem_l2Listed (hw : SMap.wf (fun _ => none) s.pen.l2 = true) {e : L2Ent} : (i, e) ∈ l2Listed s t ↔ i < 2 ^ 19 ∧ s.l2 t i = some e := by
  have hget : s.l2 t i = some e ↔ SMap.look s.pen.l2 (t * 2 ^ 19 + i) = some (some e) := by
    unfold State.l2 SMap.get
    cases SMap.look s.pen.l2 (t * 2 ^ 19 + i) <;> simp
  unfold l2Listed
  rw [List.mem_filterMap, hget, ← SMap.mem_iff_look hw]
  constructor
  · rintro ⟨⟨k, y⟩, hmem, hsome⟩
    dsimp only at hsome
    split at hsome
    · next hk =>
      obtain ⟨e', rfl, he⟩ := Option.map_eq_some_iff.mp hsome
      obtain ⟨rfl, rfl⟩ := Prod.mk.inj he
      have hkey : t * 2 ^ 19 + k % 2 ^ 19 = k := by omega
      rw [hkey]
      exact ⟨Nat.mod_lt _ (Nat.two_pow_pos 19), hmem⟩
    · exact absurd hsome (by simp)
  · rintro ⟨hi, hmem⟩
    refine ⟨_, hmem, ?_⟩
    have hdiv : (t * 2 ^ 19 + i) / 2 ^ 19 = t := by omega
    have hmod : (t * 2 ^ 19 + i) % 2 ^ 19 = i := by omega
    dsimp only
    rw [if_pos hdiv, hmod, Option.map_some]

theorem l2Listed_lt {x : Nat × L2Ent} (h : x ∈ l2Listed s t) : x.1 < 2 ^ 19 := by
  obtain ⟨y, -, hsome⟩ := List.mem_filterMap.mp h
  split at hsome
  · obtain ⟨e, -, rfl⟩ := Option.map_eq_some_iff.mp hsome
    exact Nat.mod_lt _ (Nat.two_pow_pos 19)
  · exact absurd hsome (by simp)

theorem l2Listed_rise (hw : SMap.wf (fun _ => none) s.pen.l2 = true) : (l2Listed s t).Pairwise (fun x y => x.1 < y.1) := by
  refine List.Pairwise.filterMap _ ?_ (SMap.keys_rise hw)
  intro x y hxy a ha b hb
  split at ha
  · split at hb
    · obtain ⟨e, -, rfl⟩ := Option.map_eq_some_iff.mp ha
      obtain ⟨e', -, rfl⟩ := Option.map_eq_some_iff.mp hb
      dsimp only
      omega
    · exact absurd hb (by simp)
  · exact absurd ha (by simp)

end

/-! ## A tick of age (R402) -/

/-- An entry one tick older. -/
def L2Ent.older (e : L2Ent) : L2Ent := { e with hit := false, age := if e.static then e.age else e.age + 1 }

/-- A table one tick older. -/
def ageTable (s : State) (t : Nat) : State := (l2Listed s t).foldl (fun s x => s.setL2 t x.1 (some x.2.older)) s

/-- The replicas that the arbiter reaches, and then its own table, one tick older. -/
def ageAll (s : State) : State := ageTable (s.onDies (fun s d => if s.on d R.PEN_STATUS.ARB_UNREACH then s else ageTable s d)) arbTable

/-- The arbiter's entries that have aged out. -/
def agedOut (s : State) : List (Nat × L2Ent) := (l2Listed s arbTable).filter (fun x => !x.2.static && decide (4 ≤ x.2.age))

/-- Entries of the arbiter's table go. -/
def l2Remove (s : State) (l : List (Nat × L2Ent)) : State :=
  l.foldl (fun s x => l2Change (s.setWindow arbTable x.1 false) arbTable x.1 none) s

section
variable {s : State} {d t i : Nat}

theorem ageTable_l2 : (ageTable s t).pen.l2 = l2SetAll t (fun e => some e.older) s.pen.l2 (l2Listed s t) := by
  have hfold : ∀ (l : List (Nat × L2Ent)) (u : State),
      (l.foldl (fun s x => s.setL2 t x.1 (some x.2.older)) u).pen.l2 = l2SetAll t (fun e => some e.older) u.pen.l2 l := by
    intro l
    induction l with
    | nil => exact fun u => rfl
    | cons x l ih => exact fun u => ih _
  exact hfold _ _

theorem l2Remove_l2 {l : List (Nat × L2Ent)} : (l2Remove s l).pen.l2 = l2SetAll arbTable (fun _ => none) s.pen.l2 l := by
  unfold l2Remove
  induction l generalizing s with
  | nil => rfl
  | cons x l ih =>
    rw [List.foldl_cons, ih, l2Change_arb]
    rfl

/-- The aging of replicas leaves the arbiter's table. -/
theorem ageReplicas_l2 (hw : SMap.wf (fun _ => none) s.pen.l2 = true) {l : List Nat} (hl : ∀ d ∈ l, d < arbTable) (hi : i < 2 ^ 19) :
    SMap.wf (fun _ => none) (s.each l (fun s d => if s.on d R.PEN_STATUS.ARB_UNREACH then s else ageTable s d)).pen.l2 = true ∧
      (s.each l (fun s d => if s.on d R.PEN_STATUS.ARB_UNREACH then s else ageTable s d)).l2 arbTable i = s.l2 arbTable i := by
  induction l generalizing s with
  | nil => exact ⟨hw, rfl⟩
  | cons d l ih =>
    have hd : d < 8 := hl d List.mem_cons_self
    have hstep : SMap.wf (fun _ => none) (if s.on d R.PEN_STATUS.ARB_UNREACH then s else ageTable s d).pen.l2 = true ∧
        (if s.on d R.PEN_STATUS.ARB_UNREACH then s else ageTable s d).l2 arbTable i = s.l2 arbTable i := by
      split
      · exact ⟨hw, rfl⟩
      · refine ⟨ageTable_l2 ▸ l2SetAll_wf hw, ?_⟩
        unfold State.l2
        rw [ageTable_l2]
        refine l2SetAll_other fun x hx => ?_
        have hlt := l2Listed_lt hx
        simp only [arbTable]
        omega
    obtain ⟨hw', hsame⟩ := hstep
    obtain ⟨hlast, heq⟩ := ih hw' (fun x hx => hl x (List.mem_cons_of_mem d hx))
    exact ⟨hlast, heq.trans hsame⟩

/-- Every entry of the arbiter's table is one tick older. -/
theorem ageAll_l2 (hw : SMap.wf (fun _ => none) s.pen.l2 = true) {e : L2Ent} (hi : i < 2 ^ 19) (he : s.l2 arbTable i = some e) :
    SMap.wf (fun _ => none) (ageAll s).pen.l2 = true ∧ (ageAll s).l2 arbTable i = some e.older := by
  have hdies : ∀ d ∈ s.dies, d < arbTable := fun d hd => List.mem_range.mp (List.mem_of_mem_filter hd)
  obtain ⟨hw', hsame⟩ := ageReplicas_l2 hw hdies hi
  have hmem := (mem_l2Listed hw').mpr ⟨hi, hsame.trans he⟩
  refine ⟨ageTable_l2 ▸ l2SetAll_wf hw', ?_⟩
  unfold ageAll State.l2
  rw [ageTable_l2]
  exact l2SetAll_mem hw' (l2Listed_rise hw') hmem

/-- The arbiter's table without the entries that have aged out. -/
theorem removeAged_l2 (hw : SMap.wf (fun _ => none) s.pen.l2 = true) {e : L2Ent} (hi : i < 2 ^ 19) (he : s.l2 arbTable i = some e) :
    (l2Remove s (agedOut s)).l2 arbTable i = if e.static = false ∧ 4 ≤ e.age then none else some e := by
  have hmem : (i, e) ∈ l2Listed s arbTable := (mem_l2Listed hw).mpr ⟨hi, he⟩
  unfold State.l2
  rw [l2Remove_l2]
  split
  · next hgone =>
    obtain ⟨hstatic, hage⟩ := hgone
    have hin : (i, e) ∈ agedOut s := List.mem_filter.mpr ⟨hmem, by simp [hstatic, hage]⟩
    exact l2SetAll_mem hw ((l2Listed_rise hw).filter _) hin
  · next hstays =>
    refine (l2SetAll_other fun x hx hkey => hstays ?_).trans he
    obtain ⟨hx, haged⟩ := List.mem_filter.mp hx
    obtain ⟨j, e'⟩ := x
    obtain rfl : i = j := by simpa using hkey
    obtain rfl : e = e' := Option.some.inj (he.symm.trans ((mem_l2Listed hw).mp hx).right)
    simpa using haged

theorem exec_ageTick (hen : s.on s.head R.PEN_AGE_CFG.EN = true) (hruns : penRuns s s.head = true) :
    exec .ageTick s = .next (l2Remove (ageAll s) (agedOut (ageAll s))) :=
  congrArg _ (if_pos ⟨hen, hruns⟩)

theorem ageTick_l2 (hw : SMap.wf (fun _ => none) s.pen.l2 = true) {e : L2Ent} (hi : i < 2 ^ 19) (he : s.l2 arbTable i = some e) :
    (l2Remove (ageAll s) (agedOut (ageAll s))).l2 arbTable i =
      if e.static = false ∧ 4 ≤ e.older.age then none else some e.older := by
  obtain ⟨hw', hold⟩ := ageAll_l2 hw hi he
  exact removeAged_l2 hw' hi hold

end

/-! ## The arbiter, the replicas, locks and windows (R400, R401, R404) -/

section
variable {s t u : State} {die : Die}

theorem exec_arbiterCommand {op r : Nat} {w : List Word} (hcmd : s.pen.cmd = some (op, w)) (hruns : penRuns s s.head = true)
    (hdone : l2Command (s.setPen { s.pen with cmd := none }) op w = (r, u)) :
    exec (.arbiterApply die true) s = .next ((u.p s.head R.PEN_L2_STATUS.RESULT r).p s.head R.PEN_L2_STATUS.BUSY 0) := by
  have huhead : u.head = s.head := by
    have hk : Kept s (l2Command (s.setPen { s.pen with cmd := none }) op w).2 := .l2Command (.setPen (.refl s))
    rw [hdone] at hk
    exact State.head_of_dev hk.dev
  calc exec (.arbiterApply die true) s = execArbiterApply die true s := rfl
    _ = _ := by
      unfold execArbiterApply
      rw [if_pos rfl, hcmd]
      dsimp only
      rw [if_pos hruns, hdone]
      dsimp only
      rw [huhead]

theorem exec_arbiterLearn {v : LearnEv} {l : List LearnEv} (hlearn : (s.penDie die).learn = v :: l) (hruns : penRuns s die = true)
    (ht : t = s.setPenDie die { s.penDie die with learn := l }) : exec (.arbiterApply die false) s =
      .next (if s.on die R.PEN_STATUS.ARB_UNREACH then l2Apply t die v else if penRuns s s.head then l2Apply t arbTable v else s) := by
  calc exec (.arbiterApply die false) s = execArbiterApply die false s := rfl
    _ = _ := by
      unfold execArbiterApply
      rw [if_neg (by decide), hlearn]
      dsimp only
      rw [if_pos hruns, ← ht]

theorem exec_replicaUpdate {x : L2Upd} {l : List L2Upd} (hupd : (s.penDie die).upd = x :: l) : exec (.replicaUpdate die) s =
    .next (replicaTake (s.setPenDie die { s.penDie die with upd := l, next := x.seq + 1 }) die x.idx x.ent) := by
  calc exec (.replicaUpdate die) s = execReplicaUpdate die s := rfl
    _ = _ := by
      unfold execReplicaUpdate
      rw [hupd]

theorem exec_lockExpiry {tab : Fin 9} {i : Fin 524288} {e : L2Ent} (he : s.l2 tab i = some e) (hlock : e.locked = true) :
    exec (.lockExpiry tab i) s =
      .next (l2Change (s.setWindow tab i false) tab i (some { e with locked := false, moves := 0, left := 0 })) := by
  calc exec (.lockExpiry tab i) s = execLockExpiry tab i s := rfl
    _ = _ := by
      unfold execLockExpiry
      rw [he]
      dsimp only
      rw [if_pos hlock]

theorem exec_moveWindowEnd {tab : Fin 9} {i : Fin 524288} {e : L2Ent} (he : s.l2 tab i = some e) (hwin : s.window tab i = true)
    (hlock : e.locked = false) : exec (.moveWindowEnd tab i) s =
      .next (l2Change (s.setWindow tab i false) tab i (some { e with moves := 0 })) := by
  have he' : (s.setWindow tab i false).l2 tab i = some e := he
  calc exec (.moveWindowEnd tab i) s = execMoveWindowEnd tab i s := rfl
    _ = _ := by
      unfold execMoveWindowEnd
      dsimp only
      rw [if_pos hwin, he']
      dsimp only
      rw [if_neg (by rw [hlock]; decide)]

theorem exec_resyncDone (hp : s.present die = true) (hdep : die.val ≠ s.head) (hsync : s.on die R.PEN_STATUS.RESYNC = true)
    (hreach : s.on die R.PEN_STATUS.ARB_UNREACH = false) (ht : t = copyReplica s die)
    (hu : u = t.setPenDie die { t.penDie die with upd := (s.penDie s.head).upd, next := (s.penDie s.head).next }) :
    exec (.resyncDone die) s = .next ((u.p die R.PEN_STATUS.RESYNC 0).p die R.PEN_STATUS.REPLICA_STALE 0) := by
  subst ht hu
  exact congrArg _ (if_pos ⟨hp, hdep, hsync, hreach⟩)

end

/-- Settles O55: commands and learn events reach the arbiter by its queue; a tick of age is judged entry by entry, since the tables list each
entry once. -/
theorem l2TableComplete : Obligations.L2TableComplete := by
  refine fun s die => ⟨fun op w r u hcmd hruns => exec_arbiterCommand hcmd hruns, fun v l t hlearn hruns ht => ⟨fun hreach hhead => ?_,
    fun hreach => ?_⟩, fun u l => exec_replicaUpdate, fun t i e he => ⟨exec_lockExpiry he, exec_moveWindowEnd he⟩,
    fun hen hruns hw => ⟨_, exec_ageTick hen hruns, fun i e hi he => ⟨fun hstatic => ?_, fun hstatic => ?_⟩⟩,
    fun t u hp hdep hsync hreach => exec_resyncDone hp hdep hsync hreach⟩
  · rw [exec_arbiterLearn hlearn hruns ht, if_neg (by rw [hreach]; decide), if_pos hhead]
  · rw [exec_arbiterLearn hlearn hruns ht, if_pos hreach]
  · rw [ageTick_l2 hw hi he, if_neg (by simp [hstatic])]
    simp [L2Ent.older, hstatic]
  · rw [ageTick_l2 hw hi he]
    simp [L2Ent.older, hstatic]

end Sys2Proof.Machine
end

/-! # Frames in a port engine (R389 to R395, R406, R408, R411 to R413, R415) -/

section
set_option Elab.async false
namespace Sys2Proof.Machine

/-! ## What a port receives (R374, R387, R391, R392) -/

section
variable {s t u v : State} {d p : Nat} {k : RxKind} {frame b : List Byte} {cs : List Coding} {bad : Bool} {q : Nat × Nat}

theorem receiveFrame_held (hk : kindTaken s d p k = true) (hc : takeCoding s d p cs = (bad, v)) (hbelow : v.belowRun d = true) :
    receiveFrame s d p k frame cs = holdFrame v d p k frame bad := by
  unfold receiveFrame
  rw [if_pos hk, hc]
  exact if_pos hbelow

theorem receiveFrame_taken (hk : kindTaken s d p k = true) (hc : takeCoding s d p cs = (bad, v)) (hbelow : v.belowRun d = false) :
    receiveFrame s d p k frame cs = takeFrame (deliverHeld v d p) d p k frame bad (rxStamp (deliverHeld v d p) d p) := by
  unfold receiveFrame
  rw [if_pos hk, hc]
  exact if_neg (fun h => Bool.false_ne_true (hbelow.symm.trans h))

section
variable (hb : b = frame.take (frame.length - 4))
include hb

theorem takeEth_good (hm : macTake s d p false frame bad = (true, t)) :
    takeEth s d p frame bad q = if frameType b = 0x8808 then takePause t d p b else ethReceived t d p b q := by
  subst hb
  unfold takeEth
  dsimp only
  rw [hm]

theorem takeEth_bad (hm : macTake s d p false frame bad = (false, t)) : takeEth s d p frame bad q =
    receiveBad t d p (laneFrame d p (laneClass t d p b).1 (laneClass t d p b).2 false b q) := by
  subst hb
  unfold takeEth
  dsimp only
  rw [hm]

theorem takeData_good (hm : macTake s d p true frame bad = (true, t)) : takeData s d p frame bad q =
    match tnbCheck b with
    | some r => tnbDrop t d r
    | none => if fld (beAt b 0 1) 0 4 ≠ 0 then t else if t.g d (R.PEN_PORT_CFG.STATE p) ≠ 2 then t.portCnt d p 3 1
      else tnbForward t d (laneFrame d p (tnbQueue b) 0 true b q) := by
  subst hb
  unfold takeData
  dsimp only
  rewrite [hm]
  rfl

theorem takeHello_good (hm : macTake s d p true frame bad = (true, t)) (hvalid : helloValid b = true) : takeHello s d p frame bad =
    if beAt b 28 4 % 2 ^ 20 = t.g d R.PEN_TNB_CFG.MYID then (t.p d (R.PEN_PORT_STATUS.LOOP p) 1).p d R.PEN_EVT.TNB_DOWN 1
    else if beAt b 20 1 < 1 ∨ 1 < beAt b 22 1 then t.p d R.PEN_EVT.TNB_DOWN 1
    else if (beAt b 23 1).testBit 0 then (((t.setHello d p ⟨true, 0⟩).p d (R.PEN_PORT_STATUS.LOOP p) 0).p d (R.PEN_PORT_STATUS.VER p)
      0x10).p d (R.PEN_PORT_STATUS.LINK p) 2
    else ((t.setHello d p ⟨true, 0⟩).p d (R.PEN_PORT_STATUS.LOOP p) 0).p d (R.PEN_PORT_STATUS.VER p) 0x10 := by
  subst hb
  unfold takeHello
  dsimp only
  rw [hm]
  exact if_neg (by simp [hvalid])

end

theorem takePauseFrame_good (hm : macTake s d p (portTnb s d p) frame bad = (true, t)) : takePauseFrame s d p frame bad = takePause t d p frame := by
  unfold takePauseFrame
  rw [hm]

end

section
variable {s t u v w : State} {die : Die} {p : Fin 32} {frame b : List Byte} {cs : List Coding} {bad : Bool} {q : Nat × Nat}

/-- A port that negotiates takes the kinds its coding has. -/
theorem kindTaken_pause (hp : s.present die = true) (hheld : s.held die Blk.pen = false) (hup : portUp s die p = true) :
    kindTaken s die p .pause = true := by
  unfold kindTaken
  rw [hp, hheld, hup]
  rfl

section
variable (hc : takeCoding s die p cs = (bad, v)) (hbelow : v.belowRun die = true)
include hc hbelow

theorem exec_frameReceive_held (hk : kindTaken s die p .eth = true) :
    exec (.frameReceive die p frame cs) s = .next (holdFrame v die p .eth frame bad) :=
  congrArg _ (receiveFrame_held hk hc hbelow)

theorem exec_pauseReceive_held (hk : kindTaken s die p .pause = true) (htype : frameType frame = 0x8808) :
    exec (.pauseReceive die p frame cs) s = .next (holdFrame v die p .pause frame bad) :=
  congrArg _ ((if_pos htype).trans (receiveFrame_held hk hc hbelow))

theorem exec_tnbDataReceive_held (hk : kindTaken s die p .data = true) (hkind : fld (beAt frame 0 1) 0 4 ≠ 1) :
    exec (.tnbDataReceive die p frame cs) s = .next (holdFrame v die p .data frame bad) :=
  congrArg _ ((if_pos hkind).trans (receiveFrame_held hk hc hbelow))

theorem exec_helloReceive_held (hk : kindTaken s die p .hello = true) :
    exec (.helloReceive die p frame cs) s = .next (holdFrame v die p .hello frame bad) :=
  congrArg _ (receiveFrame_held hk hc hbelow)

end

section
variable (hc : takeCoding s die p cs = (bad, v)) (hw : w = deliverHeld v die p) (hq : q = rxStamp w die p) (hbelow : v.belowRun die = false)
include hc hw hq hbelow

theorem exec_frameReceive_taken (hk : portTakes s die p false = true) :
    exec (.frameReceive die p frame cs) s = .next (takeEth w die p frame bad q) := by
  subst hq hw
  exact congrArg _ (receiveFrame_taken (k := .eth) hk hc hbelow)

omit hq in
theorem exec_pauseReceive_taken (hk : kindTaken s die p .pause = true) (htype : frameType frame = 0x8808) :
    exec (.pauseReceive die p frame cs) s = .next (takePauseFrame w die p frame bad) := by
  subst hw
  exact congrArg _ ((if_pos htype).trans (receiveFrame_taken hk hc hbelow))

theorem exec_tnbDataReceive_taken (hk : portTakes s die p true = true) (hkind : fld (beAt frame 0 1) 0 4 ≠ 1) :
    exec (.tnbDataReceive die p frame cs) s = .next (takeData w die p frame bad q) := by
  subst hq hw
  exact congrArg _ ((if_pos hkind).trans (receiveFrame_taken (k := .data) hk hc hbelow))

omit hq in
theorem exec_helloReceive_taken (hk : helloPort s die p = true) :
    exec (.helloReceive die p frame cs) s = .next (takeHello w die p frame bad) := by
  subst hw
  exact congrArg _ (receiveFrame_taken (k := .hello) hk hc hbelow)

end

end

/-! ## The hello, banks and low-power idle (R389, R408, R410) -/

section
variable {s t u : State} {die : Die} {p : Fin 32}

theorem exec_helloSend {x : BitVec 32} {cut : Bool} (hport : helloPort s die p = true) (hfree : s.free 32 = (x, t))
    (hcode : txCoding t die p = (cut, u)) : exec (.helloSend die p) s = .next (replyBytes u (wireBytes (helloFrame u die p x) cut)) := by
  calc exec (.helloSend die p) s = execHelloSend die p s := rfl
    _ = _ := by
      unfold execHelloSend
      rw [if_pos hport, hfree]
      dsimp only
      rw [hcode]

theorem exec_keepaliveMiss (hport : helloPort s die p = true) (hlink : s.g die (R.PEN_PORT_STATUS.LINK p) = 2) :
    exec (.keepaliveMiss die p) s = .next (if 2 ≤ (s.hello die p).missed then
      ((s.setHello die p .reset).p die (R.PEN_PORT_STATUS.LINK p) 1).p die R.PEN_EVT.TNB_DOWN 1
    else s.setHello die p { s.hello die p with missed := (s.hello die p).missed + 1 }) :=
  congrArg _ (if_pos ⟨hport, hlink⟩)

theorem exec_lpiEntry (hp : s.present die = true) (hheld : s.held die Blk.pen = false) (hup : portUp s die p = true)
    (hlpi : laneLpiAgreed s die p = true) (hsleep : s.g die (R.LAN_CTRL.SLEEP p) = 1) (hempty : ∀ q, q < 8 → s.queue die p q = []) :
    exec (.lpiEntry die p) s = .next (s.p die (R.PEN_PORT_STATUS.LPI p) 1) := by
  have hall : (List.range 8).all (fun q => (s.queue die p q).isEmpty) = true :=
    List.all_eq_true.mpr fun q hq => by rw [hempty q (List.mem_range.mp hq)]; rfl
  exact congrArg _ (if_pos ⟨hp, by rw [hheld]; rfl, hup, hlpi, hsleep, hall⟩)

end

/-! ## What leaves a port engine, and the trunk (R411 to R413) -/

section
variable {s t u : State} {die : Die}

theorem exec_egressSend {e : Fin 64} {q : Nat} {f : Frame} {l : List Frame} (hruns : penRuns s die = true)
    (hpick : pickQueue s die e = (some q, t)) (hqueue : t.queue die e q = f :: l) (hsend : sendOut (t.setQueue die e q l) die e f = some u) :
    exec (.egressSend die e) s = .next (retryOut u die) := by
  calc exec (.egressSend die e) s = execEgressSend die e s := rfl
    _ = _ := by
      unfold execEgressSend
      dsimp only
      rw [if_pos hruns, hpick]
      dsimp only
      rw [hqueue]
      dsimp only
      rw [hsend]

theorem exec_trunkCell {e : Fin 4} {y : TrunkFrame} {l : List TrunkFrame} (hruns : penRuns s die = true) (hair : s.air die e = y :: l) :
    exec (.trunkCell die e) s = .next (if 1 < y.left then s.setAir die e ({ y with left := y.left - 1 } :: l)
      else (trunkArrive (s.setAir die e l) die y.frame).getD s) := by
  calc exec (.trunkCell die e) s = execTrunkCell die e s := rfl
    _ = _ := by
      unfold execTrunkCell
      rw [if_pos hruns, hair]

/-- The response to a Y write whose frame has left the air. -/
theorem exec_yWriteResponse {f : Frame} {l : List Frame} {n : Nat} {r : Resp} (hout : s.yout die = f :: l)
    (hn : s.neighbour die (trunkEdge s die Dst.y) = some n) (hair : (s.air n (5 - trunkEdge s die Dst.y)).length ≤ l.length) :
    exec (.yWriteResponse die r) s = .next (if r = .ok then s.setYout die l else (s.setYout die l).penCnt die 7) := by
  calc exec (.yWriteResponse die r) s = execYWriteResponse die r s := rfl
    _ = _ := by
      unfold execYWriteResponse
      dsimp only
      rw [hout, hn]
      dsimp only
      rw [decide_eq_false (Nat.not_lt.mpr hair), if_neg Bool.false_ne_true, if_neg (c := false = true ∧ _) (fun h => Bool.false_ne_true h.left)]

end

/-! ## Host rings and PPS (R415, R417) -/

section
variable {s t u : State} {die : Die} {r : Fin 16}

theorem exec_ringError {x : Resp} (hack : s.ringAck die r = some x) (hx : x ≠ .ok) : exec (.ringError die r) s =
    .next ((((s.setRingAck die r none).p die (R.PEN_RING_STATUS.ERR r) 1).p die (R.PEN_RING_STATUS.RESP r) x.code).p die
      R.PEN_EVT.RING_ERR 1) := by
  calc exec (.ringError die r) s = execRingError die r s := rfl
    _ = _ := by
      unfold execRingError
      rw [hack]
      exact congrArg _ (if_neg hx)

theorem exec_txRingSend {hw bw : List MWord} {h : List Byte} {n : Nat} (hruns : penRuns s die = true) (hr : 8 ≤ r.val)
    (hring : ringRuns s die r = true) (hack : s.ringAck die r = none) (hslots : ringHead s die r ≠ ringTail s die r)
    (hread : readMany s (s.penMaster die) (slotAddr s die r) 4 = (.ok, hw, t)) (hh : h = hw.flatMap (fun w => bytesLE 8 w.v.toNat))
    (hn : n = leAt h 0 2) (hbody : readMany t (s.penMaster die) (slotAddr s die r + 32) ((n + 7) / 8) = (.ok, bw, u)) :
    exec (.txRingSend die r) s = .next { txForward (ringAdvance u die r) die (txFrame die r h ((bw.flatMap (fun w =>
      bytesLE 8 w.v.toNat)).take n) ((hw ++ bw).any (fun w => w.p))) ((leAt h 2 2).testBit 4) with reply := s.reply } := by
  subst hh hn
  calc exec (.txRingSend die r) s = execTxRingSend die r s := rfl
    _ = _ := by
      unfold execTxRingSend
      dsimp only
      rw [if_pos ⟨hruns, hr, hring, hack, hslots⟩, hread]
      dsimp only
      rw [hbody]

theorem exec_ppsOut {rise : Bool} (hen : s.on s.head R.PEN_PPS_CFG.EN = true) (hpps : s.pen.pps = !rise) :
    exec (.ppsOut rise) s = .next (s.setPen { s.pen with pps := rise }) :=
  congrArg _ (if_pos ⟨hen, by rw [hpps]; cases rise <;> decide⟩)

end

/-- Settles O56: each event by the branch that its conditions choose; a received frame goes on by its kind once the coding layers and the MAC
have passed it. -/
theorem penTrafficComplete : Obligations.PenTrafficComplete := by
  refine fun s t die p => ⟨fun frame b cs bad v w hb hc hw => ⟨fun hbelow => ⟨exec_frameReceive_held hc hbelow, exec_pauseReceive_held hc hbelow,
      exec_tnbDataReceive_held hc hbelow, exec_helloReceive_held hc hbelow⟩, fun q hq hbelow => ⟨fun hk hm => ?_, fun hk hm => ?_,
      fun hp hheld hup htype hm => ?_, fun hk hkind hm => ?_, fun hk hm hvalid => ?_⟩⟩,
    fun q => rfl, fun hport => ⟨fun x cut u => exec_helloSend hport, fun hlink => congrArg _ (if_pos ⟨hport, hlink⟩), fun hlink => ?_⟩,
    fun k hdrain => ⟨fun hempty => congrArg _ (if_pos ⟨hdrain, hempty⟩), congrArg _ (if_pos hdrain)⟩,
    exec_lpiEntry, fun e q f l u => exec_egressSend, fun e y l hruns hair => ⟨fun hleft => ?_, fun hleft harrive => ?_⟩,
    fun f l n r hout hn hair => ⟨fun hok => ?_, fun hbad => ?_⟩,
    fun r => ⟨fun hack => congrArg _ (if_pos hack), fun x => exec_ringError, fun hw bw h n u => exec_txRingSend⟩,
    fun hruns => congrArg _ (if_pos hruns), fun rise => exec_ppsOut⟩
  · rw [exec_frameReceive_taken hc hw hq hbelow hk, takeEth_good hb hm]
    exact ⟨fun htype => congrArg _ (if_pos htype), fun htype => congrArg _ (if_neg htype)⟩
  · rw [exec_frameReceive_taken hc hw hq hbelow hk, takeEth_bad hb hm]
  · rw [exec_pauseReceive_taken hc hw hbelow (kindTaken_pause hp hheld hup) htype, takePauseFrame_good hm]
  · rw [exec_tnbDataReceive_taken hc hw hq hbelow hk hkind, takeData_good hb hm]
    refine ⟨fun r hr => by rw [hr], fun hnone hzero hstate => ?_⟩
    rw [hnone]
    dsimp only
    rw [if_neg (not_not.mpr hzero), if_neg (not_not.mpr hstate)]
  · rw [exec_helloReceive_taken hc hw hbelow hk, takeHello_good hb hm hvalid]
    refine ⟨fun hloop => congrArg _ (if_pos hloop), fun hid hlo hhi u hu => ?_⟩
    subst hu
    rw [if_neg hid, if_neg (by omega)]
  · rw [exec_keepaliveMiss hport hlink]
    exact ⟨fun hmissed => congrArg _ (if_pos hmissed), fun hmissed => congrArg _ (if_neg (Nat.not_le.mpr hmissed))⟩
  · rw [exec_trunkCell hruns hair, if_pos hleft]
  · rw [exec_trunkCell hruns hair, if_neg (Nat.not_lt.mpr hleft), harrive]
    rfl
  · rw [exec_yWriteResponse hout hn hair, if_pos hok]
  · rw [exec_yWriteResponse hout hn hair, if_neg hbad]

end Sys2Proof.Machine
end

/-! # Sentences (R436 to R440) -/

section
set_option Elab.async false
namespace Sys2Proof.Machine

/-! ## Writes while a sentence is open (R436) -/

section
variable {s t : State} {m : Master} {d v : Nat} {r : RegRef}

theorem off_lt_of_regOn (h : regOn s d r.off = some r) : r.off < 2 ^ 24 := by
  by_contra hge
  have hnone : blockAt r.off = none := by
    unfold blockAt
    repeat rw [if_neg (by omega)]
  have hreg : regAt r.off = none := by
    unfold regAt
    rw [hnone]
  unfold regOn at h
  rw [hreg] at h
  exact absurd h (by simp)

/-- A 32-bit write of a register of a die on which a sentence is open. -/
theorem put32_open (h : Open s m d r) (ha : r.off % 4 = 0) : put32 s m d r.off v =
    (if r.id = .SNT_COMMIT then writeSntCommit s (mkWr s m d r (v % 2 ^ 32) (2 ^ 32 - 1))
      else writeReg s m d r (v % 2 ^ 32) (2 ^ 32 - 1)).coreSees m true (d * 0x1000000 + r.off) := by
  obtain ⟨hm, hp, hb, hr, ho, hf, -, -⟩ := h
  have hlt := off_lt_of_regOn ho
  have hdefined : bytesDefined s d r.off 4 = true := by
    have hword : r.off / 4 * 4 = r.off := by omega
    have hone : (r.off % 4 + 4 + 3) / 4 = 1 := by omega
    have hend : r.off + 4 ≤ 2 ^ 24 := by omega
    simpa [bytesDefined, hone, hword, ho] using hend
  have hform : ¬ ((4 ≠ 4 ∧ 4 ≠ 8) ∨ r.off % 4 ≠ 0) := by omega
  unfold put32 accessWrite writeOver
  rw [companionCtrl_present s d _ hp, if_neg (by decide), ctrlRoute_running s m d hm hp hb hr]
  simp only [regWrite, inAperture_reg s d r.off r ho, hdefined, Bool.not_true, Bool.false_eq_true, if_false, hform, true_or, if_true,
    writeWord, ho, hf, Nat.sub_self, Nat.mul_zero, Nat.pow_zero, Nat.mul_one]

/-- A command of an open sentence that names a field of a register with nothing to stage. -/
theorem poke_open {f : Fld} {x : Nat} (h : Open s m d r) (ha : r.off % 4 = 0) (hf : f.off = r.off) (hcommit : r.id ≠ .SNT_COMMIT)
    (himage : r.id.imageSet = false) (hwrite : r.id.info.writable ≠ 0) (hrws : r.id.info.rws = 0)
    (hw : writeFamily s (mkWr s m d r (named s d r [(f, x)]) (2 ^ 32 - 1)) = t.ans .ok) : poke s m d [(f, x)] = t.ans .ok := by
  have hopen : sntState s d = Snt.opened := by
    obtain ⟨-, -, -, -, -, -, -, hs⟩ := h
    exact hs
  have hhead : r.id.info.head = true → d = s.head := by
    obtain ⟨-, -, -, -, -, -, hh, -⟩ := h
    exact hh
  have hraw : [(f, x)].foldl (fun x p => p.1.setIn x p.2) (keptFields s d r.off) % 2 ^ 32 = named s d r [(f, x)] := rfl
  have hlow : named s d r [(f, x)] % 2 ^ 32 = named s d r [(f, x)] := Nat.mod_mod _ _
  have hreg : writeReg s m d r (named s d r [(f, x)]) (2 ^ 32 - 1) = t.ans .ok := by
    have hreach : ¬ ((r.id.info.head = true ∧ d ≠ s.head) ∨ r.id.imageSet = true ∨ r.id.info.writable = 0) := by
      rintro (⟨hh, hne⟩ | hi | hz)
      · exact hne (hhead hh)
      · exact Bool.false_ne_true (himage.symm.trans hi)
      · exact hwrite hz
    unfold writeReg
    dsimp only
    rw [if_neg hreach, if_neg (by rw [hrws, Nat.and_zero]; exact fun h => h.left rfl), Nat.and_two_pow_sub_one_eq_mod, hlow, hw, if_neg]
    rintro ⟨-, hc⟩
    exact absurd (hopen.symm.trans hc) (by decide)
  rw [poke_eq hf, put32_open h ha, if_neg hcommit, hraw, hreg, coreSees_ok]

end

/-! ## Opening (R436, R439) -/

theorem sntBegin_writable : WritableIn .SNT ⟨.SNT_BEGIN, 0, 0⟩ := by
  unfold WritableIn
  decide

section
variable {s t : State} {m : Master} {die : Die}

theorem of_sntBegin (scope : Bool) : R.SNT_BEGIN.SCOPE.of (named s die ⟨.SNT_BEGIN, 0, 0⟩ [(R.SNT_BEGIN.SCOPE, scope.toNat)]) = scope.toNat :=
  of_named_same (by decide) rfl rfl (by cases scope <;> decide)

theorem exec_sntBegin_die (h : Reaches s m die ⟨.SNT_BEGIN, 0, 0⟩) : exec (.sntBegin m die false) s = .next ((sntOpen s m false die).ans .ok) := by
  have hscope : (R.SNT_BEGIN.SCOPE.of (named s die ⟨.SNT_BEGIN, 0, 0⟩ [(R.SNT_BEGIN.SCOPE, false.toNat)]) == 1) = false :=
    congrArg (· == 1) (of_sntBegin false)
  have hidle : ¬ ((false && die.val != s.head) || [die.val].any (fun d => sntState s d != Snt.idle)) = true := by
    rw [List.any_cons, h.sntIdle]
    simp
  have htaken : writeSntBegin s (mkWr s m die ⟨.SNT_BEGIN, 0, 0⟩ (named s die ⟨.SNT_BEGIN, 0, 0⟩ [(R.SNT_BEGIN.SCOPE, false.toNat)])
      (2 ^ 32 - 1)) = (sntOpen s m false die).ans .ok := by
    unfold writeSntBegin mkWr
    dsimp only
    rw [hscope, if_neg Bool.false_ne_true, if_neg hidle, List.foldl_cons, List.foldl_nil]
  exact congrArg Host.Outcome.next (poke_ok h sntBegin_writable.toWritable rfl htaken)

theorem exec_sntBegin_device (h : Reaches s m die ⟨.SNT_BEGIN, 0, 0⟩) (hhead : die.val = s.head) (hidle : ∀ d, d ∈ s.dies → sntState s d = Snt.idle) :
    exec (.sntBegin m die true) s = .next ((s.dies.foldl (fun u d => sntOpen u m true d) s).ans .ok) := by
  have hscope : (R.SNT_BEGIN.SCOPE.of (named s die ⟨.SNT_BEGIN, 0, 0⟩ [(R.SNT_BEGIN.SCOPE, true.toNat)]) == 1) = true :=
    congrArg (· == 1) (of_sntBegin true)
  have hnone : s.dies.any (fun d => sntState s d != Snt.idle) = false :=
    List.any_eq_false.mpr fun d hd => by rw [hidle d hd]; decide
  have htaken : writeSntBegin s (mkWr s m die ⟨.SNT_BEGIN, 0, 0⟩ (named s die ⟨.SNT_BEGIN, 0, 0⟩ [(R.SNT_BEGIN.SCOPE, true.toNat)])
      (2 ^ 32 - 1)) = (s.dies.foldl (fun u d => sntOpen u m true d) s).ans .ok := by
    unfold writeSntBegin mkWr
    dsimp only
    rw [hscope, if_pos rfl, hnone, if_neg (by simp [hhead])]
  exact congrArg _ (poke_ok h sntBegin_writable.toWritable rfl htaken)

end

/-! ## Staging (R436, R437) -/

section
variable {s u : State} {m : Master} {die : Die} {d x : Nat} {r : RegRef}

/-- Every RWS field lies in the first word of its register. -/
theorem rws_low (id : RegId) : (2 ^ 32 - 1) &&& id.info.rws = id.info.rws := by
  cases id <;> rfl

/-- The entries of a sentence once a register of it is staged. -/
def stagedEntries (s : State) (d : Nat) (r : RegRef) (v : Nat) : List SntEntry :=
  if (sntEntry s d r.off).isSome then
    (s.sntOf d).entries.map (fun e => if e.off = r.off then { e with val := rwsPart r v } else e)
  else (s.sntOf d).entries ++ [⟨r.off, rwsPart r v, rwsPart r (s.reg d r)⟩]

/-- What staging leaves: the entries, the first clash and the marks that SNT_STATUS shows. -/
theorem sntStage_eq (h : sntStage s m d r x = some u) : ∃ clash, u =
    if !sntOwns s m d then ((s.setSnt d { s.sntOf d with entries := stagedEntries s d r x, clash := clash }).p d R.SNT_STATUS.COUNT
      (stagedEntries s d r x).length).p d R.SNT_STATUS.INTRUDED 1
    else (s.setSnt d { s.sntOf d with entries := stagedEntries s d r x, clash := clash }).p d R.SNT_STATUS.COUNT
      (stagedEntries s d r x).length := by
  unfold sntStage at h
  dsimp only at h
  split at h
  · exact absurd h (by simp)
  · exact ⟨_, (Option.some.inj h).symm⟩

/-- The staged register is found with its new value. -/
theorem stagedEntries_find : ((stagedEntries s d r x).find? (fun e => e.off == r.off)).map (fun e => e.val) = some (rwsPart r x) := by
  unfold stagedEntries
  split
  · next hknown =>
    obtain ⟨e, he⟩ := Option.isSome_iff_exists.mp hknown
    have hfind : ∀ l : List SntEntry, l.find? (fun e => e.off == r.off) = some e →
        ((l.map (fun e => if e.off = r.off then { e with val := rwsPart r x } else e)).find? (fun e => e.off == r.off)).map (fun e => e.val) =
          some (rwsPart r x) := by
      intro l
      induction l with
      | nil => exact fun h => absurd h (by simp)
      | cons y l ih =>
        intro hl
        by_cases hy : y.off = r.off
        · simp [hy]
        · have hl : l.find? (fun e => e.off == r.off) = some e := by simpa [hy] using hl
          simpa [hy] using ih hl
    exact hfind _ he
  · next hnew =>
    have hnone : (s.sntOf d).entries.find? (fun e => e.off == r.off) = none := by simpa [sntEntry] using hnew
    rw [List.find?_append, hnone]
    simp

theorem stagedEntries_ne_nil : stagedEntries s d r x ≠ [] := by
  intro hnil
  have hfind := stagedEntries_find (s := s) (d := d) (r := r) (x := x)
  rw [hnil] at hfind
  exact absurd hfind (by simp)

/-- A sentence with entries is not at its reset value, so its record is read back. -/
theorem State.sntOf_setSnt_same {c : SntSt} (h : c.entries ≠ []) : (s.setSnt d c).sntOf d = c :=
  SMap.get_set_listed _ _ _ (fun hc => h (congrArg SntSt.entries hc))

theorem State.sntOf_p {d' y : Nat} {f : Fld} : (s.p d' f y).sntOf d = s.sntOf d := by
  unfold State.sntOf
  rw [State.p_snt]

theorem State.reg_congr {t : State} (h : s.cell (cellKey d r.off) = t.cell (cellKey d r.off)) : s.reg d r = t.reg d r := State.g_congr h

theorem sntStage_entry (h : sntStage s m d r x = some u) : (sntEntry u d r.off).map (fun e => e.val) = some (rwsPart r x) := by
  obtain ⟨clash, rfl⟩ := sntStage_eq h
  have hrecord : ∀ c : SntSt, c = { s.sntOf d with entries := stagedEntries s d r x, clash := clash } →
      ((s.setSnt d c).sntOf d).entries = stagedEntries s d r x := by
    rintro c rfl
    rw [State.sntOf_setSnt_same stagedEntries_ne_nil]
  unfold sntEntry
  split
  · rw [State.sntOf_p, State.sntOf_p, hrecord _ rfl]
    exact stagedEntries_find
  · rw [State.sntOf_p, hrecord _ rfl]
    exact stagedEntries_find

theorem sntStage_reg (h : sntStage s m d r x = some u) (hr : r.off / 8 ≠ R.SNT_STATUS.STATE.off / 8) : u.reg d r = s.reg d r := by
  obtain ⟨clash, rfl⟩ := sntStage_eq h
  have hkey : cellKey d r.off ≠ cellKey d R.SNT_STATUS.COUNT.off := by
    unfold cellKey
    simp only [R.SNT_STATUS.STATE] at hr
    simp only [R.SNT_STATUS.COUNT]
    omega
  refine State.reg_congr ?_
  split
  · exact ((State.cell_p_other _ d R.SNT_STATUS.INTRUDED 1 _ hkey).trans (State.cell_p_other _ d R.SNT_STATUS.COUNT _ _ hkey)).trans
      (State.cell_congr (s.setSnt_rf d _) _)
  · exact (State.cell_p_other _ d R.SNT_STATUS.COUNT _ _ hkey).trans (State.cell_congr (s.setSnt_rf d _) _)

theorem exec_stagedWrite {v : Word} (h : Open s m die r) (himage : r.id.imageSet = false) (hrws : r.id.info.rws ≠ 0)
    (hall : r.id.info.writable = r.id.info.rws) (ha : r.off % 4 = 0)
    (hx : x = r.id.info.merge (stagedOver s die r (s.reg die r)) v.toNat (2 ^ 32 - 1 &&& r.id.info.rws))
    (hstage : sntStage s m die r x = some u) : exec (.stagedWrite m die r.off v) s = .next (u.ans .ok) := by
  have hput := put32_open (v := v.toNat) h ha
  obtain ⟨-, -, -, -, -, -, hhead, hopen⟩ := h
  have hcommit : r.id ≠ .SNT_COMMIT := by
    intro hid
    rw [hid] at hrws
    exact hrws rfl
  have hreach : ¬ ((r.id.info.head = true ∧ die.val ≠ s.head) ∨ r.id.imageSet = true ∨ r.id.info.writable = 0) := by
    rintro (⟨hh, hne⟩ | hi | hz)
    · exact hne (hhead hh)
    · exact Bool.false_ne_true (himage.symm.trans hi)
    · exact hrws (hall.symm.trans hz)
  have hrest : r.id.info.writable &&& (2 ^ 32 - 1 &&& (2 ^ 64 - 1 - r.id.info.rws)) = 0 := by
    rw [hall]
    cases r.id <;> rfl
  have hstaged : writeStaged s m die r v.toNat (2 ^ 32 - 1) = u.ans .ok := by
    unfold writeStaged
    dsimp only
    rw [← hx, hstage]
    exact if_pos hrest
  have hwrite : writeReg s m die r v.toNat (2 ^ 32 - 1) = u.ans .ok := by
    unfold writeReg
    dsimp only
    rw [if_neg hreach, if_pos ⟨by rwa [rws_low], hopen⟩, hstaged]
  rw [if_neg hcommit, Nat.mod_eq_of_lt v.isLt, hwrite, coreSees_ok] at hput
  exact congrArg _ hput

end

/-! ## The end of a sentence on one die (R437, R438, R440) -/

section
variable {s t u : State} {m : Master} {die : Die} {d : Nat}

theorem sntDies_one (h : sntDevice s d = false) : sntDies s d = [d] := if_neg (by rw [h]; decide)

theorem sntFinish_one {res : Nat} {bad : Option (Nat × Nat)} (h : sntDevice s d = false) : sntFinish s d res bad =
    sntPulse (match bad with
      | some (b, o) => if d = d ∨ (d = b ∧ res ≠ SntRes.unreachable) then sntFail (sntClose s d res) d b o
        else sntFail (sntClose s d res) d 0 0
      | none => sntFail (sntClose s d res) d 0 0) d false := by
  have hlist : [d].filter (fun x => !false || headReaches s x) = [d] := by simp
  unfold sntFinish
  dsimp only
  rewrite [h, sntDies_one h, hlist, List.foldl_cons, List.foldl_nil]
  cases bad with
  | none => rfl
  | some x => rfl

theorem sntFinish_ok (h : sntDevice s d = false) :
    sntFinish s d SntRes.ok none = sntPulse (sntFail (sntClose s d SntRes.ok) d 0 0) d false := sntFinish_one h

theorem sntRefuse_one {x : SntBad} (hx : x.die = d) (hu : u = (match x.gate with | some b => gateRefused s d b | none => s))
    (h : sntDevice u d = false) :
    sntRefuse s d x = (sntPulse (sntFail (sntClose u d x.res) d d x.off) d false).ans .accessError := by
  subst hx
  have hgate : sntRefuse s x.die x = (sntFinish u x.die x.res (some (x.die, x.off))).ans .accessError := by
    subst hu
    rfl
  rw [hgate, sntFinish_one h]
  dsimp only
  rw [if_pos (.inl rfl)]

theorem sntRollback_one {res : Nat} (hopen : sntState s d = Snt.opened) (h : sntDevice s d = false) :
    sntRollback s d res = sntPulse (sntFail (sntClose s d res) d 0 0) d false := by
  have hlist : (if headReaches s d then (sntDies s d).filter (fun x => x == d || headReaches s x) else [d]) = [d] := by
    rw [sntDies_one h]
    simp
  unfold sntRollback
  dsimp only
  rw [if_neg (by rw [hopen]; decide), hlist, h, Bool.false_and, if_neg Bool.false_ne_true, List.foldl_cons, List.foldl_nil]

theorem sntMay_one (hopen : sntState s d = Snt.opened) (howns : sntOwns s m d = true) (h : sntDevice s d = false) :
    sntMay s m d true = true := by
  simp [sntMay, hopen, howns, h]

theorem Open.opened {r : RegRef} (h : Open s m d r) : sntState s d = Snt.opened := by
  obtain ⟨-, -, -, -, -, -, -, hs⟩ := h
  exact hs

theorem Open.notBelow {r : RegRef} (h : Open s m d r) : s.belowRun d = false := by
  obtain ⟨-, -, hb, -⟩ := h
  exact hb

/-! ### Commit -/

theorem holders_running (h : sntDevice s d = false) (hrun : s.running d = true) : (sntHolders s d).all s.running = true := by
  refine List.all_eq_true.mpr fun x hx => ?_
  have hmem := List.mem_of_mem_filter hx
  rw [sntDies_one h] at hmem
  rwa [List.mem_singleton.mp hmem]

theorem holders_awake (h : sntDevice s d = false) (hbelow : s.belowRun d = false) :
    (sntHolders s d).foldl (fun s x => if s.belowRun x then packetWake s x else s) s = s := by
  have hstep : (if s.belowRun d then packetWake s d else s) = s := if_neg (by rw [hbelow]; decide)
  unfold sntHolders
  rw [sntDies_one h, List.filter_cons, List.filter_nil]
  split
  · rw [List.foldl_cons, List.foldl_nil, hstep]
  · rfl

theorem prepareAll_one : prepareAll false s [d] = match prepare s d with
    | .error b => .error b
    | .ok t => .ok t := by
  unfold prepareAll
  rw [if_neg (by simp)]
  cases prepare s d <;> rfl

section
variable (h : Open s m die ⟨.SNT_COMMIT, 0, 0⟩) (howns : sntOwns s m die = true) (hdev : sntDevice s die = false)
  (hrun : s.running die = true) (hfull : s.fullStopped die = false)
include h howns hdev hrun hfull

/-- A commit on a die that runs is judged at once. -/
theorem writeSntCommit_one {w : Wr} (hd : w.d = die) (hm : w.m = m) (hgo : R.SNT_COMMIT.GO.of w.raw = 1) : writeSntCommit s w =
    match prepare s die with
    | .error x => sntRefuse s die x
    | .ok _ => (s.p die R.SNT_STATUS.STATE Snt.committing).noAnswer := by
  have hmay := sntMay_one h.opened howns hdev
  have hready : [die.val].find? (fun x => (false && !headReaches s x) || (s.fullStopped x && !(s.sntOf x).entries.isEmpty)) = none := by
    simp [hfull]
  unfold writeSntCommit
  dsimp only
  rw [hd, hm, hgo, show ((1 : Nat) == 1) = true from rfl, if_pos hmay, hdev, sntDies_one hdev, hready]
  dsimp only
  rw [holders_awake hdev h.notBelow, holders_running hdev hrun, if_pos rfl, prepareAll_one]
  cases prepare s die <;> rfl

theorem put_sntCommit : exec (.sntCommit m die true) s = .next ((match prepare s die with
    | .error x => sntRefuse s die x
    | .ok _ => (s.p die R.SNT_STATUS.STATE Snt.committing).noAnswer).coreSees m true (die * 0x1000000 + RegRef.off ⟨.SNT_COMMIT, 0, 0⟩)) := by
  have hgo : R.SNT_COMMIT.GO.of (named s die ⟨.SNT_COMMIT, 0, 0⟩ [(R.SNT_COMMIT.GO, 1)]) = 1 := of_named_same (by decide) rfl rfl (by decide)
  have hpoke := poke_eq (s := s) (m := m) (d := die) (r := ⟨.SNT_COMMIT, 0, 0⟩) (f := R.SNT_COMMIT.GO) rfl 1 []
  rw [put32_open h (by decide), if_pos rfl, writeSntCommit_one h howns hdev hrun hfull rfl rfl hgo] at hpoke
  exact congrArg _ hpoke

theorem exec_sntCommit_ok (hok : prepare s die = .ok u) :
    exec (.sntCommit m die true) s = .next (s.p die R.SNT_STATUS.STATE Snt.committing).noAnswer := by
  rw [put_sntCommit h howns hdev hrun hfull, hok]
  exact congrArg _ (coreSees_ok _ _ _ _)

theorem exec_sntCommit_refused {x : SntBad} (hbad : prepare s die = .error x) (hx : x.die = die)
    (hu : u = (match x.gate with | some b => gateRefused s die b | none => s)) (hudev : sntDevice u die = false) :
    exec (.sntCommit m die true) s = .next (((sntPulse (sntFail (sntClose u die x.res) die die x.off) die false).ans .accessError).coreTrap m
      .storeFault (die * 0x1000000 + RegRef.off ⟨.SNT_COMMIT, 0, 0⟩)) := by
  rw [put_sntCommit h howns hdev hrun hfull, hbad]
  dsimp only
  rw [sntRefuse_one hx hu hudev, coreSees_refused]

end

theorem exec_applyTick (hp : s.present die = true) (hstate : sntState s die = Snt.committing) (hdev : sntDevice s die = false)
    (hrun : s.running die = true) (hok : prepare s die = .ok u) :
    exec (.applyTick die) s = .next ((sntFinish (leaveGated u die) die SntRes.ok none).ans .ok) := by
  calc exec (.applyTick die) s = execApplyTick die s := rfl
    _ = _ := by
      unfold execApplyTick
      rw [if_pos ⟨hp, hstate, .inl hdev, holders_running hdev hrun⟩, hdev, sntDies_one hdev, prepareAll_one, hok]
      rfl

theorem exec_sntRollback (h : Open s m die ⟨.SNT_ROLLBACK, 0, 0⟩) (howns : sntOwns s m die = true) (hdev : sntDevice s die = false)
    (ht : t = sntFail (sntClose s die SntRes.rolledBack) die 0 0) :
    exec (.sntRollback m die true) s = .next ((sntPulse t die false).ans .ok) := by
  have hgo : R.SNT_ROLLBACK.GO.of (named s die ⟨.SNT_ROLLBACK, 0, 0⟩ [(R.SNT_ROLLBACK.GO, true.toNat)]) = 1 :=
    of_named_same (by decide) rfl rfl (by decide)
  have htaken : writeSntRollback s (mkWr s m die ⟨.SNT_ROLLBACK, 0, 0⟩ (named s die ⟨.SNT_ROLLBACK, 0, 0⟩
      [(R.SNT_ROLLBACK.GO, true.toNat)]) (2 ^ 32 - 1)) = (sntPulse t die false).ans .ok := by
    unfold writeSntRollback mkWr
    dsimp only
    rw [hgo, show ((1 : Nat) == 1) = true from rfl, if_pos (sntMay_one h.opened howns hdev), sntRollback_one h.opened hdev, ht]
  exact congrArg _ (poke_open h (by decide) rfl RegId.noConfusion rfl (by decide) rfl htaken)

theorem exec_sentenceTimeout (hp : s.present die = true) (hopen : sntState s die = Snt.opened) (htmo : s.g die R.SNT_CFG.TMO ≠ 0)
    (hdev : sntDevice s die = false) :
    exec (.sentenceTimeout die) s = .next (sntPulse (sntFail (sntClose s die SntRes.timeout) die 0 0) die false) :=
  congrArg _ ((if_pos ⟨hp, hopen, htmo⟩).trans (sntRollback_one hopen hdev))

end

/-- Settles O58: a sentence of one die has that die alone, so that each of its ends is the closing of one engine; a staged register keeps its
value, as staging writes the entry list and SNT_STATUS only. -/
theorem sentencesComplete : Obligations.SentencesComplete := by
  refine fun s t m die ht => ⟨exec_sntBegin_die, exec_sntBegin_device, fun r v x u h himage hrws hall ha hoff hx hstage =>
      ⟨exec_stagedWrite h himage hrws hall ha hx hstage, sntStage_entry hstage, sntStage_reg hstage hoff⟩,
    fun u h howns hdev hrun hfull => ⟨exec_sntCommit_ok h howns hdev hrun hfull, ?_⟩, fun u => exec_applyTick,
    fun h howns hdev => exec_sntRollback h howns hdev ht, exec_sentenceTimeout⟩
  rintro x r hbad hx hu hudev rfl
  exact exec_sntCommit_refused h howns hdev hrun hfull hbad hx hu hudev

end Sys2Proof.Machine
end

/-! # The power ladder (R442 to R446) -/

section
set_option Elab.async false
namespace Sys2Proof.Machine

/-! ## Requests (R442, R446) -/

theorem pwrCtrl_writable : WritableIn .PWR ⟨.PWR_CTRL, 0, 0⟩ := by
  unfold WritableIn
  decide

theorem pwrTarget_apart : R.PWR_CTRL.TARGET.off < 2 ^ 24 ∧ R.PWR_STATUS.STATE.ok ∧ R.PWR_STATUS.PHASE.ok ∧
    R.PWR_CTRL.TARGET.apart R.PWR_STATUS.STATE ∧ R.PWR_CTRL.TARGET.apart R.PWR_STATUS.PHASE := by
  unfold Fld.ok Fld.apart
  decide

section
variable {s t : State} {m : Master} {die : Die} {g : Fin 8} {scope : Bool}

/-- The target and the scope that a request names. -/
theorem of_pwrCtrl : R.PWR_CTRL.TARGET.of (written s die ⟨.PWR_CTRL, 0, 0⟩
      (named s die ⟨.PWR_CTRL, 0, 0⟩ [(R.PWR_CTRL.TARGET, g), (R.PWR_CTRL.SCOPE, scope.toNat)])) = g ∧
    (R.PWR_CTRL.SCOPE.of (named s die ⟨.PWR_CTRL, 0, 0⟩ [(R.PWR_CTRL.TARGET, g), (R.PWR_CTRL.SCOPE, scope.toNat)]) == 1) = scope := by
  rw [written, merge_taken _ _ _ _ _ (by decide) (by decide), of_named _ (by decide), of_named _ (by decide), List.foldl_cons, List.foldl_cons,
    List.foldl_nil]
  simp (disch := decide) only [of_over_other, of_over_same]
  exact ⟨Nat.mod_eq_of_lt g.isLt, by cases scope <;> rfl⟩

theorem writePwr_request {w : Wr} (hw : w = mkWr s m die ⟨.PWR_CTRL, 0, 0⟩
      (named s die ⟨.PWR_CTRL, 0, 0⟩ [(R.PWR_CTRL.TARGET, g), (R.PWR_CTRL.SCOPE, scope.toNat)]) (2 ^ 32 - 1)) :
    writePwr s w = if ladOk s die g scope && !ladConflict s die g scope then
      (ladRequest (s.p die R.PWR_CTRL.TARGET g) die g scope).ans .ok else s.ans .accessError := by
  obtain ⟨htarget, hscope⟩ := of_pwrCtrl (s := s) (die := die) (g := g) (scope := scope)
  have htarget : R.PWR_CTRL.TARGET.of w.new = g := by
    subst hw
    exact htarget
  have hscope : (R.PWR_CTRL.SCOPE.of w.raw == 1) = scope := by
    subst hw
    exact hscope
  have hd : w.d = die := by rw [hw, mkWr]
  have hr : w.r.id = .PWR_CTRL := by rw [hw, mkWr]
  unfold writePwr
  rw [hr]
  dsimp only
  rw [htarget, hscope, hd]

theorem exec_ladderRequest_taken (h : Reaches s m die ⟨.PWR_CTRL, 0, 0⟩) (hok : ladOk s die g scope = true)
    (hfree : ladConflict s die g scope = false) :
    exec (.ladderRequest m die g scope) s = .next ((ladRequest (s.p die R.PWR_CTRL.TARGET g) die g scope).ans .ok) := by
  have htaken := (writePwr_request (s := s) (m := m) (die := die) (g := g) (scope := scope) rfl).trans (if_pos (by rw [hok, hfree]; rfl))
  exact congrArg Host.Outcome.next (poke_ok h pwrCtrl_writable.toWritable rfl htaken)

theorem exec_ladderRequest_refused (h : Reaches s m die ⟨.PWR_CTRL, 0, 0⟩) (hbad : ladOk s die g scope = false) :
    exec (.ladderRequest m die g scope) s =
      .next ((s.ans .accessError).coreTrap m .storeFault (die * 0x1000000 + RegRef.off ⟨.PWR_CTRL, 0, 0⟩)) := by
  have hrefused := (writePwr_request (s := s) (m := m) (die := die) (g := g) (scope := scope) rfl).trans (if_neg (by rw [hbad]; simp))
  exact congrArg Host.Outcome.next (poke_refused h pwrCtrl_writable.toWritable rfl hrefused)

/-- Nothing is latched where no die of the request has PEND set. -/
theorem ladConflict_none {d k : Nat} (h : ∀ x, x ∈ ladDies s d scope → s.on x R.PWR_STATUS.PEND = false) : ladConflict s d k scope = false :=
  List.any_eq_false.mpr fun x hx => by simp [h x hx]

/-- A deeper request of a die that stands still is entered. -/
theorem ladTake_deeper {d k : Nat} {trip : Bool} (hphase : ladPhase s d = LPhase.steady) (hdeep : ladState s d < k) :
    ladTake s d k trip = ladEnter s d k trip := by
  unfold ladTake
  dsimp only
  rw [if_neg (by rw [hphase]; decide), if_neg (by rw [hphase]; decide), if_neg (by omega), if_pos hdeep]

theorem exec_ladderRequest_die (h : Reaches s m die ⟨.PWR_CTRL, 0, 0⟩) (hpend : s.on die R.PWR_STATUS.PEND = false) (hc : Canonical s)
    (hphase : ladPhase s die = LPhase.steady) (ht : t = s.p die R.PWR_CTRL.TARGET g) (hdeep : ladState s die < g) (hg : g ≤ 3) :
    exec (.ladderRequest m die g false) s = .next ((ladEnter t die g false).ans .ok) := by
  have hle : g.val ≤ 3 := hg
  obtain ⟨hoff, hstate, hph, hapart, hapart'⟩ := pwrTarget_apart
  have hphase' : ladPhase t die = LPhase.steady := by
    rw [ht]
    exact (s.g_p_other die die _ _ _ hoff hph hc (.inr hapart')).trans hphase
  have hdeep' : ladState t die < g := by
    rw [ht]
    exact (s.g_p_other die die _ _ _ hoff hstate hc (.inr hapart)).trans_lt hdeep
  have hok : ladOk s die g false = true := by
    have hne : g.val ≠ Ladder.fullStop := by
      unfold Ladder.fullStop
      omega
    have hle4 : g.val ≤ 4 := by omega
    simp [ladOk, hle4, hne]
  have hfree : ladConflict s die g false = false := ladConflict_none fun x hx => by rwa [List.mem_singleton.mp hx]
  rw [exec_ladderRequest_taken h hok hfree, ← ht, ← ladTake_deeper hphase' hdeep']
  rfl

theorem exec_ladderRequest_fullStop (h : Reaches s m die ⟨.PWR_CTRL, 0, 0⟩) (ht : t = s.p die R.PWR_CTRL.TARGET g) (hg : g = 4)
    (hhead : die.val = s.head) (hpend : ∀ d, d ∈ s.dies → s.on d R.PWR_STATUS.PEND = false) :
    exec (.ladderRequest m die g true) s = .next ((s.dies.foldl (fun u d => ladTake u d 4 false) t).ans .ok) := by
  subst hg
  have hok : ladOk s die (4 : Fin 8) true = true := by simp [ladOk, hhead]
  have hdies : t.dies = s.dies := by
    rw [ht]
    exact State.dies_of_dev (s.p_dev die R.PWR_CTRL.TARGET _)
  rw [exec_ladderRequest_taken h hok (ladConflict_none hpend), ← ht, ← hdies]
  rfl

theorem exec_ladderRequest_bad (h : Reaches s m die ⟨.PWR_CTRL, 0, 0⟩) (hbad : 5 ≤ g ∨ (g = 4 ∧ scope = false)) :
    exec (.ladderRequest m die g scope) s =
      .next ((s.ans .accessError).coreTrap m .storeFault (die * 0x1000000 + RegRef.off ⟨.PWR_CTRL, 0, 0⟩)) := by
  refine exec_ladderRequest_refused h ?_
  rcases hbad with hg | ⟨rfl, rfl⟩
  · have hgt : ¬ g.val ≤ 4 := Nat.not_le.mpr hg
    simp [ladOk, hgt]
  · simp [ladOk, Ladder.fullStop]

end

/-! ## Entry, waking and exits (R443 to R445) -/

section
variable {s t : State} {die : Die} {l : LadSt} (hl : l = s.ladOf die)
include hl

section
variable (hp : s.present die = true) (hphase : ladPhase s die = LPhase.entering)
include hp hphase

theorem exec_ladderEntryProceed (hdrained : l.drained = false) (hfree : blockerOf s die l.goal = 0)
    (hwait : ¬ ((decide (3 ≤ l.goal) : Bool) = true ∧ netWaits s die = true))
    (ht : t = if decide (3 ≤ l.goal) then drainDie s die else s) :
    exec (.ladderEntryProceed die) s = .next (t.setLad die { t.ladOf die with drained := true }) := by
  subst hl ht
  exact congrArg _ (if_pos ⟨hp, hphase, hdrained, .inr hfree, hwait⟩)

theorem exec_entryTimeout (hdrained : l.drained = false) (htrip : l.trip = false) (hblock : blockerOf s die l.goal ≠ 0)
    (hgoal : l.goal ≠ Ladder.fullStop) : exec (.entryTimeout die) s = .next (ladAbandon s (blockerOf s die l.goal) die) := by
  subst hl
  exact congrArg _ ((if_pos ⟨hp, hphase, hdrained, htrip, hblock⟩).trans (if_neg hgoal))

theorem exec_stateEntered (hdrained : l.drained = true) (hgoal : l.goal ≠ Ladder.fullStop)
    (hfree : l.trip = true ∨ blockerOf s die l.goal = 0)
    (ht : t = ((ladArriveDown s die l.goal).p die R.PWR_STATUS.STATE l.goal).p die R.PWR_STATUS.PHASE LPhase.steady) :
    exec (.stateEntered die) s = .next (ladSettle (t.p die R.PWR_EVT.ENTERED 1) die) := by
  subst hl ht
  exact congrArg _ (if_pos ⟨hp, hphase, hdrained, .inl hgoal, hfree⟩)

end

theorem exec_wakeTimerExpiry (honly : s.dies.filter (fun d => (s.ladOf d).timer && s.belowRun d) = [die.val])
    (hen : s.on die R.PWR_CFG.WAKE_TIMER = true) :
    exec .wakeTimerExpiry s = .next (wakeAll (s.setLad die { l with timer := false }) 5) := by
  subst hl
  calc exec .wakeTimerExpiry s = execWakeTimerExpiry s := rfl
    _ = _ := by
      unfold execWakeTimerExpiry
      dsimp only
      rw [honly, if_neg (by simp), if_pos (by simp [hen]), List.foldl_cons, List.foldl_nil]

theorem exec_colonGweStep (hcolon : l.colon = 1) (hphase : ladPhase s die = LPhase.exiting) :
    exec (.colonGweStep die) s = .next (arrive (s.setLad die { l with colon := 2 }) die) := by
  subst hl
  exact congrArg _ (if_pos ⟨hcolon, hphase⟩)

theorem exec_colonCoreStep (hcolon : l.colon = 2) (hstate : ladState s die < Ladder.colon) :
    exec (.colonCoreStep die) s = .next (startCores (s.setLad die { l with colon := 0 }) die) := by
  subst hl
  exact congrArg _ ((if_pos hcolon).trans (if_pos hstate))

end

section
variable {s : State} {die : Die}

/-- The state that a die leaves once its supplies and clocks are back. -/
theorem exec_exitComplete (hp : s.present die = true) (hphase : ladPhase s die = LPhase.exiting) (hreset : s.boot.inReset = none) :
    exec (.exitComplete die) s = .next (if ladState s die = Ladder.comma then arrive (ddrReturn s die) die
      else if ladState s die = Ladder.semicolon then arrive (lanesFromSemicolon (ddrReturn s die) die) die
      else if ladState s die = Ladder.colon then (if (s.ladOf die).colon = 0 then colonGsr s die else s)
      else if ladState s die = Ladder.fullStop ∧ s.phase ≠ Phase.housekeep ∧ s.dies.all (fun d => ladState s d == Ladder.fullStop
          && ladPhase s d == LPhase.exiting && rootState s d == Root.off) then fullStopExit s
      else s) :=
  congrArg _ (if_pos ⟨hp, hphase, hreset⟩)

end

/-- Settles O59: requests are writes of PWR_CTRL, taken or refused by R442's rules; entry, arrival, waking and the exits by the branch that
their conditions choose. -/
theorem ladderComplete : Obligations.LadderComplete := by
  refine fun s t m die l hl => ⟨fun g h hpend hc hphase ht => ⟨exec_ladderRequest_die h hpend hc hphase ht,
      exec_ladderRequest_fullStop h ht, ?_⟩,
    fun hp hphase hdrained htrip => ⟨fun hfree => ⟨fun hgoal => ?_, fun hgoal hwait ht => ?_⟩,
      exec_entryTimeout hl hp hphase hdrained htrip⟩,
    fun hp hphase hdrained hgoal hfree ht => exec_stateEntered hl hp hphase hdrained hgoal hfree ht,
    fun w hp hw => congrArg _ (if_pos ⟨hp, hw⟩), exec_wakeTimerExpiry hl, fun hen => congrArg _ (if_pos ⟨rfl, hen⟩),
    fun hp hphase hreset => ⟨fun hst => ?_, fun hst => ?_, fun hst hcolon => ?_, fun hst hready hall => ?_⟩,
    exec_colonGweStep hl, exec_colonCoreStep hl⟩
  · rintro r scope rfl hbad
    exact exec_ladderRequest_bad h hbad
  · rw [exec_ladderEntryProceed (t := s) hl hp hphase hdrained hfree (fun hd => absurd (of_decide_eq_true hd.left) (Nat.not_le.mpr hgoal))
      (if_neg (fun hd => absurd (of_decide_eq_true hd) (Nat.not_le.mpr hgoal))).symm, hl]
  · exact exec_ladderEntryProceed hl hp hphase hdrained hfree (fun hd => Bool.false_ne_true (hwait.symm.trans hd.right))
      (ht.trans (if_pos (decide_eq_true hgoal)).symm)
  · rw [exec_exitComplete hp hphase hreset, if_pos hst]
  · rw [exec_exitComplete hp hphase hreset, hst, if_neg (by decide), if_pos rfl]
  · rw [exec_exitComplete hp hphase hreset, hst, if_neg (by decide), if_neg (by decide), if_pos rfl, if_pos (hl ▸ hcolon)]
  · have hevery : s.dies.all (fun d => ladState s d == Ladder.fullStop && ladPhase s d == LPhase.exiting && rootState s d == Root.off) = true := by
      refine List.all_eq_true.mpr fun d hd => ?_
      obtain ⟨hs, hph, hroot⟩ := hall d hd
      rw [hs, hph, hroot]
      decide
    rw [exec_exitComplete hp hphase hreset, hevery, hst, if_neg (by decide), if_neg (by decide), if_neg (by decide), if_pos ⟨rfl, hready, rfl⟩]

end Sys2Proof.Machine
end

/-! # The thermal plant and the profile monitors (R448 to R453) -/

section
set_option Elab.async false
namespace Sys2Proof.Machine

/-! ## A step of the loop (R449, R450) -/

theorem percent_nonneg (x : Int) : 0 ≤ percent x := Int.le_max_left _ _

theorem percent_le (x : Int) : percent x ≤ 100000 := Int.max_le.mpr ⟨by decide, Int.min_le_right _ _⟩

section
variable {s t u : State} {d a : Int} {rpms : List (BitVec 16)}

/-! The limit and the heater leave the common duty, which only the loop moves. -/

theorem critStep_thm : (critStep s a).thm = s.thm := by
  unfold critStep
  dsimp only
  split <;> simp only [State.p_thm]

theorem heaterTo_duty (on : Bool) : (heaterTo s on).thm.duty = s.thm.duty := by
  unfold heaterTo
  simp only [State.p_thm]

theorem heaterStep_duty : (heaterStep s a).thm.duty = s.thm.duty := by
  unfold heaterStep
  split
  · split
    · exact heaterTo_duty _
    · rfl
  · split
    · exact heaterTo_duty _
    · rfl

theorem exec_thermalStep (hr : plantRuns s = true)
    (ht : t = heaterStep (critStep { fanSpeeds s rpms with thm := thmTick s.thm } (plantT s)) (plantT s))
    (hloop : loopStep t (plantT s) = (d, u)) :
    exec (.thermalStep rpms) s = .next (fanShow (fanStep d (fanStep d u 0) 1)) := by
  refine congrArg Host.Outcome.next ?_
  rw [if_pos hr]
  dsimp only at ht ⊢
  rw [← ht, hloop]

theorem loopStep_heater (h : loopStep t a = (d, u)) (hon : t.on t.head R.THM_STATUS.HEATER = true) : d = 0 ∧ u.thm.integral = 0 := by
  unfold loopStep at h
  obtain ⟨rfl, rfl⟩ := Prod.mk.inj h
  exact ⟨if_pos hon, if_pos hon⟩

theorem loopStep_bounds (h : loopStep t a = (d, u)) : 0 ≤ d ∧ d ≤ 100000 ∧ 0 ≤ u.thm.integral ∧ u.thm.integral ≤ 100000 := by
  by_cases hon : t.on t.head R.THM_STATUS.HEATER = true
  · obtain ⟨hd, hi⟩ := loopStep_heater h hon
    rw [hd, hi]
    decide
  · unfold loopStep at h
    obtain ⟨rfl, rfl⟩ := Prod.mk.inj h
    dsimp only
    rw [Bool.eq_false_of_not_eq_true hon]
    exact ⟨percent_nonneg _, percent_le _, percent_nonneg _, percent_le _⟩

/-- The duty moves towards the demand by no more than SLEW. -/
theorem loopStep_slew (h : loopStep t a = (d, u)) : (u.thm.duty - t.thm.duty).natAbs ≤ thmNat t R.THM_FAN_CFG.SLEW * 100 := by
  have hduty : u.thm.duty = if t.thm.duty ≤ d then min d (t.thm.duty + (thmNat t R.THM_FAN_CFG.SLEW : Int) * 100)
      else max d (t.thm.duty - (thmNat t R.THM_FAN_CFG.SLEW : Int) * 100) := by
    unfold loopStep at h
    obtain ⟨rfl, rfl⟩ := Prod.mk.inj h
    rfl
  rw [hduty]
  generalize thmNat t R.THM_FAN_CFG.SLEW = slew
  split <;> omega

end

/-! ## Fans (R449) -/

section
variable {s t : State} {fan : Fin 2} {rpm : BitVec 16}

theorem fanRpm_apart : ∀ fan : Fin 2, (R.THM_FAN_STATUS.RPM fan).off < 2 ^ 24 ∧ R.THM_SPIN_CFG.SPIN_RPM.ok ∧
    (R.THM_FAN_STATUS.RPM fan).apart R.THM_SPIN_CFG.SPIN_RPM := by
  unfold Fld.ok Fld.apart
  decide

section
variable (hr : plantRuns s = true) (hspin : fanState s fan = FanState.spinup)
  (ht : t = s.p s.head (R.THM_FAN_STATUS.RPM fan) rpm.toNat) (hc : Canonical s)
include ht

theorem afterRpm_head : t.head = s.head := by
  rw [ht]
  exact State.head_of_dev (s.p_dev _ _ _)

include hc in
/-- What a tach showed does not move the speed that it is judged by. -/
theorem spinRpm_afterRpm : thmNat t R.THM_SPIN_CFG.SPIN_RPM = s.g s.head R.THM_SPIN_CFG.SPIN_RPM := by
  obtain ⟨hoff, hok, hapart⟩ := fanRpm_apart fan
  rw [thmNat, afterRpm_head ht, ht]
  exact s.g_p_other _ _ _ _ _ hoff hok hc (.inr hapart)

include hr hspin

theorem exec_fanSpinupEnd : exec (.fanSpinupEnd fan rpm) s = .next (fanShow
    (if thmNat t R.THM_SPIN_CFG.SPIN_RPM ≤ rpm.toNat then fanTo t fan FanState.run 0
      else if 3 ≤ (s.thm.fan fan).tries + 1 then (fanTo t fan FanState.failed 0).p s.head R.THM_EVT.FAN_FAIL 1
      else fanTo t fan FanState.off ((s.thm.fan fan).tries + 1))) := by
  have hhead : t.head = s.head := afterRpm_head ht
  have hthm : t.thm = s.thm := by rw [ht, State.p_thm]
  calc exec (.fanSpinupEnd fan rpm) s = execFanSpinupEnd fan rpm s := rfl
    _ = _ := by
      unfold execFanSpinupEnd
      dsimp only
      rw [if_pos ⟨hr, hspin⟩, ← ht, hhead, hthm]

include hc

theorem exec_fanSpinupEnd_runs (hrpm : s.g s.head R.THM_SPIN_CFG.SPIN_RPM ≤ rpm.toNat) :
    exec (.fanSpinupEnd fan rpm) s = .next (fanShow (fanTo t fan FanState.run 0)) := by
  rw [exec_fanSpinupEnd hr hspin ht, spinRpm_afterRpm ht hc, if_pos hrpm]

theorem exec_fanSpinupEnd_fails (hrpm : rpm.toNat < s.g s.head R.THM_SPIN_CFG.SPIN_RPM) (htries : 2 ≤ (s.thm.fan fan).tries) :
    exec (.fanSpinupEnd fan rpm) s = .next (fanShow ((fanTo t fan FanState.failed 0).p s.head R.THM_EVT.FAN_FAIL 1)) := by
  rw [exec_fanSpinupEnd hr hspin ht, spinRpm_afterRpm ht hc, if_neg (Nat.not_le.mpr hrpm), if_pos (Nat.succ_le_succ htries)]

theorem exec_fanSpinupEnd_again (hrpm : rpm.toNat < s.g s.head R.THM_SPIN_CFG.SPIN_RPM) (htries : (s.thm.fan fan).tries < 2) :
    exec (.fanSpinupEnd fan rpm) s = .next (fanShow (fanTo t fan FanState.off ((s.thm.fan fan).tries + 1))) := by
  rw [exec_fanSpinupEnd hr hspin ht, spinRpm_afterRpm ht hc, if_neg (Nat.not_le.mpr hrpm), if_neg (by omega)]

end

theorem exec_fanStall (hr : plantRuns s = true) (hrun : fanState s fan = FanState.run)
    (hrpm : 2 * rpm.toNat < s.g s.head R.THM_SPIN_CFG.SPIN_RPM) : exec (.fanStall fan rpm) s =
      .next (fanShow (fanTo (s.p s.head (R.THM_FAN_STATUS.RPM fan) rpm.toNat) fan FanState.spinup 0)) :=
  congrArg Host.Outcome.next (if_pos ⟨hr, hrun, hrpm⟩)

end

section
variable {s : State} {m : Master} {die : Die}

theorem spinCfg_writable : WritableIn .THM ⟨.THM_SPIN_CFG, 0, 0⟩ := by
  unfold WritableIn
  decide

/-- A write of FAN_RETRY leaves the other settings of THM_SPIN_CFG. -/
theorem spinCfg_kept (h : Reaches s m die ⟨.THM_SPIN_CFG, 0, 0⟩) {f : Fld} (ho : f.off = RegRef.off ⟨.THM_SPIN_CFG, 0, 0⟩)
    (hf : f.lo + f.w ≤ 31) (hm : f.of (RegId.THM_SPIN_CFG.info.rw ||| RegId.THM_SPIN_CFG.info.rws) = 2 ^ f.w - 1)
    (htake : ∀ old raw, f.of (RegId.THM_SPIN_CFG.info.merge old raw (2 ^ 32 - 1)) = f.of raw) :
    f.of (written s die ⟨.THM_SPIN_CFG, 0, 0⟩ (named s die ⟨.THM_SPIN_CFG, 0, 0⟩ [(R.THM_SPIN_CFG.FAN_RETRY, 1)])) = s.g die f := by
  rw [written, htake, of_named _ (by omega), List.foldl_cons, List.foldl_nil, of_over_other _ _ _ _ (.inr hf)]
  exact h.of_keptFields ho (by omega) hm

theorem exec_fanRetry {x : Nat} (h : Reaches s m die ⟨.THM_SPIN_CFG, 0, 0⟩) (hppr : s.g die R.THM_SPIN_CFG.PPR ≠ 0)
    (htime : s.g die R.THM_SPIN_CFG.SPIN_TIME ≠ 0)
    (hx : x = written s die ⟨.THM_SPIN_CFG, 0, 0⟩ (named s die ⟨.THM_SPIN_CFG, 0, 0⟩ [(R.THM_SPIN_CFG.FAN_RETRY, 1)])) :
    exec (.fanRetry m die) s = .next ((fanRetry (s.setReg die ⟨.THM_SPIN_CFG, 0, 0⟩ x)).ans .ok) := by
  have hppr' : R.THM_SPIN_CFG.PPR.of x ≠ 0 := by
    rw [hx, spinCfg_kept h rfl (by decide) (by decide) fun old raw => merge_taken _ _ old raw _ (by decide) (by decide)]
    exact hppr
  have htime' : R.THM_SPIN_CFG.SPIN_TIME.of x ≠ 0 := by
    rw [hx, spinCfg_kept h rfl (by decide) (by decide) fun old raw => merge_taken _ _ old raw _ (by decide) (by decide)]
    exact htime
  have hretry := of_named_same (s := s) (die := die) (r := ⟨.THM_SPIN_CFG, 0, 0⟩) (f := R.THM_SPIN_CFG.FAN_RETRY)
    (f' := R.THM_SPIN_CFG.FAN_RETRY) (x := 1) (by decide) rfl rfl (by decide)
  have htaken : writeThm s (mkWr s m die ⟨.THM_SPIN_CFG, 0, 0⟩ (named s die ⟨.THM_SPIN_CFG, 0, 0⟩ [(R.THM_SPIN_CFG.FAN_RETRY, 1)])
      (2 ^ 32 - 1)) = (fanRetry (s.setReg die ⟨.THM_SPIN_CFG, 0, 0⟩ x)).ans .ok := by
    subst hx
    have hnew := not_or.mpr ⟨hppr', htime'⟩
    unfold written at hnew ⊢
    unfold writeThm mkWr
    dsimp only
    rw [if_neg hnew, if_pos hretry]
  exact congrArg Host.Outcome.next (poke_ok h spinCfg_writable.toWritable rfl htaken)

/-! ## Limits and sensors (R448, R451) -/

section
variable (hp : s.present die = true) (hrst : s.boot.inReset ≠ some .power)
include hp hrst

theorem exec_thermalTrip (htemp : 1200 ≤ dieTemp s die) (hlock : s.boot.lockdown = false) : exec (.thermalTrip die) s =
    .next (((s.pAll R.PWR_STATUS.TRIP 1).p s.head R.THM_EVT.TRIP 1).onDies (fun u d => ladTake u d Ladder.fullStop true)) :=
  congrArg Host.Outcome.next (if_pos ⟨hp, htemp, hrst, hlock⟩)

/-- Readings for all six rails are taken, rail by rail. -/
theorem exec_sensorUpdate {temp : BitVec 16} {mv : List (BitVec 16)} {u w : State} (hmv : mv.length = 6)
    (hu : u = s.p die R.THM_TEMP.TEMP temp.toNat)
    (hw : w = if sext 16 (u.g die R.THM_TEMP.PEAK) < temp.toInt then u.p die R.THM_TEMP.PEAK temp.toNat else u) :
    exec (.sensorUpdate die temp mv) s =
      .next ((List.range 6).foldl (fun x n => x.p die (R.THM_VOLT.MV n) (mv.getD n 0).toNat) w) := by
  calc exec (.sensorUpdate die temp mv) s = execSensorUpdate die temp mv s := rfl
    _ = _ := by
      unfold execSensorUpdate
      dsimp only
      rw [if_pos ⟨hp, hrst⟩, ← hu, ← hw]
      refine congrArg Host.Outcome.next (List.foldl_ext _ _ _ fun x n hn => ?_)
      have hn : n < mv.length := hmv ▸ List.mem_range.mp hn
      rw [List.getD_eq_getElem?_getD, List.getElem?_eq_getElem hn]
      rfl

theorem exec_railOutOfRange (rail : Fin 6) : exec (.railOutOfRange die rail) s = .next (s.setBit die R.THM_EVT.VOLT rail) :=
  congrArg Host.Outcome.next (if_pos ⟨hp, hrst⟩)

end

/-! ## Profile monitors (R452, R453) -/

theorem monCtrl_writable : ∀ k : Fin 16, WritableIn .MON ⟨.MON_CTRL, k, 0⟩ := by
  unfold WritableIn
  decide

theorem monCtrl_off (k : Nat) : (R.MON_CTRL.EN k).off = RegRef.off ⟨.MON_CTRL, k, 0⟩ := regOff_index _ rfl rfl

section
variable {k : Fin 16} {v : Word}

theorem exec_monEnable {x : Nat} (h : Reaches s m die ⟨.MON_CTRL, k, 0⟩) (hx : x = written s die ⟨.MON_CTRL, k, 0⟩ v.toNat)
    (hen : (R.MON_CTRL.EN 0).of x = 1) : exec (.monEnable m die k v) s =
      .next ((monStart ((stopMon s die k).setReg die ⟨.MON_CTRL, k, 0⟩ x) die k).ans .ok) := by
  have hstarts : ((R.MON_CTRL.EN 0).of x == 1 && (R.MON_CTRL.EN 0).of (2 ^ 32 - 1) == 1) = true := by
    rw [hen]
    decide
  have htaken : writeFamily s (mkWr s m die ⟨.MON_CTRL, k, 0⟩ v.toNat (2 ^ 32 - 1)) =
      (monStart ((stopMon s die k).setReg die ⟨.MON_CTRL, k, 0⟩ x) die k).ans .ok := by
    subst hx
    unfold written at hstarts ⊢
    unfold writeFamily
    simp only [mkWr, (monCtrl_writable k).block]
    unfold writeMon
    dsimp only
    rw [if_pos hstarts]
  have hput := put32_word_ok h (monCtrl_writable k).toWritable htaken
  rw [← monCtrl_off] at hput
  exact congrArg Host.Outcome.next hput

variable (hp : s.present die = true) (hon : s.on die (R.MON_CTRL.EN k) = true)
include hp hon

theorem exec_monSample {w : MonWin} (hsrc : s.g die (R.MON_SRC.SRC k) ≠ 0) (hrun : s.belowRun die = false)
    (hw : w = (s.monOf die k).take v.toNat (s.g die (R.MON_BIN.BASE k)) (s.g die (R.MON_BIN.SHIFT k))) :
    exec (.monSample die k v) s = .next (s.setMon die k w) := by
  rw [hw]
  exact congrArg Host.Outcome.next (if_pos ⟨hp, hon, hsrc, hrun⟩)

theorem exec_monWindowEnd {t : State} (ht : t = monStart ((monFreeze s die k).p die (R.MON_CTRL.DONE k) 1) die k) :
    exec (.monWindowEnd die k) s = .next (if t.on die (R.MON_CTRL.CONT k) then t else t.p die (R.MON_CTRL.EN k) 0) := by
  rw [ht]
  exact congrArg Host.Outcome.next (if_pos ⟨hp, hon⟩)

end

theorem MonWin.take_min (x : MonWin) (v base shift : Nat) : (x.take v base shift).min = Nat.min x.min v := rfl
theorem MonWin.take_max (x : MonWin) (v base shift : Nat) : (x.take v base shift).max = Nat.max x.max v := rfl
theorem MonWin.take_count (x : MonWin) (v base shift : Nat) : (x.take v base shift).count = (x.count + 1) % 2 ^ 64 := rfl
theorem MonWin.take_sum (x : MonWin) (v base shift : Nat) : (x.take v base shift).sum = (x.sum + v) % 2 ^ 64 := rfl

end

/-- Settles O60: a loop step's bounds are those of `percent` and of the slew, a spin-up ends by what the tach showed, and each other event
passes its guard. -/
theorem plantComplete : Obligations.PlantComplete := by
  intro s t m die fan rpm
  refine ⟨?_, ?_, exec_fanStall, ?_, ?_, ?_⟩
  · rintro a d u rpms hr rfl ht hloop
    obtain ⟨hd, hd', hi, hi'⟩ := loopStep_bounds hloop
    have hduty : t.thm.duty = s.thm.duty := by
      rw [ht, heaterStep_duty, critStep_thm]
      rfl
    exact ⟨exec_thermalStep hr ht hloop, hd, hd', hi, hi', hduty ▸ loopStep_slew hloop, loopStep_heater hloop⟩
  · intro hr hspin ht hc
    exact ⟨exec_fanSpinupEnd_runs hr hspin ht hc, exec_fanSpinupEnd_fails hr hspin ht hc, exec_fanSpinupEnd_again hr hspin ht hc⟩
  · exact fun x h hppr htime hx => exec_fanRetry h hppr htime hx
  · intro hp hrst
    exact ⟨exec_thermalTrip hp hrst, fun temp mv u w hmv hu hw => exec_sensorUpdate hp hrst hmv hu hw, exec_railOutOfRange hp hrst⟩
  · intro k
    refine ⟨fun v x h hx hen => exec_monEnable h hx hen, fun hp hon => ⟨fun v w hsrc hrun hw => ?_, exec_monWindowEnd hp hon⟩⟩
    exact ⟨exec_monSample hp hon hsrc hrun hw, hw ▸ MonWin.take_min _ _ _ _, hw ▸ MonWin.take_max _ _ _ _,
      hw ▸ MonWin.take_count _ _ _ _, hw ▸ MonWin.take_sum _ _ _ _⟩

end Sys2Proof.Machine
end
